-- ==== Sys2Proof/Word.lean ====
section
/-! DEFINITION. The plain words every file uses: bytes, the names of bays, pickups, lanes, layers and zones. -/

namespace Sys2Proof

/-- One byte. -/
abbrev Byte := BitVec 8

/-- A byte string, first byte first. -/
abbrev Bytes := List (BitVec 8)

/-- A bay number, 0 to 31 (R3: 16 to 31 exist on the YX3216 only). -/
abbrev BayId := Fin 32

/-- A PCI function: 0 is the PF, n is VF n (R256). -/
abbrev FnId := Fin 256

/-- A hamper slot of the status page (R250). -/
abbrev SlotId := Fin 16

/-- A bay region BR0 to BR3 (Table 00-4). -/
abbrev RegionId := Fin 4

/-- The two pickups of a bay, which are also its two disc surfaces (R10). -/
inductive Pu where
  | A
  | B
  deriving DecidableEq, Repr, Inhabited

/-- The other pickup of the bay. -/
def Pu.other : Pu → Pu
  | .A => .B
  | .B => .A

/-- 0 for A, 1 for B, as the wedge's surface bit and the event sources number them. -/
def Pu.idx : Pu → Nat
  | .A => 0
  | .B => 1

/-- The physical upstream lanes of a pickup (Table 02-1). -/
inductive PhysLane where
  | UP0
  | UP1
  | UPS
  deriving DecidableEq, Repr, Inhabited

/-- The code of a physical lane in `LANE_MAP` and `LANE_TRAIN` (R50). -/
def PhysLane.code : PhysLane → Nat
  | .UP0 => 0
  | .UP1 => 1
  | .UPS => 2

/-- The two zones of a layer (Table 01-2). -/
inductive Zone where
  | data
  | leadIn
  deriving DecidableEq, Repr, Inhabited

/-- A physical frame address: (surface, layer, zone, frame) (section Physical addresses of 01_disc_format.md). -/
structure FrameAddr where
  surf  : Pu
  layer : Nat
  zone  : Zone
  frame : Nat
  deriving DecidableEq, Repr, Inhabited

end Sys2Proof
end

