-- ==== Sys2Proof/Syntax.lean ====
section
/-! DEFINITION. The commands: one constructor of `Instr` per row of spec/opcode_table.json, in its order.
The table gives no bits and no operands; the operands here are what arrives with the event (frame bytes as
received, measured values, host data, which unit it concerns). -/

namespace Sys2Proof

/-- The closed loops that lock (R143). -/
inductive LoopSel where
  | focus
  | track
  | tilt
  deriving DecidableEq, Repr, Inhabited

/-- A unit of a control engine: a pickup unit or the bay's motor unit (R161). -/
inductive UnitSel where
  | pickup (p : Pu)
  | motor
  deriving DecidableEq, Repr, Inhabited

/-- The live banks a shadow stands behind (R168, Tables 08-6 and 09-10). -/
inductive BankSlot where
  | focusAcq
  | focusFollow
  | trackAcq
  | trackFollow
  | tilt
  | current
  | speed
  deriving DecidableEq, Repr, Inhabited

/-- Where a staged bank comes from (R166, R171). -/
inductive BankSource where
  | image
  | tune
  deriving DecidableEq, Repr, Inhabited

/-- One trial of the retry ladder (R116). -/
inductive Trial where
  | delta (track : Fin 16) (part : Fin 5) (cand : Int)
  | slip (track : Fin 16) (part : Fin 5)
  | longer
  | rescue
  deriving DecidableEq, Repr, Inhabited

/-- What raises a block fault of a kind that can fail several ways (R98, R124, R250, R179, R378). -/
inductive FaultCause where
  | check
  | store
  | stall
  deriving DecidableEq, Repr, Inhabited

/-- One sector as the recovery scan of R249 reads it: its member, row, and its decoded payload
(`none` where it reads `BLANK`). -/
structure ScanSector where
  member  : Fin 32
  row     : Nat
  payload : Option Bytes
  deriving DecidableEq, Repr, Inhabited

/-- The duplex block kinds of Table 18-3 that are compared (kinds 8 to 14). -/
inductive DuplexKind where
  | queueEngine
  | pcie
  | crypto
  | ddr
  | pool
  | regionControl
  | fabricSwitch
  deriving DecidableEq, Repr, Inhabited

/-- Which copies of a duplex block fail their own check (R376). -/
inductive DuplexWhich where
  | first
  | second
  | neither
  | both
  deriving DecidableEq, Repr, Inhabited

/-- Memory partitions in the row order of Table 14-2. -/
inductive Partition where
  | firmware
  | contexts
  | engine
  | journal
  | extentMaps
  | buffers
  | soft
  | writeStore
  | capture
  | diag
  | remap
  | sramKeep
  | sramPass
  | sramBare
  deriving DecidableEq, Repr, Inhabited

/-- The causes of a chip-fatal error, in the order of R383's list. -/
inductive FatalCause where
  | contexts
  | duplex
  | ddrPll
  | regions
  deriving DecidableEq, Repr, Inhabited

/-- The supply rails of Table 23-1 whose monitors assert a power-on reset (R442). -/
inductive Rail where
  | core
  | sram
  | serL
  | serH
  | vddq
  | io
  deriving DecidableEq, Repr, Inhabited

/-- The buffer classes of R315, highest first. -/
inductive BufClass where
  | commit
  | rebuild
  | read
  | stage
  | background
  deriving DecidableEq, Repr, Inhabited

/-- A block of the chip, by the kinds of Table 18-3 (region 0 to 3 are BR0 to BR3, 4 HR, 5 MR). -/
structure BlockId where
  kind   : Nat
  region : Nat
  inst   : Nat
  deriving DecidableEq, Repr, Inhabited

/-- What a NOR erase or program was started for (R293, R322, R367, R384). -/
inductive FlashOp where
  | stageErase
  | stageChunk
  | bootRecord
  | calRecord
  | crashRecord
  deriving DecidableEq, Repr, Inhabited

/-- The two directions of the motor link and the fabric links are the injection targets of Table 21-2;
the head-link lanes carry their pickup. -/
inductive WireSel where
  | up (l : PhysLane)
  | dn
  deriving DecidableEq, Repr, Inhabited

/-- A microphysical reading of the heartbeat: which side receives (R394). -/
inductive HbSide where
  | island
  | agent
  deriving DecidableEq, Repr, Inhabited

/-- The commands: the rows of spec/opcode_table.json.
Log 6 (DESIGN CHOICE). -/
inductive Instr where
  -- head link, sheet channel and loops, as the table lists them
  | hlinkSampleFrame (b : BayId) (p : Pu) (l : PhysLane) (raw : Bytes)
  | blockReleaseTimeout (b : BayId) (p : Pu)
  | timingHoldLimit (b : BayId) (p : Pu) (i : Fin 16)
  | hlinkServoFrame (b : BayId) (p : Pu) (l : PhysLane) (raw : Bytes) (upset : Bool)
  | servoTickMissing (b : BayId) (p : Pu)
  | missedTickUnlock (b : BayId) (p : Pu)
  | rowSwitchTimeout (b : BayId) (p : Pu)
  | loopLock (b : BayId) (p : Pu) (lp : LoopSel)
  | loopUnlock (b : BayId) (p : Pu) (lp : LoopSel)
  | bankSwapArm (b : BayId) (slot : BankSlot) (p : Pu) (src : BankSource) (bank : Bytes) (tick : Nat)
  | unitHandoverDone (b : BayId) (u : UnitSel)
  | elementFault (b : BayId) (p : Pu) (e : Fin 36)
  | hlinkReplyFrame (b : BayId) (p : Pu) (l : PhysLane) (raw : Bytes)
  | ctrlReplyTimeout (b : BayId) (p : Pu) (ctag : BitVec 8)
  | hlinkTrainFrame (b : BayId) (p : Pu) (l : PhysLane) (raw : Bytes)
  | hlinkTrainTimeout (b : BayId) (p : Pu)
  | upTrainLimit (b : BayId) (p : Pu)
  | hlinkTrainRetry (b : BayId) (p : Pu)
  | laneRetrainStart (b : BayId) (p : Pu) (l : PhysLane)
  | spareTrainDone (b : BayId) (p : Pu) (ok : Bool)
  | laneTrainResult (b : BayId) (p : Pu) (l : PhysLane) (ok : Bool)
  | laneMapBack (b : BayId) (p : Pu)
  | laneRetrainLimit (b : BayId) (p : Pu)
  | dnLost (b : BayId) (p : Pu)
  | spareStandbyApply (b : BayId)
  | wedgeProcess (b : BayId) (p : Pu)
  | frameLockLost (b : BayId) (p : Pu)
  | acqSearchTimeout (b : BayId) (p : Pu)
  | segmentSyncVote (b : BayId) (p : Pu)
  | sectorSoftCommit (b : BayId) (p : Pu)
  | detectorFault (r : RegionId) (d : Fin 17) (cause : FaultCause)
  | detectorSpareStart (r : RegionId)
  | ldpcCodewordDone (b : BayId) (p : Pu) (sector : FrameAddr) (cw : Fin 160)
  | ladderTrialDone (b : BayId) (p : Pu) (sector : FrameAddr) (trial : Trial)
  | rereadPass (b : BayId) (p : Pu) (sector : FrameAddr)
  | ladderTimeout (b : BayId) (p : Pu) (sector : FrameAddr)
  | ldpcDecoderFault (r : RegionId) (d : Fin 26) (cause : FaultCause)
  | ldpcSpareEnter (r : RegionId)
  | discIdentityRead (b : BayId)
  | sectorEncode (b : BayId) (p : Pu) (upset : Bool)
  | passBlockStart (b : BayId) (p : Pu)
  | segmentWriteSend (b : BayId) (p : Pu)
  | strategyBankLoad (b : BayId) (p : Pu) (layer : Fin 12)
  | relocExcursionStart (b : BayId)
  | pickupFocusSearchStart (b : BayId) (p : Pu)
  | pickupStateLimit (b : BayId) (p : Pu)
  | swathJumpIssue (b : BayId) (p : Pu) (s : Int)
  | targetFrameApproach (b : BayId) (p : Pu) (frame : Nat) (opensBlock : Bool)
  | sledFollowUpdate (b : BayId) (p : Pu)
  | restLoopJump (b : BayId) (p : Pu)
  | saTrimUpdate (b : BayId) (p : Pu)
  | layerJumpIssue (b : BayId) (p : Pu) (layer : Fin 12)
  | seekIssue (b : BayId) (radius : Nat)
  | recoverHoldEnd (b : BayId) (p : Pu)
  | localRecaptureEnd (b : BayId) (p : Pu)
  | pickupFailedRetry (b : BayId) (p : Pu)
  | clvRefSwitch (b : BayId)
  | clvRefRestore (b : BayId)
  | bayProbe (b : BayId)
  | autoTuneStart (b : BayId) (p : Pu) (lp : LoopSel)
  | autoTuneEnd (b : BayId) (p : Pu)
  | tuneRevertWindowEnd (b : BayId) (p : Pu) (lp : LoopSel)
  | cengCheckpoint (r : RegionId) (e : Fin 7)
  | cengCoreFault (r : RegionId) (e : Fin 7) (cause : FaultCause)
  | cengTakeoverDone (r : RegionId)
  | mlinkSenseFrame (b : BayId) (raw : Bytes) (upset : Bool)
  | mlinkTrainFrame (b : BayId) (raw : Bytes)
  | mlinkTrainTimeout (b : BayId)
  | mlinkTrainRetry (b : BayId)
  | mlinkLost (b : BayId)
  | speedLoopSample (b : BayId)
  | spindleStart (b : BayId)
  | spindleStop (b : BayId)
  | catchEnd (b : BayId)
  | alignEnd (b : BayId)
  | rampHandover (b : BayId)
  | startTryFail (b : BayId)
  | syncEnd (b : BayId)
  | decelLimit (b : BayId)
  | brakeShortToggle (b : BayId)
  | brakeShortLimit (b : BayId)
  | startWaitEnd (b : BayId)
  | spindleFaultRetry (b : BayId)
  | testCatch (b : BayId)
  | observerLost (b : BayId)
  | overspeedDetect (b : BayId)
  | overspeedStop (b : BayId)
  | speedReady (b : BayId)
  | sledCoarseStep (b : BayId)
  | sledTarget (b : BayId) (p : Pu) (radius : Int) (seek : Bool)
  | seekArrive (b : BayId) (p : Pu)
  | sledHoldReduce (b : BayId) (p : Pu)
  | sledPowerDown (b : BayId) (p : Pu)
  | sledTableLoad (b : BayId) (bank : Bool) (table : Bytes)
  -- hampers
  | writeStaged (f : FnId) (sr : Nat) (tag : BitVec 6) (blocks : List Bytes)
  | blockPlace (h : SlotId)
  | stripeCloseTimeout (h : SlotId)
  | sectorWriteOutcome (h : SlotId) (stripe : Nat) (member : Fin 32) (written : Bool)
  | checkpointWrite (h : SlotId)
  | hamperAutoMount (b : BayId)
  | memberRebuildStep (h : SlotId)
  | readRebuild (h : SlotId) (stripe : Nat) (pos : Nat)
  | memberGraceExpire (b : BayId) (p : Pu)
  | hamperMountRecover (h : SlotId)
  | hamperEngineFault (e : Fin 5) (cause : FaultCause)
  | hamperEngineTakeover
  -- rings and functions
  | srDoorbellWrite (f : FnId) (sr : Nat) (value : BitVec 32)
  | crHeadDoorbellWrite (f : FnId) (cr : Nat) (value : BitVec 32)
  | barWriteOther (f : FnId) (offset : Nat) (data : Bytes)
  | fetchGrant (entries : List (Bytes × List Bytes))
  | fetchFail (f : FnId) (sr : Nat)
  | dmaTransferFail (f : FnId) (sr : Nat) (tag : BitVec 6)
  | completionPost (f : FnId) (sr : Nat) (tag : BitVec 6)
  | crCoalesceTimeout (f : FnId) (cr : Nat)
  | holdLimitExpire (f : FnId) (sr : Nat) (tag : BitVec 6)
  | functionLevelReset (f : FnId)
  | busMasterEnableChange (f : FnId) (on : Bool)
  | vfEnable (count : Nat)
  | pcieLinkDegrade (width : Nat)
  | pciePerstLocal
  | ptmTimeUpdate (ns : Nat)
  -- host commands
  | createSr (f : FnId) (tag : BitVec 6)
  | deleteSr (f : FnId) (tag : BitVec 6)
  | createCr (f : FnId) (tag : BitVec 6)
  | deleteCr (f : FnId) (tag : BitVec 6)
  | read (f : FnId) (sr : Nat) (tag : BitVec 6)
  | write (f : FnId) (sr : Nat) (tag : BitVec 6)
  | verify (f : FnId) (sr : Nat) (tag : BitVec 6)
  | flush (f : FnId) (sr : Nat) (tag : BitVec 6)
  | abort (f : FnId) (sr : Nat) (tag : BitVec 6)
  | identify (f : FnId) (tag : BitVec 6)
  | health (f : FnId) (tag : BitVec 6)
  | healthClearCause (f : FnId) (tag : BitVec 6)
  | healthClearCounters (f : FnId) (tag : BitVec 6)
  | healthCalRequest (f : FnId) (tag : BitVec 6)
  | attestReport (f : FnId) (tag : BitVec 6)
  | attestCertChain (f : FnId) (tag : BitVec 6)
  | attestEnforceSignatures (f : FnId) (tag : BitVec 6)
  | attestRevokeKey (f : FnId) (tag : BitVec 6)
  | stageConfigOpen (tag : BitVec 6)
  | stageConfigChunk (tag : BitVec 6) (data : Bytes)
  | stageConfigCommit (tag : BitVec 6)
  | stageSessionIdle
  | activateFwFirmware (tag : BitVec 6)
  | activateFwCoreReset (tag : BitVec 6)
  | activateFwSystemReset (tag : BitVec 6)
  | fwactDrainEnd
  | fwStartResult (started : Bool)
  | mountAttach (tag : BitVec 6)
  | mountCreate (tag : BitVec 6) (block : Bytes)
  | mountReplace (tag : BitVec 6)
  | unmount (tag : BitVec 6)
  | faultInjectArm (tag : BitVec 6)
  | faultInjectCancel (tag : BitVec 6)
  | faultInjectCancelAll (tag : BitVec 6)
  | faultInjectList (tag : BitVec 6)
  | diagRawWrite (tag : BitVec 6) (block : Bytes)
  | diagRawRead (tag : BitVec 6)
  -- memory and buffers
  | memCorrectedError (part : Partition) (ch : Fin 8) (addr : Nat)
  | memUe (part : Partition) (ch : Fin 8) (addr : Nat)
  | mergeNarrowWrite (ch : Fin 8) (addr : Nat) (data : Bytes)
  | mergeEntryRetire (ch : Fin 8) (readUncorrectable : Bool)
  | bufferDraw (basket : Fin 256) (count : Nat) (requester : Nat)
  | bufferReturn (handle : Nat)
  -- resets, clocks and bring-up
  | powerOnReset
  | sysrstNAssert
  | pePerstSystem
  | resetRelease (source : Nat)
  | watchdogKick
  | watchdogFirstStage
  | watchdogFinalStage
  | coreResetRelease (copyGood : Bool) (failed : List (Fin 5))
  | blockResetRequest (blk : BlockId) (idle : Bool)
  | clockReleaseTimeout (blk : BlockId)
  | clockGoodLoss (blk : BlockId)
  | rootLost
  | ddrPllUnlock
  | bringupStep (ok : Bool) (rates : List Nat)
  | bayBringupStart (b : BayId)
  | vfReady (f : FnId)
  | hbeatIncrement
  | supplyMonitorTrip (rail : Rail)
  | vddAonTrip
  | thermalTrip
  | avsSetPoint (millivolts : Nat) (acked : Bool)
  -- calibration
  | calStepRun (b : BayId) (p : Pu) (item : Fin 13)
  | calRunDone (b : BayId) (p : Pu) (item : Fin 13) (unit : Nat) (result : List Int)
  | calGapForce (b : BayId) (p : Pu)
  | sliceMarginSweep (b : BayId) (p : Pu) (l : PhysLane) (slice : Fin 4) (margin after : Nat)
  | calRecordAppend (b : BayId) (u : UnitSel)
  -- fabric, duplex blocks, regions, chip
  | creditAudit (region : Fin 6) (link : Fin 8) (mismatch : Bool)
  | creditStarve (region : Fin 6) (link : Fin 8)
  | duplexDisagree (kind : DuplexKind) (region : Nat) (inst : Nat) (which : DuplexWhich) (again : Bool)
  | mgmtCoreFault (c : Fin 5) (cause : FaultCause)
  | mgmtTakeoverDone
  | regionLost (r : Fin 6)
  | chipFatal (cause : FatalCause) (kind : Nat) (inst : Nat)
  | crashRecordAppend
  -- safety island
  | lmonTrip (b : BayId)
  | ilkOpen
  | spdfToggle (b : BayId) (afterUs : Nat)
  | speedReport (b : BayId)
  | plausibilityTrip (b : BayId)
  | gateForce (b : BayId) (p : Pu)
  | bayHoldReceipt (b : BayId)
  | heartbeatWordRx (side : HbSide) (seq : BitVec 16) (checkGood : Bool) (onPeriod : Bool) (serviceGood : Bool)
  | heartbeatLostIsland
  | islandLostAgent
  | permitRequest (b : BayId) (lsafe : Bool) (ilkHighMs lmonHighMs : Nat)
  | keeperDrop (b : BayId) (lsafe : Bool)
  | outputReadback (b : BayId) (lsafe : Bool) (pinHigh : Bool)
  | lockstepMismatch
  | romCheck (good : Bool)
  | vddSafeExcursion
  | lmonMismatch (b : BayId)
  -- JTAG, DOE, injections, windows
  | jtagDebugUnlock
  | doeRequest (f : FnId) (dtype : BitVec 8) (payload : Bytes)
  | doeAbort (f : FnId)
  | injectActionStart (id : BitVec 16)
  | injectDurationEnd (id : BitVec 16)
  | injectLift (id : BitVec 16)
  | eventRateWindow
  | vddSafeReturn (selfTestGood : Bool)
  | trstNReset
  | flashEraseProgramDone (op : FlashOp) (good : Bool)
  deriving DecidableEq, Repr

end Sys2Proof
end

