-- ==== Sys2Proof/Decode.lean ====
section
/-! DEFINITION. The decoder of words: the opcode table gives none of its rows any bits, so no word spells a command. -/

namespace Sys2Proof

/-- The command a word spells by the table's bits: none, since no row of spec/opcode_table.json has bits.
Log 7 (DESIGN CHOICE). -/
def decodeTableWord (_nbits _w : Nat) : Option Instr := none

end Sys2Proof
end

