-- ==== Sys2Proof/Machine/Codec.lean ====
section
/-! DEFINITION. Byte order, bit order, check words, the lane scrambler, Galois-field arithmetic, Reed-Solomon codes and
the hash: the codes of R21, R31, R39, R41, R105, R108, R231, Table 01-7, and FIPS 202 (20_trust.md). -/

namespace Sys2Proof

/-! ### Byte and bit order -/

/-- Byte `i` of a byte string; 0 past its end. -/
def byteAt (bs : Bytes) (i : Nat) : Nat := (bs.getD i 0#8).toNat

/-- `n` bytes from offset `i`. -/
def slice (bs : Bytes) (i n : Nat) : Bytes := (bs.drop i).take n

/-- Unsigned value, most significant byte first (links, wedges, disc: R21, R39). -/
def beNat (bs : Bytes) : Nat := bs.foldl (fun a b => a * 256 + b.toNat) 0

/-- Unsigned value, least significant byte first (host structures and records: Table 00-5). -/
def leNat : Bytes → Nat
  | [] => 0
  | b :: bs => b.toNat + 256 * leNat bs

/-- `n` bytes, most significant first. -/
def beBytes : Nat → Nat → Bytes
  | 0, _ => []
  | n + 1, v => beBytes n (v / 256) ++ [BitVec.ofNat 8 v]

/-- `n` bytes, least significant first. -/
def leBytes : Nat → Nat → Bytes
  | 0, _ => []
  | n + 1, v => BitVec.ofNat 8 v :: leBytes n (v / 256)

/-- Big-endian field of `n` bytes at offset `i`. -/
def beAt (bs : Bytes) (i n : Nat) : Nat := beNat (slice bs i n)

/-- Little-endian field of `n` bytes at offset `i`. -/
def leAt (bs : Bytes) (i n : Nat) : Nat := leNat (slice bs i n)

/-- A two's-complement reading of a `w`-bit unsigned value. -/
def signedOf (w v : Nat) : Int := if v < 2 ^ (w - 1) then (v : Int) else (v : Int) - 2 ^ w

/-- The `w`-bit two's-complement pattern of an integer. -/
def unsignedOf (w : Nat) (v : Int) : Nat := (v % (2 ^ w : Int)).toNat

/-- `n` zero bytes. -/
def zeros (n : Nat) : Bytes := List.replicate n 0#8

/-- A byte string cut or filled with zeros to exactly `n` bytes. -/
def padTo (n : Nat) (bs : Bytes) : Bytes := (bs ++ zeros (n - bs.length)).take n

/-- `bs` with the bytes of `v` at offset `i`. -/
def putAt (bs : Bytes) (i : Nat) (v : Bytes) : Bytes := bs.take i ++ v ++ bs.drop (i + v.length)

/-- The bits of a byte, most significant first (R39). -/
def byteBits (b : Byte) : List Bool := [7, 6, 5, 4, 3, 2, 1, 0].map (fun i => b.getLsbD i)

/-- The bits of a byte string, each byte most significant bit first. -/
def bitsOf (bs : Bytes) : List Bool := bs.flatMap byteBits

/-- Unsigned value of a bit list, most significant first. -/
def natOfBits (bits : List Bool) : Nat := bits.foldl (fun a b => 2 * a + b.toNat) 0

/-- `w` bits of a value, most significant first. -/
def bitsOfNat : Nat → Nat → List Bool
  | 0, _ => []
  | w + 1, v => bitsOfNat w (v / 2) ++ [v % 2 == 1]

/-- Bytes of a bit list, most significant bit first; a last partial byte is filled with zeros. `n` bytes. -/
def bytesOfBits : Nat → List Bool → Bytes
  | 0, _ => []
  | n + 1, bits =>
    BitVec.ofNat 8 (natOfBits ((bits.take 8) ++ List.replicate (8 - (bits.take 8).length) false))
      :: bytesOfBits n (bits.drop 8)

/-- The ASCII bytes of a name. -/
def ascii (s : String) : Bytes := s.toList.map (fun c => BitVec.ofNat 8 c.toNat)

/-! ### Check words -/

/-- One bit of a most-significant-bit-first CRC. -/
def crcBit (poly : BitVec 32) (crc : BitVec 32) (bit : Bool) : BitVec 32 :=
  let top := crc.getLsbD 31 != bit
  let sh := crc <<< 1
  if top then sh ^^^ poly else sh

/-- The link check word: polynomial 0x1EDC_6F41, not reflected, from 0xFFFF_FFFF, no final XOR (R41). -/
def linkCrc (bs : Bytes) : BitVec 32 :=
  bs.foldl (fun c b => (byteBits b).foldl (crcBit 0x1EDC6F41#32) c) 0xFFFFFFFF#32

/-- One bit of a reflected 32-bit CRC. -/
def rcrcBit (poly : BitVec 32) (crc : BitVec 32) (bit : Bool) : BitVec 32 :=
  let low := crc.getLsbD 0 != bit
  let sh := crc >>> 1
  if low then sh ^^^ poly else sh

/-- The record check word: CRC-32, polynomial 0x04C1_1DB7 reflected, initial value and final XOR 0xFFFF_FFFF
(Table 01-7). -/
def recCrc (bs : Bytes) : BitVec 32 :=
  ~~~(bs.foldl (fun c b => ((byteBits b).reverse).foldl (rcrcBit 0xEDB88320#32) c) 0xFFFFFFFF#32)

/-- One bit of a reflected 64-bit CRC. -/
def rcrc64Bit (crc : BitVec 64) (bit : Bool) : BitVec 64 :=
  let low := crc.getLsbD 0 != bit
  let sh := crc >>> 1
  if low then sh ^^^ 0xC96C5795D7870F42#64 else sh

/-- The data check: CRC-64, ECMA-182 polynomial 0x42F0_E1EB_A9EA_3693 reflected, all ones in and out (R108). -/
def dataCheck (bs : Bytes) : BitVec 64 :=
  ~~~(bs.foldl (fun c b => ((byteBits b).reverse).foldl rcrc64Bit c) 0xFFFFFFFFFFFFFFFF#64)

/-- A record of `n` bytes whose last 4 bytes hold the check word over the rest, little-endian. -/
def sealRecord (n : Nat) (body : Bytes) : Bytes :=
  let b := padTo (n - 4) body
  b ++ leBytes 4 (recCrc b).toNat

/-- Whether a record of `n` bytes carries its check word. -/
def recordGood (n : Nat) (bs : Bytes) : Bool :=
  bs.length == n && leAt bs (n - 4) 4 == (recCrc (bs.take (n - 4))).toNat

/-! ### The lane scrambler and PAM4 -/

/-- The scrambler sequence from a 23-bit history (bit 0 newest): s(k) = s(k − 18) XOR s(k − 23) (R39). -/
def scramblerBits : Nat → BitVec 23 → List Bool
  | 0, _ => []
  | n + 1, h =>
    let s := h.getLsbD 17 != h.getLsbD 22
    s :: scramblerBits n ((h <<< 1) ||| (if s then 1#23 else 0#23))

/-- XOR of a frame with the scrambler, restarted with all ones at every frame (R39); scrambling and descrambling are
the same operation. -/
def scramble (bs : Bytes) : Bytes :=
  let s := scramblerBits (8 * bs.length) (BitVec.allOnes 23)
  bytesOfBits bs.length ((bitsOf bs).zipWith (fun a b => a != b) s)

/-- Gray mapping of a bit pair, first bit more significant, to the four PAM4 levels (R39). -/
def pam4Level (hi lo : Bool) : Int :=
  match hi, lo with
  | false, false => -3
  | false, true => -1
  | true, true => 1
  | true, false => 3

/-! ### Galois fields -/

/-- A field GF(2^deg) with its polynomial (the bit of x^deg included). -/
structure GField where
  deg  : Nat
  poly : Nat
  deriving DecidableEq, Repr

/-- GF(2^8) with x^8 + x^4 + x^3 + x^2 + 1 (R21). -/
def gf8 : GField := ⟨8, 0x11D⟩

/-- GF(2^16) with x^16 + x^12 + x^3 + x + 1 (R105, R231). -/
def gf16 : GField := ⟨16, 0x1100B⟩

/-- Multiplication by x, reduced. -/
def GField.xtime (F : GField) (a : Nat) : Nat :=
  let d := 2 * a
  if d < 2 ^ F.deg then d else d ^^^ F.poly

/-- Product in the field. -/
def GField.mul (F : GField) (a b : Nat) : Nat :=
  (List.range F.deg).foldl (fun acc i => (F.xtime acc) ^^^ (if b.testBit (F.deg - 1 - i) then a else 0)) 0

/-- Power by a list of exponent bits, most significant first. -/
def GField.powBits (F : GField) (a : Nat) (bits : List Bool) : Nat :=
  bits.foldl (fun acc b => let sq := F.mul acc acc; if b then F.mul sq a else sq) 1

/-- Power with a natural exponent below 2^17. -/
def GField.pow (F : GField) (a n : Nat) : Nat := F.powBits a (bitsOfNat 17 n)

/-- Inverse of a nonzero element: a^(2^deg − 2). -/
def GField.inv (F : GField) (a : Nat) : Nat := F.pow a (2 ^ F.deg - 2)

/-! ### Polynomials over a field, lowest degree first -/

/-- Sum. -/
def polyAdd : List Nat → List Nat → List Nat
  | [], q => q
  | p, [] => p
  | a :: p, b :: q => (a ^^^ b) :: polyAdd p q

/-- Product with a scalar. -/
def GField.polyScale (F : GField) (a : Nat) (p : List Nat) : List Nat := p.map (F.mul a)

/-- Product. -/
def GField.polyMul (F : GField) : List Nat → List Nat → List Nat
  | [], _ => []
  | a :: p, q => polyAdd (F.polyScale a q) (0 :: F.polyMul p q)

/-- Value at a point (Horner). -/
def GField.polyEval (F : GField) (p : List Nat) (x : Nat) : Nat :=
  p.foldr (fun c acc => (F.mul acc x) ^^^ c) 0

/-- Without leading zero coefficients. -/
def polyTrim (p : List Nat) : List Nat := (p.reverse.dropWhile (· == 0)).reverse

/-- Degree plus one (0 for the zero polynomial). -/
def polyLen (p : List Nat) : Nat := (polyTrim p).length

/-- Leading coefficient. -/
def polyLead (p : List Nat) : Nat := ((polyTrim p).getLast?).getD 0

/-- One pass of long division with a bound on the number of steps: quotient and remainder. -/
def GField.polyDivMod (F : GField) (d : List Nat) : Nat → List Nat → List Nat → List Nat × List Nat
  | 0, q, r => (q, r)
  | n + 1, q, r =>
    if polyLen r < polyLen d ∨ polyLen d = 0 then (q, polyTrim r)
    else
      let c := F.mul (polyLead r) (F.inv (polyLead d))
      let sh := polyLen r - polyLen d
      let t := List.replicate sh 0 ++ [c]
      F.polyDivMod d n (polyAdd q t) (polyTrim (polyAdd r (List.replicate sh 0 ++ F.polyScale c d)))

/-- The formal derivative in characteristic 2: odd coefficients move down. -/
def polyDeriv : List Nat → List Nat
  | [] => []
  | _ :: p => p.mapIdx (fun i c => if i % 2 = 0 then c else 0)

/-! ### Reed-Solomon codes

A word lists its symbols from the highest power down; the generator has roots α^0 to α^(r − 1), α = 0x02. -/

/-- The generator polynomial with `r` roots, lowest degree first. -/
def GField.rsGen (F : GField) (r : Nat) : List Nat :=
  (List.range r).foldl (fun g j => F.polyMul g [F.pow 2 j, 1]) [1]

/-- Systematic parity of a message (R21, R105, R231): the remainder of m(x)·x^r by the generator, highest power
first. -/
def GField.rsParity (F : GField) (r : Nat) (msg : List Nat) : List Nat :=
  let g := (F.rsGen r).reverse.drop 1
  msg.foldl (fun reg m =>
    let fb := m ^^^ (reg.headD 0)
    ((reg.drop 1) ++ [0]).zipWith (fun a b => a ^^^ F.mul fb b) g) (List.replicate r 0)

/-- Message followed by its parity. -/
def GField.rsEncode (F : GField) (r : Nat) (msg : List Nat) : List Nat := msg ++ F.rsParity r msg

/-- The `r` syndromes of a word. -/
def GField.rsSyndromes (F : GField) (r : Nat) (word : List Nat) : List Nat :=
  (List.range r).map (fun j => let x := F.pow 2 j; word.foldl (fun acc c => (F.mul acc x) ^^^ c) 0)

/-- A word is a codeword when every syndrome is 0. -/
def GField.rsIsCode (F : GField) (r : Nat) (word : List Nat) : Bool :=
  (F.rsSyndromes r word).all (· == 0)

/-- The key equation by the extended Euclidean algorithm: from x^r and the modified syndrome, until the remainder's
degree falls below (r + f) / 2: the error locator and the errata evaluator. -/
def GField.rsEuclid (F : GField) (stop : Nat) : Nat → List Nat → List Nat → List Nat → List Nat → List Nat × List Nat
  | 0, _, r1, _, t1 => (t1, r1)
  | n + 1, r0, r1, t0, t1 =>
    if polyLen r1 ≤ stop then (t1, polyTrim r1)
    else
      let (q, r2) := F.polyDivMod r1 (polyLen r0 + 1) [] r0
      F.rsEuclid stop n r1 r2 t1 (polyAdd t0 (F.polyMul q t1))

/-- Errors-and-erasures decoding of a word with `r` parity symbols and the erased positions `era`: the corrected word,
if one lies within 2e + f ≤ r (R21, R113). The result is checked to be a codeword that differs from the word in at
most (r − f) / 2 positions outside `era`. -/
def GField.rsDecode (F : GField) (r : Nat) (word : List Nat) (era : List Nat) : Option (List Nat) :=
  let n := word.length
  let w := word.mapIdx (fun i c => if era.contains i then 0 else c)
  let f := era.length
  if f > r then none
  else
    let synd := F.rsSyndromes r w
    let cand :=
      if synd.all (· == 0) then w
      else
        let loc := fun p => F.pow 2 (n - 1 - p)
        let gam := era.foldl (fun g p => F.polyMul g [1, loc p]) [1]
        let xi := (F.polyMul gam synd).take r
        let (sig, om) := F.rsEuclid ((r + f) / 2) (r + 1) (List.replicate r 0 ++ [1]) (polyTrim xi) [] [1]
        let lam := F.polyMul sig gam
        let der := polyDeriv lam
        w.mapIdx (fun p c =>
          let xp := loc p
          let xi' := F.inv xp
          if F.polyEval lam xi' = 0 then
            c ^^^ F.mul xp (F.mul (F.polyEval om xi') (F.inv (F.polyEval der xi')))
          else c)
    let errs := ((List.range n).filter (fun i => !era.contains i && cand.getD i 0 != word.getD i 0)).length
    if F.rsIsCode r cand && 2 * errs + f ≤ r then some cand else none

/-! ### SHA3-512 (FIPS 202; named by 20_trust.md, its steps taken from the standard) -/

/-- The rotation offsets of lane x + 5y. -/
def keccakRot : List Nat :=
  [0, 1, 62, 28, 27, 36, 44, 6, 55, 20, 3, 10, 43, 25, 39, 41, 45, 15, 21, 8, 18, 2, 61, 56, 14]

/-- The 24 round constants. -/
def keccakRc : List (BitVec 64) :=
  [0x0000000000000001#64, 0x0000000000008082#64, 0x800000000000808A#64, 0x8000000080008000#64,
   0x000000000000808B#64, 0x0000000080000001#64, 0x8000000080008081#64, 0x8000000000008009#64,
   0x000000000000008A#64, 0x0000000000000088#64, 0x0000000080008009#64, 0x000000008000000A#64,
   0x000000008000808B#64, 0x800000000000008B#64, 0x8000000000008089#64, 0x8000000000008003#64,
   0x8000000000008002#64, 0x8000000000000080#64, 0x000000000000800A#64, 0x800000008000000A#64,
   0x8000000080008081#64, 0x8000000000008080#64, 0x0000000080000001#64, 0x8000000080008008#64]

/-- One round of Keccak-f[1600] on the 25 lanes, lane x + 5y. -/
def keccakRound (a : List (BitVec 64)) (rc : BitVec 64) : List (BitVec 64) :=
  let at' := fun (l : List (BitVec 64)) i => l.getD i 0#64
  let c := (List.range 5).map (fun x => (List.range 5).foldl (fun acc y => acc ^^^ at' a (x + 5 * y)) 0#64)
  let d := (List.range 5).map (fun x => at' c ((x + 4) % 5) ^^^ (at' c ((x + 1) % 5)).rotateLeft 1)
  let th := a.mapIdx (fun i v => v ^^^ at' d (i % 5))
  -- ρ and π: lane (x, y) moves to (y, 2x + 3y)
  let b := (List.range 25).map (fun i =>
    let x' := i % 5
    let y' := i / 5
    -- the source (x, y) with y = x', 2x + 3y = y'
    let y := x'
    let x := (3 * (y' + 2 * y)) % 5
    (at' th (x + 5 * y)).rotateLeft (keccakRot.getD (x + 5 * y) 0))
  (List.range 25).map (fun i =>
    let x := i % 5
    let y := i / 5
    let v := at' b i ^^^ ((~~~ at' b ((x + 1) % 5 + 5 * y)) &&& at' b ((x + 2) % 5 + 5 * y))
    if i = 0 then v ^^^ rc else v)

/-- Keccak-f[1600]. -/
def keccakF (a : List (BitVec 64)) : List (BitVec 64) := keccakRc.foldl keccakRound a

/-- Absorption of a padded message, 72 bytes a block. -/
def sha3Absorb : Nat → List (BitVec 64) → Bytes → List (BitVec 64)
  | 0, st, _ => st
  | n + 1, st, msg =>
    let blk := msg.take 72
    let st' := st.mapIdx (fun i v => if i < 9 then v ^^^ BitVec.ofNat 64 (leAt blk (8 * i) 8) else v)
    sha3Absorb n (keccakF st') (msg.drop 72)

/-- SHA3-512: 64 bytes. -/
def sha3_512 (msg : Bytes) : Bytes :=
  let room := 72 - msg.length % 72
  let pad : Bytes := if room = 1 then [0x86#8] else [0x06#8] ++ zeros (room - 2) ++ [0x80#8]
  let m := msg ++ pad
  let st := sha3Absorb (m.length / 72) (List.replicate 25 0#64) m
  (st.take 8).flatMap (fun v => leBytes 8 v.toNat)

end Sys2Proof
end

