-- ==== Sys2Proof/Config.lean ====
section
/-! DEFINITION. What an implementation fixes: the parts, the configuration fields (named here; their ranges and
defaults stand in Machine/Fields.lean), the coefficient bank format, and the free values the spec leaves open. -/

namespace Sys2Proof

/-- The two parts of the family (Table 00-1). -/
inductive Part where
  | YX3216
  | YX1616
  deriving DecidableEq, Repr, Inhabited

/-- The classes of a configuration field (section Classes and boundaries of 15_configuration_image.md; R336 for
the `safety` section, whose argument says whether the safe direction is upward). -/
inductive FieldClass where
  | boot
  | boundary
  | live
  | safety (safeUp : Bool)
  deriving DecidableEq, Repr, Inhabited

/-- The value encodings of R325. -/
inductive FieldEnc where
  | uint
  | sint
  | enumeration
  | fixed
  | block
  deriving DecidableEq, Repr, Inhabited

/-- One row of a field table: path, section type and field number (R324), class, encoding, range, default.
Fixed-point values are the value times 65,536; enumerations are positions in the range column (R325). -/
structure FieldInfo where
  path     : String
  sec      : Nat
  num      : Nat
  cls      : FieldClass
  enc      : FieldEnc
  lo       : Int
  hi       : Int
  dflt     : Int
  required : Bool
  indexed  : Bool
  deriving DecidableEq, Repr, Inhabited

/-- The 241 configuration fields of Tables 02-11 to 21-7. -/
inductive Field where
  | hlinkSpareStandby -- `hlink.spare.standby`
  | hlinkUpErrWindowUs -- `hlink.up.err_window_us`
  | hlinkUpErrRetrain -- `hlink.up.err_retrain`
  | hlinkCtrlReplyTimeoutUs -- `hlink.ctrl.reply_timeout_us`
  | hlinkCtrlMaxTries -- `hlink.ctrl.max_tries`
  | hlinkTrainMaxAttempts -- `hlink.train.max_attempts`
  | hlinkTrainRetryIntervalS -- `hlink.train.retry_interval_s`
  | hlinkLaneRetireCount -- `hlink.lane.retire_count`
  | hlinkLaneRetireWindowS -- `hlink.lane.retire_window_s`
  | sheetRowEraseBits -- `sheet.row.erase_bits`
  | sheetNormTrackShift -- `sheet.norm.track_shift`
  | sheetNormServoShift -- `sheet.norm.servo_shift`
  | sheetPllKpFastShift -- `sheet.pll.kp_fast_shift`
  | sheetPllKpTrackShift -- `sheet.pll.kp_track_shift`
  | sheetPllKiShift -- `sheet.pll.ki_shift`
  | sheetPllWedgeShift -- `sheet.pll.wedge_shift`
  | sheetAcqXtCoef -- `sheet.acq.xt_coef`
  | sheetAcqMinCleanBits -- `sheet.acq.min_clean_bits`
  | sheetAcqSearchTimeoutUs -- `sheet.acq.search_timeout_us`
  | sheetRateTolPpm -- `sheet.rate.tol_ppm`
  | sheetWedgeWindowBits -- `sheet.wedge.window_bits`
  | sheetWedgeMinTracks -- `sheet.wedge.min_tracks`
  | sheetWedgeMaxMiss -- `sheet.wedge.max_miss`
  | sheetSyncWindowBits -- `sheet.sync.window_bits`
  | sheetSyncMinMatch -- `sheet.sync.min_match`
  | sheetSyncVoteMinTracks -- `sheet.sync.vote_min_tracks`
  | sheetSyncPassTolBits -- `sheet.sync.pass_tol_bits`
  | sheetSyncVoteMatch -- `sheet.sync.vote_match`
  | sheetSyncCandidates -- `sheet.sync.candidates`
  | sheetFlyMaxFrames -- `sheet.fly.max_frames`
  | sheetDefectLowPct -- `sheet.defect.low_pct`
  | sheetDefectEndPct -- `sheet.defect.end_pct`
  | sheetDefectEndBits -- `sheet.defect.end_bits`
  | sheetDefectLookbackBits -- `sheet.defect.lookback_bits`
  | sheetDefectClipCount -- `sheet.defect.clip_count`
  | sheetDefectSheetTracks -- `sheet.defect.sheet_tracks`
  | sheetDefectMaxHoldBits -- `sheet.defect.max_hold_bits`
  | sheetDetTarget -- `sheet.det.target`
  | sheetDetEqShift -- `sheet.det.eq_shift`
  | sheetDetSwapShift -- `sheet.det.swap_shift`
  | sheetDetSwapBits -- `sheet.det.swap_bits`
  | sheetDetSweeps -- `sheet.det.sweeps`
  | sheetDetRhoShift -- `sheet.det.rho_shift`
  | sheetDetNbrEraseScale -- `sheet.det.nbr_erase_scale`
  | sheetDetAprioriScale -- `sheet.det.apriori_scale`
  | sheetDetRollbackCw -- `sheet.det.rollback_cw`
  | sheetDetCentreMin -- `sheet.det.centre_min`
  | sheetDetDivergePct -- `sheet.det.diverge_pct`
  | sheetDetDivergeSectors -- `sheet.det.diverge_sectors`
  | eccLdpcMaxIter -- `ecc.ldpc.max_iter`
  | eccLdpcNorm -- `ecc.ldpc.norm`
  | eccLdpcEraSkip -- `ecc.ldpc.era_skip`
  | eccRetryIter -- `ecc.retry.iter`
  | eccRescueLlrMin -- `ecc.rescue.llr_min`
  | eccRescueRounds -- `ecc.rescue.rounds`
  | eccBlankMinTracks -- `ecc.blank.min_tracks`
  | eccRetryRereads -- `ecc.retry.rereads`
  | eccRetryMaxMs -- `ecc.retry.max_ms`
  | eccRetryEarlyLost -- `ecc.retry.early_lost`
  | eccSoftDepthSectors -- `ecc.soft.depth_sectors`
  | writeVerify -- `write.verify`
  | writeVerifyMaxFailedCw -- `write.verify.max_failed_cw`
  | writeJumpMarginFrames -- `write.jump.margin_frames`
  | writeJumpMaxTries -- `write.jump.max_tries`
  | writeAlignMaxErrBits -- `write.align.max_err_bits`
  | writeLeadUs -- `write.lead_us`
  | writeGateFocusErrNm -- `write.gate.focus_err_nm`
  | writeGateTrackErrNm -- `write.gate.track_err_nm`
  | writeRelocMaxDeferMs -- `write.reloc.max_defer_ms`
  | loopFocusLockNm -- `loop.focus.lock_nm`
  | loopFocusUnlockNm -- `loop.focus.unlock_nm`
  | loopFocusLockTicks -- `loop.focus.lock_ticks`
  | loopFocusSumMinPct -- `loop.focus.sum_min_pct`
  | loopFocusSweepUmMs -- `loop.focus.sweep_um_ms`
  | loopFocusSearchMs -- `loop.focus.search_ms`
  | loopFocusRecapLayers -- `loop.focus.recap_layers`
  | loopFocusRecapUs -- `loop.focus.recap_us`
  | loopTrackLockNm -- `loop.track.lock_nm`
  | loopTrackUnlockNm -- `loop.track.unlock_nm`
  | loopTrackLockTicks -- `loop.track.lock_ticks`
  | loopTrackSlipNm -- `loop.track.slip_nm`
  | loopTrackPullUs -- `loop.track.pull_us`
  | loopJumpLockTicks -- `loop.jump.lock_ticks`
  | loopJumpMaxSwaths -- `loop.jump.max_swaths`
  | loopLayerSaRampUs -- `loop.layer.sa_ramp_us`
  | loopLayerMaxTries -- `loop.layer.max_tries`
  | loopAcqMaxCorrections -- `loop.acq.max_corrections`
  | loopRecoverHoldUs -- `loop.recover.hold_us`
  | loopRecoverMaxTries -- `loop.recover.max_tries`
  | loopRecoverRetryS -- `loop.recover.retry_s`
  | loopSledTauMs -- `loop.sled.tau_ms`
  | loopSledDeadbandUm -- `loop.sled.deadband_um`
  | loopSledLimitUm -- `loop.sled.limit_um`
  | loopRestTurns -- `loop.rest.turns`
  | loopSaBase -- `loop.sa.base`
  | loopSaPerUm -- `loop.sa.per_um`
  | loopSaDither -- `loop.sa.dither`
  | loopSaTrimStep -- `loop.sa.trim_step`
  | loopSaTrimMax -- `loop.sa.trim_max`
  | loopPairSteerMm -- `loop.pair.steer_mm`
  | loopClvRef -- `loop.clv.ref`
  | loopClvSwitchWedges -- `loop.clv.switch_wedges`
  | loopClvSlewPpmMs -- `loop.clv.slew_ppm_ms`
  | loopProbeIntervalS -- `loop.probe.interval_s`
  | cengBankFocusAcq -- `ceng.bank.focus.acq`
  | cengBankFocusFollow -- `ceng.bank.focus.follow`
  | cengBankTrackAcq -- `ceng.bank.track.acq`
  | cengBankTrackFollow -- `ceng.bank.track.follow`
  | cengBankTilt -- `ceng.bank.tilt`
  | cengMissMax -- `ceng.miss.max`
  | cengSupSettleTicks -- `ceng.sup.settle_ticks`
  | cengSupRevertTicks -- `ceng.sup.revert_ticks`
  | cengTuneRelayD -- `ceng.tune.relay_d`
  | cengTuneHyst -- `ceng.tune.hyst`
  | cengTuneCycles -- `ceng.tune.cycles`
  | cengTuneMaxMs -- `ceng.tune.max_ms`
  | cengTuneAbortPct -- `ceng.tune.abort_pct`
  | cengTuneWcFrac -- `ceng.tune.wc_frac`
  | cengTuneLeadRatio -- `ceng.tune.lead_ratio`
  | cengTuneLagDiv -- `ceng.tune.lag_div`
  | cengTuneLagBoost -- `ceng.tune.lag_boost`
  | cengTuneKiDiv -- `ceng.tune.ki_div`
  | cengTuneKRatioMax -- `ceng.tune.k_ratio_max`
  | spindleMotorRsMohm -- `spindle.motor.rs_mohm`
  | spindleMotorLsUh -- `spindle.motor.ls_uh`
  | spindleMotorKeUvRpm -- `spindle.motor.ke_uv_rpm`
  | spindleCurrentMaxMa -- `spindle.current.max_ma`
  | spindlePwmMaxMod -- `spindle.pwm.max_mod`
  | spindleShuntMinWindowNs -- `spindle.shunt.min_window_ns`
  | spindleBankCurrent -- `spindle.bank.current`
  | spindleBankSpeed -- `spindle.bank.speed`
  | spindleCatchFloorMv -- `spindle.catch.floor_mv`
  | spindleCatchMinRpm -- `spindle.catch.min_rpm`
  | spindleCatchMeasureMs -- `spindle.catch.measure_ms`
  | spindleCatchMaxTries -- `spindle.catch.max_tries`
  | spindleCatchRetryMs -- `spindle.catch.retry_ms`
  | spindleBrakeShortOnMs -- `spindle.brake.short_on_ms`
  | spindleBrakeShortMaxMs -- `spindle.brake.short_max_ms`
  | spindleBrakeDecelRpmS -- `spindle.brake.decel_rpm_s`
  | spindleStartAlignMs -- `spindle.start.align_ms`
  | spindleStartAlignMa -- `spindle.start.align_ma`
  | spindleStartRampMa -- `spindle.start.ramp_ma`
  | spindleStartRampRpmS -- `spindle.start.ramp_rpm_s`
  | spindleStartHandoverRpm -- `spindle.start.handover_rpm`
  | spindleStartHandoverMs -- `spindle.start.handover_ms`
  | spindleStartLrBemfPct -- `spindle.start.lr_bemf_pct`
  | spindleStartMaxTries -- `spindle.start.max_tries`
  | spindleStartRetryMs -- `spindle.start.retry_ms`
  | spindleSyncPeriods -- `spindle.sync.periods`
  | spindleObsPllHz -- `spindle.obs.pll_hz`
  | spindleObsLossDeg -- `spindle.obs.loss_deg`
  | spindleObsMagTolPct -- `spindle.obs.mag_tol_pct`
  | spindleObsXcheckPpm -- `spindle.obs.xcheck_ppm`
  | spindleObsLossPeriods -- `spindle.obs.loss_periods`
  | spindleSpeedMaxRpm -- `spindle.speed.max_rpm`
  | spindleSpeedAccelRpmS -- `spindle.speed.accel_rpm_s`
  | spindleSpeedSpinupRpmS -- `spindle.speed.spinup_rpm_s`
  | spindleSpeedReadyPpm -- `spindle.speed.ready_ppm`
  | spindleOverRpm -- `spindle.over.rpm`
  | spindleTestIntervalS -- `spindle.test.interval_s`
  | spindleFaultRetryS -- `spindle.fault.retry_s`
  | mlinkTrainMaxAttempts -- `mlink.train.max_attempts`
  | mlinkTrainRetryIntervalS -- `mlink.train.retry_interval_s`
  | sledProfileVmaxMmS -- `sled.profile.vmax_mm_s`
  | sledProfileAmaxMmS2 -- `sled.profile.amax_mm_s2`
  | sledProfileJerkMmS3 -- `sled.profile.jerk_mm_s3`
  | sledFollowVmaxMmS -- `sled.follow.vmax_mm_s`
  | sledFollowAmaxMmS2 -- `sled.follow.amax_mm_s2`
  | sledFollowJerkMmS3 -- `sled.follow.jerk_mm_s3`
  | sledCurrentRunPct -- `sled.current.run_pct`
  | sledHoldPct -- `sled.hold.pct`
  | sledHoldDelayMs -- `sled.hold.delay_ms`
  | sledSettleMs -- `sled.settle_ms`
  | sledBoundInnerUm -- `sled.bound.inner_um`
  | sledBoundOuterUm -- `sled.bound.outer_um`
  | sledSlipMaxUm -- `sled.slip.max_um`
  | sledOffIdleS -- `sled.off.idle_s`
  | sledRephaseRampMs -- `sled.rephase.ramp_ms`
  | hamperMountAuto -- `hamper.mount.auto`
  | hamperPlaceCloseUs -- `hamper.place.close_us`
  | hamperMemberGraceMs -- `hamper.member.grace_ms`
  | hamperCkptIntervalStripes -- `hamper.ckpt.interval_stripes`
  | hamperCkptIntervalS -- `hamper.ckpt.interval_s`
  | hamperMapMaxExtents -- `hamper.map.max_extents`
  | hamperRecoverBlankRows -- `hamper.recover.blank_rows`
  | hamperRebuildSharePct -- `hamper.rebuild.share_pct`
  | hostVfTotal -- `host.vf.total`
  | hostVfSr -- `host.vf.sr`
  | hostVfCr -- `host.vf.cr`
  | hostVfCtx -- `host.vf.ctx`
  | hostVfVectors -- `host.vf.vectors`
  | hostArbPfWeight -- `host.arb.pf_weight`
  | hostArbVfWeight -- `host.arb.vf_weight`
  | hostFetchBurst -- `host.fetch.burst`
  | hostRingHoldS -- `host.ring.hold_s`
  | cmdFwactDrainMs -- `cmd.fwact.drain_ms`
  | cmdStageIdleS -- `cmd.stage.idle_s`
  | memDdrMaxRate -- `mem.ddr.max_rate`
  | memPartJournalMib -- `mem.part.journal_mib`
  | memWstoreSlots -- `mem.wstore.slots`
  | memPartCaptureMib -- `mem.part.capture_mib`
  | memPartDiagMib -- `mem.part.diag_mib`
  | memPartDiagCode -- `mem.part.diag_code`
  | memMergeHoldNs -- `mem.merge.hold_ns`
  | memRemapCeCount -- `mem.remap.ce_count`
  | memRemapWindowS -- `mem.remap.window_s`
  | bufRegionMin -- `buf.region.min`
  | bufBasketRegion -- `buf.basket.n.region`
  | bufBasketClass -- `buf.basket.n.class`
  | bufBasketMin -- `buf.basket.n.min`
  | bufBasketCap -- `buf.basket.n.cap`
  | calDeltaC -- `cal.delta_c`
  | calMaxDeferMs -- `cal.max_defer_ms`
  | calGapMs -- `cal.gap_ms`
  | calItemAccept -- `cal.item.n.accept`
  | calRepeatTolPct -- `cal.repeat.tol_pct`
  | calRetryMax -- `cal.retry.max`
  | calMeasSectors -- `cal.meas.sectors`
  | calTwinMeasFrames -- `cal.twin.meas_frames`
  | calElemMonTolPct -- `cal.elem.mon_tol_pct`
  | calElemFaultTicks -- `cal.elem.fault_ticks`
  | calWearPowerPct -- `cal.wear.power_pct`
  | calWearGainPct -- `cal.wear.gain_pct`
  | calWearTrackFailPct -- `cal.wear.track_fail_pct`
  | calLinkMarginMinPct -- `cal.link.margin_min_pct`
  | calRecMinS -- `cal.rec.min_s`
  | safetyOverTripRpm -- `safety.over.trip_rpm`
  | safetyIlkBrake -- `safety.ilk.brake`
  | safetyRearmMs -- `safety.rearm_ms`
  | safetyLmonMaxTrips -- `safety.lmon.max_trips`
  | safetySpdfTolPct -- `safety.spdf.tol_pct`
  | safetySpdfCheckMs -- `safety.spdf.check_ms`
  | safetyGateLimitUs -- `safety.gate.limit_us`
  | eventMinSev -- `event.min_sev`
  | eventRatePerS -- `event.rate.per_s`
  | eventUrgentSev -- `event.urgent_sev`
  | eventUrgentVec -- `event.urgent_vec`
  | eventVfGroups -- `event.vf.groups`
  | injectEnable -- `inject.enable`
  | injectMaxActive -- `inject.max_active`
  | injectMaxDurationS -- `inject.max_duration_s`
  deriving DecidableEq, Repr, Inhabited

/-- A coefficient bank (Table 08-2). Coefficients are signed 32-bit with 24 fraction bits, gains unsigned with 12. -/
structure Bank where
  K      : Int
  b0     : Int
  b1     : Int
  a1     : Int
  c0     : Int
  c1     : Int
  d1     : Int
  ki     : Int
  umax   : Nat
  ilim   : Nat
  slew   : Nat
  gshift : Nat
  ien    : Bool
  emax   : Nat
  gains  : List Nat
  p1     : Int
  p2     : Int
  q1     : Int
  q2     : Int
  rmax   : Nat
  satmax : Nat
  deriving DecidableEq, Repr, Inhabited

/-- A set of configuration values: the numeric fields that differ from their default as (field, index, value),
and the banks present. The index is n for a path of the form a.b.n.c, otherwise 0 (R324). -/
structure Cfg where
  nums  : List (Field × Nat × Int)
  banks : List (Field × Bank)
  deriving DecidableEq, Repr, Inhabited

end Sys2Proof

/-! ### Free values

Constants without a body: what the spec leaves open. Nothing can prove a value of them. -/

namespace Sys2Proof

/-- Whether a check-node minimum times `ecc.ldpc.norm` / 8 that is no whole message unit is rounded up (R112 states no rounding). -/
opaque Config.minsumUp : Nat → Nat → Bool

/-- The coefficient of tap i of the interpolator at phase p (R66 states 8 taps and 64 phases, not their values),
in 1/1,024. -/
opaque Config.interpTap : Nat → Nat → Int

/-- The timing error of a track from its last values (R66: a zero-crossing detector in the preamble, Mueller–Müller
elsewhere; arithmetic not stated), in 1/65,536 bit. The first argument says whether the preamble detector is in use. -/
opaque Config.timingError : Bool → List Int → Int

/-- Entry of the 64-entry table of tanh(Λ/2) (R89), in 1/1,024, for Λ in units of 1/4. -/
opaque Config.tanhTable : Int → Int

/-- The metric of a state at an end of a window of the BCJR of R89, whose start the rule does not state: whether it is the end after the
window, the target, the inputs of the next window, the state. -/
opaque Config.bcjrEdge : Bool → Nat → List (Int × Bool × Int) → Nat → Int

/-- σ² of a track that has not met an unflagged bit yet (R89 takes it over the last 4,096 of them). -/
opaque Config.firstSigma : Nat → Nat

/-- One step of the decision-directed adaptation of c and g (R65 gives its step exponent, not its arithmetic): the exponent,
the normalized value and the sample; the changes of c and g in 1/65,536. -/
opaque Config.normStep : Nat → Int → Int → Int × Int

/-- The gain after a preamble that holds no tone at all (R65 sets it so that the tone's amplitude equals A), from the gain before. -/
opaque Config.silentGain : Int → Int

/-- A number the spec leaves undefined, by the index of the draw. -/
opaque Config.freeNat : Nat → Nat

/-- A byte string the spec leaves open, by the index of the draw and its length. -/
opaque Config.freeBytes : Nat → Nat → List (BitVec 8)

/-- The check bytes of a memory codeword (Table 14-3 states what each code corrects and detects, not its matrix): code
(0 Keep, 1 Pass), data. -/
opaque Config.memCheck : Nat → List (BitVec 8) → List (BitVec 8)

/-- Spare rows and columns of an SRAM array (R365 names spares "as the repair record allots"; their number is not given). -/
opaque Config.sramSpares : Nat → Nat

/-- The device row that a hard post-package repair of a channel's 4 KiB range takes, where the device has a spare row for it (R306, Table
17-5 bits 51 to 22; which rows have spares is not given). -/
opaque Config.pprRow : Nat → Nat → Option Nat

/-- The block that holds an SRAM array, as kind, region and instance (not given). -/
opaque Config.arrayBlock : Nat → Nat × Nat × Nat

/-- The verdict (0 clean, 1 corrected, 2 uncorrectable) and corrected data of a Keep or Pass codeword whose check bytes do
not agree with its data (Table 14-3 states what each code corrects and detects, not its matrix): code, data, check. -/
opaque Config.memDecode : Nat → List (BitVec 8) → List (BitVec 8) → Nat × List (BitVec 8)

/-- Whether an ML-DSA-87 signature verifies: key (0 to 3 the vendor keys), message, signature (FIPS 204, named by
20_trust.md; the vendor keys are not given). -/
opaque Config.mldsaVerify : Nat → List (BitVec 8) → List (BitVec 8) → Bool

/-- The identity key's ML-DSA-87 signature of a message, 4,627 bytes (the seed is held in fuses, R410). -/
opaque Config.mldsaSign : List (BitVec 8) → List (BitVec 8)

/-- The device certificate in one-time-programmable storage, X.509 in DER (R410: its contents are not given). -/
opaque Config.certDevice : List (BitVec 8)

/-- The vendor intermediate certificate that a firmware image holds, X.509 in DER, as a function of the image (R410: where in the image it
stands is not given). -/
opaque Config.certVendor : List (BitVec 8) → List (BitVec 8)

/-- The digest of the safety island's ROM (R406). -/
opaque Config.islandRomDigest : List (BitVec 8)

/-- The ultimate gain of a measurement whose error does not leave the relay's hysteresis (R174 gives none): relay amplitude, hysteresis,
sum of the peak-to-peak errors. -/
opaque Config.tuneKu : Nat → Nat → Nat → Int

/-- Whether a real result is brought to its format upward, where no rule states its rounding (R174, R191, R200): numerator and
denominator. -/
opaque Config.roundUp : Int → Int → Bool

/-- The core voltage set point that the process corner and the hottest sensor call for, millivolts (R443). -/
opaque Config.avsTarget : Nat → Nat

/-- The slope (0) and offset (1) of a loop's error (0 focus, 1 tracking, 2 tilt) before any calibration (R142 leaves them to
calibration). -/
opaque Config.initError : Nat → Nat → Int

/-- The focus sum of a layer before any calibration (R143, R145). -/
opaque Config.initSum : Nat → Nat

/-- The peak-to-peak focus error of a layer before any calibration (R145), in 1/65,536. -/
opaque Config.initPeak : Nat → Nat

/-- The tracking actuator's sensitivity of a pickup (R149 calls it calibrated and gives no value): µm of displacement of a drive word, in
1/65,536 µm. -/
opaque Config.actuatorUm : Nat → Int → Int

/-- The tilt drive word equivalent to 0.5° (R150; the scale of the tilt actuator is not given). -/
opaque Config.tiltHalfDeg : Nat

/-- The peak-to-peak of pp0 over a groove pair of a layer, in 1/65,536, against which R147 tests a crossing as R145 does (no calibration
item of it is given). -/
opaque Config.groovePeak : Nat → Nat

/-- The image's write-strategy set of a layer before trims, 65,536 bytes (R366 names it; no section of the image holds it). -/
opaque Config.strategySet : Nat → List (BitVec 8)

/-- Drive units that the focus sweep moves in one tick at a rate in µm/ms (R145). -/
opaque Config.sweepStep : Nat → Nat

/-- The drive word of a kick or brake (R147, R153): kind (0 tracking kick, 1 tracking brake, 2 focus kick, 3 focus brake), its
signed distance, ticks since it began. -/
opaque Config.kickWord : Nat → Int → Nat → Int

/-- How an ordinary product is rounded to nearest at a tie (R165 says nearest only): numerator and denominator. -/
opaque Config.tieRound : Int → Nat → Int

end Sys2Proof
end

