-- ==== Sys2Proof/Machine/Fields.lean ====
section
/-! DEFINITION. The configuration field tables of the spec (Tables 02-11, 03-7, 04-8, 05-8, 06-6, 07-6, 08-6,
09-10, 10-6, 11-6, 12-9, 13-8, 14-7, 17-7, 19-5, 21-7) and the values of a set of fields (R12, R325). -/

namespace Sys2Proof

/-- The row of the spec's field tables for each field. -/
def Field.info : Field → FieldInfo
  | .hlinkSpareStandby => ⟨"hlink.spare.standby", 1, 1, .boundary, .enumeration, 0, 2, 0, false, false⟩
  | .hlinkUpErrWindowUs => ⟨"hlink.up.err_window_us", 1, 2, .live, .uint, 100, 100000, 1000, false, false⟩
  | .hlinkUpErrRetrain => ⟨"hlink.up.err_retrain", 1, 3, .live, .uint, 4, 4096, 64, false, false⟩
  | .hlinkCtrlReplyTimeoutUs => ⟨"hlink.ctrl.reply_timeout_us", 1, 4, .live, .uint, 5, 500, 20, false, false⟩
  | .hlinkCtrlMaxTries => ⟨"hlink.ctrl.max_tries", 1, 5, .live, .uint, 2, 16, 8, false, false⟩
  | .hlinkTrainMaxAttempts => ⟨"hlink.train.max_attempts", 1, 6, .boundary, .uint, 1, 10, 3, false, false⟩
  | .hlinkTrainRetryIntervalS => ⟨"hlink.train.retry_interval_s", 1, 7, .live, .uint, 1, 3600, 10, false, false⟩
  | .hlinkLaneRetireCount => ⟨"hlink.lane.retire_count", 1, 8, .boundary, .uint, 1, 16, 2, false, false⟩
  | .hlinkLaneRetireWindowS => ⟨"hlink.lane.retire_window_s", 1, 9, .boundary, .uint, 60, 86400, 3600, false, false⟩
  | .sheetRowEraseBits => ⟨"sheet.row.erase_bits", 2, 1, .boundary, .uint, 64, 1024, 256, false, false⟩
  | .sheetNormTrackShift => ⟨"sheet.norm.track_shift", 2, 2, .boundary, .uint, 6, 14, 10, false, false⟩
  | .sheetNormServoShift => ⟨"sheet.norm.servo_shift", 2, 3, .boundary, .uint, 8, 16, 12, false, false⟩
  | .sheetPllKpFastShift => ⟨"sheet.pll.kp_fast_shift", 2, 4, .boundary, .uint, 2, 6, 3, false, false⟩
  | .sheetPllKpTrackShift => ⟨"sheet.pll.kp_track_shift", 2, 5, .boundary, .uint, 4, 12, 7, false, false⟩
  | .sheetPllKiShift => ⟨"sheet.pll.ki_shift", 2, 6, .boundary, .uint, 10, 20, 15, false, false⟩
  | .sheetPllWedgeShift => ⟨"sheet.pll.wedge_shift", 2, 7, .boundary, .uint, 0, 6, 2, false, false⟩
  | .sheetAcqXtCoef => ⟨"sheet.acq.xt_coef", 2, 8, .boundary, .uint, 0, 128, 40, false, false⟩
  | .sheetAcqMinCleanBits => ⟨"sheet.acq.min_clean_bits", 2, 9, .boundary, .uint, 32, 192, 64, false, false⟩
  | .sheetAcqSearchTimeoutUs => ⟨"sheet.acq.search_timeout_us", 2, 10, .live, .uint, 200, 10000, 1000, false, false⟩
  | .sheetRateTolPpm => ⟨"sheet.rate.tol_ppm", 2, 11, .boundary, .uint, 2000, 15000, 15000, false, false⟩
  | .sheetWedgeWindowBits => ⟨"sheet.wedge.window_bits", 2, 12, .boundary, .uint, 4, 32, 16, false, false⟩
  | .sheetWedgeMinTracks => ⟨"sheet.wedge.min_tracks", 2, 13, .boundary, .uint, 2, 8, 4, false, false⟩
  | .sheetWedgeMaxMiss => ⟨"sheet.wedge.max_miss", 2, 14, .live, .uint, 1, 16, 4, false, false⟩
  | .sheetSyncWindowBits => ⟨"sheet.sync.window_bits", 2, 15, .boundary, .uint, 8, 32, 12, false, false⟩
  | .sheetSyncMinMatch => ⟨"sheet.sync.min_match", 2, 16, .boundary, .uint, 48, 64, 56, false, false⟩
  | .sheetSyncVoteMinTracks => ⟨"sheet.sync.vote_min_tracks", 2, 17, .boundary, .uint, 2, 6, 3, false, false⟩
  | .sheetSyncPassTolBits => ⟨"sheet.sync.pass_tol_bits", 2, 18, .boundary, .uint, 0, 4, 1, false, false⟩
  | .sheetSyncVoteMatch => ⟨"sheet.sync.vote_match", 2, 19, .boundary, .uint, 32, 60, 44, false, false⟩
  | .sheetSyncCandidates => ⟨"sheet.sync.candidates", 2, 20, .boundary, .uint, 0, 4, 3, false, false⟩
  | .sheetFlyMaxFrames => ⟨"sheet.fly.max_frames", 2, 21, .boundary, .uint, 1, 20, 5, false, false⟩
  | .sheetDefectLowPct => ⟨"sheet.defect.low_pct", 2, 22, .live, .uint, 20, 70, 40, false, false⟩
  | .sheetDefectEndPct => ⟨"sheet.defect.end_pct", 2, 23, .live, .uint, 40, 90, 60, false, false⟩
  | .sheetDefectEndBits => ⟨"sheet.defect.end_bits", 2, 24, .live, .uint, 16, 256, 64, false, false⟩
  | .sheetDefectLookbackBits => ⟨"sheet.defect.lookback_bits", 2, 25, .live, .uint, 0, 64, 32, false, false⟩
  | .sheetDefectClipCount => ⟨"sheet.defect.clip_count", 2, 26, .live, .uint, 4, 32, 8, false, false⟩
  | .sheetDefectSheetTracks => ⟨"sheet.defect.sheet_tracks", 2, 27, .boundary, .uint, 8, 16, 12, false, false⟩
  | .sheetDefectMaxHoldBits => ⟨"sheet.defect.max_hold_bits", 2, 28, .boundary, .uint, 500, 2000, 2000, false, false⟩
  | .sheetDetTarget => ⟨"sheet.det.target", 2, 29, .boundary, .enumeration, 0, 1, 0, false, false⟩
  | .sheetDetEqShift => ⟨"sheet.det.eq_shift", 2, 30, .boundary, .uint, 8, 16, 12, false, false⟩
  | .sheetDetSwapShift => ⟨"sheet.det.swap_shift", 2, 31, .boundary, .uint, 6, 12, 9, false, false⟩
  | .sheetDetSwapBits => ⟨"sheet.det.swap_bits", 2, 32, .boundary, .uint, 1024, 32000, 8192, false, false⟩
  | .sheetDetSweeps => ⟨"sheet.det.sweeps", 2, 33, .boundary, .uint, 1, 3, 1, false, false⟩
  | .sheetDetRhoShift => ⟨"sheet.det.rho_shift", 2, 34, .boundary, .uint, 8, 16, 12, false, false⟩
  | .sheetDetNbrEraseScale => ⟨"sheet.det.nbr_erase_scale", 2, 35, .live, .uint, 0, 8, 4, false, false⟩
  | .sheetDetAprioriScale => ⟨"sheet.det.apriori_scale", 2, 36, .live, .uint, 0, 8, 6, false, false⟩
  | .sheetDetRollbackCw => ⟨"sheet.det.rollback_cw", 2, 37, .live, .uint, 1, 10, 3, false, false⟩
  | .sheetDetCentreMin => ⟨"sheet.det.centre_min", 2, 38, .boundary, .uint, 64, 512, 256, false, false⟩
  | .sheetDetDivergePct => ⟨"sheet.det.diverge_pct", 2, 39, .live, .uint, 5, 50, 25, false, false⟩
  | .sheetDetDivergeSectors => ⟨"sheet.det.diverge_sectors", 2, 40, .live, .uint, 1, 64, 8, false, false⟩
  | .eccLdpcMaxIter => ⟨"ecc.ldpc.max_iter", 3, 1, .boundary, .uint, 4, 40, 20, false, false⟩
  | .eccLdpcNorm => ⟨"ecc.ldpc.norm", 3, 2, .boundary, .uint, 4, 8, 6, false, false⟩
  | .eccLdpcEraSkip => ⟨"ecc.ldpc.era_skip", 3, 3, .boundary, .uint, 800, 16000, 1600, false, false⟩
  | .eccRetryIter => ⟨"ecc.retry.iter", 3, 4, .boundary, .uint, 20, 100, 50, false, false⟩
  | .eccRescueLlrMin => ⟨"ecc.rescue.llr_min", 3, 5, .boundary, .uint, 1, 31, 4, false, false⟩
  | .eccRescueRounds => ⟨"ecc.rescue.rounds", 3, 6, .boundary, .uint, 0, 4, 2, false, false⟩
  | .eccBlankMinTracks => ⟨"ecc.blank.min_tracks", 3, 7, .boundary, .uint, 8, 16, 12, false, false⟩
  | .eccRetryRereads => ⟨"ecc.retry.rereads", 3, 8, .live, .uint, 0, 8, 2, false, false⟩
  | .eccRetryMaxMs => ⟨"ecc.retry.max_ms", 3, 9, .live, .uint, 10, 2000, 100, false, false⟩
  | .eccRetryEarlyLost => ⟨"ecc.retry.early_lost", 3, 10, .live, .uint, 0, 1, 1, false, false⟩
  | .eccSoftDepthSectors => ⟨"ecc.soft.depth_sectors", 3, 11, .boot, .uint, 3, 16, 4, false, false⟩
  | .writeVerify => ⟨"write.verify", 4, 1, .boundary, .enumeration, 0, 1, 0, false, false⟩
  | .writeVerifyMaxFailedCw => ⟨"write.verify.max_failed_cw", 4, 2, .live, .uint, 0, 16, 4, false, false⟩
  | .writeJumpMarginFrames => ⟨"write.jump.margin_frames", 4, 3, .boundary, .uint, 2, 5, 2, false, false⟩
  | .writeJumpMaxTries => ⟨"write.jump.max_tries", 4, 4, .live, .uint, 1, 8, 3, false, false⟩
  | .writeAlignMaxErrBits => ⟨"write.align.max_err_bits", 4, 5, .live, .uint, 1, 8, 6, false, false⟩
  | .writeLeadUs => ⟨"write.lead_us", 4, 6, .boundary, .uint, 8, 20, 10, false, false⟩
  | .writeGateFocusErrNm => ⟨"write.gate.focus_err_nm", 4, 7, .live, .uint, 10, 100, 40, false, false⟩
  | .writeGateTrackErrNm => ⟨"write.gate.track_err_nm", 4, 8, .live, .uint, 5, 40, 15, false, false⟩
  | .writeRelocMaxDeferMs => ⟨"write.reloc.max_defer_ms", 4, 9, .live, .uint, 100, 10000, 1000, false, false⟩
  | .loopFocusLockNm => ⟨"loop.focus.lock_nm", 5, 1, .live, .uint, 20, 200, 60, false, false⟩
  | .loopFocusUnlockNm => ⟨"loop.focus.unlock_nm", 5, 2, .live, .uint, 60, 400, 150, false, false⟩
  | .loopFocusLockTicks => ⟨"loop.focus.lock_ticks", 5, 3, .boundary, .uint, 16, 192, 96, false, false⟩
  | .loopFocusSumMinPct => ⟨"loop.focus.sum_min_pct", 5, 4, .live, .uint, 10, 60, 30, false, false⟩
  | .loopFocusSweepUmMs => ⟨"loop.focus.sweep_um_ms", 5, 5, .boundary, .uint, 20, 200, 100, false, false⟩
  | .loopFocusSearchMs => ⟨"loop.focus.search_ms", 5, 6, .boundary, .uint, 10, 200, 50, false, false⟩
  | .loopFocusRecapLayers => ⟨"loop.focus.recap_layers", 5, 7, .boundary, .uint, 1, 3, 1, false, false⟩
  | .loopFocusRecapUs => ⟨"loop.focus.recap_us", 5, 8, .boundary, .uint, 200, 2000, 800, false, false⟩
  | .loopTrackLockNm => ⟨"loop.track.lock_nm", 5, 9, .live, .uint, 10, 60, 30, false, false⟩
  | .loopTrackUnlockNm => ⟨"loop.track.unlock_nm", 5, 10, .live, .uint, 30, 150, 60, false, false⟩
  | .loopTrackLockTicks => ⟨"loop.track.lock_ticks", 5, 11, .boundary, .uint, 16, 96, 48, false, false⟩
  | .loopTrackSlipNm => ⟨"loop.track.slip_nm", 5, 12, .live, .uint, 300, 1000, 600, false, false⟩
  | .loopTrackPullUs => ⟨"loop.track.pull_us", 5, 13, .boundary, .uint, 100, 2000, 500, false, false⟩
  | .loopJumpLockTicks => ⟨"loop.jump.lock_ticks", 5, 14, .boundary, .uint, 8, 32, 16, false, false⟩
  | .loopJumpMaxSwaths => ⟨"loop.jump.max_swaths", 5, 15, .boundary, .uint, 1, 50, 40, false, false⟩
  | .loopLayerSaRampUs => ⟨"loop.layer.sa_ramp_us", 5, 16, .boundary, .uint, 300, 600, 600, false, false⟩
  | .loopLayerMaxTries => ⟨"loop.layer.max_tries", 5, 17, .live, .uint, 1, 5, 3, false, false⟩
  | .loopAcqMaxCorrections => ⟨"loop.acq.max_corrections", 5, 18, .live, .uint, 1, 8, 4, false, false⟩
  | .loopRecoverHoldUs => ⟨"loop.recover.hold_us", 5, 19, .live, .uint, 0, 100, 20, false, false⟩
  | .loopRecoverMaxTries => ⟨"loop.recover.max_tries", 5, 20, .live, .uint, 1, 8, 3, false, false⟩
  | .loopRecoverRetryS => ⟨"loop.recover.retry_s", 5, 21, .live, .uint, 1, 3600, 30, false, false⟩
  | .loopSledTauMs => ⟨"loop.sled.tau_ms", 5, 22, .boundary, .uint, 2, 100, 20, false, false⟩
  | .loopSledDeadbandUm => ⟨"loop.sled.deadband_um", 5, 23, .live, .uint, 1, 30, 5, false, false⟩
  | .loopSledLimitUm => ⟨"loop.sled.limit_um", 5, 24, .live, .uint, 60, 140, 120, false, false⟩
  | .loopRestTurns => ⟨"loop.rest.turns", 5, 25, .live, .uint, 1, 16, 1, false, false⟩
  | .loopSaBase => ⟨"loop.sa.base", 5, 26, .boundary, .sint, (-32767), 32767, 0, false, false⟩
  | .loopSaPerUm => ⟨"loop.sa.per_um", 5, 27, .boundary, .sint, (-2000), 2000, 180, false, false⟩
  | .loopSaDither => ⟨"loop.sa.dither", 5, 28, .live, .uint, 0, 64, 8, false, false⟩
  | .loopSaTrimStep => ⟨"loop.sa.trim_step", 5, 29, .live, .uint, 0, 32, 2, false, false⟩
  | .loopSaTrimMax => ⟨"loop.sa.trim_max", 5, 30, .live, .uint, 0, 2048, 512, false, false⟩
  | .loopPairSteerMm => ⟨"loop.pair.steer_mm", 5, 31, .live, .fixed, 3277, 11796, 9830, false, false⟩
  | .loopClvRef => ⟨"loop.clv.ref", 5, 32, .boundary, .enumeration, 0, 1, 0, false, false⟩
  | .loopClvSwitchWedges => ⟨"loop.clv.switch_wedges", 5, 33, .live, .uint, 2, 64, 8, false, false⟩
  | .loopClvSlewPpmMs => ⟨"loop.clv.slew_ppm_ms", 5, 34, .live, .uint, 20, 400, 200, false, false⟩
  | .loopProbeIntervalS => ⟨"loop.probe.interval_s", 5, 35, .live, .uint, 5, 3600, 30, false, false⟩
  | .cengBankFocusAcq => ⟨"ceng.bank.focus.acq", 6, 1, .boundary, .block, 0, 0, 0, true, false⟩
  | .cengBankFocusFollow => ⟨"ceng.bank.focus.follow", 6, 2, .boundary, .block, 0, 0, 0, true, false⟩
  | .cengBankTrackAcq => ⟨"ceng.bank.track.acq", 6, 3, .boundary, .block, 0, 0, 0, true, false⟩
  | .cengBankTrackFollow => ⟨"ceng.bank.track.follow", 6, 4, .boundary, .block, 0, 0, 0, true, false⟩
  | .cengBankTilt => ⟨"ceng.bank.tilt", 6, 5, .boundary, .block, 0, 0, 0, true, false⟩
  | .cengMissMax => ⟨"ceng.miss.max", 6, 6, .live, .uint, 2, 8, 4, false, false⟩
  | .cengSupSettleTicks => ⟨"ceng.sup.settle_ticks", 6, 7, .live, .uint, 8, 256, 16, false, false⟩
  | .cengSupRevertTicks => ⟨"ceng.sup.revert_ticks", 6, 8, .live, .uint, 480, 48000, 4800, false, false⟩
  | .cengTuneRelayD => ⟨"ceng.tune.relay_d", 6, 9, .live, .uint, 100, 8000, 1200, false, false⟩
  | .cengTuneHyst => ⟨"ceng.tune.hyst", 6, 10, .live, .uint, 0, 40, 8, false, false⟩
  | .cengTuneCycles => ⟨"ceng.tune.cycles", 6, 11, .live, .uint, 4, 32, 8, false, false⟩
  | .cengTuneMaxMs => ⟨"ceng.tune.max_ms", 6, 12, .live, .uint, 5, 100, 30, false, false⟩
  | .cengTuneAbortPct => ⟨"ceng.tune.abort_pct", 6, 13, .live, .uint, 20, 80, 50, false, false⟩
  | .cengTuneWcFrac => ⟨"ceng.tune.wc_frac", 6, 14, .live, .fixed, 19661, 52429, 32768, false, false⟩
  | .cengTuneLeadRatio => ⟨"ceng.tune.lead_ratio", 6, 15, .live, .uint, 2, 16, 6, false, false⟩
  | .cengTuneLagDiv => ⟨"ceng.tune.lag_div", 6, 16, .live, .uint, 4, 40, 10, false, false⟩
  | .cengTuneLagBoost => ⟨"ceng.tune.lag_boost", 6, 17, .live, .uint, 1, 10, 4, false, false⟩
  | .cengTuneKiDiv => ⟨"ceng.tune.ki_div", 6, 18, .live, .uint, 20, 200, 50, false, false⟩
  | .cengTuneKRatioMax => ⟨"ceng.tune.k_ratio_max", 6, 19, .live, .fixed, 78643, 262144, 131072, false, false⟩
  | .spindleMotorRsMohm => ⟨"spindle.motor.rs_mohm", 7, 1, .boundary, .uint, 50, 20000, 900, false, false⟩
  | .spindleMotorLsUh => ⟨"spindle.motor.ls_uh", 7, 2, .boundary, .uint, 20, 20000, 600, false, false⟩
  | .spindleMotorKeUvRpm => ⟨"spindle.motor.ke_uv_rpm", 7, 3, .boundary, .uint, 200, 20000, 2000, false, false⟩
  | .spindleCurrentMaxMa => ⟨"spindle.current.max_ma", 7, 4, .boundary, .uint, 100, 20000, 3000, false, false⟩
  | .spindlePwmMaxMod => ⟨"spindle.pwm.max_mod", 7, 5, .boundary, .fixed, 52429, 64225, 62259, false, false⟩
  | .spindleShuntMinWindowNs => ⟨"spindle.shunt.min_window_ns", 7, 6, .boundary, .uint, 200, 3000, 800, false, false⟩
  | .spindleBankCurrent => ⟨"spindle.bank.current", 7, 7, .boundary, .block, 0, 0, 0, true, false⟩
  | .spindleBankSpeed => ⟨"spindle.bank.speed", 7, 8, .boundary, .block, 0, 0, 0, true, false⟩
  | .spindleCatchFloorMv => ⟨"spindle.catch.floor_mv", 7, 9, .live, .uint, 20, 500, 100, false, false⟩
  | .spindleCatchMinRpm => ⟨"spindle.catch.min_rpm", 7, 10, .boundary, .uint, 150, 1000, 300, false, false⟩
  | .spindleCatchMeasureMs => ⟨"spindle.catch.measure_ms", 7, 11, .boundary, .uint, 30, 200, 60, false, false⟩
  | .spindleCatchMaxTries => ⟨"spindle.catch.max_tries", 7, 12, .live, .uint, 1, 8, 3, false, false⟩
  | .spindleCatchRetryMs => ⟨"spindle.catch.retry_ms", 7, 13, .live, .uint, 10, 1000, 100, false, false⟩
  | .spindleBrakeShortOnMs => ⟨"spindle.brake.short_on_ms", 7, 14, .live, .uint, 10, 200, 40, false, false⟩
  | .spindleBrakeShortMaxMs => ⟨"spindle.brake.short_max_ms", 7, 15, .live, .uint, 500, 20000, 5000, false, false⟩
  | .spindleBrakeDecelRpmS => ⟨"spindle.brake.decel_rpm_s", 7, 16, .live, .uint, 1000, 15000, 12000, false, false⟩
  | .spindleStartAlignMs => ⟨"spindle.start.align_ms", 7, 17, .boundary, .uint, 100, 2000, 400, false, false⟩
  | .spindleStartAlignMa => ⟨"spindle.start.align_ma", 7, 18, .boundary, .uint, 100, 20000, 1500, false, false⟩
  | .spindleStartRampMa => ⟨"spindle.start.ramp_ma", 7, 19, .boundary, .uint, 100, 20000, 1800, false, false⟩
  | .spindleStartRampRpmS => ⟨"spindle.start.ramp_rpm_s", 7, 20, .boundary, .uint, 200, 10000, 2000, false, false⟩
  | .spindleStartHandoverRpm => ⟨"spindle.start.handover_rpm", 7, 21, .boundary, .uint, 300, 2000, 600, false, false⟩
  | .spindleStartHandoverMs => ⟨"spindle.start.handover_ms", 7, 22, .boundary, .uint, 20, 1000, 100, false, false⟩
  | .spindleStartLrBemfPct => ⟨"spindle.start.lr_bemf_pct", 7, 23, .boundary, .uint, 10, 80, 30, false, false⟩
  | .spindleStartMaxTries => ⟨"spindle.start.max_tries", 7, 24, .live, .uint, 1, 8, 3, false, false⟩
  | .spindleStartRetryMs => ⟨"spindle.start.retry_ms", 7, 25, .live, .uint, 100, 10000, 1000, false, false⟩
  | .spindleSyncPeriods => ⟨"spindle.sync.periods", 7, 26, .boundary, .uint, 24, 960, 96, false, false⟩
  | .spindleObsPllHz => ⟨"spindle.obs.pll_hz", 7, 27, .boundary, .uint, 20, 400, 100, false, false⟩
  | .spindleObsLossDeg => ⟨"spindle.obs.loss_deg", 7, 28, .live, .uint, 10, 60, 30, false, false⟩
  | .spindleObsMagTolPct => ⟨"spindle.obs.mag_tol_pct", 7, 29, .live, .uint, 10, 60, 35, false, false⟩
  | .spindleObsXcheckPpm => ⟨"spindle.obs.xcheck_ppm", 7, 30, .live, .uint, 2000, 50000, 20000, false, false⟩
  | .spindleObsLossPeriods => ⟨"spindle.obs.loss_periods", 7, 31, .live, .uint, 12, 480, 48, false, false⟩
  | .spindleSpeedMaxRpm => ⟨"spindle.speed.max_rpm", 7, 32, .live, .uint, 3000, 7500, 7500, false, false⟩
  | .spindleSpeedAccelRpmS => ⟨"spindle.speed.accel_rpm_s", 7, 33, .live, .uint, 1000, 15000, 15000, false, false⟩
  | .spindleSpeedSpinupRpmS => ⟨"spindle.speed.spinup_rpm_s", 7, 34, .live, .uint, 500, 15000, 4000, false, false⟩
  | .spindleSpeedReadyPpm => ⟨"spindle.speed.ready_ppm", 7, 35, .live, .uint, 1000, 15000, 5000, false, false⟩
  | .spindleOverRpm => ⟨"spindle.over.rpm", 7, 36, .live, .uint, 7550, 8050, 7800, false, false⟩
  | .spindleTestIntervalS => ⟨"spindle.test.interval_s", 7, 37, .live, .uint, 0, 86400, 3600, false, false⟩
  | .spindleFaultRetryS => ⟨"spindle.fault.retry_s", 7, 38, .live, .uint, 10, 3600, 300, false, false⟩
  | .mlinkTrainMaxAttempts => ⟨"mlink.train.max_attempts", 8, 1, .boundary, .uint, 1, 10, 3, false, false⟩
  | .mlinkTrainRetryIntervalS => ⟨"mlink.train.retry_interval_s", 8, 2, .live, .uint, 1, 3600, 10, false, false⟩
  | .sledProfileVmaxMmS => ⟨"sled.profile.vmax_mm_s", 9, 1, .live, .uint, 50, 600, 300, false, false⟩
  | .sledProfileAmaxMmS2 => ⟨"sled.profile.amax_mm_s2", 9, 2, .live, .uint, 1000, 20000, 8000, false, false⟩
  | .sledProfileJerkMmS3 => ⟨"sled.profile.jerk_mm_s3", 9, 3, .live, .uint, 100000, 2000000, 800000, false, false⟩
  | .sledFollowVmaxMmS => ⟨"sled.follow.vmax_mm_s", 9, 4, .live, .uint, 1, 50, 20, false, false⟩
  | .sledFollowAmaxMmS2 => ⟨"sled.follow.amax_mm_s2", 9, 5, .live, .uint, 50, 5000, 1000, false, false⟩
  | .sledFollowJerkMmS3 => ⟨"sled.follow.jerk_mm_s3", 9, 6, .live, .uint, 5000, 800000, 100000, false, false⟩
  | .sledCurrentRunPct => ⟨"sled.current.run_pct", 9, 7, .boundary, .uint, 10, 100, 70, false, false⟩
  | .sledHoldPct => ⟨"sled.hold.pct", 9, 8, .live, .uint, 0, 100, 30, false, false⟩
  | .sledHoldDelayMs => ⟨"sled.hold.delay_ms", 9, 9, .live, .uint, 10, 10000, 200, false, false⟩
  | .sledSettleMs => ⟨"sled.settle_ms", 9, 10, .live, .uint, 0, 50, 3, false, false⟩
  | .sledBoundInnerUm => ⟨"sled.bound.inner_um", 9, 11, .boundary, .uint, 21500, 22000, 21900, false, false⟩
  | .sledBoundOuterUm => ⟨"sled.bound.outer_um", 9, 12, .boundary, .uint, 58300, 59500, 58400, false, false⟩
  | .sledSlipMaxUm => ⟨"sled.slip.max_um", 9, 13, .live, .uint, 10, 150, 40, false, false⟩
  | .sledOffIdleS => ⟨"sled.off.idle_s", 9, 14, .live, .uint, 0, 86400, 600, false, false⟩
  | .sledRephaseRampMs => ⟨"sled.rephase.ramp_ms", 9, 15, .boundary, .uint, 2, 100, 10, false, false⟩
  | .hamperMountAuto => ⟨"hamper.mount.auto", 10, 1, .boot, .uint, 0, 1, 1, false, false⟩
  | .hamperPlaceCloseUs => ⟨"hamper.place.close_us", 10, 2, .live, .uint, 50, 100000, 2000, false, false⟩
  | .hamperMemberGraceMs => ⟨"hamper.member.grace_ms", 10, 3, .live, .uint, 0, 10000, 20, false, false⟩
  | .hamperCkptIntervalStripes => ⟨"hamper.ckpt.interval_stripes", 10, 4, .live, .uint, 1024, 1048576, 65536, false, false⟩
  | .hamperCkptIntervalS => ⟨"hamper.ckpt.interval_s", 10, 5, .live, .uint, 10, 86400, 600, false, false⟩
  | .hamperMapMaxExtents => ⟨"hamper.map.max_extents", 10, 6, .boot, .uint, 1048576, 1073741824, 67108864, false, false⟩
  | .hamperRecoverBlankRows => ⟨"hamper.recover.blank_rows", 10, 7, .boot, .uint, 64, 1024, 128, false, false⟩
  | .hamperRebuildSharePct => ⟨"hamper.rebuild.share_pct", 10, 8, .live, .uint, 5, 100, 25, false, false⟩
  | .hostVfTotal => ⟨"host.vf.total", 11, 1, .boot, .uint, 0, 255, 255, false, false⟩
  | .hostVfSr => ⟨"host.vf.sr", 11, 2, .boot, .uint, 1, 4096, 1024, false, false⟩
  | .hostVfCr => ⟨"host.vf.cr", 11, 3, .boot, .uint, 1, 256, 64, false, false⟩
  | .hostVfCtx => ⟨"host.vf.ctx", 11, 4, .boot, .uint, 64, 1024, 512, false, false⟩
  | .hostVfVectors => ⟨"host.vf.vectors", 11, 5, .boot, .uint, 1, 64, 16, false, false⟩
  | .hostArbPfWeight => ⟨"host.arb.pf_weight", 11, 6, .live, .uint, 1, 255, 1, false, false⟩
  | .hostArbVfWeight => ⟨"host.arb.vf_weight", 11, 7, .live, .uint, 1, 255, 1, false, false⟩
  | .hostFetchBurst => ⟨"host.fetch.burst", 11, 8, .live, .uint, 1, 16, 8, false, false⟩
  | .hostRingHoldS => ⟨"host.ring.hold_s", 11, 9, .live, .uint, 0, 3600, 30, false, false⟩
  | .cmdFwactDrainMs => ⟨"cmd.fwact.drain_ms", 12, 1, .live, .uint, 100, 2000, 2000, false, false⟩
  | .cmdStageIdleS => ⟨"cmd.stage.idle_s", 12, 2, .live, .uint, 60, 86400, 3600, false, false⟩
  | .memDdrMaxRate => ⟨"mem.ddr.max_rate", 13, 1, .boot, .enumeration, 0, 2, 2, false, false⟩
  | .memPartJournalMib => ⟨"mem.part.journal_mib", 13, 2, .boot, .uint, 256, 16384, 2048, false, false⟩
  | .memWstoreSlots => ⟨"mem.wstore.slots", 13, 3, .boot, .uint, 64, 512, 128, false, false⟩
  | .memPartCaptureMib => ⟨"mem.part.capture_mib", 13, 4, .boot, .uint, 0, 4096, 256, false, false⟩
  | .memPartDiagMib => ⟨"mem.part.diag_mib", 13, 5, .boot, .uint, 0, 64, 0, false, false⟩
  | .memPartDiagCode => ⟨"mem.part.diag_code", 13, 6, .boot, .enumeration, 0, 2, 0, false, false⟩
  | .memMergeHoldNs => ⟨"mem.merge.hold_ns", 13, 7, .live, .uint, 0, 10000, 500, false, false⟩
  | .memRemapCeCount => ⟨"mem.remap.ce_count", 13, 8, .live, .uint, 1, 64, 4, false, false⟩
  | .memRemapWindowS => ⟨"mem.remap.window_s", 13, 9, .live, .uint, 1, 86400, 3600, false, false⟩
  | .bufRegionMin => ⟨"buf.region.min", 14, 1, .boundary, .uint, 0, 1048576, 2048, false, false⟩
  | .bufBasketRegion => ⟨"buf.basket.n.region", 14, 2, .boundary, .enumeration, 0, 5, 0, false, true⟩
  | .bufBasketClass => ⟨"buf.basket.n.class", 14, 3, .boundary, .enumeration, 0, 4, 0, false, true⟩
  | .bufBasketMin => ⟨"buf.basket.n.min", 14, 4, .boundary, .uint, 0, 4194304, 0, false, true⟩
  | .bufBasketCap => ⟨"buf.basket.n.cap", 14, 5, .boundary, .uint, 0, 16777215, 0, false, true⟩
  | .calDeltaC => ⟨"cal.delta_c", 16, 1, .live, .uint, 1, 20, 4, false, false⟩
  | .calMaxDeferMs => ⟨"cal.max_defer_ms", 16, 2, .live, .uint, 200, 10000, 2000, false, false⟩
  | .calGapMs => ⟨"cal.gap_ms", 16, 3, .live, .uint, 2, 20, 2, false, false⟩
  | .calItemAccept => ⟨"cal.item.n.accept", 16, 4, .boundary, .enumeration, 0, 1, 0, false, true⟩
  | .calRepeatTolPct => ⟨"cal.repeat.tol_pct", 16, 5, .live, .uint, 1, 20, 5, false, false⟩
  | .calRetryMax => ⟨"cal.retry.max", 16, 6, .live, .uint, 1, 8, 3, false, false⟩
  | .calMeasSectors => ⟨"cal.meas.sectors", 16, 7, .boundary, .uint, 16, 1024, 64, false, false⟩
  | .calTwinMeasFrames => ⟨"cal.twin.meas_frames", 16, 8, .boundary, .uint, 5, 50, 10, false, false⟩
  | .calElemMonTolPct => ⟨"cal.elem.mon_tol_pct", 16, 9, .live, .uint, 5, 50, 20, false, false⟩
  | .calElemFaultTicks => ⟨"cal.elem.fault_ticks", 16, 10, .live, .uint, 1, 64, 4, false, false⟩
  | .calWearPowerPct => ⟨"cal.wear.power_pct", 16, 11, .live, .uint, 105, 200, 130, false, false⟩
  | .calWearGainPct => ⟨"cal.wear.gain_pct", 16, 12, .live, .uint, 105, 400, 200, false, false⟩
  | .calWearTrackFailPct => ⟨"cal.wear.track_fail_pct", 16, 13, .live, .uint, 1, 100, 10, false, false⟩
  | .calLinkMarginMinPct => ⟨"cal.link.margin_min_pct", 16, 14, .live, .uint, 5, 50, 15, false, false⟩
  | .calRecMinS => ⟨"cal.rec.min_s", 16, 15, .live, .uint, 60, 86400, 600, false, false⟩
  | .safetyOverTripRpm => ⟨"safety.over.trip_rpm", 17, 1, (.safety false), .uint, 7750, 8250, 8100, false, false⟩
  | .safetyIlkBrake => ⟨"safety.ilk.brake", 17, 2, (.safety true), .uint, 0, 1, 1, false, false⟩
  | .safetyRearmMs => ⟨"safety.rearm_ms", 17, 3, (.safety true), .uint, 100, 10000, 1000, false, false⟩
  | .safetyLmonMaxTrips => ⟨"safety.lmon.max_trips", 17, 4, (.safety false), .uint, 1, 10, 3, false, false⟩
  | .safetySpdfTolPct => ⟨"safety.spdf.tol_pct", 17, 5, (.safety false), .uint, 5, 30, 10, false, false⟩
  | .safetySpdfCheckMs => ⟨"safety.spdf.check_ms", 17, 6, (.safety false), .uint, 20, 200, 50, false, false⟩
  | .safetyGateLimitUs => ⟨"safety.gate.limit_us", 17, 7, (.safety false), .uint, 4, 12, 10, false, false⟩
  | .eventMinSev => ⟨"event.min_sev", 18, 1, .live, .uint, 0, 5, 0, false, false⟩
  | .eventRatePerS => ⟨"event.rate.per_s", 18, 2, .live, .uint, 1, 1000, 10, false, false⟩
  | .eventUrgentSev => ⟨"event.urgent_sev", 18, 3, .live, .uint, 1, 6, 4, false, false⟩
  | .eventUrgentVec => ⟨"event.urgent_vec", 18, 4, .live, .uint, 0, 2047, 1, false, false⟩
  | .eventVfGroups => ⟨"event.vf.groups", 18, 5, .live, .uint, 0, 262142, 34816, false, false⟩
  | .injectEnable => ⟨"inject.enable", 19, 1, .boot, .uint, 0, 1, 0, false, false⟩
  | .injectMaxActive => ⟨"inject.max_active", 19, 2, .live, .uint, 1, 64, 16, false, false⟩
  | .injectMaxDurationS => ⟨"inject.max_duration_s", 19, 3, .live, .uint, 1, 86400, 600, false, false⟩

/-- Fields of section 0x0001 (`hlink`), in field-number order (R324). -/
def Field.ofSectionHlink : List Field :=
  [.hlinkSpareStandby, .hlinkUpErrWindowUs, .hlinkUpErrRetrain, .hlinkCtrlReplyTimeoutUs, 
   .hlinkCtrlMaxTries, .hlinkTrainMaxAttempts, .hlinkTrainRetryIntervalS, 
   .hlinkLaneRetireCount, .hlinkLaneRetireWindowS]

/-- Fields of section 0x0002 (`sheet`), in field-number order (R324). -/
def Field.ofSectionSheet : List Field :=
  [.sheetRowEraseBits, .sheetNormTrackShift, .sheetNormServoShift, .sheetPllKpFastShift, 
   .sheetPllKpTrackShift, .sheetPllKiShift, .sheetPllWedgeShift, .sheetAcqXtCoef, 
   .sheetAcqMinCleanBits, .sheetAcqSearchTimeoutUs, .sheetRateTolPpm, .sheetWedgeWindowBits, 
   .sheetWedgeMinTracks, .sheetWedgeMaxMiss, .sheetSyncWindowBits, .sheetSyncMinMatch, 
   .sheetSyncVoteMinTracks, .sheetSyncPassTolBits, .sheetSyncVoteMatch, .sheetSyncCandidates, 
   .sheetFlyMaxFrames, .sheetDefectLowPct, .sheetDefectEndPct, .sheetDefectEndBits, 
   .sheetDefectLookbackBits, .sheetDefectClipCount, .sheetDefectSheetTracks, 
   .sheetDefectMaxHoldBits, .sheetDetTarget, .sheetDetEqShift, .sheetDetSwapShift, 
   .sheetDetSwapBits, .sheetDetSweeps, .sheetDetRhoShift, .sheetDetNbrEraseScale, 
   .sheetDetAprioriScale, .sheetDetRollbackCw, .sheetDetCentreMin, .sheetDetDivergePct, 
   .sheetDetDivergeSectors]

/-- Fields of section 0x0003 (`ecc`), in field-number order (R324). -/
def Field.ofSectionEcc : List Field :=
  [.eccLdpcMaxIter, .eccLdpcNorm, .eccLdpcEraSkip, .eccRetryIter, .eccRescueLlrMin, 
   .eccRescueRounds, .eccBlankMinTracks, .eccRetryRereads, .eccRetryMaxMs, .eccRetryEarlyLost, 
   .eccSoftDepthSectors]

/-- Fields of section 0x0004 (`write`), in field-number order (R324). -/
def Field.ofSectionWrite : List Field :=
  [.writeVerify, .writeVerifyMaxFailedCw, .writeJumpMarginFrames, .writeJumpMaxTries, 
   .writeAlignMaxErrBits, .writeLeadUs, .writeGateFocusErrNm, .writeGateTrackErrNm, 
   .writeRelocMaxDeferMs]

/-- Fields of section 0x0005 (`loop`), in field-number order (R324). -/
def Field.ofSectionLoop : List Field :=
  [.loopFocusLockNm, .loopFocusUnlockNm, .loopFocusLockTicks, .loopFocusSumMinPct, 
   .loopFocusSweepUmMs, .loopFocusSearchMs, .loopFocusRecapLayers, .loopFocusRecapUs, 
   .loopTrackLockNm, .loopTrackUnlockNm, .loopTrackLockTicks, .loopTrackSlipNm, 
   .loopTrackPullUs, .loopJumpLockTicks, .loopJumpMaxSwaths, .loopLayerSaRampUs, 
   .loopLayerMaxTries, .loopAcqMaxCorrections, .loopRecoverHoldUs, .loopRecoverMaxTries, 
   .loopRecoverRetryS, .loopSledTauMs, .loopSledDeadbandUm, .loopSledLimitUm, .loopRestTurns, 
   .loopSaBase, .loopSaPerUm, .loopSaDither, .loopSaTrimStep, .loopSaTrimMax, 
   .loopPairSteerMm, .loopClvRef, .loopClvSwitchWedges, .loopClvSlewPpmMs, 
   .loopProbeIntervalS]

/-- Fields of section 0x0006 (`ceng`), in field-number order (R324). -/
def Field.ofSectionCeng : List Field :=
  [.cengBankFocusAcq, .cengBankFocusFollow, .cengBankTrackAcq, .cengBankTrackFollow, 
   .cengBankTilt, .cengMissMax, .cengSupSettleTicks, .cengSupRevertTicks, .cengTuneRelayD, 
   .cengTuneHyst, .cengTuneCycles, .cengTuneMaxMs, .cengTuneAbortPct, .cengTuneWcFrac, 
   .cengTuneLeadRatio, .cengTuneLagDiv, .cengTuneLagBoost, .cengTuneKiDiv, .cengTuneKRatioMax]

/-- Fields of section 0x0007 (`spindle`), in field-number order (R324). -/
def Field.ofSectionSpindle : List Field :=
  [.spindleMotorRsMohm, .spindleMotorLsUh, .spindleMotorKeUvRpm, .spindleCurrentMaxMa, 
   .spindlePwmMaxMod, .spindleShuntMinWindowNs, .spindleBankCurrent, .spindleBankSpeed, 
   .spindleCatchFloorMv, .spindleCatchMinRpm, .spindleCatchMeasureMs, .spindleCatchMaxTries, 
   .spindleCatchRetryMs, .spindleBrakeShortOnMs, .spindleBrakeShortMaxMs, 
   .spindleBrakeDecelRpmS, .spindleStartAlignMs, .spindleStartAlignMa, .spindleStartRampMa, 
   .spindleStartRampRpmS, .spindleStartHandoverRpm, .spindleStartHandoverMs, 
   .spindleStartLrBemfPct, .spindleStartMaxTries, .spindleStartRetryMs, .spindleSyncPeriods, 
   .spindleObsPllHz, .spindleObsLossDeg, .spindleObsMagTolPct, .spindleObsXcheckPpm, 
   .spindleObsLossPeriods, .spindleSpeedMaxRpm, .spindleSpeedAccelRpmS, 
   .spindleSpeedSpinupRpmS, .spindleSpeedReadyPpm, .spindleOverRpm, .spindleTestIntervalS, 
   .spindleFaultRetryS]

/-- Fields of section 0x0008 (`mlink`), in field-number order (R324). -/
def Field.ofSectionMlink : List Field :=
  [.mlinkTrainMaxAttempts, .mlinkTrainRetryIntervalS]

/-- Fields of section 0x0009 (`sled`), in field-number order (R324). -/
def Field.ofSectionSled : List Field :=
  [.sledProfileVmaxMmS, .sledProfileAmaxMmS2, .sledProfileJerkMmS3, .sledFollowVmaxMmS, 
   .sledFollowAmaxMmS2, .sledFollowJerkMmS3, .sledCurrentRunPct, .sledHoldPct, 
   .sledHoldDelayMs, .sledSettleMs, .sledBoundInnerUm, .sledBoundOuterUm, .sledSlipMaxUm, 
   .sledOffIdleS, .sledRephaseRampMs]

/-- Fields of section 0x000A (`hamper`), in field-number order (R324). -/
def Field.ofSectionHamper : List Field :=
  [.hamperMountAuto, .hamperPlaceCloseUs, .hamperMemberGraceMs, .hamperCkptIntervalStripes, 
   .hamperCkptIntervalS, .hamperMapMaxExtents, .hamperRecoverBlankRows, 
   .hamperRebuildSharePct]

/-- Fields of section 0x000B (`host`), in field-number order (R324). -/
def Field.ofSectionHost : List Field :=
  [.hostVfTotal, .hostVfSr, .hostVfCr, .hostVfCtx, .hostVfVectors, .hostArbPfWeight, 
   .hostArbVfWeight, .hostFetchBurst, .hostRingHoldS]

/-- Fields of section 0x000C (`cmd`), in field-number order (R324). -/
def Field.ofSectionCmd : List Field :=
  [.cmdFwactDrainMs, .cmdStageIdleS]

/-- Fields of section 0x000D (`mem`), in field-number order (R324). -/
def Field.ofSectionMem : List Field :=
  [.memDdrMaxRate, .memPartJournalMib, .memWstoreSlots, .memPartCaptureMib, .memPartDiagMib, 
   .memPartDiagCode, .memMergeHoldNs, .memRemapCeCount, .memRemapWindowS]

/-- Fields of section 0x000E (`buf`), in field-number order (R324). -/
def Field.ofSectionBuf : List Field :=
  [.bufRegionMin, .bufBasketRegion, .bufBasketClass, .bufBasketMin, .bufBasketCap]

/-- Fields of section 0x0010 (`cal`), in field-number order (R324). -/
def Field.ofSectionCal : List Field :=
  [.calDeltaC, .calMaxDeferMs, .calGapMs, .calItemAccept, .calRepeatTolPct, .calRetryMax, 
   .calMeasSectors, .calTwinMeasFrames, .calElemMonTolPct, .calElemFaultTicks, 
   .calWearPowerPct, .calWearGainPct, .calWearTrackFailPct, .calLinkMarginMinPct, .calRecMinS]

/-- Fields of section 0x0011 (`safety`), in field-number order (R324). -/
def Field.ofSectionSafety : List Field :=
  [.safetyOverTripRpm, .safetyIlkBrake, .safetyRearmMs, .safetyLmonMaxTrips, 
   .safetySpdfTolPct, .safetySpdfCheckMs, .safetyGateLimitUs]

/-- Fields of section 0x0012 (`event`), in field-number order (R324). -/
def Field.ofSectionEvent : List Field :=
  [.eventMinSev, .eventRatePerS, .eventUrgentSev, .eventUrgentVec, .eventVfGroups]

/-- Fields of section 0x0013 (`inject`), in field-number order (R324). -/
def Field.ofSectionInject : List Field :=
  [.injectEnable, .injectMaxActive, .injectMaxDurationS]

/-- Every configuration field, in section order (Table 15-5). -/
def Field.all : List Field :=
  Field.ofSectionHlink ++ Field.ofSectionSheet ++ Field.ofSectionEcc ++ Field.ofSectionWrite ++ Field.ofSectionLoop ++ Field.ofSectionCeng ++ Field.ofSectionSpindle ++ Field.ofSectionMlink ++ Field.ofSectionSled ++ Field.ofSectionHamper ++ Field.ofSectionHost ++ Field.ofSectionCmd ++ Field.ofSectionMem ++ Field.ofSectionBuf ++ Field.ofSectionCal ++ Field.ofSectionSafety ++ Field.ofSectionEvent ++ Field.ofSectionInject

/-- The default of an indexed field: Table 17-1 for `cal.item.n.accept` (`REPEAT` for items 1, 6 and 12), Table 14-5
for `buf.basket.n.*` (class 5 marks a basket whose class field is absent, which is unused, R318); the field's own
default otherwise. -/
def Field.defaultAt (f : Field) (n : Nat) : Int :=
  match f with
  | .calItemAccept => if n = 1 ∨ n = 6 ∨ n = 12 then 0 else 1
  | .bufBasketRegion =>
    if n = 7 ∨ n = 8 ∨ n = 14 then 5 else if n = 9 then 0 else if n = 10 then 1 else if n = 11 then 2
    else if n = 12 then 3 else if n = 13 then 4 else 0
  | .bufBasketClass =>
    if n = 7 then 0 else if n = 8 then 1 else if 9 ≤ n ∧ n ≤ 12 then 2 else if n = 13 then 3 else if n = 14 then 4 else 5
  | .bufBasketMin =>
    if n = 7 then 4096 else if 8 ≤ n ∧ n ≤ 12 then 8192 else if n = 13 then 16384 else if n = 14 then 1024 else 0
  | .bufBasketCap =>
    if n = 8 then 131072 else if 9 ≤ n ∧ n ≤ 12 then 65536 else if n = 14 then 32768 else 0
  | _ => f.info.dflt

/-- No value set: every field at its default, no bank present. -/
def Cfg.empty : Cfg := ⟨[], []⟩

/-- The value of a field at an index: the value set, or the default (R12). -/
def Cfg.at (c : Cfg) (f : Field) (n : Nat) : Int :=
  match c.nums.find? (fun e => e.1 = f ∧ e.2.1 = n) with
  | some e => e.2.2
  | none => f.defaultAt n

/-- The value of a field without an index. -/
def Cfg.int (c : Cfg) (f : Field) : Int := c.at f 0

/-- The value of a field whose range has no negative value. -/
def Cfg.nat (c : Cfg) (f : Field) : Nat := (c.at f 0).toNat

/-- The bank a field names, if the image in force holds it. -/
def Cfg.bank (c : Cfg) (f : Field) : Option Bank :=
  (c.banks.find? (fun e => e.1 = f)).map (fun e => e.2)

/-- The values of one section only. -/
def Cfg.ofSection (c : Cfg) (sec : Nat) : Cfg :=
  ⟨c.nums.filter (fun e => e.1.info.sec = sec), c.banks.filter (fun e => e.1.info.sec = sec)⟩

/-- `c` with the fields of section `sec` that satisfy `keep` replaced by those of `d`: the section's pending values
come into force together (R330). -/
def Cfg.takeSection (c d : Cfg) (sec : Nat) (keep : Field → Bool) : Cfg :=
  let sel := fun (f : Field) => f.info.sec = sec && keep f
  ⟨(c.nums.filter (fun e => !sel e.1)) ++ (d.nums.filter (fun e => sel e.1)),
   (c.banks.filter (fun e => !sel e.1)) ++ (d.banks.filter (fun e => sel e.1))⟩

/-- `c` with one field set. -/
def Cfg.set (c : Cfg) (f : Field) (n : Nat) (v : Int) : Cfg :=
  let rest := c.nums.filter (fun e => !(e.1 = f && e.2.1 = n))
  if v = f.defaultAt n then ⟨rest, c.banks⟩ else ⟨(f, n, v) :: rest, c.banks⟩

/-- A value lies in the field's range (R12); an enumeration position lies in its list. -/
def Field.inRange (f : Field) (v : Int) : Bool := f.info.lo ≤ v && v ≤ f.info.hi

/-- Whether a field's index is one the field has (`cal.item.n` for 1 to 12, `buf.basket.n` for 7 to 255). -/
def Field.indexOk (f : Field) (n : Nat) : Bool :=
  match f with
  | .calItemAccept => 1 ≤ n && n ≤ 12
  | .bufBasketRegion | .bufBasketClass | .bufBasketMin | .bufBasketCap => 7 ≤ n && n ≤ 255
  | _ => n = 0

/-- The field with a section type and a field number (R324). -/
def Field.find (sec num : Nat) : Option Field :=
  Field.all.find? (fun f => f.info.sec = sec ∧ f.info.num = num)

end Sys2Proof
end

