-- ==== Sys2Proof/Machine/Events.lean ====
section
/-! DEFINITION. The events of Table 21-5: one constructor per `EV_` name, with its code and severity; and the
event records and sources of 21_injection_events.md. -/

namespace Sys2Proof.Machine

/-- The event codes of Table 21-5 (names without the `EV_` prefix). -/
inductive Ev where
  | hlinkCtrlFail -- `EV_HLINK_CTRL_FAIL`
  | hlinkTrainFail -- `EV_HLINK_TRAIN_FAIL`
  | hmUnsupported -- `EV_HM_UNSUPPORTED`
  | hlinkLateBlock -- `EV_HLINK_LATE_BLOCK`
  | hlinkSpareTakeover -- `EV_HLINK_SPARE_TAKEOVER`
  | hlinkLaneRetired -- `EV_HLINK_LANE_RETIRED`
  | hlinkDsLost -- `EV_HLINK_DS_LOST`
  | hlinkSliceSpare -- `EV_HLINK_SLICE_SPARE`
  | sheetRateRange -- `EV_SHEET_RATE_RANGE`
  | sheetAddrJump -- `EV_SHEET_ADDR_JUMP`
  | sheetWedgeLost -- `EV_SHEET_WEDGE_LOST`
  | sheetAcqFail -- `EV_SHEET_ACQ_FAIL`
  | sheetEqReset -- `EV_SHEET_EQ_RESET`
  | sectorReread -- `EV_SECTOR_REREAD`
  | sectorLost -- `EV_SECTOR_LOST`
  | sectorMismatch -- `EV_SECTOR_MISMATCH`
  | writeJumpFail -- `EV_WRITE_JUMP_FAIL`
  | writeStrategyLoad -- `EV_WRITE_STRATEGY_LOAD`
  | writeGateDrop -- `EV_WRITE_GATE_DROP`
  | writeSectorFail -- `EV_WRITE_SECTOR_FAIL`
  | writeRelocFull -- `EV_WRITE_RELOC_FULL`
  | writeVerifyFail -- `EV_WRITE_VERIFY_FAIL`
  | loopSlip -- `EV_LOOP_SLIP`
  | loopFocusSearchFail -- `EV_LOOP_FOCUS_SEARCH_FAIL`
  | loopTrackLost -- `EV_LOOP_TRACK_LOST`
  | loopJumpFail -- `EV_LOOP_JUMP_FAIL`
  | loopLayerJumpFail -- `EV_LOOP_LAYER_JUMP_FAIL`
  | loopSeekFail -- `EV_LOOP_SEEK_FAIL`
  | loopPickupFail -- `EV_LOOP_PICKUP_FAIL`
  | loopNoDisc -- `EV_LOOP_NO_DISC`
  | loopActuatorLimit -- `EV_LOOP_ACTUATOR_LIMIT`
  | loopSurfaceMismatch -- `EV_LOOP_SURFACE_MISMATCH`
  | loopPairRange -- `EV_LOOP_PAIR_RANGE`
  | loopClvRefSwitch -- `EV_LOOP_CLV_REF_SWITCH`
  | loopClvNoRef -- `EV_LOOP_CLV_NO_REF`
  | loopBankReject -- `EV_LOOP_BANK_REJECT`
  | loopSupervisor -- `EV_LOOP_SUPERVISOR`
  | loopBankRevert -- `EV_LOOP_BANK_REVERT`
  | loopTuneFail -- `EV_LOOP_TUNE_FAIL`
  | loopTuneDone -- `EV_LOOP_TUNE_DONE`
  | cengMismatch -- `EV_CENG_MISMATCH`
  | cengSpare -- `EV_CENG_SPARE`
  | cengNoSpare -- `EV_CENG_NO_SPARE`
  | cengCoreFault -- `EV_CENG_CORE_FAULT`
  | cengEventOverflow -- `EV_CENG_EVENT_OVERFLOW`
  | mlinkTrainFail -- `EV_MLINK_TRAIN_FAIL`
  | msUnsupported -- `EV_MS_UNSUPPORTED`
  | mlinkLost -- `EV_MLINK_LOST`
  | spindleSafeBrake -- `EV_SPINDLE_SAFE_BRAKE`
  | spindleStageFault -- `EV_SPINDLE_STAGE_FAULT`
  | spindleCatchFail -- `EV_SPINDLE_CATCH_FAIL`
  | spindleObsCheckFail -- `EV_SPINDLE_OBS_CHECK_FAIL`
  | spindleLocked -- `EV_SPINDLE_LOCKED`
  | spindleHandoverFail -- `EV_SPINDLE_HANDOVER_FAIL`
  | spindleStartFail -- `EV_SPINDLE_START_FAIL`
  | spindleObsLost -- `EV_SPINDLE_OBS_LOST`
  | spindleRecovered -- `EV_SPINDLE_RECOVERED`
  | spindleOverspeed -- `EV_SPINDLE_OVERSPEED`
  | spindleBrakeFail -- `EV_SPINDLE_BRAKE_FAIL`
  | sledTableLoad -- `EV_SLED_TABLE_LOAD`
  | sledBound -- `EV_SLED_BOUND`
  | sledFault -- `EV_SLED_FAULT`
  | sledPosLost -- `EV_SLED_POS_LOST`
  | sledStepLoss -- `EV_SLED_STEP_LOSS`
  | calFail -- `EV_CAL_FAIL`
  | calGapForced -- `EV_CAL_GAP_FORCED`
  | calElemFault -- `EV_CAL_ELEM_FAULT`
  | calElemWorn -- `EV_CAL_ELEM_WORN`
  | calRowSwap -- `EV_CAL_ROW_SWAP`
  | calTrackSuspended -- `EV_CAL_TRACK_SUSPENDED`
  | calTrackRetired -- `EV_CAL_TRACK_RETIRED`
  | calPickupRetired -- `EV_CAL_PICKUP_RETIRED`
  | calRecordFail -- `EV_CAL_RECORD_FAIL`
  | sheetDetFault -- `EV_SHEET_DET_FAULT`
  | sheetDetSpare -- `EV_SHEET_DET_SPARE`
  | sheetDetNoSpare -- `EV_SHEET_DET_NO_SPARE`
  | ldpcFault -- `EV_LDPC_FAULT`
  | ldpcSpare -- `EV_LDPC_SPARE`
  | ldpcNoSpare -- `EV_LDPC_NO_SPARE`
  | writeEncFault -- `EV_WRITE_ENC_FAULT`
  | hamperStaleMember -- `EV_HAMPER_STALE_MEMBER`
  | hamperUnrecovered -- `EV_HAMPER_UNRECOVERED`
  | hamperReconDiffer -- `EV_HAMPER_RECON_DIFFER`
  | hamperEngineFault -- `EV_HAMPER_ENGINE_FAULT`
  | hamperEngineSpare -- `EV_HAMPER_ENGINE_SPARE`
  | hamperNoSpare -- `EV_HAMPER_NO_SPARE`
  | ddrDegraded -- `EV_DDR_DEGRADED`
  | ddrChannelFail -- `EV_DDR_CHANNEL_FAIL`
  | memRemap -- `EV_MEM_REMAP`
  | memRemapFull -- `EV_MEM_REMAP_FULL`
  | memUe -- `EV_MEM_UE`
  | memStagedLost -- `EV_MEM_STAGED_LOST`
  | memBlockCheck -- `EV_MEM_BLOCK_CHECK`
  | bufWait -- `EV_BUF_WAIT`
  | sramSpareExhausted -- `EV_SRAM_SPARE_EXHAUSTED`
  | repairRecordFull -- `EV_REPAIR_RECORD_FULL`
  | fabricCreditResync -- `EV_FABRIC_CREDIT_RESYNC`
  | blockFenced -- `EV_BLOCK_FENCED`
  | duplexSimplex -- `EV_DUPLEX_SIMPLEX`
  | mgmtCoreFault -- `EV_MGMT_CORE_FAULT`
  | mgmtSpare -- `EV_MGMT_SPARE`
  | regionDegraded -- `EV_REGION_DEGRADED`
  | regionLost -- `EV_REGION_LOST`
  | clkBlockFail -- `EV_CLK_BLOCK_FAIL`
  | chipFatal -- `EV_CHIP_FATAL`
  | pcieDegraded -- `EV_PCIE_DEGRADED`
  | ringBadDoorbell -- `EV_RING_BAD_DOORBELL`
  | ringDupTag -- `EV_RING_DUP_TAG`
  | eventOverflow -- `EV_EVENT_OVERFLOW`
  | stageDiscarded -- `EV_STAGE_DISCARDED`
  | fwActivateFail -- `EV_FW_ACTIVATE_FAIL`
  | cfgSlotFallback -- `EV_CFG_SLOT_FALLBACK`
  | cfgNoImage -- `EV_CFG_NO_IMAGE`
  | timeStep -- `EV_TIME_STEP`
  | safetyLmonTrip -- `EV_SAFETY_LMON_TRIP`
  | safetyIlkOpen -- `EV_SAFETY_ILK_OPEN`
  | safetyOverspeed -- `EV_SAFETY_OVERSPEED`
  | safetySpdfImplausible -- `EV_SAFETY_SPDF_IMPLAUSIBLE`
  | safetyGateForced -- `EV_SAFETY_GATE_FORCED`
  | safetyHbLost -- `EV_SAFETY_HB_LOST`
  | safetyRootLost -- `EV_SAFETY_ROOT_LOST`
  | safetyOutputReadback -- `EV_SAFETY_OUTPUT_READBACK`
  | safetyLatched -- `EV_SAFETY_LATCHED`
  | safetyLockstep -- `EV_SAFETY_LOCKSTEP`
  | safetySelftestFail -- `EV_SAFETY_SELFTEST_FAIL`
  | safetySupply -- `EV_SAFETY_SUPPLY`
  | safetyLmonMismatch -- `EV_SAFETY_LMON_MISMATCH`
  | safetyIslandLost -- `EV_SAFETY_ISLAND_LOST`
  | safetyCfgRefuse -- `EV_SAFETY_CFG_REFUSE`
  | injectArmed -- `EV_INJECT_ARMED`
  | injectEnded -- `EV_INJECT_ENDED`
  | injectLifted -- `EV_INJECT_LIFTED`
  | discFormatUnknown -- `EV_DISC_FORMAT_UNKNOWN`
  | discIdentityFail -- `EV_DISC_IDENTITY_FAIL`
  | pcaExhausted -- `EV_PCA_EXHAUSTED`
  deriving DecidableEq, Repr, Inhabited

/-- Group, position in the group and severity of each event (R427, Table 21-5). -/
def Ev.info : Ev → Nat × Nat × Nat
  | .hlinkCtrlFail => (0x01, 1, 3)
  | .hlinkTrainFail => (0x01, 2, 3)
  | .hmUnsupported => (0x01, 3, 3)
  | .hlinkLateBlock => (0x01, 4, 1)
  | .hlinkSpareTakeover => (0x01, 5, 2)
  | .hlinkLaneRetired => (0x01, 6, 3)
  | .hlinkDsLost => (0x01, 7, 3)
  | .hlinkSliceSpare => (0x01, 8, 1)
  | .sheetRateRange => (0x02, 1, 2)
  | .sheetAddrJump => (0x02, 2, 2)
  | .sheetWedgeLost => (0x02, 3, 2)
  | .sheetAcqFail => (0x02, 4, 2)
  | .sheetEqReset => (0x02, 5, 1)
  | .sectorReread => (0x03, 1, 1)
  | .sectorLost => (0x03, 2, 2)
  | .sectorMismatch => (0x03, 3, 3)
  | .writeJumpFail => (0x04, 1, 2)
  | .writeStrategyLoad => (0x04, 2, 3)
  | .writeGateDrop => (0x04, 3, 2)
  | .writeSectorFail => (0x04, 4, 1)
  | .writeRelocFull => (0x04, 5, 3)
  | .writeVerifyFail => (0x04, 6, 1)
  | .loopSlip => (0x05, 1, 1)
  | .loopFocusSearchFail => (0x05, 2, 2)
  | .loopTrackLost => (0x05, 3, 2)
  | .loopJumpFail => (0x05, 4, 2)
  | .loopLayerJumpFail => (0x05, 5, 2)
  | .loopSeekFail => (0x05, 6, 2)
  | .loopPickupFail => (0x05, 7, 3)
  | .loopNoDisc => (0x05, 8, 1)
  | .loopActuatorLimit => (0x05, 9, 2)
  | .loopSurfaceMismatch => (0x05, 10, 3)
  | .loopPairRange => (0x05, 11, 2)
  | .loopClvRefSwitch => (0x05, 12, 1)
  | .loopClvNoRef => (0x05, 13, 2)
  | .loopBankReject => (0x06, 1, 2)
  | .loopSupervisor => (0x06, 2, 2)
  | .loopBankRevert => (0x06, 3, 2)
  | .loopTuneFail => (0x06, 4, 1)
  | .loopTuneDone => (0x06, 5, 0)
  | .cengMismatch => (0x06, 6, 3)
  | .cengSpare => (0x06, 7, 1)
  | .cengNoSpare => (0x06, 8, 4)
  | .cengCoreFault => (0x06, 9, 3)
  | .cengEventOverflow => (0x06, 10, 2)
  | .mlinkTrainFail => (0x07, 1, 3)
  | .msUnsupported => (0x07, 2, 3)
  | .mlinkLost => (0x07, 3, 3)
  | .spindleSafeBrake => (0x07, 4, 3)
  | .spindleStageFault => (0x07, 5, 3)
  | .spindleCatchFail => (0x07, 6, 2)
  | .spindleObsCheckFail => (0x07, 7, 2)
  | .spindleLocked => (0x07, 8, 3)
  | .spindleHandoverFail => (0x07, 9, 2)
  | .spindleStartFail => (0x07, 10, 3)
  | .spindleObsLost => (0x07, 11, 2)
  | .spindleRecovered => (0x07, 12, 1)
  | .spindleOverspeed => (0x07, 13, 4)
  | .spindleBrakeFail => (0x07, 14, 4)
  | .sledTableLoad => (0x08, 1, 3)
  | .sledBound => (0x08, 2, 2)
  | .sledFault => (0x08, 3, 3)
  | .sledPosLost => (0x08, 4, 2)
  | .sledStepLoss => (0x08, 5, 2)
  | .calFail => (0x09, 1, 2)
  | .calGapForced => (0x09, 2, 1)
  | .calElemFault => (0x09, 3, 3)
  | .calElemWorn => (0x09, 4, 1)
  | .calRowSwap => (0x09, 5, 1)
  | .calTrackSuspended => (0x09, 6, 2)
  | .calTrackRetired => (0x09, 7, 3)
  | .calPickupRetired => (0x09, 8, 3)
  | .calRecordFail => (0x09, 9, 3)
  | .sheetDetFault => (0x0A, 1, 3)
  | .sheetDetSpare => (0x0A, 2, 1)
  | .sheetDetNoSpare => (0x0A, 3, 4)
  | .ldpcFault => (0x0A, 4, 3)
  | .ldpcSpare => (0x0A, 5, 1)
  | .ldpcNoSpare => (0x0A, 6, 3)
  | .writeEncFault => (0x0A, 7, 3)
  | .hamperStaleMember => (0x0B, 1, 2)
  | .hamperUnrecovered => (0x0B, 2, 3)
  | .hamperReconDiffer => (0x0B, 3, 3)
  | .hamperEngineFault => (0x0B, 4, 3)
  | .hamperEngineSpare => (0x0B, 5, 1)
  | .hamperNoSpare => (0x0B, 6, 4)
  | .ddrDegraded => (0x0C, 1, 2)
  | .ddrChannelFail => (0x0C, 2, 3)
  | .memRemap => (0x0C, 3, 1)
  | .memRemapFull => (0x0C, 4, 3)
  | .memUe => (0x0C, 5, 3)
  | .memStagedLost => (0x0C, 6, 4)
  | .memBlockCheck => (0x0C, 7, 3)
  | .bufWait => (0x0C, 8, 1)
  | .sramSpareExhausted => (0x0C, 9, 3)
  | .repairRecordFull => (0x0C, 10, 3)
  | .fabricCreditResync => (0x0D, 1, 1)
  | .blockFenced => (0x0D, 2, 2)
  | .duplexSimplex => (0x0D, 3, 3)
  | .mgmtCoreFault => (0x0D, 4, 3)
  | .mgmtSpare => (0x0D, 5, 1)
  | .regionDegraded => (0x0D, 6, 3)
  | .regionLost => (0x0D, 7, 4)
  | .clkBlockFail => (0x0D, 8, 3)
  | .chipFatal => (0x0D, 9, 5)
  | .pcieDegraded => (0x0E, 1, 2)
  | .ringBadDoorbell => (0x0E, 2, 2)
  | .ringDupTag => (0x0E, 3, 3)
  | .eventOverflow => (0x0E, 4, 2)
  | .stageDiscarded => (0x0E, 5, 1)
  | .fwActivateFail => (0x0E, 6, 3)
  | .cfgSlotFallback => (0x0E, 7, 3)
  | .cfgNoImage => (0x0E, 8, 4)
  | .timeStep => (0x0E, 9, 1)
  | .safetyLmonTrip => (0x0F, 1, 4)
  | .safetyIlkOpen => (0x0F, 2, 4)
  | .safetyOverspeed => (0x0F, 3, 4)
  | .safetySpdfImplausible => (0x0F, 4, 4)
  | .safetyGateForced => (0x0F, 5, 4)
  | .safetyHbLost => (0x0F, 6, 5)
  | .safetyRootLost => (0x0F, 7, 5)
  | .safetyOutputReadback => (0x0F, 8, 5)
  | .safetyLatched => (0x0F, 9, 4)
  | .safetyLockstep => (0x0F, 10, 5)
  | .safetySelftestFail => (0x0F, 11, 5)
  | .safetySupply => (0x0F, 12, 5)
  | .safetyLmonMismatch => (0x0F, 13, 4)
  | .safetyIslandLost => (0x0F, 14, 5)
  | .safetyCfgRefuse => (0x0F, 15, 2)
  | .injectArmed => (0x10, 1, 1)
  | .injectEnded => (0x10, 2, 1)
  | .injectLifted => (0x10, 3, 1)
  | .discFormatUnknown => (0x11, 1, 2)
  | .discIdentityFail => (0x11, 2, 2)
  | .pcaExhausted => (0x11, 3, 2)

/-- The group of an event. -/
def Ev.group (e : Ev) : Nat := e.info.1

/-- `CODE` = 256 × group + position (R427). -/
def Ev.code (e : Ev) : Nat := 256 * e.info.1 + e.info.2.1

/-- The fixed severity of an event (R427): 0 `INFO` to 5 `FATAL`. -/
def Ev.sev (e : Ev) : Nat := e.info.2.2

/-- An event record without its ring fields (Table 21-4): `ETIME`, `SRC`, the event, `INJ`, `HELD`, `P0` to `P2`,
`SUPP`. -/
structure EvRec where
  time : Nat
  src  : Nat
  ev   : Ev
  inj  : Bool
  held : Bool
  p0   : Nat
  p1   : Nat
  p2   : Nat
  supp : Nat
  deriving DecidableEq, Repr, Inhabited

/-- The rate count of one source and code in the current second of `TIME`, and its suppressed records (R429).
Log 44 (DESIGN CHOICE). -/
structure EvRate where
  src   : Nat
  ev    : Ev
  count : Nat
  supp  : Nat
  deriving DecidableEq, Repr, Inhabited

/-- A control engine's queue of event records during a hold, and the records dropped from it (R181). -/
structure EvQueue where
  region  : Nat
  engine  : Nat
  recs    : List EvRec
  dropped : Nat
  deriving DecidableEq, Repr, Inhabited

/-- Event delivery: the rate counts, the engines' queues (R181), the store of records held during a core reset and the records lost from it
per function (R430). -/
structure EvState where
  rates : List EvRate
  queues : List EvQueue
  held  : List EvRec
  lost  : List (FnId × Nat)
  deriving DecidableEq, Repr, Inhabited

/-- Source numbers (Table 21-3). -/
def srcBay (b : BayId) (s : Nat) : Nat := 24 * b.val + s

/-- A region's source. -/
def srcRegion (r : Nat) (s : Nat) : Nat := 768 + 16 * r + s

/-- A hamper slot's source. -/
def srcHamper (h : SlotId) : Nat := 864 + h.val

end Sys2Proof.Machine
end

