-- ==== Sys2Proof/Machine/HostTypes.lean ====
section
/-! DEFINITION. The plain data of the host side: functions, rings, command contexts, staging and activation, DOE
(12_host_rings.md, 13_command_semantics.md, 20_trust.md). -/

namespace Sys2Proof.Machine

/-- The status codes of Table 13-1. -/
inductive Status where
  | success
  | invalidOpcode
  | invalidField
  | busy
  | notReady
  | notFound
  | unknownHamper
  | aborted
  | tooLate
  | interruptedReset
  | dmaError
  | outOfRange
  | hamperFull
  | readOnly
  | unrecovered
  | notPermitted
  | imageInvalid
  | memberConflict
  deriving DecidableEq, Repr, Inhabited

/-- The code of a status (Table 13-1). -/
def Status.code : Status → Nat
  | .success => 0x00
  | .invalidOpcode => 0x01
  | .invalidField => 0x02
  | .busy => 0x03
  | .notReady => 0x04
  | .notFound => 0x05
  | .unknownHamper => 0x06
  | .aborted => 0x07
  | .tooLate => 0x08
  | .interruptedReset => 0x09
  | .dmaError => 0x0A
  | .outOfRange => 0x0B
  | .hamperFull => 0x0C
  | .readOnly => 0x0D
  | .unrecovered => 0x0E
  | .notPermitted => 0x0F
  | .imageInvalid => 0x10
  | .memberConflict => 0x11

/-- A submission ring (R262): its completion ring, place in host memory, depth, hold limit in seconds (0xFFFF takes
the field), the index of the next entry to fetch, the last doorbell value, whether it is stopped (R269), and the tag
of the `DELETE_SR` that is deleting it. -/
structure Sr where
  fn       : FnId
  id       : Nat
  cr       : Nat
  base     : Nat
  depth    : Nat
  hold     : Nat
  head     : Nat
  tail     : Nat
  stopped  : Bool
  deleting : Option (BitVec 6)
  deriving DecidableEq, Repr, Inhabited

/-- A completion ring or event ring (R263, R275): the index of the next slot to write, the phase of this pass, the head
the host last wrote, the coalescing values, and since when the oldest entry not yet freed has waited. -/
structure Cr where
  fn      : FnId
  id      : Nat
  event   : Bool
  base    : Nat
  depth   : Nat
  vec     : Nat
  cthr    : Nat
  ctime   : Nat
  next    : Nat
  phase   : Bool
  head    : Nat
  pending : Nat
  since   : Option Nat
  signalled : Bool
  deriving DecidableEq, Repr, Inhabited

/-- Where an accepted command stands (R273, R287, R296). -/
inductive CmdPhase where
  /-- held for readiness under R273, R230 or R291 since the given moment of the microsecond clock -/
  | held (since : Nat)
  /-- accepted, not yet begun: its row of the table runs it, and fences may still hold it (R287) -/
  | waiting
  /-- begun to act -/
  | started
  /-- finished: the status is fixed at the posting, which `COMPLETION_POST` does -/
  | done
  deriving DecidableEq, Repr, Inhabited

/-- A command context (R271). `order` is the fetch order (R270); `pieces` the host addresses and lengths of its data
buffer (R272); `ordinal` that of a `WRITE` (R233); `target` the D a `FLUSH` or `VERIFY` waits for, per hamper slot;
`bound` the fetch order of an `ABORT`'s target (R289). `silent` marks a command whose function was reset (R276). -/
structure Cmd where
  fn      : FnId
  sr      : Nat
  tag     : BitVec 6
  order   : Nat
  entry   : Bytes
  /-- when it was accepted, on the microsecond clock -/
  since   : Nat
  pieces  : List (Nat × Nat)
  phase   : CmdPhase
  ordinal : Nat
  slot    : Option SlotId
  target  : List (SlotId × Nat)
  bound   : Option Nat
  silent  : Bool
  status  : Status
  result  : Nat
  zero    : Bool
  applied : Bool
  /-- blocks of a `WRITE` whose data has been fetched -/
  staged  : Bool
  /-- for `READ` and `VERIFY`: blocks still unanswered, blocks served by rebuild, unrecovered block indexes -/
  todo    : List Nat
  rebuilt : Nat
  failed  : List Nat
  /-- buffers drawn for the command and not yet returned -/
  buffers : List Nat
  deriving DecidableEq, Repr, Inhabited

/-- One MSI-X table entry: address, data, mask and pending bit. -/
structure MsixEntry where
  addr    : Nat
  data    : Nat
  masked  : Bool
  pending : Bool
  deriving DecidableEq, Repr, Inhabited

/-- DOE state of a function (R455, R456, 20_trust.md): the response waiting to be read. -/
structure DoeState where
  busy     : Bool
  error    : Bool
  response : Bytes
  deriving DecidableEq, Repr, Inhabited

/-- What the controller keeps for one PCI function. `sr0` is the admin submission ring image of BAR0, 4,096 bytes as
the host last wrote them (sparse: entry offset and bytes); `cr0` the admin completion ring image: the entries posted, by index. `recent` are the
newest records kept before an event ring exists (R275); `lost` the records lost since the last overflow record; `fseq`
the count of records raised for the function's ring. -/
structure Fn where
  id      : FnId
  ready   : Bool
  bme     : Bool
  msix    : List (Nat × MsixEntry)
  sr0     : List (Nat × Bytes)
  cr0     : List (Nat × Bytes)
  recent  : List EvRec
  lost    : Nat
  fseq    : Nat
  doe     : DoeState
  deriving DecidableEq, Repr, Inhabited

/-- The staging session (R293): target 0 image or 1 firmware, the offsets and data of chunks written, and when the
last chunk came. -/
structure StageSession where
  target : Nat
  slot   : Nat
  last   : Nat
  deriving DecidableEq, Repr, Inhabited

/-- A firmware activation in progress (R295): the command's tag, its mode, and the start of the drain. -/
structure FwAct where
  order   : Nat
  mode    : Nat
  started : Nat
  drained : Bool
  deriving DecidableEq, Repr, Inhabited

/-- The host side. `nextOrder` counts accepted entries; `lastAdmin`, `lastFn`, `credit` and `lastSr` are the round
robin pointers of R270; `badDoorbells` the doorbells discarded for rings that do not exist (R262); `width` and `rate`
the link as trained (R253); `vfs` the number of VFs enabled. -/
structure HostState where
  fns          : List Fn
  srs          : List Sr
  crs          : List Cr
  cmds         : List Cmd
  nextOrder    : Nat
  lastAdmin    : Nat
  lastFn       : Nat
  credit       : Nat
  lastSr       : List (FnId × Nat)
  badDoorbells : Nat
  vfs          : Nat
  width        : Nat
  rate         : Nat
  ready        : Bool
  gen          : Nat
  hbeat        : Nat
  stage        : Nat
  stageBusy    : Option StageSession
  act          : Option FwAct
  /-- no ring is granted: an activation drains (R295) or the cores are held -/
  fetchStop    : Bool
  /-- the status page as it last was, kept through a core reset (R277) -/
  page         : Bytes
  /-- the commands whose completions post before those of any command fetched from order `fatesEnd` on (R296) -/
  fates        : List Nat
  fatesEnd     : Nat
  deriving DecidableEq, Repr, Inhabited

/-- What the controller does to its surroundings: the newest entry first in the log of `State`.
Log 11 (DESIGN CHOICE). -/
inductive Output where
  /-- data written to host memory, at a bus address (R254) -/
  | hostData (fn : FnId) (addr : Nat) (data : Bytes)
  /-- a completion entry written at a bus address, or into admin CR 0 -/
  | completion (fn : FnId) (cr : Nat) (index : Nat) (entry : Bytes)
  /-- an event record written to a function's event ring -/
  | event (fn : FnId) (index : Nat) (record : Bytes)
  /-- an MSI-X message -/
  | msix (fn : FnId) (addr data : Nat)
  /-- a downstream head-link frame, scrambled (R38) -/
  | headFrame (b : BayId) (p : Pu) (frame : Bytes)
  /-- a downstream motor-link frame, scrambled -/
  | motorFrame (b : BayId) (frame : Bytes)
  /-- a raw line state in place of frames (training, off) -/
  | headLine (b : BayId) (p : Pu) (what : Nat)
  | motorLine (b : BayId) (what : Nat)
  /-- a `DATA` retry, resynchronisation or link reset on the fabric -/
  | fabric (region link what : Nat)
  /-- a set point sent to the core regulator, millivolts (R443) -/
  | avs (millivolts : Nat)
  /-- a chip pin driven high or low -/
  | pin (name : String) (high : Bool)
  /-- a DOE response -/
  | doe (fn : FnId) (data : Bytes)
  deriving DecidableEq, Repr, Inhabited

end Sys2Proof.Machine
end

