-- ==== Sys2Proof/Machine/MemTypes.lean ====
section
/-! DEFINITION. The plain data of buffer memory (14_buffer_memory.md), flash, and the always-on store. -/

namespace Sys2Proof.Machine

/-- An addressed memory: (address, byte) pairs in strictly rising address order, with no entry equal to what an unlisted
address reads as. -/
abbrev Memory := List Host.Cell

/-- The level a buffer was drawn from (R313): the leaf's own reserve, its region basket, the common basket. -/
inductive BufLevel where
  | leaf
  | region
  | common
  deriving DecidableEq, Repr, Inhabited

/-- A buffer in use, with its descriptor (R311): handle, basket, the level it was drawn from and the basket of that
level, the requester, 4 KiB blocks held so far and their checks, and the data check of the sector it holds part of. -/
structure Buf where
  handle    : Nat
  basket    : Nat
  level     : BufLevel
  home      : Nat
  requester : Nat
  blocks    : List Bytes
  checks    : List (BitVec 32)
  sector    : Option (BitVec 64)
  deriving DecidableEq, Repr, Inhabited

/-- A requester that waits for buffers (R314, R315): basket, how many, who, and in which order it asked. -/
structure BufWaiter where
  basket    : Nat
  count     : Nat
  requester : Nat
  order     : Nat
  deriving DecidableEq, Repr, Inhabited

/-- A merge-buffer entry (R307): codeword address, 64 data bytes, the byte mask, and when it was taken. -/
structure MergeEntry where
  ch    : Nat
  addr  : Nat
  data  : Bytes
  mask  : List Bool
  since : Nat
  deriving DecidableEq, Repr, Inhabited

/-- A narrow write that waits while all 64 entries are busy (R307). -/
structure MergeWait where
  ch   : Nat
  addr : Nat
  data : Bytes
  deriving DecidableEq, Repr, Inhabited

/-- A remapped 4 KiB range (R306): channel, range within the channel, the remap unit it went to. -/
structure Remap where
  ch   : Nat
  unit : Nat
  dest : Nat
  deriving DecidableEq, Repr, Inhabited

/-- The corrected errors of one 4 KiB range within the window (R306). -/
structure CeRange where
  part  : Partition
  ch    : Nat
  unit  : Nat
  times : List Nat
  deriving DecidableEq, Repr, Inhabited

/-- A raw diagnostic codeword (R424): 64 data bytes and 16 check bytes as given. -/
structure DiagWord where
  offset : Nat
  data   : Bytes
  check  : Bytes
  deriving DecidableEq, Repr, Inhabited

/-- Corrected-error counts per partition and channel (R305). -/
structure CeCount where
  part  : Partition
  ch    : Nat
  count : Nat
  deriving DecidableEq, Repr, Inhabited

/-- A basket in use: what its own reserve holds free, and how many buffers its requesters hold. For the common basket
`free` is all it holds. -/
structure Basket where
  n    : Nat
  free : Nat
  held : Nat
  deriving DecidableEq, Repr, Inhabited

/-- Buffer memory. `ddr` holds the bytes written through the merge buffers, at channel × 2^37 + address; `poison` the
codewords written with a poison pattern (R308); `rate` the trained rate and `channels` the channels in use (R302);
`gib` the DDR5 fitted, in GiB; `pool` the buffers of the pool (R303). -/
structure MemState where
  ddr      : Memory
  poison   : List (Nat × Nat)
  merge    : List MergeEntry
  mergeQ   : List MergeWait
  remaps   : List Remap
  ranges   : List CeRange
  ce       : List CeCount
  ue       : List CeCount
  fullCh   : List Nat
  diag     : List DiagWord
  baskets  : List Basket
  bufs     : List Buf
  waiters  : List BufWaiter
  nextWait : Nat
  waitEv   : List (Nat × Nat)
  gib      : Nat
  rate     : Nat
  channels : List Nat
  pool     : Nat
  filled   : Bool
  /-- SRAM rows to be repaired at the next start, kept in the always-on store (R365) -/
  aonRows  : List (Nat × Nat × Nat)
  /-- remaps made since the last start, in the always-on store (R349) -/
  aonRemaps : List Remap
  /-- codewords marked bad in a capture (Table 14-4) -/
  badCapture : List Nat
  deriving DecidableEq, Repr, Inhabited

end Sys2Proof.Machine
end

