-- ==== Sys2Proof/Machine/LinkTypes.lean ====
section
/-! DEFINITION. The plain data of a head link and of the motor link (02_head_link.md, 09_spindle.md). -/

namespace Sys2Proof.Machine

/-- The link states of Table 02-8, in its row order. -/
inductive LinkSt where
  | down
  | dsTrain
  | upTrain
  | identify
  | active
  | failed
  | laneRetrain
  deriving DecidableEq, Repr, Inhabited

/-- The number `HEALTH` reports (R52). -/
def LinkSt.code : LinkSt → Nat
  | .down => 0
  | .dsTrain => 1
  | .upTrain => 2
  | .identify => 3
  | .active => 4
  | .failed => 5
  | .laneRetrain => 6

/-- One physical upstream lane of a pickup: the `SEQ` expected next (R42; none until the lane entered service and its
first frame), good `TRAIN` frames in a row (R52), the moments of the frame errors in the window (R57), `CRC` failures in a
row, the moments it failed, whether it is out for retraining, retrained and waiting to be mapped back, or retired. -/
structure Lane where
  seq       : Option Nat
  good      : Nat
  errs      : List Nat
  crcRun    : Nat
  fails     : List Nat
  failed    : Bool
  retrained : Bool
  retired   : Bool
  total     : Nat
  /-- the retirement is provisional (R421) -/
  prov      : Bool
  deriving DecidableEq, Repr, Inhabited

/-- A `CTRL` operation outstanding (R51): its tag, the frame without `SEQ`, the sends so far, when it was last sent,
and whether its reply is to be discarded (core reset). -/
structure CtrlOp where
  ctag    : Nat
  op      : Nat
  addr    : Nat
  data    : Bytes
  /-- `LEN`: bytes written, or to be read -/
  len     : Nat
  tries   : Nat
  sent    : Nat
  discard : Bool
  deriving DecidableEq, Repr, Inhabited

/-- A `CTRL` operation waiting for one of the four outstanding places (R51). -/
structure CtrlWait where
  op   : Nat
  addr : Nat
  data : Bytes
  len  : Nat
  deriving DecidableEq, Repr, Inhabited

/-- A sample block received and not yet released (R54): its number, its 504 payload bytes, its erasure flag. -/
structure SBlock where
  n      : Nat
  data   : Bytes
  erased : Bool
  deriving DecidableEq, Repr, Inhabited

/-- The fields of the last accepted `SERVO` frame (Table 02-4). -/
structure Servo where
  tick   : Nat
  tq     : Nat
  qd     : List Nat
  mon    : List Nat
  temp   : List Int
  rowNow : BitVec 18
  rowAt  : Nat
  lmon   : Bool
  wact   : Bool
  wabort : Bool
  late   : Bool
  wdog   : Bool
  dnerr  : Nat
  dnseq  : Nat
  efault : BitVec 36
  deriving DecidableEq, Repr, Inhabited

/-- A row change the controller asked for and the head module has not yet reported (R47, R64): the new rows, and
`ROWAPPLY`. -/
structure RowReq where
  rows  : BitVec 18
  apply : Nat
  deriving DecidableEq, Repr, Inhabited

/-- One head link. -/
structure HLink where
  st        : LinkSt
  since     : Nat
  attempts  : Nat
  noRetry   : Bool
  ident     : Option Bytes
  up0       : Lane
  up1       : Lane
  ups       : Lane
  map0      : PhysLane
  map1      : PhysLane
  /-- a `LANE_MAP` sent whose effect has not shown yet -/
  mapNext   : Option (PhysLane × PhysLane)
  oneLane   : Bool
  /-- lane whose failure the running `LANE_RETRAIN` answers -/
  failing   : Option PhysLane
  /-- `LANE_TRAIN` running on these lanes -/
  training  : List PhysLane
  nextBlock : Nat
  got       : List SBlock
  late      : Nat
  servo     : Servo
  missTick  : Nat
  seqStall  : Nat
  absent    : Nat
  ctrl      : List CtrlOp
  ctrlQ     : List CtrlWait
  nextTag   : Nat
  dnSeq     : Nat
  wseq      : Nat
  rowReq    : Option RowReq
  rows      : BitVec 18
  laser     : Bool
  wpermit   : Bool
  pset      : List Nat
  wfreq     : Nat
  lastReply : Bytes
  /-- the servo tick expected next (R56; none until the first frame), and when the last `SERVO` frame was accepted -/
  tickNext  : Option Nat
  servoAt   : Nat
  /-- `WRITE` payloads of the segment that wait for a slot of `DN`, each with the link time at which the head module begins to
  emit it, and the times of those that wait at the head module (R49) -/
  wq        : List (Nat × Bytes)
  hmq       : List Nat
  /-- `CTRL` frames that wait behind them, as `TSH` and payload -/
  cq        : List (Nat × Bytes)
  /-- frames sent on `DN` ahead of the slots of the time that has passed (R39) -/
  dnUsed    : Nat
  /-- the `WFREQ` of recent segments from their `START` on, newest first (R131) -/
  wplan     : List (Nat × Nat)
  deriving DecidableEq, Repr, Inhabited

/-- A lane not yet in service. -/
def Lane.idle : Lane := ⟨none, 0, [], 0, [], false, false, false, 0, false⟩

/-- No `SERVO` frame yet. -/
def Servo.none : Servo :=
  ⟨0, 0, List.replicate 64 0, List.replicate 36 0, List.replicate 4 0, 0#18, 0, false, false, false, false, false, 0, 0, 0#36⟩

/-- A head link at reset: `DOWN`, the reset mapping of Table 02-1.
Log 3 (DESIGN CHOICE). Log 4 (DESIGN CHOICE). -/
def HLink.reset : HLink :=
  { st := .down, since := 0, attempts := 0, noRetry := false, ident := none, up0 := .idle, up1 := .idle, ups := .idle,
    map0 := .UP0, map1 := .UP1, mapNext := none, oneLane := false, failing := none, training := [], nextBlock := 0,
    got := [], late := 0, servo := .none, missTick := 0, seqStall := 0, absent := 0, ctrl := [], ctrlQ := [],
    nextTag := 0, dnSeq := 0, wseq := 0, rowReq := none, rows := 0#18, laser := false, wpermit := false,
    pset := List.replicate 18 0, wfreq := 0x80000000, lastReply := [], tickNext := none, servoAt := 0
    wq := [], hmq := [], cq := [], dnUsed := 0, wplan := [] }

/-- The spare receiver of a bay (R37, R57): idle, in training or standby for a pickup, or carrying a lane of it. -/
inductive SpareRx where
  | idle
  | training (p : Pu)
  | standby (p : Pu)
  | carrying (p : Pu)
  deriving DecidableEq, Repr, Inhabited

end Sys2Proof.Machine
end

