-- ==== Sys2Proof/Machine/SheetTypes.lean ====
section
/-! DEFINITION. The plain data of a sheet channel, its detector, the decoding of its sectors and its write path
(03_sheet_acquisition.md to 06_write_path.md). -/

namespace Sys2Proof.Machine

/-- A sector: layer, zone and physical sector number, on the surface of the pickup that holds it. -/
structure SecAddr where
  layer  : Nat
  zone   : Zone
  sector : Nat
  deriving DecidableEq, Repr, Inhabited

/-- The segment statuses of Tables 03-4 and 04-4, in the coding of the latter. -/
inductive TrkStat where
  | found
  | voted
  | foundAlone
  | fly
  | nominal
  | lost
  | retired
  | blank
  deriving DecidableEq, Repr, Inhabited

/-- `STATUS` of Table 04-4. -/
def TrkStat.code : TrkStat → Nat
  | .found => 0
  | .voted => 1
  | .foundAlone => 2
  | .fly => 3
  | .nominal => 4
  | .lost => 5
  | .retired => 6
  | .blank => 7

/-- A value delivered for one channel bit of a track: y (8 bits signed) and its erasure flag (R79). -/
structure BitVal where
  y    : Int
  flag : Bool
  deriving DecidableEq, Repr, Inhabited

/-- The timing and normalization of one stream (R65, R66, R74 to R76): the next interpolation instant in 1/65,536
sample, the mean c in 1/65,536 code and the gain g in 1/65,536, the last 32 magnitudes and clip flags, the defect, the
clean run, the hold counter, whether timing is lost, the bits still flagged after a row switch, the values of the
frame in progress (newest first), the most recent good δ and its age in frames, frames since a segment without a loss,
the longest hold of the segment and where it began, bits at the fast gain left, what the pass vote gave (R72, R73), the bit at which
the hold counter reached its limit, the instant of the last change of row, and the phase to the wedge, in 1/65,536 sample, of the
segment that gave the most recent good δ (R76), and the magnitude of the newest value before normalization. -/
structure Track where
  t       : Int
  c       : Int
  g       : Int
  env     : List Nat
  clip    : List Bool
  defect  : Bool
  clean   : Nat
  hold    : Nat
  lost    : Option Nat
  erase   : Nat
  bits    : List BitVal
  recent  : Option (Int × Nat)
  whole   : Nat
  holdLen : Nat
  holdAt  : Nat
  fast    : Nat
  delta   : Int
  stat    : TrkStat
  cand    : List Int
  limit   : Option Nat
  swapAt  : Option Int
  recPhase : Int
  raw     : Nat
  deriving DecidableEq, Repr, Inhabited

/-- One track's share of a segment record (R79, R91): status, δ in force, candidates, slip and its n, the bit named by
`EVBIT`, the values from frame bit 0 on, and the frame bit at which its row changed (R94). -/
structure TrkSeg where
  stat  : TrkStat
  delta : Int
  cand  : List Int
  slip  : Option Int
  evbit : Nat
  bits  : List BitVal
  sw    : Option Int
  deriving DecidableEq, Repr, Inhabited

/-- The share of a track of which nothing was delivered. -/
def TrkSeg.none : TrkSeg := ⟨.lost, 0, [], Option.none, 0, [], Option.none⟩

/-- A segment of the sector being read: its frame, whether its address is `PREDICTED`, and its 16 tracks; V0 and V1; the frame bits at
which their rows changed, and the bits in sheet hold (R75). -/
structure Seg where
  frame : Nat
  pred  : Bool
  trks  : List TrkSeg
  v0    : List BitVal
  v1    : List BitVal
  sw0   : Option Int
  sw1   : Option Int
  holds : List Bool
  deriving DecidableEq, Repr, Inhabited

/-- Frame lock (R69, R70): in search since a moment, perhaps with a first wedge accepted; or locked. -/
inductive FrameLock where
  | off
  | search (since : Nat) (first : Option (FrameAddr × Int))
  | locked
  deriving DecidableEq, Repr, Inhabited

/-- One sheet channel. -/
structure Sheet where
  lock     : FrameLock
  /-- address predicted for the next wedge, and the address of the last confirmed wedge -/
  predict  : FrameAddr
  lastConf : FrameAddr
  /-- wedges since the last confirmed one (R69) -/
  miss     : Nat
  jumpCand : Option FrameAddr
  /-- shared period P in 1/2^32 sample per channel bit, and its value one millisecond ago (R67) -/
  period   : Int
  oldP     : Int
  oldAt    : Nat
  lastPos  : Int
  interval : Int
  rateOk   : Bool
  releasing : Bool
  sheetHold : Bool
  tracks   : List Track
  v0       : Track
  v1       : Track
  /-- newest sample blocks, for deskew and interpolation, newest first -/
  hist     : List SBlock
  /-- sectors read whole whose last segment still awaits its confirming wedge (R69) -/
  unconf   : List SecAddr
  /-- elements in force as the channel applies them, by spot (R64) -/
  rows     : BitVec 18
  /-- a change of rows and the link time in samples from which on samples come from the new elements (R64) -/
  swap     : Option (BitVec 18 × Int)
  /-- sync position of the wedge that opened the frame in progress, found or predicted -/
  framePos : Int
  /-- the pass vote of the frame has been taken (R78); the section's boundary of the sector that opens next has been taken (R81);
  the last wedge and the next lie on one swath -/
  voted    : Bool
  opened   : Bool
  timed    : Bool
  /-- sheet hold by bit of the frame in progress, newest first -/
  holds    : List Bool
  /-- sum of |x| of the data tracks in service since the last update of the trim, and the values summed (R152) -/
  envSum   : Nat
  envCnt   : Nat
  deriving DecidableEq, Repr, Inhabited

/-- A coefficient bank of a detector (R87): taps per track in the order of Table 04-2 (rows −2, −1, 0, 1, 2, each along
the track), 12-bit signed in 1/1,024, and the cancellation coefficients rho per track for o = −1, +1 and j = −1, 0, 1. -/
structure DetBank where
  taps : List (List Int)
  rho  : List (List Int)
  deriving DecidableEq, Repr, Inhabited

/-- The detector data kept per pickup: calibrated banks per layer and target, the live bank and the layer it came from,
the last four snapshots with their sector, tracks to reload or revert at the next sector boundary, the run of high
residuals per track, the squared errors of the last 4,096 unflagged bits per track (σ², R89), the frame bit of the segment in progress up to
which each track adapts fast (R94), and tracks whose `SWAP` or `ADAPT` flag is
set for the sector, and the target of the live bank. -/
structure Det where
  cal     : List ((Nat × Nat) × DetBank)
  live    : DetBank
  layer   : Option Nat
  snaps   : List (SecAddr × DetBank)
  revert  : List (Nat × SecAddr)
  reload  : List Nat
  high    : List Nat
  sigma   : List (List Nat)
  resid   : List Nat
  fast    : List Nat
  swap    : List Nat
  adapted : List Nat
  target  : Nat
  /-- squared errors and unflagged bits of the sector so far -/
  sq      : List Nat
  cnt     : List Nat
  /-- accepted calibrated banks that wait for the next load of the live bank (R355) -/
  pend    : List ((Nat × Nat) × DetBank)
  deriving DecidableEq, Repr, Inhabited

/-- What a sector is read for: a hamper position, a read-after-write verify, a sector of the disc's own (its kind of Table
05-3 and its number in its area), or a calibration. -/
inductive Purpose where
  | hamper (h : SlotId) (seq pos : Nat)
  | verify
  | record (kind no : Nat)
  | cal
  deriving DecidableEq, Repr, Inhabited

/-- A read a pickup has been given (R314: only once its buffers are drawn), and since when it waits (R436). -/
structure ReadReq where
  sector : SecAddr
  why    : Purpose
  again  : Nat
  since  : Nat
  deriving DecidableEq, Repr, Inhabited

/-- A codeword of a sector in decoding: its verdict once decoded, whether it was failed without decoding (R112), its
hard bits, and the a-posteriori values and check messages of the last attempt. -/
structure CwState where
  verdict : Option Bool
  skipped : Bool
  bits    : List Bool
  post    : List Int
  iters   : Nat
  msgs    : List (List (List Int))
  deriving DecidableEq, Repr, Inhabited

/-- The outcomes of Table 05-6. -/
inductive SecOutcome where
  | clean
  | outer
  | ladder
  | reread
  | lost
  | mismatch
  | blank
  deriving DecidableEq, Repr, Inhabited

/-- A soft-store slot (R110): the sector, why it is read, when its output was committed, its segment records and soft
words by part then track, the trial selections in force (track, part, δ) and slips, codewords, the rung reached (6: waiting
for a re-read), the re-reads done, the outcomes counted so far, whether it was already reported `LOST` (R119), whether a re-read is due,
whether it had no detector output (R99), whether a wedge still has to confirm it (R69), and the values of the `ecc`
section it started with (R121). -/
structure SoftSlot where
  sector  : SecAddr
  why     : Purpose
  begun   : Nat
  done    : Bool
  segs    : List Seg
  words   : List (List Bytes)
  sel     : List (Nat × Nat × Int)
  slips   : List (Nat × Nat)
  cws     : List CwState
  rung    : Nat
  rereads : Nat
  first   : Nat
  misc    : Nat
  early   : Bool
  reading : Bool
  noDet   : Bool
  wait    : Bool
  vals    : Cfg
  /-- first-pass failed codewords per track, and mean iterations in 1/256 -/
  perTrk  : List Nat
  iters   : Nat
  /-- trials of the ladder still to come, in the order of R116 -/
  plan    : List Trial
  /-- the track segment records of Table 04-4, by part then track -/
  trkRecs : List (List Bytes)
  /-- LDPC extrinsics of an earlier attempt by track and coded bit (R97, R110), before the randomizer -/
  ext     : List (List Int)
  /-- sum of squared errors of each track over the sector and their number (R88) -/
  resid   : List (Nat × Nat)
  deriving DecidableEq, Repr, Inhabited

/-- The outcome record of R125, as its requester receives it. -/
structure SectorRec where
  sector  : SecAddr
  why     : Purpose
  outcome : SecOutcome
  first   : Nat
  rung    : Nat
  misc    : Nat
  iters   : Nat
  perTrk  : List Nat
  deriving DecidableEq, Repr, Inhabited

/-- A sector of the disc's own as its read ended (R30 to R32, R115, R241, R249): surface, kind of Table 05-3, number in its
area, outcome and payload. -/
structure RecRead where
  side : Pu
  kind : Nat
  no   : Nat
  out  : SecOutcome
  data : Option Bytes
  deriving DecidableEq, Repr, Inhabited

/-- Whose sector is being written: a placed sector of a hamper, a relocation record, a checkpoint, label or pointer
record, or a calibration area write. -/
inductive WriteWhy where
  | placed (h : SlotId) (seq member : Nat)
  | relocRecord (homes : List SecAddr)
  | record (h : SlotId) (kind no : Nat)
  | powerCal
  deriving DecidableEq, Repr, Inhabited

/-- A sector on its way to the disc (R127, R137): where it goes, its home if it stands in a spare, its payload and the
randomized coded bits per track, the retired-lane mask, whether it is touched, failed or verified, and the segments
written and found good so far by frame and pass. -/
structure Coded where
  sector  : SecAddr
  home    : Option SecAddr
  why     : WriteWhy
  payload : Bytes
  bits    : List (List Bool)
  coded   : Bool
  mask    : BitVec 16
  touched : Bool
  failed  : Bool
  sent    : List (Nat × Nat)
  good    : List (Nat × Nat)
  checked : Option Bool
  deriving DecidableEq, Repr, Inhabited

/-- The steps of a pass block (R129). -/
inductive BlockStep where
  | even
  | oddJump
  | odd
  | verifyJump
  | verify
  deriving DecidableEq, Repr, Inhabited

/-- A pass block in progress (R128): its first frame, sectors, layer and zone, its step, the jumps of this pass, whether
frame J − 1 has been confirmed in it, whether it verifies, and the next frame to send. -/
structure PassBlock where
  j       : Nat
  n       : Nat
  layer   : Nat
  zone    : Zone
  step    : BlockStep
  tries   : Nat
  opened  : Bool
  verify  : Bool
  next    : Nat
  lead    : Nat
  deriving DecidableEq, Repr, Inhabited

/-- A segment sent (R131, R132): frame, pass, the predicted sync position of its own wedge in link samples × 65,536, and the link
times of its first bit and of the end of its last. -/
structure SentSeg where
  frame : Nat
  pass  : Nat
  pos   : Int
  first : Int
  last  : Int
  deriving DecidableEq, Repr, Inhabited

/-- A relocation of the surface (R139, R241): home, spare (none: unusable), when it was queued, whether the spare is
written and whether its record is, and whose sector it is. -/
structure Reloc where
  home   : SecAddr
  spare  : Option SecAddr
  queued : Nat
  wrote  : Bool
  record : Bool
  why    : WriteWhy
  deriving DecidableEq, Repr, Inhabited

/-- A strategy set of one layer (R133, R135): 32 element blocks of 2,048 bytes. -/
structure Strategy where
  layer : Nat
  bank  : Bytes
  deriving DecidableEq, Repr, Inhabited

/-- A strategy set on its way into a bank of the head module (R134): the layer, the bank, the set, the pieces read back by their place,
and whether the bank is being selected. -/
structure BankLoad where
  layer  : Nat
  bank   : Bool
  set    : Bytes
  got    : List (Nat × Bytes)
  select : Bool
  deriving DecidableEq, Repr, Inhabited

/-- One pickup's write path. `store` is the write store, `queue` sectors handed over and not yet encoded; `bankSel` the bank in
force, `bankLayer` its layer, `strategies` the set it was loaded with, `bankFails` comparisons failed, `bankStop` writing stopped (R134); `relocs`; `excursion`
while the bay is away from the frontier; `recNext` used record sectors per layer and band, `spareNext` spares tried; `sent` segments
not yet judged, `emits` segments whose bits fall due; `load` the set being loaded; `laneHold` the link time at which the segment in
progress ends, after a lane has failed and until the takeover is complete (R60).
Log 27 (DEDUCED). -/
structure WPath where
  queue     : List Coded
  store     : List Coded
  block     : Option PassBlock
  sent      : List SentSeg
  emits     : List SentSeg
  load      : Option BankLoad
  laneHold  : Option Int
  bankSel   : Bool
  bankLayer : Option Nat
  bankFails : Nat
  bankStop  : Bool
  strategies : List Strategy
  relocs    : List Reloc
  excursion : Bool
  recNext   : List (Nat × Nat × Nat)
  spareNext : List SecAddr
  stop      : Bool
  gateOk    : Bool
  pcaNext   : List (Nat × Nat)
  deriving DecidableEq, Repr, Inhabited

/-- A fresh track.
Log 4 (DESIGN CHOICE). -/
def Track.idle : Track :=
  { t := 0, c := 0, g := 65536, env := [], clip := [], defect := false, clean := 0, hold := 0, lost := none, erase := 0,
    bits := [], recent := none, whole := 1000, holdLen := 0, holdAt := 0, fast := 0, delta := 0, stat := .nominal, cand := [],
    limit := none, swapAt := none, recPhase := 0, raw := 0 }

/-- A sheet channel at reset: not in search, nominal period of one sample per bit.
Log 4 (DESIGN CHOICE). -/
def Sheet.reset (p : Pu) : Sheet :=
  { lock := .off, predict := ⟨p, 0, .data, 0⟩, lastConf := ⟨p, 0, .data, 0⟩, miss := 0, jumpCand := none,
    period := 2 ^ 32, oldP := 2 ^ 32, oldAt := 0, lastPos := 0, interval := 0, rateOk := true, releasing := false,
    sheetHold := false, tracks := List.replicate 16 .idle, v0 := .idle, v1 := .idle, hist := [],
    unconf := [], rows := 0#18, swap := none, framePos := 0, voted := false, opened := false, timed := true, holds := [], envSum := 0, envCnt := 0 }

/-- An empty coefficient bank. -/
def DetBank.zero : DetBank := ⟨List.replicate 16 [], List.replicate 16 []⟩

/-- A detector's pickup data at reset.
Log 3 (DESIGN CHOICE). -/
def Det.reset : Det :=
  { cal := [], live := .zero, layer := none, snaps := [], revert := [], reload := [], high := List.replicate 16 0,
    sigma := List.replicate 16 [], resid := List.replicate 16 0, fast := List.replicate 16 0, swap := [], adapted := [],
    target := 0, sq := List.replicate 16 0, cnt := List.replicate 16 0, pend := [] }

/-- A write path at reset. -/
def WPath.reset : WPath :=
  { queue := [], store := [], block := none, sent := [], emits := [], load := none, laneHold := none, bankSel := false, bankLayer := none, bankFails := 0,
    bankStop := false, strategies := [], relocs := [], excursion := false, recNext := [], spareNext := [],
    stop := false, gateOk := false, pcaNext := [] }

end Sys2Proof.Machine
end

