-- ==== Sys2Proof/Machine/HamperTypes.lean ====
section
/-! DEFINITION. The plain data of hampers, stripes, the journal and the extent map (11_hampers.md). -/

namespace Sys2Proof.Machine

/-- The states of Table 11-4. -/
inductive HState where
  | mounting
  | below
  | degraded
  | ready
  | readOnly
  deriving DecidableEq, Repr, Inhabited

/-- The states of a member entry of a label (Table 11-2). -/
inductive MemberState where
  | unused
  | active
  | removed
  | rebuilding
  deriving DecidableEq, Repr, Inhabited

/-- The number of a member state in the label record (Table 11-2). -/
def MemberState.code : MemberState → Nat
  | .unused => 0
  | .active => 1
  | .removed => 2
  | .rebuilding => 3

/-- A member of a hamper: its bay while present, its disc, its label entry, the next row to place (R228), and for each
surface since when a grace runs (R247). `rebuilt` is the next row a rebuild writes and `rebuildTo` the old member's
frontier (R245). -/
structure Member where
  idx       : Nat
  bay       : Option BayId
  serial    : Bytes
  state     : MemberState
  joined    : Nat
  next      : Nat
  graceA    : Option Nat
  graceB    : Option Nat
  rebuilt   : Nat
  rebuildTo : Nat
  deriving DecidableEq, Repr, Inhabited

/-- An outcome of a placed sector (R237), or why it has none yet. -/
inductive PlacedState where
  /-- handed to the member, not touched -/
  | waiting
  /-- the write of it has begun -/
  | touched
  /-- a failed write, queued for relocation (R139) -/
  | failed
  /-- unusable, or withdrawn (R139, R247) -/
  | lost
  | written
  deriving DecidableEq, Repr, Inhabited

/-- A sector of a stripe: member, position, row, the member's surface it lies on, and its state. -/
structure Placed where
  member : Nat
  pos    : Nat
  row    : Nat
  state  : PlacedState
  deriving DecidableEq, Repr, Inhabited

/-- A block slot of a data sector: its index, logical block, and the write it came from with the block's index in it. -/
structure Slot where
  idx     : Nat
  lba     : Nat
  ordinal : Nat
  blk     : Nat
  deriving DecidableEq, Repr, Inhabited

/-- A data sector of a stripe being filled: its first logical block F and its slots in index order (R235). -/
structure DataSector where
  first  : Nat
  slots  : List Slot
  closed : Bool
  deriving DecidableEq, Repr, Inhabited

/-- Where a stripe stands (R236, R238). -/
inductive StripeState where
  | building
  | encoded
  | committed
  | voided
  deriving DecidableEq, Repr, Inhabited

/-- A stripe not yet settled, as its stripe record holds it (R234): the members present, d, its sectors, its data, and
the fields of its commit record (Table 11-1). -/
structure Stripe where
  seq     : Nat
  present : List Nat
  d       : Nat
  assign  : List (Nat × Nat)
  data    : List DataSector
  opened  : Option Nat
  placed  : List Placed
  state   : StripeState
  cthru   : Nat
  dmark   : Nat
  ordHi   : Nat
  openOrd : Nat
  openSeq : Nat
  openPos : Nat
  openBlk : Nat
  voidLo  : Nat
  voidHi  : Nat
  epoch   : Nat
  ckSeq   : Nat
  /-- number of its stripe record in the journal -/
  recNo   : Nat
  deriving DecidableEq, Repr, Inhabited

/-- A write of the hamper that is not void and not yet durable (R233, R234): whether it is staged, whether it holds a write
record of the journal, whether every stripe with its blocks has settled, how many blocks are placed, its extent charge,
its buffers, the slot of its first block and the stripe of its last. -/
structure WriteRec where
  ordinal  : Nat
  fn       : FnId
  sr       : Nat
  tag      : BitVec 6
  lba      : Nat
  count    : Nat
  staged   : Bool
  record   : Bool
  settled  : Bool
  placed   : Nat
  /-- number of its write record in the journal -/
  recNo    : Nat
  charge   : Nat
  buffers  : List Nat
  firstSeq : Nat
  firstPos : Nat
  firstBlk : Nat
  lastSeq  : Nat
  lost     : Bool
  /-- its write record is lost, so none of its blocks can be served (Table 14-4) -/
  gone     : Bool
  deriving DecidableEq, Repr, Inhabited

/-- An extent of the live map (R242, type 1). -/
structure Extent where
  lba     : Nat
  len     : Nat
  seq     : Nat
  pos     : Nat
  blk     : Nat
  ordinal : Nat
  deriving DecidableEq, Repr, Inhabited

/-- A row break (R242, type 2). -/
structure RowBreak where
  seq     : Nat
  member  : Nat
  present : Bool
  row     : Nat
  deriving DecidableEq, Repr, Inhabited

/-- A checkpoint entry in slot order (R242). -/
inductive CkEntry where
  | extent (e : Extent)
  | rowBreak (r : RowBreak)
  | voidRange (lo hi : Nat)
  deriving DecidableEq, Repr, Inhabited

/-- The checkpoint state of a hamper: entries since the last checkpoint, entries since and in the last base, committed
stripes since and time of the last delta, pointer sequences, checkpoint stripe number, next management rows, and
whether the lead-in area is full (R30, R242). -/
structure Ckpt where
  fresh     : List CkEntry
  sinceBase : Nat
  baseSize  : Nat
  stripes   : Nat
  last      : Nat
  ptrSeq    : Nat
  basePtr   : Nat
  settled   : Nat
  nextStripe : Nat
  mgmtRow   : List Nat
  full      : Bool
  /-- record sectors handed out and without an outcome, of kinds 2 (checkpoint), 3 (label) and 4 (pointer) -/
  waiting   : Nat × Nat × Nat
  /-- checkpoint sectors that failed, by checkpoint stripe, and how many of one stripe the code makes good -/
  failed    : List Nat
  spare     : Nat
  /-- the pointer record that follows, once its checkpoint stripes have settled -/
  pointer   : Option Bytes
  /-- next sector of the label and pointer areas by member: (label, pointer) -/
  lead      : List (Nat × Nat)
  deriving DecidableEq, Repr, Inhabited

/-- A sector of a stripe that lies in buffers: landed from media, or rebuilt (R246). -/
structure Landed where
  seq      : Nat
  pos      : Nat
  payload  : Bytes
  rebuilt  : Bool
  buffers  : List Nat
  deriving DecidableEq, Repr, Inhabited

/-- What a wanted sector is for: a command, the rebuild of another position of its stripe (R246), or the rebuild of a replaced
member (R245). -/
inductive WantFor where
  | command
  | helper
  | member
  deriving DecidableEq, Repr, Inhabited

/-- A sector the hamper waits for: stripe, position, what it is for, and whether it serves a `VERIFY`. `rebuild` once its read has
ended without a good sector or cannot be made, an early end included; `ended` once its ladder has ended as well; `dead` once it can be
neither read nor rebuilt. -/
structure Wanted where
  seq     : Nat
  pos     : Nat
  rebuild : Bool
  verify  : Bool
  ended   : Bool
  dead    : Bool
  use     : WantFor
  deriving DecidableEq, Repr, Inhabited

/-- One mounted hamper (R226 to R250). `served` and `unrec` count reads served by rebuild and reads ended `UNRECOVERED`. `attach`, `creating` and `unmounting` hold the fetch order of the command that waits. -/
structure Hamper where
  hid      : Nat
  k        : Nat
  m        : Nat
  policy   : Nat
  epoch    : Nat
  created  : Nat
  label    : Bytes
  members  : List Member
  session  : Nat
  ordNext  : Nat
  writes   : List WriteRec
  stripes  : List Stripe
  nextSeq  : Nat
  committed : Nat
  durable  : Nat
  map      : List Extent
  breaks   : List RowBreak
  voids    : List (Nat × Nat)
  ckpt     : Ckpt
  mounting : Bool
  ro       : Bool
  roCause  : Bool
  full     : Bool
  unmounting : Option Nat
  attach   : Option Nat
  creating : Option Nat
  landed   : List Landed
  wanted   : List Wanted
  suspects : List Nat
  served   : Nat
  unrec    : Nat
  waitVoid : List (Nat × Nat)
  replaces : Option (Nat × Nat)
  wheldAt  : Option Nat
  mapLost  : List Extent
  /-- rebuilt sectors whose own ladder still runs, for the comparison with a later `REREAD` (R246) -/
  compare  : List (Nat × Nat × Bytes)
  /-- the session's pointer record while it is not written: no writes are accepted before (R249) -/
  session? : Option Bytes
  deriving DecidableEq, Repr, Inhabited

/-- The hampers of the sixteen status-page slots, the five engines (four and the spare), the engine that serves each of
the four engine numbers, the takeover that runs, and the outcome queue of the write path (R248). -/
structure HamperState where
  slots    : List (Option Hamper)
  faulty   : List Bool
  serves   : List Nat
  takeover : Option Nat
  queued   : List (SlotId × Nat × Nat × Bool)
  /-- outcomes of record sectors in that queue: slot, kind, record number, written -/
  queuedRecs : List (SlotId × Nat × Nat × Bool)
  /-- hampers attached by `MOUNT` and not mounted yet: ID, read-only, and the command that still waits (R291) -/
  attached : List (Nat × Bool × Option Nat)
  /-- spares touched so far, by disc serial and surface (R27) -/
  spares   : List (Bytes × Pu × SecAddr)
  deriving DecidableEq, Repr, Inhabited

end Sys2Proof.Machine
end

