-- ==== Sys2Proof/Machine/MotionTypes.lean ====
section
/-! DEFINITION. The plain data of the loops, the pickup state machine, the spindle and the sleds
(07_pickup_loops.md to 10_sled_motion.md). -/

namespace Sys2Proof.Machine

/-- The state of one evaluation of the loop law between samples (R165): e1, the smoothed magnitude a, v1, w1 and the
integrator i in 1/65,536, y1, and the flags `limited` and `pushsign`. -/
structure Law where
  e1       : Int
  a        : Int
  v        : Int
  w        : Int
  i        : Int
  y        : Int
  limited  : Bool
  pushsign : Int
  deriving DecidableEq, Repr, Inhabited

/-- The supervisor of a loop (R170, Table 08-4): the model outputs ŷ1, ŷ2 and the drive y2 in 1/65,536, the last 64
residual magnitudes, the saturated and stuck runs, and samples since the loop closed. -/
structure Sup where
  m1     : Int
  m2     : Int
  y2     : Int
  resid  : List Nat
  sat    : Nat
  stuck  : Nat
  closed : Nat
  deriving DecidableEq, Repr, Inhabited

/-- A tune in progress (R173): u0, the relay's sign s, switchings so far, since when it runs, the tick of the switching that began the
cycle in measurement with the error extremes since, and the cycles measured as (period in ticks, peak-to-peak error). -/
structure Tune where
  u0     : Int
  s      : Int
  turns  : Nat
  since  : Nat
  mark   : Nat
  lo     : Int
  hi     : Int
  cycles : List (Nat × Nat)
  deriving DecidableEq, Repr, Inhabited

/-- Which live bank of a slot (R168). -/
inductive BankKind where
  | acq
  | follow
  deriving DecidableEq, Repr, Inhabited

/-- An armed swap (R168). -/
structure Armed where
  kind : BankKind
  src  : BankSource
  tick : Nat
  deriving DecidableEq, Repr, Inhabited

/-- A closed-loop slot of a pickup (R143, R168): lock and its counters, whether the loop is closed, the law and the
supervisor, its banks, armed swaps, and the last following-bank swap: samples since it and its source. `heldSrc` is
set once an image bank has been set aside (R171). -/
structure Loop where
  locked  : Bool
  within  : Nat
  beyond  : Nat
  lowSum  : Nat
  closed  : Bool
  law     : Law
  sup     : Sup
  acq     : Option Bank
  follow  : Option Bank
  shAcq   : Option Bank
  shFollow : Option Bank
  revert  : Option Bank
  useFollow : Bool
  armed   : List Armed
  swapAge : Option Nat
  swapSrc : BankSource
  aside   : Bool
  tune    : Option Tune
  lastTune : Option (Nat × Nat)
  fresh   : Bool
  /-- the last 64 outputs (R173) -/
  outs    : List Int
  deriving DecidableEq, Repr, Inhabited

/-- The pickup states of Table 07-3. -/
inductive PState where
  | off
  | focusSearch
  | trackPull
  | acquire
  | follow
  | swathJump
  | layerJump
  | seek
  | recover
  | failed
  deriving DecidableEq, Repr, Inhabited

/-- The entry causes of a recovery ladder (R156). -/
inductive RecCause where
  | ordinary
  | focusSuspect
  | layerTries
  deriving DecidableEq, Repr, Inhabited

/-- A focus sweep or layer kick (R145, R153): the signed S-curve count, the count that closes the loop, the sweep
direction (+1 toward the disc), sweep position in drive units, turns made, the last FE and the extremes around the
crossing, whether any S-curve was counted. -/
structure Sweep where
  count  : Int
  goal   : Int
  dir    : Int
  pos    : Int
  turned : Bool
  lastE  : Int
  peak   : Int
  seen   : Bool
  deriving DecidableEq, Repr, Inhabited

/-- A swath jump (R147): s, signed crossings so far, the last pp0, the state it was entered from, whether it has braked, and the
extreme of pp0 since its last zero crossing. -/
structure Jump where
  s      : Int
  count  : Int
  last   : Int
  back   : PState
  braked : Bool
  peak   : Int
  deriving DecidableEq, Repr, Inhabited

/-- The grades of an element (R360) in force. -/
inductive Grade where
  | good
  | worn
  | faulty
  deriving DecidableEq, Repr, Inhabited

/-- One element of a pickup (17_calibration_spares.md): grade, along-track offset in nm, read power setpoint, gain and
DC of the calibration record, its first recorded values for wear, failed monitor ticks in a row, whether the grade is
provisional (R421), and the items 2 to 4 accepted for it with the temperature they were accepted at (R361). -/
structure Element where
  grade   : Grade
  offset  : Int
  pset    : Nat
  gain    : Int
  dc      : Int
  pset0   : Nat
  gain0   : Int
  badRun  : Nat
  prov    : Bool
  acc     : List (Nat × Int)
  /-- runs of items 2 and 3 in a row that failed their limits (R360) -/
  fail2   : Nat
  fail3   : Nat
  deriving DecidableEq, Repr, Inhabited

/-- Motor-unit states of Table 09-5. -/
inductive SpSt where
  | stopped
  | catch
  | brakeShort
  | align
  | ramp
  | sync
  | run
  | decel
  | recover
  | safeHold
  | fault
  | startWait
  deriving DecidableEq, Repr, Inhabited

/-- The uses of a catch (section Catching a turning disc of 09_spindle.md). -/
inductive CatchUse where
  | start
  | recovery
  | test
  deriving DecidableEq, Repr, Inhabited

/-- A counted line-voltage crossing (R195): its index in Table 09-6 (θ = 30° + 60° × index) and its moment in PWM
half-periods of the motor link.
Log 35 (DEDUCED). -/
structure Crossing where
  idx : Fin 6
  at' : Nat
  deriving DecidableEq, Repr, Inhabited

/-- The observer (R200): electrical angle in 2^−32 turn, speed in 1/65,536 rpm, smoothed back-EMF α and β in µV. -/
structure Observer where
  th  : Int
  rpm : Int
  efa : Int
  efb : Int
  deriving DecidableEq, Repr, Inhabited

/-- The drive of one period (Table 09-2). -/
structure Drive where
  onA   : Nat
  ofsA  : Int
  onB   : Nat
  ofsB  : Int
  onC   : Nat
  ofsC  : Int
  i1    : Nat
  i2    : Nat
  float : Bool
  short : Bool
  deriving DecidableEq, Repr, Inhabited

/-- The floating drive. -/
def Drive.floating : Drive := ⟨0, 0, 0, 0, 0, 0, 0xFFFF, 0xFFFF, true, false⟩

/-- One spindle (09_spindle.md). Speeds are in 1/65,536 rpm. -/
structure Spindle where
  st       : SpSt
  since    : Nat
  use      : CatchUse
  crossings : List Crossing
  signs    : List (Option Bool)
  amp      : Nat
  catchTries : Nat
  startTries : Nat
  pendStart : Bool
  stopping : Bool
  endFault : Bool
  noRetry  : Bool
  backward : Bool
  target   : Int
  goal     : Int
  spinUp   : Bool
  obs      : Observer
  maxObs   : Int
  cmdAngle : Int
  cmdRpm   : Int
  idq      : Int × Int
  iab      : Int × Int
  lawD     : Law
  lawQ     : Law
  lawS     : Law
  bankI    : Option Bank
  bankS    : Option Bank
  shI      : Option Bank
  shS      : Option Bank
  armed    : List (BankSlot × Nat)
  invalid  : Nat
  failRun  : Nat
  xRun     : Nat
  passRun  : Nat
  syncLeft : Nat
  drive    : Drive
  iq       : Int
  idRef    : Int
  good     : Bool
  reports  : List Nat
  overAt   : Option Nat
  overRaised : Option Nat
  readyAt  : Option Nat
  ready    : Bool
  wedgeSrc : Bool
  wedgeInt : Int
  wedgeAt  : Option Nat
  /-- the pickup whose wedges `wedgeInt` comes from -/
  wedgeRef : Pu
  lastTest : Nat
  sense    : Bytes
  /-- the drive of the period being measured; the voltages of the newest drive and of that one, in µV -/
  drive1   : Drive
  volt     : Int × Int
  volt1    : Int × Int
  /-- DC link voltage in µV -/
  vdc      : Nat
  /-- the next sample of the speed loop, of the current loops presets the integrators (R169) -/
  presetS  : Bool
  presetI  : Bool
  /-- the last speed error came from the wedges -/
  wedgeErr : Bool
  /-- periods left with references 0 before the drive floats -/
  zeroLeft : Nat
  /-- a check failed in this `SYNC` -/
  syncBad  : Bool
  /-- when the phase of `BRAKE_SHORT` or the window of `SAFE_HOLD` began -/
  phaseAt  : Nat
  decelFrom : Int
  /-- length of `START_WAIT` in ms -/
  waitMs   : Nat
  /-- when the commanded speed reached the handover speed -/
  handAt   : Option Nat
  /-- the reference pickup of the last speed sample, and the error still to be slewed away after a change, in ppm × 65,536 -/
  lastRef  : Pu
  refOfs   : Int
  lastErr  : Int
  deriving DecidableEq, Repr, Inhabited

/-- A jerk-limited profile in force (R213, R216, R218): position, speed and acceleration where it starts, its segments as
(nanoseconds, jerk), its target, the coarse step it began on, and whether it is a seek. Positions are microsteps × 65,536;
speed, acceleration and jerk are per second. -/
structure Profile where
  p0     : Int
  v0     : Int
  a0     : Int
  segs   : List (Nat × Int)
  target : Int
  began  : Nat
  seek   : Bool
  deriving DecidableEq, Repr, Inhabited

/-- One sled (10_sled_motion.md): position N × 65,536 now and a coarse step ago, speed and acceleration in the same unit per
second, plan and the target that waits behind a stop profile, the limits of the plan, coarse steps counted, bridge, commanded power-down, lost position, phase origin r0 in 10 nm,
table bank, current scale, last address change, re-phasing, arrival. -/
structure Sled where
  pos      : Int
  prev     : Int
  vel      : Int
  acc      : Int
  plan     : Option Profile
  after    : Option (Int × Bool)
  limits   : Nat × Nat × Nat
  enabled  : Bool
  off      : Bool
  lost     : Bool
  r0       : Option Int
  bank     : Bool
  scale    : Nat
  moved    : Nat
  seeking  : Bool
  reached  : Option Nat
  rephase  : Option Nat
  faulted  : Bool
  step     : Nat
  /-- when the reduction to the hold scale began (R220) -/
  ramp     : Option Nat
  deriving DecidableEq, Repr, Inhabited

/-- A bay's motor link (R183 to R188) and its table load (R212). -/
structure MLink where
  st       : LinkSt
  since    : Nat
  attempts : Nat
  noRetry  : Bool
  ident    : Option Bytes
  good     : Nat
  seq      : Option Nat
  errs     : Nat
  badRun   : Nat
  stall    : Nat
  dnseq    : Nat
  dnSeq    : Nat
  period   : Nat
  half     : Nat
  stgen    : Option Nat
  senseOk  : Bool
  /-- table load: bank, table, tries, chunks still to send -/
  load     : Option (Bool × Bytes × Nat × Nat)
  reload   : Bool
  table    : Option Bytes
  /-- the bank that sleds are to change to at standstill (R212) -/
  useBank  : Option Bool
  /-- upstream frames since `ACTIVE`, two to a period -/
  frames   : Nat
  /-- `DRIVE` frames sent since `GO`, and the payload of the newest first copy, which the second repeats (R184) -/
  sent     : Nat
  copy     : Bytes
  /-- the next first copy repeats the content of the period before (R206, R224) -/
  hold     : Bool
  /-- samples of the 3 kHz loops since `ACTIVE` (R202) -/
  slot     : Nat
  /-- frames sent ahead of the slots of the time that has passed (R183) -/
  dnUsed   : Nat
  deriving DecidableEq, Repr, Inhabited

/-- The law at rest. -/
def Law.zero : Law := ⟨0, 0, 0, 0, 0, 0, false, 0⟩

/-- The supervisor at rest. -/
def Sup.zero : Sup := ⟨0, 0, 0, [], 0, 0, 0⟩

/-- A loop at reset: open, unlocked, without banks. -/
def Loop.reset : Loop :=
  { locked := false, within := 0, beyond := 0, lowSum := 0, closed := false, law := .zero, sup := .zero, acq := none,
    follow := none, shAcq := none, shFollow := none, revert := none, useFollow := false, armed := [], swapAge := none,
    swapSrc := .image, aside := false, tune := none, lastTune := none, fresh := false, outs := [] }

/-- An element before any calibration.
Log 4 (DESIGN CHOICE). -/
def Element.reset : Element := ⟨.good, 0, 0, 65536, 0, 0, 0, 0, false, [], 0, 0⟩

/-- A spindle at reset: stopped and floating.
Log 3 (DESIGN CHOICE). -/
def Spindle.reset : Spindle :=
  { st := .stopped, since := 0, use := .start, crossings := [], signs := [none, none, none], amp := 0, catchTries := 0,
    startTries := 0, pendStart := false, stopping := false, endFault := false, noRetry := false, backward := false,
    target := 0, goal := 0, spinUp := false, obs := ⟨0, 0, 0, 0⟩, maxObs := 0, cmdAngle := 0, cmdRpm := 0,
    idq := (0, 0), iab := (0, 0), lawD := .zero, lawQ := .zero, lawS := .zero, bankI := none, bankS := none,
    shI := none, shS := none, armed := [], invalid := 0, failRun := 0, xRun := 0, passRun := 0, syncLeft := 0,
    drive := .floating, iq := 0, idRef := 0, good := false, reports := [], overAt := none, overRaised := none,
    readyAt := none, ready := false, wedgeSrc := false, wedgeInt := 0, wedgeAt := none, wedgeRef := .A, lastTest := 0, sense := []
    drive1 := .floating, volt := (0, 0), volt1 := (0, 0), vdc := 0, presetS := false, presetI := false, wedgeErr := false, zeroLeft := 0, syncBad := false, phaseAt := 0
    decelFrom := 0, waitMs := 0, handAt := none, lastRef := .A, refOfs := 0, lastErr := 0 }

/-- A sled at reset: bridge off, position lost until a wedge or a record gives it.
Log 3 (DESIGN CHOICE). -/
def Sled.reset : Sled :=
  { pos := 0, prev := 0, vel := 0, acc := 0, plan := none, after := none, limits := (0, 0, 0), enabled := false,
    off := false, lost := true, r0 := none, bank := false, scale := 0, moved := 0, seeking := false, reached := none,
    rephase := none, faulted := false, step := 0, ramp := none }

/-- A motor link at reset: `DOWN`. -/
def MLink.reset : MLink :=
  { st := .down, since := 0, attempts := 0, noRetry := false, ident := none, good := 0, seq := none, errs := 0,
    badRun := 0, stall := 0, dnseq := 0, dnSeq := 0, period := 0, half := 0, stgen := none, senseOk := false,
    load := none, reload := false, table := none, useBank := none, frames := 0, sent := 0, copy := [], hold := false, slot := 0, dnUsed := 0 }

end Sys2Proof.Machine
end

