-- ==== Sys2Proof/Machine/ChipTypes.lean ====
section
/-! DEFINITION. The plain data of the chip: blocks and regions, clocks and resets, flash, fuses, measurement, the safety
island, injections (15_configuration_image.md to 21_injection_events.md, 23_electrical_package.md). -/

namespace Sys2Proof.Machine

/-- The states of a block in a region page (Table 18-8). -/
inductive BlkSt where
  | active
  | spare
  | failed
  | simplex
  deriving DecidableEq, Repr, Inhabited

/-- A block that differs from its state at start (all others are active, or spare by Table 18-3). `serves` is the active
instance a spare stands in for; `prov` a provisional failure under injection (R421). -/
structure Blk where
  id     : BlockId
  st     : BlkSt
  serves : Option Nat
  prov   : Bool
  deriving DecidableEq, Repr, Inhabited

/-- A takeover that runs: the region (0 to 5), the kind, the instance replaced, since when. -/
structure Takeover where
  region : Nat
  kind   : Nat
  inst   : Nat
  since  : Nat
  deriving DecidableEq, Repr, Inhabited

/-- A transition or swap logged by a datapath (R178). -/
structure LogEntry where
  tick : Nat
  bay  : BayId
  pu   : Option Pu
  what : Nat
  deriving DecidableEq, Repr, Inhabited

/-- A control engine's checkpoint state (R178): the sequence number and moment of the newest record, the two records that alternate
in its share of DDR5. -/
structure EngCk where
  region : Nat
  engine : Nat
  seq    : Nat
  at'    : Nat
  recA   : Bytes
  recB   : Bytes
  deriving DecidableEq, Repr, Inhabited

/-- A pickup in the admission queue of a degraded region (R381): bay, pickup, since when it waits. -/
structure Admit where
  bay   : BayId
  pu    : Pu
  since : Nat
  deriving DecidableEq, Repr, Inhabited

/-- Blocks and regions. -/
structure BlockState where
  blks      : List Blk
  takeovers : List Takeover
  log       : List LogEntry
  engines   : List EngCk
  /-- units moved to the spare engine of their region (R176) -/
  moved     : List (BayId × UnitSel)
  /-- units that found no spare (R177) -/
  dead      : List (BayId × UnitSel)
  degraded  : List Nat
  lost      : List Nat
  queue     : List Admit
  admitted  : List (BayId × Pu)
  resets    : Nat
  /-- fabric links: resynchronizations within the last second, by region and link -/
  resyncs   : List (Nat × Nat × Nat)
  /-- bays whose region control asked the island to hold them (R382) -/
  holdReq   : List BayId
  /-- the fabric is frozen after a chip-fatal error (R383) -/
  frozen    : Bool
  deriving DecidableEq, Repr, Inhabited

/-- The values of the option fuses (Tables 13-9 and 16-2, R408, R351): the part, signature enforcement, fault
injection, revoked keys, `PERST_SYS`, and the reset states of configurable pins. -/
structure Fuses where
  part     : Part
  sig      : Bool
  inj      : Bool
  revoked  : BitVec 4
  perstSys : Bool
  pins     : List (Nat × Nat)
  deriving DecidableEq, Repr, Inhabited

/-- One trail entry (Table 20-2). -/
structure TrailEntry where
  seq    : Nat
  time   : Nat
  slot   : Nat
  etype  : Nat
  res    : Nat
  key    : Nat
  obj    : Nat
  src    : Nat
  detail : Bytes
  digest : Bytes
  deriving DecidableEq, Repr, Inhabited

/-- Measurement slots and the trail (R407, R411). -/
structure Trust where
  slots   : List Bytes
  trail   : List TrailEntry
  count   : Nat
  dropped : Nat
  fwSlot  : Nat
  fwVersion : Nat
  staged  : Nat
  fuses   : Fuses
  shadow  : Fuses
  jtagOpen : Bool
  deriving DecidableEq, Repr, Inhabited

/-- A flash operation that runs (R293, R322, R367, R384): its purpose, where, what is written, its tries. -/
structure FlashJob where
  op     : FlashOp
  offset : Nat
  data   : Bytes
  tries  : Nat
  /-- the command that waits for it, by fetch order -/
  order  : Option Nat
  /-- for a calibration record: its bay and unit (0 pickup A, 1 pickup B, 2 motor) -/
  unit   : Option (BayId × Nat)
  deriving DecidableEq, Repr, Inhabited

/-- A unit of configuration (R330, R331): a pickup, a link, a spare receiver, a bay's motor unit, a basket. -/
inductive CfgUnit where
  | pickup (b : BayId) (p : Pu)
  | link (b : BayId) (p : Pu)
  | spare (b : BayId)
  | bay (b : BayId)
  | basket (n : Nat)
  deriving DecidableEq, Repr, Inhabited

/-- Configuration (R328, R332): the values of the newest committed image, the values as the last start loaded them, each
unit's values of a section where it has passed a boundary since, the image's sequence and slot, whether any image was
found, `spindle.over.rpm` values held back (R333). -/
structure CfgState where
  committed : Cfg
  boot      : Cfg
  units     : List ((CfgUnit × Nat) × Cfg)
  seq       : Nat
  slot      : Nat
  found     : Bool
  deriving DecidableEq, Repr, Inhabited

/-- Safety outputs and latches of one bay (R387 to R399): the two output levels; the monitor pin; latched trips; a bay
hold; the latch of R396; the moments of laser and gate trips; since when `LMON_N` can have been high; the last `SPDF`
toggle and the newest intervals; the last speed report; since when the plausibility check fails. -/
structure BaySafe where
  lsafe    : Bool
  ssafe    : Bool
  lmonLow  : Bool
  lmonTrip : Bool
  gateTrip : Bool
  overTrip : Bool
  plausTrip : Bool
  hold     : Bool
  latched  : Bool
  trips    : List Nat
  lmonHigh : Option Nat
  spdfLast : Option Nat
  intervals : List Nat
  repRpm   : Int
  repState : SpSt
  repAt    : Nat
  failSince : Option Nat
  /-- since when `WPERMIT` is 1 with a loop of pickup A or B unlocked (R393), and since when the pin is high against an `LMON` bit (R398) -/
  gateA    : Option Nat
  gateB    : Option Nat
  lmonBad  : Option Nat
  deriving DecidableEq, Repr, Inhabited

/-- The safety island (R386 to R403): per bay; halted (R398); self-test passed; VDD_SAFE good; since when `ILK_N` can have
been high; the agent's record of the island's heartbeat words (`hbSeq`, `hbAt`) and the island's of the agent's (`agSeq`,
`agAt`), whether the island's check runs; the agent has lost the island (R394); outputs latched low by a readback (R388);
its copy of the `safety` fields (R335).
Log 45 (DEDUCED). -/
structure Island where
  bays     : List BaySafe
  halted   : Bool
  passed   : Bool
  supplyOk : Bool
  rootOk   : Bool
  ilkHigh  : Option Nat
  hbSeq    : Nat
  hbAt     : Nat
  hbRun    : Bool
  agSeq    : Nat
  agAt     : Nat
  agentLost : Bool
  outLatched : Bool
  vals     : Cfg
  deriving DecidableEq, Repr, Inhabited

/-- The states of an injection (R423). -/
inductive InjSt where
  | waiting
  | acting
  | ended
  deriving DecidableEq, Repr, Inhabited

/-- An injection (R418 to R423): ID, arming function, its fields (bytes 40–63 of the arming entry), when it was
accepted, when it first acted, frames acted on, frames seen, when it ended, frames held back for a delay or swap. -/
structure Inject where
  id      : Nat
  fn      : FnId
  fields  : Bytes
  armed   : Nat
  began   : Option Nat
  acted   : Nat
  st      : InjSt
  endedAt : Option Nat
  heldF   : List (Nat × Bytes)
  deriving DecidableEq, Repr, Inhabited

/-- Fault injection. -/
structure InjState where
  list   : List Inject
  nextId : Nat
  deriving DecidableEq, Repr, Inhabited

/-- The reset lines asserted and the reaches in force (R346, R350). -/
structure Resets where
  porst  : Bool
  sysrst : Bool
  perst  : Bool
  island : Bool
  host   : Bool
  wdog   : Bool
  core   : Option Nat
  cause  : BitVec 64
  deriving DecidableEq, Repr, Inhabited

/-- The management watchdog (R344). -/
structure Wdog where
  armed   : Bool
  kicked  : Nat
  first   : Option Nat
  deriving DecidableEq, Repr, Inhabited

/-- Bring-up (R352): the highest completed step, failures of the step in progress, whether the chip is stopped there,
when step 8 completed, whether the firmware runs. -/
structure Bringup where
  step    : Nat
  fails   : Nat
  stopped : Bool
  cores   : Bool
  at8     : Nat
  /-- the fuses have been loaded since power-up: pins may take their fuse states (R351) -/
  fused   : Bool
  deriving DecidableEq, Repr, Inhabited

/-- Time: microseconds of the model's clock since power-on, the timebase, its lock, and the PTM master time it slews to
as an offset still to be taken (R338).
Log 1 (DESIGN CHOICE). -/
structure Clock where
  us      : Nat
  time    : Nat
  locked  : Bool
  slew    : Int
  ddrLock : Bool
  deriving DecidableEq, Repr, Inhabited

/-- Power and temperature (R440 to R447): the set point of VDD_CORE that the regulator has acknowledged, in millivolts, and the
writes in a row that it has not; whether a thermal trip is latched; whether VDD_AON holds. -/
structure Power where
  avs     : Nat
  avsFails : Nat
  tripped : Bool
  aonOk   : Bool
  deriving DecidableEq, Repr, Inhabited

/-- NOR flash (R319): its bytes, erased bytes reading 0xFF, its size, the operations in progress, and the highest sequence of the crash
log as the last start found it or a record since has it. -/
structure Flash where
  mem    : Memory
  size   : Nat
  jobs   : List FlashJob
  crashSeq : Nat
  /-- slots opened for staging and not committed since, or whose commit failed (R293, R294): 0 and 1 images, 2 and 3 firmware -/
  bad    : List Nat
  deriving DecidableEq, Repr, Inhabited

/-- The newest events, for the crash record (R384), newest first. -/
structure ChipState where
  rst     : Resets
  wdog    : Wdog
  up      : Bringup
  clk     : Clock
  power   : Power
  fatal   : Option FatalCause
  fatalAt : Nat
  crash   : Option Bytes
  last    : List EvRec
  repair  : List (BitVec 64)
  repairSeq : Nat
  deriving DecidableEq, Repr, Inhabited

end Sys2Proof.Machine
end

