-- ==== Sys2Proof/Machine/State.lean ====
section
/-! DEFINITION. The machine state: everything the spec gives the controller, as plain data, and its value right after a
power-on reset. Pieces live in the files it imports. -/

namespace Sys2Proof.Machine

/-- Why a step stops with a fault.
Log 10 (DEDUCED). -/
inductive Fault where
  /-- A command names bay 16 to 31 on a YX1616, where "Bays 16–31 do not exist for any purpose" (R3). Raised by
  `withBay`. Safe: nothing is answered about a bay that is not there. -/
  | noSuchBay
  deriving DecidableEq, Repr

/-- Why a command is refused. -/
inductive Refusal where
  /-- A row of the table without a meaning yet, by its mnemonic. Raised by the arms of `exec` alone. Safe. -/
  | notModelled (mnemonic : String)
  deriving DecidableEq, Repr

/-- One unit of a pending item (R356): the spot, lane, loop or target (0 for an item without units), failed runs in a row, the
result of the first of two REPEAT runs, whether it has failed `cal.retry.max` times and waits for its next trigger, and the pickup's count
of sectors read when its run began. -/
structure CalPart where
  unit  : Nat
  fails : Nat
  first : Option (List Int)
  ended : Bool
  from' : Nat
  deriving DecidableEq, Repr, Inhabited

/-- A calibration item pending for a pickup (R357): the item, the layer it is for, since when it waits, its units not yet
accepted, whether a mount raised it. -/
structure CalPend where
  item  : Nat
  layer : Nat
  since : Nat
  parts : List CalPart
  mount : Bool
  deriving DecidableEq, Repr, Inhabited

/-- An accepted value that waits for its point of force (R355): item, layer, unit (element, loop, lane), values. -/
structure CalWait where
  item  : Nat
  layer : Nat
  unit  : Nat
  vals  : List Int
  deriving DecidableEq, Repr, Inhabited

/-- The calibration data of a pickup (R355 to R367, Table 17-4): pending items, values waiting for force, the step that
runs, the forced gap, the temperature and disc of the record, per-layer slopes and offsets (focus, tracking, tilt),
spherical-aberration setpoints, strategy trims, the disc they belong to, track and element retirement, whether the
mount-time calibration passed, since when a record is due and when the last was written. -/
structure Cal where
  pend     : List CalPend
  wait     : List CalWait
  step     : Option (Nat × Nat)
  gap      : Option Nat
  gapDue   : Bool
  temp     : Int
  slopes   : List (Nat × List Int)
  sa       : List (Nat × Int)
  strat    : List (Nat × List Int)
  discOf   : Option Bytes
  sums     : List (Nat × Nat)
  p2p      : List (Nat × Nat)
  tret     : Option Nat
  susp     : Option Nat
  retired  : Bool
  retProv  : Bool
  trkProv  : Bool
  passed   : Bool
  recDue   : Option Nat
  recAt    : Nat
  seen     : List Nat
  trkFail  : List (List Bool)
  slices   : List Nat
  /-- serial of the head module that the data belongs to (R366) -/
  serial   : Option Bytes
  /-- tuned following banks, focus and tracking (R175, Table 17-4) -/
  tunedF   : Option Bank
  tunedT   : Option Bank
  /-- accepted values differ from the record (R367) -/
  differs  : Bool
  /-- the temperature trigger has made its items pending (R357) -/
  trig     : Bool
  /-- the spot that an item 1 step examines, and whether its twin has been asked for (R358) -/
  exam     : Option (Nat × Bool)
  /-- spots whose row in force is provisional (R421) -/
  rowProv  : List Nat
  /-- spots whose other row comes back into force at the next opening wedge (R421) -/
  rowBack  : List Nat
  /-- sectors read so far, and frames of the twin that an item 1 step has read (R355, Table 17-7) -/
  read     : Nat
  frames   : Nat
  deriving DecidableEq, Repr, Inhabited

/-- Counters that `HEALTH` reports for a pickup (Table 18-7). -/
structure Counts where
  outcomes : List Nat
  rungs    : List Nat
  misc     : Nat
  iters    : List Nat
  trkFail  : List Nat
  stats    : List Nat
  slips    : Nat
  eqReset  : Nat
  deriving DecidableEq, Repr, Inhabited

/-- The state machine of a pickup (Table 07-3): its state and since when, its targets, the corrections and tries of R154,
the ladder of R156, the sweep or jump in progress, the sled-follow mean, the rest swath and the drives held. -/
structure Motion where
  st        : PState
  since     : Nat
  tgtLayer  : Nat
  tgtZone   : Zone
  tgtFrame  : Nat
  hasTarget : Bool
  corr      : Nat
  layerTry  : Nat
  ladders   : Nat
  cause     : RecCause
  recap     : Bool
  fromRec   : Bool
  sawWedge  : Bool
  sweep     : Sweep
  jump      : Option Jump
  layer     : Nat
  kicked    : Bool
  saCode    : Int
  saTrim    : Int
  saDither  : Bool
  /-- the mean envelope over the half with the positive dither (R152) -/
  saEnv     : Option Nat
  /-- the dither in force -/
  saOfs     : Int
  dispMean  : Int
  rest      : Option Nat
  limitHit  : Bool
  steer     : Bool
  drives    : List Int
  tiltAcc   : List Int
  ticks     : Nat
  /-- servo ticks counted, missing ones too; the 480 and the 80 ticks for which the trim and sled follow were updated last (R162) -/
  clock     : Nat
  saSlot    : Nat
  followSlot : Nat
  /-- time of the move of the seek in progress (Table 07-3) -/
  moveUs    : Nat
  deriving DecidableEq, Repr, Inhabited

/-- One pickup with everything that serves it. -/
structure Pickup where
  link  : HLink
  sheet : Sheet
  det   : Det
  write : WPath
  slots : List SoftSlot
  reads : List ReadReq
  cur   : Option ReadReq
  recs  : List SectorRec
  ms    : Motion
  focus : Loop
  track : Loop
  tilt  : Loop
  elems : List Element
  cal   : Cal
  cnt   : Counts
  deriving DecidableEq, Repr, Inhabited

/-- The causes for which a disc is rejected (R23, R32, R146, R154). -/
inductive Reject where
  | surface
  | identity
  | format
  deriving DecidableEq, Repr, Inhabited

/-- The disc of a bay as known (R32, R146): its serial and identity once read, whether it has been rejected and why, whether
the bay is known to be empty, and the provisional serial tag of each pickup (R22). -/
structure Disc where
  serial   : Option Bytes
  ident    : Bytes
  rejected : Option (Bytes × Reject)
  empty    : Bool
  probing  : Bool
  probeAt  : Nat
  tagA     : Option Nat
  tagB     : Option Nat
  /-- newest valid label record once the label area has been read, and whether the area is blank on both surfaces -/
  label    : Option Bytes
  blank    : Bool
  /-- sectors used of the label area and of the checkpoint pointer area -/
  labelN   : Nat
  pointerN : Nat
  /-- sectors of the disc's own read so far, in the order of reading -/
  found    : List RecRead
  /-- pickups whose last focus search found no disc (R146) -/
  searched : List Pu
  deriving DecidableEq, Repr, Inhabited

/-- The calibration data of a bay, kept under its motor stage's serial (R366): each sled's table correction as 16 harmonic
pairs, and since when a record is due. -/
structure BayCal where
  serial : Option Bytes
  tabA   : List Int
  tabB   : List Int
  recDue : Option Nat
  deriving DecidableEq, Repr, Inhabited

/-- One bay: its pickups, spare receiver, motor unit, sleds, radial pair and reference (R157 to R159), disc, readiness,
and the radii of the last confirmed wedges in 10 nm. -/
structure Bay where
  pa      : Pickup
  pb      : Pickup
  spare   : SpareRx
  mlink   : MLink
  spindle : Spindle
  sledA   : Sled
  sledB   : Sled
  ref     : Pu
  refLost : Nat
  pairOk  : Bool
  radA    : Option Nat
  radB    : Option Nat
  radius  : Nat
  zone    : Zone
  disc    : Disc
  ready   : Bool
  /-- since when the spindle start of its bring-up waits for the motor link (R353) -/
  upAt    : Option Nat
  cal     : BayCal
  deriving DecidableEq, Repr, Inhabited

/-- The machine. `pending` is the queue of commands, front first; `out` what it has sent to its surroundings, newest
first; `free` counts free values drawn.
Log 8 (DESIGN CHOICE). Log 11 (DESIGN CHOICE). -/
structure State where
  pending : List Instr
  out     : List Output
  free    : Nat
  host    : HostState
  ev      : EvState
  ham     : HamperState
  mem     : MemState
  flash   : Flash
  cfg     : CfgState
  trust   : Trust
  blk     : BlockState
  isl     : Island
  inj     : InjState
  chip    : ChipState
  bays    : Vector Bay 32
  deriving DecidableEq, Repr

/-! ### Reset values -/

/-- Counters at zero. -/
def Counts.zero : Counts :=
  { outcomes := List.replicate 7 0, rungs := List.replicate 5 0, misc := 0, iters := [],
    trkFail := List.replicate 16 0, stats := List.replicate 5 0, slips := 0, eqReset := 0 }

/-- No calibration record read. -/
def Cal.reset : Cal :=
  { pend := [], wait := [], step := none, gap := none, gapDue := false, temp := 0, slopes := [], sa := [],
    strat := [], discOf := none, sums := [], p2p := [], tret := none, susp := none, retired := false,
    retProv := false, trkProv := false, passed := false, recDue := none, recAt := 0, seen := [],
    trkFail := List.replicate 16 [], slices := [0, 0, 0], serial := none, tunedF := none, tunedT := none, differs := false
    trig := false, exam := none, rowProv := [], rowBack := [], read := 0, frames := 0 }

/-- A pickup in `OFF`.
Log 3 (DESIGN CHOICE). Log 4 (DESIGN CHOICE). -/
def Motion.reset : Motion :=
  { st := .off, since := 0, tgtLayer := 0, tgtZone := .leadIn, tgtFrame := 0, hasTarget := false, corr := 0,
    layerTry := 0, ladders := 0, cause := .ordinary, recap := false, fromRec := false, sawWedge := false,
    sweep := ⟨0, 0, 1, -32767, false, 0, 0, false⟩, jump := none, layer := 0, kicked := false, saCode := 0,
    saTrim := 0, saDither := false, saEnv := none, saOfs := 0, dispMean := 0, rest := none, limitHit := false, steer := false,
    drives := [0, 0, 0, 0], tiltAcc := [], ticks := 0, clock := 0, saSlot := 0, followSlot := 0, moveUs := 0 }

/-- A pickup at reset.
Log 3 (DESIGN CHOICE). -/
def Pickup.reset (p : Pu) : Pickup :=
  { link := .reset, sheet := .reset p, det := .reset, write := .reset, slots := [], reads := [], cur := none,
    recs := [], ms := .reset, focus := .reset, track := .reset, tilt := .reset,
    elems := List.replicate 36 .reset, cal := .reset, cnt := .zero }

/-- A bay at reset: links down, spindle stopped, no disc known.
Log 3 (DESIGN CHOICE). Log 4 (DESIGN CHOICE). -/
def Bay.reset : Bay :=
  { pa := .reset .A, pb := .reset .B, spare := .idle, mlink := .reset, spindle := .reset,
    sledA := .reset, sledB := .reset, ref := .A, refLost := 0, pairOk := false, radA := none, radB := none,
    radius := 2300000, zone := .leadIn,
    disc := ⟨none, [], none, false, false, 0, none, none, none, false, 0, 0, [], []⟩, ready := false, upAt := none, cal := ⟨none, [], [], none⟩ }

/-- The safety state of a bay at power-on: every output low (R399). -/
def BaySafe.reset : BaySafe :=
  { lsafe := false, ssafe := false, lmonLow := false, lmonTrip := false, gateTrip := false, overTrip := false,
    plausTrip := false, hold := false, latched := false, trips := [], lmonHigh := none, spdfLast := none,
    intervals := [], repRpm := 0, repState := .stopped, repAt := 0, failSince := none, gateA := none,
    gateB := none, lmonBad := none }

/-- The island at power-on, before its self-test (R399). -/
def Island.reset : Island :=
  { bays := List.replicate 32 .reset, halted := false, passed := false, supplyOk := true, rootOk := false,
    ilkHigh := none, hbSeq := 0, hbAt := 0, hbRun := false, agSeq := 0, agAt := 0, agentLost := false,
    outLatched := false, vals := .empty }

/-- The fuses of a production YX3216-B0-FB3969 (Table 00-1).
Log 5 (DESIGN CHOICE). -/
def Fuses.reset : Fuses :=
  { part := .YX3216, sig := false, inj := false, revoked := 0#4, perstSys := false, pins := [] }

/-- Slots and trail as cleared (R407). -/
def Trust.reset : Trust :=
  { slots := List.replicate 16 (List.replicate 64 0#8), trail := [], count := 0, dropped := 0, fwSlot := 0,
    fwVersion := 0, staged := 0, fuses := .reset, shadow := .reset, jtagOpen := false }

/-- Memory before the fill of bring-up step 4.
Log 5 (DESIGN CHOICE). -/
def MemState.reset : MemState :=
  { ddr := [], poison := [], merge := [], mergeQ := [], remaps := [], ranges := [], ce := [], ue := [], fullCh := [],
    diag := [], baskets := [], bufs := [], waiters := [], nextWait := 0, waitEv := [], gib := 64, rate := 8800,
    channels := [0, 1, 2, 3, 4, 5, 6, 7], pool := 0, filled := false, aonRows := [], aonRemaps := [], badCapture := [] }

/-- An erased flash of 512 Mbit.
Log 5 (DESIGN CHOICE). -/
def Flash.reset : Flash :=
  { mem := [], size := 67108864, jobs := [], crashSeq := 0, bad := [] }

/-- The host side before bring-up step 8: nothing ready, no ring (R277).
Log 5 (DESIGN CHOICE). -/
def HostState.reset : HostState :=
  { fns := [], srs := [], crs := [], cmds := [], nextOrder := 0, lastAdmin := 0, lastFn := 0, credit := 0, lastSr := [],
    badDoorbells := 0, vfs := 0, width := 16, rate := 7, ready := false, gen := 0, hbeat := 0,
    stage := 0, stageBusy := none, act := none, fetchStop := false, page := [], fates := [], fatesEnd := 0 }

/-- No hamper mounted; engines 0 to 3 serve, engine 4 is the spare (R250). -/
def HamperState.reset : HamperState :=
  { slots := List.replicate 16 none, faulty := List.replicate 5 false, serves := [0, 1, 2, 3], takeover := none,
    queued := [], queuedRecs := [], attached := [], spares := [] }

/-- All blocks as at start. -/
def BlockState.reset : BlockState :=
  { blks := [], takeovers := [], log := [], engines := [], moved := [], dead := [], degraded := [], lost := [], queue := [],
    admitted := [], resets := 0, resyncs := [], holdReq := [], frozen := false }

/-- The chip right after a power-on reset: `RESET_CAUSE` bit 0 set (R345), bring-up before its first step. -/
def ChipState.reset : ChipState :=
  { rst := { porst := false, sysrst := false, perst := false, island := false, host := false, wdog := false,
               core := none, cause := 1#64 }
    wdog := ⟨false, 0, none⟩
    up := { step := 0, fails := 0, stopped := false, cores := false, at8 := 0, fused := false }
    clk := { us := 0, time := 0, locked := false, slew := 0, ddrLock := false }
    power := { avs := 750, avsFails := 0, tripped := false, aonOk := true }
    fatal := none, fatalAt := 0, crash := none, last := [], repair := [], repairSeq := 0 }

/-- The machine right after a power-on reset has been released.
Log 3 (DESIGN CHOICE). -/
def State.reset : State :=
  { pending := [], out := [], free := 0, host := .reset, ev := ⟨[], [], [], []⟩, ham := .reset, mem := .reset,
    flash := .reset, cfg := ⟨.empty, .empty, [], 0, 0, false⟩, trust := .reset, blk := .reset, isl := .reset,
    inj := ⟨[], 1⟩, chip := .reset, bays := Vector.replicate 32 .reset }

end Sys2Proof.Machine
end

