-- ==== Sys2Proof/Machine/Ops.lean ====
section
/-! DEFINITION. The shared operations of every command: access to bays and pickups, configuration values in force, the
raising and delivery of events, interrupts, and the log of outputs. -/

namespace Sys2Proof.Machine

/-! ### Sorting -/

/-- A value inserted into a sorted list, after those it does not precede. -/
def insertBy {α : Type} (before : α → α → Bool) (x : α) : List α → List α
  | [] => [x]
  | y :: ys => if before x y then x :: y :: ys else y :: insertBy before x ys

/-- A list sorted, equals in their order. -/
def sortBy {α : Type} (before : α → α → Bool) (l : List α) : List α := l.foldl (fun acc x => insertBy before x acc) []

/-! ### Bays and pickups -/

/-- A bay exists: 0 to 15 on the YX1616, 0 to 31 on the YX3216 (R3).
Log 10 (DEDUCED). -/
def State.bayExists (s : State) (b : BayId) : Bool :=
  match s.trust.shadow.part with
  | .YX3216 => true
  | .YX1616 => b.val < 16

/-- The number of bays that exist. -/
def State.bayCount (s : State) : Nat :=
  match s.trust.shadow.part with
  | .YX3216 => 32
  | .YX1616 => 16

/-- A bay's state. -/
def State.bay (s : State) (b : BayId) : Bay := s.bays.get b

/-- The state with one bay replaced. -/
def State.setBay (s : State) (b : BayId) (v : Bay) : State := { s with bays := s.bays.set b.val v b.isLt }

/-- The state with one bay changed by a function. -/
def State.updBay (s : State) (b : BayId) (f : Bay → Bay) : State := s.setBay b (f (s.bay b))

/-- A pickup of a bay. -/
def Bay.pu (y : Bay) (p : Pu) : Pickup :=
  match p with
  | .A => y.pa
  | .B => y.pb

/-- A bay with one pickup replaced. -/
def Bay.setPu (y : Bay) (p : Pu) (v : Pickup) : Bay :=
  match p with
  | .A => { y with pa := v }
  | .B => { y with pb := v }

/-- A pickup of the machine. -/
def State.pu (s : State) (b : BayId) (p : Pu) : Pickup := (s.bay b).pu p

/-- The state with one pickup changed by a function. -/
def State.updPu (s : State) (b : BayId) (p : Pu) (f : Pickup → Pickup) : State :=
  s.updBay b (fun y => y.setPu p (f (y.pu p)))

/-- A sled of a bay. -/
def Bay.sled (y : Bay) (p : Pu) : Sled :=
  match p with
  | .A => y.sledA
  | .B => y.sledB

/-- A bay with one sled replaced. -/
def Bay.setSled (y : Bay) (p : Pu) (v : Sled) : Bay :=
  match p with
  | .A => { y with sledA := v }
  | .B => { y with sledB := v }

/-- The state with one sled changed by a function. -/
def State.updSled (s : State) (b : BayId) (p : Pu) (f : Sled → Sled) : State :=
  s.updBay b (fun y => y.setSled p (f (y.sled p)))

/-- The bay region of a bay (R10). -/
def regionOf (b : BayId) : Nat := b.val / 8

/-- A region of the part: BR0 to BR3, HR (4) and MR (5); BR2 and BR3 of a YX1616 are fused off (R3, R11). -/
def State.regionExists (s : State) (r : Nat) : Bool :=
  decide (r < 6) && (r != 2 && r != 3 || s.trust.shadow.part == .YX3216)

/-- A command about a region of any kind: one the part does not have raises nothing (R3).
Log 10 (DEDUCED). -/
def onRegion (r : Nat) (s : State) (f : State → State) : Host.Outcome State Fault Refusal :=
  if s.regionExists r then .next (f s) else .fault .noSuchBay

/-- A command about a bay region: regions BR2 and BR3 of a YX1616 are fused off (R3).
Log 10 (DEDUCED). -/
def withRegion (r : RegionId) (s : State) (f : State → State) : Host.Outcome State Fault Refusal :=
  if r.val < 2 || s.trust.shadow.part == .YX3216 then .next (f s) else .fault .noSuchBay

/-! ### Time -/

/-- The model's microsecond clock. -/
def State.us (s : State) : Nat := s.chip.clk.us

/-- `TIME` (R338). -/
def State.time (s : State) : Nat := s.chip.clk.time

/-! ### Resets -/

/-- The system reach is asserted by some source (R346, R350).
Log 2 (DESIGN CHOICE). -/
def State.sysHeld (s : State) : Bool :=
  s.chip.rst.porst || s.chip.rst.sysrst || s.chip.rst.perst || s.chip.rst.island || s.chip.rst.host || s.chip.rst.wdog

/-- The cores are held: a core reset is in progress, or a wider reset is.
Log 2 (DESIGN CHOICE). -/
def State.coresHeld (s : State) : Bool := s.chip.rst.core.isSome || s.sysHeld

/-- A block of the chip is in service: not failed (R340, R375). -/
def State.blkUp (s : State) (kind region inst : Nat) : Bool :=
  match s.blk.blks.find? (fun x => x.id == ⟨kind, region, inst⟩) with
  | some x => x.st != .failed
  | none => true

/-- The head-link port of a pickup, with its sheet channel, is out of reset and in service (kind 0 of Table 18-3). -/
def State.portUp (s : State) (b : BayId) (p : Pu) : Bool :=
  !s.sysHeld && s.blkUp 0 (regionOf b) (2 * (b.val % 8) + p.idx)

/-- The motor-link port of a bay is out of reset and in service (kind 1). -/
def State.mportUp (s : State) (b : BayId) : Bool := !s.sysHeld && s.blkUp 1 (regionOf b) (b.val % 8)

/-! ### Configuration values in force (section Classes and boundaries of 15_configuration_image.md) -/

/-- A LIVE field: the newest committed value.
Log 2 (DESIGN CHOICE). -/
def State.live (s : State) (f : Field) : Int := s.cfg.committed.int f

/-- A LIVE field without negative values. -/
def State.liveN (s : State) (f : Field) : Nat := s.cfg.committed.nat f

/-- A BOOT field: the value of the last start. -/
def State.bootN (s : State) (f : Field) : Nat := s.cfg.boot.nat f

/-- The values a unit runs a section with (R330): those of its last boundary, or of the last start. -/
def State.unitCfg (s : State) (u : CfgUnit) (sec : Nat) : Cfg :=
  match s.cfg.units.find? (fun e => e.1 == (u, sec)) with
  | some e => e.2
  | none => s.cfg.boot

/-- A BOUNDARY field of a unit.
Log 45 (DEDUCED). -/
def State.bnd (s : State) (u : CfgUnit) (f : Field) : Int := (s.unitCfg u f.info.sec).int f

/-- A BOUNDARY field without negative values. -/
def State.bndN (s : State) (u : CfgUnit) (f : Field) : Nat := (s.unitCfg u f.info.sec).nat f

/-- A field of class BOUNDARY, or `sled.hold.pct`, which R333 applies at its partner's boundary.
Log 45 (DEDUCED). -/
def Field.atBoundary (f : Field) : Bool := f.info.cls == .boundary || f == .sledHoldPct

/-- A unit's boundary of a section: its BOUNDARY fields take the newest committed values together (R330).
Log 45 (DEDUCED). -/
def State.boundary (s : State) (u : CfgUnit) (sec : Nat) : State :=
  let v := (s.unitCfg u sec).takeSection s.cfg.committed sec Field.atBoundary
  let rest := s.cfg.units.filter (fun e => !(e.1 == (u, sec)))
  { s with cfg := { s.cfg with units := ((u, sec), v) :: rest } }

/-- A field of the `safety` section as the island holds it (R335, R336). -/
def State.safe (s : State) (f : Field) : Nat := s.isl.vals.nat f

/-! ### Outputs, functions and interrupts -/

/-- The state with one more output.
Log 11 (DESIGN CHOICE). -/
def State.emit (s : State) (o : Output) : State := { s with out := o :: s.out }

/-- A function's record, if the controller keeps one. -/
def State.fn? (s : State) (f : FnId) : Option Fn := s.host.fns.find? (fun x => x.id == f)

/-- The state with one function's record changed. -/
def State.updFn (s : State) (f : FnId) (g : Fn → Fn) : State :=
  { s with host := { s.host with fns := s.host.fns.map (fun x => if x.id == f then g x else x) } }

/-- A ring of a function. -/
def State.cr? (s : State) (f : FnId) (id : Nat) : Option Cr :=
  s.host.crs.find? (fun c => c.fn == f && c.id == id)

/-- The state with one completion or event ring changed. -/
def State.updCr (s : State) (f : FnId) (id : Nat) (g : Cr → Cr) : State :=
  { s with host := { s.host with crs := s.host.crs.map (fun c => if c.fn == f && c.id == id then g c else c) } }

/-- A submission ring of a function. -/
def State.sr? (s : State) (f : FnId) (id : Nat) : Option Sr :=
  s.host.srs.find? (fun r => r.fn == f && r.id == id)

/-- The state with one submission ring changed. -/
def State.updSr (s : State) (f : FnId) (id : Nat) (g : Sr → Sr) : State :=
  { s with host := { s.host with srs := s.host.srs.map (fun r => if r.fn == f && r.id == id then g r else r) } }

/-- The MSI-X entry of a vector; masked until the host writes it. -/
def Fn.vector (x : Fn) (v : Nat) : MsixEntry :=
  match x.msix.find? (fun e => e.1 == v) with
  | some e => e.2
  | none => ⟨0, 0, true, false⟩

/-- A function with one MSI-X entry set. -/
def Fn.setVector (x : Fn) (v : Nat) (e : MsixEntry) : Fn :=
  { x with msix := (v, e) :: x.msix.filter (fun y => y.1 != v) }

/-- Signal a vector of a function: a message, or the pending bit while it is masked (R274). -/
def State.signal (s : State) (f : FnId) (v : Nat) : State :=
  match s.fn? f with
  | none => s
  | some x =>
    let e := x.vector v
    if e.masked then s.updFn f (fun x => x.setVector v { e with pending := true })
    else s.emit (.msix f e.addr e.data)

/-- A ring holds no free slot (R263). -/
def Cr.isFull (c : Cr) : Bool := c.depth ≤ c.pending

/-- A ring after one more entry, written at `next` with the phase of this pass (R263). -/
def Cr.push (c : Cr) (now : Nat) : Cr :=
  let n := c.next + 1
  { c with next := if n = c.depth then 0 else n, phase := if n = c.depth then !c.phase else c.phase,
           pending := c.pending + 1, since := some (c.since.getD now) }

/-- Signal after an entry (R274): every entry with `CTIME` 0; else once the entries not yet freed reach `CTHR`. -/
def State.crSignal (s : State) (f : FnId) (id : Nat) : State :=
  match s.cr? f id with
  | none => s
  | some c =>
    if c.ctime = 0 ∨ (c.pending ≥ c.cthr ∧ !c.signalled) then
      (s.updCr f id (fun c => { c with signalled := true })).signal f c.vec
    else s

/-! ### Events -/

/-- The source's bay or region carries an injection that acts (`INJ` of Table 21-4; R422). -/
def State.injOnSrc (s : State) (src : Nat) : Bool :=
  s.inj.list.any (fun i =>
    i.st == .acting &&
      (let k := byteAt i.fields 1 % 16
       let t := byteAt i.fields 2
       if k = 2 then 768 ≤ src && src < 864 && (src - 768) / 16 == t else src < 768 && src / 24 == t))

/-- The bytes of an event record (Table 21-4). -/
def evBytes (r : EvRec) (fseq : Nat) (phase : Bool) : Bytes :=
  leBytes 8 r.time
    ++ leBytes 2 (r.src + 1024 * r.ev.sev + (if r.inj then 8192 else 0) + (if r.held then 16384 else 0))
    ++ leBytes 2 r.ev.code ++ leBytes 4 fseq ++ leBytes 4 r.p0 ++ leBytes 4 r.p1 ++ leBytes 4 r.p2
    ++ leBytes 2 r.supp ++ [0#8] ++ [if phase then 0x80#8 else 0x00#8]

/-- The event ring of a function, if it has created one (R275). -/
def State.evRing (s : State) (f : FnId) : Option Cr := s.host.crs.find? (fun c => c.fn == f && c.event)

/-- A record written to an event ring with a free slot. -/
def State.writeEv (s : State) (c : Cr) (r : EvRec) (fseq : Nat) : State :=
  let s := s.emit (.event c.fn c.next (evBytes r fseq c.phase))
  let s := s.updCr c.fn c.id (fun c => c.push s.us)
  let s := s.crSignal c.fn c.id
  -- a record of high severity signals at once (R428)
  if s.liveN .eventUrgentSev ≤ r.ev.sev then
    s.signal c.fn (if c.fn = 0 then s.liveN .eventUrgentVec else c.vec)
  else s

/-- The overflow record that reports records lost to a function (R455). -/
def overflowRec (time : Nat) (f : FnId) (lost : Nat) : EvRec :=
  ⟨time, 898, .eventOverflow, false, false, lost, f.val, 0, 0⟩

/-- Delivery of a record to one function (R275): its ring with space; the newest 256 while no ring exists; counted
otherwise. `FSEQ` counts every record raised for the function. -/
def State.deliver (s : State) (f : FnId) (r : EvRec) : State :=
  match s.fn? f with
  | none => s
  | some x =>
    let s := s.updFn f (fun x => { x with fseq := (x.fseq + 1) % 2 ^ 32 })
    match s.evRing f with
    | none =>
      s.updFn f (fun x => { x with recent := (r :: x.recent).take 256,
                                   lost := if x.recent.length = 256 then x.lost + 1 else x.lost })
    | some c =>
      if c.isFull then s.updFn f (fun x => { x with lost := x.lost + 1 })
      else s.writeEv c r x.fseq

/-- The lost count of a function is reported by one overflow record once its ring has space (R275).
Log 21 (DEDUCED). -/
def State.flushLost (s : State) (f : FnId) : State :=
  match s.fn? f, s.evRing f with
  | some x, some c =>
    if x.lost = 0 ∨ c.isFull then s
    else (s.updFn f (fun x => { x with lost := 0 })).deliver f (overflowRec s.time f x.lost)
  | _, _ => s

/-- The functions a record goes to (R428, R455). -/
def State.evTargets (s : State) (r : EvRec) : List FnId :=
  let owner := if r.src = 897 then some r.p0 else if r.src = 898 then some r.p1 else none
  (s.host.fns.map (fun x => x.id)).filter (fun f =>
    if f = 0 then s.liveN .eventMinSev ≤ r.ev.sev
    else owner == some f.val || (s.liveN .eventVfGroups).testBit r.ev.group)

/-- An engine's checkpoint state (R178). -/
def State.engCk (s : State) (r e : Nat) : EngCk :=
  (s.blk.engines.find? (fun c => c.region == r && c.engine == e)).getD ⟨r, e, 0, 0, [], []⟩

/-- The state with one engine's checkpoint state replaced. -/
def State.setEngCk (s : State) (c : EngCk) : State :=
  { s with blk := { s.blk with engines := c :: s.blk.engines.filter (fun x => !(x.region == c.region && x.engine == c.engine)) } }

/-- The engine that raises the events of a source (Tables 08-1 and 21-3), as region and number: spindle, sleds and the radial pair those of
the motor engine, a pickup's loops those of its pickup engine.
Log 56 (DESIGN CHOICE). -/
def srcEngine (src : Nat) : Option (Nat × Nat) :=
  let b := src / 24
  let k := src % 24
  if 768 ≤ src then none
  else if k = 4 ∨ k = 5 then some (b / 8, b % 8 / 2)
  else if k = 0 ∨ k = 2 ∨ k = 3 ∨ k = 17 then some (b / 8, 4 + b % 8 / 4)
  else none

/-- A record joins the store of R430: up to 65,536, and counted for each function beyond. -/
def State.storeEv (s : State) (r : EvRec) : State :=
  if s.ev.held.length < 65536 then { s with ev := { s.ev with held := s.ev.held ++ [{ r with held := true }] } }
  else
    let lost := (s.evTargets r).foldl (fun l f =>
      let n := ((l.find? (fun e => e.1 == f)).map (fun e => e.2)).getD 0
      (f, n + 1) :: l.filter (fun e => e.1 != f)) s.ev.lost
    { s with ev := { s.ev with lost := lost } }

/-- A control engine's queue. -/
def State.evQueue (s : State) (g e : Nat) : EvQueue := (s.ev.queues.find? (fun q => q.region == g && q.engine == e)).getD ⟨g, e, [], 0⟩

/-- A record joins its engine's queue of 256, or is dropped from it and counted (R181). -/
def State.queueEv (s : State) (g e : Nat) (r : EvRec) : State :=
  let q := s.evQueue g e
  let q := if q.recs.length < 256 then { q with recs := q.recs ++ [{ r with held := true }] } else { q with dropped := q.dropped + 1 }
  { s with ev := { s.ev with queues := q :: s.ev.queues.filter (fun x => !(x.region == g && x.engine == e)) } }

/-- A record goes to every function it is routed to. While the cores are held it joins its engine's queue of 256 (R181), or the store of
R430. -/
def State.post (s : State) (r : EvRec) : State :=
  if s.chip.rst.core.isSome then
    match srcEngine r.src with
    | some (g, e) => s.queueEv g e r
    | none => s.storeEv r
  else (s.evTargets r).foldl (fun s f => s.deliver f r) s

/-- Events that the earlier chapters limit to one a second per source (R54, R125). -/
def Ev.onePerSecond (e : Ev) : Bool :=
  e == .hlinkLateBlock || e == .sectorReread || e == .sectorLost || e == .sectorMismatch

/-- Raise an event (R426 to R429): within its rate a record is written with the suppressed count; beyond it the record is
suppressed and counted. Severities 4 and 5 are never suppressed. -/
def State.raise (s : State) (src : Nat) (e : Ev) (p0 p1 p2 : Nat) : State :=
  let rt := (s.ev.rates.find? (fun x => x.src == src && x.ev == e)).getD ⟨src, e, 0, 0⟩
  let rest := s.ev.rates.filter (fun x => !(x.src == src && x.ev == e))
  let limit := if e.onePerSecond then 1 else s.liveN .eventRatePerS
  if e.sev < 4 ∧ limit ≤ rt.count then
    { s with ev := { s.ev with rates := { rt with supp := min (rt.supp + 1) 65535 } :: rest } }
  else
    let r : EvRec := ⟨s.time, src, e, s.injOnSrc src, false, p0, p1, p2, rt.supp⟩
    let s := { s with ev := { s.ev with rates := { rt with count := rt.count + 1, supp := 0 } :: rest },
                      chip := { s.chip with last := (r :: s.chip.last).take 1024 } }
    s.post r

/-- An event of a bay's source. -/
def State.raiseBay (s : State) (b : BayId) (src : Nat) (e : Ev) (p0 : Nat := 0) (p1 : Nat := 0) (p2 : Nat := 0) :
    State := s.raise (srcBay b src) e p0 p1 p2

/-- An event of a pickup: the sources of A and B are neighbours (Table 21-3). -/
def State.raisePu (s : State) (b : BayId) (p : Pu) (src : Nat) (e : Ev) (p0 : Nat := 0) (p1 : Nat := 0)
    (p2 : Nat := 0) : State := s.raise (srcBay b (src + p.idx)) e p0 p1 p2

/-! ### The status page -/

/-- One update of the status page: `GEN` becomes odd and then even again (R259). -/
def State.bumpGen (s : State) : State := { s with host := { s.host with gen := (s.host.gen + 2) % 2 ^ 32 } }

/-! ### Free values -/

/-- The next free value's index, and the state that has used it.
Log 8 (DESIGN CHOICE). -/
def State.draw (s : State) : Nat × State := (s.free, { s with free := s.free + 1 })

end Sys2Proof.Machine
end

