-- ==== Sys2Proof/Machine/Memory.lean ====
section
/-! DEFINITION. Addressed memories: lists of (address, byte) in strictly rising address order without an entry equal to
what an unlisted address reads as. DDR5 reads 0 where nothing has been written (the fill of R309), flash reads 0xFF
(R293). -/

namespace Sys2Proof.Machine

/-- What an unlisted byte of DDR5 reads as: the memory fill writes zero data (R309, R329).
Log 9 (DESIGN CHOICE). -/
def ddrDefault : Byte := 0x00#8

/-- What an unlisted byte of flash reads as: erased flash (R293).
Log 9 (DESIGN CHOICE). -/
def norDefault : Byte := 0xFF#8

/-- The byte at an address. -/
def Memory.read (d : Byte) : Memory → Nat → Byte
  | [], _ => d
  | (k, v) :: m, a => if k = a then v else if a < k then d else Memory.read d m a

/-- The memory with one byte written, kept in its canonical form. -/
def Memory.write (d : Byte) : Memory → Nat → Byte → Memory
  | [], a, v => if v = d then [] else [(a, v)]
  | (k, x) :: m, a, v =>
    if a < k then (if v = d then (k, x) :: m else (a, v) :: (k, x) :: m)
    else if a = k then (if v = d then m else (k, v) :: m)
    else (k, x) :: Memory.write d m a v

/-- The memory with a byte string written from an address on. -/
def Memory.writeBytes (d : Byte) (m : Memory) (a : Nat) : Bytes → Memory
  | [] => m
  | v :: vs => Memory.writeBytes d (Memory.write d m a v) (a + 1) vs

/-- `n` bytes from an address on. -/
def Memory.readBytes (d : Byte) (m : Memory) (a : Nat) : Nat → Bytes
  | 0 => []
  | n + 1 => Memory.read d m a :: Memory.readBytes d m (a + 1) n

/-- The memory without the entries of a range: every byte of it reads as unlisted. -/
def Memory.erase (m : Memory) (a n : Nat) : Memory := m.filter (fun e => !(a ≤ e.1 && e.1 < a + n))

/-- Addresses above `lo` rise strictly and no entry holds the unlisted value. -/
def Memory.sortedAbove (d : Byte) : Nat → Memory → Bool
  | _, [] => true
  | lo, (k, v) :: m => decide (lo ≤ k) && v != d && Memory.sortedAbove d (k + 1) m

/-- The canonical form.
Log 9 (DESIGN CHOICE). -/
def Memory.wf (d : Byte) (m : Memory) : Bool := Memory.sortedAbove d 0 m

/-! ### DDR5 by channel -/

/-- Where a byte of a channel lies in the model's one DDR5 address space: a channel has at most 64 GiB (R301).
Log 9 (DESIGN CHOICE). -/
def ddrAddr (ch addr : Nat) : Nat := ch * 2 ^ 37 + addr

/-- The 64 bytes of a codeword. -/
def MemState.codeword (m : MemState) (ch addr : Nat) : Bytes := Memory.readBytes ddrDefault m.ddr (ddrAddr ch addr) 64

/-- Flash read. -/
def Flash.read (f : Flash) (a n : Nat) : Bytes := Memory.readBytes norDefault f.mem a n

/-- Flash program: bytes are written over erased flash. -/
def Flash.program (f : Flash) (a : Nat) (bs : Bytes) : Flash :=
  { f with mem := Memory.writeBytes norDefault f.mem a bs }

/-- Flash erase of `n` bytes. -/
def Flash.eraseAt (f : Flash) (a n : Nat) : Flash := { f with mem := Memory.erase f.mem a n }

end Sys2Proof.Machine
end

