-- ==== Sys2Proof/Machine/Buffers.lean ====
section
/-! DEFINITION. Buffer memory (14_buffer_memory.md): partitions and the pool, baskets and their levels, waiters, merge
buffers, corrected and uncorrectable errors, remaps. -/

namespace Sys2Proof.Machine

/-! ### The pool (R303) -/

/-- Pickups of the part. -/
def partPickups : Part → Nat
  | .YX3216 => 64
  | .YX1616 => 32

/-- The capacity in use, in MiB: a channel mapped out takes its share with it (R302). -/
def MemState.capacityMib (m : MemState) : Nat := m.gib * 1024 * m.channels.length / 8

/-- Bytes of the fixed partitions (Table 14-2). -/
def fixedBytes (c : Cfg) (channels pickups : Nat) : Nat :=
  (256 + 128 + 16 + c.nat .memPartJournalMib + c.nat .memPartCaptureMib + c.nat .memPartDiagMib + 32 * channels) * 2 ^ 20
    + 16 * c.nat .hamperMapMaxExtents * 32
    + c.nat .eccSoftDepthSectors * 5 * 2 ^ 20 * pickups
    + c.nat .memWstoreSlots * 320 * 1024 * pickups

/-- Buffers of the pool: the remainder in units of 64 KiB, at most 16,777,215 (R303). -/
def poolBuffers (m : MemState) (c : Cfg) (pickups : Nat) : Nat :=
  min ((m.capacityMib * 2 ^ 20 - fixedBytes c m.channels.length pickups) / 65536) 16777215

/-- The fixed partitions and 65,536 buffers fit (R303). -/
def partitionsFit (m : MemState) (c : Cfg) (pickups : Nat) : Bool :=
  fixedBytes c m.channels.length pickups + 65536 * 65536 ≤ m.capacityMib * 2 ^ 20

/-- The section type of the `buf` fields. -/
def bufSec : Nat := 14

/-- A `buf` field of a set of values: the reserved minimum of a basket (R313, R318). -/
def basketMin (c : Cfg) (n : Nat) : Nat :=
  if n = 0 then 0
  else if n ≤ 6 then c.nat .bufRegionMin
  else if (c.at .bufBasketClass n) = 5 then 0
  else (c.at .bufBasketMin n).toNat

/-- The region a basket belongs to (0 to 3 BR0 to BR3, 4 HR, 5 MR); the common basket counts as MR's. -/
def basketHome (c : Cfg) (n : Nat) : Nat := if n = 0 then 5 else if n ≤ 6 then n - 1 else (c.at .bufBasketRegion n).toNat

/-- A basket of the part: on the YX1616 those of BR2 and BR3 are not there (R11). -/
def basketThere (c : Cfg) (pickups n : Nat) : Bool := pickups == 64 || !(basketHome c n == 2 || basketHome c n == 3)

/-- The baskets of the part. -/
def basketsOf (c : Cfg) (pickups : Nat) : List Nat := (List.range 256).filter (basketThere c pickups)

/-- The sum of all reserves. -/
def basketSum (c : Cfg) (pickups : Nat) : Nat := (basketsOf c pickups).foldl (fun a n => a + basketMin c n) 0

/-- The `buf` values in force at a draw or return (R316). -/
def State.bufCfg (s : State) : Cfg := s.unitCfg (.basket 0) bufSec

/-- The `buf` section's boundary, which every draw and return passes (R316). -/
def State.bufBoundary (s : State) : State := s.boundary (.basket 0) bufSec

/-- The region basket that a leaf falls back to. -/
def basketRegion (c : Cfg) (n : Nat) : Nat := 1 + (c.at .bufBasketRegion n).toNat

/-- A leaf's class, 0 highest (R315). -/
def basketClass (c : Cfg) (n : Nat) : Nat := (c.at .bufBasketClass n).toNat

/-- A basket's cap; 0 means none. -/
def basketCap (c : Cfg) (n : Nat) : Nat := if n ≤ 6 then 0 else (c.at .bufBasketCap n).toNat

/-- The pool and its baskets as the start sets them: every reserve filled, the rest in the common basket (R313). -/
def MemState.poolInit (m : MemState) (c : Cfg) (pickups : Nat) : MemState :=
  let pool := poolBuffers m c pickups
  { m with
    pool := pool, bufs := [], waiters := [], nextWait := 0, waitEv := []
    baskets := (basketsOf c pickups).map (fun n =>
      ⟨n, if n = 0 then pool - basketSum c pickups else basketMin c n, 0⟩) }

/-- A basket's record. -/
def MemState.basket (m : MemState) (n : Nat) : Basket := (m.baskets.find? (fun b => b.n == n)).getD ⟨n, 0, 0⟩

/-- The memory with one basket's record changed. -/
def MemState.updBasket (m : MemState) (n : Nat) (f : Basket → Basket) : MemState :=
  { m with baskets := m.baskets.map (fun b => if b.n = n then f b else b) }

/-- A basket is at its cap (R313). -/
def MemState.capped (m : MemState) (c : Cfg) (n : Nat) : Bool :=
  basketCap c n ≠ 0 && basketCap c n ≤ (m.basket n).held

/-- A reserve has a buffer to give: what a lowered minimum leaves above it is not drawn (R316).
Log 58 (DEDUCED). -/
def MemState.gives (m : MemState) (c : Cfg) (n : Nat) : Bool :=
  0 < (m.basket n).free && (n == 0 || (m.bufs.filter (fun b => b.home == n)).length < basketMin c n)

/-- The level and basket that the next buffer of a leaf comes from (R313), if any. -/
def MemState.source (m : MemState) (c : Cfg) (n : Nat) : Option (BufLevel × Nat) :=
  if m.capped c n then none
  else if m.gives c n then some (if n = 0 then .common else if n ≤ 6 then .region else .leaf, n)
  else if n ≥ 7 ∧ m.gives c (basketRegion c n) then some (.region, basketRegion c n)
  else if (m.basket 0).free > 0 then some (.common, 0)
  else none

/-- The lowest handle that names no buffer in use. The pool's free list is not described; which handle a draw gives
is the model's choice.
Log 12 (DESIGN CHOICE). -/
def freeHandle (bufs : List Buf) : Nat :=
  ((List.range (bufs.length + 1)).find? (fun h => !bufs.any (fun b => b.handle == h))).getD bufs.length

/-- One buffer drawn from a level for a requester. -/
def MemState.take (m : MemState) (n req : Nat) (lv : BufLevel) (home : Nat) : MemState :=
  let m := m.updBasket home (fun b => { b with free := b.free - 1 })
  let m := m.updBasket n (fun b => { b with held := b.held + 1 })
  { m with bufs := m.bufs ++ [⟨freeHandle m.bufs, n, lv, home, req, [], [], none⟩] }

/-- Up to `count` buffers drawn; what could not be drawn is returned. -/
def MemState.draw (c : Cfg) (n req : Nat) : Nat → MemState → Nat × MemState
  | 0, m => (0, m)
  | k + 1, m =>
    match m.source c n with
    | some (lv, home) => MemState.draw c n req k (m.take n req lv home)
    | none => (k + 1, m)

/-- The region that a basket belongs to, as sources number them (Table 21-3): the common basket counts as MR's. -/
def basketSrcRegion (c : Cfg) (n : Nat) : Nat := basketHome c n

/-- `EV_BUF_WAIT`, at most once per basket in each whole second of `TIME` (R315, R429). -/
def State.bufWaitEvent (s : State) (n : Nat) : State :=
  let last := (s.mem.waitEv.find? (fun e => e.1 == n)).map (fun e => e.2)
  match last with
  | some t => if s.time / 1000000 = t then s else go s
  | none => go s
where
  go (s : State) : State :=
    ({ s with mem := { s.mem with waitEv := (n, s.time / 1000000) :: s.mem.waitEv.filter (fun e => e.1 != n) } }).raise
      (srcRegion (basketSrcRegion s.bufCfg n) 7) .bufWait n 0 0

/-- A requester draws buffers from a basket; what it cannot draw it waits for (R314, R315). -/
def State.drawBufs (s : State) (n count req : Nat) : State :=
  let s := s.bufBoundary
  let r := MemState.draw s.bufCfg n req count s.mem
  if r.1 = 0 then { s with mem := r.2 }
  else
    let m := r.2
    State.bufWaitEvent
      { s with mem := { m with waiters := m.waiters ++ [⟨n, r.1, req, m.nextWait⟩], nextWait := m.nextWait + 1 } } n

/-- The handles a requester holds. -/
def State.bufsOf (s : State) (req : Nat) : List Nat :=
  (s.mem.bufs.filter (fun b => b.requester == req)).map (fun b => b.handle)

/-- A waiter ranks before another: the higher class, then the earlier request (R315). -/
def waiterBefore (c : Cfg) (a b : BufWaiter) : Bool :=
  let ca := basketClass c a.basket
  let cb := basketClass c b.basket
  decide (ca < cb) || (ca == cb && decide (a.order ≤ b.order))

/-- The best waiter of a list. -/
def bestWaiter (c : Cfg) : List BufWaiter → Option BufWaiter
  | [] => none
  | w :: ws =>
    match bestWaiter c ws with
    | some v => if waiterBefore c w v then some w else some v
    | none => some w

/-- The reserve of a basket, whatever part of it is drawn. -/
def MemState.reserve (m : MemState) (n : Nat) : Nat :=
  (m.basket n).free + (m.bufs.filter (fun b => b.home == n)).length

/-- A basket below its raised minimum (R316), the lowest-numbered first. -/
def MemState.wanting (m : MemState) (c : Cfg) : Option Nat :=
  (m.baskets.map (fun b => b.n)).find? (fun n => n ≠ 0 && m.reserve n < basketMin c n)

/-- Waiters that a buffer returning to a level can go to (R315): the leaf's own; those that fall back to the region; all. -/
def waitersOn (c : Cfg) (lv : BufLevel) (home : Nat) (m : MemState) : List BufWaiter :=
  m.waiters.filter (fun w => !m.capped c w.basket && m.gives c home &&
    (match lv with
     | .leaf => w.basket == home
     | .region => w.basket == home || (w.basket ≥ 7 && basketRegion c w.basket == home)
     | .common => true))

/-- One waiter receives one buffer; it leaves the list when it has all. -/
def MemState.serveWaiter (m : MemState) (w : BufWaiter) (lv : BufLevel) (home : Nat) : MemState :=
  let m := { m with waiters :=
    (m.waiters.map (fun v => if v == w then { v with count := v.count - 1 } else v)).filter (fun v => v.count > 0) }
  m.take w.basket w.requester lv home

/-- A buffer returned to the level it was drawn from (R313), then to a raised minimum (R316) or a waiter (R315). -/
def MemState.giveBack (m : MemState) (c : Cfg) (h : Nat) : MemState :=
  match m.bufs.find? (fun b => b.handle == h) with
  | none => m
  | some b =>
    let m := { m with bufs := m.bufs.filter (fun x => x.handle != h) }
    let m := m.updBasket b.basket (fun x => { x with held := x.held - 1 })
    let m := m.updBasket b.home (fun x => { x with free := x.free + 1 })
    match (if b.home = 0 then m.wanting c else none) with
    | some n => (m.updBasket 0 (fun x => { x with free := x.free - 1 })).updBasket n (fun x => { x with free := x.free + 1 })
    | none =>
      match bestWaiter c (waitersOn c b.level b.home m) with
      | some w => m.serveWaiter w b.level b.home
      | none => m

/-- Buffers freed. -/
def State.returnBufs (s : State) (hs : List Nat) : State :=
  let s := s.bufBoundary
  { s with mem := hs.foldl (fun m h => m.giveBack s.bufCfg h) s.mem }

/-- Everything a requester holds or waits for is given up. -/
def State.dropRequester (s : State) (req : Nat) : State :=
  let hs := s.bufsOf req
  ({ s with mem := { s.mem with waiters := s.mem.waiters.filter (fun w => w.requester != req) } }).returnBufs hs

/-- The basket whose class and region a requester uses: the lowest-numbered leaf of that class and region, else the
lowest of that class, else the default leaf.
Log 12 (DESIGN CHOICE). -/
def leafFor (c : Cfg) (cls region : Nat) : Nat :=
  let ls := (List.range 256).drop 7
  match ls.find? (fun n => basketClass c n == cls && basketRegion c n == region) with
  | some n => n
  | none => (ls.find? (fun n => basketClass c n == cls)).getD (if cls = 3 then 13 else if cls = 2 then 8 + region else 7 + cls)

/-- The STAGE leaf of HR. -/
def State.stageBasket (s : State) : Nat := leafFor s.bufCfg 3 5

/-- The READ leaf of a bay's region. -/
def State.readBasket (s : State) (b : BayId) : Nat := leafFor s.bufCfg 2 (1 + regionOf b)

/-- Block checks (R311, R312): CRC-32 with the parameters of Table 01-7. -/
def blockChecks (blocks : List Bytes) : List (BitVec 32) := blocks.map recCrc

/-- A buffer takes its blocks and their checks as data enters it (R312). -/
def State.fillBuf (s : State) (h : Nat) (blocks : List Bytes) : State :=
  { s with mem := { s.mem with bufs := s.mem.bufs.map (fun b =>
      if b.handle == h then { b with blocks := blocks, checks := blockChecks blocks } else b) } }

/-- The buffer of a handle. -/
def State.buf? (s : State) (h : Nat) : Option Buf := s.mem.bufs.find? (fun b => b.handle == h)

/-- A block of a buffer whose check agrees (R312). -/
def Buf.good (b : Buf) (i : Nat) : Bool :=
  match b.blocks[i]?, b.checks[i]? with
  | some v, some k => recCrc v == k
  | _, _ => false

/-! ### Corrected and uncorrectable errors, remaps (R305, R306, R310) -/

/-- A count raised for a partition and channel. -/
def bumpCount (l : List CeCount) (p : Partition) (ch : Nat) : List CeCount :=
  match l.find? (fun c => c.part == p && c.ch == ch) with
  | some c => { c with count := c.count + 1 } :: l.filter (fun x => !(x.part == p && x.ch == ch))
  | none => ⟨p, ch, 1⟩ :: l

/-- Partitions in DDR5. -/
def partInDdr : Partition → Bool
  | .sramKeep | .sramPass | .sramBare => false
  | _ => true

/-- Partitions of Keep or Pass code (Table 14-2); the diagnostic one by its field (0 `KEEP`, 1 `PASS`, 2 `BARE`). -/
def partRemappable (p : Partition) (diagCode : Nat) : Bool :=
  match p with
  | .capture => false
  | .diag => diagCode ≠ 2
  | p => partInDdr p

/-- Partition numbers that events carry: the row order of Table 14-2. -/
def partNum : Partition → Nat
  | .firmware => 0
  | .contexts => 1
  | .engine => 2
  | .journal => 3
  | .extentMaps => 4
  | .buffers => 5
  | .soft => 6
  | .writeStore => 7
  | .capture => 8
  | .diag => 9
  | .remap => 10
  | .sramKeep => 11
  | .sramPass => 12
  | .sramBare => 13

/-- Where a partition starts: the fixed ones in the row order of Table 14-2, the pool behind them.
Log 39 (DESIGN CHOICE). -/
def State.partBase (s : State) (p : Partition) : Nat :=
  let c := s.cfg.boot
  let n := partPickups s.trust.shadow.part
  let mib := 2 ^ 20
  let journal := 400 * mib
  let maps := journal + c.nat .memPartJournalMib * mib
  let soft := maps + 16 * c.nat .hamperMapMaxExtents * 32
  let write := soft + c.nat .eccSoftDepthSectors * 5 * mib * n
  let capture := write + c.nat .memWstoreSlots * 320 * 1024 * n
  let diag := capture + c.nat .memPartCaptureMib * mib
  let remap := diag + c.nat .memPartDiagMib * mib
  match p with
  | .firmware => 0
  | .contexts => 256 * mib
  | .engine => 384 * mib
  | .journal => journal
  | .extentMaps => maps
  | .soft => soft
  | .writeStore => write
  | .capture => capture
  | .diag => diag
  | .remap => remap
  | .buffers => remap + 32 * mib * s.mem.channels.length
  | .sramKeep => 0
  | .sramPass => 0
  | .sramBare => 0

/-- The 4 KiB range within its channel that an address of a partition lies in; addresses are interleaved across the channels in use in
256-byte units (R302). An SRAM row is 4 KiB of its partition. -/
def State.rangeOf (s : State) (p : Partition) (addr : Nat) : Nat :=
  if partInDdr p then (s.partBase p + addr) / (256 * max 1 s.mem.channels.length) * 256 / 4096 % 2 ^ 24 else addr / 4096

/-- The lowest remap unit of a channel that is not in use.
Log 12 (DESIGN CHOICE). -/
def MemState.freeUnit (m : MemState) (ch : Nat) : Option Nat :=
  (List.range 8192).find? (fun u => !m.remaps.any (fun r => r.ch == ch && r.dest == u))

/-- A 4 KiB range redirected to a free unit of its channel's remap region (R306), and copied into the always-on store (R349), or
`EV_MEM_REMAP_FULL` once. -/
def State.remap (s : State) (p : Partition) (ch addr : Nat) : State :=
  let u := s.rangeOf p addr
  if !partRemappable p (s.bootN .memPartDiagCode) then s
  else if s.mem.remaps.any (fun r => r.ch == ch && r.unit == u) then s
  else
    match s.mem.freeUnit ch with
    | none =>
      if s.mem.fullCh.contains ch then s
      else ({ s with mem := { s.mem with fullCh := ch :: s.mem.fullCh } }).raise (srcRegion 5 6) .memRemapFull ch 0 0
    | some d =>
      let s : State := { s with mem := { s.mem with
        remaps := s.mem.remaps ++ [⟨ch, u, d⟩]
        aonRemaps := if s.chip.power.aonOk then s.mem.aonRemaps ++ [⟨ch, u, d⟩] else s.mem.aonRemaps } }
      s.raise (srcRegion 5 6) .memRemap (partNum p) ch addr

/-- A corrected error: written back, counted, and the range remapped once `mem.remap.ce_count` fall within
`mem.remap.window_s` (R305, R306). -/
def State.corrected (s : State) (p : Partition) (ch addr : Nat) : State :=
  let u := s.rangeOf p addr
  let now := s.us
  let win := 1000000 * s.liveN .memRemapWindowS
  let old := (s.mem.ranges.find? (fun r => r.part == p && r.ch == ch && r.unit == u)).getD ⟨p, ch, u, []⟩
  let times := now :: old.times.filter (fun t => now < t + win)
  let rest := s.mem.ranges.filter (fun r => !(r.part == p && r.ch == ch && r.unit == u))
  let s := { s with mem := { s.mem with ce := bumpCount s.mem.ce p ch, ranges := ⟨p, ch, u, times⟩ :: rest } }
  if times.length ≥ s.liveN .memRemapCeCount then s.remap p ch addr else s

/-! ### Merge buffers (R307, R308) -/

/-- The codeword address of a byte. -/
def codewordOf (addr : Nat) : Nat := addr / 64 * 64

/-- Bytes merged into an entry from its offset on. -/
def MergeEntry.merge (e : MergeEntry) (off : Nat) (data : Bytes) : MergeEntry :=
  let d := data.take (64 - off)
  { e with data := putAt e.data off d,
           mask := e.mask.take off ++ List.replicate d.length true ++ e.mask.drop (off + d.length) }

/-- An entry with a full mask. -/
def MergeEntry.isFull (e : MergeEntry) : Bool := e.mask.all id

/-- The codeword after a merge: the entry's bytes over the memory's. -/
def mergeBytes : List Bool → Bytes → Bytes → Bytes
  | m :: ms, d :: ds, o :: os => (if m then d else o) :: mergeBytes ms ds os
  | _, _, _ => []

/-- Memory with an entry written: full without a read, partial after read and merge; a codeword whose read was
uncorrectable, or is poisoned, takes the entry's bytes and a poison pattern (R308). -/
def MemState.retire (m : MemState) (e : MergeEntry) (bad : Bool) : MemState :=
  let key := (e.ch, e.addr)
  let rest := m.merge.filter (fun x => !(x.ch == e.ch && x.addr == e.addr))
  let old := m.codeword e.ch e.addr
  let new := mergeBytes e.mask e.data old
  let poison :=
    if e.isFull then m.poison.filter (fun k => k != key)
    else if bad ∧ !m.poison.contains key then key :: m.poison
    else m.poison
  { m with merge := rest, poison := poison,
           ddr := Memory.writeBytes ddrDefault m.ddr (ddrAddr e.ch e.addr) new }

/-- The oldest entry of a channel. -/
def oldestEntry : List MergeEntry → Option MergeEntry
  | [] => none
  | e :: es =>
    match oldestEntry es with
    | some x => if x.since < e.since then some x else some e
    | none => some e

/-- A narrow write taken by a merge buffer with a free entry or the right one (R307). -/
def MemState.mergeInto (m : MemState) (now ch addr : Nat) (data : Bytes) : MemState :=
  let cw := codewordOf addr
  match m.merge.find? (fun e => e.ch == ch && e.addr == cw) with
  | some e =>
    let e' := e.merge (addr - cw) data
    if e'.isFull then m.retire e' false
    else { m with merge := m.merge.map (fun x => if x.ch == ch && x.addr == cw then e' else x) }
  | none =>
    let e' := (MergeEntry.mk ch cw (zeros 64) (List.replicate 64 false) now).merge (addr - cw) data
    if e'.isFull then m.retire e' false else { m with merge := m.merge ++ [e'] }

/-- Entries of a channel's merge buffer. -/
def MemState.mergeCount (m : MemState) (ch : Nat) : Nat := (m.merge.filter (fun e => e.ch == ch)).length

/-- A narrow write waits while all 64 entries are busy; otherwise it merges (R307). -/
def MemState.narrowWrite (m : MemState) (now ch addr : Nat) (data : Bytes) : MemState :=
  let cw := codewordOf addr
  if data.length < 64 ∧ m.mergeCount ch ≥ 64 ∧ !m.merge.any (fun e => e.ch == ch && e.addr == cw) then
    { m with mergeQ := m.mergeQ ++ [⟨ch, addr, data⟩] }
  else m.mergeInto now ch addr data

/-- The oldest narrow write waiting on a channel is taken once an entry is free. -/
def MemState.wakeMerge (m : MemState) (now ch : Nat) : MemState :=
  match m.mergeQ.find? (fun w => w.ch == ch) with
  | some w =>
    if m.mergeCount ch < 64 then
      ({ m with mergeQ := m.mergeQ.erase w }).mergeInto now ch w.addr w.data
    else m
  | none => m

end Sys2Proof.Machine
end

