-- ==== Sys2Proof/Machine/Blocks.lean ====
section
/-! DEFINITION. Blocks, spares and regions (18_hierarchy_errors.md): which block serves an instance, fencing, what a
region still has, degraded and lost regions. -/

namespace Sys2Proof.Machine

/-- Active instances of a block kind in a region (Tables 18-3, 00-4 and 08-1; R123, R127, R250, R378). -/
def kindActive (k : Nat) : Nat :=
  if k = 0 then 16 else if k = 1 then 8 else if k = 2 then 16 else if k = 3 then 24 else if k = 4 then 1
  else if k = 5 then 6 else if k = 6 then 4 else if k = 7 then 4 else if k = 11 then 8 else 1

/-- Spare instances of a block kind in a region (Table 18-3); they follow the active ones. -/
def kindSpares (k : Nat) : Nat :=
  if k = 2 then 1 else if k = 3 then 2 else if 4 ≤ k ∧ k ≤ 7 then 1 else 0

/-- Instances of a kind in a region: of kind 14 the switch and the links behind it (Table 18-3). -/
def kindCount (k : Nat) : Nat := if k = 14 then 9 else kindActive k + kindSpares k

/-- The state of a block that the state does not list. -/
def blkDefault (id : BlockId) : Blk :=
  ⟨id, if id.inst < kindActive id.kind || id.kind == 14 then .active else .spare, none, false⟩

/-- A block's state. -/
def State.blkOf (s : State) (id : BlockId) : Blk := (s.blk.blks.find? (fun x => x.id == id)).getD (blkDefault id)

/-- The state with one block set. -/
def State.setBlk (s : State) (b : Blk) : State :=
  { s with blk := { s.blk with blks := b :: s.blk.blks.filter (fun x => x.id != b.id) } }

/-- A block can work. -/
def Blk.up (b : Blk) : Bool := b.st != .failed

/-- The block that serves an active instance: itself, or the spare that stands in for it. -/
def State.server (s : State) (k r i : Nat) : Option Nat :=
  if (s.blkOf ⟨k, r, i⟩).up then some i
  else
    ((List.range (kindSpares k)).map (fun j => kindActive k + j)).find? (fun j =>
      let b := s.blkOf ⟨k, r, j⟩
      b.serves == some i && b.up)

/-- An active instance is served by itself or a spare. -/
def State.served (s : State) (k r i : Nat) : Bool := (s.server k r i).isSome

/-- A spare that can take over (Table 18-3): in the spare state and not in use, the lowest first.
Log 12 (DESIGN CHOICE). -/
def State.freeSpare (s : State) (k r : Nat) : Option Nat :=
  ((List.range (kindSpares k)).map (fun j => kindActive k + j)).find? (fun j =>
    let b := s.blkOf ⟨k, r, j⟩
    b.st == .spare && b.serves.isNone && b.up)

/-- Instances of a kind that are served. -/
def State.working (s : State) (k r : Nat) : Nat :=
  ((List.range (kindActive k)).filter (fun i => s.served k r i)).length

/-- The bays of a region. -/
def regionBays (r : Nat) : List BayId := (List.range 8).map (fun i => Fin.ofNat 32 (8 * r + i))

/-- N of R123: the decoders that the first-pass bound needs at an iteration limit. -/
def decodersNeeded (maxIter : Nat) : Nat := (2560 * (96 * maxIter + 32) + 614399) / 614400

/-- The iteration limit a region decodes with: pickups take the field at their own boundaries (R121), and the largest in force counts. -/
def State.regionIter (s : State) (r : Nat) : Nat :=
  ((regionBays r).flatMap (fun b => [s.bndN (.pickup b .A) .eccLdpcMaxIter, s.bndN (.pickup b .B) .eccLdpcMaxIter])).foldl max 0

/-- D, N and P of R381 for a bay region.
Log 49 (DEDUCED). -/
def State.admissionOf (s : State) (r : Nat) : Nat × Nat × Nat :=
  let d := s.working 3 r
  let n := max 1 (decodersNeeded (s.regionIter r))
  (d, n, 16 * d / n)

/-- A pickup of a region short of decoders that holds no admission rests (R381, R149). -/
def State.mustRest (s : State) (b : BayId) (p : Pu) : Bool :=
  let (d, n, _) := s.admissionOf (regionOf b)
  d < n && !s.blk.admitted.contains (b, p)

/-- The region number of a region-wide source or event. -/
def State.regionEvent (s : State) (r src : Nat) (e : Ev) (p0 p1 p2 : Nat) : State := s.raise (srcRegion r src) e p0 p1 p2

/-- The source of a block kind's events within its region (Table 21-3). -/
def kindSource (k : Nat) : Nat :=
  if k = 2 then 1 else if k = 3 then 2 else if k = 4 then 3 else if k = 5 then 4 else if k = 6 then 8
  else if k = 7 then 9 else if 8 ≤ k then 11 else 0

/-- A block is fenced (R375): failed, and out of service until the next system or power-on reset. `EV_BLOCK_FENCED`
names the kind and instance. A takeover that the block was to carry out ends (R379). -/
def State.fence (s : State) (id : BlockId) : State :=
  let b := s.blkOf id
  let s : State := { s with blk := { s.blk with
    takeovers := s.blk.takeovers.filter (fun t => !(t.kind == id.kind && t.region == id.region && b.serves == some t.inst)) } }
  (s.setBlk { b with st := .failed, serves := none }).regionEvent id.region 0 .blockFenced id.kind id.inst 0

/-- A region becomes degraded (R381). -/
def State.degrade (s : State) (r : Nat) : State :=
  if s.blk.degraded.contains r then s
  else ({ s with blk := { s.blk with degraded := r :: s.blk.degraded } }).regionEvent r 0 .regionDegraded r 0 0

/-- A free spare is claimed for a fenced instance: it serves from the takeover on. Without one the region is degraded. -/
def State.claimSpare (s : State) (id : BlockId) : Option Nat × State :=
  match s.freeSpare id.kind id.region with
  | some j =>
    let b := s.blkOf ⟨id.kind, id.region, j⟩
    (some j, s.setBlk { b with st := .active, serves := some id.inst })
  | none => (none, s.degrade id.region)

/-- Region control asks the island to hold a bay safe over its dedicated line (R382). -/
def State.askHold (s : State) (b : BayId) : State :=
  if s.blk.holdReq.contains b then s else { s with blk := { s.blk with holdReq := b :: s.blk.holdReq } }

/-- A bay's detector: detector 2(b mod 8) + p of its region serves the pickup (R98). -/
def portInst (b : BayId) (p : Pu) : Nat := 2 * (b.val % 8) + p.idx

/-- The pickup's detector is served. -/
def State.detectorUp (s : State) (b : BayId) (p : Pu) : Bool := s.served 2 (regionOf b) (portInst b p)

/-- The region has an encoder in service (R457). -/
def State.encoderUp (s : State) (b : BayId) : Bool := s.served 4 (regionOf b) 0

/-- The fabric port or the region control of the region still works (R381).
Log 43 (DEDUCED). -/
def State.regionUp (s : State) (r : Nat) : Bool := !s.blk.lost.contains r

end Sys2Proof.Machine
end

