-- ==== Sys2Proof/Machine/CmdOps.lean ====
section
/-! DEFINITION. Command contexts (12_host_rings.md, 13_command_semantics.md): lookup, fences, finishing, the fields of
an entry. -/

namespace Sys2Proof.Machine

/-! ### Fields of a submission entry (Table 12-6) -/

/-- `OPC`. -/
def Cmd.opc (c : Cmd) : Nat := byteAt c.entry 0
/-- `FENCE`. -/
def Cmd.fence (c : Cmd) : Bool := byteAt c.entry 1 / 64 % 2 == 1
/-- `NBLK`. -/
def Cmd.nblk (c : Cmd) : Nat := leAt c.entry 4 4
/-- `HID`. -/
def Cmd.hid (c : Cmd) : Nat := leAt c.entry 8 8
/-- `LBA`. -/
def Cmd.lba (c : Cmd) : Nat := leAt c.entry 16 8
/-- Byte i of the entry. -/
def Cmd.b (c : Cmd) (i : Nat) : Nat := byteAt c.entry i

/-- A fresh context. -/
def Cmd.fresh (f : FnId) (sr : Nat) (tag : BitVec 6) (order : Nat) (entry : Bytes) (pieces : List (Nat × Nat)) : Cmd :=
  { fn := f, sr := sr, tag := tag, order := order, entry := entry, since := 0, pieces := pieces, phase := .waiting, ordinal := 0,
    slot := none, target := [], bound := none, silent := false, status := .success, result := 0, zero := false,
    applied := false, staged := false, todo := [], rebuilt := 0, failed := [], buffers := [] }

/-! ### Contexts -/

/-- The command outstanding in a ring with a tag (R268). -/
def State.cmdLive? (s : State) (f : FnId) (sr : Nat) (tag : BitVec 6) : Option Cmd :=
  s.host.cmds.find? (fun c => c.fn == f && c.sr == sr && c.tag == tag && !c.silent)

/-- The command that a row about a ring and tag means: the outstanding one, else one that runs on after a function reset
(R276). -/
def State.cmd? (s : State) (f : FnId) (sr : Nat) (tag : BitVec 6) : Option Cmd :=
  match s.cmdLive? f sr tag with
  | some c => some c
  | none => s.host.cmds.find? (fun c => c.fn == f && c.sr == sr && c.tag == tag)

/-- The command with a fetch order. -/
def State.cmdAt (s : State) (order : Nat) : Option Cmd := s.host.cmds.find? (fun c => c.order == order)

/-- The state with one command changed. -/
def State.updCmd (s : State) (order : Nat) (g : Cmd → Cmd) : State :=
  { s with host := { s.host with cmds := s.host.cmds.map (fun c => if c.order == order then g c else c) } }

/-- A command finishes: its status and result are fixed for the posting. Finished commands stand in the order in which
they finished (R288). -/
def State.finish (s : State) (order : Nat) (st : Status) (result : Nat) : State :=
  match s.cmdAt order with
  | none => s
  | some c =>
    if c.phase == .done then s
    else if c.silent then
      -- its function was reset: it ends without a completion (R276)
      let s := { s with host := { s.host with cmds := s.host.cmds.filter (fun x => x.order != order) } }
      if c.opc == 0x11 then s else s.dropRequester order
    else
      let c' := { c with phase := .done, status := st, result := result }
      { s with host := { s.host with cmds := s.host.cmds.filter (fun x => x.order != order) ++ [c'] } }

/-- A command finishes with `APPLIED` as given. -/
def State.finishApplied (s : State) (order : Nat) (st : Status) (result : Nat) (a : Bool) : State :=
  (s.finish order st result).updCmd order (fun c => { c with applied := a })

/-- Commands of a ring fetched earlier and not yet completed. -/
def State.earlier (s : State) (c : Cmd) : List Cmd :=
  s.host.cmds.filter (fun x => x.fn == c.fn && x.sr == c.sr && x.order < c.order && x.silent == c.silent)

/-- Fences let a command start (R287): a fenced command after every earlier one of its ring, any command after every
earlier fenced one; `ABORT` always. -/
def State.fenceOpen (s : State) (c : Cmd) : Bool :=
  c.opc == 0x21 || ((s.earlier c).all (fun x => !x.fence) && (!c.fence || (s.earlier c).isEmpty))

/-- The queue engine runs: out of reset and with its cores (R277). -/
def State.queueUp (s : State) : Bool := !s.coresHeld && s.chip.fatal.isNone && s.chip.up.cores

/-- A function's commands may act: Bus Master Enable is set (R276), or the function has been reset and they run to
their end silently. -/
def State.fnMoves (s : State) (c : Cmd) : Bool :=
  c.silent || (match s.fn? c.fn with
    | some x => x.bme
    | none => false)

/-- A command may begin to act now. -/
def State.startable (s : State) (c : Cmd) : Bool :=
  s.queueUp && s.fnMoves c && s.fenceOpen c &&
    (match c.phase with
     | .waiting => true
     | .held _ => true
     | _ => false)

/-- The outstanding command of opcode `opc` that may begin to act now.
Log 14 (DEDUCED). -/
def State.ready? (s : State) (opc : Nat) (f : FnId) (sr : Nat) (tag : BitVec 6) : Option Cmd :=
  match s.cmd? f sr tag with
  | some c => if c.opc == opc && s.startable c then some c else none
  | none => none

/-- A command begins to act.
Log 14 (DEDUCED). -/
def State.start (s : State) (c : Cmd) : State := s.updCmd c.order (fun c => { c with phase := .started })

/-- Hold a command from now on, unless it is held already (R273).
Log 14 (DEDUCED). -/
def State.hold (s : State) (c : Cmd) : State :=
  match c.phase with
  | .held _ => s
  | _ => s.updCmd c.order (fun c => { c with phase := .held s.us })

/-- Data of a command written to host memory: block i of its buffer, cut at the pieces of the scatter list (R272). -/
def hostPieces : List (Nat × Nat) → Nat → Bytes → List (Nat × Bytes)
  | [], _, _ => []
  | (a, n) :: ps, off, d =>
    if d.isEmpty then []
    else if off ≥ n then hostPieces ps (off - n) d
    else
      let k := n - off
      (a + off, d.take k) :: hostPieces ps 0 (d.drop k)

/-- Write data at an offset of a command's buffer, unless its function was reset (R276). -/
def State.hostWrite (s : State) (c : Cmd) (off : Nat) (d : Bytes) : State :=
  if c.silent then s
  else (hostPieces c.pieces off d).foldl (fun s e => s.emit (.hostData c.fn e.1 e.2)) s

end Sys2Proof.Machine
end

