-- ==== Sys2Proof/Machine/Disc.lean ====
section
/-! DEFINITION. The disc: geometry, sector layout, wedge addresses, identity and sector metadata (01_disc_format.md,
Table 05-3). -/

namespace Sys2Proof.Machine

/-! ### Geometry (section Physical addresses; lengths in 10 nm units) -/

/-- K in units of (10 nm)²: the area swept per frame divided by π. -/
def areaPerFrame : Nat := 9575087

/-- R1, the start of the data zone: 24.000 mm. -/
def radiusR1 : Nat := 2400000

/-- R0, the start of the lead-in zone: 22.000 mm. -/
def radiusR0 : Nat := 2200000

/-- The swath pitch p, 2.55 µm. -/
def swathPitch : Nat := 255

/-- Frames of a lead-in zone. -/
def leadInFrames : Nat := 96080

/-- Frames of a data zone (R28: the lead-out begins there). -/
def dataFrames : Nat := 2910720

/-- The radius of the inner servo groove at the start of a frame (R33). -/
def radiusOf (z : Zone) (f : Nat) : Nat :=
  match z with
  | .data => Nat.sqrt (radiusR1 * radiusR1 + areaPerFrame * f)
  | .leadIn => Nat.sqrt (radiusR1 * radiusR1 - areaPerFrame * (leadInFrames - f))

/-- The zone of a radius: the border lies at 24.000 mm (R18). -/
def zoneAt (r : Nat) : Zone := if r < radiusR1 then .leadIn else .data

/-- The outermost radius with wedges that a pickup can be positioned by, 58.300 mm (R28). -/
def radiusEnd : Nat := 5830000

/-- The turn number of a frame (R33). -/
def turnOf (z : Zone) (f : Nat) : Nat :=
  match z with
  | .data => (radiusOf z f - radiusR1) / swathPitch
  | .leadIn => (radiusOf z f - radiusR0) / swathPitch

/-- The lowest frame of a zone at or beyond a radius: r² = R1² ± K·f solved for f. -/
def frameAt (z : Zone) (r : Nat) : Nat :=
  match z with
  | .data => (r * r - radiusR1 * radiusR1 + areaPerFrame - 1) / areaPerFrame
  | .leadIn => leadInFrames - (radiusR1 * radiusR1 - r * r) / areaPerFrame

/-- Frames per turn at a radius, times 1,000: N = 2π r / 1.179648 mm (R128), with 2π = 6.283185307. -/
def framesPerTurnMilli (r : Nat) : Nat := r * 6283185307 / (117964800 * 1000)

/-- The frame time of a zone in microseconds (R34). -/
def frameUs (z : Zone) : Nat :=
  match z with
  | .data => 64
  | .leadIn => 128

/-- The rpm that a zone calls for at a radius in 10 nm. -/
def rpmFor (z : Zone) (radius : Nat) : Int := (match z with
  | .data => (176013 : Int)
  | .leadIn => 88006) * 100000 * 65536 / max 1 radius

/-- The nominal period of a zone: one sample per channel bit, two in the lead-in zone. -/
def nominalPeriod : Zone → Int
  | .data => 2 ^ 32
  | .leadIn => 2 ^ 33

/-! ### Sector layout -/

/-- The physical sector of user sector u of a layer (R26). -/
def userSector (u : Nat) : Nat := 1280 + 9056 * (u / 8960) + u % 8960

/-- The user sector of a physical sector, if it is one. -/
def userOfSector (p : Nat) : Option Nat :=
  if p < 1280 ∨ 580864 ≤ p then none
  else
    let z := (p - 1280) / 9056
    let k := (p - 1280) % 9056
    if k < 8960 then some (8960 * z + k) else none

/-- The zone z of a user or spare sector (Table 01-5). -/
def zoneOfSector (p : Nat) : Nat := (p - 1280) / 9056

/-- The 96 spares of zone z (Table 01-5). -/
def sparesOfZone (z : Nat) : List Nat := (List.range 96).map (fun i => 1280 + 9056 * z + 8960 + i)

/-- Zones in the order R27 tries them from z: itself, then z + 1 before z − 1, and so on outward. -/
def zonesFrom (z : Nat) : List Nat :=
  z :: (List.range 64).flatMap (fun d =>
    (if z + d + 1 < 64 then [z + d + 1] else []) ++ (if d + 1 ≤ z then [z - (d + 1)] else []))

/-- The first frame of a sector (R24). -/
def SecAddr.frame (a : SecAddr) : Nat := 5 * a.sector

/-- Where row r of a member lies (R228): its surface and its sector. -/
def rowSurface (r : Nat) : Pu := if r % 2 = 0 then .A else .B

/-- The sector of row r (R228, R26). -/
def rowSector (r : Nat) : SecAddr := ⟨r / 1146880, .data, userSector (r % 1146880 / 2)⟩

/-- The rows of a member (R228). -/
def memberRows : Nat := 13762560

/-- The sector of a management row q (R242): layer, band, place in the band, with its surface. -/
def mgmtSurface (q : Nat) : Pu := if q % 4096 % 2 = 0 then .A else .B

/-- The sector of a management row (R242). -/
def mgmtSector (q : Nat) : SecAddr :=
  let w := q % 4096
  let i := w % 2048 / 2
  ⟨q / 4096, .data, if w / 2048 = 0 then 256 + i else 581120 + i⟩

/-! ### Wedge addresses -/

/-- A decoded wedge payload (Table 01-4). -/
structure WedgeAddr where
  addr : FrameAddr
  turn : Nat
  ver  : Nat
  tag  : Nat
  deriving DecidableEq, Repr

/-- The payload of a decoded wedge: the reserved fields are 0 and the layer is 11 or less (R22, without its tag test). -/
def wedgeParse (bs : Bytes) : Option WedgeAddr :=
  let b0 := byteAt bs 0
  let turn := beNat (slice bs 1 2)
  let frame := beNat (slice bs 3 3)
  let b6 := byteAt bs 6
  let layer := b0 / 8 % 16
  if b0 % 4 ≠ 0 ∨ layer > 11 ∨ turn ≥ 2 ^ 14 ∨ frame ≥ 2 ^ 22 ∨ b6 % 16 ≠ 0 then none
  else
    some ⟨⟨if b0 ≥ 128 then .B else .A, layer, if b0 / 4 % 2 = 1 then .leadIn else .data, frame⟩, turn, b6 / 16,
      beNat (slice bs 7 3)⟩

/-- The 18 bytes of a wedge, decoded with erasures (R21). -/
def wedgeDecode (word : Bytes) (era : List Nat) : Option WedgeAddr :=
  match gf8.rsDecode 8 (word.map (fun b => b.toNat)) era with
  | some w => wedgeParse ((w.take 10).map (fun n => BitVec.ofNat 8 n))
  | none => none

/-- Two turn numbers agree within 1 (R33). -/
def turnAgrees (a : FrameAddr) (turn : Nat) : Bool :=
  let t := turnOf a.zone a.frame
  t ≤ turn + 1 && turn ≤ t + 1

/-! ### Identity and metadata -/

/-- An identity copy whose CRC-32 verifies (R32, Table 01-7). -/
def identityGood (bs : Bytes) : Bool := recordGood 4096 (bs.take 4096)

/-- The disc serial of an identity. -/
def identitySerial (bs : Bytes) : Bytes := slice bs 8 16

/-- The serial tag that wedges carry: bits [23:0] of the little-endian serial (Tables 01-4 and 01-7). -/
def serialTag (serial : Bytes) : Nat := leAt serial 0 3

/-- The fields of sector metadata that its builder chooses (Table 05-3). -/
structure MetaIn where
  kind    : Nat
  reloc   : Option (Pu × SecAddr)
  hid     : Nat
  member  : Nat
  k       : Nat
  m       : Nat
  writer  : Pu
  row     : Nat
  seq     : Nat
  first   : Nat
  mask    : Nat
  retired : Nat
  time    : Nat
  commit  : Bytes
  deriving DecidableEq, Repr

/-- The 512 metadata bytes of a sector with user payload `body` (Table 05-3, R107, R108). -/
def metaBytes (x : MetaIn) (body : Bytes) : Bytes :=
  let home := match x.reloc with
    | some (s, a) => a.sector % 2 ^ 20 + 2 ^ 20 * (a.layer % 16) + 2 ^ 24 * s.idx
    | none => 0
  sealRecord 512
    (ascii "YSM1" ++ leBytes 2 1 ++ leBytes 1 x.kind ++ leBytes 1 (if x.reloc.isSome then 1 else 0)
      ++ leBytes 8 x.hid ++ leBytes 1 x.member ++ leBytes 1 x.k ++ leBytes 1 x.m ++ leBytes 1 (128 * x.writer.idx)
      ++ leBytes 4 x.row ++ leBytes 8 x.seq ++ leBytes 8 x.first ++ leBytes 8 x.mask
      ++ leBytes 8 (dataCheck body).toNat ++ leBytes 4 x.retired ++ leBytes 4 home ++ leBytes 8 x.time
      ++ padTo 256 x.commit)

/-- The metadata magic and check word verify (R114). -/
def metaGood (p : Bytes) : Bool := slice p 0 4 == ascii "YSM1" && recordGood 512 (p.take 512)

/-- The data check over the user payload equals its field (R114). -/
def dataGood (p : Bytes) : Bool := leAt p 48 8 == (dataCheck (p.drop 512)).toNat

/-- A payload of metadata and user bytes, 262,656 in all (R106). -/
def payloadOf (x : MetaIn) (body : Bytes) : Bytes :=
  let b := padTo 262144 body
  metaBytes x b ++ b

end Sys2Proof.Machine
end

