-- ==== Sys2Proof/Machine/SectorCode.lean ====
section
/-! DEFINITION. The sector code: placement, randomizer, LDPC and outer code, forward and backward (R101 to R113, R118). -/

namespace Sys2Proof.Machine

/-! ### Placement and randomizer -/

/-- The index of codeword j of track i (R101). -/
def cwIndex (i j : Nat) : Nat := 10 * i + j

/-- The RS position of a codeword index (R105): data ordinals first, then the parity codewords by track. -/
def rsPos (cw : Nat) : Nat := if cw % 10 = 9 then 144 + cw / 10 else 9 * (cw / 10) + cw % 10

/-- The codeword index at an RS position. -/
def cwOfPos (p : Nat) : Nat := if p < 144 then 10 * (p / 9) + p % 9 else 10 * (p - 144) + 9

/-- The codeword j of a track and its bit b at track position q (R102). -/
def bitAtPos (q : Nat) : Nat × Nat := (((q % 10) + 10 - (q / 10) % 10) % 10, q / 10)

/-- The track position of bit b of codeword j (R102). -/
def posOfBit (j b : Nat) : Nat := 10 * b + (j + b) % 10

/-- `n` randomizer bits from a 31-bit history whose bit k − 1 is u(−k) (R103). -/
def randBits : Nat → Nat → List Bool
  | 0, _ => []
  | n + 1, h =>
    let u := h.testBit 30 != h.testBit 27
    u :: randBits n ((2 * h + u.toNat) % 2 ^ 31)

/-- The seed of a track of a sector (R103). -/
def randSeed (p : Pu) (a : SecAddr) (track : Nat) : Nat :=
  2 ^ 30 + (if a.zone = .leadIn then 2 ^ 29 else 0) + p.idx * 2 ^ 28 + a.layer * 2 ^ 24 + track * 2 ^ 20 + a.sector

/-! ### The inner code -/

/-- The non-empty block rows of an information block column with their exponents (Table 05-2). -/
def ldpcInfo (c : Nat) : List (Nat × Nat) :=
  [c % 11, (c + 3) % 11, (c + 7) % 11].map (fun r => (r, (r * c + 13 * r + 7 * c) % 128))

/-- The entries of any block column (Table 05-2). -/
def ldpcCol (c : Nat) : List (Nat × Nat) :=
  if c < 114 then ldpcInfo c else if c = 114 then [(0, 1), (5, 0), (10, 1)] else [(c - 115, 0), (c - 114, 0)]

/-- The entries of a block row: block column and exponent. -/
def ldpcRow (r : Nat) : List (Nat × Nat) :=
  (List.range 125).filterMap (fun c => ((ldpcCol c).find? (fun e => e.1 == r)).map (fun e => (c, e.2)))

/-- The sum of one block row over a word of 125 blocks: row a of a circulant with exponent e takes bit (a + e) mod 128
(R104). -/
def ldpcCheck (blocks : List (BitVec 128)) (r : Nat) : BitVec 128 :=
  (ldpcRow r).foldl (fun acc e => acc ^^^ (blocks.getD e.1 0#128).rotateRight e.2) 0#128

/-- Every check of Table 05-2 sums to 0 (R104). -/
def ldpcGood (blocks : List (BitVec 128)) : Bool := (List.range 11).all (fun r => ldpcCheck blocks r == 0#128)

/-- The eleven parity blocks of 114 information blocks: block column 114 is the sum of all rows, the rest follow in
order (R104). -/
def ldpcParity (info : List (BitVec 128)) : List (BitVec 128) :=
  let s := (List.range 11).map (fun r => ldpcCheck info r)
  let p := s.foldl (fun a b => a ^^^ b) 0#128
  let p0 := s.getD 0 0#128 ^^^ p.rotateRight 1
  (List.range 9).foldl (fun acc t =>
    let prev := acc.getLastD 0#128
    acc ++ [s.getD (t + 1) 0#128 ^^^ (if t + 1 = 5 then p else 0#128) ^^^ prev]) [p, p0]

/-- A block of 128 bits, bit offset 0 first. -/
def blockOfBits (bits : List Bool) : BitVec 128 :=
  BitVec.ofNat 128 (bits.foldr (fun b a => 2 * a + b.toNat) 0)

/-- The bits of a block, offset 0 first. -/
def bitsOfBlock (v : BitVec 128) : List Bool := (List.range 128).map (fun i => v.getLsbD i)

/-- The blocks of a bit list. -/
def blocksOfBits : Nat → List Bool → List (BitVec 128)
  | 0, _ => []
  | n + 1, bits => blockOfBits (bits.take 128) :: blocksOfBits n (bits.drop 128)

/-- The 16,000 bits of the codeword of 14,592 information bits (R104). -/
def ldpcEncode (info : List Bool) : List Bool :=
  let b := blocksOfBits 114 info
  info ++ (ldpcParity b).flatMap bitsOfBlock

/-- The 912 symbols of a codeword's information bits, bit 16s most significant (R104). -/
def symbolsOf : Nat → List Bool → List Nat
  | 0, _ => []
  | n + 1, bits => natOfBits (bits.take 16) :: symbolsOf n (bits.drop 16)

/-! ### Encoding a sector -/

/-- Column s of a list of symbol rows. -/
def column (rows : List (List Nat)) (s : Nat) : List Nat := rows.map (fun r => r.getD s 0)

/-- The information bits of all 160 codewords in RS position order (R105, R106): the payload's data codewords, then the
parity of every column. -/
def sectorInfo (payload : Bytes) : List (List Bool) :=
  let data := (List.range 144).map (fun d => bitsOf (slice payload (1824 * d) 1824))
  let syms := data.map (symbolsOf 912)
  let pars := (List.range 912).map (fun s => gf16.rsParity 16 (column syms s))
  data ++ (List.range 16).map (fun t => pars.flatMap (fun p => bitsOfNat 16 (p.getD t 0)))

/-- The 160 codewords of a payload in RS position order. -/
def sectorWords (payload : Bytes) : List (List Bool) := (sectorInfo payload).map ldpcEncode

/-- The coded bits of one track before the randomizer, in track position order (R102). -/
def trackBits (words : List (List Bool)) (i : Nat) : List Bool :=
  (List.range 160000).map (fun q =>
    let (j, b) := bitAtPos q
    (words.getD (rsPos (cwIndex i j)) []).getD b false)

/-- A sector encoded and randomized, 160,000 bits for each of the 16 tracks; a track of the retired-lane mask carries no
marks (R103, R109). -/
def sectorEncode (p : Pu) (a : SecAddr) (payload : Bytes) (mask : BitVec 16) : List (List Bool) :=
  let words := sectorWords payload
  (List.range 16).map (fun i =>
    if mask.getLsbD i then List.replicate 160000 false
    else (trackBits words i).zipWith (fun x u => x != u) (randBits 160000 (randSeed p a i)))

/-- The encoder's own check (R127): every LDPC check and all 912 columns of the coded words. -/
def encodeCheck (words : List (List Bool)) : Bool :=
  words.all (fun w => ldpcGood (blocksOfBits 125 w)) &&
    (let syms := words.map (fun w => symbolsOf 912 (w.take 14592))
     (List.range 912).all (fun s => gf16.rsIsCode 16 (column syms s)))

/-! ### Soft values -/

/-- The decoder's input for a soft word (R111): 0 with `ERA`, otherwise `LLR` in units of 0.5. -/
def softLlr (w : Byte) : Int :=
  if w.getLsbD 7 then 0 else if w.toNat % 64 < 32 then w.toNat % 64 else (w.toNat % 64 : Int) - 64

/-- The `ERA` bit of a soft word (Table 04-3). -/
def softEra (w : Byte) : Bool := w.getLsbD 7

/-- A message kept as 8 bits signed (R112). -/
def sat8 (x : Int) : Int := max (-127) (min 127 x)

/-! ### Layered normalized min-sum (R112) -/

/-- A check-node minimum times `ecc.ldpc.norm` / 8, in the unit of the messages. -/
def minsumScale (norm m : Nat) : Nat := m * norm / 8 + (if m * norm % 8 ≠ 0 && Config.minsumUp norm m then 1 else 0)

/-- The check-node messages of one check: a variable is a mark, which is positive, as often as the others show an odd number of marks,
with the scaled minimum of their magnitudes. -/
def checkNode (norm : Nat) (qs : List Int) : List Int :=
  let mags := qs.map Int.natAbs
  let marks := (qs.filter (fun q => 0 < q)).length
  qs.mapIdx (fun i q =>
    let m : Int := minsumScale norm ((mags.eraseIdx i).foldl min 127)
    sat8 (if (marks - (if 0 < q then 1 else 0)) % 2 = 1 then m else -m))

/-- A list rotated so that its element a is the old element a + e. -/
def rotL (e : Nat) (l : List Int) : List Int := l.drop e ++ l.take e

/-- The inverse rotation. -/
def rotR (e : Nat) (l : List Int) : List Int := rotL (l.length - e) l

/-- Transpose of a list of rows of 128. -/
def cols128 (rows : List (List Int)) : List (List Int) :=
  (List.range 128).map (fun a => rows.map (fun r => r.getD a 0))

/-- Rows back from columns. -/
def rowsOf (n : Nat) (cols : List (List Int)) : List (List Int) :=
  (List.range n).map (fun i => cols.map (fun c => c.getD i 0))

/-- One layer: posteriors by block (125 × 128) and this layer's messages by entry; both updated. Posteriors are held to 8 bits signed
as the messages are.
Log 54 (DESIGN CHOICE). -/
def ldpcLayer (norm r : Nat) (post msgs : List (List Int)) : List (List Int) × List (List Int) :=
  let es := ldpcRow r
  let q := es.mapIdx (fun i e =>
    (rotL e.2 (post.getD e.1 [])).zipWith (fun p m => p - m) (msgs.getD i (List.replicate 128 0)))
  let new := rowsOf es.length ((cols128 q).map (checkNode norm))
  let post' := (es.zip (q.zip new)).foldl (fun acc x =>
    acc.set x.1.1 (rotR x.1.2 (x.2.1.zipWith (fun a b => sat8 (a + b)) x.2.2))) post
  (post', new)

/-- All eleven layers once. -/
def ldpcIter (norm : Nat) (st : List (List Int) × List (List (List Int))) : List (List Int) × List (List (List Int)) :=
  (List.range 11).foldl (fun st r =>
    let (p, m) := ldpcLayer norm r st.1 (st.2.getD r [])
    (p, st.2.set r m)) st

/-- Hard decisions: a positive value is a mark, coded 1 (R90). -/
def hardBits (post : List Int) : List Bool := post.map (fun x => decide (0 < x))

/-- At most `n` iterations from posteriors and messages, stopping once every check is satisfied: the codeword's state. -/
def ldpcRun (norm : Nat) : Nat → Nat → List (List Int) × List (List (List Int)) → CwState
  | 0, k, st =>
    let post := st.1.flatten
    ⟨some (ldpcGood (blocksOfBits 125 (hardBits post))), false, hardBits post, post, k, st.2⟩
  | n + 1, k, st =>
    let post := st.1.flatten
    if ldpcGood (blocksOfBits 125 (hardBits post)) then ⟨some true, false, hardBits post, post, k, st.2⟩
    else ldpcRun norm n (k + 1) (ldpcIter norm st)

/-- A list in pieces of 128. -/
def pieces128 : Nat → List Int → List (List Int)
  | 0, _ => []
  | n + 1, l => l.take 128 :: pieces128 n (l.drop 128)

/-- Decoding of one codeword from its 16,000 input values (R112): failed without decoding when its `ERA` count exceeds
`skip`. -/
def ldpcDecode (norm iter skip : Nat) (llr : List Int) (eras : Nat) : CwState :=
  if skip < eras then ⟨some false, true, hardBits llr, llr, 0, List.replicate 11 []⟩
  else ldpcRun norm iter 0 (pieces128 125 llr, List.replicate 11 [])

/-- A failed codeword decoded on from the messages of its last attempt (rung 3 of R116). -/
def ldpcMore (norm iter : Nat) (c : CwState) : CwState :=
  if c.skipped then c else ldpcRun norm iter c.iters (pieces128 125 c.post, c.msgs)

/-! ### The outer code (R113) -/

/-- What the outer decode of a sector gives: whether it is outer-good, the payload, miscorrected codewords, and whether
any symbol was corrected. -/
structure OuterOut where
  good    : Bool
  payload : Bytes
  misc    : Nat
  fixed   : List (List Nat)
  changed : Bool
  deriving DecidableEq, Repr

/-- Symbols of the codewords in RS position order. -/
def outerSyms (cws : List CwState) : List (List Nat) :=
  (List.range 160).map (fun p => symbolsOf 912 (((cws.getD (cwOfPos p) default).bits).take 14592))

/-- Errors-and-erasures decoding of all 912 columns, `era p s` telling which symbols are erased. -/
def outerDecode (cws : List CwState) (era : Nat → Nat → Bool) : OuterOut :=
  let syms := outerSyms cws
  let cols := (List.range 912).map (fun s =>
    gf16.rsDecode 16 (column syms s) ((List.range 160).filter (fun p => era p s)))
  let good := cols.all Option.isSome
  let fixed := cols.mapIdx (fun s c => c.getD (column syms s))
  let rows := (List.range 160).map (fun p => column fixed p)
  let passed := fun p => (cws.getD (cwOfPos p) default).verdict == some true
  let misc := ((List.range 160).filter (fun p => passed p && rows.getD p [] != syms.getD p [])).length
  { good := good, payload := (rows.take 144).flatMap (fun r => r.flatMap (fun v => beBytes 2 v)), misc := misc,
    fixed := rows, changed := rows != syms }

/-- The plain outer decode of R113: failed codewords are erased, more than 16 are not decodable. -/
def outerPlain (cws : List CwState) : OuterOut :=
  let bad := (List.range 160).filter (fun p => (cws.getD (cwOfPos p) default).verdict != some true)
  let o := outerDecode cws (fun p _ => bad.contains p)
  { o with good := o.good && decide (bad.length ≤ 16) }

end Sys2Proof.Machine
end

