-- ==== Sys2Proof/Machine/HamperOps.lean ====
section
/-! DEFINITION. The operations of hampers (11_hampers.md): service, states, placement, encoding, settling, the map,
reading. -/

namespace Sys2Proof.Machine

/-! ### Service of pickups and members (R244, R457) -/

/-- A pickup can read sectors: it is neither off, failed nor retired, its link and port carry both lanes, its detector is
served, and its region can decode. -/
def State.pickupServes (s : State) (b : BayId) (p : Pu) : Bool :=
  let u := s.pu b p
  !u.cal.retired && u.ms.st != .off && u.ms.st != .failed
    && (u.link.st == .active || u.link.st == .laneRetrain) && !u.link.oneLane
    && s.portUp b p && s.detectorUp b p && (s.admissionOf (regionOf b)).1 > 0 && s.regionUp (regionOf b)

/-- A pickup serves reads: it can read, and its bay is ready (R353, R457). -/
def State.pickupReads (s : State) (b : BayId) (p : Pu) : Bool := (s.bay b).ready && s.pickupServes b p

/-- `WCAP` of a pickup's identify data (byte 34 bit 2, Table 02-9). -/
def HLink.wcap (l : HLink) : Bool :=
  match l.ident with
  | some d => byteAt d 34 / 4 % 2 == 1
  | none => false

/-- A pickup is in a state entered from `RECOVER`, before its next frame lock. -/
def Pickup.recovering (u : Pickup) : Bool := u.ms.fromRec

/-- A surface is in write service (R457). -/
def State.surfaceWrites (s : State) (b : BayId) (p : Pu) : Bool :=
  let u := s.pu b p
  s.pickupReads b p && u.link.wcap && u.link.st == .active && (s.bay b).spindle.good && s.encoderUp b
    && u.ms.st != .recover && !u.recovering

/-- A member's disc is admitted and takes part in reads: in its bay, active in the label. -/
def Member.admitted (m : Member) : Bool := m.bay.isSome && m.state == .active

/-- A member is in read service: one of its surfaces is.
Log 29 (DEDUCED). -/
def State.memberReads (s : State) (m : Member) : Bool :=
  match m.bay with
  | some b => m.admitted && (s.pickupReads b .A || s.pickupReads b .B)
  | none => false

/-- A member is in write service: one of its surfaces is (R457). -/
def State.memberWrites (s : State) (m : Member) : Bool :=
  match m.bay with
  | some b => m.admitted && (s.surfaceWrites b .A || s.surfaceWrites b .B)
  | none => false

/-- Since when a surface's grace runs. -/
def Member.grace (m : Member) (p : Pu) : Option Nat :=
  match p with
  | .A => m.graceA
  | .B => m.graceB

/-- A member with one grace set. -/
def Member.setGrace (m : Member) (p : Pu) (v : Option Nat) : Member :=
  match p with
  | .A => { m with graceA := v }
  | .B => { m with graceB := v }

/-- The grace of a surface still runs (R247). -/
def State.graceRuns (s : State) (m : Member) (p : Pu) : Bool :=
  match m.grace p with
  | some t => s.us < t + s.liveN .hamperMemberGraceMs * 1000
  | none => false

/-- A surface takes rows of new stripes: in write service, or its grace runs (R247). -/
def State.surfaceTakes (s : State) (m : Member) (p : Pu) : Bool :=
  match m.bay with
  | some b => m.admitted && (s.surfaceWrites b p || s.graceRuns m p)
  | none => false

/-- A member is in P (R229, R247). -/
def State.inP (s : State) (m : Member) : Bool := s.surfaceTakes m .A || s.surfaceTakes m .B

/-! ### Slots and states -/

/-- The hamper of a slot. -/
def State.slot (s : State) (h : SlotId) : Option Hamper := s.ham.slots.getD h.val none

/-- The state with a slot set. -/
def State.setSlot (s : State) (h : SlotId) (v : Option Hamper) : State :=
  { s with ham := { s.ham with slots := s.ham.slots.set h.val v } }

/-- The state with a mounted hamper changed. -/
def State.updHam (s : State) (h : SlotId) (f : Hamper → Hamper) : State :=
  match s.slot h with
  | some x => s.setSlot h (some (f x))
  | none => s

/-- All slots in order. -/
def allSlots : List SlotId := (List.range 16).filterMap (fun i => if h : i < 16 then some ⟨i, h⟩ else none)

/-- The slot of a hamper ID. -/
def State.slotOf (s : State) (hid : Nat) : Option SlotId :=
  allSlots.find? (fun h => match s.slot h with
    | some x => x.hid == hid
    | none => false)

/-- The engine that serves a slot works, and the cores are there (R248, R250). -/
def State.engineUp (s : State) (h : SlotId) : Bool :=
  !s.coresHeld && s.ham.takeover != some (h.val % 4) && !(s.ham.faulty.getD (s.ham.serves.getD (h.val % 4) 4) true)

/-- Members in read service. -/
def State.readers (s : State) (x : Hamper) : Nat := (x.members.filter s.memberReads).length

/-- Members in write service. -/
def State.writers (s : State) (x : Hamper) : Nat := (x.members.filter s.memberWrites).length

/-- The rows remaining of a member (R243). -/
def Member.remaining (m : Member) : Nat := memberRows - m.next

/-- Insertion into descending order. -/
def insDesc (a : Nat) : List Nat → List Nat
  | [] => [a]
  | b :: bs => if b ≤ a then a :: b :: bs else b :: insDesc a bs

/-- Descending order. -/
def sortDesc (l : List Nat) : List Nat := l.foldr insDesc []

/-- The smallest rows remaining among the k members with the most (R243). -/
def Hamper.rowsLeft (x : Hamper) : Nat := (sortDesc (x.members.map Member.remaining)).getD (x.k - 1) 0

/-- No stripe has room any more: no rows for one, or the map is at its limit (Table 11-4).
Log 57 (DEDUCED). -/
def Hamper.noStripe (x : Hamper) (limit : Nat) : Bool := x.rowsLeft == 0 || limit ≤ x.map.length

/-- The state of a hamper (Table 11-4). -/
def State.hstate (s : State) (x : Hamper) : HState :=
  if x.mounting then .mounting
  else if s.readers x < x.k then .below
  else if x.ro ∨ x.roCause ∨ x.full ∨ x.noStripe (s.bootN .hamperMapMaxExtents) then .readOnly
  else if s.readers x < x.k + x.m then .degraded
  else .ready

/-- `HSTATE` of Table 12-4. -/
def HState.code : HState → Nat
  | .mounting => 0
  | .below => 1
  | .degraded => 2
  | .ready => 3
  | .readOnly => 4

/-- Writes held (R230): fewer than k members in write service. -/
def State.wheld (s : State) (x : Hamper) : Bool := s.writers x < x.k

/-- `MEMB`: bit i for member i in read service. -/
def State.memb (s : State) (x : Hamper) : Nat :=
  x.members.foldl (fun a m => if s.memberReads m then a + 2 ^ m.idx else a) 0

/-- Degraded-ready and fully ready (R244, Table 11-4). -/
def State.hready (s : State) (x : Hamper) : Bool × Bool :=
  match s.hstate x with
  | .mounting => (false, false)
  | .below => (false, false)
  | _ => (true, s.readers x == x.k + x.m)

/-! ### Ordinals, the durable mark and the journal (R233, R234, R239) -/

/-- The highest ordinal at or below which every non-void ordinal is durable (R239): D before any write of the session
stays where the mount left it. -/
def Hamper.mark (x : Hamper) : Nat :=
  match x.writes.map (fun w => w.ordinal) with
  | [] => if x.ordNext = x.session * 2 ^ 40 + 1 then x.durable else x.ordNext - 1
  | o :: os => os.foldl min o - 1

/-- D never decreases while the hamper is mounted (R239). -/
def Hamper.postMark (x : Hamper) : Hamper := { x with durable := max x.durable x.mark }

/-- Capacity of the journal: write records and stripe records (R234). -/
def journalRooms (mib : Nat) : Nat × Nat :=
  let rest := mib * 2 ^ 20 - 65536
  (rest * 7 / 8 / 4096, rest / 8 / 1024)

/-- Write records held. -/
def State.writeRecords (s : State) : Nat :=
  (s.ham.slots.filterMap id).foldl (fun n x => n + (x.writes.filter (fun w => w.record)).length) 0

/-- Stripe records held. -/
def State.stripeRecords (s : State) : Nat :=
  (s.ham.slots.filterMap id).foldl (fun n x => n + x.stripes.length) 0

/-- A write of a hamper by ordinal. -/
def Hamper.write? (x : Hamper) (ord : Nat) : Option WriteRec := x.writes.find? (fun w => w.ordinal == ord)

/-- A hamper with one write changed. -/
def Hamper.updWrite (x : Hamper) (ord : Nat) (f : WriteRec → WriteRec) : Hamper :=
  { x with writes := x.writes.map (fun w => if w.ordinal == ord then f w else w) }

/-- An ordinal becomes void: its write takes no effect (R233, R290). -/
def Hamper.voidWrite (x : Hamper) (ord : Nat) : Hamper :=
  Hamper.postMark { x with writes := x.writes.filter (fun w => w.ordinal != ord) }

/-- The lowest number not in a list. Which free record of the journal is taken is not stated.
Log 12 (DESIGN CHOICE). -/
def freeNumber (l : List Nat) : Nat := ((List.range (l.length + 1)).find? (fun i => !l.contains i)).getD l.length

/-- Numbers of the write records held. -/
def State.writeRecNos (s : State) : List Nat :=
  (s.ham.slots.filterMap id).flatMap (fun x => (x.writes.filter (fun w => w.record)).map (fun w => w.recNo))

/-- Journal room is granted in fetch order to the writes that wait for it (R234). Every later write to any hamper waits
behind the first one without room. -/
def State.grantRoom (s : State) : Nat → State
  | 0 => s
  | n + 1 =>
    let waiting := s.host.cmds.filter (fun c =>
      match c.slot with
      | some h => (match s.slot h with
        | some x => (match x.write? c.ordinal with
          | some w => !w.record && !w.settled
          | none => false)
        | none => false)
      | none => false)
    match waiting with
    | [] => s
    | c0 :: cs =>
      let c := cs.foldl (fun a b => if b.order < a.order then b else a) c0
      if s.writeRecords < (journalRooms (s.bootN .memPartJournalMib)).1 then
        match c.slot with
        | some h => State.grantRoom (s.updHam h (fun x => x.updWrite c.ordinal (fun w => { w with record := true, recNo := freeNumber s.writeRecNos }))) n
        | none => s
      else s

/-! ### The map (R242, R243) -/

/-- An extent without the blocks [l, l + n) of another: up to two remain. -/
def Extent.minus (e : Extent) (l n : Nat) : List Extent :=
  if l + n ≤ e.lba ∨ e.lba + e.len ≤ l then [e]
  else
    (if e.lba < l then [{ e with len := l - e.lba }] else [])
      ++ (if l + n < e.lba + e.len then
            [{ e with lba := l + n, len := e.lba + e.len - (l + n), blk := e.blk + (l + n - e.lba) }]
          else [])

/-- Two extents that continue each other within one sector and write. -/
def Extent.joins (a b : Extent) : Bool :=
  a.seq == b.seq && a.pos == b.pos && a.ordinal == b.ordinal && a.lba + a.len == b.lba && a.blk + a.len == b.blk

/-- The map with one block placed: older extents give way, a run within a sector grows. -/
def mapPlace (m : List Extent) (e : Extent) : List Extent :=
  let rest := m.flatMap (fun x => x.minus e.lba e.len)
  match rest.find? (fun x => x.joins e) with
  | some x => rest.map (fun y => if y == x then { x with len := x.len + e.len } else y)
  | none => e :: rest

/-- The extent that names a block. -/
def Hamper.extentOf (x : Hamper) (lba : Nat) : Option Extent :=
  x.map.find? (fun e => e.lba ≤ lba && lba < e.lba + e.len)

/-- Where the newest content of a block is (R246): in the buffers of a staged write that is not yet committed, on media,
or nowhere. -/
inductive BlockLoc where
  | staged (ordinal blk : Nat)
  | media (seq pos blk : Nat)
  | unmapped
  deriving DecidableEq, Repr

/-- The newest staged write not yet settled that covers a block (R286). -/
def Hamper.stagedFor (x : Hamper) (lba : Nat) : Option WriteRec :=
  (x.writes.filter (fun w => w.staged && !w.settled && w.lba ≤ lba && lba < w.lba + w.count)).foldl
    (fun a w => match a with
      | some v => if v.ordinal < w.ordinal then some w else a
      | none => some w) none

/-- The newest content of a block. -/
def Hamper.locate (x : Hamper) (lba : Nat) : BlockLoc :=
  match x.stagedFor lba with
  | some w => .staged w.ordinal (lba - w.lba)
  | none =>
    match x.extentOf lba with
    | some e => .media e.seq e.pos (e.blk + (lba - e.lba))
    | none => .unmapped

/-- The content of a staged block, if its block check agrees (R312). -/
def State.stagedBlock (s : State) (w : WriteRec) (i : Nat) : Option Bytes :=
  match (w.buffers[i / 16]?).bind s.buf? with
  | some b => if b.good (i % 16) then b.blocks[i % 16]? else none
  | none => none

/-- The charge of a write of n blocks (R243). -/
def writeCharge (n : Nat) : Nat := (n + 63) / 64 + 1

/-- Charges of writes not yet placed. -/
def Hamper.charges (x : Hamper) : Nat :=
  x.writes.foldl (fun a w => if w.staged && w.placed < w.count then a + w.charge else a) 0

/-- The extents that a stripe's placed blocks make: runs within one sector and write (R242, R243). -/
def Stripe.extents (t : Stripe) : List Extent :=
  t.data.zipIdx.flatMap (fun e => e.1.slots.foldl (fun l sl =>
    let n : Extent := ⟨sl.lba, 1, t.seq, e.2, sl.idx, sl.ordinal⟩
    match l.getLast? with
    | some v => if v.joins n then l.dropLast ++ [{ v with len := v.len + 1 }] else l ++ [n]
    | none => [n]) [])

/-- Live extents: those of the map, and those that the placed blocks of unsettled stripes add (R243). -/
def Hamper.liveExtents (x : Hamper) : Nat :=
  (x.stripes.filter (fun t => t.state != .voided)).foldl (fun a t => a + t.extents.length) x.map.length

/-- A write of n blocks has room (R243). -/
def Hamper.hasRoom (x : Hamper) (limit n : Nat) : Bool :=
  let sum := x.writes.foldl (fun a w => if w.staged && w.placed < w.count then a + writeCharge w.count else a) (writeCharge n)
  x.liveExtents + x.charges + writeCharge n ≤ limit && (sum + x.k - 1) / x.k + 1 ≤ x.rowsLeft

/-! ### Stripes (R228, R229) -/

/-- Members of P listed from the first whose index is at least s mod (k + m), wrapping. -/
def rotateP (p : List Nat) (s km : Nat) : List Nat :=
  let f := s % km
  p.filter (fun i => f ≤ i) ++ p.filter (fun i => i < f)

/-- The positions of a stripe (R229): (member, position) in list order. -/
def assignStripe (p : List Nat) (s k m : Nat) : Nat × List (Nat × Nat) :=
  let l := rotateP p s (k + m)
  let d := max 1 (l.length - m)
  let np := l.length - d
  (d, (l.zip ((List.range np).map (fun i => k + i) ++ List.range d)))

/-- The first row at or above r on a surface that takes rows. -/
def rowFor (a b : Bool) (r : Nat) : Nat :=
  if (if r % 2 = 0 then a else b) then r else r + 1

/-- The row a member gives the next stripe, if it has one left. -/
def State.nextRow (s : State) (m : Member) : Option Nat :=
  let r := rowFor (s.surfaceTakes m .A) (s.surfaceTakes m .B) m.next
  if r < memberRows then some r else none

/-- The latest break of a member at or before a stripe. -/
def breakAt (breaks : List RowBreak) (seq member : Nat) : Option RowBreak :=
  (breaks.filter (fun r => r.member == member && r.seq ≤ seq)).foldl
    (fun a r => match a with
      | some v => if v.seq ≤ r.seq then some r else a
      | none => some r) none

/-- The row a member holds for a stripe, if it was present (R242, R246). -/
def Hamper.rowOf (x : Hamper) (seq member : Nat) : Option Nat :=
  match breakAt x.breaks seq member with
  | some r => if r.present then some (r.row + (seq - r.seq)) else none
  | none => none

/-- The members present in a stripe. -/
def Hamper.presentOf (x : Hamper) (seq : Nat) : List Nat :=
  (List.range (x.k + x.m)).filter (fun i => (x.rowOf seq i).isSome)

/-- d and the positions of a stripe as a reader derives them (R246). -/
def Hamper.layout (x : Hamper) (seq : Nat) : Nat × List (Nat × Nat) := assignStripe (x.presentOf seq) seq x.k x.m

/-- The member that holds a position of a stripe. -/
def Hamper.memberAt (x : Hamper) (seq pos : Nat) : Option Nat :=
  ((x.layout seq).2.find? (fun e => e.2 == pos)).map (fun e => e.1)

/-- A position of a stripe is null (R229). -/
def Hamper.isNull (x : Hamper) (seq pos : Nat) : Bool := (x.layout seq).1 ≤ pos && pos < x.k

/-- A member record by index. -/
def Hamper.member? (x : Hamper) (i : Nat) : Option Member := x.members.find? (fun m => m.idx == i)

/-- A hamper with one member changed. -/
def Hamper.updMember (x : Hamper) (i : Nat) (f : Member → Member) : Hamper :=
  { x with members := x.members.map (fun m => if m.idx == i then f m else m) }

/-- The stripe being filled. -/
def Hamper.building (x : Hamper) : Option Stripe := x.stripes.find? (fun t => t.state == .building)

/-- A hamper with one stripe changed. -/
def Hamper.updStripe (x : Hamper) (seq : Nat) (f : Stripe → Stripe) : Hamper :=
  { x with stripes := x.stripes.map (fun t => if t.seq == seq then f t else t) }

/-- The range of voided stripes the next stripe replaces: the unbroken run that ends below it. -/
def voidRun (x : Hamper) : Nat → Nat → Nat
  | 0, lo => lo
  | n + 1, lo => if x.stripes.any (fun t => t.seq == lo - 1 && t.state == .voided) ∧ lo > 0 then voidRun x n (lo - 1) else lo

/-- A stripe is built (R229, R230, R234): the members of P with a row left take positions and rows; row breaks are noted
where a member's presence or row does not follow from the stripe before. -/
def State.openStripe (s : State) (x : Hamper) : Option Hamper :=
  let rows := x.members.filterMap (fun m => if s.inP m then (s.nextRow m).map (fun r => (m.idx, r)) else none)
  if s.writers x < x.k ∨ rows.length < x.k ∨ s.stripeRecords ≥ (journalRooms (s.bootN .memPartJournalMib)).2 then none
  else
    let seq := x.nextSeq
    let (d, asg) := assignStripe (rows.map (fun e => e.1)) seq x.k x.m
    let brk := (List.range (x.k + x.m)).filterMap (fun i =>
      let now := (rows.find? (fun e => e.1 == i)).map (fun e => e.2)
      if x.rowOf seq i == now then none else some (RowBreak.mk seq i now.isSome (now.getD 0)))
    let lo := voidRun x x.stripes.length seq
    let vr := if lo < seq then (lo, seq - 1) else (0, 0)
    let t : Stripe :=
      { seq := seq, present := rows.map (fun e => e.1), d := d, assign := asg, data := [], opened := none,
        placed := asg.map (fun e => ⟨e.1, e.2, ((rows.find? (fun r => r.1 == e.1)).map (fun r => r.2)).getD 0, .waiting⟩),
        state := .building, cthru := x.committed, dmark := x.durable, ordHi := 0, openOrd := 0, openSeq := 0,
        openPos := 0, openBlk := 0, voidLo := vr.1, voidHi := vr.2, epoch := x.epoch, ckSeq := x.ckpt.settled,
        recNo := freeNumber (s.ham.slots.filterMap id |>.flatMap (fun y => y.stripes.map (fun t => t.recNo))) }
    some { x with
      stripes := x.stripes ++ [t], nextSeq := seq + 1, breaks := x.breaks ++ brk
      ckpt := { x.ckpt with fresh := x.ckpt.fresh ++ brk.map CkEntry.rowBreak }
      members := x.members.map (fun m => match rows.find? (fun r => r.1 == m.idx) with
        | some r => { m with next := r.2 + 1 }
        | none => m) }

/-! ### Placing (R235) -/

/-- The next write to place: the lowest ordinal with blocks to place, once it is staged (R235). -/
def Hamper.nextWrite (x : Hamper) : Option WriteRec :=
  let todo := x.writes.filter (fun w => w.placed < w.count)
  match todo with
  | [] => none
  | w :: ws =>
    let v := ws.foldl (fun a b => if b.ordinal < a.ordinal then b else a) w
    if v.staged then some v else none

/-- A block can join a data sector (R235). -/
def DataSector.takes (ds : DataSector) (lba : Nat) : Bool :=
  !ds.closed && ds.first ≤ lba && lba - ds.first ≤ 63 &&
    (match ds.slots.getLast? with
     | some sl => sl.idx < lba - ds.first
     | none => true)

/-- A data sector with a block added; index 63 closes it. -/
def DataSector.add (ds : DataSector) (lba ord blk : Nat) : DataSector :=
  { ds with slots := ds.slots ++ [⟨lba - ds.first, lba, ord, blk⟩], closed := lba - ds.first == 63 }

/-- The data sectors of a stripe with a block placed, if the stripe still has a slot for it: the position and index the
block took. -/
def placeIn (d : Nat) (data : List DataSector) (lba ord blk : Nat) : Option (List DataSector × Nat × Nat) :=
  match data.getLast? with
  | some ds =>
    if ds.takes lba then some (data.dropLast ++ [ds.add lba ord blk], data.length - 1, lba - ds.first)
    else if data.length < d then
      some (data.dropLast ++ [{ ds with closed := true }] ++ [(DataSector.mk lba [] false).add lba ord blk], data.length, 0)
    else none
  | none => some ([(DataSector.mk lba [] false).add lba ord blk], 0, 0)

/-- Every data sector of the stripe has closed. -/
def Stripe.filled (t : Stripe) : Bool := t.data.length == t.d && t.data.all (fun ds => ds.closed)

/-- The hamper with the next block of a write placed in its open stripe. -/
def Hamper.placeBlock (x : Hamper) (now : Nat) (t : Stripe) (w : WriteRec) : Option Hamper :=
  let lba := w.lba + w.placed
  match placeIn t.d t.data lba w.ordinal w.placed with
  | none => none
  | some (data, pos, idx) =>
    let w' := { w with placed := w.placed + 1, lastSeq := t.seq,
                       firstSeq := if w.placed = 0 then t.seq else w.firstSeq,
                       firstPos := if w.placed = 0 then pos else w.firstPos,
                       firstBlk := if w.placed = 0 then idx else w.firstBlk }
    let x := x.updWrite w.ordinal (fun _ => w')
    some (x.updStripe t.seq (fun t => { t with
      data := data, opened := some (t.opened.getD now), ordHi := max t.ordHi w.ordinal }))

/-! ### Encoding (R231, R236, Table 11-1) -/

/-- The commit record of a position (Table 11-1), bytes 72 to 327 of the metadata. -/
def commitRecord (t : Stripe) (pos : Nat) (hpar : Bytes) : Bytes :=
  leBytes 8 t.cthru ++ leBytes 8 t.dmark ++ leBytes 8 t.ordHi ++ leBytes 8 t.openOrd ++ leBytes 8 t.openSeq
    ++ leBytes 1 t.openPos ++ leBytes 1 t.openBlk ++ leBytes 1 pos ++ leBytes 1 t.d
    ++ leBytes 4 (t.present.foldl (fun a i => a + 2 ^ i) 0)
    ++ leBytes 8 t.voidLo ++ leBytes 8 t.voidHi ++ leBytes 4 t.epoch ++ zeros 4 ++ padTo 24 hpar ++ leBytes 8 t.ckSeq

/-- The user payload of a data position: its 64 blocks, empty ones zero (R236). -/
def State.dataBody (s : State) (x : Hamper) (ds : DataSector) : Bytes :=
  (List.range 64).flatMap (fun i =>
    match ds.slots.find? (fun sl => sl.idx == i) with
    | some sl =>
      (match x.write? sl.ordinal with
       | some w => padTo 4096 ((s.stagedBlock w sl.blk).getD [])
       | none => zeros 4096)
    | none => zeros 4096)

/-- The block mask of a data sector. -/
def DataSector.mask (ds : DataSector) : Nat := ds.slots.foldl (fun a sl => a + 2 ^ sl.idx) 0

/-- Big-endian 16-bit symbols of a byte string. -/
def symbols16 : Bytes → List Nat
  | a :: b :: bs => (a.toNat * 256 + b.toNat) :: symbols16 bs
  | _ => []

/-- Bytes of 16-bit symbols, high byte first. -/
def bytes16 (l : List Nat) : Bytes := l.flatMap (fun v => beBytes 2 v)

/-- The parity symbols of all columns: `rows` holds the symbols of positions 0 to k − 1 (R231). -/
def parityRows (m : Nat) : List (List Nat) → Nat → List (List Nat)
  | rows, n => (List.range n).map (fun c => gf16.rsParity m (rows.map (fun r => r.getD c 0)))

/-- Metadata common to the sectors of a stripe. -/
def State.stripeMeta (s : State) (x : Hamper) (t : Stripe) (pl : Placed) (kind first mask : Nat) (hpar : Bytes) : MetaIn :=
  let u := (x.member? pl.member).bind (fun m => m.bay)
  let surf := rowSurface pl.row
  let ret := match u with
    | some b => (match (s.pu b surf).cal.tret with
      | some i => 2 ^ i
      | none => 0)
    | none => 0
  { kind := kind, reloc := none, hid := x.hid, member := pl.member, k := x.k, m := x.m, writer := surf, row := pl.row,
    seq := t.seq, first := first, mask := mask, retired := ret, time := s.time, commit := commitRecord t pl.pos hpar }

/-- The payloads of a stripe's placed sectors, in the order of `placed` (R231, R236). -/
def State.stripePayloads (s : State) (x : Hamper) (t : Stripe) : List (Placed × Bytes) :=
  let bodyOf := fun q => match t.data[q]? with
    | some ds => s.dataBody x ds
    | none => zeros 262144
  let bodies := (List.range t.d).map bodyOf
  let headOf := fun (q : Nat) =>
    let ds := t.data.getD q ⟨0, [], true⟩
    let f := if ds.slots.isEmpty then 0 else ds.first
    leBytes 8 f ++ leBytes 8 ds.mask ++ leBytes 8 (dataCheck (bodies.getD q [])).toNat
  let rows := (List.range x.k).map (fun q =>
    if q < t.d then symbols16 (bodies.getD q [] ++ headOf q) else [])
  let par := parityRows x.m rows 131084
  t.placed.map (fun pl =>
    if pl.pos < x.k then
      let ds := t.data.getD pl.pos ⟨0, [], true⟩
      let f := if ds.slots.isEmpty then 0 else ds.first
      (pl, payloadOf (s.stripeMeta x t pl 0 f ds.mask []) (bodies.getD pl.pos []))
    else
      let col := par.map (fun c => c.getD (pl.pos - x.k) 0)
      (pl, payloadOf (s.stripeMeta x t pl 1 0 0 (bytes16 (col.drop 131072))) (bytes16 (col.take 131072))))

/-- A coded-sector entry as it is handed to a member, before the encoder takes it. -/
def Coded.fresh (a : SecAddr) (why : WriteWhy) (payload : Bytes) : Coded :=
  { sector := a, home := none, why := why, payload := payload, bits := [], coded := false, mask := 0#16,
    touched := false, failed := false, sent := [], good := [], checked := none }

/-- A sector handed to a pickup's write path. -/
def State.handOver (s : State) (b : BayId) (p : Pu) (c : Coded) : State :=
  s.updPu b p (fun u => { u with write := { u.write with queue := u.write.queue ++ [c] } })

/-- The open write at the end of a stripe: `OPENORD`, `OPENSEQ`, `OPENPOS`, `OPENBLK` (Table 11-1). -/
def Hamper.openAt (x : Hamper) (seq : Nat) : Option WriteRec :=
  x.writes.find? (fun w => 0 < w.placed && w.placed < w.count && w.firstSeq ≤ seq)

/-- A stripe is encoded and its sectors are handed to the members; a sector for a surface whose grace is over is
withdrawn at once (R236, R247). -/
def State.encodeStripe (s : State) (h : SlotId) (seq : Nat) : State :=
  match s.slot h with
  | none => s
  | some x =>
    match x.stripes.find? (fun t => t.seq == seq && t.state == .building) with
    | none => s
    | some t =>
      let t := match x.openAt seq with
        | some w => { t with openOrd := w.ordinal, openSeq := w.firstSeq, openPos := w.firstPos, openBlk := w.firstBlk }
        | none => t
      let t := { t with data := (t.data.map (fun ds => { ds with closed := true }))
                          ++ List.replicate (t.d - t.data.length) ⟨0, [], true⟩ }
      let secs := s.stripePayloads x t
      let gone := fun (pl : Placed) => match x.member? pl.member with
        | some m => !s.surfaceTakes m (rowSurface pl.row)
        | none => true
      let t := { t with state := .encoded, placed := t.placed.map (fun pl =>
        if gone pl then { pl with state := .lost } else pl) }
      let s := s.updHam h (fun x => x.updStripe seq (fun _ => t))
      secs.foldl (fun s e =>
        if gone e.1 then s
        else
          match (x.member? e.1.member).bind (fun m => m.bay) with
          | some b => s.handOver b (rowSurface e.1.row) (Coded.fresh (rowSector e.1.row) (.placed h seq e.1.member) e.2)
          | none => s) s

/-! ### Outcomes and settling (R237 to R240) -/

/-- A placed sector has an outcome. -/
def PlacedState.ended : PlacedState → Bool
  | .failed => true
  | .lost => true
  | .written => true
  | _ => false

/-- Every placed sector has an outcome. -/
def Stripe.complete (t : Stripe) : Bool := t.state == .encoded && t.placed.all (fun p => p.state.ended)

/-- Null positions and written sectors number at least k (R237). -/
def Stripe.recoverable (t : Stripe) (k : Nat) : Bool :=
  k ≤ (k - t.d) + (t.placed.filter (fun p => p.state == .written)).length

/-- The first block index of a write that lies in voided stripes, if any. -/
def firstIn (ts : List Stripe) (ord : Nat) : Option Nat :=
  let idx := ts.flatMap (fun t => t.data.flatMap (fun ds => ds.slots.filterMap (fun sl =>
    if sl.ordinal == ord then some sl.blk else none)))
  match idx with
  | [] => none
  | i :: is => some (is.foldl min i)

/-- The last block (ordinal, index) that lies in given stripes. -/
def lastIn (ts : List Stripe) : Option (Nat × Nat) :=
  (ts.flatMap (fun t => t.data.flatMap (fun ds => ds.slots.map (fun sl => (sl.ordinal, sl.blk))))).foldl
    (fun a e => match a with
      | some v => if v.1 < e.1 ∨ (v.1 = e.1 ∧ v.2 < e.2) then some e else a
      | none => some e) none

/-- A complete stripe that is not recoverable is void, with every later stripe issued; their blocks are placed again in
ordinal order, into new stripes numbered from the next unused sequence (R238). -/
def Hamper.voidFrom (x : Hamper) (seq : Nat) : Hamper :=
  let bad := x.stripes.filter (fun t => seq ≤ t.seq)
  let writes := x.writes.map (fun w => match firstIn bad w.ordinal with
    | some i => { w with placed := min w.placed i, settled := false }
    | none => w)
  let old := match x.waitVoid with
    | e :: _ => some e
    | [] => none
  let new := lastIn bad
  let wait := match old, new with
    | some a, some b => if a.1 < b.1 ∨ (a.1 = b.1 ∧ a.2 < b.2) then [b] else [a]
    | some a, none => [a]
    | none, some b => [b]
    | none, none => []
  { x with
    stripes := x.stripes.map (fun t => if seq ≤ t.seq then { t with state := .voided } else t)
    writes := writes, waitVoid := wait
    voids := x.voids ++ [(seq, x.nextSeq - 1)]
    ckpt := { x.ckpt with fresh := x.ckpt.fresh ++ [.voidRange seq (x.nextSeq - 1)] } }

/-- The blocks of the voided stripes have all committed again: the last of them has been placed, and no stripe still
unsettled carries it or an earlier one. -/
def Hamper.voidsReplaced (x : Hamper) : Bool :=
  match x.waitVoid with
  | [] => true
  | (o, i) :: _ =>
    (match x.write? o with
     | some w => i < w.placed
     | none => true) &&
    x.stripes.all (fun t => t.state == .voided ||
      t.data.all (fun ds => ds.slots.all (fun sl => o < sl.ordinal || (o == sl.ordinal && i < sl.blk))))

/-- C: the highest sequence at and below which every stripe has settled (R238). -/
def Hamper.cmark (x : Hamper) : Nat :=
  match x.stripes.map (fun t => t.seq) with
  | [] => x.nextSeq - 1
  | a :: as => as.foldl min a - 1

/-- An extent put into the map: older ones give way. -/
def mapExtent (m : List Extent) (e : Extent) : List Extent := e :: m.flatMap (fun y => y.minus e.lba e.len)

/-- A stripe commits: its blocks come into the map and into the entries of the next delta, in slot order (R242). -/
def Hamper.commitStripe (x : Hamper) (t : Stripe) : Hamper :=
  { x with
    stripes := x.stripes.filter (fun u => u.seq != t.seq), map := t.extents.foldl mapExtent x.map
    ckpt := { x.ckpt with fresh := x.ckpt.fresh ++ t.extents.map CkEntry.extent, stripes := x.ckpt.stripes + 1 } }

/-- A write with every block placed and no stripe that holds its blocks unsettled: its record is released (R234). -/
def Hamper.release (x : Hamper) : Hamper :=
  { x with writes := x.writes.map (fun w =>
      if w.placed == w.count && !w.lost && !x.stripes.any (fun t => t.data.any (fun ds => ds.slots.any (fun sl => sl.ordinal == w.ordinal)))
      then { w with settled := true, record := false } else w) }

/-- The stripe of the lowest sequence. -/
def lowestStripe : List Stripe → Option Stripe
  | [] => none
  | t :: ts => some (ts.foldl (fun a b => if b.seq < a.seq then b else a) t)

/-- One pass of settling (R238): the lowest stripe that is complete and not recoverable is voided with all later ones; voids whose
blocks have all committed again settle; the lowest stripe that is not void commits once it is complete and recoverable. -/
def Hamper.settleOnce (x : Hamper) : Option Hamper :=
  let live := x.stripes.filter (fun t => t.state != .voided)
  match lowestStripe (live.filter (fun t => t.complete && !t.recoverable x.k)) with
  | some t => some (x.voidFrom t.seq)
  | none =>
    if x.voidsReplaced ∧ x.stripes.any (fun t => t.state == .voided) then some { x with stripes := live, waitVoid := [] }
    else
      match lowestStripe live with
      | some t => if t.complete then some (x.commitStripe t) else none
      | none => none

/-- Settling to the end. -/
def Hamper.settleAll : Nat → Hamper → Hamper
  | 0, x => x
  | n + 1, x =>
    match x.settleOnce with
    | some y => Hamper.settleAll n y
    | none => x

/-- C and D after settling: C rises to the settled mark, D with the writes whose last stripe lies at or below it. -/
def Hamper.advance (x : Hamper) : Hamper :=
  let x := (Hamper.settleAll (2 * x.stripes.length + 2) x).release
  let c := max x.committed x.cmark
  let x := { x with committed := c }
  let x := { x with writes := x.writes.filter (fun w => !(w.settled && w.lastSeq ≤ c)) }
  x.postMark

/-- Buffers of the writes that have become settled go back to their baskets (R234). -/
def settledBufs (x y : Hamper) : List Nat :=
  (x.writes.filter (fun w => !w.settled && (match y.write? w.ordinal with
    | some v => v.settled
    | none => true))).flatMap (fun w => w.buffers)

/-- A `FLUSH` whose targets are reached completes (R240, R285). -/
def State.flushReady (s : State) (c : Cmd) : Bool :=
  c.target.all (fun e => match s.slot e.1 with
    | some x => e.2 ≤ x.durable
    | none => true)

/-- Every started `FLUSH` whose target is reached completes; `RESULT` is the mark reached, or 0 for `HID` 0 (R285). -/
def State.serveFlushes (s : State) : State :=
  (s.host.cmds.filter (fun c => c.opc == 0x20 && c.phase != .done && !c.target.isEmpty && s.flushReady c)).foldl
    (fun s c =>
      let r := if c.hid = 0 then 0 else
        match c.target with
        | e :: _ => (match s.slot e.1 with
          | some x => x.durable
          | none => e.2)
        | [] => 0
      s.finish c.order .success r) s

/-- The hamper settles what it can; C and D are posted, buffers freed, journal room granted, waiting flushes served, and
the status page updated (R238, R239, R240). -/
def State.settle (s : State) (h : SlotId) : State :=
  match s.slot h with
  | none => s
  | some x =>
    let y := x.advance
    let s := (s.setSlot h (some y)).returnBufs (settledBufs x y)
    let s := s.grantRoom s.host.cmds.length
    let s := if y.durable = x.durable ∧ y.committed = x.committed then s else s.bumpGen
    s.serveFlushes

/-- A placed sector reaches an outcome (R237). A written sector stays written. -/
def State.sectorOutcome (s : State) (h : SlotId) (seq member : Nat) (written : Bool) : State :=
  let st : PlacedState := if written then .written else .failed
  let s := s.updHam h (fun x => x.updStripe seq (fun t => { t with placed := t.placed.map (fun p =>
    if p.member == member && p.state != .written then { p with state := st } else p) }))
  s.settle h

/-- A placed sector that can never be written, or was withdrawn (R237, R247). -/
def State.sectorLost (s : State) (h : SlotId) (seq member : Nat) : State :=
  let s := s.updHam h (fun x => x.updStripe seq (fun t => { t with placed := t.placed.map (fun p =>
    if p.member == member && p.state != .written then { p with state := .lost } else p) }))
  s.settle h

/-- A placed sector's writing has begun (R137). -/
def State.sectorTouched (s : State) (h : SlotId) (seq member : Nat) : State :=
  s.updHam h (fun x => x.updStripe seq (fun t => { t with placed := t.placed.map (fun p =>
    if p.member == member && p.state == .waiting then { p with state := .touched } else p) }))

/-- The open stripe of a hamper is closed and encoded (R236, R240). -/
def State.closeOpen (s : State) (h : SlotId) : State :=
  match (s.slot h).bind Hamper.building with
  | some t => if t.opened.isSome then (s.encodeStripe h t.seq).settle h else s
  | none => s

/-! ### Reading a sector (R246) -/

/-- A position's bay, surface and row. -/
def Hamper.place (x : Hamper) (seq pos : Nat) : Option (BayId × Pu × Nat) :=
  match x.memberAt seq pos with
  | none => none
  | some i =>
    match x.member? i, x.rowOf seq i with
    | some m, some r => (match m.bay with
      | some b => some (b, rowSurface r, r)
      | none => none)
    | _, _ => none

/-- Where the sector of a position is read: at its spare once its relocation record is written; not at all while it
awaits relocation or is unusable (R246). -/
def State.readPlace (s : State) (x : Hamper) (seq pos : Nat) : Option (BayId × Pu × SecAddr) :=
  match x.place seq pos with
  | none => none
  | some (b, p, r) =>
    let a := rowSector r
    if !s.pickupReads b p then none
    else
      match (s.pu b p).write.relocs.find? (fun q => q.home == a) with
      | none => some (b, p, a)
      | some q =>
        match q.spare with
        | some sp => if q.record then some (b, p, sp) else none
        | none => none

/-- The requester number of a media read: sectors and commands do not share numbers. -/
def readRequester (b : BayId) (p : Pu) (a : SecAddr) : Nat :=
  2 ^ 70 + ((b.val * 2 + p.idx) * 16 + a.layer) * 2 ^ 22 + (if a.zone = .leadIn then 2 ^ 21 else 0) + a.sector

/-- A sector read is given to a pickup, and its four buffers are drawn (R314). A sector already asked for is not asked
for twice. -/
def State.askRead (s : State) (b : BayId) (p : Pu) (a : SecAddr) (why : Purpose) (basket : Nat) : State :=
  let u := s.pu b p
  let dup := u.reads.any (fun r => r.sector == a && r.why == why) ||
    (match u.cur with
     | some r => r.sector == a && r.why == why
     | none => false) ||
    u.slots.any (fun q => q.sector == a && q.why == why)
  if dup then s
  else (s.drawBufs basket 4 (readRequester b p a)).updPu b p (fun u => { u with reads := u.reads ++ [⟨a, why, 0, s.us⟩] })

/-- A media read has its four buffers. -/
def State.readFunded (s : State) (b : BayId) (p : Pu) (r : ReadReq) : Bool :=
  match r.why with
  | .hamper _ _ _ => (s.bufsOf (readRequester b p r.sector)).length ≥ 4
  | _ => true

/-- The positions of a stripe that a rebuild can have: null ones, those landed from media, and those whose read is under way. -/
def Hamper.inHand (x : Hamper) (seq : Nat) : Nat :=
  ((List.range x.k).filter (x.isNull seq)).length + (x.landed.filter (fun l => l.seq == seq && !l.rebuilt)).length
    + (x.wanted.filter (fun w => w.seq == seq && !w.rebuild)).length

/-- A rebuild reads further positions until k are in hand: data positions first, then parity positions, in position order, passing over
those that cannot be read or have failed (R246). -/
def State.gather (s : State) (h : SlotId) (seq : Nat) : Nat → State
  | 0 => s
  | n + 1 =>
    match s.slot h with
    | none => s
    | some x =>
      let free := fun (q : Nat) => !x.landed.any (fun l => l.seq == seq && l.pos == q && !l.rebuilt)
        && !x.wanted.any (fun w => w.seq == seq && w.pos == q)
      if x.k ≤ x.inHand seq then s
      else
        match (List.range (x.k + x.m)).findSome? (fun q => if free q then (s.readPlace x seq q).map (fun e => (q, e)) else none) with
        | some (q, b, p, a) =>
          State.gather ((s.updHam h (fun x => { x with wanted := x.wanted ++ [⟨seq, q, false, false, false, false, .helper⟩] })).askRead b p a
            (.hamper h seq q) (s.readBasket b)) h seq n
        | none => s

/-- Positions are read for what is to be rebuilt of a stripe, if anything is. -/
def State.gatherFor (s : State) (h : SlotId) (seq : Nat) : State :=
  match s.slot h with
  | some x => if x.wanted.any (fun w => w.seq == seq && w.rebuild && !w.dead && w.use != .helper) then s.gather h seq (x.k + x.m) else s
  | none => s

/-- The sector of a position is wanted by a command of the hamper: it is read if it can be, and else to be rebuilt. -/
def State.wantSector (s : State) (h : SlotId) (seq pos : Nat) (verify : Bool) : State :=
  match s.slot h with
  | none => s
  | some x =>
    if x.wanted.any (fun w => w.seq == seq && w.pos == pos) then
      (s.updHam h (fun x => { x with wanted := x.wanted.map (fun w =>
        if w.seq == seq && w.pos == pos && w.use == .helper then { w with use := .command } else w) })).gatherFor h seq
    else
      match s.readPlace x seq pos with
      | some (b, p, a) =>
        (s.updHam h (fun x => { x with wanted := x.wanted ++ [⟨seq, pos, false, verify, false, false, .command⟩] })).askRead b p a
          (.hamper h seq pos) (s.readBasket b)
      | none =>
        (s.updHam h (fun x => { x with wanted := x.wanted ++ [⟨seq, pos, true, verify, true, false, .command⟩] })).gatherFor h seq

/-- A payload passes R114 as a sector the map expects: magic, check words, kind 0 or 1, hamper, member, row, sequence. -/
def Hamper.expects (x : Hamper) (seq member row : Nat) (p : Bytes) : Bool :=
  metaGood p && dataGood p && byteAt p 6 ≤ 1 && leAt p 8 8 == x.hid && byteAt p 16 == member && leAt p 20 4 == row
    && leAt p 24 8 == seq

/-- A position of a stripe as the code sees it: payload columns and header columns (R231). -/
def columnsOf (parity : Bool) (p : Bytes) : List Nat :=
  symbols16 (p.drop 512 ++ (if parity then slice p 144 24 else slice p 32 24))

/-- The missing position rebuilt from k known ones (R232): its columns by erasure decoding, and for a data position its
data check against its rebuilt header. -/
def Hamper.rebuild (x : Hamper) (pos : Nat) (known : List (Nat × List Nat)) : Option (List Nat) :=
  if known.length < x.k then none
  else
  let n := x.k + x.m
  let era := (List.range n).filter (fun q => !known.any (fun e => e.1 == q))
  let word := fun c => (List.range n).map (fun q => match known.find? (fun e => e.1 == q) with
    | some e => e.2.getD c 0
    | none => 0)
  let cols := (List.range 131084).map (fun c => gf16.rsDecode x.m (word c) era)
  if !cols.all (fun w => w.isSome) then none
  else
    let out := cols.map (fun w => (w.getD []).getD pos 0)
    let body := bytes16 (out.take 131072)
    let head := bytes16 (out.drop 131072)
    if pos < x.k ∧ leAt head 16 8 ≠ (dataCheck body).toNat then none else some out

/-- The known positions of a stripe among given payloads: null ones hold zeros, others must pass R114 as expected. -/
def Hamper.knownOf (x : Hamper) (seq : Nat) (given : List (Nat × Bytes)) : List (Nat × List Nat) :=
  (List.range (x.k + x.m)).filterMap (fun q =>
    if x.isNull seq q then some (q, List.replicate 131084 0)
    else
      match given.find? (fun e => e.1 == q), x.memberAt seq q with
      | some (_, p), some i =>
        (match x.rowOf seq i with
         | some r => if x.expects seq i r p then some (q, columnsOf (decide (x.k ≤ q)) p) else none
         | none => none)
      | _, _ => none)

/-- Members' surfaces that left or regained write service start or stop their grace (R247). Called whenever a bay's
command has acted. -/
def State.noteSurface (s : State) (b : BayId) (p : Pu) : State :=
  allSlots.foldl (fun s h => s.updHam h (fun x => { x with members := x.members.map (fun m =>
    if m.bay == some b then
      if s.surfaceWrites b p then m.setGrace p none
      else if (m.grace p).isNone then m.setGrace p (some s.us) else m
    else m) })) s

/-- A change of service after a command about a bay: graces, and `WHELD` since when (R230). -/
def State.noteService (s : State) (b : BayId) : State :=
  let s := (s.noteSurface b .A).noteSurface b .B
  allSlots.foldl (fun s h => s.updHam h (fun x =>
    if s.wheld x then { x with wheldAt := some (x.wheldAt.getD s.us) } else { x with wheldAt := none })) s

end Sys2Proof.Machine
end

