-- ==== Sys2Proof/Machine/HamperRead.lean ====
section
/-! DEFINITION. Serving reads of a hamper (R246, R282, R284): blocks to the host, sectors that land, fail or are rebuilt,
repairs and the loss of staged writes (Table 14-4). -/

namespace Sys2Proof.Machine

/-- The source of a hamper's events. -/
def State.raiseHam (s : State) (h : SlotId) (e : Ev) (p0 p1 p2 : Nat) : State := s.raise (srcHamper h) e p0 p1 p2

/-- Staged writes whose data (or, with `whole`, whose record) is lost (Table 14-4): the hamper turns `READ_ONLY`, D stays below
the lowest of them, the affected blocks read as unrecovered. -/
def State.stagedLost (s : State) (h : SlotId) (lost : WriteRec → Bool) (whole : Bool) : State :=
  match s.slot h with
  | none => s
  | some x =>
    let ords := (x.writes.filter lost).map (fun w => w.ordinal)
    match ords with
    | [] => s
    | o :: os =>
      let low := os.foldl min o
      let s := s.updHam h (fun x => { x with
        roCause := true
        writes := x.writes.map (fun w => if lost w then { w with lost := true, gone := w.gone || whole } else w) })
      s.raiseHam h .memStagedLost h.val low 0

/-- A landed sector of a hamper. -/
def Hamper.landed? (x : Hamper) (seq pos : Nat) : Option Landed := x.landed.find? (fun l => l.seq == seq && l.pos == pos)

/-- A sector can be neither read nor rebuilt. -/
def Hamper.isDead (x : Hamper) (seq pos : Nat) : Bool := x.wanted.any (fun w => w.seq == seq && w.pos == pos && w.dead)

/-- A block of a landed sector with its block check (R312): the buffers of the sector hold 16 blocks each. -/
def State.landedBlock (s : State) (l : Landed) (i : Nat) : Option Bytes :=
  match (l.buffers[i / 16]?).bind s.buf? with
  | some b => if b.good (i % 16) then b.blocks[i % 16]? else none
  | none => none

/-- The blocks of a payload, 64 of 4 KiB. -/
def blocksOf : Nat → Bytes → List Bytes
  | 0, _ => []
  | n + 1, bs => bs.take 4096 :: blocksOf n (bs.drop 4096)

/-- A sector's payload put into its four buffers, with block checks and the sector's data check (R311, R312). -/
def State.fillSector (s : State) (bufs : List Nat) (payload : Bytes) : State :=
  let bl := blocksOf 64 (payload.drop 512)
  let s := bufs.zipIdx.foldl (fun s e => s.fillBuf e.1 ((bl.drop (16 * e.2)).take 16)) s
  { s with mem := { s.mem with bufs := s.mem.bufs.map (fun b =>
      if bufs.contains b.handle then { b with sector := some (dataCheck (payload.drop 512)) } else b) } }

/-- What became of one block of a `READ` or `VERIFY`. -/
inductive BlockOut where
  | data (d : Bytes) (rebuilt : Bool)
  | zeros
  | skipped
  | lost
  | waiting (seq pos : Nat)
  | badCheck (seq pos : Nat)
  deriving DecidableEq, Repr

/-- The state of one block. A `VERIFY` takes media only, and passes over blocks of newer staged writes. -/
def State.blockOut (s : State) (x : Hamper) (lba : Nat) (verify : Bool) : BlockOut :=
  match x.locate lba with
  | .unmapped => .zeros
  | .staged ord i =>
    if verify then .skipped
    else
      (match x.write? ord with
       | some w =>
         if w.gone then .lost
         else (match s.stagedBlock w i with
           | some d => .data d false
           | none => .lost)
       | none => .lost)
  | .media seq pos blk =>
    if x.mapLost.any (fun e => e.seq == seq && e.pos == pos && e.blk ≤ blk && blk < e.blk + e.len) then .lost
    else
      match x.landed? seq pos with
      | some l =>
        (match s.landedBlock l blk with
         | some d => .data d l.rebuilt
         | none => .badCheck seq pos)
      | none => if x.isDead seq pos then .lost else .waiting seq pos

/-- A buffer for a repair write is asked for in the name of its `VERIFY`, once. -/
def State.repairBuf (s : State) (order : Nat) : State :=
  if (s.bufsOf order).isEmpty && !s.mem.waiters.any (fun w => w.requester == order) then s.drawBufs (leafFor s.bufCfg 4 6) 1 order else s

/-- A write made by the controller itself (R284), staged in the buffer that its `VERIFY` holds and with a record of the
journal (R234). -/
def State.repairWrite (s : State) (h : SlotId) (lba order : Nat) (d : Bytes) : State :=
  match s.slot h with
  | none => s
  | some x =>
    let ord := x.ordNext
    let req := 2 ^ 90 + h.val * 2 ^ 64 + ord
    let bufs := s.bufsOf order
    let no := freeNumber s.writeRecNos
    let s : State := { s with mem := { s.mem with
      bufs := s.mem.bufs.map (fun b => if b.requester == order then { b with requester := req } else b) } }
    let s := bufs.foldl (fun s b => s.fillBuf b [d]) s
    s.updHam h (fun x => { x with
      ordNext := ord + 1
      writes := x.writes ++ [
        { ordinal := ord, fn := 0, sr := 0, tag := 0#6, lba := lba, count := 1, staged := true, record := true,
          settled := false, placed := 0, recNo := no, charge := writeCharge 1, buffers := bufs, firstSeq := 0, firstPos := 0,
          firstBlk := 0, lastSeq := 0, lost := false, gone := false }] })

/-- One block of a command is answered, if it can be (R282, R284). -/
def State.answerBlock (s : State) (h : SlotId) (order i : Nat) : State :=
  match s.slot h, s.cmdAt order with
  | some x, some c =>
    let verify := c.opc == 0x12
    let gone := fun (s : State) (g : Cmd → Cmd) =>
      s.updCmd order (fun c => g { c with todo := c.todo.filter (fun j => j != i) })
    match s.blockOut x (c.lba + i) verify with
    | .zeros =>
      let s := if verify then s else s.hostWrite c (4096 * i) (zeros 4096)
      gone s (fun c => { c with zero := c.zero || !verify })
    | .skipped => gone s id
    | .data d reb =>
      let s := if verify then s else s.hostWrite c (4096 * i) d
      let fin := fun s => gone s (fun c => { c with rebuilt := if reb then c.rebuilt + 1 else c.rebuilt })
      if verify ∧ reb ∧ c.b 40 % 2 = 1 then
        if s.hstate x == .readOnly ∨ x.unmounting.isSome then (fin s).updCmd order (fun c => { c with applied := true })
        else
          -- without a buffer or a record the repair, and with it the block, waits
          let s := s.repairBuf order
          if (s.bufsOf order).isEmpty || (journalRooms (s.bootN .memPartJournalMib)).1 ≤ s.writeRecords then s
          else fin (s.repairWrite h (c.lba + i) order d)
      else fin s
    | .lost => gone s (fun c => { c with failed := c.failed ++ [i] })
    | .badCheck seq pos =>
      -- the block is withheld and its sector is read again (R312, Table 14-4)
      let s := s.raiseHam h .memBlockCheck h.val seq pos
      let bufs := (x.landed? seq pos).elim [] (fun l => l.buffers)
      let s := s.updHam h (fun x => { x with landed := x.landed.filter (fun l => !(l.seq == seq && l.pos == pos)) })
      (s.returnBufs bufs).wantSector h seq pos verify
    | .waiting seq pos => s.wantSector h seq pos verify
  | _, _ => s

/-- A `READ` or `VERIFY` whose blocks are all answered finishes (R282, R284); `applied` marks repairs that could not be
made. -/
def State.closeRead (s : State) (h : SlotId) (order : Nat) : State :=
  match s.cmdAt order with
  | none => s
  | some c =>
    if c.phase != .started || !c.todo.isEmpty then s
    else
      let bad := !c.failed.isEmpty
      if c.opc == 0x12 then
        let st : Status := if bad then .unrecovered else if c.applied then .readOnly else .success
        (s.updCmd order (fun c => { c with applied := false })).finish order st (c.rebuilt + 2 ^ 32 * c.failed.length)
      else
        let first := match c.failed with
          | [] => 0xFFFFFFFF
          | f :: fs => fs.foldl min f
        let s := s.updHam h (fun x => { x with served := x.served + (if c.rebuilt > 0 then 1 else 0),
                                               unrec := x.unrec + (if bad then 1 else 0) })
        let s := if bad then s.raiseHam h .hamperUnrecovered h.val first c.failed.length else s
        s.finish order (if bad then .unrecovered else .success) (first + 2 ^ 32 * c.rebuilt)

/-- The reads of a hamper that can go on, do (R246). Sectors no command waits for any more give their buffers back. -/
def State.serveReads (s : State) (h : SlotId) : State :=
  let cmds := s.host.cmds.filter (fun c => (c.opc == 0x10 || c.opc == 0x12) && c.phase == .started && c.slot == some h
    && (c.opc == 0x10 || c.staged))
  let s := cmds.foldl (fun s c => (c.todo.foldl (fun s i => s.answerBlock h c.order i) s).closeRead h c.order) s
  match s.slot h with
  | none => s
  | some x =>
    let left := s.host.cmds.filter (fun c => (c.opc == 0x10 || c.opc == 0x12) && c.phase == .started && c.slot == some h)
    let need := fun (l : Landed) => left.any (fun c => c.todo.any (fun i =>
      match x.locate (c.lba + i) with
      | .media seq pos _ => l.seq == seq && l.pos == pos
      | _ => false)) || x.wanted.any (fun w => w.rebuild && w.use != .helper && !w.dead && w.seq == l.seq)
    let drop := x.landed.filter (fun l => !need l)
    let s := s.updHam h (fun x => { x with
      landed := x.landed.filter need
      wanted := x.wanted.filter (fun w => !(w.dead && !left.any (fun c => !c.todo.isEmpty))
        && (w.use != .helper || x.wanted.any (fun v => v.seq == w.seq && v.rebuild && v.use != .helper && !v.dead))) })
    s.returnBufs (drop.flatMap (fun l => l.buffers))

/-- A sector read well after it was rebuilt is held against the rebuild (R246): a difference is an event, and the stripe is suspect. -/
def State.compareRebuilt (s : State) (h : SlotId) (seq pos : Nat) (was now : Bytes) : State :=
  if was.drop 512 ≠ now.drop 512 then
    (s.updHam h (fun x => { x with suspects := if x.suspects.contains seq then x.suspects else seq :: x.suspects })).raiseHam
      h .hamperReconDiffer h.val seq pos
  else s

/-- A rebuilt sector's own read is over. -/
def Hamper.compared (x : Hamper) (seq pos : Nat) : Hamper :=
  { x with compare := x.compare.filter (fun e => !(e.1 == seq && e.2.1 == pos)) }

/-- A sector of the hamper has been read well (R246): for a command, as a position of a rebuild, or after it was rebuilt. -/
def State.sectorLanded (s : State) (h : SlotId) (seq pos : Nat) (payload : Bytes) (bufs : List Nat) : State :=
  match s.slot h with
  | none => s.returnBufs bufs
  | some x =>
    match x.compare.find? (fun e => e.1 == seq && e.2.1 == pos) with
    | some (_, _, was) => ((s.returnBufs bufs).updHam h (fun x => x.compared seq pos)).compareRebuilt h seq pos was payload
    | none =>
      if (x.landed? seq pos).isSome then s.returnBufs bufs
      else
        let s := s.fillSector bufs payload
        let s := s.updHam h (fun x => { x with
          landed := x.landed ++ [⟨seq, pos, payload, false, bufs⟩]
          wanted := x.wanted.filter (fun w => !(w.seq == seq && w.pos == pos)) })
        s.serveReads h

/-- A sector read of the hamper has ended without a good sector (R246): it is to be rebuilt, or another position is read in its place;
`early` while its ladder still runs (R119). -/
def State.sectorUnread (s : State) (h : SlotId) (seq pos : Nat) (early : Bool) (bufs : List Nat) : State :=
  let s := s.returnBufs bufs
  let s := if early then s else s.updHam h (fun x => x.compared seq pos)
  ((s.updHam h (fun x => { x with wanted := x.wanted.map (fun w =>
    if w.seq == seq && w.pos == pos then { w with rebuild := true, ended := w.ended || !early } else w) })).gatherFor h seq).serveReads h

/-- The positions of a stripe that landed from media, with null ones: what a rebuild knows (R232). -/
def Hamper.ownKnown (x : Hamper) (seq : Nat) : List (Nat × List Nat) :=
  x.knownOf seq ((x.landed.filter (fun l => l.seq == seq && !l.rebuilt)).map (fun l => (l.pos, l.payload)))

/-- No position read for the rebuild of a stripe can bring another: none is under way, and no ladder of one still runs. -/
def Hamper.helpersEnded (x : Hamper) (seq : Nat) : Bool :=
  x.wanted.all (fun w => w.seq != seq || w.use != .helper || w.ended)

/-- A sector wanted by a command is rebuilt from k known positions (R246), or given up when they cannot be reached and its own ladder
has ended. -/
def State.rebuildSector (s : State) (h : SlotId) (seq pos : Nat) : State :=
  match s.slot h with
  | none => s
  | some x =>
    match x.wanted.find? (fun w => w.seq == seq && w.pos == pos && w.rebuild && !w.dead && w.use == .command) with
    | none => s
    | some w =>
      match x.rebuild pos (x.ownKnown seq) with
      | some cols =>
        let body := bytes16 (cols.take 131072)
        let req := 2 ^ 80 + (h.val * 2 ^ 64 + seq) * 32 + pos
        let s := s.drawBufs (leafFor s.bufCfg 1 6) 4 req
        let bufs := s.bufsOf req
        let payload := zeros 512 ++ body
        let s := s.fillSector bufs payload
        (s.updHam h (fun x => { x with
          landed := x.landed ++ [⟨seq, pos, payload, true, bufs⟩]
          wanted := x.wanted.filter (fun v => !(v.seq == seq && v.pos == pos))
          compare := if w.ended then x.compare else x.compare ++ [(seq, pos, payload)] })).serveReads h
      | none =>
        if x.wanted.any (fun v => v.seq == seq && !v.rebuild) ∨ !x.helpersEnded seq then s
        else if w.ended then
          (s.updHam h (fun x => { x with wanted := x.wanted.map (fun v =>
            if v.seq == seq && v.pos == pos then { v with dead := true } else v) })).serveReads h
        else s

end Sys2Proof.Machine
end

