-- ==== Sys2Proof/Machine/HamperRec.lean ====
section
/-! DEFINITION. Records of hampers (Tables 11-2 and 11-3, R242, R244, R245, R249): labels, checkpoints, pointers,
mounting and recovery. -/

namespace Sys2Proof.Machine

/-! ### Label records (Table 11-2) -/

/-- A label record's payload. -/
def labelRecord (x : Hamper) : Bytes :=
  let entry := fun (i : Nat) => match x.member? i with
    | some m => padTo 32 (padTo 16 m.serial ++ leBytes 1 m.state.code ++ [0#8] ++ leBytes 4 m.joined)
    | none => zeros 32
  sealRecord 4096
    (ascii "YHL1" ++ leBytes 4 x.epoch ++ leBytes 8 x.hid ++ leBytes 1 x.k ++ leBytes 1 x.m ++ leBytes 1 x.policy
      ++ [0#8] ++ leBytes 8 x.created ++ padTo 64 x.label ++ zeros 4 ++ (List.range 32).flatMap entry)

/-- A valid label record: magic and check word (R30). -/
def labelGood (r : Bytes) : Bool := slice r 0 4 == ascii "YHL1" && recordGood 4096 (r.take 4096)

/-- The epoch of a label. -/
def labelEpoch (r : Bytes) : Nat := leAt r 4 4
/-- The hamper ID of a label. -/
def labelHid (r : Bytes) : Nat := leAt r 8 8

/-- The newest valid label among records: the highest epoch (R30). -/
def newestLabel (rs : List Bytes) : Option Bytes :=
  (rs.filter labelGood).foldl (fun a r => match a with
    | some v => if labelEpoch v < labelEpoch r then some r else a
    | none => some r) none

/-- A member state's name from its number. -/
def memberStateOf (n : Nat) : MemberState :=
  if n = 1 then .active else if n = 2 then .removed else if n = 3 then .rebuilding else .unused

/-- The members a label lists. -/
def labelMembers (r : Bytes) : List Member :=
  (List.range (byteAt r 16 + byteAt r 17)).map (fun i =>
    let e := slice r (96 + 32 * i) 32
    { idx := i, bay := none, serial := e.take 16, state := memberStateOf (byteAt e 16), joined := leAt e 18 4, next := 0,
      graceA := none, graceB := none, rebuilt := 0, rebuildTo := 0 })

/-! ### Where records go (Table 01-6, R30) -/

/-- The n-th label sector of a surface; L00 first, then L01 and so on. -/
def labelSector (n : Nat) : SecAddr := ⟨n / 1024, .leadIn, 16 + n % 1024⟩

/-- The n-th pointer sector of a surface. -/
def pointerSector (n : Nat) : SecAddr := ⟨n / 4096, .leadIn, 1040 + n % 4096⟩

/-- A record sector's payload: the record from B[512] on, its sequence in the metadata's stripe row (kinds 2 to 5). -/
def State.recordPayload (s : State) (x : Hamper) (p : Pu) (member kind rec seq : Nat) (commit body : Bytes) : Bytes :=
  payloadOf { kind := kind, reloc := none, hid := x.hid, member := member, k := x.k, m := x.m, writer := p, row := rec,
              seq := seq, first := 0, mask := 0, retired := 0, time := s.time, commit := commit } body

/-- Bays of members that take records: present, active or rebuilding, with a surface that takes them. -/
def Member.takesRecords (m : Member) : Bool := m.bay.isSome && (m.state == .active || m.state == .rebuilding)

/-- The label record written as mirror copies on both surfaces of every active member (R30); a full area makes the
hamper behave as full. -/
def State.writeLabels (s : State) (h : SlotId) : State :=
  match s.slot h with
  | none => s
  | some x =>
    let ms := x.members.filter Member.takesRecords
    let rec' := labelRecord x
    let s := ms.foldl (fun s m =>
      match m.bay with
      | none => s
      | some b =>
        let n := (x.ckpt.lead.getD m.idx (0, 0)).1
        let put := fun (s : State) (p : Pu) =>
          s.handOver b p (Coded.fresh (labelSector n) (.record h 3 x.epoch) (s.recordPayload x p m.idx 3 x.epoch 0 [] rec'))
        if n < 12288 then put (put s .A) .B else s) s
    let full := ms.any (fun m => 12287 ≤ (x.ckpt.lead.getD m.idx (0, 0)).1)
    let n := (ms.filter (fun m => (x.ckpt.lead.getD m.idx (0, 0)).1 < 12288)).length
    let s := ms.foldl (fun s m => match m.bay with
      | some b => s.updBay b (fun y => { y with disc := { y.disc with
          label := some rec', blank := false, labelN := (x.ckpt.lead.getD m.idx (0, 0)).1 + 1 } })
      | none => s) s
    s.updHam h (fun x => { x with
      full := x.full || full
      ckpt := { x.ckpt with
        waiting := (x.ckpt.waiting.1, x.ckpt.waiting.2.1 + 2 * n, x.ckpt.waiting.2.2)
        lead := x.ckpt.lead.zipIdx.map (fun e =>
          if ms.any (fun m => m.idx == e.2) then (e.1.1 + 1, e.1.2) else e.1) } })

/-! ### Checkpoints (R242, Table 11-3) -/

/-- The 32 bytes of a checkpoint entry. -/
def CkEntry.bytes : CkEntry → Bytes
  | .extent e =>
    leBytes 8 e.lba ++ leBytes 4 e.len ++ leBytes 8 e.seq ++ leBytes 1 e.pos ++ leBytes 1 e.blk ++ [1#8, 0#8] ++ leBytes 8 e.ordinal
  | .rowBreak r =>
    leBytes 8 r.seq ++ leBytes 1 r.member ++ leBytes 1 r.present.toNat ++ zeros 2 ++ leBytes 4 r.row ++ zeros 6 ++ [2#8]
      ++ zeros 9
  | .voidRange lo hi => leBytes 8 lo ++ leBytes 8 hi ++ zeros 6 ++ [3#8] ++ zeros 9

/-- A checkpoint entry read back. -/
def ckEntryOf (b : Bytes) : Option CkEntry :=
  let t := byteAt b 22
  if t = 1 then some (.extent ⟨leAt b 0 8, leAt b 8 4, leAt b 12 8, byteAt b 20, byteAt b 21, leAt b 24 8⟩)
  else if t = 2 then some (.rowBreak ⟨leAt b 0 8, byteAt b 8, byteAt b 9 == 1, leAt b 12 4⟩)
  else if t = 3 then some (.voidRange (leAt b 0 8) (leAt b 8 8))
  else none

/-- The entries of a base: the live map with every break and void it needs. Breaks of stripes not yet settled are in later deltas. -/
def Hamper.baseEntries (x : Hamper) : List CkEntry :=
  x.breaks.map .rowBreak ++ x.map.map .extent ++ x.voids.map (fun v => .voidRange v.1 v.2)

/-- A pointer record's payload (Table 11-3). -/
structure PtrIn where
  seq     : Nat
  type    : Nat
  c0      : Nat
  d0      : Nat
  session : Nat
  next    : Nat
  base    : Nat
  first   : Nat
  count   : Nat
  digest  : Nat
  vlo     : Nat
  vhi     : Nat
  rows    : List Nat
  mrows   : List Nat
  deriving DecidableEq, Repr

/-- The bytes of a pointer record. -/
def pointerRecord (x : Hamper) (r : PtrIn) : Bytes :=
  let list32 := fun (l : List Nat) => (List.range 32).flatMap (fun i => leBytes 4 (l.getD i 0))
  sealRecord 4096
    (ascii "YCP1" ++ leBytes 4 x.epoch ++ leBytes 8 r.seq ++ leBytes 8 x.hid ++ leBytes 1 r.type ++ zeros 7
      ++ leBytes 8 r.c0 ++ leBytes 8 r.d0 ++ leBytes 8 r.session ++ leBytes 8 r.next ++ leBytes 8 r.base
      ++ leBytes 8 r.first ++ leBytes 4 r.count ++ zeros 4 ++ leBytes 8 r.digest ++ leBytes 8 r.vlo ++ leBytes 8 r.vhi
      ++ list32 r.rows ++ list32 r.mrows)

/-- A valid pointer record of a hamper. -/
def pointerGood (hid : Nat) (r : Bytes) : Bool :=
  slice r 0 4 == ascii "YCP1" && recordGood 4096 (r.take 4096) && leAt r 16 8 == hid

/-- The newest valid pointer record (R30). -/
def newestPointer (hid : Nat) (rs : List Bytes) : Option Bytes :=
  (rs.filter (pointerGood hid)).foldl (fun a r => match a with
    | some v => if leAt v 8 8 < leAt r 8 8 then some r else a
    | none => some r) none

/-- Next rows of the members, by index. -/
def Hamper.nextRows (x : Hamper) : List Nat :=
  (List.range 32).map (fun i => match x.member? i with
    | some m => m.next
    | none => 0)

/-- The pointer record written on both surfaces of every member in write service (R242); a full area makes the hamper
behave as full (R30). -/
def State.writePointer (s : State) (h : SlotId) (r : Bytes) : State :=
  match s.slot h with
  | none => s
  | some x =>
    let ms := x.members.filter s.memberWrites
    let s := ms.foldl (fun s m =>
      match m.bay with
      | none => s
      | some b =>
        let n := (x.ckpt.lead.getD m.idx (0, 0)).2
        let put := fun (s : State) (p : Pu) =>
          s.handOver b p (Coded.fresh (pointerSector n) (.record h 4 (leAt r 8 8))
            (s.recordPayload x p m.idx 4 (leAt r 8 8) 0 [] r))
        if n < 49152 then put (put s .A) .B else s) s
    let full := ms.any (fun m => 49151 ≤ (x.ckpt.lead.getD m.idx (0, 0)).2)
    let n := (ms.filter (fun m => (x.ckpt.lead.getD m.idx (0, 0)).2 < 49152)).length
    let s := ms.foldl (fun s m => match m.bay with
      | some b => s.updBay b (fun y => { y with disc := { y.disc with pointerN := (x.ckpt.lead.getD m.idx (0, 0)).2 + 1 } })
      | none => s) s
    s.updHam h (fun x => { x with
      full := x.full || full
      ckpt := { x.ckpt with
        pointer := none
        waiting := (x.ckpt.waiting.1, x.ckpt.waiting.2.1, x.ckpt.waiting.2.2 + 2 * n)
        lead := x.ckpt.lead.zipIdx.map (fun e =>
          if ms.any (fun m => m.idx == e.2) then (e.1.1, e.1.2 + 1) else e.1) } })

/-- A management row a member can take next: not before the first of its current write layer (R242). -/
def Hamper.mgmtNext (x : Hamper) (m : Member) : Nat := max (x.ckpt.mgmtRow.getD m.idx 0) (4096 * (m.next / 1146880))

/-- One checkpoint stripe: its sectors by member, in management rows (R229, R231, R242). -/
def State.ckptStripe (s : State) (h : SlotId) (x : Hamper) (number : Nat) (bodies : List Bytes)
    (rows : List (Nat × Nat)) : State :=
  let (d, asg) := assignStripe (rows.map (fun e => e.1)) number x.k x.m
  let t : Stripe :=
    { seq := number, present := rows.map (fun e => e.1), d := d, assign := asg, data := [], opened := none, placed := [],
      state := .encoded, cthru := x.committed, dmark := x.durable, ordHi := 0, openOrd := 0, openSeq := 0, openPos := 0,
      openBlk := 0, voidLo := 0, voidHi := 0, epoch := x.epoch, ckSeq := x.ckpt.settled, recNo := 0 }
  let body := fun q => padTo 262144 (bodies.getD q [])
  let head := fun q => zeros 16 ++ leBytes 8 (dataCheck (body q)).toNat
  let par := parityRows x.m ((List.range x.k).map (fun q => if q < d then symbols16 (body q ++ head q) else [])) 131084
  asg.foldl (fun s e =>
    match x.member? e.1, rows.find? (fun r => r.1 == e.1) with
    | some m, some (_, q) =>
      (match m.bay with
       | none => s
       | some b =>
         let p := mgmtSurface q
         let col := par.map (fun c => c.getD (e.2 - x.k) 0)
         let (bd, hp) := if e.2 < x.k then (body e.2, []) else (bytes16 (col.take 131072), bytes16 (col.drop 131072))
         s.handOver b p (Coded.fresh (mgmtSector q) (.record h 2 number)
           (s.recordPayload x p e.1 2 (x.ckpt.ptrSeq + 1) number (commitRecord t e.2 hp) bd)))
    | _, _ => s) s

/-- Bodies of checkpoint data sectors: 8,192 entries each. -/
def ckptBodies : Nat → List CkEntry → List Bytes
  | 0, _ => []
  | n + 1, es => if es.isEmpty then [] else (es.take 8192).flatMap CkEntry.bytes :: ckptBodies n (es.drop 8192)

/-- Checkpoint stripes of d bodies each, with the management rows they take. -/
def State.ckptStripes (s : State) (h : SlotId) (x : Hamper) (d : Nat) : Nat → Nat → List Bytes → List (Nat × Nat) → State
  | 0, _, _, _ => s
  | n + 1, number, bodies, rows =>
    if bodies.isEmpty then s
    else State.ckptStripes (s.ckptStripe h x number (bodies.take d) rows) h x d n (number + 1) (bodies.drop d)
      (rows.map (fun e => (e.1, e.2 + 1)))

/-- A checkpoint is written (R242): a base once the deltas since the last one hold more entries than it did, a delta
otherwise; its pointer record waits for its stripes. -/
def State.checkpoint (s : State) (h : SlotId) : State :=
  match s.slot h with
  | none => s
  | some x =>
    let p := (x.members.filter s.inP).map (fun m => (m.idx, x.mgmtNext m))
    if p.length < x.k then s
    else
      let base := x.ckpt.sinceBase > x.ckpt.baseSize
      let entries := if base then x.baseEntries else x.ckpt.fresh
      let bodies := ckptBodies (entries.length + 1) entries
      let d := max 1 (p.length - x.m)
      let count := (bodies.length + d - 1) / d
      let seq := x.ckpt.ptrSeq + 1
      let ptr := pointerRecord x
        { seq := seq, type := if base then 1 else 0, c0 := x.committed, d0 := x.durable, session := x.session,
          next := x.nextSeq, base := if base then seq else x.ckpt.basePtr, first := x.ckpt.nextStripe, count := count,
          digest := (dataCheck (entries.flatMap CkEntry.bytes)).toNat, vlo := 0, vhi := 0, rows := x.nextRows,
          mrows := (List.range 32).map (fun i => ((p.find? (fun e => e.1 == i)).map (fun e => e.2)).getD 0) }
      let s := s.ckptStripes h x d (count + 1) x.ckpt.nextStripe bodies p
      let s := s.updHam h (fun x => { x with ckpt := { x.ckpt with
        fresh := [], stripes := 0, last := s.us, ptrSeq := seq, basePtr := if base then seq else x.ckpt.basePtr
        baseSize := if base then entries.length else x.ckpt.baseSize
        sinceBase := if base then 0 else x.ckpt.sinceBase + entries.length
        nextStripe := x.ckpt.nextStripe + count
        waiting := (x.ckpt.waiting.1 + count * p.length, x.ckpt.waiting.2.1, x.ckpt.waiting.2.2)
        failed := [], spare := p.length - d, pointer := some ptr
        mgmtRow := x.ckpt.mgmtRow.zipIdx.map (fun e =>
          match p.find? (fun r => r.1 == e.2) with
          | some r => r.2 + count
          | none => e.1) } })
      if count = 0 then s.writePointer h ptr else s

/-- Stripes all settled, nothing staged, no checkpoint under way: an `UNMOUNT` can finish (R244). -/
def Hamper.quiet (x : Hamper) : Bool := x.writes.isEmpty && x.stripes.isEmpty

/-- A disc's records that a mount reads are to be read anew. -/
def Disc.forget (d : Disc) : Disc := { d with found := d.found.filter (fun r => r.kind == 3 || 4 < r.kind) }

/-- The members of a hamper are released (R244); a later mount reads their pointers and rows again. -/
def State.releaseHamper (s : State) (h : SlotId) : State :=
  let bays := ((s.slot h).elim [] (fun x => x.members)).filterMap (fun m => m.bay)
  let s := bays.foldl (fun s b => s.updBay b (fun y => { y with disc := y.disc.forget })) s
  (s.setSlot h none).bumpGen

/-- The slot and `MEMB` bits that `MOUNT` answers (R291). -/
def State.mountResult (s : State) (h : SlotId) : Nat :=
  match s.slot h with
  | some x => h.val + 2 ^ 32 * s.memb x
  | none => h.val

/-- A record sector has an outcome: when the last label is written a create or replace completes; when the last
checkpoint sector settles its pointer follows; when the last pointer is written the checkpoint is settled, and an
`UNMOUNT` completes (R242, R244, R291). -/
def State.recordOutcome (s : State) (h : SlotId) (kind no : Nat) (written : Bool) : State :=
  match s.slot h with
  | none => s
  | some x =>
    let w := x.ckpt.waiting
    if kind = 2 then
      let s := s.updHam h (fun x => { x with ckpt := { x.ckpt with
        waiting := (w.1 - 1, w.2.1, w.2.2), failed := if written then x.ckpt.failed else no :: x.ckpt.failed } })
      match s.slot h with
      | some y =>
        (match y.ckpt.pointer with
         | some r =>
           if y.ckpt.waiting.1 = 0 then
             if y.ckpt.failed.all (fun q => decide (y.ckpt.failed.count q ≤ y.ckpt.spare)) then s.writePointer h r
             else s.updHam h (fun x => { x with ckpt := { x.ckpt with pointer := none, sinceBase := x.ckpt.baseSize + 1 } })
           else s
         | none => s)
      | none => s
    else if kind = 3 then
      let s := s.updHam h (fun x => { x with ckpt := { x.ckpt with waiting := (w.1, w.2.1 - 1, w.2.2) } })
      if w.2.1 = 1 then
        match x.creating with
        | some o => (s.updHam h (fun x => { x with creating := none })).finish o .success (s.mountResult h)
        | none => s
      else s
    else
      let s := s.updHam h (fun x => { x with ckpt := { x.ckpt with
        waiting := (w.1, w.2.1, w.2.2 - 1), settled := if w.2.2 = 1 then x.ckpt.ptrSeq else x.ckpt.settled } })
      -- the session's record is written: writes are accepted (R249)
      let s := if w.2.2 = 1 then s.updHam h (fun x => { x with session? := if x.session?.any (fun r => leAt r 8 8 == no) then none else x.session? }) else s
      if w.2.2 = 1 ∧ x.quiet ∧ x.ckpt.fresh.isEmpty then
        match x.unmounting with
        | some o => ((s.finish o .success x.durable).releaseHamper h).serveFlushes
        | none => s
      else s

/-- The outcomes that wait for a working engine are delivered, oldest first (R248). -/
def State.flushOutcomes (s : State) : State :=
  let q := s.ham.queued
  let r := s.ham.queuedRecs
  let s := { s with ham := { s.ham with queued := q.filter (fun e => !s.engineUp e.1), queuedRecs := r.filter (fun e => !s.engineUp e.1) } }
  let s := (q.filter (fun e => s.engineUp e.1)).foldl (fun s e => s.sectorOutcome e.1 e.2.1 e.2.2.1 e.2.2.2) s
  (r.filter (fun e => s.engineUp e.1)).foldl (fun s e => s.recordOutcome e.1 e.2.1 e.2.2.1 e.2.2.2) s

/-! ### Mounting (R244, R291, R249) -/

/-- Bays that hold a ready disc with a label of a hamper.
Log 16 (DESIGN CHOICE). -/
def State.labelled (s : State) (hid : Nat) : List (BayId × Bytes) :=
  (List.range 32).filterMap (fun i => if hi : i < 32 then
      let b : BayId := ⟨i, hi⟩
      match (s.bay b).disc.label with
      | some r => if (s.bay b).ready && labelHid r == hid then some (b, r) else none
      | none => none
    else none)

/-- The highest epoch among labels. -/
def topEpoch (ls : List (BayId × Bytes)) : Nat := ls.foldl (fun a e => max a (labelEpoch e.2)) 0

/-- The disc serial of a bay is listed in a label as a member: its index. -/
def State.memberIn (s : State) (b : BayId) (label : Bytes) : Option Nat :=
  match (s.bay b).disc.serial with
  | some sn => ((labelMembers label).find? (fun m =>
      m.serial == padTo 16 sn && (m.state == .active || m.state == .rebuilding))).map (fun m => m.idx)
  | none => none

/-- The discs of a hamper that its label rules admit, at the newest epoch (Table 11-2). -/
def State.admittedDiscs (s : State) (hid : Nat) : List (BayId × Nat) :=
  let ls := s.labelled hid
  let top := topEpoch ls
  match ls.find? (fun e => labelEpoch e.2 == top) with
  | none => []
  | some (_, label) => ls.filterMap (fun e =>
      if labelEpoch e.2 == top then (s.memberIn e.1 label).map (fun i => (e.1, i)) else none)

/-- The lowest free slot (R250).
Log 12 (DESIGN CHOICE). -/
def State.freeSlot (s : State) : Option SlotId := allSlots.find? (fun h => (s.slot h).isNone)

/-- Checkpoint state of a hamper just mounted. -/
def Ckpt.fresh0 : Ckpt :=
  { fresh := [], sinceBase := 0, baseSize := 0, stripes := 0, last := 0, ptrSeq := 0, basePtr := 0, settled := 0,
    nextStripe := 0, mgmtRow := List.replicate 32 0, full := false, waiting := (0, 0, 0), failed := [], spare := 0,
    pointer := none, lead := List.replicate 32 (0, 0) }

/-- A hamper as its label describes it, not yet recovered. -/
def hamperOf (label : Bytes) : Hamper :=
  { hid := labelHid label, k := byteAt label 16, m := byteAt label 17, policy := byteAt label 18,
    epoch := labelEpoch label, created := leAt label 20 8, label := slice label 28 64, members := labelMembers label,
    session := 0, ordNext := 1, writes := [], stripes := [], nextSeq := 1, committed := 0, durable := 0,
    map := [], breaks := [], voids := [], ckpt := .fresh0, mounting := true, ro := false, roCause := false, full := false,
    unmounting := none, attach := none, creating := none, landed := [], wanted := [], suspects := [], served := 0,
    unrec := 0, waitVoid := [], replaces := none, wheldAt := none, mapLost := [], compare := [], session? := none }

/-- The discs of a hamper that are present but not admitted raise `EV_HAMPER_STALE_MEMBER` (Table 11-2). -/
def State.raiseStale (s : State) (hid : Nat) : State :=
  let adm := s.admittedDiscs hid
  (s.labelled hid).foldl (fun s e =>
    if adm.any (fun a => a.1 == e.1) then s
    else s.raise (srcBay e.1 16) .hamperStaleMember (hid % 2 ^ 32) (hid / 2 ^ 32) e.1.val) s

/-- A hamper is mounted from its labels once k admitted discs are present (R244): it enters `MOUNTING` in the lowest
free slot. It spans at most the bays of the part (R4). -/
def State.tryMount (s : State) (hid : Nat) (ro : Bool) (attach : Option Nat) : State :=
  let adm := s.admittedDiscs hid
  match s.freeSlot, (s.labelled hid).find? (fun e => labelEpoch e.2 == topEpoch (s.labelled hid)) with
  | some h, some (_, label) =>
    if adm.length ≥ byteAt label 16 ∧ byteAt label 16 + byteAt label 17 ≤ s.bayCount ∧ (s.slotOf hid).isNone then
      let x := hamperOf label
      let x := { x with
        ro := ro, attach := attach
        members := x.members.map (fun m => match adm.find? (fun a => a.2 == m.idx) with
          | some a => { m with bay := some a.1 }
          | none => m)
        ckpt := { x.ckpt with lead := (List.range 32).map (fun i => match adm.find? (fun a => a.2 == i) with
          | some a => ((s.bay a.1).disc.labelN, (s.bay a.1).disc.pointerN)
          | none => (0, 0)) } }
      State.bumpGen { (s.setSlot h (some x)) with ham := { (s.setSlot h (some x)).ham with
        attached := s.ham.attached.filter (fun a => a.1 != hid) } }
    else s
  | _, _ => s

/-- A disc that arrives at a mounted hamper takes its member's place, if admitted (Table 11-2). -/
def State.joinMounted (s : State) (b : BayId) (h : SlotId) : State :=
  match s.slot h, (s.bay b).disc.label, (s.bay b).disc.serial with
  | some x, some r, some sn =>
    (match x.members.find? (fun m => m.serial == padTo 16 sn) with
     | some m =>
       if labelEpoch r == x.epoch && (m.state == .active || m.state == .rebuilding) then
         let d := (s.bay b).disc
         s.updHam h (fun x =>
           let x := x.updMember m.idx (fun m => { m with bay := some b })
           -- its next records follow those on the disc (R30)
           { x with ckpt := { x.ckpt with lead := x.ckpt.lead.set m.idx (d.labelN, d.pointerN) } })
       else s.raise (srcBay b 16) .hamperStaleMember (x.hid % 2 ^ 32) (x.hid / 2 ^ 32) b.val
     | none => s.raise (srcBay b 16) .hamperStaleMember (x.hid % 2 ^ 32) (x.hid / 2 ^ 32) b.val)
  | _, _, _ => s

/-! ### Recovery at mount (R249) -/

/-- A scanned sector kept: it passes R114 as kind 0 or 1 of this hamper at its member and row. -/
def keptSectors (hid : Nat) (scan : List ScanSector) : List (Nat × Nat × Bytes) :=
  scan.filterMap (fun e => match e.payload with
    | some p =>
      if metaGood p && dataGood p && byteAt p 6 ≤ 1 && leAt p 8 8 == hid && byteAt p 16 == e.member.val && leAt p 20 4 == e.row
      then some (e.member.val, e.row, p) else none
    | none => none)

/-- Kept sectors of a stripe. -/
def keptOf (kept : List (Nat × Nat × Bytes)) (seq : Nat) : List (Nat × Nat × Bytes) :=
  kept.filter (fun e => leAt e.2.2 24 8 == seq)

/-- A stripe is recoverable from what was kept: null positions (k − `DCNT`) and kept sectors number at least k. -/
def recoverableKept (kept : List (Nat × Nat × Bytes)) (k seq : Nat) : Bool :=
  match keptOf kept seq with
  | [] => false
  | e :: es => k ≤ (k - byteAt e.2.2 115) + (e :: es).length

/-- A sequence lies in one of the void ranges. -/
def inVoids (v : List (Nat × Nat)) (seq : Nat) : Bool := v.any (fun e => e.1 ≤ seq && seq ≤ e.2)

/-- The walk of R249: E, the last recoverable stripe outside the voids reached from C without a gap. -/
def walkE (kept : List (Nat × Nat × Bytes)) (k : Nat) (v : List (Nat × Nat)) : Nat → Nat → Nat → Nat
  | 0, _, e => e
  | n + 1, seq, e =>
    if inVoids v seq then walkE kept k v n (seq + 1) e
    else if recoverableKept kept k seq then walkE kept k v n (seq + 1) seq
    else e

/-- Row breaks and absences that a recovered stripe shows. -/
def breaksOf (x : Hamper) (seq : Nat) (ks : List (Nat × Nat × Bytes)) : List RowBreak :=
  match ks with
  | [] => []
  | e :: _ =>
    let present := leAt e.2.2 116 4
    (List.range (x.k + x.m)).filterMap (fun i =>
      if present / 2 ^ i % 2 = 0 then (if (x.rowOf seq i).isNone then none else some ⟨seq, i, false, 0⟩)
      else
        match ks.find? (fun f => f.1 == i) with
        | some f => if x.rowOf seq i == some f.2.1 then none else some ⟨seq, i, true, f.2.1⟩
        | none => none)

/-- The first block and mask of the data positions of a recovered stripe, rebuilt where they were not kept. -/
def headersOf (x : Hamper) (seq : Nat) (ks : List (Nat × Nat × Bytes)) : List (Nat × Nat × Nat) :=
  let d := match ks with
    | e :: _ => byteAt e.2.2 115
    | [] => 0
  let given := ks.map (fun e => (byteAt e.2.2 114, e.2.2))
  (List.range d).filterMap (fun q =>
    match given.find? (fun e => e.1 == q) with
    | some e => some (q, leAt e.2 32 8, leAt e.2 40 8)
    | none =>
      match x.rebuild q (x.knownOf seq given) with
      | some cols =>
        let head := bytes16 (cols.drop 131072)
        some (q, leAt head 0 8, leAt head 8 8)
      | none => none)

/-- Replay of one stripe in slot order, up to a slot that is not replayed. -/
def replayStripe (x : Hamper) (seq : Nat) (ks : List (Nat × Nat × Bytes)) (stop : Option (Nat × Nat × Nat)) : Hamper :=
  let x := { x with breaks := x.breaks ++ breaksOf x seq ks }
  let ord := match ks with
    | e :: _ => leAt e.2.2 88 8
    | [] => 0
  (headersOf x seq ks).foldl (fun x hd =>
    (List.range 64).foldl (fun x i =>
      let past := match stop with
        | some (s0, p0, b0) => decide (s0 < seq) || (s0 == seq && (decide (p0 < hd.1) || (p0 == hd.1 && decide (b0 ≤ i))))
        | none => false
      if hd.2.2.testBit i && !past then
        { x with map := mapPlace x.map ⟨hd.2.1 + i, 1, seq, hd.1, i, ord⟩ }
      else x) x) x

/-- Checkpoint entries put into the map in order. -/
def applyEntry (x : Hamper) (e : CkEntry) : Hamper :=
  match e with
  | .extent e => { x with map := mapExtent x.map e }
  | .rowBreak r => { x with breaks := x.breaks ++ [r] }
  | .voidRange lo hi => { x with voids := x.voids ++ [(lo, hi)] }

/-- The entries of checkpoint data sectors, in the order given. -/
def entriesOf (sectors : List Bytes) : List CkEntry :=
  sectors.flatMap (fun b => (List.range 8192).filterMap (fun i => ckEntryOf (slice b (32 * i) 32)))

/-- A hamper recovered under R249, with the pointer record that ends the mount.
Log 46 (DEDUCED). -/
def Hamper.recover (x : Hamper) (pointers : List Bytes) (chain : List (Bytes × List Bytes)) (scan : List ScanSector) :
    Hamper × Bytes :=
  let ptr := (newestPointer x.hid pointers).getD (zeros 4096)
  let x := (entriesOf (chain.flatMap (fun e => e.2))).foldl applyEntry x
  let sizeOf := fun (t : Nat) => ((chain.filter (fun e => byteAt e.1 24 == t)).flatMap (fun e => entriesOf e.2)).length
  let c := leAt ptr 32 8
  let kept := keptSectors x.hid scan
  let own := (leAt ptr 96 8, leAt ptr 104 8)
  let voids := (kept.filter (fun e => recoverableKept kept x.k (leAt e.2.2 24 8) && leAt e.2.2 120 8 ≠ 0)).map
      (fun e => (leAt e.2.2 120 8, leAt e.2.2 128 8)) ++ (if own.1 ≠ 0 then [own] else [])
  let span := voids.foldl (fun a v => a + (v.2 + 1 - v.1)) (kept.length + 1)
  let e := walkE kept x.k voids span (c + 1) c
  let top := keptOf kept e
  let open' := match top with
    | t :: _ => if leAt t.2.2 96 8 ≠ 0 then some (leAt t.2.2 96 8, leAt t.2.2 104 8, byteAt t.2.2 112, byteAt t.2.2 113) else none
    | [] => none
  let ordHi := (kept.filter (fun k => c < leAt k.2.2 24 8 && leAt k.2.2 24 8 ≤ e && !inVoids voids (leAt k.2.2 24 8))).foldl
      (fun a k => max a (leAt k.2.2 88 8)) 0
  let d := match open' with
    | some o => o.1 - 1
    | none => if e > c ∧ ordHi > 0 then ordHi else leAt ptr 40 8
  let stop := open'.map (fun o => (o.2.1, o.2.2.1, o.2.2.2))
  let x := ((List.range (e - c)).map (fun i => c + 1 + i)).foldl (fun x seq =>
    if inVoids voids seq then x else replayStripe x seq (keptOf kept seq) stop) x
  let next := max (max (leAt ptr 56 8) 1) (kept.foldl (fun a k => max a (leAt k.2.2 24 8 + 1)) 0)
  let rebuilding := fun (i : Nat) => x.members.any (fun m => m.idx == i && m.state == .rebuilding)
  let read := fun (i least : Nat) =>
    (scan.filter (fun r => r.member.val == i && r.payload.isSome)).foldl (fun a r => max a (r.row + 1)) least
  let was := fun (i : Nat) => leAt ptr (112 + 4 * i) 4
  -- a disc in rebuild goes on after its last row that reads as written, up to the old member's frontier (R245)
  let rows := (List.range 32).map (fun i => if rebuilding i then was i else read i (was i))
  let v := if e + 1 < next then (e + 1, next - 1) else (0, 0)
  let session := leAt ptr 48 8 + 1
  let seq := leAt ptr 8 8 + 1
  let x := { x with
    session := session, ordNext := session * 2 ^ 40 + 1, nextSeq := next, committed := next - 1, durable := d
    voids := if v.1 ≠ 0 then x.voids ++ [v] else x.voids, mounting := false
    members := x.members.map (fun m => { m with
      next := rows.getD m.idx 0, rebuilt := if rebuilding m.idx then read m.idx 0 else 0
      rebuildTo := if rebuilding m.idx then was m.idx else 0 })
    ckpt := { x.ckpt with
                          ptrSeq := seq, basePtr := leAt ptr 64 8, settled := leAt ptr 8 8
                          nextStripe := leAt ptr 72 8 + leAt ptr 80 4, baseSize := sizeOf 1, sinceBase := sizeOf 0
                          mgmtRow := (List.range 32).map (fun i =>
                            chain.foldl (fun a e => max a (leAt e.1 (240 + 4 * i) 4 + leAt e.1 80 4)) 0) } }
  (x, pointerRecord x
    { seq := seq, type := 2, c0 := e, d0 := d, session := session, next := next, base := leAt ptr 64 8,
      first := leAt ptr 72 8 + leAt ptr 80 4, count := 0, digest := (dataCheck []).toNat, vlo := v.1, vhi := v.2, rows := rows,
      mrows := [] })

end Sys2Proof.Machine
end

