-- ==== Sys2Proof/Machine/DiscRecs.lean ====
section
/-! DEFINITION. Reading the disc's own sectors (R29 to R32, R115, R241, R242, R249): which identity copy, label, pointer,
relocation record, checkpoint sector, row or power-calibration sector a surface reads next, and what the reads found. Log 50 (DEDUCED). -/

namespace Sys2Proof.Machine

/-! ### What has been read -/

/-- The sectors of one kind read on a surface, in the order of reading. -/
def Disc.reads (d : Disc) (p : Pu) (k : Nat) : List RecRead := d.found.filter (fun r => r.side == p && r.kind == k)

/-- A read found its sector blank. -/
def RecRead.isBlank (r : RecRead) : Bool := r.out == .blank

/-- The record that a sector holds from B[512] on. -/
def RecRead.body (r : RecRead) : Option Bytes := r.data.map (fun d => d.drop 512)

/-- The records of one kind read on both surfaces, surface A first. -/
def Disc.bodies (d : Disc) (k : Nat) : List Bytes := (d.reads .A k ++ d.reads .B k).filterMap RecRead.body

/-- The identity copies read on a surface whose CRC-32 verifies (R32). -/
def Disc.identity? (d : Disc) (p : Pu) : Option Bytes := ((d.reads p 7).filterMap RecRead.body).find? identityGood

/-- The sectors of an append-only area found used on a surface: those before the first blank one (R30). -/
def Disc.usedOf (d : Disc) (p : Pu) (k : Nat) : Nat := ((d.reads p k).takeWhile (fun r => !r.isBlank)).length

/-- A recovery scan as R249 keeps it: each row read of a member, with its payload, none where it was blank. -/
def Disc.scan (d : Disc) (i : Fin 32) : List ScanSector :=
  (d.reads .A 0 ++ d.reads .B 0).map (fun r => ⟨i, r.no, if r.isBlank then none else some (r.data.getD [])⟩)

/-! ### Where the sectors lie -/

/-- The sector of number `no` of a kind: an identity copy, a label or pointer sector, a record sector of a band, a
power-calibration sector counted from the highest downward, a management row, or a row at its home or its spare. -/
def WPath.recordPlace (w : WPath) (kind no : Nat) : SecAddr :=
  if kind = 7 then ⟨0, .leadIn, no⟩
  else if kind = 3 then labelSector no
  else if kind = 4 then pointerSector no
  else if kind = 5 then ⟨no / 512, .data, (if no / 256 % 2 = 0 then 0 else 580864) + no % 256⟩
  else if kind = 6 then ⟨no / 14080, .leadIn, 19215 - no % 14080⟩
  else if kind = 2 then mgmtSector no
  else
    let a := rowSector no
    ((w.relocs.find? (fun r => r.home == a && r.record)).bind (fun r => r.spare)).getD a

/-! ### What is read next on a surface -/

/-- The next identity copy: copies 0 to 15 in order until one verifies (R32). -/
def Disc.nextIdentity (d : Disc) (p : Pu) : Option Nat :=
  let n := (d.reads p 7).length
  if (d.identity? p).isSome ∨ 16 ≤ n then none else some n

/-- The next sector of an append-only area, up to its first blank one. -/
def Disc.nextLog (d : Disc) (p : Pu) (k size : Nat) : Option Nat :=
  let l := d.reads p k
  if l.any RecRead.isBlank ∨ size ≤ l.length then none else some l.length

/-- The next label sector: a disc whose label is known has no need of it. -/
def Disc.nextLabel (d : Disc) (p : Pu) : Option Nat :=
  if d.label.isSome ∨ d.blank then none else d.nextLog p 3 12288

/-- The next record sector of the bands, of which there are 24 to a surface (R241). -/
def Disc.nextReloc (d : Disc) (p : Pu) : Option Nat :=
  (List.range 24).findSome? (fun g =>
    let l := (d.reads p 5).filter (fun r => r.no / 256 == g)
    if l.any RecRead.isBlank ∨ 256 ≤ l.length then none else some (256 * g + l.length))

/-- The hamper that a bay is a member of while it is mounting, with the member's index. -/
def State.mountingOf (s : State) (b : BayId) : Option (Hamper × Member) :=
  allSlots.findSome? (fun h => (s.slot h).bind (fun x =>
    if x.mounting then (x.members.find? (fun m => m.bay == some b)).map (fun m => (x, m)) else none))

/-- The pointer records found on any member (R249). -/
def State.pointersOf (s : State) (x : Hamper) : List Bytes :=
  x.members.flatMap (fun m => m.bay.elim [] (fun b => (s.bay b).disc.bodies 4))

/-- Every surface of the members that can be read has been read to the end of an area. -/
def State.membersRead (s : State) (x : Hamper) (next : BayId → Pu → Option Nat) : Bool :=
  x.members.all (fun m => m.bay.elim true (fun b =>
    [Pu.A, Pu.B].all (fun p => !s.pickupReads b p || (next b p).isNone)))

/-- The pointers of all members have been read. -/
def State.pointersRead (s : State) (x : Hamper) : Bool := s.membersRead x (fun b p => (s.bay b).disc.nextLog p 4 49152)

/-- The pointer records from the base that the newest one names to the newest, without sessions, in pointer order (R249). -/
def chainOf (hid : Nat) (ptrs : List Bytes) : List Bytes :=
  match newestPointer hid ptrs with
  | none => []
  | some top =>
    let base := leAt top 64 8
    let seqs := (List.range (leAt top 8 8 + 1 - base)).map (fun i => base + i)
    seqs.filterMap (fun q => (ptrs.filter (pointerGood hid)).find? (fun r => leAt r 8 8 == q && byteAt r 24 < 2))

/-- The management rows of member i that the chain's checkpoints take (R242, Table 11-3). -/
def ckptRowsOf (chain : List Bytes) (i : Nat) : List Nat :=
  chain.flatMap (fun r => (List.range (leAt r 80 4)).map (fun j => leAt r (240 + 4 * i) 4 + j))

/-- The next management row of a member to read on a surface. -/
def State.nextCkpt (s : State) (b : BayId) (p : Pu) : Option Nat :=
  match s.mountingOf b with
  | none => none
  | some (x, m) =>
    if !s.pointersRead x then none
    else
      let l := (s.bay b).disc.reads p 2
      (ckptRowsOf (chainOf x.hid (s.pointersOf x)) m.idx).find? (fun q => mgmtSurface q == p && !l.any (fun r => r.no == q))

/-- The next row of the recovery scan on a surface: from the row the pointer names, or on a disc in rebuild from the first (R245), until `hamper.recover.blank_rows` blank
rows in a row (R249). -/
def State.nextScan (s : State) (b : BayId) (p : Pu) : Option Nat :=
  match s.mountingOf b with
  | none => none
  | some (x, m) =>
    if !s.pointersRead x then none
    else
      let l := (s.bay b).disc.reads p 0
      let start := if m.state == .rebuilding then 0 else leAt ((newestPointer x.hid (s.pointersOf x)).getD []) (112 + 4 * m.idx) 4
      let first := if rowSurface start = p then start else start + 1
      let n := s.bootN .hamperRecoverBlankRows
      let r := first + 2 * l.length
      if memberRows ≤ r ∨ (n ≤ l.length ∧ (l.drop (l.length - n)).all RecRead.isBlank) then none else some r

/-- Power-calibration sectors of a layer in use: those taken, and those read and found not blank (R31). -/
def Disc.pcaUsed (d : Disc) (w : WPath) (p : Pu) (layer : Nat) : Nat :=
  let taken := ((w.pcaNext.find? (fun e => e.1 == layer)).map (fun e => e.2)).getD 0
  ((d.reads p 6).filter (fun r => r.no / 14080 == layer && !r.isBlank)).foldl (fun a r => max a (r.no % 14080 + 1)) taken

/-- The next unused power-calibration sector has been found blank. -/
def Disc.pcaFound (d : Disc) (w : WPath) (p : Pu) (layer : Nat) : Bool :=
  (d.reads p 6).any (fun r => r.no == 14080 * layer + d.pcaUsed w p layer && r.isBlank)

/-- The power-calibration sector to read next: item 7 is pending for a layer whose next unused sector is not known (R31). -/
def State.nextPca (s : State) (b : BayId) (p : Pu) : Option Nat :=
  let u := s.pu b p
  let d := (s.bay b).disc
  (u.cal.pend.find? (fun q => q.item == 7 && !d.pcaFound u.write p q.layer && decide (d.pcaUsed u.write p q.layer < 14080))).map
    (fun q => 14080 * q.layer + d.pcaUsed u.write p q.layer)

/-- The sector of the disc's own that a surface reads next, by kind and number: the identity while the serial is unknown, and
once the bay is ready the label area, the relocation records and pointers of a labelled disc, what a mount recovers, and
power-calibration sectors.
Log 50 (DEDUCED). -/
def State.recordWanted (s : State) (b : BayId) (p : Pu) : Option (Nat × Nat) :=
  let d := (s.bay b).disc
  let kind := fun (k : Nat) (n : Option Nat) => n.map (fun n => (k, n))
  if d.serial.isNone then (if d.rejected.isSome then none else kind 7 (d.nextIdentity p))
  else if !(s.bay b).ready then none
  else
    ((kind 3 (d.nextLabel p)).or
      (if d.label.isNone then none else (kind 5 (d.nextReloc p)).or (kind 4 (d.nextLog p 4 49152)))).or
      (((kind 2 (s.nextCkpt b p)).or (kind 0 (s.nextScan b p))).or (kind 6 (s.nextPca b p)))

/-- A read serves the disc's own sectors. -/
def Purpose.isRecord : Purpose → Bool
  | .record _ _ => true
  | .hamper _ _ _ => false
  | .verify => false
  | .cal => false

/-- The next sector of the disc's own is asked for; a surface has one such read under way. -/
def State.askRecord (s : State) (b : BayId) (p : Pu) : State :=
  let u := s.pu b p
  let busy := u.reads.any (fun r => r.why.isRecord) || u.cur.any (fun r => r.why.isRecord) || u.slots.any (fun q => q.why.isRecord)
  match s.recordWanted b p with
  | some (k, n) =>
    if busy then s
    else s.updPu b p (fun u => { u with reads := u.reads ++ [⟨u.write.recordPlace k n, .record k n, 0, s.us⟩] })
  | none => s

/-! ### What a read brings -/

/-- An entry of a relocation record (R241): home and spare on the record's layer, or unusable. -/
def relocEntry (layer now e : Nat) : Reloc :=
  { home := ⟨layer, .data, e % 2 ^ 20⟩, spare := if e / 2 ^ 40 % 2 = 1 then none else some ⟨layer, .data, e / 2 ^ 20 % 2 ^ 20⟩
    queued := now, wrote := true, record := true, why := .relocRecord [] }

/-- The entries of a relocation record. -/
def relocEntries (layer now : Nat) (body : Bytes) : List Reloc :=
  if slice body 0 4 == ascii "YRL1" then
    (List.range (min 507 (leAt body 16 4))).map (fun i => relocEntry layer now (leAt body (32 + 8 * i) 8))
  else []

/-- A write path that knows some relocations: newer ones stand for older ones of the same home, and their spares are used. -/
def WPath.learn (w : WPath) (rs : List Reloc) : WPath :=
  { w with
    relocs := w.relocs.filter (fun r => !rs.any (fun n => n.home == r.home)) ++ rs
    spareNext := rs.filterMap (fun r => r.spare) ++ w.spareNext }

/-- A record sector that is not blank is used (R241). -/
def WPath.useRecord (w : WPath) (no : Nat) : WPath :=
  { w with recNext := (no / 512, no / 256 % 2, no % 256 + 1) :: w.recNext.filter (fun e => !(e.1 == no / 512 && e.2.1 == no / 256 % 2)) }

/-- A read of the disc's own has ended: it is kept, and a relocation record applies (R241). -/
def State.noteRecord (s : State) (b : BayId) (p : Pu) (k no : Nat) (o : SecOutcome) (payload : Option Bytes) : State :=
  let r : RecRead := ⟨p, k, no, o, payload⟩
  let s := s.updBay b (fun y => { y with disc := { y.disc with found := y.disc.found ++ [r] } })
  if k = 5 ∧ !r.isBlank then
    let now := s.us
    s.updPu b p (fun u => { u with
      write := (u.write.useRecord no).learn (relocEntries (no / 512) now (r.body.getD [])) })
  else s

/-- The label area of a disc has been read as far as its surfaces can be. -/
def State.areaRead (s : State) (b : BayId) (next : Disc → Pu → Option Nat) : Bool :=
  [Pu.A, Pu.B].all (fun p => !s.pickupReads b p || (next (s.bay b).disc p).isNone)
    && [Pu.A, Pu.B].any (fun p => s.pickupReads b p)

/-- The disc as its label and pointer areas show it (R30): the newest valid label of either surface, or blank. -/
def Disc.fromAreas (d : Disc) : Disc :=
  let none' := d.label.isNone && !d.blank
  { d with
    label := if none' then newestLabel (d.bodies 3) else d.label
    blank := if none' then d.usedOf .A 3 == 0 && d.usedOf .B 3 == 0 else d.blank
    labelN := max d.labelN (max (d.usedOf .A 3) (d.usedOf .B 3))
    pointerN := max d.pointerN (max (d.usedOf .A 4) (d.usedOf .B 4)) }

/-! ### The checkpoints of a mount -/

/-- The sectors of a checkpoint stripe that pass R114 on the members present, as (position, payload). -/
def State.ckptKept (s : State) (x : Hamper) (number : Nat) : List (Nat × Bytes) :=
  x.members.flatMap (fun m => m.bay.elim [] (fun b =>
    (((s.bay b).disc.reads .A 2 ++ (s.bay b).disc.reads .B 2).filterMap (fun r => r.data)).filterMap (fun p =>
      if metaGood p && dataGood p && byteAt p 6 == 2 && leAt p 8 8 == x.hid && byteAt p 16 == m.idx && leAt p 24 8 == number
      then some (byteAt p 114, p) else none)))

/-- The data bodies of a checkpoint stripe, rebuilt where a sector is missing (R232, R242). -/
def Hamper.ckptData (x : Hamper) (kept : List (Nat × Bytes)) : List Bytes :=
  match kept with
  | [] => []
  | (_, p0) :: _ =>
    let d := byteAt p0 115
    let null := ((List.range x.k).filter (fun q => d ≤ q)).map (fun q => (q, List.replicate 131084 0))
    let known := null ++ kept.map (fun e => (e.1, columnsOf (decide (x.k ≤ e.1)) e.2))
    (List.range d).filterMap (fun q => match kept.find? (fun e => e.1 == q) with
      | some e => some (e.2.drop 512)
      | none => (x.rebuild q known).map (fun cols => bytes16 (cols.take 131072)))

/-- The checkpoints from the base on, in pointer order: each pointer record with its data sectors. -/
def State.ckptSectors (s : State) (x : Hamper) : List (Bytes × List Bytes) :=
  (chainOf x.hid (s.pointersOf x)).map (fun r =>
    (r, (List.range (leAt r 80 4)).flatMap (fun j => x.ckptData (s.ckptKept x (leAt r 72 8 + j)))))

/-- Everything R249 reads has been read. -/
def State.recoveryRead (s : State) (x : Hamper) : Bool :=
  s.pointersRead x && s.membersRead x (fun b p => (s.bay b).disc.nextReloc p) && s.membersRead x s.nextCkpt && s.membersRead x s.nextScan

/-- The rows scanned on all members. -/
def State.scanOf (s : State) (x : Hamper) : List ScanSector :=
  x.members.flatMap (fun m => m.bay.elim [] (fun b => if h : m.idx < 32 then (s.bay b).disc.scan ⟨m.idx, h⟩ else []))

end Sys2Proof.Machine
end

