-- ==== Sys2Proof/Machine/SafetyOps.lean ====
section
/-! DEFINITION. The safety island's outputs and trips (19_safety.md). -/

namespace Sys2Proof.Machine

/-- The safety state of a bay. -/
def State.safeBay (s : State) (b : BayId) : BaySafe := s.isl.bays.getD b.val .reset

/-- The safety state of a bay changed. -/
def State.updSafe (s : State) (b : BayId) (f : BaySafe → BaySafe) : State :=
  { s with isl := { s.isl with bays := s.isl.bays.set b.val (f (s.safeBay b)) } }

/-- A bay's pin name (Table 23-3): the bay number in two digits. -/
def bayPin (b : BayId) (name : String) : String :=
  "B" ++ (if b.val < 10 then "0" else "") ++ toString b.val ++ "_" ++ name

/-- The bay's `LSAFE_N` goes low. -/
def State.dropL (s : State) (b : BayId) : State :=
  if (s.safeBay b).lsafe then (s.updSafe b (fun x => { x with lsafe := false })).emit (.pin (bayPin b "LSAFE_N") false) else s

/-- The bay's `SSAFE_N` goes low. -/
def State.dropS (s : State) (b : BayId) : State :=
  if (s.safeBay b).ssafe then (s.updSafe b (fun x => { x with ssafe := false })).emit (.pin (bayPin b "SSAFE_N") false) else s

/-- Both outputs of a bay go low. -/
def State.dropBay (s : State) (b : BayId) : State := (s.dropL b).dropS b

/-- All bays in order. -/
def allBays : List BayId := (List.range 32).filterMap (fun i => if h : i < 32 then some ⟨i, h⟩ else none)

/-- Every output of the chip goes low. -/
def State.dropAll (s : State) : State := allBays.foldl State.dropBay s

/-- An event of a bay's safety functions. -/
def State.raiseSafe (s : State) (b : BayId) (e : Ev) (p0 : Nat) : State := s.raise (srcBay b 18) e b.val p0 0

/-- A laser-monitor or gate trip counts; the bay latches with `safety.lmon.max_trips` of them within one hour (R396). -/
def State.countTrip (s : State) (b : BayId) : State :=
  let now := s.us
  let ts := now :: (s.safeBay b).trips.filter (fun t => now < t + 3600000000)
  let s := s.updSafe b (fun x => { x with trips := ts })
  if s.safe .safetyLmonMaxTrips ≤ ts.length ∧ !(s.safeBay b).latched then
    (s.updSafe b (fun x => { x with latched := true })).raiseSafe b .safetyLatched ts.length
  else s

/-- A laser-monitor trip of a bay (R389). -/
def State.lmonTripBay (s : State) (b : BayId) : State :=
  (((s.updSafe b (fun x => { x with lmonTrip := true, lmonHigh := some s.us })).dropL b).raiseSafe b .safetyLmonTrip 0).countTrip b

/-- The island runs: powered and in range, not halted. -/
def State.islandUp (s : State) : Bool := s.isl.supplyOk && !s.isl.halted

/-- A self-check fails: every output low, the island halts until the next power-on reset, and its event is raised through
the agent (R398). -/
def State.islandFail (s : State) (e : Ev) : State :=
  let s := { s with isl := { s.isl with halted := true, passed := false } }
  s.dropAll.raise 961 e 0 0 0

/-- The island's answer to a system reset (R399): permits withdrawn, outputs low, the heartbeat check suspended. -/
def State.islandSystemReset (s : State) : State :=
  let s := s.dropAll
  { s with isl := { s.isl with hbRun := false, bays := s.isl.bays.map (fun x => { x with hold := false }) } }

/-- The island's own speed from the last toggle intervals, rpm × 1,000: 2.5 / mean interval (R390, R392). -/
def BaySafe.rpmMilli (x : BaySafe) : Nat :=
  let sum := x.intervals.foldl (fun a v => a + v) 0
  if sum = 0 then 0 else 2500000000 * x.intervals.length / sum

/-- The plausibility check of R392 on a report of speed (rpm × 65,536) and state. The two speeds' difference is taken
against the larger of the two.
Log 47 (DEDUCED). -/
def plausFails (tolPct : Nat) (own rep : Nat) (st : SpSt) (silent : Bool) : Bool :=
  let hi := max own rep
  let lo := min own rep
  ((st == .sync || st == .run || st == .decel) && 600000 ≤ hi && hi * tolPct < (hi - lo) * 100)
    || (st == .run && silent)

/-- A pickup has `WPERMIT` at 1 with a loop that shows unlocked (R393). -/
def Pickup.gateOpen (u : Pickup) : Bool := u.link.wpermit && !(u.focus.locked && u.track.locked)

/-- The moment since which a condition holds. -/
def since (old : Option Nat) (now : Nat) (holds : Bool) : Option Nat := if holds then some (old.getD now) else none

/-- What the island sees of a bay in one microsecond: the permit against the lock flags (R393), `LMON_N` against the `LMON` bits
(R398). -/
def BaySafe.watch (x : BaySafe) (y : Bay) (now : Nat) : BaySafe :=
  { x with
    gateA := since x.gateA now y.pa.gateOpen, gateB := since x.gateB now y.pb.gateOpen
    lmonBad := since x.lmonBad now ((y.pa.link.servo.lmon || y.pb.link.servo.lmon) && !x.lmonLow) }

/-- The island watches every bay. -/
def State.watchBays (s : State) : State :=
  { s with isl := { s.isl with bays := s.isl.bays.mapIdx (fun i x => if h : i < 32 then x.watch (s.bay ⟨i, h⟩) s.us else x) } }

/-- The heartbeat is valid in both directions (R396). -/
def State.heartbeatGood (s : State) : Bool :=
  s.isl.hbRun && s.us < s.isl.agAt + 500 && s.us < s.isl.hbAt + 500 && !s.isl.agentLost

/-- What both outputs need (R396): the self-test, the supplies, the heartbeat, the interlock closed for
`safety.rearm_ms`, the bay there and not held, bring-up at step 8 (R399). -/
def State.permitCommon (s : State) (b : BayId) (ilkHighMs : Nat) : Bool :=
  let re := s.safe .safetyRearmMs
  s.islandUp && s.isl.passed && s.isl.rootOk && s.heartbeatGood && !s.isl.outLatched && !s.coresHeld
    && 8 ≤ s.chip.up.step && decide (re ≤ ilkHighMs)
    && (match s.isl.ilkHigh with
        | some t => decide (t + re * 1000 ≤ s.us)
        | none => true)
    && s.bayExists b && !(s.safeBay b).hold

/-- A request for a bay's spindle permit: the conditions of R396 clear its latched trips and raise the output.
Log 47 (DEDUCED). -/
def State.requestS (s : State) (b : BayId) (ilkHighMs : Nat) : State :=
  let x := s.safeBay b
  let quiet := match x.spdfLast with
    | some t => decide (t + 1000000 ≤ s.us)
    | none => true
  if s.permitCommon b ilkHighMs && quiet then
    let s := s.updSafe b (fun x => { x with ssafe := true, overTrip := false, plausTrip := false, failSince := none,
                                            repAt := s.us })
    if x.ssafe then s else s.emit (.pin (bayPin b "SSAFE_N") true)
  else s

/-- A request for a bay's laser permit (R396).
Log 47 (DEDUCED). -/
def State.requestL (s : State) (b : BayId) (ilkHighMs lmonHighMs : Nat) : State :=
  let x := s.safeBay b
  let re := s.safe .safetyRearmMs
  let since := match x.lmonHigh with
    | some t => decide (t + re * 1000 ≤ s.us)
    | none => true
  if s.permitCommon b ilkHighMs && decide (re ≤ lmonHighMs) && since && !x.overTrip && x.ssafe && !x.latched then
    let s := s.updSafe b (fun x => { x with lsafe := true, lmonTrip := false, gateTrip := false, lmonLow := false })
    if x.lsafe then s else s.emit (.pin (bayPin b "LSAFE_N") true)
  else s

end Sys2Proof.Machine
end

