-- ==== Sys2Proof/Machine/ChipOps.lean ====
section
/-! DEFINITION. Resets and chip-fatal errors (16_clocks_resets_bringup.md, R383, R384), and what becomes of commands at a
core reset (Table 13-7). -/

namespace Sys2Proof.Machine

/-! ### Bay readiness (R353) -/

/-- The conditions of `BREADY` (R353), in a region that is not lost (R382) and with the island at work (R394). -/
def State.bayReadyNow (s : State) (b : BayId) : Bool :=
  let y := s.bay b
  let puOk := fun (u : Pickup) => u.cal.passed && u.ms.st != .off && u.ms.st != .failed
  y.mlink.st == .active && y.spindle.st != .fault && y.spindle.st != .safeHold && y.spindle.st != .stopped
    && y.disc.serial.isSome && y.disc.rejected.isNone && (puOk y.pa || puOk y.pb)
    && s.mportUp b && s.regionUp (regionOf b) && !(s.safeBay b).hold

/-- `BREADY` of a bay brought up to date; a change updates the status page. -/
def State.refreshReady (s : State) (b : BayId) : State :=
  let r := s.bayReadyNow b
  if (s.bay b).ready = r then s else (s.updBay b (fun y => { y with ready := r })).bumpGen

/-- What follows every command about a bay: readiness, graces, `WHELD`. -/
def State.after (s : State) (b : BayId) : State := (s.refreshReady b).noteService b

/-- A command about a bay: its effect where the bay exists, with the changes of readiness and service it brings about
(R353, R247); the fault of R3 where it does not.
Log 10 (DEDUCED). -/
def withBay (b : BayId) (s : State) (f : State → State) : Host.Outcome State Fault Refusal :=
  if s.bayExists b then .next ((f s).after b) else .fault .noSuchBay

/-! ### Chip-fatal (R383, R384) -/

/-- The number of a chip-fatal cause, in the order of R383's list. -/
def fatalNum : FatalCause → Nat
  | .contexts => 0
  | .duplex => 1
  | .ddrPll => 2
  | .regions => 3

/-- A crash record of 64 KiB (R384): the newest 1,024 event records from byte 1,024 on, oldest first, of 32 bytes each. -/
def State.crashRecord (s : State) (cause : FatalCause) (kind inst : Nat) : Bytes :=
  let head := padTo 1024
    (ascii "YXCR" ++ zeros 4 ++ leBytes 8 (s.flash.crashSeq + 1) ++ leBytes 8 s.time ++ leBytes 1 (fatalNum cause)
      ++ leBytes 1 kind ++ leBytes 1 inst)
  let evs := (s.chip.last.take 1024).reverse.flatMap (fun r => evBytes r 0 false)
  sealRecord 65536 (head ++ evs)

/-- A chip-fatal error (R383): the fabric freezes, fetching and host DMA stop, the crash record is captured,
`EV_CHIP_FATAL` goes to the PF, and the island drives every output low.
Log 43 (DEDUCED). -/
def State.chipFatal (s : State) (cause : FatalCause) (kind inst : Nat) : State :=
  if s.chip.fatal.isSome then s
  else
    let rec' := s.crashRecord cause kind inst
    let s := s.raise 960 .chipFatal (fatalNum cause) kind inst
    { s with chip := { s.chip with fatal := some cause, fatalAt := s.us, crash := some rec' },
             blk := { s.blk with frozen := true } }.dropAll

/-! ### Wider resets (Table 16-3, R350) -/

/-- `RESET_CAUSE` with a bit set (R345). -/
def causeBit (c : BitVec 64) (n : Nat) : BitVec 64 := c ||| BitVec.ofNat 64 (2 ^ n)

/-- The machine with everything in the system reach reset (Table 16-3): fuses, flash, the always-on store, the safety
island, `RESET_CAUSE` and the debug lock are kept; rings, memory, bays, slots and the trail start anew. -/
def State.systemReset (s : State) : State :=
  let isl := s.islandSystemReset.isl
  { State.reset with
    pending := s.pending, out := s.islandSystemReset.out, free := s.free, flash := { s.flash with jobs := [] }
    cfg := { s.cfg with units := [] }, isl := isl, inj := ⟨[], 1⟩
    mem := { MemState.reset with gib := s.mem.gib, aonRows := s.mem.aonRows, aonRemaps := s.mem.aonRemaps }
    trust := { Trust.reset with
      fuses := s.trust.fuses, shadow := s.trust.shadow, fwSlot := s.trust.fwSlot, staged := s.trust.staged
      jtagOpen := s.trust.jtagOpen }
    chip := { ChipState.reset with
      rst := { s.chip.rst with core := none, host := false, wdog := false }
      up := { ChipState.reset.up with fused := s.chip.up.fused }
      clk := { ChipState.reset.clk with us := s.chip.clk.us }
      power := s.chip.power, repair := s.chip.repair, repairSeq := s.chip.repairSeq } }

/-- A source of the system reach asserts (Table 16-2): its bit of `RESET_CAUSE` is set, and the reach is reset unless it
was in force already. Internal sources asserted before are cancelled (R350). -/
def State.assertSystem (s : State) (bit : Nat) : State :=
  let was := s.sysHeld
  let s := if was then s else s.systemReset
  let r := { s.chip.rst with cause := causeBit s.chip.rst.cause bit, core := none, host := false, wdog := false }
  let r := if bit = 1 then { r with sysrst := true } else if bit = 2 then { r with perst := true }
    else if bit = 3 then { r with wdog := true } else if bit = 4 then { r with island := true } else { r with host := true }
  { s with chip := { s.chip with rst := r } }

/-- A power-on reset asserts: everything, the island and the debug logic included (Table 16-3). -/
def State.assertPower (s : State) : State :=
  let s := s.systemReset.dropAll
  let s := if s.chip.power.tripped then s.emit (.pin "THERMTRIP_N" true) else s
  { s with
    isl := .reset, trust := { s.trust with jtagOpen := false }
    mem := { s.mem with
      aonRows := if s.chip.power.aonOk then s.mem.aonRows else [], aonRemaps := if s.chip.power.aonOk then s.mem.aonRemaps else [] }
    chip := { s.chip with
      rst := { s.chip.rst with porst := true, island := false }
      up := { s.chip.up with fused := false }
      power := { s.chip.power with avs := 750, avsFails := 0, tripped := false } } }

/-- Sources released one by one (R345, R350): a power-on release clears `RESET_CAUSE`, then sets bit 0 and the bit of
every source still asserted.
Log 42 (DEDUCED). -/
def State.releaseSource (s : State) (src : Nat) : State :=
  let r := s.chip.rst
  let r :=
    if src = 0 then
      if r.porst then
        { r with
          porst := false
          cause := BitVec.ofNat 64 (1 + (if r.sysrst then 2 else 0) + (if r.perst then 4 else 0) + (if r.island then 16 else 0)) }
      else r
    else if src = 1 then { r with sysrst := false }
    else if src = 2 then { r with perst := false }
    else if src = 3 then { r with wdog := false }
    else if src = 4 then { r with island := false }
    else if src = 5 then { r with host := false }
    else r
  { s with chip := { s.chip with rst := r } }

/-! ### The status page (R259, R260, Table 12-4) -/

/-- `FREADY` as a function sees it: every function that is ready for the PF, the VF's own bit for a VF (R260). -/
def State.freadyFor (s : State) (f : FnId) : Nat :=
  (s.host.fns.filter (fun x => x.ready && (f == 0 || x.id == f))).foldl (fun a x => a + 2 ^ x.id.val) 0

/-- `BREADY`. -/
def State.bready (s : State) : Nat := (allBays.filter (fun b => s.bayExists b && (s.bay b).ready)).foldl (fun a b => a + 2 ^ b.val) 0

/-- The 32 bytes of a hamper slot. -/
def State.slotPage (s : State) (h : SlotId) : Bytes :=
  match s.slot h with
  | none => zeros 32
  | some x =>
    let (d, f) := s.hready x
    leBytes 8 x.hid ++ leBytes 8 x.durable ++ leBytes 8 x.committed ++ leBytes 4 (s.memb x) ++ leBytes 1 (s.hstate x).code
      ++ leBytes 1 (d.toNat + 2 * f.toNat + 4 * (s.wheld x).toNat) ++ zeros 2

/-- The fields of the status page as they are now. -/
def State.pageNow (s : State) (f : FnId) : Bytes :=
  let h := s.host
  padTo 4096
    (leBytes 4 h.gen ++ leBytes 4 h.hbeat ++ leBytes 1 h.stage
      ++ leBytes 1 (h.ready.toNat + 2 * s.chip.rst.core.isSome.toNat + 4 * h.act.isSome.toNat) ++ zeros 6
      ++ leBytes 8 s.chip.rst.cause.toNat ++ leBytes 8 s.time ++ leBytes 32 (s.freadyFor f) ++ leBytes 4 s.bready ++ zeros 60
      ++ allSlots.flatMap s.slotPage)

/-- The status page that a function reads in its BAR0. During a core reset it keeps its last contents, with `CORERST` set
(R277). -/
def State.statusPage (s : State) (f : FnId) : Bytes :=
  if s.chip.rst.core.isSome then
    (if f = 0 then s.host.page
     else putAt s.host.page 32 (leBytes 32 (if (leAt s.host.page 32 32).testBit f.val then 2 ^ f.val else 0)))
  else s.pageNow f

/-! ### Core reset (R296, R347, Table 13-7) -/

/-- Armed swaps and tunes of a pickup are cancelled; a tune restores its live bank (R179, R180). -/
def Pickup.cancelSwaps (u : Pickup) : Pickup :=
  let g := fun (x : Loop) => { x with armed := [], tune := none, fresh := x.fresh || x.tune.isSome }
  { u with focus := g u.focus, track := g u.track, tilt := g u.tilt }

/-- A core reset asserts: `CORERST`, its bit of `RESET_CAUSE`. Under a wider reset no core-reach source can assert. The
replies to `CTRL` operations sent before it will be discarded (R180), calibration runs in progress too (R359). Flash operations that a command waits for stop. -/
def State.assertCore (s : State) (bit : Nat) : State :=
  if s.sysHeld then s
  else
    let mark := fun (u : Pickup) =>
      { u.cancelSwaps with
        link := { u.link with ctrl := u.link.ctrl.map (fun (c : CtrlOp) => { c with discard := true }) }
        write := { u.write with load := none }
        cal := { u.cal with step := none, pend := u.cal.pend.map (fun q => { q with parts := q.parts.map (fun a => { a with first := none }) }) } }
    let was := s.chip.rst.core.isSome
    let r := { s.chip.rst with core := some (s.chip.rst.core.getD s.us), cause := causeBit s.chip.rst.cause bit }
    let s : State := { s with chip := { s.chip with rst := r } }
    -- a staging operation that has not reached NOR does not (Table 13-7)
    let s := { s with flash := { s.flash with jobs := s.flash.jobs.filter (fun j => j.order.isNone) } }
    let s := State.bumpGen { s with bays := s.bays.map (fun (y : Bay) => { y with
      pa := mark y.pa, pb := mark y.pb, spindle := { y.spindle with armed := [] } }) }
    { s with host := { s.host with page := if was then s.host.page else s.pageNow 0 } }

/-- The fate of one command across a core reset (Table 13-7). Its buffers are freed when its completion posts (R316), at once
where it posts none.
Log 58 (DEDUCED). -/
def State.coreFate (s : State) (c : Cmd) : State :=
  let drop := fun (s : State) => if c.silent then s.dropRequester c.order else s
  match c.phase with
  | .held _ => s
  | .waiting =>
    -- an `ABORT` has started at its acceptance (R287)
    if c.opc = 0x21 then
      s.finishApplied c.order .interruptedReset 0 ((c.bound.bind s.cmdAt).any (fun t => t.phase == .done && t.status == .aborted))
    else s
  | .done => s
  | .started =>
    let o := c.opc
    if o = 0x20 ∨ o = 0x41 then s
    else if o = 0x11 then
      match c.slot with
      | some h =>
        if c.staged then s.finishApplied c.order .interruptedReset c.ordinal true
        else
          (drop (s.updHam h (fun x => x.voidWrite c.ordinal))).finishApplied c.order .interruptedReset c.ordinal false
      | none => s.finishApplied c.order .interruptedReset 0 false
    else if o = 0x50 ∨ o = 0x51 then
      -- `APPLIED` where the label or final pointer records are all written
      let done := fun (h : SlotId) (k : Nat) => (s.ham.queuedRecs.filter (fun e => e.1 == h && e.2.1 == k)).length
      let left := allSlots.any (fun h => match s.slot h with
        | some x => (x.creating == some c.order && decide (done h 3 < x.ckpt.waiting.2.1))
            || (x.unmounting == some c.order && (!x.quiet || decide (done h 4 < x.ckpt.waiting.2.2))) || x.attach == some c.order
        | none => false)
      let clear := fun (v : Option Nat) => if v == some c.order then none else v
      let s := allSlots.foldl (fun s h => s.updHam h (fun x => { x with
        creating := clear x.creating, attach := clear x.attach, unmounting := clear x.unmounting })) s
      let s := { s with ham := { s.ham with
        attached := s.ham.attached.map (fun (a : Nat × Bool × Option Nat) => (a.1, a.2.1, clear a.2.2)) } }
      s.finishApplied c.order .interruptedReset 0 (!left)
    else if o = 0x40 then
      -- a chunk or commit that reached NOR has finished its command
      s.finishApplied c.order .interruptedReset 0 false
    else (drop s).finishApplied c.order .interruptedReset 0 false

/-- The order in which held records are written: by `ETIME`, with ties lower `SRC` first (R429). -/
def EvRec.earlier (a c : EvRec) : Bool := decide (a.time < c.time ∨ (a.time = c.time ∧ a.src < c.src))

/-- The events held during a core reset are posted in `ETIME` order, each flagged `HELD`; each function that lost records beyond the
store receives one overflow record after them (R429, R430). -/
def State.postHeld (s : State) : State :=
  let held := sortBy EvRec.earlier s.ev.held
  let lost := s.ev.lost
  let s := { s with ev := { s.ev with held := [], lost := [] } }
  let s := held.foldl (fun s r => (s.evTargets r).foldl (fun s f => s.deliver f r) s) s
  lost.foldl (fun s e => (s.updFn e.1 (fun x => { x with lost := x.lost + e.2 })).flushLost e.1) s

/-- An engine's queue is posted into the store, and one overflow event if records were dropped (R181, R430). -/
def State.postEngine (s : State) (q : EvQueue) : State :=
  let s := q.recs.foldl (fun s r => s.storeEv r) s
  if q.dropped = 0 then s
  else s.storeEv ⟨s.time, srcRegion q.region 4, .cengEventOverflow, s.injOnSrc (srcRegion q.region 4), true, q.engine, q.dropped, 0, 0⟩

/-- The queues of all engines are posted and left empty. -/
def State.postEngines (s : State) : State :=
  let queues := s.ev.queues
  queues.foldl (fun s q => s.postEngine q) { s with ev := { s.ev with queues := [] } }

/-- The cores return (R347): commands meet their fates in fetch order, queued outcomes reach the hamper engines (R248),
held events are posted, and the queue engine resumes. -/
def State.coresReturn (s : State) : State :=
  let cmds := s.host.cmds
  let s := { s with chip := { s.chip with rst := { s.chip.rst with core := none } } }
  let s := cmds.foldl (fun s c => match s.cmdAt c.order with
    | some c => s.coreFate c
    | none => s) s
  let fates := (s.host.cmds.filter (fun c => c.phase == .done && !c.silent)).map (fun c => c.order)
  let s : State := { s with host := { s.host with fates := fates, fatesEnd := s.host.nextOrder } }
  s.flushOutcomes.postEngines.postHeld.bumpGen

end Sys2Proof.Machine
end

