-- ==== Sys2Proof/Machine/Image.lean ====
section
/-! DEFINITION. Flash directory, boot state and images (15_configuration_image.md), measured start (20_trust.md). -/

namespace Sys2Proof.Machine

/-! ### The directory (R320, R321) -/

/-- One directory entry: type, offset, size. -/
structure DirEntry where
  type   : Nat
  offset : Nat
  size   : Nat
  deriving DecidableEq, Repr

/-- The entries of a directory copy. -/
def dirEntries (d : Bytes) : List DirEntry :=
  (List.range (leAt d 6 2)).map (fun e => ⟨leAt d (16 + 16 * e) 2, leAt d (20 + 16 * e) 4, leAt d (24 + 16 * e) 4⟩)

/-- Two ranges do not overlap. -/
def apart (a n b m : Nat) : Bool := a + n ≤ b || b + m ≤ a

/-- Entries pairwise apart. -/
def allApart : List DirEntry → Bool
  | [] => true
  | e :: es => es.all (fun f => apart e.offset e.size f.offset f.size) && allApart es

/-- A directory copy is valid (R320, R321). -/
def dirGood (flashSize : Nat) (d : Bytes) : Bool :=
  let es := dirEntries d
  slice d 0 4 == ascii "GNDR" && leAt d 4 2 == 1 && 8 ≤ leAt d 6 2 && leAt d 6 2 ≤ 16 && recordGood 4096 (d.take 4096)
    && [1, 2, 3, 4, 5, 6, 7, 8].all (fun t => (es.filter (fun e => e.type == t)).length == 1)
    && es.all (fun e => e.offset % 65536 == 0 && e.size % 65536 == 0 && e.offset + e.size ≤ flashSize
        && apart e.offset e.size 0 65536 && apart e.offset e.size 65536 65536)
    && allApart es
    && es.all (fun e => if e.type = 1 ∨ e.type = 2 then 1048576 ≤ e.size && e.size ≤ 33554432 else true)
    && es.all (fun e => if e.type = 8 then 131072 ≤ e.size else true)

/-- The directory in force: the valid copy with the higher sequence (R320). Irreducible, so that no unifier evaluates its 4 KiB reads. -/
@[irreducible] def Flash.dir (f : Flash) : Option (List DirEntry) :=
  let a := f.read 0 4096
  let b := f.read 65536 4096
  match dirGood f.size a, dirGood f.size b with
  | true, true => some (dirEntries (if leAt a 8 8 < leAt b 8 8 then b else a))
  | true, false => some (dirEntries a)
  | false, true => some (dirEntries b)
  | false, false => none

/-- The region of a type: offset and size. -/
def Flash.region (f : Flash) (t : Nat) : Option (Nat × Nat) :=
  f.dir.bind (fun es => (es.find? (fun e => e.type == t)).map (fun e => (e.offset, e.size)))

/-! ### Boot-state records (R322, Table 15-3) -/

/-- A valid boot-state record. -/
def bootGood (r : Bytes) : Bool := slice r 0 4 == ascii "GBST" && recordGood 64 r

/-- Positions and contents of the valid records of a region of 64-byte records. -/
def Flash.bootRecords (f : Flash) : List (Nat × Bytes) :=
  match f.region 8 with
  | none => []
  | some (o, n) => ((List.range (n / 64)).map (fun i => (o + 64 * i, f.read (o + 64 * i) 64))).filter (fun e => bootGood e.2)

/-- The newest record: the highest sequence (R322). -/
def Flash.bootNewest (f : Flash) : Option (Nat × Bytes) :=
  f.bootRecords.foldl (fun a r => match a with
    | some v => if leAt v.2 8 8 < leAt r.2 8 8 then some r else a
    | none => some r) none

/-- The boot state as its newest record gives it: image slot, firmware slot, slot states, image sequence. -/
structure BootState where
  image  : Nat
  fw     : Nat
  states : List Nat
  imgSeq : Nat
  deriving DecidableEq, Repr

/-- The boot state in force; a flash without a record names slot A, with blank slots. -/
def Flash.boot (f : Flash) : BootState :=
  match f.bootNewest with
  | some (_, r) => ⟨byteAt r 16 % 2, byteAt r 17 % 2, (List.range 4).map (fun i => byteAt r (18 + i)), leAt r 24 8⟩
  | none => ⟨0, 0, [0, 0, 0, 0], 0⟩

/-- A boot-state record. -/
def bootRecord (seq : Nat) (b : BootState) : Bytes :=
  sealRecord 64
    (ascii "GBST" ++ zeros 4 ++ leBytes 8 seq ++ leBytes 1 b.image ++ leBytes 1 b.fw
      ++ (List.range 4).flatMap (fun i => leBytes 1 (b.states.getD i 0)) ++ zeros 2 ++ leBytes 8 b.imgSeq)

/-- A range reads as erased flash. -/
def Flash.isBlank (f : Flash) (o n : Nat) : Bool := !f.mem.any (fun c => o ≤ c.1 && c.1 < o + n)

/-- Where the next boot-state record goes, and the unit to erase first (R322). -/
def Flash.bootNext (f : Flash) : Option (Nat × Option Nat) :=
  match f.region 8 with
  | none => none
  | some (o, n) =>
    let next := match f.bootNewest with
      | some (p, _) => if o + n ≤ p + 64 then o else p + 64
      | none => o
    some (next, if next % 65536 = 0 ∧ !f.isBlank next 65536 then some next else none)

/-- A boot-state record appended (R322). -/
def Flash.bootAppend (f : Flash) (b : BootState) : Flash :=
  match f.bootNext with
  | none => f
  | some (p, e) =>
    let f := match e with
      | some u => f.eraseAt u 65536
      | none => f
    let seq := (match f.bootNewest with
      | some (_, r) => leAt r 8 8
      | none => 0) + 1
    f.program p (bootRecord seq b)

/-! ### Images (R323 to R326) -/

/-- A bank from its 128 bytes (Table 08-2). -/
def bankOf (b : Bytes) : Bank :=
  let c := fun i => signedOf 32 (leAt b i 4)
  { K := c 0, b0 := c 4, b1 := c 8, a1 := c 12, c0 := c 16, c1 := c 20, d1 := c 24, ki := c 28, umax := leAt b 32 2,
    ilim := leAt b 34 2, slew := leAt b 36 2, gshift := byteAt b 38 % 16, ien := byteAt b 39 % 2 == 1, emax := leAt b 40 2,
    gains := (List.range 17).map (fun j => leAt b (42 + 2 * j) 2), p1 := c 76, p2 := c 80, q1 := c 84, q2 := c 88,
    rmax := leAt b 92 2, satmax := leAt b 94 2 }

/-- Neighbouring gains differ by no more than a factor of 2. -/
def gainsSmooth : List Nat → Bool
  | a :: b :: gs => a ≤ 2 * b && b ≤ 2 * a && gainsSmooth (b :: gs)
  | _ => true

/-- A bank is well-formed (R166): the gains from 0.0625 to 8.0 with 12 fraction bits are 256 to 32,768. -/
def bankGood (b : Bytes) : Bool :=
  let k := bankOf b
  b.length == 128 && k.gains.all (fun g => 256 ≤ g && g ≤ 32768) && gainsSmooth k.gains && 1 ≤ k.umax && k.umax ≤ 32767
    && k.ilim ≤ k.umax && 1 ≤ k.slew && k.gshift ≤ 12 && byteAt b 38 / 16 == 0 && byteAt b 39 / 2 == 0
    && (slice b 96 28).all (fun x => x == 0#8) && recordGood 128 b

/-- The number of an encoding (R325). -/
def encCode : FieldEnc → Nat
  | .uint => 0
  | .sint => 1
  | .enumeration => 2
  | .fixed => 3
  | .block => 4

/-- A field record's value decoded (R325), if its encoding and length are the field's. -/
def fieldValue (f : Field) (enc : Nat) (v : Bytes) : Option Int :=
  let n := v.length
  if enc ≠ encCode f.info.enc then none
  else
    match f.info.enc with
    | .uint => if n = 1 ∨ n = 2 ∨ n = 4 ∨ n = 8 then some (leNat v) else none
    | .sint => if n = 1 ∨ n = 2 ∨ n = 4 ∨ n = 8 then some (signedOf (8 * n) (leNat v)) else none
    | .enumeration => if n = 1 then some (leNat v) else none
    | .fixed => if n = 4 then some (signedOf 32 (leNat v)) else none
    | .block => none

/-- The field records of a section body (R324), from the last (number, index) seen; `none` where a record is unknown,
repeated, out of order, or out of range. -/
def parseFields (sec : Nat) : Nat → Bytes → Nat × Nat → Cfg → Option Cfg
  | 0, body, _, c => if body.isEmpty then some c else none
  | n + 1, body, last, c =>
    if body.isEmpty then some c
    else if body.length < 8 then none
    else
      let num := leAt body 0 2
      let idx := leAt body 2 2
      let len := leAt body 4 2
      let enc := byteAt body 6
      let pad := (len + 3) / 4 * 4
      let v := slice body 8 len
      let ordered := decide (last.1 < num) || (last.1 == num && decide (last.2 < idx))
      match Field.find sec num with
      | none => none
      | some f =>
        if byteAt body 7 ≠ 0 ∨ !ordered ∨ body.length < 8 + pad ∨ !(slice body (8 + len) (pad - len)).all (fun x => x == 0#8)
            ∨ !f.indexOk idx then none
        else
          let rest := body.drop (8 + pad)
          if f.info.enc == .block then
            if enc = 4 ∧ bankGood v then
              parseFields sec n rest (num, idx) ⟨c.nums, (f, bankOf v) :: c.banks.filter (fun e => e.1 != f)⟩
            else none
          else
            match fieldValue f enc v with
            | some x => if f.inRange x then parseFields sec n rest (num, idx) (c.set f idx x) else none
            | none => none

/-- The section types of Table 15-5. -/
def sectionTypes : List Nat := [1, 2, 3, 4, 5, 6, 7, 8, 9, 10, 11, 12, 13, 14, 16, 17, 18, 19]

/-- The sections of an image (R324): ascending, known, once each; what follows the last is 0. -/
def parseSections : Nat → Bytes → Nat → Cfg → Option Cfg
  | 0, rest, _, c => if rest.all (fun x => x == 0#8) then some c else none
  | n + 1, rest, last, c =>
    let t := leAt rest 0 2
    let len := leAt rest 4 4
    if rest.length < 8 + len ∨ leAt rest 2 2 ≠ 1 ∨ len % 4 ≠ 0 ∨ t ≤ last ∨ !sectionTypes.contains t then none
    else
      match parseFields t (len / 8 + 1) (slice rest 8 len) (0, 0) c with
      | some c => parseSections n (rest.drop (8 + len)) t c
      | none => none

/-- Header fields of an image (Table 15-4). -/
def imgLength (h : Bytes) : Nat := leAt h 8 4
/-- The sequence of an image. -/
def imgSeq (h : Bytes) : Nat := leAt h 16 8

/-- The measurement of an image: SHA3-512 over header bytes 0–31 and bytes 16,384 to length − 1 (R323, R404). -/
def imgDigest (img : Bytes) : Bytes := sha3_512 (img.take 32 ++ (img.take (imgLength img)).drop 16384)

/-- Reserved header bytes are 0. -/
def imgReserved (h : Bytes) : Bool :=
  (slice h 6 2 ++ slice h 27 5 ++ slice h 96 4000 ++ slice h 8731 7653).all (fun x => x == 0#8) && byteAt h 24 / 4 == 0
    && byteAt h 26 / 2 == 0

/-- The signature fields of a header agree: none of them is set in an unsigned one (Table 15-4). -/
def imgSigned (h : Bytes) : Bool :=
  let n := leAt h 4096 4
  if byteAt h 26 % 2 = 1 then n == 4627 else n == 0 && (slice h 4104 4627).all (fun x => x == 0#8)

/-- The signature verdict of R408: 0 accepted, 2 failed; and the key that verified, 0xFF for none. -/
def signatureVerdict (fuses : Fuses) (h : Bytes) : Nat × Nat :=
  let need := fuses.sig || byteAt h 26 % 2 == 1
  if !need then (0, 0xFF)
  else
    let key := leAt h 4100 4
    let good := leAt h 4096 4 == 4627 && key < 4 && !fuses.revoked.getLsbD key
      && Config.mldsaVerify key (h.take 96) (slice h 4104 4627)
    if good then (0, key) else (2, 0xFF)

/-- The part and stepping test of an image: its part bit, and stepping B0 or lower (R326, R404). -/
def partOk (p : Part) (h : Bytes) : Bool :=
  (match p with
   | .YX3216 => byteAt h 24 % 2 == 1
   | .YX1616 => byteAt h 24 / 2 % 2 == 1) && byteAt h 25 ≤ 0xB0

/-- The cross-field rules of the chapters: R81's table, R160, R205, R207, R225, R278, R303, R313. -/
def crossRules (m : MemState) (p : Part) (c : Cfg) : Bool :=
  c.int .sheetDefectLowPct < c.int .sheetDefectEndPct
    && c.int .loopFocusLockNm < c.int .loopFocusUnlockNm && c.int .loopTrackLockNm < c.int .loopTrackUnlockNm
    && c.nat .loopLayerSaRampUs * 96 + 200 * c.nat .loopFocusLockTicks ≤ 840 * 96
    && c.nat .spindleOverRpm + 200 ≤ c.nat .safetyOverTripRpm
    && c.int .spindleCatchMinRpm ≤ c.int .spindleStartHandoverRpm
    && c.int .spindleStartRampMa ≤ c.int .spindleCurrentMaxMa && c.int .spindleStartAlignMa ≤ c.int .spindleCurrentMaxMa
    && (c.nat .sledHoldPct == 0 || 500 ≤ c.nat .sledCurrentRunPct * c.nat .sledHoldPct)
    && c.int .sledBoundInnerUm + 36000 ≤ c.int .sledBoundOuterUm
    && c.nat .hostVfTotal * c.nat .hostVfSr + 4096 ≤ 1048576 && c.nat .hostVfTotal * c.nat .hostVfCr + 256 ≤ 65536
    && c.nat .hostVfTotal * c.nat .hostVfCtx + 1024 ≤ 262144
    && partitionsFit m c (partPickups p) && basketSum c (partPickups p) ≤ poolBuffers m c (partPickups p)

/-- Required fields are present (R325): the banks. -/
def requiredPresent (c : Cfg) : Bool :=
  Field.all.all (fun f => !f.info.required || (c.bank f).isSome)

/-- The verdict on an image as R326 gives it, apart from the sequence rule: its fields if it is valid; the trail result
code otherwise (1 digest, 2 signature, 0 for a digest and signature accepted but another check failed). -/
def checkImage (s : State) (slotSize : Nat) (img : Bytes) : Option Cfg × Nat × Nat :=
  let n := imgLength img
  let dig := imgDigest img == slice img 32 64
  let sig := signatureVerdict s.trust.shadow img
  let head := slice img 0 4 == ascii "GLIT" && leAt img 4 2 == 1 && n % 4096 == 0 && 16384 ≤ n && n ≤ slotSize
    && 1 ≤ leAt img 12 4 && leAt img 12 4 ≤ 256 && imgSeq img ≠ 0 && imgReserved img && imgSigned img
  let res := if !dig then 1 else if sig.1 ≠ 0 then 2 else 0
  if head && partOk s.trust.shadow.part img && dig && sig.1 == 0 then
    match parseSections (leAt img 12 4) ((img.take n).drop 16384) 0 .empty with
    | some c => if requiredPresent c && crossRules s.mem s.trust.shadow.part c then (some c, res, sig.2) else (none, res, sig.2)
    | none => (none, res, sig.2)
  else (none, res, sig.2)

/-! ### Measurement (R406, R407) -/

/-- A slot extended with a digest, and its trail entry, in one step (R407); entries past 4,096 are dropped and counted
(R411). -/
def State.extend (s : State) (slot etype res key obj src : Nat) (detail digest : Bytes) : State :=
  let t := s.trust
  let old := t.slots.getD slot (zeros 64)
  let slots := t.slots.set slot (sha3_512 (old ++ digest))
  let e : TrailEntry := ⟨t.count, s.time, slot, etype, res, key, obj, src, detail, digest⟩
  { s with trust := { t with
      slots := slots, count := t.count + 1
      trail := if t.trail.length < 4096 then t.trail ++ [e] else t.trail
      dropped := if t.trail.length < 4096 then t.dropped else t.dropped + 1 } }

/-- A trail entry's bytes (Table 20-2). -/
def TrailEntry.bytes (e : TrailEntry) : Bytes :=
  leBytes 8 e.seq ++ leBytes 8 e.time ++ leBytes 1 e.slot ++ leBytes 1 e.etype ++ leBytes 1 e.res ++ leBytes 1 e.key
    ++ leBytes 8 e.obj ++ leBytes 4 e.src ++ padTo 32 e.detail ++ padTo 64 e.digest

/-- Bytes 4 to 7 of the identify data: part, stepping, fuse bits (Table 13-9). -/
def idBytes (f : Fuses) : Bytes :=
  leBytes 2 (match f.part with
    | .YX3216 => 0x3216
    | .YX1616 => 0x1616)
    ++ [0xB0#8] ++ leBytes 1 ((if f.sig then 1 else 0) + (if f.inj then 2 else 0))

/-- The digest of the fuse state (R406): identify bytes 4–7, the revocation field, `PERST_SYS`. -/
def fuseDigest (f : Fuses) : Bytes :=
  sha3_512 (idBytes f ++ leBytes 1 f.revoked.toNat ++ leBytes 1 f.perstSys.toNat)

/-- The whole of a flash region. -/
def Flash.regionBytes (f : Flash) (t : Nat) : Bytes :=
  match f.region t with
  | some (o, n) => f.read o n
  | none => []

/-- A loader or firmware of a slot: its header region starts at the slot for the loader, at the next 4 KiB boundary after
it for the firmware (R404). -/
def fwPart (slot : Bytes) (loader : Bool) : Bytes := if loader then slot else slot.drop ((imgLength slot + 4095) / 4096 * 4096)

/-- Whether a loader or firmware is accepted (R404), with the result code and key of its trail entry. -/
def checkCode (s : State) (loader : Bool) (img : Bytes) : Bool × Nat × Nat :=
  let n := imgLength img
  let dig := imgDigest img == slice img 32 64
  let sig := signatureVerdict s.trust.shadow img
  let head := slice img 0 4 == ascii (if loader then "GLLD" else "GLFW") && leAt img 4 2 == 1 && n % 4096 == 0
    && 16384 ≤ n && n ≤ img.length && (!loader || n ≤ 262144) && leAt img 12 4 == 0 && imgReserved img && imgSigned img
    && partOk s.trust.shadow.part img
  (head && dig && sig.1 == 0, if !dig then 1 else if sig.1 ≠ 0 then 2 else 0, sig.2)

/-- A loader or firmware of flash slot 0 or 1 is measured into its measurement slot, accepted or not (R405). -/
def State.measureCode (s : State) (loader : Bool) (slot : Nat) : Bool × State :=
  let img := fwPart (s.flash.regionBytes (3 + slot)) loader
  let v := checkCode s loader img
  (v.1, s.extend (if loader then 0 else 1) (if loader then 1 else 2) v.2.1 v.2.2 (imgSeq img) slot [] (imgDigest img))

/-- The configuration image of flash slot 0 or 1 is measured into slot 2 (R405, R327). -/
def State.measureImage (s : State) (slot : Nat) : Option Cfg × State :=
  let img := s.flash.regionBytes (1 + slot)
  let v := checkImage s img.length img
  (v.1, s.extend 2 3 v.2.1 v.2.2 (imgSeq img) slot [] (imgDigest img))

/-! ### Values coming into force (R327, R332, R335, R336) -/

/-- The `safety` fields. -/
def safetyFields : List Field := Field.ofSectionSafety

/-- A change of a `safety` field lies in its safe direction (R336). -/
def safeChange (f : Field) (old new : Int) : Bool :=
  match f.info.cls with
  | .safety up => if up then old ≤ new else new ≤ old
  | _ => false

/-- The island at a start (R335): the section as it is, or its ROM defaults where a value lies outside its ranges. -/
def State.islandStart (s : State) : State :=
  let c := s.cfg.committed.ofSection 17
  if safetyFields.all (fun f => f.inRange (c.int f)) then { s with isl := { s.isl with vals := c } }
  else ({ s with isl := { s.isl with vals := .empty } }).raise 961 .safetyCfgRefuse 0 0 0

/-- A committed image offered to the island outside a start (R336): safe-direction changes are taken; the others are not
offered, since they wait for the next start. -/
def State.islandCommit (s : State) : State :=
  let v := safetyFields.foldl (fun v f =>
    let new := s.cfg.committed.int f
    if new ≠ v.int f ∧ safeChange f (v.int f) new then v.set f 0 new else v) s.isl.vals
  { s with isl := { s.isl with vals := v } }

/-- The image in force is selected at step 7 (R327): the slot the boot state names, the other slot, or defaults. -/
def State.selectImage (s : State) : State :=
  let b := s.flash.boot
  let (c, s) := s.measureImage b.image
  match c with
  | some c =>
    { s with cfg := { s.cfg with
      committed := c, boot := c, units := [], seq := imgSeq (s.flash.regionBytes (1 + b.image)), slot := b.image, found := true } }
  | none =>
    let other := 1 - b.image
    let (c, s) := s.measureImage other
    match c with
    | some c =>
      let seq := imgSeq (s.flash.regionBytes (1 + other))
      let nb := { b with image := other, states := (b.states.set other 1).set b.image 2, imgSeq := seq }
      let s := { s with
        flash := s.flash.bootAppend nb
        cfg := { s.cfg with committed := c, boot := c, units := [], seq := seq, slot := other, found := true } }
      s.raise 900 .cfgSlotFallback b.image other 0
    | none =>
      let s := { s with cfg := { s.cfg with committed := .empty, boot := .empty, units := [], seq := 0, found := false } }
      s.raise 900 .cfgNoImage 0 0 0

/-- Some BOOT field, or a `safety` field against its safe direction, or `spindle.over.rpm` held back under R333, differs
from the values of the last start: `RESULT` [0] (R294, R332, R336). -/
def bootDiffers (boot new : Cfg) (trip : Nat) : Bool :=
  Field.all.any (fun f =>
    match f.info.cls with
    | .boot => (List.range (if f.info.indexed then 256 else 1)).any (fun i => boot.at f i ≠ new.at f i)
    | .safety _ => new.int f ≠ boot.int f && !safeChange f (boot.int f) (new.int f)
    | _ => false) || decide (trip < new.nat .spindleOverRpm + 200)

/-- A committed image's fields come into force by class (R332): LIVE at once, BOUNDARY staged, BOOT at the next start;
`spindle.over.rpm` only 200 rpm below the trip in force (R333). A bank that a supervisor failure set aside may be brought into force
again (R171).
Log 18 (DESIGN CHOICE). -/
def State.commitImage (s : State) (c : Cfg) (seq slot : Nat) : State :=
  let trip := s.safe .safetyOverTripRpm
  let c := if c.nat .spindleOverRpm + 200 ≤ trip then c else c.set .spindleOverRpm 0 (s.cfg.committed.int .spindleOverRpm)
  let loop := fun (x : Loop) => { x with aside := false }
  let pu := fun (u : Pickup) => { u with focus := loop u.focus, track := loop u.track, tilt := loop u.tilt }
  ({ s with
    cfg := { s.cfg with committed := c, seq := seq, slot := slot, found := s.cfg.found }
    bays := s.bays.map (fun (y : Bay) => { y with pa := pu y.pa, pb := pu y.pb }) }).islandCommit

end Sys2Proof.Machine
end

