-- ==== Sys2Proof/Machine/HostOps.lean ====
section
/-! DEFINITION. Rings, quotas, the acceptance checks of commands, readiness gates and posting (12_host_rings.md,
13_command_semantics.md). -/

namespace Sys2Proof.Machine

/-! ### Quotas (R256) -/

/-- The number of VFs the boot values give. -/
def State.vfTotal (s : State) : Nat := s.bootN .hostVfTotal

/-- A function exists: the PF, or a VF up to `host.vf.total`. -/
def State.fnExists (s : State) (f : FnId) : Bool := f.val ≤ s.vfTotal

/-- Submission rings of a function. -/
def State.srQuota (s : State) (f : FnId) : Nat :=
  if f = 0 then 1048576 - s.vfTotal * s.bootN .hostVfSr else s.bootN .hostVfSr

/-- Completion rings of a function. -/
def State.crQuota (s : State) (f : FnId) : Nat :=
  if f = 0 then 65536 - s.vfTotal * s.bootN .hostVfCr else s.bootN .hostVfCr

/-- Command contexts of a function. -/
def State.ctxQuota (s : State) (f : FnId) : Nat :=
  if f = 0 then 262144 - s.vfTotal * s.bootN .hostVfCtx else s.bootN .hostVfCtx

/-- MSI-X vectors of a function (Table 12-1). -/
def State.vectors (s : State) (f : FnId) : Nat := if f = 0 then 2048 else s.bootN .hostVfVectors

/-! ### Functions becoming ready (R261, R354) -/

/-- Admin SR 0 of a function, at index 0. -/
def adminSr (f : FnId) : Sr :=
  { fn := f, id := 0, cr := 0, base := 0, depth := 64, hold := 0xFFFF, head := 0, tail := 0, stopped := false, deleting := none }

/-- Admin CR 0 of a function, at index 0, on vector 0 and never coalesced. -/
def adminCr (f : FnId) : Cr :=
  { fn := f, id := 0, event := false, base := 0, depth := 64, vec := 0, cthr := 1, ctime := 0, next := 0, phase := true,
    head := 0, pending := 0, since := none, signalled := false }

/-- A function as it starts: not ready, bus mastering off, nothing in its BAR images. -/
def Fn.fresh (f : FnId) : Fn :=
  { id := f, ready := false, bme := false, msix := [], sr0 := [], cr0 := [], recent := [], lost := 0, fseq := 0,
    doe := ⟨false, false, []⟩ }

/-- A function becomes ready, with its admin rings (R261); `FREADY` changes. -/
def State.fnReady (s : State) (f : FnId) : State :=
  let s := s.updFn f (fun x => { x with ready := true })
  let h := s.host
  State.bumpGen { s with host := { h with
    srs := if h.srs.any (fun r => r.fn == f && r.id == 0) then h.srs else h.srs ++ [adminSr f]
    crs := if h.crs.any (fun c => c.fn == f && c.id == 0) then h.crs else h.crs ++ [adminCr f] } }

/-- A function level reset of one function (R276): its rings, event ring and MSI-X state go; accepted commands run on
silently. It is not ready until its reset ends (R354). -/
def State.flr (s : State) (f : FnId) : State :=
  match s.fn? f with
  | none => s
  | some _ =>
    let s := s.updFn f (fun _ => Fn.fresh f)
    let h := s.host
    State.bumpGen { s with host := { h with
      srs := h.srs.filter (fun r => r.fn != f), crs := h.crs.filter (fun c => c.fn != f)
      cmds := (h.cmds.filter (fun c => !(c.fn == f && c.phase == .done))).map (fun c =>
        if c.fn == f then { c with silent := true } else c) } }

/-! ### Scatter lists (R272, Table 12-8) -/

/-- A list segment obeys the segment rules. -/
def segOk (addr len : Nat) : Bool := 16 ≤ len && len % 16 == 0 && len ≤ 4096 && addr % 4096 + len ≤ 4096

/-- The elements of a segment: its data pieces and the next segment. -/
def parseElems : Nat → Bytes → Option (List (Nat × Nat) × Option (Nat × Nat))
  | 0, _ => some ([], none)
  | n + 1, b =>
    let a := leAt b 0 8
    let l := leAt b 8 4
    let f := leAt b 12 4
    if f > 1 ∨ a % 4 ≠ 0 then none
    else if f = 1 then (if n = 0 && segOk a l then some ([], some (a, l)) else none)
    else if l = 0 ∨ l % 4 ≠ 0 then none
    else (parseElems n (b.drop 16)).map (fun r => ((a, l) :: r.1, r.2))

/-- A list of at most 64 segments: its data pieces.
Log 21 (DEDUCED). -/
def parseList : Nat → Nat → Nat → List Bytes → Option (List (Nat × Nat))
  | 0, _, _, _ => none
  | _, _, _, [] => none
  | k + 1, addr, len, seg :: segs =>
    if !segOk addr len || seg.length != len then none
    else
      match parseElems (len / 16) seg with
      | none => none
      | some (ps, none) => some ps
      | some (ps, some (a, l)) => (parseList k a l segs).map (fun r => ps ++ r)

/-- Bytes of a list of pieces. -/
def piecesLen (ps : List (Nat × Nat)) : Nat := ps.foldl (fun n p => n + p.2) 0

/-! ### Fields (Tables 12-5, 12-6, 13-2, 13-3, 18-5, 20-3, 21-1) -/

/-- `n` bytes from offset i are 0. -/
def zeroAt (e : Bytes) (i n : Nat) : Bool := (slice e i n).all (fun x => x == 0#8)

/-- The pieces of a data buffer of `n` blocks (R272), if the description is good. -/
def dataPieces (e : Bytes) (segs : List Bytes) (n : Nat) : Option (List (Nat × Nat)) :=
  let mode := leAt e 2 2
  if mode = 1 then (if leAt e 32 4 = 4096 * n then some [(leAt e 24 8, 4096 * n)] else none)
  else if mode = 2 then
    match parseList 64 (leAt e 24 8) (leAt e 32 4) segs with
    | some ps => if piecesLen ps = 4096 * n then some ps else none
    | none => none
  else none

/-- A command without data: `DMODE`, `DPTR`, `DLEN` are 0. -/
def noData (e : Bytes) : Bool := zeroAt e 2 2 && zeroAt e 24 12

/-- The opcodes of Table 13-2. -/
def opKnown (o : Nat) : Bool :=
  [0x01, 0x02, 0x03, 0x04, 0x10, 0x11, 0x12, 0x20, 0x21, 0x30, 0x31, 0x32, 0x40, 0x41, 0x50, 0x51, 0x60].contains o

/-- Opcodes accepted on SR 0 only. -/
def opAdmin (o : Nat) : Bool := opKnown o && !([0x10, 0x11, 0x12, 0x20, 0x21].contains o)

/-- Opcodes of the PF only. -/
def opPf (o : Nat) : Bool := [0x40, 0x41, 0x50, 0x51, 0x60].contains o

/-- `FAULT_INJECT` is enabled by fuse and configuration (R417). -/
def State.injectOn (s : State) : Bool := s.trust.shadow.inj && s.bootN .injectEnable == 1

/-- The opcode is allowed on this ring and function (R280 check 2, with R317, R385, R412, R417). -/
def State.permitted (s : State) (f : FnId) (sr : Nat) (e : Bytes) : Bool :=
  let o := byteAt e 0
  (if opAdmin o then sr == 0 else if o == 0x21 then true else sr != 0)
    && (f == 0 || !opPf o)
    && (f == 0 || !(o == 0x31 && byteAt e 42 % 8 != 0))
    && (f == 0 || !(o == 0x32 && (byteAt e 40 == 2 || byteAt e 40 == 3)))
    && (o != 0x60 || (s.injectOn && (byteAt e 40 != 4 || s.bootN .memPartDiagMib != 0)))

/-- The fields of an arming `FAULT_INJECT`, bytes 40 to 63 (Tables 21-1 and 21-2). -/
def State.armOk (s : State) (b : Bytes) : Bool :=
  let kind := byteAt b 1
  let bay := byteAt b 2
  let lane := byteAt b 3
  let mode := byteAt b 4
  let pat := byteAt b 5 % 16
  let fix := byteAt b 5 / 16 == 1
  let count := leAt b 6 2
  let prob := leAt b 8 4
  let dur := leAt b 16 4
  let bit := leAt b 20 2
  let up := kind == 0 && lane % 4 != 3
  let frame := if kind = 0 then 4096 else if kind = 1 then 20000 else 512
  byteAt b 5 / 32 == 0 && leAt b 12 4 ≤ 10000000 && leAt b 22 2 == 0
    && (if kind = 0 then bay < s.bayCount && lane < 8
        else if kind = 1 then bay < s.bayCount && lane < 2
        else if kind = 2 then (bay < s.bayCount / 8 || bay == 4 || bay == 5) && lane < 8
        else kind == 3 && bay < s.bayCount && lane % 32 < 18 && lane / 64 < 3)
    && (if kind = 3 then mode == 3 && pat < 3 && count == 0 && prob == 0 && bit == 0 && !fix
        else if mode = 0 then
          !fix && bit == 0 &&
            (if pat = 0 then count == 0 && prob == 0 && dur == 0
             else if pat = 1 then 1 ≤ count && count ≤ 4096 && prob == 0 && dur == 0
             else pat == 2 && count == 0 && prob != 0)
        else if mode = 1 then
          pat == 0 && 1 ≤ count && dur == 0 && bit + 32 ≤ frame && (!fix || up || kind == 2)
        else
          mode == 2 && (up || kind == 2) && !fix && bit == 0 && prob == 0 && dur == 0 &&
            (if pat = 0 then count == 0 else pat == 1 && 1 ≤ count && count ≤ 7))

/-- The certificate chain as `AOP` 1 returns it (R410): the count, a length for each certificate, and the certificates, the device's
first; the vendor's is that of the firmware in force. Each is cut where the chain would pass its 32 KiB. -/
def State.chainBytes (s : State) : Bytes :=
  let dev := Config.certDevice.take 16379
  let ven := (Config.certVendor (fwPart (s.flash.regionBytes (3 + s.trust.fwSlot)) false)).take 16379
  leBytes 2 2 ++ leBytes 4 dev.length ++ leBytes 4 ven.length ++ dev ++ ven

/-- Every field meets its command's rules, apart from the data description (R280 check 3). The blocks of data it
takes, if it takes any, are given back. -/
def State.fieldsOk (s : State) (f : FnId) (e : Bytes) : Option Nat :=
  let o := byteAt e 0
  let n := leAt e 4 4
  let none0 := noData e
  let ok := fun (b : Bool) (k : Nat) => if b && byteAt e 1 < 128 && byteAt e 3 == 0 && byteAt e 2 < 3 && zeroAt e 36 4 then some k else none
  let ring := zeroAt e 2 6 && zeroAt e 40 24
  let srid := leAt e 8 4
  if o = 0x01 then
    ok (ring && 1 ≤ srid && srid < s.srQuota f && zeroAt e 14 2 && leAt e 16 8 % 4096 == 0 && 2 ≤ leAt e 24 4
      && leAt e 24 4 ≤ 4096 && (leAt e 28 2 ≤ 3600 || leAt e 28 2 == 0xFFFF) && zeroAt e 30 6) 0
  else if o = 0x02 then ok (ring && 1 ≤ srid && srid < s.srQuota f && zeroAt e 12 24) 0
  else if o = 0x03 then
    let depth := leAt e 24 4
    let event := byteAt e 12 == 1
    ok (ring && 1 ≤ srid && srid < s.crQuota f && byteAt e 12 ≤ 1 && zeroAt e 13 3 && leAt e 16 8 % 4096 == 0
      && (if event then 64 ≤ depth && depth ≤ 4096 else 2 ≤ depth && depth ≤ 65536) && leAt e 28 2 < s.vectors f
      && 1 ≤ leAt e 30 2 && leAt e 30 2 ≤ depth - 1 && leAt e 32 2 ≤ 10000 && zeroAt e 34 2) 0
  else if o = 0x04 then ok (ring && 1 ≤ srid && srid < s.crQuota f && zeroAt e 12 24) 0
  else if o = 0x10 ∨ o = 0x11 then ok (1 ≤ n && n ≤ 8192 && zeroAt e 40 24) n
  else if o = 0x12 then ok (none0 && 1 ≤ n && n ≤ 8192 && byteAt e 40 ≤ 1 && zeroAt e 41 23) 0
  else if o = 0x20 then ok (none0 && n == 0 && zeroAt e 16 8 && zeroAt e 40 24) 0
  else if o = 0x21 then
    ok (none0 && zeroAt e 4 20 && byteAt e 1 < 64 && leAt e 40 4 < 1048576 && byteAt e 44 < 64 && zeroAt e 45 19) 0
  else if o = 0x30 then ok (n == 1 && zeroAt e 8 16 && zeroAt e 40 24) 1
  else if o = 0x31 then
    let page := byteAt e 40
    let sel := byteAt e 41
    ok (n == 1 && zeroAt e 8 16 && zeroAt e 46 18 && byteAt e 42 < 8
      && (if page = 0 ∨ page = 4 then sel == 0
          else if page = 1 then sel < s.bayCount / 8 || sel == 4 || sel == 5
          else if page = 2 then sel < s.bayCount
          else page == 3 && sel < 16)
      && (if byteAt e 42 / 4 % 2 = 1 then page == 2 && byteAt e 43 < 3 && leAt e 44 2 % 2 == 0 && leAt e 44 2 < 8192
          else zeroAt e 43 3)) 1
  else if o = 0x32 then
    let a := byteAt e 40
    if a = 0 then ok (2 ≤ n && n ≤ 130 && byteAt e 41 == 0) n
    else if a = 1 then ok (1 ≤ n && s.chainBytes.length ≤ 4096 * n && zeroAt e 8 16 && zeroAt e 41 23) n
    else if a = 2 then ok (none0 && n == 0 && zeroAt e 8 16 && zeroAt e 41 23) 0
    else ok (a == 3 && none0 && n == 0 && zeroAt e 8 16 && byteAt e 41 < 4 && zeroAt e 42 22) 0
  else if o = 0x40 then
    ok ((n != 0 || none0) && zeroAt e 8 16 && byteAt e 40 < 16 && byteAt e 40 % 4 < 2 && zeroAt e 41 3 && zeroAt e 48 16) n
  else if o = 0x41 then ok (none0 && n == 0 && zeroAt e 8 16 && byteAt e 40 < 3 && zeroAt e 41 23) 0
  else if o = 0x50 then
    let hid := leAt e 8 8
    let mop := byteAt e 40
    let k := byteAt e 42
    let m := byteAt e 43
    if mop = 0 then ok (none0 && n == 0 && hid != 0 && zeroAt e 16 8 && byteAt e 41 < 2 && zeroAt e 42 22) 0
    else if mop = 1 then
      ok (n == 1 && hid != 0 && zeroAt e 16 8 && (byteAt e 41 == 0 || byteAt e 41 == 2) && 2 ≤ k && k ≤ 28 && 1 ≤ m
        && m ≤ 4 && k + m ≤ s.bayCount && zeroAt e 44 20) 1
    else ok (mop == 2 && none0 && n == 0 && hid != 0 && zeroAt e 16 8 && zeroAt e 41 3 && byteAt e 45 < s.bayCount
        && zeroAt e 46 18) 0
  else if o = 0x51 then ok (none0 && n == 0 && zeroAt e 16 8 && zeroAt e 40 24) 0
  else
    let i := byteAt e 40
    let b := slice e 40 24
    if i = 0 then ok (none0 && n == 0 && zeroAt e 8 16 && s.armOk b) 0
    else if i = 1 then ok (none0 && n == 0 && zeroAt e 8 16 && zeroAt e 41 21) 0
    else if i = 2 then ok (none0 && n == 0 && zeroAt e 8 16 && zeroAt e 41 23) 0
    else if i = 3 then ok (n == 1 && zeroAt e 8 16 && zeroAt e 41 23) 1
    else ok (i == 4 && n == 1 && zeroAt e 8 16 && zeroAt e 41 3 && byteAt e 44 < 2 && zeroAt e 45 3 && zeroAt e 56 8
        && leAt e 48 8 % 64 == 0 && leAt e 48 8 < s.bootN .memPartDiagMib * 2 ^ 20) 1

/-- Checks 1 to 3 of R280: a status that ends the command, or the pieces of its buffer. -/
def State.checkEntry (s : State) (f : FnId) (sr : Nat) (e : Bytes) (segs : List Bytes) : Status ⊕ List (Nat × Nat) :=
  if !opKnown (byteAt e 0) then .inl .invalidOpcode
  else if !s.permitted f sr e then .inl .notPermitted
  else
    match s.fieldsOk f e with
    | none => .inl .invalidField
    | some 0 => .inr []
    | some n => match dataPieces e segs n with
      | some ps => .inr ps
      | none => .inl .invalidField

/-! ### Readiness (R230, R273, R280) -/

/-- Every bay that exists is ready. -/
def State.allReady (s : State) : Bool := allBays.all (fun b => !s.bayExists b || (s.bay b).ready)

/-- Some hamper is in `MOUNTING`. -/
def State.anyMounting (s : State) : Bool := s.ham.slots.any (fun v => match v with
  | some x => x.mounting
  | none => false)

/-- What check 4 and the holds say of a command that names a hamper. -/
inductive Gate where
  | go (h : SlotId)
  | hold
  | stop (st : Status)
  deriving DecidableEq, Repr

/-- Check 4 of R280 with the holds of R273.
Log 14 (DEDUCED). -/
def State.hamperGate (s : State) (hid : Nat) : Gate :=
  match s.slotOf hid with
  | none => if s.allReady && !s.anyMounting then .stop .unknownHamper else .hold
  | some h =>
    match s.slot h with
    | none => .hold
    | some x =>
      match s.hstate x with
      | .mounting => .hold
      | .below => .hold
      | _ => .go h

/-- Checks 5 and 6 and the hold of R230 for a data command whose hamper is there. A `WRITE` fetched after an `UNMOUNT`
was accepted ends `READ_ONLY` (R292). Room is judged where `room` says so: at the fetch, or when a hold ends (R243). -/
def State.dataGate (s : State) (c : Cmd) (room : Bool) : Gate :=
  match s.hamperGate c.hid with
  | .go h =>
    match s.slot h with
    | none => .hold
    | some x =>
      if c.opc != 0x20 && 2 ^ 48 < c.lba + c.nblk then .stop .outOfRange
      else if c.opc == 0x11 then
        if s.hstate x == .readOnly || (match x.unmounting with
            | some o => o < c.order
            | none => false) then .stop .readOnly
        else if room && !x.hasRoom (s.bootN .hamperMapMaxExtents) c.nblk then .stop .hamperFull
        else if s.wheld x || x.session?.isSome then .hold
        else .go h
      else .go h
  | g => g

/-- The hold limit of a command's ring, in µs (R261, R262, R273). -/
def State.holdLimit (s : State) (c : Cmd) : Nat :=
  let h := match s.sr? c.fn c.sr with
    | some r => r.hold
    | none => 0xFFFF
  (if h = 0xFFFF then s.liveN .hostRingHoldS else h) * 1000000

/-! ### Ordinals at fetch (R233) -/

/-- The next ordinal of a hamper goes to a `WRITE` (R233), and it joins the writes that wait for a record (R234).
Log 14 (DEDUCED). -/
def State.giveOrdinal (s : State) (h : SlotId) (c : Cmd) : State :=
  match s.slot h with
  | none => s
  | some x =>
    let ord := x.ordNext
    let w : WriteRec :=
      { ordinal := ord, fn := c.fn, sr := c.sr, tag := c.tag, lba := c.lba, count := c.nblk, staged := false, record := false,
        settled := false, placed := 0, recNo := 0, charge := writeCharge c.nblk, buffers := [], firstSeq := 0, firstPos := 0,
        firstBlk := 0, lastSeq := 0, lost := false, gone := false }
    let s := s.setSlot h (some { x with ordNext := ord + 1, writes := x.writes ++ [w] })
    let s := s.updCmd c.order (fun c => { c with ordinal := ord, slot := some h })
    s.grantRoom (s.host.cmds.length + 1)

/-- The highest ordinal assigned before now, which a `FLUSH` or `VERIFY` waits for (R240, R284): D where the session has
assigned none. -/
def Hamper.target (x : Hamper) : Nat := if x.ordNext = x.session * 2 ^ 40 + 1 then x.durable else x.ordNext - 1

/-- A write's ordinal is void and its command ends (R233, R290). -/
def State.endWrite (s : State) (c : Cmd) (st : Status) : State :=
  let s := match c.slot with
    | some h => ((s.updHam h (fun x => x.voidWrite c.ordinal)).dropRequester c.order).settle h
    | none => s
  s.finish c.order st c.ordinal

/-- A command ends without effect: a `WRITE` with its ordinal void. -/
def State.endCmd (s : State) (c : Cmd) (st : Status) : State :=
  if c.opc == 0x11 then s.endWrite c st else (s.dropRequester c.order).finish c.order st 0

/-- A command ends at its hold limit; a `MOUNT` attach leaves its hamper attached (R291). -/
def State.endHeld (s : State) (c : Cmd) : State :=
  let s := { s with ham := { s.ham with attached := s.ham.attached.map (fun (a : Nat × Bool × Option Nat) => if a.2.2 == some c.order then (a.1, a.2.1, none) else a) } }
  let s := allSlots.foldl (fun s h => s.updHam h (fun x => if x.attach == some c.order then { x with attach := none } else x)) s
  s.endCmd c .notReady

/-- A command is held, or ends at once where its ring's hold limit is 0 (R273). -/
def State.holdFor (s : State) (c : Cmd) : State := if s.holdLimit c = 0 then s.endHeld c else s.hold c

/-! ### Acceptance (R268, R271, R280, R289, R292) -/

/-- The command is bound to its hamper's slot: a WRITE takes its ordinal and a FLUSH or VERIFY its target here, unless the
hamper is still mounting (R233, R240, R284). -/
def State.bindHamper (s : State) (order : Nat) (c : Cmd) : State :=
  match s.slotOf c.hid with
  | none => s
  | some h =>
    match s.slot h with
    | none => s
    | some x =>
      let s := s.updCmd order (fun c => { c with slot := some h })
      if x.mounting then s
      else if c.opc = 0x11 then s.giveOrdinal h c
      else if c.opc = 0x20 ∨ c.opc = 0x12 then s.updCmd order (fun c => { c with target := [(h, x.target)] })
      else if c.opc = 0x51 then s.updHam h (fun x => { x with unmounting := some (x.unmounting.getD order) })
      else s

/-- What the fetch fixes for a command whose fields are good: ordinals, targets, the binding of an `ABORT`, the refusal of
later writes by an `UNMOUNT`, and the gates of check 4 to 6.
Log 14 (DEDUCED). -/
def State.admitCmd (s : State) (order : Nat) : State :=
  match s.cmdAt order with
  | none => s
  | some c =>
    let o := c.opc
    if o = 0x21 then
      let t := s.host.cmds.find? (fun v => v.fn == c.fn && v.sr == leAt c.entry 40 4 && v.tag.toNat == c.b 44 && !v.silent
        && v.order != order)
      match t with
      | some v => s.updCmd order (fun c => { c with bound := some v.order })
      | none => s.finish order .notFound 0
    else if o = 0x20 ∧ c.hid = 0 then
      let ts := allSlots.filterMap (fun h => (s.slot h).map (fun x => (h, x.target)))
      s.updCmd order (fun c => { c with target := ts })
    else if o = 0x10 ∨ o = 0x11 ∨ o = 0x12 ∨ o = 0x20 ∨ o = 0x51 then
      let s := s.bindHamper order c
      match s.cmdAt order with
      | none => s
      | some c =>
        match (if o = 0x51 then s.hamperGate c.hid else s.dataGate c true) with
        | .go _ => s
        | .hold => s.holdFor c
        | .stop st => s.endCmd c st
    else s

/-- One fetched entry of a ring: a duplicate tag stops the ring; otherwise the head advances and the command is accepted
and checked (R268, R269, R280). -/
def State.acceptEntry (s : State) (f : FnId) (sr : Nat) (e : Bytes) (segs : List Bytes) : State :=
  match s.sr? f sr with
  | none => s
  | some r =>
    if r.stopped then s
    else
      let tag : BitVec 6 := BitVec.ofNat 6 (byteAt e 1)
      if (s.cmdLive? f sr tag).isSome then
        (s.updSr f sr (fun r => { r with stopped := true })).raise 897 .ringDupTag f.val sr tag.toNat
      else
        let order := s.host.nextOrder
        let s := s.updSr f sr (fun r => { r with head := if r.head + 1 = r.depth then 0 else r.head + 1 })
        let c := { (Cmd.fresh f sr tag order e []) with since := s.us }
        let s := { s with host := { s.host with nextOrder := order + 1, cmds := s.host.cmds ++ [c] } }
        match s.checkEntry f sr e segs with
        | .inl st => s.finish order st 0
        | .inr ps => (s.updCmd order (fun c => { c with pieces := ps })).admitCmd order

/-! ### Arbitration (R270) -/

/-- Entries a ring's doorbell shows and the controller has not fetched. -/
def Sr.waiting (r : Sr) : Nat := if r.head ≤ r.tail then r.tail - r.head else r.depth - r.head + r.tail

/-- Commands outstanding in a ring. -/
def State.outstanding (s : State) (f : FnId) (sr : Nat) : Nat :=
  (s.host.cmds.filter (fun c => c.fn == f && c.sr == sr && !c.silent)).length

/-- Contexts in use by a function. -/
def State.ctxUsed (s : State) (f : FnId) : Nat := (s.host.cmds.filter (fun c => c.fn == f)).length

/-- Entries a grant of a ring would take (R270). -/
def State.grantSize (s : State) (r : Sr) : Nat :=
  min (min (s.liveN .hostFetchBurst) r.waiting)
    (min (64 - s.outstanding r.fn r.id) (min (s.ctxQuota r.fn - s.ctxUsed r.fn) (262144 - s.host.cmds.length)))

/-- A ring can be granted: active, not stopped or being deleted, its function ready with bus mastering on. -/
def State.grantable (s : State) (r : Sr) : Bool :=
  !r.stopped && r.deleting.isNone && 0 < s.grantSize r &&
    (match s.fn? r.fn with
     | some x => x.ready && x.bme
     | none => false)

/-- The next of a list of numbers after a given one, going round. -/
def nextAfter (last : Nat) (l : List Nat) : Option Nat :=
  let low := fun (l : List Nat) => match l with
    | [] => none
    | a :: as => some (as.foldl min a)
  match low (l.filter (fun n => last < n)) with
  | some n => some n
  | none => low l

/-- The ring of the next grant, and the state after the choice: admin rings first, round robin over functions; then
weighted round robin over functions, a grant counting one, and round robin within a function (R270). -/
def State.arbitrate (s : State) : Option Sr × State :=
  let rs := s.host.srs.filter s.grantable
  let adm := (rs.filter (fun r => r.id == 0)).map (fun r => r.fn.val)
  match nextAfter s.host.lastAdmin adm with
  | some f => (rs.find? (fun r => r.id == 0 && r.fn.val == f), { s with host := { s.host with lastAdmin := f } })
  | none =>
    let fs := rs.map (fun r => r.fn.val)
    let pick := if s.host.credit > 0 ∧ fs.contains s.host.lastFn then some s.host.lastFn else nextAfter s.host.lastFn fs
    match pick with
    | none => (none, s)
    | some f =>
      let w := if f = 0 then s.liveN .hostArbPfWeight else s.liveN .hostArbVfWeight
      let credit := if f = s.host.lastFn ∧ s.host.credit > 0 then s.host.credit - 1 else w - 1
      let mine := rs.filter (fun r => r.fn.val == f)
      let last := ((s.host.lastSr.find? (fun e => e.1.val == f)).map (fun e => e.2)).getD 0
      match nextAfter last (mine.map (fun r => r.id)) with
      | none => (none, s)
      | some i =>
        match mine.find? (fun r => r.id == i) with
        | none => (none, s)
        | some r =>
          (some r, { s with host := { s.host with
            lastFn := f, credit := credit, lastSr := (r.fn, i) :: s.host.lastSr.filter (fun e => e.1 != r.fn) } })

/-- Bytes of an admin SR 0 entry as the host last wrote them; unwritten bytes are 0. -/
def Fn.sr0Entry (x : Fn) (i : Nat) : Bytes :=
  padTo 64 ((x.sr0.filter (fun e => e.1 / 64 == i)).foldl (fun b e => putAt b (e.1 % 64) e.2) (zeros 64))

/-! ### Posting (R254, R263, R267, R288) -/

/-- The 16 bytes of a completion entry (Table 12-7). -/
def completionEntry (c : Cmd) (phase : Bool) (sqhd : Nat) : Bytes :=
  leBytes 8 c.result ++ leBytes 4 (c.sr + 2 ^ 20 * c.tag.toNat)
    ++ leBytes 2 (c.status.code + (if c.zero then 8192 else 0) + (if c.applied then 16384 else 0)
        + (if phase then 32768 else 0))
    ++ leBytes 2 sqhd

/-- The completion ring a command's entry goes to. -/
def State.ringOf (s : State) (c : Cmd) : Option Cr := (s.sr? c.fn c.sr).bind (fun r => s.cr? c.fn r.cr)

/-- A deletion whose ring has no command left ends (R265). -/
def State.closeDeleted (s : State) (f : FnId) : State :=
  (s.host.srs.filter (fun r => r.fn == f && r.deleting.isSome)).foldl (fun s r =>
    if s.outstanding f r.id = 0 then
      let s := { s with host := { s.host with srs := s.host.srs.filter (fun x => !(x.fn == f && x.id == r.id)) } }
      match r.deleting.bind (s.cmd? f 0) with
      | some c => s.finish c.order .success 0
      | none => s
    else s) s

/-- A finished command posts its entry, signals, and gives up its context and buffers (R254, R271). A write whose
completion has posted is past its outcome point. -/
def State.postCmd (s : State) (c : Cmd) (k : Cr) (sqhd : Nat) : State :=
  let s := s.emit (.completion c.fn k.id k.next (completionEntry c k.phase sqhd))
  let s := if k.id = 0 then s.updFn c.fn (fun x => { x with
      cr0 := (k.next, completionEntry c k.phase sqhd) :: x.cr0.filter (fun e => e.1 != k.next) }) else s
  let s := s.updCr c.fn k.id (fun k => k.push s.us)
  let s := s.crSignal c.fn k.id
  let s := { s with host := { s.host with cmds := s.host.cmds.filter (fun x => x.order != c.order) } }
  let s := if c.opc == 0x11 && !(c.status == .interruptedReset && !c.applied) then s else s.dropRequester c.order
  s.closeDeleted c.fn

/-- The first finished command whose entry goes to a completion ring: entries post in the order of finishing (R288). -/
def State.nextToPost (s : State) (k : Cr) : Option Cmd :=
  s.host.cmds.find? (fun c => c.phase == .done && !c.silent && c.fn == k.fn &&
    (match s.sr? c.fn c.sr with
     | some r => r.cr == k.id
     | none => false))

end Sys2Proof.Machine
end

