-- ==== Sys2Proof/Machine/HostRows.lean ====
section
/-! DEFINITION. The commands of rings, functions and the PCI Express link (12_host_rings.md). -/

namespace Sys2Proof.Machine

/-- BAR0 of a function takes doorbells and writes: the host region is up (Table 16-6), the function is there and ready.
Doorbell latches lie outside the core reach (Table 16-3). -/
def State.barUp (s : State) (f : FnId) : Bool :=
  !s.sysHeld && s.host.ready &&
    (match s.fn? f with
     | some x => x.ready
     | none => false)

/-- `SR_DOORBELL_WRITE` (R262): a tail value of the ring's range becomes the tail; any other stops the ring; a doorbell for
a ring that does not exist or is being deleted is counted. A doorbell beyond the quota is reserved (R258). -/
def execSrDoorbellWrite (f : FnId) (sr : Nat) (value : BitVec 32) (s : State) : Host.Outcome State Fault Refusal :=
  .next (if !s.barUp f ∨ s.srQuota f ≤ sr then s
    else
      match s.sr? f sr with
      | none => { s with host := { s.host with badDoorbells := s.host.badDoorbells + 1 } }
      | some r =>
        if r.deleting.isSome then { s with host := { s.host with badDoorbells := s.host.badDoorbells + 1 } }
        else if r.depth ≤ value.toNat then
          (s.updSr f sr (fun r => { r with stopped := true })).raise 897 .ringBadDoorbell f.val sr value.toNat
        else s.updSr f sr (fun r => { r with tail := value.toNat }))

/-- `CR_HEAD_DOORBELL_WRITE` (R263, R274, R275): a head within the entries written frees slots and restarts the count and the
timer; any other is discarded with an event.
Log 13 (DEDUCED). -/
def execCrHeadDoorbellWrite (f : FnId) (cr : Nat) (value : BitVec 32) (s : State) : Host.Outcome State Fault Refusal :=
  .next (if !s.barUp f ∨ s.crQuota f ≤ cr then s
    else
      match s.cr? f cr with
      | none => { s with host := { s.host with badDoorbells := s.host.badDoorbells + 1 } }
      | some k =>
        let v := value.toNat
        let freed := (v + k.depth - k.head) % k.depth
        if k.depth ≤ v ∨ k.pending < freed then s.raise 897 .ringBadDoorbell f.val (cr + 2 ^ 31) v
        else if freed = 0 then s
        else
          let left := k.pending - freed
          let s := s.updCr f cr (fun k => { k with
            head := v, pending := left, since := if left = 0 then none else some s.us, signalled := false })
          if k.event then s.flushLost f else s)

/-- A 4-byte write of the MSI-X table: address, data, or the mask, whose clearing sends a pending message. -/
def State.msixWrite (s : State) (f : FnId) (off v : Nat) : State :=
  match s.fn? f with
  | none => s
  | some x =>
    let n := off / 16
    let e := x.vector n
    let e' :=
      if off % 16 = 0 then { e with addr := e.addr / 2 ^ 32 * 2 ^ 32 + v }
      else if off % 16 = 4 then { e with addr := e.addr % 2 ^ 32 + v * 2 ^ 32 }
      else if off % 16 = 8 then { e with data := v }
      else { e with masked := v % 2 == 1 }
    if !e'.masked && e'.pending then
      (s.updFn f (fun x => x.setVector n { e' with pending := false })).emit (.msix f e'.addr e'.data)
    else s.updFn f (fun x => x.setVector n e')

/-- `BAR_WRITE_OTHER` (R257, R258): an entry of admin SR 0 in aligned 4, 8 or 64 bytes, or a dword of the MSI-X table;
anything else is discarded. -/
def execBarWriteOther (f : FnId) (offset : Nat) (data : Bytes) (s : State) : Host.Outcome State Fault Refusal :=
  .next (if !s.barUp f then s
    else
      let (sr0, tab) := if f = 0 then (0x801000, 0xC00000) else (0x6000, 0x8000)
      let n := data.length
      if sr0 ≤ offset ∧ offset + n ≤ sr0 + 4096 then
        if (n = 4 ∨ n = 8 ∨ n = 64) ∧ offset % n = 0 then
          let o := offset - sr0
          s.updFn f (fun x => { x with sr0 := x.sr0.filter (fun e => !(e.1 == o && e.2.length == n)) ++ [(o, data)] })
        else s
      else if tab ≤ offset ∧ offset + n ≤ tab + 16 * (if f = 0 then 2048 else 64) then
        if n = 4 ∧ offset % 4 = 0 ∧ (offset - tab) / 16 < s.vectors f then s.msixWrite f (offset - tab) (leNat data) else s
      else s)

/-- `FETCH_GRANT` (R270): the queue engine grants a ring and accepts up to a burst of its entries, in ring order. Entries
of admin SR 0 are those of its BAR image; `entries` gives the others and the scatter lists.
Log 21 (DEDUCED). -/
def execFetchGrant (entries : List (Bytes × List Bytes)) (s : State) : Host.Outcome State Fault Refusal :=
  .next (if !s.queueUp || s.host.fetchStop || !s.host.ready then s
    else
      match s.arbitrate with
      | (none, _) => s
      | (some r, s') =>
        let n := s.grantSize r
        let es : List (Bytes × List Bytes) :=
          if r.id = 0 then
            (List.range n).map (fun i =>
              ((match s.fn? r.fn with
                | some x => x.sr0Entry ((r.head + i) % 64)
                | none => zeros 64), ((entries[i]?).map (fun e => e.2)).getD []))
          else (entries.take n).map (fun e => (padTo 64 e.1, e.2))
        es.foldl (fun s e => s.acceptEntry r.fn r.id e.1 e.2) s')

/-- `FETCH_FAIL` (R255, R269): the ring stops, its head at the entry whose fetch failed. -/
def execFetchFail (f : FnId) (sr : Nat) (s : State) : Host.Outcome State Fault Refusal :=
  .next (match s.sr? f sr with
    | some r =>
      if sr ≠ 0 ∧ s.queueUp ∧ s.grantable r ∧ !s.host.fetchStop then s.updSr f sr (fun r => { r with stopped := true }) else s
    | none => s)

/-- `DMA_TRANSFER_FAIL` (R255): the command completes `DMA_ERROR`; a `WRITE` not staged has its ordinal void. -/
def execDmaTransferFail (f : FnId) (sr : Nat) (tag : BitVec 6) (s : State) : Host.Outcome State Fault Refusal :=
  .next (match s.cmd? f sr tag with
    | some c =>
      if c.pieces.isEmpty || c.phase == .done || c.phase != .started || (c.opc == 0x11 && c.staged) || !s.queueUp then s
      else s.endCmd c .dmaError
    | none => s)

/-- `COMPLETION_POST` (R254, R263, R267, R288): the entry of a finished command is written once its ring has a free slot, in
the order in which commands of that ring finished. -/
def execCompletionPost (f : FnId) (sr : Nat) (tag : BitVec 6) (s : State) : Host.Outcome State Fault Refusal :=
  .next (match s.cmdLive? f sr tag with
    | none => s
    | some c =>
      match s.ringOf c, s.sr? f sr with
      | some k, some r =>
        let first := match s.nextToPost k with
          | some v => v.order == c.order
          | none => false
        -- a target that ends `ABORTED` posts before its `ABORT` (R289)
        let after := c.opc == 0x21 && c.status == .success && (c.bound.bind s.cmdAt).isSome
        -- the fates of a core reset post before any later command completes (R296)
        let behind := s.host.fatesEnd ≤ c.order && s.host.cmds.any (fun v => s.host.fates.contains v.order && !v.silent)
        if !first || after || behind || k.isFull || !s.queueUp || !s.fnMoves c then s else s.postCmd c k r.head
      | _, _ => s)

/-- `CR_COALESCE_TIMEOUT` (R274): the oldest entry not yet freed has waited `CTIME`. -/
def execCrCoalesceTimeout (f : FnId) (cr : Nat) (s : State) : Host.Outcome State Fault Refusal :=
  .next (match s.cr? f cr with
    | none => s
    | some k =>
      match k.since with
      | none => s
      | some t =>
        if k.ctime ≠ 0 ∧ k.pending ≠ 0 ∧ !k.signalled ∧ t + k.ctime ≤ s.us ∧ !s.sysHeld then
          (s.updCr f cr (fun k => { k with signalled := true })).signal f k.vec
        else s)

/-- A started `FLUSH`, or a `VERIFY` not yet reading, whose hamper holds writes is held from the later of its fetch and
the setting of `WHELD` (R230, R284). -/
def State.wheldSince (s : State) (c : Cmd) : Option Nat :=
  if c.phase != .started || !((c.opc == 0x20 && c.hid != 0) || (c.opc == 0x12 && !c.staged)) then none
  else
    match (c.slot.bind s.slot).bind (fun x => x.wheldAt) with
    | some t => some (max t c.since)
    | none => none

/-- `HOLD_LIMIT_EXPIRE` (R230, R273): a command held for its ring's limit ends `NOT_READY`. -/
def execHoldLimitExpire (f : FnId) (sr : Nat) (tag : BitVec 6) (s : State) : Host.Outcome State Fault Refusal :=
  .next (match s.cmd? f sr tag with
    | none => s
    | some c =>
      if !s.queueUp then s
      else
        let from' := match c.phase with
          | .held t => some t
          | _ => s.wheldSince c
        match from' with
        | some t => if t + s.holdLimit c ≤ s.us then s.endHeld c else s
        | none => s)

/-- The VFs disappear: each is reset, and none is enabled. -/
def State.dropVfs (s : State) : State :=
  let vs := (s.host.fns.map (fun x => x.id)).filter (fun f => f.val != 0)
  let s := vs.foldl State.flr s
  State.bumpGen { s with host := { s.host with fns := s.host.fns.filter (fun x => x.id.val == 0), vfs := 0 } }

/-- `FUNCTION_LEVEL_RESET` (R276): of a VF, or of the PF with VF Enable cleared and every VF reset. -/
def execFunctionLevelReset (f : FnId) (s : State) : Host.Outcome State Fault Refusal :=
  .next (if s.sysHeld || (s.fn? f).isNone then s
    else if f = 0 then s.dropVfs.flr f
    else s.flr f)

/-- `BUS_MASTER_ENABLE_CHANGE` (R276): fetching and data movement of a function stop or resume. -/
def execBusMasterEnableChange (f : FnId) (on : Bool) (s : State) : Host.Outcome State Fault Refusal :=
  .next (if s.sysHeld then s else s.updFn f (fun x => { x with bme := on }))

/-- `VF_ENABLE` (R354): VFs 1 to `count` are enabled, not yet ready; 0 clears VF Enable. -/
def execVfEnable (count : Nat) (s : State) : Host.Outcome State Fault Refusal :=
  .next (if s.sysHeld ∨ s.vfTotal < count then s
    else if count = 0 then s.dropVfs
    else
      let vs := (List.range count).filterMap (fun i => if h : i + 1 < 256 then some (⟨i + 1, h⟩ : FnId) else none)
      let new := vs.filter (fun f => (s.fn? f).isNone)
      { s with host := { s.host with
        vfs := count
        fns := s.host.fns ++ new.map Fn.fresh } })

/-- `PCIE_LINK_DEGRADE` (R253): the link comes up at x8 or x4. -/
def execPcieLinkDegrade (width : Nat) (s : State) : Host.Outcome State Fault Refusal :=
  .next (if s.sysHeld ∨ !(width = 8 ∨ width = 4) ∨ s.host.width ≤ width then s
    else ({ s with host := { s.host with width := width } }).raise 896 .pcieDegraded width 0 0)

/-- `PCIE_PERST_LOCAL` (R343): with `PERST_SYS` unblown, the PCI Express side is reset and every function is treated as
level-reset, and the link trains anew. -/
def execPciePerstLocal (s : State) : Host.Outcome State Fault Refusal :=
  .next (if s.trust.shadow.perstSys || s.sysHeld then s
    else
      let s := s.dropVfs.flr 0
      { s with host := { s.host with width := HostState.reset.width, rate := HostState.reset.rate } })

/-- `PTM_TIME_UPDATE` (R338): the timebase slews toward PTM master time, or steps where they differ by more than 1 s. -/
def execPtmTimeUpdate (ns : Nat) (s : State) : Host.Outcome State Fault Refusal :=
  .next (if !s.chip.clk.locked then s
    else
      let want := ns / 1000
      let d : Int := (want : Int) - s.time
      if d > 1000000 ∨ d < -1000000 then
        State.raise { s with chip := { s.chip with clk := { s.chip.clk with time := want, slew := 0 } } } 901 .timeStep 0 0 0
      else { s with chip := { s.chip with clk := { s.chip.clk with slew := d } } })

/-- `VF_READY` (R354, R276): an enabled function becomes ready, `HRRDY` being set. -/
def execVfReady (f : FnId) (s : State) : Host.Outcome State Fault Refusal :=
  .next (match s.fn? f with
    | some x => if x.ready || !s.host.ready || s.sysHeld then s else s.fnReady f
    | none => s)

end Sys2Proof.Machine
end

