-- ==== Sys2Proof/Machine/DataCmds.lean ====
section
/-! DEFINITION. Ring commands and data commands (R264, R265, R282 to R290). -/

namespace Sys2Proof.Machine

/-- Management cores in service, the spare included (R378). -/
def State.mgmtWorking (s : State) : Nat := ((List.range 5).filter (fun i => (s.blkOf ⟨7, 4, i⟩).up)).length

/-- The management core of a function's admin commands is there: some core is in service, and no takeover of it runs (R378). -/
def State.adminUp (s : State) (f : FnId) : Bool :=
  s.queueUp && 0 < s.mgmtWorking && !s.blk.takeovers.any (fun t => t.kind == 7 && t.inst == f.val % 4)

/-- The admin command of an opcode that may begin to act now. -/
def State.admin? (s : State) (opc : Nat) (f : FnId) (tag : BitVec 6) : Option Cmd :=
  if s.adminUp f then s.ready? opc f 0 tag else none

/-- `CREATE_SR` (R265). -/
def execCreateSr (f : FnId) (tag : BitVec 6) (s : State) : Host.Outcome State Fault Refusal :=
  .next (match s.admin? 0x01 f tag with
    | none => s
    | some c =>
      let id := leAt c.entry 8 4
      let cr := leAt c.entry 12 2
      if (s.sr? f id).isSome then s.finish c.order .busy 0
      else
        match s.cr? f cr with
        | some k =>
          if k.event then s.finish c.order .invalidField 0
          else
            let r : Sr := { fn := f, id := id, cr := cr, base := leAt c.entry 16 8, depth := leAt c.entry 24 4,
                            hold := leAt c.entry 28 2, head := 0, tail := 0, stopped := false, deleting := none }
            let s : State := { s with host := { s.host with srs := s.host.srs ++ [r] } }
            s.finish c.order .success 0
        | none => s.finish c.order .invalidField 0)

/-- `DELETE_SR` (R265): held commands end `NOT_READY`, others complete, and the deletion after them.
Log 13 (DEDUCED). -/
def execDeleteSr (f : FnId) (tag : BitVec 6) (s : State) : Host.Outcome State Fault Refusal :=
  .next (match s.admin? 0x02 f tag with
    | none => s
    | some c =>
      let id := leAt c.entry 8 4
      match s.sr? f id with
      | none => s.finish c.order .invalidField 0
      | some r =>
        if r.deleting.isSome then s.finish c.order .busy 0
        else
          let s := (s.start c).updSr f id (fun r => { r with deleting := some tag })
          let held := s.host.cmds.filter (fun v => v.fn == f && v.sr == id && !v.silent && (match v.phase with
            | .held _ => true
            | _ => false))
          (held.foldl State.endHeld s).closeDeleted f)

/-- The records kept before an event ring existed are written to it, and the count of those lost after them (R275).
Log 21 (DEDUCED). -/
def State.drainRecent (s : State) (f : FnId) : State :=
  match s.fn? f with
  | none => s
  | some x =>
    let n := x.recent.length
    let s := s.updFn f (fun x => { x with recent := [] })
    let s := x.recent.reverse.zipIdx.foldl (fun s e =>
      match s.evRing f with
      | some k => if k.isFull then s.updFn f (fun x => { x with lost := x.lost + 1 }) else s.writeEv k e.1 (x.fseq + 2 ^ 32 - n + e.2)
      | none => s) s
    s.flushLost f

/-- `CREATE_CR` (R265, R275): a completion ring, or the function's one event ring. -/
def execCreateCr (f : FnId) (tag : BitVec 6) (s : State) : Host.Outcome State Fault Refusal :=
  .next (match s.admin? 0x03 f tag with
    | none => s
    | some c =>
      let id := leAt c.entry 8 4
      let event := byteAt c.entry 12 == 1
      if (s.cr? f id).isSome || (event && (s.evRing f).isSome) then s.finish c.order .busy 0
      else
        let k : Cr := { fn := f, id := id, event := event, base := leAt c.entry 16 8, depth := leAt c.entry 24 4,
                        vec := leAt c.entry 28 2, cthr := leAt c.entry 30 2, ctime := leAt c.entry 32 2, next := 0,
                        phase := true, head := 0, pending := 0, since := none, signalled := false }
        let s : State := { s with host := { s.host with crs := s.host.crs ++ [k] } }
        let s := if event then s.drainRecent f else s
        s.finish c.order .success 0)

/-- `DELETE_CR` (R265): `BUSY` while a submission ring is bound to it.
Log 13 (DEDUCED). -/
def execDeleteCr (f : FnId) (tag : BitVec 6) (s : State) : Host.Outcome State Fault Refusal :=
  .next (match s.admin? 0x04 f tag with
    | none => s
    | some c =>
      let id := leAt c.entry 8 4
      if (s.cr? f id).isNone then s.finish c.order .invalidField 0
      else if s.host.srs.any (fun r => r.fn == f && r.cr == id) then s.finish c.order .busy 0
      else
        let s : State := { s with host := { s.host with crs := s.host.crs.filter (fun k => !(k.fn == f && k.id == id)) } }
        s.finish c.order .success 0)

/-- `READ` (R282): its gates, then its blocks, each served as soon as it can be. -/
def execRead (f : FnId) (sr : Nat) (tag : BitVec 6) (s : State) : Host.Outcome State Fault Refusal :=
  .next (match s.ready? 0x10 f sr tag with
    | none => s
    | some c =>
      match s.dataGate c true with
      | .hold => s.holdFor c
      | .stop st => s.endCmd c st
      | .go h =>
        let s := s.updCmd c.order (fun c => { c with phase := .started, slot := some h, todo := List.range c.nblk })
        s.serveReads h)

/-- A command that was held and has its ordinal only now (R233). -/
def State.lateOrdinal (s : State) (h : SlotId) (c : Cmd) : State := if c.ordinal = 0 then s.giveOrdinal h c else s

/-- `WRITE` (R233, R234, R283): its gates; once it holds a journal record its buffers are drawn and its data is fetched. -/
def execWrite (f : FnId) (sr : Nat) (tag : BitVec 6) (s : State) : Host.Outcome State Fault Refusal :=
  .next (match s.ready? 0x11 f sr tag with
    | none => s
    | some c =>
      match s.dataGate c (c.phase != .waiting) with
      | .hold => s.holdFor c
      | .stop st => s.endCmd c st
      | .go h =>
        let s := s.lateOrdinal h c
        match s.cmdAt c.order with
        | none => s
        | some c =>
          match (s.slot h).bind (fun x => x.write? c.ordinal) with
          | none => s
          | some w =>
            if w.record then
              (s.updCmd c.order (fun c => { c with phase := .started })).drawBufs s.stageBasket ((c.nblk + 15) / 16) c.order
            else s)

/-- The targets of a `FLUSH` or `VERIFY` whose hamper was not there at its fetch are fixed when its hold ends. -/
def State.lateTarget (s : State) (h : SlotId) (c : Cmd) : State :=
  if c.target.isEmpty then
    match s.slot h with
    | some x => s.updCmd c.order (fun c => { c with target := [(h, x.target)], slot := some h })
    | none => s
  else s

/-- A `VERIFY` whose target D has reached begins to read (R284). -/
def State.verifyReads (s : State) (h : SlotId) (order : Nat) : State :=
  match s.cmdAt order with
  | none => s
  | some c =>
    if c.phase == .started && !c.staged && s.flushReady c then
      (s.updCmd order (fun c => { c with staged := true, todo := List.range c.nblk })).serveReads h
    else if c.phase == .started && c.staged then s.serveReads h
    else s

/-- `VERIFY` (R284): it waits for D like a `FLUSH`, then reads every sector that holds a named block. -/
def execVerify (f : FnId) (sr : Nat) (tag : BitVec 6) (s : State) : Host.Outcome State Fault Refusal :=
  .next (match s.cmd? f sr tag with
    | none => s
    | some c =>
      if c.opc == 0x12 && c.phase == .started && s.queueUp then
        match c.slot with
        | some h => s.verifyReads h c.order
        | none => s
      else
        match s.ready? 0x12 f sr tag with
        | none => s
        | some c =>
          match s.dataGate c true with
          | .hold => s.holdFor c
          | .stop st => s.endCmd c st
          | .go h =>
            let s := s.lateTarget h c
            let s := s.updCmd c.order (fun c => { c with phase := .started, slot := some h })
            (s.closeOpen h).verifyReads h c.order)

/-- `FLUSH` (R240, R285): open stripes close at once; it completes when D reaches its targets. -/
def execFlush (f : FnId) (sr : Nat) (tag : BitVec 6) (s : State) : Host.Outcome State Fault Refusal :=
  .next (match s.ready? 0x20 f sr tag with
    | none => s
    | some c =>
      if c.hid = 0 then
        let s := s.start c
        if c.target.isEmpty then s.finish c.order .success 0
        else (c.target.foldl (fun s e => s.closeOpen e.1) s).serveFlushes
      else
        match s.dataGate c true with
        | .hold => s.holdFor c
        | .stop st => s.endCmd c st
        | .go h =>
          let s := s.lateTarget h c
          let s := s.updCmd c.order (fun c => { c with phase := .started, slot := some h })
          (s.closeOpen h).serveFlushes)

/-- An abort's target ends `ABORTED` (R289, R290), whatever status waited for its posting.
Log 15 (DEDUCED). -/
def State.abortCmd (s : State) (c : Cmd) : State :=
  let s := s.updCmd c.order (fun c => { c with phase := .started })
  match s.cmdAt c.order with
  | some c => s.endCmd c .aborted
  | none => s

/-- `ABORT` (R289, Table 13-4): bound to its target at acceptance, it settles against the target's outcome point.
Log 15 (DEDUCED). -/
def execAbort (f : FnId) (sr : Nat) (tag : BitVec 6) (s : State) : Host.Outcome State Fault Refusal :=
  .next (match s.ready? 0x21 f sr tag with
    | none => s
    | some c =>
      match c.bound.bind s.cmdAt with
      | none => s.finish c.order .notFound 0
      | some t =>
        let o := t.opc
        if (1 ≤ o ∧ o ≤ 4) ∨ o = 0x21 ∨ o = 0x40 ∨ o = 0x41 ∨ o = 0x50 ∨ o = 0x51 then s.finish c.order .tooLate 0
        else if o = 0x11 ∧ t.ordinal ≠ 0 ∧ t.staged then
          match (t.slot.bind s.slot).bind (fun x => x.write? t.ordinal) with
          | some w =>
            if w.placed = 0 ∧ !w.settled then ((s.abortCmd t).updCmd c.order (fun c => { c with applied := false })).finish c.order .success 0
            else s.finish c.order .tooLate 0
          | none => s.finish c.order .tooLate 0
        else (s.abortCmd t).finish c.order .success 0)

end Sys2Proof.Machine
end

