-- ==== Sys2Proof/Machine/Pages.lean ====
section
/-! DEFINITION. The data that commands return: identify data (Table 13-9), `HEALTH` pages (Tables 18-6 to 18-8), the
Reosh report (Table 20-4), the injection list (R423). -/

namespace Sys2Proof.Machine

/-- log2 of a link width. -/
def widthCode (w : Nat) : Nat := if w = 16 then 4 else if w = 8 then 3 else if w = 4 then 2 else if w = 2 then 1 else 0

/-- The identify block (R300). -/
def State.identifyPage (s : State) (f : FnId) : Bytes :=
  padTo 4096
    (ascii "YXID" ++ idBytes s.trust.shadow ++ leBytes 4 (2 ^ s.bayCount - 1) ++ leBytes 8 s.trust.fwVersion
      ++ leBytes 8 s.trust.staged ++ leBytes 8 s.cfg.seq ++ leBytes 1 f.val ++ zeros 1 ++ leBytes 2 (s.vectors f)
      ++ leBytes 4 (s.srQuota f) ++ leBytes 4 (s.crQuota f) ++ leBytes 4 (s.ctxQuota f) ++ leBytes 4 8192
      ++ leBytes 1 16 ++ leBytes 1 (s.host.rate + 16 * widthCode s.host.width) ++ zeros 6
      ++ leBytes 8 (s.mem.gib * 2 ^ 30))

/-! ### Reads of BAR0 (R257, R258) -/

/-- The 16 bytes of an MSI-X table entry. -/
def MsixEntry.bytes (e : MsixEntry) : Bytes := leBytes 8 e.addr ++ leBytes 4 e.data ++ leBytes 4 e.masked.toNat

/-- The MSI-X table and the pending bit array of a function. -/
def State.msixTable (s : State) (f : FnId) : Bytes :=
  match s.fn? f with
  | some x => (List.range (s.vectors f)).flatMap (fun v => (x.vector v).bytes)
  | none => []

/-- The pending bit array of a function. -/
def State.msixPba (s : State) (f : FnId) : Bytes :=
  match s.fn? f with
  | some x => leBytes ((s.vectors f + 7) / 8) (x.msix.foldl (fun a e => if e.2.pending then a + 2 ^ e.1 else a) 0)
  | none => []

/-- Admin CR 0 as the function's BAR0 shows it: an entry not written since the function reset is 0 (R261). -/
def Fn.cr0Bytes (x : Fn) : Bytes :=
  (List.range 64).flatMap (fun i => padTo 16 (((x.cr0.find? (fun e => e.1 == i)).map (fun e => e.2)).getD []))

/-- What a read of a function's BAR0 returns (R257, R258): none at a doorbell, of which the spec states no read. A width or
alignment that the place does not take reads all ones, reserved space 0.
Log 58 (DEDUCED). -/
def State.barRead (s : State) (f : FnId) (off n : Nat) : Option Bytes :=
  let (cr, rsv, page, sr0, cr0, tab, pba) :=
    if f = 0 then (0x400000, 0x440000, 0x800000, 0x801000, 0x802000, 0xC00000, 0xC08000)
    else (0x4000, 0x4400, 0x5000, 0x6000, 0x7000, 0x8000, 0x9000)
  let inPage := page ≤ off && off < page + 4096
  let from' := fun (at' : Nat) (b : Bytes) => some (padTo n ((b.drop (off - at')).take n))
  if off % n ≠ 0 ∨ !(n == 4 || (n == 8 && inPage)) then some (List.replicate n 0xFF#8)
  else if off / 4 < s.srQuota f ∧ off < cr ∨ cr ≤ off ∧ (off - cr) / 4 < s.crQuota f ∧ off < rsv then none
  else if inPage then from' page (s.statusPage f)
  else if sr0 ≤ off ∧ off < sr0 + 4096 then
    from' sr0 ((s.fn? f).elim [] (fun x => (List.range 64).flatMap x.sr0Entry))
  else if cr0 ≤ off ∧ off < cr0 + 1024 then from' cr0 ((s.fn? f).elim [] Fn.cr0Bytes)
  else if tab ≤ off ∧ off < tab + 16 * s.vectors f then from' tab (s.msixTable f)
  else if pba ≤ off ∧ off < pba + (s.vectors f + 7) / 8 then from' pba (s.msixPba f)
  else some (zeros n)

/-! ### `HEALTH` -/

/-- The first 16 bytes of every page (R385). -/
def State.pageHead (s : State) (page sel : Nat) : Bytes :=
  ascii "YXHP" ++ leBytes 1 page ++ leBytes 1 sel ++ zeros 2 ++ leBytes 8 s.time

/-- Counter values saturate. -/
def satLe (n v : Nat) : Bytes := leBytes n (min v (256 ^ n - 1))

/-- The regions that hold blocks of a kind (Tables 00-4 and 18-3).
Log 43 (DEDUCED). -/
def State.kindRegions (s : State) (k : Nat) : List Nat :=
  let brs := List.range (s.bayCount / 8)
  if k ≤ 5 then brs
  else if k = 6 ∨ k = 11 ∨ k = 12 then [5]
  else if k = 7 ∨ k = 8 ∨ k = 9 ∨ k = 10 then [4]
  else brs ++ [4, 5]

/-- Every block of a kind. -/
def State.blocksOfKind (s : State) (k : Nat) : List Blk :=
  (s.kindRegions k).flatMap (fun r => (List.range (kindCount k)).map (fun i => s.blkOf ⟨k, r, i⟩))

/-- The number of a block's state (Table 18-8). -/
def BlkSt.code : BlkSt → Nat
  | .active => 0
  | .spare => 1
  | .failed => 2
  | .simplex => 3

/-- Kind j's entry of the chip page: active, spares left, failed. -/
def State.kindEntry (s : State) (k : Nat) : Bytes :=
  let bs := s.blocksOfKind k
  let count := fun (p : Blk → Bool) => leBytes 1 (min 255 (bs.filter p).length)
  count (fun b => b.st == .active || b.st == .simplex) ++ count (fun b => b.st == .spare) ++ count (fun b => b.st == .failed)
    ++ zeros 1

/-- A count of a partition and channel. -/
def countOf (l : List CeCount) (p ch : Nat) : Nat :=
  (l.filter (fun c => partNum c.part == p && c.ch == ch)).foldl (fun a c => a + c.count) 0

/-- A count of a partition over every channel. -/
def countPart (l : List CeCount) (p : Nat) : Nat :=
  (l.filter (fun c => partNum c.part == p)).foldl (fun a c => a + c.count) 0

/-- Two sets of values differ in a BOUNDARY field of a section, counting the fields a unit takes. -/
def sectionDiffers (u : CfgUnit) (a b : Cfg) (sec : Nat) : Bool :=
  Field.all.any (fun f => f.info.sec == sec && Field.atBoundary f
    && (match u with
        | .spare _ => f == .hlinkSpareStandby
        | .link _ _ => f != .hlinkSpareStandby
        | _ => true)
    && ((List.range (if f.info.indexed then 256 else 1)).any (fun i => a.at f i != b.at f i) || a.bank f != b.bank f))

/-- Every unit with the sections it takes at its own boundary (R81, R121, R141, R160, R182, R207, R225, R316, R331, R359):
kind of unit as Table 18-6 numbers it, unit number, the unit, the section. -/
def State.unitSections (s : State) : List (Nat × Nat × CfgUnit × Nat) :=
  let bays := allBays.filter s.bayExists
  bays.flatMap (fun b =>
      [2, 3, 4, 5, 6, 16].flatMap (fun q => [(0, 2 * b.val, CfgUnit.pickup b .A, q), (0, 2 * b.val + 1, CfgUnit.pickup b .B, q)])
        ++ [7, 8, 9].map (fun q => (1, b.val, CfgUnit.bay b, q))
        ++ [(3, 2 * b.val, CfgUnit.link b .A, 1), (3, 2 * b.val + 1, CfgUnit.link b .B, 1), (1, b.val, CfgUnit.spare b, 1)])
    ++ [(2, 0, CfgUnit.basket 0, 14)]

/-- The pending entries of R332: units and sections whose values wait for their boundary. -/
def State.pendingEntries (s : State) : List Bytes :=
  (s.unitSections.filter (fun e => sectionDiffers e.2.2.1 (s.unitCfg e.2.2.1 e.2.2.2) s.cfg.committed e.2.2.2)).map (fun e =>
    leBytes 1 e.2.2.2 ++ leBytes 1 e.1 ++ leBytes 2 e.2.1)

/-- The chip page (Table 18-6). -/
def State.chipPage (s : State) : Bytes :=
  let p := padTo 32 (s.pageHead 0 0 ++ leBytes 8 s.chip.rst.cause.toNat)
  let p := padTo 256 (p ++ (List.range 15).flatMap s.kindEntry)
  let p := p ++ (List.range 14).flatMap (fun q => (List.range 8).flatMap (fun c =>
    satLe 4 (if q < 11 then countOf s.mem.ce q c else if c = 0 then countPart s.mem.ce q else 0)))
  let p := padTo 768 (p ++ (List.range 14).flatMap (fun q => satLe 4 (countPart s.mem.ue q)))
  let p := p ++ (List.range 8).flatMap (fun c => leBytes 2 (s.mem.remaps.filter (fun r => r.ch == c)).length)
  let pe := s.pendingEntries
  padTo 4096
    (p ++ satLe 4 s.blk.resets ++ satLe 4 s.host.badDoorbells ++ zeros 8 ++ leBytes 4 pe.length ++ (pe.take 256).flatMap id)

/-- The blocks of a region (Tables 00-4 and 18-3). -/
def State.blocksOfRegion (s : State) (r : Nat) : List Blk :=
  (List.range 15).flatMap (fun k =>
    if (s.kindRegions k).contains r then (List.range (kindCount k)).map (fun i => s.blkOf ⟨k, r, i⟩) else [])

/-- The region page (Table 18-8). -/
def State.regionPage (s : State) (r : Nat) : Bytes :=
  let bs := s.blocksOfRegion r
  let st := if s.blk.lost.contains r then 2 else if s.blk.degraded.contains r then 1 else 0
  let (d, n, p) := if r < 4 then s.admissionOf r else (0, 0, 0)
  padTo 4096
    (padTo 32 (s.pageHead 1 r ++ leBytes 1 st ++ leBytes 1 d ++ leBytes 1 n ++ leBytes 1 p ++ leBytes 2 bs.length)
      ++ bs.flatMap (fun b => leBytes 1 b.id.kind ++ leBytes 1 b.id.inst ++ leBytes 2 b.st.code))

/-- The number of a spindle state, in the order of Table 09-5. -/
def SpSt.code : SpSt → Nat
  | .stopped => 0
  | .catch => 1
  | .brakeShort => 2
  | .align => 3
  | .ramp => 4
  | .sync => 5
  | .run => 6
  | .decel => 7
  | .recover => 8
  | .safeHold => 9
  | .fault => 10
  | .startWait => 11

/-- The number of a pickup state, in the order of Table 07-3. -/
def PState.code : PState → Nat
  | .off => 0
  | .focusSearch => 1
  | .trackPull => 2
  | .acquire => 3
  | .follow => 4
  | .swathJump => 5
  | .layerJump => 6
  | .seek => 7
  | .recover => 8
  | .failed => 9

/-- A pickup's block of the bay page (Table 18-7), 1,024 bytes. -/
def Pickup.healthBlock (u : Pickup) : Bytes :=
  let c := u.cnt
  let mean := if c.iters.isEmpty then 0 else 256 * c.iters.foldl (fun a v => a + v) 0 / c.iters.length
  let p := leBytes 1 u.ms.st.code ++ leBytes 1 u.link.st.code
    ++ leBytes 1 ((if u.link.oneLane then 1 else 0) + (if u.cal.retired then 2 else 0)) ++ leBytes 1 (u.cal.tret.getD 0x1F)
    ++ satLe 4 (u.link.up0.total + u.link.up1.total + u.link.ups.total) ++ satLe 4 u.link.late
  let p := padTo 16 p ++ (List.range 7).flatMap (fun o => satLe 8 (c.outcomes.getD o 0))
  let p := p ++ (List.range 5).flatMap (fun i => satLe 8 (c.rungs.getD i 0)) ++ satLe 8 c.misc ++ satLe 4 mean
  let p := padTo 128 p ++ (List.range 16).flatMap (fun i => satLe 4 (c.trkFail.getD i 0))
  let p := p ++ (List.range 5).flatMap (fun v => satLe 8 (c.stats.getD v 0)) ++ satLe 8 c.slips ++ satLe 8 c.eqReset
  padTo 1024 p

/-- The bay page (Table 18-7). -/
def State.bayPage (s : State) (b : BayId) : Bytes :=
  let y := s.bay b
  padTo 4096
    (padTo 64 (s.pageHead 2 b.val ++ leBytes 1 y.spindle.st.code ++ leBytes 1 y.ready.toNat ++ zeros 2 ++ satLe 4 y.mlink.errs)
      ++ y.pa.healthBlock ++ y.pb.healthBlock)

/-- The hamper page (Table 18-8). -/
def State.hamperPage (s : State) (h : SlotId) : Bytes :=
  match s.slot h with
  | none => padTo 4096 (s.pageHead 3 h.val)
  | some x =>
    let reb := x.members.find? (fun m => m.state == .rebuilding)
    let p := s.pageHead 3 h.val ++ leBytes 8 x.hid ++ leBytes 1 (s.hstate x).code ++ leBytes 1 x.k ++ leBytes 1 x.m
      ++ leBytes 1 x.policy ++ leBytes 4 x.epoch ++ satLe 8 x.served ++ satLe 8 x.unrec
      ++ leBytes 1 (reb.elim 0xFF (fun m => m.idx)) ++ zeros 3 ++ leBytes 4 (reb.elim 0 (fun m => m.rebuilt))
      ++ satLe 4 x.suspects.length
    padTo 4096 (padTo 64 p ++ (x.suspects.take 64).flatMap (leBytes 8))

/-- The newest crash record of the flash: the highest sequence in the crash-log region (R384). -/
def Flash.crashNewest (f : Flash) : Option Bytes :=
  match f.region 7 with
  | none => none
  | some (o, n) =>
    ((List.range (n / 65536)).map (fun i => o + 65536 * i)).foldl (fun a p =>
      if f.read p 4 == ascii "YXCR" then
        match a with
        | some v => if leAt v 8 8 < leAt (f.read p 1024) 8 8 then some (f.read p 1024) else a
        | none => some (f.read p 1024)
      else a) none

/-- The page a `HEALTH` command asks for (R385).
Log 17 (DEDUCED). -/
def State.healthPage (s : State) (page sel : Nat) : Bytes :=
  if page = 0 then s.chipPage
  else if page = 1 then s.regionPage sel
  else if page = 2 then (if h : sel < 32 then s.bayPage ⟨sel, h⟩ else padTo 4096 (s.pageHead 2 sel))
  else if page = 3 then (if h : sel < 16 then s.hamperPage ⟨sel, h⟩ else padTo 4096 (s.pageHead 3 sel))
  else padTo 4096 (s.pageHead 4 sel ++ ((s.flash.crashNewest).getD []))

/-- A pickup with its counters cleared. -/
def Pickup.clearCounters (u : Pickup) : Pickup :=
  let z := fun (l : Lane) => { l with total := 0 }
  { u with
    cnt := .zero
    link := { u.link with late := 0, up0 := z u.link.up0, up1 := z u.link.up1, ups := z u.link.ups } }

/-- The counters of a page cleared (`CLRCNT`). -/
def State.clearCounters (s : State) (page sel : Nat) : State :=
  if page = 0 then
    { s with
      mem := { s.mem with ce := [], ue := [] }, blk := { s.blk with resets := 0 }
      host := { s.host with badDoorbells := 0 } }
  else if page = 2 then
    (if h : sel < 32 then
      s.updBay ⟨sel, h⟩ (fun y => { y with
        pa := y.pa.clearCounters, pb := y.pb.clearCounters, mlink := { y.mlink with errs := 0 } })
     else s)
  else if page = 3 then
    (if h : sel < 16 then s.updHam ⟨sel, h⟩ (fun x => { x with served := 0, unrec := 0 }) else s)
  else s

/-! ### Attestation (R412 to R414) -/

/-- A Reosh report with room for `nblk` blocks, and the number of entries in it (R413, Table 20-4).
Log 58 (DEDUCED). -/
def State.report (s : State) (mask start nblk : Nat) (nonce : Bytes) : Bytes × Nat :=
  let t := s.trust
  let av := t.trail.filter (fun e => mask.testBit e.slot && start ≤ e.seq)
  let n := min av.length ((4096 * nblk - 5779) / 128)
  let es := av.take n
  let tend := t.count
  let body := ascii "YRSH" ++ leBytes 2 1 ++ leBytes 2 mask ++ leBytes 4 (5779 + 128 * n) ++ idBytes t.shadow
    ++ leBytes 8 s.time ++ leBytes 8 tend ++ leBytes 8 (match es with
      | e :: _ => e.seq
      | [] => tend) ++ leBytes 4 n ++ leBytes 4 t.dropped ++ padTo 32 nonce ++ zeros 48
    ++ (List.range 16).flatMap (fun i => if mask.testBit i then padTo 64 (t.slots.getD i []) else zeros 64)
    ++ es.flatMap TrailEntry.bytes
  (body ++ padTo 4627 (Config.mldsaSign body), n)

/-! ### Pins and the test port (R351, R453) -/

/-- The reset state that a configurable pin presents while its block has not enabled it (R351): 0 high impedance, 1 weak pull-down, 2 weak
pull-up, 3 driven low. None once the block drives it. Pins are numbered as in the fuse fields; no numbering is stated.
Log 58 (DEDUCED). -/
def State.pinState (s : State) (pin : Nat) (enabled : Bool) : Option Nat :=
  if !s.chip.up.fused then some 0
  else if s.sysHeld || !enabled then some ((s.trust.shadow.pins.find? (fun e => e.1 == pin)).elim 0 (fun e => e.2 % 4))
  else none

/-- What `IDCODE` reads (R453). -/
def State.idcode (s : State) : BitVec 32 :=
  match s.trust.shadow.part with
  | .YX3216 => 0x13216C5B#32
  | .YX1616 => 0x11616C5B#32

end Sys2Proof.Machine
end

