-- ==== Sys2Proof/Machine/Admin.lean ====
section
/-! DEFINITION. Admin commands: `IDENTIFY`, `HEALTH`, `ATTEST`, staging, activation, mounting (R291 to R295, R300, R385, R409,
R412), and the DOE mailbox (R414). -/

namespace Sys2Proof.Machine

/-! ### `IDENTIFY` and `HEALTH` -/

/-- `IDENTIFY` (R300). -/
def execIdentify (f : FnId) (tag : BitVec 6) (s : State) : Host.Outcome State Fault Refusal :=
  .next (match s.admin? 0x30 f tag with
    | none => s
    | some c => (s.hostWrite c 0 (s.identifyPage f)).finish c.order .success 0)

/-- `HEALTH` (R385): the page is captured and written; a command without flags then ends, one with flags goes on to them. -/
def execHealth (f : FnId) (tag : BitVec 6) (s : State) : Host.Outcome State Fault Refusal :=
  .next (match s.admin? 0x31 f tag with
    | none => s
    | some c =>
      let s := (s.start c).hostWrite c 0 (s.healthPage (c.b 40) (c.b 41))
      let flags := (List.range 3).filter (fun i => (c.b 42).testBit i)
      if flags.isEmpty then s.finish c.order .success 0
      else s.updCmd c.order (fun c => { c with todo := flags }))

/-- The `HEALTH` command whose page has been captured and whose flag i is still to act.
Log 17 (DEDUCED). -/
def State.healthFlag (s : State) (f : FnId) (tag : BitVec 6) (i : Nat) : Option Cmd :=
  match s.cmd? f 0 tag with
  | some c => if c.opc == 0x31 && c.phase == .started && c.todo.contains i && s.adminUp f then some c else none
  | none => none

/-- A flag of a `HEALTH` has acted; the command ends after its last one.
Log 17 (DEDUCED). -/
def State.flagDone (s : State) (c : Cmd) (i : Nat) : State :=
  let left := c.todo.filter (fun j => j != i)
  let s := s.updCmd c.order (fun c => { c with todo := left })
  if left.isEmpty then s.finish c.order .success 0 else s

/-- `HEALTH_CLEAR_CAUSE` (R345): `RESET_CAUSE` is cleared after the capture. -/
def execHealthClearCause (f : FnId) (tag : BitVec 6) (s : State) : Host.Outcome State Fault Refusal :=
  .next (match s.healthFlag f tag 0 with
    | none => s
    | some c =>
      let s := State.bumpGen { s with chip := { s.chip with rst := { s.chip.rst with cause := 0#64 } } }
      s.flagDone c 0)

/-- `HEALTH_CLEAR_COUNTERS` (R385): the counters of the page are cleared after the capture. -/
def execHealthClearCounters (f : FnId) (tag : BitVec 6) (s : State) : Host.Outcome State Fault Refusal :=
  .next (match s.healthFlag f tag 1 with
    | none => s
    | some c => (s.clearCounters (c.b 40) (c.b 41)).flagDone c 1)

/-- The units of an item: the 18 spots, the lanes, the two following loops, or one unit.
Log 37 (DESIGN CHOICE). -/
def calUnits (item : Nat) : List Nat :=
  if 1 ≤ item && item ≤ 4 then List.range 18
  else if item = 9 || item = 10 then [0, 1]
  else [0]

/-- Items made pending for a pickup (R357): an item pending already keeps its waiting time; a trigger ends the wait of units
that had failed. -/
def Cal.makePending (c : Cal) (now layer : Nat) (items : List Nat) (mount : Bool) : Cal :=
  items.foldl (fun c n =>
    if c.pend.any (fun p => p.item == n && p.layer == layer) then
      { c with pend := c.pend.map (fun p =>
          if p.item == n && p.layer == layer then
            { p with
              since := if p.parts.all (fun q => q.ended) then now else p.since
              parts := p.parts.map (fun q => if q.ended then { q with ended := false, fails := 0, from' := c.read } else q) }
          else p) }
    else { c with pend := c.pend ++ [{ item := n, layer := layer, since := now, parts := (calUnits n).map (fun u => ⟨u, 0, none, false, c.read⟩), mount := mount }] }) c

/-- `HEALTH_CAL_REQUEST` (R357, R385): the masked items become pending for the pickups named. -/
def execHealthCalRequest (f : FnId) (tag : BitVec 6) (s : State) : Host.Outcome State Fault Refusal :=
  .next (match s.healthFlag f tag 2 with
    | none => s
    | some c =>
      let items := (List.range 13).filter (fun n => (leAt c.entry 44 2).testBit n)
      let sel := c.b 41
      let s := if h : sel < 32 then
          let mark := fun (u : Pickup) => { u with cal := u.cal.makePending s.us u.ms.layer items false }
          s.updBay ⟨sel, h⟩ (fun y => { y with
            pa := if c.b 43 = 1 then y.pa else mark y.pa
            pb := if c.b 43 = 0 then y.pb else mark y.pb })
        else s
      s.flagDone c 2)

/-! ### `ATTEST` -/

/-- The nonce of an `AOP` 0 entry (Table 20-3). -/
def attestNonce (e : Bytes) : Bytes := slice e 8 16 ++ slice e 48 16

/-- `ATTEST_REPORT` (R413). -/
def execAttestReport (f : FnId) (tag : BitVec 6) (s : State) : Host.Outcome State Fault Refusal :=
  .next (match s.admin? 0x32 f tag with
    | none => s
    | some c =>
      if c.b 40 ≠ 0 then s
      else
        let (r, n) := s.report (leAt c.entry 42 2) (leAt c.entry 44 4) c.nblk (attestNonce c.entry)
        (s.hostWrite c 0 r).finish c.order .success (r.length + 2 ^ 32 * n))

/-- `ATTEST_CERT_CHAIN` (R410). -/
def execAttestCertChain (f : FnId) (tag : BitVec 6) (s : State) : Host.Outcome State Fault Refusal :=
  .next (match s.admin? 0x32 f tag with
    | none => s
    | some c => if c.b 40 ≠ 1 then s else (s.hostWrite c 0 s.chainBytes).finish c.order .success s.chainBytes.length)

/-- The fuses would accept the loader, firmware and image in force (R409). -/
def State.fusesAccept (s : State) (fu : Fuses) : Bool :=
  let s' : State := { s with trust := { s.trust with shadow := { s.trust.shadow with sig := fu.sig, revoked := fu.revoked } } }
  let code := s.flash.regionBytes (3 + s.trust.fwSlot)
  (checkCode s' true (fwPart code true)).1 && (checkCode s' false (fwPart code false)).1
    && (!s.cfg.found || (signatureVerdict s'.trust.shadow (s.flash.regionBytes (1 + s.cfg.slot))).1 == 0)

/-- A fuse operation blows its fuses, unless they would refuse what is in force (R409). The shadow takes them at the next
system or power-on reset. -/
def State.blow (s : State) (c : Cmd) (fu : Fuses) : State :=
  if s.fusesAccept fu && fu.revoked != 15#4 then
    State.finish { s with trust := { s.trust with fuses := fu } } c.order .success 0
  else s.finish c.order .imageInvalid 0

/-- `ATTEST_ENFORCE_SIGNATURES` (R409). -/
def execAttestEnforceSignatures (f : FnId) (tag : BitVec 6) (s : State) : Host.Outcome State Fault Refusal :=
  .next (match s.admin? 0x32 f tag with
    | none => s
    | some c => if c.b 40 ≠ 2 then s else s.blow c { s.trust.fuses with sig := true })

/-- `ATTEST_REVOKE_KEY` (R409). -/
def execAttestRevokeKey (f : FnId) (tag : BitVec 6) (s : State) : Host.Outcome State Fault Refusal :=
  .next (match s.admin? 0x32 f tag with
    | none => s
    | some c =>
      if c.b 40 ≠ 3 then s
      else s.blow c { s.trust.fuses with revoked := s.trust.fuses.revoked ||| BitVec.ofNat 4 (2 ^ c.b 41) })

/-- The answer to a DOE request (R414): a report or the chain, as if `NBLK` were 130. Payload: bytes 40 to 47 of Table 20-3,
then the 32-byte nonce. -/
def State.doeAnswer (s : State) (dtype : Nat) (p : Bytes) : Option Bytes :=
  if p.length ≠ 40 then none
  else if dtype = 1 ∧ byteAt p 0 = 0 then some (s.report (leAt p 2 2) (leAt p 4 4) 130 (slice p 8 32)).1
  else if dtype = 2 ∧ byteAt p 0 = 1 then some s.chainBytes
  else none

/-- `DOE_REQUEST` (R414): answered at once while the queue engine runs; during a core reset the mailbox stays busy with the
request until it resumes. -/
def execDoeRequest (f : FnId) (dtype : BitVec 8) (payload : Bytes) (s : State) : Host.Outcome State Fault Refusal :=
  .next (match s.fn? f with
    | none => s
    | some x =>
      if s.sysHeld || x.doe.busy || !s.host.ready then s
      else if s.queueUp then
        match s.doeAnswer dtype.toNat payload with
        | some r => (s.updFn f (fun x => { x with doe := ⟨false, false, r⟩ })).emit (.doe f r)
        | none => s.updFn f (fun x => { x with doe := ⟨false, true, []⟩ })
      else s.updFn f (fun x => { x with doe := ⟨true, false, dtype :: payload⟩ }))

/-- The DOE requests held over a core reset are answered (R414). -/
def State.doeResume (s : State) : State :=
  s.host.fns.foldl (fun s x =>
    match x.doe.busy, x.doe.response with
    | true, t :: p =>
      (match s.doeAnswer t.toNat p with
       | some r => (s.updFn x.id (fun x => { x with doe := ⟨false, false, r⟩ })).emit (.doe x.id r)
       | none => s.updFn x.id (fun x => { x with doe := ⟨false, true, []⟩ }))
    | _, _ => s) s

/-- `DOE_ABORT` (R414): a request not yet answered is discarded. -/
def execDoeAbort (f : FnId) (s : State) : Host.Outcome State Fault Refusal :=
  .next (s.updFn f (fun x => { x with doe := ⟨false, false, if x.doe.busy then [] else x.doe.response⟩ }))

/-! ### Staging (R293, R294) -/

/-- The flash region type of a target's inactive slot, and the slot.
Log 18 (DESIGN CHOICE). -/
def State.inactive (s : State) (target : Nat) : Nat × Nat :=
  if target = 0 then (1 + (1 - s.cfg.slot), 1 - s.cfg.slot) else (3 + (1 - s.trust.fwSlot), 1 - s.trust.fwSlot)

/-- The steps of a `STAGE_CONFIG`: 0 open, 1 chunk, 2 commit.
Log 18 (DESIGN CHOICE). -/
def stageSteps (c : Cmd) : List Nat :=
  (if (c.b 40).testBit 2 then [0] else []) ++ (if c.nblk ≠ 0 ∨ c.b 40 / 4 = 0 then [1] else [])
    ++ (if (c.b 40).testBit 3 then [2] else [])

/-- A flash operation of a staging session runs. -/
def State.stageBusyNow (s : State) : Bool :=
  s.flash.jobs.any (fun j => j.op == .stageErase || j.op == .stageChunk)

/-- The `STAGE_CONFIG` whose next step is i: at its first step it starts. -/
def State.stageAt (s : State) (tag : BitVec 6) (i : Nat) : Option Cmd :=
  if s.stageBusyNow then none
  else
    match s.cmd? 0 0 tag with
    | none => none
    | some c =>
      if c.opc != 0x40 then none
      else if c.phase == .started then (if c.todo.head? == some i && s.adminUp 0 && s.fnMoves c then some c else none)
      else
        match s.admin? 0x40 0 tag with
        | some c => if (stageSteps c).head? == some i then some { c with phase := .started, todo := stageSteps c } else none
        | none => none

/-- A step of a `STAGE_CONFIG` is done: the next follows, or the command ends. -/
def State.stageNext (s : State) (order : Nat) : State :=
  match s.cmdAt order with
  | none => s
  | some c =>
    let left := c.todo.drop 1
    let s := s.updCmd order (fun c => { c with todo := left })
    if left.isEmpty then s.finish order .success 0 else s

/-- A flash operation is started. -/
def State.flashJob (s : State) (j : FlashJob) : State := { s with flash := { s.flash with jobs := s.flash.jobs ++ [j] } }

/-- The number of a target's inactive slot, as slot states count them (Table 15-3). -/
def State.slotNo (s : State) (target : Nat) : Nat := (if target = 0 then 0 else 2) + (s.inactive target).2

/-- The inactive slot of a target is marked invalid (R294), the boot-state record being unchanged (R334).
Log 18 (DESIGN CHOICE). -/
def State.slotInvalid (s : State) (target : Nat) : State :=
  let n := s.slotNo target
  { s with flash := { s.flash with bad := n :: s.flash.bad.filter (fun k => k != n) } }

/-- The mark is taken off with the boot-state record of a good commit. -/
def State.slotGood (s : State) (target : Nat) : State :=
  { s with flash := { s.flash with bad := s.flash.bad.filter (fun k => k != s.slotNo target) } }

/-- `STAGE_CONFIG_OPEN` (R293): any session is discarded, a new one starts, and the inactive slot is erased. -/
def execStageConfigOpen (tag : BitVec 6) (s : State) : Host.Outcome State Fault Refusal :=
  .next (match s.stageAt tag 0 with
    | none => s
    | some c =>
      let t := c.b 40 % 4
      let (ty, slot) := s.inactive t
      match s.flash.region ty with
      | none => s.finish c.order .invalidField 0
      | some (o, _) =>
        let s := (s.updCmd c.order (fun _ => c)).slotInvalid t
        let s := { s with
          host := { s.host with stageBusy := some ⟨t, slot, s.us⟩ }
          trust := if t = 1 then { s.trust with staged := 0 } else s.trust }
        s.flashJob ⟨.stageErase, o, [], 0, some c.order, none⟩)

/-- `STAGE_CONFIG_CHUNK` (R293): the chunk goes to the session's slot at `OFFSET`, if a session for the target is open and the
chunk ends within the slot. -/
def execStageConfigChunk (tag : BitVec 6) (data : Bytes) (s : State) : Host.Outcome State Fault Refusal :=
  .next (match s.stageAt tag 1 with
    | none => s
    | some c =>
      let off := 4096 * leAt c.entry 44 4
      match s.host.stageBusy with
      | none => s.finish c.order .invalidField 0
      | some q =>
        match s.flash.region (s.inactive q.target).1 with
        | none => s.finish c.order .invalidField 0
        | some (o, n) =>
          if q.target ≠ c.b 40 % 4 ∨ n < off + 4096 * c.nblk then s.finish c.order .invalidField 0
          else if data.length ≠ 4096 * c.nblk then s
          else
            let s := s.updCmd c.order (fun _ => c)
            let s : State := { s with host := { s.host with stageBusy := some { q with last := s.us } } }
            if data.isEmpty then s.stageNext c.order else s.flashJob ⟨.stageChunk, o + off, data, 0, some c.order, none⟩)

/-- The verdict on the staged slot (R294, R326): for an image its fields, for firmware whether loader and firmware are
accepted. -/
def State.stagedGood (s : State) (target : Nat) : Bool :=
  let code := s.flash.regionBytes (s.inactive target).1
  if target = 0 then (checkImage s code.length code).1.isSome && s.cfg.seq < imgSeq code
  else (checkCode s true (fwPart code true)).1 && (checkCode s false (fwPart code false)).1

/-- `STAGE_CONFIG_COMMIT` (R294, R332): the slot is checked; a good one is named by a boot-state record, whose program the
commit waits for. The session ends.
Log 18 (DESIGN CHOICE). -/
def execStageConfigCommit (tag : BitVec 6) (s : State) : Host.Outcome State Fault Refusal :=
  .next (match s.stageAt tag 2 with
    | none => s
    | some c =>
      match s.host.stageBusy with
      | none => s.finish c.order .invalidField 0
      | some q =>
        if q.target ≠ c.b 40 % 4 then s.finish c.order .invalidField 0
        else
          let s := s.updCmd c.order (fun _ => c)
          let good := s.stagedGood q.target
          let s : State := { s with host := { s.host with stageBusy := none } }
          if good then s.flashJob ⟨.bootRecord, q.target, [], 0, some c.order, none⟩
          else (s.slotInvalid q.target).finish c.order .imageInvalid 0)

/-- A commit's boot-state record is written: an image comes into force by class and is measured; firmware waits for
`ACTIVATE_FW` (R294, R332, R406). -/
def State.commitDone (s : State) (target : Nat) (order : Option Nat) : State :=
  let (ty, slot) := s.inactive target
  let code := s.flash.regionBytes ty
  let b := s.flash.boot
  let s := s.slotGood target
  if target = 0 then
    let seq := imgSeq code
    let s := { s with flash := s.flash.bootAppend { b with image := slot, states := b.states.set slot 1, imgSeq := seq } }
    match (checkImage s code.length code).1 with
    | some c =>
      let differs := bootDiffers s.cfg.boot c (s.safe .safetyOverTripRpm)
      let (_, s) := s.measureImage slot
      let s := s.commitImage c seq slot
      (match order with
       | some o => s.finish o .success differs.toNat
       | none => s)
    | none =>
      (match order with
       | some o => (s.slotInvalid target).finish o .imageInvalid 0
       | none => s.slotInvalid target)
  else
    let s := { s with
      flash := s.flash.bootAppend { b with fw := slot, states := b.states.set (2 + slot) 1 }
      trust := { s.trust with staged := imgSeq (fwPart code false) } }
    match order with
    | some o => s.finish o .success 0
    | none => s

/-- `STAGE_SESSION_IDLE` (R293). -/
def execStageSessionIdle (s : State) : Host.Outcome State Fault Refusal :=
  .next (match s.host.stageBusy with
    | some q =>
      if q.last + 1000000 * s.liveN .cmdStageIdleS ≤ s.us ∧ !s.stageBusyNow ∧ !s.coresHeld then
        State.raise { s with host := { s.host with stageBusy := none } } 899 .stageDiscarded 0 0 0
      else s
    | none => s)

/-! ### Activation (R295) -/

/-- A `MOUNT`, `UNMOUNT`, `COMMIT` or other `ACTIVATE_FW` is in progress. -/
def State.activationBusy (s : State) : Bool :=
  s.host.act.isSome || s.host.cmds.any (fun c => c.phase == .started &&
    (c.opc == 0x50 || c.opc == 0x51 || (c.opc == 0x40 && (c.b 40).testBit 3)))

/-- Committed firmware waits in the inactive slot. -/
def State.fwWaits (s : State) : Bool :=
  let b := s.flash.boot
  b.fw != s.trust.fwSlot && b.states.getD (2 + (1 - s.trust.fwSlot)) 0 == 1 && !s.flash.bad.contains (s.slotNo 1)

/-- The drain of an activation starts (Table 13-6): fetching stops, `FWACT` is set, no new pass block starts (R138). -/
def State.drainStart (s : State) (c : Cmd) (mode : Nat) : State :=
  let s := s.start c
  State.bumpGen { s with host := { s.host with act := some ⟨c.order, mode, s.us, false⟩, fetchStop := true } }

/-- The `ACTIVATE_FW` of a mode that may act. -/
def State.activation? (s : State) (tag : BitVec 6) (mode : Nat) : Option Cmd :=
  match s.admin? 0x41 0 tag with
  | some c => if c.b 40 == mode then some c else none
  | none => none

/-- `ACTIVATE_FW_FIRMWARE` (R295): the drain of Table 13-6 begins. -/
def execActivateFwFirmware (tag : BitVec 6) (s : State) : Host.Outcome State Fault Refusal :=
  .next (match s.activation? tag 0 with
    | none => s
    | some c =>
      if s.activationBusy then s.finish c.order .busy 0
      else if !s.fwWaits then s.finish c.order .imageInvalid 0
      else s.drainStart c 0)

/-- `ACTIVATE_FW_CORE_RESET` (R295): the same drain. -/
def execActivateFwCoreReset (tag : BitVec 6) (s : State) : Host.Outcome State Fault Refusal :=
  .next (match s.activation? tag 1 with
    | none => s
    | some c => if s.activationBusy then s.finish c.order .busy 0 else s.drainStart c 1)

/-- `ACTIVATE_FW_SYSTEM_RESET` (R295): system reset at once, `RESET_CAUSE` [5], no completion (R297). -/
def execActivateFwSystemReset (tag : BitVec 6) (s : State) : Host.Outcome State Fault Refusal :=
  .next (match s.activation? tag 2 with
    | none => s
    | some c => if s.activationBusy then s.finish c.order .busy 0 else s.assertSystem 5)

/-- Commands that have started and not completed, other than the activation itself. -/
def State.startedLeft (s : State) (order : Nat) : Bool :=
  s.host.cmds.any (fun c => c.order != order && (c.phase == .started || c.phase == .done) && !c.silent)

/-- A pass block is in progress somewhere: a planned core reset waits for it, verify included (R138). -/
def State.blocksRun (s : State) : Bool := s.bays.any (fun (y : Bay) => y.pa.write.block.isSome || y.pb.write.block.isSome)

/-- `FWACT_DRAIN_END` (R295): every started command has completed, or the drain time has run out: the core reset asserts. -/
def execFwactDrainEnd (s : State) : Host.Outcome State Fault Refusal :=
  .next (match s.host.act with
    | some a =>
      if a.drained || s.coresHeld || s.blocksRun || (s.startedLeft a.order && s.us < a.started + s.liveN .cmdFwactDrainMs * 1000) then s
      else
        let s : State := { s with host := { s.host with act := some { a with drained := true } } }
        s.assertCore (if a.mode = 0 then 7 else 6)
    | none => s)

/-- An activation ends with a status; fetching resumes and `FWACT` clears. -/
def State.actEnd (s : State) (order : Nat) (st : Status) : State :=
  let s : State := { s with host := { s.host with act := none, fetchStop := false } }
  (s.coresReturn.doeResume).finish order st 0

/-- `FW_START_RESULT` (R295, R405, R406): the new firmware is measured and starts, or the previous slot starts again, is named
by a boot-state record, and the activation ends `IMAGE_INVALID`. -/
def execFwStartResult (started : Bool) (s : State) : Host.Outcome State Fault Refusal :=
  .next (match s.host.act with
    | some a =>
      if a.mode ≠ 0 ∨ !a.drained ∨ s.chip.rst.core.isNone ∨ s.sysHeld then s
      else
        let old := s.trust.fwSlot
        let new := 1 - old
        let (ok, s) := s.measureCode false new
        if ok && started then
          let v := imgSeq (fwPart (s.flash.regionBytes (3 + new)) false)
          let s : State := { s with trust := { s.trust with fwSlot := new, fwVersion := v, staged := 0 } }
          s.actEnd a.order .success
        else
          let (_, s) := s.measureCode false old
          let b := s.flash.boot
          let s := { s with
            flash := s.flash.bootAppend { b with fw := old, states := (b.states.set (2 + old) 1).set (2 + new) 2 }
            trust := { s.trust with staged := 0 } }
          (s.raise 899 .fwActivateFail 0 0 0).actEnd a.order .imageInvalid
    | none => s)

/-! ### Mounting (R291, R292) -/

/-- Another `MOUNT` or `UNMOUNT` of the same hamper runs. -/
def State.mountRunning (s : State) (c : Cmd) : Bool :=
  s.host.cmds.any (fun v => v.order != c.order && v.hid == c.hid && (v.opc == 0x50 || v.opc == 0x51) &&
    (v.phase == .started || s.ham.attached.any (fun a => a.2.2 == some v.order)
      || allSlots.any (fun h => match s.slot h with
        | some x => x.attach == some v.order
        | none => false)))

/-- A bay holds a member of a mounted hamper. -/
def State.bayTaken (s : State) (b : BayId) : Bool :=
  s.ham.slots.any (fun v => match v with
    | some x => x.members.any (fun m => m.bay == some b)
    | none => false)

/-- A bay holds a blank disc. -/
def Bay.isBlank (y : Bay) : Bool := y.disc.blank && y.disc.label.isNone

/-- The `MOUNT` of an operation that may act now. -/
def State.mount? (s : State) (tag : BitVec 6) (mop : Nat) : Option Cmd :=
  match s.admin? 0x50 0 tag with
  | some c => if c.b 40 == mop then some c else none
  | none => none

/-- `MOUNT_ATTACH` (R291): the hamper is attached; it completes when the hamper is at least `DEGRADED`, and is held while it
is `BELOW`. -/
def execMountAttach (tag : BitVec 6) (s : State) : Host.Outcome State Fault Refusal :=
  .next (match s.mount? tag 0 with
    | none => s
    | some c =>
      let own := match (s.slotOf c.hid).bind s.slot with
        | some x => x.attach == some c.order
        | none => false
      let waits := s.ham.attached.any (fun a => a.2.2 == some c.order)
      if own then
        match (s.slotOf c.hid) with
        | some h =>
          (match (s.slot h).map s.hstate with
           | some .mounting => s.holdFor c
           | some .below => s.holdFor c
           | some _ => (s.updHam h (fun x => { x with attach := none })).finish c.order .success (s.mountResult h)
           | none => s)
        | none => s
      else if waits then (s.tryMount c.hid ((c.b 41).testBit 0) (some c.order)).holdFor c
      else if (s.slotOf c.hid).isSome || s.mountRunning c || (s.freeSlot).isNone then s.finish c.order .busy 0
      else
        let s := { s with ham := { s.ham with
          attached := s.ham.attached.filter (fun (a : Nat × Bool × Option Nat) => a.1 != c.hid) ++ [(c.hid, (c.b 41).testBit 0, some c.order)] } }
        ((s.tryMount c.hid ((c.b 41).testBit 0) (some c.order)).raiseStale c.hid).holdFor c)

/-- The bays a create block names, member by member.
Log 16 (DESIGN CHOICE). -/
def createBays (n : Nat) (block : Bytes) : List Nat := (List.range n).map (fun i => byteAt block (64 + i))

/-- No bay is named twice. -/
def allDistinct : List Nat → Bool
  | [] => true
  | b :: bs => !bs.contains b && allDistinct bs

/-- A policy is kept (R227): at most m members in one region under `REGION`. -/
def policyKept (policy m : Nat) (bays : List Nat) : Bool :=
  policy == 1 || (List.range 4).all (fun r => (bays.filter (fun b => b / 8 == r)).length ≤ m)

/-- The members of a new hamper. -/
def State.newMembers (s : State) (bays : List Nat) : List Member :=
  bays.zipIdx.map (fun e =>
    if h : e.1 < 32 then
      { idx := e.2, bay := some ⟨e.1, h⟩, serial := padTo 16 ((s.bay ⟨e.1, h⟩).disc.serial.getD []), state := .active, joined := 1,
        next := 0, graceA := none, graceB := none, rebuilt := 0, rebuildTo := 0 }
    else
      { idx := e.2, bay := none, serial := zeros 16, state := .unused, joined := 0, next := 0, graceA := none,
        graceB := none, rebuilt := 0, rebuildTo := 0 })

/-- The hamper that a `MOUNT` create begins (R291): session 1, the label of epoch 1 with the command's k, m and policy. -/
def State.newHamper (s : State) (c : Cmd) (block : Bytes) : Hamper :=
  let k := c.b 42
  let m := c.b 43
  let label := sealRecord 4096 (ascii "YHL1" ++ leBytes 4 1 ++ leBytes 8 c.hid ++ leBytes 1 k ++ leBytes 1 m
    ++ leBytes 1 (c.b 41 / 2) ++ [0#8] ++ leBytes 8 s.time ++ padTo 64 block)
  { hamperOf label with
    members := s.newMembers (createBays (k + m) block), session := 1, ordNext := 2 ^ 40 + 1, mounting := false, creating := some c.order }

/-- `MOUNT_CREATE` (R291): labels of epoch 1 are written on blank discs and the hamper is mounted empty with session 1.
Log 16 (DESIGN CHOICE). -/
def execMountCreate (tag : BitVec 6) (block : Bytes) (s : State) : Host.Outcome State Fault Refusal :=
  .next (match s.mount? tag 1 with
    | none => s
    | some c =>
      let k := c.b 42
      let m := c.b 43
      let all := createBays (k + m) block
      let bays := all.filter (fun b => b != 0xFF)
      let at' := fun (p : BayId → Bool) => bays.all (fun b => if h : b < 32 then p ⟨b, h⟩ else false)
      if bays.any (fun b => s.bayCount ≤ b) || !allDistinct bays then s.finish c.order .invalidField 0
      else if (s.slotOf c.hid).isSome || s.mountRunning c then s.finish c.order .busy 0
      else if !at' (fun b => (s.bay b).ready) then s.holdFor c
      else if !at' (fun b => (s.bay b).isBlank && !s.bayTaken b) || !policyKept (c.b 41 / 2) m bays then
        s.finish c.order .memberConflict 0
      else
        match s.freeSlot with
        | none => s.finish c.order .busy 0
        | some h => (((s.start c).setSlot h (some (s.newHamper c block))).bumpGen).writeLabels h)

/-- A blank disc takes the index of a member (R245): it rebuilds up to where that member stood, from the next epoch on. -/
def Hamper.replaceMember (x : Hamper) (i : Nat) (b : BayId) (serial : Bytes) (upTo order : Nat) : Hamper :=
  let y := x.updMember i (fun m => { m with
    bay := some b, serial := serial, state := .rebuilding, joined := x.epoch + 1, rebuilt := 0, rebuildTo := m.next
    graceA := none, graceB := none })
  { y with
    epoch := x.epoch + 1, replaces := some (i, upTo), creating := some order
    ckpt := { x.ckpt with lead := x.ckpt.lead.set i (0, 0) } }

/-- `MOUNT_REPLACE` (R245, R291): a blank disc takes the index of a member out of service; the labels of the next epoch are
written, and the rebuild follows.
Log 16 (DESIGN CHOICE). -/
def execMountReplace (tag : BitVec 6) (s : State) : Host.Outcome State Fault Refusal :=
  .next (match s.mount? tag 2 with
    | none => s
    | some c =>
      match s.hamperGate c.hid with
      | .hold => s.holdFor c
      | .stop st => s.finish c.order st 0
      | .go h =>
        match s.slot h with
        | none => s
        | some x =>
          let i := c.b 44
          let rb := c.b 45
          if hb : rb < 32 then
            let b : BayId := ⟨rb, hb⟩
            match x.member? i with
            | none => s.finish c.order .invalidField 0
            | some m =>
              let others := (x.members.filter (fun v => v.idx != i)).filterMap (fun v => v.bay.map (fun b => b.val))
              if s.mountRunning c || x.unmounting.isSome || x.replaces.isSome || s.freeSlot.isNone then s.finish c.order .busy 0
              else if !(s.bay b).ready then s.holdFor c
              else if !(s.bay b).isBlank || s.bayTaken b || s.memberReads m || s.memberWrites m
                  || !policyKept x.policy x.m (rb :: others) then s.finish c.order .memberConflict 0
              else
                let serial := padTo 16 ((s.bay b).disc.serial.getD [])
                ((s.start c).updHam h (fun x => x.replaceMember i b serial m.next c.order)).writeLabels h
          else s.finish c.order .invalidField 0)

/-- `UNMOUNT` (R244, R292): the hamper closes and commits its stripes; a delta and its pointer record follow, with which the
command completes. -/
def execUnmount (tag : BitVec 6) (s : State) : Host.Outcome State Fault Refusal :=
  .next (match s.admin? 0x51 0 tag with
    | none => s
    | some c =>
      match s.hamperGate c.hid with
      | .hold => s.holdFor c
      | .stop st => s.finish c.order st 0
      | .go h =>
        let s := s.updHam h (fun x => { x with unmounting := some (x.unmounting.getD c.order) })
        if ((s.slot h).bind (fun x => x.unmounting)) != some c.order || s.mountRunning c then s.finish c.order .busy 0
        else ((s.updCmd c.order (fun c => { c with phase := .started, slot := some h })).closeOpen h))

end Sys2Proof.Machine
end

