-- ==== Sys2Proof/Machine/InjectOps.lean ====
section
/-! DEFINITION. Fault injection (R417 to R424): arming, ending, and what an injection does to a frame of its target. -/

namespace Sys2Proof.Machine

/-- `TKIND`, `TBAY`, `TLANE` of an injection. -/
def Inject.target (i : Inject) : Nat × Nat × Nat := (byteAt i.fields 1 % 16, byteAt i.fields 2, byteAt i.fields 3)
/-- `IMODE`. -/
def Inject.mode (i : Inject) : Nat := byteAt i.fields 4 % 16
/-- `PATTERN`. -/
def Inject.pattern (i : Inject) : Nat := byteAt i.fields 5 % 16
/-- `CRCFIX`. -/
def Inject.crcFix (i : Inject) : Bool := byteAt i.fields 5 / 16 % 2 == 1
/-- `COUNT`. -/
def Inject.count (i : Inject) : Nat := leAt i.fields 6 2
/-- `PROB`: the probability, or the XOR mask. -/
def Inject.prob (i : Inject) : Nat := leAt i.fields 8 4
/-- `START`, µs. -/
def Inject.start (i : Inject) : Nat := leAt i.fields 12 4
/-- `DURATION`, ms. -/
def Inject.duration (i : Inject) : Nat := leAt i.fields 16 4
/-- `BITOFS`. -/
def Inject.bitOfs (i : Inject) : Nat := leAt i.fields 20 2

/-- The event source of an injection: its bay's or its region's (Table 21-3). -/
def Inject.src (i : Inject) : Nat := if i.target.1 = 2 then srcRegion i.target.2.1 12 else 24 * i.target.2.1 + 19

/-- The state with one injection changed. -/
def State.updInj (s : State) (id : Nat) (g : Inject → Inject) : State :=
  { s with inj := { s.inj with list := s.inj.list.map (fun i => if i.id == id then g i else i) } }

/-- An injection ends: by its count, its time or a cancel (R422). Frames it still held are lost. -/
def State.endInject (s : State) (id : Nat) : State :=
  match s.inj.list.find? (fun i => i.id == id) with
  | some i =>
    if i.st == .ended then s
    else (s.updInj id (fun i => { i with st := .ended, endedAt := some s.us, heldF := [] })).raise i.src .injectEnded id 0 0
  | none => s

/-- An injection acts on a target now, or ended on it within the last second (R421).
Log 20 (DESIGN CHOICE). -/
def State.provisional (s : State) (p : Nat × Nat × Nat → Bool) : Bool :=
  s.inj.list.any (fun i => p i.target && (match i.st with
    | .waiting => false
    | .acting => true
    | .ended => (match i.endedAt with
      | some t => decide (s.us ≤ t + 1000000)
      | none => false)))

/-- The injection targets that name a spot of a pickup, for either row or both (Table 21-1). -/
def spotTarget (b : BayId) (p : Pu) (sp : Nat) (t : Nat × Nat × Nat) : Bool :=
  t.1 == 3 && t.2.1 == b.val && t.2.2 % 32 == sp && t.2.2 / 32 % 2 == p.idx

/-- The injection targets that name an element of a pickup, numbered in the order of `MON`. -/
def elemTarget (b : BayId) (p : Pu) (e : Nat) (t : Nat × Nat × Nat) : Bool :=
  spotTarget b p (e % 18) t && (t.2.2 / 64 == 2 || t.2.2 / 64 == e / 18)

/-- The injection targets that name any element of a pickup. -/
def puTarget (b : BayId) (p : Pu) (t : Nat × Nat × Nat) : Bool := t.1 == 3 && t.2.1 == b.val && t.2.2 / 32 % 2 == p.idx

/-! ### The list of injections (R423) -/

/-- The block of a fabric link. -/
def linkBlock (r l : Nat) : BlockId := ⟨14, r, 1 + l⟩

/-- The 48 bytes of one injection. -/
def Inject.entry (i : Inject) : Bytes :=
  padTo 48
    (leBytes 2 i.id ++ leBytes 1 (match i.st with
      | .waiting => 0
      | .acting => 1
      | .ended => 2)
      ++ leBytes 1 i.fn.val ++ zeros 4 ++ leBytes 8 i.acted ++ padTo 24 i.fields)

/-- A physical lane's record. -/
def HLink.lane (l : HLink) : PhysLane → Lane
  | .UP0 => l.up0
  | .UP1 => l.up1
  | .UPS => l.ups

/-- The physical lane of an injection's `TLANE` (Table 21-1). -/
def injLane (lane : Nat) : PhysLane := if lane % 4 = 0 then .UP0 else if lane % 4 = 1 then .UP1 else .UPS

/-- The pickup of an injection's `TLANE` on a head link. -/
def injPu (lane : Nat) : Pu := if lane / 4 % 2 = 0 then .A else .B

/-- An ended injection still holds provisional consequences (R421): a retired lane, a failed fabric link, or a grade, row, track or
retirement of its pickup. -/
def State.holdsProv (s : State) (i : Inject) : Bool :=
  let (kind, tb, lane) := i.target
  if kind = 2 then s.blk.blks.any (fun x => x.prov && x.id == linkBlock tb lane)
  else if h : tb < 32 then
    let b : BayId := ⟨tb, h⟩
    if kind = 0 then lane % 4 < 3 && ((s.pu b (injPu lane)).link.lane (injLane lane)).prov
    else if kind = 3 then
      let u := s.pu b (if lane / 32 % 2 = 0 then .A else .B)
      let sp := lane % 32
      [sp, sp + 18].any (fun k => (u.elems.getD k .reset).prov) || u.cal.rowProv.contains sp
        || (u.cal.trkProv && 0 < sp && (u.cal.tret == some (sp - 1) || u.cal.susp == some (sp - 1))) || u.cal.retProv
    else false
  else false

/-- The injections that the list names: those waiting or acting, and those ended whose provisional consequences are still held. -/
def State.listedInjects (s : State) : List Inject := s.inj.list.filter (fun i => i.st != .ended || s.holdsProv i)

/-- The block that `IOP` 3 writes. -/
def State.injectList (s : State) : Bytes :=
  padTo 4096 (padTo 32 (ascii "YXIJ" ++ leBytes 4 (s.inj.list.filter (fun i => i.st != .ended)).length) ++ s.listedInjects.flatMap Inject.entry)

/-! ### Frames -/

/-- A descrambled upstream head-link frame is a `SAMPLE` frame: `TYPE` 1 (Tables 02-2 and 02-3). -/
def isSample (plain : Bytes) : Bool := byteAt plain 0 / 16 == 1

/-- A frame with the mask XORed in from a bit on (R39's numbering). -/
def xorMask (frame : Bytes) (bit mask : Nat) : Bytes :=
  let m := List.replicate bit false ++ bitsOfNat 32 mask
  let bits := bitsOf frame
  bytesOfBits frame.length (bits.zipIdx.map (fun e => e.1 != m.getD e.2 false))

/-- A scrambled frame with its check word, the last 4 bytes, made good again (R41). -/
def fixCrc (frame : Bytes) : Bytes :=
  let p := scramble frame
  let body := p.take (frame.length - 4)
  scramble (body ++ beBytes 4 (linkCrc body).toNat)

/-- What one injection makes of a frame: the frames that go on, in order, and the injection. `sample` says whether the frame
is a `SAMPLE` frame; `draw` decides a drop by probability.
Log 20 (DESIGN CHOICE). -/
def Inject.act (i : Inject) (draw : Nat) (sample : Bool) (frame : Bytes) : List Bytes × Inject :=
  let hit := { i with acted := i.acted + 1 }
  match i.mode with
  | 0 =>
    if i.pattern = 2 then (if Config.freeNat draw % 2 ^ 32 < i.prob then ([], hit) else ([frame], i))
    else ([], hit)
  | 1 =>
    if i.crcFix then
      (if sample then ([fixCrc (xorMask frame i.bitOfs i.prob)], hit) else ([frame], i))
    else ([xorMask frame i.bitOfs i.prob], hit)
  | 2 =>
    match i.heldF with
    | [] => ([], { hit with heldF := [(if i.pattern = 0 then 1 else i.count, frame)] })
    | (n, old) :: _ => if n ≤ 1 then ([frame, old], { i with heldF := [] }) else ([frame], { i with heldF := [(n - 1, old)] })
  | _ => ([frame], i)

/-- An injection has reached its count (R420). -/
def Inject.spent (i : Inject) : Bool :=
  (i.mode == 0 && ((i.pattern == 0 && i.acted ≥ 1) || (i.pattern == 1 && i.acted ≥ i.count))) ||
  (i.mode == 1 && i.acted ≥ i.count)

/-- The frames of a target through one injection.
Log 20 (DESIGN CHOICE). -/
def State.injectOne (s : State) (id : Nat) (sample : Bool) : List Bytes → List Bytes × State
  | [] => ([], s)
  | f :: fs =>
    match s.inj.list.find? (fun i => i.id == id) with
    | some i =>
      if i.st == .acting then
        let (k, s) := s.draw
        let (out, i') := i.act k sample f
        let s := s.updInj id (fun _ => i')
        let s := if i'.spent then s.endInject id else s
        let (rest, s) := State.injectOne s id sample fs
        (out ++ rest, s)
      else (f :: fs, s)
    | none => (f :: fs, s)

/-- A frame as it stands after every injection on its target, in ascending ID order (R419, R420). -/
def State.injectFrame (s : State) (target : Nat × Nat × Nat) (frame : Bytes) : List Bytes × State :=
  let ids := (sortDesc ((s.inj.list.filter (fun i => i.st == .acting && i.target == target)).map (fun i => i.id))).reverse
  match ids with
  | [] => ([frame], s)
  | _ =>
    let sample := target.1 == 0 && isSample (scramble frame)
    ids.foldl (fun r id => State.injectOne r.2 id sample r.1) ([frame], s)

/-- The target of a physical upstream lane or of `DN` (`TKIND` 0). -/
def laneTarget (b : BayId) (p : Pu) (lane : Nat) : Nat × Nat × Nat := (0, b.val, lane + 4 * p.idx)

/-- A downstream head-link frame sent, through the injections on `DN`. -/
def State.sendDn (s : State) (b : BayId) (p : Pu) (plain : Bytes) : State :=
  let (fs, s) := s.injectFrame (laneTarget b p 3) (scramble plain)
  fs.foldl (fun s f => s.emit (.headFrame b p f)) s

/-- A downstream motor-link frame sent, through the injections on it. -/
def State.sendMotor (s : State) (b : BayId) (plain : Bytes) : State :=
  let (fs, s) := s.injectFrame (1, b.val, 0) (scramble plain)
  fs.foldl (fun s f => s.emit (.motorFrame b f)) s

/-- The spot deaths in force on a pickup's element (R419): its patterns. -/
def State.spotDeaths (s : State) (b : BayId) (p : Pu) (spot row : Nat) : List Nat :=
  (s.inj.list.filter (fun i => i.st == .acting && i.target.1 == 3 && i.target.2.1 == b.val
    && i.target.2.2 % 32 == spot && i.target.2.2 / 32 % 2 == p.idx
    && (i.target.2.2 / 64 == 2 || i.target.2.2 / 64 == row))).map Inject.pattern

/-! ### The command (R418, R422, R424) -/

/-- Slot 6 extended for an accepted `FAULT_INJECT` (R407, R422): entry type 7, or 8 for a use of the diagnostic mode.
Log 19 (DEDUCED). -/
def State.measureInject (s : State) (c : Cmd) (etype : Nat) : State :=
  s.extend 6 etype 3 0xFF 0 c.fn.val (slice c.entry 0 8 ++ slice c.entry 40 24) (sha3_512 (leBytes 1 c.fn.val ++ c.entry))

/-- The `FAULT_INJECT` of an operation that may act now. -/
def State.inject? (s : State) (tag : BitVec 6) (iop : Nat) : Option Cmd :=
  match s.admin? 0x60 0 tag with
  | some c => if c.b 40 == iop then some c else none
  | none => none

/-- The next injection ID from a number on: 0 and IDs still in the list are skipped. -/
def nextInjectId (used : List Nat) : Nat → Nat → Nat
  | 0, n => n
  | k + 1, n => if n % 65536 = 0 ∨ used.contains (n % 65536) then nextInjectId used k (n + 1) else n % 65536

/-- `FAULT_INJECT_ARM` (R418). -/
def execFaultInjectArm (tag : BitVec 6) (s : State) : Host.Outcome State Fault Refusal :=
  .next (match s.inject? tag 0 with
    | none => s
    | some c =>
      let s := s.measureInject c 7
      let fields := slice c.entry 40 24
      let live := s.inj.list.filter (fun i => i.st != .ended)
      let same := live.filter (fun i => slice i.fields 1 3 == slice fields 1 3)
      if s.liveN .injectMaxActive ≤ live.length ∨ 4 ≤ same.length then s.finish c.order .busy 0
      else
        let id := nextInjectId (s.inj.list.map (fun i => i.id)) 65536 s.inj.nextId
        let i : Inject := ⟨id, c.fn, fields, s.us, none, 0, .waiting, none, []⟩
        let s : State := { s with inj := ⟨s.inj.list ++ [i], id + 1⟩ }
        s.finish c.order .success id)

/-- `FAULT_INJECT_CANCEL` (R418): an ID that names no injection in progress is a field out of range.
Log 20 (DESIGN CHOICE). -/
def execFaultInjectCancel (tag : BitVec 6) (s : State) : Host.Outcome State Fault Refusal :=
  .next (match s.inject? tag 1 with
    | none => s
    | some c =>
      let s := s.measureInject c 7
      let id := leAt c.entry 62 2
      if s.inj.list.any (fun i => i.id == id && i.st != .ended) then (s.endInject id).finish c.order .success id
      else s.finish c.order .invalidField 0)

/-- `FAULT_INJECT_CANCEL_ALL` (R418). -/
def execFaultInjectCancelAll (tag : BitVec 6) (s : State) : Host.Outcome State Fault Refusal :=
  .next (match s.inject? tag 2 with
    | none => s
    | some c =>
      let s := s.measureInject c 7
      ((s.inj.list.map (fun i => i.id)).foldl State.endInject s).finish c.order .success 0)

/-- `FAULT_INJECT_LIST` (R423). -/
def execFaultInjectList (tag : BitVec 6) (s : State) : Host.Outcome State Fault Refusal :=
  .next (match s.inject? tag 3 with
    | none => s
    | some c =>
      let s := s.measureInject c 7
      (s.hostWrite c 0 s.injectList).finish c.order .success 0)

/-- `DIAG_RAW_WRITE` (R317, R424): data and check bits stored exactly as given.
Log 19 (DEDUCED). -/
def execDiagRawWrite (tag : BitVec 6) (block : Bytes) (s : State) : Host.Outcome State Fault Refusal :=
  .next (match s.inject? tag 4 with
    | none => s
    | some c =>
      if c.b 44 ≠ 0 then s
      else
        let s := (s.measureInject c 7).measureInject c 8
        let off := leAt c.entry 48 8
        let b := padTo 4096 block
        let w : DiagWord := ⟨off, b.take 64, slice b 64 16⟩
        let s : State := { s with mem := { s.mem with diag := w :: s.mem.diag.filter (fun d => d.offset != off) } }
        s.finish c.order .success 0)

/-- XOR of the bits of a byte. -/
def parity8 (b : Byte) : Bool := (byteBits b).foldl (fun a x => a != x) false

/-- The parity bits of a Bare codeword string: bit i of byte j for data byte 8j + i, most significant first (R329: zero data
has zero parity). -/
def bareCheck (data : Bytes) : Bytes := padTo 16 (bytesOfBits 8 (data.map parity8))

/-- The verdict and corrected data of a raw codeword under the diagnostic partition's code (0 Keep, 1 Pass, 2 Bare). -/
def diagVerdict (code : Nat) (data check : Bytes) : Nat × Bytes :=
  if code = 2 then (if check.take 8 == (bareCheck data).take 8 then (0, data) else (2, data))
  else if (data ++ check).all (fun x => x == 0#8) then (0, data)
  else if Config.memCheck code data == check then (0, data)
  else
    let r := Config.memDecode code data check
    (if r.1 % 3 = 0 then 2 else r.1 % 3, padTo 64 r.2)

/-- `DIAG_RAW_READ` (R317, R424): the raw codeword, the verdict and the corrected data.
Log 19 (DEDUCED). -/
def execDiagRawRead (tag : BitVec 6) (s : State) : Host.Outcome State Fault Refusal :=
  .next (match s.inject? tag 4 with
    | none => s
    | some c =>
      if c.b 44 ≠ 1 then s
      else
        let s := (s.measureInject c 7).measureInject c 8
        let off := leAt c.entry 48 8
        let w := (s.mem.diag.find? (fun d => d.offset == off)).getD ⟨off, zeros 64, zeros 16⟩
        let v := diagVerdict (s.bootN .memPartDiagCode) w.data w.check
        let page := padTo 96 (w.data ++ w.check ++ leBytes 1 v.1) ++ v.2
        (s.hostWrite c 0 (padTo 4096 page)).finish c.order .success 0)

/-- `INJECT_ACTION_START` (R422): `START` after its acceptance an injection begins to act. -/
def execInjectActionStart (id : BitVec 16) (s : State) : Host.Outcome State Fault Refusal :=
  .next (match s.inj.list.find? (fun i => i.id == id.toNat) with
    | some i =>
      if i.st == .waiting && i.armed + i.start ≤ s.us && !s.sysHeld then
        (s.updInj i.id (fun i => { i with st := .acting, began := some s.us })).raise i.src .injectArmed i.id 0 0
      else s
    | none => s)

/-- `INJECT_DURATION_END` (R418): its own duration, or `inject.max_duration_s` (a duration of 0 or a longer one), is over. -/
def execInjectDurationEnd (id : BitVec 16) (s : State) : Host.Outcome State Fault Refusal :=
  .next (match s.inj.list.find? (fun i => i.id == id.toNat) with
    | some i =>
      match i.began with
      | some t =>
        let most := s.liveN .injectMaxDurationS * 1000
        let ms := if i.duration = 0 then most else min i.duration most
        if i.st == .acting && t + ms * 1000 ≤ s.us then s.endInject i.id else s
      | none => s
    | none => s)

end Sys2Proof.Machine
end

