-- ==== Sys2Proof/Machine/LinkOps.lean ====
section
/-! DEFINITION. The head link (02_head_link.md): frames, upstream lanes, block merging, control operations, lane maps. -/

namespace Sys2Proof.Machine

/-! ### Frames (R40 to R45) -/

/-- `TYPE`. -/
def frType (f : Bytes) : Nat := byteAt f 0 / 16
/-- `SEQ`. -/
def frSeq (f : Bytes) : Nat := beAt f 0 4 / 4096 % 65536
/-- `TSH`. -/
def frTsh (f : Bytes) : Nat := beAt f 0 4 % 4096
/-- The check word of a descrambled frame verifies (R41). -/
def frGood (f : Bytes) : Bool := f.length == 512 && beAt f 508 4 == (linkCrc (f.take 508)).toNat

/-- A frame with its check word (Table 02-2). -/
def mkFrame (type seq tsh : Nat) (payload : Bytes) : Bytes :=
  let b := beBytes 4 (type % 16 * 2 ^ 28 + seq % 65536 * 4096 + tsh % 4096) ++ padTo 504 payload
  b ++ beBytes 4 (linkCrc b).toNat

/-- The unsigned field of `w` bits at bit `k` of a byte string. -/
def bitField (bs : Bytes) (k w : Nat) : Nat :=
  let first := k / 8
  let last := (k + w + 7) / 8
  beNat (slice (bs ++ zeros (last - bs.length)) first (last - first)) / 2 ^ (8 * last - k - w) % 2 ^ w

/-- `n` unsigned fields of 12 bits from a byte on. -/
def fields12 (bs : Bytes) (off n : Nat) : List Nat := (List.range n).map (fun i => bitField bs (8 * off + 12 * i) 12)

/-- 12-bit values packed, most significant bit first. -/
def pack12 (vs : List Nat) (bytes : Nat) : Bytes := bytesOfBits bytes (vs.flatMap (bitsOfNat 12))

/-- The code of sample (i, s) of a block (R44). -/
def sampleCode (data : Bytes) (i s : Nat) : Nat := bitField data (7 * (18 * i + s)) 7

/-- The payload of an erased block: 576 samples of value 0, code 64 (R44, R54). -/
def erasedData : Bytes := bytesOfBits 504 ((List.replicate 576 64).flatMap (bitsOfNat 7))

/-- The payload of a `SERVO` frame (Table 02-4). -/
def servoOf (f : Bytes) : Servo :=
  let q := byteAt f 177
  { tick := beAt f 4 2, tq := beAt f 6 6, qd := fields12 f 12 64, mon := fields12 f 108 36
    temp := (List.range 4).map (fun i => signedOf 16 (beAt f (162 + 2 * i) 2))
    rowNow := BitVec.ofNat 18 (beAt f 170 3), rowAt := beAt f 173 4, lmon := q.testBit 7, wact := q.testBit 6
    wabort := q.testBit 5, late := q.testBit 4, wdog := q.testBit 3, dnerr := beAt f 178 2, dnseq := beAt f 180 2
    efault := BitVec.ofNat 36 (beAt f 182 5) }

/-! ### Lanes -/

/-- A link with one lane's record changed. -/
def HLink.updLane (l : HLink) (ph : PhysLane) (g : Lane → Lane) : HLink :=
  match ph with
  | .UP0 => { l with up0 := g l.up0 }
  | .UP1 => { l with up1 := g l.up1 }
  | .UPS => { l with ups := g l.ups }

/-- The logical lane a physical lane carries (R50); in one-lane mode the survivor carries lane 0. -/
def HLink.logical (l : HLink) (ph : PhysLane) : Option Nat :=
  if l.map0 == ph then some 0 else if l.map1 == ph then some 1 else none

/-- The link carries normal traffic (Table 02-8). -/
def HLink.live (l : HLink) : Bool := l.st == .active || l.st == .laneRetrain

/-- The state with one link changed. -/
def State.updLink (s : State) (b : BayId) (p : Pu) (g : HLink → HLink) : State :=
  s.updPu b p (fun u => { u with link := g u.link })

/-- The link of a pickup. -/
def State.link (s : State) (b : BayId) (p : Pu) : HLink := (s.pu b p).link

/-- A frame counted on its lane (R42, R57): `SEQ` is expected to rise by one; a failed check word, a gap or a reserved type
is a frame error, kept with its moment while it lies in the window. A failed frame's header is not trusted.
Log 23 (DEDUCED). -/
def Lane.note (l : Lane) (now window : Nat) (plain : Bytes) : Lane :=
  let ok := frGood plain
  let known := frType plain ≤ 3 || frType plain == 15
  let gap := ok && (match l.seq with
    | some q => q != frSeq plain
    | none => false)
  let err := !ok || gap || !known
  let next := if ok then (frSeq plain + 1) % 65536 else (l.seq.getD 0 + 1) % 65536
  { l with
    seq := if ok || l.seq.isSome then some next else none
    errs := (if err then [now] else []) ++ l.errs.filter (fun t => now < t + window)
    crcRun := if ok then 0 else l.crcRun + 1
    total := l.total + err.toNat }

/-- A raw frame received on a physical lane: after the injections on it, descrambled and counted (R42, R419). The frames
come in order. -/
def State.rxLane (s : State) (b : BayId) (p : Pu) (ph : PhysLane) (raw : Bytes) : List Bytes × State :=
  let (fs, s) := s.injectFrame (laneTarget b p ph.code) raw
  let plains := fs.map scramble
  let w := s.liveN .hlinkUpErrWindowUs
  let now := s.us
  let s := s.updLink b p (fun l => plains.foldl (fun l f => l.updLane ph (fun x => x.note now w f)) l)
  (plains, s)

/-- A lane has reached the limit of R57. -/
def State.laneBad (s : State) (b : BayId) (p : Pu) (ph : PhysLane) : Bool :=
  let x := (s.link b p).lane ph
  s.liveN .hlinkUpErrRetrain ≤ (x.errs.filter (fun t => s.us < t + s.liveN .hlinkUpErrWindowUs)).length || 8 ≤ x.crcRun

/-! ### Blocks in order (R54, R55) -/

/-- The block that a number modulo 4,096 names: the nearest to the next block to release.
Log 23 (DEDUCED). -/
def HLink.blockOf (l : HLink) (m : Nat) : Option Nat :=
  let d := (m + 4096 - l.nextBlock % 4096) % 4096
  if d < 2048 then some (l.nextBlock + d)
  else if 4096 - d ≤ l.nextBlock then some (l.nextBlock + d - 4096) else none

/-- The block expected next on a logical lane (R55): the one after the last that came good or erased on it. Where a frame failed
and was dropped, the block it carried stays the expected one until a later block arrives.
Log 51 (DESIGN CHOICE). -/
def HLink.expected (l : HLink) (i : Nat) : Nat :=
  let least := if l.nextBlock % 2 = i then l.nextBlock else l.nextBlock + 1
  (l.got.filter (fun x => x.n % 2 == i)).foldl (fun a x => max a (x.n + 2)) least

/-- The oldest block of the link leaves it: as received, or erased. -/
def HLink.pop (l : HLink) : SBlock × HLink :=
  let n := l.nextBlock
  let blk := (l.got.find? (fun x => x.n == n)).getD ⟨n, erasedData, true⟩
  (blk, { l with nextBlock := n + 1, got := l.got.filter (fun x => x.n != n) })

/-- A block numbered n + 8 or higher has been received, n being the next to release. -/
def HLink.due (l : HLink) : Bool := l.got.any (fun x => l.nextBlock + 8 ≤ x.n)

/-- How many blocks the newest one received lies ahead of the next to release. -/
def HLink.ahead (l : HLink) : Nat := l.got.foldl (fun a x => max a (x.n + 1 - l.nextBlock)) 0

/-- A block received (R54): kept; discarded and counted once released; discarded if held already. -/
def State.takeBlock (s : State) (b : BayId) (p : Pu) (blk : SBlock) : State :=
  let l := s.link b p
  if blk.n < l.nextBlock then (s.updLink b p (fun l => { l with late := l.late + 1 })).raisePu b p 6 .hlinkLateBlock
  else if l.got.any (fun x => x.n == blk.n) then s
  else s.updLink b p (fun l => { l with got := l.got ++ [blk] })

/-- A descrambled `SAMPLE` frame, good or failed (R44, R55).
Log 23 (DEDUCED). -/
def State.takeSample (s : State) (b : BayId) (p : Pu) (ph : PhysLane) (f : Bytes) : State :=
  let l := s.link b p
  let data := slice f 4 504
  if frGood f then
    (match l.blockOf (frTsh f) with
     | some n => s.takeBlock b p ⟨n, data, false⟩
     | none => (s.updLink b p (fun l => { l with late := l.late + 1 })).raisePu b p 6 .hlinkLateBlock)
  else
    match l.logical ph with
    | some i =>
      let n := l.expected i
      if frType f == 1 && frTsh f == n % 4096 then s.takeBlock b p ⟨n, data, true⟩ else s
    | none => s

/-! ### Downstream (R46 to R51) -/

/-- A downstream frame with the next `SEQ`, in the next slot of `DN`. -/
def State.sendHead (s : State) (b : BayId) (p : Pu) (type tsh : Nat) (payload : Bytes) : State :=
  let q := (s.link b p).dnSeq
  (s.updLink b p (fun l => { l with dnSeq := (q + 1) % 65536, dnUsed := l.dnUsed + 1 })).sendDn b p (mkFrame type q tsh payload)

/-- The payload of a `CTRL` frame (R50). -/
def ctrlPayload (addr len : Nat) (data : Bytes) : Bytes := beBytes 4 addr ++ beBytes 2 len ++ zeros 2 ++ data

/-- A `CTRL` frame goes in the next slot, or behind the `WRITE` frames that wait (R49). -/
def State.sendCtrl (s : State) (b : BayId) (p : Pu) (tsh : Nat) (payload : Bytes) : State :=
  if (s.link b p).wq.isEmpty then s.sendHead b p 3 tsh payload
  else s.updLink b p (fun l => { l with cq := l.cq ++ [(tsh, payload)] })

/-- A `WRITE` frame with the next `WSEQ` (R48); it waits at the head module until its bits fall due. -/
def State.sendWrite (s : State) (b : BayId) (p : Pu) (w : Nat × Bytes) : State :=
  let q := (s.link b p).wseq
  (s.updLink b p (fun l => { l with wseq := (q + 1) % 4096, hmq := l.hmq ++ [w.1] })).sendHead b p 2 q w.2

/-- The link time now (Table 02-4): that of the last `SERVO` frame's tick, one tick and the time since it later, in samples. -/
def HLink.linkTime (l : HLink) (us : Nat) : Nat := l.servo.tq + 1067 + 512 * (us - l.servoAt)

/-- The payload of a downstream `TRAIN` frame (R456): training word, `GO`, version, the lane number. `DN` is given number 3.
Log 51 (DESIGN CHOICE). -/
def trainPayload (go : Bool) : Bytes := beBytes 8 0x4A484C54524E3031 ++ [if go then 0x80#8 else 0#8, 1#8, 0#8, 3#8]

/-- What fills one slot of `DN` (R39, R49): `TRAIN` frames while the link trains; then a `WRITE` frame while the head module holds
fewer than 32, a `CTRL` frame, or `IDLE`. -/
def State.dnSlot (s : State) (b : BayId) (p : Pu) : State :=
  let l := s.link b p
  if l.st == .dsTrain || l.st == .upTrain || l.st == .identify then s.sendHead b p 15 0 (trainPayload false)
  else
    let now := l.linkTime s.us
    let l' := { l with hmq := l.hmq.filter (fun t => now < t) }
    let s := s.updLink b p (fun _ => l')
    match l'.wq with
    | w :: ws =>
      if l'.hmq.length < 32 then (s.updLink b p (fun l => { l with wq := ws })).sendWrite b p w else s.sendHead b p 0 0 []
    | [] =>
      match l'.cq with
      | c :: cs => (s.updLink b p (fun l => { l with cq := cs })).sendHead b p 3 c.1 c.2
      | [] => s.sendHead b p 0 0 []

/-- The slots of a link in one microsecond, of 15 in each 4 µs, less the frames already sent (R49). -/
def State.dnSlots (s : State) (b : BayId) (p : Pu) : State :=
  let l := s.link b p
  if s.portUp b p && l.st != .down && l.st != .failed then
    let n := 15 * (s.us + 1) / 4 - 15 * s.us / 4
    let s := (List.range (n - l.dnUsed)).foldl (fun s _ => s.dnSlot b p) s
    s.updLink b p (fun x => { x with dnUsed := l.dnUsed - n })
  else s

/-- One microsecond of every head link's `DN` (R39). -/
def State.dnTick (s : State) : State :=
  (List.range s.bayCount).foldl (fun s i => if h : i < 32 then (s.dnSlots ⟨i, h⟩ .A).dnSlots ⟨i, h⟩ .B else s) s

/-- The lowest tag from a number on that is not outstanding.
Log 12 (DESIGN CHOICE). -/
def freeTag (used : List Nat) : Nat → Nat → Nat
  | 0, n => n % 256
  | k + 1, n => if used.contains (n % 256) then freeTag used k (n + 1) else n % 256

/-- Waiting `CTRL` operations take free places, at most 4 tags outstanding (R51). -/
def State.ctrlPump (s : State) (b : BayId) (p : Pu) : Nat → State
  | 0 => s
  | k + 1 =>
    let l := s.link b p
    match l.ctrlQ with
    | w :: rest =>
      if l.ctrl.length < 4 then
        let t := freeTag (l.ctrl.map (fun c => c.ctag)) 4 l.nextTag
        let s := s.updLink b p (fun l => { l with
          ctrlQ := rest, nextTag := (t + 1) % 256
          ctrl := l.ctrl ++ [⟨t, w.op, w.addr, w.data, w.len, 1, s.us, false⟩] })
        (s.sendCtrl b p (w.op * 256 + t) (ctrlPayload w.addr w.len w.data)).ctrlPump b p k
      else s
    | [] => s

/-- A `CTRL` operation issued on a link with normal traffic. -/
def State.ctrlIssue (s : State) (b : BayId) (p : Pu) (op addr : Nat) (data : Bytes) : State :=
  (s.updLink b p (fun l => { l with ctrlQ := l.ctrlQ ++ [⟨op, addr, data, data.length⟩] })).ctrlPump b p 4

/-- A `REG_READ` of `len` bytes issued (R50). -/
def State.ctrlRead (s : State) (b : BayId) (p : Pu) (addr len : Nat) : State :=
  (s.updLink b p (fun l => { l with ctrlQ := l.ctrlQ ++ [⟨2, addr, [], len⟩] })).ctrlPump b p 4

/-- A `REG_WRITE` of a byte string in pieces of at most 496 bytes. -/
def State.regWrite (s : State) (b : BayId) (p : Pu) (addr : Nat) (data : Bytes) : Nat → State
  | 0 => s
  | n + 1 =>
    if data.isEmpty then s
    else (s.ctrlIssue b p 1 addr (data.take 496)).regWrite b p (addr + 496) (data.drop 496) n

/-- A `REG_READ` of `len` bytes in pieces of at most 496 bytes. -/
def State.regRead (s : State) (b : BayId) (p : Pu) (addr len : Nat) : Nat → State
  | 0 => s
  | n + 1 => if len = 0 then s else (s.ctrlRead b p addr (min len 496)).regRead b p (addr + 496) (len - 496) n

/-- Data of `LANE_MAP` and `LANE_TRAIN`: two bytes in a length that is a multiple of 4 (R50). -/
def twoBytes (a c : Nat) : Bytes := [BitVec.ofNat 8 a, BitVec.ofNat 8 c, 0#8, 0#8]

/-- A `LANE_MAP` sent; its effect shows at its reply or the first frame of a lane it names.
Log 22 (DEDUCED). -/
def State.laneMap (s : State) (b : BayId) (p : Pu) (m0 m1 : PhysLane) : State :=
  (s.updLink b p (fun l => { l with mapNext := some (m0, m1) })).ctrlIssue b p 3 0 (twoBytes m0.code m1.code)

/-- A `LANE_TRAIN` sent for a lane. -/
def State.laneTrain (s : State) (b : BayId) (p : Pu) (ph : PhysLane) : State :=
  let s := s.updLink b p (fun l =>
    { (l.updLane ph (fun x => { x with good := 0, errs := [], crcRun := 0, retrained := false })) with
      training := ph :: l.training.filter (fun x => x != ph) })
  s.ctrlIssue b p 4 0 (twoBytes ph.code 1)

/-- The training of a lane ends: the controller stops it (R50). -/
def State.laneTrainStop (s : State) (b : BayId) (p : Pu) (ph : PhysLane) : State :=
  (s.updLink b p (fun l => { l with training := l.training.filter (fun x => x != ph) })).ctrlIssue b p 4 0 (twoBytes ph.code 0)

/-- The `LANE_MAP` outstanding takes effect: the logical lanes change, and the link is `ACTIVE` (R57, R58).
Log 22 (DEDUCED). -/
def HLink.applyMap (l : HLink) (now : Nat) : HLink :=
  match l.mapNext with
  | some (a, c) =>
    let back := l.st == .laneRetrain
    { l with
      map0 := a, map1 := c, mapNext := none, oneLane := a == c, failing := none
      st := if back then .active else l.st, since := if back then now else l.since }
  | none => l

/-- A lane named by the outstanding map that does not carry a logical lane yet. -/
def HLink.mapsNew (l : HLink) (ph : PhysLane) : Bool :=
  match l.mapNext with
  | some (a, c) => a != c && (a == ph || c == ph) && (l.logical ph).isNone
  | none => false

/-- The identity shows a spare transmitter (`SPARE`, Table 02-9); unknown before the identity has been read. -/
def HLink.spareFitted (l : HLink) : Bool :=
  match l.ident with
  | some d => byteAt d 34 % 2 == 1
  | none => true

/-- A pickup's `UPS` can be used: fitted and not retired. -/
def State.upsUsable (s : State) (b : BayId) (p : Pu) : Bool :=
  (s.link b p).spareFitted && !(s.link b p).ups.retired

/-- The pickup that the spare receiver stands by for (R62, R331). -/
def State.spareTarget (s : State) (b : BayId) : Option Pu :=
  let v := s.bndN (.spare b) .hlinkSpareStandby
  let want : Option Pu := if v = 0 then some .A else if v = 1 then some .B else none
  match want with
  | some p => if s.upsUsable b p then some p else if s.upsUsable b p.other then some p.other else none
  | none => none

/-- The spare receiver's state changed. -/
def State.setSpare (s : State) (b : BayId) (v : SpareRx) : State := s.updBay b (fun y => { y with spare := v })

/-- The spare receiver is trained to a pickup's `UPS` (R57). -/
def State.trainSpare (s : State) (b : BayId) (p : Pu) : State := (s.setSpare b (.training p)).laneTrain b p .UPS

/-- The spare receiver, idle or standing by, takes up the pickup it is to stand by for, once that link carries traffic;
the section's boundary for it (R331). -/
def State.spareStandby (s : State) (b : BayId) : State :=
  let free := match (s.bay b).spare with
    | .idle => true
    | .standby _ => true
    | _ => false
  if free then
    let s := s.boundary (.spare b) 1
    match s.spareTarget b with
    | none => s.setSpare b .idle
    | some p =>
      if (s.bay b).spare == .standby p then s
      else if (s.link b p).live then s.trainSpare b p
      else s.setSpare b .idle
  else s

/-- A lane is retired (R57); while an injection acts on it, or did within a second, provisionally (R421). -/
def State.retireLane (s : State) (b : BayId) (p : Pu) (ph : PhysLane) : State :=
  let pv := s.provisional (fun t => t == laneTarget b p ph.code)
  (s.updLink b p (fun l => { (l.updLane ph (fun x => { x with retired := true, retrained := false, prov := pv })) with
    training := l.training.filter (fun x => x != ph) })).raisePu b p 6 .hlinkLaneRetired

/-- Failures of a lane within `hlink.lane.retire_window_s`, this one added. -/
def State.noteLaneFail (s : State) (b : BayId) (p : Pu) (ph : PhysLane) : Bool × State :=
  let win := s.bndN (.link b p) .hlinkLaneRetireWindowS * 1000000
  let fs := s.us :: ((s.link b p).lane ph).fails.filter (fun t => s.us < t + win)
  let s := s.updLink b p (fun l => l.updLane ph (fun x => { x with fails := fs, errs := [], crcRun := 0 }))
  (decide (s.bndN (.link b p) .hlinkLaneRetireCount ≤ fs.length), s)

/-- A lane can carry traffic: it has not failed, or has been retrained since, and is not retired. -/
def HLink.sound (l : HLink) (ph : PhysLane) : Bool :=
  let x := l.lane ph
  (!x.failed || x.retrained) && !x.retired

/-- The map of two lanes that carries both logical lanes (R57, R58): `UP0` and `UP1` where they are sound, `UPS` in the place of
one that is not, if the spare carries this pickup and is sound. -/
def HLink.bestMap (l : HLink) (spare : Bool) : Option (PhysLane × PhysLane) :=
  let ups := spare && l.sound .UPS
  if l.sound .UP0 && l.sound .UP1 then some (.UP0, .UP1)
  else if l.sound .UP0 && ups then some (.UP0, .UPS)
  else if l.sound .UP1 && ups then some (.UPS, .UP1)
  else none

/-- The lane that carries traffic while another has failed. -/
def HLink.survivor (l : HLink) (bad : PhysLane) : PhysLane := if l.map0 == bad then l.map1 else l.map0

/-- Traffic stops on a link, and it begins a training attempt in `DS_TRAIN` (Table 02-8): the section's boundary, every
lane untrained, outstanding operations dropped, a spare that carried a lane standing by (R456). -/
def State.linkTrain (s : State) (b : BayId) (p : Pu) : State :=
  let s := s.boundary (.link b p) 1
  let fresh := fun (x : Lane) => { x with good := 0, seq := none, errs := [], crcRun := 0, failed := false, retrained := false }
  let s := s.updLink b p (fun l => { l with
    st := .dsTrain, since := s.us, up0 := fresh l.up0, up1 := fresh l.up1, ups := fresh l.ups, map0 := .UP0, map1 := .UP1
    mapNext := none, oneLane := false, failing := none, training := [], got := [], missTick := 0, seqStall := 0
    absent := 0, ctrl := [], ctrlQ := [], rowReq := none, laser := false, wpermit := false
    wq := [], hmq := [], cq := [], wplan := [], tickNext := none })
  let s := match (s.bay b).spare with
    | .carrying q => if q == p then s.setSpare b (.standby p) else s
    | .training q => if q == p then s.setSpare b .idle else s
    | _ => s
  let s := s.updPu b p (fun u => { u with write := { u.write with load := none } })
  (s.emit (.headLine b p 1)).sendHead b p 15 0 (trainPayload false)

end Sys2Proof.Machine
end

