-- ==== Sys2Proof/Machine/ServiceOps.lean ====
section
/-! DEFINITION. How sector reads end (R114, R119, R125) and how sector writes end (R127 to R139, R241): outcomes, relocation
and what becomes of both when a pickup leaves service. -/

namespace Sys2Proof.Machine

/-! ### Idle periods -/

/-- A read is to start within the next 8 µs: its sector lies under the pickup, and the wedge that opens it begins by then. -/
def State.startsSoon (s : State) (b : BayId) (p : Pu) (a : SecAddr) : Bool :=
  let u := s.pu b p
  let x := u.sheet
  let n : Int := (a.frame : Int) - x.lastConf.frame
  let opens := x.lastPos / 65536 + n * x.interval / 65536 - 256
  let now : Int := u.link.linkTime s.us
  a.layer == x.lastConf.layer && a.zone == x.lastConf.zone && decide (0 < n ∧ now ≤ opens + 512 ∧ opens ≤ now + 4096)

/-- An idle period of a pickup (R57): no sector in reading, verify or writing and none to start within 8 µs, or a state other than
`FOLLOW` and `ACQUIRE`, or a forced gap (R358). -/
def State.idlePeriod (s : State) (b : BayId) (p : Pu) : Bool :=
  let u := s.pu b p
  (u.cur.isNone && u.write.block.isNone && u.reads.all (fun r => !s.startsSoon b p r.sector))
    || (u.ms.st != .follow && u.ms.st != .acquire) || u.cal.gap.isSome

/-! ### Reads -/

/-- The number of an outcome, in the order of Table 05-6. -/
def SecOutcome.idx : SecOutcome → Nat
  | .clean => 0
  | .outer => 1
  | .ladder => 2
  | .reread => 3
  | .lost => 4
  | .mismatch => 5
  | .blank => 6

/-- One element of a list raised by an amount. -/
def addAt (l : List Nat) (i v : Nat) : List Nat := l.mapIdx (fun j x => if j = i then x + v else x)

/-- The record of R125 joins the pickup's newest 1,024, the counters of `HEALTH` count it, and its event is raised.
Log 29 (DEDUCED). -/
def State.noteSector (s : State) (b : BayId) (p : Pu) (r : SectorRec) : State :=
  let s := s.updPu b p (fun u => { u with
    recs := (r :: u.recs).take 1024
    cnt := { u.cnt with
      outcomes := addAt u.cnt.outcomes r.outcome.idx 1
      rungs := if r.rung = 0 then u.cnt.rungs else addAt u.cnt.rungs (r.rung - 1) 1
      misc := u.cnt.misc + r.misc, iters := (r.iters :: u.cnt.iters).take 1024
      trkFail := u.cnt.trkFail.mapIdx (fun i x => x + r.perTrk.getD i 0) }
    cal := if 2 < r.outcome.idx then { u.cal with read := u.cal.read + 1 }
           else { u.cal with read := u.cal.read + 1, trkFail := u.cal.trkFail.mapIdx (fun i l => (decide (0 < r.perTrk.getD i 0) :: l).take 1024) } })
  match r.outcome with
  | .reread => s.raisePu b p 10 .sectorReread
  | .lost => s.raisePu b p 10 .sectorLost
  | .mismatch => s.raisePu b p 10 .sectorMismatch
  | _ => s

/-- A sector of the write store. -/
def WPath.coded? (w : WPath) (a : SecAddr) : Option Coded := w.store.find? (fun c => c.sector == a && !c.failed)

/-- The state with a sector of the write store changed. -/
def State.updCoded (s : State) (b : BayId) (p : Pu) (a : SecAddr) (g : Coded → Coded) : State :=
  s.updPu b p (fun u => { u with write := { u.write with
    store := u.write.store.map (fun c => if c.sector == a && !c.failed then g c else c) } })

/-- What R114 asks of a sector of the disc's own: rows by their hamper, member and row; identity and power-calibration sectors
with hamper ID 0; checkpoints and pointers of the hamper that the disc is being mounted for, where there is one; labels and
relocation records by their kind. -/
def State.recordExpected (s : State) (b : BayId) (k no : Nat) (payload : Bytes) : Bool :=
  let own := fun (f : Hamper → Member → Bool) => (s.mountingOf b).all (fun e => f e.1 e.2)
  let kind := byteAt payload 6
  let of' := fun (x : Hamper) (m : Member) => leAt payload 8 8 == x.hid && byteAt payload 16 == m.idx
  if k = 0 then decide (kind ≤ 1) && own (fun x m => of' x m && leAt payload 20 4 == no)
  else kind == k && (if 5 < k then leAt payload 8 8 == 0 else k == 3 || k == 5 || own of')

/-- The checks of R114 on an outer-good sector: metadata, data check, and what its requester expects. A verify read is
held against the sector that was written (R140). -/
def State.releaseOk (s : State) (b : BayId) (p : Pu) (a : SecAddr) (why : Purpose) (payload : Bytes) : Bool :=
  metaGood payload && dataGood payload && (match why with
    | .hamper h seq pos => (match s.slot h with
      | some x => (match x.memberAt seq pos with
        | some i => (match x.rowOf seq i with
          | some r => x.expects seq i r payload
          | none => false)
        | none => false)
      | none => false)
    | .verify => (match (s.pu b p).write.coded? a with
      | some c => c.payload == payload
      | none => false)
    | .record k no => s.recordExpected b k no payload
    | .cal => true)

/-- The requester learns how its read ended (R115, R125): the outcome, with a payload that passed every check or none. -/
def State.deliverRead (s : State) (b : BayId) (p : Pu) (a : SecAddr) (why : Purpose) (o : SecOutcome) (payload : Option Bytes) :
    State :=
  match why with
  | .hamper h seq pos =>
    let req := readRequester b p a
    let bufs := s.bufsOf req
    (match payload with
     | some d => s.sectorLanded h seq pos d bufs
     | none => (s.sectorUnread h seq pos false bufs).dropRequester req)
  | .record k no => s.noteRecord b p k no o payload
  | .verify => s
  | .cal => s

/-- A read that was never carried out ends `LOST` (R125). -/
def State.endUnread (s : State) (b : BayId) (p : Pu) (a : SecAddr) (why : Purpose) : State :=
  if why == .verify then s
  else (s.noteSector b p ⟨a, why, .lost, 160, 0, 0, 0, List.replicate 16 10⟩).deliverRead b p a why .lost none

/-- A soft-store slot changed. -/
def State.updSoft (s : State) (b : BayId) (p : Pu) (a : SecAddr) (g : SoftSlot → SoftSlot) : State :=
  s.updPu b p (fun u => { u with slots := u.slots.map (fun q => if q.sector == a then g q else q) })

/-- A slot's sector ends with an outcome: the slot is released, the outcome counted and delivered (R110, R125). -/
def State.endSlot (s : State) (b : BayId) (p : Pu) (q : SoftSlot) (o : SecOutcome) (rung : Nat) (payload : Option Bytes) :
    State :=
  let s := s.updPu b p (fun u => { u with slots := u.slots.filter (fun r => r.sector != q.sector) })
  let s := s.noteSector b p ⟨q.sector, q.why, o, q.first, rung, q.misc, q.iters, q.perTrk⟩
  s.deliverRead b p q.sector q.why o payload

/-- Every read of the pickup that is not carried out yet ends `LOST` (R125). -/
def State.readsLost (s : State) (b : BayId) (p : Pu) : State :=
  let u := s.pu b p
  let open' := u.slots.filter (fun q => (q.reading || q.rung = 6) && q.why != .verify)
  let reqs := (u.cur.toList ++ u.reads).filter (fun r => !u.slots.any (fun q => q.sector == r.sector))
  let s := s.updPu b p (fun u => { u with cur := none, reads := [] })
  let s := reqs.foldl (fun s r => s.endUnread b p r.sector r.why) s
  open'.foldl (fun s q => s.endSlot b p { q with first := if 0 < q.rereads then q.first else 160 } .lost 0 none) s

/-! ### Writes -/

/-- A placed or record sector's outcome reaches its hamper; outcomes reached while its engine or the cores are away wait for them
(R248, R250). -/
def State.reportWrite (s : State) (why : WriteWhy) (written : Bool) : State :=
  match why with
  | .placed h seq m =>
    if s.engineUp h then s.sectorOutcome h seq m written
    else { s with ham := { s.ham with queued := s.ham.queued ++ [(h, seq, m, written)] } }
  | .record h k no =>
    if s.engineUp h then s.recordOutcome h k no written
    else { s with ham := { s.ham with queuedRecs := s.ham.queuedRecs ++ [(h, k, no, written)] } }
  | .relocRecord _ => s
  | .powerCal => s

/-- A payload for a spare: `RELOC` set, the home address in bytes 60 to 63, the metadata sealed again (R139). -/
def relocPayload (p : Pu) (home : SecAddr) (payload : Bytes) : Bytes :=
  let m := putAt (putAt (payload.take 508) 7 [1#8]) 60
    (leBytes 4 (home.sector % 2 ^ 20 + 2 ^ 20 * (home.layer % 16) + 2 ^ 24 * p.idx))
  sealRecord 512 m ++ payload.drop 512

/-- The first sector of a band's 256 record sectors (R241; section Management bands of 11_hampers.md). -/
def recordBase (band : Nat) : Nat := if band = 0 then 0 else 580864

/-- The next unused record sector of a layer, in the nearer band of a zone, else in the other (R241). -/
def WPath.recordSector (w : WPath) (layer zone : Nat) : Option (SecAddr × WPath) :=
  let near := if zone < 32 then 0 else 1
  let used := fun band => ((w.recNext.find? (fun e => e.1 == layer && e.2.1 == band)).map (fun e => e.2.2)).getD 0
  ([near, 1 - near].find? (fun band => decide (used band < 256))).map (fun band =>
    (⟨layer, .data, recordBase band + used band⟩,
     { w with recNext := (layer, band, used band + 1) :: w.recNext.filter (fun e => !(e.1 == layer && e.2.1 == band)) }))

/-- The body of a relocation record (R241): homes with their spares, or marked unusable. -/
def relocBody (seq : Nat) (es : List (SecAddr × Option SecAddr)) : Bytes :=
  padTo 32 (ascii "YRL1" ++ zeros 4 ++ leBytes 8 seq ++ leBytes 4 es.length) ++ es.flatMap (fun e =>
    leBytes 8 (match e.2 with
      | some sp => e.1.sector + 2 ^ 20 * sp.sector
      | none => e.1.sector + 2 ^ 40))

/-- The payload of a relocation record (kind 5, Table 05-3) of the member whose disc the bay holds; its sequence stands in
the row field as for the other records. -/
def State.relocPayloadRec (s : State) (b : BayId) (p : Pu) (seq : Nat) (body : Bytes) : Bytes :=
  let own := allSlots.findSome? (fun h => (s.slot h).bind (fun x =>
    (x.members.find? (fun m => m.bay == some b)).map (fun m => (x, m.idx))))
  match own with
  | some (x, i) => s.recordPayload x p i 5 seq 0 [] body
  | none => payloadOf { kind := 5, reloc := none, hid := 0, member := 0, k := 0, m := 0, writer := p, row := seq, seq := 0
                        first := 0, mask := 0, retired := 0, time := s.time, commit := [] } body

/-- A relocation record for settled homes of one layer goes to the next record sector (R139, R241). With no record sector
left, `EV_WRITE_RELOC_FULL` is raised and the relocations are recorded as unusable. -/
def State.writeRelocRecord (s : State) (b : BayId) (p : Pu) (layer : Nat) (homes : List SecAddr) : State :=
  let w := (s.pu b p).write
  match homes with
  | [] => s
  | h0 :: _ =>
    match w.recordSector layer (zoneOfSector h0.sector) with
    | some (a, w') =>
      let es := homes.map (fun h => (h, (w.relocs.find? (fun r => r.home == h)).bind (fun r => r.spare)))
      let seq := w'.recNext.foldl (fun acc e => acc + e.2.2) 0
      let payload := s.relocPayloadRec b p seq (relocBody seq es)
      (s.updPu b p (fun u => { u with write := w' })).handOver b p (Coded.fresh a (.relocRecord homes) payload)
    | none =>
      let s := s.raisePu b p 12 .writeRelocFull
      let gone := w.relocs.filter (fun r => homes.contains r.home)
      let s := s.updPu b p (fun u => { u with write := { u.write with
        relocs := u.write.relocs.map (fun r => if homes.contains r.home then { r with spare := none, record := false } else r) } })
      gone.foldl (fun s r => match r.why with
        | .placed h seq m => s.sectorLost h seq m
        | _ => s) s

/-- A failed sector is relocated (R27, R139): the lowest unused spare of its home's zone, else of the nearest zone with one;
it is encoded again for that spare. Without one it is unusable.
Log 27 (DEDUCED). -/
def State.relocate (s : State) (b : BayId) (p : Pu) (c : Coded) : State :=
  let w := (s.pu b p).write
  let home := c.home.getD c.sector
  let all := (zonesFrom (zoneOfSector home.sector)).flatMap sparesOfZone
  let queued := ((w.relocs.find? (fun r => r.home == home)).map (fun r => r.queued)).getD s.us
  let rest := w.relocs.filter (fun r => r.home != home)
  let taken := fun (a : SecAddr) => w.spareNext.contains a || rest.any (fun r => r.spare == some a)
  match (all.map (fun n => (⟨home.layer, .data, n⟩ : SecAddr))).find? (fun a => !taken a) with
  | some sp =>
    let c' : Coded := { c with
      sector := sp, home := some home, payload := relocPayload p home c.payload, bits := [], coded := false
      touched := false, failed := false, sent := [], good := [], checked := none }
    (s.updPu b p (fun u => { u with write := { u.write with
      relocs := rest ++ [⟨home, some sp, queued, false, false, c.why⟩] } })).handOver b p c'
  | none =>
    let s := s.updPu b p (fun u => { u with write := { u.write with
      relocs := rest ++ [⟨home, none, queued, false, false, c.why⟩] } })
    let s := s.raisePu b p 12 .writeRelocFull
    let s := match c.why with
      | .placed h seq m => s.sectorLost h seq m
      | _ => s
    s.writeRelocRecord b p home.layer [home]

/-- A touched sector fails (R137, R139): its outcome is reported and it is relocated. A relocation record is written again
in the next record sector; other records count as failed. -/
def State.failCoded (s : State) (b : BayId) (p : Pu) (a : SecAddr) : State :=
  match (s.pu b p).write.coded? a with
  | none => s
  | some c =>
    let drop := fun (s : State) => s.updPu b p (fun u => { u with write := { u.write with
      store := u.write.store.filter (fun x => x.sector != a) } })
    let s := s.raisePu b p 12 .writeSectorFail
    match c.why with
    | .placed _ _ _ => ((s.updCoded b p a (fun c => { c with failed := true })).reportWrite c.why false).relocate b p c
    | .relocRecord homes => (drop s).writeRelocRecord b p a.layer homes
    | .record _ _ _ => (drop s).reportWrite c.why false
    | .powerCal => drop s

/-- A sector is written whole: into its home, its outcome counts; into a spare, once its relocation record is written
(R139). Its failed copies leave the write store with it (R127). -/
def State.doneCoded (s : State) (b : BayId) (p : Pu) (a : SecAddr) : State :=
  match (s.pu b p).write.coded? a with
  | none => s
  | some c =>
    let s := s.updPu b p (fun u => { u with write := { u.write with
      store := u.write.store.filter (fun x => x.sector != a && !(x.failed && c.home.isSome && (some x.sector == c.home || x.home == c.home))) } })
    match c.why, c.home with
    | .relocRecord homes, _ =>
      let done := (s.pu b p).write.relocs.filter (fun r => homes.contains r.home)
      let s := s.updPu b p (fun u => { u with write := { u.write with
        relocs := u.write.relocs.map (fun r => if homes.contains r.home then { r with record := true } else r) } })
      done.foldl (fun s r => if r.spare.isSome then s.reportWrite r.why true else s) s
    | _, some home =>
      let s := s.updPu b p (fun u => { u with write := { u.write with
        relocs := u.write.relocs.map (fun r => if r.home == home then { r with wrote := true } else r) } })
      s.writeRelocRecord b p home.layer [home]
    | _, none => s.reportWrite c.why true

/-- The sectors of a pass block. -/
def PassBlock.sectors (k : PassBlock) : List SecAddr := (List.range k.n).map (fun i => ⟨k.layer, k.zone, k.j / 5 + i⟩)

/-- Both segments of all five frames of a sector are in a list of (frame, pass). -/
def wholeIn (a : SecAddr) (l : List (Nat × Nat)) : Bool :=
  (List.range 5).all (fun i => l.contains (a.frame + i, 0) && l.contains (a.frame + i, 1))

/-- The pass block ends early (Table 06-5): every touched sector of it not yet written whole fails. With verify, so does every touched
sector whose verify read is not complete; a complete one keeps its verdict (R140). -/
def State.abandonBlock (s : State) (b : BayId) (p : Pu) : State :=
  match (s.pu b p).write.block with
  | none => s
  | some k =>
    let w := (s.pu b p).write
    let read := (s.pu b p).slots.filter (fun q => q.why == .verify && !q.reading)
    let bad := k.sectors.filterMap (fun a => (w.coded? a).bind (fun c =>
      if c.touched && !read.any (fun q => q.sector == a) && (k.verify || !wholeIn a c.good) then some c else none))
    let s := s.updPu b p (fun u => { u with
      write := { u.write with block := none, sent := [], emits := [], laneHold := none }, link := { u.link with wq := [] }
      slots := u.slots.filter (fun q => q.why != .verify || !q.reading)
      cur := u.cur.filter (fun r => r.why != .verify) })
    bad.foldl (fun s c => (if wholeIn c.sector c.good then s.raisePu b p 12 .writeVerifyFail else s).failCoded b p c.sector) s

/-- The sectors in progress of a pass: those of segments whose last bit has not been emitted, and the one begun and not ended. -/
def WPath.inProgress (w : WPath) (k : PassBlock) (now : Int) : List Nat :=
  (w.emits.filter (fun g => decide (now < g.last))).map (fun g => g.frame / 5) ++ (if k.next % 5 = 0 then [] else [k.next / 5])

/-- The sector in progress fails, the frames that wait for it are not sent, and the block goes on at the next sector; a verify pass
ends (R137, R140, Table 06-5).
Log 33 (DEDUCED). -/
def State.failCurrent (s : State) (b : BayId) (p : Pu) : State :=
  match (s.pu b p).write.block with
  | none => s
  | some k =>
    if k.step == .verify || k.step == .verifyJump then s.abandonBlock b p
    else
      let u := s.pu b p
      let bad := u.write.inProgress k (u.link.linkTime s.us)
      let next := bad.foldl (fun n a => max n (5 * (a + 1))) k.next
      let keep := fun (g : SentSeg) => !bad.contains (g.frame / 5)
      let s := s.updPu b p (fun u => { u with
        write := { u.write with block := some { k with next := next }, sent := u.write.sent.filter keep, emits := u.write.emits.filter keep }
        link := if bad.isEmpty then u.link else { u.link with wq := [] } })
      bad.foldl (fun s a => s.failCoded b p ⟨k.layer, k.zone, a⟩) s

/-- A lane fails while the pickup writes (R60): the segment in progress is finished, and the next one waits for the takeover. -/
def State.holdWriting (s : State) (b : BayId) (p : Pu) : State :=
  let u := s.pu b p
  match u.write.block with
  | some k =>
    if k.step == .even || k.step == .odd then
      let now : Int := u.link.linkTime s.us
      let e := (u.write.emits.filter (fun g => decide (g.first ≤ now))).foldl (fun a g => max a g.last) now
      s.updPu b p (fun u => { u with write := { u.write with laneHold := some e } })
    else s
  | none => s

/-- An unplanned core reset fails every sector in progress (Table 06-5). -/
def State.coresLost (s : State) : State :=
  let fail := fun (s : State) (b : BayId) (p : Pu) =>
    match (s.pu b p).write.block with
    | some k => if k.step == .even || k.step == .odd then s.failCurrent b p else s
    | none => s
  allBays.foldl (fun s b => fail (fail s b .A) b .B) s

/-! ### Strategy banks (R134) -/

/-- A strategy set is written to its bank, and the whole bank is read back. -/
def State.loadBank (s : State) (b : BayId) (p : Pu) (x : BankLoad) : State :=
  let base := if x.bank then 0x20000 else 0x10000
  let s := s.updPu b p (fun u => { u with write := { u.write with load := some { x with got := [], select := false } } })
  (s.regWrite b p base x.set 133).regRead b p base 65536 133

/-- A load has failed: it is done again, or after three failures the pickup stops writing. -/
def State.bankFails (s : State) (b : BayId) (p : Pu) (x : BankLoad) : State :=
  let n := (s.pu b p).write.bankFails + 1
  let s := s.updPu b p (fun u => { u with write := { u.write with bankFails := n } })
  if n < 3 then s.loadBank b p x
  else (s.updPu b p (fun u => { u with write := { u.write with bankStop := true, load := none } })).raisePu b p 12 .writeStrategyLoad

/-- The bank read back, of 133 pieces. -/
def BankLoad.back (x : BankLoad) : Bytes :=
  (List.range 133).flatMap (fun i => ((x.got.find? (fun e => e.1 == 496 * i)).map (fun e => e.2)).getD [])

/-- A reply of the load in progress: the pieces are collected and compared, then the bank is selected, and in force once that write is
answered. -/
def State.bankReply (s : State) (b : BayId) (p : Pu) (c : CtrlOp) (f : Bytes) : State :=
  match (s.pu b p).write.load with
  | none => s
  | some x =>
    let base := if x.bank then 0x20000 else 0x10000
    let ok := byteAt f 5 == 0
    if x.select then
      if c.op ≠ 1 ∨ c.addr ≠ 0x30000 then s
      else if !ok then s.bankFails b p x
      else s.updPu b p (fun u => { u with write := { u.write with
        load := none, bankSel := x.bank, bankLayer := some x.layer, bankFails := 0, strategies := [⟨x.layer, x.set⟩] } })
    else if c.op = 2 ∧ base ≤ c.addr ∧ c.addr < base + 65536 then
      let x := { x with got := (c.addr - base, if ok then slice f 8 (min c.len (beAt f 6 2)) else []) :: x.got }
      if x.got.length < 133 then s.updPu b p (fun u => { u with write := { u.write with load := some x } })
      else if x.back == x.set then
        (s.updPu b p (fun u => { u with write := { u.write with load := some { x with select := true } } })).ctrlIssue b p 1 0x30000
          (beBytes 4 x.bank.toNat)
      else s.bankFails b p x
    else s

/-- A pickup leaves read and write service: its reads end `LOST`, its pass block is abandoned. -/
def State.leaveService (s : State) (b : BayId) (p : Pu) : State := (s.readsLost b p).abandonBlock b p

end Sys2Proof.Machine
end

