-- ==== Sys2Proof/Machine/Trig.lean ====
section
/-! DEFINITION. Sine and cosine in fixed point, for the transforms of R191 and R200 and the tune design of R174. Reals stand as whole
numbers of 2^−80; a result that is brought to its own format keeps only its last place open, since no rule states its rounding. -/

namespace Sys2Proof.Machine

/-- One. -/
def trigOne : Int := 2 ^ 80

/-- π. -/
def trigPi : Int := 3797952473636338580787993

/-- The next `n` terms of the power series of sine or cosine: each is the last times −a² over the next two factors of the factorial. -/
def trigTerms (a2 : Int) : Nat → Nat → Int → Int
  | 0, _, _ => 0
  | n + 1, k, t => t + trigTerms a2 n (k + 2) (-(t * a2) / trigOne / ((k + 1) * (k + 2) : Nat))

/-- Sine of an angle of the first quadrant, in radians. -/
def trigSin (a : Int) : Int := trigTerms (a * a / trigOne) 24 1 a

/-- Cosine of an angle of the first quadrant, in radians. -/
def trigCos (a : Int) : Int := trigTerms (a * a / trigOne) 24 0 trigOne

/-- A quotient brought to whole units: exact where it is whole; else one of its two neighbours. -/
def roundOpen (n d : Int) : Int := if n % d = 0 then n / d else if Config.roundUp n d then n / d + 1 else n / d

/-- Sine of an angle in 2^−32 turn. -/
def sinReal (th : Int) : Int :=
  let t := th % 2 ^ 32
  let a := 2 * trigPi * (t % 2 ^ 30) / 2 ^ 32
  let v := if t / 2 ^ 30 % 2 = 0 then trigSin a else trigCos a
  if t < 2 ^ 31 then v else -v

/-- Sine of an angle in 2^−32 turn, in 1/32,767. -/
def sinTurn (th : Int) : Int := roundOpen (sinReal th * 32767) trigOne

end Sys2Proof.Machine
end

