-- ==== Sys2Proof/Machine/LoopOps.lean ====
section
/-! DEFINITION. The loop law, the supervisor and bank changes (R165 to R171), shared by the pickup loops and the spindle. -/

namespace Sys2Proof.Machine

/-! ### Arithmetic (R165) -/

/-- A quotient rounded to nearest; R165 says nothing about ties. -/
def rnd (n : Int) (d : Nat) : Int :=
  let q := n / d
  let r := n - q * d
  if 2 * r < d then q else if (d : Int) < 2 * r then q + 1 else if Config.tieRound n d % 2 = 0 then q else q + 1

/-- The product of a coefficient with 24 fraction bits. -/
def mulC (c x : Int) : Int := rnd (c * x) (2 ^ 24)

/-- A value held between two limits. -/
def clampI (lo hi x : Int) : Int := max lo (min hi x)

/-- An intermediate lies outside 48 bits (Table 08-4). -/
def over48 (x : Int) : Bool := x < -(2 ^ 47) || 2 ^ 47 ≤ x

/-- The gain of the table at a smoothed magnitude in 1/65,536 (R166), with 24 fraction bits. -/
def gainAt (k : Bank) (a : Int) : Int :=
  let em : Nat := k.emax * 65536
  if (em : Int) ≤ a then (k.gains.getD 16 0 : Nat) * 4096
  else
    let j := (a * 16 / em).toNat
    let g0 : Int := (k.gains.getD j 0 : Nat)
    let g1 : Int := (k.gains.getD (j + 1) 0 : Nat)
    g0 * 4096 + rnd ((g1 - g0) * 4096 * (a * 16 - j * em)) em

/-- One sample of the law (R165); with `preset`, the sample on which the slot changes bank (R169). Quantities are in
1/65,536; the second result says that an intermediate left its 48 bits. -/
def Law.step (k : Bank) (l : Law) (e : Int) (preset : Bool) : Law × Bool :=
  let e := e * 65536
  let a := l.a + ((e.natAbs : Int) - l.a) / 2 ^ k.gshift
  let g := gainAt k a
  let vs := [mulC k.b0 e, mulC k.b1 l.e1, mulC k.a1 l.v]
  let v0 := vs.getD 0 0 + vs.getD 1 0
  let v := v0 - vs.getD 2 0
  let ws := [mulC k.c0 v, mulC k.c1 l.v, mulC k.d1 l.w]
  let w0 := ws.getD 0 0 + ws.getD 1 0
  let w := w0 - ws.getD 2 0
  let gk := mulC g k.K
  let p := mulC gk w
  let gki := mulC gk k.ki
  let di := mulC gki e
  let lim : Int := k.ilim * 65536
  let i :=
    if preset then clampI (-lim) lim (l.y - p)
    else if k.ien && !(l.limited && di.sign == l.pushsign) then clampI (-lim) lim (l.i + di)
    else l.i
  let u := p + i
  let um : Int := k.umax * 65536
  let sl : Int := k.slew * 65536
  let y := clampI (l.y - sl) (l.y + sl) (clampI (-um) um u)
  let mids := vs ++ ws ++ [a, g, v0, v, w0, w, gk, p, gki, di, l.i + di, l.y - p, u, l.y - sl, l.y + sl, u - y]
  ({ e1 := e, a := a, v := v, w := w, i := i, y := y, limited := y != u, pushsign := (u - y).sign },
   mids.any over48)

/-! ### The supervisor (R170, Table 08-4) -/

/-- The model of the actuator, one sample on. -/
def Sup.model (q : Sup) (k : Bank) (y1 : Int) : Int :=
  mulC k.p1 q.m1 + mulC k.p2 q.m2 + mulC k.q1 y1 + mulC k.q2 q.y2

/-- The supervisor after a sample: its state, and the check that fails (0 residual, 1 saturation, 2 stuck input,
3 overflow). `old` and `new` are the law before and after the sample.
Log 25 (DEDUCED). -/
def Sup.check (q : Sup) (k : Bank) (old new : Law) (ovf active : Bool) (settle : Nat) : Sup × Option Nat :=
  let m := q.model k old.y
  let r := (new.e1 - old.e1) + (m - q.m1)
  let resid := (r.natAbs :: q.resid).take 64
  let sat := if new.y.natAbs = k.umax * 65536 then q.sat + 1 else 0
  let stuck := if new.e1 = old.e1 ∧ 16 * 65536 ≤ (new.y - old.y).natAbs then q.stuck + 1 else 0
  let q' : Sup := ⟨m, q.m1, old.y, resid, sat, stuck, q.closed + 1⟩
  let mean := resid.foldl (fun a x => a + x) 0 / 64
  if !active ∨ q.closed < settle then (q', none)
  else if resid.length = 64 ∧ k.rmax * 65536 < mean then (q', some 0)
  else if k.satmax < sat then (q', some 1)
  else if 256 ≤ stuck then (q', some 2)
  else if ovf then (q', some 3)
  else (q', none)

/-! ### Loops -/

/-- The bank a loop runs: following once locked, acquisition before (R143). -/
def Loop.bank (x : Loop) : Option Bank := if x.useFollow then x.follow else x.acq

/-- Tick `t` has come, modulo 65,536. -/
def tickReached (now t : Nat) : Bool := (now + 65536 - t % 65536) % 65536 < 32768

/-- An armed swap is made now: its tick has come, and a following bank may be changed (`ok`), as may the one bank of a loop that never
locks (R168, R169). -/
def Armed.due (a : Armed) (tick : Nat) (ok tilt : Bool) : Bool := tickReached tick a.tick && (ok || (a.kind == .acq && !tilt))

/-- Armed swaps that are due are made (R168, R169): the shadow becomes the live bank; a following bank replaced becomes the revert
bank. The others stay armed. -/
def Loop.swapDue (x : Loop) (tick : Nat) (ok tilt : Bool) : Loop :=
  let due := x.armed.filter (fun a => a.due tick ok tilt)
  due.foldl (fun (x : Loop) a => match a.kind with
    | .acq => { x with acq := x.shAcq.or x.acq, fresh := x.fresh || !x.useFollow }
    | .follow => { x with
        revert := x.follow, follow := x.shFollow.or x.follow, fresh := x.fresh || x.useFollow, swapAge := some 0
        swapSrc := a.src })
    { x with armed := x.armed.filter (fun a => !a.due tick ok tilt) }

/-- One computed sample of a closed loop with its calibrated error: the loop, and the supervisor's failing check. -/
def Loop.sample (x : Loop) (e : Int) (active : Bool) (settle : Nat) : Loop × Option Nat :=
  match x.bank with
  | none => (x, none)
  | some k =>
    if x.closed then
      let (l, ovf) := x.law.step k e x.fresh
      let (q, f) := x.sup.check k x.law l ovf active settle
      ({ x with law := l, sup := q, fresh := false, swapAge := x.swapAge.map (fun n => n + 1), outs := (l.y :: x.outs).take 64 }, f)
    else (x, none)

/-- A loop closes with its acquisition bank, its output where the drive stands (R169).
Log 25 (DEDUCED). -/
def Loop.close (x : Loop) (drive : Int) : Loop :=
  { x with
    closed := true, locked := false, within := 0, beyond := 0, lowSum := 0, useFollow := false, fresh := true
    law := { Law.zero with y := drive * 65536 }, sup := .zero }

/-- A loop opens. -/
def Loop.open' (x : Loop) : Loop := { x with closed := false, locked := false, within := 0, beyond := 0, lowSum := 0, useFollow := false }

/-- A loop locks and changes to its following bank (R143). -/
def Loop.lock (x : Loop) : Loop := { x with locked := true, beyond := 0, lowSum := 0, useFollow := true, fresh := true }

/-- A loop unlocks and changes back to its acquisition bank (R143, R169). -/
def Loop.unlock (x : Loop) : Loop :=
  if x.locked || x.useFollow then
    { x with locked := false, within := 0, beyond := 0, lowSum := 0, useFollow := false, fresh := true }
  else { x with within := 0 }

/-- The lock counters after a computed tick (R143): magnitudes and limits in the loop's error units. -/
def Loop.count (x : Loop) (mag lock unlock : Nat) (low : Bool) : Loop :=
  { x with
    within := if mag ≤ lock then x.within + 1 else 0
    beyond := if unlock < mag then x.beyond + 1 else 0
    lowSum := if low then x.lowSum + 1 else 0 }

/-- The relay output of a running tune (R173) at a tick: the new sign, and the drive. The fourth switching begins the first cycle; every
second one after it ends a cycle with its period and peak-to-peak error, up to `most`, and begins the next. -/
def Tune.relay (t : Tune) (tick most : Nat) (h e d : Int) : Tune × Int :=
  let s := if h < e then 1 else if e < -h then -1 else t.s
  let y := t.u0 + d * 65536 * s
  let lo := min t.lo e
  let hi := max t.hi e
  if s = t.s then ({ t with lo := lo, hi := hi }, y)
  else
    let n := t.turns + 1
    if n % 2 = 1 ∨ n < 4 then ({ t with s := s, turns := n, lo := lo, hi := hi }, y)
    else
      let got := if n = 4 ∨ most ≤ t.cycles.length then t.cycles else t.cycles ++ [(tick - t.mark, (hi - lo).toNat)]
      ({ t with s := s, turns := n, mark := tick, lo := e, hi := e, cycles := got }, y)

/-- A tick of a loop in a tune (R170, R173): the relay drives it, the integrator frozen and the law's paths not used, while the
supervisor watches. -/
def Loop.relay (x : Loop) (t : Tune) (tick most : Nat) (h e d : Int) (active : Bool) (settle : Nat) : Loop × Option Nat :=
  match x.bank with
  | none => (x, none)
  | some k =>
    let (t, y) := t.relay tick most h e d
    let l := { x.law with e1 := e * 65536, y := y }
    let (q, f) := x.sup.check k x.law l false active settle
    ({ x with tune := some t, law := l, sup := q, outs := (y :: x.outs).take 64 }, f)

/-- Units of error: 0.25 nm for focus and tracking (section The loop law of 08_control_engines.md). -/
def nmUnits (nm : Nat) : Nat := 4 * nm

end Sys2Proof.Machine
end

