-- ==== Sys2Proof/Machine/CalRecOps.lean ====
section
/-! DEFINITION. Calibration records (R366, R367, Table 17-4): which record applies, what it gives a pickup or a bay, what is
written, and how the log in flash is kept. -/

namespace Sys2Proof.Machine

/-! ### The log (R366, R367) -/

/-- A valid calibration record: magic and check word. -/
def calGood (r : Bytes) : Bool := slice r 0 4 == ascii "YCAL" && recordGood 4096 r

/-- The record positions of the log. -/
def Flash.calPlaces (f : Flash) : List Nat :=
  match f.region 5 with
  | none => []
  | some (o, n) => (List.range (n / 4096)).map (fun i => o + 4096 * i)

/-- Positions and contents of the valid records. -/
def Flash.calRecords (f : Flash) : List (Nat × Bytes) :=
  ((f.calPlaces.filter (fun a => !f.isBlank a 4096)).map (fun a => (a, f.read a 4096))).filter (fun e => calGood e.2)

/-- The record with the highest sequence of a list. -/
def newestRecord (l : List (Nat × Bytes)) : Option (Nat × Bytes) :=
  l.foldl (fun a r => match a with
    | some v => if leAt v.2 8 8 < leAt r.2 8 8 then some r else a
    | none => some r) none

/-- The record that applies to a module: kind 1 of a head module, kind 2 of a motor stage (R366). -/
def Flash.calFor (f : Flash) (kind : Nat) (serial : Bytes) : Option Bytes :=
  (newestRecord (f.calRecords.filter (fun e => byteAt e.2 4 == kind && slice e.2 16 16 == serial))).map (fun e => e.2)

/-- The sequence of the next record, with `jobs` records on their way. -/
def Flash.calNextSeq (f : Flash) : Nat :=
  ((newestRecord f.calRecords).map (fun e => leAt e.2 8 8)).getD 0 + 1 + (f.jobs.filter (fun j => j.op == .calRecord)).length

/-- Where the next record goes: the first erased position behind a written one, in the ring of positions.
Log 38 (DEDUCED). -/
def Flash.calHead (f : Flash) : Option Nat :=
  let l := f.calPlaces.map (fun a => (a, f.isBlank a 4096))
  let prev := (l.getLast?).toList ++ l
  match ((l.zip prev).find? (fun e => e.1.2 && !e.2.2)) with
  | some e => some e.1.1
  | none => (l.find? (fun e => e.2)).map (fun e => e.1)

/-- Bytes written at the head of the log. -/
def Flash.calPut (f : Flash) (r : Bytes) : Flash :=
  match f.calHead with
  | some a => f.program a r
  | none => f

/-- With fewer than two erased units left, the newest record of every serial held in the oldest unit goes to the head, and the
unit is erased (R367).
Log 38 (DEDUCED). -/
def Flash.calCompact (f : Flash) : Flash :=
  let starts := f.calPlaces.filter (fun a => a % 65536 = 0)
  let full := starts.filter (fun a => !f.isBlank a 65536)
  if starts.length < full.length + 2 then
    let recs := f.calRecords
    let low := recs.foldl (fun (a : Option (Nat × Bytes)) r => match a with
      | some v => if leAt r.2 8 8 < leAt v.2 8 8 then some r else a
      | none => some r) none
    match (low.map (fun e => e.1 / 65536 * 65536)).or full.head? with
    | none => f
    | some u =>
      let held := recs.filter (fun e => u ≤ e.1 && e.1 < u + 65536)
      let newest := held.filter (fun e => f.calFor (byteAt e.2 4) (slice e.2 16 16) == some e.2)
      (newest.foldl (fun f e => f.calPut e.2) f).eraseAt u 65536
  else f

/-! ### What a pickup record gives (R366, Table 17-4) -/

/-- The grade of its code. -/
def gradeOf (n : Nat) : Grade := if n = 2 then .faulty else if n = 1 then .worn else .good

/-- The code of a grade. -/
def Grade.code : Grade → Nat
  | .good => 0
  | .worn => 1
  | .faulty => 2

/-- The grade of an element in a record. -/
def recordGrade (r : Bytes) (i : Nat) : Grade := gradeOf (leAt r 64 9 / 4 ^ i % 4)

/-- An element of a record. Gains stand in 1/4,096; c is taken in 1/1,024 code. Recorded values count as accepted at the record's
temperature. -/
def recordElement (r : Bytes) (i : Nat) : Element :=
  let o := 80 + 16 * i
  let t := signedOf 16 (leAt r 56 2)
  let base := leAt r (o + 6) 2
  let acc := if base = 0 then [] else [2, 3, 4].map (fun n => (n, t))
  ⟨recordGrade r i, signedOf 32 (leAt r o 4), leAt r (o + 4) 2, 16 * leAt r (o + 8) 2, 64 * signedOf 16 (leAt r (o + 12) 2), base,
    16 * leAt r (o + 10) 2, 0, false, acc, 0, 0⟩

/-- A tuned bank of a record; none where its bytes are zero, or no well-formed bank (R166). -/
def recordBank (r : Bytes) (o : Nat) : Option Bank := if bankGood (slice r o 128) then some (bankOf (slice r o 128)) else none

/-- The rows of a record. -/
def recordRows (r : Bytes) : BitVec 18 := BitVec.ofNat 18 (leAt r 58 4)

/-- A pickup takes the record of the head module now fitted; without one every element is `GOOD`, row 0 in force, and there is no
baseline. What waits for acceptance or force belonged to the module before.
Log 37 (DESIGN CHOICE). -/
def Pickup.fromRecord (u : Pickup) (serial : Bytes) (rec' : Option Bytes) : Pickup :=
  let c := { Cal.reset with serial := some serial, pend := u.cal.pend, seen := u.cal.seen }
  match rec' with
  | none =>
    { u with
      elems := List.replicate 36 .reset, link := { u.link with rows := 0#18 }, sheet := { u.sheet with rows := 0#18 }
      focus := { u.focus with follow := none }, track := { u.track with follow := none }, cal := c }
  | some r =>
    let b73 := byteAt r 73
    let out := if b73 % 32 < 16 then some (b73 % 32) else none
    let susp : Bool := b73 / 64 % 2 == 1
    { u with
      elems := (List.range 36).map (fun i => recordElement r i)
      link := { u.link with rows := recordRows r }, sheet := { u.sheet with rows := recordRows r }
      focus := { u.focus with follow := recordBank r 824 }, track := { u.track with follow := recordBank r 952 }
      cal := { c with
        temp := signedOf 16 (leAt r 56 2), tret := if susp then none else out, susp := if susp then out else none
        retired := decide (128 ≤ b73), slices := [byteAt r 76, byteAt r 77, byteAt r 78]
        tunedF := recordBank r 824, tunedT := recordBank r 952 } }

/-- A head module is identified: another serial than before brings its own record (R362, R366). -/
def State.loadCal (s : State) (b : BayId) (p : Pu) : State :=
  let serial := slice ((s.link b p).ident.getD []) 18 16
  if (s.pu b p).cal.serial == some serial then s
  else
    let r := s.flash.calFor 1 serial
    s.updPu b p (fun u => u.fromRecord serial r)

/-- The disc is known: disc-bound values of another disc are dropped, and those of the record come back if it was made with this
disc (R366). -/
def State.loadDiscCal (s : State) (b : BayId) (p : Pu) (disc : Bytes) : State :=
  let c := (s.pu b p).cal
  if c.discOf == some disc then s
  else
    let r := (c.serial.bind (fun n => s.flash.calFor 1 n)).filter (fun r => slice r 32 16 == disc)
    let layers := List.range 12
    s.updPu b p (fun u => { u with cal := { u.cal with
      discOf := some disc, sums := [], p2p := []
      wait := u.cal.wait.filter (fun w => w.item < 5 || 8 < w.item)
      slopes := match r with
        | some r => (layers.map (fun l => (l, (List.range 3).flatMap (fun k =>
            [16 * (leAt r (656 + 12 * l + 4 * k) 2 : Int), signedOf 16 (leAt r (658 + 12 * l + 4 * k) 2)])))).filter (fun e => e.2.any (fun v => v != 0))
        | none => []
      sa := match r with
        | some r => layers.map (fun l => (l, signedOf 16 (leAt r (800 + 2 * l) 2)))
        | none => []
      strat := match r with
        | some r => layers.map (fun l => (l, (List.range 32).flatMap (fun e =>
            let o := 1080 + 128 * l + 4 * e
            [(leAt r o 2 : Int), signedOf 16 (leAt r (o + 2) 2)])))
        | none => [] } })

/-- A motor stage is identified: another serial brings its own record: r0 of both sleds and their table corrections (R366). -/
def State.loadBayCal (s : State) (b : BayId) : State :=
  let y := s.bay b
  let serial := slice (y.mlink.ident.getD []) 18 16
  if y.cal.serial == some serial then s
  else
    let r := s.flash.calFor 2 serial
    let r0 := fun (o : Nat) => r.map (fun r => rnd (signedOf 32 (leAt r o 4)) 10)
    let tab := fun (o : Nat) => match r with
      | some r => (List.range 32).map (fun i => signedOf 16 (leAt r (o + 2 * i) 2))
      | none => []
    s.updBay b (fun y => { y with
      cal := ⟨some serial, tab 88, tab 152, none⟩, sledA := { y.sledA with r0 := r0 80 }, sledB := { y.sledB with r0 := r0 84 } })

/-! ### What is written (Table 17-4) -/

/-- The initial spherical-aberration code of a layer (R151). -/
def State.saInit (s : State) (b : BayId) (p : Pu) (layer : Nat) : Int :=
  s.bnd (.pickup b p) .loopSaBase + s.bnd (.pickup b p) .loopSaPerUm * (12 * layer)

/-- A bank's 128 bytes with its check word (R167, Table 08-2). -/
def bankBytes (k : Bank) : Bytes :=
  let c := fun (v : Int) => leBytes 4 (unsignedOf 32 v)
  sealRecord 128 (c k.K ++ c k.b0 ++ c k.b1 ++ c k.a1 ++ c k.c0 ++ c k.c1 ++ c k.d1 ++ c k.ki ++ leBytes 2 k.umax ++ leBytes 2 k.ilim
    ++ leBytes 2 k.slew ++ leBytes 1 k.gshift ++ leBytes 1 k.ien.toNat ++ leBytes 2 k.emax
    ++ (List.range 17).flatMap (fun j => leBytes 2 (k.gains.getD j 0)) ++ c k.p1 ++ c k.p2 ++ c k.q1 ++ c k.q2
    ++ leBytes 2 k.rmax ++ leBytes 2 k.satmax)

/-- A two's-complement field. -/
def leInt (n : Nat) (v : Int) : Bytes := leBytes n (unsignedOf (8 * n) v)

/-- Values of a per-layer list, `n` of them, zero where there are none. -/
def layerVals (l : List (Nat × List Int)) (layer n : Nat) : List Int :=
  let v := ((l.find? (fun e => e.1 == layer)).map (fun e => e.2)).getD []
  (List.range n).map (fun i => v.getD i 0)

/-- The pickup record of the values in force. Provisional grades, rows and retirements are left as the record before has them
(R421).
Log 37 (DESIGN CHOICE). -/
def State.pickupRecord (s : State) (b : BayId) (p : Pu) (seq : Nat) : Bytes :=
  let u := s.pu b p
  let c := u.cal
  let serial := c.serial.getD (zeros 16)
  let old := s.flash.calFor 1 serial
  let grade := fun (i : Nat) =>
    let e := u.elems.getD i .reset
    if e.prov then (old.map (fun r => recordGrade r i)).getD .good else e.grade
  let rows := (List.range 18).foldl (fun a sp =>
    let bit := if c.rowProv.contains sp then ((old.map recordRows).getD 0#18).getLsbD sp else u.link.rows.getLsbD sp
    if bit then a + 2 ^ sp else a) 0
  let b73old := (old.map (fun r => byteAt r 73)).getD 0x1F
  let trk := if c.trkProv then b73old % 128
    else match c.tret, c.susp with
      | some i, _ => i
      | none, some i => 64 + i
      | none, none => 0x1F
  let pret := if c.retProv then b73old / 128 else c.retired.toNat
  let layers := List.range 12
  let bank := fun (k : Option Bank) => (k.map bankBytes).getD (zeros 128)
  sealRecord 4096 (padTo 4092
    (ascii "YCAL" ++ [1#8] ++ zeros 3 ++ leBytes 8 seq ++ padTo 16 serial ++ padTo 16 (c.discOf.getD []) ++ leBytes 8 s.time
      ++ leInt 2 c.temp ++ leBytes 4 rows ++ zeros 2
      ++ leBytes 9 ((List.range 36).foldl (fun a i => a + (grade i).code * 4 ^ i) 0)
      ++ leBytes 1 (128 * pret + trk) ++ zeros 2 ++ (List.range 3).flatMap (fun i => leBytes 1 (c.slices.getD i 0)) ++ zeros 1
      ++ (List.range 36).flatMap (fun i =>
          let e := u.elems.getD i .reset
          leInt 4 e.offset ++ leBytes 2 e.pset ++ leBytes 2 e.pset0 ++ leInt 2 (rnd e.gain 16) ++ leInt 2 (rnd e.gain0 16)
            ++ leInt 2 (rnd e.dc 64) ++ zeros 2)
      ++ layers.flatMap (fun l => (layerVals c.slopes l 6).zipIdx.flatMap (fun e => leInt 2 (if e.2 % 2 = 0 then rnd e.1 16 else e.1)))
      ++ layers.flatMap (fun l => leInt 2 (((c.sa.find? (fun e => e.1 == l)).map (fun e => e.2)).getD (s.saInit b p l)))
      ++ bank c.tunedF ++ bank c.tunedT
      ++ layers.flatMap (fun l => match c.strat.find? (fun e => e.1 == l) with
          | some e => (List.range 64).flatMap (fun i => leInt 2 (e.2.getD i 0))
          | none => (List.range 32).flatMap (fun _ => leBytes 2 4096 ++ zeros 2))))

/-- The bay record of the values in force. -/
def State.bayRecord (s : State) (b : BayId) (seq : Nat) : Bytes :=
  let y := s.bay b
  let nm := fun (r : Option Int) => leInt 4 (10 * r.getD 0)
  let tab := fun (l : List Int) => (List.range 32).flatMap (fun i => leInt 2 (l.getD i 0))
  sealRecord 4096 (padTo 4092
    (ascii "YCAL" ++ [2#8] ++ zeros 3 ++ leBytes 8 seq ++ padTo 16 (y.cal.serial.getD []) ++ padTo 16 (y.disc.serial.getD [])
      ++ leBytes 8 s.time ++ zeros 24 ++ nm y.sledA.r0 ++ nm y.sledB.r0 ++ tab y.cal.tabA ++ tab y.cal.tabB))

/-- A pickup's record is due: within 1 s of a grade change and the like (R367). -/
def Cal.due (c : Cal) (now : Nat) : Cal := { c with recDue := some (c.recDue.getD now), differs := true }

end Sys2Proof.Machine
end

