-- ==== Sys2Proof/Machine/MotionOps.lean ====
section
/-! DEFINITION. The pickup state machine (Table 07-3, R144 to R158) and the spindle's commanded stop (R204). -/

namespace Sys2Proof.Machine

/-! ### Access -/

/-- The motion of a pickup changed. -/
def State.updMs (s : State) (b : BayId) (p : Pu) (g : Motion → Motion) : State := s.updPu b p (fun u => { u with ms := g u.ms })

/-- The sheet channel of a pickup changed. -/
def State.updSheet (s : State) (b : BayId) (p : Pu) (g : Sheet → Sheet) : State :=
  s.updPu b p (fun u => { u with sheet := g u.sheet })

/-- The state with the motor unit of a bay changed. -/
def State.updSp (s : State) (b : BayId) (g : Spindle → Spindle) : State := s.updBay b (fun y => { y with spindle := g y.spindle })

/-- The control engine of a unit (Table 08-1). -/
def engineOf (b : BayId) (u : Option Pu) : Nat :=
  match u with
  | some _ => b.val % 8 / 2
  | none => 4 + b.val % 8 / 4

/-- A transition or swap joins its datapath's log, which keeps the last 64 (R178). `what` is the state's number in its table,
or 32 for a swap. -/
def State.logDp (s : State) (b : BayId) (u : Option Pu) (tick what : Nat) : State :=
  let same := fun (e : LogEntry) => regionOf e.bay == regionOf b && engineOf e.bay e.pu == engineOf b u
  let old := (s.blk.log.filter same).take 63
  { s with blk := { s.blk with log := ⟨tick, b, u, what⟩ :: old ++ s.blk.log.filter (fun e => !same e) } }

/-- A pickup enters a state now. A calibration step runs in `FOLLOW` only (R355). -/
def State.enter (s : State) (b : BayId) (p : Pu) (st : PState) : State :=
  let s := if st == .follow then s else s.updPu b p (fun u => { u with cal := { u.cal with step := none } })
  (s.updMs b p (fun m => { m with st := st, since := s.us, ticks := 0 })).logDp b (some p) (s.pu b p).link.servo.tick st.code

/-- A drive word, 0 focus to 3 spherical aberration. -/
def Motion.drive (m : Motion) (i : Nat) : Int := m.drives.getD i 0

/-- The data tracks whose elements serve: neither retired nor suspended (R80, R362). -/
def Pickup.inService (u : Pickup) : List Nat :=
  (List.range 16).filter (fun i => u.cal.tret != some i && u.cal.susp != some i)

/-- The spherical-aberration setpoint of a layer (R151). -/
def State.saSet (s : State) (b : BayId) (p : Pu) (layer : Nat) : Int :=
  match (s.pu b p).cal.sa.find? (fun e => e.1 == layer) with
  | some e => e.2
  | none => s.saInit b p layer

/-- Sectors read whole and not yet confirmed, and the one in reading, are withdrawn (R69): they are read again on a later pass.
A re-read keeps its slot and its a-priori values. -/
def State.withdrawReads (s : State) (b : BayId) (p : Pu) : State :=
  let u := s.pu b p
  let gone := u.sheet.unconf ++ (u.cur.map (fun r => r.sector)).toList
  let hit := u.slots.filter (fun q => gone.contains q.sector && q.why != .verify)
  let unread := u.cur.toList.filter (fun r => r.why != .verify && !u.slots.any (fun q => q.sector == r.sector))
  let back := hit.map (fun q => (⟨q.sector, q.why, q.rereads, s.us⟩ : ReadReq)) ++ unread
  let keep := fun (q : SoftSlot) => { q with
    rung := 6, rereads := q.rereads - 1, reading := false, done := false, wait := false, cws := [], plan := [] }
  s.updPu b p (fun u => { u with
    cur := none, reads := back ++ u.reads, sheet := { u.sheet with unconf := [] }
    slots := u.slots.filterMap (fun q =>
      if !gone.contains q.sector then some q else if q.why == .verify || q.rereads = 0 then none else some (keep q)) })

/-- Frame lock ends and the channel does not search: what R69 withdraws is read again. -/
def State.dropFrameLock (s : State) (b : BayId) (p : Pu) : State :=
  (s.withdrawReads b p).updPu b p (fun u => { u with sheet := { u.sheet with lock := .off, jumpCand := none } })

/-- Banks from the values in force where a loop holds none (R168, R182). -/
def State.loadBanks (s : State) (b : BayId) (p : Pu) : State :=
  let c := s.unitCfg (.pickup b p) 6
  let bank := fun (f : Field) => (c.banks.find? (fun e => e.1 == f)).map (fun e => e.2)
  let fill := fun (x : Loop) (a f : Field) => { x with acq := x.acq.or (bank a), follow := x.follow.or (bank f) }
  s.updPu b p (fun u => { u with
    focus := fill u.focus .cengBankFocusAcq .cengBankFocusFollow
    track := fill u.track .cengBankTrackAcq .cengBankTrackFollow
    tilt := fill u.tilt .cengBankTilt .cengBankTilt })

/-! ### Transitions -/

/-- A pickup enters `OFF` (Table 07-3): loops open, emitters off, frame lock gone, out of service. -/
def State.puOff (s : State) (b : BayId) (p : Pu) : State :=
  let s := (s.dropFrameLock b p).leaveService b p
  (s.updPu b p (fun u => { u with
    focus := u.focus.open', track := u.track.open', tilt := u.tilt.open'
    link := { u.link with laser := false, wpermit := false }
    ms := { u.ms with ladders := 0, fromRec := false, jump := none, recap := false, limitHit := false } })).enter b p .off

/-! ### The spindle's commanded stop (R204) -/

/-- The spindle enters a state now. -/
def Spindle.enter (x : Spindle) (st : SpSt) (now : Nat) : Spindle := { x with st := st, since := now }

/-- A catch begins: the drive floats, crossings are counted afresh (R195). -/
def Spindle.startCatch (x : Spindle) (use : CatchUse) (now : Nat) : Spindle :=
  { x with st := .catch, since := now, use := use, crossings := [], signs := [none, none, none], amp := 0, drive := .floating
           good := false, ready := false, readyAt := none }

/-- The bay leaves service before an excursion has written its queued sectors: they and their records are discarded, the
sectors stay failed (R139).
Log 26 (DEDUCED). -/
def State.dropRelocs (s : State) (b : BayId) : State :=
  let goes := fun (c : Coded) => c.home.isSome || c.failed || (match c.why with
    | .relocRecord _ => true
    | _ => false)
  [Pu.A, Pu.B].foldl (fun s p => s.updPu b p (fun u => { u with write := { u.write with
    relocs := u.write.relocs.filter (fun r => r.record || r.spare.isNone)
    queue := u.write.queue.filter (fun c => !goes c), store := u.write.store.filter (fun c => !goes c), excursion := false } })) s

/-- The spindle stops on command as R204 gives for its state.
Log 24 (DESIGN CHOICE). -/
def Spindle.commanded (x : Spindle) (now : Nat) : Spindle :=
  let x := { x with stopping := true, pendStart := false, good := false, ready := false, readyAt := none }
  let slow : Spindle := { x with
    st := .decel, since := now, goal := 0, target := x.obs.rpm, decelFrom := x.obs.rpm, presetS := true }
  let zero : Spindle := { x.startCatch .start now with zeroLeft := 2, drive := x.drive, invalid := 0, maxObs := 0, handAt := none }
  match x.st with
  | .sync => slow
  | .run => slow
  | .decel => { x with goal := 0 }
  | .align => zero
  | .ramp => zero
  | .startWait => zero
  | .recover => zero
  | .catch => { x with target := 0, goal := 0 }
  | .brakeShort => x
  | .safeHold => x
  | .stopped => { x with stopping := false, endFault := false }
  | .fault => { x with stopping := false, endFault := false, noRetry := true }

/-- A commanded stop: both pickups enter `OFF` on the same tick (R193), and the spindle stops (R204).
Log 26 (DEDUCED). -/
def State.commandStop (s : State) (b : BayId) : State :=
  let s := ((s.puOff b .A).puOff b .B).dropRelocs b
  let now := s.us
  let st := (s.bay b).spindle.st
  -- an entry to `CATCH` is the boundary of its sections (R207)
  let s := if st == .align || st == .ramp || st == .startWait || st == .recover then (s.boundary (.bay b) 7).boundary (.bay b) 8 else s
  s.updSp b (fun x => x.commanded now)

/-! ### Rejected and empty bays (R146) -/

/-- A pickup has no part in the search of an empty bay any more: out of service, or its search has found no disc. -/
def State.searchOver (s : State) (b : BayId) (p : Pu) : Bool :=
  let u := s.pu b p
  u.cal.retired || u.ms.st == .failed || !u.link.live || !s.portUp b p || (s.bay b).disc.searched.contains p

/-- A bay in which no pickup holds focus and no search is left is empty once one has found no disc; a probe that finds nothing ends
with it. The spindle is stopped with both pickups in `OFF`. The event is raised when the bay is first found empty, by no probe.
Log 55 (DEDUCED). -/
def State.emptyCheck (s : State) (b : BayId) (p : Pu) : State :=
  let d := (s.bay b).disc
  let lit := (s.pu b .A).focus.closed || (s.pu b .B).focus.closed
  if lit || !s.searchOver b .A || !s.searchOver b .B || (d.searched.isEmpty && !d.probing) then s
  else
    let s := if d.empty || d.probing then s else s.raisePu b p 4 .loopNoDisc
    (s.updBay b (fun y => { y with
      disc := { y.disc with
        empty := d.empty || !d.searched.isEmpty, probing := false, probeAt := s.us, serial := none, ident := [], label := none, blank := false
        labelN := 0, pointerN := 0, found := [], tagA := none, tagB := none } })).commandStop b

/-- A pickup enters `FAILED`: as `OFF`, with its event (R144, R156). -/
def State.puFail (s : State) (b : BayId) (p : Pu) : State :=
  (((s.puOff b p).enter b p .failed).raisePu b p 4 .loopPickupFail).emptyCheck b p

/-- A pickup enters `RECOVER` (R155, R156): a ladder begins, the write in progress fails and pending reads end. After
`loop.recover.max_tries` ladders it enters `FAILED`. -/
def State.enterRecover (s : State) (b : BayId) (p : Pu) (cause : RecCause) : State :=
  let m := (s.pu b p).ms
  if m.st == .off ∨ m.st == .failed then s
  else if s.liveN .loopRecoverMaxTries ≤ m.ladders then s.puFail b p
  else
    let s := ((s.failCurrent b p).readsLost b p).dropFrameLock b p
    (s.updPu b p (fun u => { u with
      link := { u.link with wpermit := false }
      ms := { u.ms with
        ladders := u.ms.ladders + 1, cause := cause, corr := 0, layerTry := 0, recap := false, jump := none
        fromRec := true, limitHit := false } })).enter b p .recover

/-- A pickup begins `FOCUS_SEARCH` (R145) toward its target layer; a full search is core-started, so while the cores are held
it enters `OFF` and waits (R156, R180). -/
def State.enterFocusSearch (s : State) (b : BayId) (p : Pu) : State :=
  if s.coresHeld then s.puOff b p
  else
    let s := s.loadBanks b p
    let s := s.updBay b (fun y => { y with disc := { y.disc with searched := y.disc.searched.filter (fun q => q != p) } })
    let m := (s.pu b p).ms
    (s.updPu b p (fun u => { u with
      focus := u.focus.open', track := u.track.open', tilt := u.tilt.open', link := { u.link with laser := !s.isl.agentLost }
      ms := { u.ms with
        sweep := ⟨0, u.ms.tgtLayer + 2, 1, -32767, false, 0, 0, false⟩
        saCode := s.saSet b p m.tgtLayer, saTrim := 0, saOfs := 0, saEnv := none } })).enter b p .focusSearch

/-- A pickup enters `TRACK_PULL`: tracking closes on the nearest groove pair, tilt closes (R147). -/
def State.enterTrackPull (s : State) (b : BayId) (p : Pu) : State :=
  (s.updPu b p (fun u => { u with
    track := u.track.close (u.ms.drive 1), tilt := if u.tilt.closed then u.tilt else u.tilt.close (u.ms.drive 2)
    ms := { u.ms with recap := false, jump := none } })).enter b p .trackPull

/-- The prior P of a search (R70): from the spindle's measured speed and the pickup's target radius; the nominal one while no speed is
known. -/
def State.priorPeriod (s : State) (b : BayId) (p : Pu) : Int :=
  let m := (s.pu b p).ms
  let rpm := (s.bay b).spindle.obs.rpm
  let nom := nominalPeriod m.tgtZone
  if rpm ≤ 0 then nom else nom * rpmFor m.tgtZone (radiusOf m.tgtZone m.tgtFrame) / rpm

/-- A search begins (R70) from a prior P, on the bits that come. -/
def Sheet.seek (x : Sheet) (now : Nat) (prior : Int) : Sheet :=
  { x with
    lock := .search now none, miss := 0, jumpCand := none, period := prior, timed := true, opened := false, holds := []
    tracks := x.tracks.map (fun t => { t with bits := [] }), v0 := { x.v0 with bits := [] }, v1 := { x.v1 with bits := [] } }

/-- A pickup enters `ACQUIRE`: the boundary of its loop and engine values (R160, R182), the sheet channel in search (R70). -/
def State.enterAcquire (s : State) (b : BayId) (p : Pu) : State :=
  let s := (s.boundary (.pickup b p) 5).boundary (.pickup b p) 6
  let now := s.us
  let prior := s.priorPeriod b p
  (s.updPu b p (fun u => { u with
    sheet := u.sheet.seek now prior, ms := { u.ms with sawWedge := false, jump := none } })).enter b p .acquire

/-- A pickup enters `FOLLOW`: the boundary of its loop and engine values. -/
def State.enterFollow (s : State) (b : BayId) (p : Pu) : State :=
  ((s.boundary (.pickup b p) 5).boundary (.pickup b p) 6).enter b p .follow

/-- A swath jump is issued (R147): tracking opens and is kicked. -/
def State.startJump (s : State) (b : BayId) (p : Pu) (n : Int) : State :=
  let back := (s.pu b p).ms.st
  (s.updPu b p (fun u => { u with
    track := u.track.open'
    ms := { u.ms with jump := some ⟨n, 0, 0, back, false, 0⟩ } })).enter b p .swathJump

/-- A layer jump is issued (R153): tracking and tilt held, the spherical aberration ramps, its trim cleared. The detector loads its bank
at the first sector after it (R87). -/
def State.startLayerJump (s : State) (b : BayId) (p : Pu) (layer : Nat) : State :=
  let s := s.dropFrameLock b p
  (s.updPu b p (fun u => { u with
    track := u.track.open', tilt := u.tilt.open', det := { u.det with layer := none }
    ms := { u.ms with
      tgtLayer := layer, layerTry := u.ms.layerTry + 1, kicked := false, saTrim := 0, saOfs := 0, saEnv := none
      sweep := ⟨0, (layer : Int) - u.ms.layer, if u.ms.layer ≤ layer then 1 else -1, u.ms.drive 0, false, 0, 0, false⟩ }
    link := { u.link with wpermit := false } })).enter b p .layerJump

/-- Tracking and focus unlock, and the pickup recovers from whatever state it is in; a recovery in progress goes on (R143, R144,
R155). -/
def State.loseLock (s : State) (b : BayId) (p : Pu) (focusToo : Bool) : State :=
  let s := s.updPu b p (fun u => { u with
    track := u.track.unlock, focus := if focusToo then u.focus.unlock else u.focus })
  match (s.pu b p).ms.st with
  | .off => s
  | .failed => s
  | .focusSearch => s
  | .recover => s
  | _ => s.enterRecover b p .ordinary

/-! ### Refused discs (R146) -/

/-- The disc of a bay is refused: both pickups off, spindle stopped, bay not ready. The same disc refused again for the same
cause raises no event; `e` is the event of a first refusal. -/
def State.rejectDisc (s : State) (b : BayId) (serial : Bytes) (why : Reject) (src : Nat) (e : Ev) : State :=
  let again := (s.bay b).disc.rejected == some (serial, why)
  let s := if again then s else s.raiseBay b src e
  (s.updBay b (fun y => { y with
    disc := { y.disc with rejected := some (serial, why), probing := false, probeAt := s.us, empty := false } })).commandStop b

/-- A focus search has found no disc (R145): the pickup enters `OFF`, and the bay may be empty (R146). Beside a pickup that holds focus
the search raises its event by itself.
Log 55 (DEDUCED). -/
def State.noDisc (s : State) (b : BayId) (p : Pu) : State :=
  let alone := (s.pu b p.other).focus.closed && !(s.bay b).disc.probing
  let s := if alone then s.raisePu b p 4 .loopNoDisc else s
  let s := (s.puOff b p).updBay b (fun y => { y with disc := { y.disc with searched := p :: y.disc.searched.filter (fun q => q != p) } })
  s.emptyCheck b p

end Sys2Proof.Machine
end

