-- ==== Sys2Proof/Machine/ServoOps.lean ====
section
/-! DEFINITION. One servo tick of a pickup unit (R142 to R153, R162 to R171): errors, loops, sweeps and jumps, the write gate,
`SERVO_CMD`. -/

namespace Sys2Proof.Machine

/-! ### Errors (Table 07-1) -/

/-- The sum of a quadrature channel over the eight instants of a tick; every ratio below is that of the means. -/
def Servo.chan (v : Servo) (c : Nat) : Int := ((List.range 8).foldl (fun a i => a + v.qd.getD (8 * i + c) 0) 0 : Nat)

/-- A ratio in 1/65,536; 0 where nothing is lit. -/
def ratio (n d : Int) : Int := if d ≤ 0 then 0 else n * 65536 / d

/-- S, as the mean over the tick. -/
def Servo.focusSum (v : Servo) : Nat := ((v.chan 0 + v.chan 1 + v.chan 2 + v.chan 3) / 8).toNat
/-- FE. -/
def Servo.fe (v : Servo) : Int :=
  ratio ((v.chan 0 + v.chan 2) - (v.chan 1 + v.chan 3)) (v.chan 0 + v.chan 1 + v.chan 2 + v.chan 3)
/-- pp of a servo spot: 0 for V0, 1 for V1. -/
def Servo.pp (v : Servo) (n : Nat) : Int := ratio (v.chan (4 + 2 * n) - v.chan (5 + 2 * n)) (v.chan (4 + 2 * n) + v.chan (5 + 2 * n))
/-- TE. -/
def Servo.te (v : Servo) : Int := (v.pp 0 + v.pp 1) / 2
/-- TL of one tick. -/
def Servo.tl (v : Servo) : Int :=
  ratio ((v.chan 4 + v.chan 5) - (v.chan 6 + v.chan 7)) (v.chan 4 + v.chan 5 + v.chan 6 + v.chan 7)

/-- Slope and offset of a loop (0 focus, 1 tracking, 2 tilt) on a layer, as calibrated (item 5). -/
def Cal.slope (c : Cal) (layer loop : Nat) : Int × Int :=
  match c.slopes.find? (fun e => e.1 == layer) with
  | some e => (e.2.getD (2 * loop) 0, e.2.getD (2 * loop + 1) 0)
  | none => (Config.initError loop 0, Config.initError loop 1)

/-- A calibrated error, 16 bits signed. -/
def Cal.error (c : Cal) (layer loop : Nat) (raw : Int) : Int :=
  let (k, o) := c.slope layer loop
  clampI (-32768) 32767 (rnd (raw * k) 65536 - o)

/-- The calibrated focus sum of a layer. -/
def Cal.sum (c : Cal) (layer : Nat) : Nat := ((c.sums.find? (fun e => e.1 == layer)).map (fun e => e.2)).getD (Config.initSum layer)

/-- The calibrated peak-to-peak focus error of a layer, in 1/65,536. -/
def Cal.peak (c : Cal) (layer : Nat) : Nat := ((c.p2p.find? (fun e => e.1 == layer)).map (fun e => e.2)).getD (Config.initPeak layer)

/-! ### Elements -/

/-- The element of a spot in the order of `MON`: row 0 first. -/
def elemIdx (rows : BitVec 18) (spot : Nat) : Nat := (if rows.getLsbD spot then 18 else 0) + spot

/-- The element in force of a spot. -/
def Pickup.elem (u : Pickup) (spot : Nat) : Element := u.elems.getD (elemIdx u.link.rows spot) .reset

/-- An element in force shows a fault: in `EFAULT`, or in `MON` for `cal.elem.fault_ticks` (R360). Bit i of `EFAULT`, the least
significant first, stands for element i in the order of `MON`.
Log 51 (DESIGN CHOICE). -/
def Pickup.elemBad (u : Pickup) (ticks spot : Nat) : Bool :=
  u.link.servo.efault.getLsbD (elemIdx u.link.rows spot) || ticks ≤ (u.elem spot).badRun

/-- The monitor runs of the elements in force after a tick (R360): the value `PSET` calls for in monitor steps. -/
def Pickup.monitor (u : Pickup) (tol : Nat) : Pickup :=
  let d := u.link.ident.getD []
  let ml := beAt d 36 2
  let sl := beAt d 38 2
  { u with elems := u.elems.mapIdx (fun i x =>
      let spot := i % 18
      if elemIdx u.link.rows spot = i ∧ u.link.laser then
        let want := x.pset * sl
        let got := u.link.servo.mon.getD i 0 * ml
        if want * tol < ((got : Int) - want).natAbs * 100 then { x with badRun := x.badRun + 1 } else { x with badRun := 0 }
      else x) }

/-! ### Write gate (R136) -/

/-- The data spots of a pass with V0 and V1. -/
def passSpots (pass : Nat) : List Nat := [0, 17] ++ (List.range 8).map (fun k => 2 * k + pass + 1)

/-- The pass a block writes. -/
def PassBlock.pass (k : PassBlock) : Nat :=
  match k.step with
  | .even => 0
  | .oddJump => 1
  | .odd => 1
  | .verifyJump => 1
  | .verify => 1

/-- The spot of a data track that is written blank: retired or suspended (R109). -/
def Pickup.blankSpot (u : Pickup) (sp : Nat) : Bool := decide (1 ≤ sp ∧ sp ≤ 16) && !u.inService.contains (sp - 1)

/-- The link lets the pickup write: `ACTIVE`, or after a lane's failure for the rest of the segment in progress (R60, R136). -/
def Pickup.linkWrites (u : Pickup) (us : Nat) : Bool :=
  match u.write.laneHold with
  | none => u.link.st == .active
  | some e => u.link.live && decide ((u.link.linkTime us : Int) ≤ e)

/-- Every write condition of R136 holds, with those of R193 (spindle good) and R158 (radii). `fe` and `te` are this tick's
calibrated errors. -/
def State.writeConditions (s : State) (b : BayId) (p : Pu) (fe te : Int) : Bool :=
  let u := s.pu b p
  let y := s.bay b
  u.focus.locked && decide (fe.natAbs ≤ nmUnits (s.liveN .writeGateFocusErrNm))
    && u.track.locked && decide (te.natAbs ≤ nmUnits (s.liveN .writeGateTrackErrNm))
    && u.ms.st == .follow && u.sheet.lock == .locked && u.sheet.rateOk
    && u.linkWrites s.us && !u.link.oneLane && y.pairOk && (s.safeBay b).lsafe && y.spindle.good
    && (match u.write.block with
        | some k => (passSpots k.pass).all (fun sp => !u.elemBad (s.liveN .calElemFaultTicks) sp || u.blankSpot sp)
        | none => true)

/-- The gate after a tick (R136): `WPERMIT` for a block that writes while every condition holds; when one fails while a segment
is being written, the permit is cleared, the event raised, and the sector in progress fails. -/
def State.evalGate (s : State) (b : BayId) (p : Pu) (ok : Bool) : State :=
  let u := s.pu b p
  let writing := match u.write.block with
    | some k => k.step == .even || k.step == .odd
    | none => false
  if writing && ok && u.link.wcap && !s.isl.agentLost then
    s.updPu b p (fun u => { u with link := { u.link with wpermit := true }, write := { u.write with gateOk := true } })
  else
    let now : Int := u.link.linkTime s.us
    let cut := writing && u.write.emits.any (fun g => decide (g.first ≤ now ∧ now < g.last))
    let s := s.updPu b p (fun u => { u with link := { u.link with wpermit := false }, write := { u.write with gateOk := false } })
    if cut then (s.raisePu b p 12 .writeGateDrop).failCurrent b p else s

/-! ### `SERVO_CMD` (R46, R162) -/

/-- The write frequency in force at a link time (R131): that of the newest segment whose first bit lies no more than 256 samples, half
the gap of a wedge, later.
Log 51 (DESIGN CHOICE). -/
def HLink.freqAt (l : HLink) (t : Nat) : Nat := ((l.wplan.find? (fun e => decide (e.1 ≤ t + 256))).map (fun e => e.2)).getD l.wfreq

/-- A `SERVO_CMD` with an `APPLY`. The `PSET` of a spot is that of its element in force, also while a change of rows waits.
Log 51 (DESIGN CHOICE). -/
def State.sendServo (s : State) (b : BayId) (p : Pu) (tick apply : Nat) : State :=
  let u := s.pu b p
  let l := u.link
  let (row, at') := match l.rowReq with
    | some r => (r.rows, r.apply)
    | none => (l.rows, 0)
  let pset := (List.range 18).map (fun sp => (u.elem sp).pset)
  let wf := l.freqAt apply
  let s := s.updLink b p (fun l => { l with pset := pset, wfreq := wf })
  s.sendHead b p 1 0
    (beBytes 2 tick ++ beBytes 4 apply ++ (List.range 4).flatMap (fun i => beBytes 2 (unsignedOf 16 (u.ms.drive i)))
      ++ pack12 pset 27 ++ beBytes 3 row.toNat ++ beBytes 4 at' ++ beBytes 4 wf
      ++ [BitVec.ofNat 8 ((if l.wpermit && l.wcap then 128 else 0) + (if l.laser then 64 else 0))])

/-- The `SERVO_CMD` of a tick. `WFREQ` holds through a segment, so where a segment begins before the next tick's `APPLY` the frame is
sent again with the same words and an `APPLY` in the gap before it.
Log 51 (DESIGN CHOICE). -/
def State.servoCmd (s : State) (b : BayId) (p : Pu) (tick tq : Nat) : State :=
  let apply := tq + 1920
  let s := s.sendServo b p tick apply
  match (s.link b p).wplan.find? (fun e => decide (apply + 256 < e.1 ∧ e.1 < apply + 256 + 1067)) with
  | some e => s.sendServo b p tick (e.1 - 256)
  | none => s

/-! ### Sweeps and jumps (R145, R147, R153) -/

/-- A focus sweep takes the raw focus error of a tick: an S-curve is a zero crossing while S exceeds its limit and twice the
extreme before it exceeds half the calibrated peak-to-peak. The slope of approach (too far to too near) adds 1.
Log 25 (DEDUCED). -/
def Sweep.see (w : Sweep) (fe : Int) (sumOk : Bool) (peak : Nat) : Sweep × Bool :=
  let ext := if fe.sign = w.lastE.sign then (if w.peak.natAbs < fe.natAbs then fe else w.peak) else fe
  let crossed := w.lastE.sign * fe.sign < 0
  if crossed && sumOk && peak < 4 * w.peak.natAbs then
    ({ w with count := w.count + (if 0 < w.lastE then 1 else -1), lastE := fe, peak := fe, seen := true }, true)
  else ({ w with lastE := if fe = 0 then w.lastE else fe, peak := ext }, false)

/-- The focus sweep moves on by one tick: toward the disc to full scale, then back once. -/
def Sweep.move (w : Sweep) (step : Nat) : Sweep :=
  let q := clampI (-32767) 32767 (w.pos + w.dir * step)
  if q = 32767 ∧ !w.turned then { w with pos := q, dir := -1, turned := true } else { w with pos := q }

/-- A swath jump sees pp0 of a tick, in the same way as a sweep sees FE: a zero crossing counts while S exceeds its limit and twice
the extreme before it exceeds half the peak-to-peak of pp0. One with the slope that the direction of travel gives on a swath counts
toward s, one with the opposite slope against it; the jump brakes on the one that completes |s| swaths.
Log 55 (DEDUCED). -/
def Jump.see (j : Jump) (pp : Int) (sumOk : Bool) (peak : Nat) : Jump :=
  let ext := if pp.sign = j.last.sign then (if j.peak.natAbs < pp.natAbs then pp else j.peak) else pp
  let crossed := decide (j.last.sign * pp.sign < 0) && sumOk && decide (peak < 4 * j.peak.natAbs)
  let n := if !crossed then j.count else if pp.sign = j.s.sign then j.count + j.s.sign else j.count - j.s.sign
  { j with
    count := n, last := if pp = 0 then j.last else pp, peak := if crossed then pp else ext
    braked := j.braked || (crossed && decide (n = j.s)) }

/-- A drive ramped toward 0 over 2 ms, 960 ticks. -/
def rampDown (d : Int) (ticks : Nat) : Int := if 960 ≤ ticks then 0 else d - d / (960 - ticks : Nat)

/-- The output of a loop as a drive word. -/
def Loop.word (x : Loop) : Int := clampI (-32767) 32767 (rnd x.law.y 65536)

/-- The spherical-aberration word: the code in force, the trim and its dither, both held where R152 freezes them; in a layer jump the
ramp toward the target (Table 07-4).
Log 55 (DEDUCED). -/
def State.saWord (s : State) (b : BayId) (p : Pu) : Int :=
  let m := (s.pu b p).ms
  let base := if m.st == .layerJump && !m.kicked then
      let goal := s.saSet b p m.tgtLayer
      let ramp := s.bndN (.pickup b p) .loopLayerSaRampUs
      m.saCode + (goal - m.saCode) * min (s.us - m.since) ramp / (max ramp 1 : Nat)
    else m.saCode
  clampI (-32767) 32767 (base + m.saTrim + m.saOfs)

/-- The drive words after a tick's loops: closed loops drive, open ones hold or follow their sweep, kick or ramp. -/
def State.setDrives (s : State) (b : BayId) (p : Pu) : State :=
  let u := s.pu b p
  let m := u.ms
  let sa := s.saWord b p
  let f := if u.focus.closed then u.focus.word else match m.st with
    | .off => rampDown (m.drive 0) m.ticks
    | .failed => rampDown (m.drive 0) m.ticks
    | .focusSearch => m.sweep.pos
    | .layerJump => if m.kicked then clampI (-32767) 32767 (m.sweep.pos + Config.kickWord 2 m.sweep.goal m.ticks) else m.drive 0
    | .recover => if m.recap then clampI (-32767) 32767 (m.sweep.pos + Config.kickWord 4 m.sweep.goal m.ticks) else m.drive 0
    | _ => m.drive 0
  let t := if u.track.closed then u.track.word else match m.st with
    | .off => rampDown (m.drive 1) m.ticks
    | .failed => rampDown (m.drive 1) m.ticks
    | .seek => 0
    | .swathJump => (match m.jump with
      | some j => clampI (-32767) 32767 (Config.kickWord (if j.braked then 1 else 0) j.s m.ticks)
      | none => m.drive 1)
    | _ => m.drive 1
  let hold := u.sheet.sheetHold || m.st == .layerJump || m.st == .recover
  let g := if u.tilt.closed && !hold then clampI (-(Config.tiltHalfDeg : Int)) Config.tiltHalfDeg u.tilt.word else match m.st with
    | .off => rampDown (m.drive 2) m.ticks
    | .failed => rampDown (m.drive 2) m.ticks
    | _ => m.drive 2
  let a := if m.st == .off || m.st == .failed then rampDown (m.drive 3) m.ticks else sa
  s.updMs b p (fun m => { m with drives := [f, t, g, a], ticks := m.ticks + 1, clock := m.clock + 1 })

/-! ### Tunes (R172, R173) -/

/-- The loop of a pickup that a selection names. -/
def Pickup.loop (u : Pickup) (lp : LoopSel) : Loop :=
  match lp with
  | .focus => u.focus
  | .track => u.track
  | .tilt => u.tilt

/-- A pickup with one loop changed. -/
def Pickup.updLoop (u : Pickup) (lp : LoopSel) (g : Loop → Loop) : Pickup :=
  match lp with
  | .focus => { u with focus := g u.focus }
  | .track => { u with track := g u.track }
  | .tilt => { u with tilt := g u.tilt }

/-- The loop that a pickup tunes. -/
def Pickup.tuning (u : Pickup) : Option LoopSel :=
  if u.focus.tune.isSome then some .focus else if u.track.tune.isSome then some .track else none

/-- The number of a loop in event parameters. -/
def loopNum : LoopSel → Nat
  | .focus => 0
  | .track => 1
  | .tilt => 2

/-- The conditions of R172. -/
def State.tuneOk (s : State) (b : BayId) (p : Pu) : Bool :=
  let u := s.pu b p
  u.ms.st == .follow && u.write.block.isNone && u.cur.isNone && u.reads.isEmpty && !s.coresHeld

/-- A tune ends without a bank: the live bank as it was, `EV_LOOP_TUNE_FAIL` (R173, R175). -/
def State.tuneFails (s : State) (b : BayId) (p : Pu) (lp : LoopSel) : State := s.raisePu b p 4 .loopTuneFail p.idx (loopNum lp) 0

/-- The tune of a pickup is abandoned (R172, R173): the live bank is restored. -/
def State.abandonTune (s : State) (b : BayId) (p : Pu) : State :=
  match (s.pu b p).tuning with
  | some lp => (s.updPu b p (fun u => u.updLoop lp (fun x => { x with tune := none, fresh := true }))).tuneFails b p lp
  | none => s

/-! ### The loops of one tick -/

/-- Following banks may be swapped now (R169). -/
def State.followSwapOk (s : State) (b : BayId) (p : Pu) : Bool :=
  let u := s.pu b p
  if u.ms.st == .follow then u.write.block.isNone else u.ms.st != .swathJump && u.ms.st != .layerJump

/-- A supervisor check of a loop fails (R171): a bank swapped in lately is reverted, a tune ends, the loop unlocks. The one bank of the
tilt loop serves both modes. -/
def State.supervisorTrip (s : State) (b : BayId) (p : Pu) (lp : LoopSel) (check : Nat) : State :=
  let within := s.liveN .cengSupRevertTicks
  let x := (s.pu b p).loop lp
  let put := fun (s : State) (g : Loop → Loop) => s.updPu b p (fun u => u.updLoop lp g)
  let s := s.raisePu b p 4 .loopSupervisor p.idx (loopNum lp) check
  let late := match x.swapAge with
    | some n => decide (n ≤ within)
    | none => false
  let s := if late && x.revert.isSome then
      (put s (fun x => { x with
        follow := x.revert, acq := if lp == .tilt then x.revert else x.acq, revert := none, swapAge := none, fresh := true, lastTune := none
        aside := x.aside || x.swapSrc == .image })).raisePu b p 4 .loopBankRevert p.idx (loopNum lp) 0
    else s
  let s := if x.tune.isSome then (put s (fun x => { x with tune := none, fresh := true })).tuneFails b p lp else s
  let s := put s Loop.unlock
  s.updPu b p (fun u => if lp == .focus then { u with track := u.track.unlock } else u)

/-- Supervisor checks fail on a tick, each a loop and a check (R171): the loops trip, and the pickup recovers. -/
def State.supervisorFails (s : State) (b : BayId) (p : Pu) (fs : List (LoopSel × Nat)) : State :=
  if fs.isEmpty then s
  else (fs.foldl (fun s f => s.supervisorTrip b p f.1 f.2) s).enterRecover b p .ordinary

/-- The swaps that are due on a computed tick (R168, R169), logged by the datapath. An image's following bank sets the tuned one of its
loop aside (R175). -/
def State.swapsDue (s : State) (b : BayId) (p : Pu) (tick : Nat) : State :=
  let ok := s.followSwapOk b p
  let u := s.pu b p
  let any := (u.focus.armed ++ u.track.armed).any (fun a => a.due tick ok false) || u.tilt.armed.any (fun a => a.due tick ok true)
  let image := fun (x : Loop) => x.armed.any (fun a => a.due tick ok false && a.kind == .follow && a.src == .image)
  let s := s.updPu b p (fun u => { u with
    focus := u.focus.swapDue tick ok false, track := u.track.swapDue tick ok false, tilt := u.tilt.swapDue tick ok true
    cal := { u.cal with
      differs := u.cal.differs || (image u.focus && u.cal.tunedF.isSome) || (image u.track && u.cal.tunedT.isSome)
      tunedF := if image u.focus then none else u.cal.tunedF, tunedT := if image u.track then none else u.cal.tunedT } })
  if any then s.logDp b (some p) tick 32 else s

/-- The tilt update is due on this tick: every sixteenth (R162). -/
def Motion.tiltDue (m : Motion) : Bool := m.clock % 16 == 15

/-- Focus or tracking of a computed tick: by its law, or by the relay of its tune (R165, R173); held in a recovery. -/
def State.loopSample (s : State) (m : Motion) (x : Loop) (e : Int) (held active : Bool) : Loop × Option Nat :=
  let settle := s.liveN .cengSupSettleTicks
  match x.tune with
  | some t => x.relay t m.clock (s.liveN .cengTuneCycles) (s.live .cengTuneHyst) e (s.live .cengTuneRelayD) active settle
  | none => if held then (x, none) else x.sample e active settle

/-- A tune aborts on this tick (R173): the error beyond its part of the unlock limit, or the conditions of R172 gone. -/
def State.tuneAborts (s : State) (b : BayId) (p : Pu) (fe te : Int) : Bool :=
  let past := fun (e : Int) (f : Field) => decide (s.liveN .cengTuneAbortPct * nmUnits (s.liveN f) < e.natAbs * 100)
  match (s.pu b p).tuning with
  | some .focus => past fe .loopFocusUnlockNm || !s.tuneOk b p
  | some _ => past te .loopTrackUnlockNm || !s.tuneOk b p
  | none => false

/-- Focus, tracking and tilt of a computed tick, with the swaps due on it (R168), the supervisor (R170) and the lock counters
(R143). -/
def State.runLoops (s : State) (b : BayId) (p : Pu) (v : Servo) (fe te : Int) : State :=
  let s := if s.tuneAborts b p fe te then s.abandonTune b p else s
  let s := s.swapsDue b p v.tick
  let u := s.pu b p
  let m := u.ms
  let active := m.st != .swathJump && m.st != .layerJump && m.st != .seek
  let hold := m.st == .recover
  let (fx, ff) := s.loopSample m u.focus fe (hold && !u.focus.locked) active
  let (tx, tf) := s.loopSample m u.track te hold active
  -- tilt: the mean of the computed ticks among 16
  let acc := v.tl :: m.tiltAcc
  let mean := acc.foldl (fun a x => a + x) 0 / (acc.length : Int)
  let tilting := u.tilt.closed && m.tiltDue && !u.sheet.sheetHold && !hold
  let (gx, gf) := if tilting then u.tilt.sample (u.cal.error m.layer 2 mean) active (s.liveN .cengSupSettleTicks) else (u.tilt, none)
  -- lock counters
  let low := v.focusSum * 100 < s.liveN .loopFocusSumMinPct * u.cal.sum m.layer
  let fl := nmUnits (s.liveN .loopFocusLockNm)
  let fu := nmUnits (s.liveN .loopFocusUnlockNm)
  let tl := nmUnits (s.liveN .loopTrackLockNm)
  let tu := nmUnits (s.liveN .loopTrackUnlockNm)
  let s := s.updPu b p (fun u => { u with
    focus := if fx.closed then fx.count fe.natAbs fl fu low else fx
    track := if tx.closed then tx.count te.natAbs tl tu false else tx
    tilt := gx, ms := { u.ms with tiltAcc := if m.tiltDue then [] else acc } })
  s.supervisorFails b p (ff.toList.map (fun c => (.focus, c)) ++ tf.toList.map (fun c => (.track, c)) ++ gf.toList.map (fun c => (.tilt, c)))

/-- A slip (R143): the tracking error of one tick beyond `loop.track.slip_nm`. -/
def State.slipCheck (s : State) (b : BayId) (p : Pu) (te : Int) : State :=
  if (s.pu b p).track.locked && nmUnits (s.liveN .loopTrackSlipNm) < te.natAbs then
    let s := s.updPu b p (fun u => { u with cnt := { u.cnt with slips := u.cnt.slips + 1 } })
    (s.raisePu b p 4 .loopSlip).loseLock b p false
  else s

/-- Sweeps, kicks and jumps of one tick. -/
def State.runSweeps (s : State) (b : BayId) (p : Pu) (v : Servo) : State :=
  let u := s.pu b p
  let m := u.ms
  let sumOk := s.liveN .loopFocusSumMinPct * u.cal.sum 0 < v.focusSum * 100
  match m.st with
  | .focusSearch =>
    if u.focus.closed then s
    else
      let step := Config.sweepStep (s.bndN (.pickup b p) .loopFocusSweepUmMs)
      let (w, hit) := m.sweep.see v.fe sumOk (u.cal.peak 0)
      let w := w.move step
      let s := s.updMs b p (fun m => { m with sweep := w })
      if hit && w.count == w.goal then
        s.updPu b p (fun u => { u with focus := u.focus.close w.pos, ms := { u.ms with layer := u.ms.tgtLayer } })
      else if w.turned && w.pos == -32767 && !w.seen then s.noDisc b p
      else s
  | .recover =>
    if m.recap && !u.focus.closed then
      let (w, hit) := m.sweep.see v.fe sumOk (u.cal.peak 0)
      let s := s.updMs b p (fun m => { m with sweep := w })
      if hit then s.updPu b p (fun u => { u with focus := u.focus.close (u.ms.drive 0) }) else s
    else s
  | .layerJump =>
    if !m.kicked then
      if m.since + s.bndN (.pickup b p) .loopLayerSaRampUs ≤ s.us then
        let code := s.saSet b p m.tgtLayer
        s.updPu b p (fun u => { u with
          focus := u.focus.open'
          ms := { u.ms with kicked := true, saCode := code, ticks := 0, sweep := { u.ms.sweep with pos := u.ms.drive 0, count := 0 } } })
      else s
    else if u.focus.closed then s
    else
      let (w, hit) := m.sweep.see v.fe sumOk (u.cal.peak 0)
      let s := s.updMs b p (fun m => { m with sweep := w })
      if hit && w.count == w.goal then
        s.updPu b p (fun u => { u with focus := u.focus.close (u.ms.drive 0), ms := { u.ms with layer := u.ms.tgtLayer } })
      else s
  | .swathJump =>
    match m.jump with
    | some j =>
      let j' := j.see (v.pp 0) sumOk (Config.groovePeak m.layer)
      let s := s.updMs b p (fun m => { m with jump := some j' })
      if j'.braked && !j.braked then s.updPu b p (fun u => { u with track := u.track.close (u.ms.drive 1) }) else s
    | none => s
  | _ => s

/-- The number of a pickup of the shelf. -/
def puNo (b : BayId) (p : Pu) : Nat := 2 * b.val + p.idx

/-- The mean tracking displacement after a tick (R149), in 1/65,536 µm. -/
def State.followMean (s : State) (b : BayId) (p : Pu) : State :=
  let tau := s.bndN (.pickup b p) .loopSledTauMs * 480
  s.updMs b p (fun m => { m with dispMean := m.dispMean + rnd (Config.actuatorUm (puNo b p) (m.drive 1) - m.dispMean) (max tau 1) })

/-- The emitter-array temperature departs from that of the last accepted set (R357). -/
def State.tempTrigger (s : State) (b : BayId) (p : Pu) : State :=
  let u := s.pu b p
  let t := u.link.servo.temp.getD 0 0
  if s.liveN .calDeltaC * 64 < (t - u.cal.temp).natAbs ∧ u.ms.st == .follow ∧ !u.cal.trig then
    s.updPu b p (fun u => { u with cal := { (u.cal.makePending s.us u.ms.layer [1, 2, 3, 4, 5, 6, 9] false) with trig := true } })
  else s

/-- A computed tick (R162): loops, sweeps, gate, drives, `SERVO_CMD`. -/
def State.computeTick (s : State) (b : BayId) (p : Pu) (v : Servo) : State :=
  let u := s.pu b p
  let fe := u.cal.error u.ms.layer 0 v.fe
  let te := u.cal.error u.ms.layer 1 v.te
  let s := s.runLoops b p v fe te
  let s := s.slipCheck b p te
  let s := s.runSweeps b p v
  let s := s.evalGate b p (s.writeConditions b p fe te)
  let s := (s.setDrives b p).followMean b p
  s.servoCmd b p v.tick v.tq

/-- A tick n that counts as missing, with the link time of its samples (R164, R176): the closed loops' words repeat, no filter or counter
moves, jump profiles go on, the gate fails for it. A tilt update that falls on it is left out with its mean.
Log 55 (DEDUCED). -/
def State.missTick (s : State) (b : BayId) (p : Pu) (tick tq : Nat) : State :=
  let s := s.updPu b p (fun u => { u with
    link := { u.link with missTick := u.link.missTick + 1 }, ms := { u.ms with tiltAcc := if u.ms.tiltDue then [] else u.ms.tiltAcc } })
  let s := s.evalGate b p false
  let s := s.setDrives b p
  s.servoCmd b p tick tq

/-- A tick of a unit that no spare took (R177): the link port goes on by itself, with `LASER` = 0 and the drives on their ramp to 0. -/
def State.deadTick (s : State) (b : BayId) (p : Pu) (tick tq : Nat) : State := (s.setDrives b p).servoCmd b p tick tq

/-- With the laser permit low a pickup is taken to `OFF` (Table 07-3). -/
def State.permitTick (s : State) (b : BayId) (p : Pu) : State :=
  let m := (s.pu b p).ms
  if (s.safeBay b).lsafe || m.st == .off || m.st == .failed then s else s.puOff b p

end Sys2Proof.Machine
end

