-- ==== Sys2Proof/Machine/ServoRows.lean ====
section
/-! DEFINITION. The commands of the pickup units: servo frames, missing ticks, locks, bank swaps, recovery, tunes, and the control
engines (07_pickup_loops.md, 08_control_engines.md). -/

namespace Sys2Proof.Machine

/-! ### Row changes (R64, R94) -/

/-- The link time nearest to a reference that 32 bits name (Table 02-5). -/
def near32 (ref v : Nat) : Int := (ref : Int) + signedOf 32 ((v + 2 ^ 32 - ref % 2 ^ 32) % 2 ^ 32)

/-- A change of rows is known with its instant (R64): the head module has made it, and the channel switches at that instant. -/
def State.applyRows (s : State) (b : BayId) (p : Pu) (rows : BitVec 18) (at' : Nat) : State :=
  s.updPu b p (fun u => { u with
    link := { u.link with rows := rows, rowReq := none }
    sheet := { u.sheet with swap := some (rows, near32 u.link.servo.tq at') } })

/-- `ROW_SWITCH_TIMEOUT` (R64): no report within 6 µs after `ROWAPPLY`; the channel switches at `ROWAPPLY`. The `SERVO` frames
accepted since show the time that has passed. -/
def execRowSwitchTimeout (b : BayId) (p : Pu) (s : State) : Host.Outcome State Fault Refusal :=
  withBay b s (fun s =>
    match (s.link b p).rowReq with
    | some r =>
      let past := ((s.link b p).servo.tq + 2 ^ 32 - r.apply) % 2 ^ 32
      if s.portUp b p && 3072 ≤ past && past < 2 ^ 31 then s.applyRows b p r.rows r.apply else s
    | none => s)

/-! ### Units and engines (R176 to R181) -/

/-- The code of a unit within its bay, in event parameters and takeovers: 0 and 1 the pickups, 2 the motor unit. -/
def unitCode : UnitSel → Nat
  | .pickup .A => 0
  | .pickup .B => 1
  | .motor => 2

/-- The engine of a unit. -/
def unitEngine (b : BayId) : UnitSel → Nat
  | .pickup p => engineOf b (some p)
  | .motor => engineOf b none

/-- The number a handover of a unit has among the takeovers: 16 and up.
Log 46 (DEDUCED). -/
def handoverNo (b : BayId) (u : UnitSel) : Nat := 16 + 3 * b.val + unitCode u

/-- A unit has found no spare and no longer works (R177).
Log 26 (DEDUCED). -/
def State.unitDead (s : State) (b : BayId) (u : UnitSel) : Bool := s.blk.dead.contains (b, u)

/-- Core-started transitions of a unit can be made: its cores are not held and no takeover of its engine runs (R144, R179). -/
def State.coreStarts (s : State) (b : BayId) (u : UnitSel) : Bool :=
  !s.coresHeld && !s.unitDead b u
    && !s.blk.takeovers.any (fun t => t.kind == 5 && t.region == regionOf b && t.inst == unitEngine b u)

/-- Every unit of an engine. -/
def engineUnits (r e : Nat) : List (BayId × UnitSel) :=
  (allBays.filter (fun b => regionOf b == r)).flatMap (fun b =>
    ([.pickup .A, .pickup .B, .motor] : List UnitSel).filterMap (fun u => if unitEngine b u == e then some (b, u) else none))

/-- A unit that no spare takes stops (R177): a pickup is ramped to `OFF` by its link port; a spindle is braked by a commanded
stop. -/
def State.killUnit (s : State) (b : BayId) (u : UnitSel) : State :=
  let s : State := { s with blk := { s.blk with dead := if s.blk.dead.contains (b, u) then s.blk.dead else (b, u) :: s.blk.dead } }
  match u with
  | .pickup p => s.puOff b p
  | .motor => (s.commandStop b).askHold b

/-- The two lanes of a unit differ (R176): the unit moves to a free unit of the region's spare engine, or stops. The other units of its
engine follow while the spare has free units (R177); the others go on where they are.
Log 55 (DEDUCED). -/
def State.unitMismatch (s : State) (b : BayId) (u : UnitSel) : State :=
  let r := regionOf b
  let s := s.regionEvent r 4 .cengMismatch b.val (unitCode u) 0
  let spare := s.blkOf ⟨5, r, 6⟩
  let used := (s.blk.moved.filter (fun e => regionOf e.1 == r)).length
  if spare.up && spare.serves.isNone && used < 4 && !s.blk.moved.contains (b, u) then
    let e := unitEngine b u
    let rest := (engineUnits r e).filter (fun x => x != (b, u) && !s.blk.moved.contains x && !s.blk.dead.contains x)
    let s : State := { s with blk := { s.blk with
      moved := rest.take (3 - used) ++ (b, u) :: s.blk.moved, takeovers := ⟨r, 5, handoverNo b u, s.us⟩ :: s.blk.takeovers } }
    -- the unit's engine stays out of service from now on (R177)
    let x := s.blkOf ⟨5, r, e⟩
    if x.st == .failed then s else s.setBlk { x with st := .failed }
  else (s.regionEvent r 4 .cengNoSpare b.val (unitCode u) 0).killUnit b u

/-- `UNIT_HANDOVER_DONE` (R176): the spare unit has computed its first tick. -/
def execUnitHandoverDone (b : BayId) (u : UnitSel) (s : State) : Host.Outcome State Fault Refusal :=
  withBay b s (fun s =>
    let r := regionOf b
    if s.blk.takeovers.any (fun t => t.region == r && t.kind == 5 && t.inst == handoverNo b u) then
      let s : State := { s with blk := { s.blk with
        takeovers := s.blk.takeovers.filter (fun t => !(t.region == r && t.kind == 5 && t.inst == handoverNo b u)) } }
      s.regionEvent r 4 .cengSpare b.val (unitCode u) 0
    else s)

/-- What a checkpoint holds of a unit (R178): the state of its pickup or bay, its transition targets, seek plan, its banks by check word and
the tune's progress.
Log 56 (DESIGN CHOICE). -/
def State.unitCk (s : State) (b : BayId) (u : UnitSel) : Bytes :=
  let bankId := fun (k : Option Bank) => match k with
    | some k => slice (bankBytes k) 124 4
    | none => zeros 4
  match u with
  | .pickup p =>
    let x := s.pu b p
    let m := x.ms
    let loop := fun (l : Loop) => bankId l.acq ++ bankId l.follow ++ bankId l.shAcq ++ bankId l.shFollow ++ bankId l.revert
      ++ [BitVec.ofNat 8 (l.armed.length)] ++ (match l.tune with
        | some t => leBytes 1 t.turns ++ leBytes 1 t.cycles.length
        | none => zeros 2)
    leBytes 1 b.val ++ leBytes 1 p.idx ++ leBytes 1 m.st.code ++ leBytes 8 m.since ++ leBytes 1 m.hasTarget.toNat ++ leBytes 1 m.tgtLayer
      ++ leBytes 1 (match m.tgtZone with
        | .data => 0
        | .leadIn => 1)
      ++ leBytes 4 m.tgtFrame ++ loop x.focus ++ loop x.track ++ loop x.tilt
  | .motor =>
    let y := s.bay b
    let plan := fun (x : Sled) => match x.plan with
      | some q => [1#8] ++ leBytes 8 (unsignedOf 64 q.target)
      | none => zeros 9
    leBytes 1 b.val ++ [2#8] ++ leBytes 1 y.spindle.st.code ++ leBytes 8 y.spindle.since ++ leBytes 8 (unsignedOf 64 y.spindle.goal)
      ++ bankId y.spindle.bankI ++ bankId y.spindle.bankS ++ leBytes 1 y.spindle.armed.length ++ leBytes 8 y.radius
      ++ plan y.sledA ++ plan y.sledB

/-- The units an engine computes: its own, or those moved to the spare. -/
def State.unitsOf (s : State) (r e : Nat) : List (BayId × UnitSel) :=
  let own := s.blk.moved.filter (fun x => regionOf x.1 == r)
  if e = 6 then own else (engineUnits r e).filter (fun x => !own.contains x)

/-- A checkpoint record of an engine (R178): its sequence number, its units, the events it queues, and the CRC-32.
Log 56 (DESIGN CHOICE). -/
def State.ckRecord (s : State) (r e seq : Nat) (queued : List EvRec) : Bytes :=
  sealRecord 32768 (leBytes 8 seq ++ (s.unitsOf r e).flatMap (fun x => s.unitCk x.1 x.2) ++ queued.flatMap (fun q => evBytes q 0 false))

/-- The sequence number of a checkpoint record that verifies; 0 for none. -/
def ckSeq (r : Bytes) : Nat := if recordGood 32768 r then leAt r 0 8 else 0

/-- The newest checkpoint record that verifies (R178, R179). -/
def EngCk.newest (c : EngCk) : Option Bytes :=
  if ckSeq c.recA = 0 ∧ ckSeq c.recB = 0 then none else some (if ckSeq c.recA < ckSeq c.recB then c.recB else c.recA)

/-- `CENG_CHECKPOINT` (R178): every 100 µs, while the core runs. The two records alternate. -/
def execCengCheckpoint (r : RegionId) (e : Fin 7) (s : State) : Host.Outcome State Fault Refusal :=
  withRegion r s (fun s =>
    let c := s.engCk r.val e.val
    if s.coresHeld || !(s.blkOf ⟨5, r.val, e.val⟩).up || s.us < c.at' + 100 then s
    else
      let q := s.ckRecord r.val e.val (c.seq + 1) (s.evQueue r.val e.val).recs
      s.setEngCk { c with
        seq := c.seq + 1, at' := s.us, recA := if c.seq % 2 = 0 then q else c.recA, recB := if c.seq % 2 = 0 then c.recB else q })

/-- A control engine is faulty (R179): its core is fenced; its datapath runs on while the spare takes over, unless the spare is in
use. Bays whose motor unit stops for good are asked to be held (R382). -/
def State.engineFaulty (s : State) (r e code : Nat) : State :=
  let s := s.regionEvent r 4 .cengCoreFault e code 0
  let own := s.blk.moved.filter (fun x => regionOf x.1 == r)
  let units := s.unitsOf r e
  let s := units.foldl (fun s x => match x.2 with
    | .pickup p => (s.failCurrent x.1 p).updPu x.1 p Pickup.cancelSwaps
    | .motor => s.updSp x.1 (fun y => { y with armed := [] })) s
  let s := s.fence ⟨5, r, e⟩
  let (got, s) := if e < 6 && own.isEmpty then s.claimSpare ⟨5, r, e⟩ else (none, s.degrade r)
  match got with
  | some _ => { s with blk := { s.blk with takeovers := ⟨r, 5, e, s.us⟩ :: s.blk.takeovers } }
  | none =>
    if units.isEmpty then s
    else
      let s := s.regionEvent r 4 .cengNoSpare e 0 0
      units.foldl (fun s x => s.killUnit x.1 x.2) s

/-- `CENG_CORE_FAULT` (R179). -/
def execCengCoreFault (r : RegionId) (e : Fin 7) (cause : FaultCause) (s : State) : Host.Outcome State Fault Refusal :=
  withRegion r s (fun s =>
    let code := match cause with
      | .check => 0
      | .store => 1
      | .stall => 2
    if s.sysHeld || !(s.blkOf ⟨5, r.val, e.val⟩).up then s else s.engineFaulty r.val e.val code)

/-- `CENG_TAKEOVER_DONE` (Table 08-5): the spare core takes the newest checkpoint of the engine that verifies as its own, with the
transition log, whose states win: the datapath holds them. Every unit moves at one tick boundary. -/
def execCengTakeoverDone (r : RegionId) (s : State) : Host.Outcome State Fault Refusal :=
  withRegion r s (fun s =>
    match s.blk.takeovers.find? (fun t => t.region == r.val && t.kind == 5 && t.inst < 6) with
    | some t =>
      let units := engineUnits r.val t.inst
      let s : State := { s with blk := { s.blk with
        takeovers := s.blk.takeovers.filter (fun x => !(x.region == r.val && x.kind == 5 && x.inst == t.inst))
        moved := units ++ s.blk.moved.filter (fun x => !units.contains x) } }
      let c := s.engCk r.val t.inst
      let own := (c.newest).getD []
      let s := s.setEngCk { c with engine := 6, seq := ckSeq own, recA := own, recB := [] }
      s.regionEvent r.val 4 .cengSpare t.inst 0 0
    | none => s)

/-! ### Servo frames (R56, R162) -/

/-- A `SERVO` frame accepted for its tick (R56): the link's counters, `WABORT`, the row reported, then the tick itself, or a
held tick where the lanes of the unit differ (R176). -/
def State.acceptServo (s : State) (b : BayId) (p : Pu) (v : Servo) (upset : Bool) : State :=
  let old := (s.link b p).servo
  let now := s.us
  let tol := s.liveN .calElemMonTolPct
  let s := s.updPu b p (fun u => ({ u with link := { u.link with
    servo := v, servoAt := now, tickNext := some ((v.tick + 1) % 65536), absent := 0, missTick := if upset then u.link.missTick else 0
    seqStall := if v.dnseq = old.dnseq then u.link.seqStall + 1 else 0 } } : Pickup).monitor tol)
  let s := if v.wabort then s.failCurrent b p else s
  let s := if v.rowNow != (s.link b p).rows && (s.link b p).rowReq.isSome then s.applyRows b p v.rowNow v.rowAt else s
  if s.unitDead b (.pickup p) then s.deadTick b p v.tick v.tq
  else
    let s := s.permitTick b p
    if upset then (s.missTick b p v.tick v.tq).unitMismatch b (.pickup p)
    else (s.computeTick b p v).tempTrigger b p

/-- A `SERVO` frame is of the tick expected next or a later one: a second copy, and a copy of a tick declared missing, are
discarded (R56). Tick numbers count modulo 65,536. -/
def HLink.tickNew (l : HLink) (tick : Nat) : Bool := l.tickNext.all (fun n => decide ((tick + 65536 - n) % 65536 < 32768))

/-- `HLINK_SERVO_FRAME` (R56): the first copy of a tick that passes its check; the other is discarded. -/
def execHlinkServoFrame (b : BayId) (p : Pu) (l : PhysLane) (raw : Bytes) (upset : Bool) (s : State) :
    Host.Outcome State Fault Refusal :=
  withBay b s (fun s =>
    if s.portUp b p && (s.link b p).live then
      let (fs, s) := s.rxLane b p l raw
      fs.foldl (fun s f =>
        if frGood f && frType f == 2 && (s.link b p).tickNew (servoOf f).tick then s.acceptServo b p (servoOf f) upset else s) s
    else s)

/-- `SERVO_TICK_MISSING` (R56, R164). -/
def execServoTickMissing (b : BayId) (p : Pu) (s : State) : Host.Outcome State Fault Refusal :=
  withBay b s (fun s =>
    if s.portUp b p && (s.link b p).live then
      let s := s.updLink b p (fun l => { l with absent := l.absent + 1, tickNext := l.tickNext.map (fun n => (n + 1) % 65536) })
      let l := s.link b p
      let tick := (l.servo.tick + l.absent) % 65536
      let tq := l.servo.tq + 3200 * l.absent / 3
      if s.unitDead b (.pickup p) then s.deadTick b p tick tq else (s.permitTick b p).missTick b p tick tq
    else s)

/-- `MISSED_TICK_UNLOCK` (R164). -/
def execMissedTickUnlock (b : BayId) (p : Pu) (s : State) : Host.Outcome State Fault Refusal :=
  withBay b s (fun s =>
    if s.portUp b p && s.liveN .cengMissMax ≤ (s.link b p).missTick then
      let s := s.updPu b p (fun u => { u with focus := u.focus.unlock, track := u.track.unlock })
      s.enterRecover b p .ordinary
    else s)

/-! ### Locks (R143) -/

/-- The entry to a layer for the first time since the mount makes items 5, 6 and 8 pending for it (R357). -/
def State.noteLayer (s : State) (b : BayId) (p : Pu) : State :=
  let u := s.pu b p
  if u.cal.seen.contains u.ms.layer then s
  else
    s.updPu b p (fun u => { u with cal :=
      { (u.cal.makePending s.us u.ms.layer [5, 6, 8] false) with seen := u.ms.layer :: u.cal.seen } })

/-- `LOOP_LOCK` (R143, Table 07-3). Tilt has no lock limits. -/
def execLoopLock (b : BayId) (p : Pu) (lp : LoopSel) (s : State) : Host.Outcome State Fault Refusal :=
  withBay b s (fun s =>
    let u := s.pu b p
    match lp with
    | .tilt => s
    | .focus =>
      if u.focus.closed && !u.focus.locked && s.bndN (.pickup b p) .loopFocusLockTicks ≤ u.focus.within then
        let s := s.updPu b p (fun u => { u with focus := u.focus.lock })
        match u.ms.st with
        | .focusSearch => s.enterTrackPull b p
        | .layerJump => s.updPu b p (fun u => { u with track := u.track.close (u.ms.drive 1) })
        | _ => s
      else s
    | .track =>
      let n := if u.ms.st == .swathJump then s.bndN (.pickup b p) .loopJumpLockTicks else s.bndN (.pickup b p) .loopTrackLockTicks
      if u.track.closed && !u.track.locked && u.focus.locked && n ≤ u.track.within then
        let s := s.updPu b p (fun u => { u with track := u.track.lock })
        match u.ms.st with
        | .trackPull => (s.enterAcquire b p).noteLayer b p
        | .layerJump =>
          let s := s.updPu b p (fun u => { u with tilt := u.tilt.close (u.ms.drive 2) })
          (s.enterAcquire b p).noteLayer b p
        | .swathJump =>
          let back := (u.ms.jump.map (fun j => j.back)).getD .follow
          let s := s.updMs b p (fun m => { m with jump := none })
          if back == .acquire then s.enterAcquire b p else s.enterFollow b p
        | _ => s
      else s)

/-- `LOOP_UNLOCK` (R143, R155): 4 ticks beyond the unlock limit, or of a low focus sum. -/
def execLoopUnlock (b : BayId) (p : Pu) (lp : LoopSel) (s : State) : Host.Outcome State Fault Refusal :=
  withBay b s (fun s =>
    let u := s.pu b p
    match lp with
    | .tilt => s
    | .focus => if u.focus.locked && (4 ≤ u.focus.beyond || 4 ≤ u.focus.lowSum) then s.loseLock b p true else s
    | .track => if u.track.locked && 4 ≤ u.track.beyond then s.loseLock b p false else s)

/-! ### Banks (R166 to R169) -/

/-- `BANK_SWAP_ARM` (R166, R168): a bank that is not well-formed is refused with its event; an armed swap waits for its tick, and, with a
following bank, for R169's condition. A following bank from the image that a supervisor failure has set aside stays so (R171). -/
def execBankSwapArm (b : BayId) (slot : BankSlot) (p : Pu) (src : BankSource) (bank : Bytes) (tick : Nat) (s : State) :
    Host.Outcome State Fault Refusal :=
  withBay b s (fun s =>
    let motor := slot == .current || slot == .speed
    let unit : UnitSel := if motor then .motor else .pickup p
    let loopNo := match slot with
      | .focusAcq => 0
      | .focusFollow => 0
      | .trackAcq => 1
      | .trackFollow => 1
      | .tilt => 2
      | .current => 3
      | .speed => 4
    if !s.coreStarts b unit then s
    else if !bankGood bank then
      if motor then s.raiseBay b 0 .loopBankReject 2 loopNo 0 else s.raisePu b p 4 .loopBankReject p.idx loopNo 0
    else
      let k := bankOf bank
      let arm := fun (x : Loop) (kd : BankKind) => { x with armed := x.armed ++ [⟨kd, src, tick⟩] }
      let put := fun (x : Loop) (g : Loop → Loop) => if src == .image && x.aside then x else g x
      match slot with
      | .focusAcq => s.updPu b p (fun u => { u with focus := arm { u.focus with shAcq := some k } .acq })
      | .trackAcq => s.updPu b p (fun u => { u with track := arm { u.track with shAcq := some k } .acq })
      | .focusFollow => s.updPu b p (fun u => { u with focus := put u.focus (fun x => arm { x with shFollow := some k } .follow) })
      | .trackFollow => s.updPu b p (fun u => { u with track := put u.track (fun x => arm { x with shFollow := some k } .follow) })
      | .tilt => s.updPu b p (fun u => { u with
          tilt := put u.tilt (fun x => arm (arm { x with shAcq := some k, shFollow := some k } .acq) .follow) })
      | .current => s.updSp b (fun x => { x with shI := some k, armed := x.armed ++ [(slot, tick)] })
      | .speed => s.updSp b (fun x => { x with shS := some k, armed := x.armed ++ [(slot, tick)] }))

/-! ### Starts, recovery, rest (R144, R149, R152, R155, R156) -/

/-- `PICKUP_FOCUS_SEARCH_START` (Table 07-3): core-started at speed ready, with the link up and the laser permit high. -/
def execPickupFocusSearchStart (b : BayId) (p : Pu) (s : State) : Host.Outcome State Fault Refusal :=
  withBay b s (fun s =>
    let u := s.pu b p
    if u.ms.st == .off && (s.bay b).spindle.ready && u.link.live && s.portUp b p && !u.cal.retired && (s.safeBay b).lsafe
        && s.coreStarts b (.pickup p) then
      s.enterFocusSearch b p
    else s)

/-- `RECOVER_HOLD_END` (R155, R156): the ladder begins after `loop.recover.hold_us`. -/
def execRecoverHoldEnd (b : BayId) (p : Pu) (s : State) : Host.Outcome State Fault Refusal :=
  withBay b s (fun s =>
    let u := s.pu b p
    if u.ms.st == .recover && !u.ms.recap && u.ms.since + s.liveN .loopRecoverHoldUs ≤ s.us then
      if u.ms.cause == .layerTries then s.enterFocusSearch b p
      else if u.focus.locked && u.ms.cause != .focusSuspect then s.enterTrackPull b p
      else
        let n := s.bndN (.pickup b p) .loopFocusRecapLayers
        s.updPu b p (fun u => { u with
          focus := u.focus.open', track := u.track.open'
          ms := { u.ms with
            recap := true, since := s.us, ticks := 0, sweep := ⟨0, n, 1, u.ms.drive 0, false, 0, 0, false⟩ } })
    else s)

/-- `LOCAL_RECAPTURE_END` (R156): focus has closed on an S-curve, and tracking pulls in; or the limit has come, and a full search
begins. -/
def execLocalRecaptureEnd (b : BayId) (p : Pu) (s : State) : Host.Outcome State Fault Refusal :=
  withBay b s (fun s =>
    let u := s.pu b p
    if u.ms.st == .recover && u.ms.recap then
      if u.focus.closed then s.enterTrackPull b p
      else if u.ms.since + s.bndN (.pickup b p) .loopFocusRecapUs ≤ s.us then s.enterFocusSearch b p
      else s
    else s)

/-- `PICKUP_FAILED_RETRY` (R156). -/
def execPickupFailedRetry (b : BayId) (p : Pu) (s : State) : Host.Outcome State Fault Refusal :=
  withBay b s (fun s =>
    let u := s.pu b p
    if u.ms.st == .failed && !u.cal.retired && s.coreStarts b (.pickup p)
        && u.ms.since + 1000000 * s.liveN .loopRecoverRetryS ≤ s.us then
      s.enter b p .off
    else s)

/-- A pickup in `FOLLOW` has no target and no work (R149). -/
def Pickup.resting (u : Pickup) : Bool :=
  u.ms.st == .follow && !u.ms.hasTarget && u.cur.isNone && u.reads.isEmpty && u.write.block.isNone

/-- The prediction after a swath jump (R129, R148): the landing address and the position of its wedge, N frames per swath from the place
left. The wedges of two swaths have no interval. -/
def State.predictJump (s : State) (b : BayId) (p : Pu) (n : Int) : State :=
  let at' := (s.pu b p).sheet.predict
  let turn := framesPerTurnMilli (radiusOf at'.zone at'.frame)
  let d := n * (turn / 1000 : Nat)
  s.updSheet b p (fun x => { x with
    timed := false
    lastPos := x.lastPos - n * (turn % 1000 : Nat) * x.interval / 1000
    predict := { x.predict with frame := ((x.predict.frame : Int) + d).toNat }
    lastConf := { x.lastConf with frame := ((x.lastConf.frame : Int) + d).toNat } })

/-- `REST_LOOP_JUMP` (R149): made by the datapath, also through a core reset. -/
def execRestLoopJump (b : BayId) (p : Pu) (s : State) : Host.Outcome State Fault Refusal :=
  withBay b s (fun s =>
    let u := s.pu b p
    match u.ms.rest with
    | some t =>
      if (u.resting || (s.mustRest b p && u.ms.st == .follow && u.cur.isNone && u.write.block.isNone)) && u.sheet.unconf.isEmpty && !s.unitDead b (.pickup p)
          && t + s.liveN .loopRestTurns ≤ turnOf u.sheet.lastConf.zone u.sheet.lastConf.frame then
        (s.predictJump b p (-1)).startJump b p (-1)
      else s
    | none => s)

/-- The trim of R152 is frozen: outside a read in `FOLLOW`, while a pass block runs, in sheet hold, in the lead-in zone. -/
def Pickup.trimFrozen (u : Pickup) : Bool :=
  !(u.ms.st == .follow && u.cur.isSome && u.write.block.isNone && !u.sheet.sheetHold && u.sheet.lastConf.zone == .data)

/-- The trim after one half of the dither (R152), with the mean envelope over it: the other side follows; after both halves the trim
steps toward the larger envelope. -/
def Motion.trimStep (m : Motion) (env : Nat) (dither step most : Int) : Motion :=
  if m.saDither then { m with saDither := false, saEnv := some env, saOfs := -dither }
  else
    let d := match m.saEnv with
      | some e => if env < e then step else if e < env then -step else 0
      | none => 0
    { m with saDither := true, saEnv := none, saOfs := dither, saTrim := clampI (-most) most (m.saTrim + d) }

/-- `SA_TRIM_UPDATE` (R152, R162): every 480 ticks the envelope of the half that ends is taken, and the trim goes on unless it is
frozen. -/
def execSaTrimUpdate (b : BayId) (p : Pu) (s : State) : Host.Outcome State Fault Refusal :=
  withBay b s (fun s =>
    let u := s.pu b p
    let slot := u.ms.clock / 480
    if slot ≤ u.ms.saSlot || s.unitDead b (.pickup p) then s
    else
      let dither := s.live .loopSaDither
      let step := s.live .loopSaTrimStep
      let most := s.live .loopSaTrimMax
      let env := u.sheet.envSum * 65536 / max 1 u.sheet.envCnt
      let frozen := u.trimFrozen
      s.updPu b p (fun u => { u with
        sheet := { u.sheet with envSum := 0, envCnt := 0 }
        ms := { (if frozen then u.ms else u.ms.trimStep env dither step most) with saSlot := slot } }))

/-- The strategy set of a layer that coded sectors wait for is loaded and selected (R135). -/
def WPath.setReady (w : WPath) (layer : Nat) : Bool :=
  w.bankLayer == some layer || !(w.queue ++ w.store).any (fun c => c.sector.layer == layer && !c.failed)

/-- `LAYER_JUMP_ISSUE` (R153): core-started, outside a pass block, once the last wedge has been classed (R69), with the set of a new
write layer selected (R135). -/
def execLayerJumpIssue (b : BayId) (p : Pu) (layer : Fin 12) (s : State) : Host.Outcome State Fault Refusal :=
  withBay b s (fun s =>
    let u := s.pu b p
    if (u.ms.st == .follow || u.ms.st == .acquire) && u.write.block.isNone && u.cur.isNone && u.sheet.unconf.isEmpty
        && u.write.setReady layer.val && s.coreStarts b (.pickup p) && layer.val != u.ms.layer then
      s.startLayerJump b p layer.val
    else s)

/-! ### The constant-linear-velocity reference (R159) -/

/-- A pickup holds frame lock. -/
def State.locked (s : State) (b : BayId) (p : Pu) : Bool := (s.pu b p).sheet.lock == .locked

/-- The pickup that `loop.clv.ref` names, or the other one if that is retired. -/
def State.configuredRef (s : State) (b : BayId) : Pu :=
  let p : Pu := if s.bndN (.pickup b .A) .loopClvRef = 0 then .A else .B
  if (s.pu b p).cal.retired then p.other else p

/-- A change of the reference pickup (R159): the new one has no pickup to be steered by (R158). -/
def State.setRef (s : State) (b : BayId) (p : Pu) : State :=
  let now := s.us
  (s.updMs b p (fun m => { m with steer := false })).updBay b (fun y => { y with ref := p, refLost := now })

/-- `CLV_REF_SWITCH` (R159): no confirmed wedge of the reference for `loop.clv.switch_wedges` wedge times. -/
def execClvRefSwitch (b : BayId) (s : State) : Host.Outcome State Fault Refusal :=
  withBay b s (fun s =>
    let y := s.bay b
    if s.us < y.refLost + s.liveN .loopClvSwitchWedges * frameUs y.zone then s
    else if s.locked b y.ref.other then
      (s.setRef b y.ref.other).raiseBay b 17 .loopClvRefSwitch
    else if !s.locked b y.ref && y.spindle.wedgeSrc then
      (s.updSp b (fun x => { x with wedgeSrc := false, wedgeAt := none })).raiseBay b 17 .loopClvNoRef
    else s)

/-- `CLV_REF_RESTORE` (R159). -/
def execClvRefRestore (b : BayId) (s : State) : Host.Outcome State Fault Refusal :=
  withBay b s (fun s =>
    let y := s.bay b
    let c := s.configuredRef b
    if y.ref != c && s.locked b c && y.pa.write.block.isNone && y.pb.write.block.isNone then
      s.setRef b c
    else s)

/-! ### Auto-tune (R172 to R175) -/

/-- `AUTO_TUNE_START` (R172, R173). -/
def execAutoTuneStart (b : BayId) (p : Pu) (lp : LoopSel) (s : State) : Host.Outcome State Fault Refusal :=
  withBay b s (fun s =>
    let y := s.bay b
    let x := (s.pu b p).loop lp
    if lp != .tilt && s.tuneOk b p && s.coreStarts b (.pickup p) && y.pa.tuning.isNone && y.pb.tuning.isNone
        && x.locked && x.useFollow then
      let u0 : Int := (x.outs.foldl (fun (a v : Int) => a + v) 0) / ((max x.outs.length 1 : Nat) : Int)
      s.updPu b p (fun u => u.updLoop lp (fun x => { x with tune := some ⟨u0, 1, 0, s.us, 0, 0, 0, []⟩ }))
    else s)

/-- The largest and smallest of a list. -/
def spread (l : List Nat) : Nat × Nat :=
  match l with
  | [] => (0, 0)
  | a :: r => (r.foldl max a, r.foldl min a)

/-- The mean of a list. -/
def meanNat (l : List Nat) : Nat := l.foldl (fun a v => a + v) 0 / max l.length 1

/-- A measurement is kept (R173): enough cycles, periods within 5 %, amplitudes within 10 %. -/
def measureKept (cycles : List (Nat × Nat)) (need : Nat) : Bool :=
  let t := spread (cycles.map (fun c => c.1))
  let a := spread (cycles.map (fun c => c.2))
  decide (need ≤ cycles.length ∧ 0 < t.2 ∧ 0 < a.2 ∧ t.1 * 100 ≤ t.2 * 105 ∧ a.1 * 100 ≤ a.2 * 110)

/-- Two tunes agree: 10 % in Ku, 5 % in Tu (R175). -/
def tunesAgree (a c : Nat × Nat) : Bool :=
  let near := fun (x y pct : Nat) => ((x : Int) - y).natAbs * 100 ≤ pct * max x y
  near a.1 c.1 10 && near a.2 c.2 5

/-- The ultimate gain of a measurement (R174) with relay amplitude d and hysteresis h, in 2^−80: `n` cycles with the peak-to-peak errors
summing to `sumA`. An amplitude within the hysteresis has none. -/
def tuneKu (d h n sumA : Nat) : Int :=
  if 2 * n * h < sumA then
    let r : Int := Nat.sqrt ((sumA * sumA - 4 * n * n * h * h) * 2 ^ 160)
    8 * d * n * trigOne ^ 3 / (trigPi * r)
  else Config.tuneKu d h sumA

/-- A lead or lag section (R174), its zero and pole over kap in 2^−80, as coefficients with 24 fraction bits. -/
def tuneSect (z p : Int) : List Int :=
  let c := fun (n : Int) => roundOpen (n * 2 ^ 24) (trigOne + p)
  [c (trigOne + z), c (z - trigOne), c (p - trigOne)]

/-- The values in force of `ceng.tune`'s design fields, in 1/65,536. -/
structure TuneCfg where
  wcFrac   : Nat
  lead     : Nat
  lagDiv   : Nat
  lagBoost : Nat
  kiDiv    : Nat

/-- The bank of R174 from `n` cycles whose periods sum to `sumT` ticks, with an ultimate gain in 2^−80: K, the two sections and ki; the
rest is the live following bank's. Coefficients have 24 fraction bits. -/
def tunedBank (k : Bank) (v : TuneCfg) (ku : Int) (n sumT : Nat) : Bank :=
  -- wc × Ts / 2, and its tangent, which is wc / kap
  let x : Int := trigPi * v.wcFrac * n / (65536 * max 1 sumT : Nat)
  let t := trigSin x * trigOne / trigCos x
  let ra : Int := Nat.sqrt (v.lead * 2 ^ 144)
  let lead := tuneSect (t * trigOne / ra) (t * ra / trigOne)
  let lag := tuneSect (t * 65536 / v.lagDiv) (t * 65536 * 65536 / (v.lagDiv * v.lagBoost : Nat))
  { k with
    K := roundOpen (ra * ku * v.wcFrac * v.wcFrac / (trigOne * 2 ^ 32) * 2 ^ 24) trigOne
    b0 := lead.getD 0 0, b1 := lead.getD 1 0, a1 := lead.getD 2 0, c0 := lag.getD 0 0, c1 := lag.getD 1 0, d1 := lag.getD 2 0
    ki := roundOpen (2 * x * 65536 * 2 ^ 24) (v.kiDiv * trigOne) }

/-- Every coefficient of a bank has its 32 bits (R167). -/
def bankFits (k : Bank) : Bool :=
  [k.K, k.b0, k.b1, k.a1, k.c0, k.c1, k.d1, k.ki].all (fun c => decide (-(2 ^ 31) ≤ c ∧ c < 2 ^ 31))

/-- A computed bank passes LIMITS (R175): well-formed, and K within its ratio of the live bank's. -/
def tunePasses (k new : Bank) (ratio : Int) : Bool :=
  bankFits new && bankGood (bankBytes new) && decide (k.K * 65536 ≤ new.K * ratio ∧ new.K * 65536 ≤ k.K * ratio)

/-- The cycles of a tune are measured: the bank is designed and judged (R173 to R175). -/
def State.tuneJudge (s : State) (b : BayId) (p : Pu) (lp : LoopSel) (k : Bank) (cycles : List (Nat × Nat)) : State :=
  let n := cycles.length
  let sum := fun (g : Nat × Nat → Nat) => (cycles.map g).foldl (fun a v => a + v) 0
  let sumT := sum (fun c => c.1)
  let val := fun (f : Field) => s.liveN f
  let ku := tuneKu (val .cengTuneRelayD) (val .cengTuneHyst) n (sum (fun c => c.2))
  let cfg : TuneCfg := ⟨val .cengTuneWcFrac, val .cengTuneLeadRatio, val .cengTuneLagDiv, val .cengTuneLagBoost, val .cengTuneKiDiv⟩
  let new := tunedBank k cfg ku n sumT
  let got := (ku.toNat, sumT * 65536 / max 1 n)
  let last := ((s.pu b p).loop lp).lastTune
  let keep := fun (s : State) (v : Option (Nat × Nat)) => s.updPu b p (fun u => u.updLoop lp (fun x => { x with lastTune := v }))
  let repeat' := (s.unitCfg (.pickup b p) 16).at .calItemAccept 10 == 0
  if !measureKept cycles (val .cengTuneCycles) ∨ !tunePasses k new (s.live .cengTuneKRatioMax) then s.tuneFails b p lp
  else if repeat' ∧ last.isNone then keep s (some got)
  else if repeat' ∧ !tunesAgree (last.getD (0, 0)) got then (keep s none).tuneFails b p lp
  else
    let tick := (s.link b p).servo.tick
    s.updPu b p (fun u => u.updLoop lp (fun x => { x with
      lastTune := none, shFollow := some new, armed := x.armed ++ [⟨.follow, .tune, tick⟩] }))

/-- `AUTO_TUNE_END` (R173 to R175): the cycles are measured, `ceng.tune.max_ms` has passed, or R172 no longer holds; the live bank is
restored. -/
def execAutoTuneEnd (b : BayId) (p : Pu) (s : State) : Host.Outcome State Fault Refusal :=
  withBay b s (fun s =>
    match (s.pu b p).tuning with
    | none => s
    | some lp =>
      let x := (s.pu b p).loop lp
      match x.tune, x.follow with
      | some t, some k =>
        if !s.tuneOk b p then s.abandonTune b p
        else if s.liveN .cengTuneCycles ≤ t.cycles.length then
          (s.updPu b p (fun u => u.updLoop lp (fun x => { x with tune := none, fresh := true }))).tuneJudge b p lp k t.cycles
        else if t.since + s.liveN .cengTuneMaxMs * 1000 ≤ s.us then s.abandonTune b p
        else s
      | _, _ => s.abandonTune b p)

/-- `TUNE_REVERT_WINDOW_END` (R175): the tuned bank has survived `ceng.sup.revert_ticks` samples and is recorded.
Log 26 (DEDUCED). -/
def execTuneRevertWindowEnd (b : BayId) (p : Pu) (lp : LoopSel) (s : State) : Host.Outcome State Fault Refusal :=
  withBay b s (fun s =>
    let x := (s.pu b p).loop lp
    match x.swapAge with
    | some n =>
      if lp != .tilt && x.swapSrc == .tune && s.liveN .cengSupRevertTicks ≤ n then
        let s := s.updPu b p (fun u => { (u.updLoop lp (fun x => { x with swapAge := none })) with
          cal := { u.cal with
            recDue := some (u.cal.recDue.getD s.us)
            tunedF := if lp == .focus then x.follow else u.cal.tunedF, tunedT := if lp == .track then x.follow else u.cal.tunedT
            pend := (u.cal.pend.map (fun q => if q.item = 10 then { q with parts := q.parts.filter (fun a => a.unit != loopNum lp) } else q)).filter
              (fun q => !q.parts.isEmpty) } })
        s.raisePu b p 4 .loopTuneDone p.idx (loopNum lp) 0
      else s
    | none => s)

end Sys2Proof.Machine
end

