-- ==== Sys2Proof/Machine/SheetOps.lean ====
section
/-! DEFINITION. The sheet channel's work on a released sample block (R63 to R67, R74, R75, R79): deskew, normalization,
interpolation, timing, defects; and the soft-store slot of a sector (R110, R120). -/

namespace Sys2Proof.Machine

/-! ### Deskew (R63) -/

/-- The element index of a pickup's largest offset gives o_max. -/
def Pickup.offsetMax (u : Pickup) : Int := u.elems.foldl (fun a e => max a e.offset) ((u.elems.getD 0 .reset).offset)

/-- An element of a spot as the channel uses it: its delay in 1/64 sample, DC and gain. -/
structure SpotCal where
  delay : Nat
  dc    : Int
  gain  : Int
  deriving DecidableEq, Repr

/-- The element of a spot in a twin row: 36.0 nm per sample in the data zone, 18.0 nm in the lead-in zone, the delay floored to 1/64
sample.
Log 52 (DESIGN CHOICE). -/
def Pickup.spotCal (u : Pickup) (z : Zone) (sp : Nat) (row : Bool) : SpotCal :=
  let e := u.elems.getD ((if row then 18 else 0) + sp) .reset
  let nm := (u.offsetMax - e.offset).toNat
  ⟨(match z with
    | .data => nm * 64 / 36
    | .leadIn => nm * 64 / 18), e.dc, e.gain⟩

/-- The sample of a spot at a raw index: its code, and whether its block was erased or is not there. -/
def rawSample (hist : List SBlock) (sp : Nat) (k : Int) : Nat × Bool :=
  if k < 0 then (64, true)
  else
    match hist.find? (fun x => x.n == k.toNat / 32) with
    | some x => (sampleCode x.data (k.toNat % 32) sp, x.erased)
    | none => (64, true)

/-! ### Values (R65, R66) -/

/-- A value held to 8 bits signed, ±127 (R65). -/
def sat127 (x : Int) : Int := clampI (-127) 127 x

/-- y = g × (x − c) of a code with the values a track holds.
Log 28 (DEDUCED). -/
def Track.norm (t : Track) (code : Nat) : Int := sat127 (rnd (t.g * (((code : Int) - 64) * 65536 - t.c)) (2 ^ 32))

/-- A stream at a track's next instant: the interpolated value with its link flag, the sample under it less 64, and the samples up to
the instant after it as clipped or not. -/
def streamAt (hist : List SBlock) (delay64 sp : Nat) (t : Track) (at' bit : Int) : BitVal × Int × List Bool :=
  let a := at' - delay64 * 1024
  let k := a / 65536
  let ph := ((a % 65536) / 1024).toNat
  let y := (List.range 8).foldl (fun (acc : Int) (m : Nat) =>
    acc + Config.interpTap m ph * t.norm (rawSample hist sp (k + m - 3)).1) 0
  let (code, er) := rawSample hist sp k
  let new := (List.range ((a + bit) / 65536 - k).toNat).map (fun (j : Nat) => rawSample hist sp (k + j))
  (⟨sat127 (rnd y 1024), er || new.any (fun x => x.2)⟩, (code : Int) - 64, new.map (fun x => x.1 = 0 || x.1 = 127))

/-! ### One value of one track (R74, R75) -/

/-- The settings of a sheet channel for one block. -/
structure SheetCfg where
  trackShift : Nat
  servoShift : Nat
  kpFast     : Nat
  kpTrack    : Nat
  ki         : Nat
  xt         : Int
  low        : Nat
  endPct     : Nat
  endBits    : Nat
  look       : Nat
  clips      : Nat
  tracks     : Nat
  maxHold    : Nat
  erase      : Nat
  deriving DecidableEq, Repr

/-- The settings in force for a pickup (R81). -/
def State.sheetCfg (s : State) (b : BayId) (p : Pu) : SheetCfg :=
  let v := fun (f : Field) => s.bndN (.pickup b p) f
  { trackShift := v .sheetNormTrackShift, servoShift := v .sheetNormServoShift, kpFast := v .sheetPllKpFastShift
    kpTrack := v .sheetPllKpTrackShift, ki := v .sheetPllKiShift, xt := v .sheetAcqXtCoef
    low := s.liveN .sheetDefectLowPct, endPct := s.liveN .sheetDefectEndPct, endBits := s.liveN .sheetDefectEndBits
    look := s.liveN .sheetDefectLookbackBits, clips := s.liveN .sheetDefectClipCount, tracks := v .sheetDefectSheetTracks
    maxHold := v .sheetDefectMaxHoldBits, erase := v .sheetRowEraseBits }

/-- The newest `n` values flagged, or cleared. -/
def flagNewest (n : Nat) (v : Bool) (bits : List BitVal) : List BitVal :=
  (bits.take n).map (fun x => { x with flag := v }) ++ bits.drop n

/-- The target amplitude A (R65). -/
def amplitudeA : Nat := 40

/-- The gain that brings the tone of 96 values of the 1100 preamble to amplitude A (R65): its fundamental, by the sums of every fourth
value.
Log 52 (DESIGN CHOICE). -/
def toneGain (g : Int) (ys : List Int) : Int :=
  let part := fun (r : Nat) => (ys.mapIdx (fun i y => if i % 4 = r then y else 0)).foldl (fun a y => a + y) 0
  let amp := Nat.sqrt (((part 0 - part 2) ^ 2 + (part 1 - part 3) ^ 2).toNat * 2 ^ 20)
  if amp = 0 then Config.silentGain g else rnd (g * amplitudeA * 48 * 1024) amp

/-- A value joins a track: envelope and clipping, the start and end of a defect with its flags, the hold counter from detection on
with the bit at which it reaches its limit, and the adaptation of c and g through the data of a frame in lock.
Log 52 (DESIGN CHOICE). -/
def Track.feed (k : SheetCfg) (servo framed : Bool) (t : Track) (v : BitVal) (raw : Int) (clips : List Bool) : Track :=
  let pos := t.bits.length
  let clipped := clips.any id
  let erased := v.flag || decide (0 < t.erase)
  let env := (v.y.natAbs :: t.env).take 32
  let clip := (clips.reverse ++ t.clip).take 32
  let sum := env.foldl (fun a x => a + x) 0
  let low := decide (env.length = 32 ∧ sum * 100 < k.low * amplitudeA * 32)
  let start := !t.defect && (low || decide (k.clips ≤ (clip.filter id).length) || erased)
  let inDef := t.defect || start
  let good := inDef && !start && !erased && !clipped && decide (k.endPct * amplitudeA * 32 ≤ sum * 100)
  let clean := if good then t.clean + 1 else 0
  let ended := good && decide (k.endBits ≤ clean)
  let old := if start then flagNewest k.look true t.bits
    else if ended && t.lost.isNone then flagNewest (clean - 1) false t.bits else t.bits
  let hold := if ended then 0 else if inDef then t.hold + 1 else 0
  let data := framed && decide (768 ≤ pos ∧ (pos : Int) < 32768 + t.delta)
  let (dc, dg) :=
    if inDef || clipped || !(servo || data) then (0, 0)
    else Config.normStep (if servo then k.servoShift else k.trackShift) v.y raw
  let t := { t with
    env := env, raw := raw.natAbs, clip := clip, defect := inDef && !ended, clean := if ended then 0 else clean, hold := hold
    limit := if t.limit.isNone && decide (k.maxHold ≤ hold) then some pos else t.limit
    erase := t.erase - 1, bits := ⟨v.y, (inDef && !ended) || erased || t.lost.isSome⟩ :: old, c := t.c + dc, g := t.g + dg
    holdLen := max t.holdLen hold, holdAt := if t.holdLen < hold then pos + 1 - hold else t.holdAt }
  -- over preamble bits 512 to 607: c to the mean, g to the tone (R65)
  if pos = 607 ∧ framed ∧ !servo ∧ !inDef then
    let ys := (t.bits.take 96).map (fun x => x.y)
    { t with c := t.c + rnd (ys.foldl (fun a x => a + x) 0 * 2 ^ 32) (96 * max t.g.toNat 1), g := toneGain t.g ys }
  else t

/-- A spot switches to its other element (R64): its DC and gain, its next values flagged. -/
def Track.switch (t : Track) (e : SpotCal) (erase : Nat) (at' : Int) : Track :=
  { t with c := e.dc, g := e.gain, erase := max t.erase erase, swapAt := some at' }

/-- The timing error of a track (R66): its values 16 bits back, less `sheet.acq.xt_coef` / 256 of each neighbour's. -/
def tedOf (xt : Int) (ts : List Track) (i : Nat) : Int :=
  let past := fun (j : Nat) => ((ts.getD j .idle).bits.drop 16 |>.take 8).map (fun x => x.y)
  let pos := (ts.getD i .idle).bits.length
  let own := past i
  let lo := if i = 0 then [] else past (i - 1)
  let hi := if 15 ≤ i then [] else past (i + 1)
  Config.timingError (decide (512 ≤ pos ∧ pos < 704)) (own.mapIdx (fun n y => y - xt * (lo.getD n 0 + hi.getD n 0) / 256))

/-! ### One channel bit of the sheet -/

/-- The spot's next sample at an instant comes from its other element (R64). -/
def Sheet.turns (x : Sheet) (cal : Nat → Bool → SpotCal) (sp : Nat) (at' : Int) : Bool :=
  match x.swap with
  | some (rows, t) =>
    rows.getLsbD sp != x.rows.getLsbD sp && decide (t * 65536 ≤ at' - (cal sp (x.rows.getLsbD sp)).delay * 1024)
  | none => false

/-- One value of one spot at an instant, after a change of its row where that is due. -/
def Sheet.value (k : SheetCfg) (cal : Nat → Bool → SpotCal) (x : Sheet) (servo : Bool) (sp : Nat) (t : Track) (at' : Int) : Track :=
  let row := x.rows.getLsbD sp
  let new := x.turns cal sp at'
  let e := cal sp (row != new)
  let t := if new then t.switch e k.erase at' else t
  let (v, raw, cl) := streamAt x.hist e.delay sp t at' (x.period / 65536)
  t.feed k servo (x.lock == .locked) v raw cl

/-- The instants at which the 18 spots are read: V0 at D0's, V1 at D15's. -/
def Sheet.instant (x : Sheet) (sp : Nat) : Int := (x.tracks.getD (min 15 (sp - 1)) .idle).t

/-- The rows in force once every spot that is due has switched. -/
def Sheet.rowsAfter (x : Sheet) (cal : Nat → Bool → SpotCal) : BitVec 18 :=
  (List.range 18).foldl (fun (r : BitVec 18) sp => if x.turns cal sp (x.instant sp) then r ^^^ BitVec.ofNat 18 (2 ^ sp) else r) x.rows

/-- One channel bit of all 16 tracks, V0 and V1: values, then the loops of R66. `live` are the tracks in service.
Log 28 (DEDUCED). -/
def Sheet.bit (k : SheetCfg) (live : List Nat) (cal : Nat → Bool → SpotCal) (erasedBlock : Bool) (x : Sheet) : Sheet :=
  let framed := x.lock == .locked
  let fed := x.tracks.mapIdx (fun i t => x.value k cal false (i + 1) t t.t)
  let v0 := x.value k cal true 0 x.v0 (x.instant 0)
  let v1 := x.value k cal true 17 x.v1 (x.instant 17)
  let rows := x.rowsAfter cal
  let es := fed.mapIdx (fun i t =>
    if t.defect || t.lost.isSome || !live.contains i then (none : Option Int) else some (tedOf k.xt fed i))
  let used := es.filterMap id
  let esum := used.foldl (fun a e => a + e) 0
  let moved := (fed.zip es).map (fun te =>
    let t := te.1
    let pos := t.bits.length
    let sh := if (framed ∧ 512 ≤ pos ∧ pos < 608) ∨ 0 < t.fast then k.kpFast else k.kpTrack
    { t with
      t := t.t + rnd x.period 65536 - rnd (x.period * te.2.getD 0) (2 ^ (32 + sh))
      fast := if 768 ≤ pos then t.fast - 1 else t.fast })
  let hold := erasedBlock || decide (k.tracks ≤ (live.filter (fun i => (fed.getD i .idle).defect)).length)
  let n := used.length
  -- the envelope that the trim of R152 compares
  let env := live.map (fun i => (fed.getD i .idle).raw)
  let period := if min 4 live.length ≤ n ∧ 0 < n ∧ !hold then x.period - rnd (x.period * esum) (n * 2 ^ (16 + k.ki)) else x.period
  { x with
    tracks := moved, v0 := v0, v1 := v1, period := period, sheetHold := hold, holds := hold :: x.holds, rows := rows
    envSum := x.envSum + env.foldl (fun a v => a + v) 0, envCnt := x.envCnt + env.length
    swap := if x.swap.any (fun w => w.1 == rows) then none else x.swap }

/-- Channel bits as long as every instant lies at least 5 samples before the end of what has been released. -/
def Sheet.bits (k : SheetCfg) (live : List Nat) (cal : Nat → Bool → SpotCal) (er : Bool) (limit : Int) : Nat → Sheet → Sheet
  | 0, x => x
  | n + 1, x =>
    if x.tracks.all (fun t => decide (t.t + 5 * 65536 ≤ limit)) then Sheet.bits k live cal er limit n (Sheet.bit k live cal er x)
    else x

/-- The channel rate, nominal × nominal period / P, lies in the range of R67: within the tolerance, and no faster a change than 500 ppm
per ms. -/
def Sheet.rateInRange (x : Sheet) (tol : Nat) (now : Nat) : Bool :=
  let nom := nominalPeriod x.lastConf.zone
  decide ((nom - x.period).natAbs * 1000000 ≤ tol * x.period.natAbs) &&
    decide ((x.oldP - x.period).natAbs * nom.natAbs * 1000000 ≤ 500 * max 1 ((now - x.oldAt) / 1000) * (x.period * x.oldP).natAbs)

/-! ### Soft-store slots (R110, R120) -/

/-- A new slot for a sector that is being read. -/
def SoftSlot.fresh (r : ReadReq) (vals : Cfg) : SoftSlot :=
  { sector := r.sector, why := r.why, begun := 0, done := false, segs := [], words := [], sel := [], slips := [], cws := []
    rung := 0, rereads := 0, first := 0, misc := 0, early := false, reading := true, noDet := false, wait := false
    vals := vals, perTrk := List.replicate 16 0, iters := 0, plan := [], trkRecs := [], ext := []
    resid := List.replicate 16 (0, 0) }

/-- A slot in the retry ladder. -/
def SoftSlot.inLadder (q : SoftSlot) : Bool := 0 < q.rung

/-- The slot longest in the ladder. -/
def oldestLadder (qs : List SoftSlot) : Option SoftSlot :=
  (qs.filter (fun q => q.inLadder)).foldl (fun acc q => match acc with
    | some a => if q.begun < a.begun then some q else acc
    | none => some q) none

/-- A sector leaves the ladder without success: `LOST`, and its re-reads end (R119, R120). -/
def State.ladderEnds (s : State) (b : BayId) (p : Pu) (q : SoftSlot) : State :=
  let s := s.updPu b p (fun u => { u with
    reads := u.reads.filter (fun r => r.sector != q.sector)
    cur := if (u.cur.map (fun r => r.sector)) == some q.sector then none else u.cur })
  s.endSlot b p q .lost 0 none

/-- The sector being read takes a slot, if it has none; without a free one the sector longest in the ladder gives up its own
(R110, R120). -/
def State.newSlot (s : State) (b : BayId) (p : Pu) : State :=
  let u := s.pu b p
  match u.cur with
  | none => s
  | some r =>
    if u.slots.any (fun q => q.sector == r.sector) then s
    else
      let s :=
        if u.slots.length < s.bootN .eccSoftDepthSectors then s
        else match oldestLadder u.slots with
          | some q => s.ladderEnds b p q
          | none => s
      s.updPu b p (fun u => { u with slots := u.slots ++ [SoftSlot.fresh r (s.unitCfg (.pickup b p) 3)] })

/-- The slot is taken when the first segment is emitted, after its pass vote.
Log 29 (DEDUCED). -/
def State.takeSlot (s : State) (b : BayId) (p : Pu) : State :=
  if (((s.pu b p).sheet.tracks.getD 0 .idle).bits.length < 792) then s else s.newSlot b p

/-! ### A released block -/

/-- The rate leaves its range (R67): no segment is released until a sector start finds it back.
Log 33 (DEDUCED). -/
def State.rateCheck (s : State) (b : BayId) (p : Pu) : State :=
  let x := (s.pu b p).sheet
  let ok := x.lock != .locked || x.rateInRange (s.bndN (.pickup b p) .sheetRateTolPpm) s.us
  let s := if x.oldAt + 1000 ≤ s.us then s.updSheet b p (fun x => { x with oldP := x.period, oldAt := s.us }) else s
  if x.rateOk && !ok then
    (s.updSheet b p (fun x => { x with rateOk := false, releasing := false })).raisePu b p 8 .sheetRateRange
  else s

/-- The wedge that opens the next sector has begun: the section's values for it (R81). -/
def State.openBoundary (s : State) (b : BayId) (p : Pu) : State :=
  let x := (s.pu b p).sheet
  if x.lock == .locked && x.predict.frame % 5 = 0 && !x.opened && decide (32768 ≤ (x.tracks.getD 0 .idle).bits.length) then
    (s.boundary (.pickup b p) 2).updSheet b p (fun x => { x with opened := true })
  else s

/-- How long a sample is held before release (R64): 6 µs. -/
def holdSamples : Int := 3072

/-- A bit list of a channel in search is kept for one frame and two wedges. -/
def Track.trim (t : Track) : Track := { t with bits := t.bits.take 33792 }

/-- A block released to the sheet channel (R54, R64, R66): it joins the samples held, and the channel runs on to those 6 µs old. -/
def State.sheetBlock (s : State) (b : BayId) (p : Pu) (blk : SBlock) : State :=
  let s := s.openBoundary b p
  let u := s.pu b p
  let x := u.sheet
  let hist := (blk :: x.hist).take 230
  if x.lock == .off then s.updSheet b p (fun x => { x with hist := hist })
  else
    let k := s.sheetCfg b p
    let start : Int := 65536 * (32 * blk.n - holdSamples)
    let limit : Int := start + 65536 * 32
    let far := x.tracks.any (fun t => decide (t.t + 65536 * 8192 < limit ∨ limit + 65536 * 64 < t.t))
    let x := { x with
      hist := hist, tracks := if far then x.tracks.map (fun (t : Track) => { t with t := start, bits := [] }) else x.tracks
      holds := if far then [] else x.holds
      v0 := if far then { x.v0 with bits := [] } else x.v0, v1 := if far then { x.v1 with bits := [] } else x.v1 }
    let z := u.ms.tgtZone
    let er := hist.any (fun q => decide ((32 * q.n : Int) = start / 65536) && q.erased)
    let x := Sheet.bits k u.inService (fun sp row => u.spotCal z sp row) er limit 72 x
    let x := if x.lock == .locked then x
      else { x with tracks := x.tracks.map Track.trim, v0 := x.v0.trim, v1 := x.v1.trim, holds := x.holds.take 33792 }
    ((s.updSheet b p (fun _ => x)).rateCheck b p).takeSlot b p

/-- Every block due leaves the link in order (R54). -/
def State.releaseDue (s : State) (b : BayId) (p : Pu) : Nat → State
  | 0 => s
  | n + 1 =>
    let l := s.link b p
    if l.due then
      let (blk, l') := l.pop
      ((s.updLink b p (fun _ => l')).sheetBlock b p blk).releaseDue b p n
    else s

/-- Every block that the newest one received makes due leaves the link. -/
def State.releaseAll (s : State) (b : BayId) (p : Pu) : State := s.releaseDue b p (s.link b p).ahead

end Sys2Proof.Machine
end

