-- ==== Sys2Proof/Machine/DetectOps.lean ====
section
/-! DEFINITION. Joint detection (R84 to R97): equalizer, LMS, soft-output detection, cancellation sweeps, soft words and track
segment records, for a whole segment at a time, in windows of 64 bits. Decisions adapt the taps 704 bits, 11 windows, late. -/

namespace Sys2Proof.Machine

/-! ### Taps (Table 04-2) -/

/-- Half the span of a row offset's taps. -/
def tapHalf (o : Int) : Int := if o = 0 then 7 else if o.natAbs = 1 then 4 else 2

/-- The taps of a track as (row offset, bit offset), rows −2 to 2; a row outside −1 to 16 has none. -/
def tapPlan (i : Nat) : List (Int × Int) :=
  ([-2, -1, 0, 1, 2] : List Int).flatMap (fun o =>
    let row := (i : Int) + o
    if row < -1 ∨ 16 < row then []
    else (List.range (2 * tapHalf o + 1).toNat).map (fun (n : Nat) => (o, (n : Int) - tapHalf o)))

/-- One row of the sheet: row −1 is V0, 0 to 15 the tracks, 16 V1. -/
def Seg.row (g : Seg) (r : Int) : List BitVal :=
  if r < 0 then g.v0 else if 15 < r then g.v1 else (g.trks.getD r.toNat .none).bits

/-- The value of a row at a frame bit; a bit that was not delivered counts as flagged.
Log 28 (DEDUCED). -/
def Seg.val (g : Seg) (r k : Int) : BitVal := if k < 0 then ⟨0, true⟩ else (g.row r).getD k.toNat ⟨0, true⟩

/-- The target's mean z² for independent bits: 16² × 6 and 12² × 10. -/
def targetPower (tgt : Nat) : Nat := if tgt = 0 then 1536 else 1440

/-- What detection needs to know of a pickup and a sector (R81, R92 to R97): target, step exponents, sweeps, scales, tracks out
of service, the frame bit up to which each track adapts fast, and the a-priori value of a track's bit. -/
structure DetCfg where
  tgt    : Nat
  eq     : Nat
  swap   : Nat
  sweeps : Nat
  rho    : Nat
  nbr    : Int
  apr    : Int
  dead   : List Nat
  fast   : List Nat
  prior  : Nat → Int → Int

/-- A track is `BLANK`, or retired for the reader. -/
def Seg.blank (g : Seg) (i : Nat) : Bool := (g.trks.getD i .none).stat == .blank

/-- A bit of a track is not detected from its own sample: flagged, blank or retired.
Log 28 (DEDUCED). -/
def Seg.flagged (g : Seg) (c : DetCfg) (i : Nat) (k : Int) : Bool := (g.val i k).flag || c.dead.contains i || g.blank i

/-- The sheet is held at a bit (R75). -/
def Seg.held (g : Seg) (k : Int) : Bool := decide (0 ≤ k) && g.holds.getD k.toNat false

/-- The input under a tap: 0 where it is flagged (R92), or lies on a retired row, whose taps are zeroed (R93). -/
def Seg.tapIn (g : Seg) (c : DetCfg) (row k : Int) : Option Int :=
  let v := g.val row k
  if v.flag || (0 ≤ row && row ≤ 15 && c.dead.contains row.toNat) then none else some v.y

/-- A coefficient held to 12 bits signed (R85). -/
def sat12 (x : Int) : Int := clampI (-2048) 2047 x

/-- A cancellation coefficient held to 10 bits signed (R89). -/
def sat10c (x : Int) : Int := clampI (-512) 511 x

/-- The LMS update of a track's taps with the error of a bit (R86), in counts of 1/1,024.
Log 53 (DESIGN CHOICE). -/
def lmsTaps (g : Seg) (c : DetCfg) (i : Nat) (k e : Int) (shift : Nat) (taps : List Int) : List Int :=
  ((tapPlan i).zip taps).map (fun t => match g.tapIn c (i + t.1.1) (k + t.1.2) with
    | some x => sat12 (t.2 - rnd (e * x) (2 ^ shift))
    | none => t.2)

/-- The equalized value of a bit, 10 bits signed, saturating (R85). -/
def eqValue (g : Seg) (c : DetCfg) (i : Nat) (k : Int) (taps : List Int) : Int :=
  clampI (-512) 511 (rnd (((tapPlan i).zip taps).foldl (fun a t => a + t.2 * (g.tapIn c (i + t.1.1) (k + t.1.2)).getD 0) 0) 1024)

/-- Another tap than the centre tap of row 0 fell on a flagged sample (Table 04-3). A retired row has none. -/
def nbrOf (g : Seg) (c : DetCfg) (i : Nat) (k : Int) : Bool :=
  (tapPlan i).any (fun t =>
    let row := (i : Int) + t.1
    t != (0, 0) && !(0 ≤ row && row ≤ 15 && c.dead.contains row.toNat) && (g.val row (k + t.2)).flag)

/-! ### Soft-output detection (R89) -/

/-- States of the trellis of a target: the last two bits, or the last three, the newest in bit 0 (R85). -/
def trellisStates (tgt : Nat) : Nat := if tgt = 0 then 4 else 8

/-- +1 for a mark, −1 for none. -/
def sgn (n i : Nat) : Int := if n.testBit i then 1 else -1

/-- The target of the branch that leaves a state with the bit after it. -/
def branchTarget (tgt st nx : Nat) : Int :=
  if tgt = 0 then 16 * (sgn st 1 + 2 * sgn st 0 + sgn nx 0)
  else 12 * (sgn st 2 + 2 * sgn st 1 + 2 * sgn st 0 + sgn nx 0)

/-- A bit as the trellis sees it: its value, whether it is flagged, and its a-priori value times `sheet.det.apriori_scale`. -/
structure BitIn where
  z     : Int
  flag  : Bool
  prior : Int
  deriving DecidableEq, Repr

/-- The trellis of a track: its target, and σ² as a sum of squares and their number. -/
structure Trellis where
  tgt : Nat
  sum : Nat
  num : Nat
  deriving DecidableEq, Repr

/-- The branch metric times 16 and the number of squares: the squared distance, 0 where the bit is flagged (R92), and on b = −1 the
a-priori value in units of 1/16, which joins Λ as it is (R97).
Log 53 (DESIGN CHOICE). -/
def Trellis.branch (m : Trellis) (x : BitIn) (st nx : Nat) : Int :=
  (if x.flag then 0 else m.num * 16 * (x.z - branchTarget m.tgt st nx) ^ 2) + (if st.testBit 0 then 0 else 2 * m.sum * x.prior)

/-- The least of a list. -/
def leastOf (l : List Int) : Int := l.foldl min (l.headD 0)

/-- One bit forward. -/
def Trellis.fwd (m : Trellis) (a : List Int) (x : BitIn) : List Int :=
  let n := trellisStates m.tgt
  (List.range n).map (fun t => leastOf ([t / 2, t / 2 + n / 2].map (fun st => a.getD st 0 + m.branch x st (t % 2))))

/-- One bit backward. -/
def Trellis.bwd (m : Trellis) (x : BitIn) (z : List Int) : List Int :=
  let n := trellisStates m.tgt
  (List.range n).map (fun st => leastOf ([0, 1].map (fun nx => z.getD ((2 * st + nx) % n) 0 + m.branch x st nx)))

/-- The metrics before each bit of a window. -/
def Trellis.heads (m : Trellis) : List Int → List BitIn → List (List Int)
  | _, [] => []
  | a, x :: xs => a :: Trellis.heads m (m.fwd a x) xs

/-- The metrics after each bit of a window, and those before its first. -/
def Trellis.tails (m : Trellis) (z : List Int) : List BitIn → List Int × List (List Int)
  | [] => (z, [])
  | x :: xs =>
    let r := Trellis.tails m z xs
    (m.bwd x r.1, r.1 :: r.2)

/-- The best metric of a bit's value. -/
def Trellis.best (m : Trellis) (x : BitIn) (a z : List Int) (mark : Bool) : Int :=
  let n := trellisStates m.tgt
  leastOf (((List.range n).filter (fun st => st.testBit 0 == mark)).flatMap (fun st =>
    [0, 1].map (fun nx => a.getD st 0 + m.branch x st nx + z.getD ((2 * st + nx) % n) 0)))

/-- The inputs of a window as the metrics at its edge are drawn from them. -/
def edgeIns (w : List BitIn) : List (Int × Bool × Int) := w.map (fun x => (x.z, x.flag, x.prior))

/-- Log-likelihood ratios of a window of 64 bits in 1/65,536 (R89): max-log BCJR, its edges by the windows beside it. -/
def Trellis.llr (m : Trellis) (before win after : List BitIn) : List Int :=
  let sts := List.range (trellisStates m.tgt)
  let hs := m.heads (sts.map (Config.bcjrEdge false m.tgt (edgeIns before))) win
  let zs := (m.tails (sts.map (Config.bcjrEdge true m.tgt (edgeIns after))) win).2
  (win.zip (hs.zip zs)).map (fun e =>
    rnd ((m.best e.1 e.2.1 e.2.2 false - m.best e.1 e.2.1 e.2.2 true) * 65536) (32 * m.sum))

/-! ### Windows of a segment -/

/-- The values of one track, window by window, the newest first. -/
abbrev Wins := List (List Int)

/-- The value at place x of the window that stands `back` windows back; a place before or after it lies in the window beside it. -/
def Wins.at? (w : Wins) (back : Nat) (x : Int) : Option Int :=
  if x < 0 then (w[back + 1]?).bind (fun l => l[(64 + x).toNat]?)
  else if x < 64 then (w[back]?).bind (fun l => l[x.toNat]?)
  else if back = 0 then none
  else (w[back - 1]?).bind (fun l => l[(x - 64).toNat]?)

/-- An error of a bit (R86, R89): the bit, e and ec, and the mean symbols that the six cancellation coefficients met. -/
structure BitErr where
  k     : Int
  e     : Int
  ec    : Int
  means : List Int
  deriving DecidableEq, Repr

/-- One track in detection: taps and rho; equalized values, corrected values by sweep and Λ by stage, window by window; the errors of
the windows decided; the last 4,096 squared errors of unflagged bits; the sum and number of squared errors of unflagged data bits, sum
and number of their |Λ|; soft words so far (newest window first). -/
structure DetTrack where
  taps  : List Int
  rho   : List Int
  z     : Wins
  zc    : List Wins
  lam   : List Wins
  errs  : List (List (Option BitErr))
  last  : List Nat
  sq    : Nat
  cnt   : Nat
  absl  : Nat
  num   : Nat
  words : List Bytes
  deriving DecidableEq, Repr

/-- The bits of window n of the emitted span (R90). -/
def winBits (w n : Nat) : List Int :=
  ((List.range 64).map (fun (j : Nat) => (768 : Int) - w + 64 * n + j)).filter (fun k => decide (k < 32768 + w))

/-- The equalization of a window, the taps adapting before each bit by the error 704 bits earlier (R86). -/
def DetTrack.equalize (g : Seg) (c : DetCfg) (i : Nat) (ks : List Int) (t : DetTrack) : DetTrack :=
  let es := t.errs.getD (8 - 2 * c.sweeps) []
  let (zs, taps) := (List.range 64).foldl (fun (a : List Int × List Int) j =>
    let taps := match (es[j]?).getD none with
      | some x =>
        if g.flagged c i x.k || g.held x.k then a.2
        else lmsTaps g c i x.k x.e (if x.k < c.fast.getD i 0 then c.swap else c.eq) a.2
      | none => a.2
    match ks[j]? with
    | some k => (a.1 ++ [eqValue g c i k taps], taps)
    | none => (a.1, taps)) ([], t.taps)
  { t with taps := taps, z := (zs :: t.z).take 12 }

/-- σ² of a track (R89). -/
def DetTrack.trellis (c : DetCfg) (i : Nat) (t : DetTrack) : Trellis :=
  if t.last.isEmpty then ⟨c.tgt, max 1 (Config.firstSigma i), 1⟩ else ⟨c.tgt, max 1 (t.last.foldl (fun a x => a + x) 0), t.last.length⟩

/-- The inputs of a window of values. -/
def winIn (g : Seg) (c : DetCfg) (i : Nat) (ks zs : List Int) : List BitIn :=
  (ks.zip zs).map (fun e => ⟨e.2, g.flagged c i e.1, c.prior i e.1 * c.apr⟩)

/-- Λ of window n from values of which the newest window is n + 1. -/
def DetTrack.detect (g : Seg) (c : DetCfg) (w i n : Nat) (vals : Wins) (t : DetTrack) : List Int :=
  let ins := fun (m back : Nat) => winIn g c i (winBits w m) (vals.getD back [])
  (t.trellis c i).llr (if n = 0 then [] else ins (n - 1) 2) (ins n 1) (ins (n + 1) 0)

/-- The mean symbol of a bit in 1/1,024 (R89, R97): −1 for a blank track, 0 for a flagged or retired bit, or what its a-priori value
gives. -/
def meanOf (g : Seg) (c : DetCfg) (i : Nat) (k lam : Int) : Int :=
  if g.blank i then -1024
  else if g.flagged c i k then (if c.prior i k = 0 then 0 else Config.tanhTable (2 * c.prior i k))
  else Config.tanhTable (rnd (lam * 4) 65536)

/-- The means that the six cancellation coefficients of a track meet at place x of window n, whose Λ stand one window back: o = −1, +1,
j = −1, 0, 1. Beyond the emitted span no symbol is known. -/
def meansAt (g : Seg) (c : DetCfg) (lams : List Wins) (i x : Nat) (k : Int) : List Int :=
  ([-1, 1] : List Int).flatMap (fun o => ([-1, 0, 1] : List Int).map (fun j =>
    let t := (i : Int) + o
    if t < 0 ∨ 15 < t then 0
    else match (lams.getD t.toNat []).at? 1 (x + j) with
      | some l => meanOf g c t.toNat (k + j) l
      | none => 0))

/-- One step of stage s over all tracks when window n has just been equalized: corrected values of window n − 2s, Λ of window
n − 2s − 1. Stage 0 detects the equalized values. -/
def detStage (g : Seg) (c : DetCfg) (w n s : Nat) (ts : List DetTrack) : List DetTrack :=
  let ts := if s = 0 then ts
    else if n < 2 * s then ts
    else
      let ks := winBits w (n - 2 * s)
      let lams := ts.map (fun t => t.lam.getD (s - 1) [])
      ts.mapIdx (fun i t =>
        let zs := t.z.getD (2 * s) []
        let zc := (ks.zip zs).mapIdx (fun x e =>
          e.2 - rnd ((t.rho.zip (meansAt g c lams i x e.1)).foldl (fun a rm => a + rm.1 * rm.2) 0) (1024 * 1024))
        { t with zc := t.zc.mapIdx (fun r l => if r + 1 = s then (zc :: l).take 6 else l) })
  if n < 2 * s + 1 then ts
  else ts.mapIdx (fun i t =>
    let vals := if s = 0 then t.z else t.zc.getD (s - 1) []
    let lam := t.detect g c w i (n - 2 * s - 1) vals
    { t with lam := t.lam.mapIdx (fun r l => if r = s then (lam :: l).take 6 else l) })

/-- The hard decisions of the last stage around place x of the window one back, as a target needs them; none beyond what is decided. -/
def targetAt (tgt : Nat) (lam : Wins) (x : Nat) : Option Int :=
  let b := fun (j : Int) => (lam.at? 1 ((x : Int) + j)).map (fun l => if 0 < l then (1 : Int) else -1)
  match b (-2), b (-1), b 0, b 1 with
  | some p, some q, some r, some t => some (if tgt = 0 then 16 * (q + 2 * r + t) else 12 * (p + 2 * q + 2 * r + t))
  | none, some q, some r, some t => if tgt = 0 then some (16 * (q + 2 * r + t)) else none
  | _, _, _, _ => none

/-- The soft word of a bit (Table 04-3): its Λ scaled under R92, coded in units of 0.5. -/
def softWord (g : Seg) (c : DetCfg) (i : Nat) (k lam : Int) : Byte :=
  let nb := nbrOf g c i k
  if g.flagged c i k then BitVec.ofNat 8 (128 + (if nb then 64 else 0))
  else
    let n := if nb then rnd (2 * lam * c.nbr) (8 * 65536) else rnd (2 * lam) 65536
    BitVec.ofNat 8 ((if nb then 64 else 0) + unsignedOf 6 (clampI (-31) 31 n))

/-- A window of a track is decided: errors, residuals, soft words, and rho adapted by its errors in order (R89).
Log 53 (DESIGN CHOICE). -/
def DetTrack.judge (g : Seg) (c : DetCfg) (i : Nat) (ks : List Int) (lams : List Wins) (t : DetTrack) : DetTrack :=
  let lam := t.lam.getD c.sweeps []
  let z := t.z.getD (2 + 2 * c.sweeps) []
  let zc := if c.sweeps = 0 then z else (t.zc.getD (c.sweeps - 1) []).getD 2 []
  let errs : List (Option BitErr) := ks.mapIdx (fun x k => (targetAt c.tgt lam x).map (fun v =>
    ⟨k, z.getD x 0 - v, zc.getD x 0 - v, meansAt g c lams i x k⟩))
  let ok := (errs.filterMap id).filter (fun (e : BitErr) => !g.flagged c i e.k)
  let rho := ok.foldl (fun (r : List Int) e =>
    if g.held e.k then r else (r.zip e.means).map (fun rm => sat10c (rm.1 + rnd (e.ec * rm.2) (2 ^ c.rho * 1024)))) t.rho
  let d := (g.trks.getD i .none).delta
  let inData := fun (k : Int) => decide (768 + d ≤ k ∧ k < 32768 + d)
  let data := ok.filter (fun e => inData e.k)
  let ls := lam.getD 1 []
  let sure := (ks.zip ls).filter (fun x => inData x.1 && !g.flagged c i x.1)
  { t with
    errs := (errs :: t.errs).take 12, rho := rho, last := (ok.reverse.map (fun (e : BitErr) => e.e.natAbs ^ 2) ++ t.last).take 4096
    sq := t.sq + data.foldl (fun a e => a + e.e.natAbs ^ 2) 0, cnt := t.cnt + data.length
    absl := t.absl + sure.foldl (fun a x => a + x.2.natAbs) 0, num := t.num + sure.length
    words := ks.mapIdx (fun x k => softWord g c i k (ls.getD x 0)) :: t.words }

/-- One step of the pipeline of all 16 tracks: window n is equalized, every stage advances, and window n − 2 − 2S is decided. -/
def detStep (g : Seg) (c : DetCfg) (w n : Nat) (ts : List DetTrack) : List DetTrack :=
  let ts := ts.mapIdx (fun i t => t.equalize g c i (winBits w n))
  let ts := (List.range (c.sweeps + 1)).foldl (fun ts s => detStage g c w n s ts) ts
  if n < 2 + 2 * c.sweeps then ts
  else
    let ks := winBits w (n - 2 - 2 * c.sweeps)
    -- the means of the last sweep stand three windows back of the stage before it
    let lams := ts.map (fun t => (t.lam.getD (c.sweeps - 1) []).drop 2)
    ts.mapIdx (fun i t => t.judge g c i ks lams)

/-- The 16 tracks of a segment detected over its emitted span, 768 − W to 32,767 + W (R90), and the taps adapted by its last bits. -/
def detSegment (g : Seg) (c : DetCfg) (w : Nat) (ts : List DetTrack) : List DetTrack :=
  (List.range 512).foldl (fun ts n => detStep g c w n ts) ts

/-! ### Track segment records (Table 04-4) -/

/-- The 16-byte record of a track of a segment; its residual is the segment's.
Log 53 (DESIGN CHOICE). -/
def trkRecord (g : Seg) (c : DetCfg) (i : Nat) (t : DetTrack) (swap adapt : Bool) : Bytes :=
  let q := g.trks.getD i .none
  let nflag := ((List.range 32000).filter (fun k => g.flagged c i (768 + q.delta + (k : Nat)))).length
  let b0 := q.stat.code * 16 + (if g.pred then 8 else 0) + (if q.slip.isSome then 4 else 0) + (if swap then 2 else 0) + adapt.toNat
  leBytes 1 b0 ++ leBytes 1 (unsignedOf 8 q.delta) ++ leBytes 1 (unsignedOf 8 (q.slip.getD 0)) ++ [0#8]
    ++ leBytes 2 (if q.stat == .lost || q.slip.isSome then q.evbit else 65535) ++ leBytes 2 nflag
    ++ leBytes 2 (min 65535 (t.absl * 64 / (65536 * max 1 t.num)))
    ++ leBytes 2 (min 65535 (t.sq * 25600 / (max 1 t.cnt * targetPower c.tgt)))
    ++ (List.range 4).flatMap (fun n => match q.cand[n]? with
      | some d => leBytes 1 (unsignedOf 8 d)
      | none => [0x80#8])

end Sys2Proof.Machine
end

