-- ==== Sys2Proof/Machine/ReadOps.lean ====
section
/-! DEFINITION. Decoding a sector from its soft-store slot (R96, R97, R110 to R119): selection, codewords, the outer code, the
retry ladder, release. -/

namespace Sys2Proof.Machine

/-! ### Detection of a segment into the slot (R87 to R91, R98) -/

/-- A list held to a length. -/
def fitTo (n : Nat) (l : List Int) : List Int := (l ++ List.replicate (n - l.length) 0).take n

/-- The detector's settings for a segment of a pickup's current sector (R81, R100). -/
def State.detCfg (s : State) (b : BayId) (p : Pu) (g : Seg) (part : Nat) (q : SoftSlot) : DetCfg :=
  let u := s.pu b p
  let v := fun (f : Field) => s.bndN (.pickup b p) f
  let dead := (List.range 16).filter (fun i => !u.inService.contains i)
  let prior := fun (i : Nat) (k : Int) =>
    match q.ext[i]? with
    | none => 0
    | some l =>
      let x := k - 768 - (g.trks.getD i .none).delta
      if x < 0 ∨ 32000 ≤ x then 0
      else
        let pos := 32000 * part + x.toNat
        let e := l.getD pos 0
        if (randBits (pos + 1) (randSeed p q.sector i)).getD pos false then -e else e
  { tgt := u.det.target, eq := v .sheetDetEqShift, swap := v .sheetDetSwapShift, sweeps := v .sheetDetSweeps
    rho := v .sheetDetRhoShift, nbr := s.live .sheetDetNbrEraseScale, apr := s.live .sheetDetAprioriScale, dead := dead
    fast := u.det.fast, prior := prior }

/-- A whole segment of the sector being read is detected, and its soft words and records join the slot. A pickup without a
detector, or a sector its takeover cost, gets no words (R99).
Log 28 (DEDUCED). -/
def State.detectSegment (s : State) (b : BayId) (p : Pu) (a : SecAddr) (part : Nat) (g : Seg) : State :=
  let u := s.pu b p
  match u.slots.find? (fun q => q.sector == a && q.reading) with
  | none => s
  | some q =>
    let w := s.bndN (.pickup b p) .sheetSyncWindowBits
    if q.noDet ∨ !s.detectorUp b p then
      s.updSoft b p a (fun q => { q with
        segs := q.segs ++ [g], words := q.words ++ [List.replicate 16 []], trkRecs := q.trkRecs ++ [List.replicate 16 []] })
    else
      let c := s.detCfg b p g part q
      let d := u.det
      let ts := (List.range 16).map (fun i =>
        ({ taps := fitTo (tapPlan i).length (d.live.taps.getD i []), rho := fitTo 6 (d.live.rho.getD i []), z := []
           zc := List.replicate c.sweeps [], lam := List.replicate (c.sweeps + 1) [], errs := [], last := d.sigma.getD i []
           sq := 0, cnt := 0, absl := 0, num := 0, words := [] } : DetTrack))
      let ts := detSegment g c w ts
      let recs := ts.mapIdx (fun i t => trkRecord g c i t (d.swap.contains i) (d.adapted.contains i))
      let words := ts.map (fun t => t.words.reverse.flatten)
      let sq := d.sq.zipWith (fun a t => a + t.sq) ts
      let cnt := d.cnt.zipWith (fun a t => a + t.cnt) ts
      let s := s.updPu b p (fun u => { u with det := { u.det with
        live := ⟨ts.map (fun t => t.taps), ts.map (fun t => t.rho)⟩, sigma := ts.map (fun t => t.last), sq := sq, cnt := cnt } })
      s.updSoft b p a (fun q => { q with
        segs := q.segs ++ [g], words := q.words ++ [words], trkRecs := q.trkRecs ++ [recs]
        resid := sq.zip cnt })

/-! ### Selection (R96, R103, R111) -/

/-- The δ in force of a track's part: a kept trial, or the record's. -/
def SoftSlot.delta (q : SoftSlot) (i part : Nat) : Int :=
  match q.sel.find? (fun e => e.1 == i && e.2.1 == part) with
  | some e => e.2.2
  | none => (((q.segs[part]?).bind (fun g => g.trks[i]?)).map (fun t => t.delta)).getD 0

/-- The slip correction in force of a track's part: where it lies and n. -/
def SoftSlot.slip (q : SoftSlot) (i part : Nat) : Option (Nat × Int) :=
  if q.slips.contains (i, part) then
    ((q.segs[part]?).bind (fun g => g.trks[i]?)).bind (fun t => t.slip.map (fun n => (t.evbit, n)))
  else none

/-- The 32,000 soft words of a track's part as δ and slip place them; a bit outside the emitted span reads as `ERA`. -/
def SoftSlot.part (q : SoftSlot) (i part : Nat) : List Byte :=
  let ws := ((q.words.getD part []).getD i []).toArray
  let w : Int := ((ws.size : Int) - 32000) / 2
  let d := q.delta i part
  let sl := q.slip i part
  (List.range 32000).map (fun (x : Nat) =>
    let sh : Int := match sl with
      | some (loc, n) => if loc ≤ x then n else 0
      | none => 0
    let k := w + d + sh + x
    if k < 0 then 0x80#8 else ws.getD k.toNat 0x80#8)

/-- A track's 160,000 decoder inputs in track position order, and whether each is erased. -/
def SoftSlot.track (q : SoftSlot) (p : Pu) (i : Nat) : List (Int × Bool) :=
  ((List.range 5).flatMap (q.part i)).zipWith (fun w (u : Bool) => ((if u then -softLlr w else softLlr w), softEra w))
    (randBits 160000 (randSeed p q.sector i))

/-- The inputs of one codeword (R102). -/
def cwInputs (tv : Array (Int × Bool)) (j : Nat) : List (Int × Bool) :=
  (List.range 16000).map (fun b => tv.getD (posOfBit j b) (0, true))

/-- The first decode of one codeword of a track (R112). -/
def SoftSlot.decodeCw (q : SoftSlot) (p : Pu) (i j : Nat) : CwState :=
  let x := cwInputs (q.track p i).toArray j
  ldpcDecode (q.vals.nat .eccLdpcNorm) (q.vals.nat .eccLdpcMaxIter) (q.vals.nat .eccLdpcEraSkip) (x.map (fun v => v.1))
    (x.filter (fun v => v.2)).length

/-- All ten codewords of a track. -/
def SoftSlot.decodeTrack (q : SoftSlot) (p : Pu) (i : Nat) : List CwState := (List.range 10).map (q.decodeCw p i)

/-! ### Counts -/

/-- A codeword has not passed. -/
def CwState.bad (c : CwState) : Bool := c.verdict != some true

/-- Failed codewords of a track. -/
def SoftSlot.fails (q : SoftSlot) (i : Nat) : Nat := (((q.cws.drop (10 * i)).take 10).filter CwState.bad).length

/-- Failed codewords of the sector. -/
def SoftSlot.failed (q : SoftSlot) : Nat := (q.cws.filter CwState.bad).length

/-- Every codeword has its verdict. -/
def SoftSlot.decided (q : SoftSlot) : Bool := q.done && q.cws.length == 160 && q.cws.all (fun c => c.verdict.isSome)

/-- The sector is blank (R115). -/
def SoftSlot.isBlank (q : SoftSlot) (live : List Nat) (least : Nat) : Bool :=
  q.segs.length == 5 && q.segs.all (fun g => decide (least ≤ (live.filter (fun i => g.blank i)).length)) && q.cws.all CwState.bad

/-! ### The ladder (R116 to R118) -/

/-- The tracks with failures, most first, ties by lower track. -/
def SoftSlot.worst (q : SoftSlot) : List Nat :=
  let ts := (List.range 16).filter (fun i => 0 < q.fails i)
  (List.range 10).reverse.flatMap (fun n => ts.filter (fun i => q.fails i = n + 1))

/-- The status of a track's part. -/
def SoftSlot.statOf (q : SoftSlot) (i part : Nat) : TrkStat :=
  (((q.segs[part]?).bind (fun g => g.trks[i]?)).map (fun t => t.stat)).getD .lost

/-- The candidates of a track's part. -/
def SoftSlot.candOf (q : SoftSlot) (i part : Nat) : List Int :=
  (((q.segs[part]?).bind (fun g => g.trks[i]?)).map (fun t => t.cand)).getD []

/-- All trials of rungs 1 to 4 in the order of R116.
Log 29 (DEDUCED). -/
def SoftSlot.trials (q : SoftSlot) : List Trial :=
  let parts : List (Fin 5) := [0, 1, 2, 3, 4]
  let trks : List (Fin 16) := (List.range 16).filterMap (fun i => if h : i < 16 then some ⟨i, h⟩ else none)
  let order := q.worst.filterMap (fun i => if h : i < 16 then some (⟨i, h⟩ : Fin 16) else none)
  let rung1 := order.flatMap (fun t =>
    let found := parts.filter (fun x => q.statOf t.val x.val == .found)
    let other := parts.filter (fun x => q.statOf t.val x.val != .found)
    (other ++ found).flatMap (fun x => (q.candOf t.val x.val).map (fun c => Trial.delta t x c)))
  let rung2 := trks.flatMap (fun t => (parts.filter (fun x =>
    (((q.segs[x.val]?).bind (fun g => g.trks[t.val]?)).bind (fun y => y.slip)).isSome)).map (fun x => Trial.slip t x))
  rung1 ++ rung2 ++ [.longer, .rescue]

/-- A trial that has nothing left to gain: its track has no failure, or its candidate is the δ in force. -/
def SoftSlot.idleTrial (q : SoftSlot) (t : Trial) : Bool :=
  match t with
  | .delta i x c => q.fails i.val = 0 || q.delta i.val x.val = c
  | .slip i _ => q.fails i.val = 0
  | _ => false

/-- The rung of a trial. -/
def trialRung : Trial → Nat
  | .delta _ _ _ => 1
  | .slip _ _ => 2
  | .longer => 3
  | .rescue => 4

/-- A trial of rung 1 or 2 is kept if it lowers its track's failures (R117). -/
def SoftSlot.tryTrack (q new : SoftSlot) (p : Pu) (i : Nat) : SoftSlot :=
  let cs := new.decodeTrack p i
  if (cs.filter CwState.bad).length < q.fails i then
    { new with cws := new.cws.take (10 * i) ++ cs ++ new.cws.drop (10 * i + 10) }
  else q

/-- One round of column rescue, steps 1 to 4 of R118. A codeword that remains is decoded from the sector's soft words with the fixed
symbols entered as ±31; the `ERA` bits that are left count for R112.
Log 29 (DEDUCED). -/
def SoftSlot.rescueRound (q : SoftSlot) (p : Pu) : SoftSlot :=
  let tracks := ((List.range 16).map (fun i => (q.track p i).toArray)).toArray
  let least : Nat := q.vals.nat .eccRescueLlrMin
  let syms := outerSyms q.cws
  let cw := fun (pos : Nat) => q.cws.getD (cwOfPos pos) default
  let weak := (List.range 160).map (fun pos =>
    if (cw pos).bad then
      (if (cw pos).skipped then List.replicate 912 true
       else (List.range 912).map (fun s => (((cw pos).post.drop (16 * s)).take 16).any (fun x => decide (x.natAbs < least))))
    else [])
  let cols := (List.range 912).map (fun s =>
    gf16.rsDecode 16 (column syms s) ((List.range 160).filter (fun pos => (weak.getD pos []).getD s false)))
  { q with cws := q.cws.mapIdx (fun idx c =>
      if !c.bad then c
      else
        let pos := rsPos idx
        let fixed := cols.map (fun col => col.map (fun l => l.getD pos 0))
        let bits := fixed.mapIdx (fun s f => match f with
          | some v => bitsOfNat 16 v
          | none => (c.bits.drop (16 * s)).take 16)
        let word := bits.flatten ++ c.bits.drop 14592
        if fixed.all Option.isSome && ldpcGood (blocksOfBits 125 word) then
          { c with verdict := some true, bits := word, post := word.map (fun x => if x then 31 else -31), msgs := [] }
        else
          let soft := (cwInputs (tracks.getD (idx / 10) #[]) (idx % 10)).toArray
          let ins := (List.range 16000).map (fun n => match (fixed[n / 16]?).getD none with
            | some v => ((if v.testBit (15 - n % 16) then (31 : Int) else -31), false)
            | none => soft.getD n (0, true))
          ldpcDecode (q.vals.nat .eccLdpcNorm) (q.vals.nat .eccLdpcMaxIter) (q.vals.nat .eccLdpcEraSkip) (ins.map (fun x => x.1))
            (ins.filter (fun x => x.2)).length) }

/-- Rounds of rescue. -/
def SoftSlot.rescue (p : Pu) : Nat → SoftSlot → SoftSlot
  | 0, q => q
  | n + 1, q => SoftSlot.rescue p n (q.rescueRound p)

/-- A slot after a trial. -/
def SoftSlot.runTrial (q : SoftSlot) (p : Pu) (t : Trial) : SoftSlot :=
  match t with
  | .delta i x c =>
    q.tryTrack { q with sel := (i.val, x.val, c) :: q.sel.filter (fun e => !(e.1 == i.val && e.2.1 == x.val)) } p i.val
  | .slip i x => q.tryTrack { q with slips := (i.val, x.val) :: q.slips } p i.val
  | .longer => { q with cws := q.cws.map (fun c =>
      if c.bad then ldpcMore (q.vals.nat .eccLdpcNorm) (q.vals.nat .eccRetryIter) c else c) }
  | .rescue => SoftSlot.rescue p (q.vals.nat .eccRescueRounds) q

/-- The LDPC extrinsics of an attempt by track and coded bit, or ±31 for bits of codewords that the columns recovered (R97). -/
def SoftSlot.extrinsics (q : SoftSlot) (p : Pu) : List (List Int) :=
  (List.range 16).map (fun i =>
    let tv := (q.track p i).map (fun v => v.1)
    let cs := ((q.cws.drop (10 * i)).take 10).map (fun c => (c.post.toArray, c.msgs.isEmpty))
    tv.mapIdx (fun pos v =>
      let (j, n) := bitAtPos pos
      let c := cs.getD j (#[], false)
      let post := c.1.getD n 0
      if c.2 then post else clampI (-31) 31 (post - v)))

/-! ### What a first pass leads to -/

/-- R87: a track with `sheet.det.rollback_cw` or more failed codewords reverts at the next sector boundary. -/
def State.tapRollback (s : State) (b : BayId) (p : Pu) (q : SoftSlot) : State :=
  let n := s.liveN .sheetDetRollbackCw
  let held := (s.pu b p).det.snaps.any (fun e => e.1 == q.sector)
  let bad := (List.range 16).filter (fun i => decide (n ≤ q.perTrk.getD i 0))
  if held then s.updPu b p (fun u => { u with det := { u.det with
      revert := bad.map (fun i => (i, q.sector)) ++ u.det.revert.filter (fun e => !bad.contains e.1) } })
  else s

/-- R88: diverged tracks reload from the calibrated bank at the next sector boundary. -/
def State.eqDiverge (s : State) (b : BayId) (p : Pu) (q : SoftSlot) : State :=
  let u := s.pu b p
  let pct := s.liveN .sheetDetDivergePct
  let run := s.liveN .sheetDetDivergeSectors
  let least := s.bnd (.pickup b p) .sheetDetCentreMin
  let past := fun (i : Nat) => (q.resid[i]?).any (fun r => decide (pct * targetPower u.det.target * r.2 < 100 * r.1))
  let high := (List.range 16).map (fun i => if past i then u.det.high.getD i 0 + 1 else 0)
  let centre := fun (i : Nat) => ((((tapPlan i).zip (u.det.live.taps.getD i [])).find? (fun t => t.1 == (0, 0))).map (fun t => t.2)).getD 0
  let bad := u.inService.filter (fun i =>
    !u.det.reload.contains i && (run ≤ high.getD i 0 || (decide (centre i < least) && !(u.det.live.taps.getD i []).isEmpty)))
  let s := s.updPu b p (fun u => { u with
    det := { u.det with high := high.mapIdx (fun i n => if bad.contains i then 0 else n), reload := bad ++ u.det.reload }
    cnt := { u.cnt with eqReset := u.cnt.eqReset + bad.length } })
  bad.foldl (fun s i => s.raisePu b p 8 .sheetEqReset p.idx i 0) s

/-- A verify read is judged (R140): the slot is released, the sector passes or fails. -/
def State.verifyJudge (s : State) (b : BayId) (p : Pu) (q : SoftSlot) : State :=
  let s := s.updPu b p (fun u => { u with slots := u.slots.filter (fun x => x.sector != q.sector) })
  match (s.pu b p).write.coded? q.sector with
  | none => s
  | some c =>
    let n := (List.range 16).foldl (fun a i => if c.mask.getLsbD i then a else a + q.fails i) 0
    let o := outerPlain q.cws
    if n ≤ s.liveN .writeVerifyMaxFailedCw ∧ o.good ∧ s.releaseOk b p q.sector .verify o.payload then
      (s.updCoded b p q.sector (fun c => { c with checked := some true })).doneCoded b p q.sector
    else
      ((s.updCoded b p q.sector (fun c => { c with checked := some false })).raisePu b p 12 .writeVerifyFail).failCoded b p q.sector

/-- An outer-good sector is released, or ends `MISMATCH` (R114). -/
def State.finishSector (s : State) (b : BayId) (p : Pu) (q : SoftSlot) (rung : Nat) (o : OuterOut) : State :=
  let s := s.updPu b p (fun u => { u with reads := u.reads.filter (fun r => r.sector != q.sector || r.again = 0) })
  let q := { q with misc := o.misc }
  if s.releaseOk b p q.sector q.why o.payload then
    let out : SecOutcome :=
      if rung = 0 then (if q.failed = 0 && !o.changed then .clean else .outer) else if rung = 5 then .reread else .ladder
    s.endSlot b p q out rung (some o.payload)
  else s.endSlot b p q .mismatch rung none

/-- The ladder begins, or goes on with the next trial that can gain; the sector is queued for a re-read, or ends `LOST`, after
rung 4 (R116, R119). An early `LOST` leaves the read its buffers, into which a later `REREAD` lands. -/
def State.ladderNext (s : State) (b : BayId) (p : Pu) (q : SoftSlot) : State :=
  let left := q.plan.dropWhile q.idleTrial
  match left with
  | _ :: _ => s.updSoft b p q.sector (fun _ => { q with plan := left })
  | [] =>
    let early := s.liveN .eccRetryEarlyLost = 1 ∧ q.rereads = 0 ∧ !q.early
    let s := if early then (match q.why with
        | .hamper h seq pos => s.sectorUnread h seq pos true []
        | _ => s) else s
    let q := { q with early := q.early || decide early, plan := [], rung := 6 }
    if q.rereads < s.liveN .eccRetryRereads then
      (s.updSoft b p q.sector (fun _ => q)).updPu b p (fun u => { u with reads := u.reads ++ [⟨q.sector, q.why, q.rereads + 1, s.us⟩] })
    else s.ladderEnds b p q

/-- A sector whose codewords all have their verdict is judged (R113 to R115), once a wedge has confirmed it (R69). -/
def State.judgeSector (s : State) (b : BayId) (p : Pu) (a : SecAddr) : State :=
  match (s.pu b p).slots.find? (fun q => q.sector == a) with
  | none => s
  | some q =>
    if !q.decided ∨ q.wait ∨ !q.plan.isEmpty ∨ q.rung = 6 then s
    else if q.why == .verify then s.verifyJudge b p q
    else
      let o := outerPlain q.cws
      let q := { q with misc := o.misc }
      if o.good then s.finishSector b p q (if 0 < q.rereads then 5 else 0) o
      else if q.isBlank (s.pu b p).inService (q.vals.nat .eccBlankMinTracks) then s.endSlot b p q .blank 0 none
      else s.ladderNext b p { q with plan := q.trials, rung := max 1 q.rung }

/-- The first pass of a sector is over: its counts (R125), R87 and R88, then its judgement. -/
def State.firstPass (s : State) (b : BayId) (p : Pu) (a : SecAddr) : State :=
  match (s.pu b p).slots.find? (fun q => q.sector == a) with
  | none => s
  | some q =>
    if !q.decided then s
    else
      let q := if q.rereads = 0 then { q with
          first := q.failed, perTrk := (List.range 16).map q.fails
          iters := q.cws.foldl (fun n c => n + c.iters) 0 * 256 / 160 } else q
      let s := s.updSoft b p a (fun _ => q)
      let s := (s.tapRollback b p { q with perTrk := (List.range 16).map q.fails }).eqDiverge b p q
      s.judgeSector b p a

end Sys2Proof.Machine
end

