-- ==== Sys2Proof/Machine/ReadRows.lean ====
section
/-! DEFINITION. The commands of reading a sector and of the detector and decoder pools (04_sheet_detection.md,
05_sector_code.md). -/

namespace Sys2Proof.Machine

/-- The sector that an event names by its first frame. -/
def sectorOf (a : FrameAddr) : SecAddr := ⟨a.layer, a.zone, a.frame / 5⟩

/-- A codeword not decoded yet. -/
def CwState.open' : CwState := ⟨none, false, [], [], 0, []⟩

/-- `SECTOR_SOFT_COMMIT` (R98, R121): the oldest sector emitted whole is committed; a first pass takes the `ecc` values. -/
def execSectorSoftCommit (b : BayId) (p : Pu) (s : State) : Host.Outcome State Fault Refusal :=
  withBay b s (fun s =>
    match (s.pu b p).slots.find? (fun q => !q.reading && !q.done && q.segs.length == 5) with
    | some q =>
      if !s.portUp b p then s
      else
        let s := if q.rereads = 0 then s.boundary (.pickup b p) 3 else s
        let v := s.unitCfg (.pickup b p) 3
        s.updSoft b p q.sector (fun q => { q with
          done := true, cws := List.replicate 160 .open', begun := if q.rereads = 0 then s.us else q.begun
          vals := if q.rereads = 0 then v else q.vals })
    | none => s)

/-- Codewords of a sector that wait for their decode. -/
def SoftSlot.waiting (q : SoftSlot) : Nat := if q.done then (q.cws.filter (fun c => c.verdict.isNone)).length else 0

/-- The slots of a region's pickups. -/
def State.regionSlots (s : State) (r : Nat) : List SoftSlot :=
  (regionBays r).flatMap (fun b => (s.pu b .A).slots ++ (s.pu b .B).slots)

/-- First-pass codewords that stand before a sector's in the region queue (R123). -/
def State.firstAhead (s : State) (r : Nat) (before : SoftSlot → Bool) : Nat :=
  ((s.regionSlots r).filter (fun x => x.rereads = 0 && before x)).foldl (fun n x => n + x.waiting) 0

/-- The decoders have come to a sector's work (R123): a first pass behind older first passes, ladder work behind every first pass and
the ladder work of older sectors.
Log 29 (DEDUCED). -/
def State.decodersReach (s : State) (r : Nat) (q : SoftSlot) (ladder : Bool) : Bool :=
  if ladder then
    let older := (s.regionSlots r).filter (fun x => x.begun < q.begun && (!x.plan.isEmpty || (0 < x.rereads && 0 < x.waiting)))
    decide (s.firstAhead r (fun _ => true) + older.length < s.working 3 r)
  else decide (s.firstAhead r (fun x => decide (x.begun < q.begun)) < s.working 3 r)

/-- `LDPC_CODEWORD_DONE` (R112 to R115, R87, R88, R140): one codeword decoded by a working decoder of the region; after the last,
the sector is judged. -/
def execLdpcCodewordDone (b : BayId) (p : Pu) (sector : FrameAddr) (cw : Fin 160) (s : State) :
    Host.Outcome State Fault Refusal :=
  withBay b s (fun s =>
    let a := sectorOf sector
    match (s.pu b p).slots.find? (fun q => q.sector == a) with
    | some q =>
      if q.done && ((q.cws.getD cw.val .open').verdict).isNone && s.decodersReach (regionOf b) q (0 < q.rereads) && !s.sysHeld then
        let c := q.decodeCw p (cw.val / 10) (cw.val % 10)
        (s.updSoft b p a (fun q => { q with cws := q.cws.set cw.val c })).firstPass b p a
      else s
    | none => s)

/-- `LADDER_TRIAL_DONE` (R116 to R119, R114): the next trial of the sector's ladder.
Log 29 (DEDUCED). -/
def execLadderTrialDone (b : BayId) (p : Pu) (sector : FrameAddr) (trial : Trial) (s : State) :
    Host.Outcome State Fault Refusal :=
  withBay b s (fun s =>
    let a := sectorOf sector
    match (s.pu b p).slots.find? (fun q => q.sector == a) with
    | some q =>
      if q.plan.head? == some trial && q.decided && s.decodersReach (regionOf b) q true && !s.sysHeld then
        let q' := { q.runTrial p trial with plan := q.plan.tail, rung := trialRung trial }
        let o := outerPlain q'.cws
        let q' := { q' with misc := o.misc }
        if o.good then s.finishSector b p q' (if 0 < q.rereads then 5 else trialRung trial) o
        else s.ladderNext b p q'
      else s
    | none => s)

/-- `REREAD_PASS` (R97, R119): the sector opens under the pickup again; its new read runs with the extrinsics of the old. -/
def execRereadPass (b : BayId) (p : Pu) (sector : FrameAddr) (s : State) : Host.Outcome State Fault Refusal :=
  withBay b s (fun s =>
    let a := sectorOf sector
    let u := s.pu b p
    match u.slots.find? (fun q => q.sector == a && q.rung = 6), u.reads.find? (fun r => r.sector == a && 0 < r.again) with
    | some q, some r =>
      if u.cur.isNone && u.write.block.isNone && u.sheet.lock == .locked && u.sheet.lastConf == ⟨p, a.layer, a.zone, a.frame⟩ && u.sheet.releasing
          && u.ms.st == .follow && s.portUp b p && s.detectorUp b p then
        let ext := if q.cws.isEmpty then q.ext else q.extrinsics p
        let s := s.updPu b p (fun u => { u with cur := some r, reads := u.reads.filter (fun x => !(x.sector == a && 0 < x.again)) })
        s.updSoft b p a (fun q => { q with
          reading := true, done := false, segs := [], words := [], trkRecs := [], sel := [], slips := [], ext := ext
          rereads := q.rereads + 1, rung := 5, cws := [], noDet := false })
      else s
    | _, _ => s)

/-- `LADDER_TIMEOUT` (R117). -/
def execLadderTimeout (b : BayId) (p : Pu) (sector : FrameAddr) (s : State) : Host.Outcome State Fault Refusal :=
  withBay b s (fun s =>
    match (s.pu b p).slots.find? (fun q => q.sector == sectorOf sector) with
    | some q =>
      if q.inLadder && q.begun + s.liveN .eccRetryMaxMs * 1000 ≤ s.us then s.ladderEnds b p q else s
    | none => s)

/-- The active instance that a faulty block of a kind served: itself, or the one it stands in for. -/
def State.servedBy (s : State) (id : BlockId) : Option Nat :=
  if id.inst < kindActive id.kind then some id.inst else (s.blkOf id).serves

/-- A decoder is faulty (R124): fenced; its codewords are decoded again from the soft store by another, and the spare is called. -/
def State.decoderFaulty (s : State) (r d : Nat) : State :=
  let id : BlockId := ⟨3, r, d⟩
  let inst := s.servedBy id
  let s := (s.fence id).regionEvent r 2 .ldpcFault 0 0 0
  match inst with
  | none => s
  | some i =>
    let (got, s) := s.claimSpare ⟨3, r, i⟩
    match got with
    | some _ => { s with blk := { s.blk with takeovers := ⟨r, 3, i, s.us⟩ :: s.blk.takeovers } }
    | none => s.regionEvent r 2 .ldpcNoSpare 0 0 0

/-- `LDPC_DECODER_FAULT` (R124). -/
def execLdpcDecoderFault (r : RegionId) (d : Fin 26) (_cause : FaultCause) (s : State) : Host.Outcome State Fault Refusal :=
  withRegion r s (fun s => if s.sysHeld || !(s.blkOf ⟨3, r.val, d.val⟩).up then s else s.decoderFaulty r.val d.val)

/-- `LDPC_SPARE_ENTER` (R124). -/
def execLdpcSpareEnter (r : RegionId) (s : State) : Host.Outcome State Fault Refusal :=
  withRegion r s (fun s =>
    match s.blk.takeovers.reverse.find? (fun t => t.kind == 3 && t.region == r.val) with
    | some t =>
      let s : State := { s with blk := { s.blk with takeovers := s.blk.takeovers.erase t } }
      s.regionEvent r.val 2 .ldpcSpare 0 0 0
    | none => s)

/-- The bay and pickup that a detector or port instance serves (R82). -/
def portOf (r i : Nat) : BayId × Pu := (Fin.ofNat 32 (8 * r + i / 2), if i % 2 = 0 then .A else .B)

/-- Output that has not been committed is discarded: the sector goes to decoding as having no detector output (R98, R99). -/
def SoftSlot.loseOutput (q : SoftSlot) : SoftSlot :=
  { q with noDet := true, words := q.words.map (fun _ => List.replicate 16 []), trkRecs := q.trkRecs.map (fun _ => List.replicate 16 []) }

/-- A verify in progress on a pickup ends (R140). -/
def State.endVerify (s : State) (b : BayId) (p : Pu) : State :=
  match (s.pu b p).write.block with
  | some k => if k.step == .verify || k.step == .verifyJump then s.abandonBlock b p else s
  | none => s

/-- A detector is faulty (R98, R99): fenced, its pickup's sectors without committed output lose it, and the spare is assigned with
the bank of the latest snapshot. Without one the pickup leaves read service, and a bay with no pickup left is asked to be held (R382). -/
def State.detectorFaulty (s : State) (r d : Nat) : State :=
  let id : BlockId := ⟨2, r, d⟩
  let inst := s.servedBy id
  let s := (s.fence id).regionEvent r 1 .sheetDetFault 0 0 0
  match inst with
  | none => s
  | some i =>
    let (b, p) := portOf r i
    let s := s.newSlot b p
    let s := s.updPu b p (fun u => { u with
      slots := u.slots.map (fun q => if q.done then q else q.loseOutput)
      det := { u.det with live := ((u.det.snaps.head?).map (fun e => e.2)).getD u.det.live } })
    let (got, s) := s.claimSpare ⟨2, r, i⟩
    (match got with
     | some _ => { s with blk := { s.blk with takeovers := ⟨r, 2, i, s.us⟩ :: s.blk.takeovers } }
     | none =>
       let s := ((s.regionEvent r 1 .sheetDetNoSpare 0 0 0).endVerify b p).readsLost b p
       if s.detectorUp b .A || s.detectorUp b .B then s else s.askHold b).after b

/-- `DETECTOR_FAULT` (R98, R99). -/
def execDetectorFault (r : RegionId) (d : Fin 17) (_cause : FaultCause) (s : State) : Host.Outcome State Fault Refusal :=
  withRegion r s (fun s => if s.sysHeld || !(s.blkOf ⟨2, r.val, d.val⟩).up then s else s.detectorFaulty r.val d.val)

/-- `DETECTOR_SPARE_START` (R98). -/
def execDetectorSpareStart (r : RegionId) (s : State) : Host.Outcome State Fault Refusal :=
  withRegion r s (fun s =>
    match s.blk.takeovers.reverse.find? (fun t => t.kind == 2 && t.region == r.val) with
    | some t =>
      let s : State := { s with blk := { s.blk with takeovers := s.blk.takeovers.erase t } }
      s.regionEvent r.val 1 .sheetDetSpare 0 0 0
    | none => s)

end Sys2Proof.Machine
end

