-- ==== Sys2Proof/Machine/WriteRows.lean ====
section
/-! DEFINITION. The commands of the write path (06_write_path.md). -/

namespace Sys2Proof.Machine

/-! ### Encoding (R109, R127) -/

/-- The tracks a pickup leaves unwritten: retired or suspended. -/
def Pickup.unwritten (u : Pickup) : BitVec 16 :=
  BitVec.ofNat 16 (((List.range 16).filter (fun i => !u.inService.contains i)).foldl (fun a i => a + 2 ^ i) 0)

/-- A payload whose metadata carries a retired-lane mask. -/
def maskPayload (mask : BitVec 16) (payload : Bytes) : Bytes :=
  sealRecord 512 (putAt (payload.take 508) 56 (leBytes 2 mask.toNat)) ++ payload.drop 512

/-- A sector as the encoder codes it for the tracks that its pickup writes. -/
def Coded.encode (c : Coded) (p : Pu) (mask : BitVec 16) : Coded :=
  let payload := maskPayload mask c.payload
  { c with payload := payload, mask := mask, bits := sectorEncode p c.sector payload mask, coded := true }

/-- `SECTOR_ENCODE` (R109, R127): the next sector is encoded into a free place of the write store; a failed self-check discards it,
retires the encoder and leaves the sector to the spare. `upset` says that a fault of the encoder has changed the bits.
Log 30 (DEDUCED). -/
def execSectorEncode (b : BayId) (p : Pu) (upset : Bool) (s : State) : Host.Outcome State Fault Refusal :=
  withBay b s (fun s =>
    let w := (s.pu b p).write
    let r := regionOf b
    match w.queue with
    | [] => s
    | c :: rest =>
      match s.server 4 r 0 with
      | none => s
      | some e =>
        if s.sysHeld ∨ s.bootN .memWstoreSlots ≤ w.store.length then s
        else if upset || !encodeCheck (sectorWords (c.encode p (s.pu b p).unwritten).payload) then
          let s := s.regionEvent r 3 .writeEncFault 0 0 0
          ((s.fence ⟨4, r, e⟩).claimSpare ⟨4, r, 0⟩).2
        else
          let c := c.encode p (s.pu b p).unwritten
          s.updPu b p (fun u => { u with write := { u.write with queue := rest, store := u.write.store ++ [c] } }))

/-! ### Pass blocks (R128, R129) -/

/-- A sector of the write store that stands in a spare or holds a relocation record: the work of an excursion (R139). -/
def Coded.ofExcursion (c : Coded) : Bool := c.home.isSome || (match c.why with
  | .relocRecord _ => true
  | _ => false)

/-- A pickup has relocation work left. -/
def WPath.relocWork (w : WPath) : Bool := (w.queue ++ w.store).any (fun c => c.ofExcursion && !c.failed)

/-- Consecutive sectors from a number on that are coded and untouched. -/
def runFrom (cs : List Coded) : Nat → Nat → Nat
  | 0, _ => 0
  | k + 1, a => if cs.any (fun c => c.sector.sector == a) then 1 + runFrom cs k (a + 1) else 0

/-- Sectors left in the zone's user sectors from a sector on; no limit outside them (R128). -/
def zoneLeft (z : Zone) (a : Nat) : Nat :=
  match z, userOfSector a with
  | .data, some _ => 8960 - (a - 1280) % 9056
  | _, _ => 582144

/-- An excursion of a bay ends once neither pickup has relocation work.
Log 30 (DEDUCED). -/
def State.endExcursion (s : State) (b : BayId) : State :=
  let y := s.bay b
  if (y.pa.write.excursion || y.pb.write.excursion) && !y.pa.write.relocWork && !y.pb.write.relocWork then
    let off := fun (u : Pickup) => { u with write := { u.write with excursion := false } }
    s.updBay b (fun y => { y with pa := off y.pa, pb := off y.pb })
  else s

/-- The coded sectors a block of the pickup can open with: untouched, of the layer and zone under it, ahead of the last confirmed
frame. -/
def Pickup.openCoded (u : Pickup) : List Coded :=
  let x := u.sheet
  u.write.store.filter (fun c => c.coded && !c.touched && !c.failed && c.sector.layer == u.ms.layer && c.sector.zone == x.lastConf.zone
    && c.ofExcursion == u.write.excursion && x.lastConf.frame < c.sector.frame)

/-- The lowest sector of a list.
Log 30 (DEDUCED). -/
def lowestSector (l : List Coded) : Option Nat :=
  l.foldl (fun (a : Option Nat) c => match a with
    | some m => some (min m c.sector.sector)
    | none => some c.sector.sector) none

/-- The sectors of a block from sector `a` on (R128): the smallest of the coded run, the zone's rest and floor((N − margin) / 5). -/
def State.blockLen (s : State) (b : BayId) (p : Pu) (a : Nat) : Nat :=
  let u := s.pu b p
  let zone := u.sheet.lastConf.zone
  let turn := framesPerTurnMilli (radiusOf zone (5 * a)) / 1000
  min (min (runFrom u.openCoded 512 a) (zoneLeft zone a)) ((turn - s.bndN (.pickup b p) .writeJumpMarginFrames) / 5)

/-- The running calibration step writes sector `a` itself (item 7). -/
def Pickup.powerCalAt (u : Pickup) (a : Nat) : Bool :=
  match u.cal.step with
  | some (7, _) => u.openCoded.any (fun c => c.sector.sector == a && c.why == .powerCal)
  | _ => false

/-- A block may start at sector `a` (R128, R138, R141): no block runs, nothing stops writes, the strategy bank is the layer's, the
pickup follows in frame lock, no drain runs and the cores are not held; a forced calibration gap admits its own sectors only. -/
def State.blockMayStart (s : State) (b : BayId) (p : Pu) (a : Nat) : Bool :=
  let u := s.pu b p
  let w := u.write
  w.block.isNone && w.load.isNone && !w.stop && !w.bankStop && w.bankLayer == some u.ms.layer && u.ms.st == .follow && u.sheet.lock == .locked
    && s.surfaceWrites b p && s.host.act.isNone && s.coreStarts b (.pickup p) && (u.powerCalAt a || u.cal.gap.isNone)

/-- `PASS_BLOCK_START` (R128, R138, R141): the `write` section's boundary, then a block of the length that fits. Work that arrives
during an unforced calibration step ends it (R358).
Log 30 (DEDUCED). -/
def execPassBlockStart (b : BayId) (p : Pu) (s : State) : Host.Outcome State Fault Refusal :=
  withBay b s (fun s =>
    let s := s.endExcursion b
    let u := s.pu b p
    match lowestSector u.openCoded with
    | none => s
    | some a =>
      if !s.blockMayStart b p a then s
      else
        let s := s.abandonTune b p
        let s := if u.powerCalAt a then s else s.updPu b p (fun u => { u with cal := { u.cal with step := none } })
        let s := s.boundary (.pickup b p) 4
        let n := s.blockLen b p a
        if n = 0 then s
        else
          s.updPu b p (fun u => { u with write := { u.write with
            block := some { j := 5 * a, n := n, layer := u.ms.layer, zone := u.sheet.lastConf.zone, step := .even, tries := 0
                            opened := true, verify := s.bndN (.pickup b p) .writeVerify = 1, next := 5 * a
                            lead := s.bndN (.pickup b p) .writeLeadUs }
            sent := [], emits := [], laneHold := none } }))

/-! ### Segments (R131, R133, R48) -/

/-- The segment sync of a parity (Table 01-3). -/
def segSync (odd : Bool) : Nat := if odd then 0x5E21C7B83A4D960F else 0x3C5A96E10F87B42D

/-- The 32,256 bits of one track's segment: preamble, sync, data; a track left unwritten carries none (R20, R109). -/
def segBits (odd blank : Bool) (data : List Bool) : List Bool :=
  if blank then List.replicate 32256 false
  else (List.replicate 48 [true, true, false, false]).flatten ++ bitsOfNat 64 (segSync odd) ++ data

/-- The payload of one `WRITE` frame of a segment (Table 02-6). -/
def writePayload (pass m start phase : Nat) (bits : List (List Bool)) : Bytes :=
  let b0 := (if m = 0 then 128 else 0) + 64 * pass + (if m = 125 then 32 else 0)
  leBytes 1 b0 ++ zeros 3 ++ beBytes 4 (if m = 0 then start else 0) ++ beBytes 2 (if m = 0 then phase else 0) ++ zeros 2
    ++ bits.flatMap (fun l => bytesOfBits 32 ((l.drop (256 * m)).take 256))

/-- The 126 `WRITE` frames of a segment (R48, R49): the first goes now, the others behind the frames that wait, each with the link
time at which its bits fall due. `first` is the time of the first bit, in 1/65,536 sample. -/
def State.sendSegment (s : State) (b : BayId) (p : Pu) (pass : Nat) (first interval : Int) (bits : List (List Bool)) : State :=
  let due := fun (m : Nat) => ((first + interval * (256 * m : Nat) / 32768) / 65536).toNat
  let frame := fun (m : Nat) => (due m, writePayload pass m ((first / 65536).toNat % 2 ^ 32) (first % 65536).toNat bits)
  let idle := (s.link b p).wq.isEmpty
  let s := s.updLink b p (fun l => { l with wq := l.wq ++ (List.range 126).map frame })
  if idle then s.dnSlot b p else s

/-- The smallest write delay of a strategy set, in 1/16 channel bit. -/
def leastDelay (bank : Bytes) : Nat :=
  ((List.range 32).map (fun e => beAt bank (2048 * e + 6) 2)).foldl min 65535

/-- The write frequency of `DS_WRITE` for a wedge interval (R131). -/
def writeFreq (interval : Int) : Nat := (rnd (2 ^ 31 * 32768 * 65536) (max 1 interval.toNat)).toNat

/-- The predicted link time of frame bit 512 of the frame whose sync is predicted at `sync`, less the smallest write delay of
the strategy bank in force, in 1/65,536 sample period (R131, R133). -/
def segFirst (interval sync : Int) (bank : Bytes) : Int :=
  sync + rnd (interval * 384) 32768 - rnd (interval * leastDelay bank) (32768 * 16)

/-- The first bit of frame `f`'s segment as the last confirmed wedge predicts it (R131): its link time in 1/65,536 sample, and the
predicted sync position of its own wedge. -/
def Pickup.segStart (u : Pickup) (f : Nat) : Int × Int :=
  let x := u.sheet
  let sync := x.lastPos + ((f : Int) - x.lastConf.frame) * x.interval
  (segFirst x.interval sync ((u.write.strategies.head?.map (fun q => q.bank)).getD []), sync)

/-- The channel bits of the eight tracks a pass writes in frame `f` (R20, R48); tracks of `blank` carry none (R109). -/
def Coded.segment (c : Coded) (f pass : Nat) (blank : BitVec 16) : List (List Bool) :=
  (List.range 8).map (fun i =>
    let t := 2 * i + pass
    segBits (pass = 1) (blank.getLsbD t) (((c.bits.getD t []).drop (32000 * (f % 5))).take 32000))

/-- A spare is used once a segment of it has been touched, and is not taken again while the disc's use is known (R27). -/
def State.useSpare (s : State) (b : BayId) (p : Pu) (a : SecAddr) : State :=
  let s := s.updPu b p (fun u => { u with write := { u.write with spareNext := a :: u.write.spareNext } })
  match (s.bay b).disc.serial with
  | some sn => { s with ham := { s.ham with spares := (sn, p, a) :: s.ham.spares } }
  | none => s

/-- The first segment of a sector is sent: a spare is used, a sector of a hamper is being written. -/
def State.touchSector (s : State) (b : BayId) (p : Pu) (c : Coded) : State :=
  let s := if c.home.isSome && !c.touched then s.useSpare b p c.sector else s
  match c.why with
  | .placed h seq m => if c.home.isNone && !c.touched then s.sectorTouched h seq m else s
  | _ => s

/-- The segment of frame `f`, timed from the last confirmed wedge (R131), is sent and its sector touched (R137). A sector whose
pickup leaves other tracks unwritten than when it was coded is coded for them before its first segment; after it they are written
blank (R109).
Log 30 (DEDUCED). -/
def State.writeSegment (s : State) (b : BayId) (p : Pu) (k : PassBlock) (c : Coded) (f : Nat) : State :=
  let u := s.pu b p
  let ivl := u.sheet.interval
  let (first, sync) := u.segStart f
  let out := u.unwritten
  let c := if c.touched || c.mask == out then c else c.encode p out
  let now : Int := u.link.linkTime s.us
  let start := first / 65536
  let g : SentSeg := ⟨f, k.pass, sync, start, (first + ivl * 32256 / 32768) / 65536⟩
  let s := s.updLink b p (fun l => { l with wplan := (start.toNat, writeFreq ivl) :: l.wplan.take 3 })
  let s := s.sendSegment b p k.pass first ivl (c.segment f k.pass (c.mask ||| out))
  let s := (s.touchSector b p c).updCoded b p c.sector (fun _ => { c with touched := true, sent := (f, k.pass) :: c.sent })
  s.updPu b p (fun u => { u with write := { u.write with
    block := u.write.block.map (fun k => { k with next := f + 1 }), sent := u.write.sent ++ [g]
    emits := g :: u.write.emits.filter (fun x => decide (now < x.last)) } })

/-- A sector of a pass may be written: in the even pass while untouched or begun whole so far, in the odd pass once every even
segment is good (R132, R137). -/
def Coded.mayWrite (c : Coded) (f pass : Nat) : Bool :=
  let upto := (List.range (f % 5)).map (fun i => f - f % 5 + i)
  !c.failed && upto.all (fun g => c.sent.contains (g, pass))
    && (pass = 0 || (List.range 5).all (fun i => c.good.contains (c.sector.frame + i, 0)))

/-- The block goes on at the next sector: an untouched one is passed over, a touched one fails (R137). -/
def State.passSector (s : State) (b : BayId) (p : Pu) (k : PassBlock) (f : Nat) : State :=
  let s := s.updPu b p (fun u => { u with write := { u.write with
    block := u.write.block.map (fun k => { k with next := 5 * (f / 5 + 1) }) } })
  let a : SecAddr := ⟨k.layer, k.zone, f / 5⟩
  match (s.pu b p).write.coded? a with
  | some c => if c.touched then s.failCoded b p a else s
  | none => s

/-- `SEGMENT_WRITE_SEND` (R49, R60, R131, R136): `write.lead_us` before its `START` the next segment of the block is sent, at least
8 µs ahead. Without the gate, with a link that is not `ACTIVE`, with the last confirmed wedge too old or too late, it is not written. -/
def execSegmentWriteSend (b : BayId) (p : Pu) (s : State) : Host.Outcome State Fault Refusal :=
  withBay b s (fun s =>
    let u := s.pu b p
    match u.write.block with
    | none => s
    | some k =>
      let f := k.next
      let x := u.sheet
      let start := (u.segStart f).1 / 65536
      let now : Int := u.link.linkTime s.us
      let writing := (k.step == .even || k.step == .odd) && k.opened
      if !writing ∨ k.j + 5 * k.n ≤ f ∨ !s.portUp b p ∨ x.lock != .locked ∨ now < start - 512 * k.lead then s
      else
        let fresh := x.interval != 0 && decide (x.lastConf.frame < f ∧ f ≤ x.lastConf.frame + s.liveN .sheetWedgeMaxMiss)
        let ready := fresh && decide (now + 4096 ≤ start) && u.write.gateOk && u.link.wpermit && u.link.st == .active
        match u.write.coded? ⟨k.layer, k.zone, f / 5⟩ with
        | none => s.passSector b p k f
        | some c => if ready && c.mayWrite f k.pass then s.writeSegment b p k c f else s.passSector b p k f)

/-! ### Strategy banks (R134, R135) -/

/-- A strategy set with a layer's trims: each element's `PW` times its trim and its `WDLY` with its offset, no power code above the
identity's maximum `PSET`; reserved bytes are 0 (R133). -/
def State.strategyFor (s : State) (b : BayId) (p : Pu) (layer : Nat) : Bytes :=
  let u := s.pu b p
  let base := padTo 65536 (Config.strategySet layer)
  let trims := ((u.cal.strat.find? (fun e => e.1 == layer)).map (fun e => e.2)).getD []
  let top := beAt (u.link.ident.getD []) 40 2
  let cap := fun (v : Nat) => min v top
  (List.range 32).flatMap (fun e =>
    let blk := slice base (2048 * e) 2048
    let trim := trims.getD (2 * e) 4096
    let ofs := trims.getD (2 * e + 1) 0
    let pw := ((beAt blk 0 2 : Int) * trim / 4096).toNat
    let wd := ((beAt blk 6 2 : Int) + ofs).toNat
    beBytes 2 (cap pw % 4096) ++ beBytes 2 (cap (beAt blk 2 2) % 4096) ++ beBytes 2 (cap (beAt blk 4 2) % 4096) ++ beBytes 2 wd
      ++ (List.range 128).flatMap (fun n => padTo 6 (slice blk (8 + 8 * n) 6) ++ zeros 2) ++ zeros 1016)

/-- `STRATEGY_BANK_LOAD` (R134, R135): in an idle period between blocks a layer's set is written to the inactive bank; the replies read
it back, compare and select it.
Log 30 (DEDUCED). -/
def execStrategyBankLoad (b : BayId) (p : Pu) (layer : Fin 12) (s : State) : Host.Outcome State Fault Refusal :=
  withBay b s (fun s =>
    let u := s.pu b p
    if !s.portUp b p || !u.link.live || u.write.block.isSome || u.write.load.isSome || u.write.bankStop || s.coresHeld
        || !s.idlePeriod b p then s
    else s.loadBank b p ⟨layer.val, !u.write.bankSel, s.strategyFor b p layer.val, [], false⟩)

/-! ### Relocation excursions (R139) -/

/-- `RELOC_EXCURSION_START` (R139): at the end of a zone's user sectors, or `write.reloc.max_defer_ms` after the oldest queued
failure, both pickups leave the frontier. -/
def execRelocExcursionStart (b : BayId) (s : State) : Host.Outcome State Fault Refusal :=
  withBay b s (fun s =>
    let y := s.bay b
    let limit := s.liveN .writeRelocMaxDeferMs * 1000
    let due := fun (u : Pickup) =>
      u.write.relocWork &&
        (u.write.relocs.any (fun r => !r.record && r.queued + limit ≤ s.us)
          || (u.sheet.lastConf.zone == .data && 1280 ≤ u.sheet.lastConf.frame / 5
              && 8959 ≤ (u.sheet.lastConf.frame / 5 - 1280) % 9056))
    if (due y.pa || due y.pb) && !y.pa.write.excursion && !y.pb.write.excursion && y.pa.write.block.isNone
        && y.pb.write.block.isNone && s.host.act.isNone && s.coreStarts b (.pickup .A) && s.coreStarts b (.pickup .B) then
      let on := fun (u : Pickup) => { u with write := { u.write with excursion := true } }
      s.updBay b (fun y => { y with pa := on y.pa, pb := on y.pb })
    else s)

end Sys2Proof.Machine
end

