-- ==== Sys2Proof/Machine/SledOps.lean ====
section
/-! DEFINITION. Sled motion (10_sled_motion.md): the profile generator, targets, seeks, position lost and re-derived. Lengths are
microsteps × 65,536, times nanoseconds; the continuous profile of R213 is carried in integers. -/

namespace Sys2Proof.Machine

/-! ### Units (R208) -/

/-- Millimetres per second to the power n as microsteps × 65,536: one microstep is 75/128 µm. -/
def mmUnits (mm : Nat) : Nat := mm * 1000 * 128 * 65536 / 75

/-- The radius of a position in 10 nm, r_c = r0 + N × 0.5859375 µm. -/
def radiusAt (r0 pos : Int) : Int := r0 + rnd (pos * 1875) (32 * 65536)

/-- The whole microstep nearest to a radius (R215). -/
def posAt (r0 radius : Int) : Int := rnd ((radius - r0) * 32) 1875 * 65536

/-- The table address sent for a position: N mod 1,024.
Log 34 (DEDUCED). -/
def addrOf (pos : Int) : Nat := ((rnd pos 65536) % 1024).toNat

/-! ### Motion at constant jerk -/

/-- Position, speed and acceleration after `t` nanoseconds of a jerk. -/
def jerkFor (t : Nat) (j : Int) (x : Int × Int × Int) : Int × Int × Int :=
  let (p, v, a) := x
  let t : Int := t
  (p + v * t / 10 ^ 9 + a * t * t / (2 * 10 ^ 18) + j * t * t * t / (6 * 10 ^ 27), v + a * t / 10 ^ 9 + j * t * t / (2 * 10 ^ 18),
   a + j * t / 10 ^ 9)

/-- Motion through segments for `t` nanoseconds; past the end the sled stands. -/
def runSegs : List (Nat × Int) → Nat → Int × Int × Int → Int × Int × Int
  | [], _, x => x
  | (d, j) :: rest, t, x => if t < d then jerkFor t j x else runSegs rest (t - d) (jerkFor d j x)

/-- The duration of segments. -/
def segsTime (l : List (Nat × Int)) : Nat := l.foldl (fun a s => a + s.1) 0

/-- The distance that segments cover from a speed and acceleration. -/
def segsDist (l : List (Nat × Int)) (v a : Int) : Int := (runSegs l (segsTime l) (0, v, a)).1

/-! ### Planning (R213, R216) -/

/-- The cube root of a number, by bisection. -/
def cbrtIn (n : Nat) : Nat → Nat → Nat → Nat
  | 0, lo, _ => lo
  | k + 1, lo, hi =>
    let mid := (lo + hi) / 2
    if mid * mid * mid ≤ n then cbrtIn n k mid hi else cbrtIn n k lo mid

/-- Nanoseconds from 0 to a speed: T_acc of R213. -/
def accTime (v a j : Nat) : Nat :=
  if v * j ≤ a * a then 2 * Nat.sqrt (v * 10 ^ 18 / max 1 j) else v * 10 ^ 9 / max 1 a + a * 10 ^ 9 / max 1 j

/-- D_acc of R213. -/
def accDist (v a j : Nat) : Nat := v * accTime v a j / (2 * 10 ^ 9)

/-- The peak speed and the nanoseconds of cruise of a move from rest to rest over a distance (R213). -/
def peakOf (d v a j : Nat) : Nat × Nat :=
  let aj := a * a / max 1 j
  if 2 * accDist v a j ≤ d then (v, (d - 2 * accDist v a j) * 10 ^ 9 / max 1 v)
  else if 2 * aj * Nat.sqrt (aj * 10 ^ 18 / max 1 j) ≤ d * 10 ^ 9 then ((Nat.sqrt (aj * aj + 4 * a * d) - aj) / 2, 0)
  else (cbrtIn (d * d * j / 4) 96 0 (2 ^ 64), 0)

/-- The seven segments from rest to rest over a signed distance (R213).
Log 34 (DEDUCED). -/
def planRest (d : Int) (v a j : Nat) : List (Nat × Int) :=
  let (vp, tv) := peakOf d.natAbs v a j
  let tj := min (a * 10 ^ 9 / max 1 j) (Nat.sqrt (vp * 10 ^ 18 / max 1 j))
  let tc := vp * 10 ^ 9 / max 1 a - a * 10 ^ 9 / max 1 j
  let s : Int := d.sign * j
  [(tj, s), (tc, 0), (tj, -s), (tv, 0), (tj, -s), (tc, 0), (tj, s)]

/-- Three segments from a speed and acceleration to another speed, at jerk J and acceleration at most A. -/
def toSpeed (v a w : Int) (am j : Nat) : List (Nat × Int) :=
  let j' : Int := max 1 (j : Int)
  let v0 := v + a * a.natAbs / (2 * j')
  let s : Int := if v0 ≤ w then 1 else -1
  let a' := s * a
  let dv := s * (w - v)
  let ap := Nat.sqrt (j' * dv + a' * a' / 2).toNat
  let ac := min ap am
  let t1 := ((ac - a') * 10 ^ 9 / j').toNat
  let t3 := (ac : Nat) * 10 ^ 9 / max 1 j
  let t2 := if am < ap then ((dv - ((am * am : Nat) - a' * a') / (2 * j') - ((am * am : Nat) : Int) / (2 * j')) * 10 ^ 9 / (max 1 am : Nat)).toNat
    else 0
  [(t1, s * j'), (t2, 0), (t3, -(s * j'))]

/-- The stop profile from a speed and acceleration. -/
def stopSegs (v a : Int) (am j : Nat) : List (Nat × Int) := toSpeed v a 0 am j

/-- The largest speed between two bounds whose way up and down fits a distance, by bisection.
Log 34 (DEDUCED). -/
def bestSpeed (v a d : Int) (am j : Nat) : Nat → Nat → Nat → Nat
  | 0, lo, _ => lo
  | k + 1, lo, hi =>
    let mid := (lo + hi) / 2
    let up := toSpeed v a mid am j
    if segsDist up v a + segsDist (stopSegs mid 0 am j) mid 0 ≤ d then bestSpeed v a d am j k mid hi
    else bestSpeed v a d am j k lo mid

/-- The shortest profile from a speed and acceleration to rest a signed distance away that both point to (R216).
Log 34 (DEDUCED). -/
def planMoving (v a d : Int) (vm am j : Nat) : List (Nat × Int) :=
  let s := d.sign
  let (v', a', d') := (s * v, s * a, s * d)
  let w := bestSpeed v' a' d' am j 64 0 vm
  let up := toSpeed v' a' w am j
  let down := stopSegs w 0 am j
  let slack := d' - segsDist up v' a' - segsDist down w 0
  ((up ++ [((slack * 10 ^ 9 / (max 1 w : Nat)).toNat, 0)] ++ down : List (Nat × Int))).map (fun g => (g.1, s * g.2))

/-- A sled takes a target from its present state (R216), which the next coarse step carries out first; its limits are V, A and J. -/
def Sled.retarget (x : Sled) (lim : Nat × Nat × Nat) (target : Int) (seek : Bool) : Sled :=
  let (vm, am, j) := lim
  let d := target - x.pos
  let mk := fun (l : List (Nat × Int)) (goal : Int) => some (⟨x.pos, x.vel, x.acc, l, goal, x.step, seek⟩ : Profile)
  if x.vel = 0 ∧ x.acc = 0 then { x with plan := mk (planRest d vm am j) target, after := none, limits := lim }
  else
    let stop := stopSegs x.vel x.acc am j
    let s := segsDist stop x.vel x.acc
    if d.sign = x.vel.sign ∧ s.natAbs ≤ d.natAbs then
      { x with plan := mk (planMoving x.vel x.acc d vm am j) target, after := none, limits := lim }
    else { x with plan := mk stop (x.pos + s), after := some (target, seek), limits := lim }

/-- The limits in force of a seek, or of a follow move. -/
def State.sledLimits (s : State) (seek : Bool) : Nat × Nat × Nat :=
  if seek then (mmUnits (s.liveN .sledProfileVmaxMmS), mmUnits (s.liveN .sledProfileAmaxMmS2), mmUnits (s.liveN .sledProfileJerkMmS3))
  else (mmUnits (s.liveN .sledFollowVmaxMmS), mmUnits (s.liveN .sledFollowAmaxMmS2), mmUnits (s.liveN .sledFollowJerkMmS3))

/-- The run scale in 1/255 of `SIMAX` (R220). -/
def State.runScale (s : State) (b : BayId) : Nat := 255 * s.bndN (.bay b) .sledCurrentRunPct / 100

/-- A sled can be moved: its position is known, its motor link carries traffic and its motor unit works (R222, R177). -/
def State.sledMovable (s : State) (b : BayId) (p : Pu) : Bool :=
  let x := (s.bay b).sled p
  !x.lost && x.r0.isSome && (s.bay b).mlink.st == .active && !s.unitDead b .motor

/-- A radius held to the bounds of the sled (R215). -/
def State.sledBound (s : State) (b : BayId) (r : Int) : Int :=
  clampI (100 * s.bnd (.bay b) .sledBoundInnerUm) (100 * s.bnd (.bay b) .sledBoundOuterUm) r

/-- A sled target: a radius in 10 nm, clamped to the bounds with its event, planned under R216. -/
def State.sledTarget (s : State) (b : BayId) (p : Pu) (radius : Int) (seek : Bool) : State :=
  let x := (s.bay b).sled p
  match x.r0 with
  | none => s
  | some r0 =>
    if !s.sledMovable b p then s
    else
      -- a seek's start is the section's boundary (R225)
      let s := if seek then s.boundary (.bay b) 9 else s
      let r := s.sledBound b radius
      let s := if r = radius then s else s.raisePu b p 2 .sledBound
      let run := s.runScale b
      s.updSled b p (fun x =>
        { (x.retarget (s.sledLimits seek) (posAt r0 r) seek) with
          seeking := seek || x.seeking, reached := none, scale := run, ramp := none })

/-- Both sleds of a bay seek one radius (R218): the longer distance is planned under R213 and the other has the same segment times,
scaled. From motion, or with one sled that cannot move, each plans alone. -/
def State.seekSleds (s : State) (b : BayId) (radius : Int) : State :=
  let s := s.boundary (.bay b) 9
  let r := s.sledBound b radius
  let y := s.bay b
  match y.sledA.r0, y.sledB.r0 with
  | some ra, some rb =>
    let da := posAt ra r - y.sledA.pos
    let db := posAt rb r - y.sledB.pos
    let rest := y.sledA.vel = 0 ∧ y.sledA.acc = 0 ∧ y.sledB.vel = 0 ∧ y.sledB.acc = 0
    let s := (s.sledTarget b .A radius true).sledTarget b .B radius true
    if rest ∧ s.sledMovable b .A ∧ s.sledMovable b .B then
      let (vm, am, j) := s.sledLimits true
      let long := if db.natAbs ≤ da.natAbs then da else db
      let segs := planRest long vm am j
      let scale := fun (d : Int) => segs.map (fun g => (g.1, g.2 * d / (if long = 0 then 1 else long)))
      let put := fun (x : Sled) (d : Int) => { x with plan := x.plan.map (fun q => { q with segs := scale d }) }
      s.updBay b (fun y => { y with sledA := put y.sledA da, sledB := put y.sledB db })
    else s
  | _, _ => (s.sledTarget b .A radius true).sledTarget b .B radius true

/-- The longest move that a bay's sleds have in plan, in µs. -/
def Bay.moveTime (y : Bay) : Nat :=
  let t := fun (x : Sled) => match x.plan with
    | some q => segsTime q.segs / 1000
    | none => 0
  max (t y.sledA) (t y.sledB)

/-- A pickup enters `SEEK` (Table 07-3): tracking open, out of frame lock.
Log 25 (DEDUCED). -/
def State.enterSeek (s : State) (b : BayId) (p : Pu) : State :=
  let s := s.dropFrameLock b p
  let t := (s.bay b).moveTime
  (s.updPu b p (fun u => { u with
    track := u.track.open', link := { u.link with wpermit := false }, ms := { u.ms with moveUs := t, jump := none } })).enter b p .seek

/-- A correction seek of one pickup (R154, R157, R218): its sled alone, to the radius of its target. -/
def State.correctionSeek (s : State) (b : BayId) (p : Pu) : State :=
  let m := (s.pu b p).ms
  (s.sledTarget b p (radiusOf m.tgtZone m.tgtFrame) true).enterSeek b p

/-! ### The generator (R214, R217) -/

/-- Which segment of a plan a time lies in, from 0. -/
def segAt : List (Nat × Int) → Nat → Nat
  | [], _ => 0
  | (d, _) :: rest, t => if t < d then 0 else 1 + segAt rest (t - d)

/-- Nanoseconds of a plan after `n` coarse steps of 1/6 ms. -/
def stepNs (n : Nat) : Nat := n * 10 ^ 9 / 6000

/-- A changed limit (R217): a move in segments 1 to 4 is replanned if the new limits can stop it at the target. -/
def Sled.relimit (x : Sled) (lim : Nat × Nat × Nat) : Sled :=
  match x.plan with
  | none => x
  | some q =>
    if lim = x.limits ∨ x.after.isSome ∨ 4 ≤ segAt q.segs (stepNs (x.step - q.began)) then x
    else
      let s := segsDist (stopSegs x.vel x.acc lim.2.1 lim.2.2) x.vel x.acc
      let d := q.target - x.pos
      if (x.vel = 0 ∧ x.acc = 0) ∨ (d.sign = x.vel.sign ∧ s.natAbs ≤ d.natAbs) then x.retarget lim q.target q.seek else x

/-- One coarse step of a sled that is free to move. -/
def Sled.advance (x : Sled) (lim : Nat × Nat × Nat) (now : Nat) : Sled :=
  let x := { x with step := x.step + 1, prev := x.pos }
  match x.plan with
  | none => x
  | some q =>
    let t := stepNs (x.step - q.began)
    if x.step < q.began then x
    else if segsTime q.segs ≤ t then
      let x := { x with
        pos := q.target, vel := 0, acc := 0, plan := none, moved := if addrOf q.target = addrOf x.pos then x.moved else now }
      match x.after with
      | some (goal, seek) => x.retarget lim goal seek
      | none => x
    else
      let (p, v, a) := runSegs q.segs t (q.p0, q.v0, q.a0)
      { x with pos := p, vel := v, acc := a, moved := if addrOf p = addrOf x.pos then x.moved else now }

/-- One coarse step of a sled (R214, R220, R221, R222): a bridge that is off is enabled first and the move waits for its ramp;
the reduction to the hold scale goes on. -/
def State.sledStep (s : State) (b : BayId) (p : Pu) : State :=
  let x := (s.bay b).sled p
  let now := s.us
  let run := s.runScale b
  let hold := run * s.bndN (.bay b) .sledHoldPct / 100
  let later := fun (x : Sled) => { x with step := x.step + 1, prev := x.pos, plan := x.plan.map (fun q => { q with began := q.began + 1 }) }
  let ramp := s.bndN (.bay b) .sledRephaseRampMs * 1000
  s.updSled b p (fun _ =>
    if x.plan.isSome ∧ !x.enabled then
      later { x with enabled := true, off := false, scale := run, rephase := some (now + (if x.off then 2000 else ramp)) }
    else match x.rephase with
      | some t => if now < t then later x else { (x.advance (s.sledLimits x.seeking) now) with rephase := none }
      | none =>
        let x := match x.plan with
          | some q => x.relimit (s.sledLimits q.seek)
          | none => x
        let x := x.advance (s.sledLimits x.seeking) now
        match x.ramp with
        | some t =>
          let el := min (now - t) 10000
          { x with scale := run - (run - hold) * el / 10000, ramp := if el = 10000 then none else some t }
        | none => x)

/-! ### Position lost, re-derived, checked (R222, R223) -/

/-- A sled's position is lost: no plan, bridge off, `EV_SLED_POS_LOST`. -/
def State.sledLost (s : State) (b : BayId) (p : Pu) : State :=
  if ((s.bay b).sled p).lost then s
  else
    (s.updSled b p (fun x => { x with
      lost := true, enabled := false, off := false, plan := none, after := none, vel := 0, acc := 0, seeking := false
      reached := none, rephase := none, scale := 0, ramp := none })).raisePu b p 2 .sledPosLost

/-- The tracking displacement of the present tick, in 10 nm (R149). -/
def State.displacement (s : State) (b : BayId) (p : Pu) : Int :=
  rnd (Config.actuatorUm (puNo b p) ((s.pu b p).ms.drive 1) * 100) 65536

/-- A decoded wedge at radius r re-derives N, or sets N = 0 and r0 for a sled without a phase origin, which is then recorded
(R222). An accepted origin of item 11 comes into force here (R355). -/
def State.sledWedge (s : State) (b : BayId) (p : Pu) (radius : Nat) : State :=
  let x := (s.bay b).sled p
  let r : Int := radius - s.displacement b p
  if !x.lost then s
  else
    let w := (s.pu b p).cal.wait.find? (fun w => w.item == 11)
    let s := s.updPu b p (fun u => { u with cal := { u.cal with wait := u.cal.wait.filter (fun w => w.item != 11) } })
    let s := match w with
      | some w => s.updSled b p (fun x => { x with r0 := some (w.vals.headD 0) })
      | none => s
    match ((s.bay b).sled p).r0 with
    | some r0 => s.updSled b p (fun x => { x with lost := false, pos := posAt r0 r, prev := posAt r0 r, vel := 0, acc := 0 })
    | none =>
      (s.updSled b p (fun x => { x with lost := false, pos := 0, prev := 0, vel := 0, acc := 0, r0 := some r })).updBay b (fun y =>
        { y with cal := { y.cal with recDue := some (y.cal.recDue.getD s.us) } })

/-- At a confirmed wedge while a sled stands still, steps lost are corrected by whole cycles (R223); what then still exceeds the
limit makes the position lost. -/
def State.sledSlip (s : State) (b : BayId) (p : Pu) (radius : Nat) : State :=
  let x := (s.bay b).sled p
  match x.r0 with
  | none => s
  | some r0 =>
    let lim := 100 * s.liveN .sledSlipMaxUm
    let diff := ((radius : Int) - s.displacement b p) - radiusAt r0 x.pos
    if x.lost ∨ x.plan.isSome ∨ diff.natAbs ≤ lim then s
    else
      let n := rnd diff 60000
      let s := (s.updSled b p (fun x => { x with pos := x.pos + n * 1024 * 65536, prev := x.pos + n * 1024 * 65536 })).raisePu b p 2
        .sledStepLoss
      if lim < (diff - n * 60000).natAbs then s.sledLost b p else s

end Sys2Proof.Machine
end

