-- ==== Sys2Proof/Machine/SledRows.lean ====
section
/-! DEFINITION. The commands of sleds and of pickup movement (10_sled_motion.md; R144, R147, R149, R157, R158, R458). -/

namespace Sys2Proof.Machine

/-! ### Sleds -/

/-- `SLED_COARSE_STEP` (R214): both generators advance by one coarse step, step k from the period 8k since `ACTIVE` on. A sled without a phase origin is energized at address 0
while its pickup is in `OFF` (R222). -/
def execSledCoarseStep (b : BayId) (s : State) : Host.Outcome State Fault Refusal :=
  withBay b s (fun s =>
    let due := 8 * (s.bay b).sledA.step ≤ (s.bay b).mlink.frames / 2
    if !s.mportUp b || (s.bay b).mlink.st != .active || s.unitDead b .motor || !decide due then s
    else
      let one := fun (s : State) (p : Pu) =>
        let x := (s.bay b).sled p
        let run := s.runScale b
        let s := if x.lost && x.r0.isNone && !x.enabled && (s.pu b p).ms.st == .off && !x.faulted then
            s.updSled b p (fun x => { x with enabled := true, off := false, pos := 0, prev := 0, scale := run }) else s
        s.sledStep b p
      one (one s .A) .B)

/-- `SLED_TARGET` (R215, R216): a target in 10 nm. No follow target is taken in `SEEK`; no seek starts while the cores are held
(R224). -/
def execSledTarget (b : BayId) (p : Pu) (radius : Int) (seek : Bool) (s : State) : Host.Outcome State Fault Refusal :=
  withBay b s (fun s =>
    let inSeek := (s.pu b p).ms.st == .seek
    if !s.mportUp b ∨ (seek ∧ !s.coreStarts b .motor) ∨ (!seek ∧ inSeek) then s else s.sledTarget b p radius seek)

/-- `SEEK_ARRIVE` (R219). -/
def execSeekArrive (b : BayId) (p : Pu) (s : State) : Host.Outcome State Fault Refusal :=
  withBay b s (fun s =>
    let x := (s.bay b).sled p
    match x.reached with
    | some t =>
      if x.seeking && t + s.liveN .sledSettleMs * 1000 ≤ s.us then
        let s := s.updSled b p (fun x => { x with seeking := false, reached := none })
        if (s.pu b p).ms.st == .seek then s.enterTrackPull b p else s
      else s
    | none => s)

/-- `SLED_HOLD_REDUCE` (R220): the current ramps to the hold scale over 10 ms. -/
def execSledHoldReduce (b : BayId) (p : Pu) (s : State) : Host.Outcome State Fault Refusal :=
  withBay b s (fun s =>
    let x := (s.bay b).sled p
    let hold := s.runScale b * s.bndN (.bay b) .sledHoldPct / 100
    if x.enabled && x.plan.isNone && x.ramp.isNone && x.scale != hold && x.moved + s.liveN .sledHoldDelayMs * 1000 ≤ s.us then
      s.updSled b p (fun x => { x with ramp := some s.us })
    else s)

/-- `SLED_POWER_DOWN` (R221): the sled goes to the nearest full step; 20 ms after it stands there, N is recorded and the bridge is
turned off by command. The command takes the step that is due.
Log 34 (DEDUCED). -/
def execSledPowerDown (b : BayId) (p : Pu) (s : State) : Host.Outcome State Fault Refusal :=
  withBay b s (fun s =>
    let x := (s.bay b).sled p
    let m := (s.pu b p).ms
    let idle := s.liveN .sledOffIdleS
    let quiet := (m.st == .off || m.st == .failed) && decide (0 < idle ∧ m.since + idle * 1000000 ≤ s.us)
    let due := quiet || (s.bay b).spindle.st == .stopped
    if !due ∨ !x.enabled ∨ x.lost ∨ x.plan.isSome ∨ !s.coreStarts b .motor then s
    else
      let step : Int := 256 * 65536
      let near := rnd x.pos (256 * 65536) * step
      let s := s.boundary (.bay b) 9
      if near ≠ x.pos then
        let run := s.runScale b
        s.updSled b p (fun x => { (x.retarget (s.sledLimits false) near false) with scale := run, ramp := none })
      else if x.moved + 20000 ≤ s.us then
        s.updSled b p (fun x => { x with enabled := false, off := true, scale := 0, ramp := none })
      else s)

/-- The default table (R212): entry a is the rounded cosine and sine of a / 1,024 turn, each of 16 bits. -/
def sledTable : Bytes :=
  (List.range 1024).flatMap (fun (a : Nat) =>
    let th : Int := a * 2 ^ 22
    [th + 2 ^ 30, th].flatMap (fun t => beBytes 2 (rnd (sinReal t * 32767) trigOne.toNat % 65536).toNat))

/-- `SLED_TABLE_LOAD` (R212): a calibrated table of 4,096 bytes, or with no bytes the default table, is loaded into the bank that no
enabled sled uses.
Log 34 (DEDUCED). -/
def execSledTableLoad (b : BayId) (bank : Bool) (table : Bytes) (s : State) : Host.Outcome State Fault Refusal :=
  withBay b s (fun s =>
    let y := s.bay b
    let table := if table.isEmpty then sledTable else table
    let used := (y.sledA.enabled && y.sledA.bank == bank) || (y.sledB.enabled && y.sledB.bank == bank)
    if used ∨ table.length ≠ 4096 ∨ y.mlink.st != .active ∨ y.mlink.load.isSome ∨ s.coresHeld then s
    else s.updBay b (fun y => { y with mlink := { y.mlink with load := some (bank, table, 0, 16) } }))

/-! ### Pickup movement -/

/-- A pickup can make a planned movement (R69, R129): in `FOLLOW` or `ACQUIRE`, outside a pass block, its last wedge classed. -/
def Pickup.mayMove (u : Pickup) : Bool :=
  (u.ms.st == .follow || u.ms.st == .acquire) && u.write.block.isNone && u.sheet.unconf.isEmpty && u.cur.isNone

/-- The present radius of a pickup (R35): that of its last confirmed wedge, or the bay's target before one. -/
def Bay.radiusNow (y : Bay) (p : Pu) : Nat :=
  match (match p with | .A => y.radA | .B => y.radB) with
  | some r => r
  | none => y.radius

/-- The radius of a sector. -/
def SecAddr.radius (a : SecAddr) : Nat := radiusOf a.zone a.frame

/-- Two distances. -/
def farFrom (a b : Nat) : Nat := max a b - min a b

/-- The reads of a bay that need a seek (R436): farther from their pickup than swath jumps reach; each with its distance and
the time since when it waits. A pickup that cannot move or holds no admission holds up no other (R381).
Log 48 (DEDUCED). -/
def State.seekReads (s : State) (b : BayId) : List (SecAddr × Nat × Nat) :=
  [Pu.A, Pu.B].flatMap (fun p =>
    let here := (s.bay b).radiusNow p
    let moves := ((s.pu b p).ms.st == .follow || (s.pu b p).ms.st == .acquire) && !s.mustRest b p
    let reach := s.bndN (.pickup b p) .loopJumpMaxSwaths * swathPitch
    ((s.pu b p).reads.filter (fun r => moves && reach < farFrom r.sector.radius here)).map
      (fun r => (r.sector, farFrom r.sector.radius here, r.since)))

/-- Whether a read comes before all others (R436): the oldest of those that have waited 2 s, else the one nearest.
Log 48 (DEDUCED). -/
def seekFirst (now : Nat) (rs : List (SecAddr × Nat × Nat)) (r : SecAddr × Nat × Nat) : Bool :=
  let old := rs.filter (fun x => x.2.2 + 2000000 ≤ now)
  if old.isEmpty then rs.all (fun x => r.2.1 ≤ x.2.1) else old.contains r && old.all (fun x => r.2.2 ≤ x.2.2)

/-- A seek keeps the order of R436: where it brings reads that wait for a seek within reach, the first of all is one of them. A
seek that serves none of them is for other work of the bay.
Log 48 (DEDUCED). -/
def State.seekInOrder (s : State) (b : BayId) (radius : Nat) : Bool :=
  let rs := s.seekReads b
  let reach := s.bndN (.pickup b .A) .loopJumpMaxSwaths * swathPitch
  let served := rs.filter (fun r => decide (farFrom r.1.radius radius ≤ reach))
  served.isEmpty || served.any (seekFirst s.us rs)

/-- `SEEK_ISSUE` (R157, R218, R436): both sleds move to one radius, in the order of the reads that wait for a seek; every pickup in
`FOLLOW` or `ACQUIRE` enters `SEEK`; the zone of the radius (R18) and the spindle target change with it. -/
def execSeekIssue (b : BayId) (radius : Nat) (s : State) : Host.Outcome State Fault Refusal :=
  withBay b s (fun s =>
    let y := s.bay b
    let moves := fun (p : Pu) => (y.pu p).ms.st == .follow || (y.pu p).ms.st == .acquire
    let ok := fun (p : Pu) => !moves p || (y.pu p).mayMove
    if (moves .A || moves .B) && ok .A && ok .B && s.coreStarts b .motor && s.coreStarts b (.pickup .A) && s.coreStarts b (.pickup .B)
      && s.seekInOrder b radius && decide (radiusR0 ≤ radius ∧ radius ≤ radiusEnd)
    then
      let zone := zoneAt radius
      let s := s.seekSleds b radius
      let s := s.updBay b (fun y => { y with radius := radius, zone := zone })
      let go := fun (s : State) (p : Pu) =>
        let s := s.updMs b p (fun m => { m with tgtZone := zone, tgtFrame := frameAt zone radius })
        if moves p then s.enterSeek b p else s
      go (go s .A) .B
    else s)

/-- A swath jump is issued and its landing predicted (R147, R148). -/
def State.jumpTo (s : State) (b : BayId) (p : Pu) (n : Int) : State := (s.predictJump b p n).startJump b p n

/-- A planned movement of one pickup to a radius keeps it in the bay's zone (R18) and the pair within 0.20 mm (R35) and within the ratio
that a narrow `sheet.rate.tol_ppm` leaves (R67), or brings it nearer to that; a pickup whose partner does not work is bound by no
band. -/
def State.inBand (s : State) (b : BayId) (p : Pu) (r : Nat) : Bool :=
  let y := s.bay b
  let o := y.pu p.other
  let there := y.radiusNow p.other
  let tol := s.bndN (.pickup b y.ref.other) .sheetRateTolPpm - 1000
  let ref := if y.ref == p then r else there
  zoneAt r == y.zone && (o.ms.st == .off || o.ms.st == .failed || o.cal.retired || decide (farFrom r there ≤ 20000 ∧ farFrom r there * 1000000 ≤ tol * ref)
    || decide (farFrom r there ≤ farFrom (y.radiusNow p) there))

/-- `SWATH_JUMP_ISSUE` (R35, R147). -/
def execSwathJumpIssue (b : BayId) (p : Pu) (n : Int) (s : State) : Host.Outcome State Fault Refusal :=
  withBay b s (fun s =>
    let u := s.pu b p
    if n ≠ 0 ∧ n.natAbs ≤ s.bndN (.pickup b p) .loopJumpMaxSwaths ∧ u.mayMove ∧ s.coreStarts b (.pickup p)
        ∧ s.inBand b p (((s.bay b).radiusNow p : Int) + n * swathPitch).toNat then s.jumpTo b p n else s)

/-- The swaths to jump to reach a frame a distance ahead (R458): 0 follows the spiral. -/
def swathsTo (a : Int) (n g : Nat) : Int :=
  let n' : Int := max 1 (n : Int)
  if (g : Int) ≤ a ∧ a ≤ n' + g - 1 then 0
  else if a < g then -((g - a + n' - 1) / n')
  else (a - g) / n'

/-- `TARGET_FRAME_APPROACH` (R458): core-started. A target too far for a jump is sought with both sleds (R147, R157). -/
def execTargetFrameApproach (b : BayId) (p : Pu) (frame : Nat) (opensBlock : Bool) (s : State) :
    Host.Outcome State Fault Refusal :=
  withBay b s (fun s =>
    let u := s.pu b p
    if u.ms.st != .follow ∨ !u.mayMove ∨ u.sheet.lock != .locked ∨ !s.coreStarts b (.pickup p) then s
    else
      let here := u.sheet.lastConf.frame + u.sheet.miss
      let z := u.sheet.lastConf.zone
      let n := framesPerTurnMilli (radiusOf z here) / 1000
      let g := if opensBlock then s.bndN (.pickup b p) .writeJumpMarginFrames else 2
      let j := swathsTo ((frame : Int) - here) n g
      let s := s.updMs b p (fun m => { m with tgtFrame := frame, tgtZone := z, hasTarget := true })
      if j = 0 then s
      else if j.natAbs ≤ s.bndN (.pickup b p) .loopJumpMaxSwaths then
        (if s.inBand b p (radiusOf z frame) then s.jumpTo b p j else s)
      else
        let o := (s.bay b).pu p.other
        let moves := o.ms.st == .follow || o.ms.st == .acquire
        if (moves && !o.mayMove) || !s.coreStarts b .motor then s
        else
          let r := radiusOf z frame
          let s := (s.seekSleds b r).updBay b (fun y => { y with radius := r, zone := z })
          let s := s.enterSeek b p
          if moves then (s.updMs b p.other (fun m => { m with tgtZone := z, tgtFrame := frameAt z r })).enterSeek b p.other else s)

/-- The state has sled follow on (Table 07-3). -/
def PState.follows : PState → Bool
  | .trackPull => true
  | .acquire => true
  | .follow => true
  | .swathJump => true
  | .layerJump => true
  | _ => false

/-- The follow target of a pickup (R149, R158): from the mean displacement, or from the reference pickup while it steers. -/
def State.followTarget (s : State) (b : BayId) (p : Pu) : State :=
  let m := (s.pu b p).ms
  let x := (s.bay b).sled p
  match x.r0 with
  | none => s
  | some r0 =>
    let ref := if (s.bay b).ref == .A then (s.bay b).radA else (s.bay b).radB
    if m.steer then (match ref with
      | some r => s.sledTarget b p r false
      | none => s)
    else if s.liveN .loopSledDeadbandUm * 65536 < m.dispMean.natAbs then
      s.sledTarget b p (radiusAt r0 x.pos + rnd (m.dispMean * 100) 65536) false
    else s

/-- `SLED_FOLLOW_UPDATE` (R149, R158, R162): every 80 ticks a follow target; a mean beyond `sled.limit_um` leads to `RECOVER`, at the
next sector opening wedge while a sector is read or written. -/
def execSledFollowUpdate (b : BayId) (p : Pu) (s : State) : Host.Outcome State Fault Refusal :=
  withBay b s (fun s =>
    let m := (s.pu b p).ms
    let slot := m.clock / 80
    if !m.st.follows ∨ s.unitDead b (.pickup p) ∨ slot ≤ m.followSlot then s
    else
      let s := (s.updMs b p (fun m => { m with followSlot := slot })).followTarget b p
      let u := s.pu b p
      if m.limitHit ∨ m.dispMean.natAbs ≤ s.liveN .loopSledLimitUm * 65536 then s
      else
        let s := s.raisePu b p 4 .loopActuatorLimit
        if u.cur.isSome ∨ u.write.block.isSome then s.updMs b p (fun m => { m with limitHit := true })
        else s.enterRecover b p .ordinary)

/-- `PICKUP_STATE_LIMIT` (R144): the limit of a state of Table 07-3, its event, and `RECOVER`. -/
def execPickupStateLimit (b : BayId) (p : Pu) (s : State) : Host.Outcome State Fault Refusal :=
  withBay b s (fun s =>
    let m := (s.pu b p).ms
    let lim := match m.st with
      | .focusSearch => some (s.bndN (.pickup b p) .loopFocusSearchMs * 1000, Ev.loopFocusSearchFail)
      | .trackPull => some (s.bndN (.pickup b p) .loopTrackPullUs, Ev.loopTrackLost)
      | .swathJump => some (120 + 4 * ((m.jump.map (fun j => j.s.natAbs)).getD 0), Ev.loopJumpFail)
      | .layerJump => some (1500, Ev.loopLayerJumpFail)
      | .seek => some (m.moveUs + 50000, Ev.loopSeekFail)
      | _ => none
    match lim with
    | some (us, e) => if m.since + us ≤ s.us then (s.raisePu b p 4 e).enterRecover b p .ordinary else s
    | none => s)

end Sys2Proof.Machine
end

