-- ==== Sys2Proof/Machine/WedgeOps.lean ====
section
/-! DEFINITION. What one wedge shows (R21 to R23, R68), how it divides the bit streams into frames (R65, R76, R77), what a sector's
opening wedge brings into force (R81, R87, R95, R355, R361, R362, R381) and what a wedge means to a pass block (R129, R132). -/

namespace Sys2Proof.Machine

/-! ### Correlation and address (R68) -/

/-- The wedge sync of R19. -/
def wedgeSync : List Bool := bitsOfNat 32 0xE2B48D1F

/-- Agreements of a pattern with decisions from index `w + d` on.
Log 31 (DEDUCED). -/
def agreeAt (pat bits : List Bool) (w : Nat) (d : Int) : Nat :=
  if (w : Int) + d < 0 then 0
  else ((pat.zip (bits.drop ((w : Int) + d).toNat)).filter (fun x => x.1 == x.2)).length

/-- Offsets within ±w, the smaller first, of two the earlier first (the order of ties in R71). -/
def offsetsIn (w : Nat) : List Int := 0 :: (List.range w).flatMap (fun (n : Nat) => [-((n + 1 : Nat) : Int), ((n + 1 : Nat) : Int)])

/-- The first offset of a list with the highest score, and its score.
Log 31 (DEDUCED). -/
def bestBy (score : Int → Nat) (l : List Int) : Int × Nat :=
  l.foldl (fun a d => if a.2 < score d then (d, score d) else a) (0, 0)

/-- The lower middle of a list of offsets (R72).
Log 31 (DEDUCED). -/
def lowerMedian (l : List Int) : Option Int :=
  let sorted := sortBy (fun a c => decide (a < c)) l
  sorted[(sorted.length - 1) / 2]?

/-- What one track shows of a wedge: the position of its sync in 1/65,536 sample, and for each address bit its first biphase channel
bit less its second. -/
structure TrackWedge where
  pos   : Int
  diffs : List Int
  deriving DecidableEq, Repr

/-- Wedge bits normalized on the wedge preamble (R65): less its mean, scaled so that its mean magnitude is A, in 1/256.
Log 52 (DESIGN CHOICE). -/
def wedgeNorm (pre ys : List Int) : List Int :=
  let n : Int := pre.length
  let m := pre.foldl (fun a y => a + y) 0
  let dev := pre.foldl (fun (a : Int) y => a + (n * y - m).natAbs) 0
  ys.map (fun y => rnd ((n * y - m) * n * 256 * amplitudeA) (max 1 dev.toNat))

/-- A track's bits since an instant. -/
def Track.after (t : Track) (period at' : Int) : Nat := (rnd ((t.t - at') * 65536) period.toNat).toNat

/-- The bits of a wedge whose sync is predicted at an instant have all been interpolated. -/
def Track.reached (t : Track) (period at' : Int) (w : Nat) : Bool := decide (320 + w ≤ t.after period at' ∧ t.t > at')

/-- A track's correlation with the wedge sync within ±w bits of a predicted instant, if it matches 28 of 32 or more. The instants stand
on the deskewed timebase, with each stream's fraction of a sample in them. -/
def Track.wedge (t : Track) (period at' : Int) (w : Nat) : Option TrackWedge :=
  let n := t.after period at'
  if n < 320 + w ∨ t.bits.length < n + w + 120 then none
  else
    let pre := ((t.bits.drop n).take 120).map (fun x => x.y)
    let ys := wedgeNorm pre (((t.bits.take (n + w)).reverse.take (320 + 2 * w)).map (fun x => x.y))
    let (d, m) := bestBy (agreeAt wedgeSync (ys.map (fun y => decide (0 < y))) w) (offsetsIn w)
    if m < 28 then none
    else
      let adr := ys.drop ((w : Int) + d + 32).toNat
      some ⟨t.t - rnd (((n : Int) - d) * period) 65536, (List.range 144).map (fun k => adr.getD (2 * k) 0 - adr.getD (2 * k + 1) 0)⟩

/-- What the contributing tracks show of a wedge: the median of their positions, if they are enough, and the sums of their address
differences.
Log 31 (DEDUCED). -/
def wedgeCombine (seen : List TrackWedge) (least : Nat) : Option (Int × List Int) :=
  if seen.length < least ∨ seen.isEmpty then none
  else
    (lowerMedian (seen.map (fun e => e.pos))).map (fun d =>
      (d, (List.range 144).map (fun k => seen.foldl (fun a e => a + e.diffs.getD k 0) 0)))

/-- The payload of address sums: each bit by its sign, a sum of 0 as 0, a byte with a weak bit as an erasure.
Log 52 (DESIGN CHOICE). -/
def wedgeOfSums (sums : List Int) : Option WedgeAddr :=
  let total := sums.foldl (fun a x => a + x.natAbs) 0
  let bytes := (List.range 18).map (fun n => BitVec.ofNat 8 (natOfBits (((sums.drop (8 * n)).take 8).map (fun x => decide (0 < x)))))
  let era := (List.range 18).filter (fun n => ((sums.drop (8 * n)).take 8).any (fun x => decide (x.natAbs * 8 * 144 < total)))
  wedgeDecode bytes era

/-- The provisional tag of a pickup. -/
def Disc.tag (d : Disc) (p : Pu) : Option Nat :=
  match p with
  | .A => d.tagA
  | .B => d.tagB

/-- The serial-tag test of R22: against the identity once it is known, else against the pickup's provisional tag. -/
def Disc.tagGood (d : Disc) (p : Pu) (tag : Nat) : Bool :=
  match d.serial, d.tag p with
  | some sn, _ => serialTag sn == tag
  | none, some t => t == tag
  | none, none => true

/-- The first decoded wedge before the identity leaves its tag as the pickup's provisional tag. -/
def Disc.noteTag (d : Disc) (p : Pu) (tag : Nat) : Disc :=
  match d.serial, d.tag p, p with
  | none, none, .A => { d with tagA := some tag }
  | none, none, .B => { d with tagB := some tag }
  | _, _, _ => d

/-- What names a disc in a rejection: its serial, or before the identity the tag of its wedges.
Log 32 (DEDUCED). -/
def Disc.name (d : Disc) (tag : Nat) : Bytes := d.serial.getD (leBytes 3 tag)

/-! ### Frames of a bit stream -/

/-- The bits of a track since frame bit 0 of the frame that begins at `start` (in 1/65,536 sample). -/
def Track.since (t : Track) (period start : Int) : Nat := min t.bits.length (t.after period start)

/-- The bits of the frame before, in order, with up to `w` bits beyond it. -/
def Track.frameBits (t : Track) (n w : Nat) : List BitVal := (t.bits.drop (n - w)).reverse

/-- The difference of R77 in 1/65,536 bit: the bits a track counted up to the wedge sync at `pos`, less 32,768 + 128. -/
def Track.drift (t : Track) (period pos : Int) : Int :=
  (t.bits.length : Int) * 65536 - rnd ((t.t - pos) * 2 ^ 32) period.toNat - 32896 * 65536

/-- The frame bit, counted from the frame that begins at `start`, at which a track's row last changed, if that was in this frame or in
the bits before it that the change of rows at its wedge may fall in. -/
def Track.switchBit (t : Track) (period start : Int) : Option Int :=
  t.swapAt.bind (fun w =>
    let k := rnd ((w - start) * 65536) period.toNat
    if -64 ≤ k ∧ k < 32704 then some k else none)

/-- A track whose hold counter reached its limit at a bit is lost from that bit on (R75). -/
def Track.lose (t : Track) (k : Nat) : Track :=
  { t with lost := some k, bits := flagNewest (t.bits.length - k) true t.bits }

/-- A track as its segment counts it: lost where its hold counter has reached its limit. -/
def Track.settle (t : Track) : Track :=
  match t.limit with
  | some k => if t.lost.isNone then t.lose k else t
  | none => t

/-- A track's share of the segment that ends (R77, R79, R80). `found`: the wedge sync was found. A track whose timing was lost is not
slip-checked.
Log 52 (DESIGN CHOICE). -/
def Track.close (t : Track) (live found : Bool) (period pos start0 : Int) (n w : Nat) : TrkSeg :=
  let e := t.drift period pos
  let slip := if live && found && t.lost.isNone && 32768 ≤ e.natAbs then some (rnd e 65536) else none
  let dataBit := fun (k : Nat) => ((k : Int) - 768 - t.delta).toNat
  { stat := if !live then .retired else if t.stat == .blank then .blank else if t.lost.isSome then .lost else t.stat
    delta := t.delta, cand := t.cand, slip := slip
    evbit := (match t.lost, slip with
      | some k, _ => dataBit k
      | none, some _ => dataBit t.holdAt
      | none, none => 0xFFFF)
    bits := if live then t.frameBits n w else (t.frameBits n w).map (fun x => { x with flag := true })
    sw := t.switchBit period start0 }

/-- A track at the start of a frame (R65, R75, R76): `e` is the element in force, whose calibrated values follow a loss. -/
def Track.next (t : Track) (e : SpotCal) (n : Nat) : Track :=
  { t with
    bits := t.bits.take n, recent := t.recent.map (fun r => (r.1, r.2 + 1)), whole := if t.lost.isSome then t.whole + 1 else 1
    c := if t.lost.isSome then e.dc else t.c, g := if t.lost.isSome then e.gain else t.g, lost := none, limit := none
    holdLen := 0, holdAt := 0, fast := 0, delta := 0, stat := .nominal, cand := [] }

/-- The segment that ends at a wedge whose sync lies at `pos`, and the channel with the next frame begun. -/
def Pickup.cutFrame (u : Pickup) (frame : Nat) (found : Bool) (pos : Int) (w : Nat) : Seg × Sheet :=
  let x := { u.sheet with tracks := u.sheet.tracks.map Track.settle }
  let per := x.period
  let head := rnd (128 * per) 65536
  let start := pos - head
  let start0 := x.framePos - head
  let live := u.inService
  let cal := fun (sp : Nat) => u.spotCal u.ms.tgtZone sp (x.rows.getLsbD sp)
  let trks := x.tracks.mapIdx (fun i t => t.close (live.contains i) found per pos start0 (t.since per start) w)
  let t0 := x.tracks.getD 0 .idle
  let t15 := x.tracks.getD 15 .idle
  let n0 := t0.since per start
  let n15 := t15.since per start
  (⟨frame, decide (0 < x.miss), trks, x.v0.frameBits n0 w, x.v1.frameBits n15 w, x.v0.switchBit per start0, x.v1.switchBit per start0,
    (x.holds.drop (n0 - w)).reverse⟩,
   { x with
     tracks := x.tracks.mapIdx (fun i t => t.next (cal (i + 1)) (t.since per start))
     v0 := x.v0.next (cal 0) n0, v1 := x.v1.next (cal 17) n15, holds := x.holds.take n0, framePos := pos, voted := false })

/-! ### The segment joins its sector -/

/-- The closing wedge of a segment: it is detected into the slot of the sector in reading; with its fifth segment the sector is
whole, and waits for confirmation if this wedge is not confirmed (R69). -/
def State.closeSegment (s : State) (b : BayId) (p : Pu) (g : Seg) (confirmed : Bool) : State :=
  match (s.pu b p).cur with
  | none => s
  | some r =>
    let a := r.sector
    let s := s.newSlot b p
    let s := s.detectSegment b p a (g.frame % 5) g
    if g.frame % 5 < 4 then s
    else
      s.updPu b p (fun u => { u with
        cur := none
        slots := u.slots.map (fun q => if q.sector == a && q.reading then { q with reading := false, wait := !confirmed } else q)
        sheet := { u.sheet with unconf := if confirmed then u.sheet.unconf else a :: u.sheet.unconf } })

/-- A confirmed wedge: sectors that waited for it are judged (R69). -/
def State.confirmReads (s : State) (b : BayId) (p : Pu) : State :=
  let waiting := (s.pu b p).slots.filter (fun q => q.wait)
  let s := s.updPu b p (fun u => { u with
    slots := u.slots.map (fun q => { q with wait := false }), sheet := { u.sheet with unconf := [] } })
  waiting.foldl (fun s q => s.judgeSector b p q.sector) s

/-- A verify read that was not read in full fails verify (R140). -/
def State.verifyUnread (s : State) (b : BayId) (p : Pu) (a : SecAddr) : State :=
  match (s.pu b p).write.coded? a with
  | some c =>
    if c.touched && c.checked.isNone then
      ((s.updCoded b p a (fun c => { c with checked := some false })).raisePu b p 12 .writeVerifyFail).failCoded b p a
    else s
  | none => s

/-- The segments since the last confirmed wedge are withdrawn; withdrawn verify reads fail. -/
def State.withdrawPass (s : State) (b : BayId) (p : Pu) : State :=
  let u := s.pu b p
  let gone := u.sheet.unconf ++ (u.cur.map (fun r => r.sector)).toList
  let checks := (u.slots.filter (fun q => q.why == .verify && gone.contains q.sector)).map (fun q => q.sector)
    ++ (u.cur.toList.filter (fun r => r.why == .verify && !u.slots.any (fun q => q.sector == r.sector))).map (fun r => r.sector)
  checks.foldl (fun s a => s.verifyUnread b p a) (s.withdrawReads b p)

/-! ### A sector's opening wedge: elements (R95, R355, R361, R362) -/

/-- The element that is not in force for a spot. -/
def twinIdx (rows : BitVec 18) (sp : Nat) : Nat := (if rows.getLsbD sp then 0 else 18) + sp

/-- Accepted values of items 2 to 4 that wait for an opening wedge come into force. -/
def Pickup.calOpening (u : Pickup) : Pickup :=
  let now := u.cal.wait.filter (fun w => 2 ≤ w.item && w.item ≤ 4)
  let put := fun (e : Element) (w : CalWait) =>
    if w.item = 2 then { e with pset := (w.vals.getD 0 0).toNat }
    else if w.item = 3 then { e with dc := w.vals.getD 0 0, gain := w.vals.getD 1 65536 }
    else { e with offset := w.vals.getD 0 0 }
  let elems := u.elems.mapIdx (fun i e => (now.filter (fun w => w.unit == i)).foldl put e)
  let u := { u with elems := elems, cal := { u.cal with wait := u.cal.wait.filter (fun w => !(2 ≤ w.item && w.item ≤ 4)) } }
  { u with link := { u.link with pset := (List.range 18).map (fun sp => (u.elem sp).pset) } }

/-- The element has good calibration: items 2 to 4 accepted at a temperature within `cal.delta_c` of the present one. -/
def Element.calibrated (e : Element) (temp delta : Int) : Bool :=
  [2, 3, 4].all (fun i => e.acc.any (fun a => a.1 == i && decide ((a.2 - temp).natAbs ≤ delta.natAbs)))

/-- Spots at least 5 rows apart, from the lowest on (R95). -/
def spacedSpots (l : List Nat) : List Nat :=
  l.foldl (fun acc sp => if acc.all (fun q => decide (q + 5 ≤ sp)) then acc ++ [sp] else acc) []

/-- A spot can be changed at the next opening wedge: in a pass block only V0, V1 and those of the pass being written (R138). -/
def Pickup.mayChange (u : Pickup) (sp : Nat) : Bool :=
  match u.write.block with
  | some k => sp = 0 || sp = 17 || (k.step != .verify && k.step != .verifyJump && (passSpots k.pass).contains sp)
  | none => true

/-- A change of rows is asked for at a wedge's frame bit 0 (R47). -/
def State.askRows (s : State) (b : BayId) (p : Pu) (spots : List Nat) (apply : Int) : State :=
  if spots.isEmpty then s
  else
    let rows := (List.range 18).foldl (fun (r : BitVec 18) sp =>
      if spots.contains sp then r ^^^ BitVec.ofNat 18 (2 ^ sp) else r) (s.link b p).rows
    s.updLink b p (fun l => { l with rowReq := some ⟨rows, (apply / 65536).toNat % 2 ^ 32⟩ })

/-- Swaps of elements are reported and recorded; one that an injection on its spot brought about is provisional (R361, R367,
R421). -/
def State.noteSwaps (s : State) (b : BayId) (p : Pu) (spots : List Nat) : State :=
  spots.foldl (fun s sp =>
    let inj := s.provisional (spotTarget b p sp)
    (s.updPu b p (fun u => { u with cal := if inj then { u.cal with rowProv := sp :: u.cal.rowProv } else u.cal.due s.us })).raisePu b p 14
      .calRowSwap) s

/-- The spot that an item 1 step examines: its twin is lit once the step runs, and left again when the step has ended without
keeping it (R358). -/
def State.planExam (s : State) (b : BayId) (p : Pu) (apply : Int) : State :=
  let c := (s.pu b p).cal
  let runs : Bool := match c.step with
    | some (1, _) => true
    | _ => false
  match c.exam with
  | none => s
  | some (sp, lit) =>
    if lit == runs then s
    else if lit then (s.updPu b p (fun u => { u with cal := { u.cal with exam := none } })).askRows b p [sp] apply
    else (s.updPu b p (fun u => { u with cal := { u.cal with exam := some (sp, true) } })).askRows b p [sp] apply

/-- Frames of the twin that an item 1 step has lit (Table 17-7). -/
def Cal.countFrame (c : Cal) (still : Bool) : Cal :=
  { c with frames := if still && c.exam.any (fun e => e.2) then c.frames + 1 else 0 }

/-- The wedge before a sector's opening: `FAULTY` elements whose twin is calibrated are changed at the opening (R361), else the
spot under examination.
Log 32 (DEDUCED). -/
def State.planSwaps (s : State) (b : BayId) (p : Pu) (apply : Int) : State :=
  let u := s.pu b p
  let temp := u.link.servo.temp.headD 0
  let delta := 64 * s.live .calDeltaC
  let want := (List.range 18).filter (fun sp =>
    let e := u.elem sp
    let t := u.elems.getD (twinIdx u.link.rows sp) .reset
    e.grade == .faulty && t.grade != .faulty && t.calibrated temp delta && u.mayChange sp)
  let want := spacedSpots (want.filter (fun sp => u.cal.exam.all (fun e => e.1 != sp)))
  if u.link.rowReq.isSome then s
  else if want.isEmpty && !u.cal.rowBack.isEmpty then
    let back := spacedSpots (sortBy (fun a c => decide (a < c)) u.cal.rowBack)
    (s.updPu b p (fun u => { u with cal := { u.cal with rowBack := u.cal.rowBack.filter (fun sp => !back.contains sp) } })).askRows b p
      back apply
  else if want.isEmpty then s.planExam b p apply
  else (s.askRows b p want apply).noteSwaps b p want

/-- A retired pickup (R362): `OFF`, never retried, the other pickup the reference. -/
def State.retirePickup (s : State) (b : BayId) (p : Pu) : State :=
  if (s.pu b p).cal.retired then s
  else
    let inj := s.provisional (puTarget b p)
    let s := s.updPu b p (fun u => { u with cal := { (if inj then u.cal else u.cal.due s.us) with retired := true, retProv := inj } })
    ((s.raisePu b p 14 .calPickupRetired).puOff b p).updBay b (fun y => { y with ref := p.other, refLost := s.us })

/-- Retirement and suspension at an opening wedge (R361, R362); in a pass block only of a spot of the pass being written (R138). -/
def State.retireSpots (s : State) (b : BayId) (p : Pu) : State :=
  let u := s.pu b p
  let temp := u.link.servo.temp.headD 0
  let delta := 64 * s.live .calDeltaC
  let bad := (List.range 16).filter (fun i => u.inService.contains i && (u.elem (i + 1)).grade == .faulty && u.mayChange (i + 1))
  let twin := fun (i : Nat) => u.elems.getD (twinIdx u.link.rows (i + 1)) .reset
  let dead := bad.filter (fun i => (twin i).grade == .faulty)
  let hold := bad.filter (fun i => (twin i).grade != .faulty && !(twin i).calibrated temp delta)
  let out := u.cal.tret.toList ++ u.cal.susp.toList
  match dead ++ hold with
  | [] => s
  | i :: rest =>
    if !out.isEmpty || !rest.isEmpty then s.retirePickup b p
    else
      let inj := s.provisional (spotTarget b p (i + 1))
      let mark := fun (c : Cal) => if inj then c else c.due s.us
      let near := (List.range 16).filter (fun (j : Nat) => ((i : Int) - (j : Int)).natAbs ≤ 2)
      let sw := s.bndN (.pickup b p) .sheetDetSwapBits
      let fast := fun (u : Pickup) => { u with det := { u.det with
        fast := u.det.fast.mapIdx (fun j n => if near.contains j then max sw n else n)
        live := { u.det.live with taps := u.det.live.taps.mapIdx (fun j l =>
          ((tapPlan j).zip l).map (fun t => if (j : Int) + t.1.1 = i then 0 else t.2)) } } }
      if dead.contains i then
        (s.updPu b p (fun u => fast { u with cal := { (mark u.cal) with tret := some i, trkProv := inj } })).raisePu b p 14 .calTrackRetired
      else
        (s.updPu b p (fun u => fast { u with cal := { (mark u.cal) with susp := some i, trkProv := inj } })).raisePu b p 14 .calTrackSuspended

/-! ### A sector's opening wedge: detector (R87, R88, R94) -/

/-- The calibrated bank of a layer and target. -/
def Det.calBank (d : Det) (layer target : Nat) : DetBank := ((d.cal.find? (fun e => e.1 == (layer, target))).map (fun e => e.2)).getD .zero

/-- One track's taps of a bank taken from another. -/
def DetBank.takeTrack (d src : DetBank) (i : Nat) : DetBank :=
  { d with taps := d.taps.mapIdx (fun j l => if j = i then src.taps.getD i [] else l) }

/-- The rows that changed in a segment's frame, and when (R94): row −1 is V0, 16 is V1. -/
def Seg.switches (g : Seg) : List (Int × Int) :=
  let all : List (Int × Option Int) := (-1, g.sw0) :: g.trks.mapIdx (fun i (t : TrkSeg) => ((i : Int), t.sw)) ++ [(16, g.sw1)]
  all.filterMap (fun e => e.2.map (fun k => (e.1, k)))

/-- The tracks within two rows of a change adapt fast for `sheet.det.swap_bits` from it, and are marked for the sector (R94). -/
def Pickup.noteSwitches (u : Pickup) (g : Seg) (sw : Nat) : Pickup :=
  let ends := fun (i : Nat) => (g.switches.filter (fun e => (e.1 - (i : Int)).natAbs ≤ 2)).map (fun e => (e.2 + (sw : Int)).toNat)
  { u with det := { u.det with
    fast := u.det.fast.mapIdx (fun i n => (ends i).foldl max n)
    swap := (List.range 16).filter (fun i => u.det.swap.contains i || !(ends i).isEmpty) } }

/-- What is left of the fast adaptation at the end of a frame. -/
def Pickup.endFast (u : Pickup) : Pickup := { u with det := { u.det with fast := u.det.fast.map (fun n => n - 32768) } }

/-- An accepted calibrated bank (item 8) waits for the next load of the live bank from it (R355). -/
def Pickup.takeBank (u : Pickup) (layer target : Nat) : Pickup :=
  { u with
    det := { u.det with
      cal := match u.det.pend.find? (fun e => e.1 == (layer, target)) with
        | some e => e :: u.det.cal.filter (fun c => c.1 != (layer, target))
        | none => u.det.cal
      pend := u.det.pend.filter (fun e => e.1 != (layer, target)) } }

/-- The detector at a sector's opening: the live bank of a new layer or target, tracks that diverged or roll back, the snapshot. -/
def State.openDetector (s : State) (b : BayId) (p : Pu) (a : SecAddr) : State :=
  let target := s.bndN (.pickup b p) .sheetDetTarget
  let u := s.pu b p
  let whole := u.det.layer != some a.layer || u.det.target != target
  let u := if whole || !u.det.reload.isEmpty then u.takeBank a.layer target else u
  let cal := u.det.calBank a.layer target
  let d := u.det
  let live := if whole then cal else d.reload.foldl (fun l i => l.takeTrack cal i) d.live
  let held := d.revert.filterMap (fun e => (d.snaps.find? (fun n => n.1 == e.2)).map (fun n => (e.1, n.2)))
  let live := held.foldl (fun l e => l.takeTrack e.2 e.1) live
  s.updPu b p (fun _ => { u with det := { d with
    live := live, layer := some a.layer, target := target, reload := [], revert := [], snaps := ((a, live) :: d.snaps).take 4
    sq := List.replicate 16 0, cnt := List.replicate 16 0, swap := []
    adapted := if whole then List.range 16 else d.reload ++ held.map (fun e => e.1) } })

/-! ### A sector's opening wedge: admission and work (R381) -/

/-- Admission at an opening wedge: the one held ends and its pickup joins the tail if it has work; a place that is free goes to the
head of the queue. A region with all its decoders needs none.
Log 33 (DEDUCED). -/
def State.admission (s : State) (b : BayId) (p : Pu) (work : Bool) : State :=
  let r := regionOf b
  let (d, n, lim) := s.admissionOf r
  let drop := fun (s : State) => { s with blk := { s.blk with
    admitted := s.blk.admitted.filter (fun e => e != (b, p)), queue := s.blk.queue.filter (fun e => !(e.bay == b && e.pu == p)) } }
  if n ≤ d then drop s
  else
    let held := s.blk.admitted.contains (b, p)
    let s := { s with blk := { s.blk with admitted := s.blk.admitted.filter (fun e => e != (b, p)) } }
    if !work then drop s
    else
      let key := fun (e : Admit) => 2 * e.bay.val + e.pu.idx
      let mine := fun (e : Admit) => e.bay == b && e.pu == p
      let q := if held then s.blk.queue.filter (fun e => !mine e) else s.blk.queue
      let q := if q.any mine then q else q ++ [⟨b, p, s.us⟩]
      let line := sortBy (fun x y => decide (x.since < y.since ∨ (x.since = y.since ∧ key x < key y)))
        (q.filter (fun e => regionOf e.bay == r))
      let free := lim - (s.blk.admitted.filter (fun e => regionOf e.1 == r)).length
      let got := (line.take free).any mine
      { s with blk := { s.blk with
        queue := if got then q.filter (fun e => !mine e) else q, admitted := if got then (b, p) :: s.blk.admitted else s.blk.admitted } }

/-- The forced gap at an opening wedge (R358). Work that has arrived ends an unforced step, which runs again in full later. -/
def Pickup.gapOpening (u : Pickup) (now gapUs : Nat) : Pickup :=
  let u := if u.cal.gap.isNone && !u.reads.isEmpty then { u with cal := { u.cal with step := none } } else u
  match u.cal.gap with
  | some t => if t + gapUs ≤ now then { u with cal := { u.cal with gap := none, gapDue := false } } else u
  | none => if u.cal.gapDue && u.write.block.isNone then { u with cal := { u.cal with gap := some now } } else u

/-- A pickup can serve a read now: identity copies are read before the bay is ready (R32). -/
def State.mayRead (s : State) (b : BayId) (p : Pu) (r : ReadReq) : Bool :=
  match r.why with
  | .record 7 _ => s.pickupServes b p
  | _ => s.pickupReads b p

/-- The read that an opening sector serves, if any: a verify of the pass block, or a first read that waits for it. -/
def State.readHere (s : State) (b : BayId) (p : Pu) (a : SecAddr) : Option ReadReq :=
  let u := s.pu b p
  let verify : Bool := match u.write.block with
    | some k => k.step == .verify && k.opened && k.sectors.contains a && (match u.write.coded? a with
      | some c => wholeIn a c.good && c.checked.isNone
      | none => false)
    | none => false
  if verify then some ⟨a, .verify, 0, s.us⟩
  else if u.write.block.isSome || u.cal.gap.isSome || u.cal.step.isSome then none
  else u.reads.find? (fun r => r.sector == a && r.again = 0)

/-- The wedge that opens a sector, under frame lock. -/
def State.openSector (s : State) (b : BayId) (p : Pu) (f : FrameAddr) : State :=
  let s := if (s.pu b p).sheet.opened then s else s.boundary (.pickup b p) 2
  let s := s.updSheet b p (fun x => { x with opened := false })
  let ok := (s.pu b p).sheet.rateInRange (s.bndN (.pickup b p) .sheetRateTolPpm) s.us
  let s := s.updSheet b p (fun x => { x with rateOk := ok, releasing := ok })
  let s := s.updPu b p (fun u => u.calOpening)
  let s := s.retireSpots b p
  let m := (s.pu b p).ms
  if m.st == .off then s
  else if m.limitHit then (s.abandonBlock b p).enterRecover b p .ordinary
  else
    let gapUs := 1000 * s.liveN .calGapMs
    let now := s.us
    let s := s.updPu b p (fun u => u.gapOpening now gapUs)
    let a : SecAddr := ⟨f.layer, f.zone, f.frame / 5⟩
    let want := s.readHere b p a
    let waits := !(s.pu b p).reads.isEmpty || want.isSome
    let s := s.admission b p waits
    let s := s.openDetector b p a
    match want with
    | some r =>
      if m.st == .follow && ok && !s.mustRest b p && s.mayRead b p r && ((s.bay b).pairOk || (s.bay b).ref == p) then
        (s.abandonTune b p).updPu b p (fun u => { u with
          cur := some r, reads := u.reads.filter (fun x => !(x.sector == r.sector && x.again = 0)) })
      else s
    | none => s

/-! ### A pass block at a wedge (R129, R132) -/

/-- The block's jump back of one swath, its landing predicted.
Log 33 (DEDUCED). -/
def State.blockJump (s : State) (b : BayId) (p : Pu) (k : PassBlock) (step : BlockStep) (tries : Nat) : State :=
  (s.updPu b p (fun u => { u with write := { u.write with
    block := some { k with step := step, tries := tries, opened := false, next := k.j }, sent := [] } })).jumpTo b p (-1)

/-- The own wedge of segments sent (R132): good if confirmed and within `write.align.max_err_bits` of its prediction. A sector
complete in both passes, without verify, is written. -/
def State.alignCheck (s : State) (b : BayId) (p : Pu) (f : Nat) (confirmed : Bool) (pos : Int) : State :=
  let u := s.pu b p
  match u.write.block, u.write.sent.find? (fun g => g.frame == f) with
  | some k, some g =>
    let a : SecAddr := ⟨k.layer, k.zone, f / 5⟩
    let lim : Int := s.liveN .writeAlignMaxErrBits * u.sheet.period
    let s := s.updPu b p (fun u => { u with write := { u.write with sent := u.write.sent.filter (fun x => x.frame != f) } })
    if confirmed ∧ ((pos - g.pos) * 65536).natAbs ≤ lim.natAbs then
      let s := s.updCoded b p a (fun c => { c with good := (f, g.pass) :: c.good })
      match (s.pu b p).write.coded? a with
      | some c => if !k.verify && wholeIn a c.good then s.doneCoded b p a else s
      | none => s
    else s.failCoded b p a
  | _, _ => s

/-- The block's end of a pass, at the wedge of frame J + B. -/
def State.passEnd (s : State) (b : BayId) (p : Pu) (k : PassBlock) : State :=
  let done := fun (s : State) => s.updPu b p (fun u => { u with write := { u.write with block := none, sent := [] } })
  let max := s.liveN .writeJumpMaxTries
  match k.step with
  | .even => s.blockJump b p k .oddJump 1
  | .oddJump =>
    if k.tries < max then s.blockJump b p k .oddJump (k.tries + 1)
    else k.sectors.foldl (fun s a => s.failCoded b p a) ((done s).raisePu b p 12 .writeJumpFail)
  | .odd => if k.verify then s.blockJump b p k .verifyJump 1 else done s
  | .verifyJump =>
    if k.tries < max then s.blockJump b p k .verifyJump (k.tries + 1)
    else k.sectors.foldl (fun s a => s.verifyUnread b p a) (done s)
  | .verify =>
    let read := (s.pu b p).slots.filter (fun q => q.why == .verify)
    let left := k.sectors.filter (fun a => !read.any (fun q => q.sector == a))
    left.foldl (fun s a => s.verifyUnread b p a) (done s)

/-- A wedge that decodes after the takeover of a failed lane is complete lets writing go on (R60). -/
def State.takeoverWedge (s : State) (b : BayId) (p : Pu) (pos : Int) : State :=
  let l := s.link b p
  let done : Int := l.servo.tq + 1067 + 512 * ((l.since : Int) - l.servoAt)
  if l.st == .active && decide (done ≤ pos / 65536 - 128) then
    s.updPu b p (fun u => { u with write := { u.write with laneHold := none } })
  else s

/-- What a classed wedge of frame `f` means to the pass block. -/
def State.blockWedge (s : State) (b : BayId) (p : Pu) (f : FrameAddr) (confirmed : Bool) (pos : Int) : State :=
  let s := s.alignCheck b p f.frame confirmed pos
  let s := if confirmed then s.takeoverWedge b p pos else s
  match (s.pu b p).write.block with
  | none => s
  | some k =>
    if f.frame = k.j + 5 * k.n then s.passEnd b p k
    else if confirmed ∧ f.frame + 1 = k.j then
      let go := fun (step : BlockStep) => s.updPu b p (fun u => { u with write := { u.write with
        block := some { k with step := step, opened := true, next := k.j } } })
      match k.step with
      | .oddJump => go .odd
      | .verifyJump => go .verify
      | _ => s
    else s

end Sys2Proof.Machine
end

