-- ==== Sys2Proof/Machine/WedgeRows.lean ====
section
/-! DEFINITION. The commands of the sheet channel (03_sheet_acquisition.md). -/

namespace Sys2Proof.Machine

/-! ### Sample blocks (R54, R55, R66) -/

/-- `HLINK_SAMPLE_FRAME` (R54, R55): a sample frame joins its link; every block due is released to the sheet channel. A frame of a
lane that the outstanding map newly names shows that the map is in effect (R57). -/
def execHlinkSampleFrame (b : BayId) (p : Pu) (l : PhysLane) (raw : Bytes) (s : State) : Host.Outcome State Fault Refusal :=
  withBay b s (fun s =>
    if s.portUp b p && (s.link b p).live then
      let (fs, s) := s.rxLane b p l raw
      let now := s.us
      fs.foldl (fun s f =>
        if frType f != 1 then s
        else
          let s := if frGood f && (s.link b p).mapsNew l then s.updLink b p (fun k => k.applyMap now) else s
          (s.takeSample b p l f).releaseAll b p) s
    else s)

/-- `BLOCK_RELEASE_TIMEOUT` (R54): the oldest block is released, erased if it has not arrived. -/
def execBlockReleaseTimeout (b : BayId) (p : Pu) (s : State) : Host.Outcome State Fault Refusal :=
  withBay b s (fun s =>
    if s.portUp b p && (s.link b p).live then
      let (blk, l) := (s.link b p).pop
      ((s.updLink b p (fun _ => l)).sheetBlock b p blk).releaseAll b p
    else s)

/-- `TIMING_HOLD_LIMIT` (R75): from the bit at which the counter reached its limit on the track is lost and flagged. -/
def execTimingHoldLimit (b : BayId) (p : Pu) (i : Fin 16) (s : State) : Host.Outcome State Fault Refusal :=
  withBay b s (fun s =>
    if s.portUp b p then
      s.updSheet b p (fun x => { x with tracks := x.tracks.mapIdx (fun j t => if j = i.val then t.settle else t) })
    else s)

/-! ### Segment sync (R71 to R73, R76, R93) -/

/-- The segment sync of a parity as bits. -/
def syncBits (odd : Bool) : List Bool := bitsOfNat 64 (segSync odd)

/-- The tentative decisions of a track over the search window (R66, R71): frame bits 704 − w to 767 + w, each value less
`sheet.acq.xt_coef` / 256 of its neighbours'. -/
def syncDecisions (ts : List Track) (i w : Nat) (xt : Int) : List Bool :=
  let span := fun (j : Nat) => ((((ts.getD j .idle).bits.reverse.drop (704 - w)).take (64 + 2 * w)).map (fun x => x.y)).toArray
  let own := span i
  let lo := if i = 0 then #[] else span (i - 1)
  let hi := if 15 ≤ i then #[] else span (i + 1)
  (List.range (64 + 2 * w)).map (fun n => decide (0 < 256 * own.getD n 0 - xt * (lo.getD n 0 + hi.getD n 0)))

/-- A track's mark: the offset with the highest match, if that is high enough and the other parity does not match better there. -/
def syncMark (bits : List Bool) (w least : Nat) (odd : Bool) : Option Int :=
  let own := agreeAt (syncBits odd) bits w
  let (d, n) := bestBy own (offsetsIn w)
  if n < least ∨ n < agreeAt (syncBits !odd) bits w d then none else some d

/-- The candidates of R73: own δ, δp, the most recent δ, then the window by falling match; the δ in force and repeats skipped. -/
def syncCandidates (bits : List Bool) (w most : Nat) (odd : Bool) (own pass recent : Option Int) (used : Int) : List Int :=
  let byMatch := sortBy (fun a c => decide (agreeAt (syncBits odd) bits w c < agreeAt (syncBits odd) bits w a)) (offsetsIn w)
  let all := own.toList ++ pass.toList ++ recent.toList ++ byMatch
  ((all.foldl (fun acc d => if acc.contains d || d == used then acc else acc ++ [d]) ([] : List Int))).take most

/-- Clean preamble bits of a track at its pass vote: unflagged bits of frame bits 512 to 703. -/
def Track.cleanPreamble (t : Track) : Nat :=
  (((t.bits.reverse.drop 512).take 192).filter (fun x => !x.flag)).length

/-- A track is `BLANK` (R93): at every unflagged bit from frame bit 512 to the pass vote at 792 the mean |y| of the last 32 lies below
`low_pct` % of A. -/
def Track.faint (t : Track) (low : Nat) : Bool :=
  let bits := (t.bits.reverse.drop 481).take 311
  let mags := bits.toArray.map (fun x => x.y.natAbs)
  (List.range 280).all (fun n =>
    (bits.getD (n + 31) ⟨0, true⟩).flag ||
      decide (((List.range 32).foldl (fun a k => a + mags.getD (n + k) 0) 0) * 100 < low * amplitudeA * 32))

/-- The status and δ of a track (Table 03-4, R76, R93). -/
def Track.place (t : Track) (bits : List Bool) (faint : Bool) (w vote clean maxAge : Nat) (tol : Int) (odd : Bool)
    (own pass : Option Int) (fresh : Nat) : TrkStat × Int :=
  let recent := match t.recent with
    | some (d, age) => if age ≤ maxAge then some d else none
    | none => none
  let atPass := match pass with
    | some q => agreeAt (syncBits odd) bits w q
    | none => 0
  if faint then (.blank, pass.getD 0)
  else if fresh < clean then
    (match recent with
     | some d => if t.whole ≤ maxAge then (.fly, d) else (.nominal, pass.getD 0)
     | none => (.nominal, pass.getD 0))
  else
    match own, pass with
    | some d, none => (.found, d)
    | some d, some q => if (d - q).natAbs ≤ tol.natAbs then (.found, d) else if vote ≤ atPass then (.voted, q) else (.foundAlone, d)
    | none, some q =>
      if vote ≤ atPass then (.voted, q)
      else (match recent with
        | some d => (.fly, d)
        | none => (.nominal, q))
    | none, none =>
      (match recent with
       | some d => (.fly, d)
       | none => (.nominal, 0))

/-- The phase of a track's instants to a wedge, in 1/65,536 sample within ±half a bit. -/
def Track.phase (t : Track) (period framePos : Int) : Int :=
  let off := t.t - framePos
  off - rnd (rnd (off * 65536) period.toNat * period) 65536

/-- A track after its pass vote (R76): a clean enough preamble clears the hold counter, and a good δ is kept with the phase to the wedge;
otherwise the first 512 data bits run the fast gain, from that phase where the track has recent history. -/
def Track.vote (t : Track) (st : TrkStat) (delta : Int) (cand : List Int) (clean : Bool) (period framePos : Int) : Track :=
  let kept := st == .found || st == .foundAlone || st == .voted
  let ph := t.phase period framePos
  { t with
    stat := st, delta := delta, cand := cand, recent := if kept then some (delta, 0) else t.recent
    recPhase := if kept then ph else t.recPhase
    t := if st == .fly && !clean then t.t + (t.recPhase - ph) else t.t
    hold := if clean then 0 else t.hold, fast := if clean then 0 else 512 }

/-- The tracks after the vote on a segment's sync (R71 to R73, R76, R93): a track in service and not lost is placed by the passes'
votes and its own mark; a lost one is classed `BLANK` where it is; every other track stays as it was. -/
def State.voteTracks (s : State) (b : BayId) (p : Pu) : List Track :=
  let u := s.pu b p
  let x := { u.sheet with tracks := u.sheet.tracks.map Track.settle }
  let v := fun (f : Field) => s.bndN (.pickup b p) f
  let w := v .sheetSyncWindowBits
  let live := u.inService
  let low := s.liveN .sheetDefectLowPct
  let bits := fun (i : Nat) => syncDecisions x.tracks i w (v .sheetAcqXtCoef)
  let faint := fun (i : Nat) => (x.tracks.getD i .idle).faint low
  let own := fun (i : Nat) =>
    if (x.tracks.getD i .idle).lost.isSome then none else syncMark (bits i) w (v .sheetSyncMinMatch) (i % 2 = 1)
  let passOf := fun (par : Nat) =>
    let ds := (live.filter (fun i => i % 2 = par && !faint i)).filterMap own
    let least := min (v .sheetSyncVoteMinTracks) (live.filter (fun i => i % 2 = par)).length
    if ds.length < least then none else lowerMedian ds
  let p0 := passOf 0
  let p1 := passOf 1
  let clean := v .sheetAcqMinCleanBits
  x.tracks.mapIdx (fun i t =>
    if !live.contains i then t
    else if t.lost.isSome then (if faint i then { t with stat := .blank } else t)
    else
      let pass := if i % 2 = 0 then p0 else p1
      let fresh := t.cleanPreamble
      let (st, d) := t.place (bits i) (faint i) w (v .sheetSyncVoteMatch) clean (v .sheetFlyMaxFrames) (v .sheetSyncPassTolBits)
        (i % 2 = 1) (own i) pass fresh
      t.vote st d (syncCandidates (bits i) w (v .sheetSyncCandidates) (i % 2 = 1) (own i) pass (t.recent.map (fun e => e.1)) d)
        (decide (clean ≤ fresh)) x.period x.framePos)

/-- `SEGMENT_SYNC_VOTE` (R71 to R73, R76, R80, R93): once in a frame under frame lock, when the tracks in service have reached bit 792. -/
def execSegmentSyncVote (b : BayId) (p : Pu) (s : State) : Host.Outcome State Fault Refusal :=
  withBay b s (fun s =>
    let u := s.pu b p
    if !s.portUp b p || u.sheet.lock != .locked || u.sheet.voted
        || u.inService.any (fun i => decide ((u.sheet.tracks.getD i .idle).bits.length < 792)) then s
    else
      let new := s.voteTracks b p
      s.updSheet b p (fun x => { x with tracks := new, voted := true }))

/-! ### Wedges (R68 to R70) -/

/-- What a wedge predicted at an instant shows of the sync position and of the address, by the tests of R22 and R33; none while the
bits of a track in service have not come so far. A track whose row changed in this frame takes no part (R64).
Log 52 (DESIGN CHOICE). -/
def State.wedgeAt (s : State) (b : BayId) (p : Pu) (at' : Int) : Option (Option Int × Option WedgeAddr) :=
  let u := s.pu b p
  let x := u.sheet
  let w := s.bndN (.pickup b p) .sheetWedgeWindowBits
  let live := u.inService
  let start := at' - rnd (128 * x.period) 65536
  if live.any (fun i => !(x.tracks.getD i .idle).reached x.period at' w) then none
  else
    let tracks := live.filter (fun i => (((x.tracks.getD i .idle).switchBit x.period start)).isNone)
    let seen := tracks.filterMap (fun i => (x.tracks.getD i .idle).wedge x.period at' w)
    match wedgeCombine seen (min (s.bndN (.pickup b p) .sheetWedgeMinTracks) live.length) with
    | none => some (none, none)
    | some (pos, sums) =>
      some (some pos,
        (wedgeOfSums sums).bind (fun a => if turnAgrees a.addr a.turn && (s.bay b).disc.tagGood p a.tag then some a else none))

/-- The instant predicted for the next wedge under frame lock. -/
def Sheet.nextWedge (x : Sheet) : Int := x.lastPos + (x.miss + 1) * x.interval

/-- The first wedge in search from an instant on, bit by bit, whose sync is found and whose address decodes (R70). -/
def State.wedgeFrom (s : State) (b : BayId) (p : Pu) (per : Int) : Nat → Int → Option (Int × WedgeAddr)
  | 0, _ => none
  | n + 1, at' =>
    let hit := match s.wedgeAt b p at' with
      | some (some pos, some _) => (match s.wedgeAt b p pos with
        | some (some q, some a) => some (q, a)
        | _ => none)
      | _ => none
    match hit with
    | some h => some h
    | none => State.wedgeFrom s b p per n (at' + per / 65536)

/-- What a channel in search finds: the next wedge after the one accepted first, if any. -/
def State.wedgeSought (s : State) (b : BayId) (p : Pu) (first : Option (FrameAddr × Int)) : Option (Int × WedgeAddr) :=
  let x := (s.pu b p).sheet
  let per := x.period
  let t := x.tracks.getD ((s.pu b p).inService.headD 0) .idle
  let start := match first with
    | some (_, q) => q + rnd (16384 * per) 65536
    | none => t.t - rnd (t.bits.length * per) 65536
  s.wedgeFrom b p per (t.after per start) start

/-- The radii of the pair (R158), computed at a confirmed wedge: the steering of the non-reference pickup, and the result that R136
tests. A pickup that is off, failed or retired does not take part.
Log 32 (DEDUCED). -/
def State.pairCheck (s : State) (b : BayId) : State :=
  let y := s.bay b
  let works := fun (p : Pu) => (y.pu p).ms.st != .off && (y.pu p).ms.st != .failed && !(y.pu p).cal.retired
  match y.radA, y.radB with
  | some ra, some rb =>
    if !works .A || !works .B then s.updBay b (fun y => { y with pairOk := true })
    else
      let diff := ((ra : Int) - rb).natAbs
      let rref := if y.ref == .A then ra else rb
      let band := rref * (s.bndN (.pickup b y.ref.other) .sheetRateTolPpm - 1000) / 1000000
      let lim := min (s.liveN .loopPairSteerMm * 100000 / 65536) (band * 3 / 4)
      let ok := decide (diff ≤ 20000)
      let steer := fun (m : Motion) => { m with steer := if lim < diff then true else if diff * 2 < lim then false else m.steer }
      let s := s.updMs b y.ref.other steer
      let s := s.updBay b (fun y => { y with pairOk := ok })
      if y.pairOk && !ok then (s.raiseBay b 17 .loopPairRange).withdrawPass b y.ref.other else s
  | _, _ => s.updBay b (fun y => { y with pairOk := true })

/-- What every confirmed wedge brings (R69, R149, R158, R159, R223).
Log 31 (DEDUCED). -/
def State.wedgeConfirmed (s : State) (b : BayId) (p : Pu) (f : FrameAddr) : State :=
  let now := s.us
  let ivl := (s.pu b p).sheet.interval
  let s := if (s.bay b).ref == p then
      s.updBay b (fun y => { y with
        refLost := now, spindle := { y.spindle with wedgeSrc := true, wedgeInt := ivl, wedgeAt := some now, wedgeRef := p } }) else s
  let s := ((s.confirmReads b p).askRecord b p).pairCheck b
  let s := s.sledSlip b p (radiusOf f.zone f.frame)
  let turn := turnOf f.zone f.frame
  s.updPu b p (fun u => { u with ms := { u.ms with
    rest := if u.resting then some (u.ms.rest.getD turn) else none
    hasTarget := u.ms.hasTarget && !(f.zone == u.ms.tgtZone && f.frame == u.ms.tgtFrame) } })

/-- The wedges of a classed frame on: the sector that opens with it, or the row changes for the next opening. -/
def State.wedgeNext (s : State) (b : BayId) (p : Pu) (f : FrameAddr) (pos : Int) : State :=
  if f.frame % 5 = 0 then s.openSector b p f
  else
  let s := s.updSheet b p (fun x => { x with opened := false })
  if f.frame % 5 = 4 then s.planSwaps b p (pos + rnd (32640 * (s.pu b p).sheet.period) 65536)
  else s

/-- The frame after an address. -/
def frameAfter (f : FrameAddr) : FrameAddr := { f with frame := f.frame + 1 }

/-- Frame lock is taken (R70): address, P and interval; the tracks take the calibrated c and g; counts of R154 and R156 are cleared
and a pickup in `ACQUIRE` enters `FOLLOW`. -/
def State.takeLock (s : State) (b : BayId) (p : Pu) (f : FrameAddr) (per ivl pos : Int) : State :=
  let now := s.us
  let s := s.updPu b p (fun u => { u with
    sheet := { u.sheet with
      lock := .locked, predict := frameAfter f, lastConf := f, miss := 0, jumpCand := none, period := per, oldP := per, oldAt := now
      lastPos := pos, interval := ivl, rateOk := true, releasing := false, timed := true, opened := false
      tracks := u.sheet.tracks.mapIdx (fun i t =>
        let e := u.spotCal f.zone (i + 1) (u.sheet.rows.getLsbD (i + 1))
        { t with c := e.dc, g := e.gain, recent := none }) }
    ms := { u.ms with corr := 0, layerTry := 0, ladders := 0, fromRec := false, layer := f.layer } })
  let s := if (s.pu b p).ms.st == .acquire then s.enterFollow b p else s
  (s.wedgeConfirmed b p f).wedgeNext b p f pos

/-- A decoded wedge in search (R70): a first wedge accepted, then a second confirmed against it within the rate range. A wedge that
cannot be accepted leaves the search with the bits after it. -/
def State.searchWedge (s : State) (b : BayId) (p : Pu) (since : Nat) (first : Option (FrameAddr × Int)) (a : WedgeAddr)
    (pos : Int) : State :=
  let u := s.pu b p
  let m := u.ms
  let f := a.addr
  if f.surf == p && f.layer == m.tgtLayer && f.zone == m.tgtZone && (m.st == .acquire || m.st == .follow) then
    let w := s.bndN (.pickup b p) .sheetSyncWindowBits
    let x := (u.cutFrame f.frame true pos w).2
    let s := s.updSheet b p (fun _ => { x with lock := .search since (some (f, pos)) })
    match first with
    | some (g, q) =>
      let per := 2 * (pos - q)
      let tol := s.bndN (.pickup b p) .sheetRateTolPpm
      if f == frameAfter g && { x with period := per, oldP := per, lastConf := f }.rateInRange tol s.us then s.takeLock b p f per (pos - q) pos
      else s
    | none => s
  else
    let per := u.sheet.period
    let past := pos + rnd (320 * per) 65536
    let cut := fun (t : Track) => { t with bits := t.bits.take (t.since per past) }
    s.updSheet b p (fun x => { x with lock := .search since none, tracks := x.tracks.map cut, v0 := cut x.v0, v1 := cut x.v1 })

/-- Nothing found in search: a first wedge whose successor has not come in its frame is forgotten. -/
def State.searchOn (s : State) (b : BayId) (p : Pu) : State :=
  let x := (s.pu b p).sheet
  match x.lock with
  | .search since (some (_, q)) =>
    if x.tracks.all (fun t => decide (q + rnd (33792 * x.period) 65536 ≤ t.t)) then
      s.updSheet b p (fun x => { x with lock := .search since none })
    else s
  | _ => s

/-- The statuses of a segment are counted (R73): every one but `FOUND`. -/
def Pickup.countStats (u : Pickup) (g : Seg) : Pickup :=
  { u with cnt := { u.cnt with stats := u.cnt.stats.mapIdx (fun k n => n + (g.trks.filter (fun t => t.stat.code == k + 1)).length) } }

/-- The segment that a wedge closes: its statuses, the tracks that adapt fast, its detection (R73, R94). -/
def State.endSegment (s : State) (b : BayId) (p : Pu) (g : Seg) (confirmed : Bool) : State :=
  let sw := s.bndN (.pickup b p) .sheetDetSwapBits
  let s := s.updPu b p (fun u => (u.countStats g).noteSwitches g sw)
  (s.closeSegment b p g confirmed).updPu b p Pickup.endFast

/-- A wedge under frame lock (R69): classed as confirmed, jump or predicted; P, the address, the segment that ends, the pass block,
the sector that opens. The first wedge after a jump between swaths measures no interval, only where the next is due.
Log 31 (DEDUCED). -/
def State.lockedWedge (s : State) (b : BayId) (p : Pu) (found : Bool) (a : Option WedgeAddr) (pos : Int) : State :=
  let u := s.pu b p
  let x := u.sheet
  let want := x.predict
  let dec := a.map (fun a => a.addr)
  let conf := dec == some want
  let jump := !conf && dec.isSome && dec == x.jumpCand
  let w := s.bndN (.pickup b p) .sheetSyncWindowBits
  let (g, x') := u.cutFrame (want.frame - 1) found pos (w + 8)
  let n := x.miss + 1
  let meas := found && x.timed && !jump
  let per := if meas then x.period + rnd (rnd (2 * (pos - x.lastPos)) n - x.period) (2 ^ s.bndN (.pickup b p) .sheetPllWedgeShift) else x.period
  let ivl := if meas then rnd (pos - x.lastPos) n else if jump then per / 2 else x.interval
  let x' := { x' with period := per, interval := ivl, timed := x.timed || found }
  let s := if (x.releasing && !jump) || u.cur.isNone then s else s.withdrawPass b p
  if jump then
    let f := dec.getD want
    let s := ((s.withdrawPass b p).updPu b p (fun u => (u.countStats g).endFast)).updSheet b p (fun y => { x' with
      unconf := y.unconf, predict := frameAfter f, lastConf := f, miss := 0, jumpCand := none, lastPos := pos })
    (((s.raisePu b p 8 .sheetAddrJump).rateCheck b p).blockWedge b p f false pos).wedgeNext b p f pos
  else if conf then
    let s := s.updSheet b p (fun y => { x' with
      unconf := y.unconf, predict := frameAfter want, lastConf := want, miss := 0, jumpCand := none, lastPos := pos })
    let s := (s.rateCheck b p).endSegment b p g true
    ((s.wedgeConfirmed b p want).blockWedge b p want true pos).wedgeNext b p want pos
  else
    let s := s.updSheet b p (fun y => { x' with
      unconf := y.unconf, predict := frameAfter want, miss := n, jumpCand := dec.map frameAfter
      lastPos := if found && !x.timed then pos - n * ivl else x.lastPos })
    let s := (s.rateCheck b p).endSegment b p g false
    (s.blockWedge b p want false pos).wedgeNext b p want pos

/-- The answer to a decoded wedge in `ACQUIRE` (R154): none where it fits the target. -/
inductive AcqAnswer where
  | fits
  | mismatch
  | noTries
  | seek
  | layer
  | jump (d : Int)
  deriving DecidableEq, Repr

/-- How a decoded wedge in `ACQUIRE` differs from the target (R154). -/
def State.acqAnswer (s : State) (b : BayId) (p : Pu) (f : FrameAddr) (turn : Nat) : AcqAnswer :=
  let m := (s.pu b p).ms
  let d := (turnOf m.tgtZone m.tgtFrame : Int) - turn
  if f.surf ≠ p then .mismatch
  else if f.zone ≠ m.tgtZone then .seek
  else if f.layer ≠ m.tgtLayer then (if s.liveN .loopLayerMaxTries ≤ m.layerTry then .noTries else .layer)
  else if d.natAbs ≤ 1 then .fits
  else if d.natAbs ≤ s.bndN (.pickup b p) .loopJumpMaxSwaths then .jump d
  else .seek

/-- A correction of R154 is counted; those spent, the pickup recovers. -/
def State.countCorrection (s : State) (b : BayId) (p : Pu) : State := s.updMs b p (fun m => { m with corr := m.corr + 1 })

/-- The answer is carried out (R154). -/
def State.acquireFix (s : State) (b : BayId) (p : Pu) (tag : Nat) (x : AcqAnswer) : State :=
  let spent := decide (s.liveN .loopAcqMaxCorrections ≤ (s.pu b p).ms.corr)
  match x with
  | .fits => s
  | .mismatch => s.rejectDisc b ((s.bay b).disc.name tag) .surface (4 + p.idx) .loopSurfaceMismatch
  | .noTries => s.enterRecover b p .layerTries
  | .seek => if spent then s.enterRecover b p .ordinary else (s.countCorrection b p).correctionSeek b p
  | .layer =>
    if spent then s.enterRecover b p .ordinary else (s.countCorrection b p).startLayerJump b p (s.pu b p).ms.tgtLayer
  | .jump d => if spent then s.enterRecover b p .ordinary else (s.countCorrection b p).startJump b p d

/-- What a decoded wedge says of disc and pickup (R22, R35, R157, R222). -/
def State.sawAddr (s : State) (b : BayId) (p : Pu) (a : WedgeAddr) : State :=
  let r := radiusOf a.addr.zone a.addr.frame
  let s := s.updBay b (fun y => { y with
    disc := y.disc.noteTag p a.tag
    radA := if p == .A && a.addr.surf == p then some r else y.radA
    radB := if p == .B && a.addr.surf == p then some r else y.radB })
  -- the setpoint in force is that of the layer on which focus is closed (R151), the trim cleared at a change (R152)
  let code := s.saSet b p a.addr.layer
  let s := s.updMs b p (fun m =>
    let m := { m with sawWedge := true }
    if a.addr.layer = m.layer then m else { m with layer := a.addr.layer, saCode := code, saTrim := 0, saOfs := 0, saEnv := none })
  if a.addr.surf == p then s.sledWedge b p r else s

/-- A decoded wedge of an unknown format rejects the disc (R23); another is classed by `go`. -/
@[simp]
def State.wedgeSeen (s : State) (b : BayId) (p : Pu) (a : WedgeAddr) (go : State → State) : State :=
  let s := s.sawAddr b p a
  if a.ver ≠ 1 then s.rejectDisc b ((s.bay b).disc.name a.tag) .format 16 .discFormatUnknown else go s

/-- `WEDGE_PROCESS` (R68 to R70): the next wedge of the channel's own bits is correlated, decoded and classed. A disc that turns
backward shows no wedge (R195): under frame lock the predicted one passes unfound. -/
def execWedgeProcess (b : BayId) (p : Pu) (s : State) : Host.Outcome State Fault Refusal :=
  withBay b s (fun s =>
    let s := s.openBoundary b p
    let u := s.pu b p
    let x := u.sheet
    let back := (s.bay b).spindle.backward
    if !s.portUp b p || !u.link.live then s
    else
      match x.lock with
      | .off => s
      | .locked =>
        let s := s.updPu b p (fun u => { u with cal := u.cal.countFrame u.link.rowReq.isNone })
        let due := x.nextWedge
        (match s.wedgeAt b p due with
         | none => s
         | some (shift, a) =>
           let shift := if back then none else shift
           let pos := shift.getD due
           (match if back then none else a with
            | some a => s.wedgeSeen b p a (fun s => s.lockedWedge b p true (some a) pos)
            | none => s.lockedWedge b p shift.isSome none pos))
      | .search since first =>
        if back then s
        else
          match s.wedgeSought b p first with
          | none => s.searchOn b p
          | some (pos, a) =>
            s.wedgeSeen b p a (fun s =>
              let y := if u.ms.st == .acquire then s.acqAnswer b p a.addr a.turn else .fits
              if y == .fits then s.searchWedge b p since first a pos else s.acquireFix b p a.tag y))

/-- `FRAME_LOCK_LOST` (R69): withdrawn segments, the event, and search again.
Log 32 (DEDUCED). -/
def execFrameLockLost (b : BayId) (p : Pu) (s : State) : Host.Outcome State Fault Refusal :=
  withBay b s (fun s =>
    let x := (s.pu b p).sheet
    if s.portUp b p && x.lock == .locked && s.liveN .sheetWedgeMaxMiss ≤ x.miss then
      let s := s.raisePu b p 8 .sheetWedgeLost
      let s := s.endVerify b p
      let now := s.us
      let s := (s.dropFrameLock b p).updPu b p (fun u => { u with
        ms := { u.ms with sawWedge := false, tgtZone := u.sheet.lastConf.zone, tgtLayer := u.sheet.lastConf.layer } })
      let prior := s.priorPeriod b p
      s.updSheet b p (fun x => x.seek now prior)
    else s)

/-- `ACQ_SEARCH_TIMEOUT` (R70, R154): the event and `RECOVER`; with no wedge decoded the focus is suspect.
Log 32 (DEDUCED). -/
def execAcqSearchTimeout (b : BayId) (p : Pu) (s : State) : Host.Outcome State Fault Refusal :=
  withBay b s (fun s =>
    let u := s.pu b p
    match u.sheet.lock with
    | .search since _ =>
      if s.portUp b p && since + s.liveN .sheetAcqSearchTimeoutUs ≤ s.us then
        (s.raisePu b p 8 .sheetAcqFail).enterRecover b p (if u.ms.sawWedge then .ordinary else .focusSuspect)
      else s
    | _ => s)

end Sys2Proof.Machine
end

