-- ==== Sys2Proof/Machine/SpinOps.lean ====
section
/-! DEFINITION. The spindle (09_spindle.md): transforms, modulation, the current loops, the observer, crossings and catches, the speed
loop, entries to its states. Currents are in µA, voltages in µV, speeds in 1/65,536 rpm, angles in 2^−32 electrical turn. -/

namespace Sys2Proof.Machine

/-! ### Values of the motor and its stage -/

/-- A BOUNDARY value of the bay's `spindle` or `mlink` section. -/
def State.spin (s : State) (b : BayId) (f : Field) : Nat := s.bndN (.bay b) f

/-- sin of an electrical angle, in 1/32,767. -/
def sinE (th : Int) : Int := sinTurn th

/-- cos of an electrical angle, in 1/32,767. -/
def cosE (th : Int) : Int := sinTurn (th + 2 ^ 30)

/-- Park: stationary to the frame at an angle (R191). -/
def park (th : Int) (v : Int × Int) : Int × Int :=
  (rnd (v.1 * cosE th + v.2 * sinE th) 32767, rnd (v.2 * cosE th - v.1 * sinE th) 32767)

/-- The inverse of `park`. -/
def unpark (th : Int) (v : Int × Int) : Int × Int :=
  (rnd (v.1 * cosE th - v.2 * sinE th) 32767, rnd (v.1 * sinE th + v.2 * cosE th) 32767)

/-- The magnitude of a vector. -/
def mag (v : Int × Int) : Nat := Nat.sqrt (v.1 * v.1 + v.2 * v.2).toNat

/-- Revolutions per minute as a speed. -/
def rpmOf (n : Nat) : Int := n * 65536

/-- The expected back-EMF magnitude at a speed: KE / √3 × |rpm|, µV (R200). -/
def expectedMag (ke : Nat) (rpm : Int) : Nat := ke * rpm.natAbs * 1000000 / (1732051 * 65536)

/-- An unsigned field of the motor-stage identity (Table 09-4). -/
def MLink.identField (l : MLink) (at' : Nat) : Nat := beAt (l.ident.getD []) at' 2

/-! ### Sampling and modulation (R185, R189 to R191) -/

/-- The first tick of a pulse (R185). -/
def pulseStart (on : Nat) (ofs : Int) : Int := 20000 - ((on / 2 : Nat) : Int) + ofs

/-- The phases by falling on-time, ties in the order A, B, C, as indices 0 to 2. -/
def Drive.order (d : Drive) : List Nat :=
  sortBy (fun a c => decide ([d.onA, d.onB, d.onC].getD c 0 < [d.onA, d.onB, d.onC].getD a 0)) [0, 1, 2]

/-- W of R189 in ticks: the larger shunt window plus the dead time, rounded up, plus 96 ticks. One tick is 1/1.92 ns. -/
def shuntWindow (wmin least dead : Nat) : Nat := ((max wmin least + dead) * 192 + 99) / 100 + 96

/-- The drive of three on-times: shifts and sample ticks of R189. -/
def driveOf (on : List Nat) (w : Nat) : Drive :=
  let d0 : Drive := ⟨on.getD 0 0, 0, on.getD 1 0, 0, on.getD 2 0, 0, 0xFFFF, 0xFFFF, false, false⟩
  let o := d0.order
  let st := fun (k : Nat) => pulseStart (on.getD (o.getD k 0) 0) 0
  let shx : Int := min 0 (st 1 - st 0 - w)
  let shz : Int := max 0 (w - (st 2 - st 1))
  let ofs := fun (ph : Nat) => if ph = o.getD 0 0 then shx else if ph = o.getD 2 0 then shz else 0
  let fits := decide (0 ≤ st 0 + shx) && decide (st 2 + shz + on.getD (o.getD 2 0) 0 ≤ 40000)
  { d0 with
    ofsA := if fits then ofs 0 else 0, ofsB := if fits then ofs 1 else 0, ofsC := if fits then ofs 2 else 0
    i1 := if fits then (st 1 - 96).toNat else 0xFFFF, i2 := if fits then (st 2 + shz - 96).toNat else 0xFFFF }

/-- Space-vector modulation of a voltage in which 32,767 is VDC / √3: the middle of the on-times at the centre of the period. -/
def modulate (v : Int × Int) : List Nat :=
  let h := rnd (v.2 * 1732051) 1000000
  let ph : List Int := [2 * v.1, h - v.1, -h - v.1]
  let lo := ph.foldl min (2 * v.1)
  let hi := ph.foldl max (2 * v.1)
  -- ph is in twice the unit; a phase voltage v is v / (√3 × 32,767) of VDC
  ph.map (fun x => (clampI 0 40000 (20000 + rnd ((2 * x - (lo + hi)) * 40000 * 1000000) (4 * 1732051 * 32767))).toNat)

/-- The currents of a period in the stationary frame, from the shunt samples in µA (R190, R191). -/
def shuntCurrents (d : Drive) (is1 is2 : Int) : Int × Int :=
  let o := d.order
  let i := fun (ph : Nat) => if ph = o.getD 0 0 then is1 else if ph = o.getD 2 0 then -is2 else is2 - is1
  (i 0, rnd ((i 1 - i 2) * 1000000) 1732051)

/-! ### The observer (R200) -/

/-- Angle advanced by a speed over `n` PWM periods. -/
def turnBy (rpm : Int) (n : Int) : Int := rpm * 262144 * n / 2880000

/-- One period of the observer with the voltage commanded for it and its currents; `i1` are those of the period before. -/
def Observer.step (o : Observer) (rs ls ke minRpm hz : Nat) (v i i1 : Int × Int) : Observer :=
  let emf := fun (v i i1 : Int) => v - rnd (rs * i) 1000 - rnd (ls * (i - i1) * 48) 1000
  let efa := o.efa + rnd (emf v.1 i.1 i1.1 - o.efa) 8
  let efb := o.efb + rnd (emf v.2 i.2 i1.2 - o.efb) 8
  let (ed, eq) := park o.th (efa, efb)
  let emin := expectedMag ke (rpmOf minRpm)
  let err := clampI (-32768) 32768 (rnd (-ed * 65536) (max 1 (max eq.natAbs emin)))
  let rpm := o.rpm + rnd (err * (hz * hz : Nat) * 3141593) (1600 * 1000000)
  ⟨(o.th + turnBy rpm 1 + rnd (err * hz * 92668) 48000) % 2 ^ 32, rpm, efa, efb⟩

/-- Angle and magnitude checks of a period that fail (R200), with the limits in degrees and percent. -/
def Observer.bad (o : Observer) (ke minRpm deg tol : Nat) : Bool :=
  if o.rpm.natAbs < (rpmOf minRpm).natAbs then false
  else
    let (ed, _) := park o.th (o.efa, o.efb)
    let m := mag (o.efa, o.efb)
    let x := expectedMag ke o.rpm
    decide (sinE (deg * 2 ^ 32 / 360) * m < ed.natAbs * 32767) || decide (m * 100 < (100 - tol) * x) || decide ((100 + tol) * x < m * 100)

/-! ### Catching (R195) -/

/-- θ of a crossing of Table 09-6: 30° + 60° × index. -/
def Crossing.theta (c : Crossing) : Int := (2 * c.idx.val + 1) * 2 ^ 32 / 12

/-- The newest `n` crossings are consistent: one order throughout, intervals within 10 % of their mean. -/
def consistent (cs : List Crossing) (n : Nat) : Bool :=
  let l := cs.take n
  let pairs := l.zip (l.drop 1)
  let fwd := pairs.all (fun e => e.1.idx.val == (e.2.idx.val + 1) % 6)
  let back := pairs.all (fun e => e.2.idx.val == (e.1.idx.val + 1) % 6)
  let span := (l.head?.map Crossing.at').getD 0 - ((l.getLast?).map Crossing.at').getD 0
  let even := pairs.all (fun e =>
    let d := (e.1.at' - e.2.at') * pairs.length
    decide (d * 10 ≤ span * 11) && decide (span * 9 ≤ d * 10))
  l.length == n && decide (2 ≤ n) && (fwd || back) && even && decide (0 < span)

/-- The number of consistent crossings, counted from the newest. -/
def consistentCount (cs : List Crossing) : Nat := ((List.range 7).filter (consistent cs)).foldl max 0

/-- Speed of the consistent crossings, negative backward: 2.5 / Δt rpm; a half-period is 1/96,000 s. -/
def catchSpeed (cs : List Crossing) (n : Nat) : Int :=
  let l := cs.take n
  let span := (l.head?.map Crossing.at').getD 0 - ((l.getLast?).map Crossing.at').getD 0
  let rpm : Int := 240000 * (n - 1) * 65536 / max 1 span
  match l with
  | a :: c :: _ => if a.idx.val = (c.idx.val + 1) % 6 then rpm else -rpm
  | _ => rpm

/-- The three line voltages of a frame take part in the count of crossings (R195): `h` is the hysteresis. -/
def Spindle.see (x : Spindle) (va vb vc h : Int) (at' : Nat) : Spindle :=
  let lines := [(va - vb, (2 : Fin 6), (5 : Fin 6)), (vb - vc, 4, 1), (vc - va, 0, 3)]
  let amp := lines.foldl (fun a l => max a l.1.natAbs) x.amp
  let step := fun (acc : List (Option Bool) × List Crossing) (l : (Int × Fin 6 × Fin 6) × Option Bool) =>
    let (v, up, dn) := l.1
    if h < v then (acc.1 ++ [some true], if l.2 == some false then ⟨up, at'⟩ :: acc.2 else acc.2)
    else if v < -h then (acc.1 ++ [some false], if l.2 == some true then ⟨dn, at'⟩ :: acc.2 else acc.2)
    else (acc.1 ++ [l.2], acc.2)
  let r := (lines.zip x.signs).foldl step ([], x.crossings)
  { x with amp := amp, signs := r.1, crossings := r.2.take 12 }

/-! ### Entries to states -/

/-- The drive floats and the loops rest. -/
def Spindle.floats (x : Spindle) : Spindle := { x with drive := .floating, good := false, ready := false, readyAt := none, invalid := 0 }

/-- A state of the motor unit entered and logged. -/
def State.spEnter (s : State) (b : BayId) (st : SpSt) : State :=
  (s.updSp b (fun x => { x.enter st s.us with zeroLeft := 0 })).logDp b none (s.bay b).mlink.period st.code

/-- `CATCH` entered (Table 09-5): the boundary of the `spindle` and `mlink` sections, banks where none is loaded (R207, R168). -/
def State.enterCatch (s : State) (b : BayId) (use : CatchUse) : State :=
  let s := (s.boundary (.bay b) 7).boundary (.bay b) 8
  let c := s.unitCfg (.bay b) 7
  let bank := fun (f : Field) => (c.banks.find? (fun e => e.1 == f)).map (fun e => e.2)
  let now := s.us
  (s.updSp b (fun x => { x.startCatch use now with
    bankI := x.bankI.or (bank .spindleBankCurrent), bankS := x.bankS.or (bank .spindleBankSpeed), invalid := 0, zeroLeft := 0
    maxObs := 0, handAt := none })).spEnter b
    .catch

/-- `RECOVER` entered: references 0 for 2 periods (Table 09-5). -/
def State.spRecover (s : State) (b : BayId) : State :=
  (s.spEnter b .recover).updSp b (fun x => { x with zeroLeft := 2, good := false, ready := false, readyAt := none, invalid := 0 })

/-- `FAULT` entered: both pickups enter `OFF` (R193), and what waits for an excursion is discarded (R139). -/
def State.spFault (s : State) (b : BayId) : State :=
  ((((s.puOff b .A).puOff b .B).dropRelocs b).spEnter b .fault).updSp b (fun x => { x.floats with stopping := false, endFault := false })

/-- `STOPPED` reached: a stop that is to end in `FAULT` ends there (R205); a start kept pending is acted on (R194). -/
def State.spStopped (s : State) (b : BayId) : State :=
  let x := (s.bay b).spindle
  let s := (s.spEnter b .stopped).updSp b (fun x => { x.floats with
    stopping := false, endFault := false, pendStart := false, startTries := 0, catchTries := 0 })
  if x.endFault then s.spFault b else if x.pendStart then s.enterCatch b .start else s

/-- `BRAKE_SHORT` entered, with its shorted part. -/
def State.spBrake (s : State) (b : BayId) : State :=
  let now := s.us
  (s.spEnter b .brakeShort).updSp b (fun x => { x.floats with
    drive := { Drive.floating with float := false, short := true }, phaseAt := now, amp := 0, crossings := [] })

/-- `START_WAIT` entered for a time in ms. -/
def State.spWait (s : State) (b : BayId) (ms : Nat) : State :=
  (s.spEnter b .startWait).updSp b (fun x => { x with zeroLeft := 2, waitMs := ms, good := false, ready := false, readyAt := none, invalid := 0 })

/-- `DECEL` entered toward a target speed. -/
def State.spDecel (s : State) (b : BayId) (goal : Int) : State :=
  (s.spEnter b .decel).updSp b (fun x => { x with
    goal := goal, target := x.obs.rpm, decelFrom := x.obs.rpm, presetS := true, good := false, ready := false, readyAt := none })

/-- `SYNC` entered with the references given. -/
def State.spSync (s : State) (b : BayId) (idRef iq : Int) : State :=
  let n := s.spin b .spindleSyncPeriods
  (s.spEnter b .sync).updSp b (fun x => { x with
    syncLeft := n, syncBad := false, failRun := 0, xRun := 0, idRef := idRef, iq := iq, lawS := { Law.zero with y := iq * 65536 }
    lawD := if idRef = 0 ∧ iq = 0 then .zero else x.lawD, lawQ := if idRef = 0 ∧ iq = 0 then .zero else x.lawQ })

/-- A start try fails (R198): a locked rotor or a failed handover; another try after the wait, or `FAULT`. -/
def State.tryFails (s : State) (b : BayId) : State :=
  let x := (s.bay b).spindle
  let want := expectedMag (s.spin b .spindleMotorKeUvRpm) (rpmOf (s.spin b .spindleStartHandoverRpm))
  let locked := decide (x.maxObs * 100 < s.spin b .spindleStartLrBemfPct * want)
  let s := s.raiseBay b 0 (if locked then .spindleLocked else .spindleHandoverFail)
  let s := s.updSp b (fun x => { x with startTries := x.startTries + 1 })
  if s.liveN .spindleStartMaxTries ≤ x.startTries + 1 then (s.raiseBay b 0 .spindleStartFail).spFault b
  else s.spWait b (s.liveN .spindleStartRetryMs)

/-- `RUN` entered (R199, R201): the target starts from the handover speed after a start sequence, else from the present speed. -/
def State.spRun (s : State) (b : BayId) : State :=
  let x := (s.bay b).spindle
  let fromSync := x.st == .sync
  let s := if x.use == .recovery then s.raiseBay b 0 .spindleRecovered else s
  let hand := rpmOf (s.spin b .spindleStartHandoverRpm)
  (s.spEnter b .run).updSp b (fun y => { y with
    target := if fromSync && x.handAt.isSome then hand else x.obs.rpm, handAt := none, spinUp := fromSync && x.use == .start, presetS := true, use := .start, catchTries := 0, startTries := 0, backward := decide (x.obs.rpm < 0), syncBad := false })

/-! ### The current loops of one period (R190, R191) -/

/-- The references of a state (d, q) in mA and its drive angle, if its drive is on. -/
def State.spRefs (s : State) (b : BayId) : Option (Int × Int × Int) :=
  let x := (s.bay b).spindle
  let ma := fun (f : Field) => (s.spin b f : Int)
  match x.st with
  | .align =>
    let half := s.spin b .spindleStartAlignMs * 500
    some (if s.us < x.since + half then 2 ^ 30 else 0, ma .spindleStartAlignMa, 0)
  | .ramp => some (x.cmdAngle, 0, ma .spindleStartRampMa)
  | .sync => some (x.obs.th, x.idRef * x.syncLeft / max 1 (s.spin b .spindleSyncPeriods), x.iq)
  | .run => some (x.obs.th, 0, x.iq)
  | .decel => some (x.obs.th, 0, x.iq)
  | .recover => if 0 < x.zeroLeft then some (x.obs.th, 0, 0) else none
  | .startWait => if 0 < x.zeroLeft then some (x.obs.th, 0, 0) else none
  | .catch => if 0 < x.zeroLeft then some (x.obs.th, 0, 0) else none
  | _ => none

/-- The current loops of one period: with `meas` the currents of a valid period; an invalid one reuses the d and q currents before
it and updates no state. The drive is that of the period after next.
Log 35 (DEDUCED). -/
def State.currentLoops (s : State) (b : BayId) (refs : Int × Int × Int) (meas : Option (Int × Int)) : State :=
  let x := (s.bay b).spindle
  let l := (s.bay b).mlink
  match x.bankI with
  | none => s
  | some k =>
    let (th, idr, iqr) := refs
    let now := meas.map (fun i => park th i)
    let (id, iq) := now.getD x.idq
    let (ld, _) := x.lawD.step k (rnd (1000 * idr - id) 1000) x.presetI
    let (lq, _) := x.lawQ.step k (rnd (1000 * iqr - iq) 1000) x.presetI
    let most := s.spin b .spindlePwmMaxMod * 32767 / 65536
    let vd := clampI (-(most : Int)) most (rnd ld.y 65536)
    let room : Int := Nat.sqrt (most * most - vd.natAbs * vd.natAbs)
    let vq := clampI (-room) room (rnd lq.y 65536)
    let v := unpark th (vd, vq)
    let w := shuntWindow (l.identField 40) (s.spin b .spindleShuntMinWindowNs) (l.identField 42)
    let uv := fun (c : Int) => rnd (c * x.vdc * 1000000) (32767 * 1732051)
    s.updSp b (fun x => { x with
      idq := (id, iq), presetI := x.presetI && meas.isNone, lawD := if meas.isSome then ld else x.lawD, lawQ := if meas.isSome then lq else x.lawQ
      drive1 := x.drive, drive := driveOf (modulate v) w, volt1 := x.volt, volt := (uv v.1, uv v.2) })

/-- The observer of one valid period, and its checks. -/
def State.observe (s : State) (b : BayId) (i : Int × Int) : State :=
  let x := (s.bay b).spindle
  let v := fun (f : Field) => s.spin b f
  let o := x.obs.step (v .spindleMotorRsMohm) (v .spindleMotorLsUh) (v .spindleMotorKeUvRpm) (v .spindleCatchMinRpm) (v .spindleObsPllHz)
    x.volt1 i x.iab
  let checked := x.st == .sync || x.st == .run || x.st == .decel
  let slow := decide (o.rpm.natAbs < (rpmOf (v .spindleCatchMinRpm)).natAbs)
  let bad := checked && (o.bad (v .spindleMotorKeUvRpm) (v .spindleCatchMinRpm) (s.liveN .spindleObsLossDeg) (s.liveN .spindleObsMagTolPct)
    || (!slow && decide (3 ≤ x.xRun)) || (x.st == .run && slow))
  s.updSp b (fun x => { x with
    obs := o, iab := i, maxObs := max x.maxObs (mag (o.efa, o.efb)), failRun := if bad then x.failRun + 1 else 0
    syncBad := x.syncBad || (x.st == .sync && bad), good := x.st == .run && !bad })

/-- The speed that the reference pickup's wedges show, with its error in ppm, while its last confirmed wedge is recent.
Log 35 (DEDUCED). -/
def State.wedgeSpeed (s : State) (b : BayId) : Option (Int × Int) :=
  let y := s.bay b
  let x := y.spindle
  let f := (s.pu b x.wedgeRef).sheet.lastConf
  match x.wedgeAt with
  | some t =>
    if x.wedgeSrc && s.us ≤ t + 8 * frameUs f.zone && 0 < x.wedgeInt then
      let nom := nominalPeriod f.zone / 2
      some (rpmFor f.zone (radiusOf f.zone f.frame) * nom / x.wedgeInt, (x.wedgeInt - nom) * 1000000 / nom)
    else none
  | none => none

/-- The measures of speed that the controller holds now: the observer's in a closed-loop state, the wedges' in every state (R205). -/
def State.speeds (s : State) (b : BayId) : List Int :=
  let x := (s.bay b).spindle
  (if x.st == .sync || x.st == .run || x.st == .decel then [x.obs.rpm] else []) ++ ((s.wedgeSpeed b).map (fun e => e.1)).toList

/-- A measure of speed has been over `spindle.over.rpm` since when (R205). -/
def State.watchSpeed (s : State) (b : BayId) : State :=
  let now := s.us
  let seen := s.speeds b
  let fast := seen.any (fun r => decide ((rpmOf (s.liveN .spindleOverRpm)).natAbs < r.natAbs))
  s.updSp b (fun x => { x with overAt := if fast then some (x.overAt.getD now) else if seen.isEmpty then x.overAt else none })

/-- A single catch measurement, in `CATCH` or a float window, over `spindle.over.rpm` counts at once (R205). -/
def State.watchCatch (s : State) (b : BayId) (rpm : Int) : State :=
  let now := s.us
  if rpmOf (s.liveN .spindleOverRpm) < rpm.natAbs then s.updSp b (fun x => { x with overAt := some (now - 1000) })
  else s.updSp b (fun x => { x with overAt := none })

/-- The PWM periods since `ACTIVE`, by which swaps of a motor unit are armed, modulo 65,536: two upstream frames to each.
Log 55 (DEDUCED). -/
def MLink.count (l : MLink) : Nat := (l.frames - 1) / 2 % 65536

/-- Swaps whose period has come take effect, with a preset (R168, R169, R191). -/
def State.swapBanks (s : State) (b : BayId) : State :=
  let tick := (s.bay b).mlink.count
  s.updSp b (fun x =>
    let due := fun (k : BankSlot) => x.armed.any (fun a => a.1 == k && tickReached tick a.2)
    { x with
      bankI := if due .current then x.shI.or x.bankI else x.bankI, bankS := if due .speed then x.shS.or x.bankS else x.bankS
      presetS := x.presetS || due .speed, presetI := x.presetI || due .current, armed := x.armed.filter (fun a => !tickReached tick a.2) })

/-- A period without current references: no voltage, and a test catch's observer runs on. -/
def State.undriven (s : State) (b : BayId) : State :=
  s.updSp b (fun x => { x with
    drive1 := x.drive, volt1 := x.volt, volt := (0, 0)
    obs := if x.st == .catch && x.use == .test then { x.obs with th := (x.obs.th + turnBy x.obs.rpm 1) % 2 ^ 32 } else x.obs })

/-- The counters of a driven period: invalid periods, the commanded ramp, the periods left of `SYNC` and of a zero vector. -/
def State.periodCounts (s : State) (b : BayId) (valid : Bool) : State :=
  s.updSp b (fun x =>
    let hand := rpmOf (s.spin b .spindleStartHandoverRpm)
    let cmd := if x.st == .ramp then min hand (x.cmdRpm + rnd (rpmOf (s.spin b .spindleStartRampRpmS)) 48000) else x.cmdRpm
    { x with
      invalid := if valid then 0 else x.invalid + 1, cmdRpm := cmd
      cmdAngle := if x.st == .ramp then (x.cmdAngle + turnBy cmd 1) % 2 ^ 32 else x.cmdAngle
      handAt := if x.st == .ramp && x.handAt.isNone && cmd == hand then some s.us else x.handAt
      syncLeft := if x.st == .sync then x.syncLeft - 1 else x.syncLeft, zeroLeft := x.zeroLeft - 1 })

/-- What a driven period leads to: the end of a zero vector, or, with three invalid periods in a row, a failed try or
`RECOVER` (R190). -/
def State.periodEnd (s : State) (b : BayId) : State :=
  let x := (s.bay b).spindle
  if (x.st == .recover || x.st == .startWait || x.st == .catch) && x.zeroLeft = 0 then
    let s := s.updSp b (fun x => { x with drive := .floating })
    if x.st == .recover && (s.bay b).mlink.st == .active then s.enterCatch b .recovery else s
  else if 3 ≤ x.invalid then
    (match x.st with
     | .run => s.spRecover b
     | .decel => s.spRecover b
     | .sync => if x.use == .start then s else s.spRecover b
     | _ => s)
  else s

/-- A held period repeats the drive of the period before (R176, R206). -/
def State.holdDrive (s : State) (b : BayId) : State := s.updSp b (fun x => { x with drive1 := x.drive, volt1 := x.volt })

/-- One PWM period of the motor unit: swaps due, loops, observer, counters; `meas` are valid currents (R190, R191, R200), `held` a
period held under R176. A third invalid period in a row ends a start try, or leads to `RECOVER` (R190).
Log 35 (DEDUCED). -/
def State.spinPeriod (s : State) (b : BayId) (meas : Option (Int × Int)) (held : Bool) : State :=
  let s := s.swapBanks b
  match s.spRefs b with
  | none => s.undriven b
  | some refs =>
    let s := if held then s.holdDrive b else s.currentLoops b refs meas
    let s := match meas with
      | some i => s.observe b i
      | none => s
    let s := s.periodCounts b meas.isSome
    (s.watchSpeed b).periodEnd b

/-! ### Speed (R202, R203) -/

/-- The radius that the spindle's target follows (R157): the bay's target, or that of the reference pickup while it makes its
corrections. -/
def Bay.spinRadius (y : Bay) : Nat :=
  let m := (y.pu y.ref).ms
  if 0 < m.corr then radiusOf m.tgtZone m.tgtFrame else y.radius

end Sys2Proof.Machine
end

