-- ==== Sys2Proof/Machine/MotorOps.lean ====
section
/-! DEFINITION. The motor link (R183 to R188, R210 to R212): `SENSE` and `DRIVE` frames, sled status, table loads, training. -/

namespace Sys2Proof.Machine

/-! ### Frames (R183, R184) -/

/-- A motor-link frame's check word verifies. -/
def mfrGood (f : Bytes) : Bool := f.length == 2500 && beAt f 2496 4 == (linkCrc (f.take 2496)).toNat

/-- A downstream motor-link frame with the next `SEQ`. -/
def State.sendDrive (s : State) (b : BayId) (type tsh : Nat) (payload : Bytes) : State :=
  let q := (s.bay b).mlink.dnSeq
  let h := beBytes 4 (type % 16 * 2 ^ 28 + q % 65536 * 4096 + tsh % 4096) ++ padTo 2492 payload
  (s.updBay b (fun y => { y with mlink := { y.mlink with dnSeq := (q + 1) % 65536, dnUsed := y.mlink.dnUsed + 1 } })).sendMotor b (h ++ beBytes 4 (linkCrc h).toNat)

/-- A signed 16-bit field. -/
def be16s (v : Int) : Bytes := beBytes 2 (v % 65536).toNat

/-- The sled part of a `DRIVE` frame for period 8k + j (Table 10-1, R214). -/
def Sled.drive (x : Sled) (j : Nat) : Bytes :=
  let n := x.prev + rnd ((x.pos - x.prev) * (j + 1)) 8
  beBytes 2 (addrOf n) ++ leBytes 1 (min 255 x.scale)
    ++ leBytes 1 ((if x.enabled then 128 else 0) + (if !x.enabled && x.off then 64 else 0) + (if x.bank then 32 else 0))

/-- CRC-32 of a table (Table 10-2). -/
def tableCrc (t : Bytes) : Nat := (recCrc t).toNat

/-- The table-load part of a `DRIVE` frame (Table 10-2). -/
def MLink.loadPart (l : MLink) : Bytes :=
  match l.load with
  | none => []
  | some (bank, table, _, left) =>
    let hi := if bank then 32 else 0
    if left = 0 then leBytes 1 (128 + hi) ++ zeros 3 ++ beBytes 4 (tableCrc table)
    else if left ≤ 16 then
      let k := 16 - left
      leBytes 1 (64 + hi) ++ zeros 1 ++ beBytes 2 (64 * k) ++ zeros 4 ++ slice table (256 * k) 256
    else []

/-- The payload of a `DRIVE` frame (Table 09-2). -/
def Bay.drivePayload (y : Bay) (period : Nat) : Bytes :=
  let d := y.spindle.drive
  padTo 20 (beBytes 2 d.onA ++ be16s d.ofsA ++ beBytes 2 d.onB ++ be16s d.ofsB ++ beBytes 2 d.onC ++ be16s d.ofsC ++ beBytes 2 d.i1
      ++ beBytes 2 d.i2 ++ leBytes 1 ((if d.float then 128 else 0) + (if d.short then 64 else 0)))
    ++ padTo 40 (y.sledA.drive (period % 8) ++ y.sledB.drive (period % 8)) ++ y.mlink.loadPart

/-- The next `DRIVE` frame: frame i is copy i mod 2 for period i / 2 + 1, and the two copies are identical (R184). After a held period
the content of the period before is repeated (R206, R224). -/
def State.driveNext (s : State) (b : BayId) : State :=
  let i := (s.bay b).mlink.sent
  let n := (i / 2 + 1) % 2048
  -- once the agent has lost the island, every motor unit is in `FLOAT` (R394)
  let lost := s.isl.agentLost
  let pay := fun (y : Bay) => (if lost then { y with spindle := { y.spindle with drive := .floating } } else y).drivePayload n
  let s := s.updBay b (fun y => { y with mlink := { y.mlink with
    sent := i + 1, copy := if i % 2 = 0 && !y.mlink.hold then pay y else y.mlink.copy, hold := y.mlink.hold && i % 2 != 0 } })
  s.sendDrive b 1 (2 * n + i % 2) (s.bay b).mlink.copy

/-- `DRIVE` frames up to a number; of those long past only the newest period's are made. -/
def State.driveTo (s : State) (b : BayId) (n : Nat) : State :=
  let s := s.updBay b (fun y => { y with mlink := { y.mlink with sent := max y.mlink.sent ((n - 1) / 2 * 2) } })
  (List.range (n - (s.bay b).mlink.sent)).foldl (fun s _ => s.driveNext b) s

/-! ### Training (R186) -/

/-- The payload of a downstream `TRAIN` frame of the motor link, with or without `GO`. -/
def mtrainPayload (go : Bool) : Bytes := beBytes 8 0x4A4D4C54524E3031 ++ [if go then 0x80#8 else 0#8, 1#8, 0#8, 1#8]

/-- One downstream slot that nothing has filled (R183, R184): `TRAIN` in training, else the next `DRIVE`; `IDLE` from a unit that no
spare took. -/
def State.mdnSlot (s : State) (b : BayId) : State :=
  if (s.bay b).mlink.st != .active then s.sendDrive b 15 0 (mtrainPayload false)
  else if s.unitDead b .motor then s.sendDrive b 0 0 []
  else s.driveNext b

/-- The slots of a motor link in one microsecond, 12 in each 125 µs, less the frames already sent. -/
def State.mdnSlots (s : State) (b : BayId) : State :=
  let l := (s.bay b).mlink
  if s.mportUp b && l.st != .down && l.st != .failed then
    let n := 12 * (s.us + 1) / 125 - 12 * s.us / 125
    let s := (List.range (n - l.dnUsed)).foldl (fun s _ => s.mdnSlot b) s
    s.updBay b (fun y => { y with mlink := { y.mlink with dnUsed := l.dnUsed - n } })
  else s

/-- A training attempt begins in `DS_TRAIN`. -/
def State.mlinkTrain (s : State) (b : BayId) : State :=
  let now := s.us
  let s := s.updBay b (fun y => { y with mlink := { y.mlink with
    st := .dsTrain, since := now, good := 0, seq := none, badRun := 0, stall := 0, senseOk := false } })
  (s.emit (.motorLine b 1)).sendDrive b 15 0 (mtrainPayload false)

/-- An attempt fails: another, or `FAILED` after `mlink.train.max_attempts`. -/
def State.mlinkFails (s : State) (b : BayId) : State :=
  let n := (s.bay b).mlink.attempts + 1
  let now := s.us
  let s := s.updBay b (fun y => { y with mlink := { y.mlink with attempts := n } })
  if s.spin b .mlinkTrainMaxAttempts ≤ n then
    ((s.updBay b (fun y => { y with mlink := { y.mlink with st := .failed, since := now } })).emit (.motorLine b 0)).raiseBay b 1
      .mlinkTrainFail
  else s.mlinkTrain b

/-- The identity is supported (R186). -/
def State.stageSupported (s : State) (b : BayId) (d : Bytes) : Bool :=
  slice d 0 4 == ascii "JMS1" && beAt d 4 2 == 1 && decide (s.spin b .spindleCurrentMaxMa ≤ beAt d 38 2) && decide (beAt d 40 2 ≤ 3000)

/-- `IDENTIFY`: an unsupported stage ends in `FAILED` without a retry; otherwise `GO` is sent and period 0 begins. -/
def State.mlinkGo (s : State) (b : BayId) : State :=
  let d := ((s.bay b).mlink.ident).getD []
  let now := s.us
  if !s.stageSupported b d then
    ((s.updBay b (fun y => { y with mlink := { y.mlink with st := .failed, since := now, noRetry := true } })).emit (.motorLine b 0)).raiseBay b
      1 .msUnsupported
  else
    let s := s.loadBayCal b
    let s := s.sendDrive b 15 0 (mtrainPayload true)
    -- the next upstream frame is the first of period 0
    let s := s.updBay b (fun y => { y with
      mlink := { y.mlink with
        st := .active, since := now, attempts := 0, seq := some 0, badRun := 0, stall := 0, dnSeq := 0, period := 2047, half := 1
        frames := 0, senseOk := true, sent := 0, hold := false, slot := 0 }
      sledA := { y.sledA with step := 0, plan := none }, sledB := { y.sledB with step := 0, plan := none } })
    -- downstream frames 0 and 1 (R184)
    let s := s.driveTo b 2
    if (s.bay b).spindle.st == .recover then s.enterCatch b .recovery
    else if (s.bay b).upAt.isSome && (s.bay b).spindle.st == .stopped && !s.coresHeld then
      -- the spindle start of the bay's bring-up (R353)
      (s.updBay b (fun y => { y with upAt := none })).enterCatch b .start
    else if (s.bay b).upAt.isSome && (s.bay b).spindle.st == .safeHold && !s.coresHeld then
      -- kept pending (R194)
      (s.updBay b (fun y => { y with upAt := none })).updSp b (fun x => { x with pendStart := true })
    else s

/-! ### Sled status (R212, R219, R222) -/

/-- The stage's report on a sled. -/
def State.sledSense (s : State) (b : BayId) (p : Pu) (w : Nat) (restarted : Bool) : State :=
  let x := (s.bay b).sled p
  let sval := w.testBit 15
  let sflt := w.testBit 13
  let fault := x.plan.isSome && x.enabled && x.rephase.isNone && (sflt || !sval)
  let s := if fault then
      ((s.updSled b p (fun x => { x with
        plan := none, after := none, vel := 0, acc := 0, seeking := false, reached := none, faulted := true })).raisePu b p 2
        .sledFault).enterRecover b p .ordinary
    else s
  let s := if !sflt && x.faulted && sval then s.updSled b p (fun x => { x with faulted := false }) else s
  if restarted || (!x.lost && ((x.enabled && x.rephase.isNone) || x.off) && !sval) then s.sledLost b p
  else if x.seeking && x.plan.isNone && x.reached.isNone && x.rephase.isNone && w % 1024 == addrOf x.pos then
    let now := s.us
    s.updSled b p (fun x => { x with reached := some now })
  else s

/-- A sled at standstill with its pickup in `OFF` or `FAILED` changes to the bank that has been loaded.
Log 34 (DEDUCED). -/
def State.changeBank (s : State) (b : BayId) (p : Pu) : State :=
  match (s.bay b).mlink.useBank with
  | some k =>
    let m := (s.pu b p).ms
    if (m.st == .off || m.st == .failed) && ((s.bay b).sled p).plan.isNone then s.updSled b p (fun x => { x with bank := k }) else s
  | none => s

/-- The load goes on by one period: the chunk sent, the commit, a wait for its report, the comparison; after three failures the bank
in force stays.
Log 34 (DEDUCED). -/
def State.loadStep (s : State) (b : BayId) (crc0 crc1 : Nat) : State :=
  let set := fun (s : State) (v : Option (Bool × Bytes × Nat × Nat)) => s.updBay b (fun y => { y with mlink := { y.mlink with load := v } })
  match (s.bay b).mlink.load with
  | none => s
  | some (bank, table, tries, left) =>
    if left = 0 then set s (some (bank, table, tries, 24))
    else if left ≤ 16 then set s (some (bank, table, tries, left - 1))
    else if 20 < left then set s (some (bank, table, tries, left - 1))
    else if (if bank then crc1 else crc0) = tableCrc table then
      s.updBay b (fun y => { y with mlink := { y.mlink with load := none, table := some table, useBank := some bank, reload := false } })
    else if tries + 1 < 3 then set s (some (bank, table, tries + 1, 16))
    else (set s none).raiseBay b 1 .sledTableLoad

/-- The sled part of a good `SENSE` frame. -/
def State.sledStatus (s : State) (b : BayId) (f : Bytes) : State :=
  let gen := byteAt f 36
  let l := (s.bay b).mlink
  let restarted := match l.stgen with
    | some g => g != gen
    | none => false
  let s := s.updBay b (fun y => { y with mlink := { y.mlink with
    stgen := some gen, reload := y.mlink.reload || restarted
    useBank := if restarted then none else y.mlink.useBank
    load := if restarted then y.mlink.table.map (fun t => (y.mlink.useBank.getD true, t, 0, 16)) else y.mlink.load } })
  let s := (s.sledSense b .A (beAt f 24 2) restarted).sledSense b .B (beAt f 26 2) restarted
  (s.changeBank b .A).changeBank b .B

/-! ### A `SENSE` frame (R190, R194, R195) -/

/-- A value of 16 bits signed at a byte. -/
def s16At (f : Bytes) (i : Nat) : Int := signedOf 16 (beAt f i 2)

/-- `SAFE_HOLD` (R194): entered from any state while the stage brakes or the permit is low; left for `STOPPED` once a float window of
10 ms after the permit shows an amplitude below floor.
Log 35 (DEDUCED). -/
def State.safeHold (s : State) (b : BayId) (brake : Bool) : State :=
  let x := (s.bay b).spindle
  let low := brake || !(s.safeBay b).ssafe
  let now := s.us
  if low then
    let s := if x.st == .safeHold then s
      else (((((s.puOff b .A).puOff b .B).dropRelocs b).spEnter b .safeHold).updSp b (fun x => x.floats)).raiseBay b 0 .spindleSafeBrake
    s.updSp b (fun x => { x with phaseAt := now, amp := 0, crossings := [] })
  else if x.st == .safeHold ∧ x.phaseAt + 10000 ≤ now then
    (if x.amp < s.liveN .spindleCatchFloorMv * 1000 then s.spStopped b
     else s.updSp b (fun x => { x with phaseAt := now, amp := 0, crossings := [] }))
  else s

/-- One microsecond of a bay's motor unit: its downstream slots, and its own `SSAFE_N` output read low (R194). -/
def State.mdnBay (s : State) (b : BayId) : State :=
  let s := s.mdnSlots b
  if s.mportUp b && !(s.safeBay b).ssafe && (s.bay b).spindle.st != .safeHold then s.safeHold b false else s

/-- One microsecond of every bay's motor unit. -/
def State.mdnTick (s : State) : State :=
  (List.range s.bayCount).foldl (fun s i => if h : i < 32 then s.mdnBay ⟨i, h⟩ else s) s

/-- `OC`, `UV` or `OT` in a driven state (R194): `RECOVER`, or `FAULT` at the third report within 1 s. -/
def State.stageReport (s : State) (b : BayId) (flags : Nat) : State :=
  let x := (s.bay b).spindle
  if flags / 32 = 0 ∨ !(x.st == .run || x.st == .sync || x.st == .decel) then s
  else
    let now := s.us
    let near := now :: x.reports.filter (fun t => decide (now < t + 1000000))
    let s := s.updSp b (fun x => { x with reports := near })
    if 3 ≤ near.length then (s.raiseBay b 0 .spindleStageFault).spFault b else s.spRecover b

/-- A good `SENSE` frame of period p, half h: flags, sled status, phase voltages while the motor floats, and once per period the
loops; then the next `DRIVE` frame leaves. -/
def State.senseFrame (s : State) (b : BayId) (f : Bytes) (upset : Bool) : State :=
  let tsh := frTsh f
  let per := tsh / 2
  let half := tsh % 2
  let l := (s.bay b).mlink
  let flags := byteAt f 18
  let lsb : Int := l.identField 34
  let vlsb := l.identField 36
  let missed := per != l.period && !l.senseOk
  let frames := l.frames + (2 * per + half + 4096 - (2 * l.period + l.half)) % 4096
  let s := s.updBay b (fun y => { y with
    mlink := { y.mlink with
      badRun := 0, dnseq := beAt f 22 2, stall := if beAt f 22 2 = l.dnseq then l.stall + 1 else 0, period := per, half := half
      frames := frames, senseOk := true }
    spindle := { y.spindle with vdc := beAt f 14 2 * vlsb, sense := slice f 4 60 } })
  let s := s.sledStatus b f
  let s := s.safeHold b (flags / 16 % 2 = 1)
  let s := s.stageReport b flags
  let x := (s.bay b).spindle
  let floats := x.drive1.float && !x.drive1.short
  let h : Int := s.liveN .spindleCatchFloorMv * 250
  let v := fun (i : Nat) => ((beAt f i 2 * vlsb : Nat) : Int)
  let s := if ((x.st == .catch ∨ x.st == .brakeShort) ∧ floats) ∨ x.st == .safeHold then
      s.updSp b (fun x => x.see (v 8) (v 10) (v 12) h frames)
    else s
  let s := if missed then s.spinPeriod b none false else s
  let s := if per = l.period && l.senseOk then s
    else
      let d := (s.bay b).spindle.drive1
      let valid := !upset && d.i1 != 0xFFFF && !d.float && !d.short && flags / 4 % 2 == 0
      let is := fun (i : Nat) => s16At f i * lsb * 100
      let s := s.spinPeriod b (if valid then some (shuntCurrents d (is 4) (is 6)) else none) upset
      let s := s.loadStep b (beAt f 28 4) (beAt f 32 4)
      if upset then s.updBay b (fun y => { y with mlink := { y.mlink with hold := true } }) else s
  s.driveTo b (frames + 2)

/-- A failed upstream frame (R42, R184): a frame error that takes its place in the count of `SEQ` and of periods; a period both of whose
copies fail is invalid. The `DRIVE` frame of its slot leaves all the same. -/
def State.senseFails (s : State) (b : BayId) : State :=
  let l := (s.bay b).mlink
  let last := l.half = 1
  let s := if last && !l.senseOk then s.spinPeriod b none false else s
  let period := if last then (l.period + 1) % 2048 else l.period
  let s := s.updBay b (fun y => { y with mlink := { y.mlink with
    badRun := l.badRun + 1, errs := l.errs + 1, frames := l.frames + 1, half := 1 - l.half
    senseOk := if last then false else l.senseOk, period := period, seq := l.seq.map (fun n => (n + 1) % 65536) } })
  if s.unitDead b .motor then s else s.driveTo b (l.frames + 3)

end Sys2Proof.Machine
end

