-- ==== Sys2Proof/Machine/SpinRows.lean ====
section
/-! DEFINITION. The commands of the motor link and the spindle (09_spindle.md), bay probes and the disc identity (R146, R32). -/

namespace Sys2Proof.Machine

/-! ### The motor link -/

/-- `MLINK_SENSE_FRAME` (R184, R190, R194): a `SENSE` frame as received; `upset`: the unit's two lanes differ on this period (R176). -/
def execMlinkSenseFrame (b : BayId) (raw : Bytes) (upset : Bool) (s : State) : Host.Outcome State Fault Refusal :=
  withBay b s (fun s =>
    if s.mportUp b && (s.bay b).mlink.st == .active then
      let (fs, s) := s.injectFrame (1, b.val, 1) raw
      fs.foldl (fun s f0 =>
        let f := scramble f0
        if !mfrGood f then s.senseFails b
        else
          let gap := (s.bay b).mlink.seq != some (frSeq f) || (frType f != 0 && frType f != 1 && frType f != 15)
          let s := s.updBay b (fun y => { y with mlink := { y.mlink with
            seq := some ((frSeq f + 1) % 65536), errs := y.mlink.errs + gap.toNat } })
          if frType f != 1 || s.unitDead b .motor then s
          else
            let s := s.senseFrame b f upset
            if upset then s.unitMismatch b .motor else s) s
    else s)

/-- `MLINK_TRAIN_FRAME` (R186). -/
def execMlinkTrainFrame (b : BayId) (raw : Bytes) (s : State) : Host.Outcome State Fault Refusal :=
  withBay b s (fun s =>
    let st := (s.bay b).mlink.st
    if !s.mportUp b ∨ !(st == .dsTrain ∨ st == .upTrain) then s
    else
      let (fs, s) := s.injectFrame (1, b.val, 1) raw
      fs.foldl (fun s f0 =>
        let f := scramble f0
        let good := mfrGood f && frType f == 15 && beAt f 4 8 == 0x4A4D4C54524E3031
        let now := s.us
        let l := (s.bay b).mlink
        if l.st == .dsTrain then
          (if good then s.updBay b (fun y => { y with mlink := { y.mlink with
              st := .upTrain, since := now, good := 1, ident := some (slice f 16 256) } })
           else s)
        else if l.st == .upTrain then
          let n := if good then l.good + 1 else 0
          let s := s.updBay b (fun y => { y with mlink := { y.mlink with good := n, ident := if good then some (slice f 16 256) else l.ident } })
          if 256 ≤ n then s.mlinkGo b else s
        else s) s)

/-- `MLINK_TRAIN_TIMEOUT` (R186, Table 02-8). -/
def execMlinkTrainTimeout (b : BayId) (s : State) : Host.Outcome State Fault Refusal :=
  withBay b s (fun s =>
    let l := (s.bay b).mlink
    let late := fun (us : Nat) => decide (l.since + us ≤ s.us)
    if s.mportUp b && ((l.st == .dsTrain && late 2000) || (l.st == .upTrain && late 5000) || (l.st == .identify && late 100)) then s.mlinkFails b
    else s)

/-- `MLINK_TRAIN_RETRY` (R186). -/
def execMlinkTrainRetry (b : BayId) (s : State) : Host.Outcome State Fault Refusal :=
  withBay b s (fun s =>
    let l := (s.bay b).mlink
    if s.mportUp b && l.st == .failed && !l.noRetry && l.since + 1000000 * s.liveN .mlinkTrainRetryIntervalS ≤ s.us then
      (s.updBay b (fun y => { y with mlink := { y.mlink with attempts := 0 } })).mlinkTrain b
    else s)

/-- `MLINK_LOST` (R188): the link is retrained; a spindle that is driven enters `RECOVER` and floats until the link is back. -/
def execMlinkLost (b : BayId) (s : State) : Host.Outcome State Fault Refusal :=
  withBay b s (fun s =>
    let l := (s.bay b).mlink
    if s.mportUp b && l.st == .active && (96 ≤ l.badRun || 96 ≤ l.stall) then
      let s := (s.raiseBay b 1 .mlinkLost).mlinkTrain b
      let st := (s.bay b).spindle.st
      if st == .stopped || st == .fault || st == .safeHold then s
      else (s.spRecover b).updSp b (fun x => { x with zeroLeft := 0, drive := .floating })
    else s)

/-! ### Speed (R202 to R204) -/

/-- The slewed speed target after one 3 kHz sample. -/
def slewTo (now goal : Int) (perS : Nat) : Int := now + clampI (-(rpmOf perS / 3000)) (rpmOf perS / 3000) (goal - now)

/-- The torque reference held within its limits, braking scaled by VREG × 0.95 / VDC while VDC exceeds 95 % of VREG (R204). -/
def Bay.brakeScale (y : Bay) (iq : Int) : Int :=
  let vreg := y.mlink.identField 44 * 1000
  let brakes := iq.sign * y.spindle.obs.rpm.sign < 0
  if brakes ∧ vreg * 95 < y.spindle.vdc * 100 then iq * (vreg * 95) / (max 1 y.spindle.vdc * 100 : Nat) else iq

/-- The handover checks of one 3 kHz sample in `RAMP` (R197). -/
def State.handCheck (s : State) (b : BayId) : State :=
  let x := (s.bay b).spindle
  let want := expectedMag (s.spin b .spindleMotorKeUvRpm) x.cmdRpm
  let m := mag (x.obs.efa, x.obs.efb)
  let ok := x.handAt.isSome && decide ((x.obs.rpm - x.cmdRpm).natAbs * 10 ≤ x.cmdRpm.natAbs)
    && decide ((100 - s.liveN .spindleObsMagTolPct) * want ≤ m * 100) && decide (m * 100 ≤ (100 + s.liveN .spindleObsMagTolPct) * want)
  s.updSp b (fun x => { x with passRun := if ok then x.passRun + 1 else 0 })

/-- One sample of the cross-check against the reference pickup's wedges in `SYNC`, `RUN` and `DECEL` (R200). -/
def State.crossCheck (s : State) (b : BayId) : State :=
  let y := s.bay b
  let cross := match s.wedgeSpeed b with
    | some (rpm, _) =>
      s.locked b y.ref && decide (rpm.natAbs * s.liveN .spindleObsXcheckPpm < (y.spindle.obs.rpm - rpm).natAbs * 1000000)
    | none => false
  s.updSp b (fun x => { x with xRun := if cross then x.xRun + 1 else 0 })

/-- One sample of the speed loop in `RUN` or `DECEL`: target, error, torque reference, readiness.
Log 35 (DEDUCED). -/
def State.speedStep (s : State) (b : BayId) : State :=
  let y := s.bay b
  let x := y.spindle
  let now := s.us
  let wedge := s.wedgeSpeed b
  let byWedge := wedge.isSome && x.st == .run
  let called := min (rpmOf (s.liveN .spindleSpeedMaxRpm)) (rpmFor y.zone y.spinRadius)
  let goal := if x.st == .run then called else x.goal
  let rate := if x.st == .decel then s.liveN .spindleBrakeDecelRpmS
    else if x.spinUp then s.liveN .spindleSpeedSpinupRpmS else s.liveN .spindleSpeedAccelRpmS
  let target := slewTo x.target goal rate
  let raw := match wedge with
    | some (_, ppm) => if byWedge then ppm else 0
    | none => 0
  let byRpm := rnd ((target - x.obs.rpm) * 1000000) (max 65536 target.natAbs)
  let e0 := if byWedge then raw else byRpm
  -- a change of reference is slewed away (R159)
  let moved := byWedge && x.wedgeInt != 0 && x.lastRef != x.wedgeRef
  let ofs := if moved then (x.lastErr - e0) * 65536 else x.refOfs
  let step : Int := s.liveN .loopClvSlewPpmMs * 65536 / 3
  let ofs := ofs - clampI (-step) step ofs
  let e := clampI (-32767) 32767 (if byWedge then e0 + rnd ofs 65536 else e0)
  let preset := x.presetS || byWedge != x.wedgeErr
  let (l, _) := match x.bankS with
    | some k => x.lawS.step k e preset
    | none => (x.lawS, false)
  let most : Int := s.spin b .spindleCurrentMaxMa
  let iq := y.brakeScale (clampI (-most) most (rnd l.y 65536))
  let band := decide (e.natAbs ≤ s.liveN .spindleSpeedReadyPpm) && x.st == .run
  s.updSp b (fun x => { x with
    goal := goal, target := target, lawS := l, iq := iq, presetS := false, wedgeErr := byWedge, lastRef := if byWedge then x.wedgeRef else x.lastRef, lastErr := e, refOfs := if byWedge then ofs else 0
    spinUp := x.spinUp && target != goal
    readyAt := if band then some (x.readyAt.getD now) else none, ready := x.ready && band })

/-- `SPEED_LOOP_SAMPLE` (R202 to R204): at 3 kHz, one sample in 16 PWM periods. `DECEL` ends in `RUN` at its target or in `BRAKE_SHORT`. -/
def execSpeedLoopSample (b : BayId) (s : State) : Host.Outcome State Fault Refusal :=
  withBay b s (fun s =>
    let l := (s.bay b).mlink
    if !s.mportUp b ∨ l.st != .active ∨ s.unitDead b .motor ∨ l.frames / 2 < 16 * l.slot then s
    else
      let s := (s.updBay b (fun y => { y with mlink := { y.mlink with slot := y.mlink.slot + 1 } })).watchSpeed b
      match (s.bay b).spindle.st with
      | .ramp => s.handCheck b
      | .sync => s.crossCheck b
      | .run => (s.crossCheck b).speedStep b
      | .decel =>
        let s := (s.crossCheck b).speedStep b
        let x := (s.bay b).spindle
        let low := rpmOf (s.spin b .spindleCatchMinRpm)
        if x.stopping || decide (x.obs.rpm < 0) || x.goal = 0 then (if x.obs.rpm.natAbs ≤ low.natAbs then s.spBrake b else s)
        else if x.obs.rpm ≤ x.goal then s.spRun b
        else s
      | _ => s)

/-- `SPEED_READY` (R203). -/
def execSpeedReady (b : BayId) (s : State) : Host.Outcome State Fault Refusal :=
  withBay b s (fun s =>
    match (s.bay b).spindle.readyAt with
    | some t => if (s.bay b).spindle.st == .run && t + 10000 ≤ s.us then s.updSp b (fun x => { x with ready := true }) else s
    | none => s)

/-- `DECEL_LIMIT` (Table 09-5): the speed drop at the deceleration, plus 1 s.
Log 35 (DEDUCED). -/
def execDecelLimit (b : BayId) (s : State) : Host.Outcome State Fault Refusal :=
  withBay b s (fun s =>
    let x := (s.bay b).spindle
    let drop := (x.decelFrom - x.goal).natAbs * 1000000 / (rpmOf (max 1 (s.liveN .spindleBrakeDecelRpmS))).natAbs
    if x.st == .decel && x.since + drop + 1000000 ≤ s.us then s.spFault b else s)

/-! ### Starts and stops (R192, R194, R204) -/

/-- `SPINDLE_START` (R192, R194). -/
def execSpindleStart (b : BayId) (s : State) : Host.Outcome State Fault Refusal :=
  withBay b s (fun s =>
    let y := s.bay b
    if !s.mportUp b ∨ !s.coreStarts b .motor ∨ y.mlink.st != .active then s
    else
      match y.spindle.st with
      | .stopped => s.enterCatch b .start
      | .fault => (s.updSp b (fun x => { x with startTries := 0, catchTries := 0, noRetry := false })).enterCatch b .start
      | .safeHold => s.updSp b (fun x => { x with pendStart := true })
      | _ => s)

/-- `SPINDLE_STOP` (R204): a commanded stop, with both pickups in `OFF`. -/
def execSpindleStop (b : BayId) (s : State) : Host.Outcome State Fault Refusal :=
  withBay b s (fun s =>
    if s.mportUp b && s.coreStarts b .motor then s.commandStop b else s)

/-- `SPINDLE_FAULT_RETRY` (R192). -/
def execSpindleFaultRetry (b : BayId) (s : State) : Host.Outcome State Fault Refusal :=
  withBay b s (fun s =>
    let x := (s.bay b).spindle
    if x.st == .fault && !x.noRetry && s.coreStarts b .motor && s.mportUp b && (s.bay b).mlink.st == .active
        && x.since + 1000000 * s.liveN .spindleFaultRetryS ≤ s.us then
      (s.updSp b (fun x => { x with startTries := 0, catchTries := 0 })).enterCatch b .start
    else s)

/-- `START_WAIT_END` (Table 09-5). -/
def execStartWaitEnd (b : BayId) (s : State) : Host.Outcome State Fault Refusal :=
  withBay b s (fun s =>
    let x := (s.bay b).spindle
    if x.st == .startWait && s.mportUp b && x.since + x.waitMs * 1000 ≤ s.us then s.enterCatch b .start else s)

/-! ### Catches (R195, Table 09-7) -/

/-- The observer seeded by a measurement: its speed, and the last crossing's angle advanced to now. -/
def Spindle.seed (x : Spindle) (rpm : Int) (frames : Nat) : Spindle :=
  match x.crossings with
  | c :: _ => { x with obs := ⟨(c.theta + rpm * 262144 * (frames - c.at') / 5760000) % 2 ^ 32, rpm, 0, 0⟩ }
  | [] => x

/-- A failed catch: its event, another after a wait, or `FAULT`. -/
def State.catchFails (s : State) (b : BayId) : State :=
  let n := (s.bay b).spindle.catchTries + 1
  let s := (s.raiseBay b 0 .spindleCatchFail).updSp b (fun x => { x with catchTries := n })
  if s.liveN .spindleCatchMaxTries ≤ n then s.spFault b else s.spWait b (s.liveN .spindleCatchRetryMs)

/-- A valid measurement of a test catch against the observer (R195): beyond 20° or 1 % it is seeded again. -/
def State.testSeed (s : State) (b : BayId) (rpm : Int) (frames : Nat) : State :=
  let x := (s.bay b).spindle
  let y := x.seed rpm frames
  let d := (y.obs.th - x.obs.th) % 2 ^ 32
  let off := min d (2 ^ 32 - d)
  if 2 ^ 32 / 18 < off ∨ x.obs.rpm.natAbs < (rpm - x.obs.rpm).natAbs * 100 then
    (s.updSp b (fun x => x.seed rpm frames)).raiseBay b 0 .spindleObsCheckFail
  else s

/-- The outcome of a measurement (Table 09-7; R204 while a stop is in force). -/
def State.catchOutcome (s : State) (b : BayId) (n : Nat) : State :=
  let x := (s.bay b).spindle
  let frames := (s.bay b).mlink.frames
  if x.amp < s.liveN .spindleCatchFloorMv * 1000 then
    (if x.stopping then s.spStopped b
     else (s.spEnter b .align).updSp b (fun x => { x with
       cmdAngle := 0, cmdRpm := 0, catchTries := 0, obs := ⟨0, 0, 0, 0⟩, maxObs := 0, passRun := 0, handAt := none, lawD := .zero, lawQ := .zero, invalid := 0 }))
  else if 4 ≤ n then
    let rpm := catchSpeed x.crossings n
    -- the sheet channels decode no wedge until the spindle is in `RUN` forward
    let s := (s.updSp b (fun x => { x with backward := x.backward || decide (rpm < 0), catchTries := 0 })).watchCatch b rpm
    if rpm.natAbs < (rpmOf (s.spin b .spindleCatchMinRpm)).natAbs then s.spBrake b
    else
      let s := if x.use == .test then s.testSeed b rpm frames else s.updSp b (fun x => x.seed rpm frames)
      s.spSync b 0 0
  else if x.use == .recovery then s.catchFails b
  else s.spBrake b

/-- `CATCH_END` (R195): the sixth consistent crossing, or the limit. -/
def execCatchEnd (b : BayId) (s : State) : Host.Outcome State Fault Refusal :=
  withBay b s (fun s =>
    let x := (s.bay b).spindle
    let n := consistentCount x.crossings
    let lim := if x.use == .recovery then 8000 else s.spin b .spindleCatchMeasureMs * 1000
    if x.st == .catch && s.mportUp b && (s.bay b).mlink.st == .active && (6 ≤ n || x.since + lim ≤ s.us) then s.catchOutcome b n else s)

/-- `TEST_CATCH` (R195): core-started while neither pickup is inside a pass block or serves a read.
Log 35 (DEDUCED). -/
def execTestCatch (b : BayId) (s : State) : Host.Outcome State Fault Refusal :=
  withBay b s (fun s =>
    let y := s.bay b
    let busy := fun (u : Pickup) => u.write.block.isSome || u.cur.isSome || !u.reads.isEmpty
    let every := s.liveN .spindleTestIntervalS
    if y.spindle.st == .run && 0 < every && y.spindle.lastTest + every * 1000000 ≤ s.us && !busy y.pa && !busy y.pb
        && s.coreStarts b .motor && s.mportUp b then
      let o := y.spindle.obs
      let now := s.us
      (s.enterCatch b .test).updSp b (fun x => { x with obs := o, lastTest := now })
    else s)

/-! ### The start sequence (R196 to R198) -/

/-- `ALIGN_END` (R196, R197). -/
def execAlignEnd (b : BayId) (s : State) : Host.Outcome State Fault Refusal :=
  withBay b s (fun s =>
    let x := (s.bay b).spindle
    if x.st == .align && s.mportUp b && x.since + s.spin b .spindleStartAlignMs * 1000 ≤ s.us then
      (s.spEnter b .ramp).updSp b (fun x => { x with cmdAngle := 0, cmdRpm := 0, handAt := none, passRun := 0 })
    else s)

/-- `RAMP_HANDOVER` (R197): after 30 passing samples the drive goes over to the observer's frame without a step. -/
def execRampHandover (b : BayId) (s : State) : Host.Outcome State Fault Refusal :=
  withBay b s (fun s =>
    let x := (s.bay b).spindle
    if x.st == .ramp && s.mportUp b && 30 ≤ x.passRun then
      let i : Int := s.spin b .spindleStartRampMa
      let d := x.cmdAngle - x.obs.th
      (s.updSp b (fun x => { x with use := .start })).spSync b (-rnd (i * sinE d) 32767) (rnd (i * cosE d) 32767)
    else s)

/-- `START_TRY_FAIL` (R190, R198). -/
def execStartTryFail (b : BayId) (s : State) : Host.Outcome State Fault Refusal :=
  withBay b s (fun s =>
    let x := (s.bay b).spindle
    let late := match x.handAt with
      | some t => x.st == .ramp && t + s.spin b .spindleStartHandoverMs * 1000 ≤ s.us
      | none => false
    let broken := decide (3 ≤ x.invalid) && (x.st == .align || x.st == .ramp || (x.st == .sync && x.use == .start))
    if s.mportUp b && (late || broken) then s.tryFails b else s)

/-- `SYNC_END` (R197, R198, R201): `RUN`, or `DECEL` where the catch or the target calls for it; a failing check fails the try, or leads
to `RECOVER`. -/
def execSyncEnd (b : BayId) (s : State) : Host.Outcome State Fault Refusal :=
  withBay b s (fun s =>
    let x := (s.bay b).spindle
    if !s.mportUp b || x.st != .sync || x.syncLeft != 0 then s
    else if x.use == .start && !x.stopping && 0 < x.failRun then s.tryFails b
    else if x.use != .start && x.syncBad then s.spRecover b
    else if x.stopping || decide (x.obs.rpm < 0) then s.spDecel b 0
    else
      let most := rpmOf (s.liveN .spindleSpeedMaxRpm)
      if most < x.obs.rpm then s.spDecel b (min most (rpmFor (s.bay b).zone (s.bay b).spinRadius)) else s.spRun b)

/-! ### Losses, braking, overspeed (R201, R204, R205) -/

/-- `OBSERVER_LOST` (R201). -/
def execObserverLost (b : BayId) (s : State) : Host.Outcome State Fault Refusal :=
  withBay b s (fun s =>
    let x := (s.bay b).spindle
    let stall := x.st == .run && decide (x.obs.rpm.natAbs < (rpmOf (s.spin b .spindleCatchMinRpm)).natAbs)
    let driven := x.st == .run || x.st == .decel || (x.st == .sync && x.use != .start)
    if s.mportUp b && ((driven && decide (s.liveN .spindleObsLossPeriods ≤ x.failRun)) || stall) then (s.raiseBay b 0 .spindleObsLost).spRecover b
    else s)

/-- `BRAKE_SHORT_TOGGLE` (Table 09-5): the shorted and the floating part alternate; a float window below floor ends braking. -/
def execBrakeShortToggle (b : BayId) (s : State) : Host.Outcome State Fault Refusal :=
  withBay b s (fun s =>
    let x := (s.bay b).spindle
    let now := s.us
    let len := if x.drive.short then s.liveN .spindleBrakeShortOnMs * 1000 else 10000
    if x.st != .brakeShort || !s.mportUp b || decide (now < x.phaseAt + len) then s
    else if x.drive.short then
      s.updSp b (fun x => { x with drive := .floating, phaseAt := now, amp := 0, crossings := [], signs := [none, none, none] })
    else
    let n := consistentCount x.crossings
    let s := if 4 ≤ n then s.watchCatch b (catchSpeed x.crossings n) else s
    if x.amp < s.liveN .spindleCatchFloorMv * 1000 then (if x.stopping then s.spStopped b else s.enterCatch b .start)
    else s.updSp b (fun x => { x with drive := { Drive.floating with float := false, short := true }, phaseAt := now }))

/-- `BRAKE_SHORT_LIMIT` (Table 09-5). -/
def execBrakeShortLimit (b : BayId) (s : State) : Host.Outcome State Fault Refusal :=
  withBay b s (fun s =>
    let x := (s.bay b).spindle
    if x.st == .brakeShort && s.mportUp b && x.since + s.liveN .spindleBrakeShortMaxMs * 1000 ≤ s.us then
      (s.raiseBay b 0 .spindleBrakeFail).spFault b
    else s)

/-- `OVERSPEED_DETECT` (R205): the event; in a closed-loop state `DECEL` toward `spindle.speed.max_rpm`.
Log 35 (DEDUCED). -/
def execOverspeedDetect (b : BayId) (s : State) : Host.Outcome State Fault Refusal :=
  withBay b s (fun s =>
    let x := (s.bay b).spindle
    match x.overAt with
    | some t =>
      if x.overRaised.isNone && s.mportUp b && t + 1000 ≤ s.us then
        let now := s.us
        let s := (s.raiseBay b 0 .spindleOverspeed).updSp b (fun x => { x with overRaised := some now })
        if x.st == .sync || x.st == .run || x.st == .decel then s.spDecel b (if x.stopping || decide (x.obs.rpm < 0) then 0 else rpmOf (s.liveN .spindleSpeedMaxRpm)) else s
      else s
    | none => s)

/-- `OVERSPEED_STOP` (R205): 100 ms later still over, a commanded stop that ends in `FAULT`; back below, the watch begins anew. -/
def execOverspeedStop (b : BayId) (s : State) : Host.Outcome State Fault Refusal :=
  withBay b s (fun s =>
    let x := (s.bay b).spindle
    match x.overRaised with
    | some t =>
      if s.us < t + 100000 ∨ !s.mportUp b then s
      else
        let s := s.updSp b (fun x => { x with overRaised := none })
        if x.overAt.isSome then (s.updSp b (fun x => { x with endFault := true })).commandStop b else s
    | none => s)

/-! ### Probes and identity (R146, R32) -/

/-- `BAY_PROBE` (R146): an empty or rejected bay is spun up, with both pickups toward L00 in the lead-in at 23.0 mm. -/
def execBayProbe (b : BayId) (s : State) : Host.Outcome State Fault Refusal :=
  withBay b s (fun s =>
    let y := s.bay b
    let d := y.disc
    if (d.empty || d.rejected.isSome) && !d.probing && y.spindle.st == .stopped && y.mlink.st == .active && s.mportUp b && s.coreStarts b .motor
        && d.probeAt + 1000000 * s.liveN .loopProbeIntervalS ≤ s.us then
      let aim := fun (u : Pickup) => { u with ms := { u.ms with
        tgtLayer := 0, tgtZone := .leadIn, tgtFrame := frameAt .leadIn 2300000, hasTarget := false } }
      let s := s.updBay b (fun y => { y with
        radius := 2300000, zone := .leadIn, pa := aim y.pa, pb := aim y.pb
        disc := { y.disc with probing := true, serial := none, ident := [], tagA := none, tagB := none } })
      s.enterCatch b .start
    else s)

/-- The calibration items that a mount makes pending (R357); item 10 for a pickup without a tuned bank. -/
def Pickup.mountItems (u : Pickup) (now layer : Nat) : Pickup :=
  let tuned := u.cal.tunedF.isSome && u.cal.tunedT.isSome
  { u with cal := { (u.cal.makePending now layer ([1, 2, 3, 4, 5, 6, 8, 9] ++ (if tuned then [] else [10])) true) with
      passed := false, seen := [layer] } }

/-- `DISC_IDENTITY_READ` (R32): once a copy has verified on L00 of either surface, or no copy is left to read, the identity is held
against the provisional tags and the format version. A copy of surface A comes before one of surface B.
Log 36 (DESIGN CHOICE). -/
def execDiscIdentityRead (b : BayId) (s : State) : Host.Outcome State Fault Refusal :=
  withBay b s (fun s =>
    let y := s.bay b
    let d := y.disc
    let reads := s.locked b .A || s.locked b .B
    let copy := (d.identity? .A).or (d.identity? .B)
    let ended := fun (p : Pu) => !s.pickupServes b p || (d.nextIdentity p).isNone
    if d.serial.isSome || !reads || s.coresHeld || (copy.isNone && !(ended .A && ended .B)) then s
    else
      let bad := fun (s : State) => s.rejectDisc b (d.name ((d.tagA.or d.tagB).getD 0)) .identity 16 .discIdentityFail
      match copy with
      | none => bad s
      | some c =>
        let sn := identitySerial c
        let agrees := fun (t : Option Nat) => match t with
          | some t => t == serialTag sn
          | none => true
        if !agrees d.tagA || !agrees d.tagB then bad s
        else if leAt c 4 2 ≠ 1 then s.rejectDisc b sn .format 16 .discFormatUnknown
        else
          let now := s.us
          let spares := s.ham.spares
          let fresh := fun (p : Pu) (u : Pickup) => { (u.mountItems now u.ms.layer) with
            write := { WPath.reset with
              bankSel := u.write.bankSel, bankLayer := u.write.bankLayer, strategies := u.write.strategies
              spareNext := (spares.filter (fun e => e.1 == sn && e.2.1 == p)).map (fun e => e.2.2) } }
          let s := (s.loadDiscCal b .A sn).loadDiscCal b .B sn
          s.updBay b (fun y => { y with
            pa := fresh .A y.pa, pb := fresh .B y.pb
            disc := { y.disc with
              serial := some sn, ident := c, rejected := none, empty := false, probing := false
              label := none, blank := false, labelN := 0, pointerN := 0, found := [] } }))

end Sys2Proof.Machine
end

