-- ==== Sys2Proof/Machine/CalRows.lean ====
section
/-! DEFINITION. Calibration and spares (17_calibration_spares.md): runs and their acceptance, element grades, forced gaps, sampler
slices, calibration records; and the lifting of injections (R421). -/

namespace Sys2Proof.Machine

/-! ### Grades (R360, R362) -/

/-- The emitter-array temperature, in 1/64 °C. -/
def Pickup.temp (u : Pickup) : Int := u.link.servo.temp.headD 0

/-- An element meets a wear test (Table 17-2): its read power, its gain, or, for a data element in force, its track's first-pass
failures over the last 1,024 sectors. -/
def State.wears (s : State) (u : Pickup) (i : Nat) : Bool :=
  let e := u.elems.getD i .reset
  let l := u.cal.trkFail.getD (i % 18 - 1) []
  let n := (l.filter (fun x => x)).length
  (0 < e.pset0 && s.liveN .calWearPowerPct * e.pset0 < 100 * e.pset)
    || (0 < e.gain0 && decide ((s.liveN .calWearGainPct : Int) * e.gain0 < 100 * e.gain))
    || (0 < i % 18 && i % 18 < 17 && elemIdx u.link.rows (i % 18) == i && l.length == 1024 && s.liveN .calWearTrackFailPct * 1024 < 100 * n)

/-- An element takes a grade; provisional while an injection acts on it (R421). -/
def State.setGrade (s : State) (b : BayId) (p : Pu) (i : Nat) (g : Grade) : State :=
  let inj := s.provisional (elemTarget b p i)
  s.updPu b p (fun u => { u with
    elems := u.elems.mapIdx (fun j e => if j = i then { e with grade := g, prov := inj } else e)
    cal := if inj then u.cal else u.cal.due s.us })

/-- A pickup with a servo spot whose twins are both `FAULTY` is retired at once (R362).
Log 32 (DEDUCED). -/
def State.servoRetire (s : State) (b : BayId) (p : Pu) : State :=
  let u := s.pu b p
  let dead := fun (sp : Nat) => [sp, sp + 18].all (fun i => (u.elems.getD i .reset).grade == .faulty)
  if dead 0 || dead 17 then s.retirePickup b p else s

/-- An element is graded `FAULTY` for good (R360): the run in progress ends, and the twin's measurement is pending from now on
(R359, R361). -/
def State.elementFaulty (s : State) (b : BayId) (p : Pu) (i : Nat) : State :=
  if ((s.pu b p).elems.getD i .reset).grade == .faulty then s
  else
    let s := (s.setGrade b p i .faulty).raisePu b p 14 .calElemFault p.idx i 0
    let s := s.updPu b p (fun u => { u with cal := { (u.cal.makePending s.us u.ms.layer [1] false) with step := none } })
    s.servoRetire b p

/-- The wear grade of an element after an accepted run (R360). -/
def State.gradeWear (s : State) (b : BayId) (p : Pu) (i : Nat) : State :=
  let u := s.pu b p
  let g := (u.elems.getD i .reset).grade
  if g == .faulty then s
  else
    let w := s.wears u i
    if w && g == .good then (s.setGrade b p i .worn).raisePu b p 14 .calElemWorn p.idx i 0
    else if !w && g == .worn then s.setGrade b p i .good
    else s

/-- `ELEMENT_FAULT` (R360): `EFAULT`, or `MON` outside its tolerance for `cal.elem.fault_ticks`, for the element in force. -/
def execElementFault (b : BayId) (p : Pu) (e : Fin 36) (s : State) : Host.Outcome State Fault Refusal :=
  withBay b s (fun s =>
    let u := s.pu b p
    let sp := e.val % 18
    if s.portUp b p && elemIdx u.link.rows sp == e.val && u.elemBad (s.liveN .calElemFaultTicks) sp then s.elementFaulty b p e.val else s)

/-! ### Steps (R355, R358) -/

/-- An item that belongs to a layer. -/
def layerBound (item : Nat) : Bool := 5 ≤ item && item ≤ 8

/-- The pending entry of an item for the present layer. -/
def Pickup.pendOf (u : Pickup) (item : Nat) : Option CalPend :=
  u.cal.pend.find? (fun q => q.item == item && (!layerBound item || q.layer == u.ms.layer) && q.parts.any (fun a => !a.ended))

/-- A step can run: in `FOLLOW`, outside a pass block, and with no sector to read or within a forced gap. -/
def Pickup.stepIdle (u : Pickup) : Bool :=
  u.ms.st == .follow && u.write.block.isNone && u.cal.step.isNone && (u.cal.gap.isSome || (u.cur.isNone && u.reads.isEmpty))

/-- An item 1 run lights a spot's twin where it may be brought in: the element in force is `WORN`, or `FAULTY` with a twin that is
not (R361). -/
def Pickup.examines (u : Pickup) (sp : Nat) : Bool :=
  let g := (u.elem sp).grade
  g != .good && (u.elems.getD (twinIdx u.link.rows sp) .reset).grade != .faulty

/-- The units of item 1 that need no examination are done. -/
def Cal.keepUnits (c : Cal) (item : Nat) (keep : Nat → Bool) : Cal :=
  let l := c.pend.map (fun q => if q.item == item then { q with parts := q.parts.filter (fun a => keep a.unit) } else q)
  { c with pend := l.filter (fun q => !q.parts.isEmpty) }

/-- The number of power-calibration sectors of a layer (Table 01-6). -/
def pcaSectors : Nat := 14080

/-- A power-calibration run takes the highest unused sector of the layer's area, found by blank detection (R31); with none left, the
layer keeps its last stored values. What such a sector holds is not described.
Log 38 (DEDUCED). -/
def State.powerCalRun (s : State) (b : BayId) (p : Pu) : State :=
  let u := s.pu b p
  let layer := u.ms.layer
  let used := (s.bay b).disc.pcaUsed u.write p layer
  if pcaSectors ≤ used then
    (s.updPu b p (fun u => { u with cal := { u.cal with
      step := none, pend := u.cal.pend.filter (fun q => !(q.item == 7 && q.layer == layer)) } })).raisePu b p 12 .pcaExhausted
  else
    let (k, s) := s.draw
    let s := s.updPu b p (fun u => { u with write := { u.write with
      pcaNext := (layer, used + 1) :: u.write.pcaNext.filter (fun e => e.1 != layer) } })
    s.handOver b p (Coded.fresh ⟨layer, .leadIn, 19215 - used⟩ .powerCal (padTo 262656 (Config.freeBytes k 262656)))

/-- Blank detection has found the next unused power-calibration sector of the layer, or shown that none is left (R31). -/
def State.pcaKnown (s : State) (b : BayId) (p : Pu) : Bool :=
  let u := s.pu b p
  let d := (s.bay b).disc
  d.pcaFound u.write p u.ms.layer || decide (pcaSectors ≤ d.pcaUsed u.write p u.ms.layer)

/-- `CAL_STEP_RUN` (R355 to R359): a pending step of an item starts in an idle period; the `cal` section's boundary of the unit.
Log 38 (DEDUCED). -/
def execCalStepRun (b : BayId) (p : Pu) (item : Fin 13) (s : State) : Host.Outcome State Fault Refusal :=
  withBay b s (fun s =>
    let u := s.pu b p
    let n := item.val
    if !u.stepIdle || !s.coreStarts b (.pickup p) || (u.pendOf n).isNone then s
    else
      let s := s.boundary (.pickup b p) 16
      let start := fun (s : State) => s.updPu b p (fun u => { u with cal := { u.cal with step := some (n, s.us) } })
      if n = 1 then
        let s := s.updPu b p (fun u => { u with cal := u.cal.keepUnits 1 u.examines })
        match ((s.pu b p).pendOf 1).bind (fun q => q.parts.find? (fun a => !a.ended)) with
        | some a => start (s.updPu b p (fun u => { u with cal := { u.cal with exam := some (u.cal.exam.getD (a.unit, false)) } }))
        | none => s
      else if n = 7 then (if s.pcaKnown b p then (start s).powerCalRun b p else s)
      else start s)

/-- `CAL_GAP_FORCE` (R358): a pending step has waited `cal.max_defer_ms` for an idle period; the gap begins at the next sector
opening wedge at which no pass block is in progress. -/
def execCalGapForce (b : BayId) (p : Pu) (s : State) : Host.Outcome State Fault Refusal :=
  withBay b s (fun s =>
    let u := s.pu b p
    let late := u.cal.pend.any (fun q => q.item != 2 && q.item != 3 && q.item != 4 && (!layerBound q.item || q.layer == u.ms.layer)
      && q.parts.any (fun a => !a.ended) && decide (q.since + 1000 * s.liveN .calMaxDeferMs ≤ s.us))
    if late && u.ms.st == .follow && u.cal.gap.isNone && !u.cal.gapDue && !u.cal.step.isSome && s.coreStarts b (.pickup p) then
      (s.updPu b p (fun u => { u with cal := { u.cal with gapDue := true } })).raisePu b p 14 .calGapForced
    else s)

/-! ### Acceptance (R355, R356) -/

/-- A gain and a DC value within item 3's limits. -/
def normLimits (c g : Int) : Bool := decide (c.natAbs ≤ 24 * 65536) && decide (16384 ≤ g) && decide (g ≤ 524288)

/-- The offsets of the 36 elements span at most 73,000 nm when an element has an offset (R63). -/
def Pickup.offsetLimits (u : Pickup) (i : Nat) (o : Int) : Bool :=
  let l := u.elems.mapIdx (fun j e => if j = i then o else e.offset)
  let hi := l.foldl max o
  let lo := l.foldl min o
  decide (hi - lo ≤ 73000)

/-- The spot's element that item 1 examines, or that items 2 to 4 measure: the one in force. -/
def Pickup.unitElem (u : Pickup) (sp : Nat) : Nat := elemIdx u.link.rows (sp % 18)

/-- A bank of item 8: the taps of the 16 tracks in the order of Table 04-2, then six coefficients rho of each. -/
def bankOfResult (l : List Int) : DetBank :=
  let (taps, rest) := (List.range 16).foldl (fun (a : List (List Int) × List Int) i =>
    let n := (tapPlan i).length
    (a.1 ++ [a.2.take n], a.2.drop n)) ([], l)
  ⟨taps, (List.range 16).map (fun i => (rest.drop (6 * i)).take 6)⟩

/-- The centre taps of a bank stand above the limit. -/
def DetBank.centred (d : DetBank) (least : Nat) : Bool :=
  (List.range 16).all (fun i => ((tapPlan i).zip (d.taps.getD i [])).any (fun t => t.1 == (0, 0) && decide ((least : Int) ≤ t.2)))

/-- The result of a run lies within its item's limits (Table 17-1). Results: item 1 read power, c, g and offset of the twin; 2
read power; 3 c and g; 4 offset; 5 slopes and offsets; 6 the code; 7 trim and `WDLY` offset of each element; 8 residual in % of the
target's mean z², then the bank; 9 preset, monitor slice, margin in %; 11 r0; 12 the table's largest entry, the fundamental's share of
its energy in %, then the harmonic pairs.
Log 37 (DESIGN CHOICE). -/
def State.calLimits (s : State) (b : BayId) (p : Pu) (item unit : Nat) (r : List Int) : Bool :=
  let u := s.pu b p
  let v := fun (i : Nat) => r.getD i 0
  let d := u.link.ident.getD []
  let top : Int := beAt d 40 2
  let power := fun (x : Int) => decide (0 ≤ x) && decide (x ≤ top)
  match item with
  | 1 => power (v 0) && normLimits (v 1) (v 2) && u.offsetLimits (u.unitElem unit) (v 3)
  | 2 => power (v 0)
  | 3 => normLimits (v 0) (v 1)
  | 4 => u.offsetLimits (u.unitElem unit) (v 0)
  | 5 => (List.range 3).all (fun k =>
      let old := (u.cal.slope u.ms.layer k).1
      decide (2 * (v (2 * k) - old).natAbs ≤ old.natAbs))
  | 6 => decide ((v 0 - s.saInit b p u.ms.layer).natAbs ≤ 4096)
  | 7 =>
    let base := padTo 65536 (Config.strategySet u.ms.layer)
    (List.range 32).all (fun e => power ((beAt base (2048 * e) 2 : Int) * v (2 * e) / 4096))
  | 8 => decide (v 0 ≤ s.live .sheetDetDivergePct) && (bankOfResult (r.drop 1)).centred (s.bndN (.pickup b p) .sheetDetCentreMin)
  | 9 => decide (s.live .calLinkMarginMinPct ≤ v 2) && decide (0 ≤ v 0) && decide (v 0 < 16) && decide (0 ≤ v 1) && decide (v 1 < 4)
  | 11 => match ((s.bay b).sled p).r0 with
    | some r0 => decide ((v 0 - r0).natAbs ≤ 30000)
    | none => true
  | 12 => decide (v 0 ≤ 32767) && decide (90 ≤ v 1)
  | _ => true

/-- The ranges of an item's values, by which REPEAT compares two runs. -/
def State.calRanges (s : State) (b : BayId) (p : Pu) (item n : Nat) : List Nat :=
  let u := s.pu b p
  let top := beAt (u.link.ident.getD []) 40 2
  let deskew := 73000
  match item with
  | 1 => [top, 48 * 65536, 507904, deskew]
  | 2 => [top]
  | 3 => [48 * 65536, 507904]
  | 4 => [deskew]
  | 5 => (List.range 3).flatMap (fun k => [(u.cal.slope u.ms.layer k).1.natAbs, 65536])
  | 6 => [8192]
  | 9 => [16, 4, 100]
  | 11 => [60000]
  | _ => List.replicate n 65536

/-- Two runs agree within `cal.repeat.tol_pct` % of the item's range. -/
def State.calAgree (s : State) (b : BayId) (p : Pu) (item : Nat) (r1 r2 : List Int) : Bool :=
  let t := s.liveN .calRepeatTolPct
  ((r1.zip r2).zip (s.calRanges b p item r1.length)).all (fun e => decide ((e.1.1 - e.1.2).natAbs * 100 ≤ t * e.2)) && r1.length == r2.length

/-- A unit of a pending item is changed or done. -/
def Cal.updPart (c : Cal) (item layer unit : Nat) (f : CalPart → Option CalPart) : Cal :=
  let l := c.pend.map (fun q =>
    if q.item == item && q.layer == layer then { q with parts := q.parts.filterMap (fun a => if a.unit == unit then f a else some a) } else q)
  { c with pend := l.filter (fun q => !q.parts.isEmpty) }

/-- A run fails (R356): the values in force stay, `EV_CAL_FAIL`; after `cal.retry.max` in a row the unit waits for its next trigger.
Item 2 or 3 failing its limits twice in a row makes the element `FAULTY` (R360). -/
def State.calFails (s : State) (b : BayId) (p : Pu) (q : CalPend) (unit : Nat) (limits : Bool) : State :=
  let most := s.liveN .calRetryMax
  let s := s.updPu b p (fun u => { u with cal := u.cal.updPart q.item q.layer unit (fun a =>
    some { a with fails := a.fails + 1, first := none, ended := decide (most ≤ a.fails + 1), from' := u.cal.read }) })
  let s := s.raisePu b p 14 .calFail p.idx q.item unit
  let i := (s.pu b p).unitElem unit
  let e := (s.pu b p).elems.getD i .reset
  let count := fun (s : State) (f : Element → Element) => s.updPu b p (fun u => { u with elems := u.elems.mapIdx (fun j e => if j = i then f e else e) })
  if limits && q.item = 2 then
    let s := count s (fun e => { e with fail2 := e.fail2 + 1 })
    if 1 ≤ e.fail2 then s.elementFaulty b p i else s
  else if limits && q.item = 3 then
    let s := count s (fun e => { e with fail3 := e.fail3 + 1 })
    if 1 ≤ e.fail3 then s.elementFaulty b p i else s
  else s

/-- Items 2 to 4 accepted for an element: good calibration at this temperature, the baseline if there is none, the wear grade. The
values wait for an opening wedge. -/
def State.acceptElement (s : State) (b : BayId) (p : Pu) (item i : Nat) (r : List Int) : State :=
  let t := (s.pu b p).temp
  let s := s.updPu b p (fun u => { u with
    elems := u.elems.mapIdx (fun j e =>
      if j = i then
        { e with
          acc := (item, t) :: e.acc.filter (fun a => a.1 != item)
          pset0 := if item = 2 && e.pset0 = 0 then (r.headD 0).toNat else e.pset0
          gain0 := if item = 3 && e.gain0 = 0 then r.getD 1 0 else e.gain0
          fail2 := if item = 2 then 0 else e.fail2, fail3 := if item = 3 then 0 else e.fail3 }
      else e)
    cal := { u.cal with
      differs := true
      wait := ⟨item, u.ms.layer, i, r⟩ :: u.cal.wait.filter (fun w => !(w.item == item && w.unit == i)) } })
  -- the wear tests judge the accepted values
  let u := s.pu b p
  let v := { u with elems := u.elems.mapIdx (fun j e => if j = i then
    (if item = 2 then { e with pset := (r.headD 0).toNat } else if item = 3 then { e with gain := r.getD 1 0 } else e) else e) }
  let g := (u.elems.getD i .reset).grade
  if g == .faulty then s
  else if s.wears v i then
    (if g == .good then (s.setGrade b p i .worn).raisePu b p 14 .calElemWorn p.idx i 0 else s)
  else if g == .worn then s.setGrade b p i .good
  else s

/-- Item 1 accepted for a spot: the twin, now lit, is calibrated and kept, a suspension of its track ends. The old element's grade
called for it; a twin that is worn itself is not kept in place of a worn element (R361).
Log 38 (DEDUCED). -/
def State.acceptTwin (s : State) (b : BayId) (p : Pu) (sp : Nat) (r : List Int) : State :=
  let i := (s.pu b p).unitElem sp
  let s := s.acceptElement b p 2 i (r.take 1)
  let s := s.acceptElement b p 3 i ((r.drop 1).take 2)
  let s := s.acceptElement b p 4 i (r.drop 3)
  let u := s.pu b p
  let old := (u.elems.getD (twinIdx u.link.rows sp) .reset).grade
  let keep := (u.elems.getD i .reset).grade == .good || old == .faulty
  if keep then
    let s := s.updPu b p (fun u => { u with cal := { u.cal with
      exam := none, susp := if 0 < sp && u.cal.susp == some (sp - 1) then none else u.cal.susp } })
    s.noteSwaps b p [sp]
  else s

/-- An accepted result goes to its point of force (R355). Steps run in idle periods, so what enters force there does so now.
Log 38 (DEDUCED). -/
def State.calAccept (s : State) (b : BayId) (p : Pu) (item unit : Nat) (r : List Int) : State :=
  let u := s.pu b p
  let layer := u.ms.layer
  let set := fun (f : Cal → Cal) => s.updPu b p (fun u => { u with cal := (f u.cal).due s.us })
  let keep := fun {α : Type} (l : List (Nat × α)) => l.filter (fun e => e.1 != layer)
  match item with
  | 1 => s.acceptTwin b p (unit % 18) r
  | 2 => s.acceptElement b p 2 (u.unitElem unit) r
  | 3 => s.acceptElement b p 3 (u.unitElem unit) r
  | 4 => s.acceptElement b p 4 (u.unitElem unit) r
  | 5 => set (fun c => { c with slopes := (layer, r.take 6) :: keep c.slopes })
  | 6 => (set (fun c => { c with sa := (layer, r.headD 0) :: keep c.sa })).updMs b p (fun m => { m with saCode := r.headD 0 })
  | 7 =>
    let s := set (fun c => { c with strat := (layer, r.take 64) :: keep c.strat })
    -- the set is loaded anew before the next pass block (R135)
    s.updPu b p (fun u => { u with write := { u.write with bankLayer := if u.write.bankLayer == some layer then none else u.write.bankLayer } })
  | 8 =>
    (set id).updPu b p (fun u => { u with det := { u.det with
      pend := ((layer, u.det.target), bankOfResult (r.drop 1)) :: u.det.pend.filter (fun e => e.1 != (layer, u.det.target)) } })
  | 9 => set (fun c => { c with slices := c.slices.mapIdx (fun j x =>
      if j = unit then x / 64 * 64 + (r.getD 1 0).toNat % 4 * 16 + (r.headD 0).toNat % 16 else x) })
  | 11 =>
    (s.updPu b p (fun u => { u with cal := { u.cal with
      wait := ⟨11, layer, 0, r⟩ :: u.cal.wait.filter (fun w => w.item != 11) } })).updBay b (fun y => { y with cal := { y.cal with
        recDue := some (y.cal.recDue.getD s.us) } })
  | 12 => s.updBay b (fun y => { y with cal := { y.cal with
      recDue := some (y.cal.recDue.getD s.us)
      tabA := if p == .A then (r.drop 2).take 32 else y.cal.tabA, tabB := if p == .B then (r.drop 2).take 32 else y.cal.tabB } })
  | _ => s

/-- The mount-time calibration of a pickup passes (R357): each mount item is accepted, stands on its last recorded value, or has
ended its series; the temperature set is over when none of its items is left to run. A retired pickup does not pass.
Log 38 (DEDUCED). -/
def State.calConclude (s : State) (b : BayId) (p : Pu) : State :=
  let u := s.pu b p
  let c := u.cal
  let openItem := fun (q : CalPend) => q.parts.any (fun a => !a.ended)
  let stands := fun (q : CalPend) => (q.item == 5 && c.slopes.any (fun e => e.1 == q.layer)) || (q.item == 6 && c.sa.any (fun e => e.1 == q.layer))
  let mount := c.pend.any (fun q => q.mount && q.item != 7 && q.item < 10 && openItem q && !stands q)
  let s := if !c.passed && !mount && !c.retired then s.updPu b p (fun u => { u with cal := { (u.cal.due s.us) with passed := true } }) else s
  let set := c.pend.any (fun q => (q.item < 7 || q.item == 9) && openItem q)
  if set then s else s.updPu b p (fun u => { u with cal := { u.cal with temp := u.temp, trig := false } })

/-- A tune of a loop stands, or is on its way into force (R174, R175). -/
def Loop.tuneStands (x : Loop) : Bool := (x.swapSrc == .tune && x.swapAge.isSome) || x.armed.any (fun a => a.src == .tune)

/-- `CAL_RUN_DONE` (R356): a run of an item ends with a result, judged by its limits and, for REPEAT, by a second run. Items 2 to 4 of
the elements in force run while the pickup reads, over `cal.meas.sectors` sectors; the others in the step that started them. -/
def execCalRunDone (b : BayId) (p : Pu) (item : Fin 13) (unit : Nat) (result : List Int) (s : State) :
    Host.Outcome State Fault Refusal :=
  withBay b s (fun s =>
    let u := s.pu b p
    let n := item.val
    let passive : Bool := 2 ≤ n && n ≤ 4
    let inStep : Bool := match u.cal.step with
      | some (k, _) => k == n
      | none => false
    -- a twin is read for `cal.twin.meas_frames` in one run
    let lit : Bool := n != 1 || (u.cal.exam == some (unit, true) && u.link.rowReq.isNone
      && decide ((s.unitCfg (.pickup b p) 16).nat .calTwinMeasFrames ≤ u.cal.frames))
    match u.pendOf n with
    | none => s
    | some q =>
      match q.parts.find? (fun a => a.unit == unit && !a.ended) with
      | none => s
      | some a =>
        let read := (s.unitCfg (.pickup b p) 16).nat .calMeasSectors ≤ u.cal.read - a.from'
        if u.ms.st != .follow || s.coresHeld || !lit || (if passive then !s.locked b p || !read else !inStep) then s
        else
          let repeat' : Bool := (s.unitCfg (.pickup b p) 16).at .calItemAccept n == 0
          let good := s.calLimits b p n unit result
          let stop := fun (s : State) => if passive then s else s.updPu b p (fun u => { u with cal := { u.cal with step := none } })
          let done := fun (s : State) => s.updPu b p (fun u => { u with cal := u.cal.updPart n q.layer unit (fun _ => none) })
          let s :=
            if n = 10 then
              -- R174 and R175 judge a tune; a tune that stands is done once its window ends
              (if (u.loop (if unit = 0 then .focus else .track)).tuneStands then stop s else stop (s.calFails b p q unit false))
            else if !good then
              let s := stop (s.calFails b p q unit true)
              if n = 1 && (u.elems.getD (twinIdx u.link.rows (unit % 18)) .reset).grade == .faulty then s.elementFaulty b p (u.unitElem unit) else s
            else if repeat' then
              match a.first with
              | none => s.updPu b p (fun u => { u with cal := { (u.cal.updPart n q.layer unit (fun a => some { a with
                  first := some result, from' := u.cal.read })) with frames := 0 } })
              | some r1 => if s.calAgree b p n r1 result then done (stop (s.calAccept b p n unit result)) else stop (s.calFails b p q unit false)
            else done (stop (s.calAccept b p n unit result))
          -- the `cal` section's boundary: the start of the unit's next run (R359)
          (if passive then s.boundary (.pickup b p) 16 else s).calConclude b p)

/-! ### Sampler slices (R363) -/

/-- `SLICE_MARGIN_SWEEP` (R363): the monitor slice measures an in-service slice's margin, in % of the eye height. Below the limit the
monitor slice takes its place at a frame boundary; the weak slice becomes the monitor if its margin, measured again, reaches the
limit, and is disabled otherwise. -/
def execSliceMarginSweep (b : BayId) (p : Pu) (l : PhysLane) (slice : Fin 4) (margin after : Nat) (s : State) :
    Host.Outcome State Fault Refusal :=
  withBay b s (fun s =>
    let u := s.pu b p
    let x := u.cal.slices.getD l.code 0
    let monitor := x / 16 % 4
    let disabled : Bool := x / 64 % 2 == 1
    let least := s.liveN .calLinkMarginMinPct
    if !(s.portUp b p) || !u.link.live || disabled || monitor == slice.val || least ≤ margin then s
    else
      let y := x % 16 + 16 * slice.val + (if least ≤ after then 0 else 64)
      (s.updPu b p (fun u => { u with cal := { (u.cal.due s.us) with slices := u.cal.slices.set l.code y } })).raisePu b p 6 .hlinkSliceSpare)

/-! ### Records (R367) -/

/-- `CAL_RECORD_APPEND` (R367): a record that is due is written; otherwise one that differs from the values in force, no more often
than every `cal.rec.min_s`. `FLASH_ERASE_PROGRAM_DONE` ends the write. -/
def execCalRecordAppend (b : BayId) (u : UnitSel) (s : State) : Host.Outcome State Fault Refusal :=
  withBay b s (fun s =>
    let seq := s.flash.calNextSeq
    let busy := fun (k : Nat) => s.flash.jobs.any (fun j => j.unit == some (b, k))
    match u with
    | .pickup p =>
      let c := (s.pu b p).cal
      let due := c.recDue.isSome || (c.differs && decide (c.recAt + 1000000 * s.liveN .calRecMinS ≤ s.us))
      if s.coresHeld || !due || c.serial.isNone || busy p.idx then s
      else
        (s.flashJob ⟨.calRecord, 0, s.pickupRecord b p seq, 0, none, some (b, p.idx)⟩).updPu b p (fun u => { u with cal := { u.cal with
          recDue := none, differs := false, recAt := s.us } })
    | .motor =>
      let c := (s.bay b).cal
      if s.coresHeld || c.recDue.isNone || c.serial.isNone || busy 2 then s
      else
        (s.flashJob ⟨.calRecord, 0, s.bayRecord b seq, 0, none, some (b, 2)⟩).updBay b (fun y => { y with cal := { y.cal with recDue := none } }))

/-! ### Injections lifted (R421) -/

/-- The consequences of an ended injection on elements of a pickup end: grades and rows of the record in force apply again at the
next opening wedge, an item 1 step is pending, a retired pickup returns to `OFF`. `sp` says which spots it acted on. -/
def State.liftElements (s : State) (b : BayId) (p : Pu) (id : Nat) (sp : Nat) : State :=
  let u := s.pu b p
  let old := u.cal.serial.bind (fun n => s.flash.calFor 1 n)
  let grade := fun (i : Nat) => (old.map (fun r => recordGrade r i)).getD .good
  let els := [sp, sp + 18].filter (fun i => (u.elems.getD i .reset).prov)
  let row := u.cal.rowProv.contains sp
  let trk := u.cal.trkProv && 0 < sp && (u.cal.tret == some (sp - 1) || u.cal.susp == some (sp - 1))
  let ret := u.cal.retProv
  let others := s.inj.list.any (fun i => i.id != id && puTarget b p i.target)
  let n := els.length + row.toNat + trk.toNat + (ret && !others).toNat
  if n = 0 then s
  else
    let want := (old.map recordRows).getD 0#18
    let s := s.updPu b p (fun u => { u with
      elems := u.elems.mapIdx (fun i e => if els.contains i then { e with grade := grade i, prov := false, badRun := 0, fail2 := 0, fail3 := 0 } else e)
      cal := { (u.cal.makePending s.us u.ms.layer [1] false) with
        rowProv := u.cal.rowProv.filter (fun x => x != sp)
        rowBack := if row && want.getLsbD sp != u.link.rows.getLsbD sp then sp :: u.cal.rowBack else u.cal.rowBack
        tret := if trk then none else u.cal.tret, susp := if trk then none else u.cal.susp, trkProv := u.cal.trkProv && !trk
        retired := u.cal.retired && !(ret && !others), retProv := ret && others } })
    (List.range n).foldl (fun s _ => s.raise (24 * b.val + 19) .injectLifted id 0 0) s

end Sys2Proof.Machine
end

