-- ==== Sys2Proof/Machine/Hampers.lean ====
section
/-! DEFINITION. The hamper commands (11_hampers.md). -/

namespace Sys2Proof.Machine

/-- `WRITE_STAGED` (R234): all data of a write lies in its buffers, with block checks; the write is recorded, its map
entries point at the buffers, and its completion may post with its ordinal. -/
def execWriteStaged (f : FnId) (sr : Nat) (tag : BitVec 6) (blocks : List Bytes) (s : State) :
    Host.Outcome State Fault Refusal :=
  .next (match s.cmd? f sr tag with
    | none => s
    | some c =>
      match c.slot with
      | none => s
      | some h =>
        match (s.slot h).bind (fun x => x.write? c.ordinal) with
        | none => s
        | some w =>
          let bufs := s.bufsOf c.order
          if c.opc != 0x11 || c.phase != .started || w.staged || !w.record || !s.engineUp h || blocks.length != w.count
              || bufs.length * 16 < w.count then s
          else
            let s := bufs.zipIdx.foldl (fun s e => s.fillBuf e.1 (((blocks.map (padTo 4096)).drop (16 * e.2)).take 16)) s
            let s := s.updHam h (fun x => x.updWrite c.ordinal (fun w => { w with staged := true, buffers := bufs }))
            (s.updCmd c.order (fun c => { c with staged := true })).finish c.order .success c.ordinal)

/-- The next block of a hamper's lowest unplaced write goes into its slot; a stripe is built when none is open, and
encoded once its data sectors have closed (R235, R236). -/
def State.placeNext (s : State) (h : SlotId) : State :=
  match s.slot h with
  | none => s
  | some x =>
    match x.nextWrite with
    | none => s
    | some w =>
      if x.mounting ∨ w.lost then s
      else if (s.stagedBlock w w.placed).isNone then
        -- a block check fails while its data is taken: the staged-write row of Table 14-4 (R312)
        (s.raiseHam h .memBlockCheck h.val w.ordinal w.placed).stagedLost h (fun v => v.ordinal == w.ordinal) false
      else
        let full := match x.building with
          | some t => (placeIn t.d t.data (w.lba + w.placed) w.ordinal w.placed).isNone
          | none => false
        let s := match x.building with
          | some t => if full then (s.encodeStripe h t.seq).settle h else s
          | none => s
        match s.slot h with
        | none => s
        | some x =>
          let y := match x.building with
            | some _ => some x
            | none => s.openStripe x
          match y.bind (fun y => y.building.bind (fun t => (y.placeBlock s.us t w).map (fun z => (z, t.seq)))) with
          | none => s
          | some (z, seq) =>
            let s := s.setSlot h (some z)
            match z.stripes.find? (fun t => t.seq == seq) with
            | some t => if t.filled then (s.encodeStripe h seq).settle h else s
            | none => s

/-- `BLOCK_PLACE` (R235). -/
def execBlockPlace (h : SlotId) (s : State) : Host.Outcome State Fault Refusal :=
  .next (if s.engineUp h then s.placeNext h else s)

/-- `STRIPE_CLOSE_TIMEOUT` (R236): `hamper.place.close_us` after its first block, an open stripe is closed and encoded. -/
def execStripeCloseTimeout (h : SlotId) (s : State) : Host.Outcome State Fault Refusal :=
  .next (match (s.slot h).bind Hamper.building with
    | some t =>
      (match t.opened with
       | some t0 => if s.engineUp h ∧ t0 + s.liveN .hamperPlaceCloseUs ≤ s.us then s.closeOpen h else s
       | none => s)
    | none => s)

/-- `SECTOR_WRITE_OUTCOME` (R237, R248): a placed sector becomes written or failed; while the cores are held the outcome
waits in the Keep-class queue. -/
def execSectorWriteOutcome (h : SlotId) (stripe : Nat) (member : Fin 32) (written : Bool) (s : State) :
    Host.Outcome State Fault Refusal :=
  .next (if s.engineUp h then s.sectorOutcome h stripe member.val written
    else { s with ham := { s.ham with queued := s.ham.queued ++ [(h, stripe, member.val, written)] } })

/-- `CHECKPOINT_WRITE` (R242): due by stripes, by time once any stripe has committed, or at `UNMOUNT`. -/
def execCheckpointWrite (h : SlotId) (s : State) : Host.Outcome State Fault Refusal :=
  .next (match s.slot h with
    | none => s
    | some x =>
      let due := s.liveN .hamperCkptIntervalStripes ≤ x.ckpt.stripes
        || (0 < x.ckpt.stripes && x.ckpt.last + 1000000 * s.liveN .hamperCkptIntervalS ≤ s.us)
        || (x.unmounting.isSome && x.quiet)
      if due && !x.mounting && x.ckpt.pointer.isNone && x.ckpt.waiting.1 == 0 && x.ckpt.waiting.2.2 == 0 && s.engineUp h then s.checkpoint h
      else s)

/-- `HAMPER_AUTO_MOUNT` (R244): the label area of a ready bay is read; the disc joins a mounted hamper, or its hamper is
mounted once k admitted members are present, if `hamper.mount.auto` is 1 or a `MOUNT` attach waits for it. -/
def execHamperAutoMount (b : BayId) (s : State) : Host.Outcome State Fault Refusal :=
  withBay b s (fun s =>
    if !(s.bay b).ready || s.coresHeld || !s.areaRead b Disc.nextLabel then s
    else
      let s := s.updBay b (fun y => { y with disc := y.disc.fromAreas })
      -- a labelled disc serves once its relocation records and its pointer area have been read as well
      if !s.areaRead b Disc.nextReloc || !s.areaRead b (fun d p => d.nextLog p 4 49152) then s
      else
      match (s.bay b).disc.label with
      | none => s
      | some r =>
        match s.slotOf (labelHid r) with
        | some h => s.joinMounted b h
        | none =>
          match s.ham.attached.find? (fun a => a.1 == labelHid r) with
          | some a => (s.tryMount (labelHid r) a.2.1 a.2.2).raiseStale (labelHid r)
          | none => if s.bootN .hamperMountAuto = 1 then (s.tryMount (labelHid r) false none).raiseStale (labelHid r) else s)

/-- The stripe in which a member took a row, if it took it. -/
def Hamper.seqOfRow (x : Hamper) (i r : Nat) : Option Nat :=
  ((x.breaks.filter (fun b => b.member == i && b.present && b.row ≤ r)).map (fun b => b.seq + (r - b.row))).find?
    (fun q => x.rowOf q i == some r)

/-- A row of a disc in rebuild is passed: what was wanted for it is dropped. -/
def State.rebuildNext (s : State) (h : SlotId) (m : Member) (seq pos : Nat) : State :=
  (s.updHam h (fun x => { (x.updMember m.idx (fun m => { m with rebuilt := m.rebuilt + 1 })) with
    wanted := x.wanted.filter (fun w => !(w.seq == seq && w.pos == pos && w.use == .member)) })).serveReads h

/-- The payload of a rebuilt sector of a member: its columns, and the commit record as a known position of the stripe holds it, with
this position's own `POS` and `HPAR` (R245, Table 11-1). -/
def State.memberPayload (s : State) (x : Hamper) (m : Member) (seq pos row : Nat) (cols : List Nat) (other : Bytes) : Bytes :=
  let body := bytes16 (cols.take 131072)
  let head := bytes16 (cols.drop 131072)
  let commit := putAt (putAt (slice other 72 256) 42 (leBytes 1 pos)) 72 (if x.k ≤ pos then padTo 24 head else zeros 24)
  payloadOf
    { kind := if x.k ≤ pos then 1 else 0, reloc := none, hid := x.hid, member := m.idx, k := x.k, m := x.m,
      writer := rowSurface row, row := row, seq := seq, first := if x.k ≤ pos then 0 else leAt head 0 8,
      mask := if x.k ≤ pos then 0 else leAt head 8 8, retired := 0, time := s.time, commit := commit } body

/-- `MEMBER_REBUILD_STEP` (R245): the next row of a replaced member is rebuilt by R232 from k known positions, which are read for it,
and handed to the new disc; a row that cannot be rebuilt is passed. At the old member's frontier the member becomes active.
Log 57 (DEDUCED). -/
def execMemberRebuildStep (h : SlotId) (s : State) : Host.Outcome State Fault Refusal :=
  .next (match s.slot h with
    | none => s
    | some x =>
      match x.members.find? (fun m => m.state == .rebuilding && m.bay.isSome) with
      | none => s
      | some m =>
        if !s.engineUp h then s
        else if m.rebuildTo ≤ m.rebuilt then
          -- the frontier is reached: the new disc joins P at the next stripe
          (s.updHam h (fun x =>
            { (x.updMember m.idx (fun m => { m with state := .active, next := m.rebuildTo })) with
              epoch := x.epoch + 1, replaces := none })).writeLabels h
        else
          let r := m.rebuilt
          match x.seqOfRow m.idx r with
          | none => s.updHam h (fun x => x.updMember m.idx (fun m => { m with rebuilt := r + 1 }))
          | some seq =>
            let pos := ((x.layout seq).2.find? (fun e => e.1 == m.idx)).elim 0 (fun e => e.2)
            match x.rebuild pos (x.ownKnown seq), x.landed.find? (fun l => l.seq == seq && !l.rebuilt), m.bay with
            | some cols, some l, some b =>
              (s.rebuildNext h m seq pos).handOver b (rowSurface r)
                (Coded.fresh (rowSector r) (.placed h seq m.idx) (s.memberPayload x m seq pos r cols l.payload))
            | _, _, _ =>
              if x.wanted.any (fun w => w.seq == seq && w.pos == pos && w.use == .member) then
                (if x.wanted.any (fun w => w.seq == seq && !w.rebuild) ∨ !x.helpersEnded seq then s else s.rebuildNext h m seq pos)
              else
                (s.updHam h (fun x => { x with wanted := x.wanted ++ [⟨seq, pos, true, false, true, false, .member⟩] })).gatherFor h seq)

/-- `READ_REBUILD` (R246): a wanted sector that cannot be read is rebuilt from k known positions of its stripe, or given
up once its own ladder has ended. -/
def execReadRebuild (h : SlotId) (stripe pos : Nat) (s : State) : Host.Outcome State Fault Refusal :=
  .next (if s.engineUp h then s.rebuildSector h stripe pos else s)

/-- The sectors of a surface that were placed and not touched are withdrawn: outcomes without a write, coded sectors
gone, and the rows free again where nothing later stands (R247). -/
def State.withdraw (s : State) (h : SlotId) (m : Member) (b : BayId) (p : Pu) : State :=
  match s.slot h with
  | none => s
  | some x =>
    let mine := fun (pl : Placed) => pl.member == m.idx && rowSurface pl.row == p && pl.state == .waiting
    let all := x.stripes.flatMap (fun t => t.placed.filter (fun pl => pl.member == m.idx))
    let gone := (all.filter mine).map (fun pl => pl.row)
    let kept := (all.filter (fun pl => !mine pl && pl.state != .lost)).foldl (fun a pl => max a (pl.row + 1)) 0
    match gone with
    | [] => s
    | g :: gs =>
      let low := max (gs.foldl min g) kept
      let seqs := (x.stripes.filter (fun t => t.placed.any mine)).map (fun t => t.seq)
      let s := s.updHam h (fun x =>
        let lose := fun (t : Stripe) => { t with placed := t.placed.map (fun pl =>
          if mine pl then { pl with state := .lost } else pl) }
        let x : Hamper := { x with stripes := x.stripes.map lose }
        x.updMember m.idx (fun m => { m with next := min m.next low }))
      let drop := fun (c : Coded) => match c.why with
        | .placed h' seq i => h' == h && i == m.idx && seqs.contains seq && !c.touched
        | _ => false
      let s := s.updPu b p (fun u =>
        let w := { u.write with queue := u.write.queue.filter (fun c => !drop c), store := u.write.store.filter (fun c => !drop c) }
        { u with write := w })
      s.settle h

/-- `MEMBER_GRACE_EXPIRE` (R247): the grace of a surface is over and the surface has not returned. -/
def execMemberGraceExpire (b : BayId) (p : Pu) (s : State) : Host.Outcome State Fault Refusal :=
  withBay b s (fun s =>
    allSlots.foldl (fun s h =>
      match s.slot h with
      | none => s
      | some x =>
        match x.members.find? (fun m => m.bay == some b) with
        | none => s
        | some m =>
          if !s.surfaceWrites b p && (m.grace p).isSome && !s.graceRuns m p && !s.coresHeld then s.withdraw h m b p else s) s)

/-- The session's pointer record is written once k members are in write service; no writes are accepted before (R249). -/
def State.writeSession (s : State) (h : SlotId) : State :=
  match s.slot h with
  | some x =>
    (match x.session? with
     | some r => if x.ckpt.waiting.2.2 = 0 ∧ !s.wheld x then s.writePointer h r else s
     | none => s)
  | none => s

/-- `HAMPER_MOUNT_RECOVER` (R249): a hamper in `MOUNTING` is recovered from its pointers, its checkpoint entries and the
scan of its rows; the session pointer record is written, unless the mount is read-only, and a waiting `MOUNT` attach completes. -/
def execHamperMountRecover (h : SlotId) (s : State) : Host.Outcome State Fault Refusal :=
  .next (match s.slot h with
    | none => s
    | some x =>
      if s.coresHeld then s
      else if !x.mounting then s.writeSession h
      else if !s.recoveryRead x then s
      else
        let (y, rec') := x.recover (s.pointersOf x) (s.ckptSectors x) (s.scanOf x)
        let s := ((s.setSlot h (some { y with attach := none, session? := if x.ro then none else some rec' })).writeSession h).bumpGen
        match x.attach with
        | some o =>
          (match (s.slot h).map s.hstate with
           | some .below => s.updHam h (fun x => { x with attach := some o })
           | _ => s.finish o .success (s.mountResult h))
        | none => s)

/-- A hamper engine is faulty (R250): fenced; the spare is called, or without one the surviving engines take its hampers. -/
def State.hamperEngineFaulty (s : State) (e code : Nat) : State :=
  let s := (s.fence ⟨6, 5, e⟩).regionEvent 5 8 .hamperEngineFault e code 0
  -- a fault in the spare during its takeover leaves the engine it was to replace without one (R379)
  let late := if e = 4 then s.ham.takeover.toList else []
  let nums := (List.range 4).filter (fun q => s.ham.serves.getD q 5 == e) ++ late
  let s := { s with ham := { s.ham with
    faulty := s.ham.faulty.set e true, takeover := if e = 4 then none else s.ham.takeover } }
  match nums with
  | [] => s
  | q :: _ =>
    if s.ham.faulty.getD 4 true ∨ s.ham.serves.contains 4 ∨ s.ham.takeover.isSome then
      let s := (s.regionEvent 5 8 .hamperNoSpare e 0 0).degrade 5
      let left := (List.range 5).filter (fun i => !(s.ham.faulty.getD i true) && (s.ham.serves.contains i || i == 4))
      { s with ham := { s.ham with serves := s.ham.serves.zipIdx.map (fun v =>
        if s.ham.faulty.getD v.1 true && s.ham.takeover != some v.2 then left.getD (v.2 % max 1 left.length) e else v.1) } }
    else { s with ham := { s.ham with takeover := some q } }

/-- `HAMPER_ENGINE_FAULT` (R250). -/
def execHamperEngineFault (e : Fin 5) (cause : FaultCause) (s : State) : Host.Outcome State Fault Refusal :=
  .next (
    let code := match cause with
      | .check => 0
      | .store => 1
      | .stall => 2
    if s.ham.faulty.getD e.val true then s else s.hamperEngineFaulty e.val code)

/-- `HAMPER_ENGINE_TAKEOVER` (R250, R380): the spare takes the hampers of the fenced engine from the journal; during a
core reset the takeover waits. -/
def execHamperEngineTakeover (s : State) : Host.Outcome State Fault Refusal :=
  .next (match s.ham.takeover with
    | none => s
    | some q =>
      if s.coresHeld then s
      else
        let b := s.blkOf ⟨6, 5, 4⟩
        let s := s.setBlk { b with st := .active, serves := some q }
        let s := { s with ham := { s.ham with serves := s.ham.serves.set q 4, takeover := none } }
        (s.regionEvent 5 8 .hamperEngineSpare q 0 0).flushOutcomes)

end Sys2Proof.Machine
end

