-- ==== Sys2Proof/Machine/MemRows.lean ====
section
/-! DEFINITION. The commands of buffer memory (14_buffer_memory.md): memory errors, merge buffers, buffer draws and returns. -/

namespace Sys2Proof.Machine

/-! ### SRAM rows (R365) -/

/-- Repair entries of kind 1 or 2 for an array (Table 17-5).
Log 40 (DEDUCED). -/
def State.arrayRepairs (s : State) (array : Nat) : Nat :=
  (s.chip.repair.filter (fun e => (e.toNat / 2 ^ 60 = 1 || e.toNat / 2 ^ 60 = 2) && e.toNat / 2 ^ 32 % 65536 = array)).length

/-- A failing SRAM row is entered in the always-on store for repair at the next start; `EV_SRAM_SPARE_EXHAUSTED` where its array has
no spare left (R365). The channel names the array group of the partition, 4 KiB the row.
Log 40 (DEDUCED). -/
def State.sramRow (s : State) (p : Partition) (ch addr : Nat) : State :=
  let array := 16 * partNum p + ch
  let row := addr / 4096
  if partInDdr p || s.mem.aonRows.any (fun e => e.1 == array && e.2.1 == row) then s
  else
    let used := s.arrayRepairs array + (s.mem.aonRows.filter (fun e => e.1 == array)).length
    let s : State := { s with mem := { s.mem with aonRows := s.mem.aonRows ++ [(array, row, used)] } }
    if Config.sramSpares array ≤ used then s.raise (srcRegion 5 6) .sramSpareExhausted array row 0 else s

/-- `MEM_CORRECTED_ERROR` (R305, R306, R365): the codeword is written back and the error counted; a range or an SRAM row that
reaches `mem.remap.ce_count` within the window is remapped or entered for repair. A Bare code corrects nothing. -/
def execMemCorrectedError (part : Partition) (ch : Fin 8) (addr : Nat) (s : State) : Host.Outcome State Fault Refusal :=
  .next (
    let bare : Bool := part == .capture || part == .sramBare
    if s.sysHeld || !s.mem.filled || bare || (partInDdr part && !s.mem.channels.contains ch.val) then s
    else
      let s := s.corrected part ch.val addr
      let n := ((s.mem.ranges.find? (fun r => r.part == part && r.ch == ch.val && r.unit == s.rangeOf part addr)).map (fun r => r.times.length)).getD 0
      if s.liveN .memRemapCeCount ≤ n then s.sramRow part ch.val addr else s)

/-! ### Uncorrectable errors (R310, Table 14-4) -/

/-- All hampers, one after the other. -/
def State.eachHamper (s : State) (f : State → SlotId → Hamper → State) : State :=
  allSlots.foldl (fun s h => match s.slot h with
    | some x => f s h x
    | none => s) s

/-- A block of a buffer no longer agrees with its check.
Log 40 (DEDUCED). -/
def State.spoilBlock (s : State) (h i : Nat) : State :=
  let spoil := fun (b : Buf) => { b with checks := b.checks.mapIdx (fun j k => if j = i then ~~~(recCrc (b.blocks.getD j [])) else k) }
  { s with mem := { s.mem with bufs := s.mem.bufs.map (fun b => if b.handle = h then spoil b else b) } }

/-- A buffer holds staged write data, or a landed sector: Table 14-4's first two rows. -/
def State.bufferLost (s : State) (addr : Nat) : State :=
  let hd := addr / 65536
  let s := s.spoilBlock hd (addr % 65536 / 4096)
  s.eachHamper (fun s h x =>
    let s := s.stagedLost h (fun w => w.staged && w.buffers.contains hd) false
    let hit := x.landed.filter (fun l => l.buffers.contains hd)
    hit.foldl (fun s l =>
      let s := s.updHam h (fun x => { x with landed := x.landed.filter (fun m => !(m.seq == l.seq && m.pos == l.pos)) })
      (s.returnBufs l.buffers).wantSector h l.seq l.pos false) s)

/-- The journal (R234): 4 KiB of the header for each hamper's C and D, write records, then stripe records, four in a 4 KiB
range.
Log 39 (DESIGN CHOICE). -/
def State.journalLost (s : State) (addr : Nat) : State :=
  let all := fun (s : State) (h : SlotId) (x : Hamper) => s.stagedLost h (fun w => w.staged && decide (x.committed < w.ordinal)) true
  let rooms := journalRooms (s.bootN .memPartJournalMib)
  if addr < 65536 then s.eachHamper (fun s h x => if h.val = addr / 4096 then all s h x else s)
  else
    let k := (addr - 65536) / 4096
    if k < rooms.1 then s.eachHamper (fun s h _ => s.stagedLost h (fun w => w.staged && w.record && w.recNo == k) true)
    else
      let k := (addr - 65536 - 4096 * rooms.1) / 4096
      s.eachHamper (fun s h x => if x.stripes.any (fun t => t.recNo / 4 == k) then all s h x else s)

/-- The map entry of an extent map's 32 bytes (Table 14-2).
Log 39 (DESIGN CHOICE). -/
def State.mapEntryLost (s : State) (addr : Nat) : State :=
  let each := s.bootN .hamperMapMaxExtents
  let n := addr / 32
  s.eachHamper (fun s h x =>
    if h.val = n / max 1 each then
      match x.map[n % max 1 each]? with
      | some e => s.updHam h (fun x => { x with roCause := true, mapLost := e :: x.mapLost })
      | none => s
    else s)

/-- The bytes of a soft slot (Table 14-2). -/
def softSlotBytes : Nat := 5242880

/-- The bytes of a write store slot (Table 14-2). -/
def writeSlotBytes : Nat := 327680

/-- The pickup whose share of a partition holds an offset, `each` bytes for every pickup, and the offset in it. -/
def sharePickup (addr each : Nat) : Option (BayId × Pu × Nat) :=
  let k := addr / max 1 each
  if h : k / 2 < 32 then some (⟨k / 2, h⟩, if k % 2 = 0 then .A else .B, addr % max 1 each) else none

/-- The words of a slot with the eight from offset `first` on as `ERA`; words stand in a slot by part, track and bit, a byte
each. -/
def eraWords (first : Nat) (words : List (List Bytes)) : List (List Bytes) :=
  let era := fun (ws : List Bytes) (base : Nat) =>
    (ws.foldl (fun (a : List Bytes × Nat) w =>
      (a.1 ++ [w.mapIdx (fun i v => if first ≤ a.2 + i ∧ a.2 + i < first + 8 then 0x80#8 else v)], a.2 + w.length)) ([], base))
  (words.foldl (fun (a : List (List Bytes) × Nat) ws =>
    let r := era ws a.2
    (a.1 ++ [r.1], r.2)) ([], 0)).1

/-- The eight soft words of a codeword enter decoding as `ERA`.
Log 39 (DESIGN CHOICE). -/
def State.softLost (s : State) (addr : Nat) : State :=
  match sharePickup addr (softSlotBytes * s.bootN .eccSoftDepthSectors) with
  | none => s
  | some (b, p, o) => s.updPu b p (fun u => { u with slots := u.slots.mapIdx (fun i q =>
      if i = o / softSlotBytes then { q with words := eraWords (o % softSlotBytes / 8 * 8) q.words } else q) })

/-- A coded sector of the write store: before its first `SEGSTART` it is discarded and encoded again; after it, it is a failed
write.
Log 39 (DESIGN CHOICE). -/
def State.codedLost (s : State) (addr : Nat) : State :=
  match sharePickup addr (writeSlotBytes * s.bootN .memWstoreSlots) with
  | none => s
  | some (b, p, o) =>
    match (s.pu b p).write.store[o / writeSlotBytes]? with
    | none => s
    | some c =>
      if c.touched then s.failCoded b p c.sector
      else s.updPu b p (fun u => { u with write := { u.write with
        store := u.write.store.filter (fun x => x.sector != c.sector), queue := { c with coded := false, bits := [] } :: u.write.queue } })

/-- A checkpoint record of a control engine fails its check: the other one counts (R178). 64 KiB for each engine, half of it for each
record.
Log 39 (DESIGN CHOICE). -/
def State.checkpointLost (s : State) (addr : Nat) : State :=
  let k := addr / 65536
  let spoil := fun (e : EngCk) => if addr % 65536 < 32768 then { e with recA := [] } else { e with recB := [] }
  { s with blk := { s.blk with engines := s.blk.engines.map (fun e => if 7 * e.region + e.engine = k then spoil e else e) } }

/-- `MEM_UE` (R310, Table 14-4): counted, reported, handled by partition, and the range remapped. Addresses count from the start of
the partition.
Log 39 (DESIGN CHOICE). -/
def execMemUe (part : Partition) (ch : Fin 8) (addr : Nat) (s : State) : Host.Outcome State Fault Refusal :=
  .next (
    if s.sysHeld || !s.mem.filled || (partInDdr part && !s.mem.channels.contains ch.val) then s
    else
      let s : State := { s with mem := { s.mem with ue := bumpCount s.mem.ue part ch.val } }
      let s := s.raise (srcRegion 5 6) .memUe (partNum part) addr 0
      let s := match part with
        | .firmware => s
        | .contexts => s.chipFatal .contexts (partNum part) ch.val
        | .engine => s.checkpointLost addr
        | .journal => s.journalLost addr
        | .extentMaps => s.mapEntryLost addr
        | .buffers => s.bufferLost addr
        | .soft => s.softLost addr
        | .writeStore => s.codedLost addr
        | .capture => { s with mem := { s.mem with badCapture := addr :: s.mem.badCapture } }
        | .diag => s
        | .remap => s
        | .sramKeep => s.sramRow part ch.val addr
        | .sramPass => s.sramRow part ch.val addr
        | .sramBare => s.sramRow part ch.val addr
      s.remap part ch.val addr)

/-! ### Merge buffers (R307, R308) -/

/-- `MERGE_NARROW_WRITE` (R307): a write narrower than a codeword and within one merges into its entry, takes a free one, evicts
nothing here and waits while all 64 are busy; the oldest entry is retired for it by `MERGE_ENTRY_RETIRE`. -/
def execMergeNarrowWrite (ch : Fin 8) (addr : Nat) (data : Bytes) (s : State) : Host.Outcome State Fault Refusal :=
  .next (
    if s.sysHeld || !s.mem.filled || !s.mem.channels.contains ch.val || data.isEmpty || 64 < addr % 64 + data.length || s.blk.frozen then s
    else { s with mem := s.mem.narrowWrite s.us ch.val addr data })

/-- `MERGE_ENTRY_RETIRE` (R307, R308): the oldest entry of a channel retires when it has been held for `mem.merge.hold_ns` or is needed
for a new address; a write that waited takes its place. -/
def execMergeEntryRetire (ch : Fin 8) (readUncorrectable : Bool) (s : State) : Host.Outcome State Fault Refusal :=
  .next (
    match oldestEntry (s.mem.merge.filter (fun e => e.ch == ch.val)) with
    | none => s
    | some e =>
      let held : Bool := decide (s.liveN .memMergeHoldNs ≤ 1000 * (s.us - e.since))
      let needed := s.mem.mergeQ.any (fun w => w.ch == ch.val)
      if s.sysHeld || s.blk.frozen || !(held || needed) then s
      else { s with mem := (s.mem.retire e readUncorrectable).wakeMerge s.us ch.val })

/-! ### Buffers (R313 to R316) -/

/-- `BUFFER_DRAW` (R314): buffers for a requester; leaf baskets only are drawn from. -/
def execBufferDraw (basket : Fin 256) (count : Nat) (requester : Nat) (s : State) : Host.Outcome State Fault Refusal :=
  .next (if s.sysHeld || basket.val < 7 || basketClass s.bufCfg basket.val = 5
      || !basketThere s.bufCfg (partPickups s.trust.shadow.part) basket.val || count = 0 || s.mem.pool = 0 then s else s.drawBufs basket.val count requester)

/-- `BUFFER_RETURN` (R315): a buffer in use is freed. The null handle names none. -/
def execBufferReturn (handle : Nat) (s : State) : Host.Outcome State Fault Refusal :=
  .next (if s.sysHeld || handle = 0xFFFFFF || (s.buf? handle).isNone then s else s.returnBufs [handle])

end Sys2Proof.Machine
end

