-- ==== Sys2Proof/Machine/FaultRows.lean ====
section
/-! DEFINITION. Faults of the fabric, of duplex blocks, management cores and regions, chip-fatal errors (18_hierarchy_errors.md),
flash operations (R293), debug access (R406, R453), injections lifted (R421). -/

namespace Sys2Proof.Machine

/-! ### Regions and bays (R381, R382) -/

/-- A bay leaves service through a fault of the chip (R382): its pickups leave service and go off, and the island is asked to hold
it. -/
def State.bayLost (s : State) (b : BayId) : State := (((s.puOff b .A).puOff b .B).askHold b).after b

/-- A region is lost (R381): its bays are held safe. It is chip-fatal while more than one region is already degraded (R383). -/
def State.loseRegion (s : State) (r : Nat) : State :=
  if s.blk.lost.contains r then s
  else
    let already := (List.range 6).filter (fun q => s.regionExists q && (s.blk.degraded.contains q || s.blk.lost.contains q))
    let s : State := { s with blk := { s.blk with lost := r :: s.blk.lost } }
    let s := s.regionEvent r 0 .regionLost r 0 0
    let s := (allBays.filter (fun b => regionOf b == r && s.bayExists b)).foldl State.bayLost s
    if 1 < already.length then s.chipFatal .regions 13 0 else s

/-- `REGION_LOST` (R381, R394): the region's control heartbeat has been absent for 100 µs. -/
def execRegionLost (r : Fin 6) (s : State) : Host.Outcome State Fault Refusal :=
  onRegion r.val s (fun s => if s.sysHeld then s else s.loseRegion r.val)

/-! ### Duplex blocks (R376, R383) -/

/-- The kind of a duplex block (Table 18-3). -/
def duplexKind : DuplexKind → Nat
  | .queueEngine => 8
  | .pcie => 9
  | .crypto => 10
  | .ddr => 11
  | .pool => 12
  | .regionControl => 13
  | .fabricSwitch => 14

/-- The region that holds a duplex block: HR, MR, or the one named (Table 00-4). -/
def duplexRegion (k r : Nat) : Nat := if 8 ≤ k && k ≤ 10 then 4 else if k = 11 || k = 12 then 5 else r

/-- Duplex blocks of a kind in a region; of kind 14 only the switch is duplex. -/
def duplexCount (k : Nat) : Nat := if k = 11 then 8 else 1

/-- A duplex block has lost its last copy (R376): its region is lost, or the error is chip-fatal (R381, R383). -/
def State.lastCopyLost (s : State) (id : BlockId) : State :=
  let s := s.fence id
  if id.kind = 13 then s.loseRegion id.region else s.chipFatal .duplex id.kind id.inst

/-- One copy of a duplex block is fenced and the other continues alone; a simplex block loses its last copy (R376). -/
def State.copyLost (s : State) (id : BlockId) : State :=
  let b := s.blkOf id
  if b.st == .simplex then s.lastCopyLost id
  else ((s.setBlk { b with st := .simplex }).regionEvent id.region 11 .duplexSimplex id.kind id.inst 0).degrade id.region

/-- `DUPLEX_DISAGREE` (R376). `again` says that the copies still disagree after the one retry. -/
def execDuplexDisagree (kind : DuplexKind) (region : Nat) (inst : Nat) (which : DuplexWhich) (again : Bool) (s : State) :
    Host.Outcome State Fault Refusal :=
  onRegion (duplexRegion (duplexKind kind) region) s (fun s =>
    let k := duplexKind kind
    let id : BlockId := ⟨k, duplexRegion k region, inst⟩
    let inReset : Bool := s.coresHeld && (k == 8 || k == 10)
    if s.sysHeld || inReset || 6 ≤ id.region || duplexCount k ≤ inst || !(s.blkOf id).up then s
    else if (s.blkOf id).st == .simplex then s.lastCopyLost id
    else
      match which with
      | .first => s.copyLost id
      | .second => s.copyLost id
      | .neither => if again then s.lastCopyLost id else s
      | .both => if again then s.lastCopyLost id else s)

/-! ### The fabric (R373) -/

/-- A link resynchronizes its credit counts; with the third time within 1 s it is faulty (R373, Table 18-3). A region without a link
has lost its fabric port. -/
def State.creditResync (s : State) (r l : Nat) : State :=
  let s := (s.regionEvent r 5 .fabricCreditResync l 0 0).emit (.fabric r l 1)
  let now := s.us
  let recent := (r, l, now) :: s.blk.resyncs.filter (fun e => now < e.2.2 + 1000000)
  let s : State := { s with blk := { s.blk with resyncs := recent } }
  if (recent.filter (fun e => e.1 == r && e.2.1 == l)).length < 3 then s
  else
    let prov := s.provisional (fun t => t == (2, r, l))
    let s := (s.fence (linkBlock r l)).degrade r
    let s := s.setBlk { s.blkOf (linkBlock r l) with prov := prov }
    if (List.range 8).any (fun i => (s.blkOf (linkBlock r i)).up) then s else s.loseRegion r

/-- `CREDIT_AUDIT` (R373): every 1 ms. -/
def execCreditAudit (region : Fin 6) (link : Fin 8) (mismatch : Bool) (s : State) : Host.Outcome State Fault Refusal :=
  onRegion region.val s (fun s => if s.sysHeld || s.blk.frozen || !mismatch || !(s.blkOf (linkBlock region.val link.val)).up then s
    else s.creditResync region.val link.val)

/-- `CREDIT_STARVE` (R373). -/
def execCreditStarve (region : Fin 6) (link : Fin 8) (s : State) : Host.Outcome State Fault Refusal :=
  onRegion region.val s (fun s => if s.sysHeld || s.blk.frozen || !(s.blkOf (linkBlock region.val link.val)).up then s
    else s.creditResync region.val link.val)

/-! ### Management cores (R378) -/

/-- Admin commands of a core's functions without a journalled result are executed again from their start. Those that the hamper engines
carry out go on there.
Log 18 (DESIGN CHOICE). Log 43 (DEDUCED). -/
def State.restartAdmin (s : State) (n : Nat) : State :=
  let again := fun (c : Cmd) => decide (c.fn.val % 4 = n) && c.sr == 0 && c.phase == .started && (c.opc == 0x31 || c.opc == 0x40)
  let orders := (s.host.cmds.filter again).map (fun c => c.order)
  { s with
    host := { s.host with cmds := s.host.cmds.map (fun c => if again c then { c with phase := .waiting, todo := [] } else c) }
    flash := { s.flash with jobs := s.flash.jobs.filter (fun j => match j.order with
      | some o => !orders.contains o
      | none => true) } }

/-- A management core is faulty: fenced, its work goes to the spare from the work journal, or without one to the surviving cores.
Log 43 (DEDUCED). -/
def State.mgmtFaulty (s : State) (c code : Nat) : State :=
  let role := s.servedBy ⟨7, 4, c⟩
  let s := (s.fence ⟨7, 4, c⟩).regionEvent 4 9 .mgmtCoreFault c code 0
  match role with
  | none => s.degrade 4
  | some n =>
    let (got, s) := s.claimSpare ⟨7, 4, n⟩
    match got with
    | some _ => { s with blk := { s.blk with takeovers := ⟨4, 7, n, s.us⟩ :: s.blk.takeovers } }
    | none => s.restartAdmin n

/-- `MGMT_CORE_FAULT` (R378): no fault is detected during a core reset. -/
def execMgmtCoreFault (c : Fin 5) (cause : FaultCause) (s : State) : Host.Outcome State Fault Refusal :=
  .next (
    let code := match cause with
      | .check => 0
      | .store => 1
      | .stall => 2
    if s.coresHeld || !(s.blkOf ⟨7, 4, c.val⟩).up then s else s.mgmtFaulty c.val code)

/-- The spare management core takes over the oldest faulty core's work. -/
def State.mgmtTakeover (s : State) : State :=
  match s.blk.takeovers.reverse.find? (fun t => t.kind == 7) with
  | some t =>
    let s : State := { s with blk := { s.blk with takeovers := s.blk.takeovers.erase t } }
    (s.restartAdmin t.inst).regionEvent 4 9 .mgmtSpare t.inst 0 0
  | none => s

/-- `MGMT_TAKEOVER_DONE` (R378, R380). -/
def execMgmtTakeoverDone (s : State) : Host.Outcome State Fault Refusal := .next (if s.coresHeld then s else s.mgmtTakeover)

/-! ### A block of any kind fails (R340, R341, R365) -/

/-- A block out of service for good, handled as a faulty block of its kind (Table 18-3).
Log 43 (DEDUCED). -/
def State.blockFaulty (s : State) (id : BlockId) : State :=
  let r := id.region
  let i := id.inst
  if !(s.blkOf id).up then s
  else
    match id.kind with
    | 0 =>
      let (b, p) := portOf r i
      let s := ((s.fence id).degrade r).puOff b p
      let s := if (s.blkOf ⟨0, r, portInst b .A⟩).up || (s.blkOf ⟨0, r, portInst b .B⟩).up then s else s.askHold b
      s.after b
    | 1 => ((s.fence id).degrade r).bayLost (Fin.ofNat 32 (8 * r + i))
    | 2 => s.detectorFaulty r i
    | 3 => s.decoderFaulty r i
    | 4 => (((s.fence id).regionEvent r 3 .writeEncFault 0 0 0).claimSpare ⟨4, r, 0⟩).2
    | 5 => s.engineFaulty r i 0
    | 6 => s.hamperEngineFaulty i 0
    | 7 => s.mgmtFaulty i 0
    | _ => if id.kind = 14 && 0 < i then (s.fence id).degrade r else s.lastCopyLost id

/-- A block that the chip has: its kind, region and instance lie within Tables 00-4 and 18-3. -/
def State.blockExists (s : State) (id : BlockId) : Bool :=
  let bays : Bool := id.region < 4 && s.regionExists id.region
  let place : Bool :=
    if id.kind ≤ 5 then bays else if id.kind = 6 then id.region == 5
    else if id.kind ≤ 12 then id.region == (if id.kind = 7 then 4 else duplexRegion id.kind 0) else s.regionExists id.region
  place && decide (id.kind ≤ 14) && decide (id.inst < kindCount id.kind)

/-! ### Chip-fatal errors (R383, R384) -/

/-- `CHIP_FATAL` (R383). -/
def execChipFatal (cause : FatalCause) (kind : Nat) (inst : Nat) (s : State) : Host.Outcome State Fault Refusal :=
  .next (if s.sysHeld then s else s.chipFatal cause kind inst)

/-- The crash record is done with, written or abandoned: the island's system reset follows. -/
def State.fatalReset (s : State) : State :=
  State.assertSystem { s with
    chip := { s.chip with crash := none }
    flash := { s.flash with jobs := s.flash.jobs.filter (fun j => j.op != .crashRecord) } } 4

/-- `CRASH_RECORD_APPEND` (R383, R384): the program of the captured record starts, or the record is abandoned at 50 ms. -/
def execCrashRecordAppend (s : State) : Host.Outcome State Fault Refusal :=
  .next (match s.chip.crash with
    | none => s
    | some r =>
      if s.sysHeld then s
      else if s.chip.fatalAt + 50000 ≤ s.us then s.fatalReset
      else if s.flash.jobs.any (fun j => j.op == .crashRecord) then s
      else s.flashJob ⟨.crashRecord, 0, r, 0, none, none⟩)

/-- A crash record in the log: at the first erased unit, or over the oldest one, erased for it (R384).
Log 43 (DEDUCED). -/
def Flash.crashPut (f : Flash) (r : Bytes) : Flash :=
  match f.region 7 with
  | none => f
  | some (o, n) =>
    let units := (List.range (n / 65536)).map (fun i => o + 65536 * i)
    let f := { f with crashSeq := f.crashSeq + 1 }
    match units.find? (fun u => f.isBlank u 65536) with
    | some u => f.program u r
    | none =>
      let oldest := units.foldl (fun (a : Option Nat) u => match a with
        | some v => if leAt (f.read u 16) 8 8 < leAt (f.read v 16) 8 8 then some u else a
        | none => some u) none
      match oldest with
      | some u => (f.eraseAt u 65536).program u r
      | none => f

/-! ### Flash operations (R293, R322, R367, R384) -/

/-- The first flash operation of a purpose, and the flash without it. -/
def State.takeJob (s : State) (op : FlashOp) : Option FlashJob × State :=
  match s.flash.jobs.find? (fun j => j.op == op) with
  | some j => (some j, { s with flash := { s.flash with jobs := s.flash.jobs.erase j } })
  | none => (none, s)

/-- An operation that has failed is started again. -/
def State.retryJob (s : State) (j : FlashJob) : State := s.flashJob { j with tries := j.tries + 1 }

/-- The end of one flash operation.
Log 38 (DEDUCED). -/
def State.jobDone (s : State) (j : FlashJob) (good : Bool) : State :=
  match j.op with
  | .stageErase =>
    if !good then s.retryJob j
    else
      let n := (((List.range 2).filterMap (fun i => s.flash.region (1 + i)) ++ (List.range 2).filterMap (fun i => s.flash.region (3 + i))).find?
        (fun e => e.1 == j.offset)).elim 0 (fun e => e.2)
      let s : State := { s with flash := s.flash.eraseAt j.offset n }
      (match j.order with
       | some o => s.stageNext o
       | none => s)
  | .stageChunk =>
    if !good then s.retryJob j
    else
      let s : State := { s with flash := s.flash.program j.offset j.data }
      (match j.order with
       | some o => s.stageNext o
       | none => s)
  | .bootRecord => if good then s.commitDone j.offset j.order else s.retryJob j
  | .calRecord =>
    if good then { s with flash := (s.flash.calCompact).calPut j.data }
    else
      -- the place is used up; after the second failed read-back the values stay unrecorded (R367)
      let s : State := { s with flash := (s.flash.calCompact).calPut (Config.freeBytes s.free 4096), free := s.free + 1 }
      if j.tries = 0 then s.retryJob j
      else
        (match j.unit with
         | some (b, u) => s.raiseBay b (14 + u % 2) .calRecordFail b.val u
         | none => s)
  | .crashRecord => if good then State.fatalReset { s with flash := s.flash.crashPut j.data } else s.retryJob j

/-- `FLASH_ERASE_PROGRAM_DONE`: the oldest operation of a purpose ends. -/
def execFlashEraseProgramDone (op : FlashOp) (good : Bool) (s : State) : Host.Outcome State Fault Refusal :=
  .next (if s.sysHeld then s
    else
      match s.takeJob op with
      | (some j, s) => s.jobDone j good
      | (none, s) => s)

/-! ### Event rates, debug access -/

/-- `EVENT_RATE_WINDOW` (R429): counts restart at each whole second of `TIME`; suppressed counts stay for the next record.
Log 44 (DESIGN CHOICE). -/
def execEventRateWindow (s : State) : Host.Outcome State Fault Refusal :=
  .next { s with ev := { s.ev with rates := s.ev.rates.map (fun r => { r with count := 0 }) } }

/-- `JTAG_DEBUG_UNLOCK` (R406, R453): slot 5 is extended. What is digested of an unlock is not stated.
Log 43 (DEDUCED). -/
def execJtagDebugUnlock (s : State) : Host.Outcome State Fault Refusal :=
  .next (
    let (k, s) := s.draw
    let s := s.extend 5 6 3 0xFF 0 0 [] (padTo 64 (Config.freeBytes k 64))
    { s with trust := { s.trust with jtagOpen := true } })

/-- `TRST_N_RESET` (R453): the debug logic is reset. -/
def execTrstNReset (s : State) : Host.Outcome State Fault Refusal := .next { s with trust := { s.trust with jtagOpen := false } }

/-! ### Injections lifted (R421) -/

/-- The head-link consequence of an ended injection is lifted: a provisional retirement of its lane. -/
def State.liftLane (s : State) (i : Inject) (b : BayId) : State :=
  let lane := i.target.2.2
  let p := injPu lane
  let ph := injLane lane
  if lane % 4 < 3 && ((s.link b p).lane ph).prov then
    (s.updLink b p (fun l => l.updLane ph (fun x => { x with retired := false, prov := false }))).raise i.src .injectLifted i.id 0 0
  else s

/-- The fabric consequence: the link or a block failed by it returns after a block reset. -/
def State.liftBlocks (s : State) (i : Inject) : State :=
  let hit := s.blk.blks.filter (fun x => x.prov && x.id.region == i.target.2.1 && x.id == linkBlock i.target.2.1 i.target.2.2)
  hit.foldl (fun s x =>
    let s : State := { s with blk := { s.blk with
      blks := s.blk.blks.filter (fun y => y.id != x.id), resets := s.blk.resets + 1
      resyncs := s.blk.resyncs.filter (fun e => !(e.1 == i.target.2.1 && e.2.1 == i.target.2.2)) } }
    s.raise i.src .injectLifted i.id 0 0) s

/-- `INJECT_LIFT` (R421): 1 s after an injection ended.
Log 20 (DESIGN CHOICE). -/
def execInjectLift (id : BitVec 16) (s : State) : Host.Outcome State Fault Refusal :=
  .next (match s.inj.list.find? (fun i => i.id == id.toNat) with
    | none => s
    | some i =>
      match i.st, i.endedAt with
      | .ended, some t =>
        if s.us < t + 1000000 || s.sysHeld then s
        else
          let (kind, tb, lane) := i.target
          let s := if kind = 2 then s.liftBlocks i
            else if h : tb < 32 then
              let b : BayId := ⟨tb, h⟩
              if kind = 0 then s.liftLane i b
              else if kind = 3 then s.liftElements b (if lane / 32 % 2 = 0 then .A else .B) i.id (lane % 32)
              else s
            else s
          { s with inj := { s.inj with list := s.inj.list.filter (fun j => j.id != i.id) } }
      | _, _ => s)

end Sys2Proof.Machine
end

