-- ==== Sys2Proof/Machine/ChipRows.lean ====
section
/-! DEFINITION. Reset sources, the watchdog, clocks, bring-up (16_clocks_resets_bringup.md), supplies and temperature
(23_electrical_package.md). -/

namespace Sys2Proof.Machine

/-! ### Reset sources (Table 16-2, R343 to R350) -/

/-- `POWER_ON_RESET` (R346): `PORST_N` or a supply monitor. -/
def execPowerOnReset (s : State) : Host.Outcome State Fault Refusal := .next s.assertPower

/-- `SUPPLY_MONITOR_TRIP` (R442): a power-on reset, one for all rails. -/
def execSupplyMonitorTrip (_rail : Rail) (s : State) : Host.Outcome State Fault Refusal :=
  .next (if s.chip.rst.porst then s else s.assertPower)

/-- `VDD_AON_TRIP` (R349, R442): the always-on store is lost; the chip is not reset.
Log 42 (DEDUCED). -/
def execVddAonTrip (s : State) : Host.Outcome State Fault Refusal :=
  .next { s with
    mem := { s.mem with aonRows := [], aonRemaps := [] }, chip := { s.chip with power := { s.chip.power with aonOk := false } } }

/-- `SYSRST_N_ASSERT` (R346). -/
def execSysrstNAssert (s : State) : Host.Outcome State Fault Refusal := .next (s.assertSystem 1)

/-- `PE_PERST_SYSTEM` (R343). -/
def execPePerstSystem (s : State) : Host.Outcome State Fault Refusal :=
  .next (if s.trust.shadow.perstSys then s.assertSystem 2 else s)

/-- `RESET_RELEASE` (R345, R350): a source, by its bit in Table 16-2, deasserts. A power-on release says that every rail holds.
Log 42 (DEDUCED). -/
def execResetRelease (source : Nat) (s : State) : Host.Outcome State Fault Refusal :=
  .next (
    let s := s.releaseSource source
    if source = 0 then { s with chip := { s.chip with power := { s.chip.power with aonOk := true } } } else s)

/-! ### The watchdog (R344) -/

/-- `WATCHDOG_KICK` (R344): given by loaded firmware after step 6; it arms the watchdog and clears both stages. -/
def execWatchdogKick (s : State) : Host.Outcome State Fault Refusal :=
  .next (if s.coresHeld || !s.chip.up.cores || s.chip.up.step < 6 then s
    else { s with chip := { s.chip with wdog := ⟨true, s.us, none⟩ } })

/-- `WATCHDOG_FIRST_STAGE` (R344): 1 s without a kick. -/
def execWatchdogFirstStage (s : State) : Host.Outcome State Fault Refusal :=
  .next (
    let w := s.chip.wdog
    if s.sysHeld || !w.armed || w.first.isSome || s.us < w.kicked + 1000000 then s
    else
      let s := s.coresLost
      State.assertCore { s with chip := { s.chip with wdog := { w with first := some s.us } } } 8)

/-- `WATCHDOG_FINAL_STAGE` (R344): 2 s without a kick after the first stage. -/
def execWatchdogFinalStage (s : State) : Host.Outcome State Fault Refusal :=
  .next (match s.chip.wdog.first with
    | some t => if s.sysHeld || s.us < t + 2000000 then s else s.assertSystem 3
    | none => s)

/-- `CORE_RESET_RELEASE` (R347, R378): 10 µs after assertion at the earliest. A firmware copy that fails its check halts the cores; a core
that fails its own start check is replaced before the queue engine resumes. The release of a firmware activation is
`FW_START_RESULT`. -/
def execCoreResetRelease (copyGood : Bool) (failed : List (Fin 5)) (s : State) : Host.Outcome State Fault Refusal :=
  .next (match s.chip.rst.core with
    | none => s
    | some t =>
      let activation := match s.host.act with
        | some a => a.drained && a.mode == 0
        | none => false
      if s.sysHeld || s.us < t + 10 || activation || !s.chip.up.cores then s
      else if !copyGood then { s with chip := { s.chip with up := { s.chip.up with cores := false } } }
      else
        let s := failed.foldl (fun s c => if (s.blkOf ⟨7, 4, c.val⟩).up then (s.mgmtFaulty c.val 0).mgmtTakeover else s) s
        match s.host.act with
        | some a => if a.drained then s.actEnd a.order .success else s.coresReturn.doeResume
        | none => s.coresReturn.doeResume)

/-! ### Blocks and clocks (R340 to R342, R348) -/

/-- `BLOCK_RESET_REQUEST` (R348): granted and counted for an idle block in service; otherwise refused `BUSY`, and nothing changes. The
2 µs that it holds the block are over when the command ends.
Log 24 (DESIGN CHOICE). -/
def execBlockResetRequest (blk : BlockId) (idle : Bool) (s : State) : Host.Outcome State Fault Refusal :=
  .next (if s.sysHeld || !idle || !s.blockExists blk || !(s.blkOf blk).up then s
    else { s with blk := { s.blk with resets := s.blk.resets + 1 } })

/-- A block's clock fails it (R340, R341): reported, fenced and handled as faulty. -/
def State.clockFail (s : State) (id : BlockId) : State :=
  if s.sysHeld || !s.blockExists id || !(s.blkOf id).up then s
  else (s.regionEvent id.region 10 .clkBlockFail id.kind id.inst 0).blockFaulty id

/-- `CLOCK_RELEASE_TIMEOUT` (R340). -/
def execClockReleaseTimeout (blk : BlockId) (s : State) : Host.Outcome State Fault Refusal := .next (s.clockFail blk)

/-- `CLOCK_GOOD_LOSS` (R341): of a block that is out of reset; the cores are not during a core reset. -/
def execClockGoodLoss (blk : BlockId) (s : State) : Host.Outcome State Fault Refusal :=
  .next (
    let core : Bool := (5 ≤ blk.kind && blk.kind ≤ 8) || blk.kind == 10
    if s.coresHeld && core then s else s.clockFail blk)

/-- `ROOT_LOST` (R342): the island takes every output low and requests a system reset. -/
def execRootLost (s : State) : Host.Outcome State Fault Refusal :=
  .next (if !s.islandUp || !s.isl.rootOk then s
    else
      let s := (s.raise 961 .safetyRootLost 0 0 0).dropAll
      let s : State := { s with isl := { s.isl with rootOk := false }, chip := { s.chip with clk := { s.chip.clk with locked := false } } }
      s.assertSystem 4)

/-- `DDR_PLL_UNLOCK` (R342, R383): chip-fatal. -/
def execDdrPllUnlock (s : State) : Host.Outcome State Fault Refusal :=
  .next (if s.sysHeld || !s.chip.clk.ddrLock then s
    else State.chipFatal { s with chip := { s.chip with clk := { s.chip.clk with ddrLock := false } } } .ddrPll 0 0)

/-! ### The repair record (R349, R368) -/

/-- A valid page of the repair record. -/
def repairGood (r : Bytes) : Bool := slice r 0 4 == ascii "YRPR" && recordGood 4096 r && decide (leAt r 16 4 ≤ 507)

/-- The page positions of a half. -/
def Flash.repairPlaces (f : Flash) (h : Nat) : List Nat :=
  match f.region 6 with
  | none => []
  | some (o, n) => (List.range (n / 2 / 4096)).map (fun i => o + n / 2 * h + 4096 * i)

/-- Valid pages of a half. -/
def Flash.repairPages (f : Flash) (h : Nat) : List Bytes :=
  ((f.repairPlaces h).map (fun a => f.read a 4096)).filter repairGood

/-- The highest sequence of a half, 0 without a page. -/
def Flash.repairTop (f : Flash) (h : Nat) : Nat := (f.repairPages h).foldl (fun a r => max a (leAt r 8 8)) 0

/-- The half in use. -/
def Flash.repairHalf (f : Flash) : Nat := if f.repairTop 0 < f.repairTop 1 then 1 else 0

/-- A page inserted into pages of rising sequence. -/
def insertPage (r : Bytes) : List Bytes → List Bytes
  | [] => [r]
  | p :: ps => if leAt r 8 8 ≤ leAt p 8 8 then r :: p :: ps else p :: insertPage r ps

/-- What an entry is about (Table 17-5): an SRAM row or column, a device row, a range of a channel. -/
def repairPlace (e : BitVec 64) : Nat :=
  let k := e.toNat / 2 ^ 60
  if k = 4 then e.toNat / 2 ^ 28 * 2 ^ 28 else if k = 3 then e.toNat else e.toNat / 2 ^ 16 * 2 ^ 16

/-- Entries in order, a later one replacing an earlier one of its place. -/
def liveRepairs (l : List (BitVec 64)) : List (BitVec 64) :=
  l.foldl (fun a e => a.filter (fun x => repairPlace x != repairPlace e) ++ [e]) []

/-- The entries that apply: those of every valid page of the half in use, in sequence order. -/
def Flash.repairLive (f : Flash) : List (BitVec 64) :=
  let pages := (f.repairPages f.repairHalf).foldl (fun l r => insertPage r l) []
  liveRepairs (pages.flatMap (fun r => (List.range (leAt r 16 4)).map (fun i => BitVec.ofNat 64 (leAt r (32 + 8 * i) 8))))

/-- A list in pieces of 507. -/
def pieces507 : Nat → List (BitVec 64) → List (List (BitVec 64))
  | 0, _ => []
  | n + 1, l => if l.isEmpty then [] else l.take 507 :: pieces507 n (l.drop 507)

/-- A page of entries. -/
def repairPage (seq : Nat) (es : List (BitVec 64)) : Bytes :=
  sealRecord 4096 (padTo 4092 (padTo 32 (ascii "YRPR" ++ zeros 4 ++ leBytes 8 seq ++ leBytes 4 es.length)
    ++ es.flatMap (fun e => leBytes 8 e.toNat)))

/-- Pages written at positions, with rising sequences. -/
def Flash.repairWrite (f : Flash) (places : List Nat) (seq : Nat) (es : List (List (BitVec 64))) : Flash :=
  (places.zip es).zipIdx.foldl (fun f e => f.program e.1.1 (repairPage (seq + e.2) e.1.2)) f

/-- New entries appended: in the half in use, or with the live entries in the other half, the first then erased; none where the live
entries alone fill a half (R368). -/
def Flash.repairAppend (f : Flash) (new : List (BitVec 64)) : Option Flash :=
  let h := f.repairHalf
  let seq := max (f.repairTop 0) (f.repairTop 1) + 1
  let free := (f.repairPlaces h).filter (fun a => f.isBlank a 4096)
  let es := pieces507 (new.length + 1) new
  if es.length ≤ free.length then some (f.repairWrite free seq es)
  else
    let live := liveRepairs (f.repairLive ++ new)
    let es := pieces507 (live.length + 1) live
    let other := f.repairPlaces (1 - h)
    let size := 4096 * other.length
    if other.length ≤ es.length then none
    else
      let f := f.eraseAt (other.headD 0) size
      let f := f.repairWrite other seq es
      some (f.eraseAt ((f.repairPlaces h).headD 0) size)

/-- The entry of a remap made since the last start: a hard post-package repair where the device has a spare row (R306). -/
def remapEntry (r : Remap) : BitVec 64 :=
  match Config.pprRow r.ch r.unit with
  | some row => BitVec.ofNat 64 (3 * 2 ^ 60 + r.ch * 2 ^ 52 + row % 2 ^ 30 * 2 ^ 22)
  | none => BitVec.ofNat 64 (4 * 2 ^ 60 + r.ch * 2 ^ 52 + r.unit * 2 ^ 28 + r.dest * 2 ^ 15)

/-- The remaps of a list of entries (kind 4 of Table 17-5). -/
def entryRemaps (l : List (BitVec 64)) : List Remap :=
  (l.filter (fun e => e.toNat / 2 ^ 60 = 4)).map (fun e =>
    ⟨e.toNat / 2 ^ 52 % 16, e.toNat / 2 ^ 28 % 2 ^ 24, e.toNat / 2 ^ 15 % 2 ^ 13⟩)

/-- The hardware loader before the memory fill (R309, R349, R365): the always-on store goes into the repair record and is cleared, the
record applies, and a block with an array that has no spare left is out of service.
Log 41 (DEDUCED). -/
def State.applyRepairs (s : State) : State :=
  let able := s.mem.aonRows.filter (fun e => decide (e.2.2 < Config.sramSpares e.1))
  let lost := s.mem.aonRows.filter (fun e => !decide (e.2.2 < Config.sramSpares e.1))
  let new := able.map (fun e => BitVec.ofNat 64 (2 ^ 60 + e.1 % 2 ^ 16 * 2 ^ 32 + e.2.1 % 2 ^ 16 * 2 ^ 16 + e.2.2 % 2 ^ 16))
    ++ s.mem.aonRemaps.map remapEntry
  let s := if new.isEmpty then { s with mem := { s.mem with aonRows := [] } }
    else
      match s.flash.repairAppend new with
      | some f => { s with flash := f, mem := { s.mem with aonRows := [], aonRemaps := [] } }
      | none => s.raise 963 .repairRecordFull 0 0 0
  let live := s.flash.repairLive
  let s : State := { s with
    mem := { s.mem with remaps := entryRemaps live }
    chip := { s.chip with repair := live, repairSeq := max (s.flash.repairTop 0) (s.flash.repairTop 1) } }
  lost.foldl (fun s e =>
    let (k, r, i) := Config.arrayBlock e.1
    let id : BlockId := ⟨k, r, i⟩
    if !s.blockExists id || !(s.blkOf id).up then s
    else if 8 ≤ k then s.copyLost id
    else s.blockFaulty id) s

/-! ### Bring-up (R352, Table 16-5) -/

/-- The transfer rates of `mem.ddr.max_rate`.
Log 41 (DEDUCED). -/
def ddrRate (n : Nat) : Nat := if n = 0 then 7200 else if n = 1 then 8000 else 8800

/-- The channels memory is interleaved over (R302): all 8; else the first aligned 4 that work, else the first aligned 2. -/
def ddrChannels (work : Nat → Bool) : List Nat :=
  let set := fun (n : Nat) => (List.range (8 / n)).map (fun g => (List.range n).map (fun i => n * g + i))
  match (set 8 ++ set 4 ++ set 2).find? (fun l => l.all work) with
  | some l => l
  | none => []

/-- A step completes: `STAGE` names it and the next begins. -/
def State.stepDone (s : State) (n : Nat) : State :=
  State.bumpGen { s with
    host := { s.host with stage := n }, chip := { s.chip with up := { s.chip.up with step := n, fails := 0 } } }

/-- A step fails: it is tried again, up to `most` failures; then the chip stops there. -/
def State.stepFails (s : State) (most : Nat) : State :=
  let n := s.chip.up.fails + 1
  { s with chip := { s.chip with up := { s.chip.up with fails := n, stopped := decide (most ≤ n) } } }

/-- The cores halt. -/
def State.coresHalt (s : State) (stop : Bool) : State :=
  { s with chip := { s.chip with up := { s.chip.up with cores := false, stopped := stop } } }

/-- Step 1: the fuses are loaded, the pins take their fuse states, the PCI Express controller is released.
Log 41 (DEDUCED). -/
def State.stepFuses (s : State) (ok : Bool) : State :=
  if !ok then s.stepFails 3
  else
    let s : State := { s with
      trust := { s.trust with shadow := s.trust.fuses }
      chip := { s.chip with up := { s.chip.up with fused := true } }
      host := { s.host with fns := if s.host.fns.isEmpty then [Fn.fresh 0] else s.host.fns } }
    s.stepDone 1

/-- Step 2: the island has passed its self-test, or every output stays low and no bay is brought up.
Log 41 (DEDUCED). -/
def State.stepIsland (s : State) (ok : Bool) : State :=
  if s.isl.halted then s.stepDone 2
  else if ok then State.stepDone { s with isl := { s.isl with passed := true } } 2
  else (s.islandFail .safetySelftestFail).stepDone 2

/-- Step 3: ROOT is locked and the clocks are good; the timebase counts from here (R338).
Log 41 (DEDUCED). -/
def State.stepRoot (s : State) (ok : Bool) : State :=
  if !ok then s.stepFails 4
  else
    State.stepDone { s with
      isl := { s.isl with rootOk := true }, chip := { s.chip with clk := { s.chip.clk with locked := true, time := 0, slew := 0 } } } 3

/-- Step 4: the repair record is applied, memory trained and filled (R302, R309, R349). `rates` gives each channel's rate, 0 where it
failed at 7,200 MT/s.
Log 41 (DEDUCED). -/
def State.stepMemory (s : State) (ok : Bool) (rates : List Nat) : State :=
  let most := ddrRate (s.bootN .memDdrMaxRate)
  let rate := fun (c : Nat) => min (rates.getD c 0) most
  let chans := ddrChannels (fun c => rate c != 0)
  if !ok then s.stepFails 1
  else
    let bad := (List.range 8).filter (fun c => rate c == 0)
    let s := bad.foldl (fun s c => s.raise (srcRegion 5 6) .ddrChannelFail c 0 0) s
    if chans.isEmpty then s.stepFails 1
    else
      let low := (chans.map rate).foldl (fun a v => min a v) most
      let s := if low < most then s.raise (srcRegion 5 6) .ddrDegraded low 0 0 else s
      let s := s.applyRepairs
      let crash := ((s.flash.crashNewest).map (fun r => leAt r 8 8)).getD 0
      State.stepDone { s with
        mem := { s.mem with ddr := [], rate := low, channels := chans, filled := true }
        flash := { s.flash with crashSeq := crash }
        chip := { s.chip with clk := { s.chip.clk with ddrLock := true } } } 4

/-- Step 5: fuse state and island ROM are measured, then the loaders until one is accepted (R405). -/
def State.stepLoader (s : State) (ok : Bool) : State :=
  let s := s.extend 3 4 3 0xFF 0 0 [] (fuseDigest s.trust.shadow)
  let s := s.extend 4 5 3 0xFF 0 0 [] (padTo 64 Config.islandRomDigest)
  let fw := s.flash.boot.fw
  let (a, s) := s.measureCode true fw
  let start := fun (s : State) (slot : Nat) => State.stepDone { s with trust := { s.trust with fwSlot := slot } } 5
  if a && ok then start s fw
  else
    let (b, s) := s.measureCode true (1 - fw)
    if b && ok then start s (1 - fw) else s.coresHalt true

/-- Step 6: the firmware of the loader's own slot is measured first, then the other's; a start from the slot that the boot-state record
does not name is recorded (R405). -/
def State.stepFirmware (s : State) (ok : Bool) : State :=
  let own := s.trust.fwSlot
  let start := fun (s : State) (slot : Nat) =>
    let b := s.flash.boot
    let f := if b.fw = slot then s.flash
      else s.flash.bootAppend { b with fw := slot, states := (b.states.set (2 + slot) 1).set (2 + (1 - slot)) 2 }
    let v := imgSeq (fwPart (s.flash.regionBytes (3 + slot)) false)
    State.stepDone { s with
      flash := f, trust := { s.trust with fwSlot := slot, fwVersion := v, staged := 0 }
      chip := { s.chip with up := { s.chip.up with cores := true } } } 6
  let (a, s) := s.measureCode false own
  if a && ok then start s own
  else
    let (b, s) := s.measureCode false (1 - own)
    if b && ok then start s (1 - own) else s.coresHalt true

/-- Step 7: the image is selected, its fields are in force, the pool is laid out (R303, R313, R327, R335). -/
def State.stepImage (s : State) : State :=
  let s := s.selectImage.islandStart
  State.stepDone { s with mem := s.mem.poolInit s.cfg.boot (partPickups s.trust.shadow.part) } 7

/-- Step 8: the queue engine runs and the PF is ready. -/
def State.stepHost (s : State) (ok : Bool) : State :=
  if !ok then s.coresHalt true
  else
    let s : State := { s with
      host := { s.host with ready := true }, chip := { s.chip with up := { s.chip.up with at8 := s.us } } }
    (s.fnReady 0).stepDone 8

/-- No bay can be brought up: the island has not passed, the agent has lost it, or the banks are absent (R327, R394, Table 16-5).
Log 41 (DEDUCED). -/
def State.noBays (s : State) : Bool := !s.isl.passed || s.isl.agentLost || !s.cfg.found

/-- A bay is ready, or its attempt has ended with its event. -/
def State.bayDone (s : State) (b : BayId) : Bool :=
  let y := s.bay b
  let ended := fun (u : Pickup) => u.ms.st == .failed || u.cal.retired || u.link.st == .failed
  !s.bayExists b || y.ready || s.noBays || y.disc.empty || y.disc.rejected.isSome || y.spindle.st == .fault || y.mlink.st == .failed
    || (ended y.pa && ended y.pb) || !s.mportUp b

/-- `BRINGUP_STEP` (R352, Table 16-5): the step after the highest completed one ends, well or not.
Log 24 (DESIGN CHOICE). Log 41 (DEDUCED). -/
def execBringupStep (ok : Bool) (rates : List Nat) (s : State) : Host.Outcome State Fault Refusal :=
  .next (if s.sysHeld || s.chip.up.stopped || s.chip.fatal.isSome then s
    else
      match s.chip.up.step with
      | 0 => s.stepFuses ok
      | 1 => s.stepIsland ok
      | 2 => s.stepRoot ok
      | 3 => s.stepMemory ok rates
      | 4 => s.stepLoader ok
      | 5 => s.stepFirmware ok
      | 6 => if ok then s.stepImage else s
      | 7 => s.stepHost ok
      | 8 => if allBays.all s.bayDone then s.stepDone 9 else s
      | 9 => if s.anyMounting then s else s.stepDone 10
      | _ => s)

/-- `BAY_BRINGUP_START` (R353): 50 ms × b after step 8 the bay's links train; its spindle start is issued once the motor link is
active. -/
def execBayBringupStart (b : BayId) (s : State) : Host.Outcome State Fault Refusal :=
  withBay b s (fun s =>
    if s.coresHeld || s.chip.up.step < 8 || s.us < s.chip.up.at8 + 50000 * b.val || s.noBays || !s.mportUp b then s
    else
      let s := ([.A, .B] : List Pu).foldl (fun s p => if (s.link b p).st == .down && s.portUp b p then s.linkTrain b p else s) s
      if (s.bay b).mlink.st == .active then
        (if (s.bay b).spindle.st == .stopped then s.enterCatch b .start else s)
      else
        let now := s.us
        let s := s.updBay b (fun y => { y with upAt := some now })
        if (s.bay b).mlink.st == .down then s.mlinkTrain b else s)

/-- `HBEAT_INCREMENT` (R259, R346): every 1 ms while the queue engine runs, and still during a core reset. -/
def execHbeatIncrement (s : State) : Host.Outcome State Fault Refusal :=
  .next (if s.sysHeld || !s.host.ready || s.chip.fatal.isSome || (!s.chip.up.cores && s.chip.rst.core.isNone) then s
    else State.bumpGen { s with host := { s.host with hbeat := (s.host.hbeat + 1) % 2 ^ 32 } })

/-! ### Temperature and the core supply (R443, R445) -/

/-- `THERMAL_TRIP` (R445): `THERMTRIP_N` low until power-on reset, every safety output low, also during a system reset. -/
def execThermalTrip (s : State) : Host.Outcome State Fault Refusal :=
  .next (if s.chip.power.tripped then s.dropAll
    else
      let s : State := { s with chip := { s.chip with power := { s.chip.power with tripped := true } } }
      (s.emit (.pin "THERMTRIP_N" false)).dropAll)

/-- `AVS_SET_POINT` (R443): after step 3, from 680 to 800 mV, by at most 10 mV; after three writes in a row without acknowledge the
controller stops writing. -/
def execAvsSetPoint (millivolts : Nat) (acked : Bool) (s : State) : Host.Outcome State Fault Refusal :=
  .next (
    let w := s.chip.power
    let near : Bool := millivolts ≤ w.avs + 10 && w.avs ≤ millivolts + 10
    if s.sysHeld || s.chip.up.step < 3 || millivolts < 680 || 800 < millivolts || !near || 3 ≤ w.avsFails then s
    else
      let s := s.emit (.avs millivolts)
      { s with chip := { s.chip with power :=
        if acked then { w with avs := millivolts, avsFails := 0 } else { w with avsFails := w.avsFails + 1 } } })

end Sys2Proof.Machine
end

