-- ==== Sys2Proof/Machine/LinkRows.lean ====
section
/-! DEFINITION. The commands of the head link that concern its control operations, its training and its lanes (R50 to R62,
R456). -/

namespace Sys2Proof.Machine

/-! ### Operations -/

/-- A pickup enters one-lane mode on a lane (R58): the map names it twice, the link is `ACTIVE`, and the pickup neither reads
nor writes. -/
def State.enterOneLane (s : State) (b : BayId) (p : Pu) (ph : PhysLane) : State :=
  let s := s.laneMap b p ph ph
  let s := s.updLink b p (fun l => { l with oneLane := true, st := .active, since := s.us })
  s.leaveService b p

/-- The failed logical lane moves onto `UPS` (R57 step 1), the other staying on the sound lane.
Log 22 (DEDUCED). -/
def State.spareTakeover (s : State) (b : BayId) (p : Pu) (bad : PhysLane) : State :=
  let l := s.link b p
  let m := (l.bestMap true).getD (if l.map0 == bad then (.UPS, .UP1) else (.UP0, .UPS))
  ((s.laneMap b p m.1 m.2).setSpare b (.carrying p)).raisePu b p 6 .hlinkSpareTakeover

/-- The link leaves `UP_TRAIN` through `IDENTIFY` (R53): an unsupported head module ends in `FAILED` without a retry;
otherwise a `TRAIN` frame with `GO` is sent and the link is `ACTIVE`, with T and every `SEQ` at 0. -/
def State.identifyGo (s : State) (b : BayId) (p : Pu) : State :=
  let d := ((s.link b p).ident).getD []
  if beAt d 4 2 ≠ 1 ∨ byteAt d 34 / 2 % 2 = 0 ∨ byteAt d 35 ≠ 7 then
    (((s.updLink b p (fun l => { l with st := .failed, since := s.us, noRetry := true })).emit (.headLine b p 0)).raisePu b p 6
      .hmUnsupported)
  else
    let s := s.updLink b p (fun l => { l with st := .identify, since := s.us })
    let s := s.sendHead b p 15 0 (trainPayload true)
    let go := fun (x : Lane) => { x with seq := some 0, errs := [], crcRun := 0 }
    let s := s.loadCal b p
    s.updPu b p (fun u => { u with
      link := { u.link with
        st := .active, since := s.us, attempts := 0, up0 := go u.link.up0, up1 := go u.link.up1, ups := go u.link.ups
        nextBlock := 0, got := [], dnSeq := 0, missTick := 0, seqStall := 0, absent := 0, tickNext := none }
      sheet := { u.sheet with lock := .off, hist := [] } })

/-- An upstream lane that failed to train is retrained from `ACTIVE` on, unless it is retired (R456). -/
def State.lateLane (s : State) (b : BayId) (p : Pu) (ph : PhysLane) : State :=
  let s := s.updLink b p (fun l => l.updLane ph (fun x => { x with failed := true }))
  if ((s.link b p).lane ph).retired then s else s.laneTrain b p ph

/-- A training attempt fails (R52).
Log 22 (DEDUCED). -/
def State.attemptFails (s : State) (b : BayId) (p : Pu) : State :=
  let n := (s.link b p).attempts + 1
  if s.bndN (.link b p) .hlinkTrainMaxAttempts ≤ n then
    ((s.updLink b p (fun l => { l with st := .failed, since := s.us, attempts := n })).emit (.headLine b p 0)).raisePu b p 6
      .hlinkTrainFail
  else (s.updLink b p (fun l => { l with attempts := n })).linkTrain b p

/-- A lane has shown 256 good `TRAIN` frames in a row and is not retired; having shown them, it keeps the count.
Log 22 (DEDUCED). -/
def HLink.trained (l : HLink) (ph : PhysLane) : Bool := 256 ≤ (l.lane ph).good && !(l.lane ph).retired

/-- A `TRAIN` frame counted on its lane. -/
def Lane.noteTrain (l : Lane) (good : Bool) : Lane :=
  { l with good := if 256 ≤ l.good then l.good else if good then l.good + 1 else 0 }

/-- The spare receiver is switched to this pickup's `UPS`, which it can train or carry (R37, R456). -/
def State.spareIs (s : State) (b : BayId) (p : Pu) : Bool :=
  (s.bay b).spare == .training p || (s.bay b).spare == .standby p

/-- A spare receiver that trained with a link and is not needed by it is idle again. -/
def State.freeSpareRx (s : State) (b : BayId) (p : Pu) : State :=
  if (s.bay b).spare == .training p then s.setSpare b .idle else s

/-- The link starts with `UPS` in place of the lane that has not trained (R456). -/
def State.startWithSpare (s : State) (b : BayId) (p : Pu) (late : PhysLane) : State :=
  let s := s.identifyGo b p
  if (s.link b p).live then
    let s := if late == .UP1 then s.laneMap b p .UP0 .UPS else s.laneMap b p .UPS .UP1
    (s.setSpare b (.carrying p)).lateLane b p late
  else s

/-- A pickup with one lane takes the spare where it stands by for the other one (R456).
Log 22 (DEDUCED). -/
def State.takeStandby (s : State) (b : BayId) (p : Pu) : State :=
  match (s.bay b).spare with
  | .standby q => if q != p && s.upsUsable b p then s.trainSpare b p else s
  | _ => s

/-- The link starts with one lane (R456); the others are trained again later. -/
def State.startOneLane (s : State) (b : BayId) (p : Pu) (t0 t1 ts : Bool) : State :=
  let s := s.identifyGo b p
  if (s.link b p).live then
    let s := s.enterOneLane b p (if t0 then .UP0 else if t1 then .UP1 else .UPS)
    let s := if ts then s.setSpare b (.carrying p) else s
    let s := if t0 then s else s.lateLane b p .UP0
    (if t1 then s else s.lateLane b p .UP1).takeStandby b p
  else s

/-- What the link goes on with when it leaves `UP_TRAIN` (R456): the reset mapping, a lane with `UPS`, one lane, or a failed
attempt. -/
def State.leaveUpTrain (s : State) (b : BayId) (p : Pu) : State :=
  let l := s.link b p
  let t0 := l.trained .UP0
  let t1 := l.trained .UP1
  let ts := l.trained .UPS && s.spareIs b p
  if t0 && t1 then ((s.freeSpareRx b p).identifyGo b p).spareStandby b
  else if (t0 || t1) && ts then s.startWithSpare b p (if t0 then .UP1 else .UP0)
  else if t0 || t1 || ts then (if ts then s else s.freeSpareRx b p).startOneLane b p t0 t1 ts
  else (s.freeSpareRx b p).attemptFails b p

/-! ### Control operations -/

/-- `EV_HLINK_CTRL_FAIL`, and the whole link is retrained (R51). -/
def State.ctrlFail (s : State) (b : BayId) (p : Pu) : State :=
  ((s.raisePu b p 6 .hlinkCtrlFail).leaveService b p).linkTrain b p

/-- `HLINK_REPLY_FRAME` (R51): a reply completes the operation with its tag; it is discarded after a core reset. A `LANE_MAP`
that was executed takes effect; the replies of a strategy bank load are its read-back (R134). -/
def execHlinkReplyFrame (b : BayId) (p : Pu) (l : PhysLane) (raw : Bytes) (s : State) : Host.Outcome State Fault Refusal :=
  withBay b s (fun s =>
    if s.portUp b p && (s.link b p).live then
      let (fs, s) := s.rxLane b p l raw
      fs.foldl (fun s f =>
        if frGood f && frType f == 3 then
          match (s.link b p).ctrl.find? (fun c => c.ctag == byteAt f 4) with
          | some c =>
            let s := s.updLink b p (fun l => { l with ctrl := l.ctrl.filter (fun x => x.ctag != c.ctag) })
            let s := if c.discard then s else s.updLink b p (fun l => { l with lastReply := slice f 4 500 })
            let s := if c.op == 3 && byteAt f 5 == 0 then s.updLink b p (fun l => l.applyMap s.us) else s
            (if c.discard then s else s.bankReply b p c f).ctrlPump b p 4
          | none => s
        else s) s
    else s)

/-- `CTRL_REPLY_TIMEOUT` (R51): the same frame again with the same tag, or the link is given up after
`hlink.ctrl.max_tries` sends. -/
def execCtrlReplyTimeout (b : BayId) (p : Pu) (ctag : BitVec 8) (s : State) : Host.Outcome State Fault Refusal :=
  withBay b s (fun s =>
    match (s.link b p).ctrl.find? (fun c => c.ctag == ctag.toNat) with
    | some c =>
      if !(s.portUp b p) ∨ s.us < c.sent + s.liveN .hlinkCtrlReplyTimeoutUs then s
      else if s.liveN .hlinkCtrlMaxTries ≤ c.tries then s.ctrlFail b p
      else
        let s := s.updLink b p (fun l => { l with ctrl := l.ctrl.map (fun x =>
          if x.ctag == c.ctag then { x with tries := x.tries + 1, sent := s.us } else x) })
        s.sendCtrl b p (c.op * 256 + c.ctag) (ctrlPayload c.addr c.len c.data)
    | none => s)

/-! ### Training (R52, R53, R456) -/

/-- The spare receiver takes a training pickup's `UPS` when it is idle (R37, R456): never both. -/
def State.takeSpareRx (s : State) (b : BayId) (p : Pu) (l : PhysLane) : State :=
  if l == .UPS && (s.bay b).spare == .idle then s.setSpare b (.training p) else s

/-- `HLINK_TRAIN_FRAME` (R52, R53, R456). -/
def execHlinkTrainFrame (b : BayId) (p : Pu) (l : PhysLane) (raw : Bytes) (s : State) : Host.Outcome State Fault Refusal :=
  withBay b s (fun s =>
    let st := (s.link b p).st
    let s := if s.portUp b p && (st == .dsTrain || st == .upTrain) && !((s.link b p).lane l).retired then s.takeSpareRx b p l else s
    if !(s.portUp b p) ∨ ((st == .dsTrain ∨ st == .upTrain) ∧ l == .UPS ∧ !s.spareIs b p)
        ∨ ((s.link b p).lane l).retired then s
    else
      let (fs, s) := s.injectFrame (laneTarget b p l.code) raw
      fs.foldl (fun s f0 =>
        let f := scramble f0
        let good := frGood f && frType f == 15 && beAt f 4 8 == 0x4A484C54524E3031
        let st := (s.link b p).st
        if st == .dsTrain then
          if good then s.updLink b p (fun x => { (x.updLane l (fun y => { y with good := 1 })) with
            st := .upTrain, since := s.us, ident := some (slice f 16 256) })
          else s
        else if st == .upTrain then
          let s := s.updLink b p (fun x => { (x.updLane l (fun y => y.noteTrain good)) with
            ident := if good then some (slice f 16 256) else x.ident })
          if (s.link b p).trained .UP0 && (s.link b p).trained .UP1 then s.leaveUpTrain b p else s
        else if (s.link b p).training.contains l then
          s.updLink b p (fun x => x.updLane l (fun y => y.noteTrain good))
        else s) s)

/-- `HLINK_TRAIN_TIMEOUT` (Table 02-8): 2 ms in `DS_TRAIN`, 0.1 ms in `IDENTIFY`. -/
def execHlinkTrainTimeout (b : BayId) (p : Pu) (s : State) : Host.Outcome State Fault Refusal :=
  withBay b s (fun s =>
    let l := s.link b p
    if s.portUp b p && ((l.st == .dsTrain && l.since + 2000 ≤ s.us) || (l.st == .identify && l.since + 100 ≤ s.us)) then
      s.attemptFails b p
    else s)

/-- `UP_TRAIN_LIMIT` (R456): 5 ms in `UP_TRAIN`. -/
def execUpTrainLimit (b : BayId) (p : Pu) (s : State) : Host.Outcome State Fault Refusal :=
  withBay b s (fun s =>
    let l := s.link b p
    if s.portUp b p && l.st == .upTrain && l.since + 5000 ≤ s.us then s.leaveUpTrain b p else s)

/-- `HLINK_TRAIN_RETRY` (R52). -/
def execHlinkTrainRetry (b : BayId) (p : Pu) (s : State) : Host.Outcome State Fault Refusal :=
  withBay b s (fun s =>
    let l := s.link b p
    if s.portUp b p && l.st == .failed && !l.noRetry
        && l.since + 1000000 * s.liveN .hlinkTrainRetryIntervalS ≤ s.us then
      (s.updLink b p (fun l => { l with attempts := 0 })).linkTrain b p
    else s)

/-! ### Lanes (R57, R58) -/

/-- Both logical lanes are carried again by two different lanes (R57, R58): retrained lanes enter service, and a spare no longer
needed stands by. -/
def State.mapBack (s : State) (b : BayId) (p : Pu) (m : PhysLane × PhysLane) : State :=
  let back := fun (y : Lane) => if y.retrained then { y with failed := false, retrained := false } else y
  let used := fun (ph : PhysLane) => m.1 == ph || m.2 == ph
  let s := s.updLink b p (fun x =>
    let x := if used .UP0 then x.updLane .UP0 back else x
    let x := if used .UP1 then x.updLane .UP1 back else x
    if used .UPS then x.updLane .UPS back else x)
  let s := s.laneMap b p m.1 m.2
  if (s.bay b).spare == .carrying p && !used .UPS then (s.setSpare b (.standby p)).spareStandby b else s

/-- `LANE_RETRAIN_START` (R57): a lane in service fails, or the `UPS` in standby does. -/
def execLaneRetrainStart (b : BayId) (p : Pu) (l : PhysLane) (s : State) : Host.Outcome State Fault Refusal :=
  withBay b s (fun s =>
    let k := s.link b p
    if !(s.portUp b p) ∨ !k.live ∨ !(s.laneBad b p l) ∨ (k.lane l).failed then s
    else if l == .UPS && (s.bay b).spare == .standby p then
      let (out, s) := s.noteLaneFail b p l
      if out then ((s.setSpare b .idle).retireLane b p .UPS).spareStandby b
      else (s.updLink b p (fun x => x.updLane .UPS (fun y => { y with failed := true }))).trainSpare b p
    else if (k.logical l).isNone then s
    else
      let (out, s) := (s.holdWriting b p).noteLaneFail b p l
      let s := s.updLink b p (fun x => { (x.updLane l (fun y => { y with failed := true })) with
        st := .laneRetrain, since := s.us, failing := some l })
      let keep := k.survivor l
      let s := match (s.bay b).spare with
        | .standby q =>
          if q == p then s.spareTakeover b p l
          else if s.upsUsable b p then (s.enterOneLane b p keep).trainSpare b p else s.enterOneLane b p keep
        | .idle => if s.upsUsable b p && l != PhysLane.UPS then (s.enterOneLane b p keep).trainSpare b p else s.enterOneLane b p keep
        | .carrying q =>
          match (s.link b p).bestMap (q == p) with
          | some m => s.mapBack b p m
          | none => s.enterOneLane b p keep
        | .training _ => s.enterOneLane b p keep
      if out then s.retireLane b p l else s.laneTrain b p l)

/-- `SPARE_TRAIN_DONE` (R57): the spare is mapped in where a logical lane waits for it, else it stands by. A spare that failed
in standby and fails its retrain retires the pickup's `UPS`. -/
def execSpareTrainDone (b : BayId) (p : Pu) (ok : Bool) (s : State) : Host.Outcome State Fault Refusal :=
  withBay b s (fun s =>
    if (s.bay b).spare != .training p ∨ !(s.portUp b p) then s
    else
      let wasBad := (s.link b p).ups.failed
      let s := (s.laneTrainStop b p .UPS).updLink b p (fun x => x.updLane .UPS (fun y => { y with seq := some 0, failed := false }))
      let k := s.link b p
      if ok then
        if k.oneLane && k.up0.failed != k.up1.failed then s.spareTakeover b p (if k.up0.failed then .UP0 else .UP1)
        else (s.setSpare b (.standby p)).spareStandby b
      else if wasBad then ((s.setSpare b .idle).retireLane b p .UPS).spareStandby b
      else s.setSpare b .idle)

/-- `LANE_TRAIN_RESULT` (R57, R58): a lane retrained waits to be mapped back, or ends one-lane mode at once where two sound lanes
are left; one that fails its retrain is retired, and a spare receiver whose `UPS` is retired serves the other pickup. -/
def execLaneTrainResult (b : BayId) (p : Pu) (l : PhysLane) (ok : Bool) (s : State) : Host.Outcome State Fault Refusal :=
  withBay b s (fun s =>
    let k := s.link b p
    let carries := (s.bay b).spare == .carrying p
    if !(s.portUp b p) ∨ !k.live ∨ (l == .UPS ∧ !carries) ∨ !(k.training.contains l) then s
    else
      let s := s.laneTrainStop b p l
      if !ok then
        let s := s.retireLane b p l
        if l == .UPS then (s.setSpare b .idle).spareStandby b else s
      else
        let s := s.updLink b p (fun x => x.updLane l (fun y => { y with seq := some 0, retrained := true, errs := [], crcRun := 0 }))
        if k.oneLane then
          match (s.link b p).bestMap carries with
          | some m => s.mapBack b p m
          | none => s
        else s)

/-- `LANE_MAP_BACK` (R57): at an idle period a retrained lane carries its logical lane again, and a spare no longer needed returns to
standby. -/
def execLaneMapBack (b : BayId) (p : Pu) (s : State) : Host.Outcome State Fault Refusal :=
  withBay b s (fun s =>
    let k := s.link b p
    if s.portUp b p && k.live && (k.up0.retrained || k.up1.retrained || k.ups.retrained) && (s.bay b).spare == .carrying p
        && s.idlePeriod b p then
      match k.bestMap true with
      | some m => s.mapBack b p m
      | none => s
    else s)

/-- `LANE_RETRAIN_LIMIT` (Table 02-8): after 1.1 ms the controller enters one-lane mode. -/
def execLaneRetrainLimit (b : BayId) (p : Pu) (s : State) : Host.Outcome State Fault Refusal :=
  withBay b s (fun s =>
    let k := s.link b p
    if s.portUp b p && k.st == .laneRetrain && k.since + 1100 ≤ s.us then
      s.enterOneLane b p (k.survivor (k.failing.getD .UP0))
    else s)

/-- `DN_LOST` (R59): for 8 ticks `DNSEQ` does not advance or no `SERVO` frame arrives. -/
def execDnLost (b : BayId) (p : Pu) (s : State) : Host.Outcome State Fault Refusal :=
  withBay b s (fun s =>
    let k := s.link b p
    if s.portUp b p && k.live && (8 ≤ k.seqStall || 8 ≤ k.absent) then
      ((s.raisePu b p 6 .hlinkDsLost).leaveService b p).linkTrain b p
    else s)

/-- `SPARE_STANDBY_APPLY` (R331): a new `hlink.spare.standby` is applied once the spare receiver is idle or stands by. -/
def execSpareStandbyApply (b : BayId) (s : State) : Host.Outcome State Fault Refusal :=
  withBay b s (fun s => if s.mportUp b then s.spareStandby b else s)

end Sys2Proof.Machine
end

