-- ==== Sys2Proof/Machine/SafetyRows.lean ====
section
/-! DEFINITION. The commands of the safety island (19_safety.md). -/

namespace Sys2Proof.Machine

/-- `LMON_TRIP` (R389): `LMON_N` of the bay has been low for 1 µs. -/
def execLmonTrip (b : BayId) (s : State) : Host.Outcome State Fault Refusal :=
  withBay b s (fun s => (s.updSafe b (fun x => { x with lmonLow := true })).lmonTripBay b)

/-- `ILK_OPEN` (R389): `ILK_N` has been low for 10 µs: every `LSAFE_N` low, every `SSAFE_N` too if `safety.ilk.brake`
is 1. -/
def execIlkOpen (s : State) : Host.Outcome State Fault Refusal :=
  .next (let s := { s with isl := { s.isl with ilkHigh := some s.us } }
    let s := allBays.foldl State.dropL s
    let s := if s.safe .safetyIlkBrake = 1 then allBays.foldl State.dropS s else s
    s.raise 961 .safetyIlkOpen 0 0 0)

/-- `SPDF_TOGGLE` (R390, R391): a toggle less than 20 µs after the previous one is ignored; an interval shorter than
2.5 / `safety.over.trip_rpm` seconds trips the bay for overspeed. -/
def execSpdfToggle (b : BayId) (afterUs : Nat) (s : State) : Host.Outcome State Fault Refusal :=
  withBay b s (fun s =>
    if afterUs < 20 then s
    else
      let s := s.updSafe b (fun x => { x with spdfLast := some s.us, intervals := (afterUs :: x.intervals).take 24 })
      if afterUs * s.safe .safetyOverTripRpm < 2500000 then
        ((s.updSafe b (fun x => { x with overTrip := true })).dropBay b).raiseSafe b .safetyOverspeed (2500000 / afterUs)
      else s)

/-- `SPEED_REPORT` (R392): the motor unit reports its observer speed and state; the island compares the speed with its
own. -/
def execSpeedReport (b : BayId) (s : State) : Host.Outcome State Fault Refusal :=
  withBay b s (fun s =>
    let sp := (s.bay b).spindle
    let x := s.safeBay b
    let silent := match x.spdfLast with
      | some t => decide (t + 10000 ≤ s.us)
      | none => true
    let fails := plausFails (s.safe .safetySpdfTolPct) x.rpmMilli (sp.obs.rpm.natAbs * 1000 / 65536) sp.st silent
    s.updSafe b (fun x => { x with
      repRpm := sp.obs.rpm, repState := sp.st, repAt := s.us
      failSince := if fails then some (x.failSince.getD s.us) else none }))

/-- `PLAUSIBILITY_TRIP` (R392): the check has failed for `safety.spdf.check_ms`, reports missing for 10 ms while
`SSAFE_N` is high counting as failing. -/
def execPlausibilityTrip (b : BayId) (s : State) : Host.Outcome State Fault Refusal :=
  withBay b s (fun s =>
    let x := s.safeBay b
    let check := s.safe .safetySpdfCheckMs * 1000
    let failed := match x.failSince with
      | some t => decide (t + check ≤ s.us)
      | none => false
    let missing := x.ssafe && decide (x.repAt + 10000 + check ≤ s.us)
    if failed || missing then
      ((s.updSafe b (fun x => { x with plausTrip := true })).dropBay b).raiseSafe b .safetySpdfImplausible
        (x.repRpm.toNat / 65536)
    else s)

/-- `GATE_FORCE` (R393): `WPERMIT` has stayed 1 for longer than `safety.gate.limit_us` while focus or tracking shows unlocked. -/
def execGateForce (b : BayId) (p : Pu) (s : State) : Host.Outcome State Fault Refusal :=
  withBay b s (fun s =>
    let x := s.safeBay b
    let long := (match p with
      | .A => x.gateA
      | .B => x.gateB).any (fun t => decide (t + s.safe .safetyGateLimitUs < s.us))
    if (s.pu b p).gateOpen && long then
      (((s.updSafe b (fun x => { x with gateTrip := true })).dropL b).raise (srcBay b 18) .safetyGateForced b.val p.idx 0).countTrip b
    else s)

/-- `BAY_HOLD_RECEIPT` (R382, R389): the island receives a bay hold and takes the bay's outputs low. -/
def execBayHoldReceipt (b : BayId) (s : State) : Host.Outcome State Fault Refusal :=
  withBay b s (fun s =>
    let s := (s.updSafe b (fun x => { x with hold := true })).dropBay b
    { s with blk := { s.blk with holdReq := s.blk.holdReq.filter (fun x => x != b) } })

/-- `HEARTBEAT_WORD_RX` (R394): a word is valid if its sequence number follows the previous one's and its check bits
verify; for the agent, also if it arrives on its period. The island's check runs again from the agent's first valid
word. -/
def execHeartbeatWordRx (side : HbSide) (seq : BitVec 16) (checkGood onPeriod serviceGood : Bool) (s : State) :
    Host.Outcome State Fault Refusal :=
  .next (match side with
    | .island =>
      let valid := checkGood && seq.toNat == (s.isl.agSeq + 1) % 65536
      let i := { s.isl with agSeq := if checkGood then seq.toNat else s.isl.agSeq }
      { s with isl := if valid && serviceGood then { i with agAt := s.us, hbRun := !s.sysHeld }
                      else if valid && !s.sysHeld && !i.hbRun then { i with hbRun := true, agAt := s.us } else i }
    | .agent =>
      let valid := checkGood && onPeriod && seq.toNat == (s.isl.hbSeq + 1) % 65536
      let i := { s.isl with hbSeq := if checkGood then seq.toNat else s.isl.hbSeq }
      { s with isl := if valid then { i with hbAt := s.us } else i })

/-- `HEARTBEAT_LOST_ISLAND` (R394): no valid word with service good for 500 µs: every output low, a system reset
requested. -/
def execHeartbeatLostIsland (s : State) : Host.Outcome State Fault Refusal :=
  .next (if s.islandUp && s.isl.hbRun && !s.sysHeld && s.isl.agAt + 500 ≤ s.us then
      ((s.raise 961 .safetyHbLost 0 0 0).dropAll).assertSystem 4
    else s)

/-- `ISLAND_LOST_AGENT` (R394): the agent has had no valid word for 500 µs: `LASER` and `WPERMIT` 0 on every link, every
motor unit in `FLOAT`; no bay comes up again until the next power-on reset. -/
def execIslandLostAgent (s : State) : Host.Outcome State Fault Refusal :=
  .next (if s.isl.hbAt + 500 ≤ s.us ∧ !s.sysHeld ∧ !s.isl.agentLost then
      let dark := fun (u : Pickup) => { u with link := { u.link with laser := false, wpermit := false } }
      let s : State := { s with
        isl := { s.isl with agentLost := true }
        bays := s.bays.map (fun (y : Bay) => { y with
          pa := dark y.pa, pb := dark y.pb, spindle := { y.spindle with drive := .floating } }) }
      s.raise 961 .safetyIslandLost 0 0 0
    else s)

/-- `PERMIT_REQUEST` (R396): firmware requests a bay's permit; `ILK_N` and `LMON_N` have been high for the times given. -/
def execPermitRequest (b : BayId) (lsafe : Bool) (ilkHighMs lmonHighMs : Nat) (s : State) :
    Host.Outcome State Fault Refusal :=
  withBay b s (fun s => if lsafe then s.requestL b ilkHighMs lmonHighMs else s.requestS b ilkHighMs)

/-- `KEEPER_DROP` (R388): a permit stream has stopped for 2 µs or the two disagree; the keeper takes its output low. -/
def execKeeperDrop (b : BayId) (lsafe : Bool) (s : State) : Host.Outcome State Fault Refusal :=
  withBay b s (fun s => if lsafe then s.dropL b else s.dropS b)

/-- `OUTPUT_READBACK` (R388): a pin that reads high while its keeper drives it low latches every output low. -/
def execOutputReadback (b : BayId) (lsafe pinHigh : Bool) (s : State) : Host.Outcome State Fault Refusal :=
  withBay b s (fun s =>
    let x := s.safeBay b
    if pinHigh && !(if lsafe then x.lsafe else x.ssafe) then
      { s with isl := { s.isl with outLatched := true } }.dropAll.raise 961 .safetyOutputReadback b.val (if lsafe then 0 else 1) 0
    else s)

/-- `LOCKSTEP_MISMATCH` (R398). -/
def execLockstepMismatch (s : State) : Host.Outcome State Fault Refusal := .next (s.islandFail .safetyLockstep)

/-- `ROM_CHECK` (R398): a mismatch of the ROM check word. -/
def execRomCheck (good : Bool) (s : State) : Host.Outcome State Fault Refusal :=
  .next (if good then s else s.islandFail .safetyLockstep)

/-- `VDD_SAFE_EXCURSION` (R398): outputs low, every permit withdrawn, the island in its own reset while the supply is
out of range. -/
def execVddSafeExcursion (s : State) : Host.Outcome State Fault Refusal :=
  .next ({ s with isl := { s.isl with supplyOk := false, passed := false } }.dropAll.raise 961 .safetySupply 0 0 0)

/-- `VDD_SAFE_RETURN` (R398): the island reruns its start self-test with every permit withdrawn. -/
def execVddSafeReturn (selfTestGood : Bool) (s : State) : Host.Outcome State Fault Refusal :=
  .next (if s.isl.supplyOk then s
    else
      let s := { s with isl := { s.isl with supplyOk := true } }
      if selfTestGood then { s with isl := { s.isl with passed := !s.isl.halted } }
      else s.islandFail .safetySelftestFail)

/-- `LMON_MISMATCH` (R398): the pin is high while an `LMON` bit of the bay's `SERVO` frames has been set for 10 ms. -/
def execLmonMismatch (b : BayId) (s : State) : Host.Outcome State Fault Refusal :=
  withBay b s (fun s =>
    let y := s.bay b
    let long := (s.safeBay b).lmonBad.any (fun t => decide (t + 10000 ≤ s.us))
    if (y.pa.link.servo.lmon || y.pb.link.servo.lmon) && !(s.safeBay b).lmonLow && long then
      (((s.updSafe b (fun x => { x with lmonTrip := true, lmonHigh := some s.us })).dropL b).raiseSafe b .safetyLmonMismatch 0).countTrip b
    else s)

end Sys2Proof.Machine
end

