-- ==== Sys2Proof/Machine/Dispatch.lean ====
section
/-! DEFINITION. The dispatch of commands: one arm per constructor of `Instr`, each one call of its meaning. -/

namespace Sys2Proof.Machine

/-- The effect of one command on everything but the queue. -/
def exec (i : Instr) (s : State) : Host.Outcome State Fault Refusal :=
  match i with
  | .hlinkSampleFrame b p l raw => Sys2Proof.Machine.execHlinkSampleFrame b p l raw s
  | .blockReleaseTimeout b p => Sys2Proof.Machine.execBlockReleaseTimeout b p s
  | .timingHoldLimit b p i_ => Sys2Proof.Machine.execTimingHoldLimit b p i_ s
  | .hlinkServoFrame b p l raw upset => Sys2Proof.Machine.execHlinkServoFrame b p l raw upset s
  | .servoTickMissing b p => Sys2Proof.Machine.execServoTickMissing b p s
  | .missedTickUnlock b p => Sys2Proof.Machine.execMissedTickUnlock b p s
  | .rowSwitchTimeout b p => Sys2Proof.Machine.execRowSwitchTimeout b p s
  | .loopLock b p lp => Sys2Proof.Machine.execLoopLock b p lp s
  | .loopUnlock b p lp => Sys2Proof.Machine.execLoopUnlock b p lp s
  | .bankSwapArm b slot p src bank tick => Sys2Proof.Machine.execBankSwapArm b slot p src bank tick s
  | .unitHandoverDone b u => Sys2Proof.Machine.execUnitHandoverDone b u s
  | .elementFault b p e => Sys2Proof.Machine.execElementFault b p e s
  | .hlinkReplyFrame b p l raw => Sys2Proof.Machine.execHlinkReplyFrame b p l raw s
  | .ctrlReplyTimeout b p ctag => Sys2Proof.Machine.execCtrlReplyTimeout b p ctag s
  | .hlinkTrainFrame b p l raw => Sys2Proof.Machine.execHlinkTrainFrame b p l raw s
  | .hlinkTrainTimeout b p => Sys2Proof.Machine.execHlinkTrainTimeout b p s
  | .upTrainLimit b p => Sys2Proof.Machine.execUpTrainLimit b p s
  | .hlinkTrainRetry b p => Sys2Proof.Machine.execHlinkTrainRetry b p s
  | .laneRetrainStart b p l => Sys2Proof.Machine.execLaneRetrainStart b p l s
  | .spareTrainDone b p ok => Sys2Proof.Machine.execSpareTrainDone b p ok s
  | .laneTrainResult b p l ok => Sys2Proof.Machine.execLaneTrainResult b p l ok s
  | .laneMapBack b p => Sys2Proof.Machine.execLaneMapBack b p s
  | .laneRetrainLimit b p => Sys2Proof.Machine.execLaneRetrainLimit b p s
  | .dnLost b p => Sys2Proof.Machine.execDnLost b p s
  | .spareStandbyApply b => Sys2Proof.Machine.execSpareStandbyApply b s
  | .wedgeProcess b p => Sys2Proof.Machine.execWedgeProcess b p s
  | .frameLockLost b p => Sys2Proof.Machine.execFrameLockLost b p s
  | .acqSearchTimeout b p => Sys2Proof.Machine.execAcqSearchTimeout b p s
  | .segmentSyncVote b p => Sys2Proof.Machine.execSegmentSyncVote b p s
  | .sectorSoftCommit b p => Sys2Proof.Machine.execSectorSoftCommit b p s
  | .detectorFault r d cause => Sys2Proof.Machine.execDetectorFault r d cause s
  | .detectorSpareStart r => Sys2Proof.Machine.execDetectorSpareStart r s
  | .ldpcCodewordDone b p sector cw => Sys2Proof.Machine.execLdpcCodewordDone b p sector cw s
  | .ladderTrialDone b p sector trial => Sys2Proof.Machine.execLadderTrialDone b p sector trial s
  | .rereadPass b p sector => Sys2Proof.Machine.execRereadPass b p sector s
  | .ladderTimeout b p sector => Sys2Proof.Machine.execLadderTimeout b p sector s
  | .ldpcDecoderFault r d cause => Sys2Proof.Machine.execLdpcDecoderFault r d cause s
  | .ldpcSpareEnter r => Sys2Proof.Machine.execLdpcSpareEnter r s
  | .discIdentityRead b => Sys2Proof.Machine.execDiscIdentityRead b s
  | .sectorEncode b p upset => Sys2Proof.Machine.execSectorEncode b p upset s
  | .passBlockStart b p => Sys2Proof.Machine.execPassBlockStart b p s
  | .segmentWriteSend b p => Sys2Proof.Machine.execSegmentWriteSend b p s
  | .strategyBankLoad b p layer => Sys2Proof.Machine.execStrategyBankLoad b p layer s
  | .relocExcursionStart b => Sys2Proof.Machine.execRelocExcursionStart b s
  | .pickupFocusSearchStart b p => Sys2Proof.Machine.execPickupFocusSearchStart b p s
  | .pickupStateLimit b p => Sys2Proof.Machine.execPickupStateLimit b p s
  | .swathJumpIssue b p s_ => Sys2Proof.Machine.execSwathJumpIssue b p s_ s
  | .targetFrameApproach b p frame opensBlock => Sys2Proof.Machine.execTargetFrameApproach b p frame opensBlock s
  | .sledFollowUpdate b p => Sys2Proof.Machine.execSledFollowUpdate b p s
  | .restLoopJump b p => Sys2Proof.Machine.execRestLoopJump b p s
  | .saTrimUpdate b p => Sys2Proof.Machine.execSaTrimUpdate b p s
  | .layerJumpIssue b p layer => Sys2Proof.Machine.execLayerJumpIssue b p layer s
  | .seekIssue b radius => Sys2Proof.Machine.execSeekIssue b radius s
  | .recoverHoldEnd b p => Sys2Proof.Machine.execRecoverHoldEnd b p s
  | .localRecaptureEnd b p => Sys2Proof.Machine.execLocalRecaptureEnd b p s
  | .pickupFailedRetry b p => Sys2Proof.Machine.execPickupFailedRetry b p s
  | .clvRefSwitch b => Sys2Proof.Machine.execClvRefSwitch b s
  | .clvRefRestore b => Sys2Proof.Machine.execClvRefRestore b s
  | .bayProbe b => Sys2Proof.Machine.execBayProbe b s
  | .autoTuneStart b p lp => Sys2Proof.Machine.execAutoTuneStart b p lp s
  | .autoTuneEnd b p => Sys2Proof.Machine.execAutoTuneEnd b p s
  | .tuneRevertWindowEnd b p lp => Sys2Proof.Machine.execTuneRevertWindowEnd b p lp s
  | .cengCheckpoint r e => Sys2Proof.Machine.execCengCheckpoint r e s
  | .cengCoreFault r e cause => Sys2Proof.Machine.execCengCoreFault r e cause s
  | .cengTakeoverDone r => Sys2Proof.Machine.execCengTakeoverDone r s
  | .mlinkSenseFrame b raw upset => Sys2Proof.Machine.execMlinkSenseFrame b raw upset s
  | .mlinkTrainFrame b raw => Sys2Proof.Machine.execMlinkTrainFrame b raw s
  | .mlinkTrainTimeout b => Sys2Proof.Machine.execMlinkTrainTimeout b s
  | .mlinkTrainRetry b => Sys2Proof.Machine.execMlinkTrainRetry b s
  | .mlinkLost b => Sys2Proof.Machine.execMlinkLost b s
  | .speedLoopSample b => Sys2Proof.Machine.execSpeedLoopSample b s
  | .spindleStart b => Sys2Proof.Machine.execSpindleStart b s
  | .spindleStop b => Sys2Proof.Machine.execSpindleStop b s
  | .catchEnd b => Sys2Proof.Machine.execCatchEnd b s
  | .alignEnd b => Sys2Proof.Machine.execAlignEnd b s
  | .rampHandover b => Sys2Proof.Machine.execRampHandover b s
  | .startTryFail b => Sys2Proof.Machine.execStartTryFail b s
  | .syncEnd b => Sys2Proof.Machine.execSyncEnd b s
  | .decelLimit b => Sys2Proof.Machine.execDecelLimit b s
  | .brakeShortToggle b => Sys2Proof.Machine.execBrakeShortToggle b s
  | .brakeShortLimit b => Sys2Proof.Machine.execBrakeShortLimit b s
  | .startWaitEnd b => Sys2Proof.Machine.execStartWaitEnd b s
  | .spindleFaultRetry b => Sys2Proof.Machine.execSpindleFaultRetry b s
  | .testCatch b => Sys2Proof.Machine.execTestCatch b s
  | .observerLost b => Sys2Proof.Machine.execObserverLost b s
  | .overspeedDetect b => Sys2Proof.Machine.execOverspeedDetect b s
  | .overspeedStop b => Sys2Proof.Machine.execOverspeedStop b s
  | .speedReady b => Sys2Proof.Machine.execSpeedReady b s
  | .sledCoarseStep b => Sys2Proof.Machine.execSledCoarseStep b s
  | .sledTarget b p radius seek => Sys2Proof.Machine.execSledTarget b p radius seek s
  | .seekArrive b p => Sys2Proof.Machine.execSeekArrive b p s
  | .sledHoldReduce b p => Sys2Proof.Machine.execSledHoldReduce b p s
  | .sledPowerDown b p => Sys2Proof.Machine.execSledPowerDown b p s
  | .sledTableLoad b bank table => Sys2Proof.Machine.execSledTableLoad b bank table s
  | .writeStaged f sr tag blocks => Sys2Proof.Machine.execWriteStaged f sr tag blocks s
  | .blockPlace h => Sys2Proof.Machine.execBlockPlace h s
  | .stripeCloseTimeout h => Sys2Proof.Machine.execStripeCloseTimeout h s
  | .sectorWriteOutcome h stripe member written => Sys2Proof.Machine.execSectorWriteOutcome h stripe member written s
  | .checkpointWrite h => Sys2Proof.Machine.execCheckpointWrite h s
  | .hamperAutoMount b => Sys2Proof.Machine.execHamperAutoMount b s
  | .memberRebuildStep h => Sys2Proof.Machine.execMemberRebuildStep h s
  | .readRebuild h stripe pos => Sys2Proof.Machine.execReadRebuild h stripe pos s
  | .memberGraceExpire b p => Sys2Proof.Machine.execMemberGraceExpire b p s
  | .hamperMountRecover h => Sys2Proof.Machine.execHamperMountRecover h s
  | .hamperEngineFault e cause => Sys2Proof.Machine.execHamperEngineFault e cause s
  | .hamperEngineTakeover => Sys2Proof.Machine.execHamperEngineTakeover s
  | .srDoorbellWrite f sr value => Sys2Proof.Machine.execSrDoorbellWrite f sr value s
  | .crHeadDoorbellWrite f cr value => Sys2Proof.Machine.execCrHeadDoorbellWrite f cr value s
  | .barWriteOther f offset data => Sys2Proof.Machine.execBarWriteOther f offset data s
  | .fetchGrant entries => Sys2Proof.Machine.execFetchGrant entries s
  | .fetchFail f sr => Sys2Proof.Machine.execFetchFail f sr s
  | .dmaTransferFail f sr tag => Sys2Proof.Machine.execDmaTransferFail f sr tag s
  | .completionPost f sr tag => Sys2Proof.Machine.execCompletionPost f sr tag s
  | .crCoalesceTimeout f cr => Sys2Proof.Machine.execCrCoalesceTimeout f cr s
  | .holdLimitExpire f sr tag => Sys2Proof.Machine.execHoldLimitExpire f sr tag s
  | .functionLevelReset f => Sys2Proof.Machine.execFunctionLevelReset f s
  | .busMasterEnableChange f on => Sys2Proof.Machine.execBusMasterEnableChange f on s
  | .vfEnable count => Sys2Proof.Machine.execVfEnable count s
  | .pcieLinkDegrade width => Sys2Proof.Machine.execPcieLinkDegrade width s
  | .pciePerstLocal => Sys2Proof.Machine.execPciePerstLocal s
  | .ptmTimeUpdate ns => Sys2Proof.Machine.execPtmTimeUpdate ns s
  | .createSr f tag => Sys2Proof.Machine.execCreateSr f tag s
  | .deleteSr f tag => Sys2Proof.Machine.execDeleteSr f tag s
  | .createCr f tag => Sys2Proof.Machine.execCreateCr f tag s
  | .deleteCr f tag => Sys2Proof.Machine.execDeleteCr f tag s
  | .read f sr tag => Sys2Proof.Machine.execRead f sr tag s
  | .write f sr tag => Sys2Proof.Machine.execWrite f sr tag s
  | .verify f sr tag => Sys2Proof.Machine.execVerify f sr tag s
  | .flush f sr tag => Sys2Proof.Machine.execFlush f sr tag s
  | .abort f sr tag => Sys2Proof.Machine.execAbort f sr tag s
  | .identify f tag => Sys2Proof.Machine.execIdentify f tag s
  | .health f tag => Sys2Proof.Machine.execHealth f tag s
  | .healthClearCause f tag => Sys2Proof.Machine.execHealthClearCause f tag s
  | .healthClearCounters f tag => Sys2Proof.Machine.execHealthClearCounters f tag s
  | .healthCalRequest f tag => Sys2Proof.Machine.execHealthCalRequest f tag s
  | .attestReport f tag => Sys2Proof.Machine.execAttestReport f tag s
  | .attestCertChain f tag => Sys2Proof.Machine.execAttestCertChain f tag s
  | .attestEnforceSignatures f tag => Sys2Proof.Machine.execAttestEnforceSignatures f tag s
  | .attestRevokeKey f tag => Sys2Proof.Machine.execAttestRevokeKey f tag s
  | .stageConfigOpen tag => Sys2Proof.Machine.execStageConfigOpen tag s
  | .stageConfigChunk tag data => Sys2Proof.Machine.execStageConfigChunk tag data s
  | .stageConfigCommit tag => Sys2Proof.Machine.execStageConfigCommit tag s
  | .stageSessionIdle => Sys2Proof.Machine.execStageSessionIdle s
  | .activateFwFirmware tag => Sys2Proof.Machine.execActivateFwFirmware tag s
  | .activateFwCoreReset tag => Sys2Proof.Machine.execActivateFwCoreReset tag s
  | .activateFwSystemReset tag => Sys2Proof.Machine.execActivateFwSystemReset tag s
  | .fwactDrainEnd => Sys2Proof.Machine.execFwactDrainEnd s
  | .fwStartResult started => Sys2Proof.Machine.execFwStartResult started s
  | .mountAttach tag => Sys2Proof.Machine.execMountAttach tag s
  | .mountCreate tag block => Sys2Proof.Machine.execMountCreate tag block s
  | .mountReplace tag => Sys2Proof.Machine.execMountReplace tag s
  | .unmount tag => Sys2Proof.Machine.execUnmount tag s
  | .faultInjectArm tag => Sys2Proof.Machine.execFaultInjectArm tag s
  | .faultInjectCancel tag => Sys2Proof.Machine.execFaultInjectCancel tag s
  | .faultInjectCancelAll tag => Sys2Proof.Machine.execFaultInjectCancelAll tag s
  | .faultInjectList tag => Sys2Proof.Machine.execFaultInjectList tag s
  | .diagRawWrite tag block => Sys2Proof.Machine.execDiagRawWrite tag block s
  | .diagRawRead tag => Sys2Proof.Machine.execDiagRawRead tag s
  | .memCorrectedError part ch addr => Sys2Proof.Machine.execMemCorrectedError part ch addr s
  | .memUe part ch addr => Sys2Proof.Machine.execMemUe part ch addr s
  | .mergeNarrowWrite ch addr data => Sys2Proof.Machine.execMergeNarrowWrite ch addr data s
  | .mergeEntryRetire ch readUncorrectable => Sys2Proof.Machine.execMergeEntryRetire ch readUncorrectable s
  | .bufferDraw basket count requester => Sys2Proof.Machine.execBufferDraw basket count requester s
  | .bufferReturn handle => Sys2Proof.Machine.execBufferReturn handle s
  | .powerOnReset => Sys2Proof.Machine.execPowerOnReset s
  | .sysrstNAssert => Sys2Proof.Machine.execSysrstNAssert s
  | .pePerstSystem => Sys2Proof.Machine.execPePerstSystem s
  | .resetRelease source => Sys2Proof.Machine.execResetRelease source s
  | .watchdogKick => Sys2Proof.Machine.execWatchdogKick s
  | .watchdogFirstStage => Sys2Proof.Machine.execWatchdogFirstStage s
  | .watchdogFinalStage => Sys2Proof.Machine.execWatchdogFinalStage s
  | .coreResetRelease copyGood failed => Sys2Proof.Machine.execCoreResetRelease copyGood failed s
  | .blockResetRequest blk idle => Sys2Proof.Machine.execBlockResetRequest blk idle s
  | .clockReleaseTimeout blk => Sys2Proof.Machine.execClockReleaseTimeout blk s
  | .clockGoodLoss blk => Sys2Proof.Machine.execClockGoodLoss blk s
  | .rootLost => Sys2Proof.Machine.execRootLost s
  | .ddrPllUnlock => Sys2Proof.Machine.execDdrPllUnlock s
  | .bringupStep ok rates => Sys2Proof.Machine.execBringupStep ok rates s
  | .bayBringupStart b => Sys2Proof.Machine.execBayBringupStart b s
  | .vfReady f => Sys2Proof.Machine.execVfReady f s
  | .hbeatIncrement => Sys2Proof.Machine.execHbeatIncrement s
  | .supplyMonitorTrip rail => Sys2Proof.Machine.execSupplyMonitorTrip rail s
  | .vddAonTrip => Sys2Proof.Machine.execVddAonTrip s
  | .thermalTrip => Sys2Proof.Machine.execThermalTrip s
  | .avsSetPoint millivolts acked => Sys2Proof.Machine.execAvsSetPoint millivolts acked s
  | .calStepRun b p item => Sys2Proof.Machine.execCalStepRun b p item s
  | .calRunDone b p item unit result => Sys2Proof.Machine.execCalRunDone b p item unit result s
  | .calGapForce b p => Sys2Proof.Machine.execCalGapForce b p s
  | .sliceMarginSweep b p l slice margin after => Sys2Proof.Machine.execSliceMarginSweep b p l slice margin after s
  | .calRecordAppend b u => Sys2Proof.Machine.execCalRecordAppend b u s
  | .creditAudit region link mismatch => Sys2Proof.Machine.execCreditAudit region link mismatch s
  | .creditStarve region link => Sys2Proof.Machine.execCreditStarve region link s
  | .duplexDisagree kind region inst which again => Sys2Proof.Machine.execDuplexDisagree kind region inst which again s
  | .mgmtCoreFault c cause => Sys2Proof.Machine.execMgmtCoreFault c cause s
  | .mgmtTakeoverDone => Sys2Proof.Machine.execMgmtTakeoverDone s
  | .regionLost r => Sys2Proof.Machine.execRegionLost r s
  | .chipFatal cause kind inst => Sys2Proof.Machine.execChipFatal cause kind inst s
  | .crashRecordAppend => Sys2Proof.Machine.execCrashRecordAppend s
  | .lmonTrip b => Sys2Proof.Machine.execLmonTrip b s
  | .ilkOpen => Sys2Proof.Machine.execIlkOpen s
  | .spdfToggle b afterUs => Sys2Proof.Machine.execSpdfToggle b afterUs s
  | .speedReport b => Sys2Proof.Machine.execSpeedReport b s
  | .plausibilityTrip b => Sys2Proof.Machine.execPlausibilityTrip b s
  | .gateForce b p => Sys2Proof.Machine.execGateForce b p s
  | .bayHoldReceipt b => Sys2Proof.Machine.execBayHoldReceipt b s
  | .heartbeatWordRx side seq checkGood onPeriod serviceGood => Sys2Proof.Machine.execHeartbeatWordRx side seq checkGood onPeriod serviceGood s
  | .heartbeatLostIsland => Sys2Proof.Machine.execHeartbeatLostIsland s
  | .islandLostAgent => Sys2Proof.Machine.execIslandLostAgent s
  | .permitRequest b lsafe ilkHighMs lmonHighMs => Sys2Proof.Machine.execPermitRequest b lsafe ilkHighMs lmonHighMs s
  | .keeperDrop b lsafe => Sys2Proof.Machine.execKeeperDrop b lsafe s
  | .outputReadback b lsafe pinHigh => Sys2Proof.Machine.execOutputReadback b lsafe pinHigh s
  | .lockstepMismatch => Sys2Proof.Machine.execLockstepMismatch s
  | .romCheck good => Sys2Proof.Machine.execRomCheck good s
  | .vddSafeExcursion => Sys2Proof.Machine.execVddSafeExcursion s
  | .lmonMismatch b => Sys2Proof.Machine.execLmonMismatch b s
  | .jtagDebugUnlock => Sys2Proof.Machine.execJtagDebugUnlock s
  | .doeRequest f dtype payload => Sys2Proof.Machine.execDoeRequest f dtype payload s
  | .doeAbort f => Sys2Proof.Machine.execDoeAbort f s
  | .injectActionStart id => Sys2Proof.Machine.execInjectActionStart id s
  | .injectDurationEnd id => Sys2Proof.Machine.execInjectDurationEnd id s
  | .injectLift id => Sys2Proof.Machine.execInjectLift id s
  | .eventRateWindow => Sys2Proof.Machine.execEventRateWindow s
  | .vddSafeReturn selfTestGood => Sys2Proof.Machine.execVddSafeReturn selfTestGood s
  | .trstNReset => Sys2Proof.Machine.execTrstNReset s
  | .flashEraseProgramDone op good => Sys2Proof.Machine.execFlashEraseProgramDone op good s

end Sys2Proof.Machine
end

