-- ==== Sys2Proof/Machine/Tick.lean ====
section
/-! DEFINITION. The tick of the timebase (R338), which the block takes while no command waits. -/

namespace Sys2Proof.Machine

/-- One microsecond passes: the slots of the head links and motor links in it are filled (R39, R183), the island watches every bay
(R393, R398), the model's clock advances, and `TIME` counts from ROOT lock on. While it slews toward PTM
master time it gains or loses one microsecond in ten thousand (100 ppm, R338).
Log 1 (DESIGN CHOICE). -/
def State.tick (s : State) : State :=
  let s := s.dnTick.mdnTick.watchBays
  let c := s.chip.clk
  let us := c.us + 1
  let adj : Int := if c.locked && us % 10000 == 0 then (if c.slew > 0 then 1 else if c.slew < 0 then -1 else 0) else 0
  let time := if c.locked then ((c.time : Int) + 1 + adj).toNat else c.time
  { s with chip := { s.chip with clk := { c with us := us, time := time, slew := c.slew - adj } } }

end Sys2Proof.Machine
end

