-- ==== Sys2Proof/Safety.lean ====
section
/-! DEFINITION. The notions that claims over runs are stated in: memories in canonical form, fuses that stay blown. -/

namespace Sys2Proof.Machine

/-- DDR5 and flash stand in their canonical form. -/
def State.memOk (s : State) : Prop :=
  Memory.wf ddrDefault s.mem.ddr = true ∧ Memory.wf norDefault s.flash.mem = true

/-- Every fuse blown in `f` is blown in `g`, and the part and the option fuses of manufacture are the same (R408, R409). -/
def Fuses.within (f g : Fuses) : Prop :=
  g.part = f.part ∧ g.inj = f.inj ∧ g.perstSys = f.perstSys ∧ g.pins = f.pins ∧ (f.sig = true → g.sig = true)
    ∧ f.revoked &&& g.revoked = f.revoked

/-- The island is in a condition in which R388, R396 and R398 allow no output high. -/
def Island.dead (i : Island) : Bool := !i.supplyOk || i.halted || i.outLatched || !i.passed || !i.rootOk

/-- The outputs of a bay obey its trips (R389 to R393, R396): with a trip of any kind, a hold or the latch `LSAFE_N` is low, with an
overspeed or plausibility trip or a hold `SSAFE_N` is low, and while the island is dead both are. -/
def BaySafe.okIn (dead : Bool) (x : BaySafe) : Prop :=
  ((dead || x.lmonTrip || x.gateTrip || x.overTrip || x.plausTrip || x.hold || x.latched) = true → x.lsafe = false)
    ∧ ((dead || x.overTrip || x.plausTrip || x.hold) = true → x.ssafe = false)

/-- Every bay's outputs obey its trips. -/
def Island.outputsOk (i : Island) : Prop :=
  i.bays.length = 32 ∧ ∀ k : Nat, (i.bays.getD k .reset).okIn i.dead

/-- A command of a fetch order is outstanding, not finished, and its function has not been reset. -/
def State.liveAt (s : State) (order : Nat) : Prop := ∃ d, s.cmdAt order = some d ∧ d.silent = false ∧ d.phase ≠ .done

/-- The command of a fetch order has finished with a status. -/
def State.endedAt (s : State) (order : Nat) (st : Status) : Prop := ∃ d ∈ s.host.cmds, d.order = order ∧ d.phase = .done ∧ d.status = st

/-! ### Parts of the machine that a command can change -/

/-- The bay or bay region that a command names exists on this part (R3). -/
def placeExists (c : Instr) (s : State) : Bool :=
  match c with
  | .hlinkSampleFrame b .. | .blockReleaseTimeout b .. | .timingHoldLimit b .. | .hlinkServoFrame b ..
  | .servoTickMissing b .. | .missedTickUnlock b .. | .rowSwitchTimeout b .. | .loopLock b .. | .loopUnlock b ..
  | .bankSwapArm b .. | .unitHandoverDone b .. | .elementFault b .. | .hlinkReplyFrame b .. | .ctrlReplyTimeout b ..
  | .hlinkTrainFrame b .. | .hlinkTrainTimeout b .. | .upTrainLimit b .. | .hlinkTrainRetry b .. | .laneRetrainStart b ..
  | .spareTrainDone b .. | .laneTrainResult b .. | .laneMapBack b .. | .laneRetrainLimit b .. | .dnLost b ..
  | .spareStandbyApply b | .wedgeProcess b .. | .frameLockLost b .. | .acqSearchTimeout b .. | .segmentSyncVote b ..
  | .sectorSoftCommit b .. | .ldpcCodewordDone b .. | .ladderTrialDone b .. | .rereadPass b .. | .ladderTimeout b ..
  | .discIdentityRead b | .sectorEncode b .. | .passBlockStart b .. | .segmentWriteSend b .. | .strategyBankLoad b ..
  | .relocExcursionStart b | .pickupFocusSearchStart b .. | .pickupStateLimit b .. | .swathJumpIssue b ..
  | .targetFrameApproach b .. | .sledFollowUpdate b .. | .restLoopJump b .. | .saTrimUpdate b .. | .layerJumpIssue b ..
  | .seekIssue b .. | .recoverHoldEnd b .. | .localRecaptureEnd b .. | .pickupFailedRetry b .. | .clvRefSwitch b
  | .clvRefRestore b | .bayProbe b | .autoTuneStart b .. | .autoTuneEnd b .. | .tuneRevertWindowEnd b ..
  | .mlinkSenseFrame b .. | .mlinkTrainFrame b .. | .mlinkTrainTimeout b | .mlinkTrainRetry b | .mlinkLost b
  | .speedLoopSample b | .spindleStart b | .spindleStop b | .catchEnd b | .alignEnd b | .rampHandover b | .startTryFail b
  | .syncEnd b | .decelLimit b | .brakeShortToggle b | .brakeShortLimit b | .startWaitEnd b | .spindleFaultRetry b
  | .testCatch b | .observerLost b | .overspeedDetect b | .overspeedStop b | .speedReady b | .sledCoarseStep b
  | .sledTarget b .. | .seekArrive b .. | .sledHoldReduce b .. | .sledPowerDown b .. | .sledTableLoad b ..
  | .hamperAutoMount b | .memberGraceExpire b .. | .bayBringupStart b | .calStepRun b .. | .calRunDone b ..
  | .calGapForce b .. | .sliceMarginSweep b .. | .calRecordAppend b .. | .lmonTrip b | .spdfToggle b .. | .speedReport b
  | .plausibilityTrip b | .gateForce b .. | .bayHoldReceipt b | .permitRequest b .. | .keeperDrop b .. | .outputReadback b ..
  | .lmonMismatch b => s.bayExists b
  | .detectorFault r .. | .detectorSpareStart r | .ldpcDecoderFault r .. | .ldpcSpareEnter r | .cengCheckpoint r ..
  | .cengCoreFault r .. | .cengTakeoverDone r => r.val < 2 || s.trust.shadow.part == .YX3216
  | _ => true

/-- The parts of the machine whose changes claims speak of. -/
inductive Area where
  /-- The queue of waiting commands. -/
  | queue
  /-- What flash holds. -/
  | flashData
  /-- Flash, its operations in progress included. -/
  | flash
  /-- What DDR5 holds. -/
  | ddr
  /-- The fuses. -/
  | fuses
  /-- Fuses, measurement slots, trail, debug lock. -/
  | trust
  /-- The safety island. -/
  | island
  /-- The injections. -/
  | injections
  /-- The record of the chip's blocks. -/
  | blocks
  /-- Configuration values. -/
  | config
  /-- The hamper slots. -/
  | hampers
  /-- The bays, with their pickups, links and spindles. -/
  | bays
  deriving DecidableEq, Repr

/-- A part of the machine is the same in two states. -/
def Area.same (a : Area) (s t : State) : Prop :=
  match a with
  | .queue => t.pending = s.pending
  | .flashData => t.flash.mem = s.flash.mem
  | .flash => t.flash = s.flash
  | .ddr => t.mem.ddr = s.mem.ddr
  | .fuses => t.trust.fuses = s.trust.fuses
  | .trust => t.trust = s.trust
  | .island => t.isl = s.isl
  | .injections => t.inj = s.inj
  | .blocks => t.blk = s.blk
  | .config => t.cfg = s.cfg
  | .hampers => t.ham = s.ham
  | .bays => t.bays = s.bays

/-- The commands that can change what flash holds. -/
def changesFlashData : Instr → Bool
  | .fwStartResult .. | .bringupStep .. | .flashEraseProgramDone .. => true
  | _ => false

/-- The commands that can change flash, its operations in progress included. -/
def changesFlash : Instr → Bool
  | .stageConfigOpen .. | .stageConfigChunk .. | .stageConfigCommit .. | .activateFwSystemReset .. | .fwactDrainEnd
  | .fwStartResult .. | .powerOnReset | .sysrstNAssert | .pePerstSystem | .watchdogFirstStage | .watchdogFinalStage
  | .coreResetRelease .. | .clockReleaseTimeout .. | .clockGoodLoss .. | .rootLost | .bringupStep .. | .supplyMonitorTrip ..
  | .calRecordAppend .. | .mgmtCoreFault .. | .mgmtTakeoverDone | .crashRecordAppend | .heartbeatLostIsland
  | .flashEraseProgramDone .. => true
  | _ => false

/-- The commands that can change what DDR5 holds. -/
def changesDdr : Instr → Bool
  | .activateFwSystemReset .. | .mergeNarrowWrite .. | .mergeEntryRetire .. | .powerOnReset | .sysrstNAssert | .pePerstSystem
  | .watchdogFinalStage | .rootLost | .bringupStep .. | .supplyMonitorTrip .. | .crashRecordAppend | .heartbeatLostIsland
  | .flashEraseProgramDone .. => true
  | _ => false

/-- The commands that can change the fuses. -/
def changesFuses : Instr → Bool
  | .attestEnforceSignatures .. | .attestRevokeKey .. => true
  | _ => false

/-- The commands that can change fuses, measurement slots, trail, debug lock. -/
def changesTrust : Instr → Bool
  | .attestEnforceSignatures .. | .attestRevokeKey .. | .stageConfigOpen .. | .activateFwSystemReset .. | .fwStartResult ..
  | .faultInjectArm .. | .faultInjectCancel .. | .faultInjectCancelAll .. | .faultInjectList .. | .diagRawWrite ..
  | .diagRawRead .. | .powerOnReset | .sysrstNAssert | .pePerstSystem | .watchdogFinalStage | .rootLost | .bringupStep ..
  | .supplyMonitorTrip .. | .crashRecordAppend | .heartbeatLostIsland | .jtagDebugUnlock | .trstNReset
  | .flashEraseProgramDone .. => true
  | _ => false

/-- The commands that can change the safety island. -/
def changesIsland : Instr → Bool
  | .activateFwSystemReset .. | .memUe .. | .powerOnReset | .sysrstNAssert | .pePerstSystem | .watchdogFinalStage
  | .clockReleaseTimeout .. | .clockGoodLoss .. | .rootLost | .ddrPllUnlock | .bringupStep .. | .supplyMonitorTrip ..
  | .thermalTrip | .creditAudit .. | .creditStarve .. | .duplexDisagree .. | .regionLost .. | .chipFatal ..
  | .crashRecordAppend | .lmonTrip .. | .ilkOpen | .spdfToggle .. | .speedReport .. | .plausibilityTrip .. | .gateForce ..
  | .bayHoldReceipt .. | .heartbeatWordRx .. | .heartbeatLostIsland | .islandLostAgent | .permitRequest .. | .keeperDrop ..
  | .outputReadback .. | .lockstepMismatch | .romCheck .. | .vddSafeExcursion | .lmonMismatch .. | .vddSafeReturn ..
  | .flashEraseProgramDone .. => true
  | _ => false

/-- The commands that can change the injections. -/
def changesInjections : Instr → Bool
  | .hlinkSampleFrame .. | .hlinkServoFrame .. | .servoTickMissing .. | .elementFault .. | .hlinkReplyFrame ..
  | .ctrlReplyTimeout .. | .hlinkTrainFrame .. | .hlinkTrainTimeout .. | .upTrainLimit .. | .hlinkTrainRetry ..
  | .laneRetrainStart .. | .spareTrainDone .. | .laneTrainResult .. | .laneMapBack .. | .laneRetrainLimit .. | .dnLost ..
  | .spareStandbyApply .. | .wedgeProcess .. | .segmentWriteSend .. | .strategyBankLoad .. | .mlinkSenseFrame ..
  | .mlinkTrainFrame .. | .mlinkTrainTimeout .. | .mlinkTrainRetry .. | .mlinkLost .. | .activateFwSystemReset ..
  | .faultInjectArm .. | .faultInjectCancel .. | .faultInjectCancelAll .. | .powerOnReset | .sysrstNAssert | .pePerstSystem
  | .watchdogFinalStage | .rootLost | .bayBringupStart .. | .supplyMonitorTrip .. | .calRunDone .. | .crashRecordAppend
  | .heartbeatLostIsland | .injectActionStart .. | .injectDurationEnd .. | .injectLift .. | .flashEraseProgramDone .. => true
  | _ => false

/-- The commands that can change the record of the chip's blocks. -/
def changesBlocks : Instr → Bool
  | .hlinkServoFrame .. | .servoTickMissing .. | .missedTickUnlock .. | .loopLock .. | .loopUnlock .. | .unitHandoverDone ..
  | .elementFault .. | .wedgeProcess .. | .acqSearchTimeout .. | .detectorFault .. | .detectorSpareStart ..
  | .ldpcDecoderFault .. | .ldpcSpareEnter .. | .discIdentityRead .. | .sectorEncode .. | .pickupFocusSearchStart ..
  | .pickupStateLimit .. | .swathJumpIssue .. | .targetFrameApproach .. | .sledFollowUpdate .. | .restLoopJump ..
  | .layerJumpIssue .. | .seekIssue .. | .recoverHoldEnd .. | .localRecaptureEnd .. | .pickupFailedRetry .. | .bayProbe ..
  | .cengCheckpoint .. | .cengCoreFault .. | .cengTakeoverDone .. | .mlinkSenseFrame .. | .mlinkTrainFrame .. | .mlinkLost ..
  | .speedLoopSample .. | .spindleStart .. | .spindleStop .. | .catchEnd .. | .alignEnd .. | .rampHandover ..
  | .startTryFail .. | .syncEnd .. | .decelLimit .. | .brakeShortToggle .. | .brakeShortLimit .. | .startWaitEnd ..
  | .spindleFaultRetry .. | .testCatch .. | .observerLost .. | .overspeedDetect .. | .overspeedStop .. | .seekArrive ..
  | .hamperEngineFault .. | .hamperEngineTakeover | .healthClearCounters .. | .activateFwSystemReset .. | .memUe ..
  | .powerOnReset | .sysrstNAssert | .pePerstSystem | .watchdogFinalStage | .coreResetRelease .. | .blockResetRequest ..
  | .clockReleaseTimeout .. | .clockGoodLoss .. | .rootLost | .ddrPllUnlock | .bringupStep .. | .bayBringupStart ..
  | .supplyMonitorTrip .. | .calRunDone .. | .creditAudit .. | .creditStarve .. | .duplexDisagree .. | .mgmtCoreFault ..
  | .mgmtTakeoverDone | .regionLost .. | .chipFatal .. | .crashRecordAppend | .bayHoldReceipt .. | .heartbeatLostIsland
  | .injectLift .. | .flashEraseProgramDone .. => true
  | _ => false

/-- The commands that can change configuration values. -/
def changesConfig : Instr → Bool
  | .hlinkSampleFrame .. | .blockReleaseTimeout .. | .hlinkServoFrame .. | .servoTickMissing .. | .missedTickUnlock ..
  | .loopLock .. | .loopUnlock .. | .elementFault .. | .ctrlReplyTimeout .. | .hlinkTrainFrame .. | .hlinkTrainTimeout ..
  | .upTrainLimit .. | .hlinkTrainRetry .. | .laneRetrainStart .. | .spareTrainDone .. | .laneTrainResult .. | .laneMapBack ..
  | .laneRetrainLimit .. | .dnLost .. | .spareStandbyApply .. | .wedgeProcess .. | .frameLockLost .. | .acqSearchTimeout ..
  | .sectorSoftCommit .. | .detectorFault .. | .ldpcCodewordDone .. | .ladderTrialDone .. | .ladderTimeout ..
  | .discIdentityRead .. | .passBlockStart .. | .segmentWriteSend .. | .pickupFocusSearchStart .. | .pickupStateLimit ..
  | .targetFrameApproach .. | .sledFollowUpdate .. | .seekIssue .. | .recoverHoldEnd .. | .localRecaptureEnd .. | .bayProbe ..
  | .cengCoreFault .. | .mlinkSenseFrame .. | .mlinkTrainFrame .. | .mlinkLost .. | .spindleStart .. | .spindleStop ..
  | .catchEnd .. | .startTryFail .. | .syncEnd .. | .decelLimit .. | .brakeShortToggle .. | .brakeShortLimit ..
  | .startWaitEnd .. | .spindleFaultRetry .. | .testCatch .. | .overspeedStop .. | .sledTarget .. | .sledPowerDown ..
  | .writeStaged .. | .blockPlace .. | .stripeCloseTimeout .. | .sectorWriteOutcome .. | .memberRebuildStep ..
  | .readRebuild .. | .memberGraceExpire .. | .hamperMountRecover .. | .hamperEngineTakeover | .fetchGrant ..
  | .dmaTransferFail .. | .completionPost .. | .holdLimitExpire .. | .createSr .. | .deleteSr .. | .createCr .. | .deleteCr ..
  | .read .. | .write .. | .verify .. | .flush .. | .abort .. | .identify .. | .health .. | .healthClearCause ..
  | .healthClearCounters .. | .healthCalRequest .. | .attestReport .. | .attestCertChain .. | .attestEnforceSignatures ..
  | .attestRevokeKey .. | .stageConfigOpen .. | .stageConfigChunk .. | .stageConfigCommit .. | .activateFwFirmware ..
  | .activateFwCoreReset .. | .activateFwSystemReset .. | .fwStartResult .. | .mountAttach .. | .mountCreate ..
  | .mountReplace .. | .unmount .. | .faultInjectArm .. | .faultInjectCancel .. | .faultInjectCancelAll ..
  | .faultInjectList .. | .diagRawWrite .. | .diagRawRead .. | .memUe .. | .bufferDraw .. | .bufferReturn .. | .powerOnReset
  | .sysrstNAssert | .pePerstSystem | .watchdogFirstStage | .watchdogFinalStage | .coreResetRelease ..
  | .clockReleaseTimeout .. | .clockGoodLoss .. | .rootLost | .bringupStep .. | .bayBringupStart .. | .supplyMonitorTrip ..
  | .calStepRun .. | .calRunDone .. | .creditAudit .. | .creditStarve .. | .duplexDisagree .. | .regionLost ..
  | .crashRecordAppend | .heartbeatLostIsland | .flashEraseProgramDone .. => true
  | _ => false

/-- The commands that can change the hamper slots. -/
def changesHampers : Instr → Bool
  | .hlinkSampleFrame .. | .blockReleaseTimeout .. | .timingHoldLimit .. | .hlinkServoFrame .. | .servoTickMissing ..
  | .missedTickUnlock .. | .rowSwitchTimeout .. | .loopLock .. | .loopUnlock .. | .bankSwapArm .. | .unitHandoverDone ..
  | .elementFault .. | .hlinkReplyFrame .. | .ctrlReplyTimeout .. | .hlinkTrainFrame .. | .hlinkTrainTimeout ..
  | .upTrainLimit .. | .hlinkTrainRetry .. | .laneRetrainStart .. | .spareTrainDone .. | .laneTrainResult .. | .laneMapBack ..
  | .laneRetrainLimit .. | .dnLost .. | .spareStandbyApply .. | .wedgeProcess .. | .frameLockLost .. | .acqSearchTimeout ..
  | .segmentSyncVote .. | .sectorSoftCommit .. | .detectorFault .. | .ldpcCodewordDone .. | .ladderTrialDone ..
  | .rereadPass .. | .ladderTimeout .. | .discIdentityRead .. | .sectorEncode .. | .passBlockStart .. | .segmentWriteSend ..
  | .strategyBankLoad .. | .relocExcursionStart .. | .pickupFocusSearchStart .. | .pickupStateLimit .. | .swathJumpIssue ..
  | .targetFrameApproach .. | .sledFollowUpdate .. | .restLoopJump .. | .saTrimUpdate .. | .layerJumpIssue .. | .seekIssue ..
  | .recoverHoldEnd .. | .localRecaptureEnd .. | .pickupFailedRetry .. | .clvRefSwitch .. | .clvRefRestore .. | .bayProbe ..
  | .autoTuneStart .. | .autoTuneEnd .. | .tuneRevertWindowEnd .. | .cengCoreFault .. | .mlinkSenseFrame ..
  | .mlinkTrainFrame .. | .mlinkTrainTimeout .. | .mlinkTrainRetry .. | .mlinkLost .. | .speedLoopSample .. | .spindleStart ..
  | .spindleStop .. | .catchEnd .. | .alignEnd .. | .rampHandover .. | .startTryFail .. | .syncEnd .. | .decelLimit ..
  | .brakeShortToggle .. | .brakeShortLimit .. | .startWaitEnd .. | .spindleFaultRetry .. | .testCatch .. | .observerLost ..
  | .overspeedDetect .. | .overspeedStop .. | .speedReady .. | .sledCoarseStep .. | .sledTarget .. | .seekArrive ..
  | .sledHoldReduce .. | .sledPowerDown .. | .sledTableLoad .. | .writeStaged .. | .blockPlace .. | .stripeCloseTimeout ..
  | .sectorWriteOutcome .. | .checkpointWrite .. | .hamperAutoMount .. | .memberRebuildStep .. | .readRebuild ..
  | .memberGraceExpire .. | .hamperMountRecover .. | .hamperEngineFault .. | .hamperEngineTakeover | .fetchGrant ..
  | .dmaTransferFail .. | .holdLimitExpire .. | .deleteSr .. | .read .. | .write .. | .verify .. | .flush .. | .abort ..
  | .healthClearCounters .. | .activateFwSystemReset .. | .fwStartResult .. | .mountAttach .. | .mountCreate ..
  | .mountReplace .. | .unmount .. | .memUe .. | .powerOnReset | .sysrstNAssert | .pePerstSystem | .watchdogFirstStage
  | .watchdogFinalStage | .coreResetRelease .. | .clockReleaseTimeout .. | .clockGoodLoss .. | .rootLost | .bringupStep ..
  | .bayBringupStart .. | .supplyMonitorTrip .. | .calStepRun .. | .calRunDone .. | .calGapForce .. | .sliceMarginSweep ..
  | .calRecordAppend .. | .creditAudit .. | .creditStarve .. | .duplexDisagree .. | .regionLost .. | .crashRecordAppend
  | .lmonTrip .. | .spdfToggle .. | .speedReport .. | .plausibilityTrip .. | .gateForce .. | .bayHoldReceipt ..
  | .heartbeatLostIsland | .permitRequest .. | .keeperDrop .. | .outputReadback .. | .lmonMismatch ..
  | .flashEraseProgramDone .. => true
  | _ => false

/-- The commands that can change the bays, with their pickups, links and spindles. -/
def changesBays : Instr → Bool
  | .hlinkSampleFrame .. | .blockReleaseTimeout .. | .timingHoldLimit .. | .hlinkServoFrame .. | .servoTickMissing ..
  | .missedTickUnlock .. | .rowSwitchTimeout .. | .loopLock .. | .loopUnlock .. | .bankSwapArm .. | .unitHandoverDone ..
  | .elementFault .. | .hlinkReplyFrame .. | .ctrlReplyTimeout .. | .hlinkTrainFrame .. | .hlinkTrainTimeout ..
  | .upTrainLimit .. | .hlinkTrainRetry .. | .laneRetrainStart .. | .spareTrainDone .. | .laneTrainResult .. | .laneMapBack ..
  | .laneRetrainLimit .. | .dnLost .. | .spareStandbyApply .. | .wedgeProcess .. | .frameLockLost .. | .acqSearchTimeout ..
  | .segmentSyncVote .. | .sectorSoftCommit .. | .detectorFault .. | .ldpcCodewordDone .. | .ladderTrialDone ..
  | .rereadPass .. | .ladderTimeout .. | .discIdentityRead .. | .sectorEncode .. | .passBlockStart .. | .segmentWriteSend ..
  | .strategyBankLoad .. | .relocExcursionStart .. | .pickupFocusSearchStart .. | .pickupStateLimit .. | .swathJumpIssue ..
  | .targetFrameApproach .. | .sledFollowUpdate .. | .restLoopJump .. | .saTrimUpdate .. | .layerJumpIssue .. | .seekIssue ..
  | .recoverHoldEnd .. | .localRecaptureEnd .. | .pickupFailedRetry .. | .clvRefSwitch .. | .clvRefRestore .. | .bayProbe ..
  | .autoTuneStart .. | .autoTuneEnd .. | .tuneRevertWindowEnd .. | .cengCoreFault .. | .mlinkSenseFrame ..
  | .mlinkTrainFrame .. | .mlinkTrainTimeout .. | .mlinkTrainRetry .. | .mlinkLost .. | .speedLoopSample .. | .spindleStart ..
  | .spindleStop .. | .catchEnd .. | .alignEnd .. | .rampHandover .. | .startTryFail .. | .syncEnd .. | .decelLimit ..
  | .brakeShortToggle .. | .brakeShortLimit .. | .startWaitEnd .. | .spindleFaultRetry .. | .testCatch .. | .observerLost ..
  | .overspeedDetect .. | .overspeedStop .. | .speedReady .. | .sledCoarseStep .. | .sledTarget .. | .seekArrive ..
  | .sledHoldReduce .. | .sledPowerDown .. | .sledTableLoad .. | .blockPlace .. | .stripeCloseTimeout .. | .checkpointWrite ..
  | .hamperAutoMount .. | .memberRebuildStep .. | .readRebuild .. | .memberGraceExpire .. | .hamperMountRecover ..
  | .hamperEngineTakeover | .read .. | .verify .. | .flush .. | .healthClearCounters .. | .healthCalRequest ..
  | .activateFwSystemReset .. | .fwactDrainEnd | .fwStartResult .. | .mountCreate .. | .mountReplace .. | .unmount ..
  | .memUe .. | .powerOnReset | .sysrstNAssert | .pePerstSystem | .watchdogFirstStage | .watchdogFinalStage
  | .coreResetRelease .. | .clockReleaseTimeout .. | .clockGoodLoss .. | .rootLost | .bringupStep .. | .bayBringupStart ..
  | .supplyMonitorTrip .. | .calStepRun .. | .calRunDone .. | .calGapForce .. | .sliceMarginSweep .. | .calRecordAppend ..
  | .creditAudit .. | .creditStarve .. | .duplexDisagree .. | .regionLost .. | .crashRecordAppend | .lmonTrip ..
  | .spdfToggle .. | .speedReport .. | .plausibilityTrip .. | .gateForce .. | .bayHoldReceipt .. | .heartbeatLostIsland
  | .islandLostAgent | .permitRequest .. | .keeperDrop .. | .outputReadback .. | .lmonMismatch .. | .injectLift ..
  | .flashEraseProgramDone .. => true
  | _ => false

/-- The commands that can change a part of the machine; none changes the queue. -/
def Area.mayChange (a : Area) (c : Instr) : Bool :=
  match a with
  | .queue => false
  | .flashData => changesFlashData c
  | .flash => changesFlash c
  | .ddr => changesDdr c
  | .fuses => changesFuses c
  | .trust => changesTrust c
  | .island => changesIsland c
  | .injections => changesInjections c
  | .blocks => changesBlocks c
  | .config => changesConfig c
  | .hampers => changesHampers c
  | .bays => changesBays c

/-- The bay whose state is the only one that a command can change; none where no such bound is claimed. -/
def ownBay (c : Instr) : Option BayId :=
  match c with
  | .timingHoldLimit b .. | .rowSwitchTimeout b .. | .loopLock b .. | .bankSwapArm b .. | .unitHandoverDone b ..
  | .hlinkReplyFrame b .. | .hlinkTrainTimeout b .. | .hlinkTrainRetry b .. | .spareTrainDone b .. | .laneTrainResult b ..
  | .laneMapBack b .. | .spareStandbyApply b | .segmentSyncVote b .. | .sectorSoftCommit b .. | .rereadPass b ..
  | .sectorEncode b .. | .passBlockStart b .. | .strategyBankLoad b .. | .relocExcursionStart b | .swathJumpIssue b ..
  | .targetFrameApproach b .. | .restLoopJump b .. | .saTrimUpdate b .. | .layerJumpIssue b .. | .seekIssue b ..
  | .pickupFailedRetry b .. | .clvRefSwitch b | .clvRefRestore b | .bayProbe b | .autoTuneStart b .. | .autoTuneEnd b ..
  | .tuneRevertWindowEnd b .. | .mlinkTrainFrame b .. | .mlinkTrainTimeout b | .mlinkTrainRetry b | .mlinkLost b
  | .speedLoopSample b | .spindleStart b | .alignEnd b | .rampHandover b | .startWaitEnd b | .spindleFaultRetry b
  | .testCatch b | .observerLost b | .overspeedDetect b | .speedReady b | .sledCoarseStep b | .sledTarget b ..
  | .seekArrive b .. | .sledHoldReduce b .. | .sledPowerDown b .. | .sledTableLoad b .. | .hamperAutoMount b
  | .memberGraceExpire b .. | .bayBringupStart b | .calStepRun b .. | .calGapForce b .. | .sliceMarginSweep b ..
  | .calRecordAppend b .. | .lmonTrip b | .spdfToggle b .. | .speedReport b | .plausibilityTrip b | .gateForce b ..
  | .bayHoldReceipt b | .permitRequest b .. | .keeperDrop b .. | .outputReadback b .. | .lmonMismatch b => some b
  | _ => none

end Sys2Proof.Machine
end

