-- ==== Sys2Proof/Certificates/Slice0/Obligations.lean ====
section
/-! DEFINITION. The statements for the provers. The first ten are about every command; the others go through the families of the table,
and each says for its commands that they answer a next state and what that state holds. -/

open Sys2Proof Sys2Proof.Machine

/-- One step takes the command at the front of the queue and runs it with the queue's rest; on an empty queue one microsecond passes, in
which the downstream lanes send what waits and the bays are watched; the queue, the flash, DDR5 and the trust engine stay as they were
(the model's choice, log entry 1). -/
def Obligations.StepRunsTheFrontCommand : Prop :=
  (∀ (c : Instr) (rest : List Instr) (s : State), step { s with pending := c :: rest } = exec c { s with pending := rest })
    ∧ ∀ s : State, s.pending = [] → ∃ t, step s = .next t ∧ t = s.tick ∧ t.us = s.us + 1 ∧ t.pending = []
        ∧ t.flash = s.flash ∧ t.mem.ddr = s.mem.ddr ∧ t.trust = s.trust
        ∧ (s.chip.clk.locked = true → s.chip.clk.slew = 0 → t.time = s.time + 1)
        ∧ (s.chip.clk.locked = false → t.time = s.time)

/-- What a power-on reset leaves (R277, R344, R345, R351, R352, R399, R407): bit 0 alone in `RESET_CAUSE`, no step of the bring-up done,
no ring, the watchdog disarmed, zeros in every measurement slot, every safety output low, links down, spindles stopped, pickups off. The
two invariants of the model hold in it. -/
def Obligations.ResetState : Prop :=
  State.reset.chip.rst.cause = 1 ∧ State.reset.sysHeld = false ∧ State.reset.coresHeld = false
    ∧ State.reset.host.stage = 0 ∧ State.reset.host.ready = false ∧ State.reset.host.srs = [] ∧ State.reset.host.crs = []
    ∧ State.reset.chip.wdog.armed = false ∧ (∀ d ∈ State.reset.trust.slots, d = List.replicate 64 0)
    ∧ (∀ b : BayId, (State.reset.safeBay b).lsafe = false ∧ (State.reset.safeBay b).ssafe = false
        ∧ (State.reset.bay b).mlink.st = .down ∧ (State.reset.bay b).spindle.st = .stopped
        ∧ ∀ p : Pu, (State.reset.link b p).st = .down ∧ (State.reset.pu b p).ms.st = .off)
    ∧ State.reset.memOk ∧ State.reset.isl.outputsOk

/-- No command stops the block (R3): a command whose bay or region exists answers a next state, and one that names a bay or region that
the part does not have answers the fault `noSuchBay`. -/
def Obligations.CommandsAnswer : Prop :=
  ∀ (c : Instr) (s : State), (placeExists c s = true → ∃ t, exec c s = .next t)
    ∧ (placeExists c s = false → exec c s = .fault .noSuchBay)

/-- Every step keeps DDR5 and flash in their canonical form: addresses rising, no entry equal to what an unlisted byte reads as. -/
def Obligations.MemoryStaysCanonical : Prop :=
  ∀ s t : State, s.memOk → step s = .next t → t.memOk

/-- Every step keeps the safety outputs under their trips (R388, R389, R390, R391, R392, R393, R396, R397, R398, R399): no output of a
bay is high while a trip, hold or latch forbids it or the island is dead. -/
def Obligations.OutputsObeyTrips : Prop :=
  ∀ s t : State, s.isl.outputsOk → step s = .next t → t.isl.outputsOk

/-- What a command leaves as it was: the queue, and every part of the machine that the command is not listed for. A fuse once blown stays
blown, a revoked key stays revoked, and the part and its manufacture options never change (R2, R408, R409). -/
def Obligations.CommandsKeepOtherParts : Prop :=
  ∀ (c : Instr) (s t : State), exec c s = .next t →
    (∀ a : Area, a.mayChange c = false → a.same s t) ∧ s.trust.fuses.within t.trust.fuses

/-- A command about one bay leaves every other bay as it was, with its pickups, links, spindle, sleds and disc (R379). -/
def Obligations.BaysAreIsolated : Prop :=
  ∀ (c : Instr) (b o : BayId) (s t : State), ownBay c = some b → o ≠ b → exec c s = .next t → t.bay o = s.bay o

/-- The watchdog (R344): the first kick after step 6 arms it and every kick clears both stages, 1 s without a kick resets the cores, 2 s
more the system, and every system or power-on reset disarms it. -/
def Obligations.WatchdogStages : Prop :=
  ∀ s : State,
    (s.chip.up.step < 6 → exec .watchdogKick s = .next s)
    ∧ (s.coresHeld = false → s.chip.up.cores = true → 6 ≤ s.chip.up.step →
      ∃ t, exec .watchdogKick s = .next t ∧ t.chip.wdog = ⟨true, s.us, none⟩)
    ∧ (s.sysHeld = false → s.chip.wdog.armed = true → s.chip.wdog.first = none →
      (s.us < s.chip.wdog.kicked + 1000000 → exec .watchdogFirstStage s = .next s)
        ∧ (s.chip.wdog.kicked + 1000000 ≤ s.us →
          ∃ t, exec .watchdogFirstStage s = .next t ∧ t.chip.wdog.first = some s.us ∧ t.coresHeld = true ∧ t.sysHeld = false
            ∧ t.chip.rst.cause = causeBit s.chip.rst.cause 8 ∧ t.isl = s.isl))
    ∧ (s.chip.wdog.armed = false → exec .watchdogFirstStage s = .next s)
    ∧ (s.chip.wdog.first = none → exec .watchdogFinalStage s = .next s)
    ∧ (∀ at' : Nat, s.sysHeld = false → s.chip.wdog.first = some at' →
      (s.us < at' + 2000000 → exec .watchdogFinalStage s = .next s)
        ∧ (at' + 2000000 ≤ s.us →
          ∃ t, exec .watchdogFinalStage s = .next t ∧ t.sysHeld = true ∧ t.chip.rst.cause = causeBit s.chip.rst.cause 3
            ∧ t.chip.wdog = ⟨false, 0, none⟩))
    ∧ (∀ bit : Nat, s.sysHeld = false → (s.assertSystem bit).chip.wdog = ⟨false, 0, none⟩)
    ∧ s.assertPower.chip.wdog = ⟨false, 0, none⟩

/-- A commit that fails (R334) leaves the values in force, the pending applications of earlier commits and the boot-state record as they
were: with no session or a session of the other target it ends `INVALID_FIELD`, with a slot that fails its check `IMAGE_INVALID`, and a
boot-state record whose program fails leaves flash as it was. -/
def Obligations.FailedCommitChangesNothing : Prop :=
  ∀ s : State,
    (∀ (tag : BitVec 6) (c : Cmd), s.stageAt tag 2 = some c → s.liveAt c.order → c.silent = false →
      (s.host.stageBusy = none → ∃ t, exec (.stageConfigCommit tag) s = .next t ∧ t.endedAt c.order .invalidField
          ∧ t.cfg = s.cfg ∧ t.flash = s.flash ∧ t.isl = s.isl ∧ t.bays = s.bays)
        ∧ (∀ q, s.host.stageBusy = some q → q.target ≠ c.b 40 % 4 →
          ∃ t, exec (.stageConfigCommit tag) s = .next t ∧ t.endedAt c.order .invalidField
            ∧ t.cfg = s.cfg ∧ t.flash = s.flash ∧ t.isl = s.isl ∧ t.bays = s.bays)
        ∧ (∀ q, s.host.stageBusy = some q → q.target = c.b 40 % 4 →
            (s.updCmd c.order (fun _ => c)).stagedGood q.target = false →
          ∃ t, exec (.stageConfigCommit tag) s = .next t ∧ t.endedAt c.order .imageInvalid
            ∧ t.cfg = s.cfg ∧ t.flash.mem = s.flash.mem ∧ t.flash.jobs = s.flash.jobs ∧ t.isl = s.isl ∧ t.bays = s.bays))
    ∧ (s.sysHeld = false → ∀ j, s.flash.jobs.find? (fun j => j.op == .bootRecord) = some j →
      ∃ t, exec (.flashEraseProgramDone .bootRecord false) s = .next t ∧ t.cfg = s.cfg ∧ t.flash.mem = s.flash.mem ∧ t.isl = s.isl
        ∧ t.bays = s.bays)

/-- The list that `FAULT_INJECT` with `IOP` 3 writes (R423): one block of 4 KiB with its magic and count, and from byte 32 an entry of 48
bytes for each injection that is active or whose consequences still hold, with its ID, state, function, frames and the fields that armed
it. -/
def Obligations.InjectionListLayout : Prop :=
  ∀ s : State, (∀ (tag : BitVec 6) (c : Cmd), s.inject? tag 3 = some c →
      exec (.faultInjectList tag) s =
        .next (((s.measureInject c 7).hostWrite c 0 (s.measureInject c 7).injectList).finish c.order .success 0))
    ∧ (∀ (tag : BitVec 6) (c : Cmd), s.inject? tag 0 = some c → ∃ t, exec (.faultInjectArm tag) s = .next t
        ∧ ∀ i ∈ t.inj.list, i ∈ s.inj.list ∨ (i.fn = c.fn ∧ i.fields = slice c.entry 40 24 ∧ i.acted = 0 ∧ i.st = .waiting))
    ∧ (∀ i : Inject, i ∈ s.listedInjects ↔ i ∈ s.inj.list ∧ (i.st ≠ .ended ∨ s.holdsProv i = true))
    ∧ s.injectList.length = 4096 ∧ slice s.injectList 0 4 = ascii "YXIJ"
    ∧ leAt s.injectList 4 4 = (s.inj.list.filter (fun i => i.st != .ended)).length % 2 ^ 32
    ∧ ∀ (k : Nat) (i : Inject), s.listedInjects[k]? = some i → 32 + 48 * k + 48 ≤ 4096 → i.id < 65536 →
        leAt s.injectList (32 + 48 * k) 2 = i.id
        ∧ leAt s.injectList (32 + 48 * k + 2) 1 = (match i.st with
          | .waiting => 0
          | .acting => 1
          | .ended => 2)
        ∧ leAt s.injectList (32 + 48 * k + 3) 1 = i.fn.val
        ∧ leAt s.injectList (32 + 48 * k + 8) 8 = i.acted % 2 ^ 64
        ∧ slice s.injectList (32 + 48 * k + 16) 24 = padTo 24 i.fields

/-- Laser-monitor and gate trips, a hold, a keeper (R382, R388, R389, R393, R398): the named outputs of the bay go low and stay tripped;
the gate once `WPERMIT` has been open with a loop unlocked for longer than its limit, the monitor once `LMON_N` has been high for 10 ms
while the bay's `LMON` bits were set. -/
def Obligations.BayTripsDropOutputs : Prop :=
  ∀ (s : State) (b : BayId), s.bayExists b = true → s.isl.bays.length = 32 →
    (∃ t, exec (.lmonTrip b) s = .next t ∧ (t.safeBay b).lmonTrip = true ∧ (t.safeBay b).lmonLow = true
      ∧ (t.safeBay b).lsafe = false ∧ (t.safeBay b).ssafe = (s.safeBay b).ssafe)
    ∧ (∀ (p : Pu) (since : Nat), (s.link b p).wpermit = true → ((s.pu b p).focus.locked = false ∨ (s.pu b p).track.locked = false) →
        (match p with
          | .A => (s.safeBay b).gateA
          | .B => (s.safeBay b).gateB) = some since → since + s.safe .safetyGateLimitUs < s.us →
        ∃ t, exec (.gateForce b p) s = .next t ∧ (t.safeBay b).gateTrip = true ∧ (t.safeBay b).lsafe = false
          ∧ (t.safeBay b).ssafe = (s.safeBay b).ssafe)
    ∧ (∀ since : Nat, ((s.bay b).pa.link.servo.lmon = true ∨ (s.bay b).pb.link.servo.lmon = true) → (s.safeBay b).lmonLow = false →
        (s.safeBay b).lmonBad = some since → since + 10000 ≤ s.us →
        ∃ t, exec (.lmonMismatch b) s = .next t ∧ (t.safeBay b).lmonTrip = true ∧ (t.safeBay b).lsafe = false)
    ∧ (∃ t, exec (.bayHoldReceipt b) s = .next t ∧ (t.safeBay b).hold = true ∧ (t.safeBay b).lsafe = false
        ∧ (t.safeBay b).ssafe = false)
    ∧ (∃ t, exec (.keeperDrop b true) s = .next t ∧ (t.safeBay b).lsafe = false ∧ (t.safeBay b).ssafe = (s.safeBay b).ssafe)
    ∧ (∃ t, exec (.keeperDrop b false) s = .next t ∧ (t.safeBay b).ssafe = false ∧ (t.safeBay b).lsafe = (s.safeBay b).lsafe)

/-- Overspeed and plausibility (R390, R391, R392): a toggle interval shorter than 2.5 s divided by the trip speed in rpm trips the bay, a
toggle within 20 µs of the last is ignored, a report is recorded with the time its check has failed since, and a check that has failed
for `safety.spdf.check_ms` trips the bay. -/
def Obligations.SpeedTripsDropBay : Prop :=
  ∀ (s : State) (b : BayId), s.bayExists b = true → s.isl.bays.length = 32 →
    (∀ n : Nat, 20 ≤ n → n * s.safe .safetyOverTripRpm < 2500000 →
      ∃ t, exec (.spdfToggle b n) s = .next t ∧ (t.safeBay b).overTrip = true ∧ (t.safeBay b).lsafe = false
        ∧ (t.safeBay b).ssafe = false)
    ∧ (∀ n : Nat, 20 ≤ n → 2500000 ≤ n * s.safe .safetyOverTripRpm →
      ∃ t, exec (.spdfToggle b n) s = .next t ∧ (t.safeBay b).spdfLast = some s.us
        ∧ (t.safeBay b).intervals = (n :: (s.safeBay b).intervals).take 24
        ∧ (t.safeBay b).ssafe = (s.safeBay b).ssafe ∧ (t.safeBay b).lsafe = (s.safeBay b).lsafe)
    ∧ (∀ n : Nat, n < 20 → ∃ t, exec (.spdfToggle b n) s = .next t ∧ t.isl = s.isl)
    ∧ (∃ t, exec (.speedReport b) s = .next t ∧ (t.safeBay b).repRpm = (s.bay b).spindle.obs.rpm
        ∧ (t.safeBay b).repAt = s.us ∧ (t.safeBay b).repState = (s.bay b).spindle.st)
    ∧ (∀ since : Nat, (s.safeBay b).failSince = some since → since + s.safe .safetySpdfCheckMs * 1000 ≤ s.us →
        ∃ t, exec (.plausibilityTrip b) s = .next t ∧ (t.safeBay b).plausTrip = true ∧ (t.safeBay b).lsafe = false
          ∧ (t.safeBay b).ssafe = false)

/-- A permit rises only on request and only with the conditions of R396; a laser permit clears the laser trips, a spindle permit the
speed trips. -/
def Obligations.PermitRaisesOutput : Prop :=
  ∀ (s : State) (b : BayId) (ilk lmon : Nat), s.isl.bays.length = 32 → s.permitCommon b ilk = true →
    ((s.safeBay b).spdfLast = none →
      ∃ t, exec (.permitRequest b false ilk lmon) s = .next t ∧ (t.safeBay b).ssafe = true ∧ (t.safeBay b).overTrip = false
        ∧ (t.safeBay b).plausTrip = false ∧ (t.safeBay b).lsafe = (s.safeBay b).lsafe)
    ∧ (s.safe .safetyRearmMs ≤ lmon → (s.safeBay b).lmonHigh = none → (s.safeBay b).overTrip = false →
        (s.safeBay b).ssafe = true → (s.safeBay b).latched = false →
      ∃ t, exec (.permitRequest b true ilk lmon) s = .next t ∧ (t.safeBay b).lsafe = true ∧ (t.safeBay b).lmonTrip = false
        ∧ (t.safeBay b).gateTrip = false ∧ (t.safeBay b).ssafe = true)

/-- Interlock, heartbeats, readback, self-checks and the island's supply (R388, R389, R394, R398): every output concerned goes low and
the island or the agent holds the machine as the rules say. That a row whose condition does not hold changes nothing is the model's
choice (log entry 2). -/
def Obligations.IslandFaultsDropAll : Prop :=
  ∀ s : State, s.isl.bays.length = 32 →
    (∃ t, exec .ilkOpen s = .next t ∧ t.isl.ilkHigh = some s.us ∧ ∀ b : BayId, (t.safeBay b).lsafe = false
        ∧ (s.safe .safetyIlkBrake = 1 → (t.safeBay b).ssafe = false)
        ∧ (s.safe .safetyIlkBrake ≠ 1 → (t.safeBay b).ssafe = (s.safeBay b).ssafe))
    ∧ (s.islandUp = true → s.isl.hbRun = true → s.sysHeld = false → s.isl.agAt + 500 ≤ s.us →
        ∃ t, exec .heartbeatLostIsland s = .next t ∧ t.chip.rst.island = true ∧ t.isl.hbRun = false
          ∧ ∀ b : BayId, (t.safeBay b).lsafe = false ∧ (t.safeBay b).ssafe = false)
    ∧ (s.isl.hbAt + 500 ≤ s.us → s.sysHeld = false → s.isl.agentLost = false →
        ∃ t, exec .islandLostAgent s = .next t ∧ t.isl.agentLost = true
          ∧ ∀ (b : BayId) (p : Pu), (t.link b p).laser = false ∧ (t.link b p).wpermit = false
            ∧ (t.bay b).spindle.drive = .floating)
    ∧ (∀ (b : BayId) (pin : Bool), s.bayExists b = true → (s.safeBay b).lsafe = false → pin = true →
        ∃ t, exec (.outputReadback b true pin) s = .next t ∧ t.isl.outLatched = true
          ∧ ∀ c : BayId, (t.safeBay c).lsafe = false ∧ (t.safeBay c).ssafe = false)
    ∧ (∃ t, exec .lockstepMismatch s = .next t ∧ t.isl.halted = true ∧ t.isl.passed = false
        ∧ ∀ b : BayId, (t.safeBay b).lsafe = false ∧ (t.safeBay b).ssafe = false)
    ∧ (∃ t, exec (.romCheck false) s = .next t ∧ t.isl.halted = true ∧ t.isl.passed = false
        ∧ ∀ b : BayId, (t.safeBay b).lsafe = false ∧ (t.safeBay b).ssafe = false)
    ∧ exec (.romCheck true) s = .next s
    ∧ (∃ t, exec .vddSafeExcursion s = .next t ∧ t.isl.supplyOk = false ∧ t.isl.passed = false
        ∧ ∀ b : BayId, (t.safeBay b).lsafe = false ∧ (t.safeBay b).ssafe = false)
    ∧ (s.isl.supplyOk = false → s.isl.halted = false →
        ∃ t, exec (.vddSafeReturn true) s = .next t ∧ t.isl.supplyOk = true ∧ t.isl.passed = true ∧ t.isl.bays = s.isl.bays)

/-- A heartbeat word is taken with its sequence number where its check bits verify; one that follows the last one and comes in time
renews the side's time of the last valid word (R394). -/
def Obligations.HeartbeatWordRenews : Prop :=
  ∀ (s : State) (seq : BitVec 16),
    (seq.toNat = (s.isl.agSeq + 1) % 65536 → ∀ p : Bool,
      ∃ t, exec (.heartbeatWordRx .island seq true p true) s = .next t ∧ t.isl.agSeq = seq.toNat ∧ t.isl.agAt = s.us
        ∧ t.isl.hbRun = !s.sysHeld ∧ t.isl.hbAt = s.isl.hbAt)
    ∧ (seq.toNat = (s.isl.hbSeq + 1) % 65536 → ∀ g : Bool,
      ∃ t, exec (.heartbeatWordRx .agent seq true true g) s = .next t ∧ t.isl.hbSeq = seq.toNat ∧ t.isl.hbAt = s.us
        ∧ t.isl.agAt = s.isl.agAt)
    ∧ (∀ p g : Bool, ∃ t, exec (.heartbeatWordRx .agent seq false p g) s = .next t ∧ t.isl.hbSeq = s.isl.hbSeq
        ∧ t.isl.hbAt = s.isl.hbAt)

/-- The pickup's states follow Table 07-3 (R143, R144, R155, R156, R164): a start, a lock, a loss of lock, missed ticks, the limit of a
state and the recovery ladder each lead to the state named there. A pickup whose ladders are spent fails, and is off where its bay proves
empty with it. -/
def Obligations.PickupStatesFollowTable : Prop :=
  ∀ (s : State) (b : BayId) (p : Pu), s.bayExists b = true →
    ((s.pu b p).ms.st = .off → (s.bay b).spindle.ready = true → (s.pu b p).link.live = true → s.portUp b p = true →
        (s.pu b p).cal.retired = false → (s.safeBay b).lsafe = true → s.coreStarts b (.pickup p) = true →
      ∃ t, exec (.pickupFocusSearchStart b p) s = .next t ∧ (t.pu b p).ms.st = .focusSearch
          ∧ (t.pu b p).link.laser = !s.isl.agentLost)
    ∧ ((s.pu b p).ms.st = .focusSearch → (s.pu b p).focus.closed = true → (s.pu b p).focus.locked = false →
        s.bndN (.pickup b p) .loopFocusLockTicks ≤ (s.pu b p).focus.within →
      ∃ t, exec (.loopLock b p .focus) s = .next t ∧ (t.pu b p).ms.st = .trackPull ∧ (t.pu b p).focus.locked = true)
    ∧ ((s.pu b p).ms.st = .trackPull → (s.pu b p).track.closed = true → (s.pu b p).track.locked = false →
        (s.pu b p).focus.locked = true → s.bndN (.pickup b p) .loopTrackLockTicks ≤ (s.pu b p).track.within →
      ∃ t, exec (.loopLock b p .track) s = .next t ∧ (t.pu b p).ms.st = .acquire ∧ (t.pu b p).track.locked = true)
    ∧ ((s.pu b p).ms.st = .follow → (s.pu b p).ms.ladders < s.liveN .loopRecoverMaxTries →
        (((s.pu b p).focus.locked = true → 4 ≤ (s.pu b p).focus.beyond →
            ∃ t, exec (.loopUnlock b p .focus) s = .next t ∧ (t.pu b p).ms.st = .recover)
          ∧ ((s.pu b p).track.locked = true → 4 ≤ (s.pu b p).track.beyond →
            ∃ t, exec (.loopUnlock b p .track) s = .next t ∧ (t.pu b p).ms.st = .recover)
          ∧ (s.portUp b p = true → s.liveN .cengMissMax ≤ (s.pu b p).link.missTick →
            ∃ t, exec (.missedTickUnlock b p) s = .next t ∧ (t.pu b p).ms.st = .recover)))
    ∧ ((s.pu b p).ms.st = .trackPull → (s.pu b p).ms.since + s.bndN (.pickup b p) .loopTrackPullUs ≤ s.us →
        ∃ t, exec (.pickupStateLimit b p) s = .next t ∧
          (if s.liveN .loopRecoverMaxTries ≤ (s.pu b p).ms.ladders then (t.pu b p).ms.st = .failed ∨ (t.pu b p).ms.st = .off
            else (t.pu b p).ms.st = .recover))
    ∧ ((s.pu b p).ms.st = .recover → (s.pu b p).ms.recap = false → (s.pu b p).ms.since + s.liveN .loopRecoverHoldUs ≤ s.us →
        (s.pu b p).ms.cause = .ordinary → (s.pu b p).focus.locked = true →
      ∃ t, exec (.recoverHoldEnd b p) s = .next t ∧ (t.pu b p).ms.st = .trackPull)
    ∧ ((s.pu b p).ms.st = .recover → (s.pu b p).ms.recap = false → (s.pu b p).ms.since + s.liveN .loopRecoverHoldUs ≤ s.us →
        (s.pu b p).ms.cause = .ordinary → (s.pu b p).focus.locked = false →
      ∃ t, exec (.recoverHoldEnd b p) s = .next t ∧ (t.pu b p).ms.st = .recover ∧ (t.pu b p).ms.recap = true)
    ∧ ((s.pu b p).ms.st = .recover → (s.pu b p).ms.recap = true → (s.pu b p).focus.closed = true →
      ∃ t, exec (.localRecaptureEnd b p) s = .next t ∧ (t.pu b p).ms.st = .trackPull)
    ∧ ((s.pu b p).ms.st = .recover → (s.pu b p).ms.recap = true → (s.pu b p).focus.closed = false → s.coresHeld = false →
        (s.pu b p).ms.since + s.bndN (.pickup b p) .loopFocusRecapUs ≤ s.us →
      ∃ t, exec (.localRecaptureEnd b p) s = .next t ∧ (t.pu b p).ms.st = .focusSearch)
    ∧ ((s.pu b p).ms.st = .failed → (s.pu b p).cal.retired = false → s.coreStarts b (.pickup p) = true →
        (s.pu b p).ms.since + 1000000 * s.liveN .loopRecoverRetryS ≤ s.us →
      ∃ t, exec (.pickupFailedRetry b p) s = .next t ∧ (t.pu b p).ms.st = .off)

/-- Jumps and seeks (R18, R35, R147, R149, R153, R157, R458): each enters its state with the swaths, the layer or the radius it was
given, a seek where the reads that wait for one leave it the turn (`State.seekInOrder`); a frame within reach on the spiral is only set
as the target. -/
def Obligations.JumpsAndSeeksIssue : Prop :=
  ∀ (s : State) (b : BayId) (p : Pu), s.bayExists b = true →
    (∀ n : Int, n ≠ 0 → n.natAbs ≤ s.bndN (.pickup b p) .loopJumpMaxSwaths → (s.pu b p).mayMove = true →
        s.coreStarts b (.pickup p) = true → s.inBand b p (((s.bay b).radiusNow p : Int) + n * swathPitch).toNat = true →
      ∃ t, exec (.swathJumpIssue b p n) s = .next t ∧ (t.pu b p).ms.st = .swathJump
        ∧ (t.pu b p).ms.jump = some ⟨n, 0, 0, (s.pu b p).ms.st, false, 0⟩)
    ∧ (∀ k : Nat, (s.pu b p).ms.rest = some k → (s.pu b p).resting = true → (s.pu b p).sheet.unconf = [] →
        s.unitDead b (.pickup p) = false →
        k + s.liveN .loopRestTurns ≤ turnOf (s.pu b p).sheet.lastConf.zone (s.pu b p).sheet.lastConf.frame →
      ∃ t, exec (.restLoopJump b p) s = .next t ∧ (t.pu b p).ms.st = .swathJump
        ∧ (t.pu b p).ms.jump = some ⟨-1, 0, 0, .follow, false, 0⟩)
    ∧ (∀ layer : Fin 12, (s.pu b p).ms.st = .follow → (s.pu b p).write.block = none → (s.pu b p).sheet.unconf = [] →
        (s.pu b p).cur = none → (s.pu b p).write.setReady layer.val = true →
        s.coreStarts b (.pickup p) = true → layer.val ≠ (s.pu b p).ms.layer →
      ∃ t, exec (.layerJumpIssue b p layer) s = .next t ∧ (t.pu b p).ms.st = .layerJump
        ∧ (t.pu b p).ms.tgtLayer = layer.val ∧ (t.pu b p).link.wpermit = false)
    ∧ (∀ radius : Nat, radiusR0 ≤ radius → radius ≤ radiusEnd → (s.pu b p).mayMove = true → (s.pu b p.other).ms.st = .off →
        s.coreStarts b .motor = true → s.coreStarts b (.pickup .A) = true → s.coreStarts b (.pickup .B) = true →
        s.seekInOrder b radius = true →
      ∃ t, exec (.seekIssue b radius) s = .next t ∧ (t.pu b p).ms.st = .seek ∧ (t.pu b p.other).ms.st = .off
        ∧ (t.bay b).zone = zoneAt radius ∧ (t.bay b).radius = radius)
    ∧ (∀ (frame : Nat) (ob : Bool), (s.pu b p).ms.st = .follow → (s.pu b p).mayMove = true → (s.pu b p).sheet.lock = .locked →
        s.coreStarts b (.pickup p) = true →
        (swathsTo ((frame : Int) - ((s.pu b p).sheet.lastConf.frame + (s.pu b p).sheet.miss : Nat))
          (framesPerTurnMilli (radiusOf (s.pu b p).sheet.lastConf.zone ((s.pu b p).sheet.lastConf.frame + (s.pu b p).sheet.miss)) / 1000)
          (if ob then s.bndN (.pickup b p) .writeJumpMarginFrames else 2)) = 0 →
      ∃ t, exec (.targetFrameApproach b p frame ob) s = .next t ∧ (t.pu b p).ms.st = .follow
        ∧ (t.pu b p).ms.tgtFrame = frame ∧ (t.pu b p).ms.hasTarget = true)

/-- Frames and ticks of the servo path (R56, R64, R152, R164, R177): the first copy of a tick that verifies is taken, another copy and
one of a tick declared missing are discarded; a missing tick moves no loop and sends its `SERVO_CMD`, also in a unit that has died; a row
switch without its report is made; the spherical-aberration trim takes its envelope at each half of the dither and steps toward the
larger, unless frozen. -/
def Obligations.ServoPathTicks : Prop :=
  ∀ (s : State) (b : BayId) (p : Pu), s.bayExists b = true →
    (∀ (l : PhysLane) (raw : Bytes) (upset : Bool) (f : Bytes) (s' : State), s.portUp b p = true → (s.link b p).live = true →
        s.rxLane b p l raw = ([f], s') → frGood f = true → frType f = 2 →
      ((s'.link b p).tickNew (servoOf f).tick = true →
          exec (.hlinkServoFrame b p l raw upset) s = .next ((s'.acceptServo b p (servoOf f) upset).after b))
        ∧ ((s'.link b p).tickNew (servoOf f).tick = false → exec (.hlinkServoFrame b p l raw upset) s = .next (s'.after b)))
    ∧ (s.portUp b p = true → (s.link b p).live = true → (s.safeBay b).lsafe = true → s.unitDead b (.pickup p) = false →
        exec (.servoTickMissing b p) s = .next (((s.updLink b p (fun l => { l with
            absent := l.absent + 1, tickNext := l.tickNext.map (fun n => (n + 1) % 65536) })).missTick b p
          (((s.link b p).servo.tick + ((s.link b p).absent + 1)) % 65536)
          ((s.link b p).servo.tq + 3200 * ((s.link b p).absent + 1) / 3)).after b)
        ∧ ∃ t, exec (.servoTickMissing b p) s = .next t ∧ (t.pu b p).focus = (s.pu b p).focus ∧ (t.pu b p).track = (s.pu b p).track
            ∧ (t.pu b p).tilt = (s.pu b p).tilt ∧ (t.pu b p).ms.st = (s.pu b p).ms.st ∧ (t.pu b p).ms.ticks = (s.pu b p).ms.ticks + 1
            ∧ ∀ (c : BayId) (q : Pu), c ≠ b → (t.pu c q).ms = (s.pu c q).ms ∧ (t.pu c q).focus = (s.pu c q).focus
                ∧ (t.pu c q).track = (s.pu c q).track ∧ (t.pu c q).tilt = (s.pu c q).tilt)
    ∧ (s.portUp b p = true → (s.link b p).live = true → s.unitDead b (.pickup p) = true →
        ∃ t, exec (.servoTickMissing b p) s = .next t ∧ (t.link b p).absent = (s.link b p).absent + 1)
    ∧ (∀ r, (s.link b p).rowReq = some r → s.portUp b p = true →
        3072 ≤ ((s.link b p).servo.tq + 2 ^ 32 - r.apply) % 2 ^ 32 → ((s.link b p).servo.tq + 2 ^ 32 - r.apply) % 2 ^ 32 < 2 ^ 31 →
        exec (.rowSwitchTimeout b p) s = .next ((s.applyRows b p r.rows r.apply).after b))
    ∧ ((s.pu b p).ms.saSlot < (s.pu b p).ms.clock / 480 → s.unitDead b (.pickup p) = false →
      ((s.pu b p).trimFrozen = false →
        ((s.pu b p).ms.saDither = true →
            ∃ t, exec (.saTrimUpdate b p) s = .next t ∧ (t.pu b p).ms.saDither = false ∧ (t.pu b p).ms.saOfs = -(s.live .loopSaDither)
              ∧ (t.pu b p).ms.saEnv = some ((s.pu b p).sheet.envSum * 65536 / max 1 (s.pu b p).sheet.envCnt)
              ∧ (t.pu b p).ms.saTrim = (s.pu b p).ms.saTrim)
          ∧ (∀ env : Nat, (s.pu b p).ms.saDither = false → (s.pu b p).ms.saEnv = some env →
            ∃ t, exec (.saTrimUpdate b p) s = .next t ∧ (t.pu b p).ms.saDither = true ∧ (t.pu b p).ms.saOfs = s.live .loopSaDither
              ∧ (t.pu b p).ms.saTrim = clampI (-(s.live .loopSaTrimMax)) (s.live .loopSaTrimMax) ((s.pu b p).ms.saTrim +
                  (if (s.pu b p).sheet.envSum * 65536 / max 1 (s.pu b p).sheet.envCnt < env then s.live .loopSaTrimStep
                   else if env < (s.pu b p).sheet.envSum * 65536 / max 1 (s.pu b p).sheet.envCnt then -(s.live .loopSaTrimStep) else 0))))
        ∧ ((s.pu b p).trimFrozen = true →
            ∃ t, exec (.saTrimUpdate b p) s = .next t ∧ (t.pu b p).ms.saTrim = (s.pu b p).ms.saTrim
              ∧ (t.pu b p).ms.saDither = (s.pu b p).ms.saDither ∧ (t.pu b p).ms.saOfs = (s.pu b p).ms.saOfs))

/-- Sled commands (R212, R215, R216, R219, R220, R221): a standing sled takes its target as a plan that ends on the nearest microstep, a
seek that has settled ends, the current falls to the hold scale, a sled that may go dark is turned off after 20 ms at a full step, and a
table is loaded into the bank that no enabled sled uses. -/
def Obligations.SledCommandsAct : Prop :=
  ∀ (s : State) (b : BayId) (p : Pu), s.bayExists b = true →
    (∀ (radius r0 : Int) (seek : Bool), ((s.bay b).sled p).r0 = some r0 → s.sledMovable b p = true → s.mportUp b = true →
        s.coreStarts b .motor = true → (s.pu b p).ms.st ≠ .seek → ((s.bay b).sled p).vel = 0 → ((s.bay b).sled p).acc = 0 →
      ∃ t q, exec (.sledTarget b p radius seek) s = .next t ∧ ((t.bay b).sled p).plan = some q
        ∧ q.target = posAt r0 ((if seek then s.boundary (.bay b) 9 else s).sledBound b radius) ∧ q.seek = seek
        ∧ ((t.bay b).sled p).scale = (if seek then s.boundary (.bay b) 9 else s).runScale b)
    ∧ (∀ k : Nat, ((s.bay b).sled p).reached = some k → ((s.bay b).sled p).seeking = true → (s.pu b p).ms.st = .seek →
        k + s.liveN .sledSettleMs * 1000 ≤ s.us →
      ∃ t, exec (.seekArrive b p) s = .next t ∧ (t.pu b p).ms.st = .trackPull)
    ∧ (((s.bay b).sled p).enabled = true → ((s.bay b).sled p).plan = none → ((s.bay b).sled p).ramp = none →
        ((s.bay b).sled p).scale ≠ s.runScale b * s.bndN (.bay b) .sledHoldPct / 100 →
        ((s.bay b).sled p).moved + s.liveN .sledHoldDelayMs * 1000 ≤ s.us →
      ∃ t, exec (.sledHoldReduce b p) s = .next t ∧ ((t.bay b).sled p).ramp = some s.us ∧ ((t.bay b).sled p).pos = ((s.bay b).sled p).pos)
    ∧ ((s.bay b).spindle.st = .stopped → ((s.bay b).sled p).enabled = true → ((s.bay b).sled p).lost = false →
        ((s.bay b).sled p).plan = none → s.coreStarts b .motor = true →
        rnd ((s.bay b).sled p).pos (256 * 65536) * (256 * 65536) = ((s.bay b).sled p).pos →
        ((s.bay b).sled p).moved + 20000 ≤ s.us →
      ∃ t, exec (.sledPowerDown b p) s = .next t ∧ ((t.bay b).sled p).enabled = false ∧ ((t.bay b).sled p).off = true
        ∧ ((t.bay b).sled p).pos = ((s.bay b).sled p).pos)
    ∧ (∀ (bank : Bool) (table : Bytes), table.length = 4096 → ((s.bay b).sledA.enabled = true → (s.bay b).sledA.bank ≠ bank) →
        ((s.bay b).sledB.enabled = true → (s.bay b).sledB.bank ≠ bank) → (s.bay b).mlink.st = .active → (s.bay b).mlink.load = none →
        s.coresHeld = false →
      ∃ t, exec (.sledTableLoad b bank table) s = .next t ∧ (t.bay b).mlink.load = some (bank, table, 0, 16))

/-- The generator and the follow targets (R149, R158, R214): a coarse step is counted for both sleds of a bay, and at each 80th tick a
mean displacement beyond the dead band moves the sled by the displacement, a steered sled to the reference's radius; one beyond the limit
leads to `RECOVER`. -/
def Obligations.SledsFollowPickups : Prop :=
  ∀ (s : State) (b : BayId), s.bayExists b = true →
    (s.mportUp b = true → (s.bay b).mlink.st = .active → s.unitDead b .motor = false →
        8 * (s.bay b).sledA.step ≤ (s.bay b).mlink.frames / 2 →
        (∀ p : Pu, ((s.bay b).sled p).plan = none ∧ ((s.bay b).sled p).rephase = none ∧ ((s.bay b).sled p).enabled = true) →
      ∃ t, exec (.sledCoarseStep b) s = .next t ∧ ∀ p : Pu, ((t.bay b).sled p).step = ((s.bay b).sled p).step + 1
        ∧ ((t.bay b).sled p).pos = ((s.bay b).sled p).pos)
    ∧ (∀ (p : Pu) (r0 : Int), (s.pu b p).ms.st = .follow → s.unitDead b (.pickup p) = false →
        (s.pu b p).ms.followSlot < (s.pu b p).ms.clock / 80 → ((s.bay b).sled p).r0 = some r0 →
        (s.pu b p).ms.dispMean.natAbs ≤ s.liveN .loopSledLimitUm * 65536 →
      ((s.pu b p).ms.steer = false → s.liveN .loopSledDeadbandUm * 65536 < (s.pu b p).ms.dispMean.natAbs →
          exec (.sledFollowUpdate b p) s =
            .next (((s.updMs b p (fun m => { m with followSlot := m.clock / 80 })).sledTarget b p
              (radiusAt r0 ((s.bay b).sled p).pos + rnd ((s.pu b p).ms.dispMean * 100) 65536) false).after b))
        ∧ (∀ r : Nat, (s.pu b p).ms.steer = true → (if (s.bay b).ref == .A then (s.bay b).radA else (s.bay b).radB) = some r →
          exec (.sledFollowUpdate b p) s =
            .next (((s.updMs b p (fun m => { m with followSlot := m.clock / 80 })).sledTarget b p r false).after b)))
    ∧ (∀ p : Pu, (s.pu b p).ms.st = .follow → s.unitDead b (.pickup p) = false → (s.pu b p).ms.limitHit = false →
        (s.pu b p).ms.followSlot < (s.pu b p).ms.clock / 80 →
        s.liveN .loopSledLimitUm * 65536 < (s.pu b p).ms.dispMean.natAbs → (s.pu b p).cur = none → (s.pu b p).write.block = none →
        (s.pu b p).ms.ladders < s.liveN .loopRecoverMaxTries →
      ∃ t, exec (.sledFollowUpdate b p) s = .next t ∧ (t.pu b p).ms.st = .recover)

/-- Banks and tuning (R159, R166, R168, R172, R173, R175): a well-formed bank is armed for its tick behind its loop, one that is not
leaves every loop as it was; a tune starts from the mean drive, one that may no longer run, has its cycles or has outlived its limit
ends, and a bank that survived its window is recorded; the velocity reference moves to the other pickup and back. -/
def Obligations.BanksAndTuning : Prop :=
  ∀ (s : State) (b : BayId) (p : Pu), s.bayExists b = true →
    (∀ (src : BankSource) (bank : Bytes) (tick : Nat), s.coreStarts b (.pickup p) = true →
      (bankGood bank = true →
          ∃ t, exec (.bankSwapArm b .trackAcq p src bank tick) s = .next t ∧ (t.pu b p).track.shAcq = some (bankOf bank)
            ∧ (t.pu b p).track.armed = (s.pu b p).track.armed ++ [⟨.acq, src, tick⟩] ∧ (t.pu b p).track.acq = (s.pu b p).track.acq)
        ∧ (bankGood bank = false → ∃ t, exec (.bankSwapArm b .trackAcq p src bank tick) s = .next t ∧ t.pu b p = s.pu b p))
    ∧ (∀ lp : LoopSel, lp ≠ .tilt → s.tuneOk b p = true → s.coreStarts b (.pickup p) = true → (s.bay b).pa.tuning = none →
        (s.bay b).pb.tuning = none → ((s.pu b p).loop lp).locked = true → ((s.pu b p).loop lp).useFollow = true →
      ∃ t, exec (.autoTuneStart b p lp) s = .next t ∧ (t.pu b p).tuning = some lp)
    ∧ (∀ (lp : LoopSel) (q : Tune) (k : Bank), (s.pu b p).tuning = some lp → ((s.pu b p).loop lp).tune = some q →
        ((s.pu b p).loop lp).follow = some k →
        (s.tuneOk b p = false ∨ s.liveN .cengTuneCycles ≤ q.cycles.length ∨ q.since + s.liveN .cengTuneMaxMs * 1000 ≤ s.us) →
      ∃ t, exec (.autoTuneEnd b p) s = .next t ∧ ((t.pu b p).loop lp).tune = none ∧ ((t.pu b p).loop lp).follow = some k)
    ∧ (∀ (lp : LoopSel) (n : Nat), lp ≠ .tilt → ((s.pu b p).loop lp).swapAge = some n → ((s.pu b p).loop lp).swapSrc = .tune →
        s.liveN .cengSupRevertTicks ≤ n →
      ∃ t, exec (.tuneRevertWindowEnd b p lp) s = .next t ∧ ((t.pu b p).loop lp).swapAge = none ∧ (t.pu b p).cal.recDue ≠ none)
    ∧ ((s.bay b).refLost + s.liveN .loopClvSwitchWedges * frameUs (s.bay b).zone ≤ s.us →
        s.locked b (s.bay b).ref.other = true →
      ∃ t, exec (.clvRefSwitch b) s = .next t ∧ (t.bay b).ref = (s.bay b).ref.other ∧ (t.bay b).refLost = s.us
        ∧ (t.pu b (s.bay b).ref.other).ms.steer = false)
    ∧ ((s.bay b).ref ≠ s.configuredRef b → s.locked b (s.configuredRef b) = true → (s.bay b).pa.write.block = none →
        (s.bay b).pb.write.block = none →
      ∃ t, exec (.clvRefRestore b) s = .next t ∧ (t.bay b).ref = s.configuredRef b ∧ (t.bay b).refLost = s.us)

/-- Control engines (R176, R178, R179): a running core checkpoints each 100 µs into its two records in turn; a core that fails is fenced
and its spare starts; the takeover ends with every unit of the engine moved, and the hand-over of one unit ends by its own command. -/
def Obligations.ControlEnginesTakeOver : Prop :=
  ∀ (s : State) (r : RegionId), (r.val < 2 ∨ s.trust.shadow.part = .YX3216) →
    (∀ e : Fin 7, s.coresHeld = false → (s.blkOf ⟨5, r.val, e.val⟩).up = true → (s.engCk r.val e.val).at' + 100 ≤ s.us →
      ∃ t, exec (.cengCheckpoint r e) s = .next t ∧ (t.engCk r.val e.val).seq = (s.engCk r.val e.val).seq + 1
        ∧ (t.engCk r.val e.val).at' = s.us
        ∧ (if (s.engCk r.val e.val).seq % 2 = 0 then
            (t.engCk r.val e.val).recA = s.ckRecord r.val e.val ((s.engCk r.val e.val).seq + 1) (s.evQueue r.val e.val).recs
              ∧ (t.engCk r.val e.val).recB = (s.engCk r.val e.val).recB
          else (t.engCk r.val e.val).recB = s.ckRecord r.val e.val ((s.engCk r.val e.val).seq + 1) (s.evQueue r.val e.val).recs
              ∧ (t.engCk r.val e.val).recA = (s.engCk r.val e.val).recA))
    ∧ (∀ (e : Fin 7) (cause : FaultCause), s.sysHeld = false → (s.blkOf ⟨5, r.val, e.val⟩).up = true →
      ∃ t, exec (.cengCoreFault r e cause) s = .next t ∧ (t.blkOf ⟨5, r.val, e.val⟩).up = false)
    ∧ (∀ x, s.blk.takeovers.find? (fun x => x.region == r.val && x.kind == 5 && x.inst < 6) = some x →
      ∃ t, exec (.cengTakeoverDone r) s = .next t ∧ (∀ u ∈ engineUnits r.val x.inst, u ∈ t.blk.moved)
        ∧ ∀ y ∈ t.blk.takeovers, ¬ (y.region = r.val ∧ y.kind = 5 ∧ y.inst = x.inst))
    ∧ (∀ (b : BayId) (u : UnitSel), s.bayExists b = true →
        s.blk.takeovers.any (fun x => x.region == regionOf b && x.kind == 5 && x.inst == handoverNo b u) = true →
      ∃ t, exec (.unitHandoverDone b u) s = .next t
        ∧ ∀ y ∈ t.blk.takeovers, ¬ (y.region = regionOf b ∧ y.kind = 5 ∧ y.inst = handoverNo b u))

/-- Training of a head link (Table 02-8, R52, R53, R59, R456): a good `TRAIN` frame leads to `UP_TRAIN`, a time limit without a trained
lane begins the next attempt or ends in `FAILED`, a failed link tries again after its interval, and a lost downstream trains anew with
both emitters' permits withdrawn. -/
def Obligations.HeadLinkTrains : Prop :=
  ∀ (s : State) (b : BayId) (p : Pu), s.bayExists b = true → s.portUp b p = true →
    (∀ (l : PhysLane) (raw f0 : Bytes) (s' : State), (s.link b p).st = .dsTrain → l ≠ .UPS → ((s.link b p).lane l).retired = false →
        s.injectFrame (laneTarget b p l.code) raw = ([f0], s') → frGood (scramble f0) = true → frType (scramble f0) = 15 →
        beAt (scramble f0) 4 8 = 0x4A484C54524E3031 →
      ∃ t, exec (.hlinkTrainFrame b p l raw) s = .next t ∧ (t.link b p).st = .upTrain
        ∧ (t.link b p).ident = some (slice (scramble f0) 16 256))
    ∧ ((s.link b p).st = .dsTrain → (s.link b p).since + 2000 ≤ s.us →
      ∃ t, exec (.hlinkTrainTimeout b p) s = .next t ∧ (t.link b p).st =
        if s.bndN (.link b p) .hlinkTrainMaxAttempts ≤ (s.link b p).attempts + 1 then .failed else .dsTrain)
    ∧ ((s.link b p).st = .upTrain → (s.link b p).since + 5000 ≤ s.us → (∀ l : PhysLane, (s.link b p).trained l = false) →
        s.bndN (.link b p) .hlinkTrainMaxAttempts ≤ (s.link b p).attempts + 1 →
      ∃ t, exec (.upTrainLimit b p) s = .next t ∧ (t.link b p).st = .failed)
    ∧ ((s.link b p).st = .failed → (s.link b p).noRetry = false →
        (s.link b p).since + 1000000 * s.liveN .hlinkTrainRetryIntervalS ≤ s.us →
      ∃ t, exec (.hlinkTrainRetry b p) s = .next t ∧ (t.link b p).st = .dsTrain)
    ∧ ((s.link b p).live = true → (8 ≤ (s.link b p).seqStall ∨ 8 ≤ (s.link b p).absent) →
      ∃ t, exec (.dnLost b p) s = .next t ∧ (t.link b p).st = .dsTrain ∧ (t.link b p).laser = false ∧ (t.link b p).wpermit = false)

/-- Lanes (Table 02-8, R52, R57, R58, R331): a bad lane gives its traffic to a spare that stands by, a lane that fails its retrain is
retired, one that trains waits to be mapped back or ends one-lane mode, and the spare stands by, is mapped in or goes idle. -/
def Obligations.LanesRetrain : Prop :=
  ∀ (s : State) (b : BayId) (p : Pu), s.bayExists b = true → s.portUp b p = true →
    (∀ l : PhysLane, (s.link b p).live = true → s.laneBad b p l = true → ((s.link b p).lane l).failed = false →
        ((s.link b p).logical l).isSome = true → l ≠ .UPS → (s.bay b).spare = .standby p →
      ∃ t, exec (.laneRetrainStart b p l) s = .next t ∧ (t.bay b).spare = .carrying p ∧ ((t.link b p).lane l).failed = true)
    ∧ ((s.bay b).spare = .training p → (s.link b p).ups.failed = false →
      ∃ t, exec (.spareTrainDone b p false) s = .next t ∧ (t.bay b).spare = .idle ∧ (t.link b p).ups.seq = some 0)
    ∧ ((s.bay b).spare = .training p → (s.link b p).oneLane = true → (s.link b p).up0.failed = true → (s.link b p).up1.failed = false →
      ∃ t, exec (.spareTrainDone b p true) s = .next t ∧ (t.bay b).spare = .carrying p)
    ∧ (∀ l : PhysLane, (s.link b p).live = true → l ≠ .UPS → (s.link b p).training.contains l = true →
        (∃ t, exec (.laneTrainResult b p l false) s = .next t ∧ ((t.link b p).lane l).retired = true)
        ∧ ((s.link b p).oneLane = false → ∃ t, exec (.laneTrainResult b p l true) s = .next t
            ∧ ((t.link b p).lane l).retrained = true ∧ ((t.link b p).lane l).seq = some 0 ∧ (t.link b p).training.contains l = false))
    ∧ ((s.bay b).spare = .carrying p → (s.link b p).live = true → (s.link b p).training.contains .UPS = true →
      ∃ t, exec (.laneTrainResult b p .UPS false) s = .next t ∧ (t.link b p).ups.retired = true)
    ∧ ((s.link b p).live = true → (s.link b p).up0.retrained = true → (s.link b p).up0.retired = false →
        (s.link b p).up1.retired = false → (s.link b p).up1.retrained = false → (s.link b p).up1.failed = false → (s.bay b).spare = .carrying p → s.idlePeriod b p = true →
      ∃ t, exec (.laneMapBack b p) s = .next t ∧ (t.link b p).up0.failed = false ∧ (t.link b p).up0.retrained = false
        ∧ (t.link b p).mapNext = some (.UP0, .UP1))
    ∧ ((s.link b p).st = .laneRetrain → (s.link b p).since + 1100 ≤ s.us →
      ∃ t, exec (.laneRetrainLimit b p) s = .next t ∧ (t.link b p).oneLane = true ∧ (t.link b p).st = .active)
    ∧ (s.mportUp b = true → exec (.spareStandbyApply b) s = .next ((s.spareStandby b).after b))

/-- Control operations (R51): a reply ends the operation of its tag, and one without a reply is sent again with the same tag until
`hlink.ctrl.max_tries`, then the whole link is trained. -/
def Obligations.ControlOperationsComplete : Prop :=
  ∀ (s : State) (b : BayId) (p : Pu), s.bayExists b = true → s.portUp b p = true →
    (∀ (l : PhysLane) (raw f : Bytes) (s' : State) c, (s.link b p).live = true → s.rxLane b p l raw = ([f], s') → frGood f = true →
        frType f = 3 → (s'.link b p).ctrl.find? (fun c => c.ctag == byteAt f 4) = some c → c.discard = false → c.op ≠ 3 →
        (s'.link b p).ctrlQ = [] → (s'.pu b p).write.load = none →
      ∃ t, exec (.hlinkReplyFrame b p l raw) s = .next t ∧ (t.link b p).lastReply = slice f 4 500
        ∧ (t.link b p).ctrl = (s'.link b p).ctrl.filter (fun x => x.ctag != c.ctag))
    ∧ (∀ (tag : BitVec 8) c, (s.link b p).ctrl.find? (fun c => c.ctag == tag.toNat) = some c →
        c.sent + s.liveN .hlinkCtrlReplyTimeoutUs ≤ s.us →
      (c.tries < s.liveN .hlinkCtrlMaxTries →
          ∃ t, exec (.ctrlReplyTimeout b p tag) s = .next t
            ∧ (t.link b p).ctrl = (s.link b p).ctrl.map (fun x => if x.ctag == c.ctag then { x with tries := x.tries + 1, sent := s.us } else x))
        ∧ (s.liveN .hlinkCtrlMaxTries ≤ c.tries →
          ∃ t, exec (.ctrlReplyTimeout b p tag) s = .next t ∧ (t.link b p).st = .dsTrain ∧ (t.link b p).ctrl = []))

/-- Blocks of samples (R54, R55, R72, R75): a good block of the window joins its link, the oldest block goes to the sheet channel erased
where it has not come in time, and a track whose timing has been held for its limit is lost from the bit where it came to it; once a
segment, all tracks in service having come to bit 792, the vote places them, which leaves a lost track lost. -/
def Obligations.BlocksReachSheetChannel : Prop :=
  ∀ (s : State) (b : BayId) (p : Pu), s.bayExists b = true → s.portUp b p = true →
    (∀ (l : PhysLane) (raw f : Bytes) (s' : State) (n : Nat), (s.link b p).live = true → s.rxLane b p l raw = ([f], s') →
        frGood f = true → frType f = 1 → (s'.link b p).mapsNew l = false → (s'.link b p).blockOf (frTsh f) = some n →
        (s'.link b p).nextBlock ≤ n → n < (s'.link b p).nextBlock + 8 →
        (∀ x ∈ (s'.link b p).got, x.n ≠ n ∧ x.n < (s'.link b p).nextBlock + 8) →
      ∃ t, exec (.hlinkSampleFrame b p l raw) s = .next t ∧ (t.link b p).got = (s'.link b p).got ++ [⟨n, slice f 4 504, false⟩]
        ∧ (t.link b p).nextBlock = (s'.link b p).nextBlock)
    ∧ ((s.link b p).live = true → (∀ x ∈ (s.link b p).got, x.n ≠ (s.link b p).nextBlock) →
      exec (.blockReleaseTimeout b p) s =
        .next ((((s.updLink b p (fun l => { l with nextBlock := l.nextBlock + 1 })).sheetBlock b p
          ⟨(s.link b p).nextBlock, erasedData, true⟩).releaseAll b p).after b))
    ∧ (∀ (i : Fin 16) (k : Nat), (s.pu b p).sheet.tracks.length = 16 → ((s.pu b p).sheet.tracks.getD i.val .idle).lost = none →
        ((s.pu b p).sheet.tracks.getD i.val .idle).limit = some k →
      ∃ t, exec (.timingHoldLimit b p i) s = .next t
        ∧ ((t.pu b p).sheet.tracks.getD i.val .idle).lost = some k
        ∧ ∀ j : Nat, j ≠ i.val → (t.pu b p).sheet.tracks.getD j .idle = (s.pu b p).sheet.tracks.getD j .idle)
    ∧ ((s.pu b p).sheet.lock = .locked → (s.pu b p).sheet.voted = false →
        (∀ i ∈ (s.pu b p).inService, 792 ≤ ((s.pu b p).sheet.tracks.getD i .idle).bits.length) →
      ∃ t, exec (.segmentSyncVote b p) s = .next t ∧ (t.pu b p).sheet.tracks = s.voteTracks b p ∧ (t.pu b p).sheet.voted = true
        ∧ (t.pu b p).sheet.tracks.length = (s.pu b p).sheet.tracks.length
        ∧ ∀ i : Nat, i < (s.pu b p).sheet.tracks.length →
            (i ∉ (s.pu b p).inService → (t.pu b p).sheet.tracks.getD i .idle = ((s.pu b p).sheet.tracks.getD i .idle).settle)
            ∧ (((s.pu b p).sheet.tracks.getD i .idle).settle.lost.isSome = true →
              ∃ st, (t.pu b p).sheet.tracks.getD i .idle = { ((s.pu b p).sheet.tracks.getD i .idle).settle with stat := st }))

/-- Wedges (R68, R69, R70, R146, R154): a wedge of an unknown format refuses the disc and turns both pickups off; a wedge without an
answer is classed in frame lock once every track has passed its window, and searched on in a search; the limit of misses ends frame lock
and begins a search; a search that runs out leads to `RECOVER`. -/
def Obligations.WedgesAreClassed : Prop :=
  ∀ (s : State) (b : BayId) (p : Pu), s.bayExists b = true → s.portUp b p = true →
    (∀ (o r : State) (a : WedgeAddr), o = s.openBoundary b p → (o.pu b p).link.live = true → o.portUp b p = true →
        (o.bay b).spindle.backward = false →
        r = o.updPu b p (fun u => { u with cal := u.cal.countFrame u.link.rowReq.isNone }) → a.ver ≠ 1 →
        (((o.pu b p).sheet.lock = .locked ∧ ∃ shift, r.wedgeAt b p (o.pu b p).sheet.nextWedge = some (shift, some a))
          ∨ ∃ since first pos, (o.pu b p).sheet.lock = .search since first ∧ o.wedgeSought b p first = some (pos, a)) →
      ∃ t, exec (.wedgeProcess b p) s = .next t ∧ (t.pu b .A).ms.st = .off ∧ (t.pu b .B).ms.st = .off
        ∧ (t.bay b).disc.rejected.isSome = true)
    ∧ (∀ (o r : State), o = s.openBoundary b p → (o.pu b p).link.live = true → o.portUp b p = true →
        (o.bay b).spindle.backward = false → (o.pu b p).sheet.lock = .locked →
        r = o.updPu b p (fun u => { u with cal := u.cal.countFrame u.link.rowReq.isNone }) →
      (r.wedgeAt b p (o.pu b p).sheet.nextWedge = none → exec (.wedgeProcess b p) s = .next (r.after b))
        ∧ (∀ shift, r.wedgeAt b p (o.pu b p).sheet.nextWedge = some (shift, none) →
          exec (.wedgeProcess b p) s =
            .next ((r.lockedWedge b p shift.isSome none (shift.getD (o.pu b p).sheet.nextWedge)).after b)))
    ∧ (∀ (o : State) since first, o = s.openBoundary b p → (o.pu b p).link.live = true → o.portUp b p = true →
        (o.bay b).spindle.backward = false → (o.pu b p).sheet.lock = .search since first → o.wedgeSought b p first = none →
      exec (.wedgeProcess b p) s = .next ((o.searchOn b p).after b))
    ∧ ((s.pu b p).sheet.lock = .locked → s.liveN .sheetWedgeMaxMiss ≤ (s.pu b p).sheet.miss →
      ∃ t, exec (.frameLockLost b p) s = .next t ∧ (t.pu b p).sheet.lock = .search s.us none ∧ (t.pu b p).sheet.miss = 0
        ∧ (t.pu b p).sheet.unconf = [] ∧ (t.pu b p).cur = none)
    ∧ (∀ since first, (s.pu b p).sheet.lock = .search since first → (s.pu b p).ms.st = .acquire →
        since + s.liveN .sheetAcqSearchTimeoutUs ≤ s.us → (s.pu b p).ms.ladders < s.liveN .loopRecoverMaxTries →
      ∃ t, exec (.acqSearchTimeout b p) s = .next t ∧ (t.pu b p).ms.st = .recover)

/-- Reading a sector (R97, R98, R112, R116, R117, R119, R121): a sector emitted whole is committed with its 160 codewords open, a
codeword takes its verdict, the next trial of a ladder runs, a re-read keeps the slot, and a ladder out of time ends its sector. -/
def Obligations.SectorsAreDecoded : Prop :=
  ∀ (s : State) (b : BayId) (p : Pu), s.bayExists b = true →
    (∀ q : SoftSlot, (s.pu b p).slots.find? (fun q => !q.reading && !q.done && q.segs.length == 5) = some q → s.portUp b p = true →
      ∃ t, exec (.sectorSoftCommit b p) s = .next t ∧ ∃ q' ∈ (t.pu b p).slots, q'.sector = q.sector ∧ q'.done = true
        ∧ q'.cws = List.replicate 160 .open')
    ∧ (∀ (sector : FrameAddr) (cw other : Fin 160) (q : SoftSlot), (s.pu b p).slots.find? (fun q => q.sector == sectorOf sector) = some q →
        q.done = true → q.cws.length = 160 → (q.cws.getD cw.val .open').verdict = none → (q.cws.getD other.val .open').verdict = none →
        other ≠ cw → s.decodersReach (regionOf b) q (0 < q.rereads) = true → s.sysHeld = false →
      ∃ t, exec (.ldpcCodewordDone b p sector cw) s = .next t ∧
        (t.pu b p).slots.find? (fun q => q.sector == sectorOf sector)
          = some { q with cws := q.cws.set cw.val (q.decodeCw p (cw.val / 10) (cw.val % 10)) })
    ∧ (∀ (sector : FrameAddr) (trial : Trial) (q q' : SoftSlot), (s.pu b p).slots.find? (fun q => q.sector == sectorOf sector) = some q →
        q.plan.head? = some trial → q.decided = true → s.decodersReach (regionOf b) q true = true → s.sysHeld = false →
        q' = { q.runTrial p trial with
          plan := q.plan.tail, rung := trialRung trial, misc := (outerPlain (q.runTrial p trial).cws).misc } →
      exec (.ladderTrialDone b p sector trial) s =
        .next ((if (outerPlain q'.cws).good then s.finishSector b p q' (if 0 < q.rereads then 5 else trialRung trial) (outerPlain q'.cws)
          else s.ladderNext b p q').after b))
    ∧ (∀ (sector : FrameAddr) (q : SoftSlot) (r : ReadReq), (s.pu b p).slots.find? (fun q => q.sector == sectorOf sector && q.rung = 6) = some q →
        (s.pu b p).reads.find? (fun r => r.sector == sectorOf sector && 0 < r.again) = some r → (s.pu b p).cur = none →
        (s.pu b p).write.block = none →
        (s.pu b p).sheet.lock = .locked → (s.pu b p).sheet.lastConf = ⟨p, (sectorOf sector).layer, (sectorOf sector).zone, (sectorOf sector).frame⟩ →
        (s.pu b p).sheet.releasing = true → (s.pu b p).ms.st = .follow → s.portUp b p = true → s.detectorUp b p = true →
      ∃ t, exec (.rereadPass b p sector) s = .next t ∧ (t.pu b p).cur = some r
        ∧ ∃ q' ∈ (t.pu b p).slots, q'.sector = sectorOf sector ∧ q'.reading = true ∧ q'.segs = [] ∧ q'.rereads = q.rereads + 1)
    ∧ (∀ (sector : FrameAddr) (q : SoftSlot), (s.pu b p).slots.find? (fun q => q.sector == sectorOf sector) = some q → q.inLadder = true →
        q.begun + s.liveN .eccRetryMaxMs * 1000 ≤ s.us →
      exec (.ladderTimeout b p sector) s = .next ((s.ladderEnds b p q).after b))

/-- Detectors and decoders (R98, R99, R124): a failed one is fenced and its spare starts; the spare's start ends the oldest takeover of
its kind. -/
def Obligations.DetectorsAndDecodersTakeOver : Prop :=
  ∀ (s : State) (r : RegionId) (cause : FaultCause), (r.val < 2 ∨ s.trust.shadow.part = .YX3216) →
    (∀ d : Fin 17, s.sysHeld = false → (s.blkOf ⟨2, r.val, d.val⟩).up = true →
      ∃ t, exec (.detectorFault r d cause) s = .next t ∧ (t.blkOf ⟨2, r.val, d.val⟩).up = false)
    ∧ (∀ d : Fin 26, s.sysHeld = false → (s.blkOf ⟨3, r.val, d.val⟩).up = true →
      ∃ t, exec (.ldpcDecoderFault r d cause) s = .next t ∧ (t.blkOf ⟨3, r.val, d.val⟩).up = false)
    ∧ (∀ x, s.blk.takeovers.reverse.find? (fun x => x.kind == 2 && x.region == r.val) = some x →
      ∃ t, exec (.detectorSpareStart r) s = .next t ∧ t.blk.takeovers = s.blk.takeovers.erase x)
    ∧ (∀ x, s.blk.takeovers.reverse.find? (fun x => x.kind == 3 && x.region == r.val) = some x →
      ∃ t, exec (.ldpcSpareEnter r) s = .next t ∧ t.blk.takeovers = s.blk.takeovers.erase x)

/-- Writing (R109, R127, R128, R131, R134, R135, R139): a queued sector is encoded into the write store unless its self-check fails,
which fences the encoder; a block opens at the lowest coded sector with the length that fits; a segment is sent through an open gate, and
one of a sector that is not coded is passed over; a strategy set is loaded into the bank that is not selected, and its bank is selected
once it has read back; queued relocations begin their excursion with both pickups. -/
def Obligations.WritesProceed : Prop :=
  ∀ (s : State) (b : BayId) (p : Pu), s.bayExists b = true →
    (∀ (c : Coded) (rest : List Coded) (e : Nat), (s.pu b p).write.queue = c :: rest → s.server 4 (regionOf b) 0 = some e →
        s.sysHeld = false → (s.pu b p).write.store.length < s.bootN .memWstoreSlots →
      (∃ t, exec (.sectorEncode b p false) s = .next t ∧
          if encodeCheck (sectorWords (maskPayload (s.pu b p).unwritten c.payload)) = true then
            (t.pu b p).write.queue = rest
              ∧ ∃ c', (t.pu b p).write.store = (s.pu b p).write.store ++ [c'] ∧ c'.sector = c.sector ∧ c'.coded = true
                ∧ c'.payload = maskPayload (s.pu b p).unwritten c.payload
          else (t.blkOf ⟨4, regionOf b, e⟩).up = false ∧ (t.pu b p).write = (s.pu b p).write)
        ∧ (∃ t, exec (.sectorEncode b p true) s = .next t ∧ (t.blkOf ⟨4, regionOf b, e⟩).up = false
          ∧ (t.pu b p).write = (s.pu b p).write))
    ∧ (∀ a : Nat, (s.bay b).pa.write.excursion = false → (s.bay b).pb.write.excursion = false →
        lowestSector (s.pu b p).openCoded = some a → s.blockMayStart b p a = true →
        0 < (s.boundary (.pickup b p) 4).blockLen b p a →
      ∃ t k, exec (.passBlockStart b p) s = .next t ∧ (t.pu b p).write.block = some k ∧ k.j = 5 * a
        ∧ k.n = (s.boundary (.pickup b p) 4).blockLen b p a ∧ k.step = .even ∧ (t.pu b p).write.sent = [])
    ∧ (∀ (k : PassBlock), (s.pu b p).write.block = some k → k.step = .even → k.opened = true → k.next < k.j + 5 * k.n →
        s.portUp b p = true → (s.pu b p).sheet.lock = .locked →
        (((s.pu b p).segStart k.next).1 / 65536 : Int) - 512 * k.lead ≤ (s.pu b p).link.linkTime s.us →
      ((s.pu b p).write.coded? ⟨k.layer, k.zone, k.next / 5⟩ = none →
          ∃ t, exec (.segmentWriteSend b p) s = .next t
            ∧ (t.pu b p).write.block = some { k with next := 5 * (k.next / 5 + 1) })
        ∧ (∀ c, (s.pu b p).write.coded? ⟨k.layer, k.zone, k.next / 5⟩ = some c → c.mayWrite k.next k.pass = true →
            (s.pu b p).write.gateOk = true → (s.pu b p).link.wpermit = true → (s.pu b p).link.st = .active →
            (s.pu b p).sheet.interval ≠ 0 → ((s.pu b p).link.linkTime s.us : Int) + 4096 ≤ ((s.pu b p).segStart k.next).1 / 65536 →
            (s.pu b p).sheet.lastConf.frame < k.next → k.next ≤ (s.pu b p).sheet.lastConf.frame + s.liveN .sheetWedgeMaxMiss →
          exec (.segmentWriteSend b p) s = .next ((s.writeSegment b p k c k.next).after b)))
    ∧ (∀ layer : Fin 12, s.portUp b p = true → (s.pu b p).link.live = true → (s.pu b p).write.block = none →
        (s.pu b p).write.load = none → (s.pu b p).write.bankStop = false → s.coresHeld = false → s.idlePeriod b p = true →
      ∃ t, exec (.strategyBankLoad b p layer) s = .next t
        ∧ (t.pu b p).write.load = some ⟨layer.val, !(s.pu b p).write.bankSel, s.strategyFor b p layer.val, [], false⟩
        ∧ (t.pu b p).write.bankSel = (s.pu b p).write.bankSel ∧ (t.pu b p).write.bankLayer = (s.pu b p).write.bankLayer)
    ∧ (∀ (x : BankLoad) (c : CtrlOp) (f : Bytes), (s.pu b p).write.load = some x → x.select = true → c.op = 1 → c.addr = 0x30000 →
      (byteAt f 5 = 0 → ((s.bankReply b p c f).pu b p).write.bankSel = x.bank
          ∧ ((s.bankReply b p c f).pu b p).write.bankLayer = some x.layer ∧ ((s.bankReply b p c f).pu b p).write.load = none)
        ∧ (byteAt f 5 ≠ 0 → ((s.bankReply b p c f).pu b p).write.bankSel = (s.pu b p).write.bankSel
          ∧ ((s.bankReply b p c f).pu b p).write.bankFails = (s.pu b p).write.bankFails + 1
          ∧ ((s.bankReply b p c f).pu b p).write.bankStop = (decide (3 ≤ (s.pu b p).write.bankFails + 1) || (s.pu b p).write.bankStop)))
    ∧ (∀ r ∈ (s.pu b p).write.relocs, (s.pu b p).write.relocWork = true → r.record = false →
        r.queued + s.liveN .writeRelocMaxDeferMs * 1000 ≤ s.us → (s.bay b).pa.write.excursion = false → (s.bay b).pb.write.excursion = false →
        (s.bay b).pa.write.block = none → (s.bay b).pb.write.block = none → s.host.act = none → s.coreStarts b (.pickup .A) = true →
        s.coreStarts b (.pickup .B) = true →
      ∃ t, exec (.relocExcursionStart b) s = .next t ∧ (t.bay b).pa.write.excursion = true ∧ (t.bay b).pb.write.excursion = true)

/-- The motor link (R183, R186, R188, R189, R190): a good `TRAIN` frame leads to `UP_TRAIN`, a time limit to the next attempt or
`FAILED`, a failed link tries again after its interval, and a link lost while the spindle turns trains anew and leaves the spindle in
`RECOVER` with its drive floating; a sense frame in order is taken with its number. -/
def Obligations.MotorLinkTrains : Prop :=
  ∀ (s : State) (b : BayId), s.bayExists b = true → s.mportUp b = true →
    (∀ (raw f0 : Bytes) (s' : State), (s.bay b).mlink.st = .dsTrain → s.injectFrame (1, b.val, 1) raw = ([f0], s') →
        mfrGood (scramble f0) = true → frType (scramble f0) = 15 → beAt (scramble f0) 4 8 = 0x4A4D4C54524E3031 →
      ∃ t, exec (.mlinkTrainFrame b raw) s = .next t ∧ (t.bay b).mlink.st = .upTrain ∧ (t.bay b).mlink.good = 1
        ∧ (t.bay b).mlink.ident = some (slice (scramble f0) 16 256))
    ∧ ((s.bay b).mlink.st = .dsTrain → (s.bay b).mlink.since + 2000 ≤ s.us →
      ∃ t, exec (.mlinkTrainTimeout b) s = .next t ∧ (t.bay b).mlink.attempts = (s.bay b).mlink.attempts + 1
        ∧ (t.bay b).mlink.st = if s.spin b .mlinkTrainMaxAttempts ≤ (s.bay b).mlink.attempts + 1 then .failed else .dsTrain)
    ∧ ((s.bay b).mlink.st = .failed → (s.bay b).mlink.noRetry = false →
        (s.bay b).mlink.since + 1000000 * s.liveN .mlinkTrainRetryIntervalS ≤ s.us →
      ∃ t, exec (.mlinkTrainRetry b) s = .next t ∧ (t.bay b).mlink.st = .dsTrain ∧ (t.bay b).mlink.attempts = 0)
    ∧ ((s.bay b).mlink.st = .active → 96 ≤ (s.bay b).mlink.badRun → (s.bay b).spindle.st = .run →
      ∃ t, exec (.mlinkLost b) s = .next t ∧ (t.bay b).mlink.st = .dsTrain ∧ (t.bay b).spindle.st = .recover
        ∧ (t.bay b).spindle.drive = .floating)
    ∧ (∀ (raw f0 : Bytes) (s' : State), (s.bay b).mlink.st = .active → s.injectFrame (1, b.val, 1) raw = ([f0], s') →
        mfrGood (scramble f0) = true → (s.bay b).mlink.seq = some (frSeq (scramble f0)) →
      (frType (scramble f0) = 0 → ∀ upset : Bool, ∃ t, exec (.mlinkSenseFrame b raw upset) s = .next t
          ∧ (t.bay b).mlink.seq = some ((frSeq (scramble f0) + 1) % 65536) ∧ (t.bay b).mlink.errs = (s.bay b).mlink.errs)
        ∧ (frType (scramble f0) = 1 → s.unitDead b .motor = false →
          exec (.mlinkSenseFrame b raw false) s = .next (((s'.updBay b (fun y => { y with mlink := { y.mlink with
            seq := some ((frSeq (scramble f0) + 1) % 65536) } })).senseFrame b (scramble f0) false).after b)))

/-- Starting (Table 09-5, R192, R194, R195, R196, R197, R198, R200): a start begins a catch, a wait or a failed spindle that may try
again does too, the alignment ends in the ramp, a good handover in `SYNC`, and a try that breaks down counts and waits or ends in
`FAULT`. -/
def Obligations.SpindleStarts : Prop :=
  ∀ (s : State) (b : BayId), s.bayExists b = true → s.mportUp b = true →
    ((s.bay b).mlink.st = .active → s.coreStarts b .motor = true → (s.bay b).spindle.st = .stopped →
      ∃ t, exec (.spindleStart b) s = .next t ∧ (t.bay b).spindle.st = .catch ∧ (t.bay b).spindle.use = .start
        ∧ (t.bay b).spindle.drive = .floating)
    ∧ ((s.bay b).mlink.st = .active → s.coreStarts b .motor = true → (s.bay b).spindle.st = .safeHold →
      ∃ t, exec (.spindleStart b) s = .next t ∧ (t.bay b).spindle.st = .safeHold ∧ (t.bay b).spindle.pendStart = true)
    ∧ ((s.bay b).mlink.st = .active → s.coreStarts b .motor = true → (s.bay b).spindle.st = .fault → (s.bay b).spindle.noRetry = false →
        (s.bay b).spindle.since + 1000000 * s.liveN .spindleFaultRetryS ≤ s.us →
      ∃ t, exec (.spindleFaultRetry b) s = .next t ∧ (t.bay b).spindle.st = .catch ∧ (t.bay b).spindle.startTries = 0)
    ∧ ((s.bay b).spindle.st = .startWait → (s.bay b).spindle.since + (s.bay b).spindle.waitMs * 1000 ≤ s.us →
      ∃ t, exec (.startWaitEnd b) s = .next t ∧ (t.bay b).spindle.st = .catch)
    ∧ ((s.bay b).spindle.st = .align → (s.bay b).spindle.since + s.spin b .spindleStartAlignMs * 1000 ≤ s.us →
      ∃ t, exec (.alignEnd b) s = .next t ∧ (t.bay b).spindle.st = .ramp ∧ (t.bay b).spindle.cmdAngle = 0 ∧ (t.bay b).spindle.cmdRpm = 0)
    ∧ ((s.bay b).spindle.st = .ramp → 30 ≤ (s.bay b).spindle.passRun →
      ∃ t, exec (.rampHandover b) s = .next t ∧ (t.bay b).spindle.st = .sync ∧ (t.bay b).spindle.use = .start
        ∧ (t.bay b).spindle.syncLeft = s.spin b .spindleSyncPeriods)
    ∧ ((s.bay b).spindle.st = .align → 3 ≤ (s.bay b).spindle.invalid →
      ∃ t, exec (.startTryFail b) s = .next t ∧ (t.bay b).spindle.startTries = (s.bay b).spindle.startTries + 1
        ∧ (t.bay b).spindle.st = if s.liveN .spindleStartMaxTries ≤ (s.bay b).spindle.startTries + 1 then .fault else .startWait)
    ∧ ((s.bay b).spindle.st = .catch → (s.bay b).mlink.st = .active → 6 ≤ consistentCount (s.bay b).spindle.crossings →
      exec (.catchEnd b) s = .next ((s.catchOutcome b (consistentCount (s.bay b).spindle.crossings)).after b))

/-- Running (Table 09-5, R146, R195, R197, R199, R201, R202, R203): `SYNC` ends in `RUN` at a speed that may run, its target from the
handover speed after a ramp and from the observer's otherwise, the bay reports ready 10 ms later, a speed sample brakes a commanded stop
below the least catch speed, an observer lost leads to `RECOVER`, and the periodic test and the bay probe begin a catch. -/
def Obligations.SpindleRuns : Prop :=
  ∀ (s : State) (b : BayId), s.bayExists b = true → s.mportUp b = true →
    ((s.bay b).spindle.st = .sync → (s.bay b).spindle.syncLeft = 0 → (s.bay b).spindle.use = .start → (s.bay b).spindle.failRun = 0 →
        (s.bay b).spindle.stopping = false → 0 ≤ (s.bay b).spindle.obs.rpm →
        (s.bay b).spindle.obs.rpm ≤ rpmOf (s.liveN .spindleSpeedMaxRpm) →
      ∃ t, exec (.syncEnd b) s = .next t ∧ (t.bay b).spindle.st = .run ∧ (t.bay b).spindle.target =
        if (s.bay b).spindle.handAt.isSome then rpmOf (s.spin b .spindleStartHandoverRpm) else (s.bay b).spindle.obs.rpm)
    ∧ (∀ k : Nat, (s.bay b).spindle.readyAt = some k → (s.bay b).spindle.st = .run → k + 10000 ≤ s.us →
      ∃ t, exec (.speedReady b) s = .next t ∧ (t.bay b).spindle.ready = true)
    ∧ ((s.bay b).spindle.st = .run → s.liveN .spindleObsLossPeriods ≤ (s.bay b).spindle.failRun →
      ∃ t, exec (.observerLost b) s = .next t ∧ (t.bay b).spindle.st = .recover ∧ (t.bay b).spindle.ready = false)
    ∧ (∀ r : State, (s.bay b).mlink.st = .active → s.unitDead b .motor = false → 16 * (s.bay b).mlink.slot ≤ (s.bay b).mlink.frames / 2 →
        r = (s.updBay b (fun y => { y with mlink := { y.mlink with slot := y.mlink.slot + 1 } })).watchSpeed b →
        (r.bay b).spindle.st = .run →
      exec (.speedLoopSample b) s = .next (((r.crossCheck b).speedStep b).after b))
    ∧ ((s.bay b).spindle.st = .run → 0 < s.liveN .spindleTestIntervalS →
        (s.bay b).spindle.lastTest + s.liveN .spindleTestIntervalS * 1000000 ≤ s.us → s.coreStarts b .motor = true →
        (∀ p : Pu, (s.pu b p).write.block = none ∧ (s.pu b p).cur = none ∧ (s.pu b p).reads = []) →
      ∃ t, exec (.testCatch b) s = .next t ∧ (t.bay b).spindle.st = .catch ∧ (t.bay b).spindle.use = .test
        ∧ (t.bay b).spindle.lastTest = s.us)
    ∧ ((s.bay b).disc.empty = true → (s.bay b).disc.probing = false → (s.bay b).spindle.st = .stopped → (s.bay b).mlink.st = .active →
        s.coreStarts b .motor = true → (s.bay b).disc.probeAt + 1000000 * s.liveN .loopProbeIntervalS ≤ s.us →
      ∃ t, exec (.bayProbe b) s = .next t ∧ (t.bay b).spindle.st = .catch ∧ (t.bay b).disc.probing = true ∧ (t.bay b).zone = .leadIn)

/-- Stopping (R192, R202, R203, R204, R205): a commanded stop turns both pickups off and decelerates a running spindle, `DECEL` has its
limit, the shorted and the floating part of braking alternate until the limit ends in `FAULT`, and an overspeed decelerates and then
stops for good. -/
def Obligations.SpindleStops : Prop :=
  ∀ (s : State) (b : BayId), s.bayExists b = true → s.mportUp b = true →
    (s.coreStarts b .motor = true → (s.bay b).spindle.st = .run →
      ∃ t, exec (.spindleStop b) s = .next t ∧ (t.bay b).spindle.st = .decel ∧ (t.bay b).spindle.goal = 0
        ∧ (t.bay b).spindle.stopping = true ∧ ∀ p : Pu, (t.pu b p).ms.st = .off)
    ∧ ((s.bay b).spindle.st = .decel →
        (s.bay b).spindle.since + ((s.bay b).spindle.decelFrom - (s.bay b).spindle.goal).natAbs * 1000000 /
          (rpmOf (max 1 (s.liveN .spindleBrakeDecelRpmS))).natAbs + 1000000 ≤ s.us →
      ∃ t, exec (.decelLimit b) s = .next t ∧ (t.bay b).spindle.st = .fault)
    ∧ ((s.bay b).spindle.st = .brakeShort → (s.bay b).spindle.drive.short = true →
        (s.bay b).spindle.phaseAt + s.liveN .spindleBrakeShortOnMs * 1000 ≤ s.us →
      ∃ t, exec (.brakeShortToggle b) s = .next t ∧ (t.bay b).spindle.drive = .floating ∧ (t.bay b).spindle.phaseAt = s.us
        ∧ (t.bay b).spindle.st = .brakeShort)
    ∧ ((s.bay b).spindle.st = .brakeShort → (s.bay b).spindle.drive.short = false → (s.bay b).spindle.phaseAt + 10000 ≤ s.us →
        s.liveN .spindleCatchFloorMv * 1000 ≤ (s.bay b).spindle.amp → consistentCount (s.bay b).spindle.crossings < 4 →
      ∃ t, exec (.brakeShortToggle b) s = .next t ∧ (t.bay b).spindle.drive.short = true ∧ (t.bay b).spindle.phaseAt = s.us)
    ∧ ((s.bay b).spindle.st = .brakeShort → (s.bay b).spindle.since + s.liveN .spindleBrakeShortMaxMs * 1000 ≤ s.us →
      ∃ t, exec (.brakeShortLimit b) s = .next t ∧ (t.bay b).spindle.st = .fault ∧ ∀ p : Pu, (t.pu b p).ms.st = .off)
    ∧ (∀ k : Nat, (s.bay b).spindle.overAt = some k → (s.bay b).spindle.overRaised = none → k + 1000 ≤ s.us → (s.bay b).spindle.st = .run →
        (s.bay b).spindle.stopping = false → 0 ≤ (s.bay b).spindle.obs.rpm →
      ∃ t, exec (.overspeedDetect b) s = .next t ∧ (t.bay b).spindle.overRaised = some s.us ∧ (t.bay b).spindle.st = .decel
        ∧ (t.bay b).spindle.goal = rpmOf (s.liveN .spindleSpeedMaxRpm))
    ∧ (∀ k : Nat, (s.bay b).spindle.overRaised = some k → k + 100000 ≤ s.us → (s.bay b).spindle.overAt.isSome = true →
        (s.bay b).spindle.st = .decel →
      ∃ t, exec (.overspeedStop b) s = .next t ∧ (t.bay b).spindle.endFault = true ∧ (t.bay b).spindle.goal = 0
        ∧ ∀ p : Pu, (t.pu b p).ms.st = .off)

/-- The disc's identity (R22, R32): the first copy whose check word verifies is the identity where it agrees with the tags and its format
is known; with no good copy left to read, or one that a tag contradicts, the disc is rejected and both pickups go off. -/
def Obligations.DiscIdentityDecides : Prop :=
  ∀ (s : State) (b : BayId), s.bayExists b = true → (s.bay b).disc.serial = none → (s.locked b .A = true ∨ s.locked b .B = true) →
      s.coresHeld = false →
    ((s.bay b).disc.identity? .A = none → (s.bay b).disc.identity? .B = none →
        (∀ p : Pu, s.pickupServes b p = false ∨ (s.bay b).disc.nextIdentity p = none) →
      ∃ t, exec (.discIdentityRead b) s = .next t ∧ (t.bay b).disc.serial = none ∧ (t.bay b).disc.rejected.isSome = true
        ∧ ∀ p : Pu, (t.pu b p).ms.st = .off)
    ∧ (∀ c, ((s.bay b).disc.identity? .A).or ((s.bay b).disc.identity? .B) = some c →
      (leAt c 4 2 = 1 → (∀ k, (s.bay b).disc.tagA = some k ∨ (s.bay b).disc.tagB = some k → k = serialTag (identitySerial c)) →
          ∃ t, exec (.discIdentityRead b) s = .next t ∧ (t.bay b).disc.serial = some (identitySerial c)
            ∧ (t.bay b).disc.ident = c ∧ (t.bay b).disc.rejected = none)
        ∧ (∀ k, (s.bay b).disc.tagA = some k ∨ (s.bay b).disc.tagB = some k → k ≠ serialTag (identitySerial c) →
          ∃ t, exec (.discIdentityRead b) s = .next t ∧ (t.bay b).disc.serial = none ∧ (t.bay b).disc.rejected.isSome = true
            ∧ ∀ p : Pu, (t.pu b p).ms.st = .off))

/-- Doorbells and the BAR (R257, R258, R262, R263): a tail of the ring's range becomes the tail and any other stops the ring, a doorbell
of no ring is counted, a head frees what was written up to it, and an aligned write lands in admin ring 0. -/
def Obligations.DoorbellsMoveRings : Prop :=
  ∀ (s : State) (f : FnId), s.barUp f = true →
    (∀ (sr : Nat) (v : BitVec 32), sr < s.srQuota f →
      (s.sr? f sr = none → ∃ t, exec (.srDoorbellWrite f sr v) s = .next t ∧ t.host.badDoorbells = s.host.badDoorbells + 1)
        ∧ (∀ r, s.sr? f sr = some r → r.deleting = none →
          (v.toNat < r.depth → ∃ t, exec (.srDoorbellWrite f sr v) s = .next t ∧ t.sr? f sr = some { r with tail := v.toNat })
          ∧ (r.depth ≤ v.toNat → ∃ t, exec (.srDoorbellWrite f sr v) s = .next t ∧ t.sr? f sr = some { r with stopped := true })))
    ∧ (∀ (cr : Nat) (v : BitVec 32) k, cr < s.crQuota f → s.cr? f cr = some k → k.event = false → v.toNat < k.depth →
        0 < (v.toNat + k.depth - k.head) % k.depth → (v.toNat + k.depth - k.head) % k.depth < k.pending →
      ∃ t, exec (.crHeadDoorbellWrite f cr v) s = .next t ∧ t.cr? f cr = some { k with
        head := v.toNat, pending := k.pending - (v.toNat + k.depth - k.head) % k.depth, since := some s.us, signalled := false })
    ∧ (∀ (x : Fn) (o : Nat) (data : Bytes), s.fn? f = some x → data.length = 64 → o + 64 ≤ 4096 → o % 64 = 0 →
      ∃ t, exec (.barWriteOther f ((if f = 0 then 0x801000 else 0x6000) + o) data) s = .next t
        ∧ t.fn? f = some { x with sr0 := x.sr0.filter (fun e => !(e.1 == o && e.2.length == 64)) ++ [(o, data)] })

/-- The queue engine (R254, R255, R267, R270, R272, R273, R274, R275, R288): a granted ring gives its next entry for acceptance, a fetch
that fails stops its ring, a transfer that fails ends its command, the first finished command posts its entry and leaves, the coalescing
timer signals, and a hold that runs out ends its command. -/
def Obligations.QueueEngineServes : Prop :=
  ∀ s : State, s.queueUp = true →
    (∀ (r : Sr) (s' : State) (e : Bytes) (segs : List Bytes), s.host.fetchStop = false → s.host.ready = true →
        s.arbitrate = (some r, s') → r.id ≠ 0 → s.grantSize r = 1 →
      exec (.fetchGrant [(e, segs)]) s = .next (s'.acceptEntry r.fn r.id (padTo 64 e) segs))
    ∧ (∀ (f : FnId) (sr : Nat) (r : Sr), s.sr? f sr = some r → sr ≠ 0 → s.grantable r = true → s.host.fetchStop = false →
      ∃ t, exec (.fetchFail f sr) s = .next t ∧ t.sr? f sr = some { r with stopped := true })
    ∧ (∀ (f : FnId) (sr : Nat) (tag : BitVec 6) (c : Cmd), s.cmd? f sr tag = some c → c.pieces ≠ [] → c.phase = .started → c.opc = 0x10 →
        s.liveAt c.order →
      ∃ t, exec (.dmaTransferFail f sr tag) s = .next t ∧ t.endedAt c.order .dmaError)
    ∧ (∀ (f : FnId) (sr : Nat) (tag : BitVec 6) (c : Cmd) (k : Cr) (r : Sr), s.cmdLive? f sr tag = some c → s.ringOf c = some k →
        s.sr? f sr = some r → s.nextToPost k = some c → (c.opc = 0x21 → c.status = .success → c.bound.bind s.cmdAt = none) →
        (s.host.fatesEnd ≤ c.order → ∀ v ∈ s.host.cmds, v.silent = false → s.host.fates.contains v.order = false) →
        k.isFull = false → s.fnMoves c = true →
      ∃ t, exec (.completionPost f sr tag) s = .next t ∧ (∀ d ∈ t.host.cmds, d.order ≠ c.order)
        ∧ Output.completion c.fn k.id k.next (completionEntry c k.phase r.head) ∈ t.out)
    ∧ (∀ (f : FnId) (cr k0 : Nat) (k : Cr), s.cr? f cr = some k → k.since = some k0 → k.ctime ≠ 0 → k.pending ≠ 0 → k.signalled = false →
        k0 + k.ctime ≤ s.us →
      ∃ t, exec (.crCoalesceTimeout f cr) s = .next t ∧ t.cr? f cr = some { k with signalled := true })
    ∧ (∀ (f : FnId) (sr k0 : Nat) (tag : BitVec 6) (c : Cmd), s.cmd? f sr tag = some c → c.phase = .held k0 → c.opc = 0x10 →
        s.liveAt c.order → k0 + s.holdLimit c ≤ s.us →
      ∃ t, exec (.holdLimitExpire f sr tag) s = .next t ∧ t.endedAt c.order .notReady)

/-- Functions (R276, R343, R354): a reset function has no ring left and is not ready, Bus Master Enable is set as written, VF Enable
gives the functions named, a reset of the PCI Express side resets function 0, and a VF becomes ready with its admin rings. -/
def Obligations.FunctionsReset : Prop :=
  ∀ s : State, s.sysHeld = false →
    (∀ (f : FnId) (x : Fn), s.fn? f = some x →
      (f ≠ 0 → ∃ t, exec (.functionLevelReset f) s = .next t ∧ t.fn? f = some (Fn.fresh f) ∧ (∀ r ∈ t.host.srs, r.fn ≠ f)
          ∧ (∀ k ∈ t.host.crs, k.fn ≠ f))
        ∧ (∀ on : Bool, ∃ t, exec (.busMasterEnableChange f on) s = .next t ∧ t.fn? f = some { x with bme := on })
        ∧ (x.ready = false → s.host.ready = true → ∃ t, exec (.vfReady f) s = .next t ∧ t.fn? f = some { x with ready := true }
          ∧ (t.sr? f 0).isSome = true ∧ (t.cr? f 0).isSome = true))
    ∧ (∀ n : Nat, 0 < n → n ≤ s.vfTotal → n < 256 →
      ∃ t, exec (.vfEnable n) s = .next t ∧ t.host.vfs = n ∧ ∀ f : FnId, 0 < f.val → f.val ≤ n → (t.fn? f).isSome = true)
    ∧ (s.trust.shadow.perstSys = false → (s.fn? 0).isSome = true →
      ∃ t, exec .pciePerstLocal s = .next t ∧ t.host.vfs = 0 ∧ ∀ r ∈ t.host.srs, r.fn ≠ 0)

/-- The PCI Express width and the timebase (R253, R338): a narrower width is the width from then on; a time from the host within a second
is slewed to and one beyond is stepped to. -/
def Obligations.LinkWidthAndTime : Prop :=
  ∀ s : State,
    (∀ w : Nat, s.sysHeld = false → (w = 8 ∨ w = 4) → w < s.host.width →
      ∃ t, exec (.pcieLinkDegrade w) s = .next t ∧ t.host.width = w)
    ∧ (∀ ns : Nat, s.chip.clk.locked = true →
      (((ns / 1000 : Nat) : Int) - s.time ≤ 1000000 → -1000000 ≤ ((ns / 1000 : Nat) : Int) - s.time →
          ∃ t, exec (.ptmTimeUpdate ns) s = .next t ∧ t.chip.clk.slew = ((ns / 1000 : Nat) : Int) - s.time ∧ t.chip.clk.time = s.chip.clk.time)
        ∧ (1000000 < ((ns / 1000 : Nat) : Int) - s.time ∨ ((ns / 1000 : Nat) : Int) - s.time < -1000000 →
          ∃ t, exec (.ptmTimeUpdate ns) s = .next t ∧ t.chip.clk.time = ns / 1000 ∧ t.chip.clk.slew = 0))

/-- Rings made and deleted (R265, R281): each command has the effect on the rings that its entry names and ends with `SUCCESS`; a ring
that is still used by another is not deleted. -/
def Obligations.RingCommandsAct : Prop :=
  ∀ (s : State) (f : FnId) (tag : BitVec 6) (c : Cmd), s.liveAt c.order →
    (∀ k : Cr, s.admin? 0x01 f tag = some c → s.sr? f (leAt c.entry 8 4) = none → s.cr? f (leAt c.entry 12 2) = some k → k.event = false →
      ∃ t r, exec (.createSr f tag) s = .next t ∧ t.sr? f (leAt c.entry 8 4) = some r ∧ r.cr = leAt c.entry 12 2
        ∧ r.depth = leAt c.entry 24 4 ∧ r.base = leAt c.entry 16 8 ∧ r.head = 0 ∧ r.tail = 0 ∧ t.endedAt c.order .success)
    ∧ (∀ r : Sr, s.admin? 0x02 f tag = some c → s.sr? f (leAt c.entry 8 4) = some r → r.deleting = none →
        (∀ x ∈ s.host.srs, x.deleting = none) → (∀ v ∈ s.host.cmds, v.fn = f → v.sr ≠ leAt c.entry 8 4) →
      ∃ t, exec (.deleteSr f tag) s = .next t ∧ t.sr? f (leAt c.entry 8 4) = none ∧ t.endedAt c.order .success)
    ∧ (s.admin? 0x03 f tag = some c → s.cr? f (leAt c.entry 8 4) = none → byteAt c.entry 12 ≠ 1 →
      ∃ t k, exec (.createCr f tag) s = .next t ∧ t.cr? f (leAt c.entry 8 4) = some k ∧ k.depth = leAt c.entry 24 4
        ∧ k.base = leAt c.entry 16 8 ∧ k.vec = leAt c.entry 28 2 ∧ k.next = 0 ∧ k.phase = true ∧ t.endedAt c.order .success)
    ∧ (s.admin? 0x04 f tag = some c → (s.cr? f (leAt c.entry 8 4)).isSome = true →
      (s.host.srs.any (fun r => r.fn == f && r.cr == leAt c.entry 8 4) = false →
          ∃ t, exec (.deleteCr f tag) s = .next t ∧ t.cr? f (leAt c.entry 8 4) = none ∧ t.endedAt c.order .success)
        ∧ (s.host.srs.any (fun r => r.fn == f && r.cr == leAt c.entry 8 4) = true →
          ∃ t, exec (.deleteCr f tag) s = .next t ∧ t.host.crs = s.host.crs ∧ t.endedAt c.order .busy))

/-- Commands on data (R280, R282, R283, R284, R285, R287, R289): a command that its hamper holds is held from now on, one that the gate
stops ends with the gate's status, a `READ` that may go asks for its blocks, a `WRITE` with room draws its buffers, `FLUSH` and `VERIFY`
close the open stripe first, and an `ABORT` whose target is gone or too late ends with that status. -/
def Obligations.DataCommandsGo : Prop :=
  ∀ (s : State) (f : FnId) (sr : Nat) (tag : BitVec 6) (c : Cmd), s.liveAt c.order →
    (s.ready? 0x10 f sr tag = some c →
      (∀ st, s.dataGate c true = .stop st → ∃ t, exec (.read f sr tag) s = .next t ∧ t.endedAt c.order st)
        ∧ (s.dataGate c true = .hold → c.phase = .waiting → s.cmdAt c.order = some c →
          (s.holdLimit c ≠ 0 → ∃ t, exec (.read f sr tag) s = .next t ∧ t.cmdAt c.order = some { c with phase := .held s.us })
          ∧ (s.holdLimit c = 0 → c.opc = 0x10 → ∃ t, exec (.read f sr tag) s = .next t ∧ t.endedAt c.order .notReady))
        ∧ (∀ h, s.dataGate c true = .go h →
          exec (.read f sr tag) s = .next ((s.updCmd c.order (fun c => { c with
            phase := .started, slot := some h, todo := List.range c.nblk })).serveReads h)))
    ∧ (s.ready? 0x11 f sr tag = some c →
      ∀ (h : SlotId) (d : Cmd) (w : WriteRec), s.dataGate c (c.phase != .waiting) = .go h → (s.lateOrdinal h c).cmdAt c.order = some d →
        ((s.lateOrdinal h c).slot h).bind (fun x => x.write? d.ordinal) = some w → w.record = true →
      exec (.write f sr tag) s = .next (((s.lateOrdinal h c).updCmd d.order (fun c => { c with phase := .started })).drawBufs
        (s.lateOrdinal h c).stageBasket ((d.nblk + 15) / 16) d.order))
    ∧ (s.ready? 0x12 f sr tag = some c → s.cmd? f sr tag = some c → c.phase = .waiting →
      ∀ h : SlotId, s.dataGate c true = .go h →
      exec (.verify f sr tag) s = .next ((((s.lateTarget h c).updCmd c.order (fun c => { c with phase := .started, slot := some h })).closeOpen
        h).verifyReads h c.order))
    ∧ (s.ready? 0x20 f sr tag = some c →
      (c.hid = 0 → c.target = [] → ∃ t, exec (.flush f sr tag) s = .next t ∧ t.endedAt c.order .success)
        ∧ (c.hid ≠ 0 → ∀ h : SlotId, s.dataGate c true = .go h →
          exec (.flush f sr tag) s = .next ((((s.lateTarget h c).updCmd c.order (fun c => { c with
            phase := .started, slot := some h })).closeOpen h).serveFlushes)))
    ∧ (s.ready? 0x21 f sr tag = some c →
      (c.bound.bind s.cmdAt = none → ∃ t, exec (.abort f sr tag) s = .next t ∧ t.endedAt c.order .notFound)
        ∧ (∀ d, c.bound.bind s.cmdAt = some d → d.opc = 0x41 → ∃ t, exec (.abort f sr tag) s = .next t ∧ t.endedAt c.order .tooLate)
        ∧ (∀ d, c.bound.bind s.cmdAt = some d → d.opc = 0x10 → s.liveAt d.order → d.order ≠ c.order →
          ∃ t, exec (.abort f sr tag) s = .next t ∧ t.endedAt c.order .success))

/-- Information commands (R300, R345, R357, R385, R410, R413): `IDENTIFY`, `HEALTH` and the two reads of the trust engine write their
page to the host and end with `SUCCESS`; a `HEALTH` with flags waits for them, each acts, and the last one ends it; the trust engine's
state is the same after a report. -/
def Obligations.InformationCommandsAnswer : Prop :=
  ∀ (s : State) (f : FnId) (tag : BitVec 6) (c : Cmd), s.liveAt c.order →
    (s.admin? 0x30 f tag = some c →
      ∃ t, exec (.identify f tag) s = .next t ∧ t = (s.hostWrite c 0 (s.identifyPage f)).finish c.order .success 0
        ∧ t.endedAt c.order .success)
    ∧ (s.admin? 0x31 f tag = some c →
      (c.b 42 % 8 = 0 → ∃ t, exec (.health f tag) s = .next t
          ∧ t = ((s.start c).hostWrite c 0 (s.healthPage (c.b 40) (c.b 41))).finish c.order .success 0 ∧ t.endedAt c.order .success)
        ∧ (c.b 42 % 8 ≠ 0 → ∃ t, exec (.health f tag) s = .next t
          ∧ t = ((s.start c).hostWrite c 0 (s.healthPage (c.b 40) (c.b 41))).updCmd c.order (fun d => { d with
              todo := (List.range 3).filter (fun i => (c.b 42).testBit i) })
          ∧ ∃ d, t.cmdAt c.order = some d ∧ d.phase = .started ∧ d.todo = (List.range 3).filter (fun i => (c.b 42).testBit i)))
    ∧ (s.healthFlag f tag 0 = some c →
      ∃ t, exec (.healthClearCause f tag) s = .next t ∧ t.chip.rst.cause = 0#64
        ∧ (c.todo = [0] → t.endedAt c.order .success)
        ∧ (∀ (b : BayId), t.bays.get b = s.bays.get b) ∧ t.ham = s.ham ∧ t.mem = s.mem)
    ∧ (s.healthFlag f tag 1 = some c →
      ∃ t, exec (.healthClearCounters f tag) s = .next t ∧ t = (s.clearCounters (c.b 40) (c.b 41)).flagDone c 1
        ∧ (c.todo = [1] → t.endedAt c.order .success)
        ∧ (c.b 40 = 0 → t.mem.ce = [] ∧ t.mem.ue = [] ∧ t.host.badDoorbells = 0)
        ∧ (∀ b : BayId, c.b 40 = 2 → c.b 41 = b.val → (t.bay b).mlink.errs = 0)
        ∧ t.chip = s.chip)
    ∧ (∀ b : BayId, s.healthFlag f tag 2 = some c → c.b 41 = b.val → c.b 43 = 0 →
      ∃ t, exec (.healthCalRequest f tag) s = .next t ∧ t.pu b .B = s.pu b .B
        ∧ (c.todo = [2] → t.endedAt c.order .success)
        ∧ (t.pu b .A).cal = (s.pu b .A).cal.makePending s.us (s.pu b .A).ms.layer
            ((List.range 13).filter (fun n => (leAt c.entry 44 2).testBit n)) false)
    ∧ (∀ r n, s.admin? 0x32 f tag = some c → c.b 40 = 0 → s.report (leAt c.entry 42 2) (leAt c.entry 44 4) c.nblk (attestNonce c.entry) = (r, n) →
      ∃ t, exec (.attestReport f tag) s = .next t ∧ t = (s.hostWrite c 0 r).finish c.order .success (r.length + 2 ^ 32 * n)
        ∧ t.endedAt c.order .success ∧ t.trust = s.trust)
    ∧ (s.admin? 0x32 f tag = some c → c.b 40 = 1 →
      ∃ t, exec (.attestCertChain f tag) s = .next t ∧ t = (s.hostWrite c 0 s.chainBytes).finish c.order .success s.chainBytes.length
        ∧ t.endedAt c.order .success ∧ t.trust = s.trust)

/-- Fuses and mailboxes (R409, R414): a fuse that the key check accepts is blown and the command ends, one that it refuses is not; a
mailbox answers at once while the queue engine runs, keeps the request while the cores are reset, and an abort frees it. -/
def Obligations.FusesAndMailboxes : Prop :=
  ∀ (s : State) (f : FnId),
    (∀ (tag : BitVec 6) (c : Cmd), s.admin? 0x32 f tag = some c → s.liveAt c.order →
      (c.b 40 = 2 → s.fusesAccept { s.trust.fuses with sig := true } = true → s.trust.fuses.revoked ≠ 15#4 →
          ∃ t, exec (.attestEnforceSignatures f tag) s = .next t ∧ t.trust.fuses = { s.trust.fuses with sig := true }
            ∧ t.endedAt c.order .success)
        ∧ (c.b 40 = 2 → s.fusesAccept { s.trust.fuses with sig := true } = false →
          ∃ t, exec (.attestEnforceSignatures f tag) s = .next t ∧ t.trust.fuses = s.trust.fuses ∧ t.endedAt c.order .imageInvalid)
        ∧ (c.b 40 = 3 → s.fusesAccept { s.trust.fuses with revoked := s.trust.fuses.revoked ||| BitVec.ofNat 4 (2 ^ c.b 41) } = true →
          s.trust.fuses.revoked ||| BitVec.ofNat 4 (2 ^ c.b 41) ≠ 15#4 →
          ∃ t, exec (.attestRevokeKey f tag) s = .next t
            ∧ t.trust.fuses.revoked = s.trust.fuses.revoked ||| BitVec.ofNat 4 (2 ^ c.b 41) ∧ t.endedAt c.order .success))
    ∧ (∀ x : Fn, s.fn? f = some x →
      (∀ (ty : BitVec 8) (payload : Bytes), s.sysHeld = false → x.doe.busy = false → s.host.ready = true →
          (∀ r, s.queueUp = true → s.doeAnswer ty.toNat payload = some r →
            ∃ t, exec (.doeRequest f ty payload) s = .next t ∧ t.fn? f = some { x with doe := ⟨false, false, r⟩ })
          ∧ (s.queueUp = false →
            ∃ t, exec (.doeRequest f ty payload) s = .next t ∧ t.fn? f = some { x with doe := ⟨true, false, ty :: payload⟩ }))
        ∧ (x.doe.busy = true → ∃ t, exec (.doeAbort f) s = .next t ∧ t.fn? f = some { x with doe := ⟨false, false, []⟩ }))

/-- Staging (R293, R294, R332): an open begins a session and an erase, a chunk goes to the session's slot, a commit ends the session with
its verdict, and a session left idle is discarded. -/
def Obligations.StagingSessions : Prop :=
  ∀ s : State,
    (∀ (tag : BitVec 6) (c : Cmd) (o n : Nat), s.stageAt tag 0 = some c → s.flash.region (s.inactive (c.b 40 % 4)).1 = some (o, n) →
      ∃ t, exec (.stageConfigOpen tag) s = .next t
        ∧ t.host.stageBusy = some ⟨c.b 40 % 4, (s.inactive (c.b 40 % 4)).2, s.us⟩
        ∧ t.flash.jobs = s.flash.jobs ++ [⟨.stageErase, o, [], 0, some c.order, none⟩])
    ∧ (∀ (tag : BitVec 6) (c : Cmd) (data : Bytes) (q : StageSession) (o n : Nat), s.stageAt tag 1 = some c → s.host.stageBusy = some q →
        s.flash.region (s.inactive q.target).1 = some (o, n) → q.target = c.b 40 % 4 → 4096 * leAt c.entry 44 4 + 4096 * c.nblk ≤ n →
        data.length = 4096 * c.nblk → data ≠ [] →
      ∃ t, exec (.stageConfigChunk tag data) s = .next t ∧ t.host.stageBusy = some { q with last := s.us }
        ∧ t.flash.jobs = s.flash.jobs ++ [⟨.stageChunk, o + 4096 * leAt c.entry 44 4, data, 0, some c.order, none⟩])
    ∧ (∀ (tag : BitVec 6) (c : Cmd) (q : StageSession), s.stageAt tag 2 = some c → s.host.stageBusy = some q → q.target = c.b 40 % 4 →
      ((s.updCmd c.order (fun _ => c)).stagedGood q.target = true →
          ∃ t, exec (.stageConfigCommit tag) s = .next t ∧ t.host.stageBusy = none
            ∧ t.flash.jobs = s.flash.jobs ++ [⟨.bootRecord, q.target, [], 0, some c.order, none⟩])
        ∧ ((s.updCmd c.order (fun _ => c)).stagedGood q.target = false →
          ∃ t, exec (.stageConfigCommit tag) s = .next t ∧ t.host.stageBusy = none ∧ t.flash.jobs = s.flash.jobs
            ∧ t.flash.boot = s.flash.boot ∧ t.flash.bad = s.slotNo q.target :: s.flash.bad.filter (fun k => k != s.slotNo q.target)))
    ∧ (∀ q : StageSession, s.host.stageBusy = some q → q.last + 1000000 * s.liveN .cmdStageIdleS ≤ s.us → s.stageBusyNow = false →
        s.coresHeld = false →
      ∃ t, exec .stageSessionIdle s = .next t ∧ t.host.stageBusy = none)

/-- Activation (Table 13-6, R295): a drain begins with fetching stopped, ends in a core reset, and the new firmware runs once it is
measured and has started; a system reset asserts at once. -/
def Obligations.ActivationRuns : Prop :=
  ∀ (s : State) (tag : BitVec 6) (c : Cmd),
    (s.activation? tag 0 = some c → s.activationBusy = false → s.fwWaits = true →
      ∃ t, exec (.activateFwFirmware tag) s = .next t ∧ t.host.act = some ⟨c.order, 0, s.us, false⟩ ∧ t.host.fetchStop = true)
    ∧ (s.activation? tag 1 = some c → s.activationBusy = false →
      ∃ t, exec (.activateFwCoreReset tag) s = .next t ∧ t.host.act = some ⟨c.order, 1, s.us, false⟩ ∧ t.host.fetchStop = true)
    ∧ (s.activation? tag 2 = some c → s.activationBusy = false →
      ∃ t, exec (.activateFwSystemReset tag) s = .next t ∧ t.chip.rst.host = true ∧ t.sysHeld = true)
    ∧ (∀ a, s.host.act = some a → a.drained = false → s.coresHeld = false → s.blocksRun = false →
        (s.startedLeft a.order = false ∨ a.started + s.liveN .cmdFwactDrainMs * 1000 ≤ s.us) →
      ∃ t, exec .fwactDrainEnd s = .next t ∧ t.chip.rst.core.isSome = true ∧ t.host.act = some { a with drained := true })
    ∧ (∀ a, s.host.act = some a → a.mode = 0 → a.drained = true → s.chip.rst.core.isSome = true → s.sysHeld = false →
        (s.measureCode false (1 - s.trust.fwSlot)).1 = true →
      ∃ t, exec (.fwStartResult true) s = .next t ∧ t.trust.fwSlot = 1 - s.trust.fwSlot ∧ t.trust.staged = 0 ∧ t.host.act = none)

/-- Hampers attached, created and taken off (R244, R245, R291, R292): an attached hamper at least degraded completes its `MOUNT`, a
create begins its hamper with its labels, a replace begins the rebuild of its member, and an `UNMOUNT` closes the open stripe. -/
def Obligations.MountCommandsAct : Prop :=
  ∀ (s : State) (tag : BitVec 6) (c : Cmd),
    (∀ (h : SlotId) (x : Hamper), s.mount? tag 0 = some c → s.liveAt c.order → s.slotOf c.hid = some h → s.slot h = some x →
        x.attach = some c.order → s.hstate x ≠ .mounting → s.hstate x ≠ .below →
      ∃ t, exec (.mountAttach tag) s = .next t ∧ t.endedAt c.order .success)
    ∧ (∀ (block : Bytes) (h : SlotId), s.mount? tag 1 = some c →
        (∀ k ∈ (createBays (c.b 42 + c.b 43) block).filter (fun k => k != 0xFF),
          k < s.bayCount ∧ ∀ hb : k < 32, (s.bay ⟨k, hb⟩).ready = true ∧ (s.bay ⟨k, hb⟩).isBlank = true ∧ s.bayTaken ⟨k, hb⟩ = false) →
        allDistinct ((createBays (c.b 42 + c.b 43) block).filter (fun k => k != 0xFF)) = true →
        policyKept (c.b 41 / 2) (c.b 43) ((createBays (c.b 42 + c.b 43) block).filter (fun k => k != 0xFF)) = true →
        s.slotOf c.hid = none → s.mountRunning c = false → s.freeSlot = some h →
      exec (.mountCreate tag block) s = .next ((((s.start c).setSlot h (some (s.newHamper c block))).bumpGen).writeLabels h))
    ∧ (∀ (h : SlotId) (x : Hamper) (m : Member) (b : BayId), s.mount? tag 2 = some c → s.hamperGate c.hid = .go h → s.slot h = some x →
        c.b 45 = b.val → x.member? (c.b 44) = some m → s.mountRunning c = false → x.unmounting = none → x.replaces = none → s.freeSlot.isSome = true →
        (s.bay b).ready = true → (s.bay b).isBlank = true → s.bayTaken b = false → s.memberReads m = false → s.memberWrites m = false →
        policyKept x.policy x.m (b.val :: (x.members.filter (fun v => v.idx != c.b 44)).filterMap (fun v => v.bay.map (fun b => b.val))) = true →
      exec (.mountReplace tag) s = .next (((s.start c).updHam h (fun x =>
        x.replaceMember (c.b 44) b (padTo 16 ((s.bay b).disc.serial.getD [])) m.next c.order)).writeLabels h))
    ∧ (∀ (h : SlotId) (x : Hamper), s.admin? 0x51 0 tag = some c → s.hamperGate c.hid = .go h → s.slot h = some x → x.unmounting = none →
        s.mountRunning c = false →
      exec (.unmount tag) s = .next (((s.updHam h (fun x => { x with unmounting := some c.order })).updCmd c.order (fun c => { c with
        phase := .started, slot := some h })).closeOpen h))

/-- Injections (R417, R418, R421, R422, R423, R424): one armed waits with the next number and is listed, its start makes it act, a cancel
or its end lifts it, and the diagnostic partition keeps the raw word written to it. -/
def Obligations.InjectionsRun : Prop :=
  ∀ (s : State),
    (∀ (tag : BitVec 6) (c : Cmd), s.liveAt c.order →
      (s.inject? tag 0 = some c → (s.inj.list.filter (fun i => i.st != .ended)).length < s.liveN .injectMaxActive →
          ((s.inj.list.filter (fun i => i.st != .ended)).filter (fun i => slice i.fields 1 3 == slice (slice c.entry 40 24) 1 3)).length < 4 →
        ∃ t, exec (.faultInjectArm tag) s = .next t ∧ t.endedAt c.order .success
          ∧ t.inj.list = s.inj.list ++ [⟨nextInjectId (s.inj.list.map (fun i => i.id)) 65536 s.inj.nextId, c.fn, slice c.entry 40 24, s.us,
              none, 0, .waiting, none, []⟩])
        ∧ (s.inject? tag 1 = some c → s.inj.list.any (fun i => i.id == leAt c.entry 62 2 && i.st != .ended) = true →
          exec (.faultInjectCancel tag) s = .next (((s.measureInject c 7).endInject (leAt c.entry 62 2)).finish c.order .success
            (leAt c.entry 62 2)))
        ∧ (s.inject? tag 2 = some c →
          exec (.faultInjectCancelAll tag) s = .next (((s.inj.list.map (fun i => i.id)).foldl State.endInject (s.measureInject c 7)).finish
            c.order .success 0))
        ∧ (s.inject? tag 3 = some c → ∃ t, exec (.faultInjectList tag) s = .next t ∧ t.endedAt c.order .success ∧ t.inj = s.inj)
        ∧ (s.inject? tag 4 = some c →
          (c.b 44 = 0 → ∀ block : Bytes, ∃ t, exec (.diagRawWrite tag block) s = .next t ∧ t.endedAt c.order .success
              ∧ (⟨leAt c.entry 48 8, (padTo 4096 block).take 64, slice (padTo 4096 block) 64 16⟩ : DiagWord) ∈ t.mem.diag)
          ∧ (c.b 44 = 1 → ∃ t, exec (.diagRawRead tag) s = .next t ∧ t.endedAt c.order .success ∧ t.mem = s.mem)))
    ∧ (∀ (id : BitVec 16) (i : Inject), s.inj.list.find? (fun i => i.id == id.toNat) = some i →
      (i.st = .waiting → i.armed + i.start ≤ s.us → s.sysHeld = false →
          ∃ t, exec (.injectActionStart id) s = .next t ∧ ∃ j ∈ t.inj.list, j.id = i.id ∧ j.st = .acting ∧ j.began = some s.us)
        ∧ (∀ k, i.began = some k → i.st = .acting →
          k + (if i.duration = 0 then s.liveN .injectMaxDurationS * 1000 else min i.duration (s.liveN .injectMaxDurationS * 1000)) * 1000 ≤ s.us →
          exec (.injectDurationEnd id) s = .next (s.endInject i.id)))

/-- Hamper work (R234, R235, R236, R237, R240, R242, R244, R245, R246, R247, R248, R249): a write whose blocks are all staged ends with
`SUCCESS`, an outcome that arrives while its engine is down waits in the queue, a label area read names the disc, and placement, closing,
checkpoints, rebuilds, recovery and the withdrawal of grace run where their conditions hold. -/
def Obligations.HamperWorkProceeds : Prop :=
  ∀ s : State,
    (∀ (f : FnId) (sr : Nat) (tag : BitVec 6) (blocks : List Bytes) (c : Cmd) (h : SlotId) (w : WriteRec), s.cmd? f sr tag = some c →
        c.slot = some h → (s.slot h).bind (fun x => x.write? c.ordinal) = some w → c.opc = 0x11 → c.phase = .started → w.staged = false →
        w.record = true → s.engineUp h = true → blocks.length = w.count → w.count ≤ (s.bufsOf c.order).length * 16 → s.liveAt c.order →
      ∃ t, exec (.writeStaged f sr tag blocks) s = .next t ∧ t.endedAt c.order .success)
    ∧ (∀ h : SlotId, s.engineUp h = true → exec (.blockPlace h) s = .next (s.placeNext h))
    ∧ (∀ (h : SlotId) (y : Stripe) (k : Nat), (s.slot h).bind Hamper.building = some y → y.opened = some k → s.engineUp h = true →
        k + s.liveN .hamperPlaceCloseUs ≤ s.us →
      exec (.stripeCloseTimeout h) s = .next (s.closeOpen h))
    ∧ (∀ (h : SlotId) (stripe : Nat) (member : Fin 32) (written : Bool),
      (s.engineUp h = true → exec (.sectorWriteOutcome h stripe member written) s = .next (s.sectorOutcome h stripe member.val written))
        ∧ (s.engineUp h = false → ∃ t, exec (.sectorWriteOutcome h stripe member written) s = .next t
          ∧ t.ham.queued = s.ham.queued ++ [(h, stripe, member.val, written)] ∧ t.ham.slots = s.ham.slots))
    ∧ (∀ (h : SlotId) (x : Hamper), s.slot h = some x → s.liveN .hamperCkptIntervalStripes ≤ x.ckpt.stripes → x.mounting = false →
        x.ckpt.pointer = none → x.ckpt.waiting.1 = 0 → x.ckpt.waiting.2.2 = 0 → s.engineUp h = true →
      exec (.checkpointWrite h) s = .next (s.checkpoint h))
    ∧ (∀ (b : BayId) (o : State), s.bayExists b = true → (s.bay b).ready = true → s.coresHeld = false → s.areaRead b Disc.nextLabel = true →
        o = s.updBay b (fun y => { y with disc := y.disc.fromAreas }) →
      ((o.bay b).disc.label = none → exec (.hamperAutoMount b) s = .next (o.after b))
        ∧ (∀ (r : Bytes) (h : SlotId), o.areaRead b Disc.nextReloc = true → o.areaRead b (fun d p => d.nextLog p 4 49152) = true →
            (o.bay b).disc.label = some r → o.slotOf (labelHid r) = some h →
          exec (.hamperAutoMount b) s = .next ((o.joinMounted b h).after b)))
    ∧ (∀ (h : SlotId) (x : Hamper) (m : Member), s.slot h = some x → x.members.find? (fun m => m.state == .rebuilding && m.bay.isSome) = some m →
        s.engineUp h = true → m.rebuilt < m.rebuildTo → x.seqOfRow m.idx m.rebuilt = none →
      exec (.memberRebuildStep h) s = .next (s.updHam h (fun x => x.updMember m.idx (fun y => { y with rebuilt := m.rebuilt + 1 }))))
    ∧ (∀ (h : SlotId) (stripe pos : Nat), s.engineUp h = true →
      exec (.readRebuild h stripe pos) s = .next (s.rebuildSector h stripe pos))
    ∧ (∀ (b : BayId) (p : Pu) (h : SlotId) (x : Hamper) (m : Member), s.bayExists b = true → s.slot h = some x →
        (∀ k : SlotId, k ≠ h → s.slot k = none) → x.members.find? (fun m => m.bay == some b) = some m → s.surfaceWrites b p = false →
        (m.grace p).isSome = true → s.graceRuns m p = false → s.coresHeld = false →
      exec (.memberGraceExpire b p) s = .next ((s.withdraw h m b p).after b))
    ∧ (∀ (h : SlotId) (x : Hamper), s.slot h = some x → s.coresHeld = false →
      (x.mounting = true → s.recoveryRead x = true → x.attach = none →
        exec (.hamperMountRecover h) s =
          .next (((s.setSlot h (some { (x.recover (s.pointersOf x) (s.ckptSectors x) (s.scanOf x)).1 with
            attach := none
            session? := if x.ro then none else some (x.recover (s.pointersOf x) (s.ckptSectors x) (s.scanOf x)).2 })).writeSession h).bumpGen))
        ∧ (x.mounting = false → exec (.hamperMountRecover h) s = .next (s.writeSession h)))

/-- Hamper engines (R250, R380): a faulty engine is fenced and marked, and the spare takes its hampers over. -/
def Obligations.HamperEnginesTakeOver : Prop :=
  ∀ s : State,
    (∀ (e : Fin 5) (cause : FaultCause), s.ham.faulty.length = 5 → s.ham.faulty.getD e.val true = false →
      ∃ t, exec (.hamperEngineFault e cause) s = .next t ∧ t.ham.faulty.getD e.val true = true ∧ (t.blkOf ⟨6, 5, e.val⟩).up = false)
    ∧ (∀ q : Nat, s.ham.takeover = some q → s.coresHeld = false →
      ∃ t, exec .hamperEngineTakeover s = .next t ∧ t.ham.takeover = none ∧ t.ham.serves = s.ham.serves.set q 4
        ∧ (t.blkOf ⟨6, 5, 4⟩).serves = some q)

/-- Memory errors (Table 14-4, R305, R310): a corrected error is counted for its partition and channel, and an uncorrectable one in the
command contexts is fatal to the chip and freezes its memory. -/
def Obligations.MemoryErrorsCount : Prop :=
  ∀ (s : State) (ch : Fin 8) (addr : Nat), s.sysHeld = false → s.mem.filled = true → s.mem.channels.contains ch.val = true →
    (∀ part : Partition, part ≠ .capture → part ≠ .sramBare →
      ∃ t, exec (.memCorrectedError part ch addr) s = .next t ∧ t.mem.ce = bumpCount s.mem.ce part ch.val ∧ t.mem.ddr = s.mem.ddr)
    ∧ (∃ t, exec (.memUe .diag ch addr) s = .next t ∧ t.mem.ue = bumpCount s.mem.ue .diag ch.val ∧ t.mem.ddr = s.mem.ddr)
    ∧ (s.chip.fatal = none → ∃ t, exec (.memUe .contexts ch addr) s = .next t ∧ t.chip.fatal = some .contexts ∧ t.blk.frozen = true)

/-- Merge buffers (R307, R308): a narrow write within a codeword merges, and the oldest entry of a channel retires into its codeword once
it has been held for `mem.merge.hold_ns`. -/
def Obligations.NarrowWritesMerge : Prop :=
  ∀ (s : State) (ch : Fin 8), s.sysHeld = false → s.blk.frozen = false →
    (∀ (addr : Nat) (data : Bytes), s.mem.filled = true → s.mem.channels.contains ch.val = true → data ≠ [] →
        addr % 64 + data.length ≤ 64 →
      ∃ t, exec (.mergeNarrowWrite ch addr data) s = .next t ∧ t.mem = s.mem.narrowWrite s.us ch.val addr data ∧ t.flash = s.flash)
    ∧ (∀ (e : MergeEntry) (bad : Bool), oldestEntry (s.mem.merge.filter (fun e => e.ch == ch.val)) = some e → s.mem.mergeQ = [] →
        s.liveN .memMergeHoldNs ≤ 1000 * (s.us - e.since) →
      ∃ t, exec (.mergeEntryRetire ch bad) s = .next t
        ∧ t.mem.merge = s.mem.merge.filter (fun x => !(x.ch == e.ch && x.addr == e.addr))
        ∧ t.mem.ddr = Memory.writeBytes ddrDefault s.mem.ddr (ddrAddr e.ch e.addr) (mergeBytes e.mask e.data (s.mem.codeword e.ch e.addr)))

/-- Buffers (R314, R315, R316): a draw from a leaf takes its boundary and what its basket can give now, and what is missing waits; a
handle that is held is given back. -/
def Obligations.BuffersMove : Prop :=
  ∀ s : State, s.sysHeld = false →
    (∀ (basket : Fin 256) (n req : Nat), 7 ≤ basket.val → 0 < n → s.mem.pool ≠ 0 → basketClass s.bufCfg basket.val ≠ 5 →
        basketThere s.bufCfg (partPickups s.trust.shadow.part) basket.val = true →
      exec (.bufferDraw basket n req) s = .next (s.drawBufs basket.val n req)
        ∧ ((MemState.draw s.bufBoundary.bufCfg basket.val req n s.bufBoundary.mem).1 = 0 →
          ∃ t, exec (.bufferDraw basket n req) s = .next t
            ∧ t.mem = (MemState.draw s.bufBoundary.bufCfg basket.val req n s.bufBoundary.mem).2))
    ∧ (∀ handle : Nat, handle ≠ 0xFFFFFF → (s.buf? handle).isSome = true →
      ∃ t, exec (.bufferReturn handle) s = .next t ∧ t.mem = s.bufBoundary.mem.giveBack s.bufBoundary.bufCfg handle)

/-- Calibration (R355, R356, R358, R360, R363, R367): an element in force whose fault lasts is graded `FAULTY`, a step starts when the
pickup is free, a gap is forced when one has waited too long, a run of item 6 within its limits puts its code in force and one outside
them leaves it, a weak slice gives its place to the monitor slice, and a record that is due starts its write. -/
def Obligations.CalibrationProceeds : Prop :=
  ∀ (s : State) (b : BayId) (p : Pu), s.bayExists b = true →
    (∀ e : Fin 36, s.portUp b p = true → elemIdx (s.pu b p).link.rows (e.val % 18) = e.val → e.val < (s.pu b p).elems.length →
        (s.pu b p).elemBad (s.liveN .calElemFaultTicks) (e.val % 18) = true →
      ∃ t, exec (.elementFault b p e) s = .next t ∧ ((t.pu b p).elems.getD e.val .reset).grade = .faulty)
    ∧ (∀ item : Fin 13, item.val ≠ 1 → item.val ≠ 7 → (s.pu b p).stepIdle = true → s.coreStarts b (.pickup p) = true →
        ((s.pu b p).pendOf item.val).isSome = true →
      ∃ t, exec (.calStepRun b p item) s = .next t ∧ (t.pu b p).cal.step = some (item.val, s.us))
    ∧ ((s.pu b p).stepIdle = true → s.coreStarts b (.pickup p) = true → ((s.pu b p).pendOf 7).isSome = true →
      ((s.boundary (.pickup b p) 16).pcaKnown b p = true →
          exec (.calStepRun b p 7) s = .next ((((s.boundary (.pickup b p) 16).updPu b p (fun u => { u with cal := { u.cal with
            step := some (7, s.us) } })).powerCalRun b p).after b))
        ∧ ((s.boundary (.pickup b p) 16).pcaKnown b p = false →
          ∃ t, exec (.calStepRun b p 7) s = .next t ∧ t.pu b p = s.pu b p))
    ∧ (∀ q a, (s.pu b p).stepIdle = true → s.coreStarts b (.pickup p) = true → ((s.pu b p).pendOf 1).isSome = true →
        ({ s.pu b p with cal := (s.pu b p).cal.keepUnits 1 (s.pu b p).examines } : Pickup).pendOf 1 = some q →
        q.parts.find? (fun a => !a.ended) = some a →
      ∃ t, exec (.calStepRun b p 1) s = .next t ∧ (t.pu b p).cal.step = some (1, s.us)
        ∧ (t.pu b p).cal.exam = some ((s.pu b p).cal.exam.getD (a.unit, false)))
    ∧ (∀ q : CalPend, q ∈ (s.pu b p).cal.pend → q.item ≠ 2 → q.item ≠ 3 → q.item ≠ 4 → layerBound q.item = false →
        q.parts.any (fun a => !a.ended) = true → q.since + 1000 * s.liveN .calMaxDeferMs ≤ s.us → (s.pu b p).ms.st = .follow →
        (s.pu b p).cal.gap = none → (s.pu b p).cal.gapDue = false → (s.pu b p).cal.step = none → s.coreStarts b (.pickup p) = true →
      ∃ t, exec (.calGapForce b p) s = .next t ∧ (t.pu b p).cal.gapDue = true)
    ∧ (∀ (q : CalPend) (a : CalPart) (unit since : Nat) (result : List Int), (s.pu b p).pendOf 6 = some q →
        q.parts.find? (fun a => a.unit == unit && !a.ended) = some a → (s.pu b p).ms.st = .follow → s.coresHeld = false →
        (s.pu b p).cal.step = some (6, since) → (s.unitCfg (.pickup b p) 16).at .calItemAccept 6 ≠ 0 →
      (s.calLimits b p 6 unit result = true →
          ∃ t, exec (.calRunDone b p 6 unit result) s = .next t ∧ (t.pu b p).cal.step = none
            ∧ (t.pu b p).cal.sa = ((s.pu b p).ms.layer, result.headD 0) :: (s.pu b p).cal.sa.filter (fun e => e.1 != (s.pu b p).ms.layer))
        ∧ (s.calLimits b p 6 unit result = false →
          ∃ t, exec (.calRunDone b p 6 unit result) s = .next t ∧ (t.pu b p).cal.step = none
            ∧ (t.pu b p).cal.sa = (s.pu b p).cal.sa))
    ∧ (∀ (l : PhysLane) (slice : Fin 4) (margin after : Nat), s.portUp b p = true → (s.pu b p).link.live = true →
        (s.pu b p).cal.slices.getD l.code 0 / 64 % 2 = 0 → (s.pu b p).cal.slices.getD l.code 0 / 16 % 4 ≠ slice.val →
        margin < s.liveN .calLinkMarginMinPct →
      ∃ t, exec (.sliceMarginSweep b p l slice margin after) s = .next t
        ∧ (t.pu b p).cal.slices = (s.pu b p).cal.slices.set l.code ((s.pu b p).cal.slices.getD l.code 0 % 16 + 16 * slice.val
            + (if s.liveN .calLinkMarginMinPct ≤ after then 0 else 64)))
    ∧ (∀ n : Nat, s.coresHeld = false → (s.pu b p).cal.recDue = some n → (s.pu b p).cal.serial.isSome = true →
        s.flash.jobs.any (fun j => j.unit == some (b, p.idx)) = false →
      ∃ t, exec (.calRecordAppend b (.pickup p)) s = .next t ∧ (t.pu b p).cal.recDue = none
        ∧ t.flash = { s.flash with
            jobs := s.flash.jobs ++ [⟨.calRecord, 0, s.pickupRecord b p s.flash.calNextSeq, 0, none, some (b, p.idx)⟩] })

/-- The fabric, duplex blocks, management cores and regions (R373, R376, R378, R381): a region that is lost stays on record, a
disagreement that a checker attributes leaves one copy, credits are resynchronized on a mismatch and on starvation alike, a faulty
management core is fenced, and its work is taken over. That a row whose condition does not hold changes nothing is the model's choice
(log entry 2). -/
def Obligations.ChipFaultsIsolate : Prop :=
  ∀ s : State, s.sysHeld = false →
    (∀ r : Fin 6, s.regionExists r.val = true → s.blk.lost.contains r.val = false →
      ∃ t, exec (.regionLost r) s = .next t ∧ t.blk.lost = r.val :: s.blk.lost)
    ∧ (∀ (k : DuplexKind) (region inst : Nat) (again : Bool), s.coresHeld = false → s.regionExists (duplexRegion (duplexKind k) region) = true →
        inst < duplexCount (duplexKind k) → (s.blkOf ⟨duplexKind k, duplexRegion (duplexKind k) region, inst⟩).up = true →
        (s.blkOf ⟨duplexKind k, duplexRegion (duplexKind k) region, inst⟩).st ≠ .simplex →
      (∃ t, exec (.duplexDisagree k region inst .first again) s = .next t
          ∧ (t.blkOf ⟨duplexKind k, duplexRegion (duplexKind k) region, inst⟩).st = .simplex)
        ∧ exec (.duplexDisagree k region inst .second again) s = exec (.duplexDisagree k region inst .first again) s
        ∧ exec (.duplexDisagree k region inst .neither false) s = .next s
        ∧ exec (.duplexDisagree k region inst .both false) s = .next s)
    ∧ (∀ (r : Fin 6) (l : Fin 8), s.regionExists r.val = true → s.blk.frozen = false → (s.blkOf (linkBlock r.val l.val)).up = true →
        exec (.creditStarve r l) s = .next (s.creditResync r.val l.val)
        ∧ exec (.creditAudit r l true) s = .next (s.creditResync r.val l.val)
        ∧ exec (.creditAudit r l false) s = .next s
        ∧ (s.blk.resyncs = [] → ∃ t, exec (.creditStarve r l) s = .next t
            ∧ t.blk = { s.blk with resyncs := [(r.val, l.val, s.us)] }))
    ∧ (∀ (c : Fin 5) (cause : FaultCause), s.coresHeld = false → (s.blkOf ⟨7, 4, c.val⟩).up = true →
      ∃ t, exec (.mgmtCoreFault c cause) s = .next t ∧ (t.blkOf ⟨7, 4, c.val⟩).up = false)
    ∧ (∀ x, s.coresHeld = false → s.blk.takeovers.reverse.find? (fun t => t.kind == 7) = some x →
      ∃ t, exec .mgmtTakeoverDone s = .next t ∧ t.blk.takeovers = s.blk.takeovers.erase x)

/-- Chip-fatal errors and the crash record (R293, R383, R384): the fabric freezes and every output goes low, the record's write starts,
and the system reset follows its end or the time limit. That a row whose condition does not hold changes nothing is the model's choice
(log entry 2). -/
def Obligations.ChipFatalStopsTheChip : Prop :=
  ∀ s : State, s.sysHeld = false →
    (∀ (cause : FatalCause) (kind inst : Nat), s.chip.fatal = none → s.isl.bays.length = 32 →
      ∃ t, exec (.chipFatal cause kind inst) s = .next t ∧ t.chip.fatal = some cause ∧ t.blk.frozen = true
        ∧ t.chip.crash = some (s.crashRecord cause kind inst) ∧ ∀ b : BayId, (t.safeBay b).lsafe = false ∧ (t.safeBay b).ssafe = false)
    ∧ (∀ r : Bytes, s.chip.crash = some r → s.us < s.chip.fatalAt + 50000 →
        s.flash.jobs.any (fun j => j.op == .crashRecord) = false →
      ∃ t, exec .crashRecordAppend s = .next t
        ∧ t.flash = { s.flash with jobs := s.flash.jobs ++ [⟨.crashRecord, 0, r, 0, none, none⟩] })
    ∧ (∀ r : Bytes, s.chip.crash = some r → s.chip.fatalAt + 50000 ≤ s.us →
      ∃ t, exec .crashRecordAppend s = .next t ∧ t.chip.rst.island = true ∧ t.chip.crash = none ∧ t.flash.mem = s.flash.mem)
    ∧ (∀ j, s.flash.jobs.find? (fun j => j.op == .crashRecord) = some j →
      ∃ t, exec (.flashEraseProgramDone .crashRecord true) s = .next t ∧ t.chip.rst.island = true
        ∧ t.flash.mem = (s.flash.crashPut j.data).mem)
    ∧ (∀ j, s.flash.jobs.find? (fun j => j.op == .calRecord) = some j →
      ∃ t, exec (.flashEraseProgramDone .calRecord true) s = .next t ∧
        t.flash = ({ s.flash with jobs := s.flash.jobs.erase j }.calCompact).calPut j.data)
    ∧ (∀ op : FlashOp, (∀ j ∈ s.flash.jobs, j.op ≠ op) → ∀ good : Bool, exec (.flashEraseProgramDone op good) s = .next s)

/-- Debug access, event rates and injections (R406, R421, R429, R453): the debug port opens and closes, a window of event rates begins at
zero, and an injection that has ended leaves the list after 1 s. That a row whose condition does not hold changes nothing is the model's
choice (log entry 2). -/
def Obligations.DebugAndInjectionsEnd : Prop :=
  ∀ s : State,
    (∃ t, exec .jtagDebugUnlock s = .next t ∧ t.trust.jtagOpen = true ∧ t.trust.fuses = s.trust.fuses)
    ∧ exec .trstNReset s = .next { s with trust := { s.trust with jtagOpen := false } }
    ∧ (∃ t, exec .eventRateWindow s = .next t ∧ t.host = s.host ∧ (∀ r ∈ t.ev.rates, r.count = 0)
        ∧ t.ev.rates.length = s.ev.rates.length)
    ∧ (∀ (id : BitVec 16) (i : Inject) (at' : Nat), s.inj.list.find? (fun i => i.id == id.toNat) = some i → i.st = .ended →
        i.endedAt = some at' →
      (s.sysHeld = false → at' + 1000000 ≤ s.us → ∃ t, exec (.injectLift id) s = .next t
          ∧ t.inj.list = s.inj.list.filter (fun j => j.id != i.id))
        ∧ (s.us < at' + 1000000 → exec (.injectLift id) s = .next s))

/-- Resets of the system and power reaches (Tables 16-2 and 16-3, R343, R345, R346, R350, R442): a power-on source resets the island as
well and keeps the fuses and the flash, a supply below its limit does the same, the always-on store is lost with its supply, `SYSRST_N`
and `PERST0_N` hold the system reach with their bits in `RESET_CAUSE`, and each is released by its own source. That a row whose condition
does not hold changes nothing is the model's choice (log entry 2). -/
def Obligations.WideResets : Prop :=
  ∀ s : State,
    (∃ t, exec .powerOnReset s = .next t ∧ t.chip.rst.porst = true ∧ t.isl = .reset ∧ t.trust.fuses = s.trust.fuses
      ∧ t.flash.mem = s.flash.mem ∧ t.bays = State.reset.bays ∧ t.host = State.reset.host)
    ∧ (∀ rail : Rail, (s.chip.rst.porst = false →
        ∃ t, exec (.supplyMonitorTrip rail) s = .next t ∧ exec .powerOnReset s = .next t ∧ t.chip.rst.porst = true ∧ t.isl = .reset
          ∧ t.bays = State.reset.bays ∧ t.host = State.reset.host)
      ∧ (s.chip.rst.porst = true → exec (.supplyMonitorTrip rail) s = .next s))
    ∧ (∃ t, exec .vddAonTrip s = .next t ∧ t.mem.aonRows = [] ∧ t.mem.aonRemaps = [] ∧ t.chip.power.aonOk = false
      ∧ t.chip.rst = s.chip.rst)
    ∧ (∃ t, exec .sysrstNAssert s = .next t ∧ t.chip.rst.sysrst = true ∧ t.chip.rst.cause = causeBit s.chip.rst.cause 1
      ∧ t.flash.mem = s.flash.mem ∧ t.trust.fuses = s.trust.fuses
      ∧ (s.sysHeld = false → t.bays = State.reset.bays ∧ t.host = State.reset.host ∧ t.ham = State.reset.ham))
    ∧ (s.trust.shadow.perstSys = true →
        ∃ t, exec .pePerstSystem s = .next t ∧ t.chip.rst.perst = true ∧ t.chip.rst.cause = causeBit s.chip.rst.cause 2)
    ∧ (s.trust.shadow.perstSys = false → exec .pePerstSystem s = .next s)
    ∧ (∃ t, exec (.resetRelease 1) s = .next t ∧ t.chip.rst = { s.chip.rst with sysrst := false })
    ∧ (∃ t, exec (.resetRelease 4) s = .next t ∧ t.chip.rst = { s.chip.rst with island := false })
    ∧ (s.chip.rst.porst = true → s.chip.rst.sysrst = false → s.chip.rst.perst = false → s.chip.rst.island = false →
      ∃ t, exec (.resetRelease 0) s = .next t ∧ t.chip.rst.porst = false ∧ t.chip.rst.cause = 1 ∧ t.chip.power.aonOk = true)

/-- Core resets and block resets (R347, R348): a core reset lasts 10 µs at least, a firmware copy that fails its check halts the cores, a
good one lets the commands meet their fates, and a block reset of an idle block is counted. That a row whose condition does not hold
changes nothing is the model's choice (log entry 2). -/
def Obligations.CoreAndBlockResets : Prop :=
  ∀ s : State, s.sysHeld = false →
    (∀ at' : Nat, s.chip.rst.core = some at' → s.host.act = none → s.chip.up.cores = true →
      (s.us < at' + 10 → ∀ (good : Bool) (failed : List (Fin 5)), exec (.coreResetRelease good failed) s = .next s)
        ∧ (at' + 10 ≤ s.us →
          (∀ failed : List (Fin 5), ∃ t, exec (.coreResetRelease false failed) s = .next t ∧ t.chip.up.cores = false
              ∧ t.chip.rst = s.chip.rst)
            ∧ (∀ failed : List (Fin 5), exec (.coreResetRelease true failed) s = .next (failed.foldl (fun s c =>
                if (s.blkOf ⟨7, 4, c.val⟩).up then (s.mgmtFaulty c.val 0).mgmtTakeover else s) s).coresReturn.doeResume)))
    ∧ (∀ blk : BlockId, s.blockExists blk = true → (s.blkOf blk).up = true →
      (∃ t, exec (.blockResetRequest blk true) s = .next t ∧ t.blk = { s.blk with resets := s.blk.resets + 1 } ∧ t.chip = s.chip)
        ∧ exec (.blockResetRequest blk false) s = .next s)

/-- Clocks, supplies and temperature (R259, R340, R341, R342, R443, R445): a block without its clock is out of service, the root clock's
loss resets the system with every output low, the DDR clock's loss is chip-fatal, the thermal trip drives its pin, and the core supply
moves by at most 10 mV within its range. -/
def Obligations.ClocksAndPowerProtect : Prop :=
  ∀ s : State,
    (∀ (b : BayId) (p : Pu), s.sysHeld = false → s.bayExists b = true → s.blockExists ⟨0, regionOf b, portInst b p⟩ = true →
        (s.blkOf ⟨0, regionOf b, portInst b p⟩).up = true →
      (∃ t, exec (.clockReleaseTimeout ⟨0, regionOf b, portInst b p⟩) s = .next t
          ∧ (t.blkOf ⟨0, regionOf b, portInst b p⟩).up = false)
        ∧ ∃ t, exec (.clockGoodLoss ⟨0, regionOf b, portInst b p⟩) s = .next t
          ∧ (t.blkOf ⟨0, regionOf b, portInst b p⟩).up = false)
    ∧ (s.islandUp = true → s.isl.rootOk = true → s.isl.bays.length = 32 →
      ∃ t, exec .rootLost s = .next t ∧ t.isl.rootOk = false ∧ t.chip.rst.island = true
        ∧ ∀ b : BayId, (t.safeBay b).lsafe = false ∧ (t.safeBay b).ssafe = false)
    ∧ (s.sysHeld = false → s.chip.clk.ddrLock = true → s.chip.fatal = none →
      ∃ t, exec .ddrPllUnlock s = .next t ∧ t.chip.fatal = some .ddrPll ∧ t.blk.frozen = true)
    ∧ (s.isl.bays.length = 32 →
      ∃ t, exec .thermalTrip s = .next t ∧ t.chip.power.tripped = true
        ∧ ∀ b : BayId, (t.safeBay b).lsafe = false ∧ (t.safeBay b).ssafe = false)
    ∧ (∀ mv : Nat, s.sysHeld = false → 3 ≤ s.chip.up.step → 680 ≤ mv → mv ≤ 800 → mv ≤ s.chip.power.avs + 10 →
        s.chip.power.avs ≤ mv + 10 → s.chip.power.avsFails < 3 →
      (∃ t, exec (.avsSetPoint mv true) s = .next t ∧ t.chip.power.avs = mv ∧ t.chip.power.avsFails = 0)
        ∧ ∃ t, exec (.avsSetPoint mv false) s = .next t ∧ t.chip.power.avs = s.chip.power.avs
            ∧ t.chip.power.avsFails = s.chip.power.avsFails + 1)
    ∧ (s.sysHeld = false → s.host.ready = true → s.chip.fatal = none → s.chip.up.cores = true →
      ∃ t, exec .hbeatIncrement s = .next t ∧ t.host.hbeat = (s.host.hbeat + 1) % 2 ^ 32)

/-- The bring-up (Table 16-5, R352, R353): step 1 loads the fuses and gives up after its third failure, step 2 passes or fails the
island, step 3 locks the root clock, steps 9 and 10 wait for the bays and for the mounting hampers, and a bay's motor link trains in its
turn. -/
def Obligations.BringupAdvances : Prop :=
  ∀ (s : State) (rates : List Nat), s.sysHeld = false → s.chip.up.stopped = false → s.chip.fatal = none →
    (s.chip.up.step = 0 →
      (∃ t, exec (.bringupStep true rates) s = .next t ∧ t.chip.up.step = 1 ∧ t.trust.shadow = s.trust.fuses ∧ t.host.stage = 1)
        ∧ ∃ t, exec (.bringupStep false rates) s = .next t ∧ t.chip.up.step = 0 ∧ t.chip.up.fails = s.chip.up.fails + 1
            ∧ t.chip.up.stopped = decide (2 ≤ s.chip.up.fails))
    ∧ (s.chip.up.step = 1 → s.isl.halted = false → s.isl.bays.length = 32 →
      (∃ t, exec (.bringupStep true rates) s = .next t ∧ t.chip.up.step = 2 ∧ t.isl = { s.isl with passed := true })
        ∧ ∃ t, exec (.bringupStep false rates) s = .next t ∧ t.chip.up.step = 2 ∧ t.isl.passed = false ∧ t.isl.halted = true
            ∧ ∀ b : BayId, (t.safeBay b).lsafe = false ∧ (t.safeBay b).ssafe = false)
    ∧ (s.chip.up.step = 2 →
      ∃ t, exec (.bringupStep true rates) s = .next t ∧ t.chip.up.step = 3 ∧ t.chip.clk.locked = true ∧ t.chip.clk.time = 0)
    ∧ (s.chip.up.step = 8 → (∀ b : BayId, s.bayDone b = true) →
      ∃ t, exec (.bringupStep true rates) s = .next t ∧ t.chip.up.step = 9 ∧ t.host.stage = 9)
    ∧ (s.chip.up.step = 9 → s.anyMounting = false →
      ∃ t, exec (.bringupStep true rates) s = .next t ∧ t.chip.up.step = 10 ∧ t.host.stage = 10)
    ∧ (∀ b : BayId, s.coresHeld = false → 8 ≤ s.chip.up.step → s.chip.up.at8 + 50000 * b.val ≤ s.us → s.noBays = false →
        s.bayExists b = true → s.mportUp b = true → (s.bay b).mlink.st = .down →
      ∃ t, exec (.bayBringupStart b) s = .next t ∧ (t.bay b).mlink.st = .dsTrain)
end

