-- ==== Sys2Proof/Laws/Frame.lean ====
section
/-! SUPPORT. Fields of the state through conditionals and folds: what the frame lemmas of the operations rest on. -/

namespace Sys2Proof.Machine

@[simp] theorem State.ite_pending (c : Prop) [Decidable c] (a b : State) : (if c then a else b).pending = if c then a.pending else b.pending := by split <;> rfl

@[simp] theorem State.foldl_pending {α : Type} (f : State → α → State) (h : ∀ x a, (f x a).pending = x.pending) (l : List α) (s : State) :
    (l.foldl f s).pending = s.pending := by
  induction l generalizing s with
  | nil => rfl
  | cons a l ih => simp only [List.foldl_cons, ih, h]

@[simp] theorem State.ite_out (c : Prop) [Decidable c] (a b : State) : (if c then a else b).out = if c then a.out else b.out := by split <;> rfl

@[simp] theorem State.foldl_out {α : Type} (f : State → α → State) (h : ∀ x a, (f x a).out = x.out) (l : List α) (s : State) :
    (l.foldl f s).out = s.out := by
  induction l generalizing s with
  | nil => rfl
  | cons a l ih => simp only [List.foldl_cons, ih, h]

@[simp] theorem State.ite_free (c : Prop) [Decidable c] (a b : State) : (if c then a else b).free = if c then a.free else b.free := by split <;> rfl

@[simp] theorem State.foldl_free {α : Type} (f : State → α → State) (h : ∀ x a, (f x a).free = x.free) (l : List α) (s : State) :
    (l.foldl f s).free = s.free := by
  induction l generalizing s with
  | nil => rfl
  | cons a l ih => simp only [List.foldl_cons, ih, h]

@[simp] theorem State.ite_host (c : Prop) [Decidable c] (a b : State) : (if c then a else b).host = if c then a.host else b.host := by split <;> rfl

@[simp] theorem State.foldl_host {α : Type} (f : State → α → State) (h : ∀ x a, (f x a).host = x.host) (l : List α) (s : State) :
    (l.foldl f s).host = s.host := by
  induction l generalizing s with
  | nil => rfl
  | cons a l ih => simp only [List.foldl_cons, ih, h]

@[simp] theorem State.ite_ev (c : Prop) [Decidable c] (a b : State) : (if c then a else b).ev = if c then a.ev else b.ev := by split <;> rfl

@[simp] theorem State.foldl_ev {α : Type} (f : State → α → State) (h : ∀ x a, (f x a).ev = x.ev) (l : List α) (s : State) :
    (l.foldl f s).ev = s.ev := by
  induction l generalizing s with
  | nil => rfl
  | cons a l ih => simp only [List.foldl_cons, ih, h]

@[simp] theorem State.ite_ham (c : Prop) [Decidable c] (a b : State) : (if c then a else b).ham = if c then a.ham else b.ham := by split <;> rfl

@[simp] theorem State.foldl_ham {α : Type} (f : State → α → State) (h : ∀ x a, (f x a).ham = x.ham) (l : List α) (s : State) :
    (l.foldl f s).ham = s.ham := by
  induction l generalizing s with
  | nil => rfl
  | cons a l ih => simp only [List.foldl_cons, ih, h]

@[simp] theorem State.ite_mem (c : Prop) [Decidable c] (a b : State) : (if c then a else b).mem = if c then a.mem else b.mem := by split <;> rfl

@[simp] theorem State.foldl_mem {α : Type} (f : State → α → State) (h : ∀ x a, (f x a).mem = x.mem) (l : List α) (s : State) :
    (l.foldl f s).mem = s.mem := by
  induction l generalizing s with
  | nil => rfl
  | cons a l ih => simp only [List.foldl_cons, ih, h]

@[simp] theorem State.ite_flash (c : Prop) [Decidable c] (a b : State) : (if c then a else b).flash = if c then a.flash else b.flash := by split <;> rfl

@[simp] theorem State.foldl_flash {α : Type} (f : State → α → State) (h : ∀ x a, (f x a).flash = x.flash) (l : List α) (s : State) :
    (l.foldl f s).flash = s.flash := by
  induction l generalizing s with
  | nil => rfl
  | cons a l ih => simp only [List.foldl_cons, ih, h]

@[simp] theorem State.ite_cfg (c : Prop) [Decidable c] (a b : State) : (if c then a else b).cfg = if c then a.cfg else b.cfg := by split <;> rfl

@[simp] theorem State.foldl_cfg {α : Type} (f : State → α → State) (h : ∀ x a, (f x a).cfg = x.cfg) (l : List α) (s : State) :
    (l.foldl f s).cfg = s.cfg := by
  induction l generalizing s with
  | nil => rfl
  | cons a l ih => simp only [List.foldl_cons, ih, h]

@[simp] theorem State.ite_trust (c : Prop) [Decidable c] (a b : State) : (if c then a else b).trust = if c then a.trust else b.trust := by split <;> rfl

@[simp] theorem State.foldl_trust {α : Type} (f : State → α → State) (h : ∀ x a, (f x a).trust = x.trust) (l : List α) (s : State) :
    (l.foldl f s).trust = s.trust := by
  induction l generalizing s with
  | nil => rfl
  | cons a l ih => simp only [List.foldl_cons, ih, h]

@[simp] theorem State.ite_blk (c : Prop) [Decidable c] (a b : State) : (if c then a else b).blk = if c then a.blk else b.blk := by split <;> rfl

@[simp] theorem State.foldl_blk {α : Type} (f : State → α → State) (h : ∀ x a, (f x a).blk = x.blk) (l : List α) (s : State) :
    (l.foldl f s).blk = s.blk := by
  induction l generalizing s with
  | nil => rfl
  | cons a l ih => simp only [List.foldl_cons, ih, h]

@[simp] theorem State.ite_isl (c : Prop) [Decidable c] (a b : State) : (if c then a else b).isl = if c then a.isl else b.isl := by split <;> rfl

@[simp] theorem State.foldl_isl {α : Type} (f : State → α → State) (h : ∀ x a, (f x a).isl = x.isl) (l : List α) (s : State) :
    (l.foldl f s).isl = s.isl := by
  induction l generalizing s with
  | nil => rfl
  | cons a l ih => simp only [List.foldl_cons, ih, h]

@[simp] theorem State.ite_inj (c : Prop) [Decidable c] (a b : State) : (if c then a else b).inj = if c then a.inj else b.inj := by split <;> rfl

@[simp] theorem State.foldl_inj {α : Type} (f : State → α → State) (h : ∀ x a, (f x a).inj = x.inj) (l : List α) (s : State) :
    (l.foldl f s).inj = s.inj := by
  induction l generalizing s with
  | nil => rfl
  | cons a l ih => simp only [List.foldl_cons, ih, h]

@[simp] theorem State.ite_chip (c : Prop) [Decidable c] (a b : State) : (if c then a else b).chip = if c then a.chip else b.chip := by split <;> rfl

@[simp] theorem State.foldl_chip {α : Type} (f : State → α → State) (h : ∀ x a, (f x a).chip = x.chip) (l : List α) (s : State) :
    (l.foldl f s).chip = s.chip := by
  induction l generalizing s with
  | nil => rfl
  | cons a l ih => simp only [List.foldl_cons, ih, h]

@[simp] theorem State.ite_bays (c : Prop) [Decidable c] (a b : State) : (if c then a else b).bays = if c then a.bays else b.bays := by split <;> rfl

@[simp] theorem State.foldl_bays {α : Type} (f : State → α → State) (h : ∀ x a, (f x a).bays = x.bays) (l : List α) (s : State) :
    (l.foldl f s).bays = s.bays := by
  induction l generalizing s with
  | nil => rfl
  | cons a l ih => simp only [List.foldl_cons, ih, h]

@[simp] theorem State.foldl_mem_ddr {α : Type} (f : State → α → State) (h : ∀ x a, (f x a).mem.ddr = x.mem.ddr) (l : List α) (s : State) :
    (l.foldl f s).mem.ddr = s.mem.ddr := by
  induction l generalizing s with
  | nil => rfl
  | cons a l ih => simp only [List.foldl_cons, ih, h]

@[simp] theorem State.foldl_flash_mem {α : Type} (f : State → α → State) (h : ∀ x a, (f x a).flash.mem = x.flash.mem) (l : List α) (s : State) :
    (l.foldl f s).flash.mem = s.flash.mem := by
  induction l generalizing s with
  | nil => rfl
  | cons a l ih => simp only [List.foldl_cons, ih, h]

@[simp] theorem State.foldl_trust_fuses {α : Type} (f : State → α → State) (h : ∀ x a, (f x a).trust.fuses = x.trust.fuses) (l : List α) (s : State) :
    (l.foldl f s).trust.fuses = s.trust.fuses := by
  induction l generalizing s with
  | nil => rfl
  | cons a l ih => simp only [List.foldl_cons, ih, h]

theorem State.foldl2_pending {α β : Type} (f : β × State → α → β × State) (h : ∀ r a, (f r a).2.pending = r.2.pending) (l : List α) (r : β × State) :
    (l.foldl f r).2.pending = r.2.pending := by
  induction l generalizing r with
  | nil => rfl
  | cons a l ih => simp only [List.foldl_cons, ih, h]

theorem State.foldl2_out {α β : Type} (f : β × State → α → β × State) (h : ∀ r a, (f r a).2.out = r.2.out) (l : List α) (r : β × State) :
    (l.foldl f r).2.out = r.2.out := by
  induction l generalizing r with
  | nil => rfl
  | cons a l ih => simp only [List.foldl_cons, ih, h]

theorem State.foldl2_free {α β : Type} (f : β × State → α → β × State) (h : ∀ r a, (f r a).2.free = r.2.free) (l : List α) (r : β × State) :
    (l.foldl f r).2.free = r.2.free := by
  induction l generalizing r with
  | nil => rfl
  | cons a l ih => simp only [List.foldl_cons, ih, h]

theorem State.foldl2_host {α β : Type} (f : β × State → α → β × State) (h : ∀ r a, (f r a).2.host = r.2.host) (l : List α) (r : β × State) :
    (l.foldl f r).2.host = r.2.host := by
  induction l generalizing r with
  | nil => rfl
  | cons a l ih => simp only [List.foldl_cons, ih, h]

theorem State.foldl2_ev {α β : Type} (f : β × State → α → β × State) (h : ∀ r a, (f r a).2.ev = r.2.ev) (l : List α) (r : β × State) :
    (l.foldl f r).2.ev = r.2.ev := by
  induction l generalizing r with
  | nil => rfl
  | cons a l ih => simp only [List.foldl_cons, ih, h]

theorem State.foldl2_ham {α β : Type} (f : β × State → α → β × State) (h : ∀ r a, (f r a).2.ham = r.2.ham) (l : List α) (r : β × State) :
    (l.foldl f r).2.ham = r.2.ham := by
  induction l generalizing r with
  | nil => rfl
  | cons a l ih => simp only [List.foldl_cons, ih, h]

theorem State.foldl2_mem {α β : Type} (f : β × State → α → β × State) (h : ∀ r a, (f r a).2.mem = r.2.mem) (l : List α) (r : β × State) :
    (l.foldl f r).2.mem = r.2.mem := by
  induction l generalizing r with
  | nil => rfl
  | cons a l ih => simp only [List.foldl_cons, ih, h]

theorem State.foldl2_flash {α β : Type} (f : β × State → α → β × State) (h : ∀ r a, (f r a).2.flash = r.2.flash) (l : List α) (r : β × State) :
    (l.foldl f r).2.flash = r.2.flash := by
  induction l generalizing r with
  | nil => rfl
  | cons a l ih => simp only [List.foldl_cons, ih, h]

theorem State.foldl2_cfg {α β : Type} (f : β × State → α → β × State) (h : ∀ r a, (f r a).2.cfg = r.2.cfg) (l : List α) (r : β × State) :
    (l.foldl f r).2.cfg = r.2.cfg := by
  induction l generalizing r with
  | nil => rfl
  | cons a l ih => simp only [List.foldl_cons, ih, h]

theorem State.foldl2_trust {α β : Type} (f : β × State → α → β × State) (h : ∀ r a, (f r a).2.trust = r.2.trust) (l : List α) (r : β × State) :
    (l.foldl f r).2.trust = r.2.trust := by
  induction l generalizing r with
  | nil => rfl
  | cons a l ih => simp only [List.foldl_cons, ih, h]

theorem State.foldl2_blk {α β : Type} (f : β × State → α → β × State) (h : ∀ r a, (f r a).2.blk = r.2.blk) (l : List α) (r : β × State) :
    (l.foldl f r).2.blk = r.2.blk := by
  induction l generalizing r with
  | nil => rfl
  | cons a l ih => simp only [List.foldl_cons, ih, h]

theorem State.foldl2_isl {α β : Type} (f : β × State → α → β × State) (h : ∀ r a, (f r a).2.isl = r.2.isl) (l : List α) (r : β × State) :
    (l.foldl f r).2.isl = r.2.isl := by
  induction l generalizing r with
  | nil => rfl
  | cons a l ih => simp only [List.foldl_cons, ih, h]

theorem State.foldl2_inj {α β : Type} (f : β × State → α → β × State) (h : ∀ r a, (f r a).2.inj = r.2.inj) (l : List α) (r : β × State) :
    (l.foldl f r).2.inj = r.2.inj := by
  induction l generalizing r with
  | nil => rfl
  | cons a l ih => simp only [List.foldl_cons, ih, h]

theorem State.foldl2_chip {α β : Type} (f : β × State → α → β × State) (h : ∀ r a, (f r a).2.chip = r.2.chip) (l : List α) (r : β × State) :
    (l.foldl f r).2.chip = r.2.chip := by
  induction l generalizing r with
  | nil => rfl
  | cons a l ih => simp only [List.foldl_cons, ih, h]

theorem State.foldl2_bays {α β : Type} (f : β × State → α → β × State) (h : ∀ r a, (f r a).2.bays = r.2.bays) (l : List α) (r : β × State) :
    (l.foldl f r).2.bays = r.2.bays := by
  induction l generalizing r with
  | nil => rfl
  | cons a l ih => simp only [List.foldl_cons, ih, h]

theorem State.foldl2_mem_ddr {α β : Type} (f : β × State → α → β × State) (h : ∀ r a, (f r a).2.mem.ddr = r.2.mem.ddr) (l : List α) (r : β × State) :
    (l.foldl f r).2.mem.ddr = r.2.mem.ddr := by
  induction l generalizing r with
  | nil => rfl
  | cons a l ih => simp only [List.foldl_cons, ih, h]

theorem State.foldl2_flash_mem {α β : Type} (f : β × State → α → β × State) (h : ∀ r a, (f r a).2.flash.mem = r.2.flash.mem) (l : List α) (r : β × State) :
    (l.foldl f r).2.flash.mem = r.2.flash.mem := by
  induction l generalizing r with
  | nil => rfl
  | cons a l ih => simp only [List.foldl_cons, ih, h]

theorem State.foldl2_trust_fuses {α β : Type} (f : β × State → α → β × State) (h : ∀ r a, (f r a).2.trust.fuses = r.2.trust.fuses) (l : List α) (r : β × State) :
    (l.foldl f r).2.trust.fuses = r.2.trust.fuses := by
  induction l generalizing r with
  | nil => rfl
  | cons a l ih => simp only [List.foldl_cons, ih, h]

@[simp] theorem ChipState.ite_rst (c : Prop) [Decidable c] (a b : ChipState) : (if c then a else b).rst = if c then a.rst else b.rst := by split <;> rfl

@[simp] theorem ChipState.ite_up (c : Prop) [Decidable c] (a b : ChipState) : (if c then a else b).up = if c then a.up else b.up := by split <;> rfl

@[simp] theorem ChipState.ite_clk (c : Prop) [Decidable c] (a b : ChipState) : (if c then a else b).clk = if c then a.clk else b.clk := by split <;> rfl

@[simp] theorem HostState.ite_cmds (c : Prop) [Decidable c] (a b : HostState) : (if c then a else b).cmds = if c then a.cmds else b.cmds := by split <;> rfl

@[simp] theorem MemState.ite_ddr (c : Prop) [Decidable c] (a b : MemState) : (if c then a else b).ddr = if c then a.ddr else b.ddr := by split <;> rfl

@[simp] theorem Flash.ite_mem (c : Prop) [Decidable c] (a b : Flash) : (if c then a else b).mem = if c then a.mem else b.mem := by split <;> rfl

@[simp] theorem Trust.ite_fuses (c : Prop) [Decidable c] (a b : Trust) : (if c then a else b).fuses = if c then a.fuses else b.fuses := by split <;> rfl

end Sys2Proof.Machine
end

