-- ==== Sys2Proof/Laws/FrameOps.lean ====
section
/-! SUPPORT. What the operations of Machine/Ops.lean leave unchanged: one lemma each, the fields of the state it does not touch. -/

namespace Sys2Proof.Machine

@[simp] theorem State.setBay_frame (s : State) (b : BayId) (v : Bay) :
    (s.setBay b v).pending = s.pending ∧ (s.setBay b v).out = s.out ∧ (s.setBay b v).free = s.free ∧
    (s.setBay b v).host = s.host ∧ (s.setBay b v).ev = s.ev ∧ (s.setBay b v).ham = s.ham ∧ (s.setBay b v).mem = s.mem ∧
    (s.setBay b v).flash = s.flash ∧ (s.setBay b v).cfg = s.cfg ∧ (s.setBay b v).trust = s.trust ∧ (s.setBay b v).blk = s.blk ∧
    (s.setBay b v).isl = s.isl ∧ (s.setBay b v).inj = s.inj ∧ (s.setBay b v).chip = s.chip := by
  unfold State.setBay
  refine ⟨?_, ?_, ?_, ?_, ?_, ?_, ?_, ?_, ?_, ?_, ?_, ?_, ?_, ?_⟩ <;> (try simp) <;> repeat' (first | intro _ | (split <;> try simp))

@[simp] theorem State.updBay_frame (s : State) (b : BayId) (f : Bay → Bay) :
    (s.updBay b f).pending = s.pending ∧ (s.updBay b f).out = s.out ∧ (s.updBay b f).free = s.free ∧
    (s.updBay b f).host = s.host ∧ (s.updBay b f).ev = s.ev ∧ (s.updBay b f).ham = s.ham ∧ (s.updBay b f).mem = s.mem ∧
    (s.updBay b f).flash = s.flash ∧ (s.updBay b f).cfg = s.cfg ∧ (s.updBay b f).trust = s.trust ∧ (s.updBay b f).blk = s.blk ∧
    (s.updBay b f).isl = s.isl ∧ (s.updBay b f).inj = s.inj ∧ (s.updBay b f).chip = s.chip := by
  unfold State.updBay
  refine ⟨?_, ?_, ?_, ?_, ?_, ?_, ?_, ?_, ?_, ?_, ?_, ?_, ?_, ?_⟩ <;> (try simp) <;> repeat' (first | intro _ | (split <;> try simp))

@[simp] theorem State.updPu_frame (s : State) (b : BayId) (p : Pu) (f : Pickup → Pickup) :
    (s.updPu b p f).pending = s.pending ∧ (s.updPu b p f).out = s.out ∧ (s.updPu b p f).free = s.free ∧
    (s.updPu b p f).host = s.host ∧ (s.updPu b p f).ev = s.ev ∧ (s.updPu b p f).ham = s.ham ∧ (s.updPu b p f).mem = s.mem ∧
    (s.updPu b p f).flash = s.flash ∧ (s.updPu b p f).cfg = s.cfg ∧ (s.updPu b p f).trust = s.trust ∧
    (s.updPu b p f).blk = s.blk ∧ (s.updPu b p f).isl = s.isl ∧ (s.updPu b p f).inj = s.inj ∧ (s.updPu b p f).chip = s.chip := by
  unfold State.updPu
  refine ⟨?_, ?_, ?_, ?_, ?_, ?_, ?_, ?_, ?_, ?_, ?_, ?_, ?_, ?_⟩ <;> (try simp) <;> repeat' (first | intro _ | (split <;> try simp))

@[simp] theorem State.updSled_frame (s : State) (b : BayId) (p : Pu) (f : Sled → Sled) :
    (s.updSled b p f).pending = s.pending ∧ (s.updSled b p f).out = s.out ∧ (s.updSled b p f).free = s.free ∧
    (s.updSled b p f).host = s.host ∧ (s.updSled b p f).ev = s.ev ∧ (s.updSled b p f).ham = s.ham ∧
    (s.updSled b p f).mem = s.mem ∧ (s.updSled b p f).flash = s.flash ∧ (s.updSled b p f).cfg = s.cfg ∧
    (s.updSled b p f).trust = s.trust ∧ (s.updSled b p f).blk = s.blk ∧ (s.updSled b p f).isl = s.isl ∧
    (s.updSled b p f).inj = s.inj ∧ (s.updSled b p f).chip = s.chip := by
  unfold State.updSled
  refine ⟨?_, ?_, ?_, ?_, ?_, ?_, ?_, ?_, ?_, ?_, ?_, ?_, ?_, ?_⟩ <;> (try simp) <;> repeat' (first | intro _ | (split <;> try simp))

@[simp] theorem State.boundary_frame (s : State) (u : CfgUnit) (sec : Nat) :
    (s.boundary u sec).pending = s.pending ∧ (s.boundary u sec).out = s.out ∧ (s.boundary u sec).free = s.free ∧
    (s.boundary u sec).host = s.host ∧ (s.boundary u sec).ev = s.ev ∧ (s.boundary u sec).ham = s.ham ∧
    (s.boundary u sec).mem = s.mem ∧ (s.boundary u sec).flash = s.flash ∧ (s.boundary u sec).trust = s.trust ∧
    (s.boundary u sec).blk = s.blk ∧ (s.boundary u sec).isl = s.isl ∧ (s.boundary u sec).inj = s.inj ∧
    (s.boundary u sec).chip = s.chip ∧ (s.boundary u sec).bays = s.bays := by
  unfold State.boundary
  refine ⟨?_, ?_, ?_, ?_, ?_, ?_, ?_, ?_, ?_, ?_, ?_, ?_, ?_, ?_⟩ <;> (try simp) <;> repeat' (first | intro _ | (split <;> try simp))

@[simp] theorem State.emit_frame (s : State) (o : Output) :
    (s.emit o).pending = s.pending ∧ (s.emit o).free = s.free ∧ (s.emit o).host = s.host ∧ (s.emit o).ev = s.ev ∧
    (s.emit o).ham = s.ham ∧ (s.emit o).mem = s.mem ∧ (s.emit o).flash = s.flash ∧ (s.emit o).cfg = s.cfg ∧
    (s.emit o).trust = s.trust ∧ (s.emit o).blk = s.blk ∧ (s.emit o).isl = s.isl ∧ (s.emit o).inj = s.inj ∧
    (s.emit o).chip = s.chip ∧ (s.emit o).bays = s.bays := by
  unfold State.emit
  refine ⟨?_, ?_, ?_, ?_, ?_, ?_, ?_, ?_, ?_, ?_, ?_, ?_, ?_, ?_⟩ <;> (try simp) <;> repeat' (first | intro _ | (split <;> try simp))

@[simp] theorem State.updFn_frame (s : State) (f : FnId) (g : Fn → Fn) :
    (s.updFn f g).pending = s.pending ∧ (s.updFn f g).out = s.out ∧ (s.updFn f g).free = s.free ∧ (s.updFn f g).ev = s.ev ∧
    (s.updFn f g).ham = s.ham ∧ (s.updFn f g).mem = s.mem ∧ (s.updFn f g).flash = s.flash ∧ (s.updFn f g).cfg = s.cfg ∧
    (s.updFn f g).trust = s.trust ∧ (s.updFn f g).blk = s.blk ∧ (s.updFn f g).isl = s.isl ∧ (s.updFn f g).inj = s.inj ∧
    (s.updFn f g).chip = s.chip ∧ (s.updFn f g).bays = s.bays := by
  unfold State.updFn
  refine ⟨?_, ?_, ?_, ?_, ?_, ?_, ?_, ?_, ?_, ?_, ?_, ?_, ?_, ?_⟩ <;> (try simp) <;> repeat' (first | intro _ | (split <;> try simp))

@[simp] theorem State.updCr_frame (s : State) (f : FnId) (id : Nat) (g : Cr → Cr) :
    (s.updCr f id g).pending = s.pending ∧ (s.updCr f id g).out = s.out ∧ (s.updCr f id g).free = s.free ∧
    (s.updCr f id g).ev = s.ev ∧ (s.updCr f id g).ham = s.ham ∧ (s.updCr f id g).mem = s.mem ∧ (s.updCr f id g).flash = s.flash ∧
    (s.updCr f id g).cfg = s.cfg ∧ (s.updCr f id g).trust = s.trust ∧ (s.updCr f id g).blk = s.blk ∧
    (s.updCr f id g).isl = s.isl ∧ (s.updCr f id g).inj = s.inj ∧ (s.updCr f id g).chip = s.chip ∧
    (s.updCr f id g).bays = s.bays := by
  unfold State.updCr
  refine ⟨?_, ?_, ?_, ?_, ?_, ?_, ?_, ?_, ?_, ?_, ?_, ?_, ?_, ?_⟩ <;> (try simp) <;> repeat' (first | intro _ | (split <;> try simp))

@[simp] theorem State.updSr_frame (s : State) (f : FnId) (id : Nat) (g : Sr → Sr) :
    (s.updSr f id g).pending = s.pending ∧ (s.updSr f id g).out = s.out ∧ (s.updSr f id g).free = s.free ∧
    (s.updSr f id g).ev = s.ev ∧ (s.updSr f id g).ham = s.ham ∧ (s.updSr f id g).mem = s.mem ∧ (s.updSr f id g).flash = s.flash ∧
    (s.updSr f id g).cfg = s.cfg ∧ (s.updSr f id g).trust = s.trust ∧ (s.updSr f id g).blk = s.blk ∧
    (s.updSr f id g).isl = s.isl ∧ (s.updSr f id g).inj = s.inj ∧ (s.updSr f id g).chip = s.chip ∧
    (s.updSr f id g).bays = s.bays := by
  unfold State.updSr
  refine ⟨?_, ?_, ?_, ?_, ?_, ?_, ?_, ?_, ?_, ?_, ?_, ?_, ?_, ?_⟩ <;> (try simp) <;> repeat' (first | intro _ | (split <;> try simp))

@[simp] theorem State.signal_frame (s : State) (f : FnId) (v : Nat) :
    (s.signal f v).pending = s.pending ∧ (s.signal f v).free = s.free ∧ (s.signal f v).ev = s.ev ∧ (s.signal f v).ham = s.ham ∧
    (s.signal f v).mem = s.mem ∧ (s.signal f v).flash = s.flash ∧ (s.signal f v).cfg = s.cfg ∧ (s.signal f v).trust = s.trust ∧
    (s.signal f v).blk = s.blk ∧ (s.signal f v).isl = s.isl ∧ (s.signal f v).inj = s.inj ∧ (s.signal f v).chip = s.chip ∧
    (s.signal f v).bays = s.bays := by
  unfold State.signal
  refine ⟨?_, ?_, ?_, ?_, ?_, ?_, ?_, ?_, ?_, ?_, ?_, ?_, ?_⟩ <;> (try simp) <;> repeat' (first | intro _ | (split <;> try simp))

@[simp] theorem State.crSignal_frame (s : State) (f : FnId) (id : Nat) :
    (s.crSignal f id).pending = s.pending ∧ (s.crSignal f id).free = s.free ∧ (s.crSignal f id).ev = s.ev ∧
    (s.crSignal f id).ham = s.ham ∧ (s.crSignal f id).mem = s.mem ∧ (s.crSignal f id).flash = s.flash ∧
    (s.crSignal f id).cfg = s.cfg ∧ (s.crSignal f id).trust = s.trust ∧ (s.crSignal f id).blk = s.blk ∧
    (s.crSignal f id).isl = s.isl ∧ (s.crSignal f id).inj = s.inj ∧ (s.crSignal f id).chip = s.chip ∧
    (s.crSignal f id).bays = s.bays := by
  unfold State.crSignal
  refine ⟨?_, ?_, ?_, ?_, ?_, ?_, ?_, ?_, ?_, ?_, ?_, ?_, ?_⟩ <;> (try simp) <;> repeat' (first | intro _ | (split <;> try simp))

@[simp] theorem State.writeEv_frame (s : State) (c : Cr) (r : EvRec) (fseq : Nat) :
    (s.writeEv c r fseq).pending = s.pending ∧ (s.writeEv c r fseq).free = s.free ∧ (s.writeEv c r fseq).ev = s.ev ∧
    (s.writeEv c r fseq).ham = s.ham ∧ (s.writeEv c r fseq).mem = s.mem ∧ (s.writeEv c r fseq).flash = s.flash ∧
    (s.writeEv c r fseq).cfg = s.cfg ∧ (s.writeEv c r fseq).trust = s.trust ∧ (s.writeEv c r fseq).blk = s.blk ∧
    (s.writeEv c r fseq).isl = s.isl ∧ (s.writeEv c r fseq).inj = s.inj ∧ (s.writeEv c r fseq).chip = s.chip ∧
    (s.writeEv c r fseq).bays = s.bays := by
  unfold State.writeEv
  refine ⟨?_, ?_, ?_, ?_, ?_, ?_, ?_, ?_, ?_, ?_, ?_, ?_, ?_⟩ <;> (try simp) <;> repeat' (first | intro _ | (split <;> try simp))

@[simp] theorem State.deliver_frame (s : State) (f : FnId) (r : EvRec) :
    (s.deliver f r).pending = s.pending ∧ (s.deliver f r).free = s.free ∧ (s.deliver f r).ev = s.ev ∧
    (s.deliver f r).ham = s.ham ∧ (s.deliver f r).mem = s.mem ∧ (s.deliver f r).flash = s.flash ∧ (s.deliver f r).cfg = s.cfg ∧
    (s.deliver f r).trust = s.trust ∧ (s.deliver f r).blk = s.blk ∧ (s.deliver f r).isl = s.isl ∧ (s.deliver f r).inj = s.inj ∧
    (s.deliver f r).chip = s.chip ∧ (s.deliver f r).bays = s.bays := by
  unfold State.deliver
  refine ⟨?_, ?_, ?_, ?_, ?_, ?_, ?_, ?_, ?_, ?_, ?_, ?_, ?_⟩ <;> (try simp) <;> repeat' (first | intro _ | (split <;> try simp))

@[simp] theorem State.flushLost_frame (s : State) (f : FnId) :
    (s.flushLost f).pending = s.pending ∧ (s.flushLost f).free = s.free ∧ (s.flushLost f).ev = s.ev ∧
    (s.flushLost f).ham = s.ham ∧ (s.flushLost f).mem = s.mem ∧ (s.flushLost f).flash = s.flash ∧ (s.flushLost f).cfg = s.cfg ∧
    (s.flushLost f).trust = s.trust ∧ (s.flushLost f).blk = s.blk ∧ (s.flushLost f).isl = s.isl ∧ (s.flushLost f).inj = s.inj ∧
    (s.flushLost f).chip = s.chip ∧ (s.flushLost f).bays = s.bays := by
  unfold State.flushLost
  refine ⟨?_, ?_, ?_, ?_, ?_, ?_, ?_, ?_, ?_, ?_, ?_, ?_, ?_⟩ <;> (try simp) <;> repeat' (first | intro _ | (split <;> try simp))

@[simp] theorem State.setEngCk_frame (s : State) (c : EngCk) :
    (s.setEngCk c).pending = s.pending ∧ (s.setEngCk c).out = s.out ∧ (s.setEngCk c).free = s.free ∧
    (s.setEngCk c).host = s.host ∧ (s.setEngCk c).ev = s.ev ∧ (s.setEngCk c).ham = s.ham ∧ (s.setEngCk c).mem = s.mem ∧
    (s.setEngCk c).flash = s.flash ∧ (s.setEngCk c).cfg = s.cfg ∧ (s.setEngCk c).trust = s.trust ∧ (s.setEngCk c).isl = s.isl ∧
    (s.setEngCk c).inj = s.inj ∧ (s.setEngCk c).chip = s.chip ∧ (s.setEngCk c).bays = s.bays := by
  unfold State.setEngCk
  refine ⟨?_, ?_, ?_, ?_, ?_, ?_, ?_, ?_, ?_, ?_, ?_, ?_, ?_, ?_⟩ <;> (try simp) <;> repeat' (first | intro _ | (split <;> try simp))

@[simp] theorem State.storeEv_frame (s : State) (r : EvRec) :
    (s.storeEv r).pending = s.pending ∧ (s.storeEv r).out = s.out ∧ (s.storeEv r).free = s.free ∧ (s.storeEv r).host = s.host ∧
    (s.storeEv r).ham = s.ham ∧ (s.storeEv r).mem = s.mem ∧ (s.storeEv r).flash = s.flash ∧ (s.storeEv r).cfg = s.cfg ∧
    (s.storeEv r).trust = s.trust ∧ (s.storeEv r).blk = s.blk ∧ (s.storeEv r).isl = s.isl ∧ (s.storeEv r).inj = s.inj ∧
    (s.storeEv r).chip = s.chip ∧ (s.storeEv r).bays = s.bays := by
  unfold State.storeEv
  refine ⟨?_, ?_, ?_, ?_, ?_, ?_, ?_, ?_, ?_, ?_, ?_, ?_, ?_, ?_⟩ <;> (try simp) <;> repeat' (first | intro _ | (split <;> try simp))

@[simp] theorem State.queueEv_frame (s : State) (g e : Nat) (r : EvRec) :
    (s.queueEv g e r).pending = s.pending ∧ (s.queueEv g e r).out = s.out ∧ (s.queueEv g e r).free = s.free ∧
    (s.queueEv g e r).host = s.host ∧ (s.queueEv g e r).ham = s.ham ∧ (s.queueEv g e r).mem = s.mem ∧
    (s.queueEv g e r).flash = s.flash ∧ (s.queueEv g e r).cfg = s.cfg ∧ (s.queueEv g e r).trust = s.trust ∧
    (s.queueEv g e r).blk = s.blk ∧ (s.queueEv g e r).isl = s.isl ∧ (s.queueEv g e r).inj = s.inj ∧
    (s.queueEv g e r).chip = s.chip ∧ (s.queueEv g e r).bays = s.bays := by
  unfold State.queueEv
  refine ⟨?_, ?_, ?_, ?_, ?_, ?_, ?_, ?_, ?_, ?_, ?_, ?_, ?_, ?_⟩ <;> (try simp) <;> repeat' (first | intro _ | (split <;> try simp))

@[simp] theorem State.post_frame (s : State) (r : EvRec) :
    (s.post r).pending = s.pending ∧ (s.post r).free = s.free ∧ (s.post r).ham = s.ham ∧ (s.post r).mem = s.mem ∧
    (s.post r).flash = s.flash ∧ (s.post r).cfg = s.cfg ∧ (s.post r).trust = s.trust ∧ (s.post r).blk = s.blk ∧
    (s.post r).isl = s.isl ∧ (s.post r).inj = s.inj ∧ (s.post r).chip = s.chip ∧ (s.post r).bays = s.bays := by
  unfold State.post
  refine ⟨?_, ?_, ?_, ?_, ?_, ?_, ?_, ?_, ?_, ?_, ?_, ?_⟩ <;> (try simp) <;> repeat' (first | intro _ | (split <;> try simp))

@[simp] theorem State.raise_frame (s : State) (src : Nat) (e : Ev) (p0 p1 p2 : Nat) :
    (s.raise src e p0 p1 p2).pending = s.pending ∧ (s.raise src e p0 p1 p2).free = s.free ∧ (s.raise src e p0 p1 p2).ham = s.ham ∧
    (s.raise src e p0 p1 p2).mem = s.mem ∧ (s.raise src e p0 p1 p2).flash = s.flash ∧ (s.raise src e p0 p1 p2).cfg = s.cfg ∧
    (s.raise src e p0 p1 p2).trust = s.trust ∧ (s.raise src e p0 p1 p2).blk = s.blk ∧ (s.raise src e p0 p1 p2).isl = s.isl ∧
    (s.raise src e p0 p1 p2).inj = s.inj ∧ (s.raise src e p0 p1 p2).bays = s.bays := by
  unfold State.raise
  refine ⟨?_, ?_, ?_, ?_, ?_, ?_, ?_, ?_, ?_, ?_, ?_⟩ <;> (try simp) <;> repeat' (first | intro _ | (split <;> try simp))

@[simp] theorem State.raiseBay_frame (s : State) (b : BayId) (src : Nat) (e : Ev) (p0 : Nat) (p1 : Nat) (p2 : Nat) :
    (s.raiseBay b src e p0 p1 p2).pending = s.pending ∧ (s.raiseBay b src e p0 p1 p2).free = s.free ∧
    (s.raiseBay b src e p0 p1 p2).ham = s.ham ∧ (s.raiseBay b src e p0 p1 p2).mem = s.mem ∧
    (s.raiseBay b src e p0 p1 p2).flash = s.flash ∧ (s.raiseBay b src e p0 p1 p2).cfg = s.cfg ∧
    (s.raiseBay b src e p0 p1 p2).trust = s.trust ∧ (s.raiseBay b src e p0 p1 p2).blk = s.blk ∧
    (s.raiseBay b src e p0 p1 p2).isl = s.isl ∧ (s.raiseBay b src e p0 p1 p2).inj = s.inj ∧
    (s.raiseBay b src e p0 p1 p2).bays = s.bays := by
  unfold State.raiseBay
  refine ⟨?_, ?_, ?_, ?_, ?_, ?_, ?_, ?_, ?_, ?_, ?_⟩ <;> (try simp) <;> repeat' (first | intro _ | (split <;> try simp))

@[simp] theorem State.raisePu_frame (s : State) (b : BayId) (p : Pu) (src : Nat) (e : Ev) (p0 : Nat) (p1 : Nat) (p2 : Nat) :
    (s.raisePu b p src e p0 p1 p2).pending = s.pending ∧ (s.raisePu b p src e p0 p1 p2).free = s.free ∧
    (s.raisePu b p src e p0 p1 p2).ham = s.ham ∧ (s.raisePu b p src e p0 p1 p2).mem = s.mem ∧
    (s.raisePu b p src e p0 p1 p2).flash = s.flash ∧ (s.raisePu b p src e p0 p1 p2).cfg = s.cfg ∧
    (s.raisePu b p src e p0 p1 p2).trust = s.trust ∧ (s.raisePu b p src e p0 p1 p2).blk = s.blk ∧
    (s.raisePu b p src e p0 p1 p2).isl = s.isl ∧ (s.raisePu b p src e p0 p1 p2).inj = s.inj ∧
    (s.raisePu b p src e p0 p1 p2).bays = s.bays := by
  unfold State.raisePu
  refine ⟨?_, ?_, ?_, ?_, ?_, ?_, ?_, ?_, ?_, ?_, ?_⟩ <;> (try simp) <;> repeat' (first | intro _ | (split <;> try simp))

@[simp] theorem State.bumpGen_frame (s : State) :
    (s.bumpGen).pending = s.pending ∧ (s.bumpGen).out = s.out ∧ (s.bumpGen).free = s.free ∧ (s.bumpGen).ev = s.ev ∧
    (s.bumpGen).ham = s.ham ∧ (s.bumpGen).mem = s.mem ∧ (s.bumpGen).flash = s.flash ∧ (s.bumpGen).cfg = s.cfg ∧
    (s.bumpGen).trust = s.trust ∧ (s.bumpGen).blk = s.blk ∧ (s.bumpGen).isl = s.isl ∧ (s.bumpGen).inj = s.inj ∧
    (s.bumpGen).chip = s.chip ∧ (s.bumpGen).bays = s.bays := by
  unfold State.bumpGen
  refine ⟨?_, ?_, ?_, ?_, ?_, ?_, ?_, ?_, ?_, ?_, ?_, ?_, ?_, ?_⟩ <;> (try simp) <;> repeat' (first | intro _ | (split <;> try simp))

@[simp] theorem State.draw_frame (s : State) :
    (s.draw).2.pending = s.pending ∧ (s.draw).2.out = s.out ∧ (s.draw).2.host = s.host ∧ (s.draw).2.ev = s.ev ∧
    (s.draw).2.ham = s.ham ∧ (s.draw).2.mem = s.mem ∧ (s.draw).2.flash = s.flash ∧ (s.draw).2.cfg = s.cfg ∧
    (s.draw).2.trust = s.trust ∧ (s.draw).2.blk = s.blk ∧ (s.draw).2.isl = s.isl ∧ (s.draw).2.inj = s.inj ∧
    (s.draw).2.chip = s.chip ∧ (s.draw).2.bays = s.bays := by
  unfold State.draw
  refine ⟨?_, ?_, ?_, ?_, ?_, ?_, ?_, ?_, ?_, ?_, ?_, ?_, ?_, ?_⟩ <;> (try simp) <;> repeat' (first | intro _ | (split <;> try simp))

end Sys2Proof.Machine
end

