-- ==== Sys2Proof/Laws/FrameBuffers.lean ====
section
/-! SUPPORT. What the operations of Machine/Buffers.lean leave unchanged: one lemma each, the fields of the state it does not touch. -/

namespace Sys2Proof.Machine

/-! What the buffer operations leave of memory: no buffer operation writes a byte of DDR5. -/

@[simp] theorem MemState.updBasket_ddr (m : MemState) (n : Nat) (f : Basket → Basket) : (m.updBasket n f).ddr = m.ddr := rfl

@[simp] theorem MemState.poolInit_ddr (m : MemState) (c : Cfg) (n : Nat) : (m.poolInit c n).ddr = m.ddr := rfl

@[simp] theorem MemState.take_ddr (m : MemState) (n req : Nat) (lv : BufLevel) (home : Nat) : (m.take n req lv home).ddr = m.ddr := rfl

@[simp] theorem MemState.draw_ddr (c : Cfg) (n req k : Nat) (m : MemState) : (MemState.draw c n req k m).2.ddr = m.ddr := by
  induction k generalizing m with
  | zero => rfl
  | succ k ih => unfold MemState.draw; split <;> simp [ih]

@[simp] theorem MemState.serveWaiter_ddr (m : MemState) (w : BufWaiter) (lv : BufLevel) (home : Nat) :
    (m.serveWaiter w lv home).ddr = m.ddr := rfl

@[simp] theorem MemState.giveBack_ddr (m : MemState) (c : Cfg) (h : Nat) : (m.giveBack c h).ddr = m.ddr := by
  unfold MemState.giveBack; repeat' (split <;> try simp)

@[simp] theorem MemState.foldl_ddr {α : Type} (f : MemState → α → MemState) (h : ∀ x a, (f x a).ddr = x.ddr) (l : List α)
    (m : MemState) : (l.foldl f m).ddr = m.ddr := by
  induction l generalizing m with
  | nil => rfl
  | cons a l ih => simp only [List.foldl_cons, ih, h]

@[simp] theorem State.bufBoundary_frame (s : State) :
    (s.bufBoundary).pending = s.pending ∧ (s.bufBoundary).out = s.out ∧ (s.bufBoundary).free = s.free ∧
    (s.bufBoundary).host = s.host ∧ (s.bufBoundary).ev = s.ev ∧ (s.bufBoundary).ham = s.ham ∧ (s.bufBoundary).mem = s.mem ∧
    (s.bufBoundary).flash = s.flash ∧ (s.bufBoundary).trust = s.trust ∧ (s.bufBoundary).blk = s.blk ∧
    (s.bufBoundary).isl = s.isl ∧ (s.bufBoundary).inj = s.inj ∧ (s.bufBoundary).chip = s.chip ∧ (s.bufBoundary).bays = s.bays := by
  unfold State.bufBoundary
  refine ⟨?_, ?_, ?_, ?_, ?_, ?_, ?_, ?_, ?_, ?_, ?_, ?_, ?_, ?_⟩ <;> (try simp) <;> repeat' (first | intro _ | (split <;> try simp))

@[simp] theorem State.bufWaitEvent_frame (s : State) (n : Nat) :
    (s.bufWaitEvent n).pending = s.pending ∧ (s.bufWaitEvent n).free = s.free ∧ (s.bufWaitEvent n).ham = s.ham ∧
    (s.bufWaitEvent n).flash = s.flash ∧ (s.bufWaitEvent n).cfg = s.cfg ∧ (s.bufWaitEvent n).trust = s.trust ∧
    (s.bufWaitEvent n).blk = s.blk ∧ (s.bufWaitEvent n).isl = s.isl ∧ (s.bufWaitEvent n).inj = s.inj ∧
    (s.bufWaitEvent n).bays = s.bays ∧ (s.bufWaitEvent n).mem.ddr = s.mem.ddr := by
  unfold State.bufWaitEvent State.bufWaitEvent.go
  refine ⟨?_, ?_, ?_, ?_, ?_, ?_, ?_, ?_, ?_, ?_, ?_⟩ <;> (try simp) <;> repeat' (first | intro _ | (split <;> try simp))

@[simp] theorem State.drawBufs_frame (s : State) (n count req : Nat) :
    (s.drawBufs n count req).pending = s.pending ∧ (s.drawBufs n count req).free = s.free ∧ (s.drawBufs n count req).ham = s.ham ∧
    (s.drawBufs n count req).flash = s.flash ∧ (s.drawBufs n count req).trust = s.trust ∧ (s.drawBufs n count req).blk = s.blk ∧
    (s.drawBufs n count req).isl = s.isl ∧ (s.drawBufs n count req).inj = s.inj ∧ (s.drawBufs n count req).bays = s.bays ∧
    (s.drawBufs n count req).mem.ddr = s.mem.ddr := by
  unfold State.drawBufs
  refine ⟨?_, ?_, ?_, ?_, ?_, ?_, ?_, ?_, ?_, ?_⟩ <;> (try simp) <;> repeat' (first | intro _ | (split <;> try simp))

@[simp] theorem State.returnBufs_frame (s : State) (hs : List Nat) :
    (s.returnBufs hs).pending = s.pending ∧ (s.returnBufs hs).out = s.out ∧ (s.returnBufs hs).free = s.free ∧
    (s.returnBufs hs).host = s.host ∧ (s.returnBufs hs).ev = s.ev ∧ (s.returnBufs hs).ham = s.ham ∧
    (s.returnBufs hs).flash = s.flash ∧ (s.returnBufs hs).trust = s.trust ∧ (s.returnBufs hs).blk = s.blk ∧
    (s.returnBufs hs).isl = s.isl ∧ (s.returnBufs hs).inj = s.inj ∧ (s.returnBufs hs).chip = s.chip ∧
    (s.returnBufs hs).bays = s.bays ∧ (s.returnBufs hs).mem.ddr = s.mem.ddr := by
  unfold State.returnBufs
  refine ⟨?_, ?_, ?_, ?_, ?_, ?_, ?_, ?_, ?_, ?_, ?_, ?_, ?_, ?_⟩ <;> (try simp) <;> repeat' (first | intro _ | (split <;> try simp))

@[simp] theorem State.dropRequester_frame (s : State) (req : Nat) :
    (s.dropRequester req).pending = s.pending ∧ (s.dropRequester req).out = s.out ∧ (s.dropRequester req).free = s.free ∧
    (s.dropRequester req).host = s.host ∧ (s.dropRequester req).ev = s.ev ∧ (s.dropRequester req).ham = s.ham ∧
    (s.dropRequester req).flash = s.flash ∧ (s.dropRequester req).trust = s.trust ∧ (s.dropRequester req).blk = s.blk ∧
    (s.dropRequester req).isl = s.isl ∧ (s.dropRequester req).inj = s.inj ∧ (s.dropRequester req).chip = s.chip ∧
    (s.dropRequester req).bays = s.bays ∧ (s.dropRequester req).mem.ddr = s.mem.ddr := by
  unfold State.dropRequester
  refine ⟨?_, ?_, ?_, ?_, ?_, ?_, ?_, ?_, ?_, ?_, ?_, ?_, ?_, ?_⟩ <;> (try simp) <;> repeat' (first | intro _ | (split <;> try simp))

@[simp] theorem State.fillBuf_frame (s : State) (h : Nat) (blocks : List Bytes) :
    (s.fillBuf h blocks).pending = s.pending ∧ (s.fillBuf h blocks).out = s.out ∧ (s.fillBuf h blocks).free = s.free ∧
    (s.fillBuf h blocks).host = s.host ∧ (s.fillBuf h blocks).ev = s.ev ∧ (s.fillBuf h blocks).ham = s.ham ∧
    (s.fillBuf h blocks).flash = s.flash ∧ (s.fillBuf h blocks).cfg = s.cfg ∧ (s.fillBuf h blocks).trust = s.trust ∧
    (s.fillBuf h blocks).blk = s.blk ∧ (s.fillBuf h blocks).isl = s.isl ∧ (s.fillBuf h blocks).inj = s.inj ∧
    (s.fillBuf h blocks).chip = s.chip ∧ (s.fillBuf h blocks).bays = s.bays ∧ (s.fillBuf h blocks).mem.ddr = s.mem.ddr := by
  unfold State.fillBuf
  refine ⟨?_, ?_, ?_, ?_, ?_, ?_, ?_, ?_, ?_, ?_, ?_, ?_, ?_, ?_, ?_⟩ <;> (try simp) <;> repeat' (first | intro _ | (split <;> try simp))

@[simp] theorem State.remap_frame (s : State) (p : Partition) (ch addr : Nat) :
    (s.remap p ch addr).pending = s.pending ∧ (s.remap p ch addr).free = s.free ∧ (s.remap p ch addr).ham = s.ham ∧
    (s.remap p ch addr).flash = s.flash ∧ (s.remap p ch addr).cfg = s.cfg ∧ (s.remap p ch addr).trust = s.trust ∧
    (s.remap p ch addr).blk = s.blk ∧ (s.remap p ch addr).isl = s.isl ∧ (s.remap p ch addr).inj = s.inj ∧
    (s.remap p ch addr).bays = s.bays ∧ (s.remap p ch addr).mem.ddr = s.mem.ddr := by
  unfold State.remap
  refine ⟨?_, ?_, ?_, ?_, ?_, ?_, ?_, ?_, ?_, ?_, ?_⟩ <;> (try simp) <;> repeat' (first | intro _ | (split <;> try simp))

@[simp] theorem State.corrected_frame (s : State) (p : Partition) (ch addr : Nat) :
    (s.corrected p ch addr).pending = s.pending ∧ (s.corrected p ch addr).free = s.free ∧ (s.corrected p ch addr).ham = s.ham ∧
    (s.corrected p ch addr).flash = s.flash ∧ (s.corrected p ch addr).cfg = s.cfg ∧ (s.corrected p ch addr).trust = s.trust ∧
    (s.corrected p ch addr).blk = s.blk ∧ (s.corrected p ch addr).isl = s.isl ∧ (s.corrected p ch addr).inj = s.inj ∧
    (s.corrected p ch addr).bays = s.bays ∧ (s.corrected p ch addr).mem.ddr = s.mem.ddr := by
  unfold State.corrected
  refine ⟨?_, ?_, ?_, ?_, ?_, ?_, ?_, ?_, ?_, ?_, ?_⟩ <;> (try simp) <;> repeat' (first | intro _ | (split <;> try simp))

end Sys2Proof.Machine
end

