-- ==== Sys2Proof/Laws/FrameBlocks.lean ====
section
/-! SUPPORT. What the operations of Machine/Blocks.lean leave unchanged: one lemma each, the fields of the state it does not touch. -/

namespace Sys2Proof.Machine

@[simp] theorem State.setBlk_frame (s : State) (b : Blk) :
    (s.setBlk b).pending = s.pending ∧ (s.setBlk b).out = s.out ∧ (s.setBlk b).free = s.free ∧ (s.setBlk b).host = s.host ∧
    (s.setBlk b).ev = s.ev ∧ (s.setBlk b).ham = s.ham ∧ (s.setBlk b).mem = s.mem ∧ (s.setBlk b).flash = s.flash ∧
    (s.setBlk b).cfg = s.cfg ∧ (s.setBlk b).trust = s.trust ∧ (s.setBlk b).isl = s.isl ∧ (s.setBlk b).inj = s.inj ∧
    (s.setBlk b).chip = s.chip ∧ (s.setBlk b).bays = s.bays := by
  unfold State.setBlk
  refine ⟨?_, ?_, ?_, ?_, ?_, ?_, ?_, ?_, ?_, ?_, ?_, ?_, ?_, ?_⟩ <;> (try simp) <;> repeat' (first | intro _ | (split <;> try simp))

@[simp] theorem State.regionEvent_frame (s : State) (r src : Nat) (e : Ev) (p0 p1 p2 : Nat) :
    (s.regionEvent r src e p0 p1 p2).pending = s.pending ∧ (s.regionEvent r src e p0 p1 p2).free = s.free ∧
    (s.regionEvent r src e p0 p1 p2).ham = s.ham ∧ (s.regionEvent r src e p0 p1 p2).mem = s.mem ∧
    (s.regionEvent r src e p0 p1 p2).flash = s.flash ∧ (s.regionEvent r src e p0 p1 p2).cfg = s.cfg ∧
    (s.regionEvent r src e p0 p1 p2).trust = s.trust ∧ (s.regionEvent r src e p0 p1 p2).blk = s.blk ∧
    (s.regionEvent r src e p0 p1 p2).isl = s.isl ∧ (s.regionEvent r src e p0 p1 p2).inj = s.inj ∧
    (s.regionEvent r src e p0 p1 p2).bays = s.bays := by
  unfold State.regionEvent
  refine ⟨?_, ?_, ?_, ?_, ?_, ?_, ?_, ?_, ?_, ?_, ?_⟩ <;> (try simp) <;> repeat' (first | intro _ | (split <;> try simp))

@[simp] theorem State.fence_frame (s : State) (id : BlockId) :
    (s.fence id).pending = s.pending ∧ (s.fence id).free = s.free ∧ (s.fence id).ham = s.ham ∧ (s.fence id).mem = s.mem ∧
    (s.fence id).flash = s.flash ∧ (s.fence id).cfg = s.cfg ∧ (s.fence id).trust = s.trust ∧ (s.fence id).isl = s.isl ∧
    (s.fence id).inj = s.inj ∧ (s.fence id).bays = s.bays := by
  unfold State.fence
  refine ⟨?_, ?_, ?_, ?_, ?_, ?_, ?_, ?_, ?_, ?_⟩ <;> (try simp) <;> repeat' (first | intro _ | (split <;> try simp))

@[simp] theorem State.degrade_frame (s : State) (r : Nat) :
    (s.degrade r).pending = s.pending ∧ (s.degrade r).free = s.free ∧ (s.degrade r).ham = s.ham ∧ (s.degrade r).mem = s.mem ∧
    (s.degrade r).flash = s.flash ∧ (s.degrade r).cfg = s.cfg ∧ (s.degrade r).trust = s.trust ∧ (s.degrade r).isl = s.isl ∧
    (s.degrade r).inj = s.inj ∧ (s.degrade r).bays = s.bays := by
  unfold State.degrade
  refine ⟨?_, ?_, ?_, ?_, ?_, ?_, ?_, ?_, ?_, ?_⟩ <;> (try simp) <;> repeat' (first | intro _ | (split <;> try simp))

@[simp] theorem State.claimSpare_frame (s : State) (id : BlockId) :
    (s.claimSpare id).2.pending = s.pending ∧ (s.claimSpare id).2.free = s.free ∧ (s.claimSpare id).2.ham = s.ham ∧
    (s.claimSpare id).2.mem = s.mem ∧ (s.claimSpare id).2.flash = s.flash ∧ (s.claimSpare id).2.cfg = s.cfg ∧
    (s.claimSpare id).2.trust = s.trust ∧ (s.claimSpare id).2.isl = s.isl ∧ (s.claimSpare id).2.inj = s.inj ∧
    (s.claimSpare id).2.bays = s.bays := by
  unfold State.claimSpare
  refine ⟨?_, ?_, ?_, ?_, ?_, ?_, ?_, ?_, ?_, ?_⟩ <;> (try simp) <;> repeat' (first | intro _ | (split <;> try simp))

@[simp] theorem State.askHold_frame (s : State) (b : BayId) :
    (s.askHold b).pending = s.pending ∧ (s.askHold b).out = s.out ∧ (s.askHold b).free = s.free ∧ (s.askHold b).host = s.host ∧
    (s.askHold b).ev = s.ev ∧ (s.askHold b).ham = s.ham ∧ (s.askHold b).mem = s.mem ∧ (s.askHold b).flash = s.flash ∧
    (s.askHold b).cfg = s.cfg ∧ (s.askHold b).trust = s.trust ∧ (s.askHold b).isl = s.isl ∧ (s.askHold b).inj = s.inj ∧
    (s.askHold b).chip = s.chip ∧ (s.askHold b).bays = s.bays := by
  unfold State.askHold
  refine ⟨?_, ?_, ?_, ?_, ?_, ?_, ?_, ?_, ?_, ?_, ?_, ?_, ?_, ?_⟩ <;> (try simp) <;> repeat' (first | intro _ | (split <;> try simp))

end Sys2Proof.Machine
end

