-- ==== Sys2Proof/Laws/FrameCmdOps.lean ====
section
/-! SUPPORT. What the operations of Machine/CmdOps.lean leave unchanged: one lemma each, the fields of the state it does not touch. -/

namespace Sys2Proof.Machine

@[simp] theorem State.updCmd_frame (s : State) (order : Nat) (g : Cmd → Cmd) :
    (s.updCmd order g).pending = s.pending ∧ (s.updCmd order g).out = s.out ∧ (s.updCmd order g).free = s.free ∧
    (s.updCmd order g).ev = s.ev ∧ (s.updCmd order g).ham = s.ham ∧ (s.updCmd order g).mem = s.mem ∧
    (s.updCmd order g).flash = s.flash ∧ (s.updCmd order g).cfg = s.cfg ∧ (s.updCmd order g).trust = s.trust ∧
    (s.updCmd order g).blk = s.blk ∧ (s.updCmd order g).isl = s.isl ∧ (s.updCmd order g).inj = s.inj ∧
    (s.updCmd order g).chip = s.chip ∧ (s.updCmd order g).bays = s.bays := by
  unfold State.updCmd
  refine ⟨?_, ?_, ?_, ?_, ?_, ?_, ?_, ?_, ?_, ?_, ?_, ?_, ?_, ?_⟩ <;> (try simp) <;> repeat' (first | intro _ | (split <;> try simp))

@[simp] theorem State.finish_frame (s : State) (order : Nat) (st : Status) (result : Nat) :
    (s.finish order st result).pending = s.pending ∧ (s.finish order st result).out = s.out ∧
    (s.finish order st result).free = s.free ∧ (s.finish order st result).ev = s.ev ∧ (s.finish order st result).ham = s.ham ∧
    (s.finish order st result).flash = s.flash ∧ (s.finish order st result).trust = s.trust ∧
    (s.finish order st result).blk = s.blk ∧ (s.finish order st result).isl = s.isl ∧ (s.finish order st result).inj = s.inj ∧
    (s.finish order st result).chip = s.chip ∧ (s.finish order st result).bays = s.bays ∧
    (s.finish order st result).mem.ddr = s.mem.ddr := by
  unfold State.finish
  refine ⟨?_, ?_, ?_, ?_, ?_, ?_, ?_, ?_, ?_, ?_, ?_, ?_, ?_⟩ <;> (try simp) <;> repeat' (first | intro _ | (split <;> try simp))

@[simp] theorem State.finishApplied_frame (s : State) (order : Nat) (st : Status) (result : Nat) (a : Bool) :
    (s.finishApplied order st result a).pending = s.pending ∧ (s.finishApplied order st result a).out = s.out ∧
    (s.finishApplied order st result a).free = s.free ∧ (s.finishApplied order st result a).ev = s.ev ∧
    (s.finishApplied order st result a).ham = s.ham ∧ (s.finishApplied order st result a).flash = s.flash ∧
    (s.finishApplied order st result a).trust = s.trust ∧ (s.finishApplied order st result a).blk = s.blk ∧
    (s.finishApplied order st result a).isl = s.isl ∧ (s.finishApplied order st result a).inj = s.inj ∧
    (s.finishApplied order st result a).chip = s.chip ∧ (s.finishApplied order st result a).bays = s.bays ∧
    (s.finishApplied order st result a).mem.ddr = s.mem.ddr := by
  unfold State.finishApplied
  refine ⟨?_, ?_, ?_, ?_, ?_, ?_, ?_, ?_, ?_, ?_, ?_, ?_, ?_⟩ <;> (try simp) <;> repeat' (first | intro _ | (split <;> try simp))

@[simp] theorem State.start_frame (s : State) (c : Cmd) :
    (s.start c).pending = s.pending ∧ (s.start c).out = s.out ∧ (s.start c).free = s.free ∧ (s.start c).ev = s.ev ∧
    (s.start c).ham = s.ham ∧ (s.start c).mem = s.mem ∧ (s.start c).flash = s.flash ∧ (s.start c).cfg = s.cfg ∧
    (s.start c).trust = s.trust ∧ (s.start c).blk = s.blk ∧ (s.start c).isl = s.isl ∧ (s.start c).inj = s.inj ∧
    (s.start c).chip = s.chip ∧ (s.start c).bays = s.bays := by
  unfold State.start
  refine ⟨?_, ?_, ?_, ?_, ?_, ?_, ?_, ?_, ?_, ?_, ?_, ?_, ?_, ?_⟩ <;> (try simp) <;> repeat' (first | intro _ | (split <;> try simp))

@[simp] theorem State.hold_frame (s : State) (c : Cmd) :
    (s.hold c).pending = s.pending ∧ (s.hold c).out = s.out ∧ (s.hold c).free = s.free ∧ (s.hold c).ev = s.ev ∧
    (s.hold c).ham = s.ham ∧ (s.hold c).mem = s.mem ∧ (s.hold c).flash = s.flash ∧ (s.hold c).cfg = s.cfg ∧
    (s.hold c).trust = s.trust ∧ (s.hold c).blk = s.blk ∧ (s.hold c).isl = s.isl ∧ (s.hold c).inj = s.inj ∧
    (s.hold c).chip = s.chip ∧ (s.hold c).bays = s.bays := by
  unfold State.hold
  refine ⟨?_, ?_, ?_, ?_, ?_, ?_, ?_, ?_, ?_, ?_, ?_, ?_, ?_, ?_⟩ <;> (try simp) <;> repeat' (first | intro _ | (split <;> try simp))

@[simp] theorem State.hostWrite_frame (s : State) (c : Cmd) (off : Nat) (d : Bytes) :
    (s.hostWrite c off d).pending = s.pending ∧ (s.hostWrite c off d).free = s.free ∧ (s.hostWrite c off d).host = s.host ∧
    (s.hostWrite c off d).ev = s.ev ∧ (s.hostWrite c off d).ham = s.ham ∧ (s.hostWrite c off d).mem = s.mem ∧
    (s.hostWrite c off d).flash = s.flash ∧ (s.hostWrite c off d).cfg = s.cfg ∧ (s.hostWrite c off d).trust = s.trust ∧
    (s.hostWrite c off d).blk = s.blk ∧ (s.hostWrite c off d).isl = s.isl ∧ (s.hostWrite c off d).inj = s.inj ∧
    (s.hostWrite c off d).chip = s.chip ∧ (s.hostWrite c off d).bays = s.bays := by
  unfold State.hostWrite
  refine ⟨?_, ?_, ?_, ?_, ?_, ?_, ?_, ?_, ?_, ?_, ?_, ?_, ?_, ?_⟩ <;> (try simp) <;> repeat' (first | intro _ | (split <;> try simp))

end Sys2Proof.Machine
end

