-- ==== Sys2Proof/Laws/FrameHamperOps.lean ====
section
/-! SUPPORT. What the operations of Machine/HamperOps.lean leave unchanged: one lemma each, the fields of the state it does not touch. -/

namespace Sys2Proof.Machine

@[simp] theorem State.setSlot_frame (s : State) (h : SlotId) (v : Option Hamper) :
    (s.setSlot h v).pending = s.pending ∧ (s.setSlot h v).out = s.out ∧ (s.setSlot h v).free = s.free ∧
    (s.setSlot h v).host = s.host ∧ (s.setSlot h v).ev = s.ev ∧ (s.setSlot h v).mem = s.mem ∧ (s.setSlot h v).flash = s.flash ∧
    (s.setSlot h v).cfg = s.cfg ∧ (s.setSlot h v).trust = s.trust ∧ (s.setSlot h v).blk = s.blk ∧ (s.setSlot h v).isl = s.isl ∧
    (s.setSlot h v).inj = s.inj ∧ (s.setSlot h v).chip = s.chip ∧ (s.setSlot h v).bays = s.bays := by
  unfold State.setSlot
  refine ⟨?_, ?_, ?_, ?_, ?_, ?_, ?_, ?_, ?_, ?_, ?_, ?_, ?_, ?_⟩ <;> (try simp) <;> repeat' (first | intro _ | (split <;> try simp))

@[simp] theorem State.updHam_frame (s : State) (h : SlotId) (f : Hamper → Hamper) :
    (s.updHam h f).pending = s.pending ∧ (s.updHam h f).out = s.out ∧ (s.updHam h f).free = s.free ∧
    (s.updHam h f).host = s.host ∧ (s.updHam h f).ev = s.ev ∧ (s.updHam h f).mem = s.mem ∧ (s.updHam h f).flash = s.flash ∧
    (s.updHam h f).cfg = s.cfg ∧ (s.updHam h f).trust = s.trust ∧ (s.updHam h f).blk = s.blk ∧ (s.updHam h f).isl = s.isl ∧
    (s.updHam h f).inj = s.inj ∧ (s.updHam h f).chip = s.chip ∧ (s.updHam h f).bays = s.bays := by
  unfold State.updHam
  refine ⟨?_, ?_, ?_, ?_, ?_, ?_, ?_, ?_, ?_, ?_, ?_, ?_, ?_, ?_⟩ <;> (try simp) <;> repeat' (first | intro _ | (split <;> try simp))

@[simp] theorem State.grantRoom_frame (s : State) (k0 : Nat) :
    (s.grantRoom k0).pending = s.pending ∧ (s.grantRoom k0).out = s.out ∧ (s.grantRoom k0).free = s.free ∧
    (s.grantRoom k0).host = s.host ∧ (s.grantRoom k0).ev = s.ev ∧ (s.grantRoom k0).mem = s.mem ∧
    (s.grantRoom k0).flash = s.flash ∧ (s.grantRoom k0).cfg = s.cfg ∧ (s.grantRoom k0).trust = s.trust ∧
    (s.grantRoom k0).blk = s.blk ∧ (s.grantRoom k0).isl = s.isl ∧ (s.grantRoom k0).inj = s.inj ∧ (s.grantRoom k0).chip = s.chip ∧
    (s.grantRoom k0).bays = s.bays := by
  induction k0 generalizing s with
  | zero => unfold State.grantRoom; simp
  | succ n ih =>
    unfold State.grantRoom
    refine ⟨?_, ?_, ?_, ?_, ?_, ?_, ?_, ?_, ?_, ?_, ?_, ?_, ?_, ?_⟩ <;> (try simp [ih]) <;> repeat' (split <;> try simp [ih])

@[simp] theorem State.handOver_frame (s : State) (b : BayId) (p : Pu) (c : Coded) :
    (s.handOver b p c).pending = s.pending ∧ (s.handOver b p c).out = s.out ∧ (s.handOver b p c).free = s.free ∧
    (s.handOver b p c).host = s.host ∧ (s.handOver b p c).ev = s.ev ∧ (s.handOver b p c).ham = s.ham ∧
    (s.handOver b p c).mem = s.mem ∧ (s.handOver b p c).flash = s.flash ∧ (s.handOver b p c).cfg = s.cfg ∧
    (s.handOver b p c).trust = s.trust ∧ (s.handOver b p c).blk = s.blk ∧ (s.handOver b p c).isl = s.isl ∧
    (s.handOver b p c).inj = s.inj ∧ (s.handOver b p c).chip = s.chip := by
  unfold State.handOver
  refine ⟨?_, ?_, ?_, ?_, ?_, ?_, ?_, ?_, ?_, ?_, ?_, ?_, ?_, ?_⟩ <;> (try simp) <;> repeat' (first | intro _ | (split <;> try simp))

@[simp] theorem State.encodeStripe_frame (s : State) (h : SlotId) (seq : Nat) :
    (s.encodeStripe h seq).pending = s.pending ∧ (s.encodeStripe h seq).out = s.out ∧ (s.encodeStripe h seq).free = s.free ∧
    (s.encodeStripe h seq).host = s.host ∧ (s.encodeStripe h seq).ev = s.ev ∧ (s.encodeStripe h seq).mem = s.mem ∧
    (s.encodeStripe h seq).flash = s.flash ∧ (s.encodeStripe h seq).cfg = s.cfg ∧ (s.encodeStripe h seq).trust = s.trust ∧
    (s.encodeStripe h seq).blk = s.blk ∧ (s.encodeStripe h seq).isl = s.isl ∧ (s.encodeStripe h seq).inj = s.inj ∧
    (s.encodeStripe h seq).chip = s.chip := by
  unfold State.encodeStripe
  refine ⟨?_, ?_, ?_, ?_, ?_, ?_, ?_, ?_, ?_, ?_, ?_, ?_, ?_⟩ <;> (try simp) <;> repeat' (first | intro _ | (split <;> try simp) | ((first | rw [State.foldl_pending] | rw [State.foldl2_pending] | rw [State.foldl_out] | rw [State.foldl2_out] | rw [State.foldl_free] | rw [State.foldl2_free] | rw [State.foldl_host] | rw [State.foldl2_host] | rw [State.foldl_ev] | rw [State.foldl2_ev] | rw [State.foldl_mem] | rw [State.foldl2_mem] | rw [State.foldl_flash] | rw [State.foldl2_flash] | rw [State.foldl_cfg] | rw [State.foldl2_cfg] | rw [State.foldl_trust] | rw [State.foldl2_trust] | rw [State.foldl_blk] | rw [State.foldl2_blk] | rw [State.foldl_isl] | rw [State.foldl2_isl] | rw [State.foldl_inj] | rw [State.foldl2_inj] | rw [State.foldl_chip] | rw [State.foldl2_chip]) <;> intros <;> try simp))

@[simp] theorem State.serveFlushes_frame (s : State) :
    (s.serveFlushes).pending = s.pending ∧ (s.serveFlushes).out = s.out ∧ (s.serveFlushes).free = s.free ∧
    (s.serveFlushes).ev = s.ev ∧ (s.serveFlushes).ham = s.ham ∧ (s.serveFlushes).flash = s.flash ∧
    (s.serveFlushes).trust = s.trust ∧ (s.serveFlushes).blk = s.blk ∧ (s.serveFlushes).isl = s.isl ∧
    (s.serveFlushes).inj = s.inj ∧ (s.serveFlushes).chip = s.chip ∧ (s.serveFlushes).bays = s.bays ∧
    (s.serveFlushes).mem.ddr = s.mem.ddr := by
  unfold State.serveFlushes
  refine ⟨?_, ?_, ?_, ?_, ?_, ?_, ?_, ?_, ?_, ?_, ?_, ?_, ?_⟩ <;> (try simp) <;> repeat' (first | intro _ | (split <;> (try (rename_i h; replace h := congrArg Prod.snd h; dsimp only at h; subst h)) <;> try simp) | ((first | rw [State.foldl_pending] | rw [State.foldl2_pending] | rw [State.foldl_out] | rw [State.foldl2_out] | rw [State.foldl_free] | rw [State.foldl2_free] | rw [State.foldl_ev] | rw [State.foldl2_ev] | rw [State.foldl_ham] | rw [State.foldl2_ham] | rw [State.foldl_flash] | rw [State.foldl2_flash] | rw [State.foldl_trust] | rw [State.foldl2_trust] | rw [State.foldl_blk] | rw [State.foldl2_blk] | rw [State.foldl_isl] | rw [State.foldl2_isl] | rw [State.foldl_inj] | rw [State.foldl2_inj] | rw [State.foldl_chip] | rw [State.foldl2_chip] | rw [State.foldl_bays] | rw [State.foldl2_bays] | rw [State.foldl_mem_ddr] | rw [State.foldl2_mem_ddr]) <;> intros <;> try simp))

@[simp] theorem State.settle_frame (s : State) (h : SlotId) :
    (s.settle h).pending = s.pending ∧ (s.settle h).out = s.out ∧ (s.settle h).free = s.free ∧ (s.settle h).ev = s.ev ∧
    (s.settle h).flash = s.flash ∧ (s.settle h).trust = s.trust ∧ (s.settle h).blk = s.blk ∧ (s.settle h).isl = s.isl ∧
    (s.settle h).inj = s.inj ∧ (s.settle h).chip = s.chip ∧ (s.settle h).bays = s.bays ∧ (s.settle h).mem.ddr = s.mem.ddr := by
  unfold State.settle
  refine ⟨?_, ?_, ?_, ?_, ?_, ?_, ?_, ?_, ?_, ?_, ?_, ?_⟩ <;> (try simp) <;> repeat' (first | intro _ | (split <;> try simp))

@[simp] theorem State.sectorOutcome_frame (s : State) (h : SlotId) (seq member : Nat) (written : Bool) :
    (s.sectorOutcome h seq member written).pending = s.pending ∧ (s.sectorOutcome h seq member written).out = s.out ∧
    (s.sectorOutcome h seq member written).free = s.free ∧ (s.sectorOutcome h seq member written).ev = s.ev ∧
    (s.sectorOutcome h seq member written).flash = s.flash ∧ (s.sectorOutcome h seq member written).trust = s.trust ∧
    (s.sectorOutcome h seq member written).blk = s.blk ∧ (s.sectorOutcome h seq member written).isl = s.isl ∧
    (s.sectorOutcome h seq member written).inj = s.inj ∧ (s.sectorOutcome h seq member written).chip = s.chip ∧
    (s.sectorOutcome h seq member written).bays = s.bays ∧ (s.sectorOutcome h seq member written).mem.ddr = s.mem.ddr := by
  unfold State.sectorOutcome
  refine ⟨?_, ?_, ?_, ?_, ?_, ?_, ?_, ?_, ?_, ?_, ?_, ?_⟩ <;> (try simp) <;> repeat' (first | intro _ | (split <;> try simp))

@[simp] theorem State.sectorLost_frame (s : State) (h : SlotId) (seq member : Nat) :
    (s.sectorLost h seq member).pending = s.pending ∧ (s.sectorLost h seq member).out = s.out ∧
    (s.sectorLost h seq member).free = s.free ∧ (s.sectorLost h seq member).ev = s.ev ∧
    (s.sectorLost h seq member).flash = s.flash ∧ (s.sectorLost h seq member).trust = s.trust ∧
    (s.sectorLost h seq member).blk = s.blk ∧ (s.sectorLost h seq member).isl = s.isl ∧ (s.sectorLost h seq member).inj = s.inj ∧
    (s.sectorLost h seq member).chip = s.chip ∧ (s.sectorLost h seq member).bays = s.bays ∧
    (s.sectorLost h seq member).mem.ddr = s.mem.ddr := by
  unfold State.sectorLost
  refine ⟨?_, ?_, ?_, ?_, ?_, ?_, ?_, ?_, ?_, ?_, ?_, ?_⟩ <;> (try simp) <;> repeat' (first | intro _ | (split <;> try simp))

@[simp] theorem State.sectorTouched_frame (s : State) (h : SlotId) (seq member : Nat) :
    (s.sectorTouched h seq member).pending = s.pending ∧ (s.sectorTouched h seq member).out = s.out ∧
    (s.sectorTouched h seq member).free = s.free ∧ (s.sectorTouched h seq member).host = s.host ∧
    (s.sectorTouched h seq member).ev = s.ev ∧ (s.sectorTouched h seq member).mem = s.mem ∧
    (s.sectorTouched h seq member).flash = s.flash ∧ (s.sectorTouched h seq member).cfg = s.cfg ∧
    (s.sectorTouched h seq member).trust = s.trust ∧ (s.sectorTouched h seq member).blk = s.blk ∧
    (s.sectorTouched h seq member).isl = s.isl ∧ (s.sectorTouched h seq member).inj = s.inj ∧
    (s.sectorTouched h seq member).chip = s.chip ∧ (s.sectorTouched h seq member).bays = s.bays := by
  unfold State.sectorTouched
  refine ⟨?_, ?_, ?_, ?_, ?_, ?_, ?_, ?_, ?_, ?_, ?_, ?_, ?_, ?_⟩ <;> (try simp) <;> repeat' (first | intro _ | (split <;> try simp))

@[simp] theorem State.closeOpen_frame (s : State) (h : SlotId) :
    (s.closeOpen h).pending = s.pending ∧ (s.closeOpen h).out = s.out ∧ (s.closeOpen h).free = s.free ∧
    (s.closeOpen h).ev = s.ev ∧ (s.closeOpen h).flash = s.flash ∧ (s.closeOpen h).trust = s.trust ∧ (s.closeOpen h).blk = s.blk ∧
    (s.closeOpen h).isl = s.isl ∧ (s.closeOpen h).inj = s.inj ∧ (s.closeOpen h).chip = s.chip ∧
    (s.closeOpen h).mem.ddr = s.mem.ddr := by
  unfold State.closeOpen
  refine ⟨?_, ?_, ?_, ?_, ?_, ?_, ?_, ?_, ?_, ?_, ?_⟩ <;> (try simp) <;> repeat' (first | intro _ | (split <;> try simp))

@[simp] theorem State.askRead_frame (s : State) (b : BayId) (p : Pu) (a : SecAddr) (why : Purpose) (basket : Nat) :
    (s.askRead b p a why basket).pending = s.pending ∧ (s.askRead b p a why basket).free = s.free ∧
    (s.askRead b p a why basket).ham = s.ham ∧ (s.askRead b p a why basket).flash = s.flash ∧
    (s.askRead b p a why basket).trust = s.trust ∧ (s.askRead b p a why basket).blk = s.blk ∧
    (s.askRead b p a why basket).isl = s.isl ∧ (s.askRead b p a why basket).inj = s.inj ∧
    (s.askRead b p a why basket).mem.ddr = s.mem.ddr := by
  unfold State.askRead
  refine ⟨?_, ?_, ?_, ?_, ?_, ?_, ?_, ?_, ?_⟩ <;> (try simp) <;> repeat' (first | intro _ | (split <;> try simp))

@[simp] theorem State.gather_frame (s : State) (h : SlotId) (seq : Nat) (k0 : Nat) :
    (s.gather h seq k0).pending = s.pending ∧ (s.gather h seq k0).flash = s.flash ∧ (s.gather h seq k0).trust = s.trust ∧
    (s.gather h seq k0).blk = s.blk ∧ (s.gather h seq k0).isl = s.isl ∧ (s.gather h seq k0).inj = s.inj ∧
    (s.gather h seq k0).mem.ddr = s.mem.ddr := by
  induction k0 generalizing s h seq with
  | zero => unfold State.gather; simp
  | succ n ih =>
    unfold State.gather
    refine ⟨?_, ?_, ?_, ?_, ?_, ?_, ?_⟩ <;> (try simp [ih]) <;> repeat' (split <;> try simp [ih])

@[simp] theorem State.gatherFor_frame (s : State) (h : SlotId) (seq : Nat) :
    (s.gatherFor h seq).pending = s.pending ∧ (s.gatherFor h seq).flash = s.flash ∧ (s.gatherFor h seq).trust = s.trust ∧
    (s.gatherFor h seq).blk = s.blk ∧ (s.gatherFor h seq).isl = s.isl ∧ (s.gatherFor h seq).inj = s.inj ∧
    (s.gatherFor h seq).mem.ddr = s.mem.ddr := by
  unfold State.gatherFor
  refine ⟨?_, ?_, ?_, ?_, ?_, ?_, ?_⟩ <;> (try simp) <;> repeat' (first | intro _ | (split <;> try simp))

@[simp] theorem State.wantSector_frame (s : State) (h : SlotId) (seq pos : Nat) (verify : Bool) :
    (s.wantSector h seq pos verify).pending = s.pending ∧ (s.wantSector h seq pos verify).flash = s.flash ∧
    (s.wantSector h seq pos verify).trust = s.trust ∧ (s.wantSector h seq pos verify).blk = s.blk ∧
    (s.wantSector h seq pos verify).isl = s.isl ∧ (s.wantSector h seq pos verify).inj = s.inj ∧
    (s.wantSector h seq pos verify).mem.ddr = s.mem.ddr := by
  unfold State.wantSector
  refine ⟨?_, ?_, ?_, ?_, ?_, ?_, ?_⟩ <;> (try simp) <;> repeat' (first | intro _ | (split <;> try simp))

@[simp] theorem State.noteSurface_frame (s : State) (b : BayId) (p : Pu) :
    (s.noteSurface b p).pending = s.pending ∧ (s.noteSurface b p).out = s.out ∧ (s.noteSurface b p).free = s.free ∧
    (s.noteSurface b p).host = s.host ∧ (s.noteSurface b p).ev = s.ev ∧ (s.noteSurface b p).mem = s.mem ∧
    (s.noteSurface b p).flash = s.flash ∧ (s.noteSurface b p).cfg = s.cfg ∧ (s.noteSurface b p).trust = s.trust ∧
    (s.noteSurface b p).blk = s.blk ∧ (s.noteSurface b p).isl = s.isl ∧ (s.noteSurface b p).inj = s.inj ∧
    (s.noteSurface b p).chip = s.chip ∧ (s.noteSurface b p).bays = s.bays := by
  unfold State.noteSurface
  refine ⟨?_, ?_, ?_, ?_, ?_, ?_, ?_, ?_, ?_, ?_, ?_, ?_, ?_, ?_⟩ <;> (try simp) <;> repeat' (first | intro _ | (split <;> try simp))

@[simp] theorem State.noteService_frame (s : State) (b : BayId) :
    (s.noteService b).pending = s.pending ∧ (s.noteService b).out = s.out ∧ (s.noteService b).free = s.free ∧
    (s.noteService b).host = s.host ∧ (s.noteService b).ev = s.ev ∧ (s.noteService b).mem = s.mem ∧
    (s.noteService b).flash = s.flash ∧ (s.noteService b).cfg = s.cfg ∧ (s.noteService b).trust = s.trust ∧
    (s.noteService b).blk = s.blk ∧ (s.noteService b).isl = s.isl ∧ (s.noteService b).inj = s.inj ∧
    (s.noteService b).chip = s.chip ∧ (s.noteService b).bays = s.bays := by
  unfold State.noteService
  refine ⟨?_, ?_, ?_, ?_, ?_, ?_, ?_, ?_, ?_, ?_, ?_, ?_, ?_, ?_⟩ <;> (try simp) <;> repeat' (first | intro _ | (split <;> try simp))

end Sys2Proof.Machine
end

