-- ==== Sys2Proof/Laws/FrameHamperRead.lean ====
section
/-! SUPPORT. What the operations of Machine/HamperRead.lean leave unchanged: one lemma each, the fields of the state it does not touch. -/

namespace Sys2Proof.Machine

@[simp] theorem State.raiseHam_frame (s : State) (h : SlotId) (e : Ev) (p0 p1 p2 : Nat) :
    (s.raiseHam h e p0 p1 p2).pending = s.pending ∧ (s.raiseHam h e p0 p1 p2).free = s.free ∧
    (s.raiseHam h e p0 p1 p2).ham = s.ham ∧ (s.raiseHam h e p0 p1 p2).mem = s.mem ∧ (s.raiseHam h e p0 p1 p2).flash = s.flash ∧
    (s.raiseHam h e p0 p1 p2).cfg = s.cfg ∧ (s.raiseHam h e p0 p1 p2).trust = s.trust ∧ (s.raiseHam h e p0 p1 p2).blk = s.blk ∧
    (s.raiseHam h e p0 p1 p2).isl = s.isl ∧ (s.raiseHam h e p0 p1 p2).inj = s.inj ∧ (s.raiseHam h e p0 p1 p2).bays = s.bays := by
  unfold State.raiseHam
  refine ⟨?_, ?_, ?_, ?_, ?_, ?_, ?_, ?_, ?_, ?_, ?_⟩ <;> (try simp) <;> repeat' (first | intro _ | (split <;> try simp))

@[simp] theorem State.stagedLost_frame (s : State) (h : SlotId) (lost : WriteRec → Bool) (whole : Bool) :
    (s.stagedLost h lost whole).pending = s.pending ∧ (s.stagedLost h lost whole).free = s.free ∧
    (s.stagedLost h lost whole).mem = s.mem ∧ (s.stagedLost h lost whole).flash = s.flash ∧
    (s.stagedLost h lost whole).cfg = s.cfg ∧ (s.stagedLost h lost whole).trust = s.trust ∧
    (s.stagedLost h lost whole).blk = s.blk ∧ (s.stagedLost h lost whole).isl = s.isl ∧ (s.stagedLost h lost whole).inj = s.inj ∧
    (s.stagedLost h lost whole).bays = s.bays := by
  unfold State.stagedLost
  refine ⟨?_, ?_, ?_, ?_, ?_, ?_, ?_, ?_, ?_, ?_⟩ <;> (try simp) <;> repeat' (first | intro _ | (split <;> try simp) | ((first | rw [State.foldl_pending] | rw [State.foldl2_pending] | rw [State.foldl_free] | rw [State.foldl2_free] | rw [State.foldl_mem] | rw [State.foldl2_mem] | rw [State.foldl_flash] | rw [State.foldl2_flash] | rw [State.foldl_cfg] | rw [State.foldl2_cfg] | rw [State.foldl_trust] | rw [State.foldl2_trust] | rw [State.foldl_blk] | rw [State.foldl2_blk] | rw [State.foldl_isl] | rw [State.foldl2_isl] | rw [State.foldl_inj] | rw [State.foldl2_inj] | rw [State.foldl_bays] | rw [State.foldl2_bays]) <;> intros <;> try simp))

@[simp] theorem State.fillSector_frame (s : State) (bufs : List Nat) (payload : Bytes) :
    (s.fillSector bufs payload).pending = s.pending ∧ (s.fillSector bufs payload).out = s.out ∧
    (s.fillSector bufs payload).free = s.free ∧ (s.fillSector bufs payload).host = s.host ∧
    (s.fillSector bufs payload).ev = s.ev ∧ (s.fillSector bufs payload).ham = s.ham ∧
    (s.fillSector bufs payload).flash = s.flash ∧ (s.fillSector bufs payload).cfg = s.cfg ∧
    (s.fillSector bufs payload).trust = s.trust ∧ (s.fillSector bufs payload).blk = s.blk ∧
    (s.fillSector bufs payload).isl = s.isl ∧ (s.fillSector bufs payload).inj = s.inj ∧
    (s.fillSector bufs payload).chip = s.chip ∧ (s.fillSector bufs payload).bays = s.bays ∧
    (s.fillSector bufs payload).mem.ddr = s.mem.ddr := by
  unfold State.fillSector
  refine ⟨?_, ?_, ?_, ?_, ?_, ?_, ?_, ?_, ?_, ?_, ?_, ?_, ?_, ?_, ?_⟩ <;> (try simp) <;> repeat' (first | intro _ | (split <;> try simp))

@[simp] theorem State.repairBuf_frame (s : State) (order : Nat) :
    (s.repairBuf order).pending = s.pending ∧ (s.repairBuf order).free = s.free ∧ (s.repairBuf order).ham = s.ham ∧
    (s.repairBuf order).flash = s.flash ∧ (s.repairBuf order).trust = s.trust ∧ (s.repairBuf order).blk = s.blk ∧
    (s.repairBuf order).isl = s.isl ∧ (s.repairBuf order).inj = s.inj ∧ (s.repairBuf order).bays = s.bays ∧
    (s.repairBuf order).mem.ddr = s.mem.ddr := by
  unfold State.repairBuf
  refine ⟨?_, ?_, ?_, ?_, ?_, ?_, ?_, ?_, ?_, ?_⟩ <;> (try simp) <;> repeat' (first | intro _ | (split <;> try simp))

@[simp] theorem State.repairWrite_frame (s : State) (h : SlotId) (lba order : Nat) (d : Bytes) :
    (s.repairWrite h lba order d).pending = s.pending ∧ (s.repairWrite h lba order d).out = s.out ∧
    (s.repairWrite h lba order d).free = s.free ∧ (s.repairWrite h lba order d).host = s.host ∧
    (s.repairWrite h lba order d).ev = s.ev ∧ (s.repairWrite h lba order d).flash = s.flash ∧
    (s.repairWrite h lba order d).cfg = s.cfg ∧ (s.repairWrite h lba order d).trust = s.trust ∧
    (s.repairWrite h lba order d).blk = s.blk ∧ (s.repairWrite h lba order d).isl = s.isl ∧
    (s.repairWrite h lba order d).inj = s.inj ∧ (s.repairWrite h lba order d).chip = s.chip ∧
    (s.repairWrite h lba order d).bays = s.bays ∧ (s.repairWrite h lba order d).mem.ddr = s.mem.ddr := by
  unfold State.repairWrite
  refine ⟨?_, ?_, ?_, ?_, ?_, ?_, ?_, ?_, ?_, ?_, ?_, ?_, ?_, ?_⟩ <;> (try simp) <;> repeat' (first | intro _ | (split <;> try simp))

@[simp] theorem State.answerBlock_frame (s : State) (h : SlotId) (order i : Nat) :
    (s.answerBlock h order i).pending = s.pending ∧ (s.answerBlock h order i).flash = s.flash ∧
    (s.answerBlock h order i).trust = s.trust ∧ (s.answerBlock h order i).blk = s.blk ∧ (s.answerBlock h order i).isl = s.isl ∧
    (s.answerBlock h order i).inj = s.inj ∧ (s.answerBlock h order i).mem.ddr = s.mem.ddr := by
  unfold State.answerBlock
  refine ⟨?_, ?_, ?_, ?_, ?_, ?_, ?_⟩ <;> (try simp) <;> repeat' (first | intro _ | (split <;> try simp))

@[simp] theorem State.closeRead_frame (s : State) (h : SlotId) (order : Nat) :
    (s.closeRead h order).pending = s.pending ∧ (s.closeRead h order).free = s.free ∧ (s.closeRead h order).flash = s.flash ∧
    (s.closeRead h order).trust = s.trust ∧ (s.closeRead h order).blk = s.blk ∧ (s.closeRead h order).isl = s.isl ∧
    (s.closeRead h order).inj = s.inj ∧ (s.closeRead h order).bays = s.bays ∧ (s.closeRead h order).mem.ddr = s.mem.ddr := by
  unfold State.closeRead
  refine ⟨?_, ?_, ?_, ?_, ?_, ?_, ?_, ?_, ?_⟩ <;> (try simp) <;> repeat' (first | intro _ | (split <;> try simp) | ((first | rw [State.foldl_pending] | rw [State.foldl2_pending] | rw [State.foldl_free] | rw [State.foldl2_free] | rw [State.foldl_flash] | rw [State.foldl2_flash] | rw [State.foldl_trust] | rw [State.foldl2_trust] | rw [State.foldl_blk] | rw [State.foldl2_blk] | rw [State.foldl_isl] | rw [State.foldl2_isl] | rw [State.foldl_inj] | rw [State.foldl2_inj] | rw [State.foldl_bays] | rw [State.foldl2_bays] | rw [State.foldl_mem_ddr] | rw [State.foldl2_mem_ddr]) <;> intros <;> try simp))

@[simp] theorem State.serveReads_frame (s : State) (h : SlotId) :
    (s.serveReads h).pending = s.pending ∧ (s.serveReads h).flash = s.flash ∧ (s.serveReads h).trust = s.trust ∧
    (s.serveReads h).blk = s.blk ∧ (s.serveReads h).isl = s.isl ∧ (s.serveReads h).inj = s.inj ∧
    (s.serveReads h).mem.ddr = s.mem.ddr := by
  unfold State.serveReads
  refine ⟨?_, ?_, ?_, ?_, ?_, ?_, ?_⟩ <;> (try simp) <;> repeat' (first | intro _ | (split <;> try simp) | ((first | rw [State.foldl_pending] | rw [State.foldl2_pending] | rw [State.foldl_flash] | rw [State.foldl2_flash] | rw [State.foldl_trust] | rw [State.foldl2_trust] | rw [State.foldl_blk] | rw [State.foldl2_blk] | rw [State.foldl_isl] | rw [State.foldl2_isl] | rw [State.foldl_inj] | rw [State.foldl2_inj] | rw [State.foldl_mem_ddr] | rw [State.foldl2_mem_ddr]) <;> intros <;> try simp))

@[simp] theorem State.compareRebuilt_frame (s : State) (h : SlotId) (seq pos : Nat) (was now : Bytes) :
    (s.compareRebuilt h seq pos was now).pending = s.pending ∧ (s.compareRebuilt h seq pos was now).free = s.free ∧
    (s.compareRebuilt h seq pos was now).mem = s.mem ∧ (s.compareRebuilt h seq pos was now).flash = s.flash ∧
    (s.compareRebuilt h seq pos was now).cfg = s.cfg ∧ (s.compareRebuilt h seq pos was now).trust = s.trust ∧
    (s.compareRebuilt h seq pos was now).blk = s.blk ∧ (s.compareRebuilt h seq pos was now).isl = s.isl ∧
    (s.compareRebuilt h seq pos was now).inj = s.inj ∧ (s.compareRebuilt h seq pos was now).bays = s.bays := by
  unfold State.compareRebuilt
  refine ⟨?_, ?_, ?_, ?_, ?_, ?_, ?_, ?_, ?_, ?_⟩ <;> (try simp) <;> repeat' (first | intro _ | (split <;> try simp))

@[simp] theorem State.sectorLanded_frame (s : State) (h : SlotId) (seq pos : Nat) (payload : Bytes) (bufs : List Nat) :
    (s.sectorLanded h seq pos payload bufs).pending = s.pending ∧ (s.sectorLanded h seq pos payload bufs).flash = s.flash ∧
    (s.sectorLanded h seq pos payload bufs).trust = s.trust ∧ (s.sectorLanded h seq pos payload bufs).blk = s.blk ∧
    (s.sectorLanded h seq pos payload bufs).isl = s.isl ∧ (s.sectorLanded h seq pos payload bufs).inj = s.inj ∧
    (s.sectorLanded h seq pos payload bufs).mem.ddr = s.mem.ddr := by
  unfold State.sectorLanded
  refine ⟨?_, ?_, ?_, ?_, ?_, ?_, ?_⟩ <;> (try simp) <;> repeat' (first | intro _ | (split <;> try simp))

@[simp] theorem State.sectorUnread_frame (s : State) (h : SlotId) (seq pos : Nat) (early : Bool) (bufs : List Nat) :
    (s.sectorUnread h seq pos early bufs).pending = s.pending ∧ (s.sectorUnread h seq pos early bufs).flash = s.flash ∧
    (s.sectorUnread h seq pos early bufs).trust = s.trust ∧ (s.sectorUnread h seq pos early bufs).blk = s.blk ∧
    (s.sectorUnread h seq pos early bufs).isl = s.isl ∧ (s.sectorUnread h seq pos early bufs).inj = s.inj ∧
    (s.sectorUnread h seq pos early bufs).mem.ddr = s.mem.ddr := by
  unfold State.sectorUnread
  refine ⟨?_, ?_, ?_, ?_, ?_, ?_, ?_⟩ <;> (try simp) <;> repeat' (first | intro _ | (split <;> try simp))

@[simp] theorem State.rebuildSector_frame (s : State) (h : SlotId) (seq pos : Nat) :
    (s.rebuildSector h seq pos).pending = s.pending ∧ (s.rebuildSector h seq pos).flash = s.flash ∧
    (s.rebuildSector h seq pos).trust = s.trust ∧ (s.rebuildSector h seq pos).blk = s.blk ∧
    (s.rebuildSector h seq pos).isl = s.isl ∧ (s.rebuildSector h seq pos).inj = s.inj ∧
    (s.rebuildSector h seq pos).mem.ddr = s.mem.ddr := by
  unfold State.rebuildSector
  refine ⟨?_, ?_, ?_, ?_, ?_, ?_, ?_⟩ <;> (try simp) <;> repeat' (first | intro _ | (split <;> try simp))

end Sys2Proof.Machine
end

