-- ==== Sys2Proof/Laws/FrameHamperRec.lean ====
section
/-! SUPPORT. What the operations of Machine/HamperRec.lean leave unchanged: one lemma each, the fields of the state it does not touch. -/

namespace Sys2Proof.Machine

@[simp] theorem State.writeLabels_frame (s : State) (h : SlotId) :
    (s.writeLabels h).pending = s.pending ∧ (s.writeLabels h).out = s.out ∧ (s.writeLabels h).free = s.free ∧
    (s.writeLabels h).host = s.host ∧ (s.writeLabels h).ev = s.ev ∧ (s.writeLabels h).mem = s.mem ∧
    (s.writeLabels h).flash = s.flash ∧ (s.writeLabels h).cfg = s.cfg ∧ (s.writeLabels h).trust = s.trust ∧
    (s.writeLabels h).blk = s.blk ∧ (s.writeLabels h).isl = s.isl ∧ (s.writeLabels h).inj = s.inj ∧
    (s.writeLabels h).chip = s.chip := by
  unfold State.writeLabels
  refine ⟨?_, ?_, ?_, ?_, ?_, ?_, ?_, ?_, ?_, ?_, ?_, ?_, ?_⟩ <;> (try simp) <;> repeat' (first | intro _ | (split <;> try simp) | ((first | rw [State.foldl_pending] | rw [State.foldl2_pending] | rw [State.foldl_out] | rw [State.foldl2_out] | rw [State.foldl_free] | rw [State.foldl2_free] | rw [State.foldl_host] | rw [State.foldl2_host] | rw [State.foldl_ev] | rw [State.foldl2_ev] | rw [State.foldl_mem] | rw [State.foldl2_mem] | rw [State.foldl_flash] | rw [State.foldl2_flash] | rw [State.foldl_cfg] | rw [State.foldl2_cfg] | rw [State.foldl_trust] | rw [State.foldl2_trust] | rw [State.foldl_blk] | rw [State.foldl2_blk] | rw [State.foldl_isl] | rw [State.foldl2_isl] | rw [State.foldl_inj] | rw [State.foldl2_inj] | rw [State.foldl_chip] | rw [State.foldl2_chip]) <;> intros <;> try simp))

@[simp] theorem State.writePointer_frame (s : State) (h : SlotId) (r : Bytes) :
    (s.writePointer h r).pending = s.pending ∧ (s.writePointer h r).out = s.out ∧ (s.writePointer h r).free = s.free ∧
    (s.writePointer h r).host = s.host ∧ (s.writePointer h r).ev = s.ev ∧ (s.writePointer h r).mem = s.mem ∧
    (s.writePointer h r).flash = s.flash ∧ (s.writePointer h r).cfg = s.cfg ∧ (s.writePointer h r).trust = s.trust ∧
    (s.writePointer h r).blk = s.blk ∧ (s.writePointer h r).isl = s.isl ∧ (s.writePointer h r).inj = s.inj ∧
    (s.writePointer h r).chip = s.chip := by
  unfold State.writePointer
  refine ⟨?_, ?_, ?_, ?_, ?_, ?_, ?_, ?_, ?_, ?_, ?_, ?_, ?_⟩ <;> (try simp) <;> repeat' (first | intro _ | (split <;> try simp) | ((first | rw [State.foldl_pending] | rw [State.foldl2_pending] | rw [State.foldl_out] | rw [State.foldl2_out] | rw [State.foldl_free] | rw [State.foldl2_free] | rw [State.foldl_host] | rw [State.foldl2_host] | rw [State.foldl_ev] | rw [State.foldl2_ev] | rw [State.foldl_mem] | rw [State.foldl2_mem] | rw [State.foldl_flash] | rw [State.foldl2_flash] | rw [State.foldl_cfg] | rw [State.foldl2_cfg] | rw [State.foldl_trust] | rw [State.foldl2_trust] | rw [State.foldl_blk] | rw [State.foldl2_blk] | rw [State.foldl_isl] | rw [State.foldl2_isl] | rw [State.foldl_inj] | rw [State.foldl2_inj] | rw [State.foldl_chip] | rw [State.foldl2_chip]) <;> intros <;> try simp))

@[simp] theorem State.ckptStripe_frame (s : State) (h : SlotId) (x : Hamper) (number : Nat) (bodies : List Bytes) (rows : List (Nat × Nat)) :
    (s.ckptStripe h x number bodies rows).pending = s.pending ∧ (s.ckptStripe h x number bodies rows).out = s.out ∧
    (s.ckptStripe h x number bodies rows).free = s.free ∧ (s.ckptStripe h x number bodies rows).host = s.host ∧
    (s.ckptStripe h x number bodies rows).ev = s.ev ∧ (s.ckptStripe h x number bodies rows).ham = s.ham ∧
    (s.ckptStripe h x number bodies rows).mem = s.mem ∧ (s.ckptStripe h x number bodies rows).flash = s.flash ∧
    (s.ckptStripe h x number bodies rows).cfg = s.cfg ∧ (s.ckptStripe h x number bodies rows).trust = s.trust ∧
    (s.ckptStripe h x number bodies rows).blk = s.blk ∧ (s.ckptStripe h x number bodies rows).isl = s.isl ∧
    (s.ckptStripe h x number bodies rows).inj = s.inj ∧ (s.ckptStripe h x number bodies rows).chip = s.chip := by
  unfold State.ckptStripe
  refine ⟨?_, ?_, ?_, ?_, ?_, ?_, ?_, ?_, ?_, ?_, ?_, ?_, ?_, ?_⟩ <;> (try simp) <;> repeat' (first | intro _ | (split <;> try simp) | ((first | rw [State.foldl_pending] | rw [State.foldl2_pending] | rw [State.foldl_out] | rw [State.foldl2_out] | rw [State.foldl_free] | rw [State.foldl2_free] | rw [State.foldl_host] | rw [State.foldl2_host] | rw [State.foldl_ev] | rw [State.foldl2_ev] | rw [State.foldl_ham] | rw [State.foldl2_ham] | rw [State.foldl_mem] | rw [State.foldl2_mem] | rw [State.foldl_flash] | rw [State.foldl2_flash] | rw [State.foldl_cfg] | rw [State.foldl2_cfg] | rw [State.foldl_trust] | rw [State.foldl2_trust] | rw [State.foldl_blk] | rw [State.foldl2_blk] | rw [State.foldl_isl] | rw [State.foldl2_isl] | rw [State.foldl_inj] | rw [State.foldl2_inj] | rw [State.foldl_chip] | rw [State.foldl2_chip]) <;> intros <;> try simp))

@[simp] theorem State.ckptStripes_frame (s : State) (h : SlotId) (x : Hamper) (d : Nat) (k0 : Nat) (k1 : Nat) (k2 : List Bytes) (k3 : List (Nat × Nat)) :
    (s.ckptStripes h x d k0 k1 k2 k3).pending = s.pending ∧ (s.ckptStripes h x d k0 k1 k2 k3).out = s.out ∧
    (s.ckptStripes h x d k0 k1 k2 k3).free = s.free ∧ (s.ckptStripes h x d k0 k1 k2 k3).host = s.host ∧
    (s.ckptStripes h x d k0 k1 k2 k3).ev = s.ev ∧ (s.ckptStripes h x d k0 k1 k2 k3).ham = s.ham ∧
    (s.ckptStripes h x d k0 k1 k2 k3).mem = s.mem ∧ (s.ckptStripes h x d k0 k1 k2 k3).flash = s.flash ∧
    (s.ckptStripes h x d k0 k1 k2 k3).cfg = s.cfg ∧ (s.ckptStripes h x d k0 k1 k2 k3).trust = s.trust ∧
    (s.ckptStripes h x d k0 k1 k2 k3).blk = s.blk ∧ (s.ckptStripes h x d k0 k1 k2 k3).isl = s.isl ∧
    (s.ckptStripes h x d k0 k1 k2 k3).inj = s.inj ∧ (s.ckptStripes h x d k0 k1 k2 k3).chip = s.chip := by
  induction k0 generalizing s h x d k1 k2 k3 with
  | zero => unfold State.ckptStripes; simp
  | succ n ih =>
    unfold State.ckptStripes
    refine ⟨?_, ?_, ?_, ?_, ?_, ?_, ?_, ?_, ?_, ?_, ?_, ?_, ?_, ?_⟩ <;> (try simp [ih]) <;> repeat' (split <;> try simp [ih])

@[simp] theorem State.checkpoint_frame (s : State) (h : SlotId) :
    (s.checkpoint h).pending = s.pending ∧ (s.checkpoint h).out = s.out ∧ (s.checkpoint h).free = s.free ∧
    (s.checkpoint h).host = s.host ∧ (s.checkpoint h).ev = s.ev ∧ (s.checkpoint h).mem = s.mem ∧
    (s.checkpoint h).flash = s.flash ∧ (s.checkpoint h).cfg = s.cfg ∧ (s.checkpoint h).trust = s.trust ∧
    (s.checkpoint h).blk = s.blk ∧ (s.checkpoint h).isl = s.isl ∧ (s.checkpoint h).inj = s.inj ∧ (s.checkpoint h).chip = s.chip := by
  unfold State.checkpoint
  refine ⟨?_, ?_, ?_, ?_, ?_, ?_, ?_, ?_, ?_, ?_, ?_, ?_, ?_⟩ <;> (try simp) <;> repeat' (first | intro _ | (split <;> try simp))

@[simp] theorem State.releaseHamper_frame (s : State) (h : SlotId) :
    (s.releaseHamper h).pending = s.pending ∧ (s.releaseHamper h).out = s.out ∧ (s.releaseHamper h).free = s.free ∧
    (s.releaseHamper h).ev = s.ev ∧ (s.releaseHamper h).mem = s.mem ∧ (s.releaseHamper h).flash = s.flash ∧
    (s.releaseHamper h).cfg = s.cfg ∧ (s.releaseHamper h).trust = s.trust ∧ (s.releaseHamper h).blk = s.blk ∧
    (s.releaseHamper h).isl = s.isl ∧ (s.releaseHamper h).inj = s.inj ∧ (s.releaseHamper h).chip = s.chip := by
  unfold State.releaseHamper
  refine ⟨?_, ?_, ?_, ?_, ?_, ?_, ?_, ?_, ?_, ?_, ?_, ?_⟩ <;> (try simp) <;> repeat' (first | intro _ | (split <;> try simp))

@[simp] theorem State.recordOutcome_frame (s : State) (h : SlotId) (kind no : Nat) (written : Bool) :
    (s.recordOutcome h kind no written).pending = s.pending ∧
    (s.recordOutcome h kind no written).out = s.out ∧
    (s.recordOutcome h kind no written).free = s.free ∧
    (s.recordOutcome h kind no written).ev = s.ev := by
  unfold State.recordOutcome
  refine ⟨?_, ?_, ?_, ?_⟩ <;> (try simp) <;> repeat' (split <;> (try (rename_i h; replace h := congrArg Prod.snd h; dsimp only at h; subst h)) <;> try simp)

@[simp] theorem State.recordOutcome_frame_chip (s : State) (h : SlotId) (kind no : Nat) (written : Bool) :
    (s.recordOutcome h kind no written).flash = s.flash ∧
    (s.recordOutcome h kind no written).trust = s.trust ∧
    (s.recordOutcome h kind no written).blk = s.blk ∧
    (s.recordOutcome h kind no written).isl = s.isl := by
  unfold State.recordOutcome
  refine ⟨?_, ?_, ?_, ?_⟩ <;> (try simp) <;> repeat' (split <;> (try (rename_i h; replace h := congrArg Prod.snd h; dsimp only at h; subst h)) <;> try simp)

@[simp] theorem State.recordOutcome_frame_rest (s : State) (h : SlotId) (kind no : Nat) (written : Bool) :
    (s.recordOutcome h kind no written).inj = s.inj ∧
    (s.recordOutcome h kind no written).chip = s.chip ∧
    (s.recordOutcome h kind no written).mem.ddr = s.mem.ddr := by
  unfold State.recordOutcome
  refine ⟨?_, ?_, ?_⟩ <;> (try simp) <;> repeat' (split <;> (try (rename_i h; replace h := congrArg Prod.snd h; dsimp only at h; subst h)) <;> try simp)

@[simp] theorem State.flushOutcomes_frame (s : State) :
    (s.flushOutcomes).pending = s.pending ∧ (s.flushOutcomes).out = s.out ∧ (s.flushOutcomes).free = s.free ∧
    (s.flushOutcomes).ev = s.ev ∧ (s.flushOutcomes).flash = s.flash ∧ (s.flushOutcomes).trust = s.trust ∧
    (s.flushOutcomes).blk = s.blk ∧ (s.flushOutcomes).isl = s.isl ∧ (s.flushOutcomes).inj = s.inj ∧
    (s.flushOutcomes).chip = s.chip ∧ (s.flushOutcomes).mem.ddr = s.mem.ddr := by
  unfold State.flushOutcomes
  refine ⟨?_, ?_, ?_, ?_, ?_, ?_, ?_, ?_, ?_, ?_, ?_⟩ <;> (try simp) <;> repeat' (first | intro _ | (split <;> try simp))

@[simp] theorem State.raiseStale_frame (s : State) (hid : Nat) :
    (s.raiseStale hid).pending = s.pending ∧ (s.raiseStale hid).free = s.free ∧ (s.raiseStale hid).ham = s.ham ∧
    (s.raiseStale hid).mem = s.mem ∧ (s.raiseStale hid).flash = s.flash ∧ (s.raiseStale hid).cfg = s.cfg ∧
    (s.raiseStale hid).trust = s.trust ∧ (s.raiseStale hid).blk = s.blk ∧ (s.raiseStale hid).isl = s.isl ∧
    (s.raiseStale hid).inj = s.inj ∧ (s.raiseStale hid).bays = s.bays := by
  unfold State.raiseStale
  refine ⟨?_, ?_, ?_, ?_, ?_, ?_, ?_, ?_, ?_, ?_, ?_⟩ <;> (try simp) <;> repeat' (first | intro _ | (split <;> try simp))

@[simp] theorem State.tryMount_frame (s : State) (hid : Nat) (ro : Bool) (attach : Option Nat) :
    (s.tryMount hid ro attach).pending = s.pending ∧ (s.tryMount hid ro attach).out = s.out ∧
    (s.tryMount hid ro attach).free = s.free ∧ (s.tryMount hid ro attach).ev = s.ev ∧ (s.tryMount hid ro attach).mem = s.mem ∧
    (s.tryMount hid ro attach).flash = s.flash ∧ (s.tryMount hid ro attach).cfg = s.cfg ∧
    (s.tryMount hid ro attach).trust = s.trust ∧ (s.tryMount hid ro attach).blk = s.blk ∧ (s.tryMount hid ro attach).isl = s.isl ∧
    (s.tryMount hid ro attach).inj = s.inj ∧ (s.tryMount hid ro attach).chip = s.chip ∧ (s.tryMount hid ro attach).bays = s.bays := by
  unfold State.tryMount
  refine ⟨?_, ?_, ?_, ?_, ?_, ?_, ?_, ?_, ?_, ?_, ?_, ?_, ?_⟩ <;> (try simp) <;> repeat' (first | intro _ | (split <;> try simp))

@[simp] theorem State.joinMounted_frame (s : State) (b : BayId) (h : SlotId) :
    (s.joinMounted b h).pending = s.pending ∧ (s.joinMounted b h).free = s.free ∧ (s.joinMounted b h).mem = s.mem ∧
    (s.joinMounted b h).flash = s.flash ∧ (s.joinMounted b h).cfg = s.cfg ∧ (s.joinMounted b h).trust = s.trust ∧
    (s.joinMounted b h).blk = s.blk ∧ (s.joinMounted b h).isl = s.isl ∧ (s.joinMounted b h).inj = s.inj ∧
    (s.joinMounted b h).bays = s.bays := by
  unfold State.joinMounted
  refine ⟨?_, ?_, ?_, ?_, ?_, ?_, ?_, ?_, ?_, ?_⟩ <;> (try simp) <;> repeat' (first | intro _ | (split <;> try simp))

end Sys2Proof.Machine
end

