-- ==== Sys2Proof/Laws/FrameDiscRecs.lean ====
section
/-! SUPPORT. What the operations of Machine/DiscRecs.lean leave unchanged: one lemma each, the fields of the state it does not touch. -/

namespace Sys2Proof.Machine

@[simp] theorem State.askRecord_frame (s : State) (b : BayId) (p : Pu) :
    (s.askRecord b p).pending = s.pending ∧ (s.askRecord b p).out = s.out ∧ (s.askRecord b p).free = s.free ∧
    (s.askRecord b p).host = s.host ∧ (s.askRecord b p).ev = s.ev ∧ (s.askRecord b p).ham = s.ham ∧
    (s.askRecord b p).mem = s.mem ∧ (s.askRecord b p).flash = s.flash ∧ (s.askRecord b p).cfg = s.cfg ∧
    (s.askRecord b p).trust = s.trust ∧ (s.askRecord b p).blk = s.blk ∧ (s.askRecord b p).isl = s.isl ∧
    (s.askRecord b p).inj = s.inj ∧ (s.askRecord b p).chip = s.chip := by
  unfold State.askRecord
  refine ⟨?_, ?_, ?_, ?_, ?_, ?_, ?_, ?_, ?_, ?_, ?_, ?_, ?_, ?_⟩ <;> (try simp) <;> repeat' (first | intro _ | (split <;> try simp))

@[simp] theorem State.noteRecord_frame (s : State) (b : BayId) (p : Pu) (k no : Nat) (o : SecOutcome) (payload : Option Bytes) :
    (s.noteRecord b p k no o payload).pending = s.pending ∧ (s.noteRecord b p k no o payload).out = s.out ∧
    (s.noteRecord b p k no o payload).free = s.free ∧ (s.noteRecord b p k no o payload).host = s.host ∧
    (s.noteRecord b p k no o payload).ev = s.ev ∧ (s.noteRecord b p k no o payload).ham = s.ham ∧
    (s.noteRecord b p k no o payload).mem = s.mem ∧ (s.noteRecord b p k no o payload).flash = s.flash ∧
    (s.noteRecord b p k no o payload).cfg = s.cfg ∧ (s.noteRecord b p k no o payload).trust = s.trust ∧
    (s.noteRecord b p k no o payload).blk = s.blk ∧ (s.noteRecord b p k no o payload).isl = s.isl ∧
    (s.noteRecord b p k no o payload).inj = s.inj ∧ (s.noteRecord b p k no o payload).chip = s.chip := by
  unfold State.noteRecord
  refine ⟨?_, ?_, ?_, ?_, ?_, ?_, ?_, ?_, ?_, ?_, ?_, ?_, ?_, ?_⟩ <;> (try simp) <;> repeat' (first | intro _ | (split <;> try simp))

end Sys2Proof.Machine
end

