-- ==== Sys2Proof/Laws/FrameSafetyOps.lean ====
section
/-! SUPPORT. What the operations of Machine/SafetyOps.lean leave unchanged: one lemma each, the fields of the state it does not touch. -/

namespace Sys2Proof.Machine

@[simp] theorem State.updSafe_frame (s : State) (b : BayId) (f : BaySafe → BaySafe) :
    (s.updSafe b f).pending = s.pending ∧ (s.updSafe b f).out = s.out ∧ (s.updSafe b f).free = s.free ∧
    (s.updSafe b f).host = s.host ∧ (s.updSafe b f).ev = s.ev ∧ (s.updSafe b f).ham = s.ham ∧ (s.updSafe b f).mem = s.mem ∧
    (s.updSafe b f).flash = s.flash ∧ (s.updSafe b f).cfg = s.cfg ∧ (s.updSafe b f).trust = s.trust ∧
    (s.updSafe b f).blk = s.blk ∧ (s.updSafe b f).inj = s.inj ∧ (s.updSafe b f).chip = s.chip ∧ (s.updSafe b f).bays = s.bays := by
  unfold State.updSafe
  refine ⟨?_, ?_, ?_, ?_, ?_, ?_, ?_, ?_, ?_, ?_, ?_, ?_, ?_, ?_⟩ <;> (try simp) <;> repeat' (first | intro _ | (split <;> try simp))

@[simp] theorem State.dropL_frame (s : State) (b : BayId) :
    (s.dropL b).pending = s.pending ∧ (s.dropL b).free = s.free ∧ (s.dropL b).host = s.host ∧ (s.dropL b).ev = s.ev ∧
    (s.dropL b).ham = s.ham ∧ (s.dropL b).mem = s.mem ∧ (s.dropL b).flash = s.flash ∧ (s.dropL b).cfg = s.cfg ∧
    (s.dropL b).trust = s.trust ∧ (s.dropL b).blk = s.blk ∧ (s.dropL b).inj = s.inj ∧ (s.dropL b).chip = s.chip ∧
    (s.dropL b).bays = s.bays := by
  unfold State.dropL
  refine ⟨?_, ?_, ?_, ?_, ?_, ?_, ?_, ?_, ?_, ?_, ?_, ?_, ?_⟩ <;> (try simp) <;> repeat' (first | intro _ | (split <;> try simp))

@[simp] theorem State.dropS_frame (s : State) (b : BayId) :
    (s.dropS b).pending = s.pending ∧ (s.dropS b).free = s.free ∧ (s.dropS b).host = s.host ∧ (s.dropS b).ev = s.ev ∧
    (s.dropS b).ham = s.ham ∧ (s.dropS b).mem = s.mem ∧ (s.dropS b).flash = s.flash ∧ (s.dropS b).cfg = s.cfg ∧
    (s.dropS b).trust = s.trust ∧ (s.dropS b).blk = s.blk ∧ (s.dropS b).inj = s.inj ∧ (s.dropS b).chip = s.chip ∧
    (s.dropS b).bays = s.bays := by
  unfold State.dropS
  refine ⟨?_, ?_, ?_, ?_, ?_, ?_, ?_, ?_, ?_, ?_, ?_, ?_, ?_⟩ <;> (try simp) <;> repeat' (first | intro _ | (split <;> try simp))

@[simp] theorem State.dropBay_frame (s : State) (b : BayId) :
    (s.dropBay b).pending = s.pending ∧ (s.dropBay b).free = s.free ∧ (s.dropBay b).host = s.host ∧ (s.dropBay b).ev = s.ev ∧
    (s.dropBay b).ham = s.ham ∧ (s.dropBay b).mem = s.mem ∧ (s.dropBay b).flash = s.flash ∧ (s.dropBay b).cfg = s.cfg ∧
    (s.dropBay b).trust = s.trust ∧ (s.dropBay b).blk = s.blk ∧ (s.dropBay b).inj = s.inj ∧ (s.dropBay b).chip = s.chip ∧
    (s.dropBay b).bays = s.bays := by
  unfold State.dropBay
  refine ⟨?_, ?_, ?_, ?_, ?_, ?_, ?_, ?_, ?_, ?_, ?_, ?_, ?_⟩ <;> (try simp) <;> repeat' (first | intro _ | (split <;> try simp))

@[simp] theorem State.dropAll_frame (s : State) :
    (s.dropAll).pending = s.pending ∧ (s.dropAll).free = s.free ∧ (s.dropAll).host = s.host ∧ (s.dropAll).ev = s.ev ∧
    (s.dropAll).ham = s.ham ∧ (s.dropAll).mem = s.mem ∧ (s.dropAll).flash = s.flash ∧ (s.dropAll).cfg = s.cfg ∧
    (s.dropAll).trust = s.trust ∧ (s.dropAll).blk = s.blk ∧ (s.dropAll).inj = s.inj ∧ (s.dropAll).chip = s.chip ∧
    (s.dropAll).bays = s.bays := by
  unfold State.dropAll
  refine ⟨?_, ?_, ?_, ?_, ?_, ?_, ?_, ?_, ?_, ?_, ?_, ?_, ?_⟩ <;> (try simp) <;> repeat' (first | intro _ | (split <;> try simp))

@[simp] theorem State.raiseSafe_frame (s : State) (b : BayId) (e : Ev) (p0 : Nat) :
    (s.raiseSafe b e p0).pending = s.pending ∧ (s.raiseSafe b e p0).free = s.free ∧ (s.raiseSafe b e p0).ham = s.ham ∧
    (s.raiseSafe b e p0).mem = s.mem ∧ (s.raiseSafe b e p0).flash = s.flash ∧ (s.raiseSafe b e p0).cfg = s.cfg ∧
    (s.raiseSafe b e p0).trust = s.trust ∧ (s.raiseSafe b e p0).blk = s.blk ∧ (s.raiseSafe b e p0).isl = s.isl ∧
    (s.raiseSafe b e p0).inj = s.inj ∧ (s.raiseSafe b e p0).bays = s.bays := by
  unfold State.raiseSafe
  refine ⟨?_, ?_, ?_, ?_, ?_, ?_, ?_, ?_, ?_, ?_, ?_⟩ <;> (try simp) <;> repeat' (first | intro _ | (split <;> try simp))

@[simp] theorem State.countTrip_frame (s : State) (b : BayId) :
    (s.countTrip b).pending = s.pending ∧ (s.countTrip b).free = s.free ∧ (s.countTrip b).ham = s.ham ∧
    (s.countTrip b).mem = s.mem ∧ (s.countTrip b).flash = s.flash ∧ (s.countTrip b).cfg = s.cfg ∧
    (s.countTrip b).trust = s.trust ∧ (s.countTrip b).blk = s.blk ∧ (s.countTrip b).inj = s.inj ∧ (s.countTrip b).bays = s.bays := by
  unfold State.countTrip
  refine ⟨?_, ?_, ?_, ?_, ?_, ?_, ?_, ?_, ?_, ?_⟩ <;> (try simp) <;> repeat' (first | intro _ | (split <;> try simp))

@[simp] theorem State.lmonTripBay_frame (s : State) (b : BayId) :
    (s.lmonTripBay b).pending = s.pending ∧ (s.lmonTripBay b).free = s.free ∧ (s.lmonTripBay b).ham = s.ham ∧
    (s.lmonTripBay b).mem = s.mem ∧ (s.lmonTripBay b).flash = s.flash ∧ (s.lmonTripBay b).cfg = s.cfg ∧
    (s.lmonTripBay b).trust = s.trust ∧ (s.lmonTripBay b).blk = s.blk ∧ (s.lmonTripBay b).inj = s.inj ∧
    (s.lmonTripBay b).bays = s.bays := by
  unfold State.lmonTripBay
  refine ⟨?_, ?_, ?_, ?_, ?_, ?_, ?_, ?_, ?_, ?_⟩ <;> (try simp) <;> repeat' (first | intro _ | (split <;> try simp))

@[simp] theorem State.islandFail_frame (s : State) (e : Ev) :
    (s.islandFail e).pending = s.pending ∧ (s.islandFail e).free = s.free ∧ (s.islandFail e).ham = s.ham ∧
    (s.islandFail e).mem = s.mem ∧ (s.islandFail e).flash = s.flash ∧ (s.islandFail e).cfg = s.cfg ∧
    (s.islandFail e).trust = s.trust ∧ (s.islandFail e).blk = s.blk ∧ (s.islandFail e).inj = s.inj ∧
    (s.islandFail e).bays = s.bays := by
  unfold State.islandFail
  refine ⟨?_, ?_, ?_, ?_, ?_, ?_, ?_, ?_, ?_, ?_⟩ <;> (try simp) <;> repeat' (first | intro _ | (split <;> try simp))

@[simp] theorem State.islandSystemReset_frame (s : State) :
    (s.islandSystemReset).pending = s.pending ∧ (s.islandSystemReset).free = s.free ∧ (s.islandSystemReset).host = s.host ∧
    (s.islandSystemReset).ev = s.ev ∧ (s.islandSystemReset).ham = s.ham ∧ (s.islandSystemReset).mem = s.mem ∧
    (s.islandSystemReset).flash = s.flash ∧ (s.islandSystemReset).cfg = s.cfg ∧ (s.islandSystemReset).trust = s.trust ∧
    (s.islandSystemReset).blk = s.blk ∧ (s.islandSystemReset).inj = s.inj ∧ (s.islandSystemReset).chip = s.chip ∧
    (s.islandSystemReset).bays = s.bays := by
  unfold State.islandSystemReset
  refine ⟨?_, ?_, ?_, ?_, ?_, ?_, ?_, ?_, ?_, ?_, ?_, ?_, ?_⟩ <;> (try simp) <;> repeat' (first | intro _ | (split <;> try simp))

@[simp] theorem State.watchBays_frame (s : State) :
    (s.watchBays).pending = s.pending ∧ (s.watchBays).out = s.out ∧ (s.watchBays).free = s.free ∧ (s.watchBays).host = s.host ∧
    (s.watchBays).ev = s.ev ∧ (s.watchBays).ham = s.ham ∧ (s.watchBays).mem = s.mem ∧ (s.watchBays).flash = s.flash ∧
    (s.watchBays).cfg = s.cfg ∧ (s.watchBays).trust = s.trust ∧ (s.watchBays).blk = s.blk ∧ (s.watchBays).inj = s.inj ∧
    (s.watchBays).chip = s.chip ∧ (s.watchBays).bays = s.bays := by
  unfold State.watchBays
  refine ⟨?_, ?_, ?_, ?_, ?_, ?_, ?_, ?_, ?_, ?_, ?_, ?_, ?_, ?_⟩ <;> (try simp) <;> repeat' (first | intro _ | (split <;> try simp))

@[simp] theorem State.requestS_frame (s : State) (b : BayId) (ilkHighMs : Nat) :
    (s.requestS b ilkHighMs).pending = s.pending ∧ (s.requestS b ilkHighMs).free = s.free ∧
    (s.requestS b ilkHighMs).host = s.host ∧ (s.requestS b ilkHighMs).ev = s.ev ∧ (s.requestS b ilkHighMs).ham = s.ham ∧
    (s.requestS b ilkHighMs).mem = s.mem ∧ (s.requestS b ilkHighMs).flash = s.flash ∧ (s.requestS b ilkHighMs).cfg = s.cfg ∧
    (s.requestS b ilkHighMs).trust = s.trust ∧ (s.requestS b ilkHighMs).blk = s.blk ∧ (s.requestS b ilkHighMs).inj = s.inj ∧
    (s.requestS b ilkHighMs).chip = s.chip ∧ (s.requestS b ilkHighMs).bays = s.bays := by
  unfold State.requestS
  refine ⟨?_, ?_, ?_, ?_, ?_, ?_, ?_, ?_, ?_, ?_, ?_, ?_, ?_⟩ <;> (try simp) <;> repeat' (first | intro _ | (split <;> try simp))

@[simp] theorem State.requestL_frame (s : State) (b : BayId) (ilkHighMs lmonHighMs : Nat) :
    (s.requestL b ilkHighMs lmonHighMs).pending = s.pending ∧ (s.requestL b ilkHighMs lmonHighMs).free = s.free ∧
    (s.requestL b ilkHighMs lmonHighMs).host = s.host ∧ (s.requestL b ilkHighMs lmonHighMs).ev = s.ev ∧
    (s.requestL b ilkHighMs lmonHighMs).ham = s.ham ∧ (s.requestL b ilkHighMs lmonHighMs).mem = s.mem ∧
    (s.requestL b ilkHighMs lmonHighMs).flash = s.flash ∧ (s.requestL b ilkHighMs lmonHighMs).cfg = s.cfg ∧
    (s.requestL b ilkHighMs lmonHighMs).trust = s.trust ∧ (s.requestL b ilkHighMs lmonHighMs).blk = s.blk ∧
    (s.requestL b ilkHighMs lmonHighMs).inj = s.inj ∧ (s.requestL b ilkHighMs lmonHighMs).chip = s.chip ∧
    (s.requestL b ilkHighMs lmonHighMs).bays = s.bays := by
  unfold State.requestL
  refine ⟨?_, ?_, ?_, ?_, ?_, ?_, ?_, ?_, ?_, ?_, ?_, ?_, ?_⟩ <;> (try simp) <;> repeat' (first | intro _ | (split <;> try simp))

end Sys2Proof.Machine
end

