-- ==== Sys2Proof/Laws/FrameChipOps.lean ====
section
/-! SUPPORT. What the operations of Machine/ChipOps.lean leave unchanged: one lemma each, the fields of the state it does not touch. -/

namespace Sys2Proof.Machine

theorem withBay_next {b : BayId} {s t : State} {f : State → State} (h : withBay b s f = .next t) :
    s.bayExists b = true ∧ (f s).after b = t := by
  unfold withBay at h; split at h
  · rename_i hc; injection h with h; exact ⟨hc, h⟩
  · contradiction

theorem withRegion_next {r : RegionId} {s t : State} {f : State → State} (h : withRegion r s f = .next t) :
    (r.val < 2 || s.trust.shadow.part == .YX3216) = true ∧ f s = t := by
  unfold withRegion at h; split at h
  · rename_i hc; injection h with h; exact ⟨hc, h⟩
  · contradiction

theorem onRegion_next {r : Nat} {s t : State} {f : State → State} (h : onRegion r s f = .next t) :
    s.regionExists r = true ∧ f s = t := by
  unfold onRegion at h; split at h
  · rename_i hc; injection h with h; exact ⟨hc, h⟩
  · contradiction

@[simp] theorem State.refreshReady_frame (s : State) (b : BayId) :
    (s.refreshReady b).pending = s.pending ∧ (s.refreshReady b).out = s.out ∧ (s.refreshReady b).free = s.free ∧
    (s.refreshReady b).ev = s.ev ∧ (s.refreshReady b).ham = s.ham ∧ (s.refreshReady b).mem = s.mem ∧
    (s.refreshReady b).flash = s.flash ∧ (s.refreshReady b).cfg = s.cfg ∧ (s.refreshReady b).trust = s.trust ∧
    (s.refreshReady b).blk = s.blk ∧ (s.refreshReady b).isl = s.isl ∧ (s.refreshReady b).inj = s.inj ∧
    (s.refreshReady b).chip = s.chip := by
  unfold State.refreshReady
  refine ⟨?_, ?_, ?_, ?_, ?_, ?_, ?_, ?_, ?_, ?_, ?_, ?_, ?_⟩ <;> (try simp) <;> repeat' (first | intro _ | (split <;> try simp))

@[simp] theorem State.after_frame (s : State) (b : BayId) :
    (s.after b).pending = s.pending ∧ (s.after b).out = s.out ∧ (s.after b).free = s.free ∧ (s.after b).ev = s.ev ∧
    (s.after b).mem = s.mem ∧ (s.after b).flash = s.flash ∧ (s.after b).cfg = s.cfg ∧ (s.after b).trust = s.trust ∧
    (s.after b).blk = s.blk ∧ (s.after b).isl = s.isl ∧ (s.after b).inj = s.inj ∧ (s.after b).chip = s.chip := by
  unfold State.after
  refine ⟨?_, ?_, ?_, ?_, ?_, ?_, ?_, ?_, ?_, ?_, ?_, ?_⟩ <;> (try simp) <;> repeat' (first | intro _ | (split <;> try simp))

@[simp] theorem State.chipFatal_frame (s : State) (cause : FatalCause) (kind inst : Nat) :
    (s.chipFatal cause kind inst).pending = s.pending ∧ (s.chipFatal cause kind inst).free = s.free ∧
    (s.chipFatal cause kind inst).ham = s.ham ∧ (s.chipFatal cause kind inst).mem = s.mem ∧
    (s.chipFatal cause kind inst).flash = s.flash ∧ (s.chipFatal cause kind inst).cfg = s.cfg ∧
    (s.chipFatal cause kind inst).trust = s.trust ∧ (s.chipFatal cause kind inst).inj = s.inj ∧
    (s.chipFatal cause kind inst).bays = s.bays := by
  unfold State.chipFatal
  refine ⟨?_, ?_, ?_, ?_, ?_, ?_, ?_, ?_, ?_⟩ <;> (try simp) <;> repeat' (first | intro _ | (split <;> try simp))

@[simp] theorem State.systemReset_frame (s : State) :
    (s.systemReset).pending = s.pending ∧ (s.systemReset).free = s.free ∧ (s.systemReset).flash.mem = s.flash.mem ∧
    (s.systemReset).trust.fuses = s.trust.fuses := by
  unfold State.systemReset
  refine ⟨?_, ?_, ?_, ?_⟩ <;> (try simp) <;> repeat' (first | intro _ | (split <;> try simp))

@[simp] theorem State.assertSystem_frame (s : State) (bit : Nat) :
    (s.assertSystem bit).pending = s.pending ∧ (s.assertSystem bit).free = s.free ∧ (s.assertSystem bit).flash.mem = s.flash.mem ∧
    (s.assertSystem bit).trust.fuses = s.trust.fuses := by
  unfold State.assertSystem
  refine ⟨?_, ?_, ?_, ?_⟩ <;> (try simp) <;> repeat' (first | intro _ | (split <;> try simp))

@[simp] theorem State.assertPower_frame (s : State) :
    (s.assertPower).pending = s.pending ∧ (s.assertPower).free = s.free ∧ (s.assertPower).flash.mem = s.flash.mem ∧
    (s.assertPower).trust.fuses = s.trust.fuses := by
  unfold State.assertPower
  refine ⟨?_, ?_, ?_, ?_⟩ <;> (try simp) <;> repeat' (first | intro _ | (split <;> try simp))

@[simp] theorem State.releaseSource_frame (s : State) (src : Nat) :
    (s.releaseSource src).pending = s.pending ∧ (s.releaseSource src).out = s.out ∧ (s.releaseSource src).free = s.free ∧
    (s.releaseSource src).ev = s.ev ∧ (s.releaseSource src).ham = s.ham ∧ (s.releaseSource src).mem = s.mem ∧
    (s.releaseSource src).flash = s.flash ∧ (s.releaseSource src).cfg = s.cfg ∧ (s.releaseSource src).trust = s.trust ∧
    (s.releaseSource src).blk = s.blk ∧ (s.releaseSource src).isl = s.isl ∧ (s.releaseSource src).inj = s.inj ∧
    (s.releaseSource src).bays = s.bays := by
  unfold State.releaseSource
  refine ⟨?_, ?_, ?_, ?_, ?_, ?_, ?_, ?_, ?_, ?_, ?_, ?_, ?_⟩ <;> (try simp) <;> repeat' (first | intro _ | (split <;> try simp))

@[simp] theorem State.assertCore_frame (s : State) (bit : Nat) :
    (s.assertCore bit).pending = s.pending ∧ (s.assertCore bit).out = s.out ∧ (s.assertCore bit).free = s.free ∧
    (s.assertCore bit).ev = s.ev ∧ (s.assertCore bit).ham = s.ham ∧ (s.assertCore bit).mem = s.mem ∧
    (s.assertCore bit).cfg = s.cfg ∧ (s.assertCore bit).trust = s.trust ∧ (s.assertCore bit).blk = s.blk ∧
    (s.assertCore bit).isl = s.isl ∧ (s.assertCore bit).inj = s.inj ∧ (s.assertCore bit).flash.mem = s.flash.mem := by
  unfold State.assertCore
  refine ⟨?_, ?_, ?_, ?_, ?_, ?_, ?_, ?_, ?_, ?_, ?_, ?_⟩ <;> (try simp) <;> repeat' (first | intro _ | (split <;> try simp))

@[simp] theorem State.coreFate_frame (s : State) (c : Cmd) :
    (s.coreFate c).pending = s.pending ∧ (s.coreFate c).out = s.out ∧ (s.coreFate c).free = s.free ∧ (s.coreFate c).ev = s.ev ∧
    (s.coreFate c).flash = s.flash ∧ (s.coreFate c).trust = s.trust ∧ (s.coreFate c).blk = s.blk ∧ (s.coreFate c).isl = s.isl ∧
    (s.coreFate c).inj = s.inj ∧ (s.coreFate c).chip = s.chip ∧ (s.coreFate c).bays = s.bays ∧
    (s.coreFate c).mem.ddr = s.mem.ddr := by
  unfold State.coreFate
  refine ⟨?_, ?_, ?_, ?_, ?_, ?_, ?_, ?_, ?_, ?_, ?_, ?_⟩ <;> (try simp) <;> repeat' (first | intro _ | (split <;> (try (rename_i h; replace h := congrArg Prod.snd h; dsimp only at h; subst h)) <;> try simp) | ((first | rw [State.foldl_pending] | rw [State.foldl2_pending] | rw [State.foldl_out] | rw [State.foldl2_out] | rw [State.foldl_free] | rw [State.foldl2_free] | rw [State.foldl_ev] | rw [State.foldl2_ev] | rw [State.foldl_flash] | rw [State.foldl2_flash] | rw [State.foldl_trust] | rw [State.foldl2_trust] | rw [State.foldl_blk] | rw [State.foldl2_blk] | rw [State.foldl_isl] | rw [State.foldl2_isl] | rw [State.foldl_inj] | rw [State.foldl2_inj] | rw [State.foldl_chip] | rw [State.foldl2_chip] | rw [State.foldl_bays] | rw [State.foldl2_bays] | rw [State.foldl_mem_ddr] | rw [State.foldl2_mem_ddr]) <;> intros <;> try simp))

@[simp] theorem State.postHeld_frame (s : State) :
    (s.postHeld).pending = s.pending ∧ (s.postHeld).free = s.free ∧ (s.postHeld).ham = s.ham ∧ (s.postHeld).mem = s.mem ∧
    (s.postHeld).flash = s.flash ∧ (s.postHeld).cfg = s.cfg ∧ (s.postHeld).trust = s.trust ∧ (s.postHeld).blk = s.blk ∧
    (s.postHeld).isl = s.isl ∧ (s.postHeld).inj = s.inj ∧ (s.postHeld).chip = s.chip ∧ (s.postHeld).bays = s.bays := by
  unfold State.postHeld
  refine ⟨?_, ?_, ?_, ?_, ?_, ?_, ?_, ?_, ?_, ?_, ?_, ?_⟩ <;> (try simp) <;> repeat' (first | intro _ | (split <;> try simp))

@[simp] theorem State.postEngine_frame (s : State) (q : EvQueue) :
    (s.postEngine q).pending = s.pending ∧ (s.postEngine q).out = s.out ∧ (s.postEngine q).free = s.free ∧
    (s.postEngine q).host = s.host ∧ (s.postEngine q).ham = s.ham ∧ (s.postEngine q).mem = s.mem ∧
    (s.postEngine q).flash = s.flash ∧ (s.postEngine q).cfg = s.cfg ∧ (s.postEngine q).trust = s.trust ∧
    (s.postEngine q).blk = s.blk ∧ (s.postEngine q).isl = s.isl ∧ (s.postEngine q).inj = s.inj ∧ (s.postEngine q).chip = s.chip ∧
    (s.postEngine q).bays = s.bays := by
  unfold State.postEngine
  refine ⟨?_, ?_, ?_, ?_, ?_, ?_, ?_, ?_, ?_, ?_, ?_, ?_, ?_, ?_⟩ <;> (try simp) <;> repeat' (first | intro _ | (split <;> try simp))

@[simp] theorem State.postEngines_frame (s : State) :
    (s.postEngines).pending = s.pending ∧ (s.postEngines).out = s.out ∧ (s.postEngines).free = s.free ∧
    (s.postEngines).host = s.host ∧ (s.postEngines).ham = s.ham ∧ (s.postEngines).mem = s.mem ∧ (s.postEngines).flash = s.flash ∧
    (s.postEngines).cfg = s.cfg ∧ (s.postEngines).trust = s.trust ∧ (s.postEngines).blk = s.blk ∧ (s.postEngines).isl = s.isl ∧
    (s.postEngines).inj = s.inj ∧ (s.postEngines).chip = s.chip ∧ (s.postEngines).bays = s.bays := by
  unfold State.postEngines
  refine ⟨?_, ?_, ?_, ?_, ?_, ?_, ?_, ?_, ?_, ?_, ?_, ?_, ?_, ?_⟩ <;> (try simp) <;> repeat' (first | intro _ | (split <;> try simp))

@[simp] theorem State.coresReturn_frame (s : State) :
    (s.coresReturn).pending = s.pending ∧ (s.coresReturn).free = s.free ∧ (s.coresReturn).flash = s.flash ∧
    (s.coresReturn).trust = s.trust ∧ (s.coresReturn).blk = s.blk ∧ (s.coresReturn).isl = s.isl ∧ (s.coresReturn).inj = s.inj ∧
    (s.coresReturn).mem.ddr = s.mem.ddr := by
  unfold State.coresReturn
  refine ⟨?_, ?_, ?_, ?_, ?_, ?_, ?_, ?_⟩ <;> (try simp) <;> repeat' (first | intro _ | (split <;> (try (rename_i h; replace h := congrArg Prod.snd h; dsimp only at h; subst h)) <;> try simp) | ((first | rw [State.foldl_pending] | rw [State.foldl2_pending] | rw [State.foldl_free] | rw [State.foldl2_free] | rw [State.foldl_flash] | rw [State.foldl2_flash] | rw [State.foldl_trust] | rw [State.foldl2_trust] | rw [State.foldl_blk] | rw [State.foldl2_blk] | rw [State.foldl_isl] | rw [State.foldl2_isl] | rw [State.foldl_inj] | rw [State.foldl2_inj] | rw [State.foldl_mem_ddr] | rw [State.foldl2_mem_ddr]) <;> intros <;> try simp))

end Sys2Proof.Machine
end

