-- ==== Sys2Proof/Laws/State.lean ====
section
/-! SUPPORT. What reading gives after an update: bays, pickups, sleds, outputs. -/

namespace Sys2Proof.Machine

@[simp] theorem State.setBay_bay (s : State) (b : BayId) (v : Bay) : (s.setBay b v).bay b = v := by
  show (s.bays.set b.val v b.isLt)[b.val] = v
  exact Vector.getElem_set_self ..

theorem State.setBay_bay_other (s : State) (b c : BayId) (v : Bay) (h : b ≠ c) : (s.setBay b v).bay c = s.bay c := by
  have hv : b.val ≠ c.val := fun e => h (Fin.ext e)
  show (s.bays.set b.val v b.isLt)[c.val] = s.bays[c.val]
  exact Vector.getElem_set_ne _ _ hv

@[simp] theorem State.updBay_bay (s : State) (b : BayId) (f : Bay → Bay) : (s.updBay b f).bay b = f (s.bay b) := by
  simp [State.updBay]

theorem State.updBay_bay_other (s : State) (b c : BayId) (f : Bay → Bay) (h : b ≠ c) : (s.updBay b f).bay c = s.bay c := by
  simp [State.updBay, State.setBay_bay_other, h]

@[simp] theorem Bay.setPu_pu (y : Bay) (p : Pu) (v : Pickup) : (y.setPu p v).pu p = v := by cases p <;> rfl

theorem Bay.setPu_pu_other (y : Bay) (p q : Pu) (v : Pickup) (h : p ≠ q) : (y.setPu p v).pu q = y.pu q := by
  cases p <;> cases q <;> first | rfl | exact absurd rfl h

@[simp] theorem Bay.setSled_sled (y : Bay) (p : Pu) (v : Sled) : (y.setSled p v).sled p = v := by cases p <;> rfl

theorem Bay.setSled_sled_other (y : Bay) (p q : Pu) (v : Sled) (h : p ≠ q) : (y.setSled p v).sled q = y.sled q := by
  cases p <;> cases q <;> first | rfl | exact absurd rfl h

@[simp] theorem Bay.setSled_pu (y : Bay) (p q : Pu) (v : Sled) : (y.setSled p v).pu q = y.pu q := by cases p <;> cases q <;> rfl

@[simp] theorem Bay.setPu_sled (y : Bay) (p q : Pu) (v : Pickup) : (y.setPu p v).sled q = y.sled q := by cases p <;> cases q <;> rfl

/-- The parts of a bay beside its pickups. -/
@[simp] theorem Bay.setPu_frame (y : Bay) (p : Pu) (v : Pickup) :
    (y.setPu p v).spare = y.spare ∧ (y.setPu p v).mlink = y.mlink ∧ (y.setPu p v).spindle = y.spindle ∧
    (y.setPu p v).sledA = y.sledA ∧ (y.setPu p v).sledB = y.sledB ∧ (y.setPu p v).ref = y.ref ∧
    (y.setPu p v).disc = y.disc := by
  cases p <;> exact ⟨rfl, rfl, rfl, rfl, rfl, rfl, rfl⟩

/-- The parts of a bay beside its sleds. -/
@[simp] theorem Bay.setSled_frame (y : Bay) (p : Pu) (v : Sled) :
    (y.setSled p v).spare = y.spare ∧ (y.setSled p v).mlink = y.mlink ∧ (y.setSled p v).spindle = y.spindle ∧
    (y.setSled p v).pa = y.pa ∧ (y.setSled p v).pb = y.pb ∧ (y.setSled p v).ref = y.ref ∧ (y.setSled p v).disc = y.disc := by
  cases p <;> exact ⟨rfl, rfl, rfl, rfl, rfl, rfl, rfl⟩

@[simp] theorem State.updPu_pu (s : State) (b : BayId) (p : Pu) (f : Pickup → Pickup) : (s.updPu b p f).pu b p = f (s.pu b p) := by
  simp [State.updPu, State.pu]

theorem State.updPu_pu_other (s : State) (b : BayId) (p q : Pu) (f : Pickup → Pickup) (h : p ≠ q) :
    (s.updPu b p f).pu b q = s.pu b q := by
  simp [State.updPu, State.pu, Bay.setPu_pu_other, h]

theorem State.updPu_bay_other (s : State) (b c : BayId) (p : Pu) (f : Pickup → Pickup) (h : b ≠ c) :
    (s.updPu b p f).bay c = s.bay c := by
  simp [State.updPu, State.updBay_bay_other, h]

@[simp] theorem State.updSled_sled (s : State) (b : BayId) (p : Pu) (f : Sled → Sled) :
    ((s.updSled b p f).bay b).sled p = f ((s.bay b).sled p) := by
  simp [State.updSled]

theorem State.updSled_bay_other (s : State) (b c : BayId) (p : Pu) (f : Sled → Sled) (h : b ≠ c) :
    (s.updSled b p f).bay c = s.bay c := by
  simp [State.updSled, State.updBay_bay_other, h]

@[simp] theorem State.emit_out (s : State) (o : Output) : (s.emit o).out = o :: s.out := rfl

end Sys2Proof.Machine
end

