-- ==== Sys2Proof/Laws/After.lean ====
section
/-! SUPPORT. A command about a bay runs where the bay exists, and what follows it touches nothing of the bay but its readiness. -/

namespace Sys2Proof.Machine

theorem withBay_run {b : BayId} {s : State} {f : State → State} (h : s.bayExists b = true) :
    withBay b s f = .next ((f s).after b) := by
  unfold withBay; rw [if_pos h]

theorem withRegion_run {r : RegionId} {s : State} {f : State → State} (h : (r.val < 2 || s.trust.shadow.part == .YX3216) = true) :
    withRegion r s f = .next (f s) := by
  unfold withRegion; rw [if_pos h]

theorem State.after_bay (s : State) (b c : BayId) : ∃ r, (s.after b).bay c = { s.bay c with ready := r } := by
  have h : ∀ t : State, t.bays = s.bays → ∃ r, (t.refreshReady b).bay c = { s.bay c with ready := r } := by
    intro t ht
    have hb : t.bay c = s.bay c := by unfold State.bay; rw [ht]
    unfold State.refreshReady
    dsimp only
    split
    · exact ⟨(s.bay c).ready, by rw [hb]⟩
    · have hg : ∀ x : State, x.bumpGen.bay c = x.bay c := fun x => by
        have := (State.bumpGen_frame x); unfold State.bay; simp
      rw [hg]
      by_cases hc : b = c
      · subst hc
        exact ⟨t.bayReadyNow b, by rw [State.updBay_bay, hb]⟩
      · exact ⟨(s.bay c).ready, by rw [State.updBay_bay_other _ _ _ _ hc, hb]⟩
  obtain ⟨r, hr⟩ := h s rfl
  refine ⟨r, ?_⟩
  rw [← hr]
  unfold State.after State.bay
  simp

@[simp] theorem State.after_pu (s : State) (b c : BayId) (p : Pu) : (s.after b).pu c p = s.pu c p := by
  obtain ⟨r, h⟩ := State.after_bay s b c
  unfold State.pu; rw [h]; cases p <;> rfl

@[simp] theorem State.after_parts (s : State) (b c : BayId) :
    ((s.after b).bay c).pa = (s.bay c).pa ∧ ((s.after b).bay c).pb = (s.bay c).pb ∧ ((s.after b).bay c).spare = (s.bay c).spare ∧
    ((s.after b).bay c).mlink = (s.bay c).mlink ∧ ((s.after b).bay c).spindle = (s.bay c).spindle ∧
    ((s.after b).bay c).sledA = (s.bay c).sledA ∧ ((s.after b).bay c).sledB = (s.bay c).sledB ∧
    ((s.after b).bay c).ref = (s.bay c).ref ∧ ((s.after b).bay c).disc = (s.bay c).disc ∧
    ((s.after b).bay c).cal = (s.bay c).cal ∧ ((s.after b).bay c).upAt = (s.bay c).upAt ∧
    ((s.after b).bay c).radius = (s.bay c).radius ∧ ((s.after b).bay c).zone = (s.bay c).zone := by
  obtain ⟨r, h⟩ := State.after_bay s b c
  rw [h]
  exact ⟨rfl, rfl, rfl, rfl, rfl, rfl, rfl, rfl, rfl, rfl, rfl, rfl, rfl⟩

@[simp] theorem State.after_sled (s : State) (b c : BayId) (p : Pu) : ((s.after b).bay c).sled p = (s.bay c).sled p := by
  obtain ⟨r, h⟩ := State.after_bay s b c
  rw [h]; cases p <;> rfl

end Sys2Proof.Machine
end

