-- ==== Sys2Proof/Laws/FrameImage.lean ====
section
/-! SUPPORT. What the operations of Machine/Image.lean leave unchanged: one lemma each, the fields of the state it does not touch. -/

namespace Sys2Proof.Machine

@[simp] theorem State.extend_frame (s : State) (slot etype res key obj src : Nat) (detail digest : Bytes) :
    (s.extend slot etype res key obj src detail digest).pending = s.pending ∧
    (s.extend slot etype res key obj src detail digest).out = s.out ∧
    (s.extend slot etype res key obj src detail digest).free = s.free ∧
    (s.extend slot etype res key obj src detail digest).host = s.host ∧
    (s.extend slot etype res key obj src detail digest).ev = s.ev ∧
    (s.extend slot etype res key obj src detail digest).ham = s.ham ∧
    (s.extend slot etype res key obj src detail digest).mem = s.mem ∧
    (s.extend slot etype res key obj src detail digest).flash = s.flash ∧
    (s.extend slot etype res key obj src detail digest).cfg = s.cfg ∧
    (s.extend slot etype res key obj src detail digest).blk = s.blk ∧
    (s.extend slot etype res key obj src detail digest).isl = s.isl ∧
    (s.extend slot etype res key obj src detail digest).inj = s.inj ∧
    (s.extend slot etype res key obj src detail digest).chip = s.chip ∧
    (s.extend slot etype res key obj src detail digest).bays = s.bays ∧
    (s.extend slot etype res key obj src detail digest).trust.fuses = s.trust.fuses := by
  unfold State.extend
  refine ⟨?_, ?_, ?_, ?_, ?_, ?_, ?_, ?_, ?_, ?_, ?_, ?_, ?_, ?_, ?_⟩ <;> (try simp) <;> repeat' (first | intro _ | (split <;> try simp))

@[simp] theorem State.measureCode_frame (s : State) (loader : Bool) (slot : Nat) :
    (s.measureCode loader slot).2.pending = s.pending ∧ (s.measureCode loader slot).2.out = s.out ∧
    (s.measureCode loader slot).2.free = s.free ∧ (s.measureCode loader slot).2.host = s.host ∧
    (s.measureCode loader slot).2.ev = s.ev ∧ (s.measureCode loader slot).2.ham = s.ham ∧
    (s.measureCode loader slot).2.mem = s.mem ∧ (s.measureCode loader slot).2.flash = s.flash ∧
    (s.measureCode loader slot).2.cfg = s.cfg ∧ (s.measureCode loader slot).2.blk = s.blk ∧
    (s.measureCode loader slot).2.isl = s.isl ∧ (s.measureCode loader slot).2.inj = s.inj ∧
    (s.measureCode loader slot).2.chip = s.chip ∧ (s.measureCode loader slot).2.bays = s.bays ∧
    (s.measureCode loader slot).2.trust.fuses = s.trust.fuses := by
  unfold State.measureCode
  refine ⟨?_, ?_, ?_, ?_, ?_, ?_, ?_, ?_, ?_, ?_, ?_, ?_, ?_, ?_, ?_⟩ <;> (try simp) <;> repeat' (first | intro _ | (split <;> try simp))

@[simp] theorem State.measureImage_frame (s : State) (slot : Nat) :
    (s.measureImage slot).2.pending = s.pending ∧ (s.measureImage slot).2.out = s.out ∧ (s.measureImage slot).2.free = s.free ∧
    (s.measureImage slot).2.host = s.host ∧ (s.measureImage slot).2.ev = s.ev ∧ (s.measureImage slot).2.ham = s.ham ∧
    (s.measureImage slot).2.mem = s.mem ∧ (s.measureImage slot).2.flash = s.flash ∧ (s.measureImage slot).2.cfg = s.cfg ∧
    (s.measureImage slot).2.blk = s.blk ∧ (s.measureImage slot).2.isl = s.isl ∧ (s.measureImage slot).2.inj = s.inj ∧
    (s.measureImage slot).2.chip = s.chip ∧ (s.measureImage slot).2.bays = s.bays ∧
    (s.measureImage slot).2.trust.fuses = s.trust.fuses := by
  unfold State.measureImage
  refine ⟨?_, ?_, ?_, ?_, ?_, ?_, ?_, ?_, ?_, ?_, ?_, ?_, ?_, ?_, ?_⟩ <;> (try simp) <;> repeat' (first | intro _ | (split <;> try simp))

@[simp] theorem State.islandStart_frame (s : State) :
    (s.islandStart).pending = s.pending ∧ (s.islandStart).free = s.free ∧ (s.islandStart).ham = s.ham ∧
    (s.islandStart).mem = s.mem ∧ (s.islandStart).flash = s.flash ∧ (s.islandStart).cfg = s.cfg ∧
    (s.islandStart).trust = s.trust ∧ (s.islandStart).blk = s.blk ∧ (s.islandStart).inj = s.inj ∧ (s.islandStart).bays = s.bays := by
  unfold State.islandStart
  refine ⟨?_, ?_, ?_, ?_, ?_, ?_, ?_, ?_, ?_, ?_⟩ <;> (try simp) <;> repeat' (first | intro _ | (split <;> try simp))

@[simp] theorem State.islandCommit_frame (s : State) :
    (s.islandCommit).pending = s.pending ∧ (s.islandCommit).out = s.out ∧ (s.islandCommit).free = s.free ∧
    (s.islandCommit).host = s.host ∧ (s.islandCommit).ev = s.ev ∧ (s.islandCommit).ham = s.ham ∧ (s.islandCommit).mem = s.mem ∧
    (s.islandCommit).flash = s.flash ∧ (s.islandCommit).cfg = s.cfg ∧ (s.islandCommit).trust = s.trust ∧
    (s.islandCommit).blk = s.blk ∧ (s.islandCommit).inj = s.inj ∧ (s.islandCommit).chip = s.chip ∧
    (s.islandCommit).bays = s.bays := by
  unfold State.islandCommit
  refine ⟨?_, ?_, ?_, ?_, ?_, ?_, ?_, ?_, ?_, ?_, ?_, ?_, ?_, ?_⟩ <;> (try simp) <;> repeat' (first | intro _ | (split <;> try simp))

@[simp] theorem State.selectImage_frame (s : State) :
    (s.selectImage).pending = s.pending ∧ (s.selectImage).free = s.free ∧ (s.selectImage).ham = s.ham ∧
    (s.selectImage).mem = s.mem ∧ (s.selectImage).blk = s.blk ∧ (s.selectImage).isl = s.isl ∧ (s.selectImage).inj = s.inj ∧
    (s.selectImage).bays = s.bays ∧ (s.selectImage).trust.fuses = s.trust.fuses := by
  unfold State.selectImage
  refine ⟨?_, ?_, ?_, ?_, ?_, ?_, ?_, ?_, ?_⟩ <;> (try simp) <;> repeat' (first | intro _ | (split <;> try simp))

@[simp] theorem State.commitImage_frame (s : State) (c : Cfg) (seq slot : Nat) :
    (s.commitImage c seq slot).pending = s.pending ∧ (s.commitImage c seq slot).out = s.out ∧
    (s.commitImage c seq slot).free = s.free ∧ (s.commitImage c seq slot).host = s.host ∧ (s.commitImage c seq slot).ev = s.ev ∧
    (s.commitImage c seq slot).ham = s.ham ∧ (s.commitImage c seq slot).mem = s.mem ∧ (s.commitImage c seq slot).flash = s.flash ∧
    (s.commitImage c seq slot).trust = s.trust ∧ (s.commitImage c seq slot).blk = s.blk ∧ (s.commitImage c seq slot).inj = s.inj ∧
    (s.commitImage c seq slot).chip = s.chip := by
  unfold State.commitImage
  refine ⟨?_, ?_, ?_, ?_, ?_, ?_, ?_, ?_, ?_, ?_, ?_, ?_⟩ <;> (try simp) <;> repeat' (first | intro _ | (split <;> try simp))

end Sys2Proof.Machine
end

