-- ==== Sys2Proof/Laws/FrameHostOps.lean ====
section
/-! SUPPORT. What the operations of Machine/HostOps.lean leave unchanged: one lemma each, the fields of the state it does not touch. -/

namespace Sys2Proof.Machine

@[simp] theorem State.fnReady_frame (s : State) (f : FnId) :
    (s.fnReady f).pending = s.pending ∧ (s.fnReady f).out = s.out ∧ (s.fnReady f).free = s.free ∧ (s.fnReady f).ev = s.ev ∧
    (s.fnReady f).ham = s.ham ∧ (s.fnReady f).mem = s.mem ∧ (s.fnReady f).flash = s.flash ∧ (s.fnReady f).cfg = s.cfg ∧
    (s.fnReady f).trust = s.trust ∧ (s.fnReady f).blk = s.blk ∧ (s.fnReady f).isl = s.isl ∧ (s.fnReady f).inj = s.inj ∧
    (s.fnReady f).chip = s.chip ∧ (s.fnReady f).bays = s.bays := by
  unfold State.fnReady
  refine ⟨?_, ?_, ?_, ?_, ?_, ?_, ?_, ?_, ?_, ?_, ?_, ?_, ?_, ?_⟩ <;> (try simp) <;> repeat' (first | intro _ | (split <;> try simp))

@[simp] theorem State.flr_frame (s : State) (f : FnId) :
    (s.flr f).pending = s.pending ∧ (s.flr f).out = s.out ∧ (s.flr f).free = s.free ∧ (s.flr f).ev = s.ev ∧
    (s.flr f).ham = s.ham ∧ (s.flr f).mem = s.mem ∧ (s.flr f).flash = s.flash ∧ (s.flr f).cfg = s.cfg ∧
    (s.flr f).trust = s.trust ∧ (s.flr f).blk = s.blk ∧ (s.flr f).isl = s.isl ∧ (s.flr f).inj = s.inj ∧ (s.flr f).chip = s.chip ∧
    (s.flr f).bays = s.bays := by
  unfold State.flr
  refine ⟨?_, ?_, ?_, ?_, ?_, ?_, ?_, ?_, ?_, ?_, ?_, ?_, ?_, ?_⟩ <;> (try simp) <;> repeat' (first | intro _ | (split <;> try simp))

@[simp] theorem State.giveOrdinal_frame (s : State) (h : SlotId) (c : Cmd) :
    (s.giveOrdinal h c).pending = s.pending ∧ (s.giveOrdinal h c).out = s.out ∧ (s.giveOrdinal h c).free = s.free ∧
    (s.giveOrdinal h c).ev = s.ev ∧ (s.giveOrdinal h c).mem = s.mem ∧ (s.giveOrdinal h c).flash = s.flash ∧
    (s.giveOrdinal h c).cfg = s.cfg ∧ (s.giveOrdinal h c).trust = s.trust ∧ (s.giveOrdinal h c).blk = s.blk ∧
    (s.giveOrdinal h c).isl = s.isl ∧ (s.giveOrdinal h c).inj = s.inj ∧ (s.giveOrdinal h c).chip = s.chip ∧
    (s.giveOrdinal h c).bays = s.bays := by
  unfold State.giveOrdinal
  refine ⟨?_, ?_, ?_, ?_, ?_, ?_, ?_, ?_, ?_, ?_, ?_, ?_, ?_⟩ <;> (try simp) <;> repeat' (first | intro _ | (split <;> try simp))

@[simp] theorem State.endWrite_frame (s : State) (c : Cmd) (st : Status) :
    (s.endWrite c st).pending = s.pending ∧ (s.endWrite c st).out = s.out ∧ (s.endWrite c st).free = s.free ∧
    (s.endWrite c st).ev = s.ev ∧ (s.endWrite c st).flash = s.flash ∧ (s.endWrite c st).trust = s.trust ∧
    (s.endWrite c st).blk = s.blk ∧ (s.endWrite c st).isl = s.isl ∧ (s.endWrite c st).inj = s.inj ∧
    (s.endWrite c st).chip = s.chip ∧ (s.endWrite c st).bays = s.bays ∧ (s.endWrite c st).mem.ddr = s.mem.ddr := by
  unfold State.endWrite
  refine ⟨?_, ?_, ?_, ?_, ?_, ?_, ?_, ?_, ?_, ?_, ?_, ?_⟩ <;> (try simp) <;> repeat' (first | intro _ | (split <;> try simp))

@[simp] theorem State.endCmd_frame (s : State) (c : Cmd) (st : Status) :
    (s.endCmd c st).pending = s.pending ∧ (s.endCmd c st).out = s.out ∧ (s.endCmd c st).free = s.free ∧
    (s.endCmd c st).ev = s.ev ∧ (s.endCmd c st).flash = s.flash ∧ (s.endCmd c st).trust = s.trust ∧ (s.endCmd c st).blk = s.blk ∧
    (s.endCmd c st).isl = s.isl ∧ (s.endCmd c st).inj = s.inj ∧ (s.endCmd c st).chip = s.chip ∧ (s.endCmd c st).bays = s.bays ∧
    (s.endCmd c st).mem.ddr = s.mem.ddr := by
  unfold State.endCmd
  refine ⟨?_, ?_, ?_, ?_, ?_, ?_, ?_, ?_, ?_, ?_, ?_, ?_⟩ <;> (try simp) <;> repeat' (first | intro _ | (split <;> try simp))

@[simp] theorem State.endHeld_frame (s : State) (c : Cmd) :
    (s.endHeld c).pending = s.pending ∧ (s.endHeld c).out = s.out ∧ (s.endHeld c).free = s.free ∧ (s.endHeld c).ev = s.ev ∧
    (s.endHeld c).flash = s.flash ∧ (s.endHeld c).trust = s.trust ∧ (s.endHeld c).blk = s.blk ∧ (s.endHeld c).isl = s.isl ∧
    (s.endHeld c).inj = s.inj ∧ (s.endHeld c).chip = s.chip ∧ (s.endHeld c).bays = s.bays ∧ (s.endHeld c).mem.ddr = s.mem.ddr := by
  unfold State.endHeld
  refine ⟨?_, ?_, ?_, ?_, ?_, ?_, ?_, ?_, ?_, ?_, ?_, ?_⟩ <;> (try simp) <;> repeat' (first | intro _ | (split <;> (try (rename_i h; replace h := congrArg Prod.snd h; dsimp only at h; subst h)) <;> try simp) | ((first | rw [State.foldl_pending] | rw [State.foldl2_pending] | rw [State.foldl_out] | rw [State.foldl2_out] | rw [State.foldl_free] | rw [State.foldl2_free] | rw [State.foldl_ev] | rw [State.foldl2_ev] | rw [State.foldl_flash] | rw [State.foldl2_flash] | rw [State.foldl_trust] | rw [State.foldl2_trust] | rw [State.foldl_blk] | rw [State.foldl2_blk] | rw [State.foldl_isl] | rw [State.foldl2_isl] | rw [State.foldl_inj] | rw [State.foldl2_inj] | rw [State.foldl_chip] | rw [State.foldl2_chip] | rw [State.foldl_bays] | rw [State.foldl2_bays] | rw [State.foldl_mem_ddr] | rw [State.foldl2_mem_ddr]) <;> intros <;> try simp))

@[simp] theorem State.holdFor_frame (s : State) (c : Cmd) :
    (s.holdFor c).pending = s.pending ∧ (s.holdFor c).out = s.out ∧ (s.holdFor c).free = s.free ∧ (s.holdFor c).ev = s.ev ∧
    (s.holdFor c).flash = s.flash ∧ (s.holdFor c).trust = s.trust ∧ (s.holdFor c).blk = s.blk ∧ (s.holdFor c).isl = s.isl ∧
    (s.holdFor c).inj = s.inj ∧ (s.holdFor c).chip = s.chip ∧ (s.holdFor c).bays = s.bays ∧ (s.holdFor c).mem.ddr = s.mem.ddr := by
  unfold State.holdFor
  refine ⟨?_, ?_, ?_, ?_, ?_, ?_, ?_, ?_, ?_, ?_, ?_, ?_⟩ <;> (try simp) <;> repeat' (first | intro _ | (split <;> try simp))

@[simp] theorem State.bindHamper_frame (s : State) (order : Nat) (c : Cmd) :
    (s.bindHamper order c).pending = s.pending ∧ (s.bindHamper order c).out = s.out ∧ (s.bindHamper order c).free = s.free ∧
    (s.bindHamper order c).ev = s.ev ∧ (s.bindHamper order c).mem = s.mem ∧ (s.bindHamper order c).flash = s.flash ∧
    (s.bindHamper order c).cfg = s.cfg ∧ (s.bindHamper order c).trust = s.trust ∧ (s.bindHamper order c).blk = s.blk ∧
    (s.bindHamper order c).isl = s.isl ∧ (s.bindHamper order c).inj = s.inj ∧ (s.bindHamper order c).chip = s.chip ∧
    (s.bindHamper order c).bays = s.bays := by
  unfold State.bindHamper
  refine ⟨?_, ?_, ?_, ?_, ?_, ?_, ?_, ?_, ?_, ?_, ?_, ?_, ?_⟩ <;> (try simp) <;> repeat' (first | intro _ | (split <;> try simp))

@[simp] theorem State.admitCmd_frame (s : State) (order : Nat) :
    (s.admitCmd order).pending = s.pending ∧ (s.admitCmd order).out = s.out ∧ (s.admitCmd order).free = s.free ∧
    (s.admitCmd order).ev = s.ev ∧ (s.admitCmd order).flash = s.flash ∧ (s.admitCmd order).trust = s.trust ∧
    (s.admitCmd order).blk = s.blk ∧ (s.admitCmd order).isl = s.isl ∧ (s.admitCmd order).inj = s.inj ∧
    (s.admitCmd order).chip = s.chip ∧ (s.admitCmd order).bays = s.bays ∧ (s.admitCmd order).mem.ddr = s.mem.ddr := by
  unfold State.admitCmd
  refine ⟨?_, ?_, ?_, ?_, ?_, ?_, ?_, ?_, ?_, ?_, ?_, ?_⟩ <;> (try simp) <;> repeat' (first | intro _ | (split <;> try simp))

@[simp] theorem State.acceptEntry_frame (s : State) (f : FnId) (sr : Nat) (e : Bytes) (segs : List Bytes) :
    (s.acceptEntry f sr e segs).pending = s.pending ∧ (s.acceptEntry f sr e segs).free = s.free ∧
    (s.acceptEntry f sr e segs).flash = s.flash ∧ (s.acceptEntry f sr e segs).trust = s.trust ∧
    (s.acceptEntry f sr e segs).blk = s.blk ∧ (s.acceptEntry f sr e segs).isl = s.isl ∧ (s.acceptEntry f sr e segs).inj = s.inj ∧
    (s.acceptEntry f sr e segs).bays = s.bays ∧ (s.acceptEntry f sr e segs).mem.ddr = s.mem.ddr := by
  unfold State.acceptEntry
  refine ⟨?_, ?_, ?_, ?_, ?_, ?_, ?_, ?_, ?_⟩ <;> (try simp) <;> repeat' (first | intro _ | (split <;> try simp))

@[simp] theorem State.arbitrate_frame (s : State) :
    (s.arbitrate).2.pending = s.pending ∧ (s.arbitrate).2.out = s.out ∧ (s.arbitrate).2.free = s.free ∧
    (s.arbitrate).2.ev = s.ev ∧ (s.arbitrate).2.ham = s.ham ∧ (s.arbitrate).2.mem = s.mem ∧ (s.arbitrate).2.flash = s.flash ∧
    (s.arbitrate).2.cfg = s.cfg ∧ (s.arbitrate).2.trust = s.trust ∧ (s.arbitrate).2.blk = s.blk ∧ (s.arbitrate).2.isl = s.isl ∧
    (s.arbitrate).2.inj = s.inj ∧ (s.arbitrate).2.chip = s.chip ∧ (s.arbitrate).2.bays = s.bays := by
  unfold State.arbitrate
  refine ⟨?_, ?_, ?_, ?_, ?_, ?_, ?_, ?_, ?_, ?_, ?_, ?_, ?_, ?_⟩ <;> (try simp) <;> repeat' (first | intro _ | (split <;> try simp))

@[simp] theorem State.closeDeleted_frame (s : State) (f : FnId) :
    (s.closeDeleted f).pending = s.pending ∧ (s.closeDeleted f).out = s.out ∧ (s.closeDeleted f).free = s.free ∧
    (s.closeDeleted f).ev = s.ev ∧ (s.closeDeleted f).ham = s.ham ∧ (s.closeDeleted f).flash = s.flash ∧
    (s.closeDeleted f).trust = s.trust ∧ (s.closeDeleted f).blk = s.blk ∧ (s.closeDeleted f).isl = s.isl ∧
    (s.closeDeleted f).inj = s.inj ∧ (s.closeDeleted f).chip = s.chip ∧ (s.closeDeleted f).bays = s.bays ∧
    (s.closeDeleted f).mem.ddr = s.mem.ddr := by
  unfold State.closeDeleted
  refine ⟨?_, ?_, ?_, ?_, ?_, ?_, ?_, ?_, ?_, ?_, ?_, ?_, ?_⟩ <;> (try simp) <;> repeat' (first | intro _ | (split <;> try simp) | ((first | rw [State.foldl_pending] | rw [State.foldl2_pending] | rw [State.foldl_out] | rw [State.foldl2_out] | rw [State.foldl_free] | rw [State.foldl2_free] | rw [State.foldl_ev] | rw [State.foldl2_ev] | rw [State.foldl_ham] | rw [State.foldl2_ham] | rw [State.foldl_flash] | rw [State.foldl2_flash] | rw [State.foldl_trust] | rw [State.foldl2_trust] | rw [State.foldl_blk] | rw [State.foldl2_blk] | rw [State.foldl_isl] | rw [State.foldl2_isl] | rw [State.foldl_inj] | rw [State.foldl2_inj] | rw [State.foldl_chip] | rw [State.foldl2_chip] | rw [State.foldl_bays] | rw [State.foldl2_bays] | rw [State.foldl_mem_ddr] | rw [State.foldl2_mem_ddr]) <;> intros <;> try simp))

@[simp] theorem State.postCmd_frame (s : State) (c : Cmd) (k : Cr) (sqhd : Nat) :
    (s.postCmd c k sqhd).pending = s.pending ∧ (s.postCmd c k sqhd).free = s.free ∧ (s.postCmd c k sqhd).ev = s.ev ∧
    (s.postCmd c k sqhd).ham = s.ham ∧ (s.postCmd c k sqhd).flash = s.flash ∧ (s.postCmd c k sqhd).trust = s.trust ∧
    (s.postCmd c k sqhd).blk = s.blk ∧ (s.postCmd c k sqhd).isl = s.isl ∧ (s.postCmd c k sqhd).inj = s.inj ∧
    (s.postCmd c k sqhd).chip = s.chip ∧ (s.postCmd c k sqhd).bays = s.bays ∧ (s.postCmd c k sqhd).mem.ddr = s.mem.ddr := by
  unfold State.postCmd
  refine ⟨?_, ?_, ?_, ?_, ?_, ?_, ?_, ?_, ?_, ?_, ?_, ?_⟩ <;> (try simp) <;> repeat' (first | intro _ | (split <;> try simp))

end Sys2Proof.Machine
end

