-- ==== Sys2Proof/Laws/FrameHostRows.lean ====
section
/-! SUPPORT. What the operations of Machine/HostRows.lean leave unchanged: one lemma each, the fields of the state it does not touch. -/

namespace Sys2Proof.Machine

theorem execSrDoorbellWrite_frame (f : FnId) (sr : Nat) (value : BitVec 32) (s : State) (t : State)
    (h : execSrDoorbellWrite f sr value s = .next t) :
    t.pending = s.pending ∧ t.free = s.free ∧ t.ham = s.ham ∧ t.mem = s.mem ∧ t.flash = s.flash ∧ t.cfg = s.cfg ∧
    t.trust = s.trust ∧ t.blk = s.blk ∧ t.isl = s.isl ∧ t.inj = s.inj ∧ t.bays = s.bays := by
  unfold execSrDoorbellWrite at h
  injection h with h; subst h
  refine ⟨?_, ?_, ?_, ?_, ?_, ?_, ?_, ?_, ?_, ?_, ?_⟩ <;> (try simp) <;> repeat' (first | intro _ | (split <;> try simp))

theorem execCrHeadDoorbellWrite_frame (f : FnId) (cr : Nat) (value : BitVec 32) (s : State) (t : State)
    (h : execCrHeadDoorbellWrite f cr value s = .next t) :
    t.pending = s.pending ∧ t.free = s.free ∧ t.ham = s.ham ∧ t.mem = s.mem ∧ t.flash = s.flash ∧ t.cfg = s.cfg ∧
    t.trust = s.trust ∧ t.blk = s.blk ∧ t.isl = s.isl ∧ t.inj = s.inj ∧ t.bays = s.bays := by
  unfold execCrHeadDoorbellWrite at h
  injection h with h; subst h
  refine ⟨?_, ?_, ?_, ?_, ?_, ?_, ?_, ?_, ?_, ?_, ?_⟩ <;> (try simp) <;> repeat' (first | intro _ | (split <;> try simp))

@[simp] theorem State.msixWrite_frame (s : State) (f : FnId) (off v : Nat) :
    (s.msixWrite f off v).pending = s.pending ∧ (s.msixWrite f off v).free = s.free ∧ (s.msixWrite f off v).ev = s.ev ∧
    (s.msixWrite f off v).ham = s.ham ∧ (s.msixWrite f off v).mem = s.mem ∧ (s.msixWrite f off v).flash = s.flash ∧
    (s.msixWrite f off v).cfg = s.cfg ∧ (s.msixWrite f off v).trust = s.trust ∧ (s.msixWrite f off v).blk = s.blk ∧
    (s.msixWrite f off v).isl = s.isl ∧ (s.msixWrite f off v).inj = s.inj ∧ (s.msixWrite f off v).chip = s.chip ∧
    (s.msixWrite f off v).bays = s.bays := by
  unfold State.msixWrite
  refine ⟨?_, ?_, ?_, ?_, ?_, ?_, ?_, ?_, ?_, ?_, ?_, ?_, ?_⟩ <;> (try simp) <;> repeat' (first | intro _ | (split <;> try simp))

theorem execBarWriteOther_frame (f : FnId) (offset : Nat) (data : Bytes) (s : State) (t : State)
    (h : execBarWriteOther f offset data s = .next t) :
    t.pending = s.pending ∧ t.free = s.free ∧ t.ev = s.ev ∧ t.ham = s.ham ∧ t.mem = s.mem ∧ t.flash = s.flash ∧ t.cfg = s.cfg ∧
    t.trust = s.trust ∧ t.blk = s.blk ∧ t.isl = s.isl ∧ t.inj = s.inj ∧ t.chip = s.chip ∧ t.bays = s.bays := by
  unfold execBarWriteOther at h
  injection h with h; subst h
  refine ⟨?_, ?_, ?_, ?_, ?_, ?_, ?_, ?_, ?_, ?_, ?_, ?_, ?_⟩ <;> (try simp) <;> repeat' (first | intro _ | (split <;> try simp))

theorem execFetchGrant_frame (entries : List (Bytes × List Bytes)) (s : State) (t : State)
    (h : execFetchGrant entries s = .next t) :
    t.pending = s.pending ∧ t.free = s.free ∧ t.flash = s.flash ∧ t.trust = s.trust ∧ t.blk = s.blk ∧ t.isl = s.isl ∧
    t.inj = s.inj ∧ t.bays = s.bays ∧ t.mem.ddr = s.mem.ddr := by
  unfold execFetchGrant at h
  injection h with h; subst h
  refine ⟨?_, ?_, ?_, ?_, ?_, ?_, ?_, ?_, ?_⟩ <;> (try simp) <;> repeat' (first | intro _ | (split <;> (try (rename_i h; replace h := congrArg Prod.snd h; dsimp only at h; subst h)) <;> try simp) | ((first | rw [State.foldl_pending] | rw [State.foldl2_pending] | rw [State.foldl_free] | rw [State.foldl2_free] | rw [State.foldl_flash] | rw [State.foldl2_flash] | rw [State.foldl_trust] | rw [State.foldl2_trust] | rw [State.foldl_blk] | rw [State.foldl2_blk] | rw [State.foldl_isl] | rw [State.foldl2_isl] | rw [State.foldl_inj] | rw [State.foldl2_inj] | rw [State.foldl_bays] | rw [State.foldl2_bays] | rw [State.foldl_mem_ddr] | rw [State.foldl2_mem_ddr]) <;> intros <;> try simp))

theorem execFetchFail_frame (f : FnId) (sr : Nat) (s : State) (t : State)
    (h : execFetchFail f sr s = .next t) :
    t.pending = s.pending ∧ t.out = s.out ∧ t.free = s.free ∧ t.ev = s.ev ∧ t.ham = s.ham ∧ t.mem = s.mem ∧ t.flash = s.flash ∧
    t.cfg = s.cfg ∧ t.trust = s.trust ∧ t.blk = s.blk ∧ t.isl = s.isl ∧ t.inj = s.inj ∧ t.chip = s.chip ∧ t.bays = s.bays := by
  unfold execFetchFail at h
  injection h with h; subst h
  refine ⟨?_, ?_, ?_, ?_, ?_, ?_, ?_, ?_, ?_, ?_, ?_, ?_, ?_, ?_⟩ <;> (try simp) <;> repeat' (first | intro _ | (split <;> try simp))

theorem execDmaTransferFail_frame (f : FnId) (sr : Nat) (tag : BitVec 6) (s : State) (t : State)
    (h : execDmaTransferFail f sr tag s = .next t) :
    t.pending = s.pending ∧ t.out = s.out ∧ t.free = s.free ∧ t.ev = s.ev ∧ t.flash = s.flash ∧ t.trust = s.trust ∧
    t.blk = s.blk ∧ t.isl = s.isl ∧ t.inj = s.inj ∧ t.chip = s.chip ∧ t.bays = s.bays ∧ t.mem.ddr = s.mem.ddr := by
  unfold execDmaTransferFail at h
  injection h with h; subst h
  refine ⟨?_, ?_, ?_, ?_, ?_, ?_, ?_, ?_, ?_, ?_, ?_, ?_⟩ <;> (try simp) <;> repeat' (first | intro _ | (split <;> try simp))

theorem execCompletionPost_frame (f : FnId) (sr : Nat) (tag : BitVec 6) (s : State) (t : State)
    (h : execCompletionPost f sr tag s = .next t) :
    t.pending = s.pending ∧ t.free = s.free ∧ t.ev = s.ev ∧ t.ham = s.ham ∧ t.flash = s.flash ∧ t.trust = s.trust ∧
    t.blk = s.blk ∧ t.isl = s.isl ∧ t.inj = s.inj ∧ t.chip = s.chip ∧ t.bays = s.bays ∧ t.mem.ddr = s.mem.ddr := by
  unfold execCompletionPost at h
  injection h with h; subst h
  refine ⟨?_, ?_, ?_, ?_, ?_, ?_, ?_, ?_, ?_, ?_, ?_, ?_⟩ <;> (try simp) <;> repeat' (first | intro _ | (split <;> try simp))

theorem execCrCoalesceTimeout_frame (f : FnId) (cr : Nat) (s : State) (t : State)
    (h : execCrCoalesceTimeout f cr s = .next t) :
    t.pending = s.pending ∧ t.free = s.free ∧ t.ev = s.ev ∧ t.ham = s.ham ∧ t.mem = s.mem ∧ t.flash = s.flash ∧ t.cfg = s.cfg ∧
    t.trust = s.trust ∧ t.blk = s.blk ∧ t.isl = s.isl ∧ t.inj = s.inj ∧ t.chip = s.chip ∧ t.bays = s.bays := by
  unfold execCrCoalesceTimeout at h
  injection h with h; subst h
  refine ⟨?_, ?_, ?_, ?_, ?_, ?_, ?_, ?_, ?_, ?_, ?_, ?_, ?_⟩ <;> (try simp) <;> repeat' (first | intro _ | (split <;> try simp))

theorem execHoldLimitExpire_frame (f : FnId) (sr : Nat) (tag : BitVec 6) (s : State) (t : State)
    (h : execHoldLimitExpire f sr tag s = .next t) :
    t.pending = s.pending ∧ t.out = s.out ∧ t.free = s.free ∧ t.ev = s.ev ∧ t.flash = s.flash ∧ t.trust = s.trust ∧
    t.blk = s.blk ∧ t.isl = s.isl ∧ t.inj = s.inj ∧ t.chip = s.chip ∧ t.bays = s.bays ∧ t.mem.ddr = s.mem.ddr := by
  unfold execHoldLimitExpire at h
  injection h with h; subst h
  refine ⟨?_, ?_, ?_, ?_, ?_, ?_, ?_, ?_, ?_, ?_, ?_, ?_⟩ <;> (try simp) <;> repeat' (first | intro _ | (split <;> try simp))

@[simp] theorem State.dropVfs_frame (s : State) :
    (s.dropVfs).pending = s.pending ∧ (s.dropVfs).out = s.out ∧ (s.dropVfs).free = s.free ∧ (s.dropVfs).ev = s.ev ∧
    (s.dropVfs).ham = s.ham ∧ (s.dropVfs).mem = s.mem ∧ (s.dropVfs).flash = s.flash ∧ (s.dropVfs).cfg = s.cfg ∧
    (s.dropVfs).trust = s.trust ∧ (s.dropVfs).blk = s.blk ∧ (s.dropVfs).isl = s.isl ∧ (s.dropVfs).inj = s.inj ∧
    (s.dropVfs).chip = s.chip ∧ (s.dropVfs).bays = s.bays := by
  unfold State.dropVfs
  refine ⟨?_, ?_, ?_, ?_, ?_, ?_, ?_, ?_, ?_, ?_, ?_, ?_, ?_, ?_⟩ <;> (try simp) <;> repeat' (first | intro _ | (split <;> try simp) | ((first | rw [State.foldl_pending] | rw [State.foldl2_pending] | rw [State.foldl_out] | rw [State.foldl2_out] | rw [State.foldl_free] | rw [State.foldl2_free] | rw [State.foldl_ev] | rw [State.foldl2_ev] | rw [State.foldl_ham] | rw [State.foldl2_ham] | rw [State.foldl_mem] | rw [State.foldl2_mem] | rw [State.foldl_flash] | rw [State.foldl2_flash] | rw [State.foldl_cfg] | rw [State.foldl2_cfg] | rw [State.foldl_trust] | rw [State.foldl2_trust] | rw [State.foldl_blk] | rw [State.foldl2_blk] | rw [State.foldl_isl] | rw [State.foldl2_isl] | rw [State.foldl_inj] | rw [State.foldl2_inj] | rw [State.foldl_chip] | rw [State.foldl2_chip] | rw [State.foldl_bays] | rw [State.foldl2_bays]) <;> intros <;> try simp))

theorem execFunctionLevelReset_frame (f : FnId) (s : State) (t : State)
    (h : execFunctionLevelReset f s = .next t) :
    t.pending = s.pending ∧ t.out = s.out ∧ t.free = s.free ∧ t.ev = s.ev ∧ t.ham = s.ham ∧ t.mem = s.mem ∧ t.flash = s.flash ∧
    t.cfg = s.cfg ∧ t.trust = s.trust ∧ t.blk = s.blk ∧ t.isl = s.isl ∧ t.inj = s.inj ∧ t.chip = s.chip ∧ t.bays = s.bays := by
  unfold execFunctionLevelReset at h
  injection h with h; subst h
  refine ⟨?_, ?_, ?_, ?_, ?_, ?_, ?_, ?_, ?_, ?_, ?_, ?_, ?_, ?_⟩ <;> (try simp) <;> repeat' (first | intro _ | (split <;> try simp))

theorem execBusMasterEnableChange_frame (f : FnId) (on : Bool) (s : State) (t : State)
    (h : execBusMasterEnableChange f on s = .next t) :
    t.pending = s.pending ∧ t.out = s.out ∧ t.free = s.free ∧ t.ev = s.ev ∧ t.ham = s.ham ∧ t.mem = s.mem ∧ t.flash = s.flash ∧
    t.cfg = s.cfg ∧ t.trust = s.trust ∧ t.blk = s.blk ∧ t.isl = s.isl ∧ t.inj = s.inj ∧ t.chip = s.chip ∧ t.bays = s.bays := by
  unfold execBusMasterEnableChange at h
  injection h with h; subst h
  refine ⟨?_, ?_, ?_, ?_, ?_, ?_, ?_, ?_, ?_, ?_, ?_, ?_, ?_, ?_⟩ <;> (try simp) <;> repeat' (first | intro _ | (split <;> try simp))

theorem execVfEnable_frame (count : Nat) (s : State) (t : State)
    (h : execVfEnable count s = .next t) :
    t.pending = s.pending ∧ t.out = s.out ∧ t.free = s.free ∧ t.ev = s.ev ∧ t.ham = s.ham ∧ t.mem = s.mem ∧ t.flash = s.flash ∧
    t.cfg = s.cfg ∧ t.trust = s.trust ∧ t.blk = s.blk ∧ t.isl = s.isl ∧ t.inj = s.inj ∧ t.chip = s.chip ∧ t.bays = s.bays := by
  unfold execVfEnable at h
  injection h with h; subst h
  refine ⟨?_, ?_, ?_, ?_, ?_, ?_, ?_, ?_, ?_, ?_, ?_, ?_, ?_, ?_⟩ <;> (try simp) <;> repeat' (first | intro _ | (split <;> try simp))

theorem execPcieLinkDegrade_frame (width : Nat) (s : State) (t : State)
    (h : execPcieLinkDegrade width s = .next t) :
    t.pending = s.pending ∧ t.free = s.free ∧ t.ham = s.ham ∧ t.mem = s.mem ∧ t.flash = s.flash ∧ t.cfg = s.cfg ∧
    t.trust = s.trust ∧ t.blk = s.blk ∧ t.isl = s.isl ∧ t.inj = s.inj ∧ t.bays = s.bays := by
  unfold execPcieLinkDegrade at h
  injection h with h; subst h
  refine ⟨?_, ?_, ?_, ?_, ?_, ?_, ?_, ?_, ?_, ?_, ?_⟩ <;> (try simp) <;> repeat' (first | intro _ | (split <;> try simp))

theorem execPciePerstLocal_frame (s : State) (t : State)
    (h : execPciePerstLocal s = .next t) :
    t.pending = s.pending ∧ t.out = s.out ∧ t.free = s.free ∧ t.ev = s.ev ∧ t.ham = s.ham ∧ t.mem = s.mem ∧ t.flash = s.flash ∧
    t.cfg = s.cfg ∧ t.trust = s.trust ∧ t.blk = s.blk ∧ t.isl = s.isl ∧ t.inj = s.inj ∧ t.chip = s.chip ∧ t.bays = s.bays := by
  unfold execPciePerstLocal at h
  injection h with h; subst h
  refine ⟨?_, ?_, ?_, ?_, ?_, ?_, ?_, ?_, ?_, ?_, ?_, ?_, ?_, ?_⟩ <;> (try simp) <;> repeat' (first | intro _ | (split <;> try simp))

theorem execPtmTimeUpdate_frame (ns : Nat) (s : State) (t : State)
    (h : execPtmTimeUpdate ns s = .next t) :
    t.pending = s.pending ∧ t.free = s.free ∧ t.ham = s.ham ∧ t.mem = s.mem ∧ t.flash = s.flash ∧ t.cfg = s.cfg ∧
    t.trust = s.trust ∧ t.blk = s.blk ∧ t.isl = s.isl ∧ t.inj = s.inj ∧ t.bays = s.bays := by
  unfold execPtmTimeUpdate at h
  injection h with h; subst h
  refine ⟨?_, ?_, ?_, ?_, ?_, ?_, ?_, ?_, ?_, ?_, ?_⟩ <;> (try simp) <;> repeat' (first | intro _ | (split <;> try simp))

theorem execVfReady_frame (f : FnId) (s : State) (t : State)
    (h : execVfReady f s = .next t) :
    t.pending = s.pending ∧ t.out = s.out ∧ t.free = s.free ∧ t.ev = s.ev ∧ t.ham = s.ham ∧ t.mem = s.mem ∧ t.flash = s.flash ∧
    t.cfg = s.cfg ∧ t.trust = s.trust ∧ t.blk = s.blk ∧ t.isl = s.isl ∧ t.inj = s.inj ∧ t.chip = s.chip ∧ t.bays = s.bays := by
  unfold execVfReady at h
  injection h with h; subst h
  refine ⟨?_, ?_, ?_, ?_, ?_, ?_, ?_, ?_, ?_, ?_, ?_, ?_, ?_, ?_⟩ <;> (try simp) <;> repeat' (first | intro _ | (split <;> try simp))

end Sys2Proof.Machine
end

