-- ==== Sys2Proof/Laws/FrameDataCmds.lean ====
section
/-! SUPPORT. What the operations of Machine/DataCmds.lean leave unchanged: one lemma each, the fields of the state it does not touch. -/

namespace Sys2Proof.Machine

theorem execCreateSr_frame (f : FnId) (tag : BitVec 6) (s : State) (t : State)
    (h : execCreateSr f tag s = .next t) :
    t.pending = s.pending ∧ t.out = s.out ∧ t.free = s.free ∧ t.ev = s.ev ∧ t.ham = s.ham ∧ t.flash = s.flash ∧
    t.trust = s.trust ∧ t.blk = s.blk ∧ t.isl = s.isl ∧ t.inj = s.inj ∧ t.chip = s.chip ∧ t.bays = s.bays ∧
    t.mem.ddr = s.mem.ddr := by
  unfold execCreateSr at h
  injection h with h; subst h
  refine ⟨?_, ?_, ?_, ?_, ?_, ?_, ?_, ?_, ?_, ?_, ?_, ?_, ?_⟩ <;> (try simp) <;> repeat' (first | intro _ | (split <;> try simp))

theorem execDeleteSr_frame (f : FnId) (tag : BitVec 6) (s : State) (t : State)
    (h : execDeleteSr f tag s = .next t) :
    t.pending = s.pending ∧ t.out = s.out ∧ t.free = s.free ∧ t.ev = s.ev ∧ t.flash = s.flash ∧ t.trust = s.trust ∧
    t.blk = s.blk ∧ t.isl = s.isl ∧ t.inj = s.inj ∧ t.chip = s.chip ∧ t.bays = s.bays ∧ t.mem.ddr = s.mem.ddr := by
  unfold execDeleteSr at h
  injection h with h; subst h
  refine ⟨?_, ?_, ?_, ?_, ?_, ?_, ?_, ?_, ?_, ?_, ?_, ?_⟩ <;> (try simp) <;> repeat' (first | intro _ | (split <;> try simp))

@[simp] theorem State.drainRecent_frame (s : State) (f : FnId) :
    (s.drainRecent f).pending = s.pending ∧ (s.drainRecent f).free = s.free ∧ (s.drainRecent f).ev = s.ev ∧
    (s.drainRecent f).ham = s.ham ∧ (s.drainRecent f).mem = s.mem ∧ (s.drainRecent f).flash = s.flash ∧
    (s.drainRecent f).cfg = s.cfg ∧ (s.drainRecent f).trust = s.trust ∧ (s.drainRecent f).blk = s.blk ∧
    (s.drainRecent f).isl = s.isl ∧ (s.drainRecent f).inj = s.inj ∧ (s.drainRecent f).chip = s.chip ∧
    (s.drainRecent f).bays = s.bays := by
  unfold State.drainRecent
  refine ⟨?_, ?_, ?_, ?_, ?_, ?_, ?_, ?_, ?_, ?_, ?_, ?_, ?_⟩ <;> (try simp) <;> repeat' (first | intro _ | (split <;> try simp) | ((first | rw [State.foldl_pending] | rw [State.foldl2_pending] | rw [State.foldl_free] | rw [State.foldl2_free] | rw [State.foldl_ev] | rw [State.foldl2_ev] | rw [State.foldl_ham] | rw [State.foldl2_ham] | rw [State.foldl_mem] | rw [State.foldl2_mem] | rw [State.foldl_flash] | rw [State.foldl2_flash] | rw [State.foldl_cfg] | rw [State.foldl2_cfg] | rw [State.foldl_trust] | rw [State.foldl2_trust] | rw [State.foldl_blk] | rw [State.foldl2_blk] | rw [State.foldl_isl] | rw [State.foldl2_isl] | rw [State.foldl_inj] | rw [State.foldl2_inj] | rw [State.foldl_chip] | rw [State.foldl2_chip] | rw [State.foldl_bays] | rw [State.foldl2_bays]) <;> intros <;> try simp))

theorem execCreateCr_frame (f : FnId) (tag : BitVec 6) (s : State) (t : State)
    (h : execCreateCr f tag s = .next t) :
    t.pending = s.pending ∧ t.free = s.free ∧ t.ev = s.ev ∧ t.ham = s.ham ∧ t.flash = s.flash ∧ t.trust = s.trust ∧
    t.blk = s.blk ∧ t.isl = s.isl ∧ t.inj = s.inj ∧ t.chip = s.chip ∧ t.bays = s.bays ∧ t.mem.ddr = s.mem.ddr := by
  unfold execCreateCr at h
  injection h with h; subst h
  refine ⟨?_, ?_, ?_, ?_, ?_, ?_, ?_, ?_, ?_, ?_, ?_, ?_⟩ <;> (try simp) <;> repeat' (first | intro _ | (split <;> try simp))

theorem execDeleteCr_frame (f : FnId) (tag : BitVec 6) (s : State) (t : State)
    (h : execDeleteCr f tag s = .next t) :
    t.pending = s.pending ∧ t.out = s.out ∧ t.free = s.free ∧ t.ev = s.ev ∧ t.ham = s.ham ∧ t.flash = s.flash ∧
    t.trust = s.trust ∧ t.blk = s.blk ∧ t.isl = s.isl ∧ t.inj = s.inj ∧ t.chip = s.chip ∧ t.bays = s.bays ∧
    t.mem.ddr = s.mem.ddr := by
  unfold execDeleteCr at h
  injection h with h; subst h
  refine ⟨?_, ?_, ?_, ?_, ?_, ?_, ?_, ?_, ?_, ?_, ?_, ?_, ?_⟩ <;> (try simp) <;> repeat' (first | intro _ | (split <;> try simp))

theorem execRead_frame (f : FnId) (sr : Nat) (tag : BitVec 6) (s : State) (t : State)
    (h : execRead f sr tag s = .next t) :
    t.pending = s.pending ∧ t.flash = s.flash ∧ t.trust = s.trust ∧ t.blk = s.blk ∧ t.isl = s.isl ∧ t.inj = s.inj ∧
    t.mem.ddr = s.mem.ddr := by
  unfold execRead at h
  injection h with h; subst h
  refine ⟨?_, ?_, ?_, ?_, ?_, ?_, ?_⟩ <;> (try simp) <;> repeat' (first | intro _ | (split <;> try simp))

@[simp] theorem State.lateOrdinal_frame (s : State) (h : SlotId) (c : Cmd) :
    (s.lateOrdinal h c).pending = s.pending ∧ (s.lateOrdinal h c).out = s.out ∧ (s.lateOrdinal h c).free = s.free ∧
    (s.lateOrdinal h c).ev = s.ev ∧ (s.lateOrdinal h c).mem = s.mem ∧ (s.lateOrdinal h c).flash = s.flash ∧
    (s.lateOrdinal h c).cfg = s.cfg ∧ (s.lateOrdinal h c).trust = s.trust ∧ (s.lateOrdinal h c).blk = s.blk ∧
    (s.lateOrdinal h c).isl = s.isl ∧ (s.lateOrdinal h c).inj = s.inj ∧ (s.lateOrdinal h c).chip = s.chip ∧
    (s.lateOrdinal h c).bays = s.bays := by
  unfold State.lateOrdinal
  refine ⟨?_, ?_, ?_, ?_, ?_, ?_, ?_, ?_, ?_, ?_, ?_, ?_, ?_⟩ <;> (try simp) <;> repeat' (first | intro _ | (split <;> try simp))

theorem execWrite_frame (f : FnId) (sr : Nat) (tag : BitVec 6) (s : State) (t : State)
    (h : execWrite f sr tag s = .next t) :
    t.pending = s.pending ∧ t.free = s.free ∧ t.flash = s.flash ∧ t.trust = s.trust ∧ t.blk = s.blk ∧ t.isl = s.isl ∧
    t.inj = s.inj ∧ t.bays = s.bays ∧ t.mem.ddr = s.mem.ddr := by
  unfold execWrite at h
  injection h with h; subst h
  refine ⟨?_, ?_, ?_, ?_, ?_, ?_, ?_, ?_, ?_⟩ <;> (try simp) <;> repeat' (first | intro _ | (split <;> try simp))

@[simp] theorem State.lateTarget_frame (s : State) (h : SlotId) (c : Cmd) :
    (s.lateTarget h c).pending = s.pending ∧ (s.lateTarget h c).out = s.out ∧ (s.lateTarget h c).free = s.free ∧
    (s.lateTarget h c).ev = s.ev ∧ (s.lateTarget h c).ham = s.ham ∧ (s.lateTarget h c).mem = s.mem ∧
    (s.lateTarget h c).flash = s.flash ∧ (s.lateTarget h c).cfg = s.cfg ∧ (s.lateTarget h c).trust = s.trust ∧
    (s.lateTarget h c).blk = s.blk ∧ (s.lateTarget h c).isl = s.isl ∧ (s.lateTarget h c).inj = s.inj ∧
    (s.lateTarget h c).chip = s.chip ∧ (s.lateTarget h c).bays = s.bays := by
  unfold State.lateTarget
  refine ⟨?_, ?_, ?_, ?_, ?_, ?_, ?_, ?_, ?_, ?_, ?_, ?_, ?_, ?_⟩ <;> (try simp) <;> repeat' (first | intro _ | (split <;> try simp))

@[simp] theorem State.verifyReads_frame (s : State) (h : SlotId) (order : Nat) :
    (s.verifyReads h order).pending = s.pending ∧ (s.verifyReads h order).flash = s.flash ∧
    (s.verifyReads h order).trust = s.trust ∧ (s.verifyReads h order).blk = s.blk ∧ (s.verifyReads h order).isl = s.isl ∧
    (s.verifyReads h order).inj = s.inj ∧ (s.verifyReads h order).mem.ddr = s.mem.ddr := by
  unfold State.verifyReads
  refine ⟨?_, ?_, ?_, ?_, ?_, ?_, ?_⟩ <;> (try simp) <;> repeat' (first | intro _ | (split <;> try simp))

theorem execVerify_frame (f : FnId) (sr : Nat) (tag : BitVec 6) (s : State) (t : State)
    (h : execVerify f sr tag s = .next t) :
    t.pending = s.pending ∧ t.flash = s.flash ∧ t.trust = s.trust ∧ t.blk = s.blk ∧ t.isl = s.isl ∧ t.inj = s.inj ∧
    t.mem.ddr = s.mem.ddr := by
  unfold execVerify at h
  injection h with h; subst h
  refine ⟨?_, ?_, ?_, ?_, ?_, ?_, ?_⟩ <;> (try simp) <;> repeat' (first | intro _ | (split <;> try simp))

theorem execFlush_frame (f : FnId) (sr : Nat) (tag : BitVec 6) (s : State) (t : State)
    (h : execFlush f sr tag s = .next t) :
    t.pending = s.pending ∧ t.out = s.out ∧ t.free = s.free ∧ t.ev = s.ev ∧ t.flash = s.flash ∧ t.trust = s.trust ∧
    t.blk = s.blk ∧ t.isl = s.isl ∧ t.inj = s.inj ∧ t.chip = s.chip ∧ t.mem.ddr = s.mem.ddr := by
  unfold execFlush at h
  injection h with h; subst h
  refine ⟨?_, ?_, ?_, ?_, ?_, ?_, ?_, ?_, ?_, ?_, ?_⟩ <;> (try simp) <;> repeat' (first | intro _ | (split <;> try simp))

@[simp] theorem State.abortCmd_frame (s : State) (c : Cmd) :
    (s.abortCmd c).pending = s.pending ∧ (s.abortCmd c).out = s.out ∧ (s.abortCmd c).free = s.free ∧ (s.abortCmd c).ev = s.ev ∧
    (s.abortCmd c).flash = s.flash ∧ (s.abortCmd c).trust = s.trust ∧ (s.abortCmd c).blk = s.blk ∧ (s.abortCmd c).isl = s.isl ∧
    (s.abortCmd c).inj = s.inj ∧ (s.abortCmd c).chip = s.chip ∧ (s.abortCmd c).bays = s.bays ∧
    (s.abortCmd c).mem.ddr = s.mem.ddr := by
  unfold State.abortCmd
  refine ⟨?_, ?_, ?_, ?_, ?_, ?_, ?_, ?_, ?_, ?_, ?_, ?_⟩ <;> (try simp) <;> repeat' (first | intro _ | (split <;> try simp))

theorem execAbort_frame (f : FnId) (sr : Nat) (tag : BitVec 6) (s : State) (t : State)
    (h : execAbort f sr tag s = .next t) :
    t.pending = s.pending ∧ t.out = s.out ∧ t.free = s.free ∧ t.ev = s.ev ∧ t.flash = s.flash ∧ t.trust = s.trust ∧
    t.blk = s.blk ∧ t.isl = s.isl ∧ t.inj = s.inj ∧ t.chip = s.chip ∧ t.bays = s.bays ∧ t.mem.ddr = s.mem.ddr := by
  unfold execAbort at h
  injection h with h; subst h
  refine ⟨?_, ?_, ?_, ?_, ?_, ?_, ?_, ?_, ?_, ?_, ?_, ?_⟩ <;> (try simp) <;> repeat' (first | intro _ | (split <;> try simp))

end Sys2Proof.Machine
end

