-- ==== Sys2Proof/Laws/FramePages.lean ====
section
/-! SUPPORT. What the operations of Machine/Pages.lean leave unchanged: one lemma each, the fields of the state it does not touch. -/

namespace Sys2Proof.Machine

@[simp] theorem State.clearCounters_frame (s : State) (page sel : Nat) :
    (s.clearCounters page sel).pending = s.pending ∧ (s.clearCounters page sel).out = s.out ∧
    (s.clearCounters page sel).free = s.free ∧ (s.clearCounters page sel).ev = s.ev ∧ (s.clearCounters page sel).flash = s.flash ∧
    (s.clearCounters page sel).cfg = s.cfg ∧ (s.clearCounters page sel).trust = s.trust ∧ (s.clearCounters page sel).isl = s.isl ∧
    (s.clearCounters page sel).inj = s.inj ∧ (s.clearCounters page sel).chip = s.chip ∧
    (s.clearCounters page sel).mem.ddr = s.mem.ddr := by
  unfold State.clearCounters
  refine ⟨?_, ?_, ?_, ?_, ?_, ?_, ?_, ?_, ?_, ?_, ?_⟩ <;> (try simp) <;> repeat' (first | intro _ | (split <;> try simp))

end Sys2Proof.Machine
end

