-- ==== Sys2Proof/Laws/FrameAdmin.lean ====
section
/-! SUPPORT. What the operations of Machine/Admin.lean leave unchanged: one lemma each, the fields of the state it does not touch. -/

namespace Sys2Proof.Machine

theorem execIdentify_frame (f : FnId) (tag : BitVec 6) (s : State) (t : State)
    (h : execIdentify f tag s = .next t) :
    t.pending = s.pending ∧ t.free = s.free ∧ t.ev = s.ev ∧ t.ham = s.ham ∧ t.flash = s.flash ∧ t.trust = s.trust ∧
    t.blk = s.blk ∧ t.isl = s.isl ∧ t.inj = s.inj ∧ t.chip = s.chip ∧ t.bays = s.bays ∧ t.mem.ddr = s.mem.ddr := by
  unfold execIdentify at h
  injection h with h; subst h
  refine ⟨?_, ?_, ?_, ?_, ?_, ?_, ?_, ?_, ?_, ?_, ?_, ?_⟩ <;> (try simp) <;> repeat' (first | intro _ | (split <;> try simp))

theorem execHealth_frame (f : FnId) (tag : BitVec 6) (s : State) (t : State)
    (h : execHealth f tag s = .next t) :
    t.pending = s.pending ∧ t.free = s.free ∧ t.ev = s.ev ∧ t.ham = s.ham ∧ t.flash = s.flash ∧ t.trust = s.trust ∧
    t.blk = s.blk ∧ t.isl = s.isl ∧ t.inj = s.inj ∧ t.chip = s.chip ∧ t.bays = s.bays ∧ t.mem.ddr = s.mem.ddr := by
  unfold execHealth at h
  injection h with h; subst h
  refine ⟨?_, ?_, ?_, ?_, ?_, ?_, ?_, ?_, ?_, ?_, ?_, ?_⟩ <;> (try simp) <;> repeat' (first | intro _ | (split <;> try simp))

@[simp] theorem State.flagDone_frame (s : State) (c : Cmd) (i : Nat) :
    (s.flagDone c i).pending = s.pending ∧ (s.flagDone c i).out = s.out ∧ (s.flagDone c i).free = s.free ∧
    (s.flagDone c i).ev = s.ev ∧ (s.flagDone c i).ham = s.ham ∧ (s.flagDone c i).flash = s.flash ∧
    (s.flagDone c i).trust = s.trust ∧ (s.flagDone c i).blk = s.blk ∧ (s.flagDone c i).isl = s.isl ∧
    (s.flagDone c i).inj = s.inj ∧ (s.flagDone c i).chip = s.chip ∧ (s.flagDone c i).bays = s.bays ∧
    (s.flagDone c i).mem.ddr = s.mem.ddr := by
  unfold State.flagDone
  refine ⟨?_, ?_, ?_, ?_, ?_, ?_, ?_, ?_, ?_, ?_, ?_, ?_, ?_⟩ <;> (try simp) <;> repeat' (first | intro _ | (split <;> try simp))

theorem execHealthClearCause_frame (f : FnId) (tag : BitVec 6) (s : State) (t : State)
    (h : execHealthClearCause f tag s = .next t) :
    t.pending = s.pending ∧ t.out = s.out ∧ t.free = s.free ∧ t.ev = s.ev ∧ t.ham = s.ham ∧ t.flash = s.flash ∧
    t.trust = s.trust ∧ t.blk = s.blk ∧ t.isl = s.isl ∧ t.inj = s.inj ∧ t.bays = s.bays ∧ t.mem.ddr = s.mem.ddr := by
  unfold execHealthClearCause at h
  injection h with h; subst h
  refine ⟨?_, ?_, ?_, ?_, ?_, ?_, ?_, ?_, ?_, ?_, ?_, ?_⟩ <;> (try simp) <;> repeat' (first | intro _ | (split <;> try simp))

theorem execHealthClearCounters_frame (f : FnId) (tag : BitVec 6) (s : State) (t : State)
    (h : execHealthClearCounters f tag s = .next t) :
    t.pending = s.pending ∧ t.out = s.out ∧ t.free = s.free ∧ t.ev = s.ev ∧ t.flash = s.flash ∧ t.trust = s.trust ∧
    t.isl = s.isl ∧ t.inj = s.inj ∧ t.chip = s.chip ∧ t.mem.ddr = s.mem.ddr := by
  unfold execHealthClearCounters at h
  injection h with h; subst h
  refine ⟨?_, ?_, ?_, ?_, ?_, ?_, ?_, ?_, ?_, ?_⟩ <;> (try simp) <;> repeat' (first | intro _ | (split <;> try simp))

theorem execHealthCalRequest_frame (f : FnId) (tag : BitVec 6) (s : State) (t : State)
    (h : execHealthCalRequest f tag s = .next t) :
    t.pending = s.pending ∧ t.out = s.out ∧ t.free = s.free ∧ t.ev = s.ev ∧ t.ham = s.ham ∧ t.flash = s.flash ∧
    t.trust = s.trust ∧ t.blk = s.blk ∧ t.isl = s.isl ∧ t.inj = s.inj ∧ t.chip = s.chip ∧ t.mem.ddr = s.mem.ddr := by
  unfold execHealthCalRequest at h
  injection h with h; subst h
  refine ⟨?_, ?_, ?_, ?_, ?_, ?_, ?_, ?_, ?_, ?_, ?_, ?_⟩ <;> (try simp) <;> repeat' (first | intro _ | (split <;> try simp))

theorem execAttestReport_frame (f : FnId) (tag : BitVec 6) (s : State) (t : State)
    (h : execAttestReport f tag s = .next t) :
    t.pending = s.pending ∧ t.free = s.free ∧ t.ev = s.ev ∧ t.ham = s.ham ∧ t.flash = s.flash ∧ t.trust = s.trust ∧
    t.blk = s.blk ∧ t.isl = s.isl ∧ t.inj = s.inj ∧ t.chip = s.chip ∧ t.bays = s.bays ∧ t.mem.ddr = s.mem.ddr := by
  unfold execAttestReport at h
  injection h with h; subst h
  refine ⟨?_, ?_, ?_, ?_, ?_, ?_, ?_, ?_, ?_, ?_, ?_, ?_⟩ <;> (try simp) <;> repeat' (first | intro _ | (split <;> try simp))

theorem execAttestCertChain_frame (f : FnId) (tag : BitVec 6) (s : State) (t : State)
    (h : execAttestCertChain f tag s = .next t) :
    t.pending = s.pending ∧ t.free = s.free ∧ t.ev = s.ev ∧ t.ham = s.ham ∧ t.flash = s.flash ∧ t.trust = s.trust ∧
    t.blk = s.blk ∧ t.isl = s.isl ∧ t.inj = s.inj ∧ t.chip = s.chip ∧ t.bays = s.bays ∧ t.mem.ddr = s.mem.ddr := by
  unfold execAttestCertChain at h
  injection h with h; subst h
  refine ⟨?_, ?_, ?_, ?_, ?_, ?_, ?_, ?_, ?_, ?_, ?_, ?_⟩ <;> (try simp) <;> repeat' (first | intro _ | (split <;> try simp))

@[simp] theorem State.blow_frame (s : State) (c : Cmd) (fu : Fuses) :
    (s.blow c fu).pending = s.pending ∧ (s.blow c fu).out = s.out ∧ (s.blow c fu).free = s.free ∧ (s.blow c fu).ev = s.ev ∧
    (s.blow c fu).ham = s.ham ∧ (s.blow c fu).flash = s.flash ∧ (s.blow c fu).blk = s.blk ∧ (s.blow c fu).isl = s.isl ∧
    (s.blow c fu).inj = s.inj ∧ (s.blow c fu).chip = s.chip ∧ (s.blow c fu).bays = s.bays ∧ (s.blow c fu).mem.ddr = s.mem.ddr := by
  unfold State.blow
  refine ⟨?_, ?_, ?_, ?_, ?_, ?_, ?_, ?_, ?_, ?_, ?_, ?_⟩ <;> (try simp) <;> repeat' (first | intro _ | (split <;> try simp))

theorem execAttestEnforceSignatures_frame (f : FnId) (tag : BitVec 6) (s : State) (t : State)
    (h : execAttestEnforceSignatures f tag s = .next t) :
    t.pending = s.pending ∧ t.out = s.out ∧ t.free = s.free ∧ t.ev = s.ev ∧ t.ham = s.ham ∧ t.flash = s.flash ∧ t.blk = s.blk ∧
    t.isl = s.isl ∧ t.inj = s.inj ∧ t.chip = s.chip ∧ t.bays = s.bays ∧ t.mem.ddr = s.mem.ddr := by
  unfold execAttestEnforceSignatures at h
  injection h with h; subst h
  refine ⟨?_, ?_, ?_, ?_, ?_, ?_, ?_, ?_, ?_, ?_, ?_, ?_⟩ <;> (try simp) <;> repeat' (first | intro _ | (split <;> try simp))

theorem execAttestRevokeKey_frame (f : FnId) (tag : BitVec 6) (s : State) (t : State)
    (h : execAttestRevokeKey f tag s = .next t) :
    t.pending = s.pending ∧ t.out = s.out ∧ t.free = s.free ∧ t.ev = s.ev ∧ t.ham = s.ham ∧ t.flash = s.flash ∧ t.blk = s.blk ∧
    t.isl = s.isl ∧ t.inj = s.inj ∧ t.chip = s.chip ∧ t.bays = s.bays ∧ t.mem.ddr = s.mem.ddr := by
  unfold execAttestRevokeKey at h
  injection h with h; subst h
  refine ⟨?_, ?_, ?_, ?_, ?_, ?_, ?_, ?_, ?_, ?_, ?_, ?_⟩ <;> (try simp) <;> repeat' (first | intro _ | (split <;> try simp))

theorem execDoeRequest_frame (f : FnId) (dtype : BitVec 8) (payload : Bytes) (s : State) (t : State)
    (h : execDoeRequest f dtype payload s = .next t) :
    t.pending = s.pending ∧ t.free = s.free ∧ t.ev = s.ev ∧ t.ham = s.ham ∧ t.mem = s.mem ∧ t.flash = s.flash ∧ t.cfg = s.cfg ∧
    t.trust = s.trust ∧ t.blk = s.blk ∧ t.isl = s.isl ∧ t.inj = s.inj ∧ t.chip = s.chip ∧ t.bays = s.bays := by
  unfold execDoeRequest at h
  injection h with h; subst h
  refine ⟨?_, ?_, ?_, ?_, ?_, ?_, ?_, ?_, ?_, ?_, ?_, ?_, ?_⟩ <;> (try simp) <;> repeat' (first | intro _ | (split <;> try simp))

@[simp] theorem State.doeResume_frame (s : State) :
    (s.doeResume).pending = s.pending ∧ (s.doeResume).free = s.free ∧ (s.doeResume).ev = s.ev ∧ (s.doeResume).ham = s.ham ∧
    (s.doeResume).mem = s.mem ∧ (s.doeResume).flash = s.flash ∧ (s.doeResume).cfg = s.cfg ∧ (s.doeResume).trust = s.trust ∧
    (s.doeResume).blk = s.blk ∧ (s.doeResume).isl = s.isl ∧ (s.doeResume).inj = s.inj ∧ (s.doeResume).chip = s.chip ∧
    (s.doeResume).bays = s.bays := by
  unfold State.doeResume
  refine ⟨?_, ?_, ?_, ?_, ?_, ?_, ?_, ?_, ?_, ?_, ?_, ?_, ?_⟩ <;> (try simp) <;> repeat' (first | intro _ | (split <;> try simp) | ((first | rw [State.foldl_pending] | rw [State.foldl2_pending] | rw [State.foldl_free] | rw [State.foldl2_free] | rw [State.foldl_ev] | rw [State.foldl2_ev] | rw [State.foldl_ham] | rw [State.foldl2_ham] | rw [State.foldl_mem] | rw [State.foldl2_mem] | rw [State.foldl_flash] | rw [State.foldl2_flash] | rw [State.foldl_cfg] | rw [State.foldl2_cfg] | rw [State.foldl_trust] | rw [State.foldl2_trust] | rw [State.foldl_blk] | rw [State.foldl2_blk] | rw [State.foldl_isl] | rw [State.foldl2_isl] | rw [State.foldl_inj] | rw [State.foldl2_inj] | rw [State.foldl_chip] | rw [State.foldl2_chip] | rw [State.foldl_bays] | rw [State.foldl2_bays]) <;> intros <;> try simp))

theorem execDoeAbort_frame (f : FnId) (s : State) (t : State)
    (h : execDoeAbort f s = .next t) :
    t.pending = s.pending ∧ t.out = s.out ∧ t.free = s.free ∧ t.ev = s.ev ∧ t.ham = s.ham ∧ t.mem = s.mem ∧ t.flash = s.flash ∧
    t.cfg = s.cfg ∧ t.trust = s.trust ∧ t.blk = s.blk ∧ t.isl = s.isl ∧ t.inj = s.inj ∧ t.chip = s.chip ∧ t.bays = s.bays := by
  unfold execDoeAbort at h
  injection h with h; subst h
  refine ⟨?_, ?_, ?_, ?_, ?_, ?_, ?_, ?_, ?_, ?_, ?_, ?_, ?_, ?_⟩ <;> (try simp) <;> repeat' (first | intro _ | (split <;> try simp))

@[simp] theorem State.stageNext_frame (s : State) (order : Nat) :
    (s.stageNext order).pending = s.pending ∧ (s.stageNext order).out = s.out ∧ (s.stageNext order).free = s.free ∧
    (s.stageNext order).ev = s.ev ∧ (s.stageNext order).ham = s.ham ∧ (s.stageNext order).flash = s.flash ∧
    (s.stageNext order).trust = s.trust ∧ (s.stageNext order).blk = s.blk ∧ (s.stageNext order).isl = s.isl ∧
    (s.stageNext order).inj = s.inj ∧ (s.stageNext order).chip = s.chip ∧ (s.stageNext order).bays = s.bays ∧
    (s.stageNext order).mem.ddr = s.mem.ddr := by
  unfold State.stageNext
  refine ⟨?_, ?_, ?_, ?_, ?_, ?_, ?_, ?_, ?_, ?_, ?_, ?_, ?_⟩ <;> (try simp) <;> repeat' (first | intro _ | (split <;> try simp))

@[simp] theorem State.flashJob_frame (s : State) (j : FlashJob) :
    (s.flashJob j).pending = s.pending ∧ (s.flashJob j).out = s.out ∧ (s.flashJob j).free = s.free ∧
    (s.flashJob j).host = s.host ∧ (s.flashJob j).ev = s.ev ∧ (s.flashJob j).ham = s.ham ∧ (s.flashJob j).mem = s.mem ∧
    (s.flashJob j).cfg = s.cfg ∧ (s.flashJob j).trust = s.trust ∧ (s.flashJob j).blk = s.blk ∧ (s.flashJob j).isl = s.isl ∧
    (s.flashJob j).inj = s.inj ∧ (s.flashJob j).chip = s.chip ∧ (s.flashJob j).bays = s.bays ∧
    (s.flashJob j).flash.mem = s.flash.mem := by
  unfold State.flashJob
  refine ⟨?_, ?_, ?_, ?_, ?_, ?_, ?_, ?_, ?_, ?_, ?_, ?_, ?_, ?_, ?_⟩ <;> (try simp) <;> repeat' (first | intro _ | (split <;> try simp))

@[simp] theorem State.slotInvalid_frame (s : State) (target : Nat) :
    (s.slotInvalid target).pending = s.pending ∧ (s.slotInvalid target).out = s.out ∧ (s.slotInvalid target).free = s.free ∧
    (s.slotInvalid target).host = s.host ∧ (s.slotInvalid target).ev = s.ev ∧ (s.slotInvalid target).ham = s.ham ∧
    (s.slotInvalid target).mem = s.mem ∧ (s.slotInvalid target).cfg = s.cfg ∧ (s.slotInvalid target).trust = s.trust ∧
    (s.slotInvalid target).blk = s.blk ∧ (s.slotInvalid target).isl = s.isl ∧ (s.slotInvalid target).inj = s.inj ∧
    (s.slotInvalid target).chip = s.chip ∧ (s.slotInvalid target).bays = s.bays ∧ (s.slotInvalid target).flash.mem = s.flash.mem := by
  unfold State.slotInvalid
  refine ⟨?_, ?_, ?_, ?_, ?_, ?_, ?_, ?_, ?_, ?_, ?_, ?_, ?_, ?_, ?_⟩ <;> (try simp) <;> repeat' (first | intro _ | (split <;> try simp))

@[simp] theorem State.slotGood_frame (s : State) (target : Nat) :
    (s.slotGood target).pending = s.pending ∧ (s.slotGood target).out = s.out ∧ (s.slotGood target).free = s.free ∧
    (s.slotGood target).host = s.host ∧ (s.slotGood target).ev = s.ev ∧ (s.slotGood target).ham = s.ham ∧
    (s.slotGood target).mem = s.mem ∧ (s.slotGood target).cfg = s.cfg ∧ (s.slotGood target).trust = s.trust ∧
    (s.slotGood target).blk = s.blk ∧ (s.slotGood target).isl = s.isl ∧ (s.slotGood target).inj = s.inj ∧
    (s.slotGood target).chip = s.chip ∧ (s.slotGood target).bays = s.bays ∧ (s.slotGood target).flash.mem = s.flash.mem := by
  unfold State.slotGood
  refine ⟨?_, ?_, ?_, ?_, ?_, ?_, ?_, ?_, ?_, ?_, ?_, ?_, ?_, ?_, ?_⟩ <;> (try simp) <;> repeat' (first | intro _ | (split <;> try simp))

theorem execStageConfigOpen_frame (tag : BitVec 6) (s : State) (t : State)
    (h : execStageConfigOpen tag s = .next t) :
    t.pending = s.pending ∧ t.out = s.out ∧ t.free = s.free ∧ t.ev = s.ev ∧ t.ham = s.ham ∧ t.blk = s.blk ∧ t.isl = s.isl ∧
    t.inj = s.inj ∧ t.chip = s.chip ∧ t.bays = s.bays ∧ t.mem.ddr = s.mem.ddr ∧ t.flash.mem = s.flash.mem ∧
    t.trust.fuses = s.trust.fuses := by
  unfold execStageConfigOpen at h
  injection h with h; subst h
  refine ⟨?_, ?_, ?_, ?_, ?_, ?_, ?_, ?_, ?_, ?_, ?_, ?_, ?_⟩ <;> (try simp) <;> repeat' (first | intro _ | (split <;> try simp))

theorem execStageConfigChunk_frame (tag : BitVec 6) (data : Bytes) (s : State) (t : State)
    (h : execStageConfigChunk tag data s = .next t) :
    t.pending = s.pending ∧ t.out = s.out ∧ t.free = s.free ∧ t.ev = s.ev ∧ t.ham = s.ham ∧ t.trust = s.trust ∧ t.blk = s.blk ∧
    t.isl = s.isl ∧ t.inj = s.inj ∧ t.chip = s.chip ∧ t.bays = s.bays ∧ t.mem.ddr = s.mem.ddr ∧ t.flash.mem = s.flash.mem := by
  unfold execStageConfigChunk at h
  injection h with h; subst h
  refine ⟨?_, ?_, ?_, ?_, ?_, ?_, ?_, ?_, ?_, ?_, ?_, ?_, ?_⟩ <;> (try simp) <;> repeat' (first | intro _ | (split <;> try simp))

theorem execStageConfigCommit_frame (tag : BitVec 6) (s : State) (t : State)
    (h : execStageConfigCommit tag s = .next t) :
    t.pending = s.pending ∧ t.out = s.out ∧ t.free = s.free ∧ t.ev = s.ev ∧ t.ham = s.ham ∧ t.trust = s.trust ∧ t.blk = s.blk ∧
    t.isl = s.isl ∧ t.inj = s.inj ∧ t.chip = s.chip ∧ t.bays = s.bays ∧ t.mem.ddr = s.mem.ddr ∧ t.flash.mem = s.flash.mem := by
  unfold execStageConfigCommit at h
  injection h with h; subst h
  refine ⟨?_, ?_, ?_, ?_, ?_, ?_, ?_, ?_, ?_, ?_, ?_, ?_, ?_⟩ <;> (try simp) <;> repeat' (first | intro _ | (split <;> try simp))

@[simp] theorem State.commitDone_frame (s : State) (target : Nat) (order : Option Nat) :
    (s.commitDone target order).pending = s.pending ∧ (s.commitDone target order).out = s.out ∧
    (s.commitDone target order).free = s.free ∧ (s.commitDone target order).ev = s.ev ∧ (s.commitDone target order).ham = s.ham ∧
    (s.commitDone target order).blk = s.blk ∧ (s.commitDone target order).inj = s.inj ∧
    (s.commitDone target order).chip = s.chip ∧ (s.commitDone target order).mem.ddr = s.mem.ddr ∧
    (s.commitDone target order).trust.fuses = s.trust.fuses := by
  unfold State.commitDone
  refine ⟨?_, ?_, ?_, ?_, ?_, ?_, ?_, ?_, ?_, ?_⟩ <;> (try simp) <;> repeat' (split <;> (try (rename_i h; replace h := congrArg Prod.snd h; dsimp only at h; subst h)) <;> try simp)

theorem execStageSessionIdle_frame (s : State) (t : State)
    (h : execStageSessionIdle s = .next t) :
    t.pending = s.pending ∧ t.free = s.free ∧ t.ham = s.ham ∧ t.mem = s.mem ∧ t.flash = s.flash ∧ t.cfg = s.cfg ∧
    t.trust = s.trust ∧ t.blk = s.blk ∧ t.isl = s.isl ∧ t.inj = s.inj ∧ t.bays = s.bays := by
  unfold execStageSessionIdle at h
  injection h with h; subst h
  refine ⟨?_, ?_, ?_, ?_, ?_, ?_, ?_, ?_, ?_, ?_, ?_⟩ <;> (try simp) <;> repeat' (first | intro _ | (split <;> try simp))

@[simp] theorem State.drainStart_frame (s : State) (c : Cmd) (mode : Nat) :
    (s.drainStart c mode).pending = s.pending ∧ (s.drainStart c mode).out = s.out ∧ (s.drainStart c mode).free = s.free ∧
    (s.drainStart c mode).ev = s.ev ∧ (s.drainStart c mode).ham = s.ham ∧ (s.drainStart c mode).mem = s.mem ∧
    (s.drainStart c mode).flash = s.flash ∧ (s.drainStart c mode).cfg = s.cfg ∧ (s.drainStart c mode).trust = s.trust ∧
    (s.drainStart c mode).blk = s.blk ∧ (s.drainStart c mode).isl = s.isl ∧ (s.drainStart c mode).inj = s.inj ∧
    (s.drainStart c mode).chip = s.chip ∧ (s.drainStart c mode).bays = s.bays := by
  unfold State.drainStart
  refine ⟨?_, ?_, ?_, ?_, ?_, ?_, ?_, ?_, ?_, ?_, ?_, ?_, ?_, ?_⟩ <;> (try simp) <;> repeat' (first | intro _ | (split <;> try simp))

theorem execActivateFwFirmware_frame (tag : BitVec 6) (s : State) (t : State)
    (h : execActivateFwFirmware tag s = .next t) :
    t.pending = s.pending ∧ t.out = s.out ∧ t.free = s.free ∧ t.ev = s.ev ∧ t.ham = s.ham ∧ t.flash = s.flash ∧
    t.trust = s.trust ∧ t.blk = s.blk ∧ t.isl = s.isl ∧ t.inj = s.inj ∧ t.chip = s.chip ∧ t.bays = s.bays ∧
    t.mem.ddr = s.mem.ddr := by
  unfold execActivateFwFirmware at h
  injection h with h; subst h
  refine ⟨?_, ?_, ?_, ?_, ?_, ?_, ?_, ?_, ?_, ?_, ?_, ?_, ?_⟩ <;> (try simp) <;> repeat' (first | intro _ | (split <;> try simp))

theorem execActivateFwCoreReset_frame (tag : BitVec 6) (s : State) (t : State)
    (h : execActivateFwCoreReset tag s = .next t) :
    t.pending = s.pending ∧ t.out = s.out ∧ t.free = s.free ∧ t.ev = s.ev ∧ t.ham = s.ham ∧ t.flash = s.flash ∧
    t.trust = s.trust ∧ t.blk = s.blk ∧ t.isl = s.isl ∧ t.inj = s.inj ∧ t.chip = s.chip ∧ t.bays = s.bays ∧
    t.mem.ddr = s.mem.ddr := by
  unfold execActivateFwCoreReset at h
  injection h with h; subst h
  refine ⟨?_, ?_, ?_, ?_, ?_, ?_, ?_, ?_, ?_, ?_, ?_, ?_, ?_⟩ <;> (try simp) <;> repeat' (first | intro _ | (split <;> try simp))

theorem execActivateFwSystemReset_frame (tag : BitVec 6) (s : State) (t : State)
    (h : execActivateFwSystemReset tag s = .next t) :
    t.pending = s.pending ∧ t.free = s.free ∧ t.flash.mem = s.flash.mem ∧ t.trust.fuses = s.trust.fuses := by
  unfold execActivateFwSystemReset at h
  injection h with h; subst h
  refine ⟨?_, ?_, ?_, ?_⟩ <;> (try simp) <;> repeat' (first | intro _ | (split <;> try simp))

theorem execFwactDrainEnd_frame (s : State) (t : State)
    (h : execFwactDrainEnd s = .next t) :
    t.pending = s.pending ∧ t.out = s.out ∧ t.free = s.free ∧ t.ev = s.ev ∧ t.ham = s.ham ∧ t.mem = s.mem ∧ t.cfg = s.cfg ∧
    t.trust = s.trust ∧ t.blk = s.blk ∧ t.isl = s.isl ∧ t.inj = s.inj ∧ t.flash.mem = s.flash.mem := by
  unfold execFwactDrainEnd at h
  injection h with h; subst h
  refine ⟨?_, ?_, ?_, ?_, ?_, ?_, ?_, ?_, ?_, ?_, ?_, ?_⟩ <;> (try simp) <;> repeat' (first | intro _ | (split <;> try simp))

@[simp] theorem State.actEnd_frame (s : State) (order : Nat) (st : Status) :
    (s.actEnd order st).pending = s.pending ∧ (s.actEnd order st).free = s.free ∧ (s.actEnd order st).flash = s.flash ∧
    (s.actEnd order st).trust = s.trust ∧ (s.actEnd order st).blk = s.blk ∧ (s.actEnd order st).isl = s.isl ∧
    (s.actEnd order st).inj = s.inj ∧ (s.actEnd order st).mem.ddr = s.mem.ddr := by
  unfold State.actEnd
  refine ⟨?_, ?_, ?_, ?_, ?_, ?_, ?_, ?_⟩ <;> (try simp) <;> repeat' (first | intro _ | (split <;> try simp))

theorem execFwStartResult_frame (started : Bool) (s : State) (t : State)
    (h : execFwStartResult started s = .next t) :
    t.pending = s.pending ∧ t.free = s.free ∧ t.blk = s.blk ∧ t.isl = s.isl ∧ t.inj = s.inj ∧ t.mem.ddr = s.mem.ddr ∧
    t.trust.fuses = s.trust.fuses := by
  unfold execFwStartResult at h
  injection h with h; subst h
  refine ⟨?_, ?_, ?_, ?_, ?_, ?_, ?_⟩ <;> (try simp) <;> repeat' (first | intro _ | (split <;> try simp))

theorem execMountAttach_frame (tag : BitVec 6) (s : State) (t : State)
    (h : execMountAttach tag s = .next t) :
    t.pending = s.pending ∧ t.free = s.free ∧ t.flash = s.flash ∧ t.trust = s.trust ∧ t.blk = s.blk ∧ t.isl = s.isl ∧
    t.inj = s.inj ∧ t.bays = s.bays ∧ t.mem.ddr = s.mem.ddr := by
  unfold execMountAttach at h
  injection h with h; subst h
  refine ⟨?_, ?_, ?_, ?_, ?_, ?_, ?_, ?_, ?_⟩ <;> (try simp) <;> repeat' (first | intro _ | (split <;> try simp))

theorem execMountCreate_frame (tag : BitVec 6) (block : Bytes) (s : State) (t : State)
    (h : execMountCreate tag block s = .next t) :
    t.pending = s.pending ∧ t.out = s.out ∧ t.free = s.free ∧ t.ev = s.ev ∧ t.flash = s.flash ∧ t.trust = s.trust ∧
    t.blk = s.blk ∧ t.isl = s.isl ∧ t.inj = s.inj ∧ t.chip = s.chip ∧ t.mem.ddr = s.mem.ddr := by
  unfold execMountCreate at h
  injection h with h; subst h
  refine ⟨?_, ?_, ?_, ?_, ?_, ?_, ?_, ?_, ?_, ?_, ?_⟩ <;> (try simp) <;> repeat' (first | intro _ | (split <;> try simp))

theorem execMountReplace_frame (tag : BitVec 6) (s : State) (t : State)
    (h : execMountReplace tag s = .next t) :
    t.pending = s.pending ∧ t.out = s.out ∧ t.free = s.free ∧ t.ev = s.ev ∧ t.flash = s.flash ∧ t.trust = s.trust ∧
    t.blk = s.blk ∧ t.isl = s.isl ∧ t.inj = s.inj ∧ t.chip = s.chip ∧ t.mem.ddr = s.mem.ddr := by
  unfold execMountReplace at h
  injection h with h; subst h
  refine ⟨?_, ?_, ?_, ?_, ?_, ?_, ?_, ?_, ?_, ?_, ?_⟩ <;> (try simp) <;> repeat' (first | intro _ | (split <;> try simp))

theorem execUnmount_frame (tag : BitVec 6) (s : State) (t : State)
    (h : execUnmount tag s = .next t) :
    t.pending = s.pending ∧ t.out = s.out ∧ t.free = s.free ∧ t.ev = s.ev ∧ t.flash = s.flash ∧ t.trust = s.trust ∧
    t.blk = s.blk ∧ t.isl = s.isl ∧ t.inj = s.inj ∧ t.chip = s.chip ∧ t.mem.ddr = s.mem.ddr := by
  unfold execUnmount at h
  injection h with h; subst h
  refine ⟨?_, ?_, ?_, ?_, ?_, ?_, ?_, ?_, ?_, ?_, ?_⟩ <;> (try simp) <;> repeat' (first | intro _ | (split <;> try simp))

end Sys2Proof.Machine
end

