-- ==== Sys2Proof/Laws/FrameInjectOps.lean ====
section
/-! SUPPORT. What the operations of Machine/InjectOps.lean leave unchanged: one lemma each, the fields of the state it does not touch. -/

namespace Sys2Proof.Machine

@[simp] theorem State.updInj_frame (s : State) (id : Nat) (g : Inject → Inject) :
    (s.updInj id g).pending = s.pending ∧ (s.updInj id g).out = s.out ∧ (s.updInj id g).free = s.free ∧
    (s.updInj id g).host = s.host ∧ (s.updInj id g).ev = s.ev ∧ (s.updInj id g).ham = s.ham ∧ (s.updInj id g).mem = s.mem ∧
    (s.updInj id g).flash = s.flash ∧ (s.updInj id g).cfg = s.cfg ∧ (s.updInj id g).trust = s.trust ∧
    (s.updInj id g).blk = s.blk ∧ (s.updInj id g).isl = s.isl ∧ (s.updInj id g).chip = s.chip ∧ (s.updInj id g).bays = s.bays := by
  unfold State.updInj
  refine ⟨?_, ?_, ?_, ?_, ?_, ?_, ?_, ?_, ?_, ?_, ?_, ?_, ?_, ?_⟩ <;> (try simp) <;> repeat' (first | intro _ | (split <;> try simp))

@[simp] theorem State.endInject_frame (s : State) (id : Nat) :
    (s.endInject id).pending = s.pending ∧ (s.endInject id).free = s.free ∧ (s.endInject id).ham = s.ham ∧
    (s.endInject id).mem = s.mem ∧ (s.endInject id).flash = s.flash ∧ (s.endInject id).cfg = s.cfg ∧
    (s.endInject id).trust = s.trust ∧ (s.endInject id).blk = s.blk ∧ (s.endInject id).isl = s.isl ∧
    (s.endInject id).bays = s.bays := by
  unfold State.endInject
  refine ⟨?_, ?_, ?_, ?_, ?_, ?_, ?_, ?_, ?_, ?_⟩ <;> (try simp) <;> repeat' (first | intro _ | (split <;> try simp))

@[simp] theorem State.injectOne_frame (s : State) (id : Nat) (sample : Bool) (k0 : List Bytes) :
    (s.injectOne id sample k0).2.pending = s.pending ∧ (s.injectOne id sample k0).2.ham = s.ham ∧
    (s.injectOne id sample k0).2.mem = s.mem ∧ (s.injectOne id sample k0).2.flash = s.flash ∧
    (s.injectOne id sample k0).2.cfg = s.cfg ∧ (s.injectOne id sample k0).2.trust = s.trust ∧
    (s.injectOne id sample k0).2.blk = s.blk ∧ (s.injectOne id sample k0).2.isl = s.isl ∧
    (s.injectOne id sample k0).2.bays = s.bays := by
  induction k0 generalizing s id sample with
  | nil => unfold State.injectOne; simp
  | cons a l ih =>
    unfold State.injectOne
    refine ⟨?_, ?_, ?_, ?_, ?_, ?_, ?_, ?_, ?_⟩ <;> (try simp [ih]) <;> repeat' (split <;> try simp [ih])

@[simp] theorem State.injectFrame_frame (s : State) (target : Nat × Nat × Nat) (frame : Bytes) :
    (s.injectFrame target frame).2.pending = s.pending ∧ (s.injectFrame target frame).2.ham = s.ham ∧
    (s.injectFrame target frame).2.mem = s.mem ∧ (s.injectFrame target frame).2.flash = s.flash ∧
    (s.injectFrame target frame).2.cfg = s.cfg ∧ (s.injectFrame target frame).2.trust = s.trust ∧
    (s.injectFrame target frame).2.blk = s.blk ∧ (s.injectFrame target frame).2.isl = s.isl ∧
    (s.injectFrame target frame).2.bays = s.bays := by
  unfold State.injectFrame
  refine ⟨?_, ?_, ?_, ?_, ?_, ?_, ?_, ?_, ?_⟩
  · dsimp only; split
    · rfl
    · rw [State.foldl2_pending]; intro r a; simp
  · dsimp only; split
    · rfl
    · rw [State.foldl2_ham]; intro r a; simp
  · dsimp only; split
    · rfl
    · rw [State.foldl2_mem]; intro r a; simp
  · dsimp only; split
    · rfl
    · rw [State.foldl2_flash]; intro r a; simp
  · dsimp only; split
    · rfl
    · rw [State.foldl2_cfg]; intro r a; simp
  · dsimp only; split
    · rfl
    · rw [State.foldl2_trust]; intro r a; simp
  · dsimp only; split
    · rfl
    · rw [State.foldl2_blk]; intro r a; simp
  · dsimp only; split
    · rfl
    · rw [State.foldl2_isl]; intro r a; simp
  · dsimp only; split
    · rfl
    · rw [State.foldl2_bays]; intro r a; simp

@[simp] theorem State.sendDn_frame (s : State) (b : BayId) (p : Pu) (plain : Bytes) :
    (s.sendDn b p plain).pending = s.pending ∧ (s.sendDn b p plain).ham = s.ham ∧ (s.sendDn b p plain).mem = s.mem ∧
    (s.sendDn b p plain).flash = s.flash ∧ (s.sendDn b p plain).cfg = s.cfg ∧ (s.sendDn b p plain).trust = s.trust ∧
    (s.sendDn b p plain).blk = s.blk ∧ (s.sendDn b p plain).isl = s.isl ∧ (s.sendDn b p plain).bays = s.bays := by
  unfold State.sendDn
  refine ⟨?_, ?_, ?_, ?_, ?_, ?_, ?_, ?_, ?_⟩ <;> (try simp) <;> repeat' (first | intro _ | (split <;> try simp) | ((first | rw [State.foldl_pending] | rw [State.foldl2_pending] | rw [State.foldl_ham] | rw [State.foldl2_ham] | rw [State.foldl_mem] | rw [State.foldl2_mem] | rw [State.foldl_flash] | rw [State.foldl2_flash] | rw [State.foldl_cfg] | rw [State.foldl2_cfg] | rw [State.foldl_trust] | rw [State.foldl2_trust] | rw [State.foldl_blk] | rw [State.foldl2_blk] | rw [State.foldl_isl] | rw [State.foldl2_isl] | rw [State.foldl_bays] | rw [State.foldl2_bays]) <;> intros <;> try simp))

@[simp] theorem State.sendMotor_frame (s : State) (b : BayId) (plain : Bytes) :
    (s.sendMotor b plain).pending = s.pending ∧ (s.sendMotor b plain).ham = s.ham ∧ (s.sendMotor b plain).mem = s.mem ∧
    (s.sendMotor b plain).flash = s.flash ∧ (s.sendMotor b plain).cfg = s.cfg ∧ (s.sendMotor b plain).trust = s.trust ∧
    (s.sendMotor b plain).blk = s.blk ∧ (s.sendMotor b plain).isl = s.isl ∧ (s.sendMotor b plain).bays = s.bays := by
  unfold State.sendMotor
  refine ⟨?_, ?_, ?_, ?_, ?_, ?_, ?_, ?_, ?_⟩ <;> (try simp) <;> repeat' (first | intro _ | (split <;> try simp) | ((first | rw [State.foldl_pending] | rw [State.foldl2_pending] | rw [State.foldl_ham] | rw [State.foldl2_ham] | rw [State.foldl_mem] | rw [State.foldl2_mem] | rw [State.foldl_flash] | rw [State.foldl2_flash] | rw [State.foldl_cfg] | rw [State.foldl2_cfg] | rw [State.foldl_trust] | rw [State.foldl2_trust] | rw [State.foldl_blk] | rw [State.foldl2_blk] | rw [State.foldl_isl] | rw [State.foldl2_isl] | rw [State.foldl_bays] | rw [State.foldl2_bays]) <;> intros <;> try simp))

@[simp] theorem State.measureInject_frame (s : State) (c : Cmd) (etype : Nat) :
    (s.measureInject c etype).pending = s.pending ∧ (s.measureInject c etype).out = s.out ∧
    (s.measureInject c etype).free = s.free ∧ (s.measureInject c etype).host = s.host ∧ (s.measureInject c etype).ev = s.ev ∧
    (s.measureInject c etype).ham = s.ham ∧ (s.measureInject c etype).mem = s.mem ∧ (s.measureInject c etype).flash = s.flash ∧
    (s.measureInject c etype).cfg = s.cfg ∧ (s.measureInject c etype).blk = s.blk ∧ (s.measureInject c etype).isl = s.isl ∧
    (s.measureInject c etype).inj = s.inj ∧ (s.measureInject c etype).chip = s.chip ∧ (s.measureInject c etype).bays = s.bays ∧
    (s.measureInject c etype).trust.fuses = s.trust.fuses := by
  unfold State.measureInject
  refine ⟨?_, ?_, ?_, ?_, ?_, ?_, ?_, ?_, ?_, ?_, ?_, ?_, ?_, ?_, ?_⟩ <;> (try simp) <;> repeat' (first | intro _ | (split <;> try simp))

theorem execFaultInjectArm_frame (tag : BitVec 6) (s : State) (t : State)
    (h : execFaultInjectArm tag s = .next t) :
    t.pending = s.pending ∧ t.out = s.out ∧ t.free = s.free ∧ t.ev = s.ev ∧ t.ham = s.ham ∧ t.flash = s.flash ∧ t.blk = s.blk ∧
    t.isl = s.isl ∧ t.chip = s.chip ∧ t.bays = s.bays ∧ t.mem.ddr = s.mem.ddr ∧ t.trust.fuses = s.trust.fuses := by
  unfold execFaultInjectArm at h
  injection h with h; subst h
  refine ⟨?_, ?_, ?_, ?_, ?_, ?_, ?_, ?_, ?_, ?_, ?_, ?_⟩ <;> (try simp) <;> repeat' (first | intro _ | (split <;> try simp))

theorem execFaultInjectCancel_frame (tag : BitVec 6) (s : State) (t : State)
    (h : execFaultInjectCancel tag s = .next t) :
    t.pending = s.pending ∧ t.free = s.free ∧ t.ham = s.ham ∧ t.flash = s.flash ∧ t.blk = s.blk ∧ t.isl = s.isl ∧
    t.bays = s.bays ∧ t.mem.ddr = s.mem.ddr ∧ t.trust.fuses = s.trust.fuses := by
  unfold execFaultInjectCancel at h
  injection h with h; subst h
  refine ⟨?_, ?_, ?_, ?_, ?_, ?_, ?_, ?_, ?_⟩ <;> (try simp) <;> repeat' (first | intro _ | (split <;> try simp))

theorem execFaultInjectCancelAll_frame (tag : BitVec 6) (s : State) (t : State)
    (h : execFaultInjectCancelAll tag s = .next t) :
    t.pending = s.pending ∧ t.free = s.free ∧ t.ham = s.ham ∧ t.flash = s.flash ∧ t.blk = s.blk ∧ t.isl = s.isl ∧
    t.bays = s.bays ∧ t.mem.ddr = s.mem.ddr ∧ t.trust.fuses = s.trust.fuses := by
  unfold execFaultInjectCancelAll at h
  injection h with h; subst h
  refine ⟨?_, ?_, ?_, ?_, ?_, ?_, ?_, ?_, ?_⟩ <;> (try simp) <;> repeat' (first | intro _ | (split <;> try simp))

theorem execFaultInjectList_frame (tag : BitVec 6) (s : State) (t : State)
    (h : execFaultInjectList tag s = .next t) :
    t.pending = s.pending ∧ t.free = s.free ∧ t.ev = s.ev ∧ t.ham = s.ham ∧ t.flash = s.flash ∧ t.blk = s.blk ∧ t.isl = s.isl ∧
    t.inj = s.inj ∧ t.chip = s.chip ∧ t.bays = s.bays ∧ t.mem.ddr = s.mem.ddr ∧ t.trust.fuses = s.trust.fuses := by
  unfold execFaultInjectList at h
  injection h with h; subst h
  refine ⟨?_, ?_, ?_, ?_, ?_, ?_, ?_, ?_, ?_, ?_, ?_, ?_⟩ <;> (try simp) <;> repeat' (first | intro _ | (split <;> try simp))

theorem execDiagRawWrite_frame (tag : BitVec 6) (block : Bytes) (s : State) (t : State)
    (h : execDiagRawWrite tag block s = .next t) :
    t.pending = s.pending ∧ t.out = s.out ∧ t.free = s.free ∧ t.ev = s.ev ∧ t.ham = s.ham ∧ t.flash = s.flash ∧ t.blk = s.blk ∧
    t.isl = s.isl ∧ t.inj = s.inj ∧ t.chip = s.chip ∧ t.bays = s.bays ∧ t.mem.ddr = s.mem.ddr ∧ t.trust.fuses = s.trust.fuses := by
  unfold execDiagRawWrite at h
  injection h with h; subst h
  refine ⟨?_, ?_, ?_, ?_, ?_, ?_, ?_, ?_, ?_, ?_, ?_, ?_, ?_⟩ <;> (try simp) <;> repeat' (first | intro _ | (split <;> try simp))

theorem execDiagRawRead_frame (tag : BitVec 6) (s : State) (t : State)
    (h : execDiagRawRead tag s = .next t) :
    t.pending = s.pending ∧ t.free = s.free ∧ t.ev = s.ev ∧ t.ham = s.ham ∧ t.flash = s.flash ∧ t.blk = s.blk ∧ t.isl = s.isl ∧
    t.inj = s.inj ∧ t.chip = s.chip ∧ t.bays = s.bays ∧ t.mem.ddr = s.mem.ddr ∧ t.trust.fuses = s.trust.fuses := by
  unfold execDiagRawRead at h
  injection h with h; subst h
  refine ⟨?_, ?_, ?_, ?_, ?_, ?_, ?_, ?_, ?_, ?_, ?_, ?_⟩ <;> (try simp) <;> repeat' (first | intro _ | (split <;> try simp))

theorem execInjectActionStart_frame (id : BitVec 16) (s : State) (t : State)
    (h : execInjectActionStart id s = .next t) :
    t.pending = s.pending ∧ t.free = s.free ∧ t.ham = s.ham ∧ t.mem = s.mem ∧ t.flash = s.flash ∧ t.cfg = s.cfg ∧
    t.trust = s.trust ∧ t.blk = s.blk ∧ t.isl = s.isl ∧ t.bays = s.bays := by
  unfold execInjectActionStart at h
  injection h with h; subst h
  refine ⟨?_, ?_, ?_, ?_, ?_, ?_, ?_, ?_, ?_, ?_⟩ <;> (try simp) <;> repeat' (first | intro _ | (split <;> try simp))

theorem execInjectDurationEnd_frame (id : BitVec 16) (s : State) (t : State)
    (h : execInjectDurationEnd id s = .next t) :
    t.pending = s.pending ∧ t.free = s.free ∧ t.ham = s.ham ∧ t.mem = s.mem ∧ t.flash = s.flash ∧ t.cfg = s.cfg ∧
    t.trust = s.trust ∧ t.blk = s.blk ∧ t.isl = s.isl ∧ t.bays = s.bays := by
  unfold execInjectDurationEnd at h
  injection h with h; subst h
  refine ⟨?_, ?_, ?_, ?_, ?_, ?_, ?_, ?_, ?_, ?_⟩ <;> (try simp) <;> repeat' (first | intro _ | (split <;> try simp))

end Sys2Proof.Machine
end

