-- ==== Sys2Proof/Laws/FrameLinkOps.lean ====
section
/-! SUPPORT. What the operations of Machine/LinkOps.lean leave unchanged: one lemma each, the fields of the state it does not touch. -/

namespace Sys2Proof.Machine

@[simp] theorem State.updLink_frame (s : State) (b : BayId) (p : Pu) (g : HLink → HLink) :
    (s.updLink b p g).pending = s.pending ∧ (s.updLink b p g).out = s.out ∧ (s.updLink b p g).free = s.free ∧
    (s.updLink b p g).host = s.host ∧ (s.updLink b p g).ev = s.ev ∧ (s.updLink b p g).ham = s.ham ∧
    (s.updLink b p g).mem = s.mem ∧ (s.updLink b p g).flash = s.flash ∧ (s.updLink b p g).cfg = s.cfg ∧
    (s.updLink b p g).trust = s.trust ∧ (s.updLink b p g).blk = s.blk ∧ (s.updLink b p g).isl = s.isl ∧
    (s.updLink b p g).inj = s.inj ∧ (s.updLink b p g).chip = s.chip := by
  unfold State.updLink
  refine ⟨?_, ?_, ?_, ?_, ?_, ?_, ?_, ?_, ?_, ?_, ?_, ?_, ?_, ?_⟩ <;> (try simp) <;> repeat' (first | intro _ | (split <;> try simp))

@[simp] theorem State.rxLane_frame (s : State) (b : BayId) (p : Pu) (ph : PhysLane) (raw : Bytes) :
    (s.rxLane b p ph raw).2.pending = s.pending ∧ (s.rxLane b p ph raw).2.ham = s.ham ∧ (s.rxLane b p ph raw).2.mem = s.mem ∧
    (s.rxLane b p ph raw).2.flash = s.flash ∧ (s.rxLane b p ph raw).2.cfg = s.cfg ∧ (s.rxLane b p ph raw).2.trust = s.trust ∧
    (s.rxLane b p ph raw).2.blk = s.blk ∧ (s.rxLane b p ph raw).2.isl = s.isl := by
  unfold State.rxLane
  refine ⟨?_, ?_, ?_, ?_, ?_, ?_, ?_, ?_⟩ <;> (try simp) <;> repeat' (first | intro _ | (split <;> try simp) | ((first | rw [State.foldl_pending] | rw [State.foldl2_pending] | rw [State.foldl_ham] | rw [State.foldl2_ham] | rw [State.foldl_mem] | rw [State.foldl2_mem] | rw [State.foldl_flash] | rw [State.foldl2_flash] | rw [State.foldl_cfg] | rw [State.foldl2_cfg] | rw [State.foldl_trust] | rw [State.foldl2_trust] | rw [State.foldl_blk] | rw [State.foldl2_blk] | rw [State.foldl_isl] | rw [State.foldl2_isl]) <;> intros <;> try simp))

@[simp] theorem State.takeBlock_frame (s : State) (b : BayId) (p : Pu) (blk : SBlock) :
    (s.takeBlock b p blk).pending = s.pending ∧ (s.takeBlock b p blk).free = s.free ∧ (s.takeBlock b p blk).ham = s.ham ∧
    (s.takeBlock b p blk).mem = s.mem ∧ (s.takeBlock b p blk).flash = s.flash ∧ (s.takeBlock b p blk).cfg = s.cfg ∧
    (s.takeBlock b p blk).trust = s.trust ∧ (s.takeBlock b p blk).blk = s.blk ∧ (s.takeBlock b p blk).isl = s.isl ∧
    (s.takeBlock b p blk).inj = s.inj := by
  unfold State.takeBlock
  refine ⟨?_, ?_, ?_, ?_, ?_, ?_, ?_, ?_, ?_, ?_⟩ <;> (try simp) <;> repeat' (first | intro _ | (split <;> try simp))

@[simp] theorem State.takeSample_frame (s : State) (b : BayId) (p : Pu) (ph : PhysLane) (f : Bytes) :
    (s.takeSample b p ph f).pending = s.pending ∧ (s.takeSample b p ph f).free = s.free ∧ (s.takeSample b p ph f).ham = s.ham ∧
    (s.takeSample b p ph f).mem = s.mem ∧ (s.takeSample b p ph f).flash = s.flash ∧ (s.takeSample b p ph f).cfg = s.cfg ∧
    (s.takeSample b p ph f).trust = s.trust ∧ (s.takeSample b p ph f).blk = s.blk ∧ (s.takeSample b p ph f).isl = s.isl ∧
    (s.takeSample b p ph f).inj = s.inj := by
  unfold State.takeSample
  refine ⟨?_, ?_, ?_, ?_, ?_, ?_, ?_, ?_, ?_, ?_⟩ <;> (try simp) <;> repeat' (first | intro _ | (split <;> try simp))

@[simp] theorem State.sendHead_frame (s : State) (b : BayId) (p : Pu) (type tsh : Nat) (payload : Bytes) :
    (s.sendHead b p type tsh payload).pending = s.pending ∧ (s.sendHead b p type tsh payload).ham = s.ham ∧
    (s.sendHead b p type tsh payload).mem = s.mem ∧ (s.sendHead b p type tsh payload).flash = s.flash ∧
    (s.sendHead b p type tsh payload).cfg = s.cfg ∧ (s.sendHead b p type tsh payload).trust = s.trust ∧
    (s.sendHead b p type tsh payload).blk = s.blk ∧ (s.sendHead b p type tsh payload).isl = s.isl := by
  unfold State.sendHead
  refine ⟨?_, ?_, ?_, ?_, ?_, ?_, ?_, ?_⟩ <;> (try simp) <;> repeat' (first | intro _ | (split <;> try simp))

@[simp] theorem State.sendCtrl_frame (s : State) (b : BayId) (p : Pu) (tsh : Nat) (payload : Bytes) :
    (s.sendCtrl b p tsh payload).pending = s.pending ∧ (s.sendCtrl b p tsh payload).ham = s.ham ∧
    (s.sendCtrl b p tsh payload).mem = s.mem ∧ (s.sendCtrl b p tsh payload).flash = s.flash ∧
    (s.sendCtrl b p tsh payload).cfg = s.cfg ∧ (s.sendCtrl b p tsh payload).trust = s.trust ∧
    (s.sendCtrl b p tsh payload).blk = s.blk ∧ (s.sendCtrl b p tsh payload).isl = s.isl := by
  unfold State.sendCtrl
  refine ⟨?_, ?_, ?_, ?_, ?_, ?_, ?_, ?_⟩ <;> (try simp) <;> repeat' (first | intro _ | (split <;> try simp))

@[simp] theorem State.sendWrite_frame (s : State) (b : BayId) (p : Pu) (w : Nat × Bytes) :
    (s.sendWrite b p w).pending = s.pending ∧ (s.sendWrite b p w).ham = s.ham ∧ (s.sendWrite b p w).mem = s.mem ∧
    (s.sendWrite b p w).flash = s.flash ∧ (s.sendWrite b p w).cfg = s.cfg ∧ (s.sendWrite b p w).trust = s.trust ∧
    (s.sendWrite b p w).blk = s.blk ∧ (s.sendWrite b p w).isl = s.isl := by
  unfold State.sendWrite
  refine ⟨?_, ?_, ?_, ?_, ?_, ?_, ?_, ?_⟩ <;> (try simp) <;> repeat' (first | intro _ | (split <;> try simp))

@[simp] theorem State.dnSlot_frame (s : State) (b : BayId) (p : Pu) :
    (s.dnSlot b p).pending = s.pending ∧ (s.dnSlot b p).ham = s.ham ∧ (s.dnSlot b p).mem = s.mem ∧
    (s.dnSlot b p).flash = s.flash ∧ (s.dnSlot b p).cfg = s.cfg ∧ (s.dnSlot b p).trust = s.trust ∧ (s.dnSlot b p).blk = s.blk ∧
    (s.dnSlot b p).isl = s.isl := by
  unfold State.dnSlot
  refine ⟨?_, ?_, ?_, ?_, ?_, ?_, ?_, ?_⟩ <;> (try simp) <;> repeat' (first | intro _ | (split <;> try simp))

@[simp] theorem State.dnSlots_frame (s : State) (b : BayId) (p : Pu) :
    (s.dnSlots b p).pending = s.pending ∧ (s.dnSlots b p).ham = s.ham ∧ (s.dnSlots b p).mem = s.mem ∧
    (s.dnSlots b p).flash = s.flash ∧ (s.dnSlots b p).cfg = s.cfg ∧ (s.dnSlots b p).trust = s.trust ∧
    (s.dnSlots b p).blk = s.blk ∧ (s.dnSlots b p).isl = s.isl := by
  unfold State.dnSlots
  refine ⟨?_, ?_, ?_, ?_, ?_, ?_, ?_, ?_⟩ <;> (try simp) <;> repeat' (first | intro _ | (split <;> try simp))

@[simp] theorem State.dnTick_frame (s : State) :
    (s.dnTick).pending = s.pending ∧ (s.dnTick).ham = s.ham ∧ (s.dnTick).mem = s.mem ∧ (s.dnTick).flash = s.flash ∧
    (s.dnTick).cfg = s.cfg ∧ (s.dnTick).trust = s.trust ∧ (s.dnTick).blk = s.blk ∧ (s.dnTick).isl = s.isl := by
  unfold State.dnTick
  refine ⟨?_, ?_, ?_, ?_, ?_, ?_, ?_, ?_⟩ <;> (try simp) <;> repeat' (first | intro _ | (split <;> try simp) | ((first | rw [State.foldl_pending] | rw [State.foldl2_pending] | rw [State.foldl_ham] | rw [State.foldl2_ham] | rw [State.foldl_mem] | rw [State.foldl2_mem] | rw [State.foldl_flash] | rw [State.foldl2_flash] | rw [State.foldl_cfg] | rw [State.foldl2_cfg] | rw [State.foldl_trust] | rw [State.foldl2_trust] | rw [State.foldl_blk] | rw [State.foldl2_blk] | rw [State.foldl_isl] | rw [State.foldl2_isl]) <;> intros <;> try simp))

@[simp] theorem State.ctrlPump_frame (s : State) (b : BayId) (p : Pu) (k0 : Nat) :
    (s.ctrlPump b p k0).pending = s.pending ∧ (s.ctrlPump b p k0).ham = s.ham ∧ (s.ctrlPump b p k0).mem = s.mem ∧
    (s.ctrlPump b p k0).flash = s.flash ∧ (s.ctrlPump b p k0).cfg = s.cfg ∧ (s.ctrlPump b p k0).trust = s.trust ∧
    (s.ctrlPump b p k0).blk = s.blk ∧ (s.ctrlPump b p k0).isl = s.isl := by
  induction k0 generalizing s b p with
  | zero => unfold State.ctrlPump; simp
  | succ n ih =>
    unfold State.ctrlPump
    refine ⟨?_, ?_, ?_, ?_, ?_, ?_, ?_, ?_⟩ <;> (try simp [ih]) <;> repeat' (split <;> try simp [ih])

@[simp] theorem State.ctrlIssue_frame (s : State) (b : BayId) (p : Pu) (op addr : Nat) (data : Bytes) :
    (s.ctrlIssue b p op addr data).pending = s.pending ∧ (s.ctrlIssue b p op addr data).ham = s.ham ∧
    (s.ctrlIssue b p op addr data).mem = s.mem ∧ (s.ctrlIssue b p op addr data).flash = s.flash ∧
    (s.ctrlIssue b p op addr data).cfg = s.cfg ∧ (s.ctrlIssue b p op addr data).trust = s.trust ∧
    (s.ctrlIssue b p op addr data).blk = s.blk ∧ (s.ctrlIssue b p op addr data).isl = s.isl := by
  unfold State.ctrlIssue
  refine ⟨?_, ?_, ?_, ?_, ?_, ?_, ?_, ?_⟩ <;> (try simp) <;> repeat' (first | intro _ | (split <;> try simp))

@[simp] theorem State.ctrlRead_frame (s : State) (b : BayId) (p : Pu) (addr len : Nat) :
    (s.ctrlRead b p addr len).pending = s.pending ∧ (s.ctrlRead b p addr len).ham = s.ham ∧
    (s.ctrlRead b p addr len).mem = s.mem ∧ (s.ctrlRead b p addr len).flash = s.flash ∧ (s.ctrlRead b p addr len).cfg = s.cfg ∧
    (s.ctrlRead b p addr len).trust = s.trust ∧ (s.ctrlRead b p addr len).blk = s.blk ∧ (s.ctrlRead b p addr len).isl = s.isl := by
  unfold State.ctrlRead
  refine ⟨?_, ?_, ?_, ?_, ?_, ?_, ?_, ?_⟩ <;> (try simp) <;> repeat' (first | intro _ | (split <;> try simp))

@[simp] theorem State.regWrite_frame (s : State) (b : BayId) (p : Pu) (addr : Nat) (data : Bytes) (k0 : Nat) :
    (s.regWrite b p addr data k0).pending = s.pending ∧ (s.regWrite b p addr data k0).ham = s.ham ∧
    (s.regWrite b p addr data k0).mem = s.mem ∧ (s.regWrite b p addr data k0).flash = s.flash ∧
    (s.regWrite b p addr data k0).cfg = s.cfg ∧ (s.regWrite b p addr data k0).trust = s.trust ∧
    (s.regWrite b p addr data k0).blk = s.blk ∧ (s.regWrite b p addr data k0).isl = s.isl := by
  induction k0 generalizing s b p addr data with
  | zero => unfold State.regWrite; simp
  | succ n ih =>
    unfold State.regWrite
    refine ⟨?_, ?_, ?_, ?_, ?_, ?_, ?_, ?_⟩ <;> (try simp [ih]) <;> repeat' (split <;> try simp [ih])

@[simp] theorem State.regRead_frame (s : State) (b : BayId) (p : Pu) (addr len : Nat) (k0 : Nat) :
    (s.regRead b p addr len k0).pending = s.pending ∧ (s.regRead b p addr len k0).ham = s.ham ∧
    (s.regRead b p addr len k0).mem = s.mem ∧ (s.regRead b p addr len k0).flash = s.flash ∧
    (s.regRead b p addr len k0).cfg = s.cfg ∧ (s.regRead b p addr len k0).trust = s.trust ∧
    (s.regRead b p addr len k0).blk = s.blk ∧ (s.regRead b p addr len k0).isl = s.isl := by
  induction k0 generalizing s b p addr len with
  | zero => unfold State.regRead; simp
  | succ n ih =>
    unfold State.regRead
    refine ⟨?_, ?_, ?_, ?_, ?_, ?_, ?_, ?_⟩ <;> (try simp [ih]) <;> repeat' (split <;> try simp [ih])

@[simp] theorem State.laneMap_frame (s : State) (b : BayId) (p : Pu) (m0 m1 : PhysLane) :
    (s.laneMap b p m0 m1).pending = s.pending ∧ (s.laneMap b p m0 m1).ham = s.ham ∧ (s.laneMap b p m0 m1).mem = s.mem ∧
    (s.laneMap b p m0 m1).flash = s.flash ∧ (s.laneMap b p m0 m1).cfg = s.cfg ∧ (s.laneMap b p m0 m1).trust = s.trust ∧
    (s.laneMap b p m0 m1).blk = s.blk ∧ (s.laneMap b p m0 m1).isl = s.isl := by
  unfold State.laneMap
  refine ⟨?_, ?_, ?_, ?_, ?_, ?_, ?_, ?_⟩ <;> (try simp) <;> repeat' (first | intro _ | (split <;> try simp))

@[simp] theorem State.laneTrain_frame (s : State) (b : BayId) (p : Pu) (ph : PhysLane) :
    (s.laneTrain b p ph).pending = s.pending ∧ (s.laneTrain b p ph).ham = s.ham ∧ (s.laneTrain b p ph).mem = s.mem ∧
    (s.laneTrain b p ph).flash = s.flash ∧ (s.laneTrain b p ph).cfg = s.cfg ∧ (s.laneTrain b p ph).trust = s.trust ∧
    (s.laneTrain b p ph).blk = s.blk ∧ (s.laneTrain b p ph).isl = s.isl := by
  unfold State.laneTrain
  refine ⟨?_, ?_, ?_, ?_, ?_, ?_, ?_, ?_⟩ <;> (try simp) <;> repeat' (first | intro _ | (split <;> try simp))

@[simp] theorem State.laneTrainStop_frame (s : State) (b : BayId) (p : Pu) (ph : PhysLane) :
    (s.laneTrainStop b p ph).pending = s.pending ∧ (s.laneTrainStop b p ph).ham = s.ham ∧ (s.laneTrainStop b p ph).mem = s.mem ∧
    (s.laneTrainStop b p ph).flash = s.flash ∧ (s.laneTrainStop b p ph).cfg = s.cfg ∧ (s.laneTrainStop b p ph).trust = s.trust ∧
    (s.laneTrainStop b p ph).blk = s.blk ∧ (s.laneTrainStop b p ph).isl = s.isl := by
  unfold State.laneTrainStop
  refine ⟨?_, ?_, ?_, ?_, ?_, ?_, ?_, ?_⟩ <;> (try simp) <;> repeat' (first | intro _ | (split <;> try simp))

@[simp] theorem State.setSpare_frame (s : State) (b : BayId) (v : SpareRx) :
    (s.setSpare b v).pending = s.pending ∧ (s.setSpare b v).out = s.out ∧ (s.setSpare b v).free = s.free ∧
    (s.setSpare b v).host = s.host ∧ (s.setSpare b v).ev = s.ev ∧ (s.setSpare b v).ham = s.ham ∧ (s.setSpare b v).mem = s.mem ∧
    (s.setSpare b v).flash = s.flash ∧ (s.setSpare b v).cfg = s.cfg ∧ (s.setSpare b v).trust = s.trust ∧
    (s.setSpare b v).blk = s.blk ∧ (s.setSpare b v).isl = s.isl ∧ (s.setSpare b v).inj = s.inj ∧ (s.setSpare b v).chip = s.chip := by
  unfold State.setSpare
  refine ⟨?_, ?_, ?_, ?_, ?_, ?_, ?_, ?_, ?_, ?_, ?_, ?_, ?_, ?_⟩ <;> (try simp) <;> repeat' (first | intro _ | (split <;> try simp))

@[simp] theorem State.trainSpare_frame (s : State) (b : BayId) (p : Pu) :
    (s.trainSpare b p).pending = s.pending ∧ (s.trainSpare b p).ham = s.ham ∧ (s.trainSpare b p).mem = s.mem ∧
    (s.trainSpare b p).flash = s.flash ∧ (s.trainSpare b p).cfg = s.cfg ∧ (s.trainSpare b p).trust = s.trust ∧
    (s.trainSpare b p).blk = s.blk ∧ (s.trainSpare b p).isl = s.isl := by
  unfold State.trainSpare
  refine ⟨?_, ?_, ?_, ?_, ?_, ?_, ?_, ?_⟩ <;> (try simp) <;> repeat' (first | intro _ | (split <;> try simp))

@[simp] theorem State.spareStandby_frame (s : State) (b : BayId) :
    (s.spareStandby b).pending = s.pending ∧ (s.spareStandby b).ham = s.ham ∧ (s.spareStandby b).mem = s.mem ∧
    (s.spareStandby b).flash = s.flash ∧ (s.spareStandby b).trust = s.trust ∧ (s.spareStandby b).blk = s.blk ∧
    (s.spareStandby b).isl = s.isl := by
  unfold State.spareStandby
  refine ⟨?_, ?_, ?_, ?_, ?_, ?_, ?_⟩ <;> (try simp) <;> repeat' (first | intro _ | (split <;> try simp))

@[simp] theorem State.retireLane_frame (s : State) (b : BayId) (p : Pu) (ph : PhysLane) :
    (s.retireLane b p ph).pending = s.pending ∧ (s.retireLane b p ph).free = s.free ∧ (s.retireLane b p ph).ham = s.ham ∧
    (s.retireLane b p ph).mem = s.mem ∧ (s.retireLane b p ph).flash = s.flash ∧ (s.retireLane b p ph).cfg = s.cfg ∧
    (s.retireLane b p ph).trust = s.trust ∧ (s.retireLane b p ph).blk = s.blk ∧ (s.retireLane b p ph).isl = s.isl ∧
    (s.retireLane b p ph).inj = s.inj := by
  unfold State.retireLane
  refine ⟨?_, ?_, ?_, ?_, ?_, ?_, ?_, ?_, ?_, ?_⟩ <;> (try simp) <;> repeat' (first | intro _ | (split <;> try simp))

@[simp] theorem State.noteLaneFail_frame (s : State) (b : BayId) (p : Pu) (ph : PhysLane) :
    (s.noteLaneFail b p ph).2.pending = s.pending ∧ (s.noteLaneFail b p ph).2.out = s.out ∧
    (s.noteLaneFail b p ph).2.free = s.free ∧ (s.noteLaneFail b p ph).2.host = s.host ∧ (s.noteLaneFail b p ph).2.ev = s.ev ∧
    (s.noteLaneFail b p ph).2.ham = s.ham ∧ (s.noteLaneFail b p ph).2.mem = s.mem ∧ (s.noteLaneFail b p ph).2.flash = s.flash ∧
    (s.noteLaneFail b p ph).2.cfg = s.cfg ∧ (s.noteLaneFail b p ph).2.trust = s.trust ∧ (s.noteLaneFail b p ph).2.blk = s.blk ∧
    (s.noteLaneFail b p ph).2.isl = s.isl ∧ (s.noteLaneFail b p ph).2.inj = s.inj ∧ (s.noteLaneFail b p ph).2.chip = s.chip := by
  unfold State.noteLaneFail
  refine ⟨?_, ?_, ?_, ?_, ?_, ?_, ?_, ?_, ?_, ?_, ?_, ?_, ?_, ?_⟩ <;> (try simp) <;> repeat' (first | intro _ | (split <;> try simp))

@[simp] theorem State.linkTrain_frame (s : State) (b : BayId) (p : Pu) :
    (s.linkTrain b p).pending = s.pending ∧ (s.linkTrain b p).ham = s.ham ∧ (s.linkTrain b p).mem = s.mem ∧
    (s.linkTrain b p).flash = s.flash ∧ (s.linkTrain b p).trust = s.trust ∧ (s.linkTrain b p).blk = s.blk ∧
    (s.linkTrain b p).isl = s.isl := by
  unfold State.linkTrain
  refine ⟨?_, ?_, ?_, ?_, ?_, ?_, ?_⟩ <;> (try simp) <;> repeat' (first | intro _ | (split <;> try simp))

end Sys2Proof.Machine
end

