-- ==== Sys2Proof/Laws/FrameServiceOps.lean ====
section
/-! SUPPORT. What the operations of Machine/ServiceOps.lean leave unchanged: one lemma each, the fields of the state it does not touch. -/

namespace Sys2Proof.Machine

@[simp] theorem State.noteSector_frame (s : State) (b : BayId) (p : Pu) (r : SectorRec) :
    (s.noteSector b p r).pending = s.pending ∧ (s.noteSector b p r).free = s.free ∧ (s.noteSector b p r).flash = s.flash ∧
    (s.noteSector b p r).trust = s.trust ∧ (s.noteSector b p r).blk = s.blk ∧ (s.noteSector b p r).isl = s.isl ∧
    (s.noteSector b p r).inj = s.inj ∧ (s.noteSector b p r).mem.ddr = s.mem.ddr := by
  unfold State.noteSector
  refine ⟨?_, ?_, ?_, ?_, ?_, ?_, ?_, ?_⟩ <;> (try simp) <;> repeat' (first | intro _ | (split <;> try simp))

@[simp] theorem State.updCoded_frame (s : State) (b : BayId) (p : Pu) (a : SecAddr) (g : Coded → Coded) :
    (s.updCoded b p a g).pending = s.pending ∧ (s.updCoded b p a g).out = s.out ∧ (s.updCoded b p a g).free = s.free ∧
    (s.updCoded b p a g).host = s.host ∧ (s.updCoded b p a g).ev = s.ev ∧ (s.updCoded b p a g).ham = s.ham ∧
    (s.updCoded b p a g).mem = s.mem ∧ (s.updCoded b p a g).flash = s.flash ∧ (s.updCoded b p a g).cfg = s.cfg ∧
    (s.updCoded b p a g).trust = s.trust ∧ (s.updCoded b p a g).blk = s.blk ∧ (s.updCoded b p a g).isl = s.isl ∧
    (s.updCoded b p a g).inj = s.inj ∧ (s.updCoded b p a g).chip = s.chip := by
  unfold State.updCoded
  refine ⟨?_, ?_, ?_, ?_, ?_, ?_, ?_, ?_, ?_, ?_, ?_, ?_, ?_, ?_⟩ <;> (try simp) <;> repeat' (first | intro _ | (split <;> try simp))

@[simp] theorem State.deliverRead_frame (s : State) (b : BayId) (p : Pu) (a : SecAddr) (why : Purpose) (o : SecOutcome) (payload : Option Bytes) :
    (s.deliverRead b p a why o payload).pending = s.pending ∧ (s.deliverRead b p a why o payload).flash = s.flash ∧
    (s.deliverRead b p a why o payload).trust = s.trust ∧ (s.deliverRead b p a why o payload).blk = s.blk ∧
    (s.deliverRead b p a why o payload).isl = s.isl ∧ (s.deliverRead b p a why o payload).inj = s.inj ∧
    (s.deliverRead b p a why o payload).mem.ddr = s.mem.ddr := by
  unfold State.deliverRead
  refine ⟨?_, ?_, ?_, ?_, ?_, ?_, ?_⟩ <;> (try simp) <;> repeat' (first | intro _ | (split <;> try simp))

@[simp] theorem State.endUnread_frame (s : State) (b : BayId) (p : Pu) (a : SecAddr) (why : Purpose) :
    (s.endUnread b p a why).pending = s.pending ∧ (s.endUnread b p a why).flash = s.flash ∧
    (s.endUnread b p a why).trust = s.trust ∧ (s.endUnread b p a why).blk = s.blk ∧ (s.endUnread b p a why).isl = s.isl ∧
    (s.endUnread b p a why).inj = s.inj ∧ (s.endUnread b p a why).mem.ddr = s.mem.ddr := by
  unfold State.endUnread
  refine ⟨?_, ?_, ?_, ?_, ?_, ?_, ?_⟩ <;> (try simp) <;> repeat' (first | intro _ | (split <;> try simp))

@[simp] theorem State.updSoft_frame (s : State) (b : BayId) (p : Pu) (a : SecAddr) (g : SoftSlot → SoftSlot) :
    (s.updSoft b p a g).pending = s.pending ∧ (s.updSoft b p a g).out = s.out ∧ (s.updSoft b p a g).free = s.free ∧
    (s.updSoft b p a g).host = s.host ∧ (s.updSoft b p a g).ev = s.ev ∧ (s.updSoft b p a g).ham = s.ham ∧
    (s.updSoft b p a g).mem = s.mem ∧ (s.updSoft b p a g).flash = s.flash ∧ (s.updSoft b p a g).cfg = s.cfg ∧
    (s.updSoft b p a g).trust = s.trust ∧ (s.updSoft b p a g).blk = s.blk ∧ (s.updSoft b p a g).isl = s.isl ∧
    (s.updSoft b p a g).inj = s.inj ∧ (s.updSoft b p a g).chip = s.chip := by
  unfold State.updSoft
  refine ⟨?_, ?_, ?_, ?_, ?_, ?_, ?_, ?_, ?_, ?_, ?_, ?_, ?_, ?_⟩ <;> (try simp) <;> repeat' (first | intro _ | (split <;> try simp))

@[simp] theorem State.endSlot_frame (s : State) (b : BayId) (p : Pu) (q : SoftSlot) (o : SecOutcome) (rung : Nat) (payload : Option Bytes) :
    (s.endSlot b p q o rung payload).pending = s.pending ∧ (s.endSlot b p q o rung payload).flash = s.flash ∧
    (s.endSlot b p q o rung payload).trust = s.trust ∧ (s.endSlot b p q o rung payload).blk = s.blk ∧
    (s.endSlot b p q o rung payload).isl = s.isl ∧ (s.endSlot b p q o rung payload).inj = s.inj ∧
    (s.endSlot b p q o rung payload).mem.ddr = s.mem.ddr := by
  unfold State.endSlot
  refine ⟨?_, ?_, ?_, ?_, ?_, ?_, ?_⟩ <;> (try simp) <;> repeat' (first | intro _ | (split <;> try simp))

@[simp] theorem State.readsLost_frame (s : State) (b : BayId) (p : Pu) :
    (s.readsLost b p).pending = s.pending ∧ (s.readsLost b p).flash = s.flash ∧ (s.readsLost b p).trust = s.trust ∧
    (s.readsLost b p).blk = s.blk ∧ (s.readsLost b p).isl = s.isl ∧ (s.readsLost b p).inj = s.inj ∧
    (s.readsLost b p).mem.ddr = s.mem.ddr := by
  unfold State.readsLost
  refine ⟨?_, ?_, ?_, ?_, ?_, ?_, ?_⟩ <;> (try simp) <;> repeat' (first | intro _ | (split <;> try simp) | ((first | rw [State.foldl_pending] | rw [State.foldl2_pending] | rw [State.foldl_flash] | rw [State.foldl2_flash] | rw [State.foldl_trust] | rw [State.foldl2_trust] | rw [State.foldl_blk] | rw [State.foldl2_blk] | rw [State.foldl_isl] | rw [State.foldl2_isl] | rw [State.foldl_inj] | rw [State.foldl2_inj] | rw [State.foldl_mem_ddr] | rw [State.foldl2_mem_ddr]) <;> intros <;> try simp))

@[simp] theorem State.reportWrite_frame (s : State) (why : WriteWhy) (written : Bool) :
    (s.reportWrite why written).pending = s.pending ∧ (s.reportWrite why written).out = s.out ∧
    (s.reportWrite why written).free = s.free ∧ (s.reportWrite why written).ev = s.ev ∧
    (s.reportWrite why written).flash = s.flash ∧ (s.reportWrite why written).trust = s.trust ∧
    (s.reportWrite why written).blk = s.blk ∧ (s.reportWrite why written).isl = s.isl ∧ (s.reportWrite why written).inj = s.inj ∧
    (s.reportWrite why written).chip = s.chip ∧ (s.reportWrite why written).mem.ddr = s.mem.ddr := by
  unfold State.reportWrite
  refine ⟨?_, ?_, ?_, ?_, ?_, ?_, ?_, ?_, ?_, ?_, ?_⟩ <;> (try simp) <;> repeat' (first | intro _ | (split <;> try simp))

@[simp] theorem State.writeRelocRecord_frame (s : State) (b : BayId) (p : Pu) (layer : Nat) (homes : List SecAddr) :
    (s.writeRelocRecord b p layer homes).pending = s.pending ∧ (s.writeRelocRecord b p layer homes).free = s.free ∧
    (s.writeRelocRecord b p layer homes).flash = s.flash ∧ (s.writeRelocRecord b p layer homes).trust = s.trust ∧
    (s.writeRelocRecord b p layer homes).blk = s.blk ∧ (s.writeRelocRecord b p layer homes).isl = s.isl ∧
    (s.writeRelocRecord b p layer homes).inj = s.inj ∧ (s.writeRelocRecord b p layer homes).mem.ddr = s.mem.ddr := by
  unfold State.writeRelocRecord
  refine ⟨?_, ?_, ?_, ?_, ?_, ?_, ?_, ?_⟩ <;> (try simp) <;> repeat' (first | intro _ | (split <;> (try (rename_i h; replace h := congrArg Prod.snd h; dsimp only at h; subst h)) <;> try simp) | ((first | rw [State.foldl_pending] | rw [State.foldl2_pending] | rw [State.foldl_free] | rw [State.foldl2_free] | rw [State.foldl_flash] | rw [State.foldl2_flash] | rw [State.foldl_trust] | rw [State.foldl2_trust] | rw [State.foldl_blk] | rw [State.foldl2_blk] | rw [State.foldl_isl] | rw [State.foldl2_isl] | rw [State.foldl_inj] | rw [State.foldl2_inj] | rw [State.foldl_mem_ddr] | rw [State.foldl2_mem_ddr]) <;> intros <;> try simp))

@[simp] theorem State.relocate_frame (s : State) (b : BayId) (p : Pu) (c : Coded) :
    (s.relocate b p c).pending = s.pending ∧ (s.relocate b p c).free = s.free ∧ (s.relocate b p c).flash = s.flash ∧
    (s.relocate b p c).trust = s.trust ∧ (s.relocate b p c).blk = s.blk ∧ (s.relocate b p c).isl = s.isl ∧
    (s.relocate b p c).inj = s.inj ∧ (s.relocate b p c).mem.ddr = s.mem.ddr := by
  unfold State.relocate
  refine ⟨?_, ?_, ?_, ?_, ?_, ?_, ?_, ?_⟩ <;> (try simp) <;> repeat' (first | intro _ | (split <;> try simp))

@[simp] theorem State.failCoded_frame (s : State) (b : BayId) (p : Pu) (a : SecAddr) :
    (s.failCoded b p a).pending = s.pending ∧ (s.failCoded b p a).free = s.free ∧ (s.failCoded b p a).flash = s.flash ∧
    (s.failCoded b p a).trust = s.trust ∧ (s.failCoded b p a).blk = s.blk ∧ (s.failCoded b p a).isl = s.isl ∧
    (s.failCoded b p a).inj = s.inj ∧ (s.failCoded b p a).mem.ddr = s.mem.ddr := by
  unfold State.failCoded
  refine ⟨?_, ?_, ?_, ?_, ?_, ?_, ?_, ?_⟩ <;> (try simp) <;> repeat' (first | intro _ | (split <;> try simp))

@[simp] theorem State.doneCoded_frame (s : State) (b : BayId) (p : Pu) (a : SecAddr) :
    (s.doneCoded b p a).pending = s.pending ∧ (s.doneCoded b p a).free = s.free ∧ (s.doneCoded b p a).flash = s.flash ∧
    (s.doneCoded b p a).trust = s.trust ∧ (s.doneCoded b p a).blk = s.blk ∧ (s.doneCoded b p a).isl = s.isl ∧
    (s.doneCoded b p a).inj = s.inj ∧ (s.doneCoded b p a).mem.ddr = s.mem.ddr := by
  unfold State.doneCoded
  refine ⟨?_, ?_, ?_, ?_, ?_, ?_, ?_, ?_⟩ <;> (try simp) <;> repeat' (first | intro _ | (split <;> try simp) | ((first | rw [State.foldl_pending] | rw [State.foldl2_pending] | rw [State.foldl_free] | rw [State.foldl2_free] | rw [State.foldl_flash] | rw [State.foldl2_flash] | rw [State.foldl_trust] | rw [State.foldl2_trust] | rw [State.foldl_blk] | rw [State.foldl2_blk] | rw [State.foldl_isl] | rw [State.foldl2_isl] | rw [State.foldl_inj] | rw [State.foldl2_inj] | rw [State.foldl_mem_ddr] | rw [State.foldl2_mem_ddr]) <;> intros <;> try simp))

@[simp] theorem State.abandonBlock_frame (s : State) (b : BayId) (p : Pu) :
    (s.abandonBlock b p).pending = s.pending ∧ (s.abandonBlock b p).free = s.free ∧ (s.abandonBlock b p).flash = s.flash ∧
    (s.abandonBlock b p).trust = s.trust ∧ (s.abandonBlock b p).blk = s.blk ∧ (s.abandonBlock b p).isl = s.isl ∧
    (s.abandonBlock b p).inj = s.inj ∧ (s.abandonBlock b p).mem.ddr = s.mem.ddr := by
  unfold State.abandonBlock
  refine ⟨?_, ?_, ?_, ?_, ?_, ?_, ?_, ?_⟩ <;> (try simp) <;> repeat' (first | intro _ | (split <;> try simp) | ((first | rw [State.foldl_pending] | rw [State.foldl2_pending] | rw [State.foldl_free] | rw [State.foldl2_free] | rw [State.foldl_flash] | rw [State.foldl2_flash] | rw [State.foldl_trust] | rw [State.foldl2_trust] | rw [State.foldl_blk] | rw [State.foldl2_blk] | rw [State.foldl_isl] | rw [State.foldl2_isl] | rw [State.foldl_inj] | rw [State.foldl2_inj] | rw [State.foldl_mem_ddr] | rw [State.foldl2_mem_ddr]) <;> intros <;> try simp))

@[simp] theorem State.failCurrent_frame (s : State) (b : BayId) (p : Pu) :
    (s.failCurrent b p).pending = s.pending ∧ (s.failCurrent b p).free = s.free ∧ (s.failCurrent b p).flash = s.flash ∧
    (s.failCurrent b p).trust = s.trust ∧ (s.failCurrent b p).blk = s.blk ∧ (s.failCurrent b p).isl = s.isl ∧
    (s.failCurrent b p).inj = s.inj ∧ (s.failCurrent b p).mem.ddr = s.mem.ddr := by
  unfold State.failCurrent
  refine ⟨?_, ?_, ?_, ?_, ?_, ?_, ?_, ?_⟩ <;> (try simp) <;> repeat' (first | intro _ | (split <;> try simp))

@[simp] theorem State.holdWriting_frame (s : State) (b : BayId) (p : Pu) :
    (s.holdWriting b p).pending = s.pending ∧ (s.holdWriting b p).out = s.out ∧ (s.holdWriting b p).free = s.free ∧
    (s.holdWriting b p).host = s.host ∧ (s.holdWriting b p).ev = s.ev ∧ (s.holdWriting b p).ham = s.ham ∧
    (s.holdWriting b p).mem = s.mem ∧ (s.holdWriting b p).flash = s.flash ∧ (s.holdWriting b p).cfg = s.cfg ∧
    (s.holdWriting b p).trust = s.trust ∧ (s.holdWriting b p).blk = s.blk ∧ (s.holdWriting b p).isl = s.isl ∧
    (s.holdWriting b p).inj = s.inj ∧ (s.holdWriting b p).chip = s.chip := by
  unfold State.holdWriting
  refine ⟨?_, ?_, ?_, ?_, ?_, ?_, ?_, ?_, ?_, ?_, ?_, ?_, ?_, ?_⟩ <;> (try simp) <;> repeat' (first | intro _ | (split <;> try simp))

@[simp] theorem State.coresLost_frame (s : State) :
    (s.coresLost).pending = s.pending ∧ (s.coresLost).free = s.free ∧ (s.coresLost).flash = s.flash ∧
    (s.coresLost).trust = s.trust ∧ (s.coresLost).blk = s.blk ∧ (s.coresLost).isl = s.isl ∧ (s.coresLost).inj = s.inj ∧
    (s.coresLost).mem.ddr = s.mem.ddr := by
  unfold State.coresLost
  refine ⟨?_, ?_, ?_, ?_, ?_, ?_, ?_, ?_⟩ <;> (try simp) <;> repeat' (first | intro _ | (split <;> try simp) | ((first | rw [State.foldl_pending] | rw [State.foldl2_pending] | rw [State.foldl_free] | rw [State.foldl2_free] | rw [State.foldl_flash] | rw [State.foldl2_flash] | rw [State.foldl_trust] | rw [State.foldl2_trust] | rw [State.foldl_blk] | rw [State.foldl2_blk] | rw [State.foldl_isl] | rw [State.foldl2_isl] | rw [State.foldl_inj] | rw [State.foldl2_inj] | rw [State.foldl_mem_ddr] | rw [State.foldl2_mem_ddr]) <;> intros <;> try simp))

@[simp] theorem State.loadBank_frame (s : State) (b : BayId) (p : Pu) (x : BankLoad) :
    (s.loadBank b p x).pending = s.pending ∧ (s.loadBank b p x).ham = s.ham ∧ (s.loadBank b p x).mem = s.mem ∧
    (s.loadBank b p x).flash = s.flash ∧ (s.loadBank b p x).cfg = s.cfg ∧ (s.loadBank b p x).trust = s.trust ∧
    (s.loadBank b p x).blk = s.blk ∧ (s.loadBank b p x).isl = s.isl := by
  unfold State.loadBank
  refine ⟨?_, ?_, ?_, ?_, ?_, ?_, ?_, ?_⟩ <;> (try simp) <;> repeat' (first | intro _ | (split <;> try simp))

@[simp] theorem State.bankFails_frame (s : State) (b : BayId) (p : Pu) (x : BankLoad) :
    (s.bankFails b p x).pending = s.pending ∧ (s.bankFails b p x).ham = s.ham ∧ (s.bankFails b p x).mem = s.mem ∧
    (s.bankFails b p x).flash = s.flash ∧ (s.bankFails b p x).cfg = s.cfg ∧ (s.bankFails b p x).trust = s.trust ∧
    (s.bankFails b p x).blk = s.blk ∧ (s.bankFails b p x).isl = s.isl := by
  unfold State.bankFails
  refine ⟨?_, ?_, ?_, ?_, ?_, ?_, ?_, ?_⟩ <;> (try simp) <;> repeat' (first | intro _ | (split <;> try simp))

@[simp] theorem State.bankReply_frame (s : State) (b : BayId) (p : Pu) (c : CtrlOp) (f : Bytes) :
    (s.bankReply b p c f).pending = s.pending ∧ (s.bankReply b p c f).ham = s.ham ∧ (s.bankReply b p c f).mem = s.mem ∧
    (s.bankReply b p c f).flash = s.flash ∧ (s.bankReply b p c f).cfg = s.cfg ∧ (s.bankReply b p c f).trust = s.trust ∧
    (s.bankReply b p c f).blk = s.blk ∧ (s.bankReply b p c f).isl = s.isl := by
  unfold State.bankReply
  refine ⟨?_, ?_, ?_, ?_, ?_, ?_, ?_, ?_⟩ <;> (try simp) <;> repeat' (first | intro _ | (split <;> try simp))

@[simp] theorem State.leaveService_frame (s : State) (b : BayId) (p : Pu) :
    (s.leaveService b p).pending = s.pending ∧ (s.leaveService b p).flash = s.flash ∧ (s.leaveService b p).trust = s.trust ∧
    (s.leaveService b p).blk = s.blk ∧ (s.leaveService b p).isl = s.isl ∧ (s.leaveService b p).inj = s.inj ∧
    (s.leaveService b p).mem.ddr = s.mem.ddr := by
  unfold State.leaveService
  refine ⟨?_, ?_, ?_, ?_, ?_, ?_, ?_⟩ <;> (try simp) <;> repeat' (first | intro _ | (split <;> try simp))

end Sys2Proof.Machine
end

