-- ==== Sys2Proof/Laws/FrameCalRecOps.lean ====
section
/-! SUPPORT. What the operations of Machine/CalRecOps.lean leave unchanged: one lemma each, the fields of the state it does not touch. -/

namespace Sys2Proof.Machine

@[simp] theorem State.loadCal_frame (s : State) (b : BayId) (p : Pu) :
    (s.loadCal b p).pending = s.pending ∧ (s.loadCal b p).out = s.out ∧ (s.loadCal b p).free = s.free ∧
    (s.loadCal b p).host = s.host ∧ (s.loadCal b p).ev = s.ev ∧ (s.loadCal b p).ham = s.ham ∧ (s.loadCal b p).mem = s.mem ∧
    (s.loadCal b p).flash = s.flash ∧ (s.loadCal b p).cfg = s.cfg ∧ (s.loadCal b p).trust = s.trust ∧
    (s.loadCal b p).blk = s.blk ∧ (s.loadCal b p).isl = s.isl ∧ (s.loadCal b p).inj = s.inj ∧ (s.loadCal b p).chip = s.chip := by
  unfold State.loadCal
  refine ⟨?_, ?_, ?_, ?_, ?_, ?_, ?_, ?_, ?_, ?_, ?_, ?_, ?_, ?_⟩ <;> (try simp) <;> repeat' (first | intro _ | (split <;> try simp))

@[simp] theorem State.loadDiscCal_frame (s : State) (b : BayId) (p : Pu) (disc : Bytes) :
    (s.loadDiscCal b p disc).pending = s.pending ∧ (s.loadDiscCal b p disc).out = s.out ∧ (s.loadDiscCal b p disc).free = s.free ∧
    (s.loadDiscCal b p disc).host = s.host ∧ (s.loadDiscCal b p disc).ev = s.ev ∧ (s.loadDiscCal b p disc).ham = s.ham ∧
    (s.loadDiscCal b p disc).mem = s.mem ∧ (s.loadDiscCal b p disc).flash = s.flash ∧ (s.loadDiscCal b p disc).cfg = s.cfg ∧
    (s.loadDiscCal b p disc).trust = s.trust ∧ (s.loadDiscCal b p disc).blk = s.blk ∧ (s.loadDiscCal b p disc).isl = s.isl ∧
    (s.loadDiscCal b p disc).inj = s.inj ∧ (s.loadDiscCal b p disc).chip = s.chip := by
  unfold State.loadDiscCal
  refine ⟨?_, ?_, ?_, ?_, ?_, ?_, ?_, ?_, ?_, ?_, ?_, ?_, ?_, ?_⟩ <;> (try simp) <;> repeat' (first | intro _ | (split <;> try simp))

@[simp] theorem State.loadBayCal_frame (s : State) (b : BayId) :
    (s.loadBayCal b).pending = s.pending ∧ (s.loadBayCal b).out = s.out ∧ (s.loadBayCal b).free = s.free ∧
    (s.loadBayCal b).host = s.host ∧ (s.loadBayCal b).ev = s.ev ∧ (s.loadBayCal b).ham = s.ham ∧ (s.loadBayCal b).mem = s.mem ∧
    (s.loadBayCal b).flash = s.flash ∧ (s.loadBayCal b).cfg = s.cfg ∧ (s.loadBayCal b).trust = s.trust ∧
    (s.loadBayCal b).blk = s.blk ∧ (s.loadBayCal b).isl = s.isl ∧ (s.loadBayCal b).inj = s.inj ∧ (s.loadBayCal b).chip = s.chip := by
  unfold State.loadBayCal
  refine ⟨?_, ?_, ?_, ?_, ?_, ?_, ?_, ?_, ?_, ?_, ?_, ?_, ?_, ?_⟩ <;> (try simp) <;> repeat' (first | intro _ | (split <;> try simp))

end Sys2Proof.Machine
end

