-- ==== Sys2Proof/Laws/FrameMotionOps.lean ====
section
/-! SUPPORT. What the operations of Machine/MotionOps.lean leave unchanged: one lemma each, the fields of the state it does not touch. -/

namespace Sys2Proof.Machine

@[simp] theorem State.updMs_frame (s : State) (b : BayId) (p : Pu) (g : Motion → Motion) :
    (s.updMs b p g).pending = s.pending ∧ (s.updMs b p g).out = s.out ∧ (s.updMs b p g).free = s.free ∧
    (s.updMs b p g).host = s.host ∧ (s.updMs b p g).ev = s.ev ∧ (s.updMs b p g).ham = s.ham ∧ (s.updMs b p g).mem = s.mem ∧
    (s.updMs b p g).flash = s.flash ∧ (s.updMs b p g).cfg = s.cfg ∧ (s.updMs b p g).trust = s.trust ∧
    (s.updMs b p g).blk = s.blk ∧ (s.updMs b p g).isl = s.isl ∧ (s.updMs b p g).inj = s.inj ∧ (s.updMs b p g).chip = s.chip := by
  unfold State.updMs
  refine ⟨?_, ?_, ?_, ?_, ?_, ?_, ?_, ?_, ?_, ?_, ?_, ?_, ?_, ?_⟩ <;> (try simp) <;> repeat' (first | intro _ | (split <;> try simp))

@[simp] theorem State.updSheet_frame (s : State) (b : BayId) (p : Pu) (g : Sheet → Sheet) :
    (s.updSheet b p g).pending = s.pending ∧ (s.updSheet b p g).out = s.out ∧ (s.updSheet b p g).free = s.free ∧
    (s.updSheet b p g).host = s.host ∧ (s.updSheet b p g).ev = s.ev ∧ (s.updSheet b p g).ham = s.ham ∧
    (s.updSheet b p g).mem = s.mem ∧ (s.updSheet b p g).flash = s.flash ∧ (s.updSheet b p g).cfg = s.cfg ∧
    (s.updSheet b p g).trust = s.trust ∧ (s.updSheet b p g).blk = s.blk ∧ (s.updSheet b p g).isl = s.isl ∧
    (s.updSheet b p g).inj = s.inj ∧ (s.updSheet b p g).chip = s.chip := by
  unfold State.updSheet
  refine ⟨?_, ?_, ?_, ?_, ?_, ?_, ?_, ?_, ?_, ?_, ?_, ?_, ?_, ?_⟩ <;> (try simp) <;> repeat' (first | intro _ | (split <;> try simp))

@[simp] theorem State.updSp_frame (s : State) (b : BayId) (g : Spindle → Spindle) :
    (s.updSp b g).pending = s.pending ∧ (s.updSp b g).out = s.out ∧ (s.updSp b g).free = s.free ∧ (s.updSp b g).host = s.host ∧
    (s.updSp b g).ev = s.ev ∧ (s.updSp b g).ham = s.ham ∧ (s.updSp b g).mem = s.mem ∧ (s.updSp b g).flash = s.flash ∧
    (s.updSp b g).cfg = s.cfg ∧ (s.updSp b g).trust = s.trust ∧ (s.updSp b g).blk = s.blk ∧ (s.updSp b g).isl = s.isl ∧
    (s.updSp b g).inj = s.inj ∧ (s.updSp b g).chip = s.chip := by
  unfold State.updSp
  refine ⟨?_, ?_, ?_, ?_, ?_, ?_, ?_, ?_, ?_, ?_, ?_, ?_, ?_, ?_⟩ <;> (try simp) <;> repeat' (first | intro _ | (split <;> try simp))

@[simp] theorem State.logDp_frame (s : State) (b : BayId) (u : Option Pu) (tick what : Nat) :
    (s.logDp b u tick what).pending = s.pending ∧ (s.logDp b u tick what).out = s.out ∧ (s.logDp b u tick what).free = s.free ∧
    (s.logDp b u tick what).host = s.host ∧ (s.logDp b u tick what).ev = s.ev ∧ (s.logDp b u tick what).ham = s.ham ∧
    (s.logDp b u tick what).mem = s.mem ∧ (s.logDp b u tick what).flash = s.flash ∧ (s.logDp b u tick what).cfg = s.cfg ∧
    (s.logDp b u tick what).trust = s.trust ∧ (s.logDp b u tick what).isl = s.isl ∧ (s.logDp b u tick what).inj = s.inj ∧
    (s.logDp b u tick what).chip = s.chip ∧ (s.logDp b u tick what).bays = s.bays := by
  unfold State.logDp
  refine ⟨?_, ?_, ?_, ?_, ?_, ?_, ?_, ?_, ?_, ?_, ?_, ?_, ?_, ?_⟩ <;> (try simp) <;> repeat' (first | intro _ | (split <;> try simp))

@[simp] theorem State.enter_frame (s : State) (b : BayId) (p : Pu) (st : PState) :
    (s.enter b p st).pending = s.pending ∧ (s.enter b p st).out = s.out ∧ (s.enter b p st).free = s.free ∧
    (s.enter b p st).host = s.host ∧ (s.enter b p st).ev = s.ev ∧ (s.enter b p st).ham = s.ham ∧ (s.enter b p st).mem = s.mem ∧
    (s.enter b p st).flash = s.flash ∧ (s.enter b p st).cfg = s.cfg ∧ (s.enter b p st).trust = s.trust ∧
    (s.enter b p st).isl = s.isl ∧ (s.enter b p st).inj = s.inj ∧ (s.enter b p st).chip = s.chip := by
  unfold State.enter
  refine ⟨?_, ?_, ?_, ?_, ?_, ?_, ?_, ?_, ?_, ?_, ?_, ?_, ?_⟩ <;> (try simp) <;> repeat' (first | intro _ | (split <;> try simp))

@[simp] theorem State.withdrawReads_frame (s : State) (b : BayId) (p : Pu) :
    (s.withdrawReads b p).pending = s.pending ∧ (s.withdrawReads b p).out = s.out ∧ (s.withdrawReads b p).free = s.free ∧
    (s.withdrawReads b p).host = s.host ∧ (s.withdrawReads b p).ev = s.ev ∧ (s.withdrawReads b p).ham = s.ham ∧
    (s.withdrawReads b p).mem = s.mem ∧ (s.withdrawReads b p).flash = s.flash ∧ (s.withdrawReads b p).cfg = s.cfg ∧
    (s.withdrawReads b p).trust = s.trust ∧ (s.withdrawReads b p).blk = s.blk ∧ (s.withdrawReads b p).isl = s.isl ∧
    (s.withdrawReads b p).inj = s.inj ∧ (s.withdrawReads b p).chip = s.chip := by
  unfold State.withdrawReads
  refine ⟨?_, ?_, ?_, ?_, ?_, ?_, ?_, ?_, ?_, ?_, ?_, ?_, ?_, ?_⟩ <;> (try simp) <;> repeat' (first | intro _ | (split <;> try simp))

@[simp] theorem State.dropFrameLock_frame (s : State) (b : BayId) (p : Pu) :
    (s.dropFrameLock b p).pending = s.pending ∧ (s.dropFrameLock b p).out = s.out ∧ (s.dropFrameLock b p).free = s.free ∧
    (s.dropFrameLock b p).host = s.host ∧ (s.dropFrameLock b p).ev = s.ev ∧ (s.dropFrameLock b p).ham = s.ham ∧
    (s.dropFrameLock b p).mem = s.mem ∧ (s.dropFrameLock b p).flash = s.flash ∧ (s.dropFrameLock b p).cfg = s.cfg ∧
    (s.dropFrameLock b p).trust = s.trust ∧ (s.dropFrameLock b p).blk = s.blk ∧ (s.dropFrameLock b p).isl = s.isl ∧
    (s.dropFrameLock b p).inj = s.inj ∧ (s.dropFrameLock b p).chip = s.chip := by
  unfold State.dropFrameLock
  refine ⟨?_, ?_, ?_, ?_, ?_, ?_, ?_, ?_, ?_, ?_, ?_, ?_, ?_, ?_⟩ <;> (try simp) <;> repeat' (first | intro _ | (split <;> try simp))

@[simp] theorem State.loadBanks_frame (s : State) (b : BayId) (p : Pu) :
    (s.loadBanks b p).pending = s.pending ∧ (s.loadBanks b p).out = s.out ∧ (s.loadBanks b p).free = s.free ∧
    (s.loadBanks b p).host = s.host ∧ (s.loadBanks b p).ev = s.ev ∧ (s.loadBanks b p).ham = s.ham ∧
    (s.loadBanks b p).mem = s.mem ∧ (s.loadBanks b p).flash = s.flash ∧ (s.loadBanks b p).cfg = s.cfg ∧
    (s.loadBanks b p).trust = s.trust ∧ (s.loadBanks b p).blk = s.blk ∧ (s.loadBanks b p).isl = s.isl ∧
    (s.loadBanks b p).inj = s.inj ∧ (s.loadBanks b p).chip = s.chip := by
  unfold State.loadBanks
  refine ⟨?_, ?_, ?_, ?_, ?_, ?_, ?_, ?_, ?_, ?_, ?_, ?_, ?_, ?_⟩ <;> (try simp) <;> repeat' (first | intro _ | (split <;> try simp))

@[simp] theorem State.puOff_frame (s : State) (b : BayId) (p : Pu) :
    (s.puOff b p).pending = s.pending ∧ (s.puOff b p).flash = s.flash ∧ (s.puOff b p).trust = s.trust ∧
    (s.puOff b p).isl = s.isl ∧ (s.puOff b p).inj = s.inj ∧ (s.puOff b p).mem.ddr = s.mem.ddr := by
  unfold State.puOff
  refine ⟨?_, ?_, ?_, ?_, ?_, ?_⟩ <;> (try simp) <;> repeat' (first | intro _ | (split <;> try simp))

@[simp] theorem State.dropRelocs_frame (s : State) (b : BayId) :
    (s.dropRelocs b).pending = s.pending ∧ (s.dropRelocs b).out = s.out ∧ (s.dropRelocs b).free = s.free ∧
    (s.dropRelocs b).host = s.host ∧ (s.dropRelocs b).ev = s.ev ∧ (s.dropRelocs b).ham = s.ham ∧ (s.dropRelocs b).mem = s.mem ∧
    (s.dropRelocs b).flash = s.flash ∧ (s.dropRelocs b).cfg = s.cfg ∧ (s.dropRelocs b).trust = s.trust ∧
    (s.dropRelocs b).blk = s.blk ∧ (s.dropRelocs b).isl = s.isl ∧ (s.dropRelocs b).inj = s.inj ∧ (s.dropRelocs b).chip = s.chip := by
  unfold State.dropRelocs
  refine ⟨?_, ?_, ?_, ?_, ?_, ?_, ?_, ?_, ?_, ?_, ?_, ?_, ?_, ?_⟩ <;> (try simp) <;> repeat' (first | intro _ | (split <;> try simp))

@[simp] theorem State.commandStop_frame (s : State) (b : BayId) :
    (s.commandStop b).pending = s.pending ∧ (s.commandStop b).flash = s.flash ∧ (s.commandStop b).trust = s.trust ∧
    (s.commandStop b).isl = s.isl ∧ (s.commandStop b).inj = s.inj ∧ (s.commandStop b).mem.ddr = s.mem.ddr := by
  unfold State.commandStop
  refine ⟨?_, ?_, ?_, ?_, ?_, ?_⟩ <;> (try simp) <;> repeat' (first | intro _ | (split <;> try simp))

@[simp] theorem State.emptyCheck_frame (s : State) (b : BayId) (p : Pu) :
    (s.emptyCheck b p).pending = s.pending ∧ (s.emptyCheck b p).flash = s.flash ∧ (s.emptyCheck b p).trust = s.trust ∧
    (s.emptyCheck b p).isl = s.isl ∧ (s.emptyCheck b p).inj = s.inj ∧ (s.emptyCheck b p).mem.ddr = s.mem.ddr := by
  unfold State.emptyCheck
  refine ⟨?_, ?_, ?_, ?_, ?_, ?_⟩ <;> (try simp) <;> repeat' (first | intro _ | (split <;> try simp))

@[simp] theorem State.puFail_frame (s : State) (b : BayId) (p : Pu) :
    (s.puFail b p).pending = s.pending ∧ (s.puFail b p).flash = s.flash ∧ (s.puFail b p).trust = s.trust ∧
    (s.puFail b p).isl = s.isl ∧ (s.puFail b p).inj = s.inj ∧ (s.puFail b p).mem.ddr = s.mem.ddr := by
  unfold State.puFail
  refine ⟨?_, ?_, ?_, ?_, ?_, ?_⟩ <;> (try simp) <;> repeat' (first | intro _ | (split <;> try simp))

@[simp] theorem State.enterRecover_frame (s : State) (b : BayId) (p : Pu) (cause : RecCause) :
    (s.enterRecover b p cause).pending = s.pending ∧ (s.enterRecover b p cause).flash = s.flash ∧
    (s.enterRecover b p cause).trust = s.trust ∧ (s.enterRecover b p cause).isl = s.isl ∧ (s.enterRecover b p cause).inj = s.inj ∧
    (s.enterRecover b p cause).mem.ddr = s.mem.ddr := by
  unfold State.enterRecover
  refine ⟨?_, ?_, ?_, ?_, ?_, ?_⟩ <;> (try simp) <;> repeat' (first | intro _ | (split <;> try simp))

@[simp] theorem State.enterFocusSearch_frame (s : State) (b : BayId) (p : Pu) :
    (s.enterFocusSearch b p).pending = s.pending ∧ (s.enterFocusSearch b p).flash = s.flash ∧
    (s.enterFocusSearch b p).trust = s.trust ∧ (s.enterFocusSearch b p).isl = s.isl ∧ (s.enterFocusSearch b p).inj = s.inj ∧
    (s.enterFocusSearch b p).mem.ddr = s.mem.ddr := by
  unfold State.enterFocusSearch
  refine ⟨?_, ?_, ?_, ?_, ?_, ?_⟩ <;> (try simp) <;> repeat' (first | intro _ | (split <;> try simp))

@[simp] theorem State.enterTrackPull_frame (s : State) (b : BayId) (p : Pu) :
    (s.enterTrackPull b p).pending = s.pending ∧ (s.enterTrackPull b p).out = s.out ∧ (s.enterTrackPull b p).free = s.free ∧
    (s.enterTrackPull b p).host = s.host ∧ (s.enterTrackPull b p).ev = s.ev ∧ (s.enterTrackPull b p).ham = s.ham ∧
    (s.enterTrackPull b p).mem = s.mem ∧ (s.enterTrackPull b p).flash = s.flash ∧ (s.enterTrackPull b p).cfg = s.cfg ∧
    (s.enterTrackPull b p).trust = s.trust ∧ (s.enterTrackPull b p).isl = s.isl ∧ (s.enterTrackPull b p).inj = s.inj ∧
    (s.enterTrackPull b p).chip = s.chip := by
  unfold State.enterTrackPull
  refine ⟨?_, ?_, ?_, ?_, ?_, ?_, ?_, ?_, ?_, ?_, ?_, ?_, ?_⟩ <;> (try simp) <;> repeat' (first | intro _ | (split <;> try simp))

@[simp] theorem State.enterAcquire_frame (s : State) (b : BayId) (p : Pu) :
    (s.enterAcquire b p).pending = s.pending ∧ (s.enterAcquire b p).out = s.out ∧ (s.enterAcquire b p).free = s.free ∧
    (s.enterAcquire b p).host = s.host ∧ (s.enterAcquire b p).ev = s.ev ∧ (s.enterAcquire b p).ham = s.ham ∧
    (s.enterAcquire b p).mem = s.mem ∧ (s.enterAcquire b p).flash = s.flash ∧ (s.enterAcquire b p).trust = s.trust ∧
    (s.enterAcquire b p).isl = s.isl ∧ (s.enterAcquire b p).inj = s.inj ∧ (s.enterAcquire b p).chip = s.chip := by
  unfold State.enterAcquire
  refine ⟨?_, ?_, ?_, ?_, ?_, ?_, ?_, ?_, ?_, ?_, ?_, ?_⟩ <;> (try simp) <;> repeat' (first | intro _ | (split <;> try simp))

@[simp] theorem State.enterFollow_frame (s : State) (b : BayId) (p : Pu) :
    (s.enterFollow b p).pending = s.pending ∧ (s.enterFollow b p).out = s.out ∧ (s.enterFollow b p).free = s.free ∧
    (s.enterFollow b p).host = s.host ∧ (s.enterFollow b p).ev = s.ev ∧ (s.enterFollow b p).ham = s.ham ∧
    (s.enterFollow b p).mem = s.mem ∧ (s.enterFollow b p).flash = s.flash ∧ (s.enterFollow b p).trust = s.trust ∧
    (s.enterFollow b p).isl = s.isl ∧ (s.enterFollow b p).inj = s.inj ∧ (s.enterFollow b p).chip = s.chip := by
  unfold State.enterFollow
  refine ⟨?_, ?_, ?_, ?_, ?_, ?_, ?_, ?_, ?_, ?_, ?_, ?_⟩ <;> (try simp) <;> repeat' (first | intro _ | (split <;> try simp))

@[simp] theorem State.startJump_frame (s : State) (b : BayId) (p : Pu) (n : Int) :
    (s.startJump b p n).pending = s.pending ∧ (s.startJump b p n).out = s.out ∧ (s.startJump b p n).free = s.free ∧
    (s.startJump b p n).host = s.host ∧ (s.startJump b p n).ev = s.ev ∧ (s.startJump b p n).ham = s.ham ∧
    (s.startJump b p n).mem = s.mem ∧ (s.startJump b p n).flash = s.flash ∧ (s.startJump b p n).cfg = s.cfg ∧
    (s.startJump b p n).trust = s.trust ∧ (s.startJump b p n).isl = s.isl ∧ (s.startJump b p n).inj = s.inj ∧
    (s.startJump b p n).chip = s.chip := by
  unfold State.startJump
  refine ⟨?_, ?_, ?_, ?_, ?_, ?_, ?_, ?_, ?_, ?_, ?_, ?_, ?_⟩ <;> (try simp) <;> repeat' (first | intro _ | (split <;> try simp))

@[simp] theorem State.startLayerJump_frame (s : State) (b : BayId) (p : Pu) (layer : Nat) :
    (s.startLayerJump b p layer).pending = s.pending ∧ (s.startLayerJump b p layer).out = s.out ∧
    (s.startLayerJump b p layer).free = s.free ∧ (s.startLayerJump b p layer).host = s.host ∧
    (s.startLayerJump b p layer).ev = s.ev ∧ (s.startLayerJump b p layer).ham = s.ham ∧ (s.startLayerJump b p layer).mem = s.mem ∧
    (s.startLayerJump b p layer).flash = s.flash ∧ (s.startLayerJump b p layer).cfg = s.cfg ∧
    (s.startLayerJump b p layer).trust = s.trust ∧ (s.startLayerJump b p layer).isl = s.isl ∧
    (s.startLayerJump b p layer).inj = s.inj ∧ (s.startLayerJump b p layer).chip = s.chip := by
  unfold State.startLayerJump
  refine ⟨?_, ?_, ?_, ?_, ?_, ?_, ?_, ?_, ?_, ?_, ?_, ?_, ?_⟩ <;> (try simp) <;> repeat' (first | intro _ | (split <;> try simp))

@[simp] theorem State.loseLock_frame (s : State) (b : BayId) (p : Pu) (focusToo : Bool) :
    (s.loseLock b p focusToo).pending = s.pending ∧ (s.loseLock b p focusToo).flash = s.flash ∧
    (s.loseLock b p focusToo).trust = s.trust ∧ (s.loseLock b p focusToo).isl = s.isl ∧ (s.loseLock b p focusToo).inj = s.inj ∧
    (s.loseLock b p focusToo).mem.ddr = s.mem.ddr := by
  unfold State.loseLock
  refine ⟨?_, ?_, ?_, ?_, ?_, ?_⟩ <;> (try simp) <;> repeat' (first | intro _ | (split <;> try simp))

@[simp] theorem State.rejectDisc_frame (s : State) (b : BayId) (serial : Bytes) (why : Reject) (src : Nat) (e : Ev) :
    (s.rejectDisc b serial why src e).pending = s.pending ∧ (s.rejectDisc b serial why src e).flash = s.flash ∧
    (s.rejectDisc b serial why src e).trust = s.trust ∧ (s.rejectDisc b serial why src e).isl = s.isl ∧
    (s.rejectDisc b serial why src e).inj = s.inj ∧ (s.rejectDisc b serial why src e).mem.ddr = s.mem.ddr := by
  unfold State.rejectDisc
  refine ⟨?_, ?_, ?_, ?_, ?_, ?_⟩ <;> (try simp) <;> repeat' (first | intro _ | (split <;> try simp))

@[simp] theorem State.noDisc_frame (s : State) (b : BayId) (p : Pu) :
    (s.noDisc b p).pending = s.pending ∧ (s.noDisc b p).flash = s.flash ∧ (s.noDisc b p).trust = s.trust ∧
    (s.noDisc b p).isl = s.isl ∧ (s.noDisc b p).inj = s.inj ∧ (s.noDisc b p).mem.ddr = s.mem.ddr := by
  unfold State.noDisc
  refine ⟨?_, ?_, ?_, ?_, ?_, ?_⟩ <;> (try simp) <;> repeat' (first | intro _ | (split <;> try simp))

end Sys2Proof.Machine
end

