-- ==== Sys2Proof/Laws/FrameServoOps.lean ====
section
/-! SUPPORT. What the operations of Machine/ServoOps.lean leave unchanged: one lemma each, the fields of the state it does not touch. -/

namespace Sys2Proof.Machine

@[simp] theorem State.evalGate_frame (s : State) (b : BayId) (p : Pu) (ok : Bool) :
    (s.evalGate b p ok).pending = s.pending ∧ (s.evalGate b p ok).free = s.free ∧ (s.evalGate b p ok).flash = s.flash ∧
    (s.evalGate b p ok).trust = s.trust ∧ (s.evalGate b p ok).blk = s.blk ∧ (s.evalGate b p ok).isl = s.isl ∧
    (s.evalGate b p ok).inj = s.inj ∧ (s.evalGate b p ok).mem.ddr = s.mem.ddr := by
  unfold State.evalGate
  refine ⟨?_, ?_, ?_, ?_, ?_, ?_, ?_, ?_⟩ <;> (try simp) <;> repeat' (first | intro _ | (split <;> try simp))

@[simp] theorem State.sendServo_frame (s : State) (b : BayId) (p : Pu) (tick apply : Nat) :
    (s.sendServo b p tick apply).pending = s.pending ∧ (s.sendServo b p tick apply).ham = s.ham ∧
    (s.sendServo b p tick apply).mem = s.mem ∧ (s.sendServo b p tick apply).flash = s.flash ∧
    (s.sendServo b p tick apply).cfg = s.cfg ∧ (s.sendServo b p tick apply).trust = s.trust ∧
    (s.sendServo b p tick apply).blk = s.blk ∧ (s.sendServo b p tick apply).isl = s.isl := by
  unfold State.sendServo
  refine ⟨?_, ?_, ?_, ?_, ?_, ?_, ?_, ?_⟩ <;> (try simp) <;> repeat' (first | intro _ | (split <;> try simp))

@[simp] theorem State.servoCmd_frame (s : State) (b : BayId) (p : Pu) (tick tq : Nat) :
    (s.servoCmd b p tick tq).pending = s.pending ∧ (s.servoCmd b p tick tq).ham = s.ham ∧ (s.servoCmd b p tick tq).mem = s.mem ∧
    (s.servoCmd b p tick tq).flash = s.flash ∧ (s.servoCmd b p tick tq).cfg = s.cfg ∧ (s.servoCmd b p tick tq).trust = s.trust ∧
    (s.servoCmd b p tick tq).blk = s.blk ∧ (s.servoCmd b p tick tq).isl = s.isl := by
  unfold State.servoCmd
  refine ⟨?_, ?_, ?_, ?_, ?_, ?_, ?_, ?_⟩ <;> (try simp) <;> repeat' (first | intro _ | (split <;> try simp))

@[simp] theorem State.setDrives_frame (s : State) (b : BayId) (p : Pu) :
    (s.setDrives b p).pending = s.pending ∧ (s.setDrives b p).out = s.out ∧ (s.setDrives b p).free = s.free ∧
    (s.setDrives b p).host = s.host ∧ (s.setDrives b p).ev = s.ev ∧ (s.setDrives b p).ham = s.ham ∧
    (s.setDrives b p).mem = s.mem ∧ (s.setDrives b p).flash = s.flash ∧ (s.setDrives b p).cfg = s.cfg ∧
    (s.setDrives b p).trust = s.trust ∧ (s.setDrives b p).blk = s.blk ∧ (s.setDrives b p).isl = s.isl ∧
    (s.setDrives b p).inj = s.inj ∧ (s.setDrives b p).chip = s.chip := by
  unfold State.setDrives
  refine ⟨?_, ?_, ?_, ?_, ?_, ?_, ?_, ?_, ?_, ?_, ?_, ?_, ?_, ?_⟩ <;> (try simp) <;> repeat' (first | intro _ | (split <;> try simp))

@[simp] theorem State.tuneFails_frame (s : State) (b : BayId) (p : Pu) (lp : LoopSel) :
    (s.tuneFails b p lp).pending = s.pending ∧ (s.tuneFails b p lp).free = s.free ∧ (s.tuneFails b p lp).ham = s.ham ∧
    (s.tuneFails b p lp).mem = s.mem ∧ (s.tuneFails b p lp).flash = s.flash ∧ (s.tuneFails b p lp).cfg = s.cfg ∧
    (s.tuneFails b p lp).trust = s.trust ∧ (s.tuneFails b p lp).blk = s.blk ∧ (s.tuneFails b p lp).isl = s.isl ∧
    (s.tuneFails b p lp).inj = s.inj ∧ (s.tuneFails b p lp).bays = s.bays := by
  unfold State.tuneFails
  refine ⟨?_, ?_, ?_, ?_, ?_, ?_, ?_, ?_, ?_, ?_, ?_⟩ <;> (try simp) <;> repeat' (first | intro _ | (split <;> try simp))

@[simp] theorem State.abandonTune_frame (s : State) (b : BayId) (p : Pu) :
    (s.abandonTune b p).pending = s.pending ∧ (s.abandonTune b p).free = s.free ∧ (s.abandonTune b p).ham = s.ham ∧
    (s.abandonTune b p).mem = s.mem ∧ (s.abandonTune b p).flash = s.flash ∧ (s.abandonTune b p).cfg = s.cfg ∧
    (s.abandonTune b p).trust = s.trust ∧ (s.abandonTune b p).blk = s.blk ∧ (s.abandonTune b p).isl = s.isl ∧
    (s.abandonTune b p).inj = s.inj := by
  unfold State.abandonTune
  refine ⟨?_, ?_, ?_, ?_, ?_, ?_, ?_, ?_, ?_, ?_⟩ <;> (try simp) <;> repeat' (first | intro _ | (split <;> try simp))

@[simp] theorem State.supervisorTrip_frame (s : State) (b : BayId) (p : Pu) (lp : LoopSel) (check : Nat) :
    (s.supervisorTrip b p lp check).pending = s.pending ∧ (s.supervisorTrip b p lp check).free = s.free ∧
    (s.supervisorTrip b p lp check).ham = s.ham ∧ (s.supervisorTrip b p lp check).mem = s.mem ∧
    (s.supervisorTrip b p lp check).flash = s.flash ∧ (s.supervisorTrip b p lp check).cfg = s.cfg ∧
    (s.supervisorTrip b p lp check).trust = s.trust ∧ (s.supervisorTrip b p lp check).blk = s.blk ∧
    (s.supervisorTrip b p lp check).isl = s.isl ∧ (s.supervisorTrip b p lp check).inj = s.inj := by
  unfold State.supervisorTrip
  refine ⟨?_, ?_, ?_, ?_, ?_, ?_, ?_, ?_, ?_, ?_⟩ <;> (try simp) <;> repeat' (first | intro _ | (split <;> try simp))

@[simp] theorem State.supervisorFails_frame (s : State) (b : BayId) (p : Pu) (fs : List (LoopSel × Nat)) :
    (s.supervisorFails b p fs).pending = s.pending ∧ (s.supervisorFails b p fs).flash = s.flash ∧
    (s.supervisorFails b p fs).trust = s.trust ∧ (s.supervisorFails b p fs).isl = s.isl ∧ (s.supervisorFails b p fs).inj = s.inj ∧
    (s.supervisorFails b p fs).mem.ddr = s.mem.ddr := by
  unfold State.supervisorFails
  refine ⟨?_, ?_, ?_, ?_, ?_, ?_⟩ <;> (try simp) <;> repeat' (first | intro _ | (split <;> try simp))

@[simp] theorem State.swapsDue_frame (s : State) (b : BayId) (p : Pu) (tick : Nat) :
    (s.swapsDue b p tick).pending = s.pending ∧ (s.swapsDue b p tick).out = s.out ∧ (s.swapsDue b p tick).free = s.free ∧
    (s.swapsDue b p tick).host = s.host ∧ (s.swapsDue b p tick).ev = s.ev ∧ (s.swapsDue b p tick).ham = s.ham ∧
    (s.swapsDue b p tick).mem = s.mem ∧ (s.swapsDue b p tick).flash = s.flash ∧ (s.swapsDue b p tick).cfg = s.cfg ∧
    (s.swapsDue b p tick).trust = s.trust ∧ (s.swapsDue b p tick).isl = s.isl ∧ (s.swapsDue b p tick).inj = s.inj ∧
    (s.swapsDue b p tick).chip = s.chip := by
  unfold State.swapsDue
  refine ⟨?_, ?_, ?_, ?_, ?_, ?_, ?_, ?_, ?_, ?_, ?_, ?_, ?_⟩ <;> (try simp) <;> repeat' (first | intro _ | (split <;> try simp))

@[simp] theorem State.runLoops_frame (s : State) (b : BayId) (p : Pu) (v : Servo) (fe te : Int) :
    (s.runLoops b p v fe te).pending = s.pending ∧ (s.runLoops b p v fe te).flash = s.flash ∧
    (s.runLoops b p v fe te).trust = s.trust ∧ (s.runLoops b p v fe te).isl = s.isl ∧ (s.runLoops b p v fe te).inj = s.inj ∧
    (s.runLoops b p v fe te).mem.ddr = s.mem.ddr := by
  unfold State.runLoops
  refine ⟨?_, ?_, ?_, ?_, ?_, ?_⟩ <;> (try simp) <;> repeat' (first | intro _ | (split <;> (try (rename_i h; replace h := congrArg Prod.snd h; dsimp only at h; subst h)) <;> try simp) | ((first | rw [State.foldl_pending] | rw [State.foldl2_pending] | rw [State.foldl_flash] | rw [State.foldl2_flash] | rw [State.foldl_trust] | rw [State.foldl2_trust] | rw [State.foldl_isl] | rw [State.foldl2_isl] | rw [State.foldl_inj] | rw [State.foldl2_inj] | rw [State.foldl_mem_ddr] | rw [State.foldl2_mem_ddr]) <;> intros <;> try simp))

@[simp] theorem State.slipCheck_frame (s : State) (b : BayId) (p : Pu) (te : Int) :
    (s.slipCheck b p te).pending = s.pending ∧ (s.slipCheck b p te).flash = s.flash ∧ (s.slipCheck b p te).trust = s.trust ∧
    (s.slipCheck b p te).isl = s.isl ∧ (s.slipCheck b p te).inj = s.inj ∧ (s.slipCheck b p te).mem.ddr = s.mem.ddr := by
  unfold State.slipCheck
  refine ⟨?_, ?_, ?_, ?_, ?_, ?_⟩ <;> (try simp) <;> repeat' (first | intro _ | (split <;> try simp))

@[simp] theorem State.runSweeps_frame (s : State) (b : BayId) (p : Pu) (v : Servo) :
    (s.runSweeps b p v).pending = s.pending ∧ (s.runSweeps b p v).flash = s.flash ∧ (s.runSweeps b p v).trust = s.trust ∧
    (s.runSweeps b p v).isl = s.isl ∧ (s.runSweeps b p v).inj = s.inj ∧ (s.runSweeps b p v).mem.ddr = s.mem.ddr := by
  unfold State.runSweeps
  refine ⟨?_, ?_, ?_, ?_, ?_, ?_⟩ <;> (try simp) <;> repeat' (split <;> (try (rename_i h; replace h := congrArg Prod.snd h; dsimp only at h; subst h)) <;> try simp)

@[simp] theorem State.followMean_frame (s : State) (b : BayId) (p : Pu) :
    (s.followMean b p).pending = s.pending ∧ (s.followMean b p).out = s.out ∧ (s.followMean b p).free = s.free ∧
    (s.followMean b p).host = s.host ∧ (s.followMean b p).ev = s.ev ∧ (s.followMean b p).ham = s.ham ∧
    (s.followMean b p).mem = s.mem ∧ (s.followMean b p).flash = s.flash ∧ (s.followMean b p).cfg = s.cfg ∧
    (s.followMean b p).trust = s.trust ∧ (s.followMean b p).blk = s.blk ∧ (s.followMean b p).isl = s.isl ∧
    (s.followMean b p).inj = s.inj ∧ (s.followMean b p).chip = s.chip := by
  unfold State.followMean
  refine ⟨?_, ?_, ?_, ?_, ?_, ?_, ?_, ?_, ?_, ?_, ?_, ?_, ?_, ?_⟩ <;> (try simp) <;> repeat' (first | intro _ | (split <;> try simp))

@[simp] theorem State.tempTrigger_frame (s : State) (b : BayId) (p : Pu) :
    (s.tempTrigger b p).pending = s.pending ∧ (s.tempTrigger b p).out = s.out ∧ (s.tempTrigger b p).free = s.free ∧
    (s.tempTrigger b p).host = s.host ∧ (s.tempTrigger b p).ev = s.ev ∧ (s.tempTrigger b p).ham = s.ham ∧
    (s.tempTrigger b p).mem = s.mem ∧ (s.tempTrigger b p).flash = s.flash ∧ (s.tempTrigger b p).cfg = s.cfg ∧
    (s.tempTrigger b p).trust = s.trust ∧ (s.tempTrigger b p).blk = s.blk ∧ (s.tempTrigger b p).isl = s.isl ∧
    (s.tempTrigger b p).inj = s.inj ∧ (s.tempTrigger b p).chip = s.chip := by
  unfold State.tempTrigger
  refine ⟨?_, ?_, ?_, ?_, ?_, ?_, ?_, ?_, ?_, ?_, ?_, ?_, ?_, ?_⟩ <;> (try simp) <;> repeat' (first | intro _ | (split <;> try simp))

@[simp] theorem State.computeTick_frame (s : State) (b : BayId) (p : Pu) (v : Servo) :
    (s.computeTick b p v).pending = s.pending ∧ (s.computeTick b p v).flash = s.flash ∧ (s.computeTick b p v).trust = s.trust ∧
    (s.computeTick b p v).isl = s.isl ∧ (s.computeTick b p v).mem.ddr = s.mem.ddr := by
  unfold State.computeTick
  refine ⟨?_, ?_, ?_, ?_, ?_⟩ <;> (try simp) <;> repeat' (first | intro _ | (split <;> try simp))

@[simp] theorem State.missTick_frame (s : State) (b : BayId) (p : Pu) (tick tq : Nat) :
    (s.missTick b p tick tq).pending = s.pending ∧ (s.missTick b p tick tq).flash = s.flash ∧
    (s.missTick b p tick tq).trust = s.trust ∧ (s.missTick b p tick tq).blk = s.blk ∧ (s.missTick b p tick tq).isl = s.isl ∧
    (s.missTick b p tick tq).mem.ddr = s.mem.ddr := by
  unfold State.missTick
  refine ⟨?_, ?_, ?_, ?_, ?_, ?_⟩ <;> (try simp) <;> repeat' (first | intro _ | (split <;> try simp))

@[simp] theorem State.deadTick_frame (s : State) (b : BayId) (p : Pu) (tick tq : Nat) :
    (s.deadTick b p tick tq).pending = s.pending ∧ (s.deadTick b p tick tq).ham = s.ham ∧ (s.deadTick b p tick tq).mem = s.mem ∧
    (s.deadTick b p tick tq).flash = s.flash ∧ (s.deadTick b p tick tq).cfg = s.cfg ∧ (s.deadTick b p tick tq).trust = s.trust ∧
    (s.deadTick b p tick tq).blk = s.blk ∧ (s.deadTick b p tick tq).isl = s.isl := by
  unfold State.deadTick
  refine ⟨?_, ?_, ?_, ?_, ?_, ?_, ?_, ?_⟩ <;> (try simp) <;> repeat' (first | intro _ | (split <;> try simp))

@[simp] theorem State.permitTick_frame (s : State) (b : BayId) (p : Pu) :
    (s.permitTick b p).pending = s.pending ∧ (s.permitTick b p).flash = s.flash ∧ (s.permitTick b p).trust = s.trust ∧
    (s.permitTick b p).isl = s.isl ∧ (s.permitTick b p).inj = s.inj ∧ (s.permitTick b p).mem.ddr = s.mem.ddr := by
  unfold State.permitTick
  refine ⟨?_, ?_, ?_, ?_, ?_, ?_⟩ <;> (try simp) <;> repeat' (first | intro _ | (split <;> try simp))

end Sys2Proof.Machine
end

