-- ==== Sys2Proof/Laws/FrameServoRows.lean ====
section
/-! SUPPORT. What the operations of Machine/ServoRows.lean leave unchanged: one lemma each, the fields of the state it does not touch. -/

namespace Sys2Proof.Machine

@[simp] theorem State.applyRows_frame (s : State) (b : BayId) (p : Pu) (rows : BitVec 18) (at' : Nat) :
    (s.applyRows b p rows at').pending = s.pending ∧ (s.applyRows b p rows at').out = s.out ∧
    (s.applyRows b p rows at').free = s.free ∧ (s.applyRows b p rows at').host = s.host ∧ (s.applyRows b p rows at').ev = s.ev ∧
    (s.applyRows b p rows at').ham = s.ham ∧ (s.applyRows b p rows at').mem = s.mem ∧ (s.applyRows b p rows at').flash = s.flash ∧
    (s.applyRows b p rows at').cfg = s.cfg ∧ (s.applyRows b p rows at').trust = s.trust ∧ (s.applyRows b p rows at').blk = s.blk ∧
    (s.applyRows b p rows at').isl = s.isl ∧ (s.applyRows b p rows at').inj = s.inj ∧ (s.applyRows b p rows at').chip = s.chip := by
  unfold State.applyRows
  refine ⟨?_, ?_, ?_, ?_, ?_, ?_, ?_, ?_, ?_, ?_, ?_, ?_, ?_, ?_⟩ <;> (try simp) <;> repeat' (first | intro _ | (split <;> try simp))

theorem execRowSwitchTimeout_frame (b : BayId) (p : Pu) (s : State) (t : State)
    (h : execRowSwitchTimeout b p s = .next t) :
    t.pending = s.pending ∧ t.out = s.out ∧ t.free = s.free ∧ t.ev = s.ev ∧ t.mem = s.mem ∧ t.flash = s.flash ∧ t.cfg = s.cfg ∧
    t.trust = s.trust ∧ t.blk = s.blk ∧ t.isl = s.isl ∧ t.inj = s.inj ∧ t.chip = s.chip := by
  unfold execRowSwitchTimeout at h
  replace h := (withBay_next h).2
  subst h
  refine ⟨?_, ?_, ?_, ?_, ?_, ?_, ?_, ?_, ?_, ?_, ?_, ?_⟩ <;> (try simp) <;> repeat' (first | intro _ | (split <;> try simp))

@[simp] theorem State.killUnit_frame (s : State) (b : BayId) (u : UnitSel) :
    (s.killUnit b u).pending = s.pending ∧ (s.killUnit b u).flash = s.flash ∧ (s.killUnit b u).trust = s.trust ∧
    (s.killUnit b u).isl = s.isl ∧ (s.killUnit b u).inj = s.inj ∧ (s.killUnit b u).mem.ddr = s.mem.ddr := by
  unfold State.killUnit
  refine ⟨?_, ?_, ?_, ?_, ?_, ?_⟩ <;> (try simp) <;> repeat' (first | intro _ | (split <;> try simp))

@[simp] theorem State.unitMismatch_frame (s : State) (b : BayId) (u : UnitSel) :
    (s.unitMismatch b u).pending = s.pending ∧ (s.unitMismatch b u).flash = s.flash ∧ (s.unitMismatch b u).trust = s.trust ∧
    (s.unitMismatch b u).isl = s.isl ∧ (s.unitMismatch b u).inj = s.inj ∧ (s.unitMismatch b u).mem.ddr = s.mem.ddr := by
  unfold State.unitMismatch
  refine ⟨?_, ?_, ?_, ?_, ?_, ?_⟩ <;> (try simp) <;> repeat' (first | intro _ | (split <;> try simp))

theorem execUnitHandoverDone_frame (b : BayId) (u : UnitSel) (s : State) (t : State)
    (h : execUnitHandoverDone b u s = .next t) :
    t.pending = s.pending ∧ t.free = s.free ∧ t.mem = s.mem ∧ t.flash = s.flash ∧ t.cfg = s.cfg ∧ t.trust = s.trust ∧
    t.isl = s.isl ∧ t.inj = s.inj := by
  unfold execUnitHandoverDone at h
  replace h := (withBay_next h).2
  subst h
  refine ⟨?_, ?_, ?_, ?_, ?_, ?_, ?_, ?_⟩ <;> (try simp) <;> repeat' (first | intro _ | (split <;> try simp))

theorem execCengCheckpoint_frame (r : RegionId) (e : Fin 7) (s : State) (t : State)
    (h : execCengCheckpoint r e s = .next t) :
    t.pending = s.pending ∧ t.out = s.out ∧ t.free = s.free ∧ t.host = s.host ∧ t.ev = s.ev ∧ t.ham = s.ham ∧ t.mem = s.mem ∧
    t.flash = s.flash ∧ t.cfg = s.cfg ∧ t.trust = s.trust ∧ t.isl = s.isl ∧ t.inj = s.inj ∧ t.chip = s.chip ∧ t.bays = s.bays := by
  unfold execCengCheckpoint at h
  replace h := (withRegion_next h).2
  subst h
  refine ⟨?_, ?_, ?_, ?_, ?_, ?_, ?_, ?_, ?_, ?_, ?_, ?_, ?_, ?_⟩ <;> (try simp) <;> repeat' (first | intro _ | (split <;> try simp))

@[simp] theorem State.engineFaulty_frame (s : State) (r e code : Nat) :
    (s.engineFaulty r e code).pending = s.pending ∧ (s.engineFaulty r e code).flash = s.flash ∧
    (s.engineFaulty r e code).trust = s.trust ∧ (s.engineFaulty r e code).isl = s.isl ∧ (s.engineFaulty r e code).inj = s.inj ∧
    (s.engineFaulty r e code).mem.ddr = s.mem.ddr := by
  unfold State.engineFaulty
  refine ⟨?_, ?_, ?_, ?_, ?_, ?_⟩ <;> (try simp) <;> repeat' (first | intro _ | (split <;> (try (rename_i h; replace h := congrArg Prod.snd h; dsimp only at h; subst h)) <;> try simp) | ((first | rw [State.foldl_pending] | rw [State.foldl2_pending] | rw [State.foldl_flash] | rw [State.foldl2_flash] | rw [State.foldl_trust] | rw [State.foldl2_trust] | rw [State.foldl_isl] | rw [State.foldl2_isl] | rw [State.foldl_inj] | rw [State.foldl2_inj] | rw [State.foldl_mem_ddr] | rw [State.foldl2_mem_ddr]) <;> intros <;> try simp))

theorem execCengCoreFault_frame (r : RegionId) (e : Fin 7) (cause : FaultCause) (s : State) (t : State)
    (h : execCengCoreFault r e cause s = .next t) :
    t.pending = s.pending ∧ t.flash = s.flash ∧ t.trust = s.trust ∧ t.isl = s.isl ∧ t.inj = s.inj ∧ t.mem.ddr = s.mem.ddr := by
  unfold execCengCoreFault at h
  replace h := (withRegion_next h).2
  subst h
  refine ⟨?_, ?_, ?_, ?_, ?_, ?_⟩ <;> (try simp) <;> repeat' (first | intro _ | (split <;> try simp))

theorem execCengTakeoverDone_frame (r : RegionId) (s : State) (t : State)
    (h : execCengTakeoverDone r s = .next t) :
    t.pending = s.pending ∧ t.free = s.free ∧ t.ham = s.ham ∧ t.mem = s.mem ∧ t.flash = s.flash ∧ t.cfg = s.cfg ∧
    t.trust = s.trust ∧ t.isl = s.isl ∧ t.inj = s.inj ∧ t.bays = s.bays := by
  unfold execCengTakeoverDone at h
  replace h := (withRegion_next h).2
  subst h
  refine ⟨?_, ?_, ?_, ?_, ?_, ?_, ?_, ?_, ?_, ?_⟩ <;> (try simp) <;> repeat' (first | intro _ | (split <;> try simp))

@[simp] theorem State.acceptServo_frame (s : State) (b : BayId) (p : Pu) (v : Servo) (upset : Bool) :
    (s.acceptServo b p v upset).pending = s.pending ∧ (s.acceptServo b p v upset).flash = s.flash ∧
    (s.acceptServo b p v upset).trust = s.trust ∧ (s.acceptServo b p v upset).isl = s.isl ∧
    (s.acceptServo b p v upset).mem.ddr = s.mem.ddr := by
  unfold State.acceptServo
  refine ⟨?_, ?_, ?_, ?_, ?_⟩ <;> (try simp) <;> repeat' (first | intro _ | (split <;> try simp))

theorem execHlinkServoFrame_frame (b : BayId) (p : Pu) (l : PhysLane) (raw : Bytes) (upset : Bool) (s : State) (t : State)
    (h : execHlinkServoFrame b p l raw upset s = .next t) :
    t.pending = s.pending ∧ t.flash = s.flash ∧ t.trust = s.trust ∧ t.isl = s.isl ∧ t.mem.ddr = s.mem.ddr := by
  unfold execHlinkServoFrame at h
  replace h := (withBay_next h).2
  subst h
  refine ⟨?_, ?_, ?_, ?_, ?_⟩ <;> (try simp) <;> repeat' (first | intro _ | (split <;> try simp) | ((first | rw [State.foldl_pending] | rw [State.foldl2_pending] | rw [State.foldl_flash] | rw [State.foldl2_flash] | rw [State.foldl_trust] | rw [State.foldl2_trust] | rw [State.foldl_isl] | rw [State.foldl2_isl] | rw [State.foldl_mem_ddr] | rw [State.foldl2_mem_ddr]) <;> intros <;> try simp))

theorem execServoTickMissing_frame (b : BayId) (p : Pu) (s : State) (t : State)
    (h : execServoTickMissing b p s = .next t) :
    t.pending = s.pending ∧ t.flash = s.flash ∧ t.trust = s.trust ∧ t.isl = s.isl ∧ t.mem.ddr = s.mem.ddr := by
  unfold execServoTickMissing at h
  replace h := (withBay_next h).2
  subst h
  refine ⟨?_, ?_, ?_, ?_, ?_⟩ <;> (try simp) <;> repeat' (first | intro _ | (split <;> try simp))

theorem execMissedTickUnlock_frame (b : BayId) (p : Pu) (s : State) (t : State)
    (h : execMissedTickUnlock b p s = .next t) :
    t.pending = s.pending ∧ t.flash = s.flash ∧ t.trust = s.trust ∧ t.isl = s.isl ∧ t.inj = s.inj ∧ t.mem.ddr = s.mem.ddr := by
  unfold execMissedTickUnlock at h
  replace h := (withBay_next h).2
  subst h
  refine ⟨?_, ?_, ?_, ?_, ?_, ?_⟩ <;> (try simp) <;> repeat' (first | intro _ | (split <;> try simp))

@[simp] theorem State.noteLayer_frame (s : State) (b : BayId) (p : Pu) :
    (s.noteLayer b p).pending = s.pending ∧ (s.noteLayer b p).out = s.out ∧ (s.noteLayer b p).free = s.free ∧
    (s.noteLayer b p).host = s.host ∧ (s.noteLayer b p).ev = s.ev ∧ (s.noteLayer b p).ham = s.ham ∧
    (s.noteLayer b p).mem = s.mem ∧ (s.noteLayer b p).flash = s.flash ∧ (s.noteLayer b p).cfg = s.cfg ∧
    (s.noteLayer b p).trust = s.trust ∧ (s.noteLayer b p).blk = s.blk ∧ (s.noteLayer b p).isl = s.isl ∧
    (s.noteLayer b p).inj = s.inj ∧ (s.noteLayer b p).chip = s.chip := by
  unfold State.noteLayer
  refine ⟨?_, ?_, ?_, ?_, ?_, ?_, ?_, ?_, ?_, ?_, ?_, ?_, ?_, ?_⟩ <;> (try simp) <;> repeat' (first | intro _ | (split <;> try simp))

theorem execLoopLock_frame (b : BayId) (p : Pu) (lp : LoopSel) (s : State) (t : State)
    (h : execLoopLock b p lp s = .next t) :
    t.pending = s.pending ∧ t.out = s.out ∧ t.free = s.free ∧ t.ev = s.ev ∧ t.mem = s.mem ∧ t.flash = s.flash ∧
    t.trust = s.trust ∧ t.isl = s.isl ∧ t.inj = s.inj ∧ t.chip = s.chip := by
  unfold execLoopLock at h
  replace h := (withBay_next h).2
  subst h
  refine ⟨?_, ?_, ?_, ?_, ?_, ?_, ?_, ?_, ?_, ?_⟩ <;> (try simp) <;> repeat' (first | intro _ | (split <;> try simp))

theorem execLoopUnlock_frame (b : BayId) (p : Pu) (lp : LoopSel) (s : State) (t : State)
    (h : execLoopUnlock b p lp s = .next t) :
    t.pending = s.pending ∧ t.flash = s.flash ∧ t.trust = s.trust ∧ t.isl = s.isl ∧ t.inj = s.inj ∧ t.mem.ddr = s.mem.ddr := by
  unfold execLoopUnlock at h
  replace h := (withBay_next h).2
  subst h
  refine ⟨?_, ?_, ?_, ?_, ?_, ?_⟩ <;> (try simp) <;> repeat' (first | intro _ | (split <;> try simp))

theorem execBankSwapArm_frame (b : BayId) (slot : BankSlot) (p : Pu) (src : BankSource) (bank : Bytes) (tick : Nat) (s : State) (t : State)
    (h : execBankSwapArm b slot p src bank tick s = .next t) :
    t.pending = s.pending ∧ t.free = s.free ∧ t.mem = s.mem ∧ t.flash = s.flash ∧ t.cfg = s.cfg ∧ t.trust = s.trust ∧
    t.blk = s.blk ∧ t.isl = s.isl ∧ t.inj = s.inj := by
  unfold execBankSwapArm at h
  replace h := (withBay_next h).2
  subst h
  refine ⟨?_, ?_, ?_, ?_, ?_, ?_, ?_, ?_, ?_⟩ <;> (try simp) <;> repeat' (first | intro _ | (split <;> try simp))

theorem execPickupFocusSearchStart_frame (b : BayId) (p : Pu) (s : State) (t : State)
    (h : execPickupFocusSearchStart b p s = .next t) :
    t.pending = s.pending ∧ t.flash = s.flash ∧ t.trust = s.trust ∧ t.isl = s.isl ∧ t.inj = s.inj ∧ t.mem.ddr = s.mem.ddr := by
  unfold execPickupFocusSearchStart at h
  replace h := (withBay_next h).2
  subst h
  refine ⟨?_, ?_, ?_, ?_, ?_, ?_⟩ <;> (try simp) <;> repeat' (first | intro _ | (split <;> try simp))

theorem execRecoverHoldEnd_frame (b : BayId) (p : Pu) (s : State) (t : State)
    (h : execRecoverHoldEnd b p s = .next t) :
    t.pending = s.pending ∧ t.flash = s.flash ∧ t.trust = s.trust ∧ t.isl = s.isl ∧ t.inj = s.inj ∧ t.mem.ddr = s.mem.ddr := by
  unfold execRecoverHoldEnd at h
  replace h := (withBay_next h).2
  subst h
  refine ⟨?_, ?_, ?_, ?_, ?_, ?_⟩ <;> (try simp) <;> repeat' (first | intro _ | (split <;> try simp))

theorem execLocalRecaptureEnd_frame (b : BayId) (p : Pu) (s : State) (t : State)
    (h : execLocalRecaptureEnd b p s = .next t) :
    t.pending = s.pending ∧ t.flash = s.flash ∧ t.trust = s.trust ∧ t.isl = s.isl ∧ t.inj = s.inj ∧ t.mem.ddr = s.mem.ddr := by
  unfold execLocalRecaptureEnd at h
  replace h := (withBay_next h).2
  subst h
  refine ⟨?_, ?_, ?_, ?_, ?_, ?_⟩ <;> (try simp) <;> repeat' (first | intro _ | (split <;> try simp))

theorem execPickupFailedRetry_frame (b : BayId) (p : Pu) (s : State) (t : State)
    (h : execPickupFailedRetry b p s = .next t) :
    t.pending = s.pending ∧ t.out = s.out ∧ t.free = s.free ∧ t.ev = s.ev ∧ t.mem = s.mem ∧ t.flash = s.flash ∧ t.cfg = s.cfg ∧
    t.trust = s.trust ∧ t.isl = s.isl ∧ t.inj = s.inj ∧ t.chip = s.chip := by
  unfold execPickupFailedRetry at h
  replace h := (withBay_next h).2
  subst h
  refine ⟨?_, ?_, ?_, ?_, ?_, ?_, ?_, ?_, ?_, ?_, ?_⟩ <;> (try simp) <;> repeat' (first | intro _ | (split <;> try simp))

@[simp] theorem State.predictJump_frame (s : State) (b : BayId) (p : Pu) (n : Int) :
    (s.predictJump b p n).pending = s.pending ∧ (s.predictJump b p n).out = s.out ∧ (s.predictJump b p n).free = s.free ∧
    (s.predictJump b p n).host = s.host ∧ (s.predictJump b p n).ev = s.ev ∧ (s.predictJump b p n).ham = s.ham ∧
    (s.predictJump b p n).mem = s.mem ∧ (s.predictJump b p n).flash = s.flash ∧ (s.predictJump b p n).cfg = s.cfg ∧
    (s.predictJump b p n).trust = s.trust ∧ (s.predictJump b p n).blk = s.blk ∧ (s.predictJump b p n).isl = s.isl ∧
    (s.predictJump b p n).inj = s.inj ∧ (s.predictJump b p n).chip = s.chip := by
  unfold State.predictJump
  refine ⟨?_, ?_, ?_, ?_, ?_, ?_, ?_, ?_, ?_, ?_, ?_, ?_, ?_, ?_⟩ <;> (try simp) <;> repeat' (first | intro _ | (split <;> try simp))

theorem execRestLoopJump_frame (b : BayId) (p : Pu) (s : State) (t : State)
    (h : execRestLoopJump b p s = .next t) :
    t.pending = s.pending ∧ t.out = s.out ∧ t.free = s.free ∧ t.ev = s.ev ∧ t.mem = s.mem ∧ t.flash = s.flash ∧ t.cfg = s.cfg ∧
    t.trust = s.trust ∧ t.isl = s.isl ∧ t.inj = s.inj ∧ t.chip = s.chip := by
  unfold execRestLoopJump at h
  replace h := (withBay_next h).2
  subst h
  refine ⟨?_, ?_, ?_, ?_, ?_, ?_, ?_, ?_, ?_, ?_, ?_⟩ <;> (try simp) <;> repeat' (first | intro _ | (split <;> try simp))

theorem execSaTrimUpdate_frame (b : BayId) (p : Pu) (s : State) (t : State)
    (h : execSaTrimUpdate b p s = .next t) :
    t.pending = s.pending ∧ t.out = s.out ∧ t.free = s.free ∧ t.ev = s.ev ∧ t.mem = s.mem ∧ t.flash = s.flash ∧ t.cfg = s.cfg ∧
    t.trust = s.trust ∧ t.blk = s.blk ∧ t.isl = s.isl ∧ t.inj = s.inj ∧ t.chip = s.chip := by
  unfold execSaTrimUpdate at h
  replace h := (withBay_next h).2
  subst h
  refine ⟨?_, ?_, ?_, ?_, ?_, ?_, ?_, ?_, ?_, ?_, ?_, ?_⟩ <;> (try simp) <;> repeat' (first | intro _ | (split <;> try simp))

theorem execLayerJumpIssue_frame (b : BayId) (p : Pu) (layer : Fin 12) (s : State) (t : State)
    (h : execLayerJumpIssue b p layer s = .next t) :
    t.pending = s.pending ∧ t.out = s.out ∧ t.free = s.free ∧ t.ev = s.ev ∧ t.mem = s.mem ∧ t.flash = s.flash ∧ t.cfg = s.cfg ∧
    t.trust = s.trust ∧ t.isl = s.isl ∧ t.inj = s.inj ∧ t.chip = s.chip := by
  unfold execLayerJumpIssue at h
  replace h := (withBay_next h).2
  subst h
  refine ⟨?_, ?_, ?_, ?_, ?_, ?_, ?_, ?_, ?_, ?_, ?_⟩ <;> (try simp) <;> repeat' (first | intro _ | (split <;> try simp))

@[simp] theorem State.setRef_frame (s : State) (b : BayId) (p : Pu) :
    (s.setRef b p).pending = s.pending ∧ (s.setRef b p).out = s.out ∧ (s.setRef b p).free = s.free ∧
    (s.setRef b p).host = s.host ∧ (s.setRef b p).ev = s.ev ∧ (s.setRef b p).ham = s.ham ∧ (s.setRef b p).mem = s.mem ∧
    (s.setRef b p).flash = s.flash ∧ (s.setRef b p).cfg = s.cfg ∧ (s.setRef b p).trust = s.trust ∧ (s.setRef b p).blk = s.blk ∧
    (s.setRef b p).isl = s.isl ∧ (s.setRef b p).inj = s.inj ∧ (s.setRef b p).chip = s.chip := by
  unfold State.setRef
  refine ⟨?_, ?_, ?_, ?_, ?_, ?_, ?_, ?_, ?_, ?_, ?_, ?_, ?_, ?_⟩ <;> (try simp) <;> repeat' (first | intro _ | (split <;> try simp))

theorem execClvRefSwitch_frame (b : BayId) (s : State) (t : State)
    (h : execClvRefSwitch b s = .next t) :
    t.pending = s.pending ∧ t.free = s.free ∧ t.mem = s.mem ∧ t.flash = s.flash ∧ t.cfg = s.cfg ∧ t.trust = s.trust ∧
    t.blk = s.blk ∧ t.isl = s.isl ∧ t.inj = s.inj := by
  unfold execClvRefSwitch at h
  replace h := (withBay_next h).2
  subst h
  refine ⟨?_, ?_, ?_, ?_, ?_, ?_, ?_, ?_, ?_⟩ <;> (try simp) <;> repeat' (first | intro _ | (split <;> try simp))

theorem execClvRefRestore_frame (b : BayId) (s : State) (t : State)
    (h : execClvRefRestore b s = .next t) :
    t.pending = s.pending ∧ t.out = s.out ∧ t.free = s.free ∧ t.ev = s.ev ∧ t.mem = s.mem ∧ t.flash = s.flash ∧ t.cfg = s.cfg ∧
    t.trust = s.trust ∧ t.blk = s.blk ∧ t.isl = s.isl ∧ t.inj = s.inj ∧ t.chip = s.chip := by
  unfold execClvRefRestore at h
  replace h := (withBay_next h).2
  subst h
  refine ⟨?_, ?_, ?_, ?_, ?_, ?_, ?_, ?_, ?_, ?_, ?_, ?_⟩ <;> (try simp) <;> repeat' (first | intro _ | (split <;> try simp))

theorem execAutoTuneStart_frame (b : BayId) (p : Pu) (lp : LoopSel) (s : State) (t : State)
    (h : execAutoTuneStart b p lp s = .next t) :
    t.pending = s.pending ∧ t.out = s.out ∧ t.free = s.free ∧ t.ev = s.ev ∧ t.mem = s.mem ∧ t.flash = s.flash ∧ t.cfg = s.cfg ∧
    t.trust = s.trust ∧ t.blk = s.blk ∧ t.isl = s.isl ∧ t.inj = s.inj ∧ t.chip = s.chip := by
  unfold execAutoTuneStart at h
  replace h := (withBay_next h).2
  subst h
  refine ⟨?_, ?_, ?_, ?_, ?_, ?_, ?_, ?_, ?_, ?_, ?_, ?_⟩ <;> (try simp) <;> repeat' (first | intro _ | (split <;> try simp) | ((first | rw [State.foldl_pending] | rw [State.foldl2_pending] | rw [State.foldl_out] | rw [State.foldl2_out] | rw [State.foldl_free] | rw [State.foldl2_free] | rw [State.foldl_ev] | rw [State.foldl2_ev] | rw [State.foldl_mem] | rw [State.foldl2_mem] | rw [State.foldl_flash] | rw [State.foldl2_flash] | rw [State.foldl_cfg] | rw [State.foldl2_cfg] | rw [State.foldl_trust] | rw [State.foldl2_trust] | rw [State.foldl_blk] | rw [State.foldl2_blk] | rw [State.foldl_isl] | rw [State.foldl2_isl] | rw [State.foldl_inj] | rw [State.foldl2_inj] | rw [State.foldl_chip] | rw [State.foldl2_chip]) <;> intros <;> try simp))

@[simp] theorem State.tuneJudge_frame (s : State) (b : BayId) (p : Pu) (lp : LoopSel) (k : Bank) (cycles : List (Nat × Nat)) :
    (s.tuneJudge b p lp k cycles).pending = s.pending ∧ (s.tuneJudge b p lp k cycles).free = s.free ∧
    (s.tuneJudge b p lp k cycles).ham = s.ham ∧ (s.tuneJudge b p lp k cycles).mem = s.mem ∧
    (s.tuneJudge b p lp k cycles).flash = s.flash ∧ (s.tuneJudge b p lp k cycles).cfg = s.cfg ∧
    (s.tuneJudge b p lp k cycles).trust = s.trust ∧ (s.tuneJudge b p lp k cycles).blk = s.blk ∧
    (s.tuneJudge b p lp k cycles).isl = s.isl ∧ (s.tuneJudge b p lp k cycles).inj = s.inj := by
  unfold State.tuneJudge
  refine ⟨?_, ?_, ?_, ?_, ?_, ?_, ?_, ?_, ?_, ?_⟩ <;> (try simp) <;> repeat' (first | intro _ | (split <;> try simp))

theorem execAutoTuneEnd_frame (b : BayId) (p : Pu) (s : State) (t : State)
    (h : execAutoTuneEnd b p s = .next t) :
    t.pending = s.pending ∧ t.free = s.free ∧ t.mem = s.mem ∧ t.flash = s.flash ∧ t.cfg = s.cfg ∧ t.trust = s.trust ∧
    t.blk = s.blk ∧ t.isl = s.isl ∧ t.inj = s.inj := by
  unfold execAutoTuneEnd at h
  replace h := (withBay_next h).2
  subst h
  refine ⟨?_, ?_, ?_, ?_, ?_, ?_, ?_, ?_, ?_⟩ <;> (try simp) <;> repeat' (first | intro _ | (split <;> try simp))

theorem execTuneRevertWindowEnd_frame (b : BayId) (p : Pu) (lp : LoopSel) (s : State) (t : State)
    (h : execTuneRevertWindowEnd b p lp s = .next t) :
    t.pending = s.pending ∧ t.free = s.free ∧ t.mem = s.mem ∧ t.flash = s.flash ∧ t.cfg = s.cfg ∧ t.trust = s.trust ∧
    t.blk = s.blk ∧ t.isl = s.isl ∧ t.inj = s.inj := by
  unfold execTuneRevertWindowEnd at h
  replace h := (withBay_next h).2
  subst h
  refine ⟨?_, ?_, ?_, ?_, ?_, ?_, ?_, ?_, ?_⟩ <;> (try simp) <;> repeat' (first | intro _ | (split <;> try simp))

end Sys2Proof.Machine
end

