-- ==== Sys2Proof/Laws/FrameSheetOps.lean ====
section
/-! SUPPORT. What the operations of Machine/SheetOps.lean leave unchanged: one lemma each, the fields of the state it does not touch. -/

namespace Sys2Proof.Machine

@[simp] theorem State.ladderEnds_frame (s : State) (b : BayId) (p : Pu) (q : SoftSlot) :
    (s.ladderEnds b p q).pending = s.pending ∧ (s.ladderEnds b p q).flash = s.flash ∧ (s.ladderEnds b p q).trust = s.trust ∧
    (s.ladderEnds b p q).blk = s.blk ∧ (s.ladderEnds b p q).isl = s.isl ∧ (s.ladderEnds b p q).inj = s.inj ∧
    (s.ladderEnds b p q).mem.ddr = s.mem.ddr := by
  unfold State.ladderEnds
  refine ⟨?_, ?_, ?_, ?_, ?_, ?_, ?_⟩ <;> (try simp) <;> repeat' (first | intro _ | (split <;> try simp))

@[simp] theorem State.newSlot_frame (s : State) (b : BayId) (p : Pu) :
    (s.newSlot b p).pending = s.pending ∧ (s.newSlot b p).flash = s.flash ∧ (s.newSlot b p).trust = s.trust ∧
    (s.newSlot b p).blk = s.blk ∧ (s.newSlot b p).isl = s.isl ∧ (s.newSlot b p).inj = s.inj ∧
    (s.newSlot b p).mem.ddr = s.mem.ddr := by
  unfold State.newSlot
  refine ⟨?_, ?_, ?_, ?_, ?_, ?_, ?_⟩ <;> (try simp) <;> repeat' (first | intro _ | (split <;> try simp))

@[simp] theorem State.takeSlot_frame (s : State) (b : BayId) (p : Pu) :
    (s.takeSlot b p).pending = s.pending ∧ (s.takeSlot b p).flash = s.flash ∧ (s.takeSlot b p).trust = s.trust ∧
    (s.takeSlot b p).blk = s.blk ∧ (s.takeSlot b p).isl = s.isl ∧ (s.takeSlot b p).inj = s.inj ∧
    (s.takeSlot b p).mem.ddr = s.mem.ddr := by
  unfold State.takeSlot
  refine ⟨?_, ?_, ?_, ?_, ?_, ?_, ?_⟩ <;> (try simp) <;> repeat' (first | intro _ | (split <;> try simp))

@[simp] theorem State.rateCheck_frame (s : State) (b : BayId) (p : Pu) :
    (s.rateCheck b p).pending = s.pending ∧ (s.rateCheck b p).free = s.free ∧ (s.rateCheck b p).ham = s.ham ∧
    (s.rateCheck b p).mem = s.mem ∧ (s.rateCheck b p).flash = s.flash ∧ (s.rateCheck b p).cfg = s.cfg ∧
    (s.rateCheck b p).trust = s.trust ∧ (s.rateCheck b p).blk = s.blk ∧ (s.rateCheck b p).isl = s.isl ∧
    (s.rateCheck b p).inj = s.inj := by
  unfold State.rateCheck
  refine ⟨?_, ?_, ?_, ?_, ?_, ?_, ?_, ?_, ?_, ?_⟩ <;> (try simp) <;> repeat' (first | intro _ | (split <;> try simp))

@[simp] theorem State.openBoundary_frame (s : State) (b : BayId) (p : Pu) :
    (s.openBoundary b p).pending = s.pending ∧ (s.openBoundary b p).out = s.out ∧ (s.openBoundary b p).free = s.free ∧
    (s.openBoundary b p).host = s.host ∧ (s.openBoundary b p).ev = s.ev ∧ (s.openBoundary b p).ham = s.ham ∧
    (s.openBoundary b p).mem = s.mem ∧ (s.openBoundary b p).flash = s.flash ∧ (s.openBoundary b p).trust = s.trust ∧
    (s.openBoundary b p).blk = s.blk ∧ (s.openBoundary b p).isl = s.isl ∧ (s.openBoundary b p).inj = s.inj ∧
    (s.openBoundary b p).chip = s.chip := by
  unfold State.openBoundary
  refine ⟨?_, ?_, ?_, ?_, ?_, ?_, ?_, ?_, ?_, ?_, ?_, ?_, ?_⟩ <;> (try simp) <;> repeat' (first | intro _ | (split <;> try simp))

@[simp] theorem State.sheetBlock_frame (s : State) (b : BayId) (p : Pu) (blk : SBlock) :
    (s.sheetBlock b p blk).pending = s.pending ∧ (s.sheetBlock b p blk).flash = s.flash ∧ (s.sheetBlock b p blk).trust = s.trust ∧
    (s.sheetBlock b p blk).blk = s.blk ∧ (s.sheetBlock b p blk).isl = s.isl ∧ (s.sheetBlock b p blk).inj = s.inj ∧
    (s.sheetBlock b p blk).mem.ddr = s.mem.ddr := by
  unfold State.sheetBlock
  refine ⟨?_, ?_, ?_, ?_, ?_, ?_, ?_⟩ <;> (try simp) <;> repeat' (first | intro _ | (split <;> try simp))

@[simp] theorem State.releaseDue_frame (s : State) (b : BayId) (p : Pu) (k0 : Nat) :
    (s.releaseDue b p k0).pending = s.pending ∧ (s.releaseDue b p k0).flash = s.flash ∧ (s.releaseDue b p k0).trust = s.trust ∧
    (s.releaseDue b p k0).blk = s.blk ∧ (s.releaseDue b p k0).isl = s.isl ∧ (s.releaseDue b p k0).inj = s.inj ∧
    (s.releaseDue b p k0).mem.ddr = s.mem.ddr := by
  induction k0 generalizing s b p with
  | zero => unfold State.releaseDue; simp
  | succ n ih =>
    unfold State.releaseDue
    refine ⟨?_, ?_, ?_, ?_, ?_, ?_, ?_⟩ <;> (try simp [ih]) <;> repeat' (split <;> try simp [ih])

@[simp] theorem State.releaseAll_frame (s : State) (b : BayId) (p : Pu) :
    (s.releaseAll b p).pending = s.pending ∧ (s.releaseAll b p).flash = s.flash ∧ (s.releaseAll b p).trust = s.trust ∧
    (s.releaseAll b p).blk = s.blk ∧ (s.releaseAll b p).isl = s.isl ∧ (s.releaseAll b p).inj = s.inj ∧
    (s.releaseAll b p).mem.ddr = s.mem.ddr := by
  unfold State.releaseAll
  refine ⟨?_, ?_, ?_, ?_, ?_, ?_, ?_⟩ <;> (try simp) <;> repeat' (first | intro _ | (split <;> try simp))

end Sys2Proof.Machine
end

