-- ==== Sys2Proof/Laws/FrameReadOps.lean ====
section
/-! SUPPORT. What the operations of Machine/ReadOps.lean leave unchanged: one lemma each, the fields of the state it does not touch. -/

namespace Sys2Proof.Machine

@[simp] theorem State.detectSegment_frame (s : State) (b : BayId) (p : Pu) (a : SecAddr) (part : Nat) (g : Seg) :
    (s.detectSegment b p a part g).pending = s.pending ∧ (s.detectSegment b p a part g).out = s.out ∧
    (s.detectSegment b p a part g).free = s.free ∧ (s.detectSegment b p a part g).host = s.host ∧
    (s.detectSegment b p a part g).ev = s.ev ∧ (s.detectSegment b p a part g).ham = s.ham ∧
    (s.detectSegment b p a part g).mem = s.mem ∧ (s.detectSegment b p a part g).flash = s.flash ∧
    (s.detectSegment b p a part g).cfg = s.cfg ∧ (s.detectSegment b p a part g).trust = s.trust ∧
    (s.detectSegment b p a part g).blk = s.blk ∧ (s.detectSegment b p a part g).isl = s.isl ∧
    (s.detectSegment b p a part g).inj = s.inj ∧ (s.detectSegment b p a part g).chip = s.chip := by
  unfold State.detectSegment
  refine ⟨?_, ?_, ?_, ?_, ?_, ?_, ?_, ?_, ?_, ?_, ?_, ?_, ?_, ?_⟩ <;> (try simp) <;> repeat' (first | intro _ | (split <;> try simp))

@[simp] theorem State.tapRollback_frame (s : State) (b : BayId) (p : Pu) (q : SoftSlot) :
    (s.tapRollback b p q).pending = s.pending ∧ (s.tapRollback b p q).out = s.out ∧ (s.tapRollback b p q).free = s.free ∧
    (s.tapRollback b p q).host = s.host ∧ (s.tapRollback b p q).ev = s.ev ∧ (s.tapRollback b p q).ham = s.ham ∧
    (s.tapRollback b p q).mem = s.mem ∧ (s.tapRollback b p q).flash = s.flash ∧ (s.tapRollback b p q).cfg = s.cfg ∧
    (s.tapRollback b p q).trust = s.trust ∧ (s.tapRollback b p q).blk = s.blk ∧ (s.tapRollback b p q).isl = s.isl ∧
    (s.tapRollback b p q).inj = s.inj ∧ (s.tapRollback b p q).chip = s.chip := by
  unfold State.tapRollback
  refine ⟨?_, ?_, ?_, ?_, ?_, ?_, ?_, ?_, ?_, ?_, ?_, ?_, ?_, ?_⟩ <;> (try simp) <;> repeat' (first | intro _ | (split <;> try simp))

@[simp] theorem State.eqDiverge_frame (s : State) (b : BayId) (p : Pu) (q : SoftSlot) :
    (s.eqDiverge b p q).pending = s.pending ∧ (s.eqDiverge b p q).free = s.free ∧ (s.eqDiverge b p q).ham = s.ham ∧
    (s.eqDiverge b p q).mem = s.mem ∧ (s.eqDiverge b p q).flash = s.flash ∧ (s.eqDiverge b p q).cfg = s.cfg ∧
    (s.eqDiverge b p q).trust = s.trust ∧ (s.eqDiverge b p q).blk = s.blk ∧ (s.eqDiverge b p q).isl = s.isl ∧
    (s.eqDiverge b p q).inj = s.inj := by
  unfold State.eqDiverge
  refine ⟨?_, ?_, ?_, ?_, ?_, ?_, ?_, ?_, ?_, ?_⟩ <;> (try simp) <;> repeat' (first | intro _ | (split <;> try simp))

@[simp] theorem State.verifyJudge_frame (s : State) (b : BayId) (p : Pu) (q : SoftSlot) :
    (s.verifyJudge b p q).pending = s.pending ∧ (s.verifyJudge b p q).free = s.free ∧ (s.verifyJudge b p q).flash = s.flash ∧
    (s.verifyJudge b p q).trust = s.trust ∧ (s.verifyJudge b p q).blk = s.blk ∧ (s.verifyJudge b p q).isl = s.isl ∧
    (s.verifyJudge b p q).inj = s.inj ∧ (s.verifyJudge b p q).mem.ddr = s.mem.ddr := by
  unfold State.verifyJudge
  refine ⟨?_, ?_, ?_, ?_, ?_, ?_, ?_, ?_⟩ <;> (try simp) <;> repeat' (first | intro _ | (split <;> try simp) | ((first | rw [State.foldl_pending] | rw [State.foldl2_pending] | rw [State.foldl_free] | rw [State.foldl2_free] | rw [State.foldl_flash] | rw [State.foldl2_flash] | rw [State.foldl_trust] | rw [State.foldl2_trust] | rw [State.foldl_blk] | rw [State.foldl2_blk] | rw [State.foldl_isl] | rw [State.foldl2_isl] | rw [State.foldl_inj] | rw [State.foldl2_inj] | rw [State.foldl_mem_ddr] | rw [State.foldl2_mem_ddr]) <;> intros <;> try simp))

@[simp] theorem State.finishSector_frame (s : State) (b : BayId) (p : Pu) (q : SoftSlot) (rung : Nat) (o : OuterOut) :
    (s.finishSector b p q rung o).pending = s.pending ∧ (s.finishSector b p q rung o).flash = s.flash ∧
    (s.finishSector b p q rung o).trust = s.trust ∧ (s.finishSector b p q rung o).blk = s.blk ∧
    (s.finishSector b p q rung o).isl = s.isl ∧ (s.finishSector b p q rung o).inj = s.inj ∧
    (s.finishSector b p q rung o).mem.ddr = s.mem.ddr := by
  unfold State.finishSector
  refine ⟨?_, ?_, ?_, ?_, ?_, ?_, ?_⟩ <;> (try simp) <;> repeat' (first | intro _ | (split <;> try simp))

@[simp] theorem State.ladderNext_frame (s : State) (b : BayId) (p : Pu) (q : SoftSlot) :
    (s.ladderNext b p q).pending = s.pending ∧ (s.ladderNext b p q).flash = s.flash ∧ (s.ladderNext b p q).trust = s.trust ∧
    (s.ladderNext b p q).blk = s.blk ∧ (s.ladderNext b p q).isl = s.isl ∧ (s.ladderNext b p q).inj = s.inj ∧
    (s.ladderNext b p q).mem.ddr = s.mem.ddr := by
  unfold State.ladderNext
  refine ⟨?_, ?_, ?_, ?_, ?_, ?_, ?_⟩ <;> (try simp) <;> repeat' (first | intro _ | (split <;> try simp))

@[simp] theorem State.judgeSector_frame (s : State) (b : BayId) (p : Pu) (a : SecAddr) :
    (s.judgeSector b p a).pending = s.pending ∧ (s.judgeSector b p a).flash = s.flash ∧ (s.judgeSector b p a).trust = s.trust ∧
    (s.judgeSector b p a).blk = s.blk ∧ (s.judgeSector b p a).isl = s.isl ∧ (s.judgeSector b p a).inj = s.inj ∧
    (s.judgeSector b p a).mem.ddr = s.mem.ddr := by
  unfold State.judgeSector
  refine ⟨?_, ?_, ?_, ?_, ?_, ?_, ?_⟩ <;> (try simp) <;> repeat' (first | intro _ | (split <;> try simp))

@[simp] theorem State.firstPass_frame (s : State) (b : BayId) (p : Pu) (a : SecAddr) :
    (s.firstPass b p a).pending = s.pending ∧ (s.firstPass b p a).flash = s.flash ∧ (s.firstPass b p a).trust = s.trust ∧
    (s.firstPass b p a).blk = s.blk ∧ (s.firstPass b p a).isl = s.isl ∧ (s.firstPass b p a).inj = s.inj ∧
    (s.firstPass b p a).mem.ddr = s.mem.ddr := by
  unfold State.firstPass
  refine ⟨?_, ?_, ?_, ?_, ?_, ?_, ?_⟩ <;> (try simp) <;> repeat' (first | intro _ | (split <;> try simp) | ((first | rw [State.foldl_pending] | rw [State.foldl2_pending] | rw [State.foldl_flash] | rw [State.foldl2_flash] | rw [State.foldl_trust] | rw [State.foldl2_trust] | rw [State.foldl_blk] | rw [State.foldl2_blk] | rw [State.foldl_isl] | rw [State.foldl2_isl] | rw [State.foldl_inj] | rw [State.foldl2_inj] | rw [State.foldl_mem_ddr] | rw [State.foldl2_mem_ddr]) <;> intros <;> try simp))

end Sys2Proof.Machine
end

