-- ==== Sys2Proof/Laws/FrameReadRows.lean ====
section
/-! SUPPORT. What the operations of Machine/ReadRows.lean leave unchanged: one lemma each, the fields of the state it does not touch. -/

namespace Sys2Proof.Machine

theorem execSectorSoftCommit_frame (b : BayId) (p : Pu) (s : State) (t : State)
    (h : execSectorSoftCommit b p s = .next t) :
    t.pending = s.pending ∧ t.out = s.out ∧ t.free = s.free ∧ t.ev = s.ev ∧ t.mem = s.mem ∧ t.flash = s.flash ∧
    t.trust = s.trust ∧ t.blk = s.blk ∧ t.isl = s.isl ∧ t.inj = s.inj ∧ t.chip = s.chip := by
  unfold execSectorSoftCommit at h
  replace h := (withBay_next h).2
  subst h
  refine ⟨?_, ?_, ?_, ?_, ?_, ?_, ?_, ?_, ?_, ?_, ?_⟩ <;> (try simp) <;> repeat' (first | intro _ | (split <;> try simp))

theorem execLdpcCodewordDone_frame (b : BayId) (p : Pu) (sector : FrameAddr) (cw : Fin 160) (s : State) (t : State)
    (h : execLdpcCodewordDone b p sector cw s = .next t) :
    t.pending = s.pending ∧ t.flash = s.flash ∧ t.trust = s.trust ∧ t.blk = s.blk ∧ t.isl = s.isl ∧ t.inj = s.inj ∧
    t.mem.ddr = s.mem.ddr := by
  unfold execLdpcCodewordDone at h
  replace h := (withBay_next h).2
  subst h
  refine ⟨?_, ?_, ?_, ?_, ?_, ?_, ?_⟩ <;> (try simp) <;> repeat' (first | intro _ | (split <;> try simp))

theorem execLadderTrialDone_frame (b : BayId) (p : Pu) (sector : FrameAddr) (trial : Trial) (s : State) (t : State)
    (h : execLadderTrialDone b p sector trial s = .next t) :
    t.pending = s.pending ∧ t.flash = s.flash ∧ t.trust = s.trust ∧ t.blk = s.blk ∧ t.isl = s.isl ∧ t.inj = s.inj ∧
    t.mem.ddr = s.mem.ddr := by
  unfold execLadderTrialDone at h
  replace h := (withBay_next h).2
  subst h
  refine ⟨?_, ?_, ?_, ?_, ?_, ?_, ?_⟩ <;> (try simp) <;> repeat' (first | intro _ | (split <;> try simp))

theorem execRereadPass_frame (b : BayId) (p : Pu) (sector : FrameAddr) (s : State) (t : State)
    (h : execRereadPass b p sector s = .next t) :
    t.pending = s.pending ∧ t.out = s.out ∧ t.free = s.free ∧ t.ev = s.ev ∧ t.mem = s.mem ∧ t.flash = s.flash ∧ t.cfg = s.cfg ∧
    t.trust = s.trust ∧ t.blk = s.blk ∧ t.isl = s.isl ∧ t.inj = s.inj ∧ t.chip = s.chip := by
  unfold execRereadPass at h
  replace h := (withBay_next h).2
  subst h
  refine ⟨?_, ?_, ?_, ?_, ?_, ?_, ?_, ?_, ?_, ?_, ?_, ?_⟩ <;> (try simp) <;> repeat' (first | intro _ | (split <;> try simp))

theorem execLadderTimeout_frame (b : BayId) (p : Pu) (sector : FrameAddr) (s : State) (t : State)
    (h : execLadderTimeout b p sector s = .next t) :
    t.pending = s.pending ∧ t.flash = s.flash ∧ t.trust = s.trust ∧ t.blk = s.blk ∧ t.isl = s.isl ∧ t.inj = s.inj ∧
    t.mem.ddr = s.mem.ddr := by
  unfold execLadderTimeout at h
  replace h := (withBay_next h).2
  subst h
  refine ⟨?_, ?_, ?_, ?_, ?_, ?_, ?_⟩ <;> (try simp) <;> repeat' (first | intro _ | (split <;> try simp))

@[simp] theorem State.decoderFaulty_frame (s : State) (r d : Nat) :
    (s.decoderFaulty r d).pending = s.pending ∧ (s.decoderFaulty r d).free = s.free ∧ (s.decoderFaulty r d).ham = s.ham ∧
    (s.decoderFaulty r d).mem = s.mem ∧ (s.decoderFaulty r d).flash = s.flash ∧ (s.decoderFaulty r d).cfg = s.cfg ∧
    (s.decoderFaulty r d).trust = s.trust ∧ (s.decoderFaulty r d).isl = s.isl ∧ (s.decoderFaulty r d).inj = s.inj ∧
    (s.decoderFaulty r d).bays = s.bays := by
  unfold State.decoderFaulty
  refine ⟨?_, ?_, ?_, ?_, ?_, ?_, ?_, ?_, ?_, ?_⟩ <;> (try simp) <;> repeat' (first | intro _ | (split <;> try simp))

theorem execLdpcDecoderFault_frame (r : RegionId) (d : Fin 26) (_cause : FaultCause) (s : State) (t : State)
    (h : execLdpcDecoderFault r d _cause s = .next t) :
    t.pending = s.pending ∧ t.free = s.free ∧ t.ham = s.ham ∧ t.mem = s.mem ∧ t.flash = s.flash ∧ t.cfg = s.cfg ∧
    t.trust = s.trust ∧ t.isl = s.isl ∧ t.inj = s.inj ∧ t.bays = s.bays := by
  unfold execLdpcDecoderFault at h
  replace h := (withRegion_next h).2
  subst h
  refine ⟨?_, ?_, ?_, ?_, ?_, ?_, ?_, ?_, ?_, ?_⟩ <;> (try simp) <;> repeat' (first | intro _ | (split <;> try simp))

theorem execLdpcSpareEnter_frame (r : RegionId) (s : State) (t : State)
    (h : execLdpcSpareEnter r s = .next t) :
    t.pending = s.pending ∧ t.free = s.free ∧ t.ham = s.ham ∧ t.mem = s.mem ∧ t.flash = s.flash ∧ t.cfg = s.cfg ∧
    t.trust = s.trust ∧ t.isl = s.isl ∧ t.inj = s.inj ∧ t.bays = s.bays := by
  unfold execLdpcSpareEnter at h
  replace h := (withRegion_next h).2
  subst h
  refine ⟨?_, ?_, ?_, ?_, ?_, ?_, ?_, ?_, ?_, ?_⟩ <;> (try simp) <;> repeat' (first | intro _ | (split <;> try simp))

@[simp] theorem State.endVerify_frame (s : State) (b : BayId) (p : Pu) :
    (s.endVerify b p).pending = s.pending ∧ (s.endVerify b p).free = s.free ∧ (s.endVerify b p).flash = s.flash ∧
    (s.endVerify b p).trust = s.trust ∧ (s.endVerify b p).blk = s.blk ∧ (s.endVerify b p).isl = s.isl ∧
    (s.endVerify b p).inj = s.inj ∧ (s.endVerify b p).mem.ddr = s.mem.ddr := by
  unfold State.endVerify
  refine ⟨?_, ?_, ?_, ?_, ?_, ?_, ?_, ?_⟩ <;> (try simp) <;> repeat' (first | intro _ | (split <;> try simp))

@[simp] theorem State.detectorFaulty_frame (s : State) (r d : Nat) :
    (s.detectorFaulty r d).pending = s.pending ∧ (s.detectorFaulty r d).flash = s.flash ∧ (s.detectorFaulty r d).trust = s.trust ∧
    (s.detectorFaulty r d).isl = s.isl ∧ (s.detectorFaulty r d).inj = s.inj ∧ (s.detectorFaulty r d).mem.ddr = s.mem.ddr := by
  unfold State.detectorFaulty
  refine ⟨?_, ?_, ?_, ?_, ?_, ?_⟩ <;> (try simp) <;> repeat' (split <;> (try (rename_i h; replace h := congrArg Prod.snd h; dsimp only at h; subst h)) <;> try simp)

theorem execDetectorFault_frame (r : RegionId) (d : Fin 17) (_cause : FaultCause) (s : State) (t : State)
    (h : execDetectorFault r d _cause s = .next t) :
    t.pending = s.pending ∧ t.flash = s.flash ∧ t.trust = s.trust ∧ t.isl = s.isl ∧ t.inj = s.inj ∧ t.mem.ddr = s.mem.ddr := by
  unfold execDetectorFault at h
  replace h := (withRegion_next h).2
  subst h
  refine ⟨?_, ?_, ?_, ?_, ?_, ?_⟩ <;> (try simp) <;> repeat' (first | intro _ | (split <;> try simp))

theorem execDetectorSpareStart_frame (r : RegionId) (s : State) (t : State)
    (h : execDetectorSpareStart r s = .next t) :
    t.pending = s.pending ∧ t.free = s.free ∧ t.ham = s.ham ∧ t.mem = s.mem ∧ t.flash = s.flash ∧ t.cfg = s.cfg ∧
    t.trust = s.trust ∧ t.isl = s.isl ∧ t.inj = s.inj ∧ t.bays = s.bays := by
  unfold execDetectorSpareStart at h
  replace h := (withRegion_next h).2
  subst h
  refine ⟨?_, ?_, ?_, ?_, ?_, ?_, ?_, ?_, ?_, ?_⟩ <;> (try simp) <;> repeat' (first | intro _ | (split <;> try simp))

end Sys2Proof.Machine
end

