-- ==== Sys2Proof/Laws/FrameWriteRows.lean ====
section
/-! SUPPORT. What the operations of Machine/WriteRows.lean leave unchanged: one lemma each, the fields of the state it does not touch. -/

namespace Sys2Proof.Machine

theorem execSectorEncode_frame (b : BayId) (p : Pu) (upset : Bool) (s : State) (t : State)
    (h : execSectorEncode b p upset s = .next t) :
    t.pending = s.pending ∧ t.free = s.free ∧ t.mem = s.mem ∧ t.flash = s.flash ∧ t.cfg = s.cfg ∧ t.trust = s.trust ∧
    t.isl = s.isl ∧ t.inj = s.inj := by
  unfold execSectorEncode at h
  replace h := (withBay_next h).2
  subst h
  refine ⟨?_, ?_, ?_, ?_, ?_, ?_, ?_, ?_⟩ <;> (try simp) <;> repeat' (first | intro _ | (split <;> try simp))

@[simp] theorem State.endExcursion_frame (s : State) (b : BayId) :
    (s.endExcursion b).pending = s.pending ∧ (s.endExcursion b).out = s.out ∧ (s.endExcursion b).free = s.free ∧
    (s.endExcursion b).host = s.host ∧ (s.endExcursion b).ev = s.ev ∧ (s.endExcursion b).ham = s.ham ∧
    (s.endExcursion b).mem = s.mem ∧ (s.endExcursion b).flash = s.flash ∧ (s.endExcursion b).cfg = s.cfg ∧
    (s.endExcursion b).trust = s.trust ∧ (s.endExcursion b).blk = s.blk ∧ (s.endExcursion b).isl = s.isl ∧
    (s.endExcursion b).inj = s.inj ∧ (s.endExcursion b).chip = s.chip := by
  unfold State.endExcursion
  refine ⟨?_, ?_, ?_, ?_, ?_, ?_, ?_, ?_, ?_, ?_, ?_, ?_, ?_, ?_⟩ <;> (try simp) <;> repeat' (first | intro _ | (split <;> try simp))

theorem execPassBlockStart_frame (b : BayId) (p : Pu) (s : State) (t : State)
    (h : execPassBlockStart b p s = .next t) :
    t.pending = s.pending ∧ t.free = s.free ∧ t.mem = s.mem ∧ t.flash = s.flash ∧ t.trust = s.trust ∧ t.blk = s.blk ∧
    t.isl = s.isl ∧ t.inj = s.inj := by
  unfold execPassBlockStart at h
  replace h := (withBay_next h).2
  subst h
  refine ⟨?_, ?_, ?_, ?_, ?_, ?_, ?_, ?_⟩ <;> (try simp) <;> repeat' (first | intro _ | (split <;> try simp) | ((first | rw [State.foldl_pending] | rw [State.foldl2_pending] | rw [State.foldl_free] | rw [State.foldl2_free] | rw [State.foldl_mem] | rw [State.foldl2_mem] | rw [State.foldl_flash] | rw [State.foldl2_flash] | rw [State.foldl_trust] | rw [State.foldl2_trust] | rw [State.foldl_blk] | rw [State.foldl2_blk] | rw [State.foldl_isl] | rw [State.foldl2_isl] | rw [State.foldl_inj] | rw [State.foldl2_inj]) <;> intros <;> try simp))

@[simp] theorem State.sendSegment_frame (s : State) (b : BayId) (p : Pu) (pass : Nat) (first interval : Int) (bits : List (List Bool)) :
    (s.sendSegment b p pass first interval bits).pending = s.pending ∧ (s.sendSegment b p pass first interval bits).ham = s.ham ∧
    (s.sendSegment b p pass first interval bits).mem = s.mem ∧ (s.sendSegment b p pass first interval bits).flash = s.flash ∧
    (s.sendSegment b p pass first interval bits).cfg = s.cfg ∧ (s.sendSegment b p pass first interval bits).trust = s.trust ∧
    (s.sendSegment b p pass first interval bits).blk = s.blk ∧ (s.sendSegment b p pass first interval bits).isl = s.isl := by
  unfold State.sendSegment
  refine ⟨?_, ?_, ?_, ?_, ?_, ?_, ?_, ?_⟩ <;> (try simp) <;> repeat' (first | intro _ | (split <;> try simp) | ((first | rw [State.foldl_pending] | rw [State.foldl2_pending] | rw [State.foldl_ham] | rw [State.foldl2_ham] | rw [State.foldl_mem] | rw [State.foldl2_mem] | rw [State.foldl_flash] | rw [State.foldl2_flash] | rw [State.foldl_cfg] | rw [State.foldl2_cfg] | rw [State.foldl_trust] | rw [State.foldl2_trust] | rw [State.foldl_blk] | rw [State.foldl2_blk] | rw [State.foldl_isl] | rw [State.foldl2_isl]) <;> intros <;> try simp))

@[simp] theorem State.useSpare_frame (s : State) (b : BayId) (p : Pu) (a : SecAddr) :
    (s.useSpare b p a).pending = s.pending ∧ (s.useSpare b p a).out = s.out ∧ (s.useSpare b p a).free = s.free ∧
    (s.useSpare b p a).host = s.host ∧ (s.useSpare b p a).ev = s.ev ∧ (s.useSpare b p a).mem = s.mem ∧
    (s.useSpare b p a).flash = s.flash ∧ (s.useSpare b p a).cfg = s.cfg ∧ (s.useSpare b p a).trust = s.trust ∧
    (s.useSpare b p a).blk = s.blk ∧ (s.useSpare b p a).isl = s.isl ∧ (s.useSpare b p a).inj = s.inj ∧
    (s.useSpare b p a).chip = s.chip := by
  unfold State.useSpare
  refine ⟨?_, ?_, ?_, ?_, ?_, ?_, ?_, ?_, ?_, ?_, ?_, ?_, ?_⟩ <;> (try simp) <;> repeat' (first | intro _ | (split <;> try simp))

@[simp] theorem State.touchSector_frame (s : State) (b : BayId) (p : Pu) (c : Coded) :
    (s.touchSector b p c).pending = s.pending ∧ (s.touchSector b p c).out = s.out ∧ (s.touchSector b p c).free = s.free ∧
    (s.touchSector b p c).host = s.host ∧ (s.touchSector b p c).ev = s.ev ∧ (s.touchSector b p c).mem = s.mem ∧
    (s.touchSector b p c).flash = s.flash ∧ (s.touchSector b p c).cfg = s.cfg ∧ (s.touchSector b p c).trust = s.trust ∧
    (s.touchSector b p c).blk = s.blk ∧ (s.touchSector b p c).isl = s.isl ∧ (s.touchSector b p c).inj = s.inj ∧
    (s.touchSector b p c).chip = s.chip := by
  unfold State.touchSector
  refine ⟨?_, ?_, ?_, ?_, ?_, ?_, ?_, ?_, ?_, ?_, ?_, ?_, ?_⟩ <;> (try simp) <;> repeat' (first | intro _ | (split <;> try simp))

@[simp] theorem State.writeSegment_frame (s : State) (b : BayId) (p : Pu) (k : PassBlock) (c : Coded) (f : Nat) :
    (s.writeSegment b p k c f).pending = s.pending ∧ (s.writeSegment b p k c f).mem = s.mem ∧
    (s.writeSegment b p k c f).flash = s.flash ∧ (s.writeSegment b p k c f).cfg = s.cfg ∧
    (s.writeSegment b p k c f).trust = s.trust ∧ (s.writeSegment b p k c f).blk = s.blk ∧ (s.writeSegment b p k c f).isl = s.isl := by
  unfold State.writeSegment
  refine ⟨?_, ?_, ?_, ?_, ?_, ?_, ?_⟩ <;> (try simp) <;> repeat' (first | intro _ | (split <;> try simp))

@[simp] theorem State.passSector_frame (s : State) (b : BayId) (p : Pu) (k : PassBlock) (f : Nat) :
    (s.passSector b p k f).pending = s.pending ∧ (s.passSector b p k f).free = s.free ∧ (s.passSector b p k f).flash = s.flash ∧
    (s.passSector b p k f).trust = s.trust ∧ (s.passSector b p k f).blk = s.blk ∧ (s.passSector b p k f).isl = s.isl ∧
    (s.passSector b p k f).inj = s.inj ∧ (s.passSector b p k f).mem.ddr = s.mem.ddr := by
  unfold State.passSector
  refine ⟨?_, ?_, ?_, ?_, ?_, ?_, ?_, ?_⟩ <;> (try simp) <;> repeat' (first | intro _ | (split <;> try simp))

theorem execSegmentWriteSend_frame (b : BayId) (p : Pu) (s : State) (t : State)
    (h : execSegmentWriteSend b p s = .next t) :
    t.pending = s.pending ∧ t.flash = s.flash ∧ t.trust = s.trust ∧ t.blk = s.blk ∧ t.isl = s.isl ∧ t.mem.ddr = s.mem.ddr := by
  unfold execSegmentWriteSend at h
  replace h := (withBay_next h).2
  subst h
  refine ⟨?_, ?_, ?_, ?_, ?_, ?_⟩ <;> (try simp) <;> repeat' (first | intro _ | (split <;> try simp))

theorem execStrategyBankLoad_frame (b : BayId) (p : Pu) (layer : Fin 12) (s : State) (t : State)
    (h : execStrategyBankLoad b p layer s = .next t) :
    t.pending = s.pending ∧ t.mem = s.mem ∧ t.flash = s.flash ∧ t.cfg = s.cfg ∧ t.trust = s.trust ∧ t.blk = s.blk ∧
    t.isl = s.isl := by
  unfold execStrategyBankLoad at h
  replace h := (withBay_next h).2
  subst h
  refine ⟨?_, ?_, ?_, ?_, ?_, ?_, ?_⟩ <;> (try simp) <;> repeat' (first | intro _ | (split <;> try simp))

theorem execRelocExcursionStart_frame (b : BayId) (s : State) (t : State)
    (h : execRelocExcursionStart b s = .next t) :
    t.pending = s.pending ∧ t.out = s.out ∧ t.free = s.free ∧ t.ev = s.ev ∧ t.mem = s.mem ∧ t.flash = s.flash ∧ t.cfg = s.cfg ∧
    t.trust = s.trust ∧ t.blk = s.blk ∧ t.isl = s.isl ∧ t.inj = s.inj ∧ t.chip = s.chip := by
  unfold execRelocExcursionStart at h
  replace h := (withBay_next h).2
  subst h
  refine ⟨?_, ?_, ?_, ?_, ?_, ?_, ?_, ?_, ?_, ?_, ?_, ?_⟩ <;> (try simp) <;> repeat' (first | intro _ | (split <;> try simp))

end Sys2Proof.Machine
end

