-- ==== Sys2Proof/Laws/FrameSledOps.lean ====
section
/-! SUPPORT. What the operations of Machine/SledOps.lean leave unchanged: one lemma each, the fields of the state it does not touch. -/

namespace Sys2Proof.Machine

@[simp] theorem State.sledTarget_frame (s : State) (b : BayId) (p : Pu) (radius : Int) (seek : Bool) :
    (s.sledTarget b p radius seek).pending = s.pending ∧ (s.sledTarget b p radius seek).free = s.free ∧
    (s.sledTarget b p radius seek).ham = s.ham ∧ (s.sledTarget b p radius seek).mem = s.mem ∧
    (s.sledTarget b p radius seek).flash = s.flash ∧ (s.sledTarget b p radius seek).trust = s.trust ∧
    (s.sledTarget b p radius seek).blk = s.blk ∧ (s.sledTarget b p radius seek).isl = s.isl ∧
    (s.sledTarget b p radius seek).inj = s.inj := by
  unfold State.sledTarget
  refine ⟨?_, ?_, ?_, ?_, ?_, ?_, ?_, ?_, ?_⟩ <;> (try simp) <;> repeat' (first | intro _ | (split <;> try simp))

@[simp] theorem State.seekSleds_frame (s : State) (b : BayId) (radius : Int) :
    (s.seekSleds b radius).pending = s.pending ∧ (s.seekSleds b radius).free = s.free ∧ (s.seekSleds b radius).ham = s.ham ∧
    (s.seekSleds b radius).mem = s.mem ∧ (s.seekSleds b radius).flash = s.flash ∧ (s.seekSleds b radius).trust = s.trust ∧
    (s.seekSleds b radius).blk = s.blk ∧ (s.seekSleds b radius).isl = s.isl ∧ (s.seekSleds b radius).inj = s.inj := by
  unfold State.seekSleds
  refine ⟨?_, ?_, ?_, ?_, ?_, ?_, ?_, ?_, ?_⟩ <;> (try simp) <;> repeat' (first | intro _ | (split <;> try simp))

@[simp] theorem State.enterSeek_frame (s : State) (b : BayId) (p : Pu) :
    (s.enterSeek b p).pending = s.pending ∧ (s.enterSeek b p).out = s.out ∧ (s.enterSeek b p).free = s.free ∧
    (s.enterSeek b p).host = s.host ∧ (s.enterSeek b p).ev = s.ev ∧ (s.enterSeek b p).ham = s.ham ∧
    (s.enterSeek b p).mem = s.mem ∧ (s.enterSeek b p).flash = s.flash ∧ (s.enterSeek b p).cfg = s.cfg ∧
    (s.enterSeek b p).trust = s.trust ∧ (s.enterSeek b p).isl = s.isl ∧ (s.enterSeek b p).inj = s.inj ∧
    (s.enterSeek b p).chip = s.chip := by
  unfold State.enterSeek
  refine ⟨?_, ?_, ?_, ?_, ?_, ?_, ?_, ?_, ?_, ?_, ?_, ?_, ?_⟩ <;> (try simp) <;> repeat' (first | intro _ | (split <;> try simp))

@[simp] theorem State.correctionSeek_frame (s : State) (b : BayId) (p : Pu) :
    (s.correctionSeek b p).pending = s.pending ∧ (s.correctionSeek b p).free = s.free ∧ (s.correctionSeek b p).ham = s.ham ∧
    (s.correctionSeek b p).mem = s.mem ∧ (s.correctionSeek b p).flash = s.flash ∧ (s.correctionSeek b p).trust = s.trust ∧
    (s.correctionSeek b p).isl = s.isl ∧ (s.correctionSeek b p).inj = s.inj := by
  unfold State.correctionSeek
  refine ⟨?_, ?_, ?_, ?_, ?_, ?_, ?_, ?_⟩ <;> (try simp) <;> repeat' (first | intro _ | (split <;> try simp))

@[simp] theorem State.sledStep_frame (s : State) (b : BayId) (p : Pu) :
    (s.sledStep b p).pending = s.pending ∧ (s.sledStep b p).out = s.out ∧ (s.sledStep b p).free = s.free ∧
    (s.sledStep b p).host = s.host ∧ (s.sledStep b p).ev = s.ev ∧ (s.sledStep b p).ham = s.ham ∧ (s.sledStep b p).mem = s.mem ∧
    (s.sledStep b p).flash = s.flash ∧ (s.sledStep b p).cfg = s.cfg ∧ (s.sledStep b p).trust = s.trust ∧
    (s.sledStep b p).blk = s.blk ∧ (s.sledStep b p).isl = s.isl ∧ (s.sledStep b p).inj = s.inj ∧ (s.sledStep b p).chip = s.chip := by
  unfold State.sledStep
  refine ⟨?_, ?_, ?_, ?_, ?_, ?_, ?_, ?_, ?_, ?_, ?_, ?_, ?_, ?_⟩ <;> (try simp) <;> repeat' (first | intro _ | (split <;> try simp))

@[simp] theorem State.sledLost_frame (s : State) (b : BayId) (p : Pu) :
    (s.sledLost b p).pending = s.pending ∧ (s.sledLost b p).free = s.free ∧ (s.sledLost b p).ham = s.ham ∧
    (s.sledLost b p).mem = s.mem ∧ (s.sledLost b p).flash = s.flash ∧ (s.sledLost b p).cfg = s.cfg ∧
    (s.sledLost b p).trust = s.trust ∧ (s.sledLost b p).blk = s.blk ∧ (s.sledLost b p).isl = s.isl ∧
    (s.sledLost b p).inj = s.inj := by
  unfold State.sledLost
  refine ⟨?_, ?_, ?_, ?_, ?_, ?_, ?_, ?_, ?_, ?_⟩ <;> (try simp) <;> repeat' (first | intro _ | (split <;> try simp))

@[simp] theorem State.sledWedge_frame (s : State) (b : BayId) (p : Pu) (radius : Nat) :
    (s.sledWedge b p radius).pending = s.pending ∧ (s.sledWedge b p radius).out = s.out ∧ (s.sledWedge b p radius).free = s.free ∧
    (s.sledWedge b p radius).host = s.host ∧ (s.sledWedge b p radius).ev = s.ev ∧ (s.sledWedge b p radius).ham = s.ham ∧
    (s.sledWedge b p radius).mem = s.mem ∧ (s.sledWedge b p radius).flash = s.flash ∧ (s.sledWedge b p radius).cfg = s.cfg ∧
    (s.sledWedge b p radius).trust = s.trust ∧ (s.sledWedge b p radius).blk = s.blk ∧ (s.sledWedge b p radius).isl = s.isl ∧
    (s.sledWedge b p radius).inj = s.inj ∧ (s.sledWedge b p radius).chip = s.chip := by
  unfold State.sledWedge
  refine ⟨?_, ?_, ?_, ?_, ?_, ?_, ?_, ?_, ?_, ?_, ?_, ?_, ?_, ?_⟩ <;> (try simp) <;> repeat' (first | intro _ | (split <;> try simp))

@[simp] theorem State.sledSlip_frame (s : State) (b : BayId) (p : Pu) (radius : Nat) :
    (s.sledSlip b p radius).pending = s.pending ∧ (s.sledSlip b p radius).free = s.free ∧ (s.sledSlip b p radius).ham = s.ham ∧
    (s.sledSlip b p radius).mem = s.mem ∧ (s.sledSlip b p radius).flash = s.flash ∧ (s.sledSlip b p radius).cfg = s.cfg ∧
    (s.sledSlip b p radius).trust = s.trust ∧ (s.sledSlip b p radius).blk = s.blk ∧ (s.sledSlip b p radius).isl = s.isl ∧
    (s.sledSlip b p radius).inj = s.inj := by
  unfold State.sledSlip
  refine ⟨?_, ?_, ?_, ?_, ?_, ?_, ?_, ?_, ?_, ?_⟩ <;> (try simp) <;> repeat' (first | intro _ | (split <;> try simp))

end Sys2Proof.Machine
end

