-- ==== Sys2Proof/Laws/FrameSledRows.lean ====
section
/-! SUPPORT. What the operations of Machine/SledRows.lean leave unchanged: one lemma each, the fields of the state it does not touch. -/

namespace Sys2Proof.Machine

theorem execSledCoarseStep_frame (b : BayId) (s : State) (t : State)
    (h : execSledCoarseStep b s = .next t) :
    t.pending = s.pending ∧ t.out = s.out ∧ t.free = s.free ∧ t.ev = s.ev ∧ t.mem = s.mem ∧ t.flash = s.flash ∧ t.cfg = s.cfg ∧
    t.trust = s.trust ∧ t.blk = s.blk ∧ t.isl = s.isl ∧ t.inj = s.inj ∧ t.chip = s.chip := by
  unfold execSledCoarseStep at h
  replace h := (withBay_next h).2
  subst h
  refine ⟨?_, ?_, ?_, ?_, ?_, ?_, ?_, ?_, ?_, ?_, ?_, ?_⟩ <;> (try simp) <;> repeat' (first | intro _ | (split <;> try simp))

theorem execSledTarget_frame (b : BayId) (p : Pu) (radius : Int) (seek : Bool) (s : State) (t : State)
    (h : execSledTarget b p radius seek s = .next t) :
    t.pending = s.pending ∧ t.free = s.free ∧ t.mem = s.mem ∧ t.flash = s.flash ∧ t.trust = s.trust ∧ t.blk = s.blk ∧
    t.isl = s.isl ∧ t.inj = s.inj := by
  unfold execSledTarget at h
  replace h := (withBay_next h).2
  subst h
  refine ⟨?_, ?_, ?_, ?_, ?_, ?_, ?_, ?_⟩ <;> (try simp) <;> repeat' (first | intro _ | (split <;> try simp))

theorem execSeekArrive_frame (b : BayId) (p : Pu) (s : State) (t : State)
    (h : execSeekArrive b p s = .next t) :
    t.pending = s.pending ∧ t.out = s.out ∧ t.free = s.free ∧ t.ev = s.ev ∧ t.mem = s.mem ∧ t.flash = s.flash ∧ t.cfg = s.cfg ∧
    t.trust = s.trust ∧ t.isl = s.isl ∧ t.inj = s.inj ∧ t.chip = s.chip := by
  unfold execSeekArrive at h
  replace h := (withBay_next h).2
  subst h
  refine ⟨?_, ?_, ?_, ?_, ?_, ?_, ?_, ?_, ?_, ?_, ?_⟩ <;> (try simp) <;> repeat' (first | intro _ | (split <;> try simp))

theorem execSledHoldReduce_frame (b : BayId) (p : Pu) (s : State) (t : State)
    (h : execSledHoldReduce b p s = .next t) :
    t.pending = s.pending ∧ t.out = s.out ∧ t.free = s.free ∧ t.ev = s.ev ∧ t.mem = s.mem ∧ t.flash = s.flash ∧ t.cfg = s.cfg ∧
    t.trust = s.trust ∧ t.blk = s.blk ∧ t.isl = s.isl ∧ t.inj = s.inj ∧ t.chip = s.chip := by
  unfold execSledHoldReduce at h
  replace h := (withBay_next h).2
  subst h
  refine ⟨?_, ?_, ?_, ?_, ?_, ?_, ?_, ?_, ?_, ?_, ?_, ?_⟩ <;> (try simp) <;> repeat' (first | intro _ | (split <;> try simp))

theorem execSledPowerDown_frame (b : BayId) (p : Pu) (s : State) (t : State)
    (h : execSledPowerDown b p s = .next t) :
    t.pending = s.pending ∧ t.out = s.out ∧ t.free = s.free ∧ t.ev = s.ev ∧ t.mem = s.mem ∧ t.flash = s.flash ∧
    t.trust = s.trust ∧ t.blk = s.blk ∧ t.isl = s.isl ∧ t.inj = s.inj ∧ t.chip = s.chip := by
  unfold execSledPowerDown at h
  replace h := (withBay_next h).2
  subst h
  refine ⟨?_, ?_, ?_, ?_, ?_, ?_, ?_, ?_, ?_, ?_, ?_⟩ <;> (try simp) <;> repeat' (first | intro _ | (split <;> try simp))

theorem execSledTableLoad_frame (b : BayId) (bank : Bool) (table : Bytes) (s : State) (t : State)
    (h : execSledTableLoad b bank table s = .next t) :
    t.pending = s.pending ∧ t.out = s.out ∧ t.free = s.free ∧ t.ev = s.ev ∧ t.mem = s.mem ∧ t.flash = s.flash ∧ t.cfg = s.cfg ∧
    t.trust = s.trust ∧ t.blk = s.blk ∧ t.isl = s.isl ∧ t.inj = s.inj ∧ t.chip = s.chip := by
  unfold execSledTableLoad at h
  replace h := (withBay_next h).2
  subst h
  refine ⟨?_, ?_, ?_, ?_, ?_, ?_, ?_, ?_, ?_, ?_, ?_, ?_⟩ <;> (try simp) <;> repeat' (first | intro _ | (split <;> try simp))

theorem execSeekIssue_frame (b : BayId) (radius : Nat) (s : State) (t : State)
    (h : execSeekIssue b radius s = .next t) :
    t.pending = s.pending ∧ t.free = s.free ∧ t.mem = s.mem ∧ t.flash = s.flash ∧ t.trust = s.trust ∧ t.isl = s.isl ∧
    t.inj = s.inj := by
  unfold execSeekIssue at h
  replace h := (withBay_next h).2
  subst h
  refine ⟨?_, ?_, ?_, ?_, ?_, ?_, ?_⟩ <;> (try simp) <;> repeat' (first | intro _ | (split <;> try simp))

@[simp] theorem State.jumpTo_frame (s : State) (b : BayId) (p : Pu) (n : Int) :
    (s.jumpTo b p n).pending = s.pending ∧ (s.jumpTo b p n).out = s.out ∧ (s.jumpTo b p n).free = s.free ∧
    (s.jumpTo b p n).host = s.host ∧ (s.jumpTo b p n).ev = s.ev ∧ (s.jumpTo b p n).ham = s.ham ∧ (s.jumpTo b p n).mem = s.mem ∧
    (s.jumpTo b p n).flash = s.flash ∧ (s.jumpTo b p n).cfg = s.cfg ∧ (s.jumpTo b p n).trust = s.trust ∧
    (s.jumpTo b p n).isl = s.isl ∧ (s.jumpTo b p n).inj = s.inj ∧ (s.jumpTo b p n).chip = s.chip := by
  unfold State.jumpTo
  refine ⟨?_, ?_, ?_, ?_, ?_, ?_, ?_, ?_, ?_, ?_, ?_, ?_, ?_⟩ <;> (try simp) <;> repeat' (first | intro _ | (split <;> try simp))

theorem execSwathJumpIssue_frame (b : BayId) (p : Pu) (n : Int) (s : State) (t : State)
    (h : execSwathJumpIssue b p n s = .next t) :
    t.pending = s.pending ∧ t.out = s.out ∧ t.free = s.free ∧ t.ev = s.ev ∧ t.mem = s.mem ∧ t.flash = s.flash ∧ t.cfg = s.cfg ∧
    t.trust = s.trust ∧ t.isl = s.isl ∧ t.inj = s.inj ∧ t.chip = s.chip := by
  unfold execSwathJumpIssue at h
  replace h := (withBay_next h).2
  subst h
  refine ⟨?_, ?_, ?_, ?_, ?_, ?_, ?_, ?_, ?_, ?_, ?_⟩ <;> (try simp) <;> repeat' (first | intro _ | (split <;> try simp))

theorem execTargetFrameApproach_frame (b : BayId) (p : Pu) (frame : Nat) (opensBlock : Bool) (s : State) (t : State)
    (h : execTargetFrameApproach b p frame opensBlock s = .next t) :
    t.pending = s.pending ∧ t.free = s.free ∧ t.mem = s.mem ∧ t.flash = s.flash ∧ t.trust = s.trust ∧ t.isl = s.isl ∧
    t.inj = s.inj := by
  unfold execTargetFrameApproach at h
  replace h := (withBay_next h).2
  subst h
  refine ⟨?_, ?_, ?_, ?_, ?_, ?_, ?_⟩ <;> (try simp) <;> repeat' (first | intro _ | (split <;> try simp))

@[simp] theorem State.followTarget_frame (s : State) (b : BayId) (p : Pu) :
    (s.followTarget b p).pending = s.pending ∧ (s.followTarget b p).free = s.free ∧ (s.followTarget b p).ham = s.ham ∧
    (s.followTarget b p).mem = s.mem ∧ (s.followTarget b p).flash = s.flash ∧ (s.followTarget b p).trust = s.trust ∧
    (s.followTarget b p).blk = s.blk ∧ (s.followTarget b p).isl = s.isl ∧ (s.followTarget b p).inj = s.inj := by
  unfold State.followTarget
  refine ⟨?_, ?_, ?_, ?_, ?_, ?_, ?_, ?_, ?_⟩ <;> (try simp) <;> repeat' (first | intro _ | (split <;> try simp))

theorem execSledFollowUpdate_frame (b : BayId) (p : Pu) (s : State) (t : State)
    (h : execSledFollowUpdate b p s = .next t) :
    t.pending = s.pending ∧ t.flash = s.flash ∧ t.trust = s.trust ∧ t.isl = s.isl ∧ t.inj = s.inj ∧ t.mem.ddr = s.mem.ddr := by
  unfold execSledFollowUpdate at h
  replace h := (withBay_next h).2
  subst h
  refine ⟨?_, ?_, ?_, ?_, ?_, ?_⟩ <;> (try simp) <;> repeat' (first | intro _ | (split <;> try simp))

theorem execPickupStateLimit_frame (b : BayId) (p : Pu) (s : State) (t : State)
    (h : execPickupStateLimit b p s = .next t) :
    t.pending = s.pending ∧ t.flash = s.flash ∧ t.trust = s.trust ∧ t.isl = s.isl ∧ t.inj = s.inj ∧ t.mem.ddr = s.mem.ddr := by
  unfold execPickupStateLimit at h
  replace h := (withBay_next h).2
  subst h
  refine ⟨?_, ?_, ?_, ?_, ?_, ?_⟩ <;> (try simp) <;> repeat' (first | intro _ | (split <;> try simp))

end Sys2Proof.Machine
end

