-- ==== Sys2Proof/Laws/FrameWedgeOps.lean ====
section
/-! SUPPORT. What the operations of Machine/WedgeOps.lean leave unchanged: one lemma each, the fields of the state it does not touch. -/

namespace Sys2Proof.Machine

@[simp] theorem State.closeSegment_frame (s : State) (b : BayId) (p : Pu) (g : Seg) (confirmed : Bool) :
    (s.closeSegment b p g confirmed).pending = s.pending ∧ (s.closeSegment b p g confirmed).flash = s.flash ∧
    (s.closeSegment b p g confirmed).trust = s.trust ∧ (s.closeSegment b p g confirmed).blk = s.blk ∧
    (s.closeSegment b p g confirmed).isl = s.isl ∧ (s.closeSegment b p g confirmed).inj = s.inj ∧
    (s.closeSegment b p g confirmed).mem.ddr = s.mem.ddr := by
  unfold State.closeSegment
  refine ⟨?_, ?_, ?_, ?_, ?_, ?_, ?_⟩ <;> (try simp) <;> repeat' (first | intro _ | (split <;> try simp))

@[simp] theorem State.confirmReads_frame (s : State) (b : BayId) (p : Pu) :
    (s.confirmReads b p).pending = s.pending ∧ (s.confirmReads b p).flash = s.flash ∧ (s.confirmReads b p).trust = s.trust ∧
    (s.confirmReads b p).blk = s.blk ∧ (s.confirmReads b p).isl = s.isl ∧ (s.confirmReads b p).inj = s.inj ∧
    (s.confirmReads b p).mem.ddr = s.mem.ddr := by
  unfold State.confirmReads
  refine ⟨?_, ?_, ?_, ?_, ?_, ?_, ?_⟩ <;> (try simp) <;> repeat' (first | intro _ | (split <;> try simp) | ((first | rw [State.foldl_pending] | rw [State.foldl2_pending] | rw [State.foldl_flash] | rw [State.foldl2_flash] | rw [State.foldl_trust] | rw [State.foldl2_trust] | rw [State.foldl_blk] | rw [State.foldl2_blk] | rw [State.foldl_isl] | rw [State.foldl2_isl] | rw [State.foldl_inj] | rw [State.foldl2_inj] | rw [State.foldl_mem_ddr] | rw [State.foldl2_mem_ddr]) <;> intros <;> try simp))

@[simp] theorem State.verifyUnread_frame (s : State) (b : BayId) (p : Pu) (a : SecAddr) :
    (s.verifyUnread b p a).pending = s.pending ∧ (s.verifyUnread b p a).free = s.free ∧ (s.verifyUnread b p a).flash = s.flash ∧
    (s.verifyUnread b p a).trust = s.trust ∧ (s.verifyUnread b p a).blk = s.blk ∧ (s.verifyUnread b p a).isl = s.isl ∧
    (s.verifyUnread b p a).inj = s.inj ∧ (s.verifyUnread b p a).mem.ddr = s.mem.ddr := by
  unfold State.verifyUnread
  refine ⟨?_, ?_, ?_, ?_, ?_, ?_, ?_, ?_⟩ <;> (try simp) <;> repeat' (first | intro _ | (split <;> try simp))

@[simp] theorem State.withdrawPass_frame (s : State) (b : BayId) (p : Pu) :
    (s.withdrawPass b p).pending = s.pending ∧ (s.withdrawPass b p).free = s.free ∧ (s.withdrawPass b p).flash = s.flash ∧
    (s.withdrawPass b p).trust = s.trust ∧ (s.withdrawPass b p).blk = s.blk ∧ (s.withdrawPass b p).isl = s.isl ∧
    (s.withdrawPass b p).inj = s.inj ∧ (s.withdrawPass b p).mem.ddr = s.mem.ddr := by
  unfold State.withdrawPass
  refine ⟨?_, ?_, ?_, ?_, ?_, ?_, ?_, ?_⟩ <;> (try simp) <;> repeat' (first | intro _ | (split <;> try simp) | ((first | rw [State.foldl_pending] | rw [State.foldl2_pending] | rw [State.foldl_free] | rw [State.foldl2_free] | rw [State.foldl_flash] | rw [State.foldl2_flash] | rw [State.foldl_trust] | rw [State.foldl2_trust] | rw [State.foldl_blk] | rw [State.foldl2_blk] | rw [State.foldl_isl] | rw [State.foldl2_isl] | rw [State.foldl_inj] | rw [State.foldl2_inj] | rw [State.foldl_mem_ddr] | rw [State.foldl2_mem_ddr]) <;> intros <;> try simp))

@[simp] theorem State.askRows_frame (s : State) (b : BayId) (p : Pu) (spots : List Nat) (apply : Int) :
    (s.askRows b p spots apply).pending = s.pending ∧ (s.askRows b p spots apply).out = s.out ∧
    (s.askRows b p spots apply).free = s.free ∧ (s.askRows b p spots apply).host = s.host ∧
    (s.askRows b p spots apply).ev = s.ev ∧ (s.askRows b p spots apply).ham = s.ham ∧ (s.askRows b p spots apply).mem = s.mem ∧
    (s.askRows b p spots apply).flash = s.flash ∧ (s.askRows b p spots apply).cfg = s.cfg ∧
    (s.askRows b p spots apply).trust = s.trust ∧ (s.askRows b p spots apply).blk = s.blk ∧
    (s.askRows b p spots apply).isl = s.isl ∧ (s.askRows b p spots apply).inj = s.inj ∧
    (s.askRows b p spots apply).chip = s.chip := by
  unfold State.askRows
  refine ⟨?_, ?_, ?_, ?_, ?_, ?_, ?_, ?_, ?_, ?_, ?_, ?_, ?_, ?_⟩ <;> (try simp) <;> repeat' (first | intro _ | (split <;> try simp))

@[simp] theorem State.noteSwaps_frame (s : State) (b : BayId) (p : Pu) (spots : List Nat) :
    (s.noteSwaps b p spots).pending = s.pending ∧ (s.noteSwaps b p spots).free = s.free ∧ (s.noteSwaps b p spots).ham = s.ham ∧
    (s.noteSwaps b p spots).mem = s.mem ∧ (s.noteSwaps b p spots).flash = s.flash ∧ (s.noteSwaps b p spots).cfg = s.cfg ∧
    (s.noteSwaps b p spots).trust = s.trust ∧ (s.noteSwaps b p spots).blk = s.blk ∧ (s.noteSwaps b p spots).isl = s.isl := by
  unfold State.noteSwaps
  refine ⟨?_, ?_, ?_, ?_, ?_, ?_, ?_, ?_, ?_⟩ <;> (try simp) <;> repeat' (first | intro _ | (split <;> try simp))

@[simp] theorem State.planExam_frame (s : State) (b : BayId) (p : Pu) (apply : Int) :
    (s.planExam b p apply).pending = s.pending ∧ (s.planExam b p apply).out = s.out ∧ (s.planExam b p apply).free = s.free ∧
    (s.planExam b p apply).host = s.host ∧ (s.planExam b p apply).ev = s.ev ∧ (s.planExam b p apply).ham = s.ham ∧
    (s.planExam b p apply).mem = s.mem ∧ (s.planExam b p apply).flash = s.flash ∧ (s.planExam b p apply).cfg = s.cfg ∧
    (s.planExam b p apply).trust = s.trust ∧ (s.planExam b p apply).blk = s.blk ∧ (s.planExam b p apply).isl = s.isl ∧
    (s.planExam b p apply).inj = s.inj ∧ (s.planExam b p apply).chip = s.chip := by
  unfold State.planExam
  refine ⟨?_, ?_, ?_, ?_, ?_, ?_, ?_, ?_, ?_, ?_, ?_, ?_, ?_, ?_⟩ <;> (try simp) <;> repeat' (first | intro _ | (split <;> try simp))

@[simp] theorem State.planSwaps_frame (s : State) (b : BayId) (p : Pu) (apply : Int) :
    (s.planSwaps b p apply).pending = s.pending ∧ (s.planSwaps b p apply).free = s.free ∧ (s.planSwaps b p apply).ham = s.ham ∧
    (s.planSwaps b p apply).mem = s.mem ∧ (s.planSwaps b p apply).flash = s.flash ∧ (s.planSwaps b p apply).cfg = s.cfg ∧
    (s.planSwaps b p apply).trust = s.trust ∧ (s.planSwaps b p apply).blk = s.blk ∧ (s.planSwaps b p apply).isl = s.isl := by
  unfold State.planSwaps
  refine ⟨?_, ?_, ?_, ?_, ?_, ?_, ?_, ?_, ?_⟩ <;> (try simp) <;> repeat' (first | intro _ | (split <;> try simp))

@[simp] theorem State.retirePickup_frame (s : State) (b : BayId) (p : Pu) :
    (s.retirePickup b p).pending = s.pending ∧ (s.retirePickup b p).flash = s.flash ∧ (s.retirePickup b p).trust = s.trust ∧
    (s.retirePickup b p).isl = s.isl ∧ (s.retirePickup b p).mem.ddr = s.mem.ddr := by
  unfold State.retirePickup
  refine ⟨?_, ?_, ?_, ?_, ?_⟩ <;> (try simp) <;> repeat' (first | intro _ | (split <;> try simp))

@[simp] theorem State.retireSpots_frame (s : State) (b : BayId) (p : Pu) :
    (s.retireSpots b p).pending = s.pending ∧ (s.retireSpots b p).flash = s.flash ∧ (s.retireSpots b p).trust = s.trust ∧
    (s.retireSpots b p).isl = s.isl ∧ (s.retireSpots b p).mem.ddr = s.mem.ddr := by
  unfold State.retireSpots
  refine ⟨?_, ?_, ?_, ?_, ?_⟩ <;> (try simp) <;> repeat' (split <;> (try (rename_i h; replace h := congrArg Prod.snd h; dsimp only at h; subst h)) <;> try simp)

@[simp] theorem State.openDetector_frame (s : State) (b : BayId) (p : Pu) (a : SecAddr) :
    (s.openDetector b p a).pending = s.pending ∧ (s.openDetector b p a).out = s.out ∧ (s.openDetector b p a).free = s.free ∧
    (s.openDetector b p a).host = s.host ∧ (s.openDetector b p a).ev = s.ev ∧ (s.openDetector b p a).ham = s.ham ∧
    (s.openDetector b p a).mem = s.mem ∧ (s.openDetector b p a).flash = s.flash ∧ (s.openDetector b p a).cfg = s.cfg ∧
    (s.openDetector b p a).trust = s.trust ∧ (s.openDetector b p a).blk = s.blk ∧ (s.openDetector b p a).isl = s.isl ∧
    (s.openDetector b p a).inj = s.inj ∧ (s.openDetector b p a).chip = s.chip := by
  unfold State.openDetector
  refine ⟨?_, ?_, ?_, ?_, ?_, ?_, ?_, ?_, ?_, ?_, ?_, ?_, ?_, ?_⟩ <;> (try simp) <;> repeat' (first | intro _ | (split <;> try simp))

@[simp] theorem State.admission_frame (s : State) (b : BayId) (p : Pu) (work : Bool) :
    (s.admission b p work).pending = s.pending ∧ (s.admission b p work).out = s.out ∧ (s.admission b p work).host = s.host ∧
    (s.admission b p work).ev = s.ev ∧ (s.admission b p work).ham = s.ham ∧ (s.admission b p work).mem = s.mem ∧
    (s.admission b p work).flash = s.flash ∧ (s.admission b p work).cfg = s.cfg ∧ (s.admission b p work).trust = s.trust ∧
    (s.admission b p work).isl = s.isl ∧ (s.admission b p work).inj = s.inj ∧ (s.admission b p work).chip = s.chip ∧
    (s.admission b p work).bays = s.bays := by
  unfold State.admission
  refine ⟨?_, ?_, ?_, ?_, ?_, ?_, ?_, ?_, ?_, ?_, ?_, ?_, ?_⟩ <;> (try simp) <;> repeat' (first | intro _ | (split <;> try simp))

@[simp] theorem State.openSector_frame (s : State) (b : BayId) (p : Pu) (f : FrameAddr) :
    (s.openSector b p f).pending = s.pending ∧ (s.openSector b p f).flash = s.flash ∧ (s.openSector b p f).trust = s.trust ∧
    (s.openSector b p f).isl = s.isl ∧ (s.openSector b p f).mem.ddr = s.mem.ddr := by
  unfold State.openSector
  refine ⟨?_, ?_, ?_, ?_, ?_⟩ <;> (try simp) <;> repeat' (first | intro _ | (split <;> try simp))

@[simp] theorem State.blockJump_frame (s : State) (b : BayId) (p : Pu) (k : PassBlock) (step : BlockStep) (tries : Nat) :
    (s.blockJump b p k step tries).pending = s.pending ∧ (s.blockJump b p k step tries).out = s.out ∧
    (s.blockJump b p k step tries).free = s.free ∧ (s.blockJump b p k step tries).host = s.host ∧
    (s.blockJump b p k step tries).ev = s.ev ∧ (s.blockJump b p k step tries).ham = s.ham ∧
    (s.blockJump b p k step tries).mem = s.mem ∧ (s.blockJump b p k step tries).flash = s.flash ∧
    (s.blockJump b p k step tries).cfg = s.cfg ∧ (s.blockJump b p k step tries).trust = s.trust ∧
    (s.blockJump b p k step tries).isl = s.isl ∧ (s.blockJump b p k step tries).inj = s.inj ∧
    (s.blockJump b p k step tries).chip = s.chip := by
  unfold State.blockJump
  refine ⟨?_, ?_, ?_, ?_, ?_, ?_, ?_, ?_, ?_, ?_, ?_, ?_, ?_⟩ <;> (try simp) <;> repeat' (first | intro _ | (split <;> try simp))

@[simp] theorem State.alignCheck_frame (s : State) (b : BayId) (p : Pu) (f : Nat) (confirmed : Bool) (pos : Int) :
    (s.alignCheck b p f confirmed pos).pending = s.pending ∧ (s.alignCheck b p f confirmed pos).free = s.free ∧
    (s.alignCheck b p f confirmed pos).flash = s.flash ∧ (s.alignCheck b p f confirmed pos).trust = s.trust ∧
    (s.alignCheck b p f confirmed pos).blk = s.blk ∧ (s.alignCheck b p f confirmed pos).isl = s.isl ∧
    (s.alignCheck b p f confirmed pos).inj = s.inj ∧ (s.alignCheck b p f confirmed pos).mem.ddr = s.mem.ddr := by
  unfold State.alignCheck
  refine ⟨?_, ?_, ?_, ?_, ?_, ?_, ?_, ?_⟩ <;> (try simp) <;> repeat' (first | intro _ | (split <;> try simp))

@[simp] theorem State.passEnd_frame (s : State) (b : BayId) (p : Pu) (k : PassBlock) :
    (s.passEnd b p k).pending = s.pending ∧ (s.passEnd b p k).free = s.free ∧ (s.passEnd b p k).flash = s.flash ∧
    (s.passEnd b p k).trust = s.trust ∧ (s.passEnd b p k).isl = s.isl ∧ (s.passEnd b p k).inj = s.inj ∧
    (s.passEnd b p k).mem.ddr = s.mem.ddr := by
  unfold State.passEnd
  refine ⟨?_, ?_, ?_, ?_, ?_, ?_, ?_⟩ <;> (try simp) <;> repeat' (first | intro _ | (split <;> try simp) | ((first | rw [State.foldl_pending] | rw [State.foldl2_pending] | rw [State.foldl_free] | rw [State.foldl2_free] | rw [State.foldl_flash] | rw [State.foldl2_flash] | rw [State.foldl_trust] | rw [State.foldl2_trust] | rw [State.foldl_isl] | rw [State.foldl2_isl] | rw [State.foldl_inj] | rw [State.foldl2_inj] | rw [State.foldl_mem_ddr] | rw [State.foldl2_mem_ddr]) <;> intros <;> try simp))

@[simp] theorem State.takeoverWedge_frame (s : State) (b : BayId) (p : Pu) (pos : Int) :
    (s.takeoverWedge b p pos).pending = s.pending ∧ (s.takeoverWedge b p pos).out = s.out ∧
    (s.takeoverWedge b p pos).free = s.free ∧ (s.takeoverWedge b p pos).host = s.host ∧ (s.takeoverWedge b p pos).ev = s.ev ∧
    (s.takeoverWedge b p pos).ham = s.ham ∧ (s.takeoverWedge b p pos).mem = s.mem ∧ (s.takeoverWedge b p pos).flash = s.flash ∧
    (s.takeoverWedge b p pos).cfg = s.cfg ∧ (s.takeoverWedge b p pos).trust = s.trust ∧ (s.takeoverWedge b p pos).blk = s.blk ∧
    (s.takeoverWedge b p pos).isl = s.isl ∧ (s.takeoverWedge b p pos).inj = s.inj ∧ (s.takeoverWedge b p pos).chip = s.chip := by
  unfold State.takeoverWedge
  refine ⟨?_, ?_, ?_, ?_, ?_, ?_, ?_, ?_, ?_, ?_, ?_, ?_, ?_, ?_⟩ <;> (try simp) <;> repeat' (first | intro _ | (split <;> try simp))

@[simp] theorem State.blockWedge_frame (s : State) (b : BayId) (p : Pu) (f : FrameAddr) (confirmed : Bool) (pos : Int) :
    (s.blockWedge b p f confirmed pos).pending = s.pending ∧ (s.blockWedge b p f confirmed pos).free = s.free ∧
    (s.blockWedge b p f confirmed pos).flash = s.flash ∧ (s.blockWedge b p f confirmed pos).trust = s.trust ∧
    (s.blockWedge b p f confirmed pos).isl = s.isl ∧ (s.blockWedge b p f confirmed pos).inj = s.inj ∧
    (s.blockWedge b p f confirmed pos).mem.ddr = s.mem.ddr := by
  unfold State.blockWedge
  refine ⟨?_, ?_, ?_, ?_, ?_, ?_, ?_⟩ <;> (try simp) <;> repeat' (first | intro _ | (split <;> try simp))

end Sys2Proof.Machine
end

