-- ==== Sys2Proof/Laws/FrameWedgeRows.lean ====
section
/-! SUPPORT. What the operations of Machine/WedgeRows.lean leave unchanged: one lemma each, the fields of the state it does not touch. -/

namespace Sys2Proof.Machine

theorem execHlinkSampleFrame_frame (b : BayId) (p : Pu) (l : PhysLane) (raw : Bytes) (s : State) (t : State)
    (h : execHlinkSampleFrame b p l raw s = .next t) :
    t.pending = s.pending ∧ t.flash = s.flash ∧ t.trust = s.trust ∧ t.blk = s.blk ∧ t.isl = s.isl ∧ t.mem.ddr = s.mem.ddr := by
  unfold execHlinkSampleFrame at h
  replace h := (withBay_next h).2
  subst h
  refine ⟨?_, ?_, ?_, ?_, ?_, ?_⟩ <;> (try simp) <;> repeat' (first | intro _ | (split <;> (try (rename_i h; replace h := congrArg Prod.snd h; dsimp only at h; subst h)) <;> try simp) | ((first | rw [State.foldl_pending] | rw [State.foldl2_pending] | rw [State.foldl_flash] | rw [State.foldl2_flash] | rw [State.foldl_trust] | rw [State.foldl2_trust] | rw [State.foldl_blk] | rw [State.foldl2_blk] | rw [State.foldl_isl] | rw [State.foldl2_isl] | rw [State.foldl_mem_ddr] | rw [State.foldl2_mem_ddr]) <;> intros <;> try simp))

theorem execBlockReleaseTimeout_frame (b : BayId) (p : Pu) (s : State) (t : State)
    (h : execBlockReleaseTimeout b p s = .next t) :
    t.pending = s.pending ∧ t.flash = s.flash ∧ t.trust = s.trust ∧ t.blk = s.blk ∧ t.isl = s.isl ∧ t.inj = s.inj ∧
    t.mem.ddr = s.mem.ddr := by
  unfold execBlockReleaseTimeout at h
  replace h := (withBay_next h).2
  subst h
  refine ⟨?_, ?_, ?_, ?_, ?_, ?_, ?_⟩ <;> (try simp) <;> repeat' (first | intro _ | (split <;> (try (rename_i h; replace h := congrArg Prod.snd h; dsimp only at h; subst h)) <;> try simp))

theorem execTimingHoldLimit_frame (b : BayId) (p : Pu) (i : Fin 16) (s : State) (t : State)
    (h : execTimingHoldLimit b p i s = .next t) :
    t.pending = s.pending ∧ t.out = s.out ∧ t.free = s.free ∧ t.ev = s.ev ∧ t.mem = s.mem ∧ t.flash = s.flash ∧ t.cfg = s.cfg ∧
    t.trust = s.trust ∧ t.blk = s.blk ∧ t.isl = s.isl ∧ t.inj = s.inj ∧ t.chip = s.chip := by
  unfold execTimingHoldLimit at h
  replace h := (withBay_next h).2
  subst h
  refine ⟨?_, ?_, ?_, ?_, ?_, ?_, ?_, ?_, ?_, ?_, ?_, ?_⟩ <;> (try simp) <;> repeat' (first | intro _ | (split <;> try simp))

theorem execSegmentSyncVote_frame (b : BayId) (p : Pu) (s : State) (t : State)
    (h : execSegmentSyncVote b p s = .next t) :
    t.pending = s.pending ∧ t.out = s.out ∧ t.free = s.free ∧ t.ev = s.ev ∧ t.mem = s.mem ∧ t.flash = s.flash ∧ t.cfg = s.cfg ∧
    t.trust = s.trust ∧ t.blk = s.blk ∧ t.isl = s.isl ∧ t.inj = s.inj ∧ t.chip = s.chip := by
  unfold execSegmentSyncVote at h
  replace h := (withBay_next h).2
  subst h
  refine ⟨?_, ?_, ?_, ?_, ?_, ?_, ?_, ?_, ?_, ?_, ?_, ?_⟩ <;> (try simp) <;> repeat' (first | intro _ | (split <;> try simp))

@[simp] theorem State.pairCheck_frame (s : State) (b : BayId) :
    (s.pairCheck b).pending = s.pending ∧ (s.pairCheck b).free = s.free ∧ (s.pairCheck b).flash = s.flash ∧
    (s.pairCheck b).trust = s.trust ∧ (s.pairCheck b).blk = s.blk ∧ (s.pairCheck b).isl = s.isl ∧ (s.pairCheck b).inj = s.inj ∧
    (s.pairCheck b).mem.ddr = s.mem.ddr := by
  unfold State.pairCheck
  refine ⟨?_, ?_, ?_, ?_, ?_, ?_, ?_, ?_⟩ <;> (try simp) <;> repeat' (first | intro _ | (split <;> try simp))

@[simp] theorem State.wedgeConfirmed_frame (s : State) (b : BayId) (p : Pu) (f : FrameAddr) :
    (s.wedgeConfirmed b p f).pending = s.pending ∧ (s.wedgeConfirmed b p f).flash = s.flash ∧
    (s.wedgeConfirmed b p f).trust = s.trust ∧ (s.wedgeConfirmed b p f).blk = s.blk ∧ (s.wedgeConfirmed b p f).isl = s.isl ∧
    (s.wedgeConfirmed b p f).inj = s.inj ∧ (s.wedgeConfirmed b p f).mem.ddr = s.mem.ddr := by
  unfold State.wedgeConfirmed
  refine ⟨?_, ?_, ?_, ?_, ?_, ?_, ?_⟩ <;> (try simp) <;> repeat' (first | intro _ | (split <;> try simp))

@[simp] theorem State.wedgeNext_frame (s : State) (b : BayId) (p : Pu) (f : FrameAddr) (pos : Int) :
    (s.wedgeNext b p f pos).pending = s.pending ∧ (s.wedgeNext b p f pos).flash = s.flash ∧
    (s.wedgeNext b p f pos).trust = s.trust ∧ (s.wedgeNext b p f pos).isl = s.isl ∧ (s.wedgeNext b p f pos).mem.ddr = s.mem.ddr := by
  unfold State.wedgeNext
  refine ⟨?_, ?_, ?_, ?_, ?_⟩ <;> (try simp) <;> repeat' (first | intro _ | (split <;> try simp))

@[simp] theorem State.takeLock_frame (s : State) (b : BayId) (p : Pu) (f : FrameAddr) (per ivl pos : Int) :
    (s.takeLock b p f per ivl pos).pending = s.pending ∧ (s.takeLock b p f per ivl pos).flash = s.flash ∧
    (s.takeLock b p f per ivl pos).trust = s.trust ∧ (s.takeLock b p f per ivl pos).isl = s.isl ∧
    (s.takeLock b p f per ivl pos).mem.ddr = s.mem.ddr := by
  unfold State.takeLock
  refine ⟨?_, ?_, ?_, ?_, ?_⟩ <;> (try simp) <;> repeat' (first | intro _ | (split <;> try simp))

@[simp] theorem State.searchWedge_frame (s : State) (b : BayId) (p : Pu) (since : Nat) (first : Option (FrameAddr × Int)) (a : WedgeAddr) (pos : Int) :
    (s.searchWedge b p since first a pos).pending = s.pending ∧ (s.searchWedge b p since first a pos).flash = s.flash ∧
    (s.searchWedge b p since first a pos).trust = s.trust ∧ (s.searchWedge b p since first a pos).isl = s.isl ∧
    (s.searchWedge b p since first a pos).mem.ddr = s.mem.ddr := by
  unfold State.searchWedge
  refine ⟨?_, ?_, ?_, ?_, ?_⟩ <;> (try simp) <;> repeat' (split <;> (try (rename_i h; replace h := congrArg Prod.snd h; dsimp only at h; subst h)) <;> try simp)

@[simp] theorem State.searchOn_frame (s : State) (b : BayId) (p : Pu) :
    (s.searchOn b p).pending = s.pending ∧ (s.searchOn b p).out = s.out ∧ (s.searchOn b p).free = s.free ∧
    (s.searchOn b p).host = s.host ∧ (s.searchOn b p).ev = s.ev ∧ (s.searchOn b p).ham = s.ham ∧ (s.searchOn b p).mem = s.mem ∧
    (s.searchOn b p).flash = s.flash ∧ (s.searchOn b p).cfg = s.cfg ∧ (s.searchOn b p).trust = s.trust ∧
    (s.searchOn b p).blk = s.blk ∧ (s.searchOn b p).isl = s.isl ∧ (s.searchOn b p).inj = s.inj ∧ (s.searchOn b p).chip = s.chip := by
  unfold State.searchOn
  refine ⟨?_, ?_, ?_, ?_, ?_, ?_, ?_, ?_, ?_, ?_, ?_, ?_, ?_, ?_⟩ <;> (try simp) <;> repeat' (first | intro _ | (split <;> try simp))

@[simp] theorem State.endSegment_frame (s : State) (b : BayId) (p : Pu) (g : Seg) (confirmed : Bool) :
    (s.endSegment b p g confirmed).pending = s.pending ∧ (s.endSegment b p g confirmed).flash = s.flash ∧
    (s.endSegment b p g confirmed).trust = s.trust ∧ (s.endSegment b p g confirmed).blk = s.blk ∧
    (s.endSegment b p g confirmed).isl = s.isl ∧ (s.endSegment b p g confirmed).inj = s.inj ∧
    (s.endSegment b p g confirmed).mem.ddr = s.mem.ddr := by
  unfold State.endSegment
  refine ⟨?_, ?_, ?_, ?_, ?_, ?_, ?_⟩ <;> (try simp) <;> repeat' (first | intro _ | (split <;> try simp))

@[simp] theorem State.lockedWedge_frame (s : State) (b : BayId) (p : Pu) (found : Bool) (a : Option WedgeAddr) (pos : Int) :
    (s.lockedWedge b p found a pos).pending = s.pending ∧ (s.lockedWedge b p found a pos).flash = s.flash ∧
    (s.lockedWedge b p found a pos).trust = s.trust ∧ (s.lockedWedge b p found a pos).isl = s.isl ∧
    (s.lockedWedge b p found a pos).mem.ddr = s.mem.ddr := by
  unfold State.lockedWedge
  refine ⟨?_, ?_, ?_, ?_, ?_⟩ <;> (try simp) <;> repeat' (split <;> (try (rename_i h; replace h := congrArg Prod.snd h; dsimp only at h; subst h)) <;> try simp)

@[simp] theorem State.countCorrection_frame (s : State) (b : BayId) (p : Pu) :
    (s.countCorrection b p).pending = s.pending ∧ (s.countCorrection b p).out = s.out ∧ (s.countCorrection b p).free = s.free ∧
    (s.countCorrection b p).host = s.host ∧ (s.countCorrection b p).ev = s.ev ∧ (s.countCorrection b p).ham = s.ham ∧
    (s.countCorrection b p).mem = s.mem ∧ (s.countCorrection b p).flash = s.flash ∧ (s.countCorrection b p).cfg = s.cfg ∧
    (s.countCorrection b p).trust = s.trust ∧ (s.countCorrection b p).blk = s.blk ∧ (s.countCorrection b p).isl = s.isl ∧
    (s.countCorrection b p).inj = s.inj ∧ (s.countCorrection b p).chip = s.chip := by
  unfold State.countCorrection
  refine ⟨?_, ?_, ?_, ?_, ?_, ?_, ?_, ?_, ?_, ?_, ?_, ?_, ?_, ?_⟩ <;> (try simp) <;> repeat' (first | intro _ | (split <;> try simp))

@[simp] theorem State.acquireFix_frame (s : State) (b : BayId) (p : Pu) (tag : Nat) (x : AcqAnswer) :
    (s.acquireFix b p tag x).pending = s.pending ∧ (s.acquireFix b p tag x).flash = s.flash ∧
    (s.acquireFix b p tag x).trust = s.trust ∧ (s.acquireFix b p tag x).isl = s.isl ∧ (s.acquireFix b p tag x).inj = s.inj ∧
    (s.acquireFix b p tag x).mem.ddr = s.mem.ddr := by
  unfold State.acquireFix
  refine ⟨?_, ?_, ?_, ?_, ?_, ?_⟩ <;> (try simp) <;> repeat' (first | intro _ | (split <;> try simp))

@[simp] theorem State.sawAddr_frame (s : State) (b : BayId) (p : Pu) (a : WedgeAddr) :
    (s.sawAddr b p a).pending = s.pending ∧ (s.sawAddr b p a).out = s.out ∧ (s.sawAddr b p a).free = s.free ∧
    (s.sawAddr b p a).host = s.host ∧ (s.sawAddr b p a).ev = s.ev ∧ (s.sawAddr b p a).ham = s.ham ∧
    (s.sawAddr b p a).mem = s.mem ∧ (s.sawAddr b p a).flash = s.flash ∧ (s.sawAddr b p a).cfg = s.cfg ∧
    (s.sawAddr b p a).trust = s.trust ∧ (s.sawAddr b p a).blk = s.blk ∧ (s.sawAddr b p a).isl = s.isl ∧
    (s.sawAddr b p a).inj = s.inj ∧ (s.sawAddr b p a).chip = s.chip := by
  unfold State.sawAddr
  refine ⟨?_, ?_, ?_, ?_, ?_, ?_, ?_, ?_, ?_, ?_, ?_, ?_, ?_, ?_⟩ <;> (try simp) <;> repeat' (first | intro _ | (split <;> try simp))

theorem execWedgeProcess_pending (b : BayId) (p : Pu) (s : State) (t : State)
    (h : execWedgeProcess b p s = .next t) : t.pending = s.pending := by
  unfold execWedgeProcess at h
  replace h := (withBay_next h).2
  subst h
  (try simp) <;> repeat' (first | intro _ | (split <;> (try (rename_i h; replace h := congrArg Prod.snd h; dsimp only at h; subst h)) <;> try simp))

theorem execWedgeProcess_flash (b : BayId) (p : Pu) (s : State) (t : State)
    (h : execWedgeProcess b p s = .next t) : t.flash = s.flash := by
  unfold execWedgeProcess at h
  replace h := (withBay_next h).2
  subst h
  (try simp) <;> repeat' (first | intro _ | (split <;> (try (rename_i h; replace h := congrArg Prod.snd h; dsimp only at h; subst h)) <;> try simp))

theorem execWedgeProcess_trust (b : BayId) (p : Pu) (s : State) (t : State)
    (h : execWedgeProcess b p s = .next t) : t.trust = s.trust := by
  unfold execWedgeProcess at h
  replace h := (withBay_next h).2
  subst h
  (try simp) <;> repeat' (first | intro _ | (split <;> (try (rename_i h; replace h := congrArg Prod.snd h; dsimp only at h; subst h)) <;> try simp))

theorem execWedgeProcess_isl (b : BayId) (p : Pu) (s : State) (t : State)
    (h : execWedgeProcess b p s = .next t) : t.isl = s.isl := by
  unfold execWedgeProcess at h
  replace h := (withBay_next h).2
  subst h
  (try simp) <;> repeat' (first | intro _ | (split <;> (try (rename_i h; replace h := congrArg Prod.snd h; dsimp only at h; subst h)) <;> try simp))

theorem execWedgeProcess_mem_ddr (b : BayId) (p : Pu) (s : State) (t : State)
    (h : execWedgeProcess b p s = .next t) : t.mem.ddr = s.mem.ddr := by
  unfold execWedgeProcess at h
  replace h := (withBay_next h).2
  subst h
  (try simp) <;> repeat' (first | intro _ | (split <;> (try (rename_i h; replace h := congrArg Prod.snd h; dsimp only at h; subst h)) <;> try simp))

theorem execWedgeProcess_frame (b : BayId) (p : Pu) (s : State) (t : State)
    (h : execWedgeProcess b p s = .next t) :
    t.pending = s.pending ∧ t.flash = s.flash ∧ t.trust = s.trust ∧ t.isl = s.isl ∧ t.mem.ddr = s.mem.ddr :=
  ⟨execWedgeProcess_pending b p s t h,
   execWedgeProcess_flash b p s t h,
   execWedgeProcess_trust b p s t h,
   execWedgeProcess_isl b p s t h,
   execWedgeProcess_mem_ddr b p s t h⟩

theorem execFrameLockLost_frame (b : BayId) (p : Pu) (s : State) (t : State)
    (h : execFrameLockLost b p s = .next t) :
    t.pending = s.pending ∧ t.free = s.free ∧ t.flash = s.flash ∧ t.trust = s.trust ∧ t.blk = s.blk ∧ t.isl = s.isl ∧
    t.inj = s.inj ∧ t.mem.ddr = s.mem.ddr := by
  unfold execFrameLockLost at h
  replace h := (withBay_next h).2
  subst h
  refine ⟨?_, ?_, ?_, ?_, ?_, ?_, ?_, ?_⟩ <;> (try simp) <;> repeat' (first | intro _ | (split <;> try simp))

theorem execAcqSearchTimeout_frame (b : BayId) (p : Pu) (s : State) (t : State)
    (h : execAcqSearchTimeout b p s = .next t) :
    t.pending = s.pending ∧ t.flash = s.flash ∧ t.trust = s.trust ∧ t.isl = s.isl ∧ t.inj = s.inj ∧ t.mem.ddr = s.mem.ddr := by
  unfold execAcqSearchTimeout at h
  replace h := (withBay_next h).2
  subst h
  refine ⟨?_, ?_, ?_, ?_, ?_, ?_⟩ <;> (try simp) <;> repeat' (first | intro _ | (split <;> try simp))

end Sys2Proof.Machine
end

