-- ==== Sys2Proof/Laws/FrameSpinOps.lean ====
section
/-! SUPPORT. What the operations of Machine/SpinOps.lean leave unchanged: one lemma each, the fields of the state it does not touch. -/

namespace Sys2Proof.Machine

@[simp] theorem State.spEnter_frame (s : State) (b : BayId) (st : SpSt) :
    (s.spEnter b st).pending = s.pending ∧ (s.spEnter b st).out = s.out ∧ (s.spEnter b st).free = s.free ∧
    (s.spEnter b st).host = s.host ∧ (s.spEnter b st).ev = s.ev ∧ (s.spEnter b st).ham = s.ham ∧ (s.spEnter b st).mem = s.mem ∧
    (s.spEnter b st).flash = s.flash ∧ (s.spEnter b st).cfg = s.cfg ∧ (s.spEnter b st).trust = s.trust ∧
    (s.spEnter b st).isl = s.isl ∧ (s.spEnter b st).inj = s.inj ∧ (s.spEnter b st).chip = s.chip := by
  unfold State.spEnter
  refine ⟨?_, ?_, ?_, ?_, ?_, ?_, ?_, ?_, ?_, ?_, ?_, ?_, ?_⟩ <;> (try simp) <;> repeat' (first | intro _ | (split <;> try simp))

@[simp] theorem State.enterCatch_frame (s : State) (b : BayId) (use : CatchUse) :
    (s.enterCatch b use).pending = s.pending ∧ (s.enterCatch b use).out = s.out ∧ (s.enterCatch b use).free = s.free ∧
    (s.enterCatch b use).host = s.host ∧ (s.enterCatch b use).ev = s.ev ∧ (s.enterCatch b use).ham = s.ham ∧
    (s.enterCatch b use).mem = s.mem ∧ (s.enterCatch b use).flash = s.flash ∧ (s.enterCatch b use).trust = s.trust ∧
    (s.enterCatch b use).isl = s.isl ∧ (s.enterCatch b use).inj = s.inj ∧ (s.enterCatch b use).chip = s.chip := by
  unfold State.enterCatch
  refine ⟨?_, ?_, ?_, ?_, ?_, ?_, ?_, ?_, ?_, ?_, ?_, ?_⟩ <;> (try simp) <;> repeat' (first | intro _ | (split <;> try simp))

@[simp] theorem State.spRecover_frame (s : State) (b : BayId) :
    (s.spRecover b).pending = s.pending ∧ (s.spRecover b).out = s.out ∧ (s.spRecover b).free = s.free ∧
    (s.spRecover b).host = s.host ∧ (s.spRecover b).ev = s.ev ∧ (s.spRecover b).ham = s.ham ∧ (s.spRecover b).mem = s.mem ∧
    (s.spRecover b).flash = s.flash ∧ (s.spRecover b).cfg = s.cfg ∧ (s.spRecover b).trust = s.trust ∧
    (s.spRecover b).isl = s.isl ∧ (s.spRecover b).inj = s.inj ∧ (s.spRecover b).chip = s.chip := by
  unfold State.spRecover
  refine ⟨?_, ?_, ?_, ?_, ?_, ?_, ?_, ?_, ?_, ?_, ?_, ?_, ?_⟩ <;> (try simp) <;> repeat' (first | intro _ | (split <;> try simp))

@[simp] theorem State.spFault_frame (s : State) (b : BayId) :
    (s.spFault b).pending = s.pending ∧ (s.spFault b).flash = s.flash ∧ (s.spFault b).trust = s.trust ∧
    (s.spFault b).isl = s.isl ∧ (s.spFault b).inj = s.inj ∧ (s.spFault b).mem.ddr = s.mem.ddr := by
  unfold State.spFault
  refine ⟨?_, ?_, ?_, ?_, ?_, ?_⟩ <;> (try simp) <;> repeat' (first | intro _ | (split <;> try simp))

@[simp] theorem State.spStopped_frame (s : State) (b : BayId) :
    (s.spStopped b).pending = s.pending ∧ (s.spStopped b).flash = s.flash ∧ (s.spStopped b).trust = s.trust ∧
    (s.spStopped b).isl = s.isl ∧ (s.spStopped b).inj = s.inj ∧ (s.spStopped b).mem.ddr = s.mem.ddr := by
  unfold State.spStopped
  refine ⟨?_, ?_, ?_, ?_, ?_, ?_⟩ <;> (try simp) <;> repeat' (first | intro _ | (split <;> try simp))

@[simp] theorem State.spBrake_frame (s : State) (b : BayId) :
    (s.spBrake b).pending = s.pending ∧ (s.spBrake b).out = s.out ∧ (s.spBrake b).free = s.free ∧ (s.spBrake b).host = s.host ∧
    (s.spBrake b).ev = s.ev ∧ (s.spBrake b).ham = s.ham ∧ (s.spBrake b).mem = s.mem ∧ (s.spBrake b).flash = s.flash ∧
    (s.spBrake b).cfg = s.cfg ∧ (s.spBrake b).trust = s.trust ∧ (s.spBrake b).isl = s.isl ∧ (s.spBrake b).inj = s.inj ∧
    (s.spBrake b).chip = s.chip := by
  unfold State.spBrake
  refine ⟨?_, ?_, ?_, ?_, ?_, ?_, ?_, ?_, ?_, ?_, ?_, ?_, ?_⟩ <;> (try simp) <;> repeat' (first | intro _ | (split <;> try simp))

@[simp] theorem State.spWait_frame (s : State) (b : BayId) (ms : Nat) :
    (s.spWait b ms).pending = s.pending ∧ (s.spWait b ms).out = s.out ∧ (s.spWait b ms).free = s.free ∧
    (s.spWait b ms).host = s.host ∧ (s.spWait b ms).ev = s.ev ∧ (s.spWait b ms).ham = s.ham ∧ (s.spWait b ms).mem = s.mem ∧
    (s.spWait b ms).flash = s.flash ∧ (s.spWait b ms).cfg = s.cfg ∧ (s.spWait b ms).trust = s.trust ∧
    (s.spWait b ms).isl = s.isl ∧ (s.spWait b ms).inj = s.inj ∧ (s.spWait b ms).chip = s.chip := by
  unfold State.spWait
  refine ⟨?_, ?_, ?_, ?_, ?_, ?_, ?_, ?_, ?_, ?_, ?_, ?_, ?_⟩ <;> (try simp) <;> repeat' (first | intro _ | (split <;> try simp))

@[simp] theorem State.spDecel_frame (s : State) (b : BayId) (goal : Int) :
    (s.spDecel b goal).pending = s.pending ∧ (s.spDecel b goal).out = s.out ∧ (s.spDecel b goal).free = s.free ∧
    (s.spDecel b goal).host = s.host ∧ (s.spDecel b goal).ev = s.ev ∧ (s.spDecel b goal).ham = s.ham ∧
    (s.spDecel b goal).mem = s.mem ∧ (s.spDecel b goal).flash = s.flash ∧ (s.spDecel b goal).cfg = s.cfg ∧
    (s.spDecel b goal).trust = s.trust ∧ (s.spDecel b goal).isl = s.isl ∧ (s.spDecel b goal).inj = s.inj ∧
    (s.spDecel b goal).chip = s.chip := by
  unfold State.spDecel
  refine ⟨?_, ?_, ?_, ?_, ?_, ?_, ?_, ?_, ?_, ?_, ?_, ?_, ?_⟩ <;> (try simp) <;> repeat' (first | intro _ | (split <;> try simp))

@[simp] theorem State.spSync_frame (s : State) (b : BayId) (idRef iq : Int) :
    (s.spSync b idRef iq).pending = s.pending ∧ (s.spSync b idRef iq).out = s.out ∧ (s.spSync b idRef iq).free = s.free ∧
    (s.spSync b idRef iq).host = s.host ∧ (s.spSync b idRef iq).ev = s.ev ∧ (s.spSync b idRef iq).ham = s.ham ∧
    (s.spSync b idRef iq).mem = s.mem ∧ (s.spSync b idRef iq).flash = s.flash ∧ (s.spSync b idRef iq).cfg = s.cfg ∧
    (s.spSync b idRef iq).trust = s.trust ∧ (s.spSync b idRef iq).isl = s.isl ∧ (s.spSync b idRef iq).inj = s.inj ∧
    (s.spSync b idRef iq).chip = s.chip := by
  unfold State.spSync
  refine ⟨?_, ?_, ?_, ?_, ?_, ?_, ?_, ?_, ?_, ?_, ?_, ?_, ?_⟩ <;> (try simp) <;> repeat' (first | intro _ | (split <;> try simp))

@[simp] theorem State.tryFails_frame (s : State) (b : BayId) :
    (s.tryFails b).pending = s.pending ∧ (s.tryFails b).flash = s.flash ∧ (s.tryFails b).trust = s.trust ∧
    (s.tryFails b).isl = s.isl ∧ (s.tryFails b).inj = s.inj ∧ (s.tryFails b).mem.ddr = s.mem.ddr := by
  unfold State.tryFails
  refine ⟨?_, ?_, ?_, ?_, ?_, ?_⟩ <;> (try simp) <;> repeat' (first | intro _ | (split <;> try simp))

@[simp] theorem State.spRun_frame (s : State) (b : BayId) :
    (s.spRun b).pending = s.pending ∧ (s.spRun b).free = s.free ∧ (s.spRun b).ham = s.ham ∧ (s.spRun b).mem = s.mem ∧
    (s.spRun b).flash = s.flash ∧ (s.spRun b).cfg = s.cfg ∧ (s.spRun b).trust = s.trust ∧ (s.spRun b).isl = s.isl ∧
    (s.spRun b).inj = s.inj := by
  unfold State.spRun
  refine ⟨?_, ?_, ?_, ?_, ?_, ?_, ?_, ?_, ?_⟩ <;> (try simp) <;> repeat' (first | intro _ | (split <;> try simp))

@[simp] theorem State.currentLoops_frame (s : State) (b : BayId) (refs : Int × Int × Int) (meas : Option (Int × Int)) :
    (s.currentLoops b refs meas).pending = s.pending ∧ (s.currentLoops b refs meas).out = s.out ∧
    (s.currentLoops b refs meas).free = s.free ∧ (s.currentLoops b refs meas).host = s.host ∧
    (s.currentLoops b refs meas).ev = s.ev ∧ (s.currentLoops b refs meas).ham = s.ham ∧ (s.currentLoops b refs meas).mem = s.mem ∧
    (s.currentLoops b refs meas).flash = s.flash ∧ (s.currentLoops b refs meas).cfg = s.cfg ∧
    (s.currentLoops b refs meas).trust = s.trust ∧ (s.currentLoops b refs meas).blk = s.blk ∧
    (s.currentLoops b refs meas).isl = s.isl ∧ (s.currentLoops b refs meas).inj = s.inj ∧
    (s.currentLoops b refs meas).chip = s.chip := by
  unfold State.currentLoops
  refine ⟨?_, ?_, ?_, ?_, ?_, ?_, ?_, ?_, ?_, ?_, ?_, ?_, ?_, ?_⟩ <;> (try simp) <;> repeat' (first | intro _ | (split <;> try simp))

@[simp] theorem State.observe_frame (s : State) (b : BayId) (i : Int × Int) :
    (s.observe b i).pending = s.pending ∧ (s.observe b i).out = s.out ∧ (s.observe b i).free = s.free ∧
    (s.observe b i).host = s.host ∧ (s.observe b i).ev = s.ev ∧ (s.observe b i).ham = s.ham ∧ (s.observe b i).mem = s.mem ∧
    (s.observe b i).flash = s.flash ∧ (s.observe b i).cfg = s.cfg ∧ (s.observe b i).trust = s.trust ∧
    (s.observe b i).blk = s.blk ∧ (s.observe b i).isl = s.isl ∧ (s.observe b i).inj = s.inj ∧ (s.observe b i).chip = s.chip := by
  unfold State.observe
  refine ⟨?_, ?_, ?_, ?_, ?_, ?_, ?_, ?_, ?_, ?_, ?_, ?_, ?_, ?_⟩ <;> (try simp) <;> repeat' (first | intro _ | (split <;> try simp))

@[simp] theorem State.watchSpeed_frame (s : State) (b : BayId) :
    (s.watchSpeed b).pending = s.pending ∧ (s.watchSpeed b).out = s.out ∧ (s.watchSpeed b).free = s.free ∧
    (s.watchSpeed b).host = s.host ∧ (s.watchSpeed b).ev = s.ev ∧ (s.watchSpeed b).ham = s.ham ∧ (s.watchSpeed b).mem = s.mem ∧
    (s.watchSpeed b).flash = s.flash ∧ (s.watchSpeed b).cfg = s.cfg ∧ (s.watchSpeed b).trust = s.trust ∧
    (s.watchSpeed b).blk = s.blk ∧ (s.watchSpeed b).isl = s.isl ∧ (s.watchSpeed b).inj = s.inj ∧ (s.watchSpeed b).chip = s.chip := by
  unfold State.watchSpeed
  refine ⟨?_, ?_, ?_, ?_, ?_, ?_, ?_, ?_, ?_, ?_, ?_, ?_, ?_, ?_⟩ <;> (try simp) <;> repeat' (first | intro _ | (split <;> try simp))

@[simp] theorem State.watchCatch_frame (s : State) (b : BayId) (rpm : Int) :
    (s.watchCatch b rpm).pending = s.pending ∧ (s.watchCatch b rpm).out = s.out ∧ (s.watchCatch b rpm).free = s.free ∧
    (s.watchCatch b rpm).host = s.host ∧ (s.watchCatch b rpm).ev = s.ev ∧ (s.watchCatch b rpm).ham = s.ham ∧
    (s.watchCatch b rpm).mem = s.mem ∧ (s.watchCatch b rpm).flash = s.flash ∧ (s.watchCatch b rpm).cfg = s.cfg ∧
    (s.watchCatch b rpm).trust = s.trust ∧ (s.watchCatch b rpm).blk = s.blk ∧ (s.watchCatch b rpm).isl = s.isl ∧
    (s.watchCatch b rpm).inj = s.inj ∧ (s.watchCatch b rpm).chip = s.chip := by
  unfold State.watchCatch
  refine ⟨?_, ?_, ?_, ?_, ?_, ?_, ?_, ?_, ?_, ?_, ?_, ?_, ?_, ?_⟩ <;> (try simp) <;> repeat' (first | intro _ | (split <;> try simp))

@[simp] theorem State.swapBanks_frame (s : State) (b : BayId) :
    (s.swapBanks b).pending = s.pending ∧ (s.swapBanks b).out = s.out ∧ (s.swapBanks b).free = s.free ∧
    (s.swapBanks b).host = s.host ∧ (s.swapBanks b).ev = s.ev ∧ (s.swapBanks b).ham = s.ham ∧ (s.swapBanks b).mem = s.mem ∧
    (s.swapBanks b).flash = s.flash ∧ (s.swapBanks b).cfg = s.cfg ∧ (s.swapBanks b).trust = s.trust ∧
    (s.swapBanks b).blk = s.blk ∧ (s.swapBanks b).isl = s.isl ∧ (s.swapBanks b).inj = s.inj ∧ (s.swapBanks b).chip = s.chip := by
  unfold State.swapBanks
  refine ⟨?_, ?_, ?_, ?_, ?_, ?_, ?_, ?_, ?_, ?_, ?_, ?_, ?_, ?_⟩ <;> (try simp) <;> repeat' (first | intro _ | (split <;> try simp))

@[simp] theorem State.undriven_frame (s : State) (b : BayId) :
    (s.undriven b).pending = s.pending ∧ (s.undriven b).out = s.out ∧ (s.undriven b).free = s.free ∧
    (s.undriven b).host = s.host ∧ (s.undriven b).ev = s.ev ∧ (s.undriven b).ham = s.ham ∧ (s.undriven b).mem = s.mem ∧
    (s.undriven b).flash = s.flash ∧ (s.undriven b).cfg = s.cfg ∧ (s.undriven b).trust = s.trust ∧ (s.undriven b).blk = s.blk ∧
    (s.undriven b).isl = s.isl ∧ (s.undriven b).inj = s.inj ∧ (s.undriven b).chip = s.chip := by
  unfold State.undriven
  refine ⟨?_, ?_, ?_, ?_, ?_, ?_, ?_, ?_, ?_, ?_, ?_, ?_, ?_, ?_⟩ <;> (try simp) <;> repeat' (first | intro _ | (split <;> try simp))

@[simp] theorem State.periodCounts_frame (s : State) (b : BayId) (valid : Bool) :
    (s.periodCounts b valid).pending = s.pending ∧ (s.periodCounts b valid).out = s.out ∧ (s.periodCounts b valid).free = s.free ∧
    (s.periodCounts b valid).host = s.host ∧ (s.periodCounts b valid).ev = s.ev ∧ (s.periodCounts b valid).ham = s.ham ∧
    (s.periodCounts b valid).mem = s.mem ∧ (s.periodCounts b valid).flash = s.flash ∧ (s.periodCounts b valid).cfg = s.cfg ∧
    (s.periodCounts b valid).trust = s.trust ∧ (s.periodCounts b valid).blk = s.blk ∧ (s.periodCounts b valid).isl = s.isl ∧
    (s.periodCounts b valid).inj = s.inj ∧ (s.periodCounts b valid).chip = s.chip := by
  unfold State.periodCounts
  refine ⟨?_, ?_, ?_, ?_, ?_, ?_, ?_, ?_, ?_, ?_, ?_, ?_, ?_, ?_⟩ <;> (try simp) <;> repeat' (first | intro _ | (split <;> try simp))

@[simp] theorem State.periodEnd_frame (s : State) (b : BayId) :
    (s.periodEnd b).pending = s.pending ∧ (s.periodEnd b).out = s.out ∧ (s.periodEnd b).free = s.free ∧
    (s.periodEnd b).host = s.host ∧ (s.periodEnd b).ev = s.ev ∧ (s.periodEnd b).ham = s.ham ∧ (s.periodEnd b).mem = s.mem ∧
    (s.periodEnd b).flash = s.flash ∧ (s.periodEnd b).trust = s.trust ∧ (s.periodEnd b).isl = s.isl ∧
    (s.periodEnd b).inj = s.inj ∧ (s.periodEnd b).chip = s.chip := by
  unfold State.periodEnd
  refine ⟨?_, ?_, ?_, ?_, ?_, ?_, ?_, ?_, ?_, ?_, ?_, ?_⟩ <;> (try simp) <;> repeat' (first | intro _ | (split <;> try simp))

@[simp] theorem State.holdDrive_frame (s : State) (b : BayId) :
    (s.holdDrive b).pending = s.pending ∧ (s.holdDrive b).out = s.out ∧ (s.holdDrive b).free = s.free ∧
    (s.holdDrive b).host = s.host ∧ (s.holdDrive b).ev = s.ev ∧ (s.holdDrive b).ham = s.ham ∧ (s.holdDrive b).mem = s.mem ∧
    (s.holdDrive b).flash = s.flash ∧ (s.holdDrive b).cfg = s.cfg ∧ (s.holdDrive b).trust = s.trust ∧
    (s.holdDrive b).blk = s.blk ∧ (s.holdDrive b).isl = s.isl ∧ (s.holdDrive b).inj = s.inj ∧ (s.holdDrive b).chip = s.chip := by
  unfold State.holdDrive
  refine ⟨?_, ?_, ?_, ?_, ?_, ?_, ?_, ?_, ?_, ?_, ?_, ?_, ?_, ?_⟩ <;> (try simp) <;> repeat' (first | intro _ | (split <;> try simp))

@[simp] theorem State.spinPeriod_frame (s : State) (b : BayId) (meas : Option (Int × Int)) (held : Bool) :
    (s.spinPeriod b meas held).pending = s.pending ∧ (s.spinPeriod b meas held).out = s.out ∧
    (s.spinPeriod b meas held).free = s.free ∧ (s.spinPeriod b meas held).host = s.host ∧ (s.spinPeriod b meas held).ev = s.ev ∧
    (s.spinPeriod b meas held).ham = s.ham ∧ (s.spinPeriod b meas held).mem = s.mem ∧ (s.spinPeriod b meas held).flash = s.flash ∧
    (s.spinPeriod b meas held).trust = s.trust ∧ (s.spinPeriod b meas held).isl = s.isl ∧ (s.spinPeriod b meas held).inj = s.inj ∧
    (s.spinPeriod b meas held).chip = s.chip := by
  unfold State.spinPeriod
  refine ⟨?_, ?_, ?_, ?_, ?_, ?_, ?_, ?_, ?_, ?_, ?_, ?_⟩ <;> (try simp) <;> repeat' (first | intro _ | (split <;> try simp))

end Sys2Proof.Machine
end

