-- ==== Sys2Proof/Laws/FrameMotorOps.lean ====
section
/-! SUPPORT. What the operations of Machine/MotorOps.lean leave unchanged: one lemma each, the fields of the state it does not touch. -/

namespace Sys2Proof.Machine

@[simp] theorem State.sendDrive_frame (s : State) (b : BayId) (type tsh : Nat) (payload : Bytes) :
    (s.sendDrive b type tsh payload).pending = s.pending ∧ (s.sendDrive b type tsh payload).ham = s.ham ∧
    (s.sendDrive b type tsh payload).mem = s.mem ∧ (s.sendDrive b type tsh payload).flash = s.flash ∧
    (s.sendDrive b type tsh payload).cfg = s.cfg ∧ (s.sendDrive b type tsh payload).trust = s.trust ∧
    (s.sendDrive b type tsh payload).blk = s.blk ∧ (s.sendDrive b type tsh payload).isl = s.isl := by
  unfold State.sendDrive
  refine ⟨?_, ?_, ?_, ?_, ?_, ?_, ?_, ?_⟩ <;> (try simp) <;> repeat' (first | intro _ | (split <;> try simp))

@[simp] theorem State.driveNext_frame (s : State) (b : BayId) :
    (s.driveNext b).pending = s.pending ∧ (s.driveNext b).ham = s.ham ∧ (s.driveNext b).mem = s.mem ∧
    (s.driveNext b).flash = s.flash ∧ (s.driveNext b).cfg = s.cfg ∧ (s.driveNext b).trust = s.trust ∧
    (s.driveNext b).blk = s.blk ∧ (s.driveNext b).isl = s.isl := by
  unfold State.driveNext
  refine ⟨?_, ?_, ?_, ?_, ?_, ?_, ?_, ?_⟩ <;> (try simp) <;> repeat' (first | intro _ | (split <;> try simp))

@[simp] theorem State.driveTo_frame (s : State) (b : BayId) (n : Nat) :
    (s.driveTo b n).pending = s.pending ∧ (s.driveTo b n).ham = s.ham ∧ (s.driveTo b n).mem = s.mem ∧
    (s.driveTo b n).flash = s.flash ∧ (s.driveTo b n).cfg = s.cfg ∧ (s.driveTo b n).trust = s.trust ∧
    (s.driveTo b n).blk = s.blk ∧ (s.driveTo b n).isl = s.isl := by
  unfold State.driveTo
  refine ⟨?_, ?_, ?_, ?_, ?_, ?_, ?_, ?_⟩ <;> (try simp) <;> repeat' (first | intro _ | (split <;> try simp))

@[simp] theorem State.mdnSlot_frame (s : State) (b : BayId) :
    (s.mdnSlot b).pending = s.pending ∧ (s.mdnSlot b).ham = s.ham ∧ (s.mdnSlot b).mem = s.mem ∧ (s.mdnSlot b).flash = s.flash ∧
    (s.mdnSlot b).cfg = s.cfg ∧ (s.mdnSlot b).trust = s.trust ∧ (s.mdnSlot b).blk = s.blk ∧ (s.mdnSlot b).isl = s.isl := by
  unfold State.mdnSlot
  refine ⟨?_, ?_, ?_, ?_, ?_, ?_, ?_, ?_⟩ <;> (try simp) <;> repeat' (first | intro _ | (split <;> try simp))

@[simp] theorem State.mdnSlots_frame (s : State) (b : BayId) :
    (s.mdnSlots b).pending = s.pending ∧ (s.mdnSlots b).ham = s.ham ∧ (s.mdnSlots b).mem = s.mem ∧
    (s.mdnSlots b).flash = s.flash ∧ (s.mdnSlots b).cfg = s.cfg ∧ (s.mdnSlots b).trust = s.trust ∧ (s.mdnSlots b).blk = s.blk ∧
    (s.mdnSlots b).isl = s.isl := by
  unfold State.mdnSlots
  refine ⟨?_, ?_, ?_, ?_, ?_, ?_, ?_, ?_⟩ <;> (try simp) <;> repeat' (first | intro _ | (split <;> try simp))

@[simp] theorem State.mlinkTrain_frame (s : State) (b : BayId) :
    (s.mlinkTrain b).pending = s.pending ∧ (s.mlinkTrain b).ham = s.ham ∧ (s.mlinkTrain b).mem = s.mem ∧
    (s.mlinkTrain b).flash = s.flash ∧ (s.mlinkTrain b).cfg = s.cfg ∧ (s.mlinkTrain b).trust = s.trust ∧
    (s.mlinkTrain b).blk = s.blk ∧ (s.mlinkTrain b).isl = s.isl := by
  unfold State.mlinkTrain
  refine ⟨?_, ?_, ?_, ?_, ?_, ?_, ?_, ?_⟩ <;> (try simp) <;> repeat' (first | intro _ | (split <;> try simp))

@[simp] theorem State.mlinkFails_frame (s : State) (b : BayId) :
    (s.mlinkFails b).pending = s.pending ∧ (s.mlinkFails b).ham = s.ham ∧ (s.mlinkFails b).mem = s.mem ∧
    (s.mlinkFails b).flash = s.flash ∧ (s.mlinkFails b).cfg = s.cfg ∧ (s.mlinkFails b).trust = s.trust ∧
    (s.mlinkFails b).blk = s.blk ∧ (s.mlinkFails b).isl = s.isl := by
  unfold State.mlinkFails
  refine ⟨?_, ?_, ?_, ?_, ?_, ?_, ?_, ?_⟩ <;> (try simp) <;> repeat' (first | intro _ | (split <;> try simp))

@[simp] theorem State.mlinkGo_frame (s : State) (b : BayId) :
    (s.mlinkGo b).pending = s.pending ∧ (s.mlinkGo b).flash = s.flash ∧ (s.mlinkGo b).trust = s.trust ∧
    (s.mlinkGo b).isl = s.isl ∧ (s.mlinkGo b).mem.ddr = s.mem.ddr := by
  unfold State.mlinkGo
  refine ⟨?_, ?_, ?_, ?_, ?_⟩ <;> (try simp) <;> repeat' (first | intro _ | (split <;> try simp))

@[simp] theorem State.sledSense_frame (s : State) (b : BayId) (p : Pu) (w : Nat) (restarted : Bool) :
    (s.sledSense b p w restarted).pending = s.pending ∧ (s.sledSense b p w restarted).flash = s.flash ∧
    (s.sledSense b p w restarted).trust = s.trust ∧ (s.sledSense b p w restarted).isl = s.isl ∧
    (s.sledSense b p w restarted).inj = s.inj ∧ (s.sledSense b p w restarted).mem.ddr = s.mem.ddr := by
  unfold State.sledSense
  refine ⟨?_, ?_, ?_, ?_, ?_, ?_⟩ <;> (try simp) <;> repeat' (first | intro _ | (split <;> try simp))

@[simp] theorem State.changeBank_frame (s : State) (b : BayId) (p : Pu) :
    (s.changeBank b p).pending = s.pending ∧ (s.changeBank b p).out = s.out ∧ (s.changeBank b p).free = s.free ∧
    (s.changeBank b p).host = s.host ∧ (s.changeBank b p).ev = s.ev ∧ (s.changeBank b p).ham = s.ham ∧
    (s.changeBank b p).mem = s.mem ∧ (s.changeBank b p).flash = s.flash ∧ (s.changeBank b p).cfg = s.cfg ∧
    (s.changeBank b p).trust = s.trust ∧ (s.changeBank b p).blk = s.blk ∧ (s.changeBank b p).isl = s.isl ∧
    (s.changeBank b p).inj = s.inj ∧ (s.changeBank b p).chip = s.chip := by
  unfold State.changeBank
  refine ⟨?_, ?_, ?_, ?_, ?_, ?_, ?_, ?_, ?_, ?_, ?_, ?_, ?_, ?_⟩ <;> (try simp) <;> repeat' (first | intro _ | (split <;> try simp))

@[simp] theorem State.loadStep_frame (s : State) (b : BayId) (crc0 crc1 : Nat) :
    (s.loadStep b crc0 crc1).pending = s.pending ∧ (s.loadStep b crc0 crc1).free = s.free ∧ (s.loadStep b crc0 crc1).ham = s.ham ∧
    (s.loadStep b crc0 crc1).mem = s.mem ∧ (s.loadStep b crc0 crc1).flash = s.flash ∧ (s.loadStep b crc0 crc1).cfg = s.cfg ∧
    (s.loadStep b crc0 crc1).trust = s.trust ∧ (s.loadStep b crc0 crc1).blk = s.blk ∧ (s.loadStep b crc0 crc1).isl = s.isl ∧
    (s.loadStep b crc0 crc1).inj = s.inj := by
  unfold State.loadStep
  refine ⟨?_, ?_, ?_, ?_, ?_, ?_, ?_, ?_, ?_, ?_⟩ <;> (try simp) <;> repeat' (first | intro _ | (split <;> try simp))

@[simp] theorem State.sledStatus_frame (s : State) (b : BayId) (f : Bytes) :
    (s.sledStatus b f).pending = s.pending ∧ (s.sledStatus b f).flash = s.flash ∧ (s.sledStatus b f).trust = s.trust ∧
    (s.sledStatus b f).isl = s.isl ∧ (s.sledStatus b f).inj = s.inj ∧ (s.sledStatus b f).mem.ddr = s.mem.ddr := by
  unfold State.sledStatus
  refine ⟨?_, ?_, ?_, ?_, ?_, ?_⟩ <;> (try simp) <;> repeat' (first | intro _ | (split <;> try simp))

@[simp] theorem State.safeHold_frame (s : State) (b : BayId) (brake : Bool) :
    (s.safeHold b brake).pending = s.pending ∧ (s.safeHold b brake).flash = s.flash ∧ (s.safeHold b brake).trust = s.trust ∧
    (s.safeHold b brake).isl = s.isl ∧ (s.safeHold b brake).inj = s.inj ∧ (s.safeHold b brake).mem.ddr = s.mem.ddr := by
  unfold State.safeHold
  refine ⟨?_, ?_, ?_, ?_, ?_, ?_⟩ <;> (try simp) <;> repeat' (first | intro _ | (split <;> try simp))

@[simp] theorem State.mdnBay_frame (s : State) (b : BayId) :
    (s.mdnBay b).pending = s.pending ∧ (s.mdnBay b).flash = s.flash ∧ (s.mdnBay b).trust = s.trust ∧ (s.mdnBay b).isl = s.isl ∧
    (s.mdnBay b).mem.ddr = s.mem.ddr := by
  unfold State.mdnBay
  refine ⟨?_, ?_, ?_, ?_, ?_⟩ <;> (try simp) <;> repeat' (first | intro _ | (split <;> try simp))

@[simp] theorem State.mdnTick_frame (s : State) :
    (s.mdnTick).pending = s.pending ∧ (s.mdnTick).flash = s.flash ∧ (s.mdnTick).trust = s.trust ∧ (s.mdnTick).isl = s.isl ∧
    (s.mdnTick).mem.ddr = s.mem.ddr := by
  unfold State.mdnTick
  refine ⟨?_, ?_, ?_, ?_, ?_⟩ <;> (try simp) <;> repeat' (first | intro _ | (split <;> try simp) | ((first | rw [State.foldl_pending] | rw [State.foldl2_pending] | rw [State.foldl_flash] | rw [State.foldl2_flash] | rw [State.foldl_trust] | rw [State.foldl2_trust] | rw [State.foldl_isl] | rw [State.foldl2_isl] | rw [State.foldl_mem_ddr] | rw [State.foldl2_mem_ddr]) <;> intros <;> try simp))

@[simp] theorem State.stageReport_frame (s : State) (b : BayId) (flags : Nat) :
    (s.stageReport b flags).pending = s.pending ∧ (s.stageReport b flags).flash = s.flash ∧
    (s.stageReport b flags).trust = s.trust ∧ (s.stageReport b flags).isl = s.isl ∧ (s.stageReport b flags).inj = s.inj ∧
    (s.stageReport b flags).mem.ddr = s.mem.ddr := by
  unfold State.stageReport
  refine ⟨?_, ?_, ?_, ?_, ?_, ?_⟩ <;> (try simp) <;> repeat' (first | intro _ | (split <;> try simp))

@[simp] theorem State.senseFrame_frame (s : State) (b : BayId) (f : Bytes) (upset : Bool) :
    (s.senseFrame b f upset).pending = s.pending ∧ (s.senseFrame b f upset).flash = s.flash ∧
    (s.senseFrame b f upset).trust = s.trust ∧ (s.senseFrame b f upset).isl = s.isl ∧
    (s.senseFrame b f upset).mem.ddr = s.mem.ddr := by
  unfold State.senseFrame
  refine ⟨?_, ?_, ?_, ?_, ?_⟩ <;> (try simp) <;> repeat' (first | intro _ | (split <;> try simp))

@[simp] theorem State.senseFails_frame (s : State) (b : BayId) :
    (s.senseFails b).pending = s.pending ∧ (s.senseFails b).ham = s.ham ∧ (s.senseFails b).mem = s.mem ∧
    (s.senseFails b).flash = s.flash ∧ (s.senseFails b).trust = s.trust ∧ (s.senseFails b).isl = s.isl := by
  unfold State.senseFails
  refine ⟨?_, ?_, ?_, ?_, ?_, ?_⟩ <;> (try simp) <;> repeat' (first | intro _ | (split <;> try simp))

end Sys2Proof.Machine
end

