-- ==== Sys2Proof/Laws/FrameSpinRows.lean ====
section
/-! SUPPORT. What the operations of Machine/SpinRows.lean leave unchanged: one lemma each, the fields of the state it does not touch. -/

namespace Sys2Proof.Machine

theorem execMlinkSenseFrame_frame (b : BayId) (raw : Bytes) (upset : Bool) (s : State) (t : State)
    (h : execMlinkSenseFrame b raw upset s = .next t) :
    t.pending = s.pending ∧ t.flash = s.flash ∧ t.trust = s.trust ∧ t.isl = s.isl ∧ t.mem.ddr = s.mem.ddr := by
  unfold execMlinkSenseFrame at h
  replace h := (withBay_next h).2
  subst h
  refine ⟨?_, ?_, ?_, ?_, ?_⟩ <;> (try simp) <;> repeat' (first | intro _ | (split <;> try simp) | ((first | rw [State.foldl_pending] | rw [State.foldl2_pending] | rw [State.foldl_flash] | rw [State.foldl2_flash] | rw [State.foldl_trust] | rw [State.foldl2_trust] | rw [State.foldl_isl] | rw [State.foldl2_isl] | rw [State.foldl_mem_ddr] | rw [State.foldl2_mem_ddr]) <;> intros <;> try simp))

theorem execMlinkTrainFrame_frame (b : BayId) (raw : Bytes) (s : State) (t : State)
    (h : execMlinkTrainFrame b raw s = .next t) :
    t.pending = s.pending ∧ t.flash = s.flash ∧ t.trust = s.trust ∧ t.isl = s.isl ∧ t.mem.ddr = s.mem.ddr := by
  unfold execMlinkTrainFrame at h
  replace h := (withBay_next h).2
  subst h
  refine ⟨?_, ?_, ?_, ?_, ?_⟩ <;> (try simp) <;> repeat' (first | intro _ | (split <;> try simp) | ((first | rw [State.foldl_pending] | rw [State.foldl2_pending] | rw [State.foldl_flash] | rw [State.foldl2_flash] | rw [State.foldl_trust] | rw [State.foldl2_trust] | rw [State.foldl_isl] | rw [State.foldl2_isl] | rw [State.foldl_mem_ddr] | rw [State.foldl2_mem_ddr]) <;> intros <;> try simp))

theorem execMlinkTrainTimeout_frame (b : BayId) (s : State) (t : State)
    (h : execMlinkTrainTimeout b s = .next t) :
    t.pending = s.pending ∧ t.mem = s.mem ∧ t.flash = s.flash ∧ t.cfg = s.cfg ∧ t.trust = s.trust ∧ t.blk = s.blk ∧
    t.isl = s.isl := by
  unfold execMlinkTrainTimeout at h
  replace h := (withBay_next h).2
  subst h
  refine ⟨?_, ?_, ?_, ?_, ?_, ?_, ?_⟩ <;> (try simp) <;> repeat' (first | intro _ | (split <;> try simp))

theorem execMlinkTrainRetry_frame (b : BayId) (s : State) (t : State)
    (h : execMlinkTrainRetry b s = .next t) :
    t.pending = s.pending ∧ t.mem = s.mem ∧ t.flash = s.flash ∧ t.cfg = s.cfg ∧ t.trust = s.trust ∧ t.blk = s.blk ∧
    t.isl = s.isl := by
  unfold execMlinkTrainRetry at h
  replace h := (withBay_next h).2
  subst h
  refine ⟨?_, ?_, ?_, ?_, ?_, ?_, ?_⟩ <;> (try simp) <;> repeat' (first | intro _ | (split <;> try simp))

theorem execMlinkLost_frame (b : BayId) (s : State) (t : State)
    (h : execMlinkLost b s = .next t) :
    t.pending = s.pending ∧ t.flash = s.flash ∧ t.trust = s.trust ∧ t.isl = s.isl ∧ t.mem.ddr = s.mem.ddr := by
  unfold execMlinkLost at h
  replace h := (withBay_next h).2
  subst h
  refine ⟨?_, ?_, ?_, ?_, ?_⟩ <;> (try simp) <;> repeat' (first | intro _ | (split <;> try simp))

@[simp] theorem State.handCheck_frame (s : State) (b : BayId) :
    (s.handCheck b).pending = s.pending ∧ (s.handCheck b).out = s.out ∧ (s.handCheck b).free = s.free ∧
    (s.handCheck b).host = s.host ∧ (s.handCheck b).ev = s.ev ∧ (s.handCheck b).ham = s.ham ∧ (s.handCheck b).mem = s.mem ∧
    (s.handCheck b).flash = s.flash ∧ (s.handCheck b).cfg = s.cfg ∧ (s.handCheck b).trust = s.trust ∧
    (s.handCheck b).blk = s.blk ∧ (s.handCheck b).isl = s.isl ∧ (s.handCheck b).inj = s.inj ∧ (s.handCheck b).chip = s.chip := by
  unfold State.handCheck
  refine ⟨?_, ?_, ?_, ?_, ?_, ?_, ?_, ?_, ?_, ?_, ?_, ?_, ?_, ?_⟩ <;> (try simp) <;> repeat' (first | intro _ | (split <;> try simp))

@[simp] theorem State.crossCheck_frame (s : State) (b : BayId) :
    (s.crossCheck b).pending = s.pending ∧ (s.crossCheck b).out = s.out ∧ (s.crossCheck b).free = s.free ∧
    (s.crossCheck b).host = s.host ∧ (s.crossCheck b).ev = s.ev ∧ (s.crossCheck b).ham = s.ham ∧ (s.crossCheck b).mem = s.mem ∧
    (s.crossCheck b).flash = s.flash ∧ (s.crossCheck b).cfg = s.cfg ∧ (s.crossCheck b).trust = s.trust ∧
    (s.crossCheck b).blk = s.blk ∧ (s.crossCheck b).isl = s.isl ∧ (s.crossCheck b).inj = s.inj ∧ (s.crossCheck b).chip = s.chip := by
  unfold State.crossCheck
  refine ⟨?_, ?_, ?_, ?_, ?_, ?_, ?_, ?_, ?_, ?_, ?_, ?_, ?_, ?_⟩ <;> (try simp) <;> repeat' (first | intro _ | (split <;> try simp))

@[simp] theorem State.speedStep_frame (s : State) (b : BayId) :
    (s.speedStep b).pending = s.pending ∧ (s.speedStep b).out = s.out ∧ (s.speedStep b).free = s.free ∧
    (s.speedStep b).host = s.host ∧ (s.speedStep b).ev = s.ev ∧ (s.speedStep b).ham = s.ham ∧ (s.speedStep b).mem = s.mem ∧
    (s.speedStep b).flash = s.flash ∧ (s.speedStep b).cfg = s.cfg ∧ (s.speedStep b).trust = s.trust ∧
    (s.speedStep b).blk = s.blk ∧ (s.speedStep b).isl = s.isl ∧ (s.speedStep b).inj = s.inj ∧ (s.speedStep b).chip = s.chip := by
  unfold State.speedStep
  refine ⟨?_, ?_, ?_, ?_, ?_, ?_, ?_, ?_, ?_, ?_, ?_, ?_, ?_, ?_⟩ <;> (try simp) <;> repeat' (first | intro _ | (split <;> try simp))

theorem execSpeedLoopSample_frame (b : BayId) (s : State) (t : State)
    (h : execSpeedLoopSample b s = .next t) :
    t.pending = s.pending ∧ t.free = s.free ∧ t.mem = s.mem ∧ t.flash = s.flash ∧ t.cfg = s.cfg ∧ t.trust = s.trust ∧
    t.isl = s.isl ∧ t.inj = s.inj := by
  unfold execSpeedLoopSample at h
  replace h := (withBay_next h).2
  subst h
  refine ⟨?_, ?_, ?_, ?_, ?_, ?_, ?_, ?_⟩ <;> (try simp) <;> repeat' (first | intro _ | (split <;> try simp))

theorem execSpeedReady_frame (b : BayId) (s : State) (t : State)
    (h : execSpeedReady b s = .next t) :
    t.pending = s.pending ∧ t.out = s.out ∧ t.free = s.free ∧ t.ev = s.ev ∧ t.mem = s.mem ∧ t.flash = s.flash ∧ t.cfg = s.cfg ∧
    t.trust = s.trust ∧ t.blk = s.blk ∧ t.isl = s.isl ∧ t.inj = s.inj ∧ t.chip = s.chip := by
  unfold execSpeedReady at h
  replace h := (withBay_next h).2
  subst h
  refine ⟨?_, ?_, ?_, ?_, ?_, ?_, ?_, ?_, ?_, ?_, ?_, ?_⟩ <;> (try simp) <;> repeat' (first | intro _ | (split <;> try simp))

theorem execDecelLimit_frame (b : BayId) (s : State) (t : State)
    (h : execDecelLimit b s = .next t) :
    t.pending = s.pending ∧ t.flash = s.flash ∧ t.trust = s.trust ∧ t.isl = s.isl ∧ t.inj = s.inj ∧ t.mem.ddr = s.mem.ddr := by
  unfold execDecelLimit at h
  replace h := (withBay_next h).2
  subst h
  refine ⟨?_, ?_, ?_, ?_, ?_, ?_⟩ <;> (try simp) <;> repeat' (first | intro _ | (split <;> try simp))

theorem execSpindleStart_frame (b : BayId) (s : State) (t : State)
    (h : execSpindleStart b s = .next t) :
    t.pending = s.pending ∧ t.flash = s.flash ∧ t.trust = s.trust ∧ t.isl = s.isl ∧ t.inj = s.inj ∧ t.mem.ddr = s.mem.ddr := by
  unfold execSpindleStart at h
  replace h := (withBay_next h).2
  subst h
  refine ⟨?_, ?_, ?_, ?_, ?_, ?_⟩ <;> (try simp) <;> repeat' (first | intro _ | (split <;> try simp))

theorem execSpindleStop_frame (b : BayId) (s : State) (t : State)
    (h : execSpindleStop b s = .next t) :
    t.pending = s.pending ∧ t.flash = s.flash ∧ t.trust = s.trust ∧ t.isl = s.isl ∧ t.inj = s.inj ∧ t.mem.ddr = s.mem.ddr := by
  unfold execSpindleStop at h
  replace h := (withBay_next h).2
  subst h
  refine ⟨?_, ?_, ?_, ?_, ?_, ?_⟩ <;> (try simp) <;> repeat' (first | intro _ | (split <;> try simp))

theorem execSpindleFaultRetry_frame (b : BayId) (s : State) (t : State)
    (h : execSpindleFaultRetry b s = .next t) :
    t.pending = s.pending ∧ t.out = s.out ∧ t.free = s.free ∧ t.ev = s.ev ∧ t.mem = s.mem ∧ t.flash = s.flash ∧
    t.trust = s.trust ∧ t.isl = s.isl ∧ t.inj = s.inj ∧ t.chip = s.chip := by
  unfold execSpindleFaultRetry at h
  replace h := (withBay_next h).2
  subst h
  refine ⟨?_, ?_, ?_, ?_, ?_, ?_, ?_, ?_, ?_, ?_⟩ <;> (try simp) <;> repeat' (first | intro _ | (split <;> try simp))

theorem execStartWaitEnd_frame (b : BayId) (s : State) (t : State)
    (h : execStartWaitEnd b s = .next t) :
    t.pending = s.pending ∧ t.out = s.out ∧ t.free = s.free ∧ t.ev = s.ev ∧ t.mem = s.mem ∧ t.flash = s.flash ∧
    t.trust = s.trust ∧ t.isl = s.isl ∧ t.inj = s.inj ∧ t.chip = s.chip := by
  unfold execStartWaitEnd at h
  replace h := (withBay_next h).2
  subst h
  refine ⟨?_, ?_, ?_, ?_, ?_, ?_, ?_, ?_, ?_, ?_⟩ <;> (try simp) <;> repeat' (first | intro _ | (split <;> try simp))

@[simp] theorem State.catchFails_frame (s : State) (b : BayId) :
    (s.catchFails b).pending = s.pending ∧ (s.catchFails b).flash = s.flash ∧ (s.catchFails b).trust = s.trust ∧
    (s.catchFails b).isl = s.isl ∧ (s.catchFails b).inj = s.inj ∧ (s.catchFails b).mem.ddr = s.mem.ddr := by
  unfold State.catchFails
  refine ⟨?_, ?_, ?_, ?_, ?_, ?_⟩ <;> (try simp) <;> repeat' (first | intro _ | (split <;> try simp))

@[simp] theorem State.testSeed_frame (s : State) (b : BayId) (rpm : Int) (frames : Nat) :
    (s.testSeed b rpm frames).pending = s.pending ∧ (s.testSeed b rpm frames).free = s.free ∧
    (s.testSeed b rpm frames).ham = s.ham ∧ (s.testSeed b rpm frames).mem = s.mem ∧ (s.testSeed b rpm frames).flash = s.flash ∧
    (s.testSeed b rpm frames).cfg = s.cfg ∧ (s.testSeed b rpm frames).trust = s.trust ∧ (s.testSeed b rpm frames).blk = s.blk ∧
    (s.testSeed b rpm frames).isl = s.isl ∧ (s.testSeed b rpm frames).inj = s.inj := by
  unfold State.testSeed
  refine ⟨?_, ?_, ?_, ?_, ?_, ?_, ?_, ?_, ?_, ?_⟩ <;> (try simp) <;> repeat' (first | intro _ | (split <;> try simp))

@[simp] theorem State.catchOutcome_frame (s : State) (b : BayId) (n : Nat) :
    (s.catchOutcome b n).pending = s.pending ∧ (s.catchOutcome b n).flash = s.flash ∧ (s.catchOutcome b n).trust = s.trust ∧
    (s.catchOutcome b n).isl = s.isl ∧ (s.catchOutcome b n).inj = s.inj ∧ (s.catchOutcome b n).mem.ddr = s.mem.ddr := by
  unfold State.catchOutcome
  refine ⟨?_, ?_, ?_, ?_, ?_, ?_⟩ <;> (try simp) <;> repeat' (first | intro _ | (split <;> try simp))

theorem execCatchEnd_frame (b : BayId) (s : State) (t : State)
    (h : execCatchEnd b s = .next t) :
    t.pending = s.pending ∧ t.flash = s.flash ∧ t.trust = s.trust ∧ t.isl = s.isl ∧ t.inj = s.inj ∧ t.mem.ddr = s.mem.ddr := by
  unfold execCatchEnd at h
  replace h := (withBay_next h).2
  subst h
  refine ⟨?_, ?_, ?_, ?_, ?_, ?_⟩ <;> (try simp) <;> repeat' (first | intro _ | (split <;> try simp))

theorem execTestCatch_frame (b : BayId) (s : State) (t : State)
    (h : execTestCatch b s = .next t) :
    t.pending = s.pending ∧ t.out = s.out ∧ t.free = s.free ∧ t.ev = s.ev ∧ t.mem = s.mem ∧ t.flash = s.flash ∧
    t.trust = s.trust ∧ t.isl = s.isl ∧ t.inj = s.inj ∧ t.chip = s.chip := by
  unfold execTestCatch at h
  replace h := (withBay_next h).2
  subst h
  refine ⟨?_, ?_, ?_, ?_, ?_, ?_, ?_, ?_, ?_, ?_⟩ <;> (try simp) <;> repeat' (first | intro _ | (split <;> try simp))

theorem execAlignEnd_frame (b : BayId) (s : State) (t : State)
    (h : execAlignEnd b s = .next t) :
    t.pending = s.pending ∧ t.out = s.out ∧ t.free = s.free ∧ t.ev = s.ev ∧ t.mem = s.mem ∧ t.flash = s.flash ∧ t.cfg = s.cfg ∧
    t.trust = s.trust ∧ t.isl = s.isl ∧ t.inj = s.inj ∧ t.chip = s.chip := by
  unfold execAlignEnd at h
  replace h := (withBay_next h).2
  subst h
  refine ⟨?_, ?_, ?_, ?_, ?_, ?_, ?_, ?_, ?_, ?_, ?_⟩ <;> (try simp) <;> repeat' (first | intro _ | (split <;> try simp))

theorem execRampHandover_frame (b : BayId) (s : State) (t : State)
    (h : execRampHandover b s = .next t) :
    t.pending = s.pending ∧ t.out = s.out ∧ t.free = s.free ∧ t.ev = s.ev ∧ t.mem = s.mem ∧ t.flash = s.flash ∧ t.cfg = s.cfg ∧
    t.trust = s.trust ∧ t.isl = s.isl ∧ t.inj = s.inj ∧ t.chip = s.chip := by
  unfold execRampHandover at h
  replace h := (withBay_next h).2
  subst h
  refine ⟨?_, ?_, ?_, ?_, ?_, ?_, ?_, ?_, ?_, ?_, ?_⟩ <;> (try simp) <;> repeat' (first | intro _ | (split <;> try simp))

theorem execStartTryFail_frame (b : BayId) (s : State) (t : State)
    (h : execStartTryFail b s = .next t) :
    t.pending = s.pending ∧ t.flash = s.flash ∧ t.trust = s.trust ∧ t.isl = s.isl ∧ t.inj = s.inj ∧ t.mem.ddr = s.mem.ddr := by
  unfold execStartTryFail at h
  replace h := (withBay_next h).2
  subst h
  refine ⟨?_, ?_, ?_, ?_, ?_, ?_⟩ <;> (try simp) <;> repeat' (first | intro _ | (split <;> try simp))

theorem execSyncEnd_frame (b : BayId) (s : State) (t : State)
    (h : execSyncEnd b s = .next t) :
    t.pending = s.pending ∧ t.flash = s.flash ∧ t.trust = s.trust ∧ t.isl = s.isl ∧ t.inj = s.inj ∧ t.mem.ddr = s.mem.ddr := by
  unfold execSyncEnd at h
  replace h := (withBay_next h).2
  subst h
  refine ⟨?_, ?_, ?_, ?_, ?_, ?_⟩ <;> (try simp) <;> repeat' (first | intro _ | (split <;> try simp))

theorem execObserverLost_frame (b : BayId) (s : State) (t : State)
    (h : execObserverLost b s = .next t) :
    t.pending = s.pending ∧ t.free = s.free ∧ t.mem = s.mem ∧ t.flash = s.flash ∧ t.cfg = s.cfg ∧ t.trust = s.trust ∧
    t.isl = s.isl ∧ t.inj = s.inj := by
  unfold execObserverLost at h
  replace h := (withBay_next h).2
  subst h
  refine ⟨?_, ?_, ?_, ?_, ?_, ?_, ?_, ?_⟩ <;> (try simp) <;> repeat' (first | intro _ | (split <;> try simp))

theorem execBrakeShortToggle_frame (b : BayId) (s : State) (t : State)
    (h : execBrakeShortToggle b s = .next t) :
    t.pending = s.pending ∧ t.flash = s.flash ∧ t.trust = s.trust ∧ t.isl = s.isl ∧ t.inj = s.inj ∧ t.mem.ddr = s.mem.ddr := by
  unfold execBrakeShortToggle at h
  replace h := (withBay_next h).2
  subst h
  refine ⟨?_, ?_, ?_, ?_, ?_, ?_⟩ <;> (try simp) <;> repeat' (first | intro _ | (split <;> try simp))

theorem execBrakeShortLimit_frame (b : BayId) (s : State) (t : State)
    (h : execBrakeShortLimit b s = .next t) :
    t.pending = s.pending ∧ t.flash = s.flash ∧ t.trust = s.trust ∧ t.isl = s.isl ∧ t.inj = s.inj ∧ t.mem.ddr = s.mem.ddr := by
  unfold execBrakeShortLimit at h
  replace h := (withBay_next h).2
  subst h
  refine ⟨?_, ?_, ?_, ?_, ?_, ?_⟩ <;> (try simp) <;> repeat' (first | intro _ | (split <;> try simp))

theorem execOverspeedDetect_frame (b : BayId) (s : State) (t : State)
    (h : execOverspeedDetect b s = .next t) :
    t.pending = s.pending ∧ t.free = s.free ∧ t.mem = s.mem ∧ t.flash = s.flash ∧ t.cfg = s.cfg ∧ t.trust = s.trust ∧
    t.isl = s.isl ∧ t.inj = s.inj := by
  unfold execOverspeedDetect at h
  replace h := (withBay_next h).2
  subst h
  refine ⟨?_, ?_, ?_, ?_, ?_, ?_, ?_, ?_⟩ <;> (try simp) <;> repeat' (first | intro _ | (split <;> try simp))

theorem execOverspeedStop_frame (b : BayId) (s : State) (t : State)
    (h : execOverspeedStop b s = .next t) :
    t.pending = s.pending ∧ t.flash = s.flash ∧ t.trust = s.trust ∧ t.isl = s.isl ∧ t.inj = s.inj ∧ t.mem.ddr = s.mem.ddr := by
  unfold execOverspeedStop at h
  replace h := (withBay_next h).2
  subst h
  refine ⟨?_, ?_, ?_, ?_, ?_, ?_⟩ <;> (try simp) <;> repeat' (first | intro _ | (split <;> try simp))

theorem execBayProbe_frame (b : BayId) (s : State) (t : State)
    (h : execBayProbe b s = .next t) :
    t.pending = s.pending ∧ t.out = s.out ∧ t.free = s.free ∧ t.ev = s.ev ∧ t.mem = s.mem ∧ t.flash = s.flash ∧
    t.trust = s.trust ∧ t.isl = s.isl ∧ t.inj = s.inj ∧ t.chip = s.chip := by
  unfold execBayProbe at h
  replace h := (withBay_next h).2
  subst h
  refine ⟨?_, ?_, ?_, ?_, ?_, ?_, ?_, ?_, ?_, ?_⟩ <;> (try simp) <;> repeat' (first | intro _ | (split <;> try simp))

theorem execDiscIdentityRead_frame (b : BayId) (s : State) (t : State)
    (h : execDiscIdentityRead b s = .next t) :
    t.pending = s.pending ∧ t.flash = s.flash ∧ t.trust = s.trust ∧ t.isl = s.isl ∧ t.inj = s.inj ∧ t.mem.ddr = s.mem.ddr := by
  unfold execDiscIdentityRead at h
  replace h := (withBay_next h).2
  subst h
  refine ⟨?_, ?_, ?_, ?_, ?_, ?_⟩ <;> (try simp) <;> repeat' (first | intro _ | (split <;> try simp))

end Sys2Proof.Machine
end

