-- ==== Sys2Proof/Laws/FrameCalRows.lean ====
section
/-! SUPPORT. What the operations of Machine/CalRows.lean leave unchanged: one lemma each, the fields of the state it does not touch. -/

namespace Sys2Proof.Machine

@[simp] theorem State.setGrade_frame (s : State) (b : BayId) (p : Pu) (i : Nat) (g : Grade) :
    (s.setGrade b p i g).pending = s.pending ∧ (s.setGrade b p i g).out = s.out ∧ (s.setGrade b p i g).free = s.free ∧
    (s.setGrade b p i g).host = s.host ∧ (s.setGrade b p i g).ev = s.ev ∧ (s.setGrade b p i g).ham = s.ham ∧
    (s.setGrade b p i g).mem = s.mem ∧ (s.setGrade b p i g).flash = s.flash ∧ (s.setGrade b p i g).cfg = s.cfg ∧
    (s.setGrade b p i g).trust = s.trust ∧ (s.setGrade b p i g).blk = s.blk ∧ (s.setGrade b p i g).isl = s.isl ∧
    (s.setGrade b p i g).chip = s.chip := by
  unfold State.setGrade
  refine ⟨?_, ?_, ?_, ?_, ?_, ?_, ?_, ?_, ?_, ?_, ?_, ?_, ?_⟩ <;> (try simp) <;> repeat' (first | intro _ | (split <;> try simp))

@[simp] theorem State.servoRetire_frame (s : State) (b : BayId) (p : Pu) :
    (s.servoRetire b p).pending = s.pending ∧ (s.servoRetire b p).flash = s.flash ∧ (s.servoRetire b p).trust = s.trust ∧
    (s.servoRetire b p).isl = s.isl ∧ (s.servoRetire b p).mem.ddr = s.mem.ddr := by
  unfold State.servoRetire
  refine ⟨?_, ?_, ?_, ?_, ?_⟩ <;> (try simp) <;> repeat' (first | intro _ | (split <;> try simp))

@[simp] theorem State.elementFaulty_frame (s : State) (b : BayId) (p : Pu) (i : Nat) :
    (s.elementFaulty b p i).pending = s.pending ∧ (s.elementFaulty b p i).flash = s.flash ∧
    (s.elementFaulty b p i).trust = s.trust ∧ (s.elementFaulty b p i).isl = s.isl ∧ (s.elementFaulty b p i).mem.ddr = s.mem.ddr := by
  unfold State.elementFaulty
  refine ⟨?_, ?_, ?_, ?_, ?_⟩ <;> (try simp) <;> repeat' (first | intro _ | (split <;> try simp))

@[simp] theorem State.gradeWear_frame (s : State) (b : BayId) (p : Pu) (i : Nat) :
    (s.gradeWear b p i).pending = s.pending ∧ (s.gradeWear b p i).free = s.free ∧ (s.gradeWear b p i).ham = s.ham ∧
    (s.gradeWear b p i).mem = s.mem ∧ (s.gradeWear b p i).flash = s.flash ∧ (s.gradeWear b p i).cfg = s.cfg ∧
    (s.gradeWear b p i).trust = s.trust ∧ (s.gradeWear b p i).blk = s.blk ∧ (s.gradeWear b p i).isl = s.isl := by
  unfold State.gradeWear
  refine ⟨?_, ?_, ?_, ?_, ?_, ?_, ?_, ?_, ?_⟩ <;> (try simp) <;> repeat' (first | intro _ | (split <;> try simp))

theorem execElementFault_frame (b : BayId) (p : Pu) (e : Fin 36) (s : State) (t : State)
    (h : execElementFault b p e s = .next t) :
    t.pending = s.pending ∧ t.flash = s.flash ∧ t.trust = s.trust ∧ t.isl = s.isl ∧ t.mem.ddr = s.mem.ddr := by
  unfold execElementFault at h
  replace h := (withBay_next h).2
  subst h
  refine ⟨?_, ?_, ?_, ?_, ?_⟩ <;> (try simp) <;> repeat' (first | intro _ | (split <;> try simp))

@[simp] theorem State.powerCalRun_frame (s : State) (b : BayId) (p : Pu) :
    (s.powerCalRun b p).pending = s.pending ∧ (s.powerCalRun b p).ham = s.ham ∧ (s.powerCalRun b p).mem = s.mem ∧
    (s.powerCalRun b p).flash = s.flash ∧ (s.powerCalRun b p).cfg = s.cfg ∧ (s.powerCalRun b p).trust = s.trust ∧
    (s.powerCalRun b p).blk = s.blk ∧ (s.powerCalRun b p).isl = s.isl ∧ (s.powerCalRun b p).inj = s.inj := by
  unfold State.powerCalRun
  refine ⟨?_, ?_, ?_, ?_, ?_, ?_, ?_, ?_, ?_⟩ <;> (try simp) <;> repeat' (first | intro _ | (split <;> try simp))

theorem execCalStepRun_frame (b : BayId) (p : Pu) (item : Fin 13) (s : State) (t : State)
    (h : execCalStepRun b p item s = .next t) :
    t.pending = s.pending ∧ t.mem = s.mem ∧ t.flash = s.flash ∧ t.trust = s.trust ∧ t.blk = s.blk ∧ t.isl = s.isl ∧
    t.inj = s.inj := by
  unfold execCalStepRun at h
  replace h := (withBay_next h).2
  subst h
  refine ⟨?_, ?_, ?_, ?_, ?_, ?_, ?_⟩ <;> (try simp) <;> repeat' (first | intro _ | (split <;> try simp))

theorem execCalGapForce_frame (b : BayId) (p : Pu) (s : State) (t : State)
    (h : execCalGapForce b p s = .next t) :
    t.pending = s.pending ∧ t.free = s.free ∧ t.mem = s.mem ∧ t.flash = s.flash ∧ t.cfg = s.cfg ∧ t.trust = s.trust ∧
    t.blk = s.blk ∧ t.isl = s.isl ∧ t.inj = s.inj := by
  unfold execCalGapForce at h
  replace h := (withBay_next h).2
  subst h
  refine ⟨?_, ?_, ?_, ?_, ?_, ?_, ?_, ?_, ?_⟩ <;> (try simp) <;> repeat' (first | intro _ | (split <;> try simp))

@[simp] theorem State.calFails_frame (s : State) (b : BayId) (p : Pu) (q : CalPend) (unit : Nat) (limits : Bool) :
    (s.calFails b p q unit limits).pending = s.pending ∧ (s.calFails b p q unit limits).flash = s.flash ∧
    (s.calFails b p q unit limits).trust = s.trust ∧ (s.calFails b p q unit limits).isl = s.isl ∧
    (s.calFails b p q unit limits).mem.ddr = s.mem.ddr := by
  unfold State.calFails
  refine ⟨?_, ?_, ?_, ?_, ?_⟩ <;> (try simp) <;> repeat' (first | intro _ | (split <;> try simp))

@[simp] theorem State.acceptElement_frame (s : State) (b : BayId) (p : Pu) (item i : Nat) (r : List Int) :
    (s.acceptElement b p item i r).pending = s.pending ∧ (s.acceptElement b p item i r).free = s.free ∧
    (s.acceptElement b p item i r).ham = s.ham ∧ (s.acceptElement b p item i r).mem = s.mem ∧
    (s.acceptElement b p item i r).flash = s.flash ∧ (s.acceptElement b p item i r).cfg = s.cfg ∧
    (s.acceptElement b p item i r).trust = s.trust ∧ (s.acceptElement b p item i r).blk = s.blk ∧
    (s.acceptElement b p item i r).isl = s.isl := by
  unfold State.acceptElement
  refine ⟨?_, ?_, ?_, ?_, ?_, ?_, ?_, ?_, ?_⟩ <;> (try simp) <;> repeat' (first | intro _ | (split <;> try simp))

@[simp] theorem State.acceptTwin_frame (s : State) (b : BayId) (p : Pu) (sp : Nat) (r : List Int) :
    (s.acceptTwin b p sp r).pending = s.pending ∧ (s.acceptTwin b p sp r).free = s.free ∧ (s.acceptTwin b p sp r).ham = s.ham ∧
    (s.acceptTwin b p sp r).mem = s.mem ∧ (s.acceptTwin b p sp r).flash = s.flash ∧ (s.acceptTwin b p sp r).cfg = s.cfg ∧
    (s.acceptTwin b p sp r).trust = s.trust ∧ (s.acceptTwin b p sp r).blk = s.blk ∧ (s.acceptTwin b p sp r).isl = s.isl := by
  unfold State.acceptTwin
  refine ⟨?_, ?_, ?_, ?_, ?_, ?_, ?_, ?_, ?_⟩ <;> (try simp) <;> repeat' (first | intro _ | (split <;> try simp))

@[simp] theorem State.calAccept_frame (s : State) (b : BayId) (p : Pu) (item unit : Nat) (r : List Int) :
    (s.calAccept b p item unit r).pending = s.pending ∧ (s.calAccept b p item unit r).free = s.free ∧
    (s.calAccept b p item unit r).ham = s.ham ∧ (s.calAccept b p item unit r).mem = s.mem ∧
    (s.calAccept b p item unit r).flash = s.flash ∧ (s.calAccept b p item unit r).cfg = s.cfg ∧
    (s.calAccept b p item unit r).trust = s.trust ∧ (s.calAccept b p item unit r).blk = s.blk ∧
    (s.calAccept b p item unit r).isl = s.isl := by
  unfold State.calAccept
  refine ⟨?_, ?_, ?_, ?_, ?_, ?_, ?_, ?_, ?_⟩ <;> (try simp) <;> repeat' (first | intro _ | (split <;> try simp))

@[simp] theorem State.calConclude_frame (s : State) (b : BayId) (p : Pu) :
    (s.calConclude b p).pending = s.pending ∧ (s.calConclude b p).out = s.out ∧ (s.calConclude b p).free = s.free ∧
    (s.calConclude b p).host = s.host ∧ (s.calConclude b p).ev = s.ev ∧ (s.calConclude b p).ham = s.ham ∧
    (s.calConclude b p).mem = s.mem ∧ (s.calConclude b p).flash = s.flash ∧ (s.calConclude b p).cfg = s.cfg ∧
    (s.calConclude b p).trust = s.trust ∧ (s.calConclude b p).blk = s.blk ∧ (s.calConclude b p).isl = s.isl ∧
    (s.calConclude b p).inj = s.inj ∧ (s.calConclude b p).chip = s.chip := by
  unfold State.calConclude
  refine ⟨?_, ?_, ?_, ?_, ?_, ?_, ?_, ?_, ?_, ?_, ?_, ?_, ?_, ?_⟩ <;> (try simp) <;> repeat' (first | intro _ | (split <;> try simp))

theorem execCalRunDone_frame (b : BayId) (p : Pu) (item : Fin 13) (unit : Nat) (result : List Int) (s : State) (t : State)
    (h : execCalRunDone b p item unit result s = .next t) :
    t.pending = s.pending ∧ t.flash = s.flash ∧ t.trust = s.trust ∧ t.isl = s.isl ∧ t.mem.ddr = s.mem.ddr := by
  unfold execCalRunDone at h
  replace h := (withBay_next h).2
  subst h
  refine ⟨?_, ?_, ?_, ?_, ?_⟩ <;> (try simp) <;> repeat' (first | intro _ | (split <;> try simp))

theorem execSliceMarginSweep_frame (b : BayId) (p : Pu) (l : PhysLane) (slice : Fin 4) (margin after : Nat) (s : State) (t : State)
    (h : execSliceMarginSweep b p l slice margin after s = .next t) :
    t.pending = s.pending ∧ t.free = s.free ∧ t.mem = s.mem ∧ t.flash = s.flash ∧ t.cfg = s.cfg ∧ t.trust = s.trust ∧
    t.blk = s.blk ∧ t.isl = s.isl ∧ t.inj = s.inj := by
  unfold execSliceMarginSweep at h
  replace h := (withBay_next h).2
  subst h
  refine ⟨?_, ?_, ?_, ?_, ?_, ?_, ?_, ?_, ?_⟩ <;> (try simp) <;> repeat' (first | intro _ | (split <;> try simp))

theorem execCalRecordAppend_frame (b : BayId) (u : UnitSel) (s : State) (t : State)
    (h : execCalRecordAppend b u s = .next t) :
    t.pending = s.pending ∧ t.out = s.out ∧ t.free = s.free ∧ t.ev = s.ev ∧ t.mem = s.mem ∧ t.cfg = s.cfg ∧ t.trust = s.trust ∧
    t.blk = s.blk ∧ t.isl = s.isl ∧ t.inj = s.inj ∧ t.chip = s.chip ∧ t.flash.mem = s.flash.mem := by
  unfold execCalRecordAppend at h
  replace h := (withBay_next h).2
  subst h
  refine ⟨?_, ?_, ?_, ?_, ?_, ?_, ?_, ?_, ?_, ?_, ?_, ?_⟩ <;> (try simp) <;> repeat' (first | intro _ | (split <;> try simp))

@[simp] theorem State.liftElements_frame (s : State) (b : BayId) (p : Pu) (id : Nat) (sp : Nat) :
    (s.liftElements b p id sp).pending = s.pending ∧ (s.liftElements b p id sp).free = s.free ∧
    (s.liftElements b p id sp).ham = s.ham ∧ (s.liftElements b p id sp).mem = s.mem ∧ (s.liftElements b p id sp).flash = s.flash ∧
    (s.liftElements b p id sp).cfg = s.cfg ∧ (s.liftElements b p id sp).trust = s.trust ∧ (s.liftElements b p id sp).blk = s.blk ∧
    (s.liftElements b p id sp).isl = s.isl ∧ (s.liftElements b p id sp).inj = s.inj := by
  unfold State.liftElements
  refine ⟨?_, ?_, ?_, ?_, ?_, ?_, ?_, ?_, ?_, ?_⟩ <;> (try simp) <;> repeat' (first | intro _ | (split <;> try simp))

end Sys2Proof.Machine
end

