-- ==== Sys2Proof/Laws/FrameMemRows.lean ====
section
/-! SUPPORT. What the operations of Machine/MemRows.lean leave unchanged: one lemma each, the fields of the state it does not touch. -/

namespace Sys2Proof.Machine

theorem State.eachHamper_pending (s : State) (f : State → SlotId → Hamper → State)
    (hf : ∀ s h x, (f s h x).pending = s.pending) : (s.eachHamper f).pending = s.pending := by
  unfold State.eachHamper; rw [State.foldl_pending]; intro x a; split <;> simp [hf]

theorem State.eachHamper_out (s : State) (f : State → SlotId → Hamper → State)
    (hf : ∀ s h x, (f s h x).out = s.out) : (s.eachHamper f).out = s.out := by
  unfold State.eachHamper; rw [State.foldl_out]; intro x a; split <;> simp [hf]

theorem State.eachHamper_free (s : State) (f : State → SlotId → Hamper → State)
    (hf : ∀ s h x, (f s h x).free = s.free) : (s.eachHamper f).free = s.free := by
  unfold State.eachHamper; rw [State.foldl_free]; intro x a; split <;> simp [hf]

theorem State.eachHamper_host (s : State) (f : State → SlotId → Hamper → State)
    (hf : ∀ s h x, (f s h x).host = s.host) : (s.eachHamper f).host = s.host := by
  unfold State.eachHamper; rw [State.foldl_host]; intro x a; split <;> simp [hf]

theorem State.eachHamper_ev (s : State) (f : State → SlotId → Hamper → State)
    (hf : ∀ s h x, (f s h x).ev = s.ev) : (s.eachHamper f).ev = s.ev := by
  unfold State.eachHamper; rw [State.foldl_ev]; intro x a; split <;> simp [hf]

theorem State.eachHamper_ham (s : State) (f : State → SlotId → Hamper → State)
    (hf : ∀ s h x, (f s h x).ham = s.ham) : (s.eachHamper f).ham = s.ham := by
  unfold State.eachHamper; rw [State.foldl_ham]; intro x a; split <;> simp [hf]

theorem State.eachHamper_mem (s : State) (f : State → SlotId → Hamper → State)
    (hf : ∀ s h x, (f s h x).mem = s.mem) : (s.eachHamper f).mem = s.mem := by
  unfold State.eachHamper; rw [State.foldl_mem]; intro x a; split <;> simp [hf]

theorem State.eachHamper_flash (s : State) (f : State → SlotId → Hamper → State)
    (hf : ∀ s h x, (f s h x).flash = s.flash) : (s.eachHamper f).flash = s.flash := by
  unfold State.eachHamper; rw [State.foldl_flash]; intro x a; split <;> simp [hf]

theorem State.eachHamper_cfg (s : State) (f : State → SlotId → Hamper → State)
    (hf : ∀ s h x, (f s h x).cfg = s.cfg) : (s.eachHamper f).cfg = s.cfg := by
  unfold State.eachHamper; rw [State.foldl_cfg]; intro x a; split <;> simp [hf]

theorem State.eachHamper_trust (s : State) (f : State → SlotId → Hamper → State)
    (hf : ∀ s h x, (f s h x).trust = s.trust) : (s.eachHamper f).trust = s.trust := by
  unfold State.eachHamper; rw [State.foldl_trust]; intro x a; split <;> simp [hf]

theorem State.eachHamper_blk (s : State) (f : State → SlotId → Hamper → State)
    (hf : ∀ s h x, (f s h x).blk = s.blk) : (s.eachHamper f).blk = s.blk := by
  unfold State.eachHamper; rw [State.foldl_blk]; intro x a; split <;> simp [hf]

theorem State.eachHamper_isl (s : State) (f : State → SlotId → Hamper → State)
    (hf : ∀ s h x, (f s h x).isl = s.isl) : (s.eachHamper f).isl = s.isl := by
  unfold State.eachHamper; rw [State.foldl_isl]; intro x a; split <;> simp [hf]

theorem State.eachHamper_inj (s : State) (f : State → SlotId → Hamper → State)
    (hf : ∀ s h x, (f s h x).inj = s.inj) : (s.eachHamper f).inj = s.inj := by
  unfold State.eachHamper; rw [State.foldl_inj]; intro x a; split <;> simp [hf]

theorem State.eachHamper_chip (s : State) (f : State → SlotId → Hamper → State)
    (hf : ∀ s h x, (f s h x).chip = s.chip) : (s.eachHamper f).chip = s.chip := by
  unfold State.eachHamper; rw [State.foldl_chip]; intro x a; split <;> simp [hf]

theorem State.eachHamper_bays (s : State) (f : State → SlotId → Hamper → State)
    (hf : ∀ s h x, (f s h x).bays = s.bays) : (s.eachHamper f).bays = s.bays := by
  unfold State.eachHamper; rw [State.foldl_bays]; intro x a; split <;> simp [hf]

theorem State.eachHamper_mem_ddr (s : State) (f : State → SlotId → Hamper → State)
    (hf : ∀ s h x, (f s h x).mem.ddr = s.mem.ddr) : (s.eachHamper f).mem.ddr = s.mem.ddr := by
  unfold State.eachHamper; rw [State.foldl_mem_ddr]; intro x a; split <;> simp [hf]

theorem State.eachHamper_flash_mem (s : State) (f : State → SlotId → Hamper → State)
    (hf : ∀ s h x, (f s h x).flash.mem = s.flash.mem) : (s.eachHamper f).flash.mem = s.flash.mem := by
  unfold State.eachHamper; rw [State.foldl_flash_mem]; intro x a; split <;> simp [hf]

theorem State.eachHamper_trust_fuses (s : State) (f : State → SlotId → Hamper → State)
    (hf : ∀ s h x, (f s h x).trust.fuses = s.trust.fuses) : (s.eachHamper f).trust.fuses = s.trust.fuses := by
  unfold State.eachHamper; rw [State.foldl_trust_fuses]; intro x a; split <;> simp [hf]

@[simp] theorem State.sramRow_frame (s : State) (p : Partition) (ch addr : Nat) :
    (s.sramRow p ch addr).pending = s.pending ∧ (s.sramRow p ch addr).free = s.free ∧ (s.sramRow p ch addr).ham = s.ham ∧
    (s.sramRow p ch addr).flash = s.flash ∧ (s.sramRow p ch addr).cfg = s.cfg ∧ (s.sramRow p ch addr).trust = s.trust ∧
    (s.sramRow p ch addr).blk = s.blk ∧ (s.sramRow p ch addr).isl = s.isl ∧ (s.sramRow p ch addr).inj = s.inj ∧
    (s.sramRow p ch addr).bays = s.bays ∧ (s.sramRow p ch addr).mem.ddr = s.mem.ddr := by
  unfold State.sramRow
  refine ⟨?_, ?_, ?_, ?_, ?_, ?_, ?_, ?_, ?_, ?_, ?_⟩ <;> (try simp) <;> repeat' (first | intro _ | (split <;> try simp))

theorem execMemCorrectedError_frame (part : Partition) (ch : Fin 8) (addr : Nat) (s : State) (t : State)
    (h : execMemCorrectedError part ch addr s = .next t) :
    t.pending = s.pending ∧ t.free = s.free ∧ t.ham = s.ham ∧ t.flash = s.flash ∧ t.cfg = s.cfg ∧ t.trust = s.trust ∧
    t.blk = s.blk ∧ t.isl = s.isl ∧ t.inj = s.inj ∧ t.bays = s.bays ∧ t.mem.ddr = s.mem.ddr := by
  unfold execMemCorrectedError at h
  injection h with h; subst h
  refine ⟨?_, ?_, ?_, ?_, ?_, ?_, ?_, ?_, ?_, ?_, ?_⟩ <;> (try simp) <;> repeat' (first | intro _ | (split <;> try simp))

@[simp] theorem State.spoilBlock_frame (s : State) (h i : Nat) :
    (s.spoilBlock h i).pending = s.pending ∧ (s.spoilBlock h i).out = s.out ∧ (s.spoilBlock h i).free = s.free ∧
    (s.spoilBlock h i).host = s.host ∧ (s.spoilBlock h i).ev = s.ev ∧ (s.spoilBlock h i).ham = s.ham ∧
    (s.spoilBlock h i).flash = s.flash ∧ (s.spoilBlock h i).cfg = s.cfg ∧ (s.spoilBlock h i).trust = s.trust ∧
    (s.spoilBlock h i).blk = s.blk ∧ (s.spoilBlock h i).isl = s.isl ∧ (s.spoilBlock h i).inj = s.inj ∧
    (s.spoilBlock h i).chip = s.chip ∧ (s.spoilBlock h i).bays = s.bays ∧ (s.spoilBlock h i).mem.ddr = s.mem.ddr := by
  unfold State.spoilBlock
  refine ⟨?_, ?_, ?_, ?_, ?_, ?_, ?_, ?_, ?_, ?_, ?_, ?_, ?_, ?_, ?_⟩ <;> (try simp) <;> repeat' (first | intro _ | (split <;> try simp))

@[simp] theorem State.bufferLost_frame (s : State) (addr : Nat) :
    (s.bufferLost addr).pending = s.pending ∧ (s.bufferLost addr).flash = s.flash ∧ (s.bufferLost addr).trust = s.trust ∧
    (s.bufferLost addr).blk = s.blk ∧ (s.bufferLost addr).isl = s.isl ∧ (s.bufferLost addr).inj = s.inj ∧
    (s.bufferLost addr).mem.ddr = s.mem.ddr := by
  unfold State.bufferLost
  refine ⟨?_, ?_, ?_, ?_, ?_, ?_, ?_⟩ <;> (try simp) <;> repeat' (first | intro _ | (split <;> try simp) | ((first | rw [State.foldl_pending] | rw [State.foldl2_pending] | rw [State.eachHamper_pending] | rw [State.foldl_flash] | rw [State.foldl2_flash] | rw [State.eachHamper_flash] | rw [State.foldl_trust] | rw [State.foldl2_trust] | rw [State.eachHamper_trust] | rw [State.foldl_blk] | rw [State.foldl2_blk] | rw [State.eachHamper_blk] | rw [State.foldl_isl] | rw [State.foldl2_isl] | rw [State.eachHamper_isl] | rw [State.foldl_inj] | rw [State.foldl2_inj] | rw [State.eachHamper_inj] | rw [State.foldl_mem_ddr] | rw [State.foldl2_mem_ddr] | rw [State.eachHamper_mem_ddr]) <;> intros <;> try simp))

@[simp] theorem State.journalLost_frame (s : State) (addr : Nat) :
    (s.journalLost addr).pending = s.pending ∧ (s.journalLost addr).free = s.free ∧ (s.journalLost addr).mem = s.mem ∧
    (s.journalLost addr).flash = s.flash ∧ (s.journalLost addr).cfg = s.cfg ∧ (s.journalLost addr).trust = s.trust ∧
    (s.journalLost addr).blk = s.blk ∧ (s.journalLost addr).isl = s.isl ∧ (s.journalLost addr).inj = s.inj ∧
    (s.journalLost addr).bays = s.bays := by
  unfold State.journalLost
  refine ⟨?_, ?_, ?_, ?_, ?_, ?_, ?_, ?_, ?_, ?_⟩ <;> (try simp) <;> repeat' (first | intro _ | (split <;> try simp) | ((first | rw [State.foldl_pending] | rw [State.foldl2_pending] | rw [State.eachHamper_pending] | rw [State.foldl_free] | rw [State.foldl2_free] | rw [State.eachHamper_free] | rw [State.foldl_mem] | rw [State.foldl2_mem] | rw [State.eachHamper_mem] | rw [State.foldl_flash] | rw [State.foldl2_flash] | rw [State.eachHamper_flash] | rw [State.foldl_cfg] | rw [State.foldl2_cfg] | rw [State.eachHamper_cfg] | rw [State.foldl_trust] | rw [State.foldl2_trust] | rw [State.eachHamper_trust] | rw [State.foldl_blk] | rw [State.foldl2_blk] | rw [State.eachHamper_blk] | rw [State.foldl_isl] | rw [State.foldl2_isl] | rw [State.eachHamper_isl] | rw [State.foldl_inj] | rw [State.foldl2_inj] | rw [State.eachHamper_inj] | rw [State.foldl_bays] | rw [State.foldl2_bays] | rw [State.eachHamper_bays]) <;> intros <;> try simp))

@[simp] theorem State.mapEntryLost_frame (s : State) (addr : Nat) :
    (s.mapEntryLost addr).pending = s.pending ∧ (s.mapEntryLost addr).out = s.out ∧ (s.mapEntryLost addr).free = s.free ∧
    (s.mapEntryLost addr).host = s.host ∧ (s.mapEntryLost addr).ev = s.ev ∧ (s.mapEntryLost addr).mem = s.mem ∧
    (s.mapEntryLost addr).flash = s.flash ∧ (s.mapEntryLost addr).cfg = s.cfg ∧ (s.mapEntryLost addr).trust = s.trust ∧
    (s.mapEntryLost addr).blk = s.blk ∧ (s.mapEntryLost addr).isl = s.isl ∧ (s.mapEntryLost addr).inj = s.inj ∧
    (s.mapEntryLost addr).chip = s.chip ∧ (s.mapEntryLost addr).bays = s.bays := by
  unfold State.mapEntryLost
  refine ⟨?_, ?_, ?_, ?_, ?_, ?_, ?_, ?_, ?_, ?_, ?_, ?_, ?_, ?_⟩ <;> (try simp) <;> repeat' (first | intro _ | (split <;> try simp) | ((first | rw [State.foldl_pending] | rw [State.foldl2_pending] | rw [State.eachHamper_pending] | rw [State.foldl_out] | rw [State.foldl2_out] | rw [State.eachHamper_out] | rw [State.foldl_free] | rw [State.foldl2_free] | rw [State.eachHamper_free] | rw [State.foldl_host] | rw [State.foldl2_host] | rw [State.eachHamper_host] | rw [State.foldl_ev] | rw [State.foldl2_ev] | rw [State.eachHamper_ev] | rw [State.foldl_mem] | rw [State.foldl2_mem] | rw [State.eachHamper_mem] | rw [State.foldl_flash] | rw [State.foldl2_flash] | rw [State.eachHamper_flash] | rw [State.foldl_cfg] | rw [State.foldl2_cfg] | rw [State.eachHamper_cfg] | rw [State.foldl_trust] | rw [State.foldl2_trust] | rw [State.eachHamper_trust] | rw [State.foldl_blk] | rw [State.foldl2_blk] | rw [State.eachHamper_blk] | rw [State.foldl_isl] | rw [State.foldl2_isl] | rw [State.eachHamper_isl] | rw [State.foldl_inj] | rw [State.foldl2_inj] | rw [State.eachHamper_inj] | rw [State.foldl_chip] | rw [State.foldl2_chip] | rw [State.eachHamper_chip] | rw [State.foldl_bays] | rw [State.foldl2_bays] | rw [State.eachHamper_bays]) <;> intros <;> try simp))

@[simp] theorem State.softLost_frame (s : State) (addr : Nat) :
    (s.softLost addr).pending = s.pending ∧ (s.softLost addr).out = s.out ∧ (s.softLost addr).free = s.free ∧
    (s.softLost addr).host = s.host ∧ (s.softLost addr).ev = s.ev ∧ (s.softLost addr).ham = s.ham ∧
    (s.softLost addr).mem = s.mem ∧ (s.softLost addr).flash = s.flash ∧ (s.softLost addr).cfg = s.cfg ∧
    (s.softLost addr).trust = s.trust ∧ (s.softLost addr).blk = s.blk ∧ (s.softLost addr).isl = s.isl ∧
    (s.softLost addr).inj = s.inj ∧ (s.softLost addr).chip = s.chip := by
  unfold State.softLost
  refine ⟨?_, ?_, ?_, ?_, ?_, ?_, ?_, ?_, ?_, ?_, ?_, ?_, ?_, ?_⟩ <;> (try simp) <;> repeat' (first | intro _ | (split <;> try simp) | ((first | rw [State.foldl_pending] | rw [State.foldl2_pending] | rw [State.foldl_out] | rw [State.foldl2_out] | rw [State.foldl_free] | rw [State.foldl2_free] | rw [State.foldl_host] | rw [State.foldl2_host] | rw [State.foldl_ev] | rw [State.foldl2_ev] | rw [State.foldl_ham] | rw [State.foldl2_ham] | rw [State.foldl_mem] | rw [State.foldl2_mem] | rw [State.foldl_flash] | rw [State.foldl2_flash] | rw [State.foldl_cfg] | rw [State.foldl2_cfg] | rw [State.foldl_trust] | rw [State.foldl2_trust] | rw [State.foldl_blk] | rw [State.foldl2_blk] | rw [State.foldl_isl] | rw [State.foldl2_isl] | rw [State.foldl_inj] | rw [State.foldl2_inj] | rw [State.foldl_chip] | rw [State.foldl2_chip]) <;> intros <;> try simp))

@[simp] theorem State.codedLost_frame (s : State) (addr : Nat) :
    (s.codedLost addr).pending = s.pending ∧ (s.codedLost addr).free = s.free ∧ (s.codedLost addr).flash = s.flash ∧
    (s.codedLost addr).trust = s.trust ∧ (s.codedLost addr).blk = s.blk ∧ (s.codedLost addr).isl = s.isl ∧
    (s.codedLost addr).inj = s.inj ∧ (s.codedLost addr).mem.ddr = s.mem.ddr := by
  unfold State.codedLost
  refine ⟨?_, ?_, ?_, ?_, ?_, ?_, ?_, ?_⟩ <;> (try simp) <;> repeat' (first | intro _ | (split <;> try simp))

@[simp] theorem State.checkpointLost_frame (s : State) (addr : Nat) :
    (s.checkpointLost addr).pending = s.pending ∧ (s.checkpointLost addr).out = s.out ∧ (s.checkpointLost addr).free = s.free ∧
    (s.checkpointLost addr).host = s.host ∧ (s.checkpointLost addr).ev = s.ev ∧ (s.checkpointLost addr).ham = s.ham ∧
    (s.checkpointLost addr).mem = s.mem ∧ (s.checkpointLost addr).flash = s.flash ∧ (s.checkpointLost addr).cfg = s.cfg ∧
    (s.checkpointLost addr).trust = s.trust ∧ (s.checkpointLost addr).isl = s.isl ∧ (s.checkpointLost addr).inj = s.inj ∧
    (s.checkpointLost addr).chip = s.chip ∧ (s.checkpointLost addr).bays = s.bays := by
  unfold State.checkpointLost
  refine ⟨?_, ?_, ?_, ?_, ?_, ?_, ?_, ?_, ?_, ?_, ?_, ?_, ?_, ?_⟩ <;> (try simp) <;> repeat' (first | intro _ | (split <;> try simp))

theorem execMemUe_frame (part : Partition) (ch : Fin 8) (addr : Nat) (s : State) (t : State)
    (h : execMemUe part ch addr s = .next t) :
    t.pending = s.pending ∧ t.flash = s.flash ∧ t.trust = s.trust ∧ t.inj = s.inj ∧ t.mem.ddr = s.mem.ddr := by
  unfold execMemUe at h
  injection h with h; subst h
  refine ⟨?_, ?_, ?_, ?_, ?_⟩ <;> (try simp) <;> repeat' (first | intro _ | (split <;> try simp))

theorem execMergeNarrowWrite_frame (ch : Fin 8) (addr : Nat) (data : Bytes) (s : State) (t : State)
    (h : execMergeNarrowWrite ch addr data s = .next t) :
    t.pending = s.pending ∧ t.out = s.out ∧ t.free = s.free ∧ t.host = s.host ∧ t.ev = s.ev ∧ t.ham = s.ham ∧ t.flash = s.flash ∧
    t.cfg = s.cfg ∧ t.trust = s.trust ∧ t.blk = s.blk ∧ t.isl = s.isl ∧ t.inj = s.inj ∧ t.chip = s.chip ∧ t.bays = s.bays := by
  unfold execMergeNarrowWrite at h
  injection h with h; subst h
  refine ⟨?_, ?_, ?_, ?_, ?_, ?_, ?_, ?_, ?_, ?_, ?_, ?_, ?_, ?_⟩ <;> (try simp) <;> repeat' (first | intro _ | (split <;> try simp))

theorem execMergeEntryRetire_frame (ch : Fin 8) (readUncorrectable : Bool) (s : State) (t : State)
    (h : execMergeEntryRetire ch readUncorrectable s = .next t) :
    t.pending = s.pending ∧ t.out = s.out ∧ t.free = s.free ∧ t.host = s.host ∧ t.ev = s.ev ∧ t.ham = s.ham ∧ t.flash = s.flash ∧
    t.cfg = s.cfg ∧ t.trust = s.trust ∧ t.blk = s.blk ∧ t.isl = s.isl ∧ t.inj = s.inj ∧ t.chip = s.chip ∧ t.bays = s.bays := by
  unfold execMergeEntryRetire at h
  injection h with h; subst h
  refine ⟨?_, ?_, ?_, ?_, ?_, ?_, ?_, ?_, ?_, ?_, ?_, ?_, ?_, ?_⟩ <;> (try simp) <;> repeat' (first | intro _ | (split <;> try simp))

theorem execBufferDraw_frame (basket : Fin 256) (count : Nat) (requester : Nat) (s : State) (t : State)
    (h : execBufferDraw basket count requester s = .next t) :
    t.pending = s.pending ∧ t.free = s.free ∧ t.ham = s.ham ∧ t.flash = s.flash ∧ t.trust = s.trust ∧ t.blk = s.blk ∧
    t.isl = s.isl ∧ t.inj = s.inj ∧ t.bays = s.bays ∧ t.mem.ddr = s.mem.ddr := by
  unfold execBufferDraw at h
  injection h with h; subst h
  refine ⟨?_, ?_, ?_, ?_, ?_, ?_, ?_, ?_, ?_, ?_⟩ <;> (try simp) <;> repeat' (first | intro _ | (split <;> try simp))

theorem execBufferReturn_frame (handle : Nat) (s : State) (t : State)
    (h : execBufferReturn handle s = .next t) :
    t.pending = s.pending ∧ t.out = s.out ∧ t.free = s.free ∧ t.host = s.host ∧ t.ev = s.ev ∧ t.ham = s.ham ∧ t.flash = s.flash ∧
    t.trust = s.trust ∧ t.blk = s.blk ∧ t.isl = s.isl ∧ t.inj = s.inj ∧ t.chip = s.chip ∧ t.bays = s.bays ∧
    t.mem.ddr = s.mem.ddr := by
  unfold execBufferReturn at h
  injection h with h; subst h
  refine ⟨?_, ?_, ?_, ?_, ?_, ?_, ?_, ?_, ?_, ?_, ?_, ?_, ?_, ?_⟩ <;> (try simp) <;> repeat' (first | intro _ | (split <;> try simp))

end Sys2Proof.Machine
end

