-- ==== Sys2Proof/Laws/FrameHampers.lean ====
section
/-! SUPPORT. What the operations of Machine/Hampers.lean leave unchanged: one lemma each, the fields of the state it does not touch. -/

namespace Sys2Proof.Machine

theorem execWriteStaged_frame (f : FnId) (sr : Nat) (tag : BitVec 6) (blocks : List Bytes) (s : State) (t : State)
    (h : execWriteStaged f sr tag blocks s = .next t) :
    t.pending = s.pending ∧ t.out = s.out ∧ t.free = s.free ∧ t.ev = s.ev ∧ t.flash = s.flash ∧ t.trust = s.trust ∧
    t.blk = s.blk ∧ t.isl = s.isl ∧ t.inj = s.inj ∧ t.chip = s.chip ∧ t.bays = s.bays ∧ t.mem.ddr = s.mem.ddr := by
  unfold execWriteStaged at h
  injection h with h; subst h
  refine ⟨?_, ?_, ?_, ?_, ?_, ?_, ?_, ?_, ?_, ?_, ?_, ?_⟩ <;> (try simp) <;> repeat' (first | intro _ | (split <;> try simp))

@[simp] theorem State.placeNext_frame (s : State) (h : SlotId) :
    (s.placeNext h).pending = s.pending ∧ (s.placeNext h).free = s.free ∧ (s.placeNext h).flash = s.flash ∧
    (s.placeNext h).trust = s.trust ∧ (s.placeNext h).blk = s.blk ∧ (s.placeNext h).isl = s.isl ∧ (s.placeNext h).inj = s.inj ∧
    (s.placeNext h).mem.ddr = s.mem.ddr := by
  unfold State.placeNext
  refine ⟨?_, ?_, ?_, ?_, ?_, ?_, ?_, ?_⟩ <;> (try simp) <;> repeat' (first | intro _ | (split <;> try simp))

theorem execBlockPlace_frame (h : SlotId) (s : State) (t : State)
    (h : execBlockPlace h s = .next t) :
    t.pending = s.pending ∧ t.free = s.free ∧ t.flash = s.flash ∧ t.trust = s.trust ∧ t.blk = s.blk ∧ t.isl = s.isl ∧
    t.inj = s.inj ∧ t.mem.ddr = s.mem.ddr := by
  unfold execBlockPlace at h
  injection h with h; subst h
  refine ⟨?_, ?_, ?_, ?_, ?_, ?_, ?_, ?_⟩ <;> (try simp) <;> repeat' (first | intro _ | (split <;> try simp))

theorem execStripeCloseTimeout_frame (h : SlotId) (s : State) (t : State)
    (h : execStripeCloseTimeout h s = .next t) :
    t.pending = s.pending ∧ t.out = s.out ∧ t.free = s.free ∧ t.ev = s.ev ∧ t.flash = s.flash ∧ t.trust = s.trust ∧
    t.blk = s.blk ∧ t.isl = s.isl ∧ t.inj = s.inj ∧ t.chip = s.chip ∧ t.mem.ddr = s.mem.ddr := by
  unfold execStripeCloseTimeout at h
  injection h with h; subst h
  refine ⟨?_, ?_, ?_, ?_, ?_, ?_, ?_, ?_, ?_, ?_, ?_⟩ <;> (try simp) <;> repeat' (first | intro _ | (split <;> try simp))

theorem execSectorWriteOutcome_frame (h : SlotId) (stripe : Nat) (member : Fin 32) (written : Bool) (s : State) (t : State)
    (h : execSectorWriteOutcome h stripe member written s = .next t) :
    t.pending = s.pending ∧ t.out = s.out ∧ t.free = s.free ∧ t.ev = s.ev ∧ t.flash = s.flash ∧ t.trust = s.trust ∧
    t.blk = s.blk ∧ t.isl = s.isl ∧ t.inj = s.inj ∧ t.chip = s.chip ∧ t.bays = s.bays ∧ t.mem.ddr = s.mem.ddr := by
  unfold execSectorWriteOutcome at h
  injection h with h; subst h
  refine ⟨?_, ?_, ?_, ?_, ?_, ?_, ?_, ?_, ?_, ?_, ?_, ?_⟩ <;> (try simp) <;> repeat' (first | intro _ | (split <;> try simp))

theorem execCheckpointWrite_frame (h : SlotId) (s : State) (t : State)
    (h : execCheckpointWrite h s = .next t) :
    t.pending = s.pending ∧ t.out = s.out ∧ t.free = s.free ∧ t.host = s.host ∧ t.ev = s.ev ∧ t.mem = s.mem ∧ t.flash = s.flash ∧
    t.cfg = s.cfg ∧ t.trust = s.trust ∧ t.blk = s.blk ∧ t.isl = s.isl ∧ t.inj = s.inj ∧ t.chip = s.chip := by
  unfold execCheckpointWrite at h
  injection h with h; subst h
  refine ⟨?_, ?_, ?_, ?_, ?_, ?_, ?_, ?_, ?_, ?_, ?_, ?_, ?_⟩ <;> (try simp) <;> repeat' (first | intro _ | (split <;> try simp))

theorem execHamperAutoMount_frame (b : BayId) (s : State) (t : State)
    (h : execHamperAutoMount b s = .next t) :
    t.pending = s.pending ∧ t.free = s.free ∧ t.mem = s.mem ∧ t.flash = s.flash ∧ t.cfg = s.cfg ∧ t.trust = s.trust ∧
    t.blk = s.blk ∧ t.isl = s.isl ∧ t.inj = s.inj := by
  unfold execHamperAutoMount at h
  replace h := (withBay_next h).2
  subst h
  refine ⟨?_, ?_, ?_, ?_, ?_, ?_, ?_, ?_, ?_⟩ <;> (try simp) <;> repeat' (first | intro _ | (split <;> try simp))

@[simp] theorem State.rebuildNext_frame (s : State) (h : SlotId) (m : Member) (seq pos : Nat) :
    (s.rebuildNext h m seq pos).pending = s.pending ∧ (s.rebuildNext h m seq pos).flash = s.flash ∧
    (s.rebuildNext h m seq pos).trust = s.trust ∧ (s.rebuildNext h m seq pos).blk = s.blk ∧
    (s.rebuildNext h m seq pos).isl = s.isl ∧ (s.rebuildNext h m seq pos).inj = s.inj ∧
    (s.rebuildNext h m seq pos).mem.ddr = s.mem.ddr := by
  unfold State.rebuildNext
  refine ⟨?_, ?_, ?_, ?_, ?_, ?_, ?_⟩ <;> (try simp) <;> repeat' (first | intro _ | (split <;> try simp))

theorem execMemberRebuildStep_frame (h : SlotId) (s : State) (t : State)
    (h : execMemberRebuildStep h s = .next t) :
    t.pending = s.pending ∧ t.flash = s.flash ∧ t.trust = s.trust ∧ t.blk = s.blk ∧ t.isl = s.isl ∧ t.inj = s.inj ∧
    t.mem.ddr = s.mem.ddr := by
  unfold execMemberRebuildStep at h
  injection h with h; subst h
  refine ⟨?_, ?_, ?_, ?_, ?_, ?_, ?_⟩ <;> (try simp) <;> repeat' (first | intro _ | (split <;> try simp))

theorem execReadRebuild_frame (h : SlotId) (stripe pos : Nat) (s : State) (t : State)
    (h : execReadRebuild h stripe pos s = .next t) :
    t.pending = s.pending ∧ t.flash = s.flash ∧ t.trust = s.trust ∧ t.blk = s.blk ∧ t.isl = s.isl ∧ t.inj = s.inj ∧
    t.mem.ddr = s.mem.ddr := by
  unfold execReadRebuild at h
  injection h with h; subst h
  refine ⟨?_, ?_, ?_, ?_, ?_, ?_, ?_⟩ <;> (try simp) <;> repeat' (first | intro _ | (split <;> try simp))

@[simp] theorem State.withdraw_frame (s : State) (h : SlotId) (m : Member) (b : BayId) (p : Pu) :
    (s.withdraw h m b p).pending = s.pending ∧ (s.withdraw h m b p).out = s.out ∧ (s.withdraw h m b p).free = s.free ∧
    (s.withdraw h m b p).ev = s.ev ∧ (s.withdraw h m b p).flash = s.flash ∧ (s.withdraw h m b p).trust = s.trust ∧
    (s.withdraw h m b p).blk = s.blk ∧ (s.withdraw h m b p).isl = s.isl ∧ (s.withdraw h m b p).inj = s.inj ∧
    (s.withdraw h m b p).chip = s.chip ∧ (s.withdraw h m b p).mem.ddr = s.mem.ddr := by
  unfold State.withdraw
  refine ⟨?_, ?_, ?_, ?_, ?_, ?_, ?_, ?_, ?_, ?_, ?_⟩ <;> (try simp) <;> repeat' (first | intro _ | (split <;> try simp) | ((first | rw [State.foldl_pending] | rw [State.foldl2_pending] | rw [State.foldl_out] | rw [State.foldl2_out] | rw [State.foldl_free] | rw [State.foldl2_free] | rw [State.foldl_ev] | rw [State.foldl2_ev] | rw [State.foldl_flash] | rw [State.foldl2_flash] | rw [State.foldl_trust] | rw [State.foldl2_trust] | rw [State.foldl_blk] | rw [State.foldl2_blk] | rw [State.foldl_isl] | rw [State.foldl2_isl] | rw [State.foldl_inj] | rw [State.foldl2_inj] | rw [State.foldl_chip] | rw [State.foldl2_chip] | rw [State.foldl_mem_ddr] | rw [State.foldl2_mem_ddr]) <;> intros <;> try simp))

theorem execMemberGraceExpire_frame (b : BayId) (p : Pu) (s : State) (t : State)
    (h : execMemberGraceExpire b p s = .next t) :
    t.pending = s.pending ∧ t.out = s.out ∧ t.free = s.free ∧ t.ev = s.ev ∧ t.flash = s.flash ∧ t.trust = s.trust ∧
    t.blk = s.blk ∧ t.isl = s.isl ∧ t.inj = s.inj ∧ t.chip = s.chip ∧ t.mem.ddr = s.mem.ddr := by
  unfold execMemberGraceExpire at h
  replace h := (withBay_next h).2
  subst h
  refine ⟨?_, ?_, ?_, ?_, ?_, ?_, ?_, ?_, ?_, ?_, ?_⟩ <;> (try simp) <;> repeat' (first | intro _ | (split <;> try simp) | ((first | rw [State.foldl_pending] | rw [State.foldl2_pending] | rw [State.foldl_out] | rw [State.foldl2_out] | rw [State.foldl_free] | rw [State.foldl2_free] | rw [State.foldl_ev] | rw [State.foldl2_ev] | rw [State.foldl_flash] | rw [State.foldl2_flash] | rw [State.foldl_trust] | rw [State.foldl2_trust] | rw [State.foldl_blk] | rw [State.foldl2_blk] | rw [State.foldl_isl] | rw [State.foldl2_isl] | rw [State.foldl_inj] | rw [State.foldl2_inj] | rw [State.foldl_chip] | rw [State.foldl2_chip] | rw [State.foldl_mem_ddr] | rw [State.foldl2_mem_ddr]) <;> intros <;> try simp))

@[simp] theorem State.writeSession_frame (s : State) (h : SlotId) :
    (s.writeSession h).pending = s.pending ∧ (s.writeSession h).out = s.out ∧ (s.writeSession h).free = s.free ∧
    (s.writeSession h).host = s.host ∧ (s.writeSession h).ev = s.ev ∧ (s.writeSession h).mem = s.mem ∧
    (s.writeSession h).flash = s.flash ∧ (s.writeSession h).cfg = s.cfg ∧ (s.writeSession h).trust = s.trust ∧
    (s.writeSession h).blk = s.blk ∧ (s.writeSession h).isl = s.isl ∧ (s.writeSession h).inj = s.inj ∧
    (s.writeSession h).chip = s.chip := by
  unfold State.writeSession
  refine ⟨?_, ?_, ?_, ?_, ?_, ?_, ?_, ?_, ?_, ?_, ?_, ?_, ?_⟩ <;> (try simp) <;> repeat' (first | intro _ | (split <;> try simp))

theorem execHamperMountRecover_frame (h : SlotId) (s : State) (t : State)
    (h : execHamperMountRecover h s = .next t) :
    t.pending = s.pending ∧ t.out = s.out ∧ t.free = s.free ∧ t.ev = s.ev ∧ t.flash = s.flash ∧ t.trust = s.trust ∧
    t.blk = s.blk ∧ t.isl = s.isl ∧ t.inj = s.inj ∧ t.chip = s.chip ∧ t.mem.ddr = s.mem.ddr := by
  unfold execHamperMountRecover at h
  injection h with h; subst h
  refine ⟨?_, ?_, ?_, ?_, ?_, ?_, ?_, ?_, ?_, ?_, ?_⟩ <;> (try simp) <;> repeat' (first | intro _ | (split <;> try simp))

@[simp] theorem State.hamperEngineFaulty_frame (s : State) (e code : Nat) :
    (s.hamperEngineFaulty e code).pending = s.pending ∧ (s.hamperEngineFaulty e code).free = s.free ∧
    (s.hamperEngineFaulty e code).mem = s.mem ∧ (s.hamperEngineFaulty e code).flash = s.flash ∧
    (s.hamperEngineFaulty e code).cfg = s.cfg ∧ (s.hamperEngineFaulty e code).trust = s.trust ∧
    (s.hamperEngineFaulty e code).isl = s.isl ∧ (s.hamperEngineFaulty e code).inj = s.inj ∧
    (s.hamperEngineFaulty e code).bays = s.bays := by
  unfold State.hamperEngineFaulty
  refine ⟨?_, ?_, ?_, ?_, ?_, ?_, ?_, ?_, ?_⟩ <;> (try simp) <;> repeat' (first | intro _ | (split <;> try simp))

theorem execHamperEngineFault_frame (e : Fin 5) (cause : FaultCause) (s : State) (t : State)
    (h : execHamperEngineFault e cause s = .next t) :
    t.pending = s.pending ∧ t.free = s.free ∧ t.mem = s.mem ∧ t.flash = s.flash ∧ t.cfg = s.cfg ∧ t.trust = s.trust ∧
    t.isl = s.isl ∧ t.inj = s.inj ∧ t.bays = s.bays := by
  unfold execHamperEngineFault at h
  injection h with h; subst h
  refine ⟨?_, ?_, ?_, ?_, ?_, ?_, ?_, ?_, ?_⟩ <;> (try simp) <;> repeat' (first | intro _ | (split <;> try simp))

theorem execHamperEngineTakeover_frame (s : State) (t : State)
    (h : execHamperEngineTakeover s = .next t) :
    t.pending = s.pending ∧ t.free = s.free ∧ t.flash = s.flash ∧ t.trust = s.trust ∧ t.isl = s.isl ∧ t.inj = s.inj ∧
    t.mem.ddr = s.mem.ddr := by
  unfold execHamperEngineTakeover at h
  injection h with h; subst h
  refine ⟨?_, ?_, ?_, ?_, ?_, ?_, ?_⟩ <;> (try simp) <;> repeat' (first | intro _ | (split <;> try simp))

end Sys2Proof.Machine
end

