-- ==== Sys2Proof/Laws/FrameFaultRows.lean ====
section
/-! SUPPORT. What the operations of Machine/FaultRows.lean leave unchanged: one lemma each, the fields of the state it does not touch. -/

namespace Sys2Proof.Machine

@[simp] theorem State.bayLost_frame (s : State) (b : BayId) :
    (s.bayLost b).pending = s.pending ∧ (s.bayLost b).flash = s.flash ∧ (s.bayLost b).trust = s.trust ∧
    (s.bayLost b).isl = s.isl ∧ (s.bayLost b).inj = s.inj ∧ (s.bayLost b).mem.ddr = s.mem.ddr := by
  unfold State.bayLost
  refine ⟨?_, ?_, ?_, ?_, ?_, ?_⟩ <;> (try simp) <;> repeat' (first | intro _ | (split <;> try simp))

@[simp] theorem State.loseRegion_frame (s : State) (r : Nat) :
    (s.loseRegion r).pending = s.pending ∧ (s.loseRegion r).flash = s.flash ∧ (s.loseRegion r).trust = s.trust ∧
    (s.loseRegion r).inj = s.inj ∧ (s.loseRegion r).mem.ddr = s.mem.ddr := by
  unfold State.loseRegion
  refine ⟨?_, ?_, ?_, ?_, ?_⟩ <;> (try simp) <;> repeat' (first | intro _ | (split <;> try simp) | ((first | rw [State.foldl_pending] | rw [State.foldl2_pending] | rw [State.foldl_flash] | rw [State.foldl2_flash] | rw [State.foldl_trust] | rw [State.foldl2_trust] | rw [State.foldl_inj] | rw [State.foldl2_inj] | rw [State.foldl_mem_ddr] | rw [State.foldl2_mem_ddr]) <;> intros <;> try simp))

theorem execRegionLost_frame (r : Fin 6) (s : State) (t : State)
    (h : execRegionLost r s = .next t) :
    t.pending = s.pending ∧ t.flash = s.flash ∧ t.trust = s.trust ∧ t.inj = s.inj ∧ t.mem.ddr = s.mem.ddr := by
  unfold execRegionLost at h
  replace h := (onRegion_next h).2
  subst h
  refine ⟨?_, ?_, ?_, ?_, ?_⟩ <;> (try simp) <;> repeat' (first | intro _ | (split <;> try simp))

@[simp] theorem State.lastCopyLost_frame (s : State) (id : BlockId) :
    (s.lastCopyLost id).pending = s.pending ∧ (s.lastCopyLost id).flash = s.flash ∧ (s.lastCopyLost id).trust = s.trust ∧
    (s.lastCopyLost id).inj = s.inj ∧ (s.lastCopyLost id).mem.ddr = s.mem.ddr := by
  unfold State.lastCopyLost
  refine ⟨?_, ?_, ?_, ?_, ?_⟩ <;> (try simp) <;> repeat' (first | intro _ | (split <;> try simp))

@[simp] theorem State.copyLost_frame (s : State) (id : BlockId) :
    (s.copyLost id).pending = s.pending ∧ (s.copyLost id).flash = s.flash ∧ (s.copyLost id).trust = s.trust ∧
    (s.copyLost id).inj = s.inj ∧ (s.copyLost id).mem.ddr = s.mem.ddr := by
  unfold State.copyLost
  refine ⟨?_, ?_, ?_, ?_, ?_⟩ <;> (try simp) <;> repeat' (first | intro _ | (split <;> try simp))

theorem execDuplexDisagree_frame (kind : DuplexKind) (region : Nat) (inst : Nat) (which : DuplexWhich) (again : Bool) (s : State) (t : State)
    (h : execDuplexDisagree kind region inst which again s = .next t) :
    t.pending = s.pending ∧ t.flash = s.flash ∧ t.trust = s.trust ∧ t.inj = s.inj ∧ t.mem.ddr = s.mem.ddr := by
  unfold execDuplexDisagree at h
  replace h := (onRegion_next h).2
  subst h
  refine ⟨?_, ?_, ?_, ?_, ?_⟩ <;> (try simp) <;> repeat' (first | intro _ | (split <;> try simp))

@[simp] theorem State.creditResync_frame (s : State) (r l : Nat) :
    (s.creditResync r l).pending = s.pending ∧ (s.creditResync r l).flash = s.flash ∧ (s.creditResync r l).trust = s.trust ∧
    (s.creditResync r l).inj = s.inj ∧ (s.creditResync r l).mem.ddr = s.mem.ddr := by
  unfold State.creditResync
  refine ⟨?_, ?_, ?_, ?_, ?_⟩ <;> (try simp) <;> repeat' (split <;> (try (rename_i h; replace h := congrArg Prod.snd h; dsimp only at h; subst h)) <;> try simp)

theorem execCreditAudit_frame (region : Fin 6) (link : Fin 8) (mismatch : Bool) (s : State) (t : State)
    (h : execCreditAudit region link mismatch s = .next t) :
    t.pending = s.pending ∧ t.flash = s.flash ∧ t.trust = s.trust ∧ t.inj = s.inj ∧ t.mem.ddr = s.mem.ddr := by
  unfold execCreditAudit at h
  replace h := (onRegion_next h).2
  subst h
  refine ⟨?_, ?_, ?_, ?_, ?_⟩ <;> (try simp) <;> repeat' (first | intro _ | (split <;> try simp))

theorem execCreditStarve_frame (region : Fin 6) (link : Fin 8) (s : State) (t : State)
    (h : execCreditStarve region link s = .next t) :
    t.pending = s.pending ∧ t.flash = s.flash ∧ t.trust = s.trust ∧ t.inj = s.inj ∧ t.mem.ddr = s.mem.ddr := by
  unfold execCreditStarve at h
  replace h := (onRegion_next h).2
  subst h
  refine ⟨?_, ?_, ?_, ?_, ?_⟩ <;> (try simp) <;> repeat' (first | intro _ | (split <;> try simp))

@[simp] theorem State.restartAdmin_frame (s : State) (n : Nat) :
    (s.restartAdmin n).pending = s.pending ∧ (s.restartAdmin n).out = s.out ∧ (s.restartAdmin n).free = s.free ∧
    (s.restartAdmin n).ev = s.ev ∧ (s.restartAdmin n).ham = s.ham ∧ (s.restartAdmin n).mem = s.mem ∧
    (s.restartAdmin n).cfg = s.cfg ∧ (s.restartAdmin n).trust = s.trust ∧ (s.restartAdmin n).blk = s.blk ∧
    (s.restartAdmin n).isl = s.isl ∧ (s.restartAdmin n).inj = s.inj ∧ (s.restartAdmin n).chip = s.chip ∧
    (s.restartAdmin n).bays = s.bays ∧ (s.restartAdmin n).flash.mem = s.flash.mem := by
  unfold State.restartAdmin
  refine ⟨?_, ?_, ?_, ?_, ?_, ?_, ?_, ?_, ?_, ?_, ?_, ?_, ?_, ?_⟩ <;> (try simp) <;> repeat' (first | intro _ | (split <;> try simp))

theorem State.mgmtFaulty_pending (s : State) (c code : Nat) :
    (s.mgmtFaulty c code).pending = s.pending := by
  unfold State.mgmtFaulty
  (try simp) <;> repeat' (split <;> (try (rename_i h; replace h := congrArg Prod.snd h; dsimp only at h; subst h)) <;> try simp)

theorem State.mgmtFaulty_free (s : State) (c code : Nat) :
    (s.mgmtFaulty c code).free = s.free := by
  unfold State.mgmtFaulty
  (try simp) <;> repeat' (split <;> (try (rename_i h; replace h := congrArg Prod.snd h; dsimp only at h; subst h)) <;> try simp)

theorem State.mgmtFaulty_ham (s : State) (c code : Nat) :
    (s.mgmtFaulty c code).ham = s.ham := by
  unfold State.mgmtFaulty
  (try simp) <;> repeat' (split <;> (try (rename_i h; replace h := congrArg Prod.snd h; dsimp only at h; subst h)) <;> try simp)

theorem State.mgmtFaulty_mem (s : State) (c code : Nat) :
    (s.mgmtFaulty c code).mem = s.mem := by
  unfold State.mgmtFaulty
  (try simp) <;> repeat' (split <;> (try (rename_i h; replace h := congrArg Prod.snd h; dsimp only at h; subst h)) <;> try simp)

theorem State.mgmtFaulty_cfg (s : State) (c code : Nat) :
    (s.mgmtFaulty c code).cfg = s.cfg := by
  unfold State.mgmtFaulty
  (try simp) <;> repeat' (split <;> (try (rename_i h; replace h := congrArg Prod.snd h; dsimp only at h; subst h)) <;> try simp)

theorem State.mgmtFaulty_trust (s : State) (c code : Nat) :
    (s.mgmtFaulty c code).trust = s.trust := by
  unfold State.mgmtFaulty
  (try simp) <;> repeat' (split <;> (try (rename_i h; replace h := congrArg Prod.snd h; dsimp only at h; subst h)) <;> try simp)

theorem State.mgmtFaulty_isl (s : State) (c code : Nat) :
    (s.mgmtFaulty c code).isl = s.isl := by
  unfold State.mgmtFaulty
  (try simp) <;> repeat' (split <;> (try (rename_i h; replace h := congrArg Prod.snd h; dsimp only at h; subst h)) <;> try simp)

theorem State.mgmtFaulty_inj (s : State) (c code : Nat) :
    (s.mgmtFaulty c code).inj = s.inj := by
  unfold State.mgmtFaulty
  (try simp) <;> repeat' (split <;> (try (rename_i h; replace h := congrArg Prod.snd h; dsimp only at h; subst h)) <;> try simp)

theorem State.mgmtFaulty_bays (s : State) (c code : Nat) :
    (s.mgmtFaulty c code).bays = s.bays := by
  unfold State.mgmtFaulty
  (try simp) <;> repeat' (split <;> (try (rename_i h; replace h := congrArg Prod.snd h; dsimp only at h; subst h)) <;> try simp)

theorem State.mgmtFaulty_flash_mem (s : State) (c code : Nat) :
    (s.mgmtFaulty c code).flash.mem = s.flash.mem := by
  unfold State.mgmtFaulty
  (try simp) <;> repeat' (split <;> (try (rename_i h; replace h := congrArg Prod.snd h; dsimp only at h; subst h)) <;> try simp)

@[simp] theorem State.mgmtFaulty_frame (s : State) (c code : Nat) :
    (s.mgmtFaulty c code).pending = s.pending ∧ (s.mgmtFaulty c code).free = s.free ∧ (s.mgmtFaulty c code).ham = s.ham ∧
    (s.mgmtFaulty c code).mem = s.mem ∧ (s.mgmtFaulty c code).cfg = s.cfg ∧ (s.mgmtFaulty c code).trust = s.trust ∧
    (s.mgmtFaulty c code).isl = s.isl ∧ (s.mgmtFaulty c code).inj = s.inj ∧ (s.mgmtFaulty c code).bays = s.bays ∧
    (s.mgmtFaulty c code).flash.mem = s.flash.mem :=
  ⟨State.mgmtFaulty_pending s c code,
   State.mgmtFaulty_free s c code,
   State.mgmtFaulty_ham s c code,
   State.mgmtFaulty_mem s c code,
   State.mgmtFaulty_cfg s c code,
   State.mgmtFaulty_trust s c code,
   State.mgmtFaulty_isl s c code,
   State.mgmtFaulty_inj s c code,
   State.mgmtFaulty_bays s c code,
   State.mgmtFaulty_flash_mem s c code⟩

theorem execMgmtCoreFault_frame (c : Fin 5) (cause : FaultCause) (s : State) (t : State)
    (h : execMgmtCoreFault c cause s = .next t) :
    t.pending = s.pending ∧ t.free = s.free ∧ t.ham = s.ham ∧ t.mem = s.mem ∧ t.cfg = s.cfg ∧ t.trust = s.trust ∧ t.isl = s.isl ∧
    t.inj = s.inj ∧ t.bays = s.bays ∧ t.flash.mem = s.flash.mem := by
  unfold execMgmtCoreFault at h
  injection h with h; subst h
  refine ⟨?_, ?_, ?_, ?_, ?_, ?_, ?_, ?_, ?_, ?_⟩ <;> (try simp) <;> repeat' (first | intro _ | (split <;> try simp))

@[simp] theorem State.mgmtTakeover_frame (s : State) :
    (s.mgmtTakeover).pending = s.pending ∧ (s.mgmtTakeover).free = s.free ∧ (s.mgmtTakeover).ham = s.ham ∧
    (s.mgmtTakeover).mem = s.mem ∧ (s.mgmtTakeover).cfg = s.cfg ∧ (s.mgmtTakeover).trust = s.trust ∧
    (s.mgmtTakeover).isl = s.isl ∧ (s.mgmtTakeover).inj = s.inj ∧ (s.mgmtTakeover).bays = s.bays ∧
    (s.mgmtTakeover).flash.mem = s.flash.mem := by
  unfold State.mgmtTakeover
  refine ⟨?_, ?_, ?_, ?_, ?_, ?_, ?_, ?_, ?_, ?_⟩ <;> (try simp) <;> repeat' (first | intro _ | (split <;> try simp))

theorem execMgmtTakeoverDone_frame (s : State) (t : State)
    (h : execMgmtTakeoverDone s = .next t) :
    t.pending = s.pending ∧ t.free = s.free ∧ t.ham = s.ham ∧ t.mem = s.mem ∧ t.cfg = s.cfg ∧ t.trust = s.trust ∧ t.isl = s.isl ∧
    t.inj = s.inj ∧ t.bays = s.bays ∧ t.flash.mem = s.flash.mem := by
  unfold execMgmtTakeoverDone at h
  injection h with h; subst h
  refine ⟨?_, ?_, ?_, ?_, ?_, ?_, ?_, ?_, ?_, ?_⟩ <;> (try simp) <;> repeat' (first | intro _ | (split <;> try simp))

@[simp] theorem State.blockFaulty_frame (s : State) (id : BlockId) :
    (s.blockFaulty id).pending = s.pending ∧ (s.blockFaulty id).trust = s.trust ∧ (s.blockFaulty id).inj = s.inj ∧
    (s.blockFaulty id).mem.ddr = s.mem.ddr ∧ (s.blockFaulty id).flash.mem = s.flash.mem := by
  unfold State.blockFaulty
  refine ⟨?_, ?_, ?_, ?_, ?_⟩ <;> (try simp) <;> repeat' (split <;> (try (rename_i h; replace h := congrArg Prod.snd h; dsimp only at h; subst h)) <;> try simp)

theorem execChipFatal_frame (cause : FatalCause) (kind : Nat) (inst : Nat) (s : State) (t : State)
    (h : execChipFatal cause kind inst s = .next t) :
    t.pending = s.pending ∧ t.free = s.free ∧ t.ham = s.ham ∧ t.mem = s.mem ∧ t.flash = s.flash ∧ t.cfg = s.cfg ∧
    t.trust = s.trust ∧ t.inj = s.inj ∧ t.bays = s.bays := by
  unfold execChipFatal at h
  injection h with h; subst h
  refine ⟨?_, ?_, ?_, ?_, ?_, ?_, ?_, ?_, ?_⟩ <;> (try simp) <;> repeat' (first | intro _ | (split <;> try simp))

@[simp] theorem State.fatalReset_frame (s : State) :
    (s.fatalReset).pending = s.pending ∧ (s.fatalReset).free = s.free ∧ (s.fatalReset).flash.mem = s.flash.mem ∧
    (s.fatalReset).trust.fuses = s.trust.fuses := by
  unfold State.fatalReset
  refine ⟨?_, ?_, ?_, ?_⟩ <;> (try simp) <;> repeat' (first | intro _ | (split <;> try simp))

theorem execCrashRecordAppend_frame (s : State) (t : State)
    (h : execCrashRecordAppend s = .next t) :
    t.pending = s.pending ∧ t.free = s.free ∧ t.flash.mem = s.flash.mem ∧ t.trust.fuses = s.trust.fuses := by
  unfold execCrashRecordAppend at h
  injection h with h; subst h
  refine ⟨?_, ?_, ?_, ?_⟩ <;> (try simp) <;> repeat' (first | intro _ | (split <;> try simp))

@[simp] theorem State.takeJob_frame (s : State) (op : FlashOp) :
    (s.takeJob op).2.pending = s.pending ∧ (s.takeJob op).2.out = s.out ∧ (s.takeJob op).2.free = s.free ∧
    (s.takeJob op).2.host = s.host ∧ (s.takeJob op).2.ev = s.ev ∧ (s.takeJob op).2.ham = s.ham ∧ (s.takeJob op).2.mem = s.mem ∧
    (s.takeJob op).2.cfg = s.cfg ∧ (s.takeJob op).2.trust = s.trust ∧ (s.takeJob op).2.blk = s.blk ∧
    (s.takeJob op).2.isl = s.isl ∧ (s.takeJob op).2.inj = s.inj ∧ (s.takeJob op).2.chip = s.chip ∧
    (s.takeJob op).2.bays = s.bays ∧ (s.takeJob op).2.flash.mem = s.flash.mem := by
  unfold State.takeJob
  refine ⟨?_, ?_, ?_, ?_, ?_, ?_, ?_, ?_, ?_, ?_, ?_, ?_, ?_, ?_, ?_⟩ <;> (try simp) <;> repeat' (first | intro _ | (split <;> try simp))

@[simp] theorem State.retryJob_frame (s : State) (j : FlashJob) :
    (s.retryJob j).pending = s.pending ∧ (s.retryJob j).out = s.out ∧ (s.retryJob j).free = s.free ∧
    (s.retryJob j).host = s.host ∧ (s.retryJob j).ev = s.ev ∧ (s.retryJob j).ham = s.ham ∧ (s.retryJob j).mem = s.mem ∧
    (s.retryJob j).cfg = s.cfg ∧ (s.retryJob j).trust = s.trust ∧ (s.retryJob j).blk = s.blk ∧ (s.retryJob j).isl = s.isl ∧
    (s.retryJob j).inj = s.inj ∧ (s.retryJob j).chip = s.chip ∧ (s.retryJob j).bays = s.bays ∧
    (s.retryJob j).flash.mem = s.flash.mem := by
  unfold State.retryJob
  refine ⟨?_, ?_, ?_, ?_, ?_, ?_, ?_, ?_, ?_, ?_, ?_, ?_, ?_, ?_, ?_⟩ <;> (try simp) <;> repeat' (first | intro _ | (split <;> try simp))

@[simp] theorem State.jobDone_frame (s : State) (j : FlashJob) (good : Bool) :
    (s.jobDone j good).pending = s.pending ∧ (s.jobDone j good).trust.fuses = s.trust.fuses := by
  unfold State.jobDone
  refine ⟨?_, ?_⟩ <;> (try simp) <;> repeat' (split <;> (try (rename_i h; replace h := congrArg Prod.snd h; dsimp only at h; subst h)) <;> try simp)

theorem execFlashEraseProgramDone_frame (op : FlashOp) (good : Bool) (s : State) (t : State)
    (h : execFlashEraseProgramDone op good s = .next t) :
    t.pending = s.pending ∧ t.trust.fuses = s.trust.fuses := by
  unfold execFlashEraseProgramDone at h
  injection h with h; subst h
  refine ⟨?_, ?_⟩ <;> (try simp) <;> repeat' (first | intro _ | (split <;> (try (rename_i h; replace h := congrArg Prod.snd h; dsimp only at h; subst h)) <;> try simp))

theorem execEventRateWindow_frame (s : State) (t : State)
    (h : execEventRateWindow s = .next t) :
    t.pending = s.pending ∧ t.out = s.out ∧ t.free = s.free ∧ t.host = s.host ∧ t.ham = s.ham ∧ t.mem = s.mem ∧
    t.flash = s.flash ∧ t.cfg = s.cfg ∧ t.trust = s.trust ∧ t.blk = s.blk ∧ t.isl = s.isl ∧ t.inj = s.inj ∧ t.chip = s.chip ∧
    t.bays = s.bays := by
  unfold execEventRateWindow at h
  injection h with h; subst h
  refine ⟨?_, ?_, ?_, ?_, ?_, ?_, ?_, ?_, ?_, ?_, ?_, ?_, ?_, ?_⟩ <;> (try simp) <;> repeat' (first | intro _ | (split <;> try simp))

theorem execJtagDebugUnlock_frame (s : State) (t : State)
    (h : execJtagDebugUnlock s = .next t) :
    t.pending = s.pending ∧ t.out = s.out ∧ t.host = s.host ∧ t.ev = s.ev ∧ t.ham = s.ham ∧ t.mem = s.mem ∧ t.flash = s.flash ∧
    t.cfg = s.cfg ∧ t.blk = s.blk ∧ t.isl = s.isl ∧ t.inj = s.inj ∧ t.chip = s.chip ∧ t.bays = s.bays ∧
    t.trust.fuses = s.trust.fuses := by
  unfold execJtagDebugUnlock at h
  injection h with h; subst h
  refine ⟨?_, ?_, ?_, ?_, ?_, ?_, ?_, ?_, ?_, ?_, ?_, ?_, ?_, ?_⟩ <;> (try simp) <;> repeat' (first | intro _ | (split <;> try simp))

theorem execTrstNReset_frame (s : State) (t : State)
    (h : execTrstNReset s = .next t) :
    t.pending = s.pending ∧ t.out = s.out ∧ t.free = s.free ∧ t.host = s.host ∧ t.ev = s.ev ∧ t.ham = s.ham ∧ t.mem = s.mem ∧
    t.flash = s.flash ∧ t.cfg = s.cfg ∧ t.blk = s.blk ∧ t.isl = s.isl ∧ t.inj = s.inj ∧ t.chip = s.chip ∧ t.bays = s.bays ∧
    t.trust.fuses = s.trust.fuses := by
  unfold execTrstNReset at h
  injection h with h; subst h
  refine ⟨?_, ?_, ?_, ?_, ?_, ?_, ?_, ?_, ?_, ?_, ?_, ?_, ?_, ?_, ?_⟩ <;> (try simp) <;> repeat' (first | intro _ | (split <;> try simp))

@[simp] theorem State.liftLane_frame (s : State) (i : Inject) (b : BayId) :
    (s.liftLane i b).pending = s.pending ∧ (s.liftLane i b).free = s.free ∧ (s.liftLane i b).ham = s.ham ∧
    (s.liftLane i b).mem = s.mem ∧ (s.liftLane i b).flash = s.flash ∧ (s.liftLane i b).cfg = s.cfg ∧
    (s.liftLane i b).trust = s.trust ∧ (s.liftLane i b).blk = s.blk ∧ (s.liftLane i b).isl = s.isl ∧
    (s.liftLane i b).inj = s.inj := by
  unfold State.liftLane
  refine ⟨?_, ?_, ?_, ?_, ?_, ?_, ?_, ?_, ?_, ?_⟩ <;> (try simp) <;> repeat' (first | intro _ | (split <;> try simp))

@[simp] theorem State.liftBlocks_frame (s : State) (i : Inject) :
    (s.liftBlocks i).pending = s.pending ∧ (s.liftBlocks i).free = s.free ∧ (s.liftBlocks i).ham = s.ham ∧
    (s.liftBlocks i).mem = s.mem ∧ (s.liftBlocks i).flash = s.flash ∧ (s.liftBlocks i).cfg = s.cfg ∧
    (s.liftBlocks i).trust = s.trust ∧ (s.liftBlocks i).isl = s.isl ∧ (s.liftBlocks i).inj = s.inj ∧
    (s.liftBlocks i).bays = s.bays := by
  unfold State.liftBlocks
  refine ⟨?_, ?_, ?_, ?_, ?_, ?_, ?_, ?_, ?_, ?_⟩ <;> (try simp) <;> repeat' (first | intro _ | (split <;> try simp))

theorem execInjectLift_frame (id : BitVec 16) (s : State) (t : State)
    (h : execInjectLift id s = .next t) :
    t.pending = s.pending ∧ t.free = s.free ∧ t.ham = s.ham ∧ t.mem = s.mem ∧ t.flash = s.flash ∧ t.cfg = s.cfg ∧
    t.trust = s.trust ∧ t.isl = s.isl := by
  unfold execInjectLift at h
  injection h with h; subst h
  refine ⟨?_, ?_, ?_, ?_, ?_, ?_, ?_, ?_⟩ <;> (try simp) <;> repeat' (first | intro _ | (split <;> try simp))

end Sys2Proof.Machine
end

