-- ==== Sys2Proof/Laws/FrameChipRows.lean ====
section
/-! SUPPORT. What the operations of Machine/ChipRows.lean leave unchanged: one lemma each, the fields of the state it does not touch. -/

namespace Sys2Proof.Machine

theorem execPowerOnReset_frame (s : State) (t : State)
    (h : execPowerOnReset s = .next t) :
    t.pending = s.pending ∧ t.free = s.free ∧ t.flash.mem = s.flash.mem ∧ t.trust.fuses = s.trust.fuses := by
  unfold execPowerOnReset at h
  injection h with h; subst h
  refine ⟨?_, ?_, ?_, ?_⟩ <;> (try simp) <;> repeat' (first | intro _ | (split <;> try simp))

theorem execSupplyMonitorTrip_frame (_rail : Rail) (s : State) (t : State)
    (h : execSupplyMonitorTrip _rail s = .next t) :
    t.pending = s.pending ∧ t.free = s.free ∧ t.flash.mem = s.flash.mem ∧ t.trust.fuses = s.trust.fuses := by
  unfold execSupplyMonitorTrip at h
  injection h with h; subst h
  refine ⟨?_, ?_, ?_, ?_⟩ <;> (try simp) <;> repeat' (first | intro _ | (split <;> try simp))

theorem execVddAonTrip_frame (s : State) (t : State)
    (h : execVddAonTrip s = .next t) :
    t.pending = s.pending ∧ t.out = s.out ∧ t.free = s.free ∧ t.host = s.host ∧ t.ev = s.ev ∧ t.ham = s.ham ∧ t.flash = s.flash ∧
    t.cfg = s.cfg ∧ t.trust = s.trust ∧ t.blk = s.blk ∧ t.isl = s.isl ∧ t.inj = s.inj ∧ t.bays = s.bays ∧ t.mem.ddr = s.mem.ddr := by
  unfold execVddAonTrip at h
  injection h with h; subst h
  refine ⟨?_, ?_, ?_, ?_, ?_, ?_, ?_, ?_, ?_, ?_, ?_, ?_, ?_, ?_⟩ <;> (try simp) <;> repeat' (first | intro _ | (split <;> try simp))

theorem execSysrstNAssert_frame (s : State) (t : State)
    (h : execSysrstNAssert s = .next t) :
    t.pending = s.pending ∧ t.free = s.free ∧ t.flash.mem = s.flash.mem ∧ t.trust.fuses = s.trust.fuses := by
  unfold execSysrstNAssert at h
  injection h with h; subst h
  refine ⟨?_, ?_, ?_, ?_⟩ <;> (try simp) <;> repeat' (first | intro _ | (split <;> try simp))

theorem execPePerstSystem_frame (s : State) (t : State)
    (h : execPePerstSystem s = .next t) :
    t.pending = s.pending ∧ t.free = s.free ∧ t.flash.mem = s.flash.mem ∧ t.trust.fuses = s.trust.fuses := by
  unfold execPePerstSystem at h
  injection h with h; subst h
  refine ⟨?_, ?_, ?_, ?_⟩ <;> (try simp) <;> repeat' (first | intro _ | (split <;> try simp))

theorem execResetRelease_frame (source : Nat) (s : State) (t : State)
    (h : execResetRelease source s = .next t) :
    t.pending = s.pending ∧ t.out = s.out ∧ t.free = s.free ∧ t.ev = s.ev ∧ t.ham = s.ham ∧ t.mem = s.mem ∧ t.flash = s.flash ∧
    t.cfg = s.cfg ∧ t.trust = s.trust ∧ t.blk = s.blk ∧ t.isl = s.isl ∧ t.inj = s.inj ∧ t.bays = s.bays := by
  unfold execResetRelease at h
  injection h with h; subst h
  refine ⟨?_, ?_, ?_, ?_, ?_, ?_, ?_, ?_, ?_, ?_, ?_, ?_, ?_⟩ <;> (try simp) <;> repeat' (first | intro _ | (split <;> try simp))

theorem execWatchdogKick_frame (s : State) (t : State)
    (h : execWatchdogKick s = .next t) :
    t.pending = s.pending ∧ t.out = s.out ∧ t.free = s.free ∧ t.host = s.host ∧ t.ev = s.ev ∧ t.ham = s.ham ∧ t.mem = s.mem ∧
    t.flash = s.flash ∧ t.cfg = s.cfg ∧ t.trust = s.trust ∧ t.blk = s.blk ∧ t.isl = s.isl ∧ t.inj = s.inj ∧ t.bays = s.bays := by
  unfold execWatchdogKick at h
  injection h with h; subst h
  refine ⟨?_, ?_, ?_, ?_, ?_, ?_, ?_, ?_, ?_, ?_, ?_, ?_, ?_, ?_⟩ <;> (try simp) <;> repeat' (first | intro _ | (split <;> try simp))

theorem execWatchdogFirstStage_frame (s : State) (t : State)
    (h : execWatchdogFirstStage s = .next t) :
    t.pending = s.pending ∧ t.free = s.free ∧ t.trust = s.trust ∧ t.blk = s.blk ∧ t.isl = s.isl ∧ t.inj = s.inj ∧
    t.mem.ddr = s.mem.ddr ∧ t.flash.mem = s.flash.mem := by
  unfold execWatchdogFirstStage at h
  injection h with h; subst h
  refine ⟨?_, ?_, ?_, ?_, ?_, ?_, ?_, ?_⟩ <;> (try simp) <;> repeat' (first | intro _ | (split <;> try simp))

theorem execWatchdogFinalStage_frame (s : State) (t : State)
    (h : execWatchdogFinalStage s = .next t) :
    t.pending = s.pending ∧ t.free = s.free ∧ t.flash.mem = s.flash.mem ∧ t.trust.fuses = s.trust.fuses := by
  unfold execWatchdogFinalStage at h
  injection h with h; subst h
  refine ⟨?_, ?_, ?_, ?_⟩ <;> (try simp) <;> repeat' (first | intro _ | (split <;> try simp))

theorem execCoreResetRelease_frame (copyGood : Bool) (failed : List (Fin 5)) (s : State) (t : State)
    (h : execCoreResetRelease copyGood failed s = .next t) :
    t.pending = s.pending ∧ t.free = s.free ∧ t.trust = s.trust ∧ t.isl = s.isl ∧ t.inj = s.inj ∧ t.mem.ddr = s.mem.ddr ∧
    t.flash.mem = s.flash.mem := by
  unfold execCoreResetRelease at h
  injection h with h; subst h
  refine ⟨?_, ?_, ?_, ?_, ?_, ?_, ?_⟩ <;> (try simp) <;> repeat' (first | intro _ | (split <;> try simp))

theorem execBlockResetRequest_frame (blk : BlockId) (idle : Bool) (s : State) (t : State)
    (h : execBlockResetRequest blk idle s = .next t) :
    t.pending = s.pending ∧ t.out = s.out ∧ t.free = s.free ∧ t.host = s.host ∧ t.ev = s.ev ∧ t.ham = s.ham ∧ t.mem = s.mem ∧
    t.flash = s.flash ∧ t.cfg = s.cfg ∧ t.trust = s.trust ∧ t.isl = s.isl ∧ t.inj = s.inj ∧ t.chip = s.chip ∧ t.bays = s.bays := by
  unfold execBlockResetRequest at h
  injection h with h; subst h
  refine ⟨?_, ?_, ?_, ?_, ?_, ?_, ?_, ?_, ?_, ?_, ?_, ?_, ?_, ?_⟩ <;> (try simp) <;> repeat' (first | intro _ | (split <;> try simp))

@[simp] theorem State.clockFail_frame (s : State) (id : BlockId) :
    (s.clockFail id).pending = s.pending ∧ (s.clockFail id).trust = s.trust ∧ (s.clockFail id).inj = s.inj ∧
    (s.clockFail id).mem.ddr = s.mem.ddr ∧ (s.clockFail id).flash.mem = s.flash.mem := by
  unfold State.clockFail
  refine ⟨?_, ?_, ?_, ?_, ?_⟩ <;> (try simp) <;> repeat' (first | intro _ | (split <;> try simp))

theorem execClockReleaseTimeout_frame (blk : BlockId) (s : State) (t : State)
    (h : execClockReleaseTimeout blk s = .next t) :
    t.pending = s.pending ∧ t.trust = s.trust ∧ t.inj = s.inj ∧ t.mem.ddr = s.mem.ddr ∧ t.flash.mem = s.flash.mem := by
  unfold execClockReleaseTimeout at h
  injection h with h; subst h
  refine ⟨?_, ?_, ?_, ?_, ?_⟩ <;> (try simp) <;> repeat' (first | intro _ | (split <;> try simp))

theorem execClockGoodLoss_frame (blk : BlockId) (s : State) (t : State)
    (h : execClockGoodLoss blk s = .next t) :
    t.pending = s.pending ∧ t.trust = s.trust ∧ t.inj = s.inj ∧ t.mem.ddr = s.mem.ddr ∧ t.flash.mem = s.flash.mem := by
  unfold execClockGoodLoss at h
  injection h with h; subst h
  refine ⟨?_, ?_, ?_, ?_, ?_⟩ <;> (try simp) <;> repeat' (first | intro _ | (split <;> try simp))

theorem execRootLost_frame (s : State) (t : State)
    (h : execRootLost s = .next t) :
    t.pending = s.pending ∧ t.free = s.free ∧ t.flash.mem = s.flash.mem ∧ t.trust.fuses = s.trust.fuses := by
  unfold execRootLost at h
  injection h with h; subst h
  refine ⟨?_, ?_, ?_, ?_⟩ <;> (try simp) <;> repeat' (first | intro _ | (split <;> try simp))

theorem execDdrPllUnlock_frame (s : State) (t : State)
    (h : execDdrPllUnlock s = .next t) :
    t.pending = s.pending ∧ t.free = s.free ∧ t.ham = s.ham ∧ t.mem = s.mem ∧ t.flash = s.flash ∧ t.cfg = s.cfg ∧
    t.trust = s.trust ∧ t.inj = s.inj ∧ t.bays = s.bays := by
  unfold execDdrPllUnlock at h
  injection h with h; subst h
  refine ⟨?_, ?_, ?_, ?_, ?_, ?_, ?_, ?_, ?_⟩ <;> (try simp) <;> repeat' (first | intro _ | (split <;> try simp))

@[simp] theorem State.applyRepairs_frame (s : State) :
    (s.applyRepairs).pending = s.pending ∧ (s.applyRepairs).trust = s.trust ∧ (s.applyRepairs).inj = s.inj ∧
    (s.applyRepairs).mem.ddr = s.mem.ddr := by
  unfold State.applyRepairs
  refine ⟨?_, ?_, ?_, ?_⟩ <;> (try simp) <;> repeat' (first | intro _ | (split <;> (try (rename_i h; replace h := congrArg Prod.snd h; dsimp only at h; subst h)) <;> try simp) | ((first | rw [State.foldl_pending] | rw [State.foldl2_pending] | rw [State.foldl_trust] | rw [State.foldl2_trust] | rw [State.foldl_inj] | rw [State.foldl2_inj] | rw [State.foldl_mem_ddr] | rw [State.foldl2_mem_ddr]) <;> intros <;> try simp))

@[simp] theorem State.stepDone_frame (s : State) (n : Nat) :
    (s.stepDone n).pending = s.pending ∧ (s.stepDone n).out = s.out ∧ (s.stepDone n).free = s.free ∧ (s.stepDone n).ev = s.ev ∧
    (s.stepDone n).ham = s.ham ∧ (s.stepDone n).mem = s.mem ∧ (s.stepDone n).flash = s.flash ∧ (s.stepDone n).cfg = s.cfg ∧
    (s.stepDone n).trust = s.trust ∧ (s.stepDone n).blk = s.blk ∧ (s.stepDone n).isl = s.isl ∧ (s.stepDone n).inj = s.inj ∧
    (s.stepDone n).bays = s.bays := by
  unfold State.stepDone
  refine ⟨?_, ?_, ?_, ?_, ?_, ?_, ?_, ?_, ?_, ?_, ?_, ?_, ?_⟩ <;> (try simp) <;> repeat' (first | intro _ | (split <;> try simp))

@[simp] theorem State.stepFails_frame (s : State) (most : Nat) :
    (s.stepFails most).pending = s.pending ∧ (s.stepFails most).out = s.out ∧ (s.stepFails most).free = s.free ∧
    (s.stepFails most).host = s.host ∧ (s.stepFails most).ev = s.ev ∧ (s.stepFails most).ham = s.ham ∧
    (s.stepFails most).mem = s.mem ∧ (s.stepFails most).flash = s.flash ∧ (s.stepFails most).cfg = s.cfg ∧
    (s.stepFails most).trust = s.trust ∧ (s.stepFails most).blk = s.blk ∧ (s.stepFails most).isl = s.isl ∧
    (s.stepFails most).inj = s.inj ∧ (s.stepFails most).bays = s.bays := by
  unfold State.stepFails
  refine ⟨?_, ?_, ?_, ?_, ?_, ?_, ?_, ?_, ?_, ?_, ?_, ?_, ?_, ?_⟩ <;> (try simp) <;> repeat' (first | intro _ | (split <;> try simp))

@[simp] theorem State.coresHalt_frame (s : State) (stop : Bool) :
    (s.coresHalt stop).pending = s.pending ∧ (s.coresHalt stop).out = s.out ∧ (s.coresHalt stop).free = s.free ∧
    (s.coresHalt stop).host = s.host ∧ (s.coresHalt stop).ev = s.ev ∧ (s.coresHalt stop).ham = s.ham ∧
    (s.coresHalt stop).mem = s.mem ∧ (s.coresHalt stop).flash = s.flash ∧ (s.coresHalt stop).cfg = s.cfg ∧
    (s.coresHalt stop).trust = s.trust ∧ (s.coresHalt stop).blk = s.blk ∧ (s.coresHalt stop).isl = s.isl ∧
    (s.coresHalt stop).inj = s.inj ∧ (s.coresHalt stop).bays = s.bays := by
  unfold State.coresHalt
  refine ⟨?_, ?_, ?_, ?_, ?_, ?_, ?_, ?_, ?_, ?_, ?_, ?_, ?_, ?_⟩ <;> (try simp) <;> repeat' (first | intro _ | (split <;> try simp))

@[simp] theorem State.stepFuses_frame (s : State) (ok : Bool) :
    (s.stepFuses ok).pending = s.pending ∧ (s.stepFuses ok).out = s.out ∧ (s.stepFuses ok).free = s.free ∧
    (s.stepFuses ok).ev = s.ev ∧ (s.stepFuses ok).ham = s.ham ∧ (s.stepFuses ok).mem = s.mem ∧ (s.stepFuses ok).flash = s.flash ∧
    (s.stepFuses ok).cfg = s.cfg ∧ (s.stepFuses ok).blk = s.blk ∧ (s.stepFuses ok).isl = s.isl ∧ (s.stepFuses ok).inj = s.inj ∧
    (s.stepFuses ok).bays = s.bays ∧ (s.stepFuses ok).trust.fuses = s.trust.fuses := by
  unfold State.stepFuses
  refine ⟨?_, ?_, ?_, ?_, ?_, ?_, ?_, ?_, ?_, ?_, ?_, ?_, ?_⟩ <;> (try simp) <;> repeat' (first | intro _ | (split <;> try simp))

@[simp] theorem State.stepIsland_frame (s : State) (ok : Bool) :
    (s.stepIsland ok).pending = s.pending ∧ (s.stepIsland ok).free = s.free ∧ (s.stepIsland ok).ham = s.ham ∧
    (s.stepIsland ok).mem = s.mem ∧ (s.stepIsland ok).flash = s.flash ∧ (s.stepIsland ok).cfg = s.cfg ∧
    (s.stepIsland ok).trust = s.trust ∧ (s.stepIsland ok).blk = s.blk ∧ (s.stepIsland ok).inj = s.inj ∧
    (s.stepIsland ok).bays = s.bays := by
  unfold State.stepIsland
  refine ⟨?_, ?_, ?_, ?_, ?_, ?_, ?_, ?_, ?_, ?_⟩ <;> (try simp) <;> repeat' (first | intro _ | (split <;> try simp))

@[simp] theorem State.stepRoot_frame (s : State) (ok : Bool) :
    (s.stepRoot ok).pending = s.pending ∧ (s.stepRoot ok).out = s.out ∧ (s.stepRoot ok).free = s.free ∧
    (s.stepRoot ok).ev = s.ev ∧ (s.stepRoot ok).ham = s.ham ∧ (s.stepRoot ok).mem = s.mem ∧ (s.stepRoot ok).flash = s.flash ∧
    (s.stepRoot ok).cfg = s.cfg ∧ (s.stepRoot ok).trust = s.trust ∧ (s.stepRoot ok).blk = s.blk ∧ (s.stepRoot ok).inj = s.inj ∧
    (s.stepRoot ok).bays = s.bays := by
  unfold State.stepRoot
  refine ⟨?_, ?_, ?_, ?_, ?_, ?_, ?_, ?_, ?_, ?_, ?_, ?_⟩ <;> (try simp) <;> repeat' (first | intro _ | (split <;> try simp))

@[simp] theorem State.stepMemory_frame (s : State) (ok : Bool) (rates : List Nat) :
    (s.stepMemory ok rates).pending = s.pending ∧ (s.stepMemory ok rates).trust = s.trust ∧ (s.stepMemory ok rates).inj = s.inj := by
  unfold State.stepMemory
  refine ⟨?_, ?_, ?_⟩ <;> (try simp) <;> repeat' (first | intro _ | (split <;> try simp) | ((first | rw [State.foldl_pending] | rw [State.foldl2_pending] | rw [State.foldl_trust] | rw [State.foldl2_trust] | rw [State.foldl_inj] | rw [State.foldl2_inj]) <;> intros <;> try simp))

@[simp] theorem State.stepLoader_frame (s : State) (ok : Bool) :
    (s.stepLoader ok).pending = s.pending ∧ (s.stepLoader ok).out = s.out ∧ (s.stepLoader ok).free = s.free ∧
    (s.stepLoader ok).ev = s.ev ∧ (s.stepLoader ok).ham = s.ham ∧ (s.stepLoader ok).mem = s.mem ∧
    (s.stepLoader ok).flash = s.flash ∧ (s.stepLoader ok).cfg = s.cfg ∧ (s.stepLoader ok).blk = s.blk ∧
    (s.stepLoader ok).isl = s.isl ∧ (s.stepLoader ok).inj = s.inj ∧ (s.stepLoader ok).bays = s.bays ∧
    (s.stepLoader ok).trust.fuses = s.trust.fuses := by
  unfold State.stepLoader
  refine ⟨?_, ?_, ?_, ?_, ?_, ?_, ?_, ?_, ?_, ?_, ?_, ?_, ?_⟩ <;> (try simp) <;> repeat' (split <;> (try (rename_i h; replace h := congrArg Prod.snd h; dsimp only at h; subst h)) <;> try simp)

@[simp] theorem State.stepFirmware_frame (s : State) (ok : Bool) :
    (s.stepFirmware ok).pending = s.pending ∧ (s.stepFirmware ok).out = s.out ∧ (s.stepFirmware ok).free = s.free ∧
    (s.stepFirmware ok).ev = s.ev ∧ (s.stepFirmware ok).ham = s.ham ∧ (s.stepFirmware ok).mem = s.mem ∧
    (s.stepFirmware ok).cfg = s.cfg ∧ (s.stepFirmware ok).blk = s.blk ∧ (s.stepFirmware ok).isl = s.isl ∧
    (s.stepFirmware ok).inj = s.inj ∧ (s.stepFirmware ok).bays = s.bays ∧ (s.stepFirmware ok).trust.fuses = s.trust.fuses := by
  unfold State.stepFirmware
  refine ⟨?_, ?_, ?_, ?_, ?_, ?_, ?_, ?_, ?_, ?_, ?_, ?_⟩ <;> (try simp) <;> repeat' (split <;> (try (rename_i h; replace h := congrArg Prod.snd h; dsimp only at h; subst h)) <;> try simp)

@[simp] theorem State.stepImage_frame (s : State) :
    (s.stepImage).pending = s.pending ∧ (s.stepImage).free = s.free ∧ (s.stepImage).ham = s.ham ∧ (s.stepImage).blk = s.blk ∧
    (s.stepImage).inj = s.inj ∧ (s.stepImage).bays = s.bays ∧ (s.stepImage).mem.ddr = s.mem.ddr ∧
    (s.stepImage).trust.fuses = s.trust.fuses := by
  unfold State.stepImage
  refine ⟨?_, ?_, ?_, ?_, ?_, ?_, ?_, ?_⟩ <;> (try simp) <;> repeat' (first | intro _ | (split <;> try simp))

@[simp] theorem State.stepHost_frame (s : State) (ok : Bool) :
    (s.stepHost ok).pending = s.pending ∧ (s.stepHost ok).out = s.out ∧ (s.stepHost ok).free = s.free ∧
    (s.stepHost ok).ev = s.ev ∧ (s.stepHost ok).ham = s.ham ∧ (s.stepHost ok).mem = s.mem ∧ (s.stepHost ok).flash = s.flash ∧
    (s.stepHost ok).cfg = s.cfg ∧ (s.stepHost ok).trust = s.trust ∧ (s.stepHost ok).blk = s.blk ∧ (s.stepHost ok).isl = s.isl ∧
    (s.stepHost ok).inj = s.inj ∧ (s.stepHost ok).bays = s.bays := by
  unfold State.stepHost
  refine ⟨?_, ?_, ?_, ?_, ?_, ?_, ?_, ?_, ?_, ?_, ?_, ?_, ?_⟩ <;> (try simp) <;> repeat' (first | intro _ | (split <;> try simp))

theorem execBringupStep_frame (ok : Bool) (rates : List Nat) (s : State) (t : State)
    (h : execBringupStep ok rates s = .next t) :
    t.pending = s.pending ∧ t.inj = s.inj ∧ t.trust.fuses = s.trust.fuses := by
  unfold execBringupStep at h
  injection h with h; subst h
  refine ⟨?_, ?_, ?_⟩ <;> (try simp) <;> repeat' (first | intro _ | (split <;> try simp))

theorem execBayBringupStart_frame (b : BayId) (s : State) (t : State)
    (h : execBayBringupStart b s = .next t) :
    t.pending = s.pending ∧ t.mem = s.mem ∧ t.flash = s.flash ∧ t.trust = s.trust ∧ t.isl = s.isl := by
  unfold execBayBringupStart at h
  replace h := (withBay_next h).2
  subst h
  refine ⟨?_, ?_, ?_, ?_, ?_⟩ <;> (try simp) <;> repeat' (first | intro _ | (split <;> try simp) | ((first | rw [State.foldl_pending] | rw [State.foldl2_pending] | rw [State.foldl_mem] | rw [State.foldl2_mem] | rw [State.foldl_flash] | rw [State.foldl2_flash] | rw [State.foldl_trust] | rw [State.foldl2_trust] | rw [State.foldl_isl] | rw [State.foldl2_isl]) <;> intros <;> try simp))

theorem execHbeatIncrement_frame (s : State) (t : State)
    (h : execHbeatIncrement s = .next t) :
    t.pending = s.pending ∧ t.out = s.out ∧ t.free = s.free ∧ t.ev = s.ev ∧ t.ham = s.ham ∧ t.mem = s.mem ∧ t.flash = s.flash ∧
    t.cfg = s.cfg ∧ t.trust = s.trust ∧ t.blk = s.blk ∧ t.isl = s.isl ∧ t.inj = s.inj ∧ t.chip = s.chip ∧ t.bays = s.bays := by
  unfold execHbeatIncrement at h
  injection h with h; subst h
  refine ⟨?_, ?_, ?_, ?_, ?_, ?_, ?_, ?_, ?_, ?_, ?_, ?_, ?_, ?_⟩ <;> (try simp) <;> repeat' (first | intro _ | (split <;> try simp))

theorem execThermalTrip_frame (s : State) (t : State)
    (h : execThermalTrip s = .next t) :
    t.pending = s.pending ∧ t.free = s.free ∧ t.host = s.host ∧ t.ev = s.ev ∧ t.ham = s.ham ∧ t.mem = s.mem ∧ t.flash = s.flash ∧
    t.cfg = s.cfg ∧ t.trust = s.trust ∧ t.blk = s.blk ∧ t.inj = s.inj ∧ t.bays = s.bays := by
  unfold execThermalTrip at h
  injection h with h; subst h
  refine ⟨?_, ?_, ?_, ?_, ?_, ?_, ?_, ?_, ?_, ?_, ?_, ?_⟩ <;> (try simp) <;> repeat' (first | intro _ | (split <;> try simp))

theorem execAvsSetPoint_frame (millivolts : Nat) (acked : Bool) (s : State) (t : State)
    (h : execAvsSetPoint millivolts acked s = .next t) :
    t.pending = s.pending ∧ t.free = s.free ∧ t.host = s.host ∧ t.ev = s.ev ∧ t.ham = s.ham ∧ t.mem = s.mem ∧ t.flash = s.flash ∧
    t.cfg = s.cfg ∧ t.trust = s.trust ∧ t.blk = s.blk ∧ t.isl = s.isl ∧ t.inj = s.inj ∧ t.bays = s.bays := by
  unfold execAvsSetPoint at h
  injection h with h; subst h
  refine ⟨?_, ?_, ?_, ?_, ?_, ?_, ?_, ?_, ?_, ?_, ?_, ?_, ?_⟩ <;> (try simp) <;> repeat' (first | intro _ | (split <;> try simp))

end Sys2Proof.Machine
end

