-- ==== Sys2Proof/Laws/FrameLinkRows.lean ====
section
/-! SUPPORT. What the operations of Machine/LinkRows.lean leave unchanged: one lemma each, the fields of the state it does not touch. -/

namespace Sys2Proof.Machine

@[simp] theorem State.enterOneLane_frame (s : State) (b : BayId) (p : Pu) (ph : PhysLane) :
    (s.enterOneLane b p ph).pending = s.pending ∧ (s.enterOneLane b p ph).flash = s.flash ∧
    (s.enterOneLane b p ph).trust = s.trust ∧ (s.enterOneLane b p ph).blk = s.blk ∧ (s.enterOneLane b p ph).isl = s.isl ∧
    (s.enterOneLane b p ph).mem.ddr = s.mem.ddr := by
  unfold State.enterOneLane
  refine ⟨?_, ?_, ?_, ?_, ?_, ?_⟩ <;> (try simp) <;> repeat' (first | intro _ | (split <;> try simp))

@[simp] theorem State.spareTakeover_frame (s : State) (b : BayId) (p : Pu) (bad : PhysLane) :
    (s.spareTakeover b p bad).pending = s.pending ∧ (s.spareTakeover b p bad).ham = s.ham ∧
    (s.spareTakeover b p bad).mem = s.mem ∧ (s.spareTakeover b p bad).flash = s.flash ∧ (s.spareTakeover b p bad).cfg = s.cfg ∧
    (s.spareTakeover b p bad).trust = s.trust ∧ (s.spareTakeover b p bad).blk = s.blk ∧ (s.spareTakeover b p bad).isl = s.isl := by
  unfold State.spareTakeover
  refine ⟨?_, ?_, ?_, ?_, ?_, ?_, ?_, ?_⟩ <;> (try simp) <;> repeat' (first | intro _ | (split <;> try simp))

@[simp] theorem State.identifyGo_frame (s : State) (b : BayId) (p : Pu) :
    (s.identifyGo b p).pending = s.pending ∧ (s.identifyGo b p).ham = s.ham ∧ (s.identifyGo b p).mem = s.mem ∧
    (s.identifyGo b p).flash = s.flash ∧ (s.identifyGo b p).cfg = s.cfg ∧ (s.identifyGo b p).trust = s.trust ∧
    (s.identifyGo b p).blk = s.blk ∧ (s.identifyGo b p).isl = s.isl := by
  unfold State.identifyGo
  refine ⟨?_, ?_, ?_, ?_, ?_, ?_, ?_, ?_⟩ <;> (try simp) <;> repeat' (first | intro _ | (split <;> try simp))

@[simp] theorem State.lateLane_frame (s : State) (b : BayId) (p : Pu) (ph : PhysLane) :
    (s.lateLane b p ph).pending = s.pending ∧ (s.lateLane b p ph).ham = s.ham ∧ (s.lateLane b p ph).mem = s.mem ∧
    (s.lateLane b p ph).flash = s.flash ∧ (s.lateLane b p ph).cfg = s.cfg ∧ (s.lateLane b p ph).trust = s.trust ∧
    (s.lateLane b p ph).blk = s.blk ∧ (s.lateLane b p ph).isl = s.isl := by
  unfold State.lateLane
  refine ⟨?_, ?_, ?_, ?_, ?_, ?_, ?_, ?_⟩ <;> (try simp) <;> repeat' (first | intro _ | (split <;> try simp))

@[simp] theorem State.attemptFails_frame (s : State) (b : BayId) (p : Pu) :
    (s.attemptFails b p).pending = s.pending ∧ (s.attemptFails b p).ham = s.ham ∧ (s.attemptFails b p).mem = s.mem ∧
    (s.attemptFails b p).flash = s.flash ∧ (s.attemptFails b p).trust = s.trust ∧ (s.attemptFails b p).blk = s.blk ∧
    (s.attemptFails b p).isl = s.isl := by
  unfold State.attemptFails
  refine ⟨?_, ?_, ?_, ?_, ?_, ?_, ?_⟩ <;> (try simp) <;> repeat' (first | intro _ | (split <;> try simp))

@[simp] theorem State.freeSpareRx_frame (s : State) (b : BayId) (p : Pu) :
    (s.freeSpareRx b p).pending = s.pending ∧ (s.freeSpareRx b p).out = s.out ∧ (s.freeSpareRx b p).free = s.free ∧
    (s.freeSpareRx b p).host = s.host ∧ (s.freeSpareRx b p).ev = s.ev ∧ (s.freeSpareRx b p).ham = s.ham ∧
    (s.freeSpareRx b p).mem = s.mem ∧ (s.freeSpareRx b p).flash = s.flash ∧ (s.freeSpareRx b p).cfg = s.cfg ∧
    (s.freeSpareRx b p).trust = s.trust ∧ (s.freeSpareRx b p).blk = s.blk ∧ (s.freeSpareRx b p).isl = s.isl ∧
    (s.freeSpareRx b p).inj = s.inj ∧ (s.freeSpareRx b p).chip = s.chip := by
  unfold State.freeSpareRx
  refine ⟨?_, ?_, ?_, ?_, ?_, ?_, ?_, ?_, ?_, ?_, ?_, ?_, ?_, ?_⟩ <;> (try simp) <;> repeat' (first | intro _ | (split <;> try simp))

@[simp] theorem State.startWithSpare_frame (s : State) (b : BayId) (p : Pu) (late : PhysLane) :
    (s.startWithSpare b p late).pending = s.pending ∧ (s.startWithSpare b p late).ham = s.ham ∧
    (s.startWithSpare b p late).mem = s.mem ∧ (s.startWithSpare b p late).flash = s.flash ∧
    (s.startWithSpare b p late).cfg = s.cfg ∧ (s.startWithSpare b p late).trust = s.trust ∧
    (s.startWithSpare b p late).blk = s.blk ∧ (s.startWithSpare b p late).isl = s.isl := by
  unfold State.startWithSpare
  refine ⟨?_, ?_, ?_, ?_, ?_, ?_, ?_, ?_⟩ <;> (try simp) <;> repeat' (first | intro _ | (split <;> try simp))

@[simp] theorem State.takeStandby_frame (s : State) (b : BayId) (p : Pu) :
    (s.takeStandby b p).pending = s.pending ∧ (s.takeStandby b p).ham = s.ham ∧ (s.takeStandby b p).mem = s.mem ∧
    (s.takeStandby b p).flash = s.flash ∧ (s.takeStandby b p).cfg = s.cfg ∧ (s.takeStandby b p).trust = s.trust ∧
    (s.takeStandby b p).blk = s.blk ∧ (s.takeStandby b p).isl = s.isl := by
  unfold State.takeStandby
  refine ⟨?_, ?_, ?_, ?_, ?_, ?_, ?_, ?_⟩ <;> (try simp) <;> repeat' (first | intro _ | (split <;> try simp))

@[simp] theorem State.startOneLane_frame (s : State) (b : BayId) (p : Pu) (t0 t1 ts : Bool) :
    (s.startOneLane b p t0 t1 ts).pending = s.pending ∧ (s.startOneLane b p t0 t1 ts).flash = s.flash ∧
    (s.startOneLane b p t0 t1 ts).trust = s.trust ∧ (s.startOneLane b p t0 t1 ts).blk = s.blk ∧
    (s.startOneLane b p t0 t1 ts).isl = s.isl ∧ (s.startOneLane b p t0 t1 ts).mem.ddr = s.mem.ddr := by
  unfold State.startOneLane
  refine ⟨?_, ?_, ?_, ?_, ?_, ?_⟩ <;> (try simp) <;> repeat' (first | intro _ | (split <;> try simp))

@[simp] theorem State.leaveUpTrain_frame (s : State) (b : BayId) (p : Pu) :
    (s.leaveUpTrain b p).pending = s.pending ∧ (s.leaveUpTrain b p).flash = s.flash ∧ (s.leaveUpTrain b p).trust = s.trust ∧
    (s.leaveUpTrain b p).blk = s.blk ∧ (s.leaveUpTrain b p).isl = s.isl ∧ (s.leaveUpTrain b p).mem.ddr = s.mem.ddr := by
  unfold State.leaveUpTrain
  refine ⟨?_, ?_, ?_, ?_, ?_, ?_⟩ <;> (try simp) <;> repeat' (first | intro _ | (split <;> try simp))

@[simp] theorem State.ctrlFail_frame (s : State) (b : BayId) (p : Pu) :
    (s.ctrlFail b p).pending = s.pending ∧ (s.ctrlFail b p).flash = s.flash ∧ (s.ctrlFail b p).trust = s.trust ∧
    (s.ctrlFail b p).blk = s.blk ∧ (s.ctrlFail b p).isl = s.isl ∧ (s.ctrlFail b p).mem.ddr = s.mem.ddr := by
  unfold State.ctrlFail
  refine ⟨?_, ?_, ?_, ?_, ?_, ?_⟩ <;> (try simp) <;> repeat' (first | intro _ | (split <;> try simp))

theorem execHlinkReplyFrame_frame (b : BayId) (p : Pu) (l : PhysLane) (raw : Bytes) (s : State) (t : State)
    (h : execHlinkReplyFrame b p l raw s = .next t) :
    t.pending = s.pending ∧ t.mem = s.mem ∧ t.flash = s.flash ∧ t.cfg = s.cfg ∧ t.trust = s.trust ∧ t.blk = s.blk ∧
    t.isl = s.isl := by
  unfold execHlinkReplyFrame at h
  replace h := (withBay_next h).2
  subst h
  refine ⟨?_, ?_, ?_, ?_, ?_, ?_, ?_⟩ <;> (try simp) <;> repeat' (first | intro _ | (split <;> try simp) | ((first | rw [State.foldl_pending] | rw [State.foldl2_pending] | rw [State.foldl_mem] | rw [State.foldl2_mem] | rw [State.foldl_flash] | rw [State.foldl2_flash] | rw [State.foldl_cfg] | rw [State.foldl2_cfg] | rw [State.foldl_trust] | rw [State.foldl2_trust] | rw [State.foldl_blk] | rw [State.foldl2_blk] | rw [State.foldl_isl] | rw [State.foldl2_isl]) <;> intros <;> try simp))

theorem execCtrlReplyTimeout_frame (b : BayId) (p : Pu) (ctag : BitVec 8) (s : State) (t : State)
    (h : execCtrlReplyTimeout b p ctag s = .next t) :
    t.pending = s.pending ∧ t.flash = s.flash ∧ t.trust = s.trust ∧ t.blk = s.blk ∧ t.isl = s.isl ∧ t.mem.ddr = s.mem.ddr := by
  unfold execCtrlReplyTimeout at h
  replace h := (withBay_next h).2
  subst h
  refine ⟨?_, ?_, ?_, ?_, ?_, ?_⟩ <;> (try simp) <;> repeat' (first | intro _ | (split <;> try simp))

@[simp] theorem State.takeSpareRx_frame (s : State) (b : BayId) (p : Pu) (l : PhysLane) :
    (s.takeSpareRx b p l).pending = s.pending ∧ (s.takeSpareRx b p l).out = s.out ∧ (s.takeSpareRx b p l).free = s.free ∧
    (s.takeSpareRx b p l).host = s.host ∧ (s.takeSpareRx b p l).ev = s.ev ∧ (s.takeSpareRx b p l).ham = s.ham ∧
    (s.takeSpareRx b p l).mem = s.mem ∧ (s.takeSpareRx b p l).flash = s.flash ∧ (s.takeSpareRx b p l).cfg = s.cfg ∧
    (s.takeSpareRx b p l).trust = s.trust ∧ (s.takeSpareRx b p l).blk = s.blk ∧ (s.takeSpareRx b p l).isl = s.isl ∧
    (s.takeSpareRx b p l).inj = s.inj ∧ (s.takeSpareRx b p l).chip = s.chip := by
  unfold State.takeSpareRx
  refine ⟨?_, ?_, ?_, ?_, ?_, ?_, ?_, ?_, ?_, ?_, ?_, ?_, ?_, ?_⟩ <;> (try simp) <;> repeat' (first | intro _ | (split <;> try simp))

theorem execHlinkTrainFrame_frame (b : BayId) (p : Pu) (l : PhysLane) (raw : Bytes) (s : State) (t : State)
    (h : execHlinkTrainFrame b p l raw s = .next t) :
    t.pending = s.pending ∧ t.flash = s.flash ∧ t.trust = s.trust ∧ t.blk = s.blk ∧ t.isl = s.isl ∧ t.mem.ddr = s.mem.ddr := by
  unfold execHlinkTrainFrame at h
  replace h := (withBay_next h).2
  subst h
  refine ⟨?_, ?_, ?_, ?_, ?_, ?_⟩ <;> (try simp) <;> repeat' (first | intro _ | (split <;> try simp) | ((first | rw [State.foldl_pending] | rw [State.foldl2_pending] | rw [State.foldl_flash] | rw [State.foldl2_flash] | rw [State.foldl_trust] | rw [State.foldl2_trust] | rw [State.foldl_blk] | rw [State.foldl2_blk] | rw [State.foldl_isl] | rw [State.foldl2_isl] | rw [State.foldl_mem_ddr] | rw [State.foldl2_mem_ddr]) <;> intros <;> try simp))

theorem execHlinkTrainTimeout_frame (b : BayId) (p : Pu) (s : State) (t : State)
    (h : execHlinkTrainTimeout b p s = .next t) :
    t.pending = s.pending ∧ t.mem = s.mem ∧ t.flash = s.flash ∧ t.trust = s.trust ∧ t.blk = s.blk ∧ t.isl = s.isl := by
  unfold execHlinkTrainTimeout at h
  replace h := (withBay_next h).2
  subst h
  refine ⟨?_, ?_, ?_, ?_, ?_, ?_⟩ <;> (try simp) <;> repeat' (first | intro _ | (split <;> try simp))

theorem execUpTrainLimit_frame (b : BayId) (p : Pu) (s : State) (t : State)
    (h : execUpTrainLimit b p s = .next t) :
    t.pending = s.pending ∧ t.flash = s.flash ∧ t.trust = s.trust ∧ t.blk = s.blk ∧ t.isl = s.isl ∧ t.mem.ddr = s.mem.ddr := by
  unfold execUpTrainLimit at h
  replace h := (withBay_next h).2
  subst h
  refine ⟨?_, ?_, ?_, ?_, ?_, ?_⟩ <;> (try simp) <;> repeat' (first | intro _ | (split <;> try simp))

theorem execHlinkTrainRetry_frame (b : BayId) (p : Pu) (s : State) (t : State)
    (h : execHlinkTrainRetry b p s = .next t) :
    t.pending = s.pending ∧ t.mem = s.mem ∧ t.flash = s.flash ∧ t.trust = s.trust ∧ t.blk = s.blk ∧ t.isl = s.isl := by
  unfold execHlinkTrainRetry at h
  replace h := (withBay_next h).2
  subst h
  refine ⟨?_, ?_, ?_, ?_, ?_, ?_⟩ <;> (try simp) <;> repeat' (first | intro _ | (split <;> try simp))

@[simp] theorem State.mapBack_frame (s : State) (b : BayId) (p : Pu) (m : PhysLane × PhysLane) :
    (s.mapBack b p m).pending = s.pending ∧ (s.mapBack b p m).ham = s.ham ∧ (s.mapBack b p m).mem = s.mem ∧
    (s.mapBack b p m).flash = s.flash ∧ (s.mapBack b p m).trust = s.trust ∧ (s.mapBack b p m).blk = s.blk ∧
    (s.mapBack b p m).isl = s.isl := by
  unfold State.mapBack
  refine ⟨?_, ?_, ?_, ?_, ?_, ?_, ?_⟩ <;> (try simp) <;> repeat' (first | intro _ | (split <;> try simp))

theorem execLaneRetrainStart_frame (b : BayId) (p : Pu) (l : PhysLane) (s : State) (t : State)
    (h : execLaneRetrainStart b p l s = .next t) :
    t.pending = s.pending ∧ t.flash = s.flash ∧ t.trust = s.trust ∧ t.blk = s.blk ∧ t.isl = s.isl ∧ t.mem.ddr = s.mem.ddr := by
  unfold execLaneRetrainStart at h
  replace h := (withBay_next h).2
  subst h
  refine ⟨?_, ?_, ?_, ?_, ?_, ?_⟩ <;> (try simp) <;> repeat' (first | intro _ | (split <;> try simp))

theorem execSpareTrainDone_frame (b : BayId) (p : Pu) (ok : Bool) (s : State) (t : State)
    (h : execSpareTrainDone b p ok s = .next t) :
    t.pending = s.pending ∧ t.mem = s.mem ∧ t.flash = s.flash ∧ t.trust = s.trust ∧ t.blk = s.blk ∧ t.isl = s.isl := by
  unfold execSpareTrainDone at h
  replace h := (withBay_next h).2
  subst h
  refine ⟨?_, ?_, ?_, ?_, ?_, ?_⟩ <;> (try simp) <;> repeat' (first | intro _ | (split <;> try simp))

theorem execLaneTrainResult_frame (b : BayId) (p : Pu) (l : PhysLane) (ok : Bool) (s : State) (t : State)
    (h : execLaneTrainResult b p l ok s = .next t) :
    t.pending = s.pending ∧ t.mem = s.mem ∧ t.flash = s.flash ∧ t.trust = s.trust ∧ t.blk = s.blk ∧ t.isl = s.isl := by
  unfold execLaneTrainResult at h
  replace h := (withBay_next h).2
  subst h
  refine ⟨?_, ?_, ?_, ?_, ?_, ?_⟩ <;> (try simp) <;> repeat' (first | intro _ | (split <;> try simp))

theorem execLaneMapBack_frame (b : BayId) (p : Pu) (s : State) (t : State)
    (h : execLaneMapBack b p s = .next t) :
    t.pending = s.pending ∧ t.mem = s.mem ∧ t.flash = s.flash ∧ t.trust = s.trust ∧ t.blk = s.blk ∧ t.isl = s.isl := by
  unfold execLaneMapBack at h
  replace h := (withBay_next h).2
  subst h
  refine ⟨?_, ?_, ?_, ?_, ?_, ?_⟩ <;> (try simp) <;> repeat' (first | intro _ | (split <;> try simp))

theorem execLaneRetrainLimit_frame (b : BayId) (p : Pu) (s : State) (t : State)
    (h : execLaneRetrainLimit b p s = .next t) :
    t.pending = s.pending ∧ t.flash = s.flash ∧ t.trust = s.trust ∧ t.blk = s.blk ∧ t.isl = s.isl ∧ t.mem.ddr = s.mem.ddr := by
  unfold execLaneRetrainLimit at h
  replace h := (withBay_next h).2
  subst h
  refine ⟨?_, ?_, ?_, ?_, ?_, ?_⟩ <;> (try simp) <;> repeat' (first | intro _ | (split <;> try simp))

theorem execDnLost_frame (b : BayId) (p : Pu) (s : State) (t : State)
    (h : execDnLost b p s = .next t) :
    t.pending = s.pending ∧ t.flash = s.flash ∧ t.trust = s.trust ∧ t.blk = s.blk ∧ t.isl = s.isl ∧ t.mem.ddr = s.mem.ddr := by
  unfold execDnLost at h
  replace h := (withBay_next h).2
  subst h
  refine ⟨?_, ?_, ?_, ?_, ?_, ?_⟩ <;> (try simp) <;> repeat' (first | intro _ | (split <;> try simp))

theorem execSpareStandbyApply_frame (b : BayId) (s : State) (t : State)
    (h : execSpareStandbyApply b s = .next t) :
    t.pending = s.pending ∧ t.mem = s.mem ∧ t.flash = s.flash ∧ t.trust = s.trust ∧ t.blk = s.blk ∧ t.isl = s.isl := by
  unfold execSpareStandbyApply at h
  replace h := (withBay_next h).2
  subst h
  refine ⟨?_, ?_, ?_, ?_, ?_, ?_⟩ <;> (try simp) <;> repeat' (first | intro _ | (split <;> try simp))

end Sys2Proof.Machine
end

