-- ==== Sys2Proof/Laws/Bays.lean ====
section
/-! SUPPORT. What the operations that touch no bay, or nothing of the island, leave: every bay, every pickup, every bay of the island. -/

namespace Sys2Proof.Machine

@[simp] theorem State.flagDone_bay (s : State) (c : Cmd) (i : Nat) (c0 : BayId) : (s.flagDone c i).bay c0 = s.bay c0 := by unfold State.bay; simp

@[simp] theorem State.flagDone_pu (s : State) (c : Cmd) (i : Nat) (c0 : BayId) (q : Pu) : (s.flagDone c i).pu c0 q = s.pu c0 q := by unfold State.pu; simp

@[simp] theorem State.flagDone_safeBay (s : State) (c : Cmd) (i : Nat) (c0 : BayId) : (s.flagDone c i).safeBay c0 = s.safeBay c0 := by unfold State.safeBay; simp

@[simp] theorem State.blow_bay (s : State) (c : Cmd) (fu : Fuses) (c0 : BayId) : (s.blow c fu).bay c0 = s.bay c0 := by unfold State.bay; simp

@[simp] theorem State.blow_pu (s : State) (c : Cmd) (fu : Fuses) (c0 : BayId) (q : Pu) : (s.blow c fu).pu c0 q = s.pu c0 q := by unfold State.pu; simp

@[simp] theorem State.blow_safeBay (s : State) (c : Cmd) (fu : Fuses) (c0 : BayId) : (s.blow c fu).safeBay c0 = s.safeBay c0 := by unfold State.safeBay; simp

@[simp] theorem State.doeResume_bay (s : State) (c : BayId) : (s.doeResume).bay c = s.bay c := by unfold State.bay; simp

@[simp] theorem State.doeResume_pu (s : State) (c : BayId) (q : Pu) : (s.doeResume).pu c q = s.pu c q := by unfold State.pu; simp

@[simp] theorem State.doeResume_safeBay (s : State) (c : BayId) : (s.doeResume).safeBay c = s.safeBay c := by unfold State.safeBay; simp

@[simp] theorem State.stageNext_bay (s : State) (order : Nat) (c : BayId) : (s.stageNext order).bay c = s.bay c := by unfold State.bay; simp

@[simp] theorem State.stageNext_pu (s : State) (order : Nat) (c : BayId) (q : Pu) : (s.stageNext order).pu c q = s.pu c q := by unfold State.pu; simp

@[simp] theorem State.stageNext_safeBay (s : State) (order : Nat) (c : BayId) : (s.stageNext order).safeBay c = s.safeBay c := by unfold State.safeBay; simp

@[simp] theorem State.flashJob_bay (s : State) (j : FlashJob) (c : BayId) : (s.flashJob j).bay c = s.bay c := by unfold State.bay; simp

@[simp] theorem State.flashJob_pu (s : State) (j : FlashJob) (c : BayId) (q : Pu) : (s.flashJob j).pu c q = s.pu c q := by unfold State.pu; simp

@[simp] theorem State.flashJob_safeBay (s : State) (j : FlashJob) (c : BayId) : (s.flashJob j).safeBay c = s.safeBay c := by unfold State.safeBay; simp

@[simp] theorem State.slotInvalid_bay (s : State) (target : Nat) (c : BayId) : (s.slotInvalid target).bay c = s.bay c := by unfold State.bay; simp

@[simp] theorem State.slotInvalid_pu (s : State) (target : Nat) (c : BayId) (q : Pu) : (s.slotInvalid target).pu c q = s.pu c q := by unfold State.pu; simp

@[simp] theorem State.slotInvalid_safeBay (s : State) (target : Nat) (c : BayId) : (s.slotInvalid target).safeBay c = s.safeBay c := by unfold State.safeBay; simp

@[simp] theorem State.slotGood_bay (s : State) (target : Nat) (c : BayId) : (s.slotGood target).bay c = s.bay c := by unfold State.bay; simp

@[simp] theorem State.slotGood_pu (s : State) (target : Nat) (c : BayId) (q : Pu) : (s.slotGood target).pu c q = s.pu c q := by unfold State.pu; simp

@[simp] theorem State.slotGood_safeBay (s : State) (target : Nat) (c : BayId) : (s.slotGood target).safeBay c = s.safeBay c := by unfold State.safeBay; simp

@[simp] theorem State.drainStart_bay (s : State) (c : Cmd) (mode : Nat) (c0 : BayId) : (s.drainStart c mode).bay c0 = s.bay c0 := by unfold State.bay; simp

@[simp] theorem State.drainStart_pu (s : State) (c : Cmd) (mode : Nat) (c0 : BayId) (q : Pu) : (s.drainStart c mode).pu c0 q = s.pu c0 q := by unfold State.pu; simp

@[simp] theorem State.drainStart_safeBay (s : State) (c : Cmd) (mode : Nat) (c0 : BayId) : (s.drainStart c mode).safeBay c0 = s.safeBay c0 := by unfold State.safeBay; simp

@[simp] theorem State.actEnd_safeBay (s : State) (order : Nat) (st : Status) (c : BayId) : (s.actEnd order st).safeBay c = s.safeBay c := by unfold State.safeBay; simp

@[simp] theorem State.setBlk_bay (s : State) (b : Blk) (c : BayId) : (s.setBlk b).bay c = s.bay c := by unfold State.bay; simp

@[simp] theorem State.setBlk_pu (s : State) (b : Blk) (c : BayId) (q : Pu) : (s.setBlk b).pu c q = s.pu c q := by unfold State.pu; simp

@[simp] theorem State.setBlk_safeBay (s : State) (b : Blk) (c : BayId) : (s.setBlk b).safeBay c = s.safeBay c := by unfold State.safeBay; simp

@[simp] theorem State.regionEvent_bay (s : State) (r src : Nat) (e : Ev) (p0 p1 p2 : Nat) (c : BayId) : (s.regionEvent r src e p0 p1 p2).bay c = s.bay c := by unfold State.bay; simp

@[simp] theorem State.regionEvent_pu (s : State) (r src : Nat) (e : Ev) (p0 p1 p2 : Nat) (c : BayId) (q : Pu) : (s.regionEvent r src e p0 p1 p2).pu c q = s.pu c q := by unfold State.pu; simp

@[simp] theorem State.regionEvent_safeBay (s : State) (r src : Nat) (e : Ev) (p0 p1 p2 : Nat) (c : BayId) : (s.regionEvent r src e p0 p1 p2).safeBay c = s.safeBay c := by unfold State.safeBay; simp

@[simp] theorem State.fence_bay (s : State) (id : BlockId) (c : BayId) : (s.fence id).bay c = s.bay c := by unfold State.bay; simp

@[simp] theorem State.fence_pu (s : State) (id : BlockId) (c : BayId) (q : Pu) : (s.fence id).pu c q = s.pu c q := by unfold State.pu; simp

@[simp] theorem State.fence_safeBay (s : State) (id : BlockId) (c : BayId) : (s.fence id).safeBay c = s.safeBay c := by unfold State.safeBay; simp

@[simp] theorem State.degrade_bay (s : State) (r : Nat) (c : BayId) : (s.degrade r).bay c = s.bay c := by unfold State.bay; simp

@[simp] theorem State.degrade_pu (s : State) (r : Nat) (c : BayId) (q : Pu) : (s.degrade r).pu c q = s.pu c q := by unfold State.pu; simp

@[simp] theorem State.degrade_safeBay (s : State) (r : Nat) (c : BayId) : (s.degrade r).safeBay c = s.safeBay c := by unfold State.safeBay; simp

@[simp] theorem State.claimSpare_bay (s : State) (id : BlockId) (c : BayId) : (s.claimSpare id).2.bay c = s.bay c := by unfold State.bay; simp

@[simp] theorem State.claimSpare_pu (s : State) (id : BlockId) (c : BayId) (q : Pu) : (s.claimSpare id).2.pu c q = s.pu c q := by unfold State.pu; simp

@[simp] theorem State.claimSpare_safeBay (s : State) (id : BlockId) (c : BayId) : (s.claimSpare id).2.safeBay c = s.safeBay c := by unfold State.safeBay; simp

@[simp] theorem State.askHold_bay (s : State) (b : BayId) (c : BayId) : (s.askHold b).bay c = s.bay c := by unfold State.bay; simp

@[simp] theorem State.askHold_pu (s : State) (b : BayId) (c : BayId) (q : Pu) : (s.askHold b).pu c q = s.pu c q := by unfold State.pu; simp

@[simp] theorem State.askHold_safeBay (s : State) (b : BayId) (c : BayId) : (s.askHold b).safeBay c = s.safeBay c := by unfold State.safeBay; simp

@[simp] theorem State.bufBoundary_bay (s : State) (c : BayId) : (s.bufBoundary).bay c = s.bay c := by unfold State.bay; simp

@[simp] theorem State.bufBoundary_pu (s : State) (c : BayId) (q : Pu) : (s.bufBoundary).pu c q = s.pu c q := by unfold State.pu; simp

@[simp] theorem State.bufBoundary_safeBay (s : State) (c : BayId) : (s.bufBoundary).safeBay c = s.safeBay c := by unfold State.safeBay; simp

@[simp] theorem State.bufWaitEvent_bay (s : State) (n : Nat) (c : BayId) : (s.bufWaitEvent n).bay c = s.bay c := by unfold State.bay; simp

@[simp] theorem State.bufWaitEvent_pu (s : State) (n : Nat) (c : BayId) (q : Pu) : (s.bufWaitEvent n).pu c q = s.pu c q := by unfold State.pu; simp

@[simp] theorem State.bufWaitEvent_safeBay (s : State) (n : Nat) (c : BayId) : (s.bufWaitEvent n).safeBay c = s.safeBay c := by unfold State.safeBay; simp

@[simp] theorem State.drawBufs_bay (s : State) (n count req : Nat) (c : BayId) : (s.drawBufs n count req).bay c = s.bay c := by unfold State.bay; simp

@[simp] theorem State.drawBufs_pu (s : State) (n count req : Nat) (c : BayId) (q : Pu) : (s.drawBufs n count req).pu c q = s.pu c q := by unfold State.pu; simp

@[simp] theorem State.drawBufs_safeBay (s : State) (n count req : Nat) (c : BayId) : (s.drawBufs n count req).safeBay c = s.safeBay c := by unfold State.safeBay; simp

@[simp] theorem State.returnBufs_bay (s : State) (hs : List Nat) (c : BayId) : (s.returnBufs hs).bay c = s.bay c := by unfold State.bay; simp

@[simp] theorem State.returnBufs_pu (s : State) (hs : List Nat) (c : BayId) (q : Pu) : (s.returnBufs hs).pu c q = s.pu c q := by unfold State.pu; simp

@[simp] theorem State.returnBufs_safeBay (s : State) (hs : List Nat) (c : BayId) : (s.returnBufs hs).safeBay c = s.safeBay c := by unfold State.safeBay; simp

@[simp] theorem State.dropRequester_bay (s : State) (req : Nat) (c : BayId) : (s.dropRequester req).bay c = s.bay c := by unfold State.bay; simp

@[simp] theorem State.dropRequester_pu (s : State) (req : Nat) (c : BayId) (q : Pu) : (s.dropRequester req).pu c q = s.pu c q := by unfold State.pu; simp

@[simp] theorem State.dropRequester_safeBay (s : State) (req : Nat) (c : BayId) : (s.dropRequester req).safeBay c = s.safeBay c := by unfold State.safeBay; simp

@[simp] theorem State.fillBuf_bay (s : State) (h : Nat) (blocks : List Bytes) (c : BayId) : (s.fillBuf h blocks).bay c = s.bay c := by unfold State.bay; simp

@[simp] theorem State.fillBuf_pu (s : State) (h : Nat) (blocks : List Bytes) (c : BayId) (q : Pu) : (s.fillBuf h blocks).pu c q = s.pu c q := by unfold State.pu; simp

@[simp] theorem State.fillBuf_safeBay (s : State) (h : Nat) (blocks : List Bytes) (c : BayId) : (s.fillBuf h blocks).safeBay c = s.safeBay c := by unfold State.safeBay; simp

@[simp] theorem State.remap_bay (s : State) (p : Partition) (ch addr : Nat) (c : BayId) : (s.remap p ch addr).bay c = s.bay c := by unfold State.bay; simp

@[simp] theorem State.remap_pu (s : State) (p : Partition) (ch addr : Nat) (c : BayId) (q : Pu) : (s.remap p ch addr).pu c q = s.pu c q := by unfold State.pu; simp

@[simp] theorem State.remap_safeBay (s : State) (p : Partition) (ch addr : Nat) (c : BayId) : (s.remap p ch addr).safeBay c = s.safeBay c := by unfold State.safeBay; simp

@[simp] theorem State.corrected_bay (s : State) (p : Partition) (ch addr : Nat) (c : BayId) : (s.corrected p ch addr).bay c = s.bay c := by unfold State.bay; simp

@[simp] theorem State.corrected_pu (s : State) (p : Partition) (ch addr : Nat) (c : BayId) (q : Pu) : (s.corrected p ch addr).pu c q = s.pu c q := by unfold State.pu; simp

@[simp] theorem State.corrected_safeBay (s : State) (p : Partition) (ch addr : Nat) (c : BayId) : (s.corrected p ch addr).safeBay c = s.safeBay c := by unfold State.safeBay; simp

@[simp] theorem State.loadCal_safeBay (s : State) (b : BayId) (p : Pu) (c : BayId) : (s.loadCal b p).safeBay c = s.safeBay c := by unfold State.safeBay; simp

@[simp] theorem State.loadDiscCal_safeBay (s : State) (b : BayId) (p : Pu) (disc : Bytes) (c : BayId) : (s.loadDiscCal b p disc).safeBay c = s.safeBay c := by unfold State.safeBay; simp

@[simp] theorem State.loadBayCal_safeBay (s : State) (b : BayId) (c : BayId) : (s.loadBayCal b).safeBay c = s.safeBay c := by unfold State.safeBay; simp

@[simp] theorem State.setGrade_safeBay (s : State) (b : BayId) (p : Pu) (i : Nat) (g : Grade) (c : BayId) : (s.setGrade b p i g).safeBay c = s.safeBay c := by unfold State.safeBay; simp

@[simp] theorem State.servoRetire_safeBay (s : State) (b : BayId) (p : Pu) (c : BayId) : (s.servoRetire b p).safeBay c = s.safeBay c := by unfold State.safeBay; simp

@[simp] theorem State.elementFaulty_safeBay (s : State) (b : BayId) (p : Pu) (i : Nat) (c : BayId) : (s.elementFaulty b p i).safeBay c = s.safeBay c := by unfold State.safeBay; simp

@[simp] theorem State.gradeWear_safeBay (s : State) (b : BayId) (p : Pu) (i : Nat) (c : BayId) : (s.gradeWear b p i).safeBay c = s.safeBay c := by unfold State.safeBay; simp

@[simp] theorem State.powerCalRun_safeBay (s : State) (b : BayId) (p : Pu) (c : BayId) : (s.powerCalRun b p).safeBay c = s.safeBay c := by unfold State.safeBay; simp

@[simp] theorem State.calFails_safeBay (s : State) (b : BayId) (p : Pu) (q : CalPend) (unit : Nat) (limits : Bool) (c : BayId) : (s.calFails b p q unit limits).safeBay c = s.safeBay c := by unfold State.safeBay; simp

@[simp] theorem State.acceptElement_safeBay (s : State) (b : BayId) (p : Pu) (item i : Nat) (r : List Int) (c : BayId) : (s.acceptElement b p item i r).safeBay c = s.safeBay c := by unfold State.safeBay; simp

@[simp] theorem State.acceptTwin_safeBay (s : State) (b : BayId) (p : Pu) (sp : Nat) (r : List Int) (c : BayId) : (s.acceptTwin b p sp r).safeBay c = s.safeBay c := by unfold State.safeBay; simp

@[simp] theorem State.calAccept_safeBay (s : State) (b : BayId) (p : Pu) (item unit : Nat) (r : List Int) (c : BayId) : (s.calAccept b p item unit r).safeBay c = s.safeBay c := by unfold State.safeBay; simp

@[simp] theorem State.calConclude_safeBay (s : State) (b : BayId) (p : Pu) (c : BayId) : (s.calConclude b p).safeBay c = s.safeBay c := by unfold State.safeBay; simp

@[simp] theorem State.liftElements_safeBay (s : State) (b : BayId) (p : Pu) (id : Nat) (sp : Nat) (c : BayId) : (s.liftElements b p id sp).safeBay c = s.safeBay c := by unfold State.safeBay; simp

@[simp] theorem State.refreshReady_safeBay (s : State) (b : BayId) (c : BayId) : (s.refreshReady b).safeBay c = s.safeBay c := by unfold State.safeBay; simp

@[simp] theorem State.after_safeBay (s : State) (b : BayId) (c : BayId) : (s.after b).safeBay c = s.safeBay c := by unfold State.safeBay; simp

@[simp] theorem State.chipFatal_bay (s : State) (cause : FatalCause) (kind inst : Nat) (c : BayId) : (s.chipFatal cause kind inst).bay c = s.bay c := by unfold State.bay; simp

@[simp] theorem State.chipFatal_pu (s : State) (cause : FatalCause) (kind inst : Nat) (c : BayId) (q : Pu) : (s.chipFatal cause kind inst).pu c q = s.pu c q := by unfold State.pu; simp

@[simp] theorem State.releaseSource_bay (s : State) (src : Nat) (c : BayId) : (s.releaseSource src).bay c = s.bay c := by unfold State.bay; simp

@[simp] theorem State.releaseSource_pu (s : State) (src : Nat) (c : BayId) (q : Pu) : (s.releaseSource src).pu c q = s.pu c q := by unfold State.pu; simp

@[simp] theorem State.releaseSource_safeBay (s : State) (src : Nat) (c : BayId) : (s.releaseSource src).safeBay c = s.safeBay c := by unfold State.safeBay; simp

@[simp] theorem State.assertCore_safeBay (s : State) (bit : Nat) (c : BayId) : (s.assertCore bit).safeBay c = s.safeBay c := by unfold State.safeBay; simp

@[simp] theorem State.coreFate_bay (s : State) (c : Cmd) (c0 : BayId) : (s.coreFate c).bay c0 = s.bay c0 := by unfold State.bay; simp

@[simp] theorem State.coreFate_pu (s : State) (c : Cmd) (c0 : BayId) (q : Pu) : (s.coreFate c).pu c0 q = s.pu c0 q := by unfold State.pu; simp

@[simp] theorem State.coreFate_safeBay (s : State) (c : Cmd) (c0 : BayId) : (s.coreFate c).safeBay c0 = s.safeBay c0 := by unfold State.safeBay; simp

@[simp] theorem State.postHeld_bay (s : State) (c : BayId) : (s.postHeld).bay c = s.bay c := by unfold State.bay; simp

@[simp] theorem State.postHeld_pu (s : State) (c : BayId) (q : Pu) : (s.postHeld).pu c q = s.pu c q := by unfold State.pu; simp

@[simp] theorem State.postHeld_safeBay (s : State) (c : BayId) : (s.postHeld).safeBay c = s.safeBay c := by unfold State.safeBay; simp

@[simp] theorem State.postEngine_bay (s : State) (q : EvQueue) (c : BayId) : (s.postEngine q).bay c = s.bay c := by unfold State.bay; simp

@[simp] theorem State.postEngine_pu (s : State) (q : EvQueue) (c : BayId) (q0 : Pu) : (s.postEngine q).pu c q0 = s.pu c q0 := by unfold State.pu; simp

@[simp] theorem State.postEngine_safeBay (s : State) (q : EvQueue) (c : BayId) : (s.postEngine q).safeBay c = s.safeBay c := by unfold State.safeBay; simp

@[simp] theorem State.postEngines_bay (s : State) (c : BayId) : (s.postEngines).bay c = s.bay c := by unfold State.bay; simp

@[simp] theorem State.postEngines_pu (s : State) (c : BayId) (q : Pu) : (s.postEngines).pu c q = s.pu c q := by unfold State.pu; simp

@[simp] theorem State.postEngines_safeBay (s : State) (c : BayId) : (s.postEngines).safeBay c = s.safeBay c := by unfold State.safeBay; simp

@[simp] theorem State.coresReturn_safeBay (s : State) (c : BayId) : (s.coresReturn).safeBay c = s.safeBay c := by unfold State.safeBay; simp

@[simp] theorem State.stepDone_bay (s : State) (n : Nat) (c : BayId) : (s.stepDone n).bay c = s.bay c := by unfold State.bay; simp

@[simp] theorem State.stepDone_pu (s : State) (n : Nat) (c : BayId) (q : Pu) : (s.stepDone n).pu c q = s.pu c q := by unfold State.pu; simp

@[simp] theorem State.stepDone_safeBay (s : State) (n : Nat) (c : BayId) : (s.stepDone n).safeBay c = s.safeBay c := by unfold State.safeBay; simp

@[simp] theorem State.stepFails_bay (s : State) (most : Nat) (c : BayId) : (s.stepFails most).bay c = s.bay c := by unfold State.bay; simp

@[simp] theorem State.stepFails_pu (s : State) (most : Nat) (c : BayId) (q : Pu) : (s.stepFails most).pu c q = s.pu c q := by unfold State.pu; simp

@[simp] theorem State.stepFails_safeBay (s : State) (most : Nat) (c : BayId) : (s.stepFails most).safeBay c = s.safeBay c := by unfold State.safeBay; simp

@[simp] theorem State.coresHalt_bay (s : State) (stop : Bool) (c : BayId) : (s.coresHalt stop).bay c = s.bay c := by unfold State.bay; simp

@[simp] theorem State.coresHalt_pu (s : State) (stop : Bool) (c : BayId) (q : Pu) : (s.coresHalt stop).pu c q = s.pu c q := by unfold State.pu; simp

@[simp] theorem State.coresHalt_safeBay (s : State) (stop : Bool) (c : BayId) : (s.coresHalt stop).safeBay c = s.safeBay c := by unfold State.safeBay; simp

@[simp] theorem State.stepFuses_bay (s : State) (ok : Bool) (c : BayId) : (s.stepFuses ok).bay c = s.bay c := by unfold State.bay; simp

@[simp] theorem State.stepFuses_pu (s : State) (ok : Bool) (c : BayId) (q : Pu) : (s.stepFuses ok).pu c q = s.pu c q := by unfold State.pu; simp

@[simp] theorem State.stepFuses_safeBay (s : State) (ok : Bool) (c : BayId) : (s.stepFuses ok).safeBay c = s.safeBay c := by unfold State.safeBay; simp

@[simp] theorem State.stepIsland_bay (s : State) (ok : Bool) (c : BayId) : (s.stepIsland ok).bay c = s.bay c := by unfold State.bay; simp

@[simp] theorem State.stepIsland_pu (s : State) (ok : Bool) (c : BayId) (q : Pu) : (s.stepIsland ok).pu c q = s.pu c q := by unfold State.pu; simp

@[simp] theorem State.stepRoot_bay (s : State) (ok : Bool) (c : BayId) : (s.stepRoot ok).bay c = s.bay c := by unfold State.bay; simp

@[simp] theorem State.stepRoot_pu (s : State) (ok : Bool) (c : BayId) (q : Pu) : (s.stepRoot ok).pu c q = s.pu c q := by unfold State.pu; simp

@[simp] theorem State.stepLoader_bay (s : State) (ok : Bool) (c : BayId) : (s.stepLoader ok).bay c = s.bay c := by unfold State.bay; simp

@[simp] theorem State.stepLoader_pu (s : State) (ok : Bool) (c : BayId) (q : Pu) : (s.stepLoader ok).pu c q = s.pu c q := by unfold State.pu; simp

@[simp] theorem State.stepLoader_safeBay (s : State) (ok : Bool) (c : BayId) : (s.stepLoader ok).safeBay c = s.safeBay c := by unfold State.safeBay; simp

@[simp] theorem State.stepFirmware_bay (s : State) (ok : Bool) (c : BayId) : (s.stepFirmware ok).bay c = s.bay c := by unfold State.bay; simp

@[simp] theorem State.stepFirmware_pu (s : State) (ok : Bool) (c : BayId) (q : Pu) : (s.stepFirmware ok).pu c q = s.pu c q := by unfold State.pu; simp

@[simp] theorem State.stepFirmware_safeBay (s : State) (ok : Bool) (c : BayId) : (s.stepFirmware ok).safeBay c = s.safeBay c := by unfold State.safeBay; simp

@[simp] theorem State.stepImage_bay (s : State) (c : BayId) : (s.stepImage).bay c = s.bay c := by unfold State.bay; simp

@[simp] theorem State.stepImage_pu (s : State) (c : BayId) (q : Pu) : (s.stepImage).pu c q = s.pu c q := by unfold State.pu; simp

@[simp] theorem State.stepHost_bay (s : State) (ok : Bool) (c : BayId) : (s.stepHost ok).bay c = s.bay c := by unfold State.bay; simp

@[simp] theorem State.stepHost_pu (s : State) (ok : Bool) (c : BayId) (q : Pu) : (s.stepHost ok).pu c q = s.pu c q := by unfold State.pu; simp

@[simp] theorem State.stepHost_safeBay (s : State) (ok : Bool) (c : BayId) : (s.stepHost ok).safeBay c = s.safeBay c := by unfold State.safeBay; simp

@[simp] theorem State.updCmd_bay (s : State) (order : Nat) (g : Cmd → Cmd) (c : BayId) : (s.updCmd order g).bay c = s.bay c := by unfold State.bay; simp

@[simp] theorem State.updCmd_pu (s : State) (order : Nat) (g : Cmd → Cmd) (c : BayId) (q : Pu) : (s.updCmd order g).pu c q = s.pu c q := by unfold State.pu; simp

@[simp] theorem State.updCmd_safeBay (s : State) (order : Nat) (g : Cmd → Cmd) (c : BayId) : (s.updCmd order g).safeBay c = s.safeBay c := by unfold State.safeBay; simp

@[simp] theorem State.finish_bay (s : State) (order : Nat) (st : Status) (result : Nat) (c : BayId) : (s.finish order st result).bay c = s.bay c := by unfold State.bay; simp

@[simp] theorem State.finish_pu (s : State) (order : Nat) (st : Status) (result : Nat) (c : BayId) (q : Pu) : (s.finish order st result).pu c q = s.pu c q := by unfold State.pu; simp

@[simp] theorem State.finish_safeBay (s : State) (order : Nat) (st : Status) (result : Nat) (c : BayId) : (s.finish order st result).safeBay c = s.safeBay c := by unfold State.safeBay; simp

@[simp] theorem State.finishApplied_bay (s : State) (order : Nat) (st : Status) (result : Nat) (a : Bool) (c : BayId) : (s.finishApplied order st result a).bay c = s.bay c := by unfold State.bay; simp

@[simp] theorem State.finishApplied_pu (s : State) (order : Nat) (st : Status) (result : Nat) (a : Bool) (c : BayId) (q : Pu) : (s.finishApplied order st result a).pu c q = s.pu c q := by unfold State.pu; simp

@[simp] theorem State.finishApplied_safeBay (s : State) (order : Nat) (st : Status) (result : Nat) (a : Bool) (c : BayId) : (s.finishApplied order st result a).safeBay c = s.safeBay c := by unfold State.safeBay; simp

@[simp] theorem State.start_bay (s : State) (c : Cmd) (c0 : BayId) : (s.start c).bay c0 = s.bay c0 := by unfold State.bay; simp

@[simp] theorem State.start_pu (s : State) (c : Cmd) (c0 : BayId) (q : Pu) : (s.start c).pu c0 q = s.pu c0 q := by unfold State.pu; simp

@[simp] theorem State.start_safeBay (s : State) (c : Cmd) (c0 : BayId) : (s.start c).safeBay c0 = s.safeBay c0 := by unfold State.safeBay; simp

@[simp] theorem State.hold_bay (s : State) (c : Cmd) (c0 : BayId) : (s.hold c).bay c0 = s.bay c0 := by unfold State.bay; simp

@[simp] theorem State.hold_pu (s : State) (c : Cmd) (c0 : BayId) (q : Pu) : (s.hold c).pu c0 q = s.pu c0 q := by unfold State.pu; simp

@[simp] theorem State.hold_safeBay (s : State) (c : Cmd) (c0 : BayId) : (s.hold c).safeBay c0 = s.safeBay c0 := by unfold State.safeBay; simp

@[simp] theorem State.hostWrite_bay (s : State) (c : Cmd) (off : Nat) (d : Bytes) (c0 : BayId) : (s.hostWrite c off d).bay c0 = s.bay c0 := by unfold State.bay; simp

@[simp] theorem State.hostWrite_pu (s : State) (c : Cmd) (off : Nat) (d : Bytes) (c0 : BayId) (q : Pu) : (s.hostWrite c off d).pu c0 q = s.pu c0 q := by unfold State.pu; simp

@[simp] theorem State.hostWrite_safeBay (s : State) (c : Cmd) (off : Nat) (d : Bytes) (c0 : BayId) : (s.hostWrite c off d).safeBay c0 = s.safeBay c0 := by unfold State.safeBay; simp

@[simp] theorem State.drainRecent_bay (s : State) (f : FnId) (c : BayId) : (s.drainRecent f).bay c = s.bay c := by unfold State.bay; simp

@[simp] theorem State.drainRecent_pu (s : State) (f : FnId) (c : BayId) (q : Pu) : (s.drainRecent f).pu c q = s.pu c q := by unfold State.pu; simp

@[simp] theorem State.drainRecent_safeBay (s : State) (f : FnId) (c : BayId) : (s.drainRecent f).safeBay c = s.safeBay c := by unfold State.safeBay; simp

@[simp] theorem State.lateOrdinal_bay (s : State) (h : SlotId) (c : Cmd) (c0 : BayId) : (s.lateOrdinal h c).bay c0 = s.bay c0 := by unfold State.bay; simp

@[simp] theorem State.lateOrdinal_pu (s : State) (h : SlotId) (c : Cmd) (c0 : BayId) (q : Pu) : (s.lateOrdinal h c).pu c0 q = s.pu c0 q := by unfold State.pu; simp

@[simp] theorem State.lateOrdinal_safeBay (s : State) (h : SlotId) (c : Cmd) (c0 : BayId) : (s.lateOrdinal h c).safeBay c0 = s.safeBay c0 := by unfold State.safeBay; simp

@[simp] theorem State.lateTarget_bay (s : State) (h : SlotId) (c : Cmd) (c0 : BayId) : (s.lateTarget h c).bay c0 = s.bay c0 := by unfold State.bay; simp

@[simp] theorem State.lateTarget_pu (s : State) (h : SlotId) (c : Cmd) (c0 : BayId) (q : Pu) : (s.lateTarget h c).pu c0 q = s.pu c0 q := by unfold State.pu; simp

@[simp] theorem State.lateTarget_safeBay (s : State) (h : SlotId) (c : Cmd) (c0 : BayId) : (s.lateTarget h c).safeBay c0 = s.safeBay c0 := by unfold State.safeBay; simp

@[simp] theorem State.verifyReads_safeBay (s : State) (h : SlotId) (order : Nat) (c : BayId) : (s.verifyReads h order).safeBay c = s.safeBay c := by unfold State.safeBay; simp

@[simp] theorem State.abortCmd_bay (s : State) (c : Cmd) (c0 : BayId) : (s.abortCmd c).bay c0 = s.bay c0 := by unfold State.bay; simp

@[simp] theorem State.abortCmd_pu (s : State) (c : Cmd) (c0 : BayId) (q : Pu) : (s.abortCmd c).pu c0 q = s.pu c0 q := by unfold State.pu; simp

@[simp] theorem State.abortCmd_safeBay (s : State) (c : Cmd) (c0 : BayId) : (s.abortCmd c).safeBay c0 = s.safeBay c0 := by unfold State.safeBay; simp

@[simp] theorem State.askRecord_safeBay (s : State) (b : BayId) (p : Pu) (c : BayId) : (s.askRecord b p).safeBay c = s.safeBay c := by unfold State.safeBay; simp

@[simp] theorem State.noteRecord_safeBay (s : State) (b : BayId) (p : Pu) (k no : Nat) (o : SecOutcome) (payload : Option Bytes) (c : BayId) : (s.noteRecord b p k no o payload).safeBay c = s.safeBay c := by unfold State.safeBay; simp

@[simp] theorem State.bayLost_safeBay (s : State) (b : BayId) (c : BayId) : (s.bayLost b).safeBay c = s.safeBay c := by unfold State.safeBay; simp

@[simp] theorem State.restartAdmin_bay (s : State) (n : Nat) (c : BayId) : (s.restartAdmin n).bay c = s.bay c := by unfold State.bay; simp

@[simp] theorem State.restartAdmin_pu (s : State) (n : Nat) (c : BayId) (q : Pu) : (s.restartAdmin n).pu c q = s.pu c q := by unfold State.pu; simp

@[simp] theorem State.restartAdmin_safeBay (s : State) (n : Nat) (c : BayId) : (s.restartAdmin n).safeBay c = s.safeBay c := by unfold State.safeBay; simp

@[simp] theorem State.mgmtFaulty_bay (s : State) (c code : Nat) (c0 : BayId) : (s.mgmtFaulty c code).bay c0 = s.bay c0 := by unfold State.bay; simp

@[simp] theorem State.mgmtFaulty_pu (s : State) (c code : Nat) (c0 : BayId) (q : Pu) : (s.mgmtFaulty c code).pu c0 q = s.pu c0 q := by unfold State.pu; simp

@[simp] theorem State.mgmtFaulty_safeBay (s : State) (c code : Nat) (c0 : BayId) : (s.mgmtFaulty c code).safeBay c0 = s.safeBay c0 := by unfold State.safeBay; simp

@[simp] theorem State.mgmtTakeover_bay (s : State) (c : BayId) : (s.mgmtTakeover).bay c = s.bay c := by unfold State.bay; simp

@[simp] theorem State.mgmtTakeover_pu (s : State) (c : BayId) (q : Pu) : (s.mgmtTakeover).pu c q = s.pu c q := by unfold State.pu; simp

@[simp] theorem State.mgmtTakeover_safeBay (s : State) (c : BayId) : (s.mgmtTakeover).safeBay c = s.safeBay c := by unfold State.safeBay; simp

@[simp] theorem State.takeJob_bay (s : State) (op : FlashOp) (c : BayId) : (s.takeJob op).2.bay c = s.bay c := by unfold State.bay; simp

@[simp] theorem State.takeJob_pu (s : State) (op : FlashOp) (c : BayId) (q : Pu) : (s.takeJob op).2.pu c q = s.pu c q := by unfold State.pu; simp

@[simp] theorem State.takeJob_safeBay (s : State) (op : FlashOp) (c : BayId) : (s.takeJob op).2.safeBay c = s.safeBay c := by unfold State.safeBay; simp

@[simp] theorem State.retryJob_bay (s : State) (j : FlashJob) (c : BayId) : (s.retryJob j).bay c = s.bay c := by unfold State.bay; simp

@[simp] theorem State.retryJob_pu (s : State) (j : FlashJob) (c : BayId) (q : Pu) : (s.retryJob j).pu c q = s.pu c q := by unfold State.pu; simp

@[simp] theorem State.retryJob_safeBay (s : State) (j : FlashJob) (c : BayId) : (s.retryJob j).safeBay c = s.safeBay c := by unfold State.safeBay; simp

@[simp] theorem State.liftLane_safeBay (s : State) (i : Inject) (b : BayId) (c : BayId) : (s.liftLane i b).safeBay c = s.safeBay c := by unfold State.safeBay; simp

@[simp] theorem State.liftBlocks_bay (s : State) (i : Inject) (c : BayId) : (s.liftBlocks i).bay c = s.bay c := by unfold State.bay; simp

@[simp] theorem State.liftBlocks_pu (s : State) (i : Inject) (c : BayId) (q : Pu) : (s.liftBlocks i).pu c q = s.pu c q := by unfold State.pu; simp

@[simp] theorem State.liftBlocks_safeBay (s : State) (i : Inject) (c : BayId) : (s.liftBlocks i).safeBay c = s.safeBay c := by unfold State.safeBay; simp

@[simp] theorem State.setSlot_bay (s : State) (h : SlotId) (v : Option Hamper) (c : BayId) : (s.setSlot h v).bay c = s.bay c := by unfold State.bay; simp

@[simp] theorem State.setSlot_pu (s : State) (h : SlotId) (v : Option Hamper) (c : BayId) (q : Pu) : (s.setSlot h v).pu c q = s.pu c q := by unfold State.pu; simp

@[simp] theorem State.setSlot_safeBay (s : State) (h : SlotId) (v : Option Hamper) (c : BayId) : (s.setSlot h v).safeBay c = s.safeBay c := by unfold State.safeBay; simp

@[simp] theorem State.updHam_bay (s : State) (h : SlotId) (f : Hamper → Hamper) (c : BayId) : (s.updHam h f).bay c = s.bay c := by unfold State.bay; simp

@[simp] theorem State.updHam_pu (s : State) (h : SlotId) (f : Hamper → Hamper) (c : BayId) (q : Pu) : (s.updHam h f).pu c q = s.pu c q := by unfold State.pu; simp

@[simp] theorem State.updHam_safeBay (s : State) (h : SlotId) (f : Hamper → Hamper) (c : BayId) : (s.updHam h f).safeBay c = s.safeBay c := by unfold State.safeBay; simp

@[simp] theorem State.grantRoom_bay (s : State) (k0 : Nat) (c : BayId) : (s.grantRoom k0).bay c = s.bay c := by unfold State.bay; simp

@[simp] theorem State.grantRoom_pu (s : State) (k0 : Nat) (c : BayId) (q : Pu) : (s.grantRoom k0).pu c q = s.pu c q := by unfold State.pu; simp

@[simp] theorem State.grantRoom_safeBay (s : State) (k0 : Nat) (c : BayId) : (s.grantRoom k0).safeBay c = s.safeBay c := by unfold State.safeBay; simp

@[simp] theorem State.handOver_safeBay (s : State) (b : BayId) (p : Pu) (c : Coded) (c0 : BayId) : (s.handOver b p c).safeBay c0 = s.safeBay c0 := by unfold State.safeBay; simp

@[simp] theorem State.encodeStripe_safeBay (s : State) (h : SlotId) (seq : Nat) (c : BayId) : (s.encodeStripe h seq).safeBay c = s.safeBay c := by unfold State.safeBay; simp

@[simp] theorem State.serveFlushes_bay (s : State) (c : BayId) : (s.serveFlushes).bay c = s.bay c := by unfold State.bay; simp

@[simp] theorem State.serveFlushes_pu (s : State) (c : BayId) (q : Pu) : (s.serveFlushes).pu c q = s.pu c q := by unfold State.pu; simp

@[simp] theorem State.serveFlushes_safeBay (s : State) (c : BayId) : (s.serveFlushes).safeBay c = s.safeBay c := by unfold State.safeBay; simp

@[simp] theorem State.settle_bay (s : State) (h : SlotId) (c : BayId) : (s.settle h).bay c = s.bay c := by unfold State.bay; simp

@[simp] theorem State.settle_pu (s : State) (h : SlotId) (c : BayId) (q : Pu) : (s.settle h).pu c q = s.pu c q := by unfold State.pu; simp

@[simp] theorem State.settle_safeBay (s : State) (h : SlotId) (c : BayId) : (s.settle h).safeBay c = s.safeBay c := by unfold State.safeBay; simp

@[simp] theorem State.sectorOutcome_bay (s : State) (h : SlotId) (seq member : Nat) (written : Bool) (c : BayId) : (s.sectorOutcome h seq member written).bay c = s.bay c := by unfold State.bay; simp

@[simp] theorem State.sectorOutcome_pu (s : State) (h : SlotId) (seq member : Nat) (written : Bool) (c : BayId) (q : Pu) : (s.sectorOutcome h seq member written).pu c q = s.pu c q := by unfold State.pu; simp

@[simp] theorem State.sectorOutcome_safeBay (s : State) (h : SlotId) (seq member : Nat) (written : Bool) (c : BayId) : (s.sectorOutcome h seq member written).safeBay c = s.safeBay c := by unfold State.safeBay; simp

@[simp] theorem State.sectorLost_bay (s : State) (h : SlotId) (seq member : Nat) (c : BayId) : (s.sectorLost h seq member).bay c = s.bay c := by unfold State.bay; simp

@[simp] theorem State.sectorLost_pu (s : State) (h : SlotId) (seq member : Nat) (c : BayId) (q : Pu) : (s.sectorLost h seq member).pu c q = s.pu c q := by unfold State.pu; simp

@[simp] theorem State.sectorLost_safeBay (s : State) (h : SlotId) (seq member : Nat) (c : BayId) : (s.sectorLost h seq member).safeBay c = s.safeBay c := by unfold State.safeBay; simp

@[simp] theorem State.sectorTouched_bay (s : State) (h : SlotId) (seq member : Nat) (c : BayId) : (s.sectorTouched h seq member).bay c = s.bay c := by unfold State.bay; simp

@[simp] theorem State.sectorTouched_pu (s : State) (h : SlotId) (seq member : Nat) (c : BayId) (q : Pu) : (s.sectorTouched h seq member).pu c q = s.pu c q := by unfold State.pu; simp

@[simp] theorem State.sectorTouched_safeBay (s : State) (h : SlotId) (seq member : Nat) (c : BayId) : (s.sectorTouched h seq member).safeBay c = s.safeBay c := by unfold State.safeBay; simp

@[simp] theorem State.closeOpen_safeBay (s : State) (h : SlotId) (c : BayId) : (s.closeOpen h).safeBay c = s.safeBay c := by unfold State.safeBay; simp

@[simp] theorem State.askRead_safeBay (s : State) (b : BayId) (p : Pu) (a : SecAddr) (why : Purpose) (basket : Nat) (c : BayId) : (s.askRead b p a why basket).safeBay c = s.safeBay c := by unfold State.safeBay; simp

@[simp] theorem State.gather_safeBay (s : State) (h : SlotId) (seq : Nat) (k0 : Nat) (c : BayId) : (s.gather h seq k0).safeBay c = s.safeBay c := by unfold State.safeBay; simp

@[simp] theorem State.gatherFor_safeBay (s : State) (h : SlotId) (seq : Nat) (c : BayId) : (s.gatherFor h seq).safeBay c = s.safeBay c := by unfold State.safeBay; simp

@[simp] theorem State.wantSector_safeBay (s : State) (h : SlotId) (seq pos : Nat) (verify : Bool) (c : BayId) : (s.wantSector h seq pos verify).safeBay c = s.safeBay c := by unfold State.safeBay; simp

@[simp] theorem State.noteSurface_bay (s : State) (b : BayId) (p : Pu) (c : BayId) : (s.noteSurface b p).bay c = s.bay c := by unfold State.bay; simp

@[simp] theorem State.noteSurface_pu (s : State) (b : BayId) (p : Pu) (c : BayId) (q : Pu) : (s.noteSurface b p).pu c q = s.pu c q := by unfold State.pu; simp

@[simp] theorem State.noteSurface_safeBay (s : State) (b : BayId) (p : Pu) (c : BayId) : (s.noteSurface b p).safeBay c = s.safeBay c := by unfold State.safeBay; simp

@[simp] theorem State.noteService_bay (s : State) (b : BayId) (c : BayId) : (s.noteService b).bay c = s.bay c := by unfold State.bay; simp

@[simp] theorem State.noteService_pu (s : State) (b : BayId) (c : BayId) (q : Pu) : (s.noteService b).pu c q = s.pu c q := by unfold State.pu; simp

@[simp] theorem State.noteService_safeBay (s : State) (b : BayId) (c : BayId) : (s.noteService b).safeBay c = s.safeBay c := by unfold State.safeBay; simp

@[simp] theorem State.raiseHam_bay (s : State) (h : SlotId) (e : Ev) (p0 p1 p2 : Nat) (c : BayId) : (s.raiseHam h e p0 p1 p2).bay c = s.bay c := by unfold State.bay; simp

@[simp] theorem State.raiseHam_pu (s : State) (h : SlotId) (e : Ev) (p0 p1 p2 : Nat) (c : BayId) (q : Pu) : (s.raiseHam h e p0 p1 p2).pu c q = s.pu c q := by unfold State.pu; simp

@[simp] theorem State.raiseHam_safeBay (s : State) (h : SlotId) (e : Ev) (p0 p1 p2 : Nat) (c : BayId) : (s.raiseHam h e p0 p1 p2).safeBay c = s.safeBay c := by unfold State.safeBay; simp

@[simp] theorem State.stagedLost_bay (s : State) (h : SlotId) (lost : WriteRec → Bool) (whole : Bool) (c : BayId) : (s.stagedLost h lost whole).bay c = s.bay c := by unfold State.bay; simp

@[simp] theorem State.stagedLost_pu (s : State) (h : SlotId) (lost : WriteRec → Bool) (whole : Bool) (c : BayId) (q : Pu) : (s.stagedLost h lost whole).pu c q = s.pu c q := by unfold State.pu; simp

@[simp] theorem State.stagedLost_safeBay (s : State) (h : SlotId) (lost : WriteRec → Bool) (whole : Bool) (c : BayId) : (s.stagedLost h lost whole).safeBay c = s.safeBay c := by unfold State.safeBay; simp

@[simp] theorem State.fillSector_bay (s : State) (bufs : List Nat) (payload : Bytes) (c : BayId) : (s.fillSector bufs payload).bay c = s.bay c := by unfold State.bay; simp

@[simp] theorem State.fillSector_pu (s : State) (bufs : List Nat) (payload : Bytes) (c : BayId) (q : Pu) : (s.fillSector bufs payload).pu c q = s.pu c q := by unfold State.pu; simp

@[simp] theorem State.fillSector_safeBay (s : State) (bufs : List Nat) (payload : Bytes) (c : BayId) : (s.fillSector bufs payload).safeBay c = s.safeBay c := by unfold State.safeBay; simp

@[simp] theorem State.repairBuf_bay (s : State) (order : Nat) (c : BayId) : (s.repairBuf order).bay c = s.bay c := by unfold State.bay; simp

@[simp] theorem State.repairBuf_pu (s : State) (order : Nat) (c : BayId) (q : Pu) : (s.repairBuf order).pu c q = s.pu c q := by unfold State.pu; simp

@[simp] theorem State.repairBuf_safeBay (s : State) (order : Nat) (c : BayId) : (s.repairBuf order).safeBay c = s.safeBay c := by unfold State.safeBay; simp

@[simp] theorem State.repairWrite_bay (s : State) (h : SlotId) (lba order : Nat) (d : Bytes) (c : BayId) : (s.repairWrite h lba order d).bay c = s.bay c := by unfold State.bay; simp

@[simp] theorem State.repairWrite_pu (s : State) (h : SlotId) (lba order : Nat) (d : Bytes) (c : BayId) (q : Pu) : (s.repairWrite h lba order d).pu c q = s.pu c q := by unfold State.pu; simp

@[simp] theorem State.repairWrite_safeBay (s : State) (h : SlotId) (lba order : Nat) (d : Bytes) (c : BayId) : (s.repairWrite h lba order d).safeBay c = s.safeBay c := by unfold State.safeBay; simp

@[simp] theorem State.answerBlock_safeBay (s : State) (h : SlotId) (order i : Nat) (c : BayId) : (s.answerBlock h order i).safeBay c = s.safeBay c := by unfold State.safeBay; simp

@[simp] theorem State.closeRead_bay (s : State) (h : SlotId) (order : Nat) (c : BayId) : (s.closeRead h order).bay c = s.bay c := by unfold State.bay; simp

@[simp] theorem State.closeRead_pu (s : State) (h : SlotId) (order : Nat) (c : BayId) (q : Pu) : (s.closeRead h order).pu c q = s.pu c q := by unfold State.pu; simp

@[simp] theorem State.closeRead_safeBay (s : State) (h : SlotId) (order : Nat) (c : BayId) : (s.closeRead h order).safeBay c = s.safeBay c := by unfold State.safeBay; simp

@[simp] theorem State.serveReads_safeBay (s : State) (h : SlotId) (c : BayId) : (s.serveReads h).safeBay c = s.safeBay c := by unfold State.safeBay; simp

@[simp] theorem State.compareRebuilt_bay (s : State) (h : SlotId) (seq pos : Nat) (was now : Bytes) (c : BayId) : (s.compareRebuilt h seq pos was now).bay c = s.bay c := by unfold State.bay; simp

@[simp] theorem State.compareRebuilt_pu (s : State) (h : SlotId) (seq pos : Nat) (was now : Bytes) (c : BayId) (q : Pu) : (s.compareRebuilt h seq pos was now).pu c q = s.pu c q := by unfold State.pu; simp

@[simp] theorem State.compareRebuilt_safeBay (s : State) (h : SlotId) (seq pos : Nat) (was now : Bytes) (c : BayId) : (s.compareRebuilt h seq pos was now).safeBay c = s.safeBay c := by unfold State.safeBay; simp

@[simp] theorem State.sectorLanded_safeBay (s : State) (h : SlotId) (seq pos : Nat) (payload : Bytes) (bufs : List Nat) (c : BayId) : (s.sectorLanded h seq pos payload bufs).safeBay c = s.safeBay c := by unfold State.safeBay; simp

@[simp] theorem State.sectorUnread_safeBay (s : State) (h : SlotId) (seq pos : Nat) (early : Bool) (bufs : List Nat) (c : BayId) : (s.sectorUnread h seq pos early bufs).safeBay c = s.safeBay c := by unfold State.safeBay; simp

@[simp] theorem State.rebuildSector_safeBay (s : State) (h : SlotId) (seq pos : Nat) (c : BayId) : (s.rebuildSector h seq pos).safeBay c = s.safeBay c := by unfold State.safeBay; simp

@[simp] theorem State.writeLabels_safeBay (s : State) (h : SlotId) (c : BayId) : (s.writeLabels h).safeBay c = s.safeBay c := by unfold State.safeBay; simp

@[simp] theorem State.writePointer_safeBay (s : State) (h : SlotId) (r : Bytes) (c : BayId) : (s.writePointer h r).safeBay c = s.safeBay c := by unfold State.safeBay; simp

@[simp] theorem State.ckptStripe_safeBay (s : State) (h : SlotId) (x : Hamper) (number : Nat) (bodies : List Bytes) (rows : List (Nat × Nat)) (c : BayId) : (s.ckptStripe h x number bodies rows).safeBay c = s.safeBay c := by unfold State.safeBay; simp

@[simp] theorem State.ckptStripes_safeBay (s : State) (h : SlotId) (x : Hamper) (d : Nat) (k0 : Nat) (k1 : Nat) (k2 : List Bytes) (k3 : List (Nat × Nat)) (c : BayId) : (s.ckptStripes h x d k0 k1 k2 k3).safeBay c = s.safeBay c := by unfold State.safeBay; simp

@[simp] theorem State.checkpoint_safeBay (s : State) (h : SlotId) (c : BayId) : (s.checkpoint h).safeBay c = s.safeBay c := by unfold State.safeBay; simp

@[simp] theorem State.releaseHamper_safeBay (s : State) (h : SlotId) (c : BayId) : (s.releaseHamper h).safeBay c = s.safeBay c := by unfold State.safeBay; simp

@[simp] theorem State.recordOutcome_safeBay (s : State) (h : SlotId) (kind no : Nat) (written : Bool) (c : BayId) : (s.recordOutcome h kind no written).safeBay c = s.safeBay c := by unfold State.safeBay; simp

@[simp] theorem State.flushOutcomes_safeBay (s : State) (c : BayId) : (s.flushOutcomes).safeBay c = s.safeBay c := by unfold State.safeBay; simp

@[simp] theorem State.raiseStale_bay (s : State) (hid : Nat) (c : BayId) : (s.raiseStale hid).bay c = s.bay c := by unfold State.bay; simp

@[simp] theorem State.raiseStale_pu (s : State) (hid : Nat) (c : BayId) (q : Pu) : (s.raiseStale hid).pu c q = s.pu c q := by unfold State.pu; simp

@[simp] theorem State.raiseStale_safeBay (s : State) (hid : Nat) (c : BayId) : (s.raiseStale hid).safeBay c = s.safeBay c := by unfold State.safeBay; simp

@[simp] theorem State.tryMount_bay (s : State) (hid : Nat) (ro : Bool) (attach : Option Nat) (c : BayId) : (s.tryMount hid ro attach).bay c = s.bay c := by unfold State.bay; simp

@[simp] theorem State.tryMount_pu (s : State) (hid : Nat) (ro : Bool) (attach : Option Nat) (c : BayId) (q : Pu) : (s.tryMount hid ro attach).pu c q = s.pu c q := by unfold State.pu; simp

@[simp] theorem State.tryMount_safeBay (s : State) (hid : Nat) (ro : Bool) (attach : Option Nat) (c : BayId) : (s.tryMount hid ro attach).safeBay c = s.safeBay c := by unfold State.safeBay; simp

@[simp] theorem State.joinMounted_bay (s : State) (b : BayId) (h : SlotId) (c : BayId) : (s.joinMounted b h).bay c = s.bay c := by unfold State.bay; simp

@[simp] theorem State.joinMounted_pu (s : State) (b : BayId) (h : SlotId) (c : BayId) (q : Pu) : (s.joinMounted b h).pu c q = s.pu c q := by unfold State.pu; simp

@[simp] theorem State.joinMounted_safeBay (s : State) (b : BayId) (h : SlotId) (c : BayId) : (s.joinMounted b h).safeBay c = s.safeBay c := by unfold State.safeBay; simp

@[simp] theorem State.placeNext_safeBay (s : State) (h : SlotId) (c : BayId) : (s.placeNext h).safeBay c = s.safeBay c := by unfold State.safeBay; simp

@[simp] theorem State.rebuildNext_safeBay (s : State) (h : SlotId) (m : Member) (seq pos : Nat) (c : BayId) : (s.rebuildNext h m seq pos).safeBay c = s.safeBay c := by unfold State.safeBay; simp

@[simp] theorem State.withdraw_safeBay (s : State) (h : SlotId) (m : Member) (b : BayId) (p : Pu) (c : BayId) : (s.withdraw h m b p).safeBay c = s.safeBay c := by unfold State.safeBay; simp

@[simp] theorem State.writeSession_safeBay (s : State) (h : SlotId) (c : BayId) : (s.writeSession h).safeBay c = s.safeBay c := by unfold State.safeBay; simp

@[simp] theorem State.hamperEngineFaulty_bay (s : State) (e code : Nat) (c : BayId) : (s.hamperEngineFaulty e code).bay c = s.bay c := by unfold State.bay; simp

@[simp] theorem State.hamperEngineFaulty_pu (s : State) (e code : Nat) (c : BayId) (q : Pu) : (s.hamperEngineFaulty e code).pu c q = s.pu c q := by unfold State.pu; simp

@[simp] theorem State.hamperEngineFaulty_safeBay (s : State) (e code : Nat) (c : BayId) : (s.hamperEngineFaulty e code).safeBay c = s.safeBay c := by unfold State.safeBay; simp

@[simp] theorem State.fnReady_bay (s : State) (f : FnId) (c : BayId) : (s.fnReady f).bay c = s.bay c := by unfold State.bay; simp

@[simp] theorem State.fnReady_pu (s : State) (f : FnId) (c : BayId) (q : Pu) : (s.fnReady f).pu c q = s.pu c q := by unfold State.pu; simp

@[simp] theorem State.fnReady_safeBay (s : State) (f : FnId) (c : BayId) : (s.fnReady f).safeBay c = s.safeBay c := by unfold State.safeBay; simp

@[simp] theorem State.flr_bay (s : State) (f : FnId) (c : BayId) : (s.flr f).bay c = s.bay c := by unfold State.bay; simp

@[simp] theorem State.flr_pu (s : State) (f : FnId) (c : BayId) (q : Pu) : (s.flr f).pu c q = s.pu c q := by unfold State.pu; simp

@[simp] theorem State.flr_safeBay (s : State) (f : FnId) (c : BayId) : (s.flr f).safeBay c = s.safeBay c := by unfold State.safeBay; simp

@[simp] theorem State.giveOrdinal_bay (s : State) (h : SlotId) (c : Cmd) (c0 : BayId) : (s.giveOrdinal h c).bay c0 = s.bay c0 := by unfold State.bay; simp

@[simp] theorem State.giveOrdinal_pu (s : State) (h : SlotId) (c : Cmd) (c0 : BayId) (q : Pu) : (s.giveOrdinal h c).pu c0 q = s.pu c0 q := by unfold State.pu; simp

@[simp] theorem State.giveOrdinal_safeBay (s : State) (h : SlotId) (c : Cmd) (c0 : BayId) : (s.giveOrdinal h c).safeBay c0 = s.safeBay c0 := by unfold State.safeBay; simp

@[simp] theorem State.endWrite_bay (s : State) (c : Cmd) (st : Status) (c0 : BayId) : (s.endWrite c st).bay c0 = s.bay c0 := by unfold State.bay; simp

@[simp] theorem State.endWrite_pu (s : State) (c : Cmd) (st : Status) (c0 : BayId) (q : Pu) : (s.endWrite c st).pu c0 q = s.pu c0 q := by unfold State.pu; simp

@[simp] theorem State.endWrite_safeBay (s : State) (c : Cmd) (st : Status) (c0 : BayId) : (s.endWrite c st).safeBay c0 = s.safeBay c0 := by unfold State.safeBay; simp

@[simp] theorem State.endCmd_bay (s : State) (c : Cmd) (st : Status) (c0 : BayId) : (s.endCmd c st).bay c0 = s.bay c0 := by unfold State.bay; simp

@[simp] theorem State.endCmd_pu (s : State) (c : Cmd) (st : Status) (c0 : BayId) (q : Pu) : (s.endCmd c st).pu c0 q = s.pu c0 q := by unfold State.pu; simp

@[simp] theorem State.endCmd_safeBay (s : State) (c : Cmd) (st : Status) (c0 : BayId) : (s.endCmd c st).safeBay c0 = s.safeBay c0 := by unfold State.safeBay; simp

@[simp] theorem State.endHeld_bay (s : State) (c : Cmd) (c0 : BayId) : (s.endHeld c).bay c0 = s.bay c0 := by unfold State.bay; simp

@[simp] theorem State.endHeld_pu (s : State) (c : Cmd) (c0 : BayId) (q : Pu) : (s.endHeld c).pu c0 q = s.pu c0 q := by unfold State.pu; simp

@[simp] theorem State.endHeld_safeBay (s : State) (c : Cmd) (c0 : BayId) : (s.endHeld c).safeBay c0 = s.safeBay c0 := by unfold State.safeBay; simp

@[simp] theorem State.holdFor_bay (s : State) (c : Cmd) (c0 : BayId) : (s.holdFor c).bay c0 = s.bay c0 := by unfold State.bay; simp

@[simp] theorem State.holdFor_pu (s : State) (c : Cmd) (c0 : BayId) (q : Pu) : (s.holdFor c).pu c0 q = s.pu c0 q := by unfold State.pu; simp

@[simp] theorem State.holdFor_safeBay (s : State) (c : Cmd) (c0 : BayId) : (s.holdFor c).safeBay c0 = s.safeBay c0 := by unfold State.safeBay; simp

@[simp] theorem State.bindHamper_bay (s : State) (order : Nat) (c : Cmd) (c0 : BayId) : (s.bindHamper order c).bay c0 = s.bay c0 := by unfold State.bay; simp

@[simp] theorem State.bindHamper_pu (s : State) (order : Nat) (c : Cmd) (c0 : BayId) (q : Pu) : (s.bindHamper order c).pu c0 q = s.pu c0 q := by unfold State.pu; simp

@[simp] theorem State.bindHamper_safeBay (s : State) (order : Nat) (c : Cmd) (c0 : BayId) : (s.bindHamper order c).safeBay c0 = s.safeBay c0 := by unfold State.safeBay; simp

@[simp] theorem State.admitCmd_bay (s : State) (order : Nat) (c : BayId) : (s.admitCmd order).bay c = s.bay c := by unfold State.bay; simp

@[simp] theorem State.admitCmd_pu (s : State) (order : Nat) (c : BayId) (q : Pu) : (s.admitCmd order).pu c q = s.pu c q := by unfold State.pu; simp

@[simp] theorem State.admitCmd_safeBay (s : State) (order : Nat) (c : BayId) : (s.admitCmd order).safeBay c = s.safeBay c := by unfold State.safeBay; simp

@[simp] theorem State.acceptEntry_bay (s : State) (f : FnId) (sr : Nat) (e : Bytes) (segs : List Bytes) (c : BayId) : (s.acceptEntry f sr e segs).bay c = s.bay c := by unfold State.bay; simp

@[simp] theorem State.acceptEntry_pu (s : State) (f : FnId) (sr : Nat) (e : Bytes) (segs : List Bytes) (c : BayId) (q : Pu) : (s.acceptEntry f sr e segs).pu c q = s.pu c q := by unfold State.pu; simp

@[simp] theorem State.acceptEntry_safeBay (s : State) (f : FnId) (sr : Nat) (e : Bytes) (segs : List Bytes) (c : BayId) : (s.acceptEntry f sr e segs).safeBay c = s.safeBay c := by unfold State.safeBay; simp

@[simp] theorem State.arbitrate_bay (s : State) (c : BayId) : (s.arbitrate).2.bay c = s.bay c := by unfold State.bay; simp

@[simp] theorem State.arbitrate_pu (s : State) (c : BayId) (q : Pu) : (s.arbitrate).2.pu c q = s.pu c q := by unfold State.pu; simp

@[simp] theorem State.arbitrate_safeBay (s : State) (c : BayId) : (s.arbitrate).2.safeBay c = s.safeBay c := by unfold State.safeBay; simp

@[simp] theorem State.closeDeleted_bay (s : State) (f : FnId) (c : BayId) : (s.closeDeleted f).bay c = s.bay c := by unfold State.bay; simp

@[simp] theorem State.closeDeleted_pu (s : State) (f : FnId) (c : BayId) (q : Pu) : (s.closeDeleted f).pu c q = s.pu c q := by unfold State.pu; simp

@[simp] theorem State.closeDeleted_safeBay (s : State) (f : FnId) (c : BayId) : (s.closeDeleted f).safeBay c = s.safeBay c := by unfold State.safeBay; simp

@[simp] theorem State.postCmd_bay (s : State) (c : Cmd) (k : Cr) (sqhd : Nat) (c0 : BayId) : (s.postCmd c k sqhd).bay c0 = s.bay c0 := by unfold State.bay; simp

@[simp] theorem State.postCmd_pu (s : State) (c : Cmd) (k : Cr) (sqhd : Nat) (c0 : BayId) (q : Pu) : (s.postCmd c k sqhd).pu c0 q = s.pu c0 q := by unfold State.pu; simp

@[simp] theorem State.postCmd_safeBay (s : State) (c : Cmd) (k : Cr) (sqhd : Nat) (c0 : BayId) : (s.postCmd c k sqhd).safeBay c0 = s.safeBay c0 := by unfold State.safeBay; simp

@[simp] theorem State.msixWrite_bay (s : State) (f : FnId) (off v : Nat) (c : BayId) : (s.msixWrite f off v).bay c = s.bay c := by unfold State.bay; simp

@[simp] theorem State.msixWrite_pu (s : State) (f : FnId) (off v : Nat) (c : BayId) (q : Pu) : (s.msixWrite f off v).pu c q = s.pu c q := by unfold State.pu; simp

@[simp] theorem State.msixWrite_safeBay (s : State) (f : FnId) (off v : Nat) (c : BayId) : (s.msixWrite f off v).safeBay c = s.safeBay c := by unfold State.safeBay; simp

@[simp] theorem State.dropVfs_bay (s : State) (c : BayId) : (s.dropVfs).bay c = s.bay c := by unfold State.bay; simp

@[simp] theorem State.dropVfs_pu (s : State) (c : BayId) (q : Pu) : (s.dropVfs).pu c q = s.pu c q := by unfold State.pu; simp

@[simp] theorem State.dropVfs_safeBay (s : State) (c : BayId) : (s.dropVfs).safeBay c = s.safeBay c := by unfold State.safeBay; simp

@[simp] theorem State.extend_bay (s : State) (slot etype res key obj src : Nat) (detail digest : Bytes) (c : BayId) : (s.extend slot etype res key obj src detail digest).bay c = s.bay c := by unfold State.bay; simp

@[simp] theorem State.extend_pu (s : State) (slot etype res key obj src : Nat) (detail digest : Bytes) (c : BayId) (q : Pu) : (s.extend slot etype res key obj src detail digest).pu c q = s.pu c q := by unfold State.pu; simp

@[simp] theorem State.extend_safeBay (s : State) (slot etype res key obj src : Nat) (detail digest : Bytes) (c : BayId) : (s.extend slot etype res key obj src detail digest).safeBay c = s.safeBay c := by unfold State.safeBay; simp

@[simp] theorem State.measureCode_bay (s : State) (loader : Bool) (slot : Nat) (c : BayId) : (s.measureCode loader slot).2.bay c = s.bay c := by unfold State.bay; simp

@[simp] theorem State.measureCode_pu (s : State) (loader : Bool) (slot : Nat) (c : BayId) (q : Pu) : (s.measureCode loader slot).2.pu c q = s.pu c q := by unfold State.pu; simp

@[simp] theorem State.measureCode_safeBay (s : State) (loader : Bool) (slot : Nat) (c : BayId) : (s.measureCode loader slot).2.safeBay c = s.safeBay c := by unfold State.safeBay; simp

@[simp] theorem State.measureImage_bay (s : State) (slot : Nat) (c : BayId) : (s.measureImage slot).2.bay c = s.bay c := by unfold State.bay; simp

@[simp] theorem State.measureImage_pu (s : State) (slot : Nat) (c : BayId) (q : Pu) : (s.measureImage slot).2.pu c q = s.pu c q := by unfold State.pu; simp

@[simp] theorem State.measureImage_safeBay (s : State) (slot : Nat) (c : BayId) : (s.measureImage slot).2.safeBay c = s.safeBay c := by unfold State.safeBay; simp

@[simp] theorem State.islandStart_bay (s : State) (c : BayId) : (s.islandStart).bay c = s.bay c := by unfold State.bay; simp

@[simp] theorem State.islandStart_pu (s : State) (c : BayId) (q : Pu) : (s.islandStart).pu c q = s.pu c q := by unfold State.pu; simp

@[simp] theorem State.islandCommit_bay (s : State) (c : BayId) : (s.islandCommit).bay c = s.bay c := by unfold State.bay; simp

@[simp] theorem State.islandCommit_pu (s : State) (c : BayId) (q : Pu) : (s.islandCommit).pu c q = s.pu c q := by unfold State.pu; simp

@[simp] theorem State.selectImage_bay (s : State) (c : BayId) : (s.selectImage).bay c = s.bay c := by unfold State.bay; simp

@[simp] theorem State.selectImage_pu (s : State) (c : BayId) (q : Pu) : (s.selectImage).pu c q = s.pu c q := by unfold State.pu; simp

@[simp] theorem State.selectImage_safeBay (s : State) (c : BayId) : (s.selectImage).safeBay c = s.safeBay c := by unfold State.safeBay; simp

@[simp] theorem State.updInj_bay (s : State) (id : Nat) (g : Inject → Inject) (c : BayId) : (s.updInj id g).bay c = s.bay c := by unfold State.bay; simp

@[simp] theorem State.updInj_pu (s : State) (id : Nat) (g : Inject → Inject) (c : BayId) (q : Pu) : (s.updInj id g).pu c q = s.pu c q := by unfold State.pu; simp

@[simp] theorem State.updInj_safeBay (s : State) (id : Nat) (g : Inject → Inject) (c : BayId) : (s.updInj id g).safeBay c = s.safeBay c := by unfold State.safeBay; simp

@[simp] theorem State.endInject_bay (s : State) (id : Nat) (c : BayId) : (s.endInject id).bay c = s.bay c := by unfold State.bay; simp

@[simp] theorem State.endInject_pu (s : State) (id : Nat) (c : BayId) (q : Pu) : (s.endInject id).pu c q = s.pu c q := by unfold State.pu; simp

@[simp] theorem State.endInject_safeBay (s : State) (id : Nat) (c : BayId) : (s.endInject id).safeBay c = s.safeBay c := by unfold State.safeBay; simp

@[simp] theorem State.injectOne_bay (s : State) (id : Nat) (sample : Bool) (k0 : List Bytes) (c : BayId) : (s.injectOne id sample k0).2.bay c = s.bay c := by unfold State.bay; simp

@[simp] theorem State.injectOne_pu (s : State) (id : Nat) (sample : Bool) (k0 : List Bytes) (c : BayId) (q : Pu) : (s.injectOne id sample k0).2.pu c q = s.pu c q := by unfold State.pu; simp

@[simp] theorem State.injectOne_safeBay (s : State) (id : Nat) (sample : Bool) (k0 : List Bytes) (c : BayId) : (s.injectOne id sample k0).2.safeBay c = s.safeBay c := by unfold State.safeBay; simp

@[simp] theorem State.injectFrame_bay (s : State) (target : Nat × Nat × Nat) (frame : Bytes) (c : BayId) : (s.injectFrame target frame).2.bay c = s.bay c := by unfold State.bay; simp

@[simp] theorem State.injectFrame_pu (s : State) (target : Nat × Nat × Nat) (frame : Bytes) (c : BayId) (q : Pu) : (s.injectFrame target frame).2.pu c q = s.pu c q := by unfold State.pu; simp

@[simp] theorem State.injectFrame_safeBay (s : State) (target : Nat × Nat × Nat) (frame : Bytes) (c : BayId) : (s.injectFrame target frame).2.safeBay c = s.safeBay c := by unfold State.safeBay; simp

@[simp] theorem State.sendDn_bay (s : State) (b : BayId) (p : Pu) (plain : Bytes) (c : BayId) : (s.sendDn b p plain).bay c = s.bay c := by unfold State.bay; simp

@[simp] theorem State.sendDn_pu (s : State) (b : BayId) (p : Pu) (plain : Bytes) (c : BayId) (q : Pu) : (s.sendDn b p plain).pu c q = s.pu c q := by unfold State.pu; simp

@[simp] theorem State.sendDn_safeBay (s : State) (b : BayId) (p : Pu) (plain : Bytes) (c : BayId) : (s.sendDn b p plain).safeBay c = s.safeBay c := by unfold State.safeBay; simp

@[simp] theorem State.sendMotor_bay (s : State) (b : BayId) (plain : Bytes) (c : BayId) : (s.sendMotor b plain).bay c = s.bay c := by unfold State.bay; simp

@[simp] theorem State.sendMotor_pu (s : State) (b : BayId) (plain : Bytes) (c : BayId) (q : Pu) : (s.sendMotor b plain).pu c q = s.pu c q := by unfold State.pu; simp

@[simp] theorem State.sendMotor_safeBay (s : State) (b : BayId) (plain : Bytes) (c : BayId) : (s.sendMotor b plain).safeBay c = s.safeBay c := by unfold State.safeBay; simp

@[simp] theorem State.measureInject_bay (s : State) (c : Cmd) (etype : Nat) (c0 : BayId) : (s.measureInject c etype).bay c0 = s.bay c0 := by unfold State.bay; simp

@[simp] theorem State.measureInject_pu (s : State) (c : Cmd) (etype : Nat) (c0 : BayId) (q : Pu) : (s.measureInject c etype).pu c0 q = s.pu c0 q := by unfold State.pu; simp

@[simp] theorem State.measureInject_safeBay (s : State) (c : Cmd) (etype : Nat) (c0 : BayId) : (s.measureInject c etype).safeBay c0 = s.safeBay c0 := by unfold State.safeBay; simp

@[simp] theorem State.updLink_safeBay (s : State) (b : BayId) (p : Pu) (g : HLink → HLink) (c : BayId) : (s.updLink b p g).safeBay c = s.safeBay c := by unfold State.safeBay; simp

@[simp] theorem State.rxLane_safeBay (s : State) (b : BayId) (p : Pu) (ph : PhysLane) (raw : Bytes) (c : BayId) : (s.rxLane b p ph raw).2.safeBay c = s.safeBay c := by unfold State.safeBay; simp

@[simp] theorem State.takeBlock_safeBay (s : State) (b : BayId) (p : Pu) (blk : SBlock) (c : BayId) : (s.takeBlock b p blk).safeBay c = s.safeBay c := by unfold State.safeBay; simp

@[simp] theorem State.takeSample_safeBay (s : State) (b : BayId) (p : Pu) (ph : PhysLane) (f : Bytes) (c : BayId) : (s.takeSample b p ph f).safeBay c = s.safeBay c := by unfold State.safeBay; simp

@[simp] theorem State.sendHead_safeBay (s : State) (b : BayId) (p : Pu) (type tsh : Nat) (payload : Bytes) (c : BayId) : (s.sendHead b p type tsh payload).safeBay c = s.safeBay c := by unfold State.safeBay; simp

@[simp] theorem State.sendCtrl_safeBay (s : State) (b : BayId) (p : Pu) (tsh : Nat) (payload : Bytes) (c : BayId) : (s.sendCtrl b p tsh payload).safeBay c = s.safeBay c := by unfold State.safeBay; simp

@[simp] theorem State.sendWrite_safeBay (s : State) (b : BayId) (p : Pu) (w : Nat × Bytes) (c : BayId) : (s.sendWrite b p w).safeBay c = s.safeBay c := by unfold State.safeBay; simp

@[simp] theorem State.dnSlot_safeBay (s : State) (b : BayId) (p : Pu) (c : BayId) : (s.dnSlot b p).safeBay c = s.safeBay c := by unfold State.safeBay; simp

@[simp] theorem State.dnSlots_safeBay (s : State) (b : BayId) (p : Pu) (c : BayId) : (s.dnSlots b p).safeBay c = s.safeBay c := by unfold State.safeBay; simp

@[simp] theorem State.dnTick_safeBay (s : State) (c : BayId) : (s.dnTick).safeBay c = s.safeBay c := by unfold State.safeBay; simp

@[simp] theorem State.ctrlPump_safeBay (s : State) (b : BayId) (p : Pu) (k0 : Nat) (c : BayId) : (s.ctrlPump b p k0).safeBay c = s.safeBay c := by unfold State.safeBay; simp

@[simp] theorem State.ctrlIssue_safeBay (s : State) (b : BayId) (p : Pu) (op addr : Nat) (data : Bytes) (c : BayId) : (s.ctrlIssue b p op addr data).safeBay c = s.safeBay c := by unfold State.safeBay; simp

@[simp] theorem State.ctrlRead_safeBay (s : State) (b : BayId) (p : Pu) (addr len : Nat) (c : BayId) : (s.ctrlRead b p addr len).safeBay c = s.safeBay c := by unfold State.safeBay; simp

@[simp] theorem State.regWrite_safeBay (s : State) (b : BayId) (p : Pu) (addr : Nat) (data : Bytes) (k0 : Nat) (c : BayId) : (s.regWrite b p addr data k0).safeBay c = s.safeBay c := by unfold State.safeBay; simp

@[simp] theorem State.regRead_safeBay (s : State) (b : BayId) (p : Pu) (addr len : Nat) (k0 : Nat) (c : BayId) : (s.regRead b p addr len k0).safeBay c = s.safeBay c := by unfold State.safeBay; simp

@[simp] theorem State.laneMap_safeBay (s : State) (b : BayId) (p : Pu) (m0 m1 : PhysLane) (c : BayId) : (s.laneMap b p m0 m1).safeBay c = s.safeBay c := by unfold State.safeBay; simp

@[simp] theorem State.laneTrain_safeBay (s : State) (b : BayId) (p : Pu) (ph : PhysLane) (c : BayId) : (s.laneTrain b p ph).safeBay c = s.safeBay c := by unfold State.safeBay; simp

@[simp] theorem State.laneTrainStop_safeBay (s : State) (b : BayId) (p : Pu) (ph : PhysLane) (c : BayId) : (s.laneTrainStop b p ph).safeBay c = s.safeBay c := by unfold State.safeBay; simp

@[simp] theorem State.setSpare_safeBay (s : State) (b : BayId) (v : SpareRx) (c : BayId) : (s.setSpare b v).safeBay c = s.safeBay c := by unfold State.safeBay; simp

@[simp] theorem State.trainSpare_safeBay (s : State) (b : BayId) (p : Pu) (c : BayId) : (s.trainSpare b p).safeBay c = s.safeBay c := by unfold State.safeBay; simp

@[simp] theorem State.spareStandby_safeBay (s : State) (b : BayId) (c : BayId) : (s.spareStandby b).safeBay c = s.safeBay c := by unfold State.safeBay; simp

@[simp] theorem State.retireLane_safeBay (s : State) (b : BayId) (p : Pu) (ph : PhysLane) (c : BayId) : (s.retireLane b p ph).safeBay c = s.safeBay c := by unfold State.safeBay; simp

@[simp] theorem State.noteLaneFail_safeBay (s : State) (b : BayId) (p : Pu) (ph : PhysLane) (c : BayId) : (s.noteLaneFail b p ph).2.safeBay c = s.safeBay c := by unfold State.safeBay; simp

@[simp] theorem State.linkTrain_safeBay (s : State) (b : BayId) (p : Pu) (c : BayId) : (s.linkTrain b p).safeBay c = s.safeBay c := by unfold State.safeBay; simp

@[simp] theorem State.enterOneLane_safeBay (s : State) (b : BayId) (p : Pu) (ph : PhysLane) (c : BayId) : (s.enterOneLane b p ph).safeBay c = s.safeBay c := by unfold State.safeBay; simp

@[simp] theorem State.spareTakeover_safeBay (s : State) (b : BayId) (p : Pu) (bad : PhysLane) (c : BayId) : (s.spareTakeover b p bad).safeBay c = s.safeBay c := by unfold State.safeBay; simp

@[simp] theorem State.identifyGo_safeBay (s : State) (b : BayId) (p : Pu) (c : BayId) : (s.identifyGo b p).safeBay c = s.safeBay c := by unfold State.safeBay; simp

@[simp] theorem State.lateLane_safeBay (s : State) (b : BayId) (p : Pu) (ph : PhysLane) (c : BayId) : (s.lateLane b p ph).safeBay c = s.safeBay c := by unfold State.safeBay; simp

@[simp] theorem State.attemptFails_safeBay (s : State) (b : BayId) (p : Pu) (c : BayId) : (s.attemptFails b p).safeBay c = s.safeBay c := by unfold State.safeBay; simp

@[simp] theorem State.freeSpareRx_safeBay (s : State) (b : BayId) (p : Pu) (c : BayId) : (s.freeSpareRx b p).safeBay c = s.safeBay c := by unfold State.safeBay; simp

@[simp] theorem State.startWithSpare_safeBay (s : State) (b : BayId) (p : Pu) (late : PhysLane) (c : BayId) : (s.startWithSpare b p late).safeBay c = s.safeBay c := by unfold State.safeBay; simp

@[simp] theorem State.takeStandby_safeBay (s : State) (b : BayId) (p : Pu) (c : BayId) : (s.takeStandby b p).safeBay c = s.safeBay c := by unfold State.safeBay; simp

@[simp] theorem State.startOneLane_safeBay (s : State) (b : BayId) (p : Pu) (t0 t1 ts : Bool) (c : BayId) : (s.startOneLane b p t0 t1 ts).safeBay c = s.safeBay c := by unfold State.safeBay; simp

@[simp] theorem State.leaveUpTrain_safeBay (s : State) (b : BayId) (p : Pu) (c : BayId) : (s.leaveUpTrain b p).safeBay c = s.safeBay c := by unfold State.safeBay; simp

@[simp] theorem State.ctrlFail_safeBay (s : State) (b : BayId) (p : Pu) (c : BayId) : (s.ctrlFail b p).safeBay c = s.safeBay c := by unfold State.safeBay; simp

@[simp] theorem State.takeSpareRx_safeBay (s : State) (b : BayId) (p : Pu) (l : PhysLane) (c : BayId) : (s.takeSpareRx b p l).safeBay c = s.safeBay c := by unfold State.safeBay; simp

@[simp] theorem State.mapBack_safeBay (s : State) (b : BayId) (p : Pu) (m : PhysLane × PhysLane) (c : BayId) : (s.mapBack b p m).safeBay c = s.safeBay c := by unfold State.safeBay; simp

@[simp] theorem State.sramRow_bay (s : State) (p : Partition) (ch addr : Nat) (c : BayId) : (s.sramRow p ch addr).bay c = s.bay c := by unfold State.bay; simp

@[simp] theorem State.sramRow_pu (s : State) (p : Partition) (ch addr : Nat) (c : BayId) (q : Pu) : (s.sramRow p ch addr).pu c q = s.pu c q := by unfold State.pu; simp

@[simp] theorem State.sramRow_safeBay (s : State) (p : Partition) (ch addr : Nat) (c : BayId) : (s.sramRow p ch addr).safeBay c = s.safeBay c := by unfold State.safeBay; simp

@[simp] theorem State.spoilBlock_bay (s : State) (h i : Nat) (c : BayId) : (s.spoilBlock h i).bay c = s.bay c := by unfold State.bay; simp

@[simp] theorem State.spoilBlock_pu (s : State) (h i : Nat) (c : BayId) (q : Pu) : (s.spoilBlock h i).pu c q = s.pu c q := by unfold State.pu; simp

@[simp] theorem State.spoilBlock_safeBay (s : State) (h i : Nat) (c : BayId) : (s.spoilBlock h i).safeBay c = s.safeBay c := by unfold State.safeBay; simp

@[simp] theorem State.bufferLost_safeBay (s : State) (addr : Nat) (c : BayId) : (s.bufferLost addr).safeBay c = s.safeBay c := by unfold State.safeBay; simp

@[simp] theorem State.journalLost_bay (s : State) (addr : Nat) (c : BayId) : (s.journalLost addr).bay c = s.bay c := by unfold State.bay; simp

@[simp] theorem State.journalLost_pu (s : State) (addr : Nat) (c : BayId) (q : Pu) : (s.journalLost addr).pu c q = s.pu c q := by unfold State.pu; simp

@[simp] theorem State.journalLost_safeBay (s : State) (addr : Nat) (c : BayId) : (s.journalLost addr).safeBay c = s.safeBay c := by unfold State.safeBay; simp

@[simp] theorem State.mapEntryLost_bay (s : State) (addr : Nat) (c : BayId) : (s.mapEntryLost addr).bay c = s.bay c := by unfold State.bay; simp

@[simp] theorem State.mapEntryLost_pu (s : State) (addr : Nat) (c : BayId) (q : Pu) : (s.mapEntryLost addr).pu c q = s.pu c q := by unfold State.pu; simp

@[simp] theorem State.mapEntryLost_safeBay (s : State) (addr : Nat) (c : BayId) : (s.mapEntryLost addr).safeBay c = s.safeBay c := by unfold State.safeBay; simp

@[simp] theorem State.softLost_safeBay (s : State) (addr : Nat) (c : BayId) : (s.softLost addr).safeBay c = s.safeBay c := by unfold State.safeBay; simp

@[simp] theorem State.codedLost_safeBay (s : State) (addr : Nat) (c : BayId) : (s.codedLost addr).safeBay c = s.safeBay c := by unfold State.safeBay; simp

@[simp] theorem State.checkpointLost_bay (s : State) (addr : Nat) (c : BayId) : (s.checkpointLost addr).bay c = s.bay c := by unfold State.bay; simp

@[simp] theorem State.checkpointLost_pu (s : State) (addr : Nat) (c : BayId) (q : Pu) : (s.checkpointLost addr).pu c q = s.pu c q := by unfold State.pu; simp

@[simp] theorem State.checkpointLost_safeBay (s : State) (addr : Nat) (c : BayId) : (s.checkpointLost addr).safeBay c = s.safeBay c := by unfold State.safeBay; simp

@[simp] theorem State.updMs_safeBay (s : State) (b : BayId) (p : Pu) (g : Motion → Motion) (c : BayId) : (s.updMs b p g).safeBay c = s.safeBay c := by unfold State.safeBay; simp

@[simp] theorem State.updSheet_safeBay (s : State) (b : BayId) (p : Pu) (g : Sheet → Sheet) (c : BayId) : (s.updSheet b p g).safeBay c = s.safeBay c := by unfold State.safeBay; simp

@[simp] theorem State.updSp_safeBay (s : State) (b : BayId) (g : Spindle → Spindle) (c : BayId) : (s.updSp b g).safeBay c = s.safeBay c := by unfold State.safeBay; simp

@[simp] theorem State.logDp_bay (s : State) (b : BayId) (u : Option Pu) (tick what : Nat) (c : BayId) : (s.logDp b u tick what).bay c = s.bay c := by unfold State.bay; simp

@[simp] theorem State.logDp_pu (s : State) (b : BayId) (u : Option Pu) (tick what : Nat) (c : BayId) (q : Pu) : (s.logDp b u tick what).pu c q = s.pu c q := by unfold State.pu; simp

@[simp] theorem State.logDp_safeBay (s : State) (b : BayId) (u : Option Pu) (tick what : Nat) (c : BayId) : (s.logDp b u tick what).safeBay c = s.safeBay c := by unfold State.safeBay; simp

@[simp] theorem State.enter_safeBay (s : State) (b : BayId) (p : Pu) (st : PState) (c : BayId) : (s.enter b p st).safeBay c = s.safeBay c := by unfold State.safeBay; simp

@[simp] theorem State.withdrawReads_safeBay (s : State) (b : BayId) (p : Pu) (c : BayId) : (s.withdrawReads b p).safeBay c = s.safeBay c := by unfold State.safeBay; simp

@[simp] theorem State.dropFrameLock_safeBay (s : State) (b : BayId) (p : Pu) (c : BayId) : (s.dropFrameLock b p).safeBay c = s.safeBay c := by unfold State.safeBay; simp

@[simp] theorem State.loadBanks_safeBay (s : State) (b : BayId) (p : Pu) (c : BayId) : (s.loadBanks b p).safeBay c = s.safeBay c := by unfold State.safeBay; simp

@[simp] theorem State.puOff_safeBay (s : State) (b : BayId) (p : Pu) (c : BayId) : (s.puOff b p).safeBay c = s.safeBay c := by unfold State.safeBay; simp

@[simp] theorem State.dropRelocs_safeBay (s : State) (b : BayId) (c : BayId) : (s.dropRelocs b).safeBay c = s.safeBay c := by unfold State.safeBay; simp

@[simp] theorem State.commandStop_safeBay (s : State) (b : BayId) (c : BayId) : (s.commandStop b).safeBay c = s.safeBay c := by unfold State.safeBay; simp

@[simp] theorem State.emptyCheck_safeBay (s : State) (b : BayId) (p : Pu) (c : BayId) : (s.emptyCheck b p).safeBay c = s.safeBay c := by unfold State.safeBay; simp

@[simp] theorem State.puFail_safeBay (s : State) (b : BayId) (p : Pu) (c : BayId) : (s.puFail b p).safeBay c = s.safeBay c := by unfold State.safeBay; simp

@[simp] theorem State.enterRecover_safeBay (s : State) (b : BayId) (p : Pu) (cause : RecCause) (c : BayId) : (s.enterRecover b p cause).safeBay c = s.safeBay c := by unfold State.safeBay; simp

@[simp] theorem State.enterFocusSearch_safeBay (s : State) (b : BayId) (p : Pu) (c : BayId) : (s.enterFocusSearch b p).safeBay c = s.safeBay c := by unfold State.safeBay; simp

@[simp] theorem State.enterTrackPull_safeBay (s : State) (b : BayId) (p : Pu) (c : BayId) : (s.enterTrackPull b p).safeBay c = s.safeBay c := by unfold State.safeBay; simp

@[simp] theorem State.enterAcquire_safeBay (s : State) (b : BayId) (p : Pu) (c : BayId) : (s.enterAcquire b p).safeBay c = s.safeBay c := by unfold State.safeBay; simp

@[simp] theorem State.enterFollow_safeBay (s : State) (b : BayId) (p : Pu) (c : BayId) : (s.enterFollow b p).safeBay c = s.safeBay c := by unfold State.safeBay; simp

@[simp] theorem State.startJump_safeBay (s : State) (b : BayId) (p : Pu) (n : Int) (c : BayId) : (s.startJump b p n).safeBay c = s.safeBay c := by unfold State.safeBay; simp

@[simp] theorem State.startLayerJump_safeBay (s : State) (b : BayId) (p : Pu) (layer : Nat) (c : BayId) : (s.startLayerJump b p layer).safeBay c = s.safeBay c := by unfold State.safeBay; simp

@[simp] theorem State.loseLock_safeBay (s : State) (b : BayId) (p : Pu) (focusToo : Bool) (c : BayId) : (s.loseLock b p focusToo).safeBay c = s.safeBay c := by unfold State.safeBay; simp

@[simp] theorem State.rejectDisc_safeBay (s : State) (b : BayId) (serial : Bytes) (why : Reject) (src : Nat) (e : Ev) (c : BayId) : (s.rejectDisc b serial why src e).safeBay c = s.safeBay c := by unfold State.safeBay; simp

@[simp] theorem State.noDisc_safeBay (s : State) (b : BayId) (p : Pu) (c : BayId) : (s.noDisc b p).safeBay c = s.safeBay c := by unfold State.safeBay; simp

@[simp] theorem State.sendDrive_safeBay (s : State) (b : BayId) (type tsh : Nat) (payload : Bytes) (c : BayId) : (s.sendDrive b type tsh payload).safeBay c = s.safeBay c := by unfold State.safeBay; simp

@[simp] theorem State.driveNext_safeBay (s : State) (b : BayId) (c : BayId) : (s.driveNext b).safeBay c = s.safeBay c := by unfold State.safeBay; simp

@[simp] theorem State.driveTo_safeBay (s : State) (b : BayId) (n : Nat) (c : BayId) : (s.driveTo b n).safeBay c = s.safeBay c := by unfold State.safeBay; simp

@[simp] theorem State.mdnSlot_safeBay (s : State) (b : BayId) (c : BayId) : (s.mdnSlot b).safeBay c = s.safeBay c := by unfold State.safeBay; simp

@[simp] theorem State.mdnSlots_safeBay (s : State) (b : BayId) (c : BayId) : (s.mdnSlots b).safeBay c = s.safeBay c := by unfold State.safeBay; simp

@[simp] theorem State.mlinkTrain_safeBay (s : State) (b : BayId) (c : BayId) : (s.mlinkTrain b).safeBay c = s.safeBay c := by unfold State.safeBay; simp

@[simp] theorem State.mlinkFails_safeBay (s : State) (b : BayId) (c : BayId) : (s.mlinkFails b).safeBay c = s.safeBay c := by unfold State.safeBay; simp

@[simp] theorem State.mlinkGo_safeBay (s : State) (b : BayId) (c : BayId) : (s.mlinkGo b).safeBay c = s.safeBay c := by unfold State.safeBay; simp

@[simp] theorem State.sledSense_safeBay (s : State) (b : BayId) (p : Pu) (w : Nat) (restarted : Bool) (c : BayId) : (s.sledSense b p w restarted).safeBay c = s.safeBay c := by unfold State.safeBay; simp

@[simp] theorem State.changeBank_safeBay (s : State) (b : BayId) (p : Pu) (c : BayId) : (s.changeBank b p).safeBay c = s.safeBay c := by unfold State.safeBay; simp

@[simp] theorem State.loadStep_safeBay (s : State) (b : BayId) (crc0 crc1 : Nat) (c : BayId) : (s.loadStep b crc0 crc1).safeBay c = s.safeBay c := by unfold State.safeBay; simp

@[simp] theorem State.sledStatus_safeBay (s : State) (b : BayId) (f : Bytes) (c : BayId) : (s.sledStatus b f).safeBay c = s.safeBay c := by unfold State.safeBay; simp

@[simp] theorem State.safeHold_safeBay (s : State) (b : BayId) (brake : Bool) (c : BayId) : (s.safeHold b brake).safeBay c = s.safeBay c := by unfold State.safeBay; simp

@[simp] theorem State.mdnBay_safeBay (s : State) (b : BayId) (c : BayId) : (s.mdnBay b).safeBay c = s.safeBay c := by unfold State.safeBay; simp

@[simp] theorem State.mdnTick_safeBay (s : State) (c : BayId) : (s.mdnTick).safeBay c = s.safeBay c := by unfold State.safeBay; simp

@[simp] theorem State.stageReport_safeBay (s : State) (b : BayId) (flags : Nat) (c : BayId) : (s.stageReport b flags).safeBay c = s.safeBay c := by unfold State.safeBay; simp

@[simp] theorem State.senseFrame_safeBay (s : State) (b : BayId) (f : Bytes) (upset : Bool) (c : BayId) : (s.senseFrame b f upset).safeBay c = s.safeBay c := by unfold State.safeBay; simp

@[simp] theorem State.senseFails_safeBay (s : State) (b : BayId) (c : BayId) : (s.senseFails b).safeBay c = s.safeBay c := by unfold State.safeBay; simp

@[simp] theorem State.setBay_safeBay (s : State) (b : BayId) (v : Bay) (c : BayId) : (s.setBay b v).safeBay c = s.safeBay c := by unfold State.safeBay; simp

@[simp] theorem State.updBay_safeBay (s : State) (b : BayId) (f : Bay → Bay) (c : BayId) : (s.updBay b f).safeBay c = s.safeBay c := by unfold State.safeBay; simp

@[simp] theorem State.updPu_safeBay (s : State) (b : BayId) (p : Pu) (f : Pickup → Pickup) (c : BayId) : (s.updPu b p f).safeBay c = s.safeBay c := by unfold State.safeBay; simp

@[simp] theorem State.updSled_safeBay (s : State) (b : BayId) (p : Pu) (f : Sled → Sled) (c : BayId) : (s.updSled b p f).safeBay c = s.safeBay c := by unfold State.safeBay; simp

@[simp] theorem State.boundary_bay (s : State) (u : CfgUnit) (sec : Nat) (c : BayId) : (s.boundary u sec).bay c = s.bay c := by unfold State.bay; simp

@[simp] theorem State.boundary_pu (s : State) (u : CfgUnit) (sec : Nat) (c : BayId) (q : Pu) : (s.boundary u sec).pu c q = s.pu c q := by unfold State.pu; simp

@[simp] theorem State.boundary_safeBay (s : State) (u : CfgUnit) (sec : Nat) (c : BayId) : (s.boundary u sec).safeBay c = s.safeBay c := by unfold State.safeBay; simp

@[simp] theorem State.emit_bay (s : State) (o : Output) (c : BayId) : (s.emit o).bay c = s.bay c := by unfold State.bay; simp

@[simp] theorem State.emit_pu (s : State) (o : Output) (c : BayId) (q : Pu) : (s.emit o).pu c q = s.pu c q := by unfold State.pu; simp

@[simp] theorem State.emit_safeBay (s : State) (o : Output) (c : BayId) : (s.emit o).safeBay c = s.safeBay c := by unfold State.safeBay; simp

@[simp] theorem State.updFn_bay (s : State) (f : FnId) (g : Fn → Fn) (c : BayId) : (s.updFn f g).bay c = s.bay c := by unfold State.bay; simp

@[simp] theorem State.updFn_pu (s : State) (f : FnId) (g : Fn → Fn) (c : BayId) (q : Pu) : (s.updFn f g).pu c q = s.pu c q := by unfold State.pu; simp

@[simp] theorem State.updFn_safeBay (s : State) (f : FnId) (g : Fn → Fn) (c : BayId) : (s.updFn f g).safeBay c = s.safeBay c := by unfold State.safeBay; simp

@[simp] theorem State.updCr_bay (s : State) (f : FnId) (id : Nat) (g : Cr → Cr) (c : BayId) : (s.updCr f id g).bay c = s.bay c := by unfold State.bay; simp

@[simp] theorem State.updCr_pu (s : State) (f : FnId) (id : Nat) (g : Cr → Cr) (c : BayId) (q : Pu) : (s.updCr f id g).pu c q = s.pu c q := by unfold State.pu; simp

@[simp] theorem State.updCr_safeBay (s : State) (f : FnId) (id : Nat) (g : Cr → Cr) (c : BayId) : (s.updCr f id g).safeBay c = s.safeBay c := by unfold State.safeBay; simp

@[simp] theorem State.updSr_bay (s : State) (f : FnId) (id : Nat) (g : Sr → Sr) (c : BayId) : (s.updSr f id g).bay c = s.bay c := by unfold State.bay; simp

@[simp] theorem State.updSr_pu (s : State) (f : FnId) (id : Nat) (g : Sr → Sr) (c : BayId) (q : Pu) : (s.updSr f id g).pu c q = s.pu c q := by unfold State.pu; simp

@[simp] theorem State.updSr_safeBay (s : State) (f : FnId) (id : Nat) (g : Sr → Sr) (c : BayId) : (s.updSr f id g).safeBay c = s.safeBay c := by unfold State.safeBay; simp

@[simp] theorem State.signal_bay (s : State) (f : FnId) (v : Nat) (c : BayId) : (s.signal f v).bay c = s.bay c := by unfold State.bay; simp

@[simp] theorem State.signal_pu (s : State) (f : FnId) (v : Nat) (c : BayId) (q : Pu) : (s.signal f v).pu c q = s.pu c q := by unfold State.pu; simp

@[simp] theorem State.signal_safeBay (s : State) (f : FnId) (v : Nat) (c : BayId) : (s.signal f v).safeBay c = s.safeBay c := by unfold State.safeBay; simp

@[simp] theorem State.crSignal_bay (s : State) (f : FnId) (id : Nat) (c : BayId) : (s.crSignal f id).bay c = s.bay c := by unfold State.bay; simp

@[simp] theorem State.crSignal_pu (s : State) (f : FnId) (id : Nat) (c : BayId) (q : Pu) : (s.crSignal f id).pu c q = s.pu c q := by unfold State.pu; simp

@[simp] theorem State.crSignal_safeBay (s : State) (f : FnId) (id : Nat) (c : BayId) : (s.crSignal f id).safeBay c = s.safeBay c := by unfold State.safeBay; simp

@[simp] theorem State.writeEv_bay (s : State) (c : Cr) (r : EvRec) (fseq : Nat) (c0 : BayId) : (s.writeEv c r fseq).bay c0 = s.bay c0 := by unfold State.bay; simp

@[simp] theorem State.writeEv_pu (s : State) (c : Cr) (r : EvRec) (fseq : Nat) (c0 : BayId) (q : Pu) : (s.writeEv c r fseq).pu c0 q = s.pu c0 q := by unfold State.pu; simp

@[simp] theorem State.writeEv_safeBay (s : State) (c : Cr) (r : EvRec) (fseq : Nat) (c0 : BayId) : (s.writeEv c r fseq).safeBay c0 = s.safeBay c0 := by unfold State.safeBay; simp

@[simp] theorem State.deliver_bay (s : State) (f : FnId) (r : EvRec) (c : BayId) : (s.deliver f r).bay c = s.bay c := by unfold State.bay; simp

@[simp] theorem State.deliver_pu (s : State) (f : FnId) (r : EvRec) (c : BayId) (q : Pu) : (s.deliver f r).pu c q = s.pu c q := by unfold State.pu; simp

@[simp] theorem State.deliver_safeBay (s : State) (f : FnId) (r : EvRec) (c : BayId) : (s.deliver f r).safeBay c = s.safeBay c := by unfold State.safeBay; simp

@[simp] theorem State.flushLost_bay (s : State) (f : FnId) (c : BayId) : (s.flushLost f).bay c = s.bay c := by unfold State.bay; simp

@[simp] theorem State.flushLost_pu (s : State) (f : FnId) (c : BayId) (q : Pu) : (s.flushLost f).pu c q = s.pu c q := by unfold State.pu; simp

@[simp] theorem State.flushLost_safeBay (s : State) (f : FnId) (c : BayId) : (s.flushLost f).safeBay c = s.safeBay c := by unfold State.safeBay; simp

@[simp] theorem State.setEngCk_bay (s : State) (c : EngCk) (c0 : BayId) : (s.setEngCk c).bay c0 = s.bay c0 := by unfold State.bay; simp

@[simp] theorem State.setEngCk_pu (s : State) (c : EngCk) (c0 : BayId) (q : Pu) : (s.setEngCk c).pu c0 q = s.pu c0 q := by unfold State.pu; simp

@[simp] theorem State.setEngCk_safeBay (s : State) (c : EngCk) (c0 : BayId) : (s.setEngCk c).safeBay c0 = s.safeBay c0 := by unfold State.safeBay; simp

@[simp] theorem State.storeEv_bay (s : State) (r : EvRec) (c : BayId) : (s.storeEv r).bay c = s.bay c := by unfold State.bay; simp

@[simp] theorem State.storeEv_pu (s : State) (r : EvRec) (c : BayId) (q : Pu) : (s.storeEv r).pu c q = s.pu c q := by unfold State.pu; simp

@[simp] theorem State.storeEv_safeBay (s : State) (r : EvRec) (c : BayId) : (s.storeEv r).safeBay c = s.safeBay c := by unfold State.safeBay; simp

@[simp] theorem State.queueEv_bay (s : State) (g e : Nat) (r : EvRec) (c : BayId) : (s.queueEv g e r).bay c = s.bay c := by unfold State.bay; simp

@[simp] theorem State.queueEv_pu (s : State) (g e : Nat) (r : EvRec) (c : BayId) (q : Pu) : (s.queueEv g e r).pu c q = s.pu c q := by unfold State.pu; simp

@[simp] theorem State.queueEv_safeBay (s : State) (g e : Nat) (r : EvRec) (c : BayId) : (s.queueEv g e r).safeBay c = s.safeBay c := by unfold State.safeBay; simp

@[simp] theorem State.post_bay (s : State) (r : EvRec) (c : BayId) : (s.post r).bay c = s.bay c := by unfold State.bay; simp

@[simp] theorem State.post_pu (s : State) (r : EvRec) (c : BayId) (q : Pu) : (s.post r).pu c q = s.pu c q := by unfold State.pu; simp

@[simp] theorem State.post_safeBay (s : State) (r : EvRec) (c : BayId) : (s.post r).safeBay c = s.safeBay c := by unfold State.safeBay; simp

@[simp] theorem State.raise_bay (s : State) (src : Nat) (e : Ev) (p0 p1 p2 : Nat) (c : BayId) : (s.raise src e p0 p1 p2).bay c = s.bay c := by unfold State.bay; simp

@[simp] theorem State.raise_pu (s : State) (src : Nat) (e : Ev) (p0 p1 p2 : Nat) (c : BayId) (q : Pu) : (s.raise src e p0 p1 p2).pu c q = s.pu c q := by unfold State.pu; simp

@[simp] theorem State.raise_safeBay (s : State) (src : Nat) (e : Ev) (p0 p1 p2 : Nat) (c : BayId) : (s.raise src e p0 p1 p2).safeBay c = s.safeBay c := by unfold State.safeBay; simp

@[simp] theorem State.raiseBay_bay (s : State) (b : BayId) (src : Nat) (e : Ev) (p0 : Nat) (p1 : Nat) (p2 : Nat) (c : BayId) : (s.raiseBay b src e p0 p1 p2).bay c = s.bay c := by unfold State.bay; simp

@[simp] theorem State.raiseBay_pu (s : State) (b : BayId) (src : Nat) (e : Ev) (p0 : Nat) (p1 : Nat) (p2 : Nat) (c : BayId) (q : Pu) : (s.raiseBay b src e p0 p1 p2).pu c q = s.pu c q := by unfold State.pu; simp

@[simp] theorem State.raiseBay_safeBay (s : State) (b : BayId) (src : Nat) (e : Ev) (p0 : Nat) (p1 : Nat) (p2 : Nat) (c : BayId) : (s.raiseBay b src e p0 p1 p2).safeBay c = s.safeBay c := by unfold State.safeBay; simp

@[simp] theorem State.raisePu_bay (s : State) (b : BayId) (p : Pu) (src : Nat) (e : Ev) (p0 : Nat) (p1 : Nat) (p2 : Nat) (c : BayId) : (s.raisePu b p src e p0 p1 p2).bay c = s.bay c := by unfold State.bay; simp

@[simp] theorem State.raisePu_pu (s : State) (b : BayId) (p : Pu) (src : Nat) (e : Ev) (p0 : Nat) (p1 : Nat) (p2 : Nat) (c : BayId) (q : Pu) : (s.raisePu b p src e p0 p1 p2).pu c q = s.pu c q := by unfold State.pu; simp

@[simp] theorem State.raisePu_safeBay (s : State) (b : BayId) (p : Pu) (src : Nat) (e : Ev) (p0 : Nat) (p1 : Nat) (p2 : Nat) (c : BayId) : (s.raisePu b p src e p0 p1 p2).safeBay c = s.safeBay c := by unfold State.safeBay; simp

@[simp] theorem State.bumpGen_bay (s : State) (c : BayId) : (s.bumpGen).bay c = s.bay c := by unfold State.bay; simp

@[simp] theorem State.bumpGen_pu (s : State) (c : BayId) (q : Pu) : (s.bumpGen).pu c q = s.pu c q := by unfold State.pu; simp

@[simp] theorem State.bumpGen_safeBay (s : State) (c : BayId) : (s.bumpGen).safeBay c = s.safeBay c := by unfold State.safeBay; simp

@[simp] theorem State.draw_bay (s : State) (c : BayId) : (s.draw).2.bay c = s.bay c := by unfold State.bay; simp

@[simp] theorem State.draw_pu (s : State) (c : BayId) (q : Pu) : (s.draw).2.pu c q = s.pu c q := by unfold State.pu; simp

@[simp] theorem State.draw_safeBay (s : State) (c : BayId) : (s.draw).2.safeBay c = s.safeBay c := by unfold State.safeBay; simp

@[simp] theorem State.clearCounters_safeBay (s : State) (page sel : Nat) (c : BayId) : (s.clearCounters page sel).safeBay c = s.safeBay c := by unfold State.safeBay; simp

@[simp] theorem State.detectSegment_safeBay (s : State) (b : BayId) (p : Pu) (a : SecAddr) (part : Nat) (g : Seg) (c : BayId) : (s.detectSegment b p a part g).safeBay c = s.safeBay c := by unfold State.safeBay; simp

@[simp] theorem State.tapRollback_safeBay (s : State) (b : BayId) (p : Pu) (q : SoftSlot) (c : BayId) : (s.tapRollback b p q).safeBay c = s.safeBay c := by unfold State.safeBay; simp

@[simp] theorem State.eqDiverge_safeBay (s : State) (b : BayId) (p : Pu) (q : SoftSlot) (c : BayId) : (s.eqDiverge b p q).safeBay c = s.safeBay c := by unfold State.safeBay; simp

@[simp] theorem State.verifyJudge_safeBay (s : State) (b : BayId) (p : Pu) (q : SoftSlot) (c : BayId) : (s.verifyJudge b p q).safeBay c = s.safeBay c := by unfold State.safeBay; simp

@[simp] theorem State.finishSector_safeBay (s : State) (b : BayId) (p : Pu) (q : SoftSlot) (rung : Nat) (o : OuterOut) (c : BayId) : (s.finishSector b p q rung o).safeBay c = s.safeBay c := by unfold State.safeBay; simp

@[simp] theorem State.ladderNext_safeBay (s : State) (b : BayId) (p : Pu) (q : SoftSlot) (c : BayId) : (s.ladderNext b p q).safeBay c = s.safeBay c := by unfold State.safeBay; simp

@[simp] theorem State.judgeSector_safeBay (s : State) (b : BayId) (p : Pu) (a : SecAddr) (c : BayId) : (s.judgeSector b p a).safeBay c = s.safeBay c := by unfold State.safeBay; simp

@[simp] theorem State.firstPass_safeBay (s : State) (b : BayId) (p : Pu) (a : SecAddr) (c : BayId) : (s.firstPass b p a).safeBay c = s.safeBay c := by unfold State.safeBay; simp

@[simp] theorem State.decoderFaulty_bay (s : State) (r d : Nat) (c : BayId) : (s.decoderFaulty r d).bay c = s.bay c := by unfold State.bay; simp

@[simp] theorem State.decoderFaulty_pu (s : State) (r d : Nat) (c : BayId) (q : Pu) : (s.decoderFaulty r d).pu c q = s.pu c q := by unfold State.pu; simp

@[simp] theorem State.decoderFaulty_safeBay (s : State) (r d : Nat) (c : BayId) : (s.decoderFaulty r d).safeBay c = s.safeBay c := by unfold State.safeBay; simp

@[simp] theorem State.endVerify_safeBay (s : State) (b : BayId) (p : Pu) (c : BayId) : (s.endVerify b p).safeBay c = s.safeBay c := by unfold State.safeBay; simp

@[simp] theorem State.detectorFaulty_safeBay (s : State) (r d : Nat) (c : BayId) : (s.detectorFaulty r d).safeBay c = s.safeBay c := by unfold State.safeBay; simp

@[simp] theorem State.updSafe_bay (s : State) (b : BayId) (f : BaySafe → BaySafe) (c : BayId) : (s.updSafe b f).bay c = s.bay c := by unfold State.bay; simp

@[simp] theorem State.updSafe_pu (s : State) (b : BayId) (f : BaySafe → BaySafe) (c : BayId) (q : Pu) : (s.updSafe b f).pu c q = s.pu c q := by unfold State.pu; simp

@[simp] theorem State.dropL_bay (s : State) (b : BayId) (c : BayId) : (s.dropL b).bay c = s.bay c := by unfold State.bay; simp

@[simp] theorem State.dropL_pu (s : State) (b : BayId) (c : BayId) (q : Pu) : (s.dropL b).pu c q = s.pu c q := by unfold State.pu; simp

@[simp] theorem State.dropS_bay (s : State) (b : BayId) (c : BayId) : (s.dropS b).bay c = s.bay c := by unfold State.bay; simp

@[simp] theorem State.dropS_pu (s : State) (b : BayId) (c : BayId) (q : Pu) : (s.dropS b).pu c q = s.pu c q := by unfold State.pu; simp

@[simp] theorem State.dropBay_bay (s : State) (b : BayId) (c : BayId) : (s.dropBay b).bay c = s.bay c := by unfold State.bay; simp

@[simp] theorem State.dropBay_pu (s : State) (b : BayId) (c : BayId) (q : Pu) : (s.dropBay b).pu c q = s.pu c q := by unfold State.pu; simp

@[simp] theorem State.dropAll_bay (s : State) (c : BayId) : (s.dropAll).bay c = s.bay c := by unfold State.bay; simp

@[simp] theorem State.dropAll_pu (s : State) (c : BayId) (q : Pu) : (s.dropAll).pu c q = s.pu c q := by unfold State.pu; simp

@[simp] theorem State.raiseSafe_bay (s : State) (b : BayId) (e : Ev) (p0 : Nat) (c : BayId) : (s.raiseSafe b e p0).bay c = s.bay c := by unfold State.bay; simp

@[simp] theorem State.raiseSafe_pu (s : State) (b : BayId) (e : Ev) (p0 : Nat) (c : BayId) (q : Pu) : (s.raiseSafe b e p0).pu c q = s.pu c q := by unfold State.pu; simp

@[simp] theorem State.raiseSafe_safeBay (s : State) (b : BayId) (e : Ev) (p0 : Nat) (c : BayId) : (s.raiseSafe b e p0).safeBay c = s.safeBay c := by unfold State.safeBay; simp

@[simp] theorem State.countTrip_bay (s : State) (b : BayId) (c : BayId) : (s.countTrip b).bay c = s.bay c := by unfold State.bay; simp

@[simp] theorem State.countTrip_pu (s : State) (b : BayId) (c : BayId) (q : Pu) : (s.countTrip b).pu c q = s.pu c q := by unfold State.pu; simp

@[simp] theorem State.lmonTripBay_bay (s : State) (b : BayId) (c : BayId) : (s.lmonTripBay b).bay c = s.bay c := by unfold State.bay; simp

@[simp] theorem State.lmonTripBay_pu (s : State) (b : BayId) (c : BayId) (q : Pu) : (s.lmonTripBay b).pu c q = s.pu c q := by unfold State.pu; simp

@[simp] theorem State.islandFail_bay (s : State) (e : Ev) (c : BayId) : (s.islandFail e).bay c = s.bay c := by unfold State.bay; simp

@[simp] theorem State.islandFail_pu (s : State) (e : Ev) (c : BayId) (q : Pu) : (s.islandFail e).pu c q = s.pu c q := by unfold State.pu; simp

@[simp] theorem State.islandSystemReset_bay (s : State) (c : BayId) : (s.islandSystemReset).bay c = s.bay c := by unfold State.bay; simp

@[simp] theorem State.islandSystemReset_pu (s : State) (c : BayId) (q : Pu) : (s.islandSystemReset).pu c q = s.pu c q := by unfold State.pu; simp

@[simp] theorem State.watchBays_bay (s : State) (c : BayId) : (s.watchBays).bay c = s.bay c := by unfold State.bay; simp

@[simp] theorem State.watchBays_pu (s : State) (c : BayId) (q : Pu) : (s.watchBays).pu c q = s.pu c q := by unfold State.pu; simp

@[simp] theorem State.requestS_bay (s : State) (b : BayId) (ilkHighMs : Nat) (c : BayId) : (s.requestS b ilkHighMs).bay c = s.bay c := by unfold State.bay; simp

@[simp] theorem State.requestS_pu (s : State) (b : BayId) (ilkHighMs : Nat) (c : BayId) (q : Pu) : (s.requestS b ilkHighMs).pu c q = s.pu c q := by unfold State.pu; simp

@[simp] theorem State.requestL_bay (s : State) (b : BayId) (ilkHighMs lmonHighMs : Nat) (c : BayId) : (s.requestL b ilkHighMs lmonHighMs).bay c = s.bay c := by unfold State.bay; simp

@[simp] theorem State.requestL_pu (s : State) (b : BayId) (ilkHighMs lmonHighMs : Nat) (c : BayId) (q : Pu) : (s.requestL b ilkHighMs lmonHighMs).pu c q = s.pu c q := by unfold State.pu; simp

@[simp] theorem State.noteSector_safeBay (s : State) (b : BayId) (p : Pu) (r : SectorRec) (c : BayId) : (s.noteSector b p r).safeBay c = s.safeBay c := by unfold State.safeBay; simp

@[simp] theorem State.updCoded_safeBay (s : State) (b : BayId) (p : Pu) (a : SecAddr) (g : Coded → Coded) (c : BayId) : (s.updCoded b p a g).safeBay c = s.safeBay c := by unfold State.safeBay; simp

@[simp] theorem State.deliverRead_safeBay (s : State) (b : BayId) (p : Pu) (a : SecAddr) (why : Purpose) (o : SecOutcome) (payload : Option Bytes) (c : BayId) : (s.deliverRead b p a why o payload).safeBay c = s.safeBay c := by unfold State.safeBay; simp

@[simp] theorem State.endUnread_safeBay (s : State) (b : BayId) (p : Pu) (a : SecAddr) (why : Purpose) (c : BayId) : (s.endUnread b p a why).safeBay c = s.safeBay c := by unfold State.safeBay; simp

@[simp] theorem State.updSoft_safeBay (s : State) (b : BayId) (p : Pu) (a : SecAddr) (g : SoftSlot → SoftSlot) (c : BayId) : (s.updSoft b p a g).safeBay c = s.safeBay c := by unfold State.safeBay; simp

@[simp] theorem State.endSlot_safeBay (s : State) (b : BayId) (p : Pu) (q : SoftSlot) (o : SecOutcome) (rung : Nat) (payload : Option Bytes) (c : BayId) : (s.endSlot b p q o rung payload).safeBay c = s.safeBay c := by unfold State.safeBay; simp

@[simp] theorem State.readsLost_safeBay (s : State) (b : BayId) (p : Pu) (c : BayId) : (s.readsLost b p).safeBay c = s.safeBay c := by unfold State.safeBay; simp

@[simp] theorem State.reportWrite_safeBay (s : State) (why : WriteWhy) (written : Bool) (c : BayId) : (s.reportWrite why written).safeBay c = s.safeBay c := by unfold State.safeBay; simp

@[simp] theorem State.writeRelocRecord_safeBay (s : State) (b : BayId) (p : Pu) (layer : Nat) (homes : List SecAddr) (c : BayId) : (s.writeRelocRecord b p layer homes).safeBay c = s.safeBay c := by unfold State.safeBay; simp

@[simp] theorem State.relocate_safeBay (s : State) (b : BayId) (p : Pu) (c : Coded) (c0 : BayId) : (s.relocate b p c).safeBay c0 = s.safeBay c0 := by unfold State.safeBay; simp

@[simp] theorem State.failCoded_safeBay (s : State) (b : BayId) (p : Pu) (a : SecAddr) (c : BayId) : (s.failCoded b p a).safeBay c = s.safeBay c := by unfold State.safeBay; simp

@[simp] theorem State.doneCoded_safeBay (s : State) (b : BayId) (p : Pu) (a : SecAddr) (c : BayId) : (s.doneCoded b p a).safeBay c = s.safeBay c := by unfold State.safeBay; simp

@[simp] theorem State.abandonBlock_safeBay (s : State) (b : BayId) (p : Pu) (c : BayId) : (s.abandonBlock b p).safeBay c = s.safeBay c := by unfold State.safeBay; simp

@[simp] theorem State.failCurrent_safeBay (s : State) (b : BayId) (p : Pu) (c : BayId) : (s.failCurrent b p).safeBay c = s.safeBay c := by unfold State.safeBay; simp

@[simp] theorem State.holdWriting_safeBay (s : State) (b : BayId) (p : Pu) (c : BayId) : (s.holdWriting b p).safeBay c = s.safeBay c := by unfold State.safeBay; simp

@[simp] theorem State.coresLost_safeBay (s : State) (c : BayId) : (s.coresLost).safeBay c = s.safeBay c := by unfold State.safeBay; simp

@[simp] theorem State.loadBank_safeBay (s : State) (b : BayId) (p : Pu) (x : BankLoad) (c : BayId) : (s.loadBank b p x).safeBay c = s.safeBay c := by unfold State.safeBay; simp

@[simp] theorem State.bankFails_safeBay (s : State) (b : BayId) (p : Pu) (x : BankLoad) (c : BayId) : (s.bankFails b p x).safeBay c = s.safeBay c := by unfold State.safeBay; simp

@[simp] theorem State.bankReply_safeBay (s : State) (b : BayId) (p : Pu) (c : CtrlOp) (f : Bytes) (c0 : BayId) : (s.bankReply b p c f).safeBay c0 = s.safeBay c0 := by unfold State.safeBay; simp

@[simp] theorem State.leaveService_safeBay (s : State) (b : BayId) (p : Pu) (c : BayId) : (s.leaveService b p).safeBay c = s.safeBay c := by unfold State.safeBay; simp

@[simp] theorem State.evalGate_safeBay (s : State) (b : BayId) (p : Pu) (ok : Bool) (c : BayId) : (s.evalGate b p ok).safeBay c = s.safeBay c := by unfold State.safeBay; simp

@[simp] theorem State.sendServo_safeBay (s : State) (b : BayId) (p : Pu) (tick apply : Nat) (c : BayId) : (s.sendServo b p tick apply).safeBay c = s.safeBay c := by unfold State.safeBay; simp

@[simp] theorem State.servoCmd_safeBay (s : State) (b : BayId) (p : Pu) (tick tq : Nat) (c : BayId) : (s.servoCmd b p tick tq).safeBay c = s.safeBay c := by unfold State.safeBay; simp

@[simp] theorem State.setDrives_safeBay (s : State) (b : BayId) (p : Pu) (c : BayId) : (s.setDrives b p).safeBay c = s.safeBay c := by unfold State.safeBay; simp

@[simp] theorem State.tuneFails_bay (s : State) (b : BayId) (p : Pu) (lp : LoopSel) (c : BayId) : (s.tuneFails b p lp).bay c = s.bay c := by unfold State.bay; simp

@[simp] theorem State.tuneFails_pu (s : State) (b : BayId) (p : Pu) (lp : LoopSel) (c : BayId) (q : Pu) : (s.tuneFails b p lp).pu c q = s.pu c q := by unfold State.pu; simp

@[simp] theorem State.tuneFails_safeBay (s : State) (b : BayId) (p : Pu) (lp : LoopSel) (c : BayId) : (s.tuneFails b p lp).safeBay c = s.safeBay c := by unfold State.safeBay; simp

@[simp] theorem State.abandonTune_safeBay (s : State) (b : BayId) (p : Pu) (c : BayId) : (s.abandonTune b p).safeBay c = s.safeBay c := by unfold State.safeBay; simp

@[simp] theorem State.supervisorTrip_safeBay (s : State) (b : BayId) (p : Pu) (lp : LoopSel) (check : Nat) (c : BayId) : (s.supervisorTrip b p lp check).safeBay c = s.safeBay c := by unfold State.safeBay; simp

@[simp] theorem State.supervisorFails_safeBay (s : State) (b : BayId) (p : Pu) (fs : List (LoopSel × Nat)) (c : BayId) : (s.supervisorFails b p fs).safeBay c = s.safeBay c := by unfold State.safeBay; simp

@[simp] theorem State.swapsDue_safeBay (s : State) (b : BayId) (p : Pu) (tick : Nat) (c : BayId) : (s.swapsDue b p tick).safeBay c = s.safeBay c := by unfold State.safeBay; simp

@[simp] theorem State.runLoops_safeBay (s : State) (b : BayId) (p : Pu) (v : Servo) (fe te : Int) (c : BayId) : (s.runLoops b p v fe te).safeBay c = s.safeBay c := by unfold State.safeBay; simp

@[simp] theorem State.slipCheck_safeBay (s : State) (b : BayId) (p : Pu) (te : Int) (c : BayId) : (s.slipCheck b p te).safeBay c = s.safeBay c := by unfold State.safeBay; simp

@[simp] theorem State.runSweeps_safeBay (s : State) (b : BayId) (p : Pu) (v : Servo) (c : BayId) : (s.runSweeps b p v).safeBay c = s.safeBay c := by unfold State.safeBay; simp

@[simp] theorem State.followMean_safeBay (s : State) (b : BayId) (p : Pu) (c : BayId) : (s.followMean b p).safeBay c = s.safeBay c := by unfold State.safeBay; simp

@[simp] theorem State.tempTrigger_safeBay (s : State) (b : BayId) (p : Pu) (c : BayId) : (s.tempTrigger b p).safeBay c = s.safeBay c := by unfold State.safeBay; simp

@[simp] theorem State.computeTick_safeBay (s : State) (b : BayId) (p : Pu) (v : Servo) (c : BayId) : (s.computeTick b p v).safeBay c = s.safeBay c := by unfold State.safeBay; simp

@[simp] theorem State.missTick_safeBay (s : State) (b : BayId) (p : Pu) (tick tq : Nat) (c : BayId) : (s.missTick b p tick tq).safeBay c = s.safeBay c := by unfold State.safeBay; simp

@[simp] theorem State.deadTick_safeBay (s : State) (b : BayId) (p : Pu) (tick tq : Nat) (c : BayId) : (s.deadTick b p tick tq).safeBay c = s.safeBay c := by unfold State.safeBay; simp

@[simp] theorem State.permitTick_safeBay (s : State) (b : BayId) (p : Pu) (c : BayId) : (s.permitTick b p).safeBay c = s.safeBay c := by unfold State.safeBay; simp

@[simp] theorem State.applyRows_safeBay (s : State) (b : BayId) (p : Pu) (rows : BitVec 18) (at' : Nat) (c : BayId) : (s.applyRows b p rows at').safeBay c = s.safeBay c := by unfold State.safeBay; simp

@[simp] theorem State.killUnit_safeBay (s : State) (b : BayId) (u : UnitSel) (c : BayId) : (s.killUnit b u).safeBay c = s.safeBay c := by unfold State.safeBay; simp

@[simp] theorem State.unitMismatch_safeBay (s : State) (b : BayId) (u : UnitSel) (c : BayId) : (s.unitMismatch b u).safeBay c = s.safeBay c := by unfold State.safeBay; simp

@[simp] theorem State.engineFaulty_safeBay (s : State) (r e code : Nat) (c : BayId) : (s.engineFaulty r e code).safeBay c = s.safeBay c := by unfold State.safeBay; simp

@[simp] theorem State.acceptServo_safeBay (s : State) (b : BayId) (p : Pu) (v : Servo) (upset : Bool) (c : BayId) : (s.acceptServo b p v upset).safeBay c = s.safeBay c := by unfold State.safeBay; simp

@[simp] theorem State.noteLayer_safeBay (s : State) (b : BayId) (p : Pu) (c : BayId) : (s.noteLayer b p).safeBay c = s.safeBay c := by unfold State.safeBay; simp

@[simp] theorem State.predictJump_safeBay (s : State) (b : BayId) (p : Pu) (n : Int) (c : BayId) : (s.predictJump b p n).safeBay c = s.safeBay c := by unfold State.safeBay; simp

@[simp] theorem State.setRef_safeBay (s : State) (b : BayId) (p : Pu) (c : BayId) : (s.setRef b p).safeBay c = s.safeBay c := by unfold State.safeBay; simp

@[simp] theorem State.tuneJudge_safeBay (s : State) (b : BayId) (p : Pu) (lp : LoopSel) (k : Bank) (cycles : List (Nat × Nat)) (c : BayId) : (s.tuneJudge b p lp k cycles).safeBay c = s.safeBay c := by unfold State.safeBay; simp

@[simp] theorem State.ladderEnds_safeBay (s : State) (b : BayId) (p : Pu) (q : SoftSlot) (c : BayId) : (s.ladderEnds b p q).safeBay c = s.safeBay c := by unfold State.safeBay; simp

@[simp] theorem State.newSlot_safeBay (s : State) (b : BayId) (p : Pu) (c : BayId) : (s.newSlot b p).safeBay c = s.safeBay c := by unfold State.safeBay; simp

@[simp] theorem State.takeSlot_safeBay (s : State) (b : BayId) (p : Pu) (c : BayId) : (s.takeSlot b p).safeBay c = s.safeBay c := by unfold State.safeBay; simp

@[simp] theorem State.rateCheck_safeBay (s : State) (b : BayId) (p : Pu) (c : BayId) : (s.rateCheck b p).safeBay c = s.safeBay c := by unfold State.safeBay; simp

@[simp] theorem State.openBoundary_safeBay (s : State) (b : BayId) (p : Pu) (c : BayId) : (s.openBoundary b p).safeBay c = s.safeBay c := by unfold State.safeBay; simp

@[simp] theorem State.sheetBlock_safeBay (s : State) (b : BayId) (p : Pu) (blk : SBlock) (c : BayId) : (s.sheetBlock b p blk).safeBay c = s.safeBay c := by unfold State.safeBay; simp

@[simp] theorem State.releaseDue_safeBay (s : State) (b : BayId) (p : Pu) (k0 : Nat) (c : BayId) : (s.releaseDue b p k0).safeBay c = s.safeBay c := by unfold State.safeBay; simp

@[simp] theorem State.releaseAll_safeBay (s : State) (b : BayId) (p : Pu) (c : BayId) : (s.releaseAll b p).safeBay c = s.safeBay c := by unfold State.safeBay; simp

@[simp] theorem State.sledTarget_safeBay (s : State) (b : BayId) (p : Pu) (radius : Int) (seek : Bool) (c : BayId) : (s.sledTarget b p radius seek).safeBay c = s.safeBay c := by unfold State.safeBay; simp

@[simp] theorem State.seekSleds_safeBay (s : State) (b : BayId) (radius : Int) (c : BayId) : (s.seekSleds b radius).safeBay c = s.safeBay c := by unfold State.safeBay; simp

@[simp] theorem State.enterSeek_safeBay (s : State) (b : BayId) (p : Pu) (c : BayId) : (s.enterSeek b p).safeBay c = s.safeBay c := by unfold State.safeBay; simp

@[simp] theorem State.correctionSeek_safeBay (s : State) (b : BayId) (p : Pu) (c : BayId) : (s.correctionSeek b p).safeBay c = s.safeBay c := by unfold State.safeBay; simp

@[simp] theorem State.sledStep_safeBay (s : State) (b : BayId) (p : Pu) (c : BayId) : (s.sledStep b p).safeBay c = s.safeBay c := by unfold State.safeBay; simp

@[simp] theorem State.sledLost_safeBay (s : State) (b : BayId) (p : Pu) (c : BayId) : (s.sledLost b p).safeBay c = s.safeBay c := by unfold State.safeBay; simp

@[simp] theorem State.sledWedge_safeBay (s : State) (b : BayId) (p : Pu) (radius : Nat) (c : BayId) : (s.sledWedge b p radius).safeBay c = s.safeBay c := by unfold State.safeBay; simp

@[simp] theorem State.sledSlip_safeBay (s : State) (b : BayId) (p : Pu) (radius : Nat) (c : BayId) : (s.sledSlip b p radius).safeBay c = s.safeBay c := by unfold State.safeBay; simp

@[simp] theorem State.jumpTo_safeBay (s : State) (b : BayId) (p : Pu) (n : Int) (c : BayId) : (s.jumpTo b p n).safeBay c = s.safeBay c := by unfold State.safeBay; simp

@[simp] theorem State.followTarget_safeBay (s : State) (b : BayId) (p : Pu) (c : BayId) : (s.followTarget b p).safeBay c = s.safeBay c := by unfold State.safeBay; simp

@[simp] theorem State.spEnter_safeBay (s : State) (b : BayId) (st : SpSt) (c : BayId) : (s.spEnter b st).safeBay c = s.safeBay c := by unfold State.safeBay; simp

@[simp] theorem State.enterCatch_safeBay (s : State) (b : BayId) (use : CatchUse) (c : BayId) : (s.enterCatch b use).safeBay c = s.safeBay c := by unfold State.safeBay; simp

@[simp] theorem State.spRecover_safeBay (s : State) (b : BayId) (c : BayId) : (s.spRecover b).safeBay c = s.safeBay c := by unfold State.safeBay; simp

@[simp] theorem State.spFault_safeBay (s : State) (b : BayId) (c : BayId) : (s.spFault b).safeBay c = s.safeBay c := by unfold State.safeBay; simp

@[simp] theorem State.spStopped_safeBay (s : State) (b : BayId) (c : BayId) : (s.spStopped b).safeBay c = s.safeBay c := by unfold State.safeBay; simp

@[simp] theorem State.spBrake_safeBay (s : State) (b : BayId) (c : BayId) : (s.spBrake b).safeBay c = s.safeBay c := by unfold State.safeBay; simp

@[simp] theorem State.spWait_safeBay (s : State) (b : BayId) (ms : Nat) (c : BayId) : (s.spWait b ms).safeBay c = s.safeBay c := by unfold State.safeBay; simp

@[simp] theorem State.spDecel_safeBay (s : State) (b : BayId) (goal : Int) (c : BayId) : (s.spDecel b goal).safeBay c = s.safeBay c := by unfold State.safeBay; simp

@[simp] theorem State.spSync_safeBay (s : State) (b : BayId) (idRef iq : Int) (c : BayId) : (s.spSync b idRef iq).safeBay c = s.safeBay c := by unfold State.safeBay; simp

@[simp] theorem State.tryFails_safeBay (s : State) (b : BayId) (c : BayId) : (s.tryFails b).safeBay c = s.safeBay c := by unfold State.safeBay; simp

@[simp] theorem State.spRun_safeBay (s : State) (b : BayId) (c : BayId) : (s.spRun b).safeBay c = s.safeBay c := by unfold State.safeBay; simp

@[simp] theorem State.currentLoops_safeBay (s : State) (b : BayId) (refs : Int × Int × Int) (meas : Option (Int × Int)) (c : BayId) : (s.currentLoops b refs meas).safeBay c = s.safeBay c := by unfold State.safeBay; simp

@[simp] theorem State.observe_safeBay (s : State) (b : BayId) (i : Int × Int) (c : BayId) : (s.observe b i).safeBay c = s.safeBay c := by unfold State.safeBay; simp

@[simp] theorem State.watchSpeed_safeBay (s : State) (b : BayId) (c : BayId) : (s.watchSpeed b).safeBay c = s.safeBay c := by unfold State.safeBay; simp

@[simp] theorem State.watchCatch_safeBay (s : State) (b : BayId) (rpm : Int) (c : BayId) : (s.watchCatch b rpm).safeBay c = s.safeBay c := by unfold State.safeBay; simp

@[simp] theorem State.swapBanks_safeBay (s : State) (b : BayId) (c : BayId) : (s.swapBanks b).safeBay c = s.safeBay c := by unfold State.safeBay; simp

@[simp] theorem State.undriven_safeBay (s : State) (b : BayId) (c : BayId) : (s.undriven b).safeBay c = s.safeBay c := by unfold State.safeBay; simp

@[simp] theorem State.periodCounts_safeBay (s : State) (b : BayId) (valid : Bool) (c : BayId) : (s.periodCounts b valid).safeBay c = s.safeBay c := by unfold State.safeBay; simp

@[simp] theorem State.periodEnd_safeBay (s : State) (b : BayId) (c : BayId) : (s.periodEnd b).safeBay c = s.safeBay c := by unfold State.safeBay; simp

@[simp] theorem State.holdDrive_safeBay (s : State) (b : BayId) (c : BayId) : (s.holdDrive b).safeBay c = s.safeBay c := by unfold State.safeBay; simp

@[simp] theorem State.spinPeriod_safeBay (s : State) (b : BayId) (meas : Option (Int × Int)) (held : Bool) (c : BayId) : (s.spinPeriod b meas held).safeBay c = s.safeBay c := by unfold State.safeBay; simp

@[simp] theorem State.handCheck_safeBay (s : State) (b : BayId) (c : BayId) : (s.handCheck b).safeBay c = s.safeBay c := by unfold State.safeBay; simp

@[simp] theorem State.crossCheck_safeBay (s : State) (b : BayId) (c : BayId) : (s.crossCheck b).safeBay c = s.safeBay c := by unfold State.safeBay; simp

@[simp] theorem State.speedStep_safeBay (s : State) (b : BayId) (c : BayId) : (s.speedStep b).safeBay c = s.safeBay c := by unfold State.safeBay; simp

@[simp] theorem State.catchFails_safeBay (s : State) (b : BayId) (c : BayId) : (s.catchFails b).safeBay c = s.safeBay c := by unfold State.safeBay; simp

@[simp] theorem State.testSeed_safeBay (s : State) (b : BayId) (rpm : Int) (frames : Nat) (c : BayId) : (s.testSeed b rpm frames).safeBay c = s.safeBay c := by unfold State.safeBay; simp

@[simp] theorem State.catchOutcome_safeBay (s : State) (b : BayId) (n : Nat) (c : BayId) : (s.catchOutcome b n).safeBay c = s.safeBay c := by unfold State.safeBay; simp

@[simp] theorem State.closeSegment_safeBay (s : State) (b : BayId) (p : Pu) (g : Seg) (confirmed : Bool) (c : BayId) : (s.closeSegment b p g confirmed).safeBay c = s.safeBay c := by unfold State.safeBay; simp

@[simp] theorem State.confirmReads_safeBay (s : State) (b : BayId) (p : Pu) (c : BayId) : (s.confirmReads b p).safeBay c = s.safeBay c := by unfold State.safeBay; simp

@[simp] theorem State.verifyUnread_safeBay (s : State) (b : BayId) (p : Pu) (a : SecAddr) (c : BayId) : (s.verifyUnread b p a).safeBay c = s.safeBay c := by unfold State.safeBay; simp

@[simp] theorem State.withdrawPass_safeBay (s : State) (b : BayId) (p : Pu) (c : BayId) : (s.withdrawPass b p).safeBay c = s.safeBay c := by unfold State.safeBay; simp

@[simp] theorem State.askRows_safeBay (s : State) (b : BayId) (p : Pu) (spots : List Nat) (apply : Int) (c : BayId) : (s.askRows b p spots apply).safeBay c = s.safeBay c := by unfold State.safeBay; simp

@[simp] theorem State.noteSwaps_safeBay (s : State) (b : BayId) (p : Pu) (spots : List Nat) (c : BayId) : (s.noteSwaps b p spots).safeBay c = s.safeBay c := by unfold State.safeBay; simp

@[simp] theorem State.planExam_safeBay (s : State) (b : BayId) (p : Pu) (apply : Int) (c : BayId) : (s.planExam b p apply).safeBay c = s.safeBay c := by unfold State.safeBay; simp

@[simp] theorem State.planSwaps_safeBay (s : State) (b : BayId) (p : Pu) (apply : Int) (c : BayId) : (s.planSwaps b p apply).safeBay c = s.safeBay c := by unfold State.safeBay; simp

@[simp] theorem State.retirePickup_safeBay (s : State) (b : BayId) (p : Pu) (c : BayId) : (s.retirePickup b p).safeBay c = s.safeBay c := by unfold State.safeBay; simp

@[simp] theorem State.retireSpots_safeBay (s : State) (b : BayId) (p : Pu) (c : BayId) : (s.retireSpots b p).safeBay c = s.safeBay c := by unfold State.safeBay; simp

@[simp] theorem State.openDetector_safeBay (s : State) (b : BayId) (p : Pu) (a : SecAddr) (c : BayId) : (s.openDetector b p a).safeBay c = s.safeBay c := by unfold State.safeBay; simp

@[simp] theorem State.admission_bay (s : State) (b : BayId) (p : Pu) (work : Bool) (c : BayId) : (s.admission b p work).bay c = s.bay c := by unfold State.bay; simp

@[simp] theorem State.admission_pu (s : State) (b : BayId) (p : Pu) (work : Bool) (c : BayId) (q : Pu) : (s.admission b p work).pu c q = s.pu c q := by unfold State.pu; simp

@[simp] theorem State.admission_safeBay (s : State) (b : BayId) (p : Pu) (work : Bool) (c : BayId) : (s.admission b p work).safeBay c = s.safeBay c := by unfold State.safeBay; simp

@[simp] theorem State.openSector_safeBay (s : State) (b : BayId) (p : Pu) (f : FrameAddr) (c : BayId) : (s.openSector b p f).safeBay c = s.safeBay c := by unfold State.safeBay; simp

@[simp] theorem State.blockJump_safeBay (s : State) (b : BayId) (p : Pu) (k : PassBlock) (step : BlockStep) (tries : Nat) (c : BayId) : (s.blockJump b p k step tries).safeBay c = s.safeBay c := by unfold State.safeBay; simp

@[simp] theorem State.alignCheck_safeBay (s : State) (b : BayId) (p : Pu) (f : Nat) (confirmed : Bool) (pos : Int) (c : BayId) : (s.alignCheck b p f confirmed pos).safeBay c = s.safeBay c := by unfold State.safeBay; simp

@[simp] theorem State.passEnd_safeBay (s : State) (b : BayId) (p : Pu) (k : PassBlock) (c : BayId) : (s.passEnd b p k).safeBay c = s.safeBay c := by unfold State.safeBay; simp

@[simp] theorem State.takeoverWedge_safeBay (s : State) (b : BayId) (p : Pu) (pos : Int) (c : BayId) : (s.takeoverWedge b p pos).safeBay c = s.safeBay c := by unfold State.safeBay; simp

@[simp] theorem State.blockWedge_safeBay (s : State) (b : BayId) (p : Pu) (f : FrameAddr) (confirmed : Bool) (pos : Int) (c : BayId) : (s.blockWedge b p f confirmed pos).safeBay c = s.safeBay c := by unfold State.safeBay; simp

@[simp] theorem State.pairCheck_safeBay (s : State) (b : BayId) (c : BayId) : (s.pairCheck b).safeBay c = s.safeBay c := by unfold State.safeBay; simp

@[simp] theorem State.wedgeConfirmed_safeBay (s : State) (b : BayId) (p : Pu) (f : FrameAddr) (c : BayId) : (s.wedgeConfirmed b p f).safeBay c = s.safeBay c := by unfold State.safeBay; simp

@[simp] theorem State.wedgeNext_safeBay (s : State) (b : BayId) (p : Pu) (f : FrameAddr) (pos : Int) (c : BayId) : (s.wedgeNext b p f pos).safeBay c = s.safeBay c := by unfold State.safeBay; simp

@[simp] theorem State.takeLock_safeBay (s : State) (b : BayId) (p : Pu) (f : FrameAddr) (per ivl pos : Int) (c : BayId) : (s.takeLock b p f per ivl pos).safeBay c = s.safeBay c := by unfold State.safeBay; simp

@[simp] theorem State.searchWedge_safeBay (s : State) (b : BayId) (p : Pu) (since : Nat) (first : Option (FrameAddr × Int)) (a : WedgeAddr) (pos : Int) (c : BayId) : (s.searchWedge b p since first a pos).safeBay c = s.safeBay c := by unfold State.safeBay; simp

@[simp] theorem State.searchOn_safeBay (s : State) (b : BayId) (p : Pu) (c : BayId) : (s.searchOn b p).safeBay c = s.safeBay c := by unfold State.safeBay; simp

@[simp] theorem State.endSegment_safeBay (s : State) (b : BayId) (p : Pu) (g : Seg) (confirmed : Bool) (c : BayId) : (s.endSegment b p g confirmed).safeBay c = s.safeBay c := by unfold State.safeBay; simp

@[simp] theorem State.lockedWedge_safeBay (s : State) (b : BayId) (p : Pu) (found : Bool) (a : Option WedgeAddr) (pos : Int) (c : BayId) : (s.lockedWedge b p found a pos).safeBay c = s.safeBay c := by unfold State.safeBay; simp

@[simp] theorem State.countCorrection_safeBay (s : State) (b : BayId) (p : Pu) (c : BayId) : (s.countCorrection b p).safeBay c = s.safeBay c := by unfold State.safeBay; simp

@[simp] theorem State.acquireFix_safeBay (s : State) (b : BayId) (p : Pu) (tag : Nat) (x : AcqAnswer) (c : BayId) : (s.acquireFix b p tag x).safeBay c = s.safeBay c := by unfold State.safeBay; simp

@[simp] theorem State.sawAddr_safeBay (s : State) (b : BayId) (p : Pu) (a : WedgeAddr) (c : BayId) : (s.sawAddr b p a).safeBay c = s.safeBay c := by unfold State.safeBay; simp

@[simp] theorem State.endExcursion_safeBay (s : State) (b : BayId) (c : BayId) : (s.endExcursion b).safeBay c = s.safeBay c := by unfold State.safeBay; simp

@[simp] theorem State.sendSegment_safeBay (s : State) (b : BayId) (p : Pu) (pass : Nat) (first interval : Int) (bits : List (List Bool)) (c : BayId) : (s.sendSegment b p pass first interval bits).safeBay c = s.safeBay c := by unfold State.safeBay; simp

@[simp] theorem State.useSpare_safeBay (s : State) (b : BayId) (p : Pu) (a : SecAddr) (c : BayId) : (s.useSpare b p a).safeBay c = s.safeBay c := by unfold State.safeBay; simp

@[simp] theorem State.touchSector_safeBay (s : State) (b : BayId) (p : Pu) (c : Coded) (c0 : BayId) : (s.touchSector b p c).safeBay c0 = s.safeBay c0 := by unfold State.safeBay; simp

@[simp] theorem State.writeSegment_safeBay (s : State) (b : BayId) (p : Pu) (k : PassBlock) (c : Coded) (f : Nat) (c0 : BayId) : (s.writeSegment b p k c f).safeBay c0 = s.safeBay c0 := by unfold State.safeBay; simp

@[simp] theorem State.passSector_safeBay (s : State) (b : BayId) (p : Pu) (k : PassBlock) (f : Nat) (c : BayId) : (s.passSector b p k f).safeBay c = s.safeBay c := by unfold State.safeBay; simp

end Sys2Proof.Machine
end

