-- ==== Sys2Proof/Laws/FrameSafetyRows.lean ====
section
/-! SUPPORT. What the operations of Machine/SafetyRows.lean leave unchanged: one lemma each, the fields of the state it does not touch. -/

namespace Sys2Proof.Machine

theorem execLmonTrip_frame (b : BayId) (s : State) (t : State)
    (h : execLmonTrip b s = .next t) :
    t.pending = s.pending ∧ t.free = s.free ∧ t.mem = s.mem ∧ t.flash = s.flash ∧ t.cfg = s.cfg ∧ t.trust = s.trust ∧
    t.blk = s.blk ∧ t.inj = s.inj := by
  unfold execLmonTrip at h
  replace h := (withBay_next h).2
  subst h
  refine ⟨?_, ?_, ?_, ?_, ?_, ?_, ?_, ?_⟩ <;> (try simp) <;> repeat' (first | intro _ | (split <;> try simp))

theorem execIlkOpen_frame (s : State) (t : State)
    (h : execIlkOpen s = .next t) :
    t.pending = s.pending ∧ t.free = s.free ∧ t.ham = s.ham ∧ t.mem = s.mem ∧ t.flash = s.flash ∧ t.cfg = s.cfg ∧
    t.trust = s.trust ∧ t.blk = s.blk ∧ t.inj = s.inj ∧ t.bays = s.bays := by
  unfold execIlkOpen at h
  injection h with h; subst h
  refine ⟨?_, ?_, ?_, ?_, ?_, ?_, ?_, ?_, ?_, ?_⟩ <;> (try simp) <;> repeat' (first | intro _ | (split <;> try simp))

theorem execSpdfToggle_frame (b : BayId) (afterUs : Nat) (s : State) (t : State)
    (h : execSpdfToggle b afterUs s = .next t) :
    t.pending = s.pending ∧ t.free = s.free ∧ t.mem = s.mem ∧ t.flash = s.flash ∧ t.cfg = s.cfg ∧ t.trust = s.trust ∧
    t.blk = s.blk ∧ t.inj = s.inj := by
  unfold execSpdfToggle at h
  replace h := (withBay_next h).2
  subst h
  refine ⟨?_, ?_, ?_, ?_, ?_, ?_, ?_, ?_⟩
  · simp only [State.after_frame]; split
    · rfl
    · split <;> simp
  · simp only [State.after_frame]; split
    · rfl
    · split <;> simp
  · simp only [State.after_frame]; split
    · rfl
    · split <;> simp
  · simp only [State.after_frame]; split
    · rfl
    · split <;> simp
  · simp only [State.after_frame]; split
    · rfl
    · split <;> simp
  · simp only [State.after_frame]; split
    · rfl
    · split <;> simp
  · simp only [State.after_frame]; split
    · rfl
    · split <;> simp
  · simp only [State.after_frame]; split
    · rfl
    · split <;> simp

theorem execSpeedReport_frame (b : BayId) (s : State) (t : State)
    (h : execSpeedReport b s = .next t) :
    t.pending = s.pending ∧ t.out = s.out ∧ t.free = s.free ∧ t.ev = s.ev ∧ t.mem = s.mem ∧ t.flash = s.flash ∧ t.cfg = s.cfg ∧
    t.trust = s.trust ∧ t.blk = s.blk ∧ t.inj = s.inj ∧ t.chip = s.chip := by
  unfold execSpeedReport at h
  replace h := (withBay_next h).2
  subst h
  refine ⟨?_, ?_, ?_, ?_, ?_, ?_, ?_, ?_, ?_, ?_, ?_⟩ <;> (try simp) <;> repeat' (first | intro _ | (split <;> try simp))

theorem execPlausibilityTrip_frame (b : BayId) (s : State) (t : State)
    (h : execPlausibilityTrip b s = .next t) :
    t.pending = s.pending ∧ t.free = s.free ∧ t.mem = s.mem ∧ t.flash = s.flash ∧ t.cfg = s.cfg ∧ t.trust = s.trust ∧
    t.blk = s.blk ∧ t.inj = s.inj := by
  unfold execPlausibilityTrip at h
  replace h := (withBay_next h).2
  subst h
  refine ⟨?_, ?_, ?_, ?_, ?_, ?_, ?_, ?_⟩ <;> (try simp) <;> repeat' (first | intro _ | (split <;> try simp))

theorem execGateForce_frame (b : BayId) (p : Pu) (s : State) (t : State)
    (h : execGateForce b p s = .next t) :
    t.pending = s.pending ∧ t.free = s.free ∧ t.mem = s.mem ∧ t.flash = s.flash ∧ t.cfg = s.cfg ∧ t.trust = s.trust ∧
    t.blk = s.blk ∧ t.inj = s.inj := by
  unfold execGateForce at h
  replace h := (withBay_next h).2
  subst h
  refine ⟨?_, ?_, ?_, ?_, ?_, ?_, ?_, ?_⟩ <;> (try simp) <;> repeat' (first | intro _ | (split <;> try simp))

theorem execBayHoldReceipt_frame (b : BayId) (s : State) (t : State)
    (h : execBayHoldReceipt b s = .next t) :
    t.pending = s.pending ∧ t.free = s.free ∧ t.ev = s.ev ∧ t.mem = s.mem ∧ t.flash = s.flash ∧ t.cfg = s.cfg ∧
    t.trust = s.trust ∧ t.inj = s.inj ∧ t.chip = s.chip := by
  unfold execBayHoldReceipt at h
  replace h := (withBay_next h).2
  subst h
  refine ⟨?_, ?_, ?_, ?_, ?_, ?_, ?_, ?_, ?_⟩ <;> (try simp) <;> repeat' (first | intro _ | (split <;> try simp))

theorem execHeartbeatWordRx_frame (side : HbSide) (seq : BitVec 16) (checkGood onPeriod serviceGood : Bool) (s : State) (t : State)
    (h : execHeartbeatWordRx side seq checkGood onPeriod serviceGood s = .next t) :
    t.pending = s.pending ∧ t.out = s.out ∧ t.free = s.free ∧ t.host = s.host ∧ t.ev = s.ev ∧ t.ham = s.ham ∧ t.mem = s.mem ∧
    t.flash = s.flash ∧ t.cfg = s.cfg ∧ t.trust = s.trust ∧ t.blk = s.blk ∧ t.inj = s.inj ∧ t.chip = s.chip ∧ t.bays = s.bays := by
  unfold execHeartbeatWordRx at h
  injection h with h; subst h
  refine ⟨?_, ?_, ?_, ?_, ?_, ?_, ?_, ?_, ?_, ?_, ?_, ?_, ?_, ?_⟩ <;> (try simp) <;> repeat' (first | intro _ | (split <;> try simp))

theorem execHeartbeatLostIsland_frame (s : State) (t : State)
    (h : execHeartbeatLostIsland s = .next t) :
    t.pending = s.pending ∧ t.free = s.free ∧ t.flash.mem = s.flash.mem ∧ t.trust.fuses = s.trust.fuses := by
  unfold execHeartbeatLostIsland at h
  injection h with h; subst h
  refine ⟨?_, ?_, ?_, ?_⟩ <;> (try simp) <;> repeat' (first | intro _ | (split <;> try simp))

theorem execIslandLostAgent_frame (s : State) (t : State)
    (h : execIslandLostAgent s = .next t) :
    t.pending = s.pending ∧ t.free = s.free ∧ t.ham = s.ham ∧ t.mem = s.mem ∧ t.flash = s.flash ∧ t.cfg = s.cfg ∧
    t.trust = s.trust ∧ t.blk = s.blk ∧ t.inj = s.inj := by
  unfold execIslandLostAgent at h
  injection h with h; subst h
  refine ⟨?_, ?_, ?_, ?_, ?_, ?_, ?_, ?_, ?_⟩ <;> (try simp) <;> repeat' (first | intro _ | (split <;> try simp))

theorem execPermitRequest_frame (b : BayId) (lsafe : Bool) (ilkHighMs lmonHighMs : Nat) (s : State) (t : State)
    (h : execPermitRequest b lsafe ilkHighMs lmonHighMs s = .next t) :
    t.pending = s.pending ∧ t.free = s.free ∧ t.ev = s.ev ∧ t.mem = s.mem ∧ t.flash = s.flash ∧ t.cfg = s.cfg ∧
    t.trust = s.trust ∧ t.blk = s.blk ∧ t.inj = s.inj ∧ t.chip = s.chip := by
  unfold execPermitRequest at h
  replace h := (withBay_next h).2
  subst h
  refine ⟨?_, ?_, ?_, ?_, ?_, ?_, ?_, ?_, ?_, ?_⟩ <;> (try simp) <;> repeat' (first | intro _ | (split <;> try simp))

theorem execKeeperDrop_frame (b : BayId) (lsafe : Bool) (s : State) (t : State)
    (h : execKeeperDrop b lsafe s = .next t) :
    t.pending = s.pending ∧ t.free = s.free ∧ t.ev = s.ev ∧ t.mem = s.mem ∧ t.flash = s.flash ∧ t.cfg = s.cfg ∧
    t.trust = s.trust ∧ t.blk = s.blk ∧ t.inj = s.inj ∧ t.chip = s.chip := by
  unfold execKeeperDrop at h
  replace h := (withBay_next h).2
  subst h
  refine ⟨?_, ?_, ?_, ?_, ?_, ?_, ?_, ?_, ?_, ?_⟩ <;> (try simp) <;> repeat' (first | intro _ | (split <;> try simp))

theorem execOutputReadback_frame (b : BayId) (lsafe pinHigh : Bool) (s : State) (t : State)
    (h : execOutputReadback b lsafe pinHigh s = .next t) :
    t.pending = s.pending ∧ t.free = s.free ∧ t.mem = s.mem ∧ t.flash = s.flash ∧ t.cfg = s.cfg ∧ t.trust = s.trust ∧
    t.blk = s.blk ∧ t.inj = s.inj := by
  unfold execOutputReadback at h
  replace h := (withBay_next h).2
  subst h
  refine ⟨?_, ?_, ?_, ?_, ?_, ?_, ?_, ?_⟩ <;> (try simp) <;> repeat' (first | intro _ | (split <;> try simp))

theorem execLockstepMismatch_frame (s : State) (t : State)
    (h : execLockstepMismatch s = .next t) :
    t.pending = s.pending ∧ t.free = s.free ∧ t.ham = s.ham ∧ t.mem = s.mem ∧ t.flash = s.flash ∧ t.cfg = s.cfg ∧
    t.trust = s.trust ∧ t.blk = s.blk ∧ t.inj = s.inj ∧ t.bays = s.bays := by
  unfold execLockstepMismatch at h
  injection h with h; subst h
  refine ⟨?_, ?_, ?_, ?_, ?_, ?_, ?_, ?_, ?_, ?_⟩ <;> (try simp) <;> repeat' (first | intro _ | (split <;> try simp))

theorem execRomCheck_frame (good : Bool) (s : State) (t : State)
    (h : execRomCheck good s = .next t) :
    t.pending = s.pending ∧ t.free = s.free ∧ t.ham = s.ham ∧ t.mem = s.mem ∧ t.flash = s.flash ∧ t.cfg = s.cfg ∧
    t.trust = s.trust ∧ t.blk = s.blk ∧ t.inj = s.inj ∧ t.bays = s.bays := by
  unfold execRomCheck at h
  injection h with h; subst h
  refine ⟨?_, ?_, ?_, ?_, ?_, ?_, ?_, ?_, ?_, ?_⟩ <;> (try simp) <;> repeat' (first | intro _ | (split <;> try simp))

theorem execVddSafeExcursion_frame (s : State) (t : State)
    (h : execVddSafeExcursion s = .next t) :
    t.pending = s.pending ∧ t.free = s.free ∧ t.ham = s.ham ∧ t.mem = s.mem ∧ t.flash = s.flash ∧ t.cfg = s.cfg ∧
    t.trust = s.trust ∧ t.blk = s.blk ∧ t.inj = s.inj ∧ t.bays = s.bays := by
  unfold execVddSafeExcursion at h
  injection h with h; subst h
  refine ⟨?_, ?_, ?_, ?_, ?_, ?_, ?_, ?_, ?_, ?_⟩ <;> (try simp) <;> repeat' (first | intro _ | (split <;> try simp))

theorem execVddSafeReturn_frame (selfTestGood : Bool) (s : State) (t : State)
    (h : execVddSafeReturn selfTestGood s = .next t) :
    t.pending = s.pending ∧ t.free = s.free ∧ t.ham = s.ham ∧ t.mem = s.mem ∧ t.flash = s.flash ∧ t.cfg = s.cfg ∧
    t.trust = s.trust ∧ t.blk = s.blk ∧ t.inj = s.inj ∧ t.bays = s.bays := by
  unfold execVddSafeReturn at h
  injection h with h; subst h
  refine ⟨?_, ?_, ?_, ?_, ?_, ?_, ?_, ?_, ?_, ?_⟩ <;> (try simp) <;> repeat' (first | intro _ | (split <;> try simp))

theorem execLmonMismatch_frame (b : BayId) (s : State) (t : State)
    (h : execLmonMismatch b s = .next t) :
    t.pending = s.pending ∧ t.free = s.free ∧ t.mem = s.mem ∧ t.flash = s.flash ∧ t.cfg = s.cfg ∧ t.trust = s.trust ∧
    t.blk = s.blk ∧ t.inj = s.inj := by
  unfold execLmonMismatch at h
  replace h := (withBay_next h).2
  subst h
  refine ⟨?_, ?_, ?_, ?_, ?_, ?_, ?_, ?_⟩ <;> (try simp) <;> repeat' (first | intro _ | (split <;> try simp))

end Sys2Proof.Machine
end

