-- ==== Sys2Proof/Laws/Core.lean ====
section
/-! SUPPORT. What reads, writes, the hampers and the host leave of every bay: motors, sleds, links and motion of the pickups. -/

namespace Sys2Proof.Machine

/-- What moves in a pickup: its state, loops, elements and the state of its link. -/
def Pickup.core (u : Pickup) : Motion × Loop × Loop × Loop × List Element × LinkSt × Bool × Bool :=
  (u.ms, u.focus, u.track, u.tilt, u.elems, u.link.st, u.link.oneLane, u.link.laser)

/-- What moves in a bay: motor link, spindle, sleds, place and the pickups. -/
def Bay.inner (y : Bay) : MLink × Spindle × Sled × Sled × Zone × Nat × Pu × SpareRx × (Motion × Loop × Loop × Loop × List Element × LinkSt × Bool × Bool) × (Motion × Loop × Loop × Loop × List Element × LinkSt × Bool × Bool) :=
  (y.mlink, y.spindle, y.sledA, y.sledB, y.zone, y.radius, y.ref, y.spare, y.pa.core, y.pb.core)

/-- What moves in a bay, kept folded. -/
def Bay.core (y : Bay) := y.inner

theorem State.updBay_core (s : State) (b : BayId) (f : Bay → Bay) (c : BayId) (h : ∀ y, (f y).inner = y.inner) :
    ((s.updBay b f).bays.get c).core = (s.bays.get c).core := by
  by_cases hb : b = c
  · subst hb; have := State.updBay_bay s b f; unfold State.bay at this; rw [this]; exact h _
  · have := State.updBay_bay_other s b c f hb; unfold State.bay at this; rw [this]

theorem State.updPu_core (s : State) (b : BayId) (p : Pu) (f : Pickup → Pickup) (c : BayId) (h : ∀ u, (f u).core = u.core) :
    ((s.updPu b p f).bays.get c).core = (s.bays.get c).core := by
  unfold State.updPu
  apply State.updBay_core
  intro y
  cases p <;> simp [Bay.setPu, Bay.pu, Bay.inner, h]

theorem State.updLink_core (s : State) (b : BayId) (p : Pu) (f : HLink → HLink) (c : BayId)
    (h : ∀ l, (f l).st = l.st ∧ (f l).oneLane = l.oneLane ∧ (f l).laser = l.laser) :
    ((s.updLink b p f).bays.get c).core = (s.bays.get c).core := by
  unfold State.updLink
  apply State.updPu_core
  intro u
  simp [Pickup.core, h]

@[simp] theorem State.ite_core (x : Prop) [Decidable x] (s t : State) (c : BayId) :
    ((if x then s else t).bays.get c).core = if x then (s.bays.get c).core else (t.bays.get c).core := by split <;> rfl

theorem State.foldl_core {α : Type} (c : BayId) (f : State → α → State) (hf : ∀ s a, ((f s a).bays.get c).core = (s.bays.get c).core) (l : List α)
    (s : State) : ((l.foldl f s).bays.get c).core = (s.bays.get c).core := by
  induction l generalizing s with
  | nil => rfl
  | cons a l ih => rw [List.foldl_cons, ih, hf]

theorem State.foldl2_core {α β : Type} (c : BayId) (f : β × State → α → β × State)
    (hf : ∀ r a, ((f r a).2.bays.get c).core = (r.2.bays.get c).core) (l : List α) (r : β × State) :
    ((l.foldl f r).2.bays.get c).core = (r.2.bays.get c).core := by
  induction l generalizing r with
  | nil => rfl
  | cons a l ih => rw [List.foldl_cons, ih, hf]

@[simp] theorem State.handOver_core (s : State) (b : BayId) (p : Pu) (c : Coded) (oc : BayId) :
    ((s.handOver b p c).bays.get oc).core = (s.bays.get oc).core := by
  unfold State.handOver
  (try simp) <;> repeat' (first | intro _ | (with_reducible refine Eq.trans (State.updPu_core _ _ _ _ _ ?_) ?_ <;> try simp [Pickup.core]) | (with_reducible refine Eq.trans (State.updBay_core _ _ _ _ ?_) ?_ <;> try simp [Pickup.core, Bay.inner]) | (split <;> try simp) | (with_reducible refine Eq.trans (State.updLink_core _ _ _ _ _ ?_) ?_ <;> try simp))

@[simp] theorem State.encodeStripe_core (s : State) (h : SlotId) (seq : Nat) (oc : BayId) :
    ((s.encodeStripe h seq).bays.get oc).core = (s.bays.get oc).core := by
  unfold State.encodeStripe
  (try simp) <;> repeat' (first | intro _ | (with_reducible refine Eq.trans (State.updPu_core _ _ _ _ _ ?_) ?_ <;> try simp [Pickup.core]) | (with_reducible refine Eq.trans (State.updBay_core _ _ _ _ ?_) ?_ <;> try simp [Pickup.core, Bay.inner]) | (split <;> (try (rename_i hp; replace hp := congrArg Prod.snd hp; dsimp only at hp; subst hp)) <;> try simp) | (with_reducible refine Eq.trans (State.updLink_core _ _ _ _ _ ?_) ?_ <;> try simp) | ((first | rw [State.foldl_core _ _ ?_] | rw [State.foldl2_core _ _ ?_] | rw [State.eachHamper_core _ _ ?_]) <;> intros <;> try simp))

@[simp] theorem State.closeOpen_core (s : State) (h : SlotId) (oc : BayId) :
    ((s.closeOpen h).bays.get oc).core = (s.bays.get oc).core := by
  unfold State.closeOpen
  (try simp) <;> repeat' (first | intro _ | (with_reducible refine Eq.trans (State.updPu_core _ _ _ _ _ ?_) ?_ <;> try simp [Pickup.core]) | (with_reducible refine Eq.trans (State.updBay_core _ _ _ _ ?_) ?_ <;> try simp [Pickup.core, Bay.inner]) | (split <;> try simp) | (with_reducible refine Eq.trans (State.updLink_core _ _ _ _ _ ?_) ?_ <;> try simp))

@[simp] theorem State.askRead_core (s : State) (b : BayId) (p : Pu) (a : SecAddr) (why : Purpose) (basket : Nat) (oc : BayId) :
    ((s.askRead b p a why basket).bays.get oc).core = (s.bays.get oc).core := by
  unfold State.askRead
  (try simp) <;> repeat' (first | intro _ | (with_reducible refine Eq.trans (State.updPu_core _ _ _ _ _ ?_) ?_ <;> try simp [Pickup.core]) | (with_reducible refine Eq.trans (State.updBay_core _ _ _ _ ?_) ?_ <;> try simp [Pickup.core, Bay.inner]) | (split <;> try simp) | (with_reducible refine Eq.trans (State.updLink_core _ _ _ _ _ ?_) ?_ <;> try simp))

@[simp] theorem State.gather_core (s : State) (h : SlotId) (seq : Nat) (k0 : Nat) (oc : BayId) :
    ((s.gather h seq k0).bays.get oc).core = (s.bays.get oc).core := by
  induction k0 generalizing s h seq with
  | zero => unfold State.gather; simp
  | succ n ih =>
    unfold State.gather
    (try simp [ih]) <;> repeat' (first | intro _ | (with_reducible refine Eq.trans (State.updPu_core _ _ _ _ _ ?_) ?_ <;> try simp [Pickup.core]) | (with_reducible refine Eq.trans (State.updBay_core _ _ _ _ ?_) ?_ <;> try simp [Pickup.core, Bay.inner]) | (split <;> try simp [ih]) | (with_reducible refine Eq.trans (State.updLink_core _ _ _ _ _ ?_) ?_ <;> try simp [ih]))

@[simp] theorem State.gatherFor_core (s : State) (h : SlotId) (seq : Nat) (oc : BayId) :
    ((s.gatherFor h seq).bays.get oc).core = (s.bays.get oc).core := by
  unfold State.gatherFor
  (try simp) <;> repeat' (first | intro _ | (with_reducible refine Eq.trans (State.updPu_core _ _ _ _ _ ?_) ?_ <;> try simp [Pickup.core]) | (with_reducible refine Eq.trans (State.updBay_core _ _ _ _ ?_) ?_ <;> try simp [Pickup.core, Bay.inner]) | (split <;> try simp) | (with_reducible refine Eq.trans (State.updLink_core _ _ _ _ _ ?_) ?_ <;> try simp))

@[simp] theorem State.wantSector_core (s : State) (h : SlotId) (seq pos : Nat) (verify : Bool) (oc : BayId) :
    ((s.wantSector h seq pos verify).bays.get oc).core = (s.bays.get oc).core := by
  unfold State.wantSector
  (try simp) <;> repeat' (first | intro _ | (with_reducible refine Eq.trans (State.updPu_core _ _ _ _ _ ?_) ?_ <;> try simp [Pickup.core]) | (with_reducible refine Eq.trans (State.updBay_core _ _ _ _ ?_) ?_ <;> try simp [Pickup.core, Bay.inner]) | (split <;> try simp) | (with_reducible refine Eq.trans (State.updLink_core _ _ _ _ _ ?_) ?_ <;> try simp))

@[simp] theorem State.answerBlock_core (s : State) (h : SlotId) (order i : Nat) (oc : BayId) :
    ((s.answerBlock h order i).bays.get oc).core = (s.bays.get oc).core := by
  unfold State.answerBlock
  (try simp) <;> repeat' (first | intro _ | (with_reducible refine Eq.trans (State.updPu_core _ _ _ _ _ ?_) ?_ <;> try simp [Pickup.core]) | (with_reducible refine Eq.trans (State.updBay_core _ _ _ _ ?_) ?_ <;> try simp [Pickup.core, Bay.inner]) | (split <;> try simp) | (with_reducible refine Eq.trans (State.updLink_core _ _ _ _ _ ?_) ?_ <;> try simp))

@[simp] theorem State.serveReads_core (s : State) (h : SlotId) (oc : BayId) :
    ((s.serveReads h).bays.get oc).core = (s.bays.get oc).core := by
  unfold State.serveReads
  (try simp) <;> repeat' (first | intro _ | (with_reducible refine Eq.trans (State.updPu_core _ _ _ _ _ ?_) ?_ <;> try simp [Pickup.core]) | (with_reducible refine Eq.trans (State.updBay_core _ _ _ _ ?_) ?_ <;> try simp [Pickup.core, Bay.inner]) | (split <;> try simp) | (with_reducible refine Eq.trans (State.updLink_core _ _ _ _ _ ?_) ?_ <;> try simp) | ((first | rw [State.foldl_core _ _ ?_] | rw [State.foldl2_core _ _ ?_] | rw [State.eachHamper_core _ _ ?_]) <;> intros <;> try simp))

@[simp] theorem State.sectorLanded_core (s : State) (h : SlotId) (seq pos : Nat) (payload : Bytes) (bufs : List Nat) (oc : BayId) :
    ((s.sectorLanded h seq pos payload bufs).bays.get oc).core = (s.bays.get oc).core := by
  unfold State.sectorLanded
  (try simp) <;> repeat' (first | intro _ | (with_reducible refine Eq.trans (State.updPu_core _ _ _ _ _ ?_) ?_ <;> try simp [Pickup.core]) | (with_reducible refine Eq.trans (State.updBay_core _ _ _ _ ?_) ?_ <;> try simp [Pickup.core, Bay.inner]) | (split <;> try simp) | (with_reducible refine Eq.trans (State.updLink_core _ _ _ _ _ ?_) ?_ <;> try simp))

@[simp] theorem State.sectorUnread_core (s : State) (h : SlotId) (seq pos : Nat) (early : Bool) (bufs : List Nat) (oc : BayId) :
    ((s.sectorUnread h seq pos early bufs).bays.get oc).core = (s.bays.get oc).core := by
  unfold State.sectorUnread
  (try simp) <;> repeat' (first | intro _ | (with_reducible refine Eq.trans (State.updPu_core _ _ _ _ _ ?_) ?_ <;> try simp [Pickup.core]) | (with_reducible refine Eq.trans (State.updBay_core _ _ _ _ ?_) ?_ <;> try simp [Pickup.core, Bay.inner]) | (split <;> try simp) | (with_reducible refine Eq.trans (State.updLink_core _ _ _ _ _ ?_) ?_ <;> try simp))

@[simp] theorem State.rebuildSector_core (s : State) (h : SlotId) (seq pos : Nat) (oc : BayId) :
    ((s.rebuildSector h seq pos).bays.get oc).core = (s.bays.get oc).core := by
  unfold State.rebuildSector
  (try simp) <;> repeat' (first | intro _ | (with_reducible refine Eq.trans (State.updPu_core _ _ _ _ _ ?_) ?_ <;> try simp [Pickup.core]) | (with_reducible refine Eq.trans (State.updBay_core _ _ _ _ ?_) ?_ <;> try simp [Pickup.core, Bay.inner]) | (split <;> try simp) | (with_reducible refine Eq.trans (State.updLink_core _ _ _ _ _ ?_) ?_ <;> try simp))

@[simp] theorem State.writeLabels_core (s : State) (h : SlotId) (oc : BayId) :
    ((s.writeLabels h).bays.get oc).core = (s.bays.get oc).core := by
  unfold State.writeLabels
  (try simp) <;> repeat' (first | intro _ | (with_reducible refine Eq.trans (State.updPu_core _ _ _ _ _ ?_) ?_ <;> try simp [Pickup.core]) | (with_reducible refine Eq.trans (State.updBay_core _ _ _ _ ?_) ?_ <;> try simp [Pickup.core, Bay.inner]) | (split <;> (try (rename_i hp; replace hp := congrArg Prod.snd hp; dsimp only at hp; subst hp)) <;> try simp) | (with_reducible refine Eq.trans (State.updLink_core _ _ _ _ _ ?_) ?_ <;> try simp) | ((first | rw [State.foldl_core _ _ ?_] | rw [State.foldl2_core _ _ ?_] | rw [State.eachHamper_core _ _ ?_]) <;> intros <;> try simp))

@[simp] theorem State.writePointer_core (s : State) (h : SlotId) (r : Bytes) (oc : BayId) :
    ((s.writePointer h r).bays.get oc).core = (s.bays.get oc).core := by
  unfold State.writePointer
  (try simp) <;> repeat' (first | intro _ | (with_reducible refine Eq.trans (State.updPu_core _ _ _ _ _ ?_) ?_ <;> try simp [Pickup.core]) | (with_reducible refine Eq.trans (State.updBay_core _ _ _ _ ?_) ?_ <;> try simp [Pickup.core, Bay.inner]) | (split <;> (try (rename_i hp; replace hp := congrArg Prod.snd hp; dsimp only at hp; subst hp)) <;> try simp) | (with_reducible refine Eq.trans (State.updLink_core _ _ _ _ _ ?_) ?_ <;> try simp) | ((first | rw [State.foldl_core _ _ ?_] | rw [State.foldl2_core _ _ ?_] | rw [State.eachHamper_core _ _ ?_]) <;> intros <;> try simp))

@[simp] theorem State.ckptStripe_core (s : State) (h : SlotId) (x : Hamper) (number : Nat) (bodies : List Bytes) (rows : List (Nat × Nat)) (oc : BayId) :
    ((s.ckptStripe h x number bodies rows).bays.get oc).core = (s.bays.get oc).core := by
  unfold State.ckptStripe
  (try simp) <;> repeat' (first | intro _ | (with_reducible refine Eq.trans (State.updPu_core _ _ _ _ _ ?_) ?_ <;> try simp [Pickup.core]) | (with_reducible refine Eq.trans (State.updBay_core _ _ _ _ ?_) ?_ <;> try simp [Pickup.core, Bay.inner]) | (split <;> try simp) | (with_reducible refine Eq.trans (State.updLink_core _ _ _ _ _ ?_) ?_ <;> try simp) | ((first | rw [State.foldl_core _ _ ?_] | rw [State.foldl2_core _ _ ?_] | rw [State.eachHamper_core _ _ ?_]) <;> intros <;> try simp))

@[simp] theorem State.ckptStripes_core (s : State) (h : SlotId) (x : Hamper) (d : Nat) (k0 : Nat) (k1 : Nat) (k2 : List Bytes) (k3 : List (Nat × Nat)) (oc : BayId) :
    ((s.ckptStripes h x d k0 k1 k2 k3).bays.get oc).core = (s.bays.get oc).core := by
  induction k0 generalizing s h x d k1 k2 k3 with
  | zero => unfold State.ckptStripes; simp
  | succ n ih =>
    unfold State.ckptStripes
    (try simp [ih]) <;> repeat' (first | intro _ | (with_reducible refine Eq.trans (State.updPu_core _ _ _ _ _ ?_) ?_ <;> try simp [Pickup.core]) | (with_reducible refine Eq.trans (State.updBay_core _ _ _ _ ?_) ?_ <;> try simp [Pickup.core, Bay.inner]) | (split <;> (try (rename_i hp; replace hp := congrArg Prod.snd hp; dsimp only at hp; subst hp)) <;> try simp [ih]) | (with_reducible refine Eq.trans (State.updLink_core _ _ _ _ _ ?_) ?_ <;> try simp [ih]))

@[simp] theorem State.checkpoint_core (s : State) (h : SlotId) (oc : BayId) :
    ((s.checkpoint h).bays.get oc).core = (s.bays.get oc).core := by
  unfold State.checkpoint
  (try simp) <;> repeat' (first | intro _ | (with_reducible refine Eq.trans (State.updPu_core _ _ _ _ _ ?_) ?_ <;> try simp [Pickup.core]) | (with_reducible refine Eq.trans (State.updBay_core _ _ _ _ ?_) ?_ <;> try simp [Pickup.core, Bay.inner]) | (split <;> (try (rename_i hp; replace hp := congrArg Prod.snd hp; dsimp only at hp; subst hp)) <;> try simp) | (with_reducible refine Eq.trans (State.updLink_core _ _ _ _ _ ?_) ?_ <;> try simp))

@[simp] theorem State.releaseHamper_core (s : State) (h : SlotId) (oc : BayId) :
    ((s.releaseHamper h).bays.get oc).core = (s.bays.get oc).core := by
  unfold State.releaseHamper
  (try simp) <;> repeat' (first | intro _ | (with_reducible refine Eq.trans (State.updPu_core _ _ _ _ _ ?_) ?_ <;> try simp [Pickup.core]) | (with_reducible refine Eq.trans (State.updBay_core _ _ _ _ ?_) ?_ <;> try simp [Pickup.core, Bay.inner]) | (split <;> try simp) | (with_reducible refine Eq.trans (State.updLink_core _ _ _ _ _ ?_) ?_ <;> try simp) | ((first | rw [State.foldl_core _ _ ?_] | rw [State.foldl2_core _ _ ?_] | rw [State.eachHamper_core _ _ ?_]) <;> intros <;> try simp))

@[simp] theorem State.recordOutcome_core (s : State) (h : SlotId) (kind no : Nat) (written : Bool) (oc : BayId) :
    ((s.recordOutcome h kind no written).bays.get oc).core = (s.bays.get oc).core := by
  unfold State.recordOutcome
  (try simp) <;> repeat' (first | intro _ | (with_reducible refine Eq.trans (State.updPu_core _ _ _ _ _ ?_) ?_ <;> try simp [Pickup.core]) | (with_reducible refine Eq.trans (State.updBay_core _ _ _ _ ?_) ?_ <;> try simp [Pickup.core, Bay.inner]) | (split <;> (try (rename_i hp; replace hp := congrArg Prod.snd hp; dsimp only at hp; subst hp)) <;> try simp) | (with_reducible refine Eq.trans (State.updLink_core _ _ _ _ _ ?_) ?_ <;> try simp))

@[simp] theorem State.flushOutcomes_core (s : State) (oc : BayId) :
    ((s.flushOutcomes).bays.get oc).core = (s.bays.get oc).core := by
  unfold State.flushOutcomes
  (try simp) <;> repeat' (first | intro _ | (with_reducible refine Eq.trans (State.updPu_core _ _ _ _ _ ?_) ?_ <;> try simp [Pickup.core]) | (with_reducible refine Eq.trans (State.updBay_core _ _ _ _ ?_) ?_ <;> try simp [Pickup.core, Bay.inner]) | (split <;> (try (rename_i hp; replace hp := congrArg Prod.snd hp; dsimp only at hp; subst hp)) <;> try simp) | (with_reducible refine Eq.trans (State.updLink_core _ _ _ _ _ ?_) ?_ <;> try simp) | ((first | rw [State.foldl_core _ _ ?_] | rw [State.foldl2_core _ _ ?_] | rw [State.eachHamper_core _ _ ?_]) <;> intros <;> try simp))

@[simp] theorem State.askRecord_core (s : State) (b : BayId) (p : Pu) (oc : BayId) :
    ((s.askRecord b p).bays.get oc).core = (s.bays.get oc).core := by
  unfold State.askRecord
  (try simp) <;> repeat' (first | intro _ | (with_reducible refine Eq.trans (State.updPu_core _ _ _ _ _ ?_) ?_ <;> try simp [Pickup.core]) | (with_reducible refine Eq.trans (State.updBay_core _ _ _ _ ?_) ?_ <;> try simp [Pickup.core, Bay.inner]) | (split <;> try simp) | (with_reducible refine Eq.trans (State.updLink_core _ _ _ _ _ ?_) ?_ <;> try simp))

@[simp] theorem State.noteRecord_core (s : State) (b : BayId) (p : Pu) (k no : Nat) (o : SecOutcome) (payload : Option Bytes) (oc : BayId) :
    ((s.noteRecord b p k no o payload).bays.get oc).core = (s.bays.get oc).core := by
  unfold State.noteRecord
  (try simp) <;> repeat' (first | intro _ | (with_reducible refine Eq.trans (State.updPu_core _ _ _ _ _ ?_) ?_ <;> try simp [Pickup.core]) | (with_reducible refine Eq.trans (State.updBay_core _ _ _ _ ?_) ?_ <;> try simp [Pickup.core, Bay.inner]) | (split <;> try simp) | (with_reducible refine Eq.trans (State.updLink_core _ _ _ _ _ ?_) ?_ <;> try simp))

@[simp] theorem State.refreshReady_core (s : State) (b : BayId) (oc : BayId) :
    ((s.refreshReady b).bays.get oc).core = (s.bays.get oc).core := by
  unfold State.refreshReady
  (try simp) <;> repeat' (first | intro _ | (with_reducible refine Eq.trans (State.updPu_core _ _ _ _ _ ?_) ?_ <;> try simp [Pickup.core]) | (with_reducible refine Eq.trans (State.updBay_core _ _ _ _ ?_) ?_ <;> try simp [Pickup.core, Bay.inner]) | (split <;> try simp) | (with_reducible refine Eq.trans (State.updLink_core _ _ _ _ _ ?_) ?_ <;> try simp))

@[simp] theorem State.after_core (s : State) (b : BayId) (oc : BayId) :
    ((s.after b).bays.get oc).core = (s.bays.get oc).core := by
  unfold State.after
  (try simp) <;> repeat' (first | intro _ | (with_reducible refine Eq.trans (State.updPu_core _ _ _ _ _ ?_) ?_ <;> try simp [Pickup.core]) | (with_reducible refine Eq.trans (State.updBay_core _ _ _ _ ?_) ?_ <;> try simp [Pickup.core, Bay.inner]) | (split <;> try simp) | (with_reducible refine Eq.trans (State.updLink_core _ _ _ _ _ ?_) ?_ <;> try simp))

@[simp] theorem State.coresReturn_core (s : State) (oc : BayId) :
    ((s.coresReturn).bays.get oc).core = (s.bays.get oc).core := by
  unfold State.coresReturn
  (try simp) <;> repeat' (first | intro _ | (with_reducible refine Eq.trans (State.updPu_core _ _ _ _ _ ?_) ?_ <;> try simp [Pickup.core]) | (with_reducible refine Eq.trans (State.updBay_core _ _ _ _ ?_) ?_ <;> try simp [Pickup.core, Bay.inner]) | (split <;> try simp) | (with_reducible refine Eq.trans (State.updLink_core _ _ _ _ _ ?_) ?_ <;> try simp) | ((first | rw [State.foldl_core _ _ ?_] | rw [State.foldl2_core _ _ ?_] | rw [State.eachHamper_core _ _ ?_]) <;> intros <;> try simp))

@[simp] theorem State.verifyReads_core (s : State) (h : SlotId) (order : Nat) (oc : BayId) :
    ((s.verifyReads h order).bays.get oc).core = (s.bays.get oc).core := by
  unfold State.verifyReads
  (try simp) <;> repeat' (first | intro _ | (with_reducible refine Eq.trans (State.updPu_core _ _ _ _ _ ?_) ?_ <;> try simp [Pickup.core]) | (with_reducible refine Eq.trans (State.updBay_core _ _ _ _ ?_) ?_ <;> try simp [Pickup.core, Bay.inner]) | (split <;> try simp) | (with_reducible refine Eq.trans (State.updLink_core _ _ _ _ _ ?_) ?_ <;> try simp))

@[simp] theorem State.actEnd_core (s : State) (order : Nat) (st : Status) (oc : BayId) :
    ((s.actEnd order st).bays.get oc).core = (s.bays.get oc).core := by
  unfold State.actEnd
  (try simp) <;> repeat' (first | intro _ | (with_reducible refine Eq.trans (State.updPu_core _ _ _ _ _ ?_) ?_ <;> try simp [Pickup.core]) | (with_reducible refine Eq.trans (State.updBay_core _ _ _ _ ?_) ?_ <;> try simp [Pickup.core, Bay.inner]) | (split <;> try simp) | (with_reducible refine Eq.trans (State.updLink_core _ _ _ _ _ ?_) ?_ <;> try simp))

@[simp] theorem State.takeBlock_core (s : State) (b : BayId) (p : Pu) (blk : SBlock) (oc : BayId) :
    ((s.takeBlock b p blk).bays.get oc).core = (s.bays.get oc).core := by
  unfold State.takeBlock
  (try simp) <;> repeat' (first | intro _ | (with_reducible refine Eq.trans (State.updPu_core _ _ _ _ _ ?_) ?_ <;> try simp [Pickup.core]) | (with_reducible refine Eq.trans (State.updBay_core _ _ _ _ ?_) ?_ <;> try simp [Pickup.core, Bay.inner]) | (split <;> try simp) | (with_reducible refine Eq.trans (State.updLink_core _ _ _ _ _ ?_) ?_ <;> try simp))

@[simp] theorem State.takeSample_core (s : State) (b : BayId) (p : Pu) (ph : PhysLane) (f : Bytes) (oc : BayId) :
    ((s.takeSample b p ph f).bays.get oc).core = (s.bays.get oc).core := by
  unfold State.takeSample
  (try simp) <;> repeat' (first | intro _ | (with_reducible refine Eq.trans (State.updPu_core _ _ _ _ _ ?_) ?_ <;> try simp [Pickup.core]) | (with_reducible refine Eq.trans (State.updBay_core _ _ _ _ ?_) ?_ <;> try simp [Pickup.core, Bay.inner]) | (split <;> try simp) | (with_reducible refine Eq.trans (State.updLink_core _ _ _ _ _ ?_) ?_ <;> try simp))

@[simp] theorem State.sendHead_core (s : State) (b : BayId) (p : Pu) (type tsh : Nat) (payload : Bytes) (oc : BayId) :
    ((s.sendHead b p type tsh payload).bays.get oc).core = (s.bays.get oc).core := by
  unfold State.sendHead
  (try simp) <;> repeat' (first | intro _ | (with_reducible refine Eq.trans (State.updPu_core _ _ _ _ _ ?_) ?_ <;> try simp [Pickup.core]) | (with_reducible refine Eq.trans (State.updBay_core _ _ _ _ ?_) ?_ <;> try simp [Pickup.core, Bay.inner]) | (split <;> try simp) | (with_reducible refine Eq.trans (State.updLink_core _ _ _ _ _ ?_) ?_ <;> try simp))

@[simp] theorem State.sendCtrl_core (s : State) (b : BayId) (p : Pu) (tsh : Nat) (payload : Bytes) (oc : BayId) :
    ((s.sendCtrl b p tsh payload).bays.get oc).core = (s.bays.get oc).core := by
  unfold State.sendCtrl
  (try simp) <;> repeat' (first | intro _ | (with_reducible refine Eq.trans (State.updPu_core _ _ _ _ _ ?_) ?_ <;> try simp [Pickup.core]) | (with_reducible refine Eq.trans (State.updBay_core _ _ _ _ ?_) ?_ <;> try simp [Pickup.core, Bay.inner]) | (split <;> try simp) | (with_reducible refine Eq.trans (State.updLink_core _ _ _ _ _ ?_) ?_ <;> try simp))

@[simp] theorem State.sendWrite_core (s : State) (b : BayId) (p : Pu) (w : Nat × Bytes) (oc : BayId) :
    ((s.sendWrite b p w).bays.get oc).core = (s.bays.get oc).core := by
  unfold State.sendWrite
  (try simp) <;> repeat' (first | intro _ | (with_reducible refine Eq.trans (State.updPu_core _ _ _ _ _ ?_) ?_ <;> try simp [Pickup.core]) | (with_reducible refine Eq.trans (State.updBay_core _ _ _ _ ?_) ?_ <;> try simp [Pickup.core, Bay.inner]) | (split <;> try simp) | (with_reducible refine Eq.trans (State.updLink_core _ _ _ _ _ ?_) ?_ <;> try simp))

@[simp] theorem State.ctrlPump_core (s : State) (b : BayId) (p : Pu) (k0 : Nat) (oc : BayId) :
    ((s.ctrlPump b p k0).bays.get oc).core = (s.bays.get oc).core := by
  induction k0 generalizing s b p with
  | zero => unfold State.ctrlPump; simp
  | succ n ih =>
    unfold State.ctrlPump
    (try simp [ih]) <;> repeat' (first | intro _ | (with_reducible refine Eq.trans (State.updPu_core _ _ _ _ _ ?_) ?_ <;> try simp [Pickup.core]) | (with_reducible refine Eq.trans (State.updBay_core _ _ _ _ ?_) ?_ <;> try simp [Pickup.core, Bay.inner]) | (split <;> try simp [ih]) | (with_reducible refine Eq.trans (State.updLink_core _ _ _ _ _ ?_) ?_ <;> try simp [ih]))

@[simp] theorem State.ctrlIssue_core (s : State) (b : BayId) (p : Pu) (op addr : Nat) (data : Bytes) (oc : BayId) :
    ((s.ctrlIssue b p op addr data).bays.get oc).core = (s.bays.get oc).core := by
  unfold State.ctrlIssue
  (try simp) <;> repeat' (first | intro _ | (with_reducible refine Eq.trans (State.updPu_core _ _ _ _ _ ?_) ?_ <;> try simp [Pickup.core]) | (with_reducible refine Eq.trans (State.updBay_core _ _ _ _ ?_) ?_ <;> try simp [Pickup.core, Bay.inner]) | (split <;> try simp) | (with_reducible refine Eq.trans (State.updLink_core _ _ _ _ _ ?_) ?_ <;> try simp))

@[simp] theorem State.ctrlRead_core (s : State) (b : BayId) (p : Pu) (addr len : Nat) (oc : BayId) :
    ((s.ctrlRead b p addr len).bays.get oc).core = (s.bays.get oc).core := by
  unfold State.ctrlRead
  (try simp) <;> repeat' (first | intro _ | (with_reducible refine Eq.trans (State.updPu_core _ _ _ _ _ ?_) ?_ <;> try simp [Pickup.core]) | (with_reducible refine Eq.trans (State.updBay_core _ _ _ _ ?_) ?_ <;> try simp [Pickup.core, Bay.inner]) | (split <;> try simp) | (with_reducible refine Eq.trans (State.updLink_core _ _ _ _ _ ?_) ?_ <;> try simp))

@[simp] theorem State.regWrite_core (s : State) (b : BayId) (p : Pu) (addr : Nat) (data : Bytes) (k0 : Nat) (oc : BayId) :
    ((s.regWrite b p addr data k0).bays.get oc).core = (s.bays.get oc).core := by
  induction k0 generalizing s b p addr data with
  | zero => unfold State.regWrite; simp
  | succ n ih =>
    unfold State.regWrite
    (try simp [ih]) <;> repeat' (first | intro _ | (with_reducible refine Eq.trans (State.updPu_core _ _ _ _ _ ?_) ?_ <;> try simp [Pickup.core]) | (with_reducible refine Eq.trans (State.updBay_core _ _ _ _ ?_) ?_ <;> try simp [Pickup.core, Bay.inner]) | (split <;> try simp [ih]) | (with_reducible refine Eq.trans (State.updLink_core _ _ _ _ _ ?_) ?_ <;> try simp [ih]))

@[simp] theorem State.regRead_core (s : State) (b : BayId) (p : Pu) (addr len : Nat) (k0 : Nat) (oc : BayId) :
    ((s.regRead b p addr len k0).bays.get oc).core = (s.bays.get oc).core := by
  induction k0 generalizing s b p addr len with
  | zero => unfold State.regRead; simp
  | succ n ih =>
    unfold State.regRead
    (try simp [ih]) <;> repeat' (first | intro _ | (with_reducible refine Eq.trans (State.updPu_core _ _ _ _ _ ?_) ?_ <;> try simp [Pickup.core]) | (with_reducible refine Eq.trans (State.updBay_core _ _ _ _ ?_) ?_ <;> try simp [Pickup.core, Bay.inner]) | (split <;> try simp [ih]) | (with_reducible refine Eq.trans (State.updLink_core _ _ _ _ _ ?_) ?_ <;> try simp [ih]))

@[simp] theorem State.laneMap_core (s : State) (b : BayId) (p : Pu) (m0 m1 : PhysLane) (oc : BayId) :
    ((s.laneMap b p m0 m1).bays.get oc).core = (s.bays.get oc).core := by
  unfold State.laneMap
  (try simp) <;> repeat' (first | intro _ | (with_reducible refine Eq.trans (State.updPu_core _ _ _ _ _ ?_) ?_ <;> try simp [Pickup.core]) | (with_reducible refine Eq.trans (State.updBay_core _ _ _ _ ?_) ?_ <;> try simp [Pickup.core, Bay.inner]) | (split <;> try simp) | (with_reducible refine Eq.trans (State.updLink_core _ _ _ _ _ ?_) ?_ <;> try simp))

@[simp] theorem State.laneTrainStop_core (s : State) (b : BayId) (p : Pu) (ph : PhysLane) (oc : BayId) :
    ((s.laneTrainStop b p ph).bays.get oc).core = (s.bays.get oc).core := by
  unfold State.laneTrainStop
  (try simp) <;> repeat' (first | intro _ | (with_reducible refine Eq.trans (State.updPu_core _ _ _ _ _ ?_) ?_ <;> try simp [Pickup.core]) | (with_reducible refine Eq.trans (State.updBay_core _ _ _ _ ?_) ?_ <;> try simp [Pickup.core, Bay.inner]) | (split <;> try simp) | (with_reducible refine Eq.trans (State.updLink_core _ _ _ _ _ ?_) ?_ <;> try simp))

@[simp] theorem State.noteSector_core (s : State) (b : BayId) (p : Pu) (r : SectorRec) (oc : BayId) :
    ((s.noteSector b p r).bays.get oc).core = (s.bays.get oc).core := by
  unfold State.noteSector
  (try simp) <;> repeat' (first | intro _ | (with_reducible refine Eq.trans (State.updPu_core _ _ _ _ _ ?_) ?_ <;> try simp [Pickup.core]) | (with_reducible refine Eq.trans (State.updBay_core _ _ _ _ ?_) ?_ <;> try simp [Pickup.core, Bay.inner]) | (split <;> try simp) | (with_reducible refine Eq.trans (State.updLink_core _ _ _ _ _ ?_) ?_ <;> try simp))

@[simp] theorem State.updCoded_core (s : State) (b : BayId) (p : Pu) (a : SecAddr) (g : Coded → Coded) (oc : BayId) :
    ((s.updCoded b p a g).bays.get oc).core = (s.bays.get oc).core := by
  unfold State.updCoded
  (try simp) <;> repeat' (first | intro _ | (with_reducible refine Eq.trans (State.updPu_core _ _ _ _ _ ?_) ?_ <;> try simp [Pickup.core]) | (with_reducible refine Eq.trans (State.updBay_core _ _ _ _ ?_) ?_ <;> try simp [Pickup.core, Bay.inner]) | (split <;> try simp) | (with_reducible refine Eq.trans (State.updLink_core _ _ _ _ _ ?_) ?_ <;> try simp))

@[simp] theorem State.deliverRead_core (s : State) (b : BayId) (p : Pu) (a : SecAddr) (why : Purpose) (o : SecOutcome) (payload : Option Bytes) (oc : BayId) :
    ((s.deliverRead b p a why o payload).bays.get oc).core = (s.bays.get oc).core := by
  unfold State.deliverRead
  (try simp) <;> repeat' (first | intro _ | (with_reducible refine Eq.trans (State.updPu_core _ _ _ _ _ ?_) ?_ <;> try simp [Pickup.core]) | (with_reducible refine Eq.trans (State.updBay_core _ _ _ _ ?_) ?_ <;> try simp [Pickup.core, Bay.inner]) | (split <;> try simp) | (with_reducible refine Eq.trans (State.updLink_core _ _ _ _ _ ?_) ?_ <;> try simp))

@[simp] theorem State.endUnread_core (s : State) (b : BayId) (p : Pu) (a : SecAddr) (why : Purpose) (oc : BayId) :
    ((s.endUnread b p a why).bays.get oc).core = (s.bays.get oc).core := by
  unfold State.endUnread
  (try simp) <;> repeat' (first | intro _ | (with_reducible refine Eq.trans (State.updPu_core _ _ _ _ _ ?_) ?_ <;> try simp [Pickup.core]) | (with_reducible refine Eq.trans (State.updBay_core _ _ _ _ ?_) ?_ <;> try simp [Pickup.core, Bay.inner]) | (split <;> try simp) | (with_reducible refine Eq.trans (State.updLink_core _ _ _ _ _ ?_) ?_ <;> try simp))

@[simp] theorem State.updSoft_core (s : State) (b : BayId) (p : Pu) (a : SecAddr) (g : SoftSlot → SoftSlot) (oc : BayId) :
    ((s.updSoft b p a g).bays.get oc).core = (s.bays.get oc).core := by
  unfold State.updSoft
  (try simp) <;> repeat' (first | intro _ | (with_reducible refine Eq.trans (State.updPu_core _ _ _ _ _ ?_) ?_ <;> try simp [Pickup.core]) | (with_reducible refine Eq.trans (State.updBay_core _ _ _ _ ?_) ?_ <;> try simp [Pickup.core, Bay.inner]) | (split <;> try simp) | (with_reducible refine Eq.trans (State.updLink_core _ _ _ _ _ ?_) ?_ <;> try simp))

@[simp] theorem State.endSlot_core (s : State) (b : BayId) (p : Pu) (q : SoftSlot) (o : SecOutcome) (rung : Nat) (payload : Option Bytes) (oc : BayId) :
    ((s.endSlot b p q o rung payload).bays.get oc).core = (s.bays.get oc).core := by
  unfold State.endSlot
  (try simp) <;> repeat' (first | intro _ | (with_reducible refine Eq.trans (State.updPu_core _ _ _ _ _ ?_) ?_ <;> try simp [Pickup.core]) | (with_reducible refine Eq.trans (State.updBay_core _ _ _ _ ?_) ?_ <;> try simp [Pickup.core, Bay.inner]) | (split <;> try simp) | (with_reducible refine Eq.trans (State.updLink_core _ _ _ _ _ ?_) ?_ <;> try simp))

@[simp] theorem State.readsLost_core (s : State) (b : BayId) (p : Pu) (oc : BayId) :
    ((s.readsLost b p).bays.get oc).core = (s.bays.get oc).core := by
  unfold State.readsLost
  (try simp) <;> repeat' (first | intro _ | (with_reducible refine Eq.trans (State.updPu_core _ _ _ _ _ ?_) ?_ <;> try simp [Pickup.core]) | (with_reducible refine Eq.trans (State.updBay_core _ _ _ _ ?_) ?_ <;> try simp [Pickup.core, Bay.inner]) | (split <;> try simp) | (with_reducible refine Eq.trans (State.updLink_core _ _ _ _ _ ?_) ?_ <;> try simp) | ((first | rw [State.foldl_core _ _ ?_] | rw [State.foldl2_core _ _ ?_] | rw [State.eachHamper_core _ _ ?_]) <;> intros <;> try simp))

@[simp] theorem State.reportWrite_core (s : State) (why : WriteWhy) (written : Bool) (oc : BayId) :
    ((s.reportWrite why written).bays.get oc).core = (s.bays.get oc).core := by
  unfold State.reportWrite
  (try simp) <;> repeat' (first | intro _ | (with_reducible refine Eq.trans (State.updPu_core _ _ _ _ _ ?_) ?_ <;> try simp [Pickup.core]) | (with_reducible refine Eq.trans (State.updBay_core _ _ _ _ ?_) ?_ <;> try simp [Pickup.core, Bay.inner]) | (split <;> try simp) | (with_reducible refine Eq.trans (State.updLink_core _ _ _ _ _ ?_) ?_ <;> try simp))

@[simp] theorem State.writeRelocRecord_core (s : State) (b : BayId) (p : Pu) (layer : Nat) (homes : List SecAddr) (oc : BayId) :
    ((s.writeRelocRecord b p layer homes).bays.get oc).core = (s.bays.get oc).core := by
  unfold State.writeRelocRecord
  (try simp) <;> repeat' (first | intro _ | (with_reducible refine Eq.trans (State.updPu_core _ _ _ _ _ ?_) ?_ <;> try simp [Pickup.core]) | (with_reducible refine Eq.trans (State.updBay_core _ _ _ _ ?_) ?_ <;> try simp [Pickup.core, Bay.inner]) | (split <;> (try (rename_i hp; replace hp := congrArg Prod.snd hp; dsimp only at hp; subst hp)) <;> try simp) | (with_reducible refine Eq.trans (State.updLink_core _ _ _ _ _ ?_) ?_ <;> try simp) | ((first | rw [State.foldl_core _ _ ?_] | rw [State.foldl2_core _ _ ?_] | rw [State.eachHamper_core _ _ ?_]) <;> intros <;> try simp))

@[simp] theorem State.relocate_core (s : State) (b : BayId) (p : Pu) (c : Coded) (oc : BayId) :
    ((s.relocate b p c).bays.get oc).core = (s.bays.get oc).core := by
  unfold State.relocate
  (try simp) <;> repeat' (first | intro _ | (with_reducible refine Eq.trans (State.updPu_core _ _ _ _ _ ?_) ?_ <;> try simp [Pickup.core]) | (with_reducible refine Eq.trans (State.updBay_core _ _ _ _ ?_) ?_ <;> try simp [Pickup.core, Bay.inner]) | (split <;> try simp) | (with_reducible refine Eq.trans (State.updLink_core _ _ _ _ _ ?_) ?_ <;> try simp))

@[simp] theorem State.failCoded_core (s : State) (b : BayId) (p : Pu) (a : SecAddr) (oc : BayId) :
    ((s.failCoded b p a).bays.get oc).core = (s.bays.get oc).core := by
  unfold State.failCoded
  (try simp) <;> repeat' (first | intro _ | (with_reducible refine Eq.trans (State.updPu_core _ _ _ _ _ ?_) ?_ <;> try simp [Pickup.core]) | (with_reducible refine Eq.trans (State.updBay_core _ _ _ _ ?_) ?_ <;> try simp [Pickup.core, Bay.inner]) | (split <;> try simp) | (with_reducible refine Eq.trans (State.updLink_core _ _ _ _ _ ?_) ?_ <;> try simp))

@[simp] theorem State.doneCoded_core (s : State) (b : BayId) (p : Pu) (a : SecAddr) (oc : BayId) :
    ((s.doneCoded b p a).bays.get oc).core = (s.bays.get oc).core := by
  unfold State.doneCoded
  (try simp) <;> repeat' (first | intro _ | (with_reducible refine Eq.trans (State.updPu_core _ _ _ _ _ ?_) ?_ <;> try simp [Pickup.core]) | (with_reducible refine Eq.trans (State.updBay_core _ _ _ _ ?_) ?_ <;> try simp [Pickup.core, Bay.inner]) | (split <;> try simp) | (with_reducible refine Eq.trans (State.updLink_core _ _ _ _ _ ?_) ?_ <;> try simp) | ((first | rw [State.foldl_core _ _ ?_] | rw [State.foldl2_core _ _ ?_] | rw [State.eachHamper_core _ _ ?_]) <;> intros <;> try simp))

@[simp] theorem State.abandonBlock_core (s : State) (b : BayId) (p : Pu) (oc : BayId) :
    ((s.abandonBlock b p).bays.get oc).core = (s.bays.get oc).core := by
  unfold State.abandonBlock
  (try simp) <;> repeat' (first | intro _ | (with_reducible refine Eq.trans (State.updPu_core _ _ _ _ _ ?_) ?_ <;> try simp [Pickup.core]) | (with_reducible refine Eq.trans (State.updBay_core _ _ _ _ ?_) ?_ <;> try simp [Pickup.core, Bay.inner]) | (split <;> try simp) | (with_reducible refine Eq.trans (State.updLink_core _ _ _ _ _ ?_) ?_ <;> try simp) | ((first | rw [State.foldl_core _ _ ?_] | rw [State.foldl2_core _ _ ?_] | rw [State.eachHamper_core _ _ ?_]) <;> intros <;> try simp))

@[simp] theorem State.failCurrent_core (s : State) (b : BayId) (p : Pu) (oc : BayId) :
    ((s.failCurrent b p).bays.get oc).core = (s.bays.get oc).core := by
  unfold State.failCurrent
  (try simp) <;> repeat' (first | intro _ | (with_reducible refine Eq.trans (State.updPu_core _ _ _ _ _ ?_) ?_ <;> try simp [Pickup.core]) | (with_reducible refine Eq.trans (State.updBay_core _ _ _ _ ?_) ?_ <;> try simp [Pickup.core, Bay.inner]) | (split <;> try simp) | (with_reducible refine Eq.trans (State.updLink_core _ _ _ _ _ ?_) ?_ <;> try simp) | ((first | rw [State.foldl_core _ _ ?_] | rw [State.foldl2_core _ _ ?_] | rw [State.eachHamper_core _ _ ?_]) <;> intros <;> try simp))

@[simp] theorem State.holdWriting_core (s : State) (b : BayId) (p : Pu) (oc : BayId) :
    ((s.holdWriting b p).bays.get oc).core = (s.bays.get oc).core := by
  unfold State.holdWriting
  (try simp) <;> repeat' (first | intro _ | (with_reducible refine Eq.trans (State.updPu_core _ _ _ _ _ ?_) ?_ <;> try simp [Pickup.core]) | (with_reducible refine Eq.trans (State.updBay_core _ _ _ _ ?_) ?_ <;> try simp [Pickup.core, Bay.inner]) | (split <;> try simp) | (with_reducible refine Eq.trans (State.updLink_core _ _ _ _ _ ?_) ?_ <;> try simp) | ((first | rw [State.foldl_core _ _ ?_] | rw [State.foldl2_core _ _ ?_] | rw [State.eachHamper_core _ _ ?_]) <;> intros <;> try simp))

@[simp] theorem State.coresLost_core (s : State) (oc : BayId) :
    ((s.coresLost).bays.get oc).core = (s.bays.get oc).core := by
  unfold State.coresLost
  (try simp) <;> repeat' (first | intro _ | (with_reducible refine Eq.trans (State.updPu_core _ _ _ _ _ ?_) ?_ <;> try simp [Pickup.core]) | (with_reducible refine Eq.trans (State.updBay_core _ _ _ _ ?_) ?_ <;> try simp [Pickup.core, Bay.inner]) | (split <;> try simp) | (with_reducible refine Eq.trans (State.updLink_core _ _ _ _ _ ?_) ?_ <;> try simp) | ((first | rw [State.foldl_core _ _ ?_] | rw [State.foldl2_core _ _ ?_] | rw [State.eachHamper_core _ _ ?_]) <;> intros <;> try simp))

@[simp] theorem State.loadBank_core (s : State) (b : BayId) (p : Pu) (x : BankLoad) (oc : BayId) :
    ((s.loadBank b p x).bays.get oc).core = (s.bays.get oc).core := by
  unfold State.loadBank
  (try simp) <;> repeat' (first | intro _ | (with_reducible refine Eq.trans (State.updPu_core _ _ _ _ _ ?_) ?_ <;> try simp [Pickup.core]) | (with_reducible refine Eq.trans (State.updBay_core _ _ _ _ ?_) ?_ <;> try simp [Pickup.core, Bay.inner]) | (split <;> try simp) | (with_reducible refine Eq.trans (State.updLink_core _ _ _ _ _ ?_) ?_ <;> try simp))

@[simp] theorem State.bankFails_core (s : State) (b : BayId) (p : Pu) (x : BankLoad) (oc : BayId) :
    ((s.bankFails b p x).bays.get oc).core = (s.bays.get oc).core := by
  unfold State.bankFails
  (try simp) <;> repeat' (first | intro _ | (with_reducible refine Eq.trans (State.updPu_core _ _ _ _ _ ?_) ?_ <;> try simp [Pickup.core]) | (with_reducible refine Eq.trans (State.updBay_core _ _ _ _ ?_) ?_ <;> try simp [Pickup.core, Bay.inner]) | (split <;> try simp) | (with_reducible refine Eq.trans (State.updLink_core _ _ _ _ _ ?_) ?_ <;> try simp))

@[simp] theorem State.bankReply_core (s : State) (b : BayId) (p : Pu) (c : CtrlOp) (f : Bytes) (oc : BayId) :
    ((s.bankReply b p c f).bays.get oc).core = (s.bays.get oc).core := by
  unfold State.bankReply
  (try simp) <;> repeat' (first | intro _ | (with_reducible refine Eq.trans (State.updPu_core _ _ _ _ _ ?_) ?_ <;> try simp [Pickup.core]) | (with_reducible refine Eq.trans (State.updBay_core _ _ _ _ ?_) ?_ <;> try simp [Pickup.core, Bay.inner]) | (split <;> try simp) | (with_reducible refine Eq.trans (State.updLink_core _ _ _ _ _ ?_) ?_ <;> try simp))

@[simp] theorem State.leaveService_core (s : State) (b : BayId) (p : Pu) (oc : BayId) :
    ((s.leaveService b p).bays.get oc).core = (s.bays.get oc).core := by
  unfold State.leaveService
  (try simp) <;> repeat' (first | intro _ | (with_reducible refine Eq.trans (State.updPu_core _ _ _ _ _ ?_) ?_ <;> try simp [Pickup.core]) | (with_reducible refine Eq.trans (State.updBay_core _ _ _ _ ?_) ?_ <;> try simp [Pickup.core, Bay.inner]) | (split <;> try simp) | (with_reducible refine Eq.trans (State.updLink_core _ _ _ _ _ ?_) ?_ <;> try simp))

@[simp] theorem State.loadDiscCal_core (s : State) (b : BayId) (p : Pu) (disc : Bytes) (oc : BayId) :
    ((s.loadDiscCal b p disc).bays.get oc).core = (s.bays.get oc).core := by
  unfold State.loadDiscCal
  (try simp) <;> repeat' (first | intro _ | (with_reducible refine Eq.trans (State.updPu_core _ _ _ _ _ ?_) ?_ <;> try simp [Pickup.core]) | (with_reducible refine Eq.trans (State.updBay_core _ _ _ _ ?_) ?_ <;> try simp [Pickup.core, Bay.inner]) | (split <;> (try (rename_i hp; replace hp := congrArg Prod.snd hp; dsimp only at hp; subst hp)) <;> try simp) | (with_reducible refine Eq.trans (State.updLink_core _ _ _ _ _ ?_) ?_ <;> try simp))

@[simp] theorem State.updSheet_core (s : State) (b : BayId) (p : Pu) (g : Sheet → Sheet) (oc : BayId) :
    ((s.updSheet b p g).bays.get oc).core = (s.bays.get oc).core := by
  unfold State.updSheet
  (try simp) <;> repeat' (first | intro _ | (with_reducible refine Eq.trans (State.updPu_core _ _ _ _ _ ?_) ?_ <;> try simp [Pickup.core]) | (with_reducible refine Eq.trans (State.updBay_core _ _ _ _ ?_) ?_ <;> try simp [Pickup.core, Bay.inner]) | (split <;> try simp) | (with_reducible refine Eq.trans (State.updLink_core _ _ _ _ _ ?_) ?_ <;> try simp))

@[simp] theorem State.withdrawReads_core (s : State) (b : BayId) (p : Pu) (oc : BayId) :
    ((s.withdrawReads b p).bays.get oc).core = (s.bays.get oc).core := by
  unfold State.withdrawReads
  (try simp) <;> repeat' (first | intro _ | (with_reducible refine Eq.trans (State.updPu_core _ _ _ _ _ ?_) ?_ <;> try simp [Pickup.core]) | (with_reducible refine Eq.trans (State.updBay_core _ _ _ _ ?_) ?_ <;> try simp [Pickup.core, Bay.inner]) | (split <;> try simp) | (with_reducible refine Eq.trans (State.updLink_core _ _ _ _ _ ?_) ?_ <;> try simp))

@[simp] theorem State.dropFrameLock_core (s : State) (b : BayId) (p : Pu) (oc : BayId) :
    ((s.dropFrameLock b p).bays.get oc).core = (s.bays.get oc).core := by
  unfold State.dropFrameLock
  (try simp) <;> repeat' (first | intro _ | (with_reducible refine Eq.trans (State.updPu_core _ _ _ _ _ ?_) ?_ <;> try simp [Pickup.core]) | (with_reducible refine Eq.trans (State.updBay_core _ _ _ _ ?_) ?_ <;> try simp [Pickup.core, Bay.inner]) | (split <;> try simp) | (with_reducible refine Eq.trans (State.updLink_core _ _ _ _ _ ?_) ?_ <;> try simp))

@[simp] theorem State.dropRelocs_core (s : State) (b : BayId) (oc : BayId) :
    ((s.dropRelocs b).bays.get oc).core = (s.bays.get oc).core := by
  unfold State.dropRelocs
  (try simp) <;> repeat' (first | intro _ | (with_reducible refine Eq.trans (State.updPu_core _ _ _ _ _ ?_) ?_ <;> try simp [Pickup.core]) | (with_reducible refine Eq.trans (State.updBay_core _ _ _ _ ?_) ?_ <;> try simp [Pickup.core, Bay.inner]) | (split <;> (try (rename_i hp; replace hp := congrArg Prod.snd hp; dsimp only at hp; subst hp)) <;> try simp) | (with_reducible refine Eq.trans (State.updLink_core _ _ _ _ _ ?_) ?_ <;> try simp) | ((first | rw [State.foldl_core _ _ ?_] | rw [State.foldl2_core _ _ ?_] | rw [State.eachHamper_core _ _ ?_]) <;> intros <;> try simp))

@[simp] theorem State.evalGate_core (s : State) (b : BayId) (p : Pu) (ok : Bool) (oc : BayId) :
    ((s.evalGate b p ok).bays.get oc).core = (s.bays.get oc).core := by
  unfold State.evalGate
  (try simp) <;> repeat' (first | intro _ | (with_reducible refine Eq.trans (State.updPu_core _ _ _ _ _ ?_) ?_ <;> try simp [Pickup.core]) | (with_reducible refine Eq.trans (State.updBay_core _ _ _ _ ?_) ?_ <;> try simp [Pickup.core, Bay.inner]) | (split <;> try simp) | (with_reducible refine Eq.trans (State.updLink_core _ _ _ _ _ ?_) ?_ <;> try simp))

@[simp] theorem State.sendServo_core (s : State) (b : BayId) (p : Pu) (tick apply : Nat) (oc : BayId) :
    ((s.sendServo b p tick apply).bays.get oc).core = (s.bays.get oc).core := by
  unfold State.sendServo
  (try simp) <;> repeat' (first | intro _ | (with_reducible refine Eq.trans (State.updPu_core _ _ _ _ _ ?_) ?_ <;> try simp [Pickup.core]) | (with_reducible refine Eq.trans (State.updBay_core _ _ _ _ ?_) ?_ <;> try simp [Pickup.core, Bay.inner]) | (split <;> try simp) | (with_reducible refine Eq.trans (State.updLink_core _ _ _ _ _ ?_) ?_ <;> try simp))

@[simp] theorem State.servoCmd_core (s : State) (b : BayId) (p : Pu) (tick tq : Nat) (oc : BayId) :
    ((s.servoCmd b p tick tq).bays.get oc).core = (s.bays.get oc).core := by
  unfold State.servoCmd
  (try simp) <;> repeat' (first | intro _ | (with_reducible refine Eq.trans (State.updPu_core _ _ _ _ _ ?_) ?_ <;> try simp [Pickup.core]) | (with_reducible refine Eq.trans (State.updBay_core _ _ _ _ ?_) ?_ <;> try simp [Pickup.core, Bay.inner]) | (split <;> try simp) | (with_reducible refine Eq.trans (State.updLink_core _ _ _ _ _ ?_) ?_ <;> try simp))

@[simp] theorem State.tempTrigger_core (s : State) (b : BayId) (p : Pu) (oc : BayId) :
    ((s.tempTrigger b p).bays.get oc).core = (s.bays.get oc).core := by
  unfold State.tempTrigger
  (try simp) <;> repeat' (first | intro _ | (with_reducible refine Eq.trans (State.updPu_core _ _ _ _ _ ?_) ?_ <;> try simp [Pickup.core]) | (with_reducible refine Eq.trans (State.updBay_core _ _ _ _ ?_) ?_ <;> try simp [Pickup.core, Bay.inner]) | (split <;> try simp) | (with_reducible refine Eq.trans (State.updLink_core _ _ _ _ _ ?_) ?_ <;> try simp))

@[simp] theorem State.applyRows_core (s : State) (b : BayId) (p : Pu) (rows : BitVec 18) (at' : Nat) (oc : BayId) :
    ((s.applyRows b p rows at').bays.get oc).core = (s.bays.get oc).core := by
  unfold State.applyRows
  (try simp) <;> repeat' (first | intro _ | (with_reducible refine Eq.trans (State.updPu_core _ _ _ _ _ ?_) ?_ <;> try simp [Pickup.core]) | (with_reducible refine Eq.trans (State.updBay_core _ _ _ _ ?_) ?_ <;> try simp [Pickup.core, Bay.inner]) | (split <;> try simp) | (with_reducible refine Eq.trans (State.updLink_core _ _ _ _ _ ?_) ?_ <;> try simp))

@[simp] theorem State.noteLayer_core (s : State) (b : BayId) (p : Pu) (oc : BayId) :
    ((s.noteLayer b p).bays.get oc).core = (s.bays.get oc).core := by
  unfold State.noteLayer
  (try simp) <;> repeat' (first | intro _ | (with_reducible refine Eq.trans (State.updPu_core _ _ _ _ _ ?_) ?_ <;> try simp [Pickup.core]) | (with_reducible refine Eq.trans (State.updBay_core _ _ _ _ ?_) ?_ <;> try simp [Pickup.core, Bay.inner]) | (split <;> try simp) | (with_reducible refine Eq.trans (State.updLink_core _ _ _ _ _ ?_) ?_ <;> try simp))

@[simp] theorem State.predictJump_core (s : State) (b : BayId) (p : Pu) (n : Int) (oc : BayId) :
    ((s.predictJump b p n).bays.get oc).core = (s.bays.get oc).core := by
  unfold State.predictJump
  (try simp) <;> repeat' (first | intro _ | (with_reducible refine Eq.trans (State.updPu_core _ _ _ _ _ ?_) ?_ <;> try simp [Pickup.core]) | (with_reducible refine Eq.trans (State.updBay_core _ _ _ _ ?_) ?_ <;> try simp [Pickup.core, Bay.inner]) | (split <;> try simp) | (with_reducible refine Eq.trans (State.updLink_core _ _ _ _ _ ?_) ?_ <;> try simp))

@[simp] theorem State.ladderEnds_core (s : State) (b : BayId) (p : Pu) (q : SoftSlot) (oc : BayId) :
    ((s.ladderEnds b p q).bays.get oc).core = (s.bays.get oc).core := by
  unfold State.ladderEnds
  (try simp) <;> repeat' (first | intro _ | (with_reducible refine Eq.trans (State.updPu_core _ _ _ _ _ ?_) ?_ <;> try simp [Pickup.core]) | (with_reducible refine Eq.trans (State.updBay_core _ _ _ _ ?_) ?_ <;> try simp [Pickup.core, Bay.inner]) | (split <;> try simp) | (with_reducible refine Eq.trans (State.updLink_core _ _ _ _ _ ?_) ?_ <;> try simp))

@[simp] theorem State.newSlot_core (s : State) (b : BayId) (p : Pu) (oc : BayId) :
    ((s.newSlot b p).bays.get oc).core = (s.bays.get oc).core := by
  unfold State.newSlot
  (try simp) <;> repeat' (first | intro _ | (with_reducible refine Eq.trans (State.updPu_core _ _ _ _ _ ?_) ?_ <;> try simp [Pickup.core]) | (with_reducible refine Eq.trans (State.updBay_core _ _ _ _ ?_) ?_ <;> try simp [Pickup.core, Bay.inner]) | (split <;> try simp) | (with_reducible refine Eq.trans (State.updLink_core _ _ _ _ _ ?_) ?_ <;> try simp))

@[simp] theorem State.takeSlot_core (s : State) (b : BayId) (p : Pu) (oc : BayId) :
    ((s.takeSlot b p).bays.get oc).core = (s.bays.get oc).core := by
  unfold State.takeSlot
  (try simp) <;> repeat' (first | intro _ | (with_reducible refine Eq.trans (State.updPu_core _ _ _ _ _ ?_) ?_ <;> try simp [Pickup.core]) | (with_reducible refine Eq.trans (State.updBay_core _ _ _ _ ?_) ?_ <;> try simp [Pickup.core, Bay.inner]) | (split <;> try simp) | (with_reducible refine Eq.trans (State.updLink_core _ _ _ _ _ ?_) ?_ <;> try simp))

@[simp] theorem State.rateCheck_core (s : State) (b : BayId) (p : Pu) (oc : BayId) :
    ((s.rateCheck b p).bays.get oc).core = (s.bays.get oc).core := by
  unfold State.rateCheck
  (try simp) <;> repeat' (first | intro _ | (with_reducible refine Eq.trans (State.updPu_core _ _ _ _ _ ?_) ?_ <;> try simp [Pickup.core]) | (with_reducible refine Eq.trans (State.updBay_core _ _ _ _ ?_) ?_ <;> try simp [Pickup.core, Bay.inner]) | (split <;> try simp) | (with_reducible refine Eq.trans (State.updLink_core _ _ _ _ _ ?_) ?_ <;> try simp))

@[simp] theorem State.openBoundary_core (s : State) (b : BayId) (p : Pu) (oc : BayId) :
    ((s.openBoundary b p).bays.get oc).core = (s.bays.get oc).core := by
  unfold State.openBoundary
  (try simp) <;> repeat' (first | intro _ | (with_reducible refine Eq.trans (State.updPu_core _ _ _ _ _ ?_) ?_ <;> try simp [Pickup.core]) | (with_reducible refine Eq.trans (State.updBay_core _ _ _ _ ?_) ?_ <;> try simp [Pickup.core, Bay.inner]) | (split <;> try simp) | (with_reducible refine Eq.trans (State.updLink_core _ _ _ _ _ ?_) ?_ <;> try simp))

@[simp] theorem State.sheetBlock_core (s : State) (b : BayId) (p : Pu) (blk : SBlock) (oc : BayId) :
    ((s.sheetBlock b p blk).bays.get oc).core = (s.bays.get oc).core := by
  unfold State.sheetBlock
  (try simp) <;> repeat' (first | intro _ | (with_reducible refine Eq.trans (State.updPu_core _ _ _ _ _ ?_) ?_ <;> try simp [Pickup.core]) | (with_reducible refine Eq.trans (State.updBay_core _ _ _ _ ?_) ?_ <;> try simp [Pickup.core, Bay.inner]) | (split <;> try simp) | (with_reducible refine Eq.trans (State.updLink_core _ _ _ _ _ ?_) ?_ <;> try simp))

@[simp] theorem State.detectSegment_core (s : State) (b : BayId) (p : Pu) (a : SecAddr) (part : Nat) (g : Seg) (oc : BayId) :
    ((s.detectSegment b p a part g).bays.get oc).core = (s.bays.get oc).core := by
  unfold State.detectSegment
  (try simp) <;> repeat' (first | intro _ | (with_reducible refine Eq.trans (State.updPu_core _ _ _ _ _ ?_) ?_ <;> try simp [Pickup.core]) | (with_reducible refine Eq.trans (State.updBay_core _ _ _ _ ?_) ?_ <;> try simp [Pickup.core, Bay.inner]) | (split <;> (try (rename_i hp; replace hp := congrArg Prod.snd hp; dsimp only at hp; subst hp)) <;> try simp) | (with_reducible refine Eq.trans (State.updLink_core _ _ _ _ _ ?_) ?_ <;> try simp))

@[simp] theorem State.tapRollback_core (s : State) (b : BayId) (p : Pu) (q : SoftSlot) (oc : BayId) :
    ((s.tapRollback b p q).bays.get oc).core = (s.bays.get oc).core := by
  unfold State.tapRollback
  (try simp) <;> repeat' (first | intro _ | (with_reducible refine Eq.trans (State.updPu_core _ _ _ _ _ ?_) ?_ <;> try simp [Pickup.core]) | (with_reducible refine Eq.trans (State.updBay_core _ _ _ _ ?_) ?_ <;> try simp [Pickup.core, Bay.inner]) | (split <;> try simp) | (with_reducible refine Eq.trans (State.updLink_core _ _ _ _ _ ?_) ?_ <;> try simp))

@[simp] theorem State.eqDiverge_core (s : State) (b : BayId) (p : Pu) (q : SoftSlot) (oc : BayId) :
    ((s.eqDiverge b p q).bays.get oc).core = (s.bays.get oc).core := by
  unfold State.eqDiverge
  (try simp) <;> repeat' (first | intro _ | (with_reducible refine Eq.trans (State.updPu_core _ _ _ _ _ ?_) ?_ <;> try simp [Pickup.core]) | (with_reducible refine Eq.trans (State.updBay_core _ _ _ _ ?_) ?_ <;> try simp [Pickup.core, Bay.inner]) | (split <;> (try (rename_i hp; replace hp := congrArg Prod.snd hp; dsimp only at hp; subst hp)) <;> try simp) | (with_reducible refine Eq.trans (State.updLink_core _ _ _ _ _ ?_) ?_ <;> try simp) | ((first | rw [State.foldl_core _ _ ?_] | rw [State.foldl2_core _ _ ?_] | rw [State.eachHamper_core _ _ ?_]) <;> intros <;> try simp))

@[simp] theorem State.verifyJudge_core (s : State) (b : BayId) (p : Pu) (q : SoftSlot) (oc : BayId) :
    ((s.verifyJudge b p q).bays.get oc).core = (s.bays.get oc).core := by
  unfold State.verifyJudge
  (try simp) <;> repeat' (first | intro _ | (with_reducible refine Eq.trans (State.updPu_core _ _ _ _ _ ?_) ?_ <;> try simp [Pickup.core]) | (with_reducible refine Eq.trans (State.updBay_core _ _ _ _ ?_) ?_ <;> try simp [Pickup.core, Bay.inner]) | (split <;> try simp) | (with_reducible refine Eq.trans (State.updLink_core _ _ _ _ _ ?_) ?_ <;> try simp) | ((first | rw [State.foldl_core _ _ ?_] | rw [State.foldl2_core _ _ ?_] | rw [State.eachHamper_core _ _ ?_]) <;> intros <;> try simp))

@[simp] theorem State.finishSector_core (s : State) (b : BayId) (p : Pu) (q : SoftSlot) (rung : Nat) (o : OuterOut) (oc : BayId) :
    ((s.finishSector b p q rung o).bays.get oc).core = (s.bays.get oc).core := by
  unfold State.finishSector
  (try simp) <;> repeat' (first | intro _ | (with_reducible refine Eq.trans (State.updPu_core _ _ _ _ _ ?_) ?_ <;> try simp [Pickup.core]) | (with_reducible refine Eq.trans (State.updBay_core _ _ _ _ ?_) ?_ <;> try simp [Pickup.core, Bay.inner]) | (split <;> try simp) | (with_reducible refine Eq.trans (State.updLink_core _ _ _ _ _ ?_) ?_ <;> try simp))

@[simp] theorem State.ladderNext_core (s : State) (b : BayId) (p : Pu) (q : SoftSlot) (oc : BayId) :
    ((s.ladderNext b p q).bays.get oc).core = (s.bays.get oc).core := by
  unfold State.ladderNext
  (try simp) <;> repeat' (first | intro _ | (with_reducible refine Eq.trans (State.updPu_core _ _ _ _ _ ?_) ?_ <;> try simp [Pickup.core]) | (with_reducible refine Eq.trans (State.updBay_core _ _ _ _ ?_) ?_ <;> try simp [Pickup.core, Bay.inner]) | (split <;> try simp) | (with_reducible refine Eq.trans (State.updLink_core _ _ _ _ _ ?_) ?_ <;> try simp))

@[simp] theorem State.judgeSector_core (s : State) (b : BayId) (p : Pu) (a : SecAddr) (oc : BayId) :
    ((s.judgeSector b p a).bays.get oc).core = (s.bays.get oc).core := by
  unfold State.judgeSector
  (try simp) <;> repeat' (first | intro _ | (with_reducible refine Eq.trans (State.updPu_core _ _ _ _ _ ?_) ?_ <;> try simp [Pickup.core]) | (with_reducible refine Eq.trans (State.updBay_core _ _ _ _ ?_) ?_ <;> try simp [Pickup.core, Bay.inner]) | (split <;> try simp) | (with_reducible refine Eq.trans (State.updLink_core _ _ _ _ _ ?_) ?_ <;> try simp))

@[simp] theorem State.firstPass_core (s : State) (b : BayId) (p : Pu) (a : SecAddr) (oc : BayId) :
    ((s.firstPass b p a).bays.get oc).core = (s.bays.get oc).core := by
  unfold State.firstPass
  (try simp) <;> repeat' (first | intro _ | (with_reducible refine Eq.trans (State.updPu_core _ _ _ _ _ ?_) ?_ <;> try simp [Pickup.core]) | (with_reducible refine Eq.trans (State.updBay_core _ _ _ _ ?_) ?_ <;> try simp [Pickup.core, Bay.inner]) | (split <;> try simp) | (with_reducible refine Eq.trans (State.updLink_core _ _ _ _ _ ?_) ?_ <;> try simp) | ((first | rw [State.foldl_core _ _ ?_] | rw [State.foldl2_core _ _ ?_] | rw [State.eachHamper_core _ _ ?_]) <;> intros <;> try simp))

@[simp] theorem State.endVerify_core (s : State) (b : BayId) (p : Pu) (oc : BayId) :
    ((s.endVerify b p).bays.get oc).core = (s.bays.get oc).core := by
  unfold State.endVerify
  (try simp) <;> repeat' (first | intro _ | (with_reducible refine Eq.trans (State.updPu_core _ _ _ _ _ ?_) ?_ <;> try simp [Pickup.core]) | (with_reducible refine Eq.trans (State.updBay_core _ _ _ _ ?_) ?_ <;> try simp [Pickup.core, Bay.inner]) | (split <;> try simp) | (with_reducible refine Eq.trans (State.updLink_core _ _ _ _ _ ?_) ?_ <;> try simp))

@[simp] theorem State.detectorFaulty_core (s : State) (r d : Nat) (oc : BayId) :
    ((s.detectorFaulty r d).bays.get oc).core = (s.bays.get oc).core := by
  unfold State.detectorFaulty
  (try simp) <;> repeat' (first | intro _ | (with_reducible refine Eq.trans (State.updPu_core _ _ _ _ _ ?_) ?_ <;> try simp [Pickup.core]) | (with_reducible refine Eq.trans (State.updBay_core _ _ _ _ ?_) ?_ <;> try simp [Pickup.core, Bay.inner]) | (split <;> (try (rename_i hp; replace hp := congrArg Prod.snd hp; dsimp only at hp; subst hp)) <;> try simp) | (with_reducible refine Eq.trans (State.updLink_core _ _ _ _ _ ?_) ?_ <;> try simp))

@[simp] theorem State.endExcursion_core (s : State) (b : BayId) (oc : BayId) :
    ((s.endExcursion b).bays.get oc).core = (s.bays.get oc).core := by
  unfold State.endExcursion
  (try simp) <;> repeat' (first | intro _ | (with_reducible refine Eq.trans (State.updPu_core _ _ _ _ _ ?_) ?_ <;> try simp [Pickup.core]) | (with_reducible refine Eq.trans (State.updBay_core _ _ _ _ ?_) ?_ <;> try simp [Pickup.core, Bay.inner]) | (split <;> try simp) | (with_reducible refine Eq.trans (State.updLink_core _ _ _ _ _ ?_) ?_ <;> try simp))

@[simp] theorem State.useSpare_core (s : State) (b : BayId) (p : Pu) (a : SecAddr) (oc : BayId) :
    ((s.useSpare b p a).bays.get oc).core = (s.bays.get oc).core := by
  unfold State.useSpare
  (try simp) <;> repeat' (first | intro _ | (with_reducible refine Eq.trans (State.updPu_core _ _ _ _ _ ?_) ?_ <;> try simp [Pickup.core]) | (with_reducible refine Eq.trans (State.updBay_core _ _ _ _ ?_) ?_ <;> try simp [Pickup.core, Bay.inner]) | (split <;> try simp) | (with_reducible refine Eq.trans (State.updLink_core _ _ _ _ _ ?_) ?_ <;> try simp))

@[simp] theorem State.touchSector_core (s : State) (b : BayId) (p : Pu) (c : Coded) (oc : BayId) :
    ((s.touchSector b p c).bays.get oc).core = (s.bays.get oc).core := by
  unfold State.touchSector
  (try simp) <;> repeat' (first | intro _ | (with_reducible refine Eq.trans (State.updPu_core _ _ _ _ _ ?_) ?_ <;> try simp [Pickup.core]) | (with_reducible refine Eq.trans (State.updBay_core _ _ _ _ ?_) ?_ <;> try simp [Pickup.core, Bay.inner]) | (split <;> try simp) | (with_reducible refine Eq.trans (State.updLink_core _ _ _ _ _ ?_) ?_ <;> try simp))

@[simp] theorem State.passSector_core (s : State) (b : BayId) (p : Pu) (k : PassBlock) (f : Nat) (oc : BayId) :
    ((s.passSector b p k f).bays.get oc).core = (s.bays.get oc).core := by
  unfold State.passSector
  (try simp) <;> repeat' (first | intro _ | (with_reducible refine Eq.trans (State.updPu_core _ _ _ _ _ ?_) ?_ <;> try simp [Pickup.core]) | (with_reducible refine Eq.trans (State.updBay_core _ _ _ _ ?_) ?_ <;> try simp [Pickup.core, Bay.inner]) | (split <;> try simp) | (with_reducible refine Eq.trans (State.updLink_core _ _ _ _ _ ?_) ?_ <;> try simp))

@[simp] theorem State.closeSegment_core (s : State) (b : BayId) (p : Pu) (g : Seg) (confirmed : Bool) (oc : BayId) :
    ((s.closeSegment b p g confirmed).bays.get oc).core = (s.bays.get oc).core := by
  unfold State.closeSegment
  (try simp) <;> repeat' (first | intro _ | (with_reducible refine Eq.trans (State.updPu_core _ _ _ _ _ ?_) ?_ <;> try simp [Pickup.core]) | (with_reducible refine Eq.trans (State.updBay_core _ _ _ _ ?_) ?_ <;> try simp [Pickup.core, Bay.inner]) | (split <;> try simp) | (with_reducible refine Eq.trans (State.updLink_core _ _ _ _ _ ?_) ?_ <;> try simp))

@[simp] theorem State.confirmReads_core (s : State) (b : BayId) (p : Pu) (oc : BayId) :
    ((s.confirmReads b p).bays.get oc).core = (s.bays.get oc).core := by
  unfold State.confirmReads
  (try simp) <;> repeat' (first | intro _ | (with_reducible refine Eq.trans (State.updPu_core _ _ _ _ _ ?_) ?_ <;> try simp [Pickup.core]) | (with_reducible refine Eq.trans (State.updBay_core _ _ _ _ ?_) ?_ <;> try simp [Pickup.core, Bay.inner]) | (split <;> try simp) | (with_reducible refine Eq.trans (State.updLink_core _ _ _ _ _ ?_) ?_ <;> try simp) | ((first | rw [State.foldl_core _ _ ?_] | rw [State.foldl2_core _ _ ?_] | rw [State.eachHamper_core _ _ ?_]) <;> intros <;> try simp))

@[simp] theorem State.verifyUnread_core (s : State) (b : BayId) (p : Pu) (a : SecAddr) (oc : BayId) :
    ((s.verifyUnread b p a).bays.get oc).core = (s.bays.get oc).core := by
  unfold State.verifyUnread
  (try simp) <;> repeat' (first | intro _ | (with_reducible refine Eq.trans (State.updPu_core _ _ _ _ _ ?_) ?_ <;> try simp [Pickup.core]) | (with_reducible refine Eq.trans (State.updBay_core _ _ _ _ ?_) ?_ <;> try simp [Pickup.core, Bay.inner]) | (split <;> try simp) | (with_reducible refine Eq.trans (State.updLink_core _ _ _ _ _ ?_) ?_ <;> try simp))

@[simp] theorem State.withdrawPass_core (s : State) (b : BayId) (p : Pu) (oc : BayId) :
    ((s.withdrawPass b p).bays.get oc).core = (s.bays.get oc).core := by
  unfold State.withdrawPass
  (try simp) <;> repeat' (first | intro _ | (with_reducible refine Eq.trans (State.updPu_core _ _ _ _ _ ?_) ?_ <;> try simp [Pickup.core]) | (with_reducible refine Eq.trans (State.updBay_core _ _ _ _ ?_) ?_ <;> try simp [Pickup.core, Bay.inner]) | (split <;> try simp) | (with_reducible refine Eq.trans (State.updLink_core _ _ _ _ _ ?_) ?_ <;> try simp) | ((first | rw [State.foldl_core _ _ ?_] | rw [State.foldl2_core _ _ ?_] | rw [State.eachHamper_core _ _ ?_]) <;> intros <;> try simp))

@[simp] theorem State.askRows_core (s : State) (b : BayId) (p : Pu) (spots : List Nat) (apply : Int) (oc : BayId) :
    ((s.askRows b p spots apply).bays.get oc).core = (s.bays.get oc).core := by
  unfold State.askRows
  (try simp) <;> repeat' (first | intro _ | (with_reducible refine Eq.trans (State.updPu_core _ _ _ _ _ ?_) ?_ <;> try simp [Pickup.core]) | (with_reducible refine Eq.trans (State.updBay_core _ _ _ _ ?_) ?_ <;> try simp [Pickup.core, Bay.inner]) | (split <;> try simp) | (with_reducible refine Eq.trans (State.updLink_core _ _ _ _ _ ?_) ?_ <;> try simp) | ((first | rw [State.foldl_core _ _ ?_] | rw [State.foldl2_core _ _ ?_] | rw [State.eachHamper_core _ _ ?_]) <;> intros <;> try simp))

@[simp] theorem State.noteSwaps_core (s : State) (b : BayId) (p : Pu) (spots : List Nat) (oc : BayId) :
    ((s.noteSwaps b p spots).bays.get oc).core = (s.bays.get oc).core := by
  unfold State.noteSwaps
  (try simp) <;> repeat' (first | intro _ | (with_reducible refine Eq.trans (State.updPu_core _ _ _ _ _ ?_) ?_ <;> try simp [Pickup.core]) | (with_reducible refine Eq.trans (State.updBay_core _ _ _ _ ?_) ?_ <;> try simp [Pickup.core, Bay.inner]) | (split <;> try simp) | (with_reducible refine Eq.trans (State.updLink_core _ _ _ _ _ ?_) ?_ <;> try simp) | ((first | rw [State.foldl_core _ _ ?_] | rw [State.foldl2_core _ _ ?_] | rw [State.eachHamper_core _ _ ?_]) <;> intros <;> try simp))

@[simp] theorem State.planExam_core (s : State) (b : BayId) (p : Pu) (apply : Int) (oc : BayId) :
    ((s.planExam b p apply).bays.get oc).core = (s.bays.get oc).core := by
  unfold State.planExam
  (try simp) <;> repeat' (first | intro _ | (with_reducible refine Eq.trans (State.updPu_core _ _ _ _ _ ?_) ?_ <;> try simp [Pickup.core]) | (with_reducible refine Eq.trans (State.updBay_core _ _ _ _ ?_) ?_ <;> try simp [Pickup.core, Bay.inner]) | (split <;> try simp) | (with_reducible refine Eq.trans (State.updLink_core _ _ _ _ _ ?_) ?_ <;> try simp))

@[simp] theorem State.planSwaps_core (s : State) (b : BayId) (p : Pu) (apply : Int) (oc : BayId) :
    ((s.planSwaps b p apply).bays.get oc).core = (s.bays.get oc).core := by
  unfold State.planSwaps
  (try simp) <;> repeat' (first | intro _ | (with_reducible refine Eq.trans (State.updPu_core _ _ _ _ _ ?_) ?_ <;> try simp [Pickup.core]) | (with_reducible refine Eq.trans (State.updBay_core _ _ _ _ ?_) ?_ <;> try simp [Pickup.core, Bay.inner]) | (split <;> try simp) | (with_reducible refine Eq.trans (State.updLink_core _ _ _ _ _ ?_) ?_ <;> try simp))

@[simp] theorem State.alignCheck_core (s : State) (b : BayId) (p : Pu) (f : Nat) (confirmed : Bool) (pos : Int) (oc : BayId) :
    ((s.alignCheck b p f confirmed pos).bays.get oc).core = (s.bays.get oc).core := by
  unfold State.alignCheck
  (try simp) <;> repeat' (first | intro _ | (with_reducible refine Eq.trans (State.updPu_core _ _ _ _ _ ?_) ?_ <;> try simp [Pickup.core]) | (with_reducible refine Eq.trans (State.updBay_core _ _ _ _ ?_) ?_ <;> try simp [Pickup.core, Bay.inner]) | (split <;> try simp) | (with_reducible refine Eq.trans (State.updLink_core _ _ _ _ _ ?_) ?_ <;> try simp))

@[simp] theorem State.takeoverWedge_core (s : State) (b : BayId) (p : Pu) (pos : Int) (oc : BayId) :
    ((s.takeoverWedge b p pos).bays.get oc).core = (s.bays.get oc).core := by
  unfold State.takeoverWedge
  (try simp) <;> repeat' (first | intro _ | (with_reducible refine Eq.trans (State.updPu_core _ _ _ _ _ ?_) ?_ <;> try simp [Pickup.core]) | (with_reducible refine Eq.trans (State.updBay_core _ _ _ _ ?_) ?_ <;> try simp [Pickup.core, Bay.inner]) | (split <;> try simp) | (with_reducible refine Eq.trans (State.updLink_core _ _ _ _ _ ?_) ?_ <;> try simp))

@[simp] theorem State.searchOn_core (s : State) (b : BayId) (p : Pu) (oc : BayId) :
    ((s.searchOn b p).bays.get oc).core = (s.bays.get oc).core := by
  unfold State.searchOn
  (try simp) <;> repeat' (first | intro _ | (with_reducible refine Eq.trans (State.updPu_core _ _ _ _ _ ?_) ?_ <;> try simp [Pickup.core]) | (with_reducible refine Eq.trans (State.updBay_core _ _ _ _ ?_) ?_ <;> try simp [Pickup.core, Bay.inner]) | (split <;> try simp) | (with_reducible refine Eq.trans (State.updLink_core _ _ _ _ _ ?_) ?_ <;> try simp))

@[simp] theorem State.powerCalRun_core (s : State) (b : BayId) (p : Pu) (oc : BayId) :
    ((s.powerCalRun b p).bays.get oc).core = (s.bays.get oc).core := by
  unfold State.powerCalRun
  (try simp) <;> repeat' (first | intro _ | (with_reducible refine Eq.trans (State.updPu_core _ _ _ _ _ ?_) ?_ <;> try simp [Pickup.core]) | (with_reducible refine Eq.trans (State.updBay_core _ _ _ _ ?_) ?_ <;> try simp [Pickup.core, Bay.inner]) | (split <;> (try (rename_i hp; replace hp := congrArg Prod.snd hp; dsimp only at hp; subst hp)) <;> try simp) | (with_reducible refine Eq.trans (State.updLink_core _ _ _ _ _ ?_) ?_ <;> try simp))

@[simp] theorem State.calConclude_core (s : State) (b : BayId) (p : Pu) (oc : BayId) :
    ((s.calConclude b p).bays.get oc).core = (s.bays.get oc).core := by
  unfold State.calConclude
  (try simp) <;> repeat' (first | intro _ | (with_reducible refine Eq.trans (State.updPu_core _ _ _ _ _ ?_) ?_ <;> try simp [Pickup.core]) | (with_reducible refine Eq.trans (State.updBay_core _ _ _ _ ?_) ?_ <;> try simp [Pickup.core, Bay.inner]) | (split <;> try simp) | (with_reducible refine Eq.trans (State.updLink_core _ _ _ _ _ ?_) ?_ <;> try simp))

@[simp] theorem State.softLost_core (s : State) (addr : Nat) (oc : BayId) :
    ((s.softLost addr).bays.get oc).core = (s.bays.get oc).core := by
  unfold State.softLost
  (try simp) <;> repeat' (first | intro _ | (with_reducible refine Eq.trans (State.updPu_core _ _ _ _ _ ?_) ?_ <;> try simp [Pickup.core]) | (with_reducible refine Eq.trans (State.updBay_core _ _ _ _ ?_) ?_ <;> try simp [Pickup.core, Bay.inner]) | (split <;> try simp) | (with_reducible refine Eq.trans (State.updLink_core _ _ _ _ _ ?_) ?_ <;> try simp))

@[simp] theorem State.codedLost_core (s : State) (addr : Nat) (oc : BayId) :
    ((s.codedLost addr).bays.get oc).core = (s.bays.get oc).core := by
  unfold State.codedLost
  (try simp) <;> repeat' (first | intro _ | (with_reducible refine Eq.trans (State.updPu_core _ _ _ _ _ ?_) ?_ <;> try simp [Pickup.core]) | (with_reducible refine Eq.trans (State.updBay_core _ _ _ _ ?_) ?_ <;> try simp [Pickup.core, Bay.inner]) | (split <;> try simp) | (with_reducible refine Eq.trans (State.updLink_core _ _ _ _ _ ?_) ?_ <;> try simp))

@[simp] theorem State.placeNext_core (s : State) (h : SlotId) (oc : BayId) :
    ((s.placeNext h).bays.get oc).core = (s.bays.get oc).core := by
  unfold State.placeNext
  (try simp) <;> repeat' (first | intro _ | (with_reducible refine Eq.trans (State.updPu_core _ _ _ _ _ ?_) ?_ <;> try simp [Pickup.core]) | (with_reducible refine Eq.trans (State.updBay_core _ _ _ _ ?_) ?_ <;> try simp [Pickup.core, Bay.inner]) | (split <;> try simp) | (with_reducible refine Eq.trans (State.updLink_core _ _ _ _ _ ?_) ?_ <;> try simp))

@[simp] theorem State.rebuildNext_core (s : State) (h : SlotId) (m : Member) (seq pos : Nat) (oc : BayId) :
    ((s.rebuildNext h m seq pos).bays.get oc).core = (s.bays.get oc).core := by
  unfold State.rebuildNext
  (try simp) <;> repeat' (first | intro _ | (with_reducible refine Eq.trans (State.updPu_core _ _ _ _ _ ?_) ?_ <;> try simp [Pickup.core]) | (with_reducible refine Eq.trans (State.updBay_core _ _ _ _ ?_) ?_ <;> try simp [Pickup.core, Bay.inner]) | (split <;> try simp) | (with_reducible refine Eq.trans (State.updLink_core _ _ _ _ _ ?_) ?_ <;> try simp))

@[simp] theorem State.withdraw_core (s : State) (h : SlotId) (m : Member) (b : BayId) (p : Pu) (oc : BayId) :
    ((s.withdraw h m b p).bays.get oc).core = (s.bays.get oc).core := by
  unfold State.withdraw
  (try simp) <;> repeat' (first | intro _ | (with_reducible refine Eq.trans (State.updPu_core _ _ _ _ _ ?_) ?_ <;> try simp [Pickup.core]) | (with_reducible refine Eq.trans (State.updBay_core _ _ _ _ ?_) ?_ <;> try simp [Pickup.core, Bay.inner]) | (split <;> try simp) | (with_reducible refine Eq.trans (State.updLink_core _ _ _ _ _ ?_) ?_ <;> try simp) | ((first | rw [State.foldl_core _ _ ?_] | rw [State.foldl2_core _ _ ?_] | rw [State.eachHamper_core _ _ ?_]) <;> intros <;> try simp))

@[simp] theorem State.writeSession_core (s : State) (h : SlotId) (oc : BayId) :
    ((s.writeSession h).bays.get oc).core = (s.bays.get oc).core := by
  unfold State.writeSession
  (try simp) <;> repeat' (first | intro _ | (with_reducible refine Eq.trans (State.updPu_core _ _ _ _ _ ?_) ?_ <;> try simp [Pickup.core]) | (with_reducible refine Eq.trans (State.updBay_core _ _ _ _ ?_) ?_ <;> try simp [Pickup.core, Bay.inner]) | (split <;> (try (rename_i hp; replace hp := congrArg Prod.snd hp; dsimp only at hp; subst hp)) <;> try simp) | (with_reducible refine Eq.trans (State.updLink_core _ _ _ _ _ ?_) ?_ <;> try simp))

/-- Two states with the same core of a bay agree on each of its parts. -/
theorem State.core_parts {s t : State} {c : BayId} (h : (t.bays.get c).core = (s.bays.get c).core) :
    (t.bay c).mlink = (s.bay c).mlink ∧ (t.bay c).spindle = (s.bay c).spindle ∧ (t.bay c).sledA = (s.bay c).sledA
      ∧ (t.bay c).sledB = (s.bay c).sledB ∧ (t.bay c).zone = (s.bay c).zone
      ∧ (t.bay c).radius = (s.bay c).radius ∧ (t.bay c).ref = (s.bay c).ref ∧ (t.bay c).spare = (s.bay c).spare := by
  simp only [Bay.core, Bay.inner, Prod.mk.injEq] at h
  unfold State.bay
  exact ⟨h.1, h.2.1, h.2.2.1, h.2.2.2.1, h.2.2.2.2.1, h.2.2.2.2.2.1, h.2.2.2.2.2.2.1, h.2.2.2.2.2.2.2.1⟩

/-- Two states with the same core of a bay agree on the core of each pickup. -/
theorem State.core_pu {s t : State} {c : BayId} (h : (t.bays.get c).core = (s.bays.get c).core) (q : Pu) :
    (t.pu c q).ms = (s.pu c q).ms ∧ (t.pu c q).focus = (s.pu c q).focus ∧ (t.pu c q).track = (s.pu c q).track
      ∧ (t.pu c q).tilt = (s.pu c q).tilt ∧ (t.pu c q).elems = (s.pu c q).elems ∧ (t.pu c q).link.st = (s.pu c q).link.st
      ∧ (t.pu c q).link.oneLane = (s.pu c q).link.oneLane ∧ (t.pu c q).link.laser = (s.pu c q).link.laser := by
  simp only [Bay.core, Bay.inner, Prod.mk.injEq] at h
  have hq : (t.pu c q).core = (s.pu c q).core := by
    unfold State.pu State.bay Bay.pu; cases q
    · exact h.2.2.2.2.2.2.2.2.1
    · exact h.2.2.2.2.2.2.2.2.2
  simpa [Pickup.core] using hq

end Sys2Proof.Machine
end

