-- ==== Sys2Proof/Laws/Motion.lean ====
section
/-! SUPPORT. What the transitions of a pickup leave it in: one lemma for each, the state entered and what it sets. -/

namespace Sys2Proof.Machine

@[simp] theorem State.updMs_pu (s : State) (b : BayId) (p : Pu) (g : Motion → Motion) :
    (s.updMs b p g).pu b p = { s.pu b p with ms := g (s.pu b p).ms } := by simp [State.updMs]

@[simp] theorem State.updSheet_pu (s : State) (b : BayId) (p : Pu) (g : Sheet → Sheet) :
    (s.updSheet b p g).pu b p = { s.pu b p with sheet := g (s.pu b p).sheet } := by simp [State.updSheet]

@[simp] theorem State.updPu_liveN (s : State) (b : BayId) (p : Pu) (f : Pickup → Pickup) (d : Field) : (s.updPu b p f).liveN d = s.liveN d := rfl

@[simp] theorem State.raisePu_liveN (s : State) (b : BayId) (p : Pu) (v : Nat) (e : Ev) (d : Field) :
    (s.raisePu b p v e).liveN d = s.liveN d := by simp [State.liveN]

@[simp] theorem State.updPu_us (s : State) (b : BayId) (p : Pu) (f : Pickup → Pickup) : (s.updPu b p f).us = s.us := rfl

/-- Entering a state sets it and its time; a step of calibration ends unless the state is `FOLLOW`. -/
theorem State.enter_pu (s : State) (b : BayId) (p : Pu) (st : PState) :
    (s.enter b p st).pu b p = { s.pu b p with
      ms := { (s.pu b p).ms with st := st, since := s.us, ticks := 0 }
      cal := if st = .follow then (s.pu b p).cal else { (s.pu b p).cal with step := none } } := by
  unfold State.enter
  by_cases h : st = .follow
  · simp [h]
  · simp [h]

@[simp] theorem State.enter_st (s : State) (b : BayId) (p : Pu) (st : PState) : ((s.enter b p st).pu b p).ms.st = st := by
  rw [State.enter_pu]

@[simp] theorem State.puOff_st (s : State) (b : BayId) (p : Pu) : ((s.puOff b p).pu b p).ms.st = .off := by
  simp [State.puOff]

/-- What a pickup does in entering a state leaves the other pickup of its bay. -/
theorem State.enter_twin (s : State) (b : BayId) (p q : Pu) (st : PState) (h : p ≠ q) : (s.enter b p st).pu b q = s.pu b q := by
  unfold State.enter State.updMs
  simp only [State.logDp_pu]
  split <;> simp [State.updPu_pu_other _ _ _ _ _ h]

/-- One pickup going off leaves the other as it moves. -/
theorem State.puOff_twin (s : State) (b : BayId) (p q : Pu) (h : p ≠ q) : ((s.puOff b p).pu b q).ms = (s.pu b q).ms := by
  unfold State.puOff
  rw [State.enter_twin _ _ _ _ _ h, State.updPu_pu_other _ _ _ _ _ h]
  exact (State.core_pu (by simp) q).1

/-- A commanded stop turns both pickups off. -/
theorem State.commandStop_st (s : State) (b : BayId) (q : Pu) : ((s.commandStop b).pu b q).ms.st = .off := by
  unfold State.commandStop State.updSp
  dsimp only
  have hd : ∀ x : State, ((x.dropRelocs b).pu b q).ms = (x.pu b q).ms := fun x => (State.core_pu (by simp) q).1
  have hu : ∀ (x : State) (g : Spindle → Spindle), ((x.updBay b (fun y => { y with spindle := g y.spindle })).pu b q) = x.pu b q := by
    intro x g; unfold State.pu; rw [State.updBay_bay]; cases q <;> rfl
  have ho : ((((s.puOff b .A).puOff b .B).dropRelocs b).pu b q).ms.st = .off := by
    rw [hd]
    cases q
    · rw [State.puOff_twin _ _ _ _ (by decide)]; exact State.puOff_st _ _ _
    · exact State.puOff_st _ _ _
  rw [hu _ (fun x => x.commanded _)]
  split
  · simpa using ho
  · exact ho

/-- The check for an empty bay leaves a pickup in its state, or stops the bay and turns it off. -/
theorem State.emptyCheck_st (s : State) (b : BayId) (p q : Pu) :
    ((s.emptyCheck b p).pu b q).ms.st = (s.pu b q).ms.st ∨ ((s.emptyCheck b p).pu b q).ms.st = .off := by
  unfold State.emptyCheck
  dsimp only
  split
  · exact .inl rfl
  · exact .inr (State.commandStop_st _ _ _)

/-- A pickup that fails is in `FAILED`, or in `OFF` where its bay is found empty with it. -/
theorem State.puFail_st (s : State) (b : BayId) (p : Pu) :
    ((s.puFail b p).pu b p).ms.st = .failed ∨ ((s.puFail b p).pu b p).ms.st = .off := by
  unfold State.puFail
  rcases State.emptyCheck_st (((s.puOff b p).enter b p .failed).raisePu b p 4 .loopPickupFail) b p p with h | h
  · left; rw [h]; simp
  · exact .inr h

/-- A pickup that is neither off nor failed recovers, or fails when its ladders are spent. -/
theorem State.enterRecover_st (s : State) (b : BayId) (p : Pu) (c : RecCause) (h : (s.pu b p).ms.st ≠ .off ∧ (s.pu b p).ms.st ≠ .failed) :
    if s.liveN .loopRecoverMaxTries ≤ (s.pu b p).ms.ladders
    then ((s.enterRecover b p c).pu b p).ms.st = .failed ∨ ((s.enterRecover b p c).pu b p).ms.st = .off
    else ((s.enterRecover b p c).pu b p).ms.st = .recover := by
  unfold State.enterRecover
  dsimp only
  rw [if_neg (show ¬((s.pu b p).ms.st == .off ∨ (s.pu b p).ms.st == .failed) by simp [h.1, h.2])]
  split
  · exact State.puFail_st s b p
  · simp

@[simp] theorem State.enterTrackPull_st (s : State) (b : BayId) (p : Pu) : ((s.enterTrackPull b p).pu b p).ms.st = .trackPull := by
  simp [State.enterTrackPull]

theorem State.enterFocusSearch_st (s : State) (b : BayId) (p : Pu) (h : s.coresHeld = false) :
    ((s.enterFocusSearch b p).pu b p).ms.st = .focusSearch ∧ ((s.enterFocusSearch b p).pu b p).link.laser = !s.isl.agentLost := by
  unfold State.enterFocusSearch
  simp [h, State.enter_pu]

@[simp] theorem State.enterAcquire_st (s : State) (b : BayId) (p : Pu) : ((s.enterAcquire b p).pu b p).ms.st = .acquire := by
  simp [State.enterAcquire]

@[simp] theorem State.enterFollow_st (s : State) (b : BayId) (p : Pu) : ((s.enterFollow b p).pu b p).ms.st = .follow := by
  simp [State.enterFollow]

/-- A jump is issued: the swaths to cross and the state it comes back to. -/
theorem State.startJump_ms (s : State) (b : BayId) (p : Pu) (n : Int) :
    ((s.startJump b p n).pu b p).ms.st = .swathJump
      ∧ ((s.startJump b p n).pu b p).ms.jump = some ⟨n, 0, 0, (s.pu b p).ms.st, false, 0⟩ := by
  simp [State.startJump, State.enter_pu]

theorem State.startLayerJump_ms (s : State) (b : BayId) (p : Pu) (layer : Nat) :
    ((s.startLayerJump b p layer).pu b p).ms.st = .layerJump ∧ ((s.startLayerJump b p layer).pu b p).ms.tgtLayer = layer
      ∧ ((s.startLayerJump b p layer).pu b p).link.wpermit = false := by
  simp [State.startLayerJump, State.enter_pu]

@[simp] theorem State.enterSeek_st (s : State) (b : BayId) (p : Pu) : ((s.enterSeek b p).pu b p).ms.st = .seek := by
  simp [State.enterSeek]

theorem State.updBay_pu_same (s : State) (b c : BayId) (q : Pu) (f : Bay → Bay) (h : ∀ y : Bay, (f y).pu q = y.pu q) :
    (s.updBay b f).pu c q = s.pu c q := by
  unfold State.pu
  by_cases hc : b = c
  · subst hc; rw [State.updBay_bay, h]
  · rw [State.updBay_bay_other _ _ _ _ hc]

/-- A sled's target changes no pickup. -/
@[simp] theorem State.sledTarget_pu (s : State) (b : BayId) (p : Pu) (r : Int) (k : Bool) (c : BayId) (q : Pu) :
    (s.sledTarget b p r k).pu c q = s.pu c q := by
  unfold State.sledTarget
  dsimp only
  split
  · rfl
  · split
    · rfl
    · unfold State.updSled
      rw [State.updBay_pu_same _ _ _ _ _ (fun y => by simp)]
      split <;> split <;> simp

/-- Nor do the targets of both sleds. -/
@[simp] theorem State.seekSleds_pu (s : State) (b : BayId) (r : Int) (c : BayId) (q : Pu) : (s.seekSleds b r).pu c q = s.pu c q := by
  unfold State.seekSleds
  dsimp only
  split
  · split
    · rw [State.updBay_pu_same _ _ _ _ _ (fun y => by cases q <;> rfl)]; simp
    · simp
  · simp

end Sys2Proof.Machine
end

