-- ==== Sys2Proof/Laws/Raise.lean ====
section
/-! SUPPORT. What raising an event leaves of the host side and of the chip: rings but event rings, commands, resets, clocks. -/

namespace Sys2Proof.Machine

/-- Of the host side, what no event changes. -/
def HostState.still (h : HostState) : HostState := { h with fns := [], crs := [] }

/-- Of the chip, what no event changes. -/
def ChipState.still (c : ChipState) : ChipState := { c with last := [] }

@[simp] theorem State.updFn_still (s : State) (f : FnId) (g : Fn → Fn) : (s.updFn f g).host.still = s.host.still := rfl

@[simp] theorem State.updCr_still (s : State) (f : FnId) (id : Nat) (g : Cr → Cr) : (s.updCr f id g).host.still = s.host.still := rfl

@[simp] theorem State.emit_still (s : State) (o : Output) : (s.emit o).host.still = s.host.still := rfl

@[simp] theorem State.signal_still (s : State) (f : FnId) (v : Nat) : (s.signal f v).host.still = s.host.still := by
  unfold State.signal; split
  · rfl
  · dsimp only; split <;> simp

@[simp] theorem State.crSignal_still (s : State) (f : FnId) (id : Nat) : (s.crSignal f id).host.still = s.host.still := by
  unfold State.crSignal; split
  · rfl
  · split <;> simp

@[simp] theorem State.writeEv_still (s : State) (c : Cr) (r : EvRec) (n : Nat) : (s.writeEv c r n).host.still = s.host.still := by
  unfold State.writeEv; dsimp only; split <;> simp

@[simp] theorem State.deliver_still (s : State) (f : FnId) (r : EvRec) : (s.deliver f r).host.still = s.host.still := by
  unfold State.deliver; split
  · rfl
  · dsimp only; split
    · simp
    · split <;> simp

@[simp] theorem State.flushLost_still (s : State) (f : FnId) : (s.flushLost f).host.still = s.host.still := by
  unfold State.flushLost; split
  · split <;> simp
  · rfl

@[simp] theorem State.post_still (s : State) (r : EvRec) : (s.post r).host.still = s.host.still := by
  unfold State.post; split
  · split
    · rfl
    · unfold State.storeEv; split <;> rfl
  · generalize s.evTargets r = l
    rename_i hc
    clear hc
    induction l generalizing s with
    | nil => rfl
    | cons a l ih => rw [List.foldl_cons, ih, State.deliver_still]

/-- An event changes of the host side only functions and completion rings. -/
@[simp] theorem State.raise_still (s : State) (src : Nat) (e : Ev) (p0 p1 p2 : Nat) : (s.raise src e p0 p1 p2).host.still = s.host.still := by
  unfold State.raise; dsimp only; repeat' split
  all_goals first | rfl | rw [State.post_still]

@[simp] theorem State.post_chip (s : State) (r : EvRec) : (s.post r).chip = s.chip := by
  simp

/-- An event changes of the chip only the list of the last records. -/
@[simp] theorem State.raise_chip (s : State) (src : Nat) (e : Ev) (p0 p1 p2 : Nat) : (s.raise src e p0 p1 p2).chip.still = s.chip.still := by
  unfold State.raise; dsimp only; repeat' split
  all_goals first | rfl | (rw [State.post_chip]; rfl)

/-- The parts of the host side that stand still, one by one. -/
theorem HostState.still_parts {g h : HostState} (e : g.still = h.still) :
    g.srs = h.srs ∧ g.cmds = h.cmds ∧ g.act = h.act ∧ g.fetchStop = h.fetchStop ∧ g.stageBusy = h.stageBusy ∧ g.vfs = h.vfs
      ∧ g.width = h.width ∧ g.ready = h.ready ∧ g.nextOrder = h.nextOrder ∧ g.badDoorbells = h.badDoorbells ∧ g.gen = h.gen := by
  simp only [HostState.still, HostState.mk.injEq] at e
  simp_all

/-- The parts of the chip that stand still, one by one. -/
theorem ChipState.still_parts {c d : ChipState} (e : c.still = d.still) :
    c.rst = d.rst ∧ c.wdog = d.wdog ∧ c.up = d.up ∧ c.clk = d.clk ∧ c.power = d.power ∧ c.fatal = d.fatal ∧ c.crash = d.crash
      ∧ c.repair = d.repair := by
  simp only [ChipState.still, ChipState.mk.injEq] at e
  simp_all

@[simp] theorem State.raise_hostParts (s : State) (src : Nat) (e : Ev) (p0 p1 p2 : Nat) :
    (s.raise src e p0 p1 p2).host.srs = s.host.srs ∧ (s.raise src e p0 p1 p2).host.cmds = s.host.cmds
      ∧ (s.raise src e p0 p1 p2).host.act = s.host.act ∧ (s.raise src e p0 p1 p2).host.fetchStop = s.host.fetchStop
      ∧ (s.raise src e p0 p1 p2).host.stageBusy = s.host.stageBusy ∧ (s.raise src e p0 p1 p2).host.vfs = s.host.vfs
      ∧ (s.raise src e p0 p1 p2).host.width = s.host.width := by
  obtain ⟨h1, h2, h3, h4, h5, h6, h7, _⟩ := HostState.still_parts (State.raise_still s src e p0 p1 p2)
  exact ⟨h1, h2, h3, h4, h5, h6, h7⟩

@[simp] theorem State.raise_chipParts (s : State) (src : Nat) (e : Ev) (p0 p1 p2 : Nat) :
    (s.raise src e p0 p1 p2).chip.rst = s.chip.rst ∧ (s.raise src e p0 p1 p2).chip.wdog = s.chip.wdog
      ∧ (s.raise src e p0 p1 p2).chip.up = s.chip.up ∧ (s.raise src e p0 p1 p2).chip.clk = s.chip.clk
      ∧ (s.raise src e p0 p1 p2).chip.power = s.chip.power ∧ (s.raise src e p0 p1 p2).chip.fatal = s.chip.fatal
      ∧ (s.raise src e p0 p1 p2).chip.crash = s.chip.crash := by
  obtain ⟨h1, h2, h3, h4, h5, h6, h7, _⟩ := ChipState.still_parts (State.raise_chip s src e p0 p1 p2)
  exact ⟨h1, h2, h3, h4, h5, h6, h7⟩

end Sys2Proof.Machine
end

