-- ==== Sys2Proof/Laws/Blocks.lean ====
section
/-! SUPPORT. The record of the chip's blocks (R375, R381): which operations leave it, what a block's change leaves, and the time
that events and boundaries leave as it is. -/

namespace Sys2Proof.Machine

@[simp] theorem State.boundary_us (s : State) (u : CfgUnit) (n : Nat) : (s.boundary u n).us = s.us := rfl

@[simp] theorem State.emit_us (s : State) (o : Output) : (s.emit o).us = s.us := rfl

@[simp] theorem State.raise_us (s : State) (src : Nat) (e : Ev) (p0 p1 p2 : Nat) : (s.raise src e p0 p1 p2).us = s.us := by
  simp [State.us]

@[simp] theorem State.regionEvent_us (s : State) (r src : Nat) (e : Ev) (p0 p1 p2 : Nat) : (s.regionEvent r src e p0 p1 p2).us = s.us := by
  simp [State.regionEvent]

/-- A block that has been set reads as set. -/
@[simp] theorem State.setBlk_blkOf (s : State) (b : Blk) : (s.setBlk b).blkOf b.id = b := by
  simp [State.setBlk, State.blkOf]

/-- The other blocks keep their records. -/
theorem State.setBlk_other (s : State) (b : Blk) (id : BlockId) (h : b.id ≠ id) : (s.setBlk b).blkOf id = s.blkOf id := by
  unfold State.setBlk State.blkOf
  dsimp only
  rw [List.find?_cons_of_neg (by simpa using h), List.find?_filter]
  congr 2
  funext x
  by_cases hx : x.id = id
  · simp [hx, Ne.symm h]
  · simp [hx]

theorem State.blkOf_congr {s t : State} (h : t.blk.blks = s.blk.blks) (id : BlockId) : t.blkOf id = s.blkOf id := by
  simp [State.blkOf, h]

/-- A block's record carries its own name. -/
@[simp] theorem State.blkOf_id (s : State) (id : BlockId) : (s.blkOf id).id = id := by
  unfold State.blkOf
  cases h : s.blk.blks.find? (fun x => x.id == id) with
  | none => rfl
  | some x => simpa using List.find?_some h

@[simp] theorem State.regionEvent_blkOf (s : State) (r src : Nat) (e : Ev) (p0 p1 p2 : Nat) (id : BlockId) :
    (s.regionEvent r src e p0 p1 p2).blkOf id = s.blkOf id := State.blkOf_congr (by simp) id

@[simp] theorem State.degrade_blks (s : State) (r : Nat) : (s.degrade r).blk.blks = s.blk.blks := by
  unfold State.degrade; split <;> simp

@[simp] theorem State.degrade_blkOf (s : State) (r : Nat) (id : BlockId) : (s.degrade r).blkOf id = s.blkOf id :=
  State.blkOf_congr (by simp) id

/-- A fenced block is out of service. -/
@[simp] theorem State.fence_up (s : State) (id : BlockId) : ((s.fence id).blkOf id).up = false := by
  unfold State.fence
  simp only [State.regionEvent_blkOf]
  have h : ∀ (s : State) (b : Blk), b.id = id → b.up = false → ((s.setBlk b).blkOf id).up = false := by
    intro s b h1 h2; subst h1; simpa using h2
  exact h _ _ (by simp) (by simp [Blk.up])

/-- A region once lost stays on record while a pickup leaves service. -/
@[simp] theorem State.enter_blk (s : State) (b : BayId) (p : Pu) (st : PState) :
    (s.enter b p st).blk.lost = s.blk.lost ∧ (s.enter b p st).blk.blks = s.blk.blks ∧ (s.enter b p st).blk.degraded = s.blk.degraded := by
  unfold State.enter State.logDp
  dsimp only
  split <;> simp

@[simp] theorem State.puOff_blk (s : State) (b : BayId) (p : Pu) :
    (s.puOff b p).blk.lost = s.blk.lost ∧ (s.puOff b p).blk.blks = s.blk.blks ∧ (s.puOff b p).blk.degraded = s.blk.degraded := by
  unfold State.puOff
  simp

@[simp] theorem State.askHold_blk (s : State) (b : BayId) :
    (s.askHold b).blk.lost = s.blk.lost ∧ (s.askHold b).blk.blks = s.blk.blks ∧ (s.askHold b).blk.degraded = s.blk.degraded := by
  unfold State.askHold
  split <;> simp

@[simp] theorem State.bayLost_blk (s : State) (b : BayId) :
    (s.bayLost b).blk.lost = s.blk.lost ∧ (s.bayLost b).blk.blks = s.blk.blks ∧ (s.bayLost b).blk.degraded = s.blk.degraded := by
  unfold State.bayLost
  simp

theorem State.bayLost_fold (l : List BayId) (s : State) :
    (l.foldl State.bayLost s).blk.lost = s.blk.lost ∧ (l.foldl State.bayLost s).blk.blks = s.blk.blks := by
  induction l generalizing s with
  | nil => exact ⟨rfl, rfl⟩
  | cons b l ih => simp [List.foldl_cons, ih]

end Sys2Proof.Machine
end

