-- ==== Sys2Proof/Laws/Memory.lean ====
section
/-! SUPPORT. The laws of addressed memories: writes and erases keep the canonical form, a byte written reads back, and every
other byte reads as before. -/

namespace Sys2Proof.Machine

theorem Memory.sortedAbove_mono {d : Byte} {m : Memory} {lo lo' : Nat} (h : lo' ≤ lo) (hs : Memory.sortedAbove d lo m = true) :
    Memory.sortedAbove d lo' m = true := by
  cases m with
  | nil => rfl
  | cons e m =>
    simp only [Memory.sortedAbove, Bool.and_eq_true, decide_eq_true_eq] at hs ⊢
    exact ⟨⟨by omega, hs.1.2⟩, hs.2⟩

theorem Memory.write_sorted {d : Byte} (m : Memory) (lo a : Nat) (v : Byte) (hs : Memory.sortedAbove d lo m = true) (ha : lo ≤ a) :
    Memory.sortedAbove d lo (Memory.write d m a v) = true := by
  induction m generalizing lo with
  | nil =>
    unfold Memory.write; split
    · rfl
    · rename_i hv; simp [Memory.sortedAbove, ha, hv]
  | cons e m ih =>
    obtain ⟨k, x⟩ := e
    simp only [Memory.sortedAbove, Bool.and_eq_true, decide_eq_true_eq] at hs
    obtain ⟨⟨hk, hx⟩, hm⟩ := hs
    unfold Memory.write
    split
    · split
      · simp only [Memory.sortedAbove, Bool.and_eq_true, decide_eq_true_eq]; exact ⟨⟨hk, hx⟩, hm⟩
      · rename_i h1 hv
        simp only [Memory.sortedAbove, Bool.and_eq_true, decide_eq_true_eq]
        exact ⟨⟨ha, by simpa using hv⟩, ⟨by omega, hx⟩, hm⟩
    · split
      · split
        · exact Memory.sortedAbove_mono (by omega) hm
        · rename_i hv
          simp only [Memory.sortedAbove, Bool.and_eq_true, decide_eq_true_eq]
          exact ⟨⟨hk, by simpa using hv⟩, hm⟩
      · simp only [Memory.sortedAbove, Bool.and_eq_true, decide_eq_true_eq]
        exact ⟨⟨hk, hx⟩, ih (k + 1) hm (by omega)⟩

/-- A write keeps the canonical form. -/
theorem Memory.write_wf {d : Byte} {m : Memory} (a : Nat) (v : Byte) (h : Memory.wf d m = true) :
    Memory.wf d (Memory.write d m a v) = true := Memory.write_sorted m 0 a v h (Nat.zero_le a)

/-- A byte string written keeps the canonical form. -/
theorem Memory.writeBytes_wf {d : Byte} {m : Memory} (a : Nat) (bs : Bytes) (h : Memory.wf d m = true) :
    Memory.wf d (Memory.writeBytes d m a bs) = true := by
  induction bs generalizing m a with
  | nil => exact h
  | cons v vs ih => exact ih (a + 1) (Memory.write_wf a v h)

theorem Memory.filter_sorted {d : Byte} (p : Host.Cell → Bool) (m : Memory) (lo : Nat) (hs : Memory.sortedAbove d lo m = true) :
    Memory.sortedAbove d lo (m.filter p) = true := by
  induction m generalizing lo with
  | nil => rfl
  | cons e m ih =>
    obtain ⟨k, x⟩ := e
    simp only [Memory.sortedAbove, Bool.and_eq_true, decide_eq_true_eq] at hs
    obtain ⟨⟨hk, hx⟩, hm⟩ := hs
    by_cases hp : p (k, x) = true
    · rw [List.filter_cons_of_pos hp]
      simp only [Memory.sortedAbove, Bool.and_eq_true, decide_eq_true_eq]
      exact ⟨⟨hk, hx⟩, ih (k + 1) hm⟩
    · rw [List.filter_cons_of_neg hp]
      exact ih lo (Memory.sortedAbove_mono (by omega) hm)

/-- An erase keeps the canonical form. -/
theorem Memory.erase_wf {d : Byte} {m : Memory} (a n : Nat) (h : Memory.wf d m = true) :
    Memory.wf d (Memory.erase m a n) = true := Memory.filter_sorted _ m 0 h

theorem Memory.wf_nil (d : Byte) : Memory.wf d [] = true := rfl

theorem Memory.read_below {d : Byte} (m : Memory) (lo a : Nat) (hs : Memory.sortedAbove d lo m = true) (h : a < lo) :
    Memory.read d m a = d := by
  cases m with
  | nil => rfl
  | cons e m =>
    simp only [Memory.sortedAbove, Bool.and_eq_true, decide_eq_true_eq] at hs
    simp only [Memory.read]
    rw [if_neg (by omega), if_pos (by omega)]

theorem Memory.read_write_sorted {d : Byte} (m : Memory) (lo a b : Nat) (v : Byte) (hs : Memory.sortedAbove d lo m = true) :
    Memory.read d (Memory.write d m a v) b = if b = a then v else Memory.read d m b := by
  induction m generalizing lo with
  | nil =>
    simp only [Memory.write, Memory.read]
    by_cases hv : v = d
    · rw [if_pos hv]; simp only [Memory.read]; split
      · exact hv.symm
      · rfl
    · rw [if_neg hv]; simp only [Memory.read]
      by_cases h : b = a
      · rw [if_pos h, if_pos h.symm]
      · rw [if_neg h, if_neg (fun e => h e.symm)]; split <;> rfl
  | cons e m ih =>
    obtain ⟨k, x⟩ := e
    simp only [Memory.sortedAbove, Bool.and_eq_true, decide_eq_true_eq] at hs
    obtain ⟨⟨hk, hx⟩, hm⟩ := hs
    simp only [Memory.write, Memory.read]
    by_cases h1 : a < k
    · rw [if_pos h1]
      by_cases hv : v = d
      · rw [if_pos hv]; simp only [Memory.read]
        by_cases hb : b = a
        · subst hb; rw [if_pos rfl, if_neg (by omega), if_pos h1, hv]
        · rw [if_neg hb]
      · rw [if_neg hv]; simp only [Memory.read]
        by_cases hb : b = a
        · rw [if_pos hb, if_pos hb.symm]
        · rw [if_neg hb, if_neg (fun e => hb e.symm)]
          by_cases h2 : b < a
          · rw [if_pos h2, if_neg (by omega), if_pos (by omega)]
          · rw [if_neg h2]
    · rw [if_neg h1]
      by_cases h2 : a = k
      · subst h2; rw [if_pos rfl]
        by_cases hv : v = d
        · rw [if_pos hv]
          by_cases hb : b = a
          · subst hb; rw [if_pos rfl, Memory.read_below m _ b hm (Nat.lt_succ_self b), hv]
          · rw [if_neg hb, if_neg (fun e => hb e.symm)]
            by_cases h3 : b < a
            · rw [if_pos h3, Memory.read_below m _ b hm (by omega)]
            · rw [if_neg h3]
        · rw [if_neg hv]; simp only [Memory.read]
          by_cases hb : b = a
          · rw [if_pos hb, if_pos hb.symm]
          · rw [if_neg hb]
            simp only [if_neg (fun e : a = b => hb e.symm)]
      · rw [if_neg h2]; simp only [Memory.read]
        by_cases hb : b = a
        · subst hb; rw [if_neg (fun e => h2 e.symm), if_neg h1, ih (k + 1) hm, if_pos rfl]; simp
        · rw [ih (k + 1) hm, if_neg hb, if_neg hb]

/-- What a byte reads as after a write. -/
theorem Memory.read_write {d : Byte} {m : Memory} (a b : Nat) (v : Byte) (h : Memory.wf d m = true) :
    Memory.read d (Memory.write d m a v) b = if b = a then v else Memory.read d m b := Memory.read_write_sorted m 0 a b v h

/-- Every byte outside a string written reads as before. -/
theorem Memory.read_writeBytes_other {d : Byte} {m : Memory} (a b : Nat) (bs : Bytes) (h : Memory.wf d m = true)
    (hb : b < a ∨ a + bs.length ≤ b) : Memory.read d (Memory.writeBytes d m a bs) b = Memory.read d m b := by
  induction bs generalizing m a with
  | nil => rfl
  | cons v vs ih =>
    simp only [List.length_cons] at hb
    simp only [Memory.writeBytes]
    rw [ih (a + 1) (Memory.write_wf a v h) (by omega), Memory.read_write a b v h, if_neg (by omega)]

/-- A string written reads back. -/
theorem Memory.readBytes_writeBytes {d : Byte} {m : Memory} (a : Nat) (bs : Bytes) (h : Memory.wf d m = true) :
    Memory.readBytes d (Memory.writeBytes d m a bs) a bs.length = bs := by
  induction bs generalizing m a with
  | nil => rfl
  | cons v vs ih =>
    have hw := Memory.write_wf a v h
    simp only [List.length_cons, Memory.readBytes, Memory.writeBytes]
    rw [ih (a + 1) hw, Memory.read_writeBytes_other (a + 1) a vs hw (by omega), Memory.read_write a a v h, if_pos rfl]

/-- Every byte of an erased range reads as unlisted, every other byte as before. -/
theorem Memory.read_erase {d : Byte} (m : Memory) (lo a n b : Nat) (hs : Memory.sortedAbove d lo m = true) :
    Memory.read d (Memory.erase m a n) b = if a ≤ b ∧ b < a + n then d else Memory.read d m b := by
  induction m generalizing lo with
  | nil => simp [Memory.erase, Memory.read]
  | cons e m ih =>
    obtain ⟨k, x⟩ := e
    simp only [Memory.sortedAbove, Bool.and_eq_true, decide_eq_true_eq] at hs
    obtain ⟨⟨hk, hx⟩, hm⟩ := hs
    have hi := ih (k + 1) hm
    have hlow := Memory.read_below m (k + 1) b hm
    unfold Memory.erase at hi ⊢
    simp only [List.filter_cons]
    split
    · rename_i hp
      simp only [Bool.not_eq_true', Bool.and_eq_false_imp, decide_eq_true_eq, decide_eq_false_iff_not] at hp
      simp only [Memory.read]
      by_cases h1 : k = b
      · subst h1; rw [if_pos rfl, if_pos rfl, if_neg (fun h => hp h.1 h.2)]
      · rw [if_neg h1, if_neg h1, hi]
        by_cases h2 : b < k
        · rw [if_pos h2, if_pos h2]; split <;> rfl
        · rw [if_neg h2, if_neg h2]
    · rename_i hp
      have h0 : a ≤ k ∧ k < a + n := by
        by_cases h1 : a ≤ k ∧ k < a + n
        · exact h1
        · exact absurd (by simp; omega) hp
      simp only [Memory.read]
      rw [hi]
      by_cases h1 : k = b
      · subst h1; rw [if_pos h0, if_pos h0]
      · rw [if_neg h1]
        by_cases h2 : b < k
        · rw [if_pos h2, hlow (by omega)]
        · rw [if_neg h2]

end Sys2Proof.Machine
end

