-- ==== Sys2Proof/Laws/Canon.lean ====
section
/-! SUPPORT. Every operation that writes DDR5 or flash keeps their canonical form. The commands' frame lemmas cover the
operations that write neither. -/

namespace Sys2Proof.Machine

/-- Flash stands in its canonical form. -/
theorem State.memOk_of_eq {s t : State} (hd : t.mem.ddr = s.mem.ddr) (hf : t.flash.mem = s.flash.mem) (h : s.memOk) : t.memOk := by
  unfold State.memOk at h ⊢; rw [hd, hf]; exact h

theorem State.memOk_nil {t : State} (hd : t.mem.ddr = []) (hf : Memory.wf norDefault t.flash.mem = true) : t.memOk := by
  unfold State.memOk; rw [hd]; exact ⟨rfl, hf⟩

theorem State.memOk_flash {s t : State} (hd : t.mem.ddr = s.mem.ddr) (hf : Memory.wf norDefault t.flash.mem = true) (h : s.memOk) :
    t.memOk := by
  unfold State.memOk at h ⊢; rw [hd]; exact ⟨h.1, hf⟩

/-! ### Flash -/

theorem Flash.program_wf {f : Flash} (a : Nat) (bs : Bytes) (h : Memory.wf norDefault f.mem = true) :
    Memory.wf norDefault (f.program a bs).mem = true := Memory.writeBytes_wf a bs h

theorem Flash.eraseAt_wf {f : Flash} (a n : Nat) (h : Memory.wf norDefault f.mem = true) :
    Memory.wf norDefault (f.eraseAt a n).mem = true := Memory.erase_wf a n h

theorem Flash.foldl_wf {α : Type} (g : Flash → α → Flash)
    (hg : ∀ f a, Memory.wf norDefault f.mem = true → Memory.wf norDefault (g f a).mem = true) (l : List α) (f : Flash)
    (h : Memory.wf norDefault f.mem = true) : Memory.wf norDefault (l.foldl g f).mem = true := by
  induction l generalizing f with
  | nil => exact h
  | cons a l ih => exact ih (g f a) (hg f a h)

theorem Flash.bootAppend_wf {f : Flash} (b : BootState) (h : Memory.wf norDefault f.mem = true) :
    Memory.wf norDefault (f.bootAppend b).mem = true := by
  unfold Flash.bootAppend
  split
  · exact h
  · refine Flash.program_wf _ _ ?_
    split
    · exact Flash.eraseAt_wf _ _ h
    · exact h

theorem Flash.calPut_wf {f : Flash} (r : Bytes) (h : Memory.wf norDefault f.mem = true) :
    Memory.wf norDefault (f.calPut r).mem = true := by
  unfold Flash.calPut
  split
  · exact Flash.program_wf _ _ h
  · exact h

theorem Flash.calCompact_wf {f : Flash} (h : Memory.wf norDefault f.mem = true) :
    Memory.wf norDefault f.calCompact.mem = true := by
  unfold Flash.calCompact
  dsimp only
  split
  · split
    · exact h
    · exact Flash.eraseAt_wf _ _ (Flash.foldl_wf _ (fun f a hf => Flash.calPut_wf _ hf) _ _ h)
  · exact h

theorem Flash.crashPut_wf {f : Flash} (r : Bytes) (h : Memory.wf norDefault f.mem = true) :
    Memory.wf norDefault (f.crashPut r).mem = true := by
  unfold Flash.crashPut
  dsimp only
  split
  · exact h
  · split
    · exact Flash.program_wf _ _ h
    · split
      · exact Flash.program_wf _ _ (Flash.eraseAt_wf _ _ h)
      · exact h

theorem Flash.repairWrite_wf {f : Flash} (places : List Nat) (seq : Nat) (es : List (List (BitVec 64)))
    (h : Memory.wf norDefault f.mem = true) : Memory.wf norDefault (f.repairWrite places seq es).mem = true := by
  unfold Flash.repairWrite
  exact Flash.foldl_wf _ (fun f a hf => Flash.program_wf _ _ hf) _ _ h

theorem Flash.repairAppend_wf {f g : Flash} (new : List (BitVec 64)) (h : Memory.wf norDefault f.mem = true)
    (hg : f.repairAppend new = some g) : Memory.wf norDefault g.mem = true := by
  unfold Flash.repairAppend at hg
  dsimp only at hg
  split at hg
  · injection hg with hg; subst hg; exact Flash.repairWrite_wf _ _ _ h
  · split at hg
    · contradiction
    · injection hg with hg; subst hg
      exact Flash.eraseAt_wf _ _ (Flash.repairWrite_wf _ _ _ (Flash.eraseAt_wf _ _ h))

/-! ### DDR5 -/

theorem MemState.retire_wf {m : MemState} (e : MergeEntry) (bad : Bool) (h : Memory.wf ddrDefault m.ddr = true) :
    Memory.wf ddrDefault (m.retire e bad).ddr = true := Memory.writeBytes_wf _ _ h

/-! ### Resets -/

theorem State.systemReset_memOk {s : State} (h : s.memOk) : s.systemReset.memOk :=
  State.memOk_nil rfl h.2

theorem State.assertSystem_memOk {s : State} (bit : Nat) (h : s.memOk) : (s.assertSystem bit).memOk := by
  have key : ∀ (c : Bool), (if c then s else s.systemReset).memOk := by
    intro c; cases c
    · exact State.systemReset_memOk h
    · exact h
  unfold State.assertSystem
  exact State.memOk_of_eq rfl rfl (key s.sysHeld)

theorem State.assertPower_memOk {s : State} (h : s.memOk) : s.assertPower.memOk := by
  refine State.memOk_of_eq (s := s.systemReset) ?_ ?_ (State.systemReset_memOk h)
  · unfold State.assertPower; dsimp only; split <;> simp
  · unfold State.assertPower; dsimp only; split <;> simp

theorem State.fatalReset_memOk {s : State} (h : s.memOk) : s.fatalReset.memOk := by
  unfold State.fatalReset
  exact State.assertSystem_memOk 4 (State.memOk_of_eq (s := s) rfl rfl h)

/-! ### Flash operations and bring-up -/

theorem State.commitDone_memOk {s : State} (target : Nat) (order : Option Nat) (h : s.memOk) : (s.commitDone target order).memOk := by
  refine State.memOk_flash (s := s) (by simp) ?_ h
  have hg : ∀ b, Memory.wf norDefault ((s.slotGood target).flash.bootAppend b).mem = true := fun b => Flash.bootAppend_wf b h.2
  unfold State.commitDone
  dsimp only
  split
  · split
    · split <;> simp [hg]
    · split <;> simp [hg]
  · split <;> simp [hg]

theorem State.jobDone_memOk {s : State} (j : FlashJob) (good : Bool) (h : s.memOk) : (s.jobDone j good).memOk := by
  have hs : ∀ (a n : Nat), ({ s with flash := s.flash.eraseAt a n } : State).memOk := fun a n =>
    State.memOk_flash (s := s) rfl (Flash.eraseAt_wf _ _ h.2) h
  have hp : ∀ (a : Nat) (bs : Bytes), ({ s with flash := s.flash.program a bs } : State).memOk := fun a bs =>
    State.memOk_flash (s := s) rfl (Flash.program_wf _ _ h.2) h
  have hr : ∀ j, (s.retryJob j).memOk := fun j => State.memOk_of_eq (s := s) (by simp) (by simp) h
  have hn : ∀ (x : State) (o : Nat), x.memOk → (x.stageNext o).memOk := fun x o hx =>
    State.memOk_of_eq (s := x) (by simp) (by simp) hx
  have hx : ∀ (x : State) (j : FlashJob), x.memOk → (x.retryJob j).memOk := fun x j hx =>
    State.memOk_of_eq (s := x) (by simp) (by simp) hx
  have hc : ∀ (r : Bytes) (n : Nat), ({ s with flash := s.flash.calCompact.calPut r, free := n } : State).memOk := fun r n =>
    State.memOk_flash (s := s) rfl (Flash.calPut_wf _ (Flash.calCompact_wf h.2)) h
  unfold State.jobDone
  dsimp only
  split
  · split
    · exact hr _
    · split
      · exact hn _ _ (hs _ _)
      · exact hs _ _
  · split
    · exact hr _
    · split
      · exact hn _ _ (hp _ _)
      · exact hp _ _
  · split
    · exact State.commitDone_memOk _ _ h
    · exact hr _
  · split
    · exact hc j.data s.free
    · have h1 := hc (Config.freeBytes s.free 4096) (s.free + 1)
      split
      · exact hx _ _ h1
      · split
        · exact State.memOk_of_eq (s := { s with flash := s.flash.calCompact.calPut (Config.freeBytes s.free 4096), free := s.free + 1 })
            (by simp) (by simp) h1
        · exact h1
  · split
    · exact State.fatalReset_memOk (State.memOk_flash (s := s) rfl (Flash.crashPut_wf _ h.2) h)
    · exact hr _

theorem State.selectImage_memOk {s : State} (h : s.memOk) : s.selectImage.memOk := by
  refine State.memOk_flash (s := s) (by simp) ?_ h
  have hm : ∀ i j, Memory.wf norDefault ((s.measureImage i).2.measureImage j).2.flash.mem = true := fun i j => by simpa using h.2
  unfold State.selectImage
  dsimp only
  split
  · simpa using h.2
  · split
    · simpa using Flash.bootAppend_wf _ (by simpa using h.2)
    · simpa using h.2

theorem State.stepImage_memOk {s : State} (h : s.memOk) : s.stepImage.memOk := by
  unfold State.stepImage
  have h1 := State.selectImage_memOk h
  exact State.memOk_of_eq (s := s.selectImage) (by simp) (by simp) h1

theorem State.stepFirmware_memOk {s : State} (ok : Bool) (h : s.memOk) : (s.stepFirmware ok).memOk := by
  refine State.memOk_flash (s := s) (by simp) ?_ h
  unfold State.stepFirmware
  dsimp only
  split
  · split
    · simpa using h.2
    · simpa using Flash.bootAppend_wf _ (by simpa using h.2)
  · split
    · split
      · simpa using h.2
      · simpa using Flash.bootAppend_wf _ (by simpa using h.2)
    · simpa using h.2

theorem State.applyRepairs_memOk {s : State} (h : s.memOk) : s.applyRepairs.memOk := by
  refine State.memOk_flash (s := s) (by simp) ?_ h
  unfold State.applyRepairs
  dsimp only
  rw [State.foldl_flash_mem]
  · split
    · exact h.2
    · split
      · rename_i f hf; exact Flash.repairAppend_wf _ h.2 hf
      · simpa using h.2
  · intro x a
    repeat' (first | intro _ | (split <;> try simp))

theorem State.stepMemory_memOk {s : State} (ok : Bool) (rates : List Nat) (h : s.memOk) : (s.stepMemory ok rates).memOk := by
  have hf : ∀ (x : State) (n : Nat), x.memOk → (x.stepFails n).memOk := fun x n hx =>
    State.memOk_of_eq (s := x) (by simp) (by simp) hx
  have hr : ∀ (x : State) (n : Nat), x.memOk → (x.raise (srcRegion 5 6) .ddrDegraded n 0 0).memOk := fun x n hx =>
    State.memOk_of_eq (s := x) (by simp) (by simp) hx
  unfold State.stepMemory
  dsimp only
  have hbad : ∀ (l : List Nat), (l.foldl (fun s c => s.raise (srcRegion 5 6) .ddrChannelFail c 0 0) s).memOk := fun l =>
    State.memOk_of_eq (s := s) (by rw [State.foldl_mem_ddr]; intro x a; simp) (by rw [State.foldl_flash_mem]; intro x a; simp) h
  split
  · exact hf _ _ h
  · split
    · exact hf _ _ (hbad _)
    · refine State.memOk_nil (by simp) ?_
      simp only [State.stepDone_frame]
      refine (State.applyRepairs_memOk ?_).2
      split
      · exact hr _ _ (hbad _)
      · exact hbad _

theorem execBringupStep_memOk {s t : State} (ok : Bool) (rates : List Nat) (h : s.memOk)
    (ht : execBringupStep ok rates s = .next t) : t.memOk := by
  unfold execBringupStep at ht
  injection ht with ht; subst ht
  split
  · exact h
  · split
    · exact State.memOk_of_eq (by simp) (by simp) h
    · exact State.memOk_of_eq (by simp) (by simp) h
    · exact State.memOk_of_eq (by simp) (by simp) h
    · exact State.stepMemory_memOk _ _ h
    · exact State.memOk_of_eq (by simp) (by simp) h
    · exact State.stepFirmware_memOk _ h
    · split
      · exact State.stepImage_memOk h
      · exact h
    · exact State.memOk_of_eq (by simp) (by simp) h
    · split
      · exact State.memOk_of_eq (by simp) (by simp) h
      · exact h
    · split
      · exact h
      · exact State.memOk_of_eq (by simp) (by simp) h
    · exact h

theorem execFlashEraseProgramDone_memOk {s t : State} (op : FlashOp) (good : Bool) (h : s.memOk)
    (ht : execFlashEraseProgramDone op good s = .next t) : t.memOk := by
  unfold execFlashEraseProgramDone at ht
  injection ht with ht; subst ht
  have h1 : (s.takeJob op).2.memOk := State.memOk_of_eq (by simp) (by simp) h
  split
  · exact h
  · split
    · rename_i hj; rw [hj] at h1; exact State.jobDone_memOk _ _ h1
    · rename_i hj; rw [hj] at h1; exact h1

theorem execFwStartResult_memOk {s t : State} (started : Bool) (h : s.memOk) (ht : execFwStartResult started s = .next t) :
    t.memOk := by
  have hd : t.mem.ddr = s.mem.ddr := by
    have := execFwStartResult_frame started s t ht
    simp_all
  refine State.memOk_flash hd ?_ h
  unfold execFwStartResult at ht
  injection ht with ht; subst ht
  split
  · split
    · exact h.2
    · dsimp only
      split
      · simpa using h.2
      · simpa using Flash.bootAppend_wf _ (by simpa using h.2)
  · exact h.2

/-! ### Commands that reset the machine -/

theorem execPowerOnReset_memOk {s t : State} (h : s.memOk) (ht : execPowerOnReset s = .next t) : t.memOk := by
  unfold execPowerOnReset at ht
  injection ht with ht; subst ht
  exact State.assertPower_memOk h

theorem execSupplyMonitorTrip_memOk {s t : State} (rail : Rail) (h : s.memOk) (ht : execSupplyMonitorTrip rail s = .next t) :
    t.memOk := by
  unfold execSupplyMonitorTrip at ht
  injection ht with ht; subst ht
  split
  · exact h
  · exact State.assertPower_memOk h

theorem execSysrstNAssert_memOk {s t : State} (h : s.memOk) (ht : execSysrstNAssert s = .next t) : t.memOk := by
  unfold execSysrstNAssert at ht
  injection ht with ht; subst ht
  exact State.assertSystem_memOk 1 h

theorem execPePerstSystem_memOk {s t : State} (h : s.memOk) (ht : execPePerstSystem s = .next t) : t.memOk := by
  unfold execPePerstSystem at ht
  injection ht with ht; subst ht
  split
  · exact State.assertSystem_memOk 2 h
  · exact h

theorem execWatchdogFinalStage_memOk {s t : State} (h : s.memOk) (ht : execWatchdogFinalStage s = .next t) : t.memOk := by
  unfold execWatchdogFinalStage at ht
  injection ht with ht; subst ht
  split
  · split
    · exact h
    · exact State.assertSystem_memOk 3 h
  · exact h

theorem execRootLost_memOk {s t : State} (h : s.memOk) (ht : execRootLost s = .next t) : t.memOk := by
  unfold execRootLost at ht
  injection ht with ht; subst ht
  split
  · exact h
  · dsimp only
    exact State.assertSystem_memOk 4 (State.memOk_of_eq (s := s) (by simp) (by simp) h)

theorem execHeartbeatLostIsland_memOk {s t : State} (h : s.memOk) (ht : execHeartbeatLostIsland s = .next t) : t.memOk := by
  unfold execHeartbeatLostIsland at ht
  injection ht with ht; subst ht
  split
  · exact State.assertSystem_memOk 4 (State.memOk_of_eq (s := s) (by simp) (by simp) h)
  · exact h

theorem execActivateFwSystemReset_memOk {s t : State} (tag : BitVec 6) (h : s.memOk)
    (ht : execActivateFwSystemReset tag s = .next t) : t.memOk := by
  unfold execActivateFwSystemReset at ht
  injection ht with ht; subst ht
  split
  · exact h
  · split
    · exact State.memOk_of_eq (s := s) (by simp) (by simp) h
    · exact State.assertSystem_memOk 5 h

theorem execCrashRecordAppend_memOk {s t : State} (h : s.memOk) (ht : execCrashRecordAppend s = .next t) : t.memOk := by
  unfold execCrashRecordAppend at ht
  injection ht with ht; subst ht
  split
  · exact h
  · split
    · exact h
    · split
      · exact State.fatalReset_memOk h
      · split
        · exact h
        · exact State.memOk_of_eq (s := s) (by simp) (by simp) h

/-! ### Merge buffers -/

theorem MemState.mergeInto_wf {m : MemState} (now ch addr : Nat) (data : Bytes) (h : Memory.wf ddrDefault m.ddr = true) :
    Memory.wf ddrDefault (m.mergeInto now ch addr data).ddr = true := by
  unfold MemState.mergeInto
  dsimp only
  split <;> (split <;> first | exact MemState.retire_wf _ _ h | exact h)

theorem MemState.narrowWrite_wf {m : MemState} (now ch addr : Nat) (data : Bytes) (h : Memory.wf ddrDefault m.ddr = true) :
    Memory.wf ddrDefault (m.narrowWrite now ch addr data).ddr = true := by
  unfold MemState.narrowWrite
  dsimp only
  split
  · exact h
  · exact MemState.mergeInto_wf _ _ _ _ h

theorem MemState.wakeMerge_wf {m : MemState} (now ch : Nat) (h : Memory.wf ddrDefault m.ddr = true) :
    Memory.wf ddrDefault (m.wakeMerge now ch).ddr = true := by
  unfold MemState.wakeMerge
  split
  · split
    · exact MemState.mergeInto_wf _ _ _ _ h
    · exact h
  · exact h

theorem execMergeNarrowWrite_memOk {s t : State} (ch : Fin 8) (addr : Nat) (data : Bytes) (h : s.memOk)
    (ht : execMergeNarrowWrite ch addr data s = .next t) : t.memOk := by
  unfold execMergeNarrowWrite at ht
  injection ht with ht; subst ht
  split
  · exact h
  · exact ⟨MemState.narrowWrite_wf _ _ _ _ h.1, h.2⟩

theorem execMergeEntryRetire_memOk {s t : State} (ch : Fin 8) (bad : Bool) (h : s.memOk)
    (ht : execMergeEntryRetire ch bad s = .next t) : t.memOk := by
  unfold execMergeEntryRetire at ht
  injection ht with ht; subst ht
  split
  · exact h
  · dsimp only
    split
    · exact h
    · exact ⟨MemState.wakeMerge_wf _ _ (MemState.retire_wf _ _ h.1), h.2⟩

end Sys2Proof.Machine
end

