-- ==== Sys2Proof/Laws/Codec.lean ====
section
/-! SUPPORT. Byte and bit order: reading back what was written, scrambling twice, and frames made by the controller, which verify. -/

namespace Sys2Proof

@[simp] theorem zeros_length (n : Nat) : (zeros n).length = n := by simp [zeros]

@[simp] theorem padTo_length (n : Nat) (bs : Bytes) : (padTo n bs).length = n := by
  simp [padTo]; omega

@[simp] theorem beBytes_length (n v : Nat) : (beBytes n v).length = n := by
  induction n generalizing v with
  | zero => rfl
  | succ n ih => simp [beBytes, ih]

@[simp] theorem leBytes_length (n v : Nat) : (leBytes n v).length = n := by
  induction n generalizing v with
  | zero => rfl
  | succ n ih => simp [leBytes, ih]

theorem mod_pow_step (n v : Nat) : v % 256 + 256 * (v / 256 % 256 ^ n) = v % 256 ^ (n + 1) := by
  rw [Nat.pow_add_one, Nat.mul_comm (256 ^ n) 256, Nat.mod_mul]

/-- A big-endian field reads as it was written. -/
theorem beNat_beBytes (n v : Nat) : beNat (beBytes n v) = v % 256 ^ n := by
  induction n generalizing v with
  | zero => simp [beBytes, beNat, Nat.mod_one]
  | succ n ih =>
    have h := ih (v / 256)
    simp only [beNat] at h
    simp only [beBytes, beNat, List.foldl_append, List.foldl_cons, List.foldl_nil, h, BitVec.toNat_ofNat]
    rw [← mod_pow_step]
    omega

/-- A little-endian field reads as it was written. -/
theorem leNat_leBytes (n v : Nat) : leNat (leBytes n v) = v % 256 ^ n := by
  induction n generalizing v with
  | zero => simp [leBytes, leNat, Nat.mod_one]
  | succ n ih =>
    simp only [leBytes, leNat, ih, BitVec.toNat_ofNat]
    exact mod_pow_step n v

@[simp] theorem byteBits_length (b : Byte) : (byteBits b).length = 8 := rfl

@[simp] theorem bitsOf_nil : bitsOf [] = [] := rfl

@[simp] theorem bitsOf_cons (b : Byte) (bs : Bytes) : bitsOf (b :: bs) = byteBits b ++ bitsOf bs := rfl

@[simp] theorem bitsOf_length (bs : Bytes) : (bitsOf bs).length = 8 * bs.length := by
  induction bs with
  | nil => rfl
  | cons b bs ih => simp [ih]; omega

@[simp] theorem scramblerBits_length (n : Nat) (h : BitVec 23) : (scramblerBits n h).length = n := by
  induction n generalizing h with
  | zero => rfl
  | succ n ih => simp [scramblerBits, ih]

@[simp] theorem bytesOfBits_length (n : Nat) (l : List Bool) : (bytesOfBits n l).length = n := by
  induction n generalizing l with
  | zero => rfl
  | succ n ih => simp [bytesOfBits, ih]

/-- The bits of a byte made of eight bits are those bits. -/
theorem byteBits_ofBits (a b c d e f g h : Bool) :
    byteBits (BitVec.ofNat 8 (natOfBits [a, b, c, d, e, f, g, h])) = [a, b, c, d, e, f, g, h] := by
  revert a b c d e f g h; decide

/-- Eight bits at least, taken apart. -/
theorem eight_bits (l : List Bool) (h : l.length = 8) : ∃ a b c d e f g i, l = [a, b, c, d, e, f, g, i] := by
  match l, h with
  | [a, b, c, d, e, f, g, i], _ => exact ⟨a, b, c, d, e, f, g, i, rfl⟩

/-- The bits of the bytes of a bit list are the list. -/
theorem bitsOf_bytesOfBits (n : Nat) (l : List Bool) (h : l.length = 8 * n) : bitsOf (bytesOfBits n l) = l := by
  induction n generalizing l with
  | zero => simp at h; simp [bytesOfBits, h]
  | succ n ih =>
    have h8 : (l.take 8).length = 8 := by simp; omega
    obtain ⟨a, b, c, d, e, f, g, i, he⟩ := eight_bits _ h8
    have hd : (l.drop 8).length = 8 * n := by simp; omega
    simp only [bytesOfBits, bitsOf_cons, ih _ hd, he]
    simp only [List.length_cons, List.length_nil, List.replicate_zero, List.append_nil, Nat.sub_self, byteBits_ofBits]
    rw [← he, List.take_append_drop]

theorem natOfBits_byteBits (b : Byte) : BitVec.ofNat 8 (natOfBits (byteBits b)) = b := by
  revert b; decide

/-- The bytes of the bits of a byte string are the string. -/
theorem bytesOfBits_bitsOf (bs : Bytes) : bytesOfBits bs.length (bitsOf bs) = bs := by
  induction bs with
  | nil => rfl
  | cons b bs ih =>
    have h1 : (byteBits b ++ bitsOf bs).take 8 = byteBits b := by
      rw [List.take_append_of_le_length (by simp), List.take_of_length_le (by simp)]
    have h2 : (byteBits b ++ bitsOf bs).drop 8 = bitsOf bs := by
      rw [List.drop_append_of_le_length (by simp), List.drop_of_length_le (by simp)]; rfl
    simp only [List.length_cons, bitsOf_cons, bytesOfBits, h1, h2, ih]
    simp [natOfBits_byteBits]

theorem zipXor_twice (l s : List Bool) (h : l.length = s.length) :
    (l.zipWith (fun a b => a != b) s).zipWith (fun a b => a != b) s = l := by
  induction l generalizing s with
  | nil => simp
  | cons a l ih =>
    match s, h with
    | b :: s, h => simp at h; simp [ih s h]

/-- Scrambling and descrambling are the same operation (R39). -/
@[simp] theorem scramble_scramble (bs : Bytes) : scramble (scramble bs) = bs := by
  have hl : (scramble bs).length = bs.length := by simp [scramble]
  have hb : bitsOf (scramble bs) = (bitsOf bs).zipWith (fun a b => a != b) (scramblerBits (8 * bs.length) (BitVec.allOnes 23)) := by
    unfold scramble
    exact bitsOf_bytesOfBits _ _ (by simp)
  rw [scramble, hl, hb]
  rw [zipXor_twice _ _ (by simp), bytesOfBits_bitsOf]

theorem slice_left (a b : Bytes) (i n : Nat) (h : i + n ≤ a.length) : slice (a ++ b) i n = slice a i n := by
  unfold slice
  rw [List.drop_append_of_le_length (by omega), List.take_append_of_le_length (by simp; omega)]

theorem slice_right (a b : Bytes) (n : Nat) (h : n = b.length) : slice (a ++ b) a.length n = b := by
  subst h
  unfold slice
  rw [List.drop_append_of_le_length (by omega), List.drop_of_length_le (by omega), List.nil_append, List.take_length]

theorem slice_all (a : Bytes) : slice a 0 a.length = a := by simp [slice]

end Sys2Proof

namespace Sys2Proof.Machine

@[simp] theorem mkFrame_length (ty seq tsh : Nat) (p : Bytes) : (mkFrame ty seq tsh p).length = 512 := by simp [mkFrame]

/-- A frame that the controller makes verifies (R41). -/
@[simp] theorem mkFrame_good (ty seq tsh : Nat) (p : Bytes) : frGood (mkFrame ty seq tsh p) = true := by
  unfold frGood
  rw [mkFrame_length]
  unfold mkFrame
  generalize hb : beBytes 4 (ty % 16 * 2 ^ 28 + seq % 65536 * 4096 + tsh % 4096) ++ padTo 504 p = b
  have hl : b.length = 508 := by subst hb; simp
  have h1 : (b ++ beBytes 4 (linkCrc b).toNat).take 508 = b := by
    rw [List.take_append_of_le_length (by omega), List.take_of_length_le (by omega)]
  have h2 := slice_right b (beBytes 4 (linkCrc b).toNat) 4 (by simp)
  rw [hl] at h2
  dsimp only
  rw [h1, beAt, h2, beNat_beBytes]
  have := (linkCrc b).isLt
  simp
  omega

/-- The header of a frame that the controller makes. -/
theorem mkFrame_head (ty seq tsh : Nat) (p : Bytes) :
    beAt (mkFrame ty seq tsh p) 0 4 = ty % 16 * 2 ^ 28 + seq % 65536 * 4096 + tsh % 4096 := by
  unfold mkFrame
  dsimp only
  rw [beAt, slice_left _ _ _ _ (by simp), slice_left _ _ _ _ (by simp)]
  have h := slice_all (beBytes 4 (ty % 16 * 2 ^ 28 + seq % 65536 * 4096 + tsh % 4096))
  simp only [beBytes_length] at h
  rw [h, beNat_beBytes]
  omega

@[simp] theorem mkFrame_type (ty seq tsh : Nat) (p : Bytes) : frType (mkFrame ty seq tsh p) = ty % 16 := by
  have h := mkFrame_head ty seq tsh p
  have hl := mkFrame_length ty seq tsh p
  generalize mkFrame ty seq tsh p = f at h hl ⊢
  unfold frType byteAt
  match f, hl with
  | a :: b :: c :: d :: l, _ =>
    simp [beAt, slice, beNat] at h
    have h1 := b.isLt
    have h2 := c.isLt
    have h3 := d.isLt
    simp
    omega

@[simp] theorem mkFrame_seq (ty seq tsh : Nat) (p : Bytes) : frSeq (mkFrame ty seq tsh p) = seq % 65536 := by
  simp only [frSeq, mkFrame_head]; omega

@[simp] theorem mkFrame_tsh (ty seq tsh : Nat) (p : Bytes) : frTsh (mkFrame ty seq tsh p) = tsh % 4096 := by
  simp only [frTsh, mkFrame_head]; omega

/-- A field within the payload. -/
theorem mkFrame_slice (ty seq tsh : Nat) (p : Bytes) (i n : Nat) (h : i + n ≤ 504) :
    slice (mkFrame ty seq tsh p) (4 + i) n = slice (padTo 504 p) i n := by
  unfold mkFrame
  dsimp only
  rw [slice_left _ _ _ _ (by simp; omega)]
  unfold slice
  have h4 : ∀ a b : Bytes, a.length = 4 → (a ++ b).drop 4 = b := by
    intro a b ha
    rw [List.drop_append_of_le_length (by omega), List.drop_of_length_le (by omega), List.nil_append]
  rw [← List.drop_drop, h4 _ _ (by simp)]

/-- While no injection is listed a frame passes as it is. -/
theorem State.injectFrame_none (s : State) (h : s.inj.list = []) (g : Nat × Nat × Nat) (f : Bytes) : s.injectFrame g f = ([f], s) := by
  simp [State.injectFrame, h, sortDesc]

/-- While no injection is listed a lane receives the frame that was sent, descrambled. -/
theorem State.rxLane_none (s : State) (h : s.inj.list = []) (b : BayId) (p : Pu) (l : PhysLane) (f : Bytes) :
    s.rxLane b p l (scramble f) = ([f], (s.rxLane b p l (scramble f)).2) := by
  simp [State.rxLane, State.injectFrame_none s h]

end Sys2Proof.Machine
end

