-- ==== Sys2Proof/Laws/Commands.lean ====
section
/-! SUPPORT. How a command finishes. -/

namespace Sys2Proof.Machine

/-- Where the commands are the same, a command lives where it lived. -/
theorem State.liveAt_of_cmds {s t : State} {n : Nat} (h : t.host.cmds = s.host.cmds) (hl : s.liveAt n) : t.liveAt n := by
  unfold State.liveAt State.cmdAt at *; rw [h]; exact hl

/-- A command that lives finishes with the status it is given. -/
theorem State.finish_ended {s : State} {n : Nat} (st : Status) (r : Nat) (h : s.liveAt n) : (s.finish n st r).endedAt n st := by
  obtain ⟨d, h1, h2, h3⟩ := h
  unfold State.finish State.endedAt
  rw [h1]
  have ho : d.order = n := by
    have := List.find?_some (show s.host.cmds.find? (fun c => c.order == n) = some d from h1)
    simpa using this
  simp [h2, h3, ho]

/-- A changed command lives on where the change keeps its number and it neither ends nor falls silent. -/
theorem State.updCmd_live {s : State} {n : Nat} {g : Cmd → Cmd}
    (hg : ∀ c, (g c).order = c.order ∧ (c.silent = false → (g c).silent = false) ∧ (c.phase ≠ .done → (g c).phase ≠ .done))
    (h : s.liveAt n) : (s.updCmd n g).liveAt n := by
  obtain ⟨d, h1, h2, h3⟩ := h
  have ho : d.order = n := by
    have := List.find?_some (show s.host.cmds.find? (fun c => c.order == n) = some d from h1)
    simpa using this
  refine ⟨g d, ?_, (hg d).2.1 h2, (hg d).2.2 h3⟩
  unfold State.cmdAt State.updCmd at *
  dsimp only
  have : ∀ l : List Cmd, l.find? (fun c => c.order == n) = some d →
      (l.map (fun c => if c.order == n then g c else c)).find? (fun c => c.order == n) = some (g d) := by
    intro l
    induction l with
    | nil => simp
    | cons a l ih =>
      intro hl
      rw [List.find?_cons] at hl
      by_cases ha : a.order = n
      · simp [ha] at hl
        subst hl
        simp [ha, (hg a).1]
      · have hb : (a.order == n) = false := by simpa using ha
        rw [hb] at hl
        simp only [List.map_cons, hb, Bool.false_eq_true, if_false, List.find?_cons]
        exact ih hl
  exact this _ h1

/-- A command that begins to act lives on. -/
theorem State.start_live {s : State} {c : Cmd} (h : s.liveAt c.order) : (s.start c).liveAt c.order :=
  State.updCmd_live (fun c => ⟨rfl, id, fun _ => by simp⟩) h

end Sys2Proof.Machine
end

