-- ==== Sys2Proof/Laws/Isolate.lean ====
section
/-! SUPPORT. What a bay's operations and commands leave of the other bays: everything. -/

namespace Sys2Proof.Machine

@[simp] theorem State.setBay_other (s : State) (b : BayId) (v : Bay) (c : BayId) (h : b ≠ c) :
    (s.setBay b v).bays.get c = s.bays.get c := State.setBay_bay_other s b c v h

@[simp] theorem State.updBay_other (s : State) (b : BayId) (f : Bay → Bay) (c : BayId) (h : b ≠ c) :
    (s.updBay b f).bays.get c = s.bays.get c := State.updBay_bay_other s b c f h

theorem State.foldl_other {α : Type} (c : BayId) (f : State → α → State) (hf : ∀ s a, (f s a).bays.get c = s.bays.get c) (l : List α)
    (s : State) : (l.foldl f s).bays.get c = s.bays.get c := by
  induction l generalizing s with
  | nil => rfl
  | cons a l ih => rw [List.foldl_cons, ih, hf]

theorem State.foldl2_other {α β : Type} (c : BayId) (f : β × State → α → β × State)
    (hf : ∀ r a, (f r a).2.bays.get c = r.2.bays.get c) (l : List α) (r : β × State) :
    (l.foldl f r).2.bays.get c = r.2.bays.get c := by
  induction l generalizing r with
  | nil => rfl
  | cons a l ih => rw [List.foldl_cons, ih, hf]

@[simp] theorem State.updPu_other (s : State) (b : BayId) (p : Pu) (f : Pickup → Pickup) (oc : BayId) (hne : b ≠ oc) :
    (s.updPu b p f).bays.get oc = s.bays.get oc := by
  unfold State.updPu
  (try simp [hne]) <;> repeat' (first | intro _ | (split <;> try simp [hne]))

@[simp] theorem State.updSled_other (s : State) (b : BayId) (p : Pu) (f : Sled → Sled) (oc : BayId) (hne : b ≠ oc) :
    (s.updSled b p f).bays.get oc = s.bays.get oc := by
  unfold State.updSled
  (try simp [hne]) <;> repeat' (first | intro _ | (split <;> try simp [hne]))

@[simp] theorem State.handOver_other (s : State) (b : BayId) (p : Pu) (c : Coded) (oc : BayId) (hne : b ≠ oc) :
    (s.handOver b p c).bays.get oc = s.bays.get oc := by
  unfold State.handOver
  (try simp [hne]) <;> repeat' (first | intro _ | (split <;> try simp [hne]))

@[simp] theorem State.askRead_other (s : State) (b : BayId) (p : Pu) (a : SecAddr) (why : Purpose) (basket : Nat) (oc : BayId) (hne : b ≠ oc) :
    (s.askRead b p a why basket).bays.get oc = s.bays.get oc := by
  unfold State.askRead
  (try simp [hne]) <;> repeat' (first | intro _ | (split <;> try simp [hne]))

@[simp] theorem State.askRecord_other (s : State) (b : BayId) (p : Pu) (oc : BayId) (hne : b ≠ oc) :
    (s.askRecord b p).bays.get oc = s.bays.get oc := by
  unfold State.askRecord
  (try simp [hne]) <;> repeat' (first | intro _ | (split <;> try simp [hne]))

@[simp] theorem State.noteRecord_other (s : State) (b : BayId) (p : Pu) (k no : Nat) (o : SecOutcome) (payload : Option Bytes) (oc : BayId) (hne : b ≠ oc) :
    (s.noteRecord b p k no o payload).bays.get oc = s.bays.get oc := by
  unfold State.noteRecord
  (try simp [hne]) <;> repeat' (first | intro _ | (split <;> try simp [hne]))

@[simp] theorem State.refreshReady_other (s : State) (b : BayId) (oc : BayId) (hne : b ≠ oc) :
    (s.refreshReady b).bays.get oc = s.bays.get oc := by
  unfold State.refreshReady
  (try simp [hne]) <;> repeat' (first | intro _ | (split <;> try simp [hne]))

@[simp] theorem State.after_other (s : State) (b : BayId) (oc : BayId) (hne : b ≠ oc) :
    (s.after b).bays.get oc = s.bays.get oc := by
  unfold State.after
  (try simp [hne]) <;> repeat' (first | intro _ | (split <;> try simp [hne]))

@[simp] theorem State.updLink_other (s : State) (b : BayId) (p : Pu) (g : HLink → HLink) (oc : BayId) (hne : b ≠ oc) :
    (s.updLink b p g).bays.get oc = s.bays.get oc := by
  unfold State.updLink
  (try simp [hne]) <;> repeat' (first | intro _ | (split <;> try simp [hne]))

@[simp] theorem State.rxLane_other (s : State) (b : BayId) (p : Pu) (ph : PhysLane) (raw : Bytes) (oc : BayId) (hne : b ≠ oc) :
    (s.rxLane b p ph raw).2.bays.get oc = s.bays.get oc := by
  unfold State.rxLane
  (try simp [hne]) <;> repeat' (first | intro _ | (split <;> try simp [hne]) | ((first | rw [State.foldl_other _ _ ?_] | rw [State.foldl2_other _ _ ?_] | rw [State.eachHamper_other _ _ ?_]) <;> intros <;> try simp [hne]))

@[simp] theorem State.takeBlock_other (s : State) (b : BayId) (p : Pu) (blk : SBlock) (oc : BayId) (hne : b ≠ oc) :
    (s.takeBlock b p blk).bays.get oc = s.bays.get oc := by
  unfold State.takeBlock
  (try simp [hne]) <;> repeat' (first | intro _ | (split <;> try simp [hne]))

@[simp] theorem State.takeSample_other (s : State) (b : BayId) (p : Pu) (ph : PhysLane) (f : Bytes) (oc : BayId) (hne : b ≠ oc) :
    (s.takeSample b p ph f).bays.get oc = s.bays.get oc := by
  unfold State.takeSample
  (try simp [hne]) <;> repeat' (first | intro _ | (split <;> try simp [hne]))

@[simp] theorem State.sendHead_other (s : State) (b : BayId) (p : Pu) (type tsh : Nat) (payload : Bytes) (oc : BayId) (hne : b ≠ oc) :
    (s.sendHead b p type tsh payload).bays.get oc = s.bays.get oc := by
  unfold State.sendHead
  (try simp [hne]) <;> repeat' (first | intro _ | (split <;> try simp [hne]))

@[simp] theorem State.sendCtrl_other (s : State) (b : BayId) (p : Pu) (tsh : Nat) (payload : Bytes) (oc : BayId) (hne : b ≠ oc) :
    (s.sendCtrl b p tsh payload).bays.get oc = s.bays.get oc := by
  unfold State.sendCtrl
  (try simp [hne]) <;> repeat' (first | intro _ | (split <;> try simp [hne]))

@[simp] theorem State.sendWrite_other (s : State) (b : BayId) (p : Pu) (w : Nat × Bytes) (oc : BayId) (hne : b ≠ oc) :
    (s.sendWrite b p w).bays.get oc = s.bays.get oc := by
  unfold State.sendWrite
  (try simp [hne]) <;> repeat' (first | intro _ | (split <;> try simp [hne]))

@[simp] theorem State.dnSlot_other (s : State) (b : BayId) (p : Pu) (oc : BayId) (hne : b ≠ oc) :
    (s.dnSlot b p).bays.get oc = s.bays.get oc := by
  unfold State.dnSlot
  (try simp [hne]) <;> repeat' (first | intro _ | (split <;> try simp [hne]))

@[simp] theorem State.dnSlots_other (s : State) (b : BayId) (p : Pu) (oc : BayId) (hne : b ≠ oc) :
    (s.dnSlots b p).bays.get oc = s.bays.get oc := by
  unfold State.dnSlots
  (try simp [hne]) <;> repeat' (first | intro _ | (split <;> try simp [hne]) | ((first | rw [State.foldl_other _ _ ?_] | rw [State.foldl2_other _ _ ?_] | rw [State.eachHamper_other _ _ ?_]) <;> intros <;> try simp [hne]))

@[simp] theorem State.ctrlPump_other (s : State) (b : BayId) (p : Pu) (k0 : Nat) (oc : BayId) (hne : b ≠ oc) :
    (s.ctrlPump b p k0).bays.get oc = s.bays.get oc := by
  induction k0 generalizing s p with
  | zero => unfold State.ctrlPump; simp
  | succ n ih =>
    unfold State.ctrlPump
    (try simp [hne, ih]) <;> repeat' (first | intro _ | (split <;> try simp [hne, ih]))

@[simp] theorem State.ctrlIssue_other (s : State) (b : BayId) (p : Pu) (op addr : Nat) (data : Bytes) (oc : BayId) (hne : b ≠ oc) :
    (s.ctrlIssue b p op addr data).bays.get oc = s.bays.get oc := by
  unfold State.ctrlIssue
  (try simp [hne]) <;> repeat' (first | intro _ | (split <;> try simp [hne]))

@[simp] theorem State.ctrlRead_other (s : State) (b : BayId) (p : Pu) (addr len : Nat) (oc : BayId) (hne : b ≠ oc) :
    (s.ctrlRead b p addr len).bays.get oc = s.bays.get oc := by
  unfold State.ctrlRead
  (try simp [hne]) <;> repeat' (first | intro _ | (split <;> try simp [hne]))

@[simp] theorem State.regWrite_other (s : State) (b : BayId) (p : Pu) (addr : Nat) (data : Bytes) (k0 : Nat) (oc : BayId) (hne : b ≠ oc) :
    (s.regWrite b p addr data k0).bays.get oc = s.bays.get oc := by
  induction k0 generalizing s p addr data with
  | zero => unfold State.regWrite; simp
  | succ n ih =>
    unfold State.regWrite
    (try simp [hne, ih]) <;> repeat' (first | intro _ | (split <;> try simp [hne, ih]))

@[simp] theorem State.regRead_other (s : State) (b : BayId) (p : Pu) (addr len : Nat) (k0 : Nat) (oc : BayId) (hne : b ≠ oc) :
    (s.regRead b p addr len k0).bays.get oc = s.bays.get oc := by
  induction k0 generalizing s p addr len with
  | zero => unfold State.regRead; simp
  | succ n ih =>
    unfold State.regRead
    (try simp [hne, ih]) <;> repeat' (first | intro _ | (split <;> try simp [hne, ih]))

@[simp] theorem State.laneMap_other (s : State) (b : BayId) (p : Pu) (m0 m1 : PhysLane) (oc : BayId) (hne : b ≠ oc) :
    (s.laneMap b p m0 m1).bays.get oc = s.bays.get oc := by
  unfold State.laneMap
  (try simp [hne]) <;> repeat' (first | intro _ | (split <;> try simp [hne]))

@[simp] theorem State.laneTrain_other (s : State) (b : BayId) (p : Pu) (ph : PhysLane) (oc : BayId) (hne : b ≠ oc) :
    (s.laneTrain b p ph).bays.get oc = s.bays.get oc := by
  unfold State.laneTrain
  (try simp [hne]) <;> repeat' (first | intro _ | (split <;> try simp [hne]))

@[simp] theorem State.laneTrainStop_other (s : State) (b : BayId) (p : Pu) (ph : PhysLane) (oc : BayId) (hne : b ≠ oc) :
    (s.laneTrainStop b p ph).bays.get oc = s.bays.get oc := by
  unfold State.laneTrainStop
  (try simp [hne]) <;> repeat' (first | intro _ | (split <;> try simp [hne]))

@[simp] theorem State.setSpare_other (s : State) (b : BayId) (v : SpareRx) (oc : BayId) (hne : b ≠ oc) :
    (s.setSpare b v).bays.get oc = s.bays.get oc := by
  unfold State.setSpare
  (try simp [hne]) <;> repeat' (first | intro _ | (split <;> try simp [hne]))

@[simp] theorem State.trainSpare_other (s : State) (b : BayId) (p : Pu) (oc : BayId) (hne : b ≠ oc) :
    (s.trainSpare b p).bays.get oc = s.bays.get oc := by
  unfold State.trainSpare
  (try simp [hne]) <;> repeat' (first | intro _ | (split <;> try simp [hne]))

@[simp] theorem State.spareStandby_other (s : State) (b : BayId) (oc : BayId) (hne : b ≠ oc) :
    (s.spareStandby b).bays.get oc = s.bays.get oc := by
  unfold State.spareStandby
  (try simp [hne]) <;> repeat' (first | intro _ | (split <;> try simp [hne]))

@[simp] theorem State.retireLane_other (s : State) (b : BayId) (p : Pu) (ph : PhysLane) (oc : BayId) (hne : b ≠ oc) :
    (s.retireLane b p ph).bays.get oc = s.bays.get oc := by
  unfold State.retireLane
  (try simp [hne]) <;> repeat' (first | intro _ | (split <;> try simp [hne]))

@[simp] theorem State.noteLaneFail_other (s : State) (b : BayId) (p : Pu) (ph : PhysLane) (oc : BayId) (hne : b ≠ oc) :
    (s.noteLaneFail b p ph).2.bays.get oc = s.bays.get oc := by
  unfold State.noteLaneFail
  (try simp [hne]) <;> repeat' (first | intro _ | (split <;> try simp [hne]))

@[simp] theorem State.linkTrain_other (s : State) (b : BayId) (p : Pu) (oc : BayId) (hne : b ≠ oc) :
    (s.linkTrain b p).bays.get oc = s.bays.get oc := by
  unfold State.linkTrain
  (try simp [hne]) <;> repeat' (first | intro _ | (split <;> try simp [hne]))

@[simp] theorem State.noteSector_other (s : State) (b : BayId) (p : Pu) (r : SectorRec) (oc : BayId) (hne : b ≠ oc) :
    (s.noteSector b p r).bays.get oc = s.bays.get oc := by
  unfold State.noteSector
  (try simp [hne]) <;> repeat' (first | intro _ | (split <;> try simp [hne]))

@[simp] theorem State.updCoded_other (s : State) (b : BayId) (p : Pu) (a : SecAddr) (g : Coded → Coded) (oc : BayId) (hne : b ≠ oc) :
    (s.updCoded b p a g).bays.get oc = s.bays.get oc := by
  unfold State.updCoded
  (try simp [hne]) <;> repeat' (first | intro _ | (split <;> try simp [hne]))

@[simp] theorem State.updSoft_other (s : State) (b : BayId) (p : Pu) (a : SecAddr) (g : SoftSlot → SoftSlot) (oc : BayId) (hne : b ≠ oc) :
    (s.updSoft b p a g).bays.get oc = s.bays.get oc := by
  unfold State.updSoft
  (try simp [hne]) <;> repeat' (first | intro _ | (split <;> try simp [hne]))

@[simp] theorem State.writeRelocRecord_other (s : State) (b : BayId) (p : Pu) (layer : Nat) (homes : List SecAddr) (oc : BayId) (hne : b ≠ oc) :
    (s.writeRelocRecord b p layer homes).bays.get oc = s.bays.get oc := by
  unfold State.writeRelocRecord
  (try simp [hne]) <;> repeat' (first | intro _ | (split <;> (try (rename_i hp; replace hp := congrArg Prod.snd hp; dsimp only at hp; subst hp)) <;> try simp [hne]) | ((first | rw [State.foldl_other _ _ ?_] | rw [State.foldl2_other _ _ ?_] | rw [State.eachHamper_other _ _ ?_]) <;> intros <;> try simp [hne]))

@[simp] theorem State.relocate_other (s : State) (b : BayId) (p : Pu) (c : Coded) (oc : BayId) (hne : b ≠ oc) :
    (s.relocate b p c).bays.get oc = s.bays.get oc := by
  unfold State.relocate
  (try simp [hne]) <;> repeat' (first | intro _ | (split <;> try simp [hne]))

@[simp] theorem State.holdWriting_other (s : State) (b : BayId) (p : Pu) (oc : BayId) (hne : b ≠ oc) :
    (s.holdWriting b p).bays.get oc = s.bays.get oc := by
  unfold State.holdWriting
  (try simp [hne]) <;> repeat' (first | intro _ | (split <;> try simp [hne]) | ((first | rw [State.foldl_other _ _ ?_] | rw [State.foldl2_other _ _ ?_] | rw [State.eachHamper_other _ _ ?_]) <;> intros <;> try simp [hne]))

@[simp] theorem State.loadBank_other (s : State) (b : BayId) (p : Pu) (x : BankLoad) (oc : BayId) (hne : b ≠ oc) :
    (s.loadBank b p x).bays.get oc = s.bays.get oc := by
  unfold State.loadBank
  (try simp [hne]) <;> repeat' (first | intro _ | (split <;> try simp [hne]))

@[simp] theorem State.bankFails_other (s : State) (b : BayId) (p : Pu) (x : BankLoad) (oc : BayId) (hne : b ≠ oc) :
    (s.bankFails b p x).bays.get oc = s.bays.get oc := by
  unfold State.bankFails
  (try simp [hne]) <;> repeat' (first | intro _ | (split <;> try simp [hne]))

@[simp] theorem State.bankReply_other (s : State) (b : BayId) (p : Pu) (c : CtrlOp) (f : Bytes) (oc : BayId) (hne : b ≠ oc) :
    (s.bankReply b p c f).bays.get oc = s.bays.get oc := by
  unfold State.bankReply
  (try simp [hne]) <;> repeat' (first | intro _ | (split <;> try simp [hne]))

@[simp] theorem State.loadCal_other (s : State) (b : BayId) (p : Pu) (oc : BayId) (hne : b ≠ oc) :
    (s.loadCal b p).bays.get oc = s.bays.get oc := by
  unfold State.loadCal
  (try simp [hne]) <;> repeat' (first | intro _ | (split <;> try simp [hne]))

@[simp] theorem State.loadDiscCal_other (s : State) (b : BayId) (p : Pu) (disc : Bytes) (oc : BayId) (hne : b ≠ oc) :
    (s.loadDiscCal b p disc).bays.get oc = s.bays.get oc := by
  unfold State.loadDiscCal
  (try simp [hne]) <;> repeat' (first | intro _ | (split <;> try simp [hne]))

@[simp] theorem State.loadBayCal_other (s : State) (b : BayId) (oc : BayId) (hne : b ≠ oc) :
    (s.loadBayCal b).bays.get oc = s.bays.get oc := by
  unfold State.loadBayCal
  (try simp [hne]) <;> repeat' (first | intro _ | (split <;> try simp [hne]))

@[simp] theorem State.updMs_other (s : State) (b : BayId) (p : Pu) (g : Motion → Motion) (oc : BayId) (hne : b ≠ oc) :
    (s.updMs b p g).bays.get oc = s.bays.get oc := by
  unfold State.updMs
  (try simp [hne]) <;> repeat' (first | intro _ | (split <;> try simp [hne]))

@[simp] theorem State.updSheet_other (s : State) (b : BayId) (p : Pu) (g : Sheet → Sheet) (oc : BayId) (hne : b ≠ oc) :
    (s.updSheet b p g).bays.get oc = s.bays.get oc := by
  unfold State.updSheet
  (try simp [hne]) <;> repeat' (first | intro _ | (split <;> try simp [hne]))

@[simp] theorem State.updSp_other (s : State) (b : BayId) (g : Spindle → Spindle) (oc : BayId) (hne : b ≠ oc) :
    (s.updSp b g).bays.get oc = s.bays.get oc := by
  unfold State.updSp
  (try simp [hne]) <;> repeat' (first | intro _ | (split <;> try simp [hne]))

@[simp] theorem State.enter_other (s : State) (b : BayId) (p : Pu) (st : PState) (oc : BayId) (hne : b ≠ oc) :
    (s.enter b p st).bays.get oc = s.bays.get oc := by
  unfold State.enter
  (try simp [hne]) <;> repeat' (first | intro _ | (split <;> try simp [hne]))

@[simp] theorem State.withdrawReads_other (s : State) (b : BayId) (p : Pu) (oc : BayId) (hne : b ≠ oc) :
    (s.withdrawReads b p).bays.get oc = s.bays.get oc := by
  unfold State.withdrawReads
  (try simp [hne]) <;> repeat' (first | intro _ | (split <;> try simp [hne]))

@[simp] theorem State.dropFrameLock_other (s : State) (b : BayId) (p : Pu) (oc : BayId) (hne : b ≠ oc) :
    (s.dropFrameLock b p).bays.get oc = s.bays.get oc := by
  unfold State.dropFrameLock
  (try simp [hne]) <;> repeat' (first | intro _ | (split <;> try simp [hne]))

@[simp] theorem State.loadBanks_other (s : State) (b : BayId) (p : Pu) (oc : BayId) (hne : b ≠ oc) :
    (s.loadBanks b p).bays.get oc = s.bays.get oc := by
  unfold State.loadBanks
  (try simp [hne]) <;> repeat' (first | intro _ | (split <;> try simp [hne]))

@[simp] theorem State.dropRelocs_other (s : State) (b : BayId) (oc : BayId) (hne : b ≠ oc) :
    (s.dropRelocs b).bays.get oc = s.bays.get oc := by
  unfold State.dropRelocs
  (try simp [hne]) <;> repeat' (first | intro _ | (split <;> try simp [hne]) | ((first | rw [State.foldl_other _ _ ?_] | rw [State.foldl2_other _ _ ?_] | rw [State.eachHamper_other _ _ ?_]) <;> intros <;> try simp [hne]))

@[simp] theorem State.enterTrackPull_other (s : State) (b : BayId) (p : Pu) (oc : BayId) (hne : b ≠ oc) :
    (s.enterTrackPull b p).bays.get oc = s.bays.get oc := by
  unfold State.enterTrackPull
  (try simp [hne]) <;> repeat' (first | intro _ | (split <;> try simp [hne]))

@[simp] theorem State.enterAcquire_other (s : State) (b : BayId) (p : Pu) (oc : BayId) (hne : b ≠ oc) :
    (s.enterAcquire b p).bays.get oc = s.bays.get oc := by
  unfold State.enterAcquire
  (try simp [hne]) <;> repeat' (first | intro _ | (split <;> try simp [hne]))

@[simp] theorem State.enterFollow_other (s : State) (b : BayId) (p : Pu) (oc : BayId) (hne : b ≠ oc) :
    (s.enterFollow b p).bays.get oc = s.bays.get oc := by
  unfold State.enterFollow
  (try simp [hne]) <;> repeat' (first | intro _ | (split <;> try simp [hne]))

@[simp] theorem State.startJump_other (s : State) (b : BayId) (p : Pu) (n : Int) (oc : BayId) (hne : b ≠ oc) :
    (s.startJump b p n).bays.get oc = s.bays.get oc := by
  unfold State.startJump
  (try simp [hne]) <;> repeat' (first | intro _ | (split <;> try simp [hne]))

@[simp] theorem State.startLayerJump_other (s : State) (b : BayId) (p : Pu) (layer : Nat) (oc : BayId) (hne : b ≠ oc) :
    (s.startLayerJump b p layer).bays.get oc = s.bays.get oc := by
  unfold State.startLayerJump
  (try simp [hne]) <;> repeat' (first | intro _ | (split <;> try simp [hne]))

@[simp] theorem State.sendServo_other (s : State) (b : BayId) (p : Pu) (tick apply : Nat) (oc : BayId) (hne : b ≠ oc) :
    (s.sendServo b p tick apply).bays.get oc = s.bays.get oc := by
  unfold State.sendServo
  (try simp [hne]) <;> repeat' (first | intro _ | (split <;> try simp [hne]))

@[simp] theorem State.servoCmd_other (s : State) (b : BayId) (p : Pu) (tick tq : Nat) (oc : BayId) (hne : b ≠ oc) :
    (s.servoCmd b p tick tq).bays.get oc = s.bays.get oc := by
  unfold State.servoCmd
  (try simp [hne]) <;> repeat' (first | intro _ | (split <;> try simp [hne]))

@[simp] theorem State.setDrives_other (s : State) (b : BayId) (p : Pu) (oc : BayId) (hne : b ≠ oc) :
    (s.setDrives b p).bays.get oc = s.bays.get oc := by
  unfold State.setDrives
  (try simp [hne]) <;> repeat' (first | intro _ | (split <;> try simp [hne]))

@[simp] theorem State.abandonTune_other (s : State) (b : BayId) (p : Pu) (oc : BayId) (hne : b ≠ oc) :
    (s.abandonTune b p).bays.get oc = s.bays.get oc := by
  unfold State.abandonTune
  (try simp [hne]) <;> repeat' (first | intro _ | (split <;> try simp [hne]))

@[simp] theorem State.supervisorTrip_other (s : State) (b : BayId) (p : Pu) (lp : LoopSel) (check : Nat) (oc : BayId) (hne : b ≠ oc) :
    (s.supervisorTrip b p lp check).bays.get oc = s.bays.get oc := by
  unfold State.supervisorTrip
  (try simp [hne]) <;> repeat' (first | intro _ | (split <;> try simp [hne]))

@[simp] theorem State.swapsDue_other (s : State) (b : BayId) (p : Pu) (tick : Nat) (oc : BayId) (hne : b ≠ oc) :
    (s.swapsDue b p tick).bays.get oc = s.bays.get oc := by
  unfold State.swapsDue
  (try simp [hne]) <;> repeat' (first | intro _ | (split <;> try simp [hne]))

@[simp] theorem State.followMean_other (s : State) (b : BayId) (p : Pu) (oc : BayId) (hne : b ≠ oc) :
    (s.followMean b p).bays.get oc = s.bays.get oc := by
  unfold State.followMean
  (try simp [hne]) <;> repeat' (first | intro _ | (split <;> try simp [hne]))

@[simp] theorem State.tempTrigger_other (s : State) (b : BayId) (p : Pu) (oc : BayId) (hne : b ≠ oc) :
    (s.tempTrigger b p).bays.get oc = s.bays.get oc := by
  unfold State.tempTrigger
  (try simp [hne]) <;> repeat' (first | intro _ | (split <;> try simp [hne]))

@[simp] theorem State.deadTick_other (s : State) (b : BayId) (p : Pu) (tick tq : Nat) (oc : BayId) (hne : b ≠ oc) :
    (s.deadTick b p tick tq).bays.get oc = s.bays.get oc := by
  unfold State.deadTick
  (try simp [hne]) <;> repeat' (first | intro _ | (split <;> try simp [hne]))

@[simp] theorem State.applyRows_other (s : State) (b : BayId) (p : Pu) (rows : BitVec 18) (at' : Nat) (oc : BayId) (hne : b ≠ oc) :
    (s.applyRows b p rows at').bays.get oc = s.bays.get oc := by
  unfold State.applyRows
  (try simp [hne]) <;> repeat' (first | intro _ | (split <;> try simp [hne]))

theorem execRowSwitchTimeout_other (b : BayId) (p : Pu) (s : State) (t : State) (oc : BayId) (hne : b ≠ oc)
    (ht : execRowSwitchTimeout b p s = .next t) : t.bays.get oc = s.bays.get oc := by
  unfold execRowSwitchTimeout at ht
  replace ht := (withBay_next ht).2
  subst ht
  rw [State.after_other _ b oc hne]
  (try simp [hne]) <;> repeat' (first | intro _ | (split <;> try simp [hne]))

theorem execUnitHandoverDone_other (b : BayId) (u : UnitSel) (s : State) (t : State) (oc : BayId) (hne : b ≠ oc)
    (ht : execUnitHandoverDone b u s = .next t) : t.bays.get oc = s.bays.get oc := by
  unfold execUnitHandoverDone at ht
  replace ht := (withBay_next ht).2
  subst ht
  rw [State.after_other _ b oc hne]
  (try simp [hne]) <;> repeat' (first | intro _ | (split <;> try simp [hne]))

@[simp] theorem State.noteLayer_other (s : State) (b : BayId) (p : Pu) (oc : BayId) (hne : b ≠ oc) :
    (s.noteLayer b p).bays.get oc = s.bays.get oc := by
  unfold State.noteLayer
  (try simp [hne]) <;> repeat' (first | intro _ | (split <;> try simp [hne]))

theorem execLoopLock_other (b : BayId) (p : Pu) (lp : LoopSel) (s : State) (t : State) (oc : BayId) (hne : b ≠ oc)
    (ht : execLoopLock b p lp s = .next t) : t.bays.get oc = s.bays.get oc := by
  unfold execLoopLock at ht
  replace ht := (withBay_next ht).2
  subst ht
  rw [State.after_other _ b oc hne]
  (try simp [hne]) <;> repeat' (first | intro _ | (split <;> try simp [hne]))

theorem execBankSwapArm_other (b : BayId) (slot : BankSlot) (p : Pu) (src : BankSource) (bank : Bytes) (tick : Nat) (s : State) (t : State) (oc : BayId) (hne : b ≠ oc)
    (ht : execBankSwapArm b slot p src bank tick s = .next t) : t.bays.get oc = s.bays.get oc := by
  unfold execBankSwapArm at ht
  replace ht := (withBay_next ht).2
  subst ht
  rw [State.after_other _ b oc hne]
  (try simp [hne]) <;> repeat' (first | intro _ | (split <;> try simp [hne]))

theorem execPickupFailedRetry_other (b : BayId) (p : Pu) (s : State) (t : State) (oc : BayId) (hne : b ≠ oc)
    (ht : execPickupFailedRetry b p s = .next t) : t.bays.get oc = s.bays.get oc := by
  unfold execPickupFailedRetry at ht
  replace ht := (withBay_next ht).2
  subst ht
  rw [State.after_other _ b oc hne]
  (try simp [hne]) <;> repeat' (first | intro _ | (split <;> try simp [hne]))

@[simp] theorem State.predictJump_other (s : State) (b : BayId) (p : Pu) (n : Int) (oc : BayId) (hne : b ≠ oc) :
    (s.predictJump b p n).bays.get oc = s.bays.get oc := by
  unfold State.predictJump
  (try simp [hne]) <;> repeat' (first | intro _ | (split <;> try simp [hne]))

theorem execRestLoopJump_other (b : BayId) (p : Pu) (s : State) (t : State) (oc : BayId) (hne : b ≠ oc)
    (ht : execRestLoopJump b p s = .next t) : t.bays.get oc = s.bays.get oc := by
  unfold execRestLoopJump at ht
  replace ht := (withBay_next ht).2
  subst ht
  rw [State.after_other _ b oc hne]
  (try simp [hne]) <;> repeat' (first | intro _ | (split <;> try simp [hne]))

theorem execSaTrimUpdate_other (b : BayId) (p : Pu) (s : State) (t : State) (oc : BayId) (hne : b ≠ oc)
    (ht : execSaTrimUpdate b p s = .next t) : t.bays.get oc = s.bays.get oc := by
  unfold execSaTrimUpdate at ht
  replace ht := (withBay_next ht).2
  subst ht
  rw [State.after_other _ b oc hne]
  (try simp [hne]) <;> repeat' (first | intro _ | (split <;> try simp [hne]))

theorem execLayerJumpIssue_other (b : BayId) (p : Pu) (layer : Fin 12) (s : State) (t : State) (oc : BayId) (hne : b ≠ oc)
    (ht : execLayerJumpIssue b p layer s = .next t) : t.bays.get oc = s.bays.get oc := by
  unfold execLayerJumpIssue at ht
  replace ht := (withBay_next ht).2
  subst ht
  rw [State.after_other _ b oc hne]
  (try simp [hne]) <;> repeat' (first | intro _ | (split <;> try simp [hne]))

@[simp] theorem State.setRef_other (s : State) (b : BayId) (p : Pu) (oc : BayId) (hne : b ≠ oc) :
    (s.setRef b p).bays.get oc = s.bays.get oc := by
  unfold State.setRef
  (try simp [hne]) <;> repeat' (first | intro _ | (split <;> try simp [hne]))

theorem execClvRefSwitch_other (b : BayId) (s : State) (t : State) (oc : BayId) (hne : b ≠ oc)
    (ht : execClvRefSwitch b s = .next t) : t.bays.get oc = s.bays.get oc := by
  unfold execClvRefSwitch at ht
  replace ht := (withBay_next ht).2
  subst ht
  rw [State.after_other _ b oc hne]
  (try simp [hne]) <;> repeat' (first | intro _ | (split <;> try simp [hne]))

theorem execClvRefRestore_other (b : BayId) (s : State) (t : State) (oc : BayId) (hne : b ≠ oc)
    (ht : execClvRefRestore b s = .next t) : t.bays.get oc = s.bays.get oc := by
  unfold execClvRefRestore at ht
  replace ht := (withBay_next ht).2
  subst ht
  rw [State.after_other _ b oc hne]
  (try simp [hne]) <;> repeat' (first | intro _ | (split <;> try simp [hne]))

theorem execAutoTuneStart_other (b : BayId) (p : Pu) (lp : LoopSel) (s : State) (t : State) (oc : BayId) (hne : b ≠ oc)
    (ht : execAutoTuneStart b p lp s = .next t) : t.bays.get oc = s.bays.get oc := by
  unfold execAutoTuneStart at ht
  replace ht := (withBay_next ht).2
  subst ht
  rw [State.after_other _ b oc hne]
  (try simp [hne]) <;> repeat' (first | intro _ | (split <;> try simp [hne]) | ((first | rw [State.foldl_other _ _ ?_] | rw [State.foldl2_other _ _ ?_] | rw [State.eachHamper_other _ _ ?_]) <;> intros <;> try simp [hne]))

@[simp] theorem State.tuneJudge_other (s : State) (b : BayId) (p : Pu) (lp : LoopSel) (k : Bank) (cycles : List (Nat × Nat)) (oc : BayId) (hne : b ≠ oc) :
    (s.tuneJudge b p lp k cycles).bays.get oc = s.bays.get oc := by
  unfold State.tuneJudge
  (try simp [hne]) <;> repeat' (first | intro _ | (split <;> try simp [hne]) | ((first | rw [State.foldl_other _ _ ?_] | rw [State.foldl2_other _ _ ?_] | rw [State.eachHamper_other _ _ ?_]) <;> intros <;> try simp [hne]))

theorem execAutoTuneEnd_other (b : BayId) (p : Pu) (s : State) (t : State) (oc : BayId) (hne : b ≠ oc)
    (ht : execAutoTuneEnd b p s = .next t) : t.bays.get oc = s.bays.get oc := by
  unfold execAutoTuneEnd at ht
  replace ht := (withBay_next ht).2
  subst ht
  rw [State.after_other _ b oc hne]
  (try simp [hne]) <;> repeat' (first | intro _ | (split <;> try simp [hne]))

theorem execTuneRevertWindowEnd_other (b : BayId) (p : Pu) (lp : LoopSel) (s : State) (t : State) (oc : BayId) (hne : b ≠ oc)
    (ht : execTuneRevertWindowEnd b p lp s = .next t) : t.bays.get oc = s.bays.get oc := by
  unfold execTuneRevertWindowEnd at ht
  replace ht := (withBay_next ht).2
  subst ht
  rw [State.after_other _ b oc hne]
  (try simp [hne]) <;> repeat' (first | intro _ | (split <;> try simp [hne]))

@[simp] theorem State.rateCheck_other (s : State) (b : BayId) (p : Pu) (oc : BayId) (hne : b ≠ oc) :
    (s.rateCheck b p).bays.get oc = s.bays.get oc := by
  unfold State.rateCheck
  (try simp [hne]) <;> repeat' (first | intro _ | (split <;> try simp [hne]))

@[simp] theorem State.openBoundary_other (s : State) (b : BayId) (p : Pu) (oc : BayId) (hne : b ≠ oc) :
    (s.openBoundary b p).bays.get oc = s.bays.get oc := by
  unfold State.openBoundary
  (try simp [hne]) <;> repeat' (first | intro _ | (split <;> try simp [hne]))

@[simp] theorem State.detectSegment_other (s : State) (b : BayId) (p : Pu) (a : SecAddr) (part : Nat) (g : Seg) (oc : BayId) (hne : b ≠ oc) :
    (s.detectSegment b p a part g).bays.get oc = s.bays.get oc := by
  unfold State.detectSegment
  (try simp [hne]) <;> repeat' (first | intro _ | (split <;> try simp [hne]))

@[simp] theorem State.tapRollback_other (s : State) (b : BayId) (p : Pu) (q : SoftSlot) (oc : BayId) (hne : b ≠ oc) :
    (s.tapRollback b p q).bays.get oc = s.bays.get oc := by
  unfold State.tapRollback
  (try simp [hne]) <;> repeat' (first | intro _ | (split <;> try simp [hne]))

@[simp] theorem State.eqDiverge_other (s : State) (b : BayId) (p : Pu) (q : SoftSlot) (oc : BayId) (hne : b ≠ oc) :
    (s.eqDiverge b p q).bays.get oc = s.bays.get oc := by
  unfold State.eqDiverge
  (try simp [hne]) <;> repeat' (first | intro _ | (split <;> try simp [hne]) | ((first | rw [State.foldl_other _ _ ?_] | rw [State.foldl2_other _ _ ?_] | rw [State.eachHamper_other _ _ ?_]) <;> intros <;> try simp [hne]))

theorem execSectorSoftCommit_other (b : BayId) (p : Pu) (s : State) (t : State) (oc : BayId) (hne : b ≠ oc)
    (ht : execSectorSoftCommit b p s = .next t) : t.bays.get oc = s.bays.get oc := by
  unfold execSectorSoftCommit at ht
  replace ht := (withBay_next ht).2
  subst ht
  rw [State.after_other _ b oc hne]
  (try simp [hne]) <;> repeat' (first | intro _ | (split <;> try simp [hne]))

theorem execRereadPass_other (b : BayId) (p : Pu) (sector : FrameAddr) (s : State) (t : State) (oc : BayId) (hne : b ≠ oc)
    (ht : execRereadPass b p sector s = .next t) : t.bays.get oc = s.bays.get oc := by
  unfold execRereadPass at ht
  replace ht := (withBay_next ht).2
  subst ht
  rw [State.after_other _ b oc hne]
  (try simp [hne]) <;> repeat' (first | intro _ | (split <;> try simp [hne]))

theorem execSectorEncode_other (b : BayId) (p : Pu) (upset : Bool) (s : State) (t : State) (oc : BayId) (hne : b ≠ oc)
    (ht : execSectorEncode b p upset s = .next t) : t.bays.get oc = s.bays.get oc := by
  unfold execSectorEncode at ht
  replace ht := (withBay_next ht).2
  subst ht
  rw [State.after_other _ b oc hne]
  (try simp [hne]) <;> repeat' (first | intro _ | (split <;> try simp [hne]))

@[simp] theorem State.endExcursion_other (s : State) (b : BayId) (oc : BayId) (hne : b ≠ oc) :
    (s.endExcursion b).bays.get oc = s.bays.get oc := by
  unfold State.endExcursion
  (try simp [hne]) <;> repeat' (first | intro _ | (split <;> try simp [hne]))

theorem execPassBlockStart_other (b : BayId) (p : Pu) (s : State) (t : State) (oc : BayId) (hne : b ≠ oc)
    (ht : execPassBlockStart b p s = .next t) : t.bays.get oc = s.bays.get oc := by
  unfold execPassBlockStart at ht
  replace ht := (withBay_next ht).2
  subst ht
  rw [State.after_other _ b oc hne]
  (try simp [hne]) <;> repeat' (first | intro _ | (split <;> try simp [hne]))

@[simp] theorem State.sendSegment_other (s : State) (b : BayId) (p : Pu) (pass : Nat) (first interval : Int) (bits : List (List Bool)) (oc : BayId) (hne : b ≠ oc) :
    (s.sendSegment b p pass first interval bits).bays.get oc = s.bays.get oc := by
  unfold State.sendSegment
  (try simp [hne]) <;> repeat' (first | intro _ | (split <;> try simp [hne]))

@[simp] theorem State.useSpare_other (s : State) (b : BayId) (p : Pu) (a : SecAddr) (oc : BayId) (hne : b ≠ oc) :
    (s.useSpare b p a).bays.get oc = s.bays.get oc := by
  unfold State.useSpare
  (try simp [hne]) <;> repeat' (first | intro _ | (split <;> try simp [hne]))

@[simp] theorem State.touchSector_other (s : State) (b : BayId) (p : Pu) (c : Coded) (oc : BayId) (hne : b ≠ oc) :
    (s.touchSector b p c).bays.get oc = s.bays.get oc := by
  unfold State.touchSector
  (try simp [hne]) <;> repeat' (first | intro _ | (split <;> try simp [hne]))

@[simp] theorem State.writeSegment_other (s : State) (b : BayId) (p : Pu) (k : PassBlock) (c : Coded) (f : Nat) (oc : BayId) (hne : b ≠ oc) :
    (s.writeSegment b p k c f).bays.get oc = s.bays.get oc := by
  unfold State.writeSegment
  (try simp [hne]) <;> repeat' (first | intro _ | (split <;> try simp [hne]))

theorem execStrategyBankLoad_other (b : BayId) (p : Pu) (layer : Fin 12) (s : State) (t : State) (oc : BayId) (hne : b ≠ oc)
    (ht : execStrategyBankLoad b p layer s = .next t) : t.bays.get oc = s.bays.get oc := by
  unfold execStrategyBankLoad at ht
  replace ht := (withBay_next ht).2
  subst ht
  rw [State.after_other _ b oc hne]
  (try simp [hne]) <;> repeat' (first | intro _ | (split <;> try simp [hne]))

theorem execRelocExcursionStart_other (b : BayId) (s : State) (t : State) (oc : BayId) (hne : b ≠ oc)
    (ht : execRelocExcursionStart b s = .next t) : t.bays.get oc = s.bays.get oc := by
  unfold execRelocExcursionStart at ht
  replace ht := (withBay_next ht).2
  subst ht
  rw [State.after_other _ b oc hne]
  (try simp [hne]) <;> repeat' (first | intro _ | (split <;> try simp [hne]))

@[simp] theorem State.sledTarget_other (s : State) (b : BayId) (p : Pu) (radius : Int) (seek : Bool) (oc : BayId) (hne : b ≠ oc) :
    (s.sledTarget b p radius seek).bays.get oc = s.bays.get oc := by
  unfold State.sledTarget
  (try simp [hne]) <;> repeat' (first | intro _ | (split <;> try simp [hne]) | ((first | rw [State.foldl_other _ _ ?_] | rw [State.foldl2_other _ _ ?_] | rw [State.eachHamper_other _ _ ?_]) <;> intros <;> try simp [hne]))

@[simp] theorem State.seekSleds_other (s : State) (b : BayId) (radius : Int) (oc : BayId) (hne : b ≠ oc) :
    (s.seekSleds b radius).bays.get oc = s.bays.get oc := by
  unfold State.seekSleds
  (try simp [hne]) <;> repeat' (first | intro _ | (split <;> try simp [hne]))

@[simp] theorem State.enterSeek_other (s : State) (b : BayId) (p : Pu) (oc : BayId) (hne : b ≠ oc) :
    (s.enterSeek b p).bays.get oc = s.bays.get oc := by
  unfold State.enterSeek
  (try simp [hne]) <;> repeat' (first | intro _ | (split <;> try simp [hne]))

@[simp] theorem State.correctionSeek_other (s : State) (b : BayId) (p : Pu) (oc : BayId) (hne : b ≠ oc) :
    (s.correctionSeek b p).bays.get oc = s.bays.get oc := by
  unfold State.correctionSeek
  (try simp [hne]) <;> repeat' (first | intro _ | (split <;> try simp [hne]))

@[simp] theorem State.sledStep_other (s : State) (b : BayId) (p : Pu) (oc : BayId) (hne : b ≠ oc) :
    (s.sledStep b p).bays.get oc = s.bays.get oc := by
  unfold State.sledStep
  (try simp [hne]) <;> repeat' (first | intro _ | (split <;> try simp [hne]))

@[simp] theorem State.sledLost_other (s : State) (b : BayId) (p : Pu) (oc : BayId) (hne : b ≠ oc) :
    (s.sledLost b p).bays.get oc = s.bays.get oc := by
  unfold State.sledLost
  (try simp [hne]) <;> repeat' (first | intro _ | (split <;> try simp [hne]) | ((first | rw [State.foldl_other _ _ ?_] | rw [State.foldl2_other _ _ ?_] | rw [State.eachHamper_other _ _ ?_]) <;> intros <;> try simp [hne]))

@[simp] theorem State.sledWedge_other (s : State) (b : BayId) (p : Pu) (radius : Nat) (oc : BayId) (hne : b ≠ oc) :
    (s.sledWedge b p radius).bays.get oc = s.bays.get oc := by
  unfold State.sledWedge
  (try simp [hne]) <;> repeat' (first | intro _ | (split <;> try simp [hne]))

@[simp] theorem State.sledSlip_other (s : State) (b : BayId) (p : Pu) (radius : Nat) (oc : BayId) (hne : b ≠ oc) :
    (s.sledSlip b p radius).bays.get oc = s.bays.get oc := by
  unfold State.sledSlip
  (try simp [hne]) <;> repeat' (first | intro _ | (split <;> try simp [hne]))

theorem execSledCoarseStep_other (b : BayId) (s : State) (t : State) (oc : BayId) (hne : b ≠ oc)
    (ht : execSledCoarseStep b s = .next t) : t.bays.get oc = s.bays.get oc := by
  unfold execSledCoarseStep at ht
  replace ht := (withBay_next ht).2
  subst ht
  rw [State.after_other _ b oc hne]
  (try simp [hne]) <;> repeat' (first | intro _ | (split <;> try simp [hne]))

theorem execSledTarget_other (b : BayId) (p : Pu) (radius : Int) (seek : Bool) (s : State) (t : State) (oc : BayId) (hne : b ≠ oc)
    (ht : execSledTarget b p radius seek s = .next t) : t.bays.get oc = s.bays.get oc := by
  unfold execSledTarget at ht
  replace ht := (withBay_next ht).2
  subst ht
  rw [State.after_other _ b oc hne]
  (try simp [hne]) <;> repeat' (first | intro _ | (split <;> try simp [hne]))

theorem execSeekArrive_other (b : BayId) (p : Pu) (s : State) (t : State) (oc : BayId) (hne : b ≠ oc)
    (ht : execSeekArrive b p s = .next t) : t.bays.get oc = s.bays.get oc := by
  unfold execSeekArrive at ht
  replace ht := (withBay_next ht).2
  subst ht
  rw [State.after_other _ b oc hne]
  (try simp [hne]) <;> repeat' (first | intro _ | (split <;> try simp [hne]) | ((first | rw [State.foldl_other _ _ ?_] | rw [State.foldl2_other _ _ ?_] | rw [State.eachHamper_other _ _ ?_]) <;> intros <;> try simp [hne]))

theorem execSledHoldReduce_other (b : BayId) (p : Pu) (s : State) (t : State) (oc : BayId) (hne : b ≠ oc)
    (ht : execSledHoldReduce b p s = .next t) : t.bays.get oc = s.bays.get oc := by
  unfold execSledHoldReduce at ht
  replace ht := (withBay_next ht).2
  subst ht
  rw [State.after_other _ b oc hne]
  (try simp [hne]) <;> repeat' (first | intro _ | (split <;> try simp [hne]))

theorem execSledPowerDown_other (b : BayId) (p : Pu) (s : State) (t : State) (oc : BayId) (hne : b ≠ oc)
    (ht : execSledPowerDown b p s = .next t) : t.bays.get oc = s.bays.get oc := by
  unfold execSledPowerDown at ht
  replace ht := (withBay_next ht).2
  subst ht
  rw [State.after_other _ b oc hne]
  dsimp only
  split
  · rfl
  · split
    · simp [hne]
    · split <;> simp [hne]

theorem execSledTableLoad_other (b : BayId) (bank : Bool) (table : Bytes) (s : State) (t : State) (oc : BayId) (hne : b ≠ oc)
    (ht : execSledTableLoad b bank table s = .next t) : t.bays.get oc = s.bays.get oc := by
  unfold execSledTableLoad at ht
  replace ht := (withBay_next ht).2
  subst ht
  rw [State.after_other _ b oc hne]
  (try simp [hne]) <;> repeat' (first | intro _ | (split <;> try simp [hne]))

theorem execSeekIssue_other (b : BayId) (radius : Nat) (s : State) (t : State) (oc : BayId) (hne : b ≠ oc)
    (ht : execSeekIssue b radius s = .next t) : t.bays.get oc = s.bays.get oc := by
  unfold execSeekIssue at ht
  replace ht := (withBay_next ht).2
  subst ht
  rw [State.after_other _ b oc hne]
  (try simp [hne]) <;> repeat' (first | intro _ | (split <;> try simp [hne]))

@[simp] theorem State.jumpTo_other (s : State) (b : BayId) (p : Pu) (n : Int) (oc : BayId) (hne : b ≠ oc) :
    (s.jumpTo b p n).bays.get oc = s.bays.get oc := by
  unfold State.jumpTo
  (try simp [hne]) <;> repeat' (first | intro _ | (split <;> try simp [hne]))

theorem execSwathJumpIssue_other (b : BayId) (p : Pu) (n : Int) (s : State) (t : State) (oc : BayId) (hne : b ≠ oc)
    (ht : execSwathJumpIssue b p n s = .next t) : t.bays.get oc = s.bays.get oc := by
  unfold execSwathJumpIssue at ht
  replace ht := (withBay_next ht).2
  subst ht
  rw [State.after_other _ b oc hne]
  (try simp [hne]) <;> repeat' (first | intro _ | (split <;> try simp [hne]))

theorem execTargetFrameApproach_other (b : BayId) (p : Pu) (frame : Nat) (opensBlock : Bool) (s : State) (t : State) (oc : BayId) (hne : b ≠ oc)
    (ht : execTargetFrameApproach b p frame opensBlock s = .next t) : t.bays.get oc = s.bays.get oc := by
  unfold execTargetFrameApproach at ht
  replace ht := (withBay_next ht).2
  subst ht
  rw [State.after_other _ b oc hne]
  (try simp [hne]) <;> repeat' (first | intro _ | (split <;> try simp [hne]))

@[simp] theorem State.followTarget_other (s : State) (b : BayId) (p : Pu) (oc : BayId) (hne : b ≠ oc) :
    (s.followTarget b p).bays.get oc = s.bays.get oc := by
  unfold State.followTarget
  (try simp [hne]) <;> repeat' (first | intro _ | (split <;> try simp [hne]))

@[simp] theorem State.askRows_other (s : State) (b : BayId) (p : Pu) (spots : List Nat) (apply : Int) (oc : BayId) (hne : b ≠ oc) :
    (s.askRows b p spots apply).bays.get oc = s.bays.get oc := by
  unfold State.askRows
  (try simp [hne]) <;> repeat' (first | intro _ | (split <;> try simp [hne]) | ((first | rw [State.foldl_other _ _ ?_] | rw [State.foldl2_other _ _ ?_] | rw [State.eachHamper_other _ _ ?_]) <;> intros <;> try simp [hne]))

@[simp] theorem State.noteSwaps_other (s : State) (b : BayId) (p : Pu) (spots : List Nat) (oc : BayId) (hne : b ≠ oc) :
    (s.noteSwaps b p spots).bays.get oc = s.bays.get oc := by
  unfold State.noteSwaps
  (try simp [hne]) <;> repeat' (first | intro _ | (split <;> try simp [hne]) | ((first | rw [State.foldl_other _ _ ?_] | rw [State.foldl2_other _ _ ?_] | rw [State.eachHamper_other _ _ ?_]) <;> intros <;> try simp [hne]))

@[simp] theorem State.planExam_other (s : State) (b : BayId) (p : Pu) (apply : Int) (oc : BayId) (hne : b ≠ oc) :
    (s.planExam b p apply).bays.get oc = s.bays.get oc := by
  unfold State.planExam
  (try simp [hne]) <;> repeat' (first | intro _ | (split <;> try simp [hne]))

@[simp] theorem State.planSwaps_other (s : State) (b : BayId) (p : Pu) (apply : Int) (oc : BayId) (hne : b ≠ oc) :
    (s.planSwaps b p apply).bays.get oc = s.bays.get oc := by
  unfold State.planSwaps
  (try simp [hne]) <;> repeat' (first | intro _ | (split <;> try simp [hne]))

@[simp] theorem State.openDetector_other (s : State) (b : BayId) (p : Pu) (a : SecAddr) (oc : BayId) (hne : b ≠ oc) :
    (s.openDetector b p a).bays.get oc = s.bays.get oc := by
  unfold State.openDetector
  (try simp [hne]) <;> repeat' (first | intro _ | (split <;> try simp [hne]) | ((first | rw [State.foldl_other _ _ ?_] | rw [State.foldl2_other _ _ ?_] | rw [State.eachHamper_other _ _ ?_]) <;> intros <;> try simp [hne]))

@[simp] theorem State.blockJump_other (s : State) (b : BayId) (p : Pu) (k : PassBlock) (step : BlockStep) (tries : Nat) (oc : BayId) (hne : b ≠ oc) :
    (s.blockJump b p k step tries).bays.get oc = s.bays.get oc := by
  unfold State.blockJump
  (try simp [hne]) <;> repeat' (first | intro _ | (split <;> try simp [hne]))

@[simp] theorem State.takeoverWedge_other (s : State) (b : BayId) (p : Pu) (pos : Int) (oc : BayId) (hne : b ≠ oc) :
    (s.takeoverWedge b p pos).bays.get oc = s.bays.get oc := by
  unfold State.takeoverWedge
  (try simp [hne]) <;> repeat' (first | intro _ | (split <;> try simp [hne]))

theorem execTimingHoldLimit_other (b : BayId) (p : Pu) (i : Fin 16) (s : State) (t : State) (oc : BayId) (hne : b ≠ oc)
    (ht : execTimingHoldLimit b p i s = .next t) : t.bays.get oc = s.bays.get oc := by
  unfold execTimingHoldLimit at ht
  replace ht := (withBay_next ht).2
  subst ht
  rw [State.after_other _ b oc hne]
  (try simp [hne]) <;> repeat' (first | intro _ | (split <;> try simp [hne]))

theorem execSegmentSyncVote_other (b : BayId) (p : Pu) (s : State) (t : State) (oc : BayId) (hne : b ≠ oc)
    (ht : execSegmentSyncVote b p s = .next t) : t.bays.get oc = s.bays.get oc := by
  unfold execSegmentSyncVote at ht
  replace ht := (withBay_next ht).2
  subst ht
  rw [State.after_other _ b oc hne]
  (try simp [hne]) <;> repeat' (first | intro _ | (split <;> try simp [hne]))

@[simp] theorem State.searchOn_other (s : State) (b : BayId) (p : Pu) (oc : BayId) (hne : b ≠ oc) :
    (s.searchOn b p).bays.get oc = s.bays.get oc := by
  unfold State.searchOn
  (try simp [hne]) <;> repeat' (first | intro _ | (split <;> try simp [hne]))

@[simp] theorem State.countCorrection_other (s : State) (b : BayId) (p : Pu) (oc : BayId) (hne : b ≠ oc) :
    (s.countCorrection b p).bays.get oc = s.bays.get oc := by
  unfold State.countCorrection
  (try simp [hne]) <;> repeat' (first | intro _ | (split <;> try simp [hne]))

@[simp] theorem State.sawAddr_other (s : State) (b : BayId) (p : Pu) (a : WedgeAddr) (oc : BayId) (hne : b ≠ oc) :
    (s.sawAddr b p a).bays.get oc = s.bays.get oc := by
  unfold State.sawAddr
  (try simp [hne]) <;> repeat' (first | intro _ | (split <;> try simp [hne]))

@[simp] theorem State.spEnter_other (s : State) (b : BayId) (st : SpSt) (oc : BayId) (hne : b ≠ oc) :
    (s.spEnter b st).bays.get oc = s.bays.get oc := by
  unfold State.spEnter
  (try simp [hne]) <;> repeat' (first | intro _ | (split <;> try simp [hne]))

@[simp] theorem State.enterCatch_other (s : State) (b : BayId) (use : CatchUse) (oc : BayId) (hne : b ≠ oc) :
    (s.enterCatch b use).bays.get oc = s.bays.get oc := by
  unfold State.enterCatch
  (try simp [hne]) <;> repeat' (first | intro _ | (split <;> try simp [hne]))

@[simp] theorem State.spRecover_other (s : State) (b : BayId) (oc : BayId) (hne : b ≠ oc) :
    (s.spRecover b).bays.get oc = s.bays.get oc := by
  unfold State.spRecover
  (try simp [hne]) <;> repeat' (first | intro _ | (split <;> try simp [hne]))

@[simp] theorem State.spBrake_other (s : State) (b : BayId) (oc : BayId) (hne : b ≠ oc) :
    (s.spBrake b).bays.get oc = s.bays.get oc := by
  unfold State.spBrake
  (try simp [hne]) <;> repeat' (first | intro _ | (split <;> try simp [hne]))

@[simp] theorem State.spWait_other (s : State) (b : BayId) (ms : Nat) (oc : BayId) (hne : b ≠ oc) :
    (s.spWait b ms).bays.get oc = s.bays.get oc := by
  unfold State.spWait
  (try simp [hne]) <;> repeat' (first | intro _ | (split <;> try simp [hne]))

@[simp] theorem State.spDecel_other (s : State) (b : BayId) (goal : Int) (oc : BayId) (hne : b ≠ oc) :
    (s.spDecel b goal).bays.get oc = s.bays.get oc := by
  unfold State.spDecel
  (try simp [hne]) <;> repeat' (first | intro _ | (split <;> try simp [hne]))

@[simp] theorem State.spSync_other (s : State) (b : BayId) (idRef iq : Int) (oc : BayId) (hne : b ≠ oc) :
    (s.spSync b idRef iq).bays.get oc = s.bays.get oc := by
  unfold State.spSync
  (try simp [hne]) <;> repeat' (first | intro _ | (split <;> try simp [hne]))

@[simp] theorem State.spRun_other (s : State) (b : BayId) (oc : BayId) (hne : b ≠ oc) :
    (s.spRun b).bays.get oc = s.bays.get oc := by
  unfold State.spRun
  (try simp [hne]) <;> repeat' (first | intro _ | (split <;> try simp [hne]))

@[simp] theorem State.currentLoops_other (s : State) (b : BayId) (refs : Int × Int × Int) (meas : Option (Int × Int)) (oc : BayId) (hne : b ≠ oc) :
    (s.currentLoops b refs meas).bays.get oc = s.bays.get oc := by
  unfold State.currentLoops
  (try simp [hne]) <;> repeat' (first | intro _ | (split <;> try simp [hne]))

@[simp] theorem State.observe_other (s : State) (b : BayId) (i : Int × Int) (oc : BayId) (hne : b ≠ oc) :
    (s.observe b i).bays.get oc = s.bays.get oc := by
  unfold State.observe
  (try simp [hne]) <;> repeat' (first | intro _ | (split <;> try simp [hne]))

@[simp] theorem State.watchSpeed_other (s : State) (b : BayId) (oc : BayId) (hne : b ≠ oc) :
    (s.watchSpeed b).bays.get oc = s.bays.get oc := by
  unfold State.watchSpeed
  (try simp [hne]) <;> repeat' (first | intro _ | (split <;> try simp [hne]))

@[simp] theorem State.watchCatch_other (s : State) (b : BayId) (rpm : Int) (oc : BayId) (hne : b ≠ oc) :
    (s.watchCatch b rpm).bays.get oc = s.bays.get oc := by
  unfold State.watchCatch
  (try simp [hne]) <;> repeat' (first | intro _ | (split <;> try simp [hne]))

@[simp] theorem State.swapBanks_other (s : State) (b : BayId) (oc : BayId) (hne : b ≠ oc) :
    (s.swapBanks b).bays.get oc = s.bays.get oc := by
  unfold State.swapBanks
  (try simp [hne]) <;> repeat' (first | intro _ | (split <;> try simp [hne]) | ((first | rw [State.foldl_other _ _ ?_] | rw [State.foldl2_other _ _ ?_] | rw [State.eachHamper_other _ _ ?_]) <;> intros <;> try simp [hne]))

@[simp] theorem State.undriven_other (s : State) (b : BayId) (oc : BayId) (hne : b ≠ oc) :
    (s.undriven b).bays.get oc = s.bays.get oc := by
  unfold State.undriven
  (try simp [hne]) <;> repeat' (first | intro _ | (split <;> try simp [hne]))

@[simp] theorem State.periodCounts_other (s : State) (b : BayId) (valid : Bool) (oc : BayId) (hne : b ≠ oc) :
    (s.periodCounts b valid).bays.get oc = s.bays.get oc := by
  unfold State.periodCounts
  (try simp [hne]) <;> repeat' (first | intro _ | (split <;> try simp [hne]))

@[simp] theorem State.periodEnd_other (s : State) (b : BayId) (oc : BayId) (hne : b ≠ oc) :
    (s.periodEnd b).bays.get oc = s.bays.get oc := by
  unfold State.periodEnd
  (try simp [hne]) <;> repeat' (first | intro _ | (split <;> try simp [hne]))

@[simp] theorem State.holdDrive_other (s : State) (b : BayId) (oc : BayId) (hne : b ≠ oc) :
    (s.holdDrive b).bays.get oc = s.bays.get oc := by
  unfold State.holdDrive
  (try simp [hne]) <;> repeat' (first | intro _ | (split <;> try simp [hne]))

@[simp] theorem State.spinPeriod_other (s : State) (b : BayId) (meas : Option (Int × Int)) (held : Bool) (oc : BayId) (hne : b ≠ oc) :
    (s.spinPeriod b meas held).bays.get oc = s.bays.get oc := by
  unfold State.spinPeriod
  (try simp [hne]) <;> repeat' (first | intro _ | (split <;> (try (rename_i hp; replace hp := congrArg Prod.snd hp; dsimp only at hp; subst hp)) <;> try simp [hne]))

@[simp] theorem State.sendDrive_other (s : State) (b : BayId) (type tsh : Nat) (payload : Bytes) (oc : BayId) (hne : b ≠ oc) :
    (s.sendDrive b type tsh payload).bays.get oc = s.bays.get oc := by
  unfold State.sendDrive
  (try simp [hne]) <;> repeat' (first | intro _ | (split <;> try simp [hne]))

@[simp] theorem State.driveNext_other (s : State) (b : BayId) (oc : BayId) (hne : b ≠ oc) :
    (s.driveNext b).bays.get oc = s.bays.get oc := by
  unfold State.driveNext
  (try simp [hne]) <;> repeat' (first | intro _ | (split <;> try simp [hne]))

@[simp] theorem State.driveTo_other (s : State) (b : BayId) (n : Nat) (oc : BayId) (hne : b ≠ oc) :
    (s.driveTo b n).bays.get oc = s.bays.get oc := by
  unfold State.driveTo
  (try simp [hne]) <;> repeat' (first | intro _ | (split <;> try simp [hne]) | ((first | rw [State.foldl_other _ _ ?_] | rw [State.foldl2_other _ _ ?_] | rw [State.eachHamper_other _ _ ?_]) <;> intros <;> try simp [hne]))

@[simp] theorem State.mdnSlot_other (s : State) (b : BayId) (oc : BayId) (hne : b ≠ oc) :
    (s.mdnSlot b).bays.get oc = s.bays.get oc := by
  unfold State.mdnSlot
  (try simp [hne]) <;> repeat' (first | intro _ | (split <;> try simp [hne]))

@[simp] theorem State.mdnSlots_other (s : State) (b : BayId) (oc : BayId) (hne : b ≠ oc) :
    (s.mdnSlots b).bays.get oc = s.bays.get oc := by
  unfold State.mdnSlots
  (try simp [hne]) <;> repeat' (first | intro _ | (split <;> try simp [hne]) | ((first | rw [State.foldl_other _ _ ?_] | rw [State.foldl2_other _ _ ?_] | rw [State.eachHamper_other _ _ ?_]) <;> intros <;> try simp [hne]))

@[simp] theorem State.mlinkTrain_other (s : State) (b : BayId) (oc : BayId) (hne : b ≠ oc) :
    (s.mlinkTrain b).bays.get oc = s.bays.get oc := by
  unfold State.mlinkTrain
  (try simp [hne]) <;> repeat' (first | intro _ | (split <;> try simp [hne]))

@[simp] theorem State.mlinkFails_other (s : State) (b : BayId) (oc : BayId) (hne : b ≠ oc) :
    (s.mlinkFails b).bays.get oc = s.bays.get oc := by
  unfold State.mlinkFails
  (try simp [hne]) <;> repeat' (first | intro _ | (split <;> try simp [hne]))

@[simp] theorem State.mlinkGo_other (s : State) (b : BayId) (oc : BayId) (hne : b ≠ oc) :
    (s.mlinkGo b).bays.get oc = s.bays.get oc := by
  unfold State.mlinkGo
  (try simp [hne]) <;> repeat' (first | intro _ | (split <;> try simp [hne]))

@[simp] theorem State.changeBank_other (s : State) (b : BayId) (p : Pu) (oc : BayId) (hne : b ≠ oc) :
    (s.changeBank b p).bays.get oc = s.bays.get oc := by
  unfold State.changeBank
  (try simp [hne]) <;> repeat' (first | intro _ | (split <;> try simp [hne]))

@[simp] theorem State.loadStep_other (s : State) (b : BayId) (crc0 crc1 : Nat) (oc : BayId) (hne : b ≠ oc) :
    (s.loadStep b crc0 crc1).bays.get oc = s.bays.get oc := by
  unfold State.loadStep
  (try simp [hne]) <;> repeat' (first | intro _ | (split <;> try simp [hne]))

@[simp] theorem State.senseFails_other (s : State) (b : BayId) (oc : BayId) (hne : b ≠ oc) :
    (s.senseFails b).bays.get oc = s.bays.get oc := by
  unfold State.senseFails
  (try simp [hne]) <;> repeat' (first | intro _ | (split <;> try simp [hne]))

theorem execMlinkTrainFrame_other (b : BayId) (raw : Bytes) (s : State) (t : State) (oc : BayId) (hne : b ≠ oc)
    (ht : execMlinkTrainFrame b raw s = .next t) : t.bays.get oc = s.bays.get oc := by
  unfold execMlinkTrainFrame at ht
  replace ht := (withBay_next ht).2
  subst ht
  rw [State.after_other _ b oc hne]
  (try simp [hne]) <;> repeat' (first | intro _ | (split <;> try simp [hne]) | ((first | rw [State.foldl_other _ _ ?_] | rw [State.foldl2_other _ _ ?_] | rw [State.eachHamper_other _ _ ?_]) <;> intros <;> try simp [hne]))

theorem execMlinkTrainTimeout_other (b : BayId) (s : State) (t : State) (oc : BayId) (hne : b ≠ oc)
    (ht : execMlinkTrainTimeout b s = .next t) : t.bays.get oc = s.bays.get oc := by
  unfold execMlinkTrainTimeout at ht
  replace ht := (withBay_next ht).2
  subst ht
  rw [State.after_other _ b oc hne]
  (try simp [hne]) <;> repeat' (first | intro _ | (split <;> try simp [hne]))

theorem execMlinkTrainRetry_other (b : BayId) (s : State) (t : State) (oc : BayId) (hne : b ≠ oc)
    (ht : execMlinkTrainRetry b s = .next t) : t.bays.get oc = s.bays.get oc := by
  unfold execMlinkTrainRetry at ht
  replace ht := (withBay_next ht).2
  subst ht
  rw [State.after_other _ b oc hne]
  (try simp [hne]) <;> repeat' (first | intro _ | (split <;> try simp [hne]))

theorem execMlinkLost_other (b : BayId) (s : State) (t : State) (oc : BayId) (hne : b ≠ oc)
    (ht : execMlinkLost b s = .next t) : t.bays.get oc = s.bays.get oc := by
  unfold execMlinkLost at ht
  replace ht := (withBay_next ht).2
  subst ht
  rw [State.after_other _ b oc hne]
  (try simp [hne]) <;> repeat' (first | intro _ | (split <;> try simp [hne]))

@[simp] theorem State.handCheck_other (s : State) (b : BayId) (oc : BayId) (hne : b ≠ oc) :
    (s.handCheck b).bays.get oc = s.bays.get oc := by
  unfold State.handCheck
  (try simp [hne]) <;> repeat' (first | intro _ | (split <;> try simp [hne]))

@[simp] theorem State.crossCheck_other (s : State) (b : BayId) (oc : BayId) (hne : b ≠ oc) :
    (s.crossCheck b).bays.get oc = s.bays.get oc := by
  unfold State.crossCheck
  (try simp [hne]) <;> repeat' (first | intro _ | (split <;> try simp [hne]))

@[simp] theorem State.speedStep_other (s : State) (b : BayId) (oc : BayId) (hne : b ≠ oc) :
    (s.speedStep b).bays.get oc = s.bays.get oc := by
  unfold State.speedStep
  (try simp [hne]) <;> repeat' (first | intro _ | (split <;> try simp [hne]))

theorem execSpeedLoopSample_other (b : BayId) (s : State) (t : State) (oc : BayId) (hne : b ≠ oc)
    (ht : execSpeedLoopSample b s = .next t) : t.bays.get oc = s.bays.get oc := by
  unfold execSpeedLoopSample at ht
  replace ht := (withBay_next ht).2
  subst ht
  rw [State.after_other _ b oc hne]
  (try simp [hne]) <;> repeat' (first | intro _ | (split <;> try simp [hne]))

theorem execSpeedReady_other (b : BayId) (s : State) (t : State) (oc : BayId) (hne : b ≠ oc)
    (ht : execSpeedReady b s = .next t) : t.bays.get oc = s.bays.get oc := by
  unfold execSpeedReady at ht
  replace ht := (withBay_next ht).2
  subst ht
  rw [State.after_other _ b oc hne]
  (try simp [hne]) <;> repeat' (first | intro _ | (split <;> try simp [hne]))

theorem execSpindleStart_other (b : BayId) (s : State) (t : State) (oc : BayId) (hne : b ≠ oc)
    (ht : execSpindleStart b s = .next t) : t.bays.get oc = s.bays.get oc := by
  unfold execSpindleStart at ht
  replace ht := (withBay_next ht).2
  subst ht
  rw [State.after_other _ b oc hne]
  (try simp [hne]) <;> repeat' (first | intro _ | (split <;> try simp [hne]))

theorem execSpindleFaultRetry_other (b : BayId) (s : State) (t : State) (oc : BayId) (hne : b ≠ oc)
    (ht : execSpindleFaultRetry b s = .next t) : t.bays.get oc = s.bays.get oc := by
  unfold execSpindleFaultRetry at ht
  replace ht := (withBay_next ht).2
  subst ht
  rw [State.after_other _ b oc hne]
  (try simp [hne]) <;> repeat' (first | intro _ | (split <;> try simp [hne]))

theorem execStartWaitEnd_other (b : BayId) (s : State) (t : State) (oc : BayId) (hne : b ≠ oc)
    (ht : execStartWaitEnd b s = .next t) : t.bays.get oc = s.bays.get oc := by
  unfold execStartWaitEnd at ht
  replace ht := (withBay_next ht).2
  subst ht
  rw [State.after_other _ b oc hne]
  (try simp [hne]) <;> repeat' (first | intro _ | (split <;> try simp [hne]))

@[simp] theorem State.testSeed_other (s : State) (b : BayId) (rpm : Int) (frames : Nat) (oc : BayId) (hne : b ≠ oc) :
    (s.testSeed b rpm frames).bays.get oc = s.bays.get oc := by
  unfold State.testSeed
  (try simp [hne]) <;> repeat' (first | intro _ | (split <;> try simp [hne]))

theorem execTestCatch_other (b : BayId) (s : State) (t : State) (oc : BayId) (hne : b ≠ oc)
    (ht : execTestCatch b s = .next t) : t.bays.get oc = s.bays.get oc := by
  unfold execTestCatch at ht
  replace ht := (withBay_next ht).2
  subst ht
  rw [State.after_other _ b oc hne]
  (try simp [hne]) <;> repeat' (first | intro _ | (split <;> try simp [hne]))

theorem execAlignEnd_other (b : BayId) (s : State) (t : State) (oc : BayId) (hne : b ≠ oc)
    (ht : execAlignEnd b s = .next t) : t.bays.get oc = s.bays.get oc := by
  unfold execAlignEnd at ht
  replace ht := (withBay_next ht).2
  subst ht
  rw [State.after_other _ b oc hne]
  (try simp [hne]) <;> repeat' (first | intro _ | (split <;> try simp [hne]))

theorem execRampHandover_other (b : BayId) (s : State) (t : State) (oc : BayId) (hne : b ≠ oc)
    (ht : execRampHandover b s = .next t) : t.bays.get oc = s.bays.get oc := by
  unfold execRampHandover at ht
  replace ht := (withBay_next ht).2
  subst ht
  rw [State.after_other _ b oc hne]
  (try simp [hne]) <;> repeat' (first | intro _ | (split <;> try simp [hne]))

theorem execObserverLost_other (b : BayId) (s : State) (t : State) (oc : BayId) (hne : b ≠ oc)
    (ht : execObserverLost b s = .next t) : t.bays.get oc = s.bays.get oc := by
  unfold execObserverLost at ht
  replace ht := (withBay_next ht).2
  subst ht
  rw [State.after_other _ b oc hne]
  (try simp [hne]) <;> repeat' (first | intro _ | (split <;> try simp [hne]))

theorem execOverspeedDetect_other (b : BayId) (s : State) (t : State) (oc : BayId) (hne : b ≠ oc)
    (ht : execOverspeedDetect b s = .next t) : t.bays.get oc = s.bays.get oc := by
  unfold execOverspeedDetect at ht
  replace ht := (withBay_next ht).2
  subst ht
  rw [State.after_other _ b oc hne]
  (try simp [hne]) <;> repeat' (first | intro _ | (split <;> try simp [hne]))

theorem execBayProbe_other (b : BayId) (s : State) (t : State) (oc : BayId) (hne : b ≠ oc)
    (ht : execBayProbe b s = .next t) : t.bays.get oc = s.bays.get oc := by
  unfold execBayProbe at ht
  replace ht := (withBay_next ht).2
  subst ht
  rw [State.after_other _ b oc hne]
  (try simp [hne]) <;> repeat' (first | intro _ | (split <;> try simp [hne]))

@[simp] theorem State.setGrade_other (s : State) (b : BayId) (p : Pu) (i : Nat) (g : Grade) (oc : BayId) (hne : b ≠ oc) :
    (s.setGrade b p i g).bays.get oc = s.bays.get oc := by
  unfold State.setGrade
  (try simp [hne]) <;> repeat' (first | intro _ | (split <;> try simp [hne]))

@[simp] theorem State.gradeWear_other (s : State) (b : BayId) (p : Pu) (i : Nat) (oc : BayId) (hne : b ≠ oc) :
    (s.gradeWear b p i).bays.get oc = s.bays.get oc := by
  unfold State.gradeWear
  (try simp [hne]) <;> repeat' (first | intro _ | (split <;> try simp [hne]))

@[simp] theorem State.powerCalRun_other (s : State) (b : BayId) (p : Pu) (oc : BayId) (hne : b ≠ oc) :
    (s.powerCalRun b p).bays.get oc = s.bays.get oc := by
  unfold State.powerCalRun
  (try simp [hne]) <;> repeat' (first | intro _ | (split <;> (try (rename_i hp; replace hp := congrArg Prod.snd hp; dsimp only at hp; subst hp)) <;> try simp [hne]))

theorem execCalStepRun_other (b : BayId) (p : Pu) (item : Fin 13) (s : State) (t : State) (oc : BayId) (hne : b ≠ oc)
    (ht : execCalStepRun b p item s = .next t) : t.bays.get oc = s.bays.get oc := by
  unfold execCalStepRun at ht
  replace ht := (withBay_next ht).2
  subst ht
  rw [State.after_other _ b oc hne]
  (try simp [hne]) <;> repeat' (first | intro _ | (split <;> try simp [hne]))

theorem execCalGapForce_other (b : BayId) (p : Pu) (s : State) (t : State) (oc : BayId) (hne : b ≠ oc)
    (ht : execCalGapForce b p s = .next t) : t.bays.get oc = s.bays.get oc := by
  unfold execCalGapForce at ht
  replace ht := (withBay_next ht).2
  subst ht
  rw [State.after_other _ b oc hne]
  (try simp [hne]) <;> repeat' (first | intro _ | (split <;> try simp [hne]))

@[simp] theorem State.acceptElement_other (s : State) (b : BayId) (p : Pu) (item i : Nat) (r : List Int) (oc : BayId) (hne : b ≠ oc) :
    (s.acceptElement b p item i r).bays.get oc = s.bays.get oc := by
  unfold State.acceptElement
  (try simp [hne]) <;> repeat' (first | intro _ | (split <;> try simp [hne]))

@[simp] theorem State.acceptTwin_other (s : State) (b : BayId) (p : Pu) (sp : Nat) (r : List Int) (oc : BayId) (hne : b ≠ oc) :
    (s.acceptTwin b p sp r).bays.get oc = s.bays.get oc := by
  unfold State.acceptTwin
  (try simp [hne]) <;> repeat' (first | intro _ | (split <;> try simp [hne]))

@[simp] theorem State.calAccept_other (s : State) (b : BayId) (p : Pu) (item unit : Nat) (r : List Int) (oc : BayId) (hne : b ≠ oc) :
    (s.calAccept b p item unit r).bays.get oc = s.bays.get oc := by
  unfold State.calAccept
  (try simp [hne]) <;> repeat' (first | intro _ | (split <;> try simp [hne]))

@[simp] theorem State.calConclude_other (s : State) (b : BayId) (p : Pu) (oc : BayId) (hne : b ≠ oc) :
    (s.calConclude b p).bays.get oc = s.bays.get oc := by
  unfold State.calConclude
  (try simp [hne]) <;> repeat' (first | intro _ | (split <;> try simp [hne]))

theorem execSliceMarginSweep_other (b : BayId) (p : Pu) (l : PhysLane) (slice : Fin 4) (margin after : Nat) (s : State) (t : State) (oc : BayId) (hne : b ≠ oc)
    (ht : execSliceMarginSweep b p l slice margin after s = .next t) : t.bays.get oc = s.bays.get oc := by
  unfold execSliceMarginSweep at ht
  replace ht := (withBay_next ht).2
  subst ht
  rw [State.after_other _ b oc hne]
  (try simp [hne]) <;> repeat' (first | intro _ | (split <;> try simp [hne]))

theorem execCalRecordAppend_other (b : BayId) (u : UnitSel) (s : State) (t : State) (oc : BayId) (hne : b ≠ oc)
    (ht : execCalRecordAppend b u s = .next t) : t.bays.get oc = s.bays.get oc := by
  unfold execCalRecordAppend at ht
  replace ht := (withBay_next ht).2
  subst ht
  rw [State.after_other _ b oc hne]
  (try simp [hne]) <;> repeat' (first | intro _ | (split <;> try simp [hne]))

@[simp] theorem State.liftElements_other (s : State) (b : BayId) (p : Pu) (id : Nat) (sp : Nat) (oc : BayId) (hne : b ≠ oc) :
    (s.liftElements b p id sp).bays.get oc = s.bays.get oc := by
  unfold State.liftElements
  (try simp [hne]) <;> repeat' (first | intro _ | (split <;> try simp [hne]) | ((first | rw [State.foldl_other _ _ ?_] | rw [State.foldl2_other _ _ ?_] | rw [State.eachHamper_other _ _ ?_]) <;> intros <;> try simp [hne]))

theorem execHamperAutoMount_other (b : BayId) (s : State) (t : State) (oc : BayId) (hne : b ≠ oc)
    (ht : execHamperAutoMount b s = .next t) : t.bays.get oc = s.bays.get oc := by
  unfold execHamperAutoMount at ht
  replace ht := (withBay_next ht).2
  subst ht
  rw [State.after_other _ b oc hne]
  (try simp [hne]) <;> repeat' (first | intro _ | (split <;> try simp [hne]))

@[simp] theorem State.withdraw_other (s : State) (h : SlotId) (m : Member) (b : BayId) (p : Pu) (oc : BayId) (hne : b ≠ oc) :
    (s.withdraw h m b p).bays.get oc = s.bays.get oc := by
  unfold State.withdraw
  (try simp [hne]) <;> repeat' (first | intro _ | (split <;> try simp [hne]) | ((first | rw [State.foldl_other _ _ ?_] | rw [State.foldl2_other _ _ ?_] | rw [State.eachHamper_other _ _ ?_]) <;> intros <;> try simp [hne]))

theorem execMemberGraceExpire_other (b : BayId) (p : Pu) (s : State) (t : State) (oc : BayId) (hne : b ≠ oc)
    (ht : execMemberGraceExpire b p s = .next t) : t.bays.get oc = s.bays.get oc := by
  unfold execMemberGraceExpire at ht
  replace ht := (withBay_next ht).2
  subst ht
  rw [State.after_other _ b oc hne]
  (try simp [hne]) <;> repeat' (first | intro _ | (split <;> try simp [hne]) | ((first | rw [State.foldl_other _ _ ?_] | rw [State.foldl2_other _ _ ?_] | rw [State.eachHamper_other _ _ ?_]) <;> intros <;> try simp [hne]))

@[simp] theorem State.liftLane_other (s : State) (i : Inject) (b : BayId) (oc : BayId) (hne : b ≠ oc) :
    (s.liftLane i b).bays.get oc = s.bays.get oc := by
  unfold State.liftLane
  (try simp [hne]) <;> repeat' (first | intro _ | (split <;> try simp [hne]))

theorem execBayBringupStart_other (b : BayId) (s : State) (t : State) (oc : BayId) (hne : b ≠ oc)
    (ht : execBayBringupStart b s = .next t) : t.bays.get oc = s.bays.get oc := by
  unfold execBayBringupStart at ht
  replace ht := (withBay_next ht).2
  subst ht
  rw [State.after_other _ b oc hne]
  (try simp [hne]) <;> repeat' (first | intro _ | (split <;> try simp [hne]) | ((first | rw [State.foldl_other _ _ ?_] | rw [State.foldl2_other _ _ ?_] | rw [State.eachHamper_other _ _ ?_]) <;> intros <;> try simp [hne]))

@[simp] theorem State.spareTakeover_other (s : State) (b : BayId) (p : Pu) (bad : PhysLane) (oc : BayId) (hne : b ≠ oc) :
    (s.spareTakeover b p bad).bays.get oc = s.bays.get oc := by
  unfold State.spareTakeover
  (try simp [hne]) <;> repeat' (first | intro _ | (split <;> try simp [hne]))

@[simp] theorem State.identifyGo_other (s : State) (b : BayId) (p : Pu) (oc : BayId) (hne : b ≠ oc) :
    (s.identifyGo b p).bays.get oc = s.bays.get oc := by
  unfold State.identifyGo
  (try simp [hne]) <;> repeat' (first | intro _ | (split <;> try simp [hne]))

@[simp] theorem State.lateLane_other (s : State) (b : BayId) (p : Pu) (ph : PhysLane) (oc : BayId) (hne : b ≠ oc) :
    (s.lateLane b p ph).bays.get oc = s.bays.get oc := by
  unfold State.lateLane
  (try simp [hne]) <;> repeat' (first | intro _ | (split <;> try simp [hne]))

@[simp] theorem State.attemptFails_other (s : State) (b : BayId) (p : Pu) (oc : BayId) (hne : b ≠ oc) :
    (s.attemptFails b p).bays.get oc = s.bays.get oc := by
  unfold State.attemptFails
  (try simp [hne]) <;> repeat' (first | intro _ | (split <;> try simp [hne]))

@[simp] theorem State.freeSpareRx_other (s : State) (b : BayId) (p : Pu) (oc : BayId) (hne : b ≠ oc) :
    (s.freeSpareRx b p).bays.get oc = s.bays.get oc := by
  unfold State.freeSpareRx
  (try simp [hne]) <;> repeat' (first | intro _ | (split <;> try simp [hne]))

@[simp] theorem State.startWithSpare_other (s : State) (b : BayId) (p : Pu) (late : PhysLane) (oc : BayId) (hne : b ≠ oc) :
    (s.startWithSpare b p late).bays.get oc = s.bays.get oc := by
  unfold State.startWithSpare
  (try simp [hne]) <;> repeat' (first | intro _ | (split <;> try simp [hne]))

@[simp] theorem State.takeStandby_other (s : State) (b : BayId) (p : Pu) (oc : BayId) (hne : b ≠ oc) :
    (s.takeStandby b p).bays.get oc = s.bays.get oc := by
  unfold State.takeStandby
  (try simp [hne]) <;> repeat' (first | intro _ | (split <;> try simp [hne]))

theorem execHlinkReplyFrame_other (b : BayId) (p : Pu) (l : PhysLane) (raw : Bytes) (s : State) (t : State) (oc : BayId) (hne : b ≠ oc)
    (ht : execHlinkReplyFrame b p l raw s = .next t) : t.bays.get oc = s.bays.get oc := by
  unfold execHlinkReplyFrame at ht
  replace ht := (withBay_next ht).2
  subst ht
  rw [State.after_other _ b oc hne]
  (try simp [hne]) <;> repeat' (first | intro _ | (split <;> try simp [hne]) | ((first | rw [State.foldl_other _ _ ?_] | rw [State.foldl2_other _ _ ?_] | rw [State.eachHamper_other _ _ ?_]) <;> intros <;> try simp [hne]))

@[simp] theorem State.takeSpareRx_other (s : State) (b : BayId) (p : Pu) (l : PhysLane) (oc : BayId) (hne : b ≠ oc) :
    (s.takeSpareRx b p l).bays.get oc = s.bays.get oc := by
  unfold State.takeSpareRx
  (try simp [hne]) <;> repeat' (first | intro _ | (split <;> try simp [hne]))

theorem execHlinkTrainTimeout_other (b : BayId) (p : Pu) (s : State) (t : State) (oc : BayId) (hne : b ≠ oc)
    (ht : execHlinkTrainTimeout b p s = .next t) : t.bays.get oc = s.bays.get oc := by
  unfold execHlinkTrainTimeout at ht
  replace ht := (withBay_next ht).2
  subst ht
  rw [State.after_other _ b oc hne]
  (try simp [hne]) <;> repeat' (first | intro _ | (split <;> try simp [hne]))

theorem execHlinkTrainRetry_other (b : BayId) (p : Pu) (s : State) (t : State) (oc : BayId) (hne : b ≠ oc)
    (ht : execHlinkTrainRetry b p s = .next t) : t.bays.get oc = s.bays.get oc := by
  unfold execHlinkTrainRetry at ht
  replace ht := (withBay_next ht).2
  subst ht
  rw [State.after_other _ b oc hne]
  (try simp [hne]) <;> repeat' (first | intro _ | (split <;> try simp [hne]))

@[simp] theorem State.mapBack_other (s : State) (b : BayId) (p : Pu) (m : PhysLane × PhysLane) (oc : BayId) (hne : b ≠ oc) :
    (s.mapBack b p m).bays.get oc = s.bays.get oc := by
  unfold State.mapBack
  (try simp [hne]) <;> repeat' (first | intro _ | (split <;> try simp [hne]))

theorem execSpareTrainDone_other (b : BayId) (p : Pu) (ok : Bool) (s : State) (t : State) (oc : BayId) (hne : b ≠ oc)
    (ht : execSpareTrainDone b p ok s = .next t) : t.bays.get oc = s.bays.get oc := by
  unfold execSpareTrainDone at ht
  replace ht := (withBay_next ht).2
  subst ht
  rw [State.after_other _ b oc hne]
  (try simp [hne]) <;> repeat' (first | intro _ | (split <;> try simp [hne]))

theorem execLaneTrainResult_other (b : BayId) (p : Pu) (l : PhysLane) (ok : Bool) (s : State) (t : State) (oc : BayId) (hne : b ≠ oc)
    (ht : execLaneTrainResult b p l ok s = .next t) : t.bays.get oc = s.bays.get oc := by
  unfold execLaneTrainResult at ht
  replace ht := (withBay_next ht).2
  subst ht
  rw [State.after_other _ b oc hne]
  (try simp [hne]) <;> repeat' (first | intro _ | (split <;> try simp [hne]))

theorem execLaneMapBack_other (b : BayId) (p : Pu) (s : State) (t : State) (oc : BayId) (hne : b ≠ oc)
    (ht : execLaneMapBack b p s = .next t) : t.bays.get oc = s.bays.get oc := by
  unfold execLaneMapBack at ht
  replace ht := (withBay_next ht).2
  subst ht
  rw [State.after_other _ b oc hne]
  (try simp [hne]) <;> repeat' (first | intro _ | (split <;> try simp [hne]))

theorem execSpareStandbyApply_other (b : BayId) (s : State) (t : State) (oc : BayId) (hne : b ≠ oc)
    (ht : execSpareStandbyApply b s = .next t) : t.bays.get oc = s.bays.get oc := by
  unfold execSpareStandbyApply at ht
  replace ht := (withBay_next ht).2
  subst ht
  rw [State.after_other _ b oc hne]
  (try simp [hne]) <;> repeat' (first | intro _ | (split <;> try simp [hne]))

theorem execLmonTrip_other (b : BayId) (s : State) (t : State) (oc : BayId) (hne : b ≠ oc)
    (ht : execLmonTrip b s = .next t) : t.bays.get oc = s.bays.get oc := by
  unfold execLmonTrip at ht
  replace ht := (withBay_next ht).2
  subst ht
  rw [State.after_other _ b oc hne]
  (try simp [hne]) <;> repeat' (first | intro _ | (split <;> try simp [hne]))

theorem execSpdfToggle_other (b : BayId) (afterUs : Nat) (s : State) (t : State) (oc : BayId) (hne : b ≠ oc)
    (ht : execSpdfToggle b afterUs s = .next t) : t.bays.get oc = s.bays.get oc := by
  unfold execSpdfToggle at ht
  replace ht := (withBay_next ht).2
  subst ht
  rw [State.after_other _ b oc hne]
  split
  · rfl
  · dsimp only
    split <;> simp [hne]

theorem execSpeedReport_other (b : BayId) (s : State) (t : State) (oc : BayId) (hne : b ≠ oc)
    (ht : execSpeedReport b s = .next t) : t.bays.get oc = s.bays.get oc := by
  unfold execSpeedReport at ht
  replace ht := (withBay_next ht).2
  subst ht
  rw [State.after_other _ b oc hne]
  (try simp [hne]) <;> repeat' (first | intro _ | (split <;> try simp [hne]))

theorem execPlausibilityTrip_other (b : BayId) (s : State) (t : State) (oc : BayId) (hne : b ≠ oc)
    (ht : execPlausibilityTrip b s = .next t) : t.bays.get oc = s.bays.get oc := by
  unfold execPlausibilityTrip at ht
  replace ht := (withBay_next ht).2
  subst ht
  rw [State.after_other _ b oc hne]
  (try simp [hne]) <;> repeat' (first | intro _ | (split <;> try simp [hne]))

theorem execGateForce_other (b : BayId) (p : Pu) (s : State) (t : State) (oc : BayId) (hne : b ≠ oc)
    (ht : execGateForce b p s = .next t) : t.bays.get oc = s.bays.get oc := by
  unfold execGateForce at ht
  replace ht := (withBay_next ht).2
  subst ht
  rw [State.after_other _ b oc hne]
  (try simp [hne]) <;> repeat' (first | intro _ | (split <;> try simp [hne]))

theorem execBayHoldReceipt_other (b : BayId) (s : State) (t : State) (oc : BayId) (hne : b ≠ oc)
    (ht : execBayHoldReceipt b s = .next t) : t.bays.get oc = s.bays.get oc := by
  unfold execBayHoldReceipt at ht
  replace ht := (withBay_next ht).2
  subst ht
  rw [State.after_other _ b oc hne]
  (try simp [hne]) <;> repeat' (first | intro _ | (split <;> try simp [hne]))

theorem execPermitRequest_other (b : BayId) (lsafe : Bool) (ilkHighMs lmonHighMs : Nat) (s : State) (t : State) (oc : BayId) (hne : b ≠ oc)
    (ht : execPermitRequest b lsafe ilkHighMs lmonHighMs s = .next t) : t.bays.get oc = s.bays.get oc := by
  unfold execPermitRequest at ht
  replace ht := (withBay_next ht).2
  subst ht
  rw [State.after_other _ b oc hne]
  (try simp [hne]) <;> repeat' (first | intro _ | (split <;> try simp [hne]))

theorem execKeeperDrop_other (b : BayId) (lsafe : Bool) (s : State) (t : State) (oc : BayId) (hne : b ≠ oc)
    (ht : execKeeperDrop b lsafe s = .next t) : t.bays.get oc = s.bays.get oc := by
  unfold execKeeperDrop at ht
  replace ht := (withBay_next ht).2
  subst ht
  rw [State.after_other _ b oc hne]
  (try simp [hne]) <;> repeat' (first | intro _ | (split <;> try simp [hne]))

theorem execOutputReadback_other (b : BayId) (lsafe pinHigh : Bool) (s : State) (t : State) (oc : BayId) (hne : b ≠ oc)
    (ht : execOutputReadback b lsafe pinHigh s = .next t) : t.bays.get oc = s.bays.get oc := by
  unfold execOutputReadback at ht
  replace ht := (withBay_next ht).2
  subst ht
  rw [State.after_other _ b oc hne]
  (try simp [hne]) <;> repeat' (first | intro _ | (split <;> try simp [hne]))

theorem execLmonMismatch_other (b : BayId) (s : State) (t : State) (oc : BayId) (hne : b ≠ oc)
    (ht : execLmonMismatch b s = .next t) : t.bays.get oc = s.bays.get oc := by
  unfold execLmonMismatch at ht
  replace ht := (withBay_next ht).2
  subst ht
  rw [State.after_other _ b oc hne]
  (try simp [hne]) <;> repeat' (first | intro _ | (split <;> try simp [hne]))

end Sys2Proof.Machine
end

