-- ==== Sys2Proof/Laws/SafetyInv.lean ====
section
/-! SUPPORT. The island's outputs obey its trips: every operation on the island keeps `Island.outputsOk`. -/

namespace Sys2Proof.Machine

theorem Island.getD_set (l : List BaySafe) (i k : Nat) (v : BaySafe) :
    (l.set i v).getD k .reset = if k = i ∧ i < l.length then v else l.getD k .reset := by
  simp only [List.getD_eq_getElem?_getD, List.getElem?_set]
  by_cases h : i = k
  · subst h
    by_cases hl : i < l.length
    · simp [hl]
    · simp [hl]
  · rw [if_neg h, if_neg (fun e => h e.1.symm)]

theorem BaySafe.okIn_low {x : BaySafe} (d : Bool) (hl : x.lsafe = false) (hs : x.ssafe = false) : x.okIn d :=
  ⟨fun _ => hl, fun _ => hs⟩

theorem BaySafe.okIn_reset (d : Bool) : BaySafe.reset.okIn d := BaySafe.okIn_low d rfl rfl

theorem BaySafe.okIn_mono {x : BaySafe} {d e : Bool} (h : x.okIn d) (hd : e = true → d = true) : x.okIn e := by
  unfold BaySafe.okIn at h ⊢
  cases e <;> cases d <;> simp_all

/-- Every bay but one obeys its trips. -/
def Island.okBut (j : Nat) (i : Island) : Prop :=
  i.bays.length = 32 ∧ ∀ k : Nat, k ≠ j → (i.bays.getD k .reset).okIn i.dead

theorem Island.okBut_of_ok {i : Island} (j : Nat) (h : i.outputsOk) : i.okBut j := ⟨h.1, fun k _ => h.2 k⟩

theorem Island.ok_of_okBut {i : Island} (j : Nat) (h : i.okBut j) (hj : (i.bays.getD j .reset).okIn i.dead) : i.outputsOk :=
  ⟨h.1, fun k => by
    by_cases hk : k = j
    · rw [hk]; exact hj
    · exact h.2 k hk⟩

theorem State.updSafe_okBut {s : State} (b : BayId) (f : BaySafe → BaySafe) (h : s.isl.okBut b.val) :
    (s.updSafe b f).isl.okBut b.val := by
  refine ⟨by simp [State.updSafe, h.1], fun k hk => ?_⟩
  show ((s.isl.bays.set b.val (f (s.safeBay b))).getD k .reset).okIn s.isl.dead
  rw [Island.getD_set, if_neg (fun e => hk e.1)]
  exact h.2 k hk

theorem State.updSafe_safeBay {s : State} (b : BayId) (f : BaySafe → BaySafe) (h : s.isl.bays.length = 32) :
    (s.updSafe b f).safeBay b = f (s.safeBay b) := by
  show (s.isl.bays.set b.val (f (s.safeBay b))).getD b.val .reset = _
  rw [Island.getD_set, if_pos ⟨rfl, by have := b.isLt; omega⟩]

theorem State.updSafe_ok {s : State} (b : BayId) (f : BaySafe → BaySafe) (h : s.isl.okBut b.val)
    (hf : (f (s.safeBay b)).okIn s.isl.dead) : (s.updSafe b f).isl.outputsOk := by
  refine Island.ok_of_okBut b.val (State.updSafe_okBut b f h) ?_
  have := State.updSafe_safeBay b f h.1
  unfold State.safeBay at this
  rw [this]; exact hf

theorem State.emit_isl (s : State) (o : Output) : (s.emit o).isl = s.isl := rfl

theorem State.emit_keeps_safeBay (s : State) (o : Output) (b : BayId) : (s.emit o).safeBay b = s.safeBay b := rfl

theorem State.dropL_okBut {s : State} (b : BayId) (h : s.isl.okBut b.val) : (s.dropL b).isl.okBut b.val := by
  unfold State.dropL; split
  · rw [State.emit_isl]; exact State.updSafe_okBut b _ h
  · exact h

theorem State.dropL_low {s : State} (b : BayId) (h : s.isl.bays.length = 32) : ((s.dropL b).safeBay b).lsafe = false := by
  unfold State.dropL; split
  · rw [State.emit_keeps_safeBay, State.updSafe_safeBay b _ h]
  · rename_i hc; simpa using hc

/-- What `dropL` leaves of the bay: all but its laser output. -/
theorem State.dropL_rest {s : State} (b : BayId) (h : s.isl.bays.length = 32) :
    (s.dropL b).safeBay b = { (s.safeBay b) with lsafe := false } := by
  unfold State.dropL; split
  · rw [State.emit_keeps_safeBay, State.updSafe_safeBay b _ h]
  · rename_i hc
    have : (s.safeBay b).lsafe = false := by simpa using hc
    rw [← this]

theorem State.dropS_rest {s : State} (b : BayId) (h : s.isl.bays.length = 32) :
    (s.dropS b).safeBay b = { (s.safeBay b) with ssafe := false } := by
  unfold State.dropS; split
  · rw [State.emit_keeps_safeBay, State.updSafe_safeBay b _ h]
  · rename_i hc
    have : (s.safeBay b).ssafe = false := by simpa using hc
    rw [← this]

theorem State.dropL_dead (s : State) (b : BayId) : (s.dropL b).isl.dead = s.isl.dead := by
  unfold State.dropL; split <;> rfl

theorem State.dropS_dead (s : State) (b : BayId) : (s.dropS b).isl.dead = s.isl.dead := by
  unfold State.dropS; split <;> rfl

theorem State.dropS_okBut {s : State} (b : BayId) (h : s.isl.okBut b.val) : (s.dropS b).isl.okBut b.val := by
  unfold State.dropS; split
  · rw [State.emit_isl]; exact State.updSafe_okBut b _ h
  · exact h

/-- A bay whose two outputs go low obeys whatever trips it has. -/
theorem State.dropBay_ok {s : State} (b : BayId) (h : s.isl.okBut b.val) : (s.dropBay b).isl.outputsOk := by
  have hL := State.dropL_okBut b h
  have hS := State.dropS_okBut b hL
  refine Island.ok_of_okBut b.val hS ?_
  have h1 := State.dropL_rest b h.1
  have h2 := State.dropS_rest b hL.1
  unfold State.safeBay at h1 h2
  show (((s.dropL b).dropS b).isl.bays.getD b.val .reset).okIn _
  rw [h2]
  refine BaySafe.okIn_low _ ?_ rfl
  show ((s.dropL b).isl.bays.getD b.val .reset).lsafe = false
  rw [h1]

/-- The laser output goes low on a trip that leaves the spindle's causes alone. -/
theorem State.tripL_ok {s : State} (b : BayId) (f : BaySafe → BaySafe) (h : s.isl.outputsOk)
    (h1 : ∀ x, (f x).ssafe = x.ssafe) (h2 : ∀ x, (f x).overTrip = x.overTrip) (h3 : ∀ x, (f x).plausTrip = x.plausTrip)
    (h4 : ∀ x, (f x).hold = x.hold) : ((s.updSafe b f).dropL b).isl.outputsOk := by
  have hb := State.updSafe_okBut b f (Island.okBut_of_ok b.val h)
  refine Island.ok_of_okBut b.val (State.dropL_okBut b hb) ?_
  have hr := State.dropL_rest b hb.1
  rw [State.updSafe_safeBay b f h.1] at hr
  unfold State.safeBay at hr
  have hdead : (s.updSafe b f).isl.dead = s.isl.dead := rfl
  rw [hr, State.dropL_dead, hdead]
  have hk := (h.2 b.val).2
  refine ⟨fun _ => rfl, fun hd => ?_⟩
  show (f _).ssafe = false
  rw [h1]
  refine hk ?_
  simpa [h2, h3, h4] using hd

theorem State.dropL_ok {s : State} (b : BayId) (h : s.isl.outputsOk) : (s.dropL b).isl.outputsOk := by
  refine Island.ok_of_okBut b.val (State.dropL_okBut b (Island.okBut_of_ok b.val h)) ?_
  have hr := State.dropL_rest b h.1
  unfold State.safeBay at hr
  rw [hr, State.dropL_dead]
  exact ⟨fun _ => rfl, (h.2 b.val).2⟩

theorem State.dropS_ok {s : State} (b : BayId) (h : s.isl.outputsOk) : (s.dropS b).isl.outputsOk := by
  refine Island.ok_of_okBut b.val (State.dropS_okBut b (Island.okBut_of_ok b.val h)) ?_
  have hr := State.dropS_rest b h.1
  unfold State.safeBay at hr
  rw [hr, State.dropS_dead]
  exact ⟨(h.2 b.val).1, fun _ => rfl⟩

theorem State.foldl_ok {α : Type} (f : State → α → State) (hf : ∀ s a, s.isl.outputsOk → (f s a).isl.outputsOk) (l : List α)
    (s : State) (h : s.isl.outputsOk) : (l.foldl f s).isl.outputsOk := by
  induction l generalizing s with
  | nil => exact h
  | cons a l ih => exact ih (f s a) (hf s a h)

theorem State.dropBay_length (s : State) (b : BayId) : (s.dropBay b).isl.bays.length = s.isl.bays.length := by
  unfold State.dropBay State.dropL State.dropS
  repeat' (first | rfl | (split <;> try simp [State.updSafe, State.emit]))

/-- Bays dropped stay low. -/
theorem State.dropBays_low (l : List BayId) (s : State) (h : s.isl.bays.length = 32) (k : Nat)
    (hk : k ∈ l.map (fun b => b.val) ∨ ((s.isl.bays.getD k .reset).lsafe = false ∧ (s.isl.bays.getD k .reset).ssafe = false)) :
    let t := l.foldl State.dropBay s
    (t.isl.bays.getD k .reset).lsafe = false ∧ (t.isl.bays.getD k .reset).ssafe = false := by
  induction l generalizing s with
  | nil => simpa using hk
  | cons b l ih =>
    have hlen : (s.dropBay b).isl.bays.length = 32 := by rw [State.dropBay_length]; exact h
    refine ih (s.dropBay b) hlen ?_
    have hL : ∀ x : State, x.isl.bays.length = 32 → ∀ j, j ≠ b.val → (x.dropL b).isl.bays.getD j .reset = x.isl.bays.getD j .reset := by
      intro x _ j hj; unfold State.dropL; split
      · rw [State.emit_isl]; unfold State.updSafe; dsimp only
        rw [Island.getD_set, if_neg (fun e => hj e.1)]
      · rfl
    have hS : ∀ x : State, x.isl.bays.length = 32 → ∀ j, j ≠ b.val → (x.dropS b).isl.bays.getD j .reset = x.isl.bays.getD j .reset := by
      intro x _ j hj; unfold State.dropS; split
      · rw [State.emit_isl]; unfold State.updSafe; dsimp only
        rw [Island.getD_set, if_neg (fun e => hj e.1)]
      · rfl
    have hl1 : (s.dropL b).isl.bays.length = 32 := by
      unfold State.dropL; split
      · simp [State.updSafe, State.emit, h]
      · exact h
    by_cases hb : k = b.val
    · right
      have h1 := State.dropL_rest b h
      have h2 := State.dropS_rest b hl1
      unfold State.safeBay at h1 h2
      subst hb
      show (((s.dropL b).dropS b).isl.bays.getD b.val .reset).lsafe = false ∧ (((s.dropL b).dropS b).isl.bays.getD b.val .reset).ssafe = false
      rw [h2, h1]; exact ⟨rfl, rfl⟩
    · cases hk with
      | inl hm =>
        rw [List.map_cons, List.mem_cons] at hm
        exact Or.inl (hm.resolve_left hb)
      | inr hm =>
        right
        show (((s.dropL b).dropS b).isl.bays.getD k .reset).lsafe = false ∧ (((s.dropL b).dropS b).isl.bays.getD k .reset).ssafe = false
        rw [hS _ hl1 k hb, hL s h k hb]; exact hm

theorem allBays_vals : allBays.map (fun b => b.val) = List.range 32 := by decide

theorem State.foldDrop_length (l : List BayId) (s : State) : (l.foldl State.dropBay s).isl.bays.length = s.isl.bays.length := by
  induction l generalizing s with
  | nil => rfl
  | cons b l ih => rw [List.foldl_cons, ih, State.dropBay_length]

/-- With every output low the trips are obeyed, whatever they are and whatever the island's condition. -/
theorem State.dropAll_any {s : State} (h : s.isl.bays.length = 32) {j : Island} (hj : j.bays = s.dropAll.isl.bays) : j.outputsOk := by
  refine ⟨by rw [hj]; unfold State.dropAll; rw [State.foldDrop_length]; exact h, fun k => ?_⟩
  have hlow : (s.dropAll.isl.bays.getD k .reset).lsafe = false ∧ (s.dropAll.isl.bays.getD k .reset).ssafe = false := by
    unfold State.dropAll
    refine State.dropBays_low allBays s h k ?_
    by_cases hk : k < 32
    · left; rw [allBays_vals]; exact List.mem_range.mpr hk
    · right
      have : s.isl.bays.getD k .reset = .reset := by
        rw [List.getD_eq_getElem?_getD, List.getElem?_eq_none (by omega)]; rfl
      rw [this]; exact ⟨rfl, rfl⟩
  rw [hj]
  exact BaySafe.okIn_low _ hlow.1 hlow.2

theorem State.dropAll_ok {s : State} (h : s.isl.bays.length = 32) : s.dropAll.isl.outputsOk := State.dropAll_any h rfl

/-- A change of a bay's safety state that raises no output and clears no trip. -/
theorem State.updSafe_map {s : State} (b : BayId) (f : BaySafe → BaySafe) (h : s.isl.outputsOk)
    (hf : ∀ (x : BaySafe) (d : Bool), x.okIn d → (f x).okIn d) : (s.updSafe b f).isl.outputsOk :=
  State.updSafe_ok b f (Island.okBut_of_ok b.val h) (hf _ _ (h.2 b.val))

theorem State.countTrip_ok {s : State} (b : BayId) (h : s.isl.outputsOk) (hl : (s.safeBay b).lsafe = false) :
    (s.countTrip b).isl.outputsOk := by
  unfold State.countTrip
  dsimp only
  have hk := (h.2 b.val).2
  have h1 : ∀ (ts : List Nat) (l : Bool), (s.updSafe b (fun x => { x with trips := ts, latched := l })).isl.outputsOk := fun ts l =>
    State.updSafe_ok b _ (Island.okBut_of_ok b.val h) ⟨fun _ => hl, hk⟩
  have h2 : ∀ (ts : List Nat), (s.updSafe b (fun x => { x with trips := ts })).isl.outputsOk := fun ts =>
    State.updSafe_ok b _ (Island.okBut_of_ok b.val h) ⟨fun _ => hl, hk⟩
  split
  · simp only [State.raiseSafe_frame]
    have h3 := h2 (s.us :: (s.safeBay b).trips.filter (fun t => s.us < t + 3600000000))
    refine State.updSafe_ok b _ (Island.okBut_of_ok b.val h3) ?_
    rw [State.updSafe_safeBay b _ h.1]
    exact ⟨fun _ => hl, hk⟩
  · exact h2 _

/-- A trip that the laser output follows, with its event, counted. -/
theorem State.tripCount_ok {s : State} (b : BayId) (f : BaySafe → BaySafe) (r : State → State) (h : s.isl.outputsOk)
    (hr : ∀ x : State, (r x).isl = x.isl)
    (h1 : ∀ x, (f x).ssafe = x.ssafe) (h2 : ∀ x, (f x).overTrip = x.overTrip) (h3 : ∀ x, (f x).plausTrip = x.plausTrip)
    (h4 : ∀ x, (f x).hold = x.hold) : ((r ((s.updSafe b f).dropL b)).countTrip b).isl.outputsOk := by
  have ht := State.tripL_ok b f h h1 h2 h3 h4
  have hlen : (s.updSafe b f).isl.bays.length = 32 := by simp [State.updSafe, h.1]
  refine State.countTrip_ok b (by rw [hr]; exact ht) ?_
  unfold State.safeBay
  rw [hr]
  exact State.dropL_low b hlen

theorem State.lmonTripBay_ok {s : State} (b : BayId) (h : s.isl.outputsOk) : (s.lmonTripBay b).isl.outputsOk := by
  unfold State.lmonTripBay
  exact State.tripCount_ok b _ (fun x => x.raiseSafe b .safetyLmonTrip 0) h (fun x => by simp) (fun _ => rfl) (fun _ => rfl)
    (fun _ => rfl) (fun _ => rfl)

@[simp] theorem State.dropAll_safe {s : State} (h : s.isl.outputsOk) : s.dropAll.isl.outputsOk := State.dropAll_ok h.1

@[simp] theorem State.dropL_safe {s : State} (b : BayId) (h : s.isl.outputsOk) : (s.dropL b).isl.outputsOk := State.dropL_ok b h

@[simp] theorem State.dropS_safe {s : State} (b : BayId) (h : s.isl.outputsOk) : (s.dropS b).isl.outputsOk := State.dropS_ok b h

@[simp] theorem State.lmonTripBay_safe {s : State} (b : BayId) (h : s.isl.outputsOk) : (s.lmonTripBay b).isl.outputsOk :=
  State.lmonTripBay_ok b h

@[simp] theorem State.islandFail_safe {s : State} (e : Ev) (h : s.isl.outputsOk) : (s.islandFail e).isl.outputsOk := by
  unfold State.islandFail
  simp only [State.raise_frame]
  exact State.dropAll_ok h.1

theorem BaySafe.okIn_unheld {x : BaySafe} {d : Bool} (h : x.okIn d) : ({ x with hold := false } : BaySafe).okIn d := by
  obtain ⟨h1, h2⟩ := h
  refine ⟨fun hc => h1 ?_, fun hc => h2 ?_⟩
  · cases x.hold <;> simp_all
  · cases x.hold <;> simp_all

theorem Island.unhold_ok {i : Island} (h : i.outputsOk) :
    ({ i with hbRun := false, bays := i.bays.map (fun x => { x with hold := false }) } : Island).outputsOk := by
  refine ⟨by simp [h.1], fun k => ?_⟩
  have hk := h.2 k
  have hd : ({ i with hbRun := false, bays := i.bays.map (fun x => { x with hold := false }) } : Island).dead = i.dead := rfl
  rw [hd]
  simp only [List.getD_eq_getElem?_getD, List.getElem?_map] at hk ⊢
  cases hx : i.bays[k]? with
  | none => exact BaySafe.okIn_reset _
  | some x =>
    rw [hx] at hk
    exact BaySafe.okIn_unheld hk

theorem State.islandSystemReset_isl (s : State) : s.islandSystemReset.isl =
    { s.dropAll.isl with hbRun := false, bays := s.dropAll.isl.bays.map (fun x => { x with hold := false }) } := by
  unfold State.islandSystemReset; rfl

@[simp] theorem State.islandSystemReset_safe {s : State} (h : s.isl.outputsOk) : s.islandSystemReset.isl.outputsOk := by
  rw [State.islandSystemReset_isl]
  exact Island.unhold_ok (State.dropAll_ok h.1)

theorem BaySafe.okIn_raiseS {x : BaySafe} (h : x.okIn false) (hh : x.hold = false) (n : Option Nat) (r : Nat) :
    ({ x with ssafe := true, overTrip := false, plausTrip := false, failSince := n, repAt := r } : BaySafe).okIn false := by
  obtain ⟨h1, h2⟩ := h
  refine ⟨fun hc => h1 ?_, fun hc => ?_⟩
  · cases x.overTrip <;> cases x.plausTrip <;> first | (simp; done) | simpa using hc
  · simp [hh] at hc

theorem BaySafe.okIn_raiseL {x : BaySafe} (h : x.okIn false) (hh : x.hold = false) (ho : x.overTrip = false)
    (hs : x.ssafe = true) (hl : x.latched = false) :
    ({ x with lsafe := true, lmonTrip := false, gateTrip := false, lmonLow := false } : BaySafe).okIn false := by
  obtain ⟨h1, h2⟩ := h
  refine ⟨fun hc => ?_, h2⟩
  have : x.plausTrip = true := by simpa [ho, hh, hl] using hc
  rw [h2 (by simp [this])] at hs
  contradiction

/-- The spindle permit rises on a live island for a bay that is not held, with its trips cleared. -/
theorem State.raiseS_ok {s : State} (b : BayId) (h : s.isl.outputsOk) (hd : s.isl.dead = false)
    (hh : (s.safeBay b).hold = false) :
    (s.updSafe b (fun x =>
      { x with ssafe := true, overTrip := false, plausTrip := false, failSince := none, repAt := s.us })).isl.outputsOk := by
  refine State.updSafe_ok b _ (Island.okBut_of_ok b.val h) ?_
  rw [hd]
  exact BaySafe.okIn_raiseS (hd ▸ h.2 b.val) hh _ _

/-- The laser permit rises on a live island for a bay with its spindle permit, neither held nor latched, its trips cleared. -/
theorem State.raiseL_ok {s : State} (b : BayId) (h : s.isl.outputsOk) (hd : s.isl.dead = false)
    (hh : (s.safeBay b).hold = false) (ho : (s.safeBay b).overTrip = false) (hs : (s.safeBay b).ssafe = true)
    (hl : (s.safeBay b).latched = false) :
    (s.updSafe b (fun x => { x with lsafe := true, lmonTrip := false, gateTrip := false, lmonLow := false })).isl.outputsOk := by
  refine State.updSafe_ok b _ (Island.okBut_of_ok b.val h) ?_
  rw [hd]
  exact BaySafe.okIn_raiseL (hd ▸ h.2 b.val) hh ho hs hl

theorem State.permitCommon_live {s : State} {b : BayId} {ms : Nat} (h : s.permitCommon b ms = true) :
    s.isl.dead = false ∧ (s.safeBay b).hold = false := by
  simp only [State.permitCommon, State.islandUp, Bool.and_eq_true, Bool.not_eq_true'] at h
  unfold Island.dead
  simp_all

@[simp] theorem State.requestS_safe {s : State} (b : BayId) (ms : Nat) (h : s.isl.outputsOk) : (s.requestS b ms).isl.outputsOk := by
  unfold State.requestS
  dsimp only
  by_cases hp : s.permitCommon b ms = true
  · have hl := State.permitCommon_live hp
    have hu := State.raiseS_ok b h hl.1 hl.2
    rw [hp]
    repeat' (split <;> try first | exact h | exact hu | (rw [State.emit_isl]; exact hu))
  · simp only [hp, Bool.false_and]
    exact h

@[simp] theorem State.requestL_safe {s : State} (b : BayId) (ms lm : Nat) (h : s.isl.outputsOk) :
    (s.requestL b ms lm).isl.outputsOk := by
  have key : s.permitCommon b ms = true → (s.safeBay b).overTrip = false → (s.safeBay b).ssafe = true →
      (s.safeBay b).latched = false → (s.updSafe b (fun x =>
        { x with lsafe := true, lmonTrip := false, gateTrip := false, lmonLow := false })).isl.outputsOk := fun hp ho hs hx =>
    State.raiseL_ok b h (State.permitCommon_live hp).1 (State.permitCommon_live hp).2 ho hs hx
  unfold State.requestL
  dsimp only
  have done : ∀ c : Bool, (if (s.permitCommon b ms && decide (s.safe .safetyRearmMs ≤ lm) && c && !(s.safeBay b).overTrip
      && (s.safeBay b).ssafe && !(s.safeBay b).latched) = true then
        (if (s.safeBay b).lsafe = true then s.updSafe b (fun x =>
          { x with lsafe := true, lmonTrip := false, gateTrip := false, lmonLow := false })
         else (s.updSafe b (fun x =>
          { x with lsafe := true, lmonTrip := false, gateTrip := false, lmonLow := false })).emit (.pin (bayPin b "LSAFE_N") true))
      else s).isl.outputsOk := by
    intro c
    split
    · rename_i hc
      simp only [Bool.and_eq_true, Bool.not_eq_true'] at hc
      have hu := key hc.1.1.1.1.1 hc.1.1.2 hc.1.2 hc.2
      split
      · exact hu
      · rw [State.emit_isl]; exact hu
    · exact h
  exact done _

/-- The safety functions' other fields do not touch an output. -/
theorem Island.outputsOk_congr {i j : Island} (hb : j.bays = i.bays) (hd : j.dead = true → i.dead = true) (h : i.outputsOk) :
    j.outputsOk := by
  refine ⟨by rw [hb]; exact h.1, fun k => ?_⟩
  rw [hb]; exact BaySafe.okIn_mono (h.2 k) hd

theorem Island.reset_ok : Island.reset.outputsOk := by
  refine ⟨rfl, fun k => ?_⟩
  have : Island.reset.bays.getD k .reset = .reset := by
    simp only [Island.reset, List.getD_eq_getElem?_getD]
    by_cases hk : k < 32
    · rw [List.getElem?_replicate, if_pos hk]; rfl
    · rw [List.getElem?_eq_none (by simpa using hk)]; rfl
  rw [this]; exact BaySafe.okIn_reset _

@[simp] theorem State.systemReset_safe {s : State} (h : s.isl.outputsOk) : s.systemReset.isl.outputsOk := by
  have hi : s.systemReset.isl = s.islandSystemReset.isl := by unfold State.systemReset; rfl
  rw [hi]
  exact State.islandSystemReset_safe h

end Sys2Proof.Machine
end

