-- ==== Sys2Proof/Laws/SafetyRows.lean ====
section
/-! SUPPORT. Every operation and every command that writes the island keeps its outputs obedient to its trips. -/

namespace Sys2Proof.Machine

@[simp] theorem State.watchBays_safe (s : State) (h : s.isl.outputsOk) :
    (s.watchBays).isl.outputsOk := by
  unfold State.watchBays
  refine ⟨by simp [h.1], fun k => ?_⟩
  have hk := h.2 k
  show ((s.isl.bays.mapIdx _).getD k BaySafe.reset).okIn s.isl.dead
  rw [List.getD_eq_getElem?_getD, List.getElem?_mapIdx]
  rw [List.getD_eq_getElem?_getD] at hk
  cases hx : s.isl.bays[k]? with
  | none => simpa [hx] using hk
  | some x =>
    rw [hx] at hk
    show (if h : k < 32 then x.watch (s.bay ⟨k, h⟩) s.us else x).okIn s.isl.dead
    split
    · exact hk
    · exact hk

@[simp] theorem State.chipFatal_safe (s : State) (cause : FatalCause) (kind inst : Nat) (h : s.isl.outputsOk) :
    (s.chipFatal cause kind inst).isl.outputsOk := by
  unfold State.chipFatal
  (try simp [h]) <;> repeat' (first | intro _ | (split <;> try simp [h]))

@[simp] theorem State.assertSystem_safe (s : State) (bit : Nat) (h : s.isl.outputsOk) :
    (s.assertSystem bit).isl.outputsOk := by
  unfold State.assertSystem
  (try simp [h]) <;> repeat' (first | intro _ | (split <;> try simp [h]))

@[simp] theorem State.assertPower_safe (s : State) (h : s.isl.outputsOk) :
    (s.assertPower).isl.outputsOk := by
  unfold State.assertPower
  exact Island.reset_ok

@[simp] theorem State.islandStart_safe (s : State) (h : s.isl.outputsOk) :
    (s.islandStart).isl.outputsOk := by
  unfold State.islandStart
  have hc : ∀ v : Cfg, ({ s.isl with vals := v } : Island).outputsOk := fun v => Island.outputsOk_congr rfl (fun x => x) h
  dsimp only
  split
  · exact hc _
  · simp only [State.raise_frame]; exact hc _

@[simp] theorem State.islandCommit_safe (s : State) (h : s.isl.outputsOk) :
    (s.islandCommit).isl.outputsOk := by
  unfold State.islandCommit
  exact Island.outputsOk_congr rfl (fun x => x) h

@[simp] theorem State.commitImage_safe (s : State) (c : Cfg) (seq slot : Nat) (h : s.isl.outputsOk) :
    (s.commitImage c seq slot).isl.outputsOk := by
  unfold State.commitImage
  (try simp [h]) <;> repeat' (first | intro _ | (split <;> try simp [h]))

theorem execPciePerstLocal_safe (s : State) (t : State) (h : s.isl.outputsOk)
    (ht : execPciePerstLocal s = .next t) : t.isl.outputsOk := by
  unfold execPciePerstLocal at ht
  injection ht with ht; subst ht
  (try simp [h]) <;> repeat' (first | intro _ | (split <;> try simp [h]))

@[simp] theorem State.commitDone_safe (s : State) (target : Nat) (order : Option Nat) (h : s.isl.outputsOk) :
    (s.commitDone target order).isl.outputsOk := by
  unfold State.commitDone
  (try simp [h]) <;> repeat' (first | intro _ | (split <;> (try (rename_i hp; replace hp := congrArg Prod.snd hp; dsimp only at hp; subst hp)) <;> try simp [h]))

theorem execActivateFwSystemReset_safe (tag : BitVec 6) (s : State) (t : State) (h : s.isl.outputsOk)
    (ht : execActivateFwSystemReset tag s = .next t) : t.isl.outputsOk := by
  unfold execActivateFwSystemReset at ht
  injection ht with ht; subst ht
  (try simp [h]) <;> repeat' (first | intro _ | (split <;> try simp [h]))

theorem execMemUe_safe (part : Partition) (ch : Fin 8) (addr : Nat) (s : State) (t : State) (h : s.isl.outputsOk)
    (ht : execMemUe part ch addr s = .next t) : t.isl.outputsOk := by
  unfold execMemUe at ht
  injection ht with ht; subst ht
  (try simp [h]) <;> repeat' (first | intro _ | (split <;> try simp [h]))

@[simp] theorem State.loseRegion_safe (s : State) (r : Nat) (h : s.isl.outputsOk) :
    (s.loseRegion r).isl.outputsOk := by
  unfold State.loseRegion
  (try simp [h]) <;> repeat' (first | intro _ | (split <;> try simp [h]) | ((first | refine State.foldl_ok _ ?_ _ _ ?_) <;> intros <;> try simp [*]))

theorem execRegionLost_safe (r : Fin 6) (s : State) (t : State) (h : s.isl.outputsOk)
    (ht : execRegionLost r s = .next t) : t.isl.outputsOk := by
  unfold execRegionLost at ht
  replace ht := (onRegion_next ht).2
  subst ht
  (try simp [h]) <;> repeat' (first | intro _ | (split <;> try simp [h]))

@[simp] theorem State.lastCopyLost_safe (s : State) (id : BlockId) (h : s.isl.outputsOk) :
    (s.lastCopyLost id).isl.outputsOk := by
  unfold State.lastCopyLost
  (try simp [h]) <;> repeat' (first | intro _ | (split <;> try simp [h]))

@[simp] theorem State.copyLost_safe (s : State) (id : BlockId) (h : s.isl.outputsOk) :
    (s.copyLost id).isl.outputsOk := by
  unfold State.copyLost
  (try simp [h]) <;> repeat' (first | intro _ | (split <;> try simp [h]))

theorem execDuplexDisagree_safe (kind : DuplexKind) (region : Nat) (inst : Nat) (which : DuplexWhich) (again : Bool) (s : State) (t : State) (h : s.isl.outputsOk)
    (ht : execDuplexDisagree kind region inst which again s = .next t) : t.isl.outputsOk := by
  unfold execDuplexDisagree at ht
  replace ht := (onRegion_next ht).2
  subst ht
  (try simp [h]) <;> repeat' (first | intro _ | (split <;> try simp [h]))

@[simp] theorem State.creditResync_safe (s : State) (r l : Nat) (h : s.isl.outputsOk) :
    (s.creditResync r l).isl.outputsOk := by
  unfold State.creditResync
  (try simp [h]) <;> repeat' (first | intro _ | (split <;> (try (rename_i hp; replace hp := congrArg Prod.snd hp; dsimp only at hp; subst hp)) <;> try simp [h]))

theorem execCreditAudit_safe (region : Fin 6) (link : Fin 8) (mismatch : Bool) (s : State) (t : State) (h : s.isl.outputsOk)
    (ht : execCreditAudit region link mismatch s = .next t) : t.isl.outputsOk := by
  unfold execCreditAudit at ht
  replace ht := (onRegion_next ht).2
  subst ht
  (try simp [h]) <;> repeat' (first | intro _ | (split <;> try simp [h]))

theorem execCreditStarve_safe (region : Fin 6) (link : Fin 8) (s : State) (t : State) (h : s.isl.outputsOk)
    (ht : execCreditStarve region link s = .next t) : t.isl.outputsOk := by
  unfold execCreditStarve at ht
  replace ht := (onRegion_next ht).2
  subst ht
  (try simp [h]) <;> repeat' (first | intro _ | (split <;> try simp [h]))

@[simp] theorem State.blockFaulty_safe (s : State) (id : BlockId) (h : s.isl.outputsOk) :
    (s.blockFaulty id).isl.outputsOk := by
  unfold State.blockFaulty
  (try simp [h]) <;> repeat' (first | intro _ | (split <;> (try (rename_i hp; replace hp := congrArg Prod.snd hp; dsimp only at hp; subst hp)) <;> try simp [h]))

theorem execChipFatal_safe (cause : FatalCause) (kind : Nat) (inst : Nat) (s : State) (t : State) (h : s.isl.outputsOk)
    (ht : execChipFatal cause kind inst s = .next t) : t.isl.outputsOk := by
  unfold execChipFatal at ht
  injection ht with ht; subst ht
  (try simp [h]) <;> repeat' (first | intro _ | (split <;> try simp [h]))

@[simp] theorem State.fatalReset_safe (s : State) (h : s.isl.outputsOk) :
    (s.fatalReset).isl.outputsOk := by
  unfold State.fatalReset
  (try simp [h]) <;> repeat' (first | intro _ | (split <;> try simp [h]))

theorem execCrashRecordAppend_safe (s : State) (t : State) (h : s.isl.outputsOk)
    (ht : execCrashRecordAppend s = .next t) : t.isl.outputsOk := by
  unfold execCrashRecordAppend at ht
  injection ht with ht; subst ht
  (try simp [h]) <;> repeat' (first | intro _ | (split <;> try simp [h]))

@[simp] theorem State.jobDone_safe (s : State) (j : FlashJob) (good : Bool) (h : s.isl.outputsOk) :
    (s.jobDone j good).isl.outputsOk := by
  unfold State.jobDone
  (try simp [h]) <;> repeat' (first | intro _ | (split <;> (try (rename_i hp; replace hp := congrArg Prod.snd hp; dsimp only at hp; subst hp)) <;> try simp [h]))

theorem execFlashEraseProgramDone_safe (op : FlashOp) (good : Bool) (s : State) (t : State) (h : s.isl.outputsOk)
    (ht : execFlashEraseProgramDone op good s = .next t) : t.isl.outputsOk := by
  unfold execFlashEraseProgramDone at ht
  injection ht with ht; subst ht
  (try simp [h]) <;> repeat' (first | intro _ | (split <;> (try (rename_i hp; replace hp := congrArg Prod.snd hp; dsimp only at hp; subst hp)) <;> try simp [h]))

theorem execPowerOnReset_safe (s : State) (t : State) (h : s.isl.outputsOk)
    (ht : execPowerOnReset s = .next t) : t.isl.outputsOk := by
  unfold execPowerOnReset at ht
  injection ht with ht; subst ht
  (try simp [h]) <;> repeat' (first | intro _ | (split <;> try simp [h]))

theorem execSupplyMonitorTrip_safe (_rail : Rail) (s : State) (t : State) (h : s.isl.outputsOk)
    (ht : execSupplyMonitorTrip _rail s = .next t) : t.isl.outputsOk := by
  unfold execSupplyMonitorTrip at ht
  injection ht with ht; subst ht
  (try simp [h]) <;> repeat' (first | intro _ | (split <;> try simp [h]))

theorem execSysrstNAssert_safe (s : State) (t : State) (h : s.isl.outputsOk)
    (ht : execSysrstNAssert s = .next t) : t.isl.outputsOk := by
  unfold execSysrstNAssert at ht
  injection ht with ht; subst ht
  (try simp [h]) <;> repeat' (first | intro _ | (split <;> try simp [h]))

theorem execPePerstSystem_safe (s : State) (t : State) (h : s.isl.outputsOk)
    (ht : execPePerstSystem s = .next t) : t.isl.outputsOk := by
  unfold execPePerstSystem at ht
  injection ht with ht; subst ht
  (try simp [h]) <;> repeat' (first | intro _ | (split <;> try simp [h]))

theorem execWatchdogFinalStage_safe (s : State) (t : State) (h : s.isl.outputsOk)
    (ht : execWatchdogFinalStage s = .next t) : t.isl.outputsOk := by
  unfold execWatchdogFinalStage at ht
  injection ht with ht; subst ht
  (try simp [h]) <;> repeat' (first | intro _ | (split <;> try simp [h]))

@[simp] theorem State.clockFail_safe (s : State) (id : BlockId) (h : s.isl.outputsOk) :
    (s.clockFail id).isl.outputsOk := by
  unfold State.clockFail
  (try simp [h]) <;> repeat' (first | intro _ | (split <;> try simp [h]))

theorem execClockReleaseTimeout_safe (blk : BlockId) (s : State) (t : State) (h : s.isl.outputsOk)
    (ht : execClockReleaseTimeout blk s = .next t) : t.isl.outputsOk := by
  unfold execClockReleaseTimeout at ht
  injection ht with ht; subst ht
  (try simp [h]) <;> repeat' (first | intro _ | (split <;> try simp [h]))

theorem execClockGoodLoss_safe (blk : BlockId) (s : State) (t : State) (h : s.isl.outputsOk)
    (ht : execClockGoodLoss blk s = .next t) : t.isl.outputsOk := by
  unfold execClockGoodLoss at ht
  injection ht with ht; subst ht
  (try simp [h]) <;> repeat' (first | intro _ | (split <;> try simp [h]))

theorem execRootLost_safe (s : State) (t : State) (h : s.isl.outputsOk)
    (ht : execRootLost s = .next t) : t.isl.outputsOk := by
  unfold execRootLost at ht
  injection ht with ht; subst ht
  split
  · exact h
  · dsimp only
    exact State.assertSystem_safe _ 4 (State.dropAll_any (s := s.raise 961 .safetyRootLost 0 0 0) (by simp [h.1]) (by dsimp only))

theorem execDdrPllUnlock_safe (s : State) (t : State) (h : s.isl.outputsOk)
    (ht : execDdrPllUnlock s = .next t) : t.isl.outputsOk := by
  unfold execDdrPllUnlock at ht
  injection ht with ht; subst ht
  (try simp [h]) <;> repeat' (first | intro _ | (split <;> try simp [h]))

@[simp] theorem State.applyRepairs_safe (s : State) (h : s.isl.outputsOk) :
    (s.applyRepairs).isl.outputsOk := by
  unfold State.applyRepairs
  dsimp only
  refine State.foldl_ok _ ?_ _ _ ?_
  · intro x a hx
    repeat' (first | intro _ | (split <;> try simp [hx]))
  · repeat' (split <;> try simp [h])

@[simp] theorem State.stepIsland_safe (s : State) (ok : Bool) (h : s.isl.outputsOk) :
    (s.stepIsland ok).isl.outputsOk := by
  unfold State.stepIsland
  split
  · simp [h]
  · split
    · simp only [State.stepDone_frame]
      exact Island.outputsOk_congr (i := s.isl) rfl (fun hd => by revert hd; unfold Island.dead; cases s.isl.supplyOk <;> cases s.isl.halted <;> cases s.isl.outLatched <;> cases s.isl.passed <;> cases s.isl.rootOk <;> simp) h
    · simp [h]

@[simp] theorem State.stepRoot_safe (s : State) (ok : Bool) (h : s.isl.outputsOk) :
    (s.stepRoot ok).isl.outputsOk := by
  unfold State.stepRoot
  split
  · simp [h]
  · simp only [State.stepDone_frame]
    exact Island.outputsOk_congr (i := s.isl) rfl (fun hd => by revert hd; unfold Island.dead; cases s.isl.supplyOk <;> cases s.isl.halted <;> cases s.isl.outLatched <;> cases s.isl.passed <;> cases s.isl.rootOk <;> simp) h

@[simp] theorem State.stepMemory_safe (s : State) (ok : Bool) (rates : List Nat) (h : s.isl.outputsOk) :
    (s.stepMemory ok rates).isl.outputsOk := by
  unfold State.stepMemory
  (try simp [h]) <;> repeat' (first | intro _ | (split <;> try simp [h]) | ((first | refine State.foldl_ok _ ?_ _ _ ?_) <;> intros <;> try simp [*]))

@[simp] theorem State.stepImage_safe (s : State) (h : s.isl.outputsOk) :
    (s.stepImage).isl.outputsOk := by
  unfold State.stepImage
  (try simp [h]) <;> repeat' (first | intro _ | (split <;> try simp [h]))

theorem execBringupStep_safe (ok : Bool) (rates : List Nat) (s : State) (t : State) (h : s.isl.outputsOk)
    (ht : execBringupStep ok rates s = .next t) : t.isl.outputsOk := by
  unfold execBringupStep at ht
  injection ht with ht; subst ht
  (try simp [h]) <;> repeat' (first | intro _ | (split <;> try simp [h]))

theorem execThermalTrip_safe (s : State) (t : State) (h : s.isl.outputsOk)
    (ht : execThermalTrip s = .next t) : t.isl.outputsOk := by
  unfold execThermalTrip at ht
  injection ht with ht; subst ht
  (try simp [h]) <;> repeat' (first | intro _ | (split <;> try simp [h]))

theorem execLmonTrip_safe (b : BayId) (s : State) (t : State) (h : s.isl.outputsOk)
    (ht : execLmonTrip b s = .next t) : t.isl.outputsOk := by
  unfold execLmonTrip at ht
  replace ht := (withBay_next ht).2
  subst ht
  simp only [State.after_frame]
  exact State.lmonTripBay_safe b (State.updSafe_map b _ h (fun x d hx => hx))

theorem execIlkOpen_safe (s : State) (t : State) (h : s.isl.outputsOk)
    (ht : execIlkOpen s = .next t) : t.isl.outputsOk := by
  unfold execIlkOpen at ht
  injection ht with ht; subst ht
  dsimp only
  have h0 : ({ s with isl := { s.isl with ilkHigh := some s.us } } : State).isl.outputsOk := Island.outputsOk_congr rfl (fun x => x) h
  have h1 := State.foldl_ok State.dropL (fun s a hs => State.dropL_ok a hs) allBays _ h0
  simp only [State.raise_frame]
  split
  · exact State.foldl_ok State.dropS (fun s a hs => State.dropS_ok a hs) allBays _ h1
  · exact h1

theorem execSpdfToggle_safe (b : BayId) (afterUs : Nat) (s : State) (t : State) (h : s.isl.outputsOk)
    (ht : execSpdfToggle b afterUs s = .next t) : t.isl.outputsOk := by
  unfold execSpdfToggle at ht
  replace ht := (withBay_next ht).2
  subst ht
  simp only [State.after_frame]
  split
  · exact h
  · have h1 := State.updSafe_map b (fun x => { x with spdfLast := some s.us, intervals := (afterUs :: x.intervals).take 24 }) h
      (fun x d hx => hx)
    split
    · simp only [State.raiseSafe_frame]
      exact State.dropBay_ok b (State.updSafe_okBut b _ (Island.okBut_of_ok b.val h1))
    · exact h1

theorem execSpeedReport_safe (b : BayId) (s : State) (t : State) (h : s.isl.outputsOk)
    (ht : execSpeedReport b s = .next t) : t.isl.outputsOk := by
  unfold execSpeedReport at ht
  replace ht := (withBay_next ht).2
  subst ht
  simp only [State.after_frame]
  exact State.updSafe_map b _ h (fun x d hx => hx)

theorem execPlausibilityTrip_safe (b : BayId) (s : State) (t : State) (h : s.isl.outputsOk)
    (ht : execPlausibilityTrip b s = .next t) : t.isl.outputsOk := by
  unfold execPlausibilityTrip at ht
  replace ht := (withBay_next ht).2
  subst ht
  simp only [State.after_frame]
  have key : ∀ n : Nat, (((s.updSafe b (fun x => { x with plausTrip := true })).dropBay b).raiseSafe b .safetySpdfImplausible
      n).isl.outputsOk := fun n => by
    simp only [State.raiseSafe_frame]
    exact State.dropBay_ok b (State.updSafe_okBut b _ (Island.okBut_of_ok b.val h))
  have done : ∀ (c : Bool) (n : Nat), (if c = true then ((s.updSafe b (fun x => { x with plausTrip := true })).dropBay b).raiseSafe b
      .safetySpdfImplausible n else s).isl.outputsOk := fun c n => by
    split
    · exact key n
    · exact h
  exact done _ _

theorem execGateForce_safe (b : BayId) (p : Pu) (s : State) (t : State) (h : s.isl.outputsOk)
    (ht : execGateForce b p s = .next t) : t.isl.outputsOk := by
  unfold execGateForce at ht
  replace ht := (withBay_next ht).2
  subst ht
  simp only [State.after_frame]
  exact iteInduction (motive := fun x : State => x.isl.outputsOk)
    (fun _ => State.tripCount_ok b _ (fun x => x.raise (srcBay b 18) .safetyGateForced b.val p.idx 0) h (fun x => by simp) (fun _ => rfl)
      (fun _ => rfl) (fun _ => rfl) (fun _ => rfl))
    (fun _ => h)

theorem execBayHoldReceipt_safe (b : BayId) (s : State) (t : State) (h : s.isl.outputsOk)
    (ht : execBayHoldReceipt b s = .next t) : t.isl.outputsOk := by
  unfold execBayHoldReceipt at ht
  replace ht := (withBay_next ht).2
  subst ht
  simp only [State.after_frame]
  exact State.dropBay_ok b (State.updSafe_okBut b _ (Island.okBut_of_ok b.val h))

theorem execHeartbeatWordRx_safe (side : HbSide) (seq : BitVec 16) (checkGood onPeriod serviceGood : Bool) (s : State) (t : State) (h : s.isl.outputsOk)
    (ht : execHeartbeatWordRx side seq checkGood onPeriod serviceGood s = .next t) : t.isl.outputsOk := by
  unfold execHeartbeatWordRx at ht
  injection ht with ht; subst ht
  split
  · dsimp only
    split
    · exact Island.outputsOk_congr (i := s.isl) rfl (fun x => x) h
    · split <;> exact Island.outputsOk_congr (i := s.isl) rfl (fun x => x) h
  · dsimp only
    split <;> exact Island.outputsOk_congr (i := s.isl) rfl (fun x => x) h

theorem execHeartbeatLostIsland_safe (s : State) (t : State) (h : s.isl.outputsOk)
    (ht : execHeartbeatLostIsland s = .next t) : t.isl.outputsOk := by
  unfold execHeartbeatLostIsland at ht
  injection ht with ht; subst ht
  (try simp [h]) <;> repeat' (first | intro _ | (split <;> try simp [h]))

theorem execIslandLostAgent_safe (s : State) (t : State) (h : s.isl.outputsOk)
    (ht : execIslandLostAgent s = .next t) : t.isl.outputsOk := by
  unfold execIslandLostAgent at ht
  injection ht with ht; subst ht
  split
  · simp only [State.raise_frame]
    exact Island.outputsOk_congr (i := s.isl) rfl (fun x => x) h
  · exact h

theorem execPermitRequest_safe (b : BayId) (lsafe : Bool) (ilkHighMs lmonHighMs : Nat) (s : State) (t : State) (h : s.isl.outputsOk)
    (ht : execPermitRequest b lsafe ilkHighMs lmonHighMs s = .next t) : t.isl.outputsOk := by
  unfold execPermitRequest at ht
  replace ht := (withBay_next ht).2
  subst ht
  simp only [State.after_frame]
  (try simp [h]) <;> repeat' (first | intro _ | (split <;> try simp [h]))

theorem execKeeperDrop_safe (b : BayId) (lsafe : Bool) (s : State) (t : State) (h : s.isl.outputsOk)
    (ht : execKeeperDrop b lsafe s = .next t) : t.isl.outputsOk := by
  unfold execKeeperDrop at ht
  replace ht := (withBay_next ht).2
  subst ht
  simp only [State.after_frame]
  (try simp [h]) <;> repeat' (first | intro _ | (split <;> try simp [h]))

theorem execOutputReadback_safe (b : BayId) (lsafe pinHigh : Bool) (s : State) (t : State) (h : s.isl.outputsOk)
    (ht : execOutputReadback b lsafe pinHigh s = .next t) : t.isl.outputsOk := by
  unfold execOutputReadback at ht
  replace ht := (withBay_next ht).2
  subst ht
  simp only [State.after_frame]
  have key : ({ s with isl := { s.isl with outLatched := true } } : State).dropAll.isl.outputsOk := by
    refine State.dropAll_ok ?_
    exact h.1
  cases lsafe
  · simp only [Bool.false_eq_true, if_false]
    split
    · simp only [State.raise_frame]; exact key
    · exact h
  · simp only [if_true]
    split
    · simp only [State.raise_frame]; exact key
    · exact h

theorem execLockstepMismatch_safe (s : State) (t : State) (h : s.isl.outputsOk)
    (ht : execLockstepMismatch s = .next t) : t.isl.outputsOk := by
  unfold execLockstepMismatch at ht
  injection ht with ht; subst ht
  (try simp [h]) <;> repeat' (first | intro _ | (split <;> try simp [h]))

theorem execRomCheck_safe (good : Bool) (s : State) (t : State) (h : s.isl.outputsOk)
    (ht : execRomCheck good s = .next t) : t.isl.outputsOk := by
  unfold execRomCheck at ht
  injection ht with ht; subst ht
  (try simp [h]) <;> repeat' (first | intro _ | (split <;> try simp [h]))

theorem execVddSafeExcursion_safe (s : State) (t : State) (h : s.isl.outputsOk)
    (ht : execVddSafeExcursion s = .next t) : t.isl.outputsOk := by
  unfold execVddSafeExcursion at ht
  injection ht with ht; subst ht
  simp only [State.raise_frame]
  exact State.dropAll_ok h.1

theorem execVddSafeReturn_safe (selfTestGood : Bool) (s : State) (t : State) (h : s.isl.outputsOk)
    (ht : execVddSafeReturn selfTestGood s = .next t) : t.isl.outputsOk := by
  unfold execVddSafeReturn at ht
  injection ht with ht; subst ht
  split
  · exact h
  · have h1 : ({ s with isl := { s.isl with supplyOk := true } } : State).isl.outputsOk :=
      Island.outputsOk_congr (i := s.isl) rfl (fun hd => by revert hd; unfold Island.dead; cases s.isl.supplyOk <;> cases s.isl.halted <;> cases s.isl.outLatched <;> cases s.isl.passed <;> cases s.isl.rootOk <;> simp) h
    dsimp only
    split
    · rename_i hs _
      exact Island.outputsOk_congr (i := s.isl) rfl (fun _ => by simp [Island.dead, hs]) h
    · exact State.islandFail_safe _ h1

theorem execLmonMismatch_safe (b : BayId) (s : State) (t : State) (h : s.isl.outputsOk)
    (ht : execLmonMismatch b s = .next t) : t.isl.outputsOk := by
  unfold execLmonMismatch at ht
  replace ht := (withBay_next ht).2
  subst ht
  simp only [State.after_frame]
  split
  · exact State.tripCount_ok b _ (fun x => x.raiseSafe b .safetyLmonMismatch 0) h (fun x => by simp) (fun _ => rfl) (fun _ => rfl)
      (fun _ => rfl) (fun _ => rfl)
  · exact h

@[simp] theorem State.tick_safe (s : State) (h : s.isl.outputsOk) :
    (s.tick).isl.outputsOk := by
  unfold State.tick
  (try simp [h]) <;> repeat' (first | intro _ | (split <;> try simp [h]))

end Sys2Proof.Machine
end

