-- ==== Sys2Proof/Machine/Package.lean ====
section
/-! DEFINITION. The package (R446 to R449, R453): the names of balls, the balls of a bay's signals, the corner balls, and the reset state of each
kind of signal. -/

namespace Sys2Proof.Machine

/-- The letters that name ball rows (R446). -/
def rowLetters : List String :=
  ["A", "B", "C", "D", "E", "F", "G", "H", "J", "K", "L", "M", "N", "P", "T", "U", "V", "W", "Y"]

/-- The name of a ball row, counted from 1 (R446): rows 1 to 19 take one letter, then AA to AY, BA to BY and CA to CF. -/
def rowName (row : Nat) : String :=
  ["", "A", "B", "C"].getD ((row - 1) / 19) "" ++ rowLetters.getD ((row - 1) % 19) ""

/-- The name of a ball: its row and column (R446). -/
def ballName (row col : Nat) : String := rowName row ++ toString col

/-- The row and column of local position (d, k) of a bay's block (R447). -/
def bayBall (b : BayId) (d k : Nat) : Nat × Nat :=
  let j := b.val % 8
  match b.val / 8 with
  | 0 => (d + 1, 5 + 7 * j + k)
  | 1 => (5 + 7 * j + k, 63 - d)
  | 2 => (63 - d, 59 - 7 * j - k)
  | _ => (59 - 7 * j - k, 1 + d)

/-- The signals of a bay block, row d and column k, without the bay's prefix (Table 23-3). -/
def baySignals : List (List String) :=
  [["HA_UP0_P", "HA_UP0_N", "VSS", "HA_UP1_P", "HA_UP1_N", "HA_UPS_P", "HA_UPS_N"],
   ["HB_UP0_P", "HB_UP0_N", "VSS", "HB_UP1_P", "HB_UP1_N", "HB_UPS_P", "HB_UPS_N"],
   ["HA_DN_P", "HA_DN_N", "VSS", "HB_DN_P", "HB_DN_N", "ML_UP_P", "ML_UP_N"],
   ["ML_DN_P", "ML_DN_N", "VSS", "LMON_N", "SPDF", "LSAFE_N", "SSAFE_N"]]

/-- The corner balls in row-major order: first row, first column, columns, and their signals (Table 23-4). -/
def cornerBalls : List (Nat × Nat × Nat × List String) :=
  [(1, 1, 4, ["TCK", "TMS", "TDI", "TDO", "TRST_N", "REFCLK_P", "REFCLK_N", "VSS", "PORST_N", "SYSRST_N", "ILK_N", "THERMTRIP_N"]),
   (1, 61, 3, ["XSPI_CLK", "XSPI_CS_N", "XSPI_DS", "XSPI_DQ0", "XSPI_DQ1", "XSPI_DQ2", "XSPI_DQ3", "XSPI_DQ4", "XSPI_DQ5", "XSPI_DQ6",
     "XSPI_DQ7", "XSPI_RESET_N"]),
   (61, 60, 4, ["AVS_CLK", "AVS_MDATA", "AVS_SDATA", "VSS", "VSENSE_CORE_P", "VSENSE_CORE_N", "VSS", "VSS", "VDD_SAFE", "VDD_SAFE",
     "VDD_SAFE", "VDD_SAFE"]),
   (60, 1, 3, ["VDD_AON", "VDD_AON", "VSS", "VSS", "VSS", "VSS", "VDD_IO", "VDD_IO", "VDD_IO", "VDD_IO", "VSS", "VSS"])]

/-- The signal on a corner ball. -/
def cornerSignal (row col : Nat) : Option String :=
  cornerBalls.findSome? (fun (r, c, w, l) => if r ≤ row && c ≤ col && col < c + w then l[(row - r) * w + (col - c)]? else none)

/-- The kinds of signals of Table 23-5. -/
inductive SignalKind where
  | serial | safetyIn | safetyOut | interlock | pcie | ddr | ddrReset | i3c | xspi | avs | sense | refclk | resetIn | thermtrip
  | tck | trst | tmsTdi | tdo
  deriving DecidableEq, Repr

/-- The reset state of a signal: electrical idle, a pull, a level, its fuse state (R351), or what its standard or nothing requires. -/
inductive ResetShow where
  | idle | pullDown | pullUp | low | released | fuse | highZ | standard
  deriving DecidableEq, Repr

/-- The reset states of Table 23-5; a dash of the table, and `TCK`, show none of the states. -/
def SignalKind.resetShow : SignalKind → ResetShow
  | .serial => .idle
  | .safetyIn | .interlock => .pullDown
  | .safetyOut => .low
  | .ddrReset | .i3c | .xspi | .avs => .fuse
  | .resetIn | .tmsTdi => .pullUp
  | .thermtrip => .released
  | .trst => .pullDown
  | .tdo => .highZ
  | .pcie | .ddr | .sense | .refclk | .tck => .standard

end Sys2Proof.Machine
end

