-- ==== Sys2Proof/WellFormed.lean ====
section
/-! DEFINITION. What the surroundings can present: the sizes and ranges of a command's operands that their types do not fix. The machine
answers every term; an ill-formed one stands for nothing that can arrive. -/

namespace Sys2Proof

/-- A frame address of a sector's first frame: a layer of the disc (R15) and a multiple of 5 frames. -/
def frameOk (a : FrameAddr) : Bool := decide (a.layer < 12) && a.frame % 5 == 0

/-- A block kind and region of Table 18-3. -/
def blockOk (b : BlockId) : Bool := decide (b.kind ≤ 14) && decide (b.region < 6)

/-- The operands of a command are of the sizes and within the ranges of the spec: frames of 512 and 2,500 bytes (R39, R184), 64-byte
entries (R266), 4 KiB blocks, records and tables, 16 tracks, blocks and sources that exist. -/
def Instr.wf (c : Instr) : Bool :=
  match c with
  | .hlinkSampleFrame _ _ _ raw => raw.length == 512
  | .hlinkServoFrame _ _ _ raw _ => raw.length == 512
  | .bankSwapArm _ _ _ _ bank _ => bank.length == 128
  | .hlinkReplyFrame _ _ _ raw => raw.length == 512
  | .hlinkTrainFrame _ _ _ raw => raw.length == 512
  | .ldpcCodewordDone _ _ sector _ => frameOk sector
  | .ladderTrialDone _ _ sector _ => frameOk sector
  | .rereadPass _ _ sector => frameOk sector
  | .ladderTimeout _ _ sector => frameOk sector
  | .mlinkSenseFrame _ raw _ => raw.length == 2500
  | .mlinkTrainFrame _ raw => raw.length == 2500
  | .sledTableLoad _ _ table => table.length == 4096
  | .writeStaged _ _ _ blocks => blocks.all (fun x => x.length == 4096)
  | .barWriteOther _ _ data => 0 < data.length
  | .fetchGrant entries => entries.all (fun e => e.1.length == 64)
  | .vfEnable count => count ≤ 255
  | .pcieLinkDegrade width => width == 8 || width == 4
  | .stageConfigChunk _ data => data.length % 4096 == 0
  | .mountCreate _ block => block.length == 4096
  | .diagRawWrite _ block => block.length == 4096
  | .mergeNarrowWrite _ _ data => 0 < data.length && data.length < 64
  | .bufferReturn handle => handle < 2 ^ 24
  | .resetRelease source => source ≤ 5
  | .blockResetRequest blk _ => blockOk blk
  | .clockReleaseTimeout blk => blockOk blk
  | .clockGoodLoss blk => blockOk blk
  | .bringupStep _ rates => rates.length ≤ 8 && rates.all (fun r => [0, 7200, 8000, 8800].contains r)
  | .calRunDone _ _ _ unit _ => unit < 18
  | .sliceMarginSweep _ _ _ _ margin after => margin ≤ 100 && after ≤ 100
  | .duplexDisagree _ region inst _ _ => region < 6 && inst < 8
  | .chipFatal _ kind _ => kind ≤ 14
  | .blockReleaseTimeout _ _ | .timingHoldLimit _ _ _ | .servoTickMissing _ _ | .missedTickUnlock _ _ | .rowSwitchTimeout _ _
  | .loopLock _ _ _ | .loopUnlock _ _ _ | .unitHandoverDone _ _ | .elementFault _ _ _ | .ctrlReplyTimeout _ _ _
  | .hlinkTrainTimeout _ _ | .upTrainLimit _ _ | .hlinkTrainRetry _ _ | .laneRetrainStart _ _ _ | .spareTrainDone _ _ _
  | .laneTrainResult _ _ _ _ | .laneMapBack _ _ | .laneRetrainLimit _ _ | .dnLost _ _ | .spareStandbyApply _
  | .frameLockLost _ _ | .acqSearchTimeout _ _ | .sectorSoftCommit _ _ | .detectorFault _ _ _ | .detectorSpareStart _
  | .ldpcDecoderFault _ _ _ | .ldpcSpareEnter _ | .sectorEncode _ _ _ | .passBlockStart _ _ | .segmentWriteSend _ _ | .strategyBankLoad _ _ _
  | .wedgeProcess _ _ | .segmentSyncVote _ _
  | .relocExcursionStart _ | .pickupFocusSearchStart _ _ | .pickupStateLimit _ _ | .swathJumpIssue _ _ _
  | .targetFrameApproach _ _ _ _ | .sledFollowUpdate _ _ | .restLoopJump _ _ | .saTrimUpdate _ _ | .layerJumpIssue _ _ _
  | .seekIssue _ _ | .recoverHoldEnd _ _ | .localRecaptureEnd _ _ | .pickupFailedRetry _ _ | .clvRefSwitch _
  | .clvRefRestore _ | .bayProbe _ | .autoTuneStart _ _ _ | .autoTuneEnd _ _ | .tuneRevertWindowEnd _ _ _
  | .cengCheckpoint _ _ | .cengCoreFault _ _ _ | .cengTakeoverDone _ | .mlinkTrainTimeout _ | .mlinkTrainRetry _ | .mlinkLost _
  | .speedLoopSample _ | .spindleStart _ | .spindleStop _ | .catchEnd _ | .alignEnd _ | .rampHandover _ | .startTryFail _
  | .syncEnd _ | .decelLimit _ | .brakeShortToggle _ | .brakeShortLimit _ | .startWaitEnd _ | .spindleFaultRetry _
  | .testCatch _ | .observerLost _ | .overspeedDetect _ | .overspeedStop _ | .speedReady _ | .sledCoarseStep _
  | .sledTarget _ _ _ _ | .seekArrive _ _ | .sledHoldReduce _ _ | .sledPowerDown _ _ | .blockPlace _ | .stripeCloseTimeout _
  | .sectorWriteOutcome _ _ _ _ | .checkpointWrite _ | .memberRebuildStep _ | .readRebuild _ _ _ | .memberGraceExpire _ _
  | .hamperMountRecover _ | .discIdentityRead _ | .hamperAutoMount _ | .hamperEngineFault _ _ | .hamperEngineTakeover | .srDoorbellWrite _ _ _
  | .crHeadDoorbellWrite _ _ _ | .fetchFail _ _ | .dmaTransferFail _ _ _ | .completionPost _ _ _ | .crCoalesceTimeout _ _
  | .holdLimitExpire _ _ _ | .functionLevelReset _ | .busMasterEnableChange _ _ | .pciePerstLocal | .ptmTimeUpdate _
  | .createSr _ _ | .deleteSr _ _ | .createCr _ _ | .deleteCr _ _ | .read _ _ _ | .write _ _ _ | .verify _ _ _ | .flush _ _ _
  | .abort _ _ _ | .identify _ _ | .health _ _ | .healthClearCause _ _ | .healthClearCounters _ _ | .healthCalRequest _ _
  | .attestReport _ _ | .attestCertChain _ _ | .attestEnforceSignatures _ _ | .attestRevokeKey _ _ | .stageConfigOpen _
  | .stageConfigCommit _ | .stageSessionIdle | .activateFwFirmware _ | .activateFwCoreReset _ | .activateFwSystemReset _
  | .fwactDrainEnd | .fwStartResult _ | .mountAttach _ | .mountReplace _ | .unmount _ | .faultInjectArm _
  | .faultInjectCancel _ | .faultInjectCancelAll _ | .faultInjectList _ | .diagRawRead _ | .memCorrectedError _ _ _
  | .memUe _ _ _ | .mergeEntryRetire _ _ | .bufferDraw _ _ _ | .powerOnReset | .sysrstNAssert | .pePerstSystem | .watchdogKick
  | .watchdogFirstStage | .watchdogFinalStage | .coreResetRelease _ _ | .rootLost | .ddrPllUnlock | .bayBringupStart _
  | .vfReady _ | .hbeatIncrement | .supplyMonitorTrip _ | .vddAonTrip | .thermalTrip | .avsSetPoint _ _ | .calStepRun _ _ _
  | .calGapForce _ _ | .calRecordAppend _ _ | .creditAudit _ _ _ | .creditStarve _ _ | .mgmtCoreFault _ _ | .mgmtTakeoverDone
  | .regionLost _ | .crashRecordAppend | .lmonTrip _ | .ilkOpen | .spdfToggle _ _ | .speedReport _ | .plausibilityTrip _
  | .gateForce _ _ | .bayHoldReceipt _ | .heartbeatWordRx _ _ _ _ _ | .heartbeatLostIsland | .islandLostAgent
  | .permitRequest _ _ _ _ | .keeperDrop _ _ | .outputReadback _ _ _ | .lockstepMismatch | .romCheck _ | .vddSafeExcursion
  | .lmonMismatch _ | .jtagDebugUnlock | .doeRequest _ _ _ | .doeAbort _ | .injectActionStart _ | .injectDurationEnd _
  | .injectLift _ | .eventRateWindow | .vddSafeReturn _ | .trstNReset | .flashEraseProgramDone _ _ => true

end Sys2Proof
end

