-- ==== Sys2Proof/Tests/Slice0.lean ====
section
/-! SUPPORT. The model's own tests: for every obligation with hypotheses, states and operands that meet them, clause by clause (`wit_`),
with a look at the outcome where it is small; worked examples of the spec and ill-formed terms (`test_`). -/

namespace Sys2Proof.Tests

open Sys2Proof.Machine

-- one theorem at a time: hundreds of small kernel checks at once run out of threads
set_option Elab.async false

/-- The outcome is a next state with a property. -/
def holds (o : Host.Outcome State Fault Refusal) (p : State → Bool) : Bool :=
  match o with
  | .next t => p t
  | _ => false

/-- A machine that has been up for 5,000 s, its cores running, the island passed and its heartbeats fresh. -/
def up : State := { State.reset with
  chip := { State.reset.chip with up := ⟨10, 0, false, true, 0, State.reset.chip.up.fused⟩, clk := ⟨5000000000, 5000000000, true, 0, true⟩ }
  isl := { State.reset.isl with passed := true, rootOk := true, hbAt := 5000000000, agAt := 5000000000, hbRun := true }
  host := { State.reset.host with ready := true, fns := [{ Fn.fresh 0 with ready := true, bme := true }] } }

/-- `up` with pickup A of bay 5 changed. -/
def withPu (f : Pickup → Pickup) : State := up.updPu 5 .A f

/-- `up` with bay 5 changed. -/
def withBay5 (f : Bay → Bay) : State := up.updBay 5 f

/-- `up` with the safety state of bay 5 changed. -/
def withSafe (f : BaySafe → BaySafe) : State := up.updSafe 5 f

/-- Pickup A of bay 5 in a state since time 0. -/
def inSt (st : PState) (f : Pickup → Pickup) : State := withPu (fun u => f { u with ms := { u.ms with st := st } })

/-- `up` with the head link of pickup A of bay 5 changed. -/
def withLink (f : HLink → HLink) : State := withPu (fun u => { u with link := f u.link })

/-- `up` with the motor link of bay 5 changed. -/
def withMlink (f : MLink → MLink) : State := withBay5 (fun y => { y with mlink := f y.mlink })

/-- `up` with the spindle of bay 5 changed, its motor link active. -/
def withSp (f : Spindle → Spindle) : State :=
  withBay5 (fun y => { y with mlink := { y.mlink with st := .active }, spindle := f y.spindle })

/-- A head-link frame as it travels, scrambled. -/
def hframe (type seq tsh : Nat) (payload : Bytes) : Bytes := scramble (mkFrame type seq tsh payload)

/-- A field of a frame's payload, read off the bytes it was made from. -/
theorem mkFrame_field (ty seq tsh : Nat) (p : Bytes) (i n : Nat) (v : Bytes) (h : i + n ≤ 504) (hv : slice (padTo 504 p) i n = v) :
    slice (mkFrame ty seq tsh p) (4 + i) n = v := by rw [mkFrame_slice _ _ _ _ _ _ h, hv]

/-- A byte of a byte string, as a slice of one byte shows it. -/
theorem byteAt_of_slice (f : Bytes) (i : Nat) (b : Byte) (h : slice f i 1 = [b]) : byteAt f i = b.toNat := by
  unfold slice at h
  unfold byteAt
  have : f[i]? = some b := by
    have h1 : ((f.drop i).take 1)[0]? = some b := by rw [h]; rfl
    simpa using h1
  simp [List.getD, this]

theorem wit_lmonTrip : holds (exec (.lmonTrip 5) up) (fun t => (t.safeBay 5).lmonTrip && !(t.safeBay 5).lsafe) = true := by decide +kernel

theorem wit_gateForce : (let v := withPu (fun u => { u with link := { u.link with wpermit := true } })
    let s := v.updSafe 5 (fun x => { x with gateA := some (v.us - v.safe .safetyGateLimitUs - 1) })
    s.bayExists 5 && s.isl.bays.length == 32 && (s.link 5 .A).wpermit && !(s.pu 5 .A).focus.locked
      && (s.safeBay 5).gateA == some (v.us - v.safe .safetyGateLimitUs - 1) && decide (v.safe .safetyGateLimitUs < v.us)
      && holds (exec (.gateForce 5 .A) s) (fun t => (t.safeBay 5).gateTrip)) = true := by decide +kernel

theorem wit_lmonMismatch : (let v := withPu (fun u => { u with link := { u.link with servo := { u.link.servo with lmon := true } } })
    let s := v.updSafe 5 (fun x => { x with lmonBad := some (v.us - 10000) })
    (s.bay 5).pa.link.servo.lmon && !(s.safeBay 5).lmonLow && (s.safeBay 5).lmonBad == some (s.us - 10000) && holds (exec (.lmonMismatch 5) s) (fun t => (t.safeBay 5).lmonTrip))
    = true := by decide +kernel

theorem wit_spdfToggle_trip : (let s := withSafe (fun x => { x with lsafe := true, ssafe := true })
    decide (308 * s.safe .safetyOverTripRpm < 2500000) && holds (exec (.spdfToggle 5 308) s) (fun t => (t.safeBay 5).overTrip
      && !(t.safeBay 5).lsafe && !(t.safeBay 5).ssafe)) = true := by decide +kernel

theorem wit_spdfToggle_slow : (let s := withSafe (fun x => { x with lsafe := true, ssafe := true })
    decide (2500000 ≤ 309 * s.safe .safetyOverTripRpm) && holds (exec (.spdfToggle 5 309) s) (fun t => !(t.safeBay 5).overTrip
      && (t.safeBay 5).intervals == [309] && (t.safeBay 5).ssafe)) = true := by decide +kernel

theorem wit_spdfToggle_early : holds (exec (.spdfToggle 5 19) up) (fun t => (t.safeBay 5).intervals == []) = true := by decide +kernel

theorem wit_plausibilityTrip : (let s := withSafe (fun x => { x with failSince := some (5000000000 - up.safe .safetySpdfCheckMs * 1000) })
    (s.safeBay 5).failSince.isSome && holds (exec (.plausibilityTrip 5) s) (fun t => (t.safeBay 5).plausTrip)) = true := by decide +kernel

theorem wit_permitRequest_spindle : (up.permitCommon 5 (up.safe .safetyRearmMs) && (up.safeBay 5).spdfLast == none
    && holds (exec (.permitRequest 5 false (up.safe .safetyRearmMs) 0) up) (fun t => (t.safeBay 5).ssafe)) = true := by decide +kernel

theorem wit_permitRequest_laser : (let s := withSafe (fun x => { x with ssafe := true, lmonTrip := true })
    s.permitCommon 5 (s.safe .safetyRearmMs) && (s.safeBay 5).lmonHigh == none && !(s.safeBay 5).overTrip && (s.safeBay 5).ssafe
      && !(s.safeBay 5).latched
      && holds (exec (.permitRequest 5 true (s.safe .safetyRearmMs) (s.safe .safetyRearmMs)) s) (fun t => (t.safeBay 5).lsafe
        && !(t.safeBay 5).lmonTrip)) = true := by decide +kernel

/-- Without the interlock's time the permit stays low. -/
theorem test_permitRequest_early : (let r := up.safe .safetyRearmMs
    holds (exec (.permitRequest 5 false (r - 1) 0) up) (fun t => !(t.safeBay 5).ssafe)) = true := by decide +kernel

theorem wit_ilkOpen_brake : (up.safe .safetyIlkBrake == 1 && holds (exec .ilkOpen (withSafe (fun x => { x with ssafe := true })))
    (fun t => !(t.safeBay 5).ssafe && t.isl.ilkHigh == some 5000000000)) = true := by decide +kernel

theorem wit_ilkOpen_nobrake : (let v : State := { up with isl := { up.isl with vals := ⟨[(.safetyIlkBrake, 0, 0)], []⟩ } }
    let s := v.updSafe 5 (fun x => { x with ssafe := true, lsafe := true })
    s.safe .safetyIlkBrake != 1 && holds (exec .ilkOpen s) (fun t => (t.safeBay 5).ssafe && !(t.safeBay 5).lsafe)) = true := by decide +kernel

theorem wit_heartbeatLostIsland : (let s := { up with isl := { up.isl with agAt := 5000000000 - 500 } }
    s.islandUp && s.isl.hbRun && !s.sysHeld && decide (s.isl.agAt + 500 ≤ s.us)
      && holds (exec .heartbeatLostIsland s) (fun t => t.chip.rst.island)) = true := by decide +kernel

theorem wit_islandLostAgent : (let s := { up with isl := { up.isl with hbAt := 5000000000 - 500 } }
    decide (s.isl.hbAt + 500 ≤ s.us) && !s.sysHeld && !s.isl.agentLost && holds (exec .islandLostAgent s) (fun t => t.isl.agentLost))
    = true := by decide +kernel

theorem wit_outputReadback : (!(up.safeBay 5).lsafe && holds (exec (.outputReadback 5 true true) up) (fun t => t.isl.outLatched))
    = true := by decide +kernel

theorem wit_lockstepMismatch : holds (exec .lockstepMismatch up) (fun t => t.isl.halted && !t.isl.passed) = true := by decide +kernel

theorem wit_vddSafeReturn : (let s := { up with isl := { up.isl with supplyOk := false, passed := false } }
    !s.isl.supplyOk && !s.isl.halted && holds (exec (.vddSafeReturn true) s) (fun t => t.isl.supplyOk && t.isl.passed)) = true := by decide +kernel

theorem wit_heartbeatWord_island : (decide ((1 : BitVec 16).toNat = (up.isl.agSeq + 1) % 65536)
    && holds (exec (.heartbeatWordRx .island 1 true true true) up) (fun t => t.isl.agSeq == 1)) = true := by decide +kernel

theorem wit_heartbeatWord_agent : (decide ((1 : BitVec 16).toNat = (up.isl.hbSeq + 1) % 65536)
    && holds (exec (.heartbeatWordRx .agent 1 true true true) up) (fun t => t.isl.hbSeq == 1)) = true := by decide +kernel

theorem wit_pickupFocusSearchStart : (let v := withBay5 (fun y => { y with spindle := { y.spindle with ready := true }, pa := { y.pa with link := { y.pa.link with st := .active } } })
    let s := v.updSafe 5 (fun x => { x with lsafe := true })
    (s.pu 5 .A).ms.st == .off && (s.bay 5).spindle.ready && (s.pu 5 .A).link.live && s.portUp 5 .A && !(s.pu 5 .A).cal.retired
      && (s.safeBay 5).lsafe && s.coreStarts 5 (.pickup .A)
      && holds (exec (.pickupFocusSearchStart 5 .A) s) (fun t => (t.pu 5 .A).ms.st == .focusSearch && (t.pu 5 .A).link.laser))
    = true := by decide +kernel

theorem wit_loopLock_focus : (let n := up.bndN (.pickup 5 .A) .loopFocusLockTicks
    let s := inSt .focusSearch (fun u => { u with focus := { u.focus with closed := true, within := n } })
    (s.pu 5 .A).focus.closed && !(s.pu 5 .A).focus.locked && decide (s.bndN (.pickup 5 .A) .loopFocusLockTicks ≤ (s.pu 5 .A).focus.within)
      && holds (exec (.loopLock 5 .A .focus) s) (fun t => (t.pu 5 .A).ms.st == .trackPull)) = true := by decide +kernel

theorem wit_loopLock_track : (let n := up.bndN (.pickup 5 .A) .loopTrackLockTicks
    let s := inSt .trackPull (fun u => { u with focus := { u.focus with locked := true }, track := { u.track with closed := true, within := n } })
    (s.pu 5 .A).track.closed && !(s.pu 5 .A).track.locked && (s.pu 5 .A).focus.locked
      && decide (s.bndN (.pickup 5 .A) .loopTrackLockTicks ≤ (s.pu 5 .A).track.within)
      && holds (exec (.loopLock 5 .A .track) s) (fun t => (t.pu 5 .A).ms.st == .acquire)) = true := by decide +kernel

theorem wit_loopUnlock_focus : (let s := inSt .follow (fun u => { u with focus := { u.focus with locked := true, beyond := 4 } })
    decide ((s.pu 5 .A).ms.ladders < s.liveN .loopRecoverMaxTries) && (s.pu 5 .A).focus.locked
      && holds (exec (.loopUnlock 5 .A .focus) s) (fun t => (t.pu 5 .A).ms.st == .recover)) = true := by decide +kernel

theorem test_loopUnlock_three : (let s := inSt .follow (fun u => { u with focus := { u.focus with locked := true, beyond := 3 } })
    holds (exec (.loopUnlock 5 .A .focus) s) (fun t => (t.pu 5 .A).ms.st == .follow)) = true := by decide +kernel

theorem wit_loopUnlock_track : (let s := inSt .follow (fun u => { u with track := { u.track with locked := true, beyond := 4 } })
    (s.pu 5 .A).track.locked && holds (exec (.loopUnlock 5 .A .track) s) (fun t => (t.pu 5 .A).ms.st == .recover)) = true := by decide +kernel

theorem wit_missedTickUnlock : (let s := inSt .follow (fun u => { u with link := { u.link with missTick := up.liveN .cengMissMax } })
    s.portUp 5 .A && decide (s.liveN .cengMissMax ≤ (s.pu 5 .A).link.missTick)
      && holds (exec (.missedTickUnlock 5 .A) s) (fun t => (t.pu 5 .A).ms.st == .recover)) = true := by decide +kernel

theorem wit_pickupStateLimit : (let s := inSt .trackPull id
    decide ((s.pu 5 .A).ms.since + s.bndN (.pickup 5 .A) .loopTrackPullUs ≤ s.us)
      && holds (exec (.pickupStateLimit 5 .A) s) (fun t => (t.pu 5 .A).ms.st == .recover)) = true := by decide +kernel

theorem wit_recoverHoldEnd_locked : (let s := inSt .recover (fun u => { u with focus := { u.focus with locked := true } })
    !(s.pu 5 .A).ms.recap && decide ((s.pu 5 .A).ms.since + s.liveN .loopRecoverHoldUs ≤ s.us) && (s.pu 5 .A).ms.cause == .ordinary
      && holds (exec (.recoverHoldEnd 5 .A) s) (fun t => (t.pu 5 .A).ms.st == .trackPull)) = true := by decide +kernel

theorem wit_recoverHoldEnd_unlocked : (let s := inSt .recover id
    !(s.pu 5 .A).focus.locked && holds (exec (.recoverHoldEnd 5 .A) s) (fun t => (t.pu 5 .A).ms.st == .recover && (t.pu 5 .A).ms.recap))
    = true := by decide +kernel

theorem wit_localRecaptureEnd : (let s := inSt .recover (fun u => { u with ms := { u.ms with recap := true, st := .recover }, focus := { u.focus with closed := true } })
    (s.pu 5 .A).ms.recap && (s.pu 5 .A).focus.closed
      && holds (exec (.localRecaptureEnd 5 .A) s) (fun t => (t.pu 5 .A).ms.st == .trackPull)) = true := by decide +kernel

theorem wit_localRecaptureEnd_search : (let s := inSt .recover (fun u => { u with ms := { u.ms with recap := true, st := .recover } })
    (s.pu 5 .A).ms.recap && !(s.pu 5 .A).focus.closed && !s.coresHeld
      && decide ((s.pu 5 .A).ms.since + s.bndN (.pickup 5 .A) .loopFocusRecapUs ≤ s.us)
      && holds (exec (.localRecaptureEnd 5 .A) s) (fun t => (t.pu 5 .A).ms.st == .focusSearch)) = true := by decide +kernel

theorem wit_pickupStateLimit_spent : (let s := inSt .trackPull (fun u => { u with ms := { u.ms with st := .trackPull, ladders := 1000 } })
    decide (s.liveN .loopRecoverMaxTries ≤ (s.pu 5 .A).ms.ladders)
      && holds (exec (.pickupStateLimit 5 .A) s) (fun t => (t.pu 5 .A).ms.st == .failed || (t.pu 5 .A).ms.st == .off)) = true := by decide +kernel

theorem wit_pickupFailedRetry : (let s := inSt .failed id
    !(s.pu 5 .A).cal.retired && s.coreStarts 5 (.pickup .A) && decide ((s.pu 5 .A).ms.since + 1000000 * s.liveN .loopRecoverRetryS ≤ s.us)
      && holds (exec (.pickupFailedRetry 5 .A) s) (fun t => (t.pu 5 .A).ms.st == .off)) = true := by decide +kernel

/-- `inSt .follow` with the bay at 30 mm in the data zone. -/
def at30 (f : Pickup → Pickup) : State := (inSt .follow f).updBay 5 (fun y => { y with zone := .data, radius := 3000000, radA := some 3000000 })

theorem wit_swathJumpIssue : (let s := at30 id
    decide ((3 : Int).natAbs ≤ s.bndN (.pickup 5 .A) .loopJumpMaxSwaths) && (s.pu 5 .A).mayMove && s.coreStarts 5 (.pickup .A)
      && s.inBand 5 .A (((s.bay 5).radiusNow .A : Int) + 3 * swathPitch).toNat
      && holds (exec (.swathJumpIssue 5 .A 3) s) (fun t => (t.pu 5 .A).ms.jump == some ⟨3, 0, 0, .follow, false, 0⟩)) = true := by decide +kernel

/-- R18: a swath jump that would leave the zone is not made. -/
theorem test_swathJump_border : (let s := (at30 id).updBay 5 (fun y => { y with zone := .leadIn })
    holds (exec (.swathJumpIssue 5 .A 3) s) (fun t => (t.pu 5 .A).ms.jump == none)) = true := by decide +kernel

theorem wit_restLoopJump : (let s := inSt .follow (fun u => { u with ms := { u.ms with rest := some 0, st := .follow }, sheet := { u.sheet with lastConf := ⟨.A, 0, .data, 2000000⟩ } })
    (s.pu 5 .A).ms.rest == some 0 && (s.pu 5 .A).resting && (s.pu 5 .A).sheet.unconf == [] && !s.unitDead 5 (.pickup .A)
      && decide (0 + s.liveN .loopRestTurns ≤ turnOf (s.pu 5 .A).sheet.lastConf.zone (s.pu 5 .A).sheet.lastConf.frame)
      && holds (exec (.restLoopJump 5 .A) s) (fun t => (t.pu 5 .A).ms.jump == some ⟨-1, 0, 0, .follow, false, 0⟩)) = true := by decide +kernel

theorem wit_layerJumpIssue : (let s := inSt .follow id
    (s.pu 5 .A).write.block == none && (s.pu 5 .A).sheet.unconf == [] && (s.pu 5 .A).cur == none && (s.pu 5 .A).write.setReady 11
      && s.coreStarts 5 (.pickup .A) && (11 != (s.pu 5 .A).ms.layer)
      && holds (exec (.layerJumpIssue 5 .A 11) s) (fun t => (t.pu 5 .A).ms.st == .layerJump && (t.pu 5 .A).ms.tgtLayer == 11)) = true := by decide +kernel

theorem wit_seekIssue : (let s := inSt .acquire id
    (s.pu 5 .A).mayMove && (s.pu 5 .B).ms.st == .off && s.coreStarts 5 .motor && s.coreStarts 5 (.pickup .A) && s.coreStarts 5 (.pickup .B) && decide (radiusR0 ≤ 3000000 ∧ 3000000 ≤ radiusEnd) && s.seekInOrder 5 3000000
      && holds (exec (.seekIssue 5 3000000) s) (fun t => (t.pu 5 .A).ms.st == .seek && (t.bay 5).radius == 3000000
        && (t.bay 5).zone == zoneAt 3000000 && (t.bay 5).zone == .data)) = true := by decide +kernel

/-- R436: of two reads that need a seek the nearer goes first; one that has waited 2 s goes before it. -/
theorem test_seek_order : (let reads := fun (t : Nat) => [(⟨0, .data, 100000⟩, 3000, t), (⟨0, .data, 400000⟩, 2000, 0)]
    (seekFirst 1000 (reads 500) (⟨0, .data, 400000⟩, 2000, 0), seekFirst 1000 (reads 500) (⟨0, .data, 100000⟩, 3000, 500),
      seekFirst 2000000 (reads 500) (⟨0, .data, 400000⟩, 2000, 0), seekFirst 2000000 [(⟨0, .data, 100000⟩, 3000, 0), (⟨0, .data, 400000⟩, 2000, 7)] (⟨0, .data, 100000⟩, 3000, 0)))
    = (true, false, true, true) := by decide +kernel

theorem wit_targetFrameApproach : (let s := inSt .follow (fun u => { u with sheet := { u.sheet with lock := .locked, lastConf := ⟨.A, 0, .data, 1000⟩ } })
    let x := (s.pu 5 .A).sheet
    (s.pu 5 .A).mayMove && x.lock == .locked
      && swathsTo ((1040 : Int) - (x.lastConf.frame + x.miss : Nat))
          (framesPerTurnMilli (radiusOf x.lastConf.zone (x.lastConf.frame + x.miss)) / 1000) 2 == 0
      && holds (exec (.targetFrameApproach 5 .A 1040 false) s) (fun t => (t.pu 5 .A).ms.tgtFrame == 1040 && (t.pu 5 .A).ms.hasTarget))
    = true := by decide +kernel

theorem wit_servoTickMissing_dead : (let s := State.updPu { up with blk := { up.blk with dead := [(5, .pickup .A)] } } 5 .A (fun u => { u with link := { u.link with st := .active } })
    s.portUp 5 .A && (s.link 5 .A).live && s.unitDead 5 (.pickup .A)
      && holds (exec (.servoTickMissing 5 .A) s) (fun t => (t.link 5 .A).absent == 1)) = true := by decide +kernel

theorem wit_servoTickMissing : (let s := (withPu (fun u => { u with link := { u.link with st := .active } })).updSafe 5 (fun x => { x with lsafe := true })
    s.portUp 5 .A && (s.link 5 .A).live && (s.safeBay 5).lsafe && !s.unitDead 5 (.pickup .A)
      && holds (exec (.servoTickMissing 5 .A) s) (fun t => (t.link 5 .A).absent == 1 && (t.pu 5 .A).ms.ticks == (s.pu 5 .A).ms.ticks + 1))
    = true := by decide +kernel

/-- `up` with the head link of pickup A of bay 5 active. -/
def linkUp : State := withLink (fun l => { l with st := .active })

/-- A `SERVO` frame of tick 7. -/
def servo7 : Bytes := mkFrame 2 0 0 (beBytes 2 7)

theorem servo7_tick : (servoOf servo7).tick = 7 := by
  have h := mkFrame_slice 2 0 0 (beBytes 2 7) 0 2 (by decide)
  have h2 : slice (padTo 504 (beBytes 2 7)) 0 2 = beBytes 2 7 := by decide +kernel
  have h3 : beNat (beBytes 2 7) = 7 := by decide
  show beNat (slice (mkFrame 2 0 0 (beBytes 2 7)) (4 + 0) 2) = 7
  rw [h, h2, h3]

theorem rx_tickNext (raw : Bytes) : ((linkUp.rxLane 5 .A .UP0 raw).2.link 5 .A).tickNext = none := rfl

theorem wit_hlinkServoFrame_new : let r := linkUp.rxLane 5 .A .UP0 (hframe 2 0 0 (beBytes 2 7))
    (linkUp.portUp 5 .A && (linkUp.link 5 .A).live) = true ∧ r = ([servo7], r.2) ∧ frGood servo7 = true ∧ frType servo7 = 2
      ∧ (r.2.link 5 .A).tickNew (servoOf servo7).tick = true := by
  refine ⟨by decide +kernel, State.rxLane_none _ rfl _ _ _ _, mkFrame_good .., mkFrame_type .., ?_⟩
  unfold HLink.tickNew
  rw [rx_tickNext]
  rfl

/-- The same frame accepted again, as `linkUp` with tick 8 to come. -/
def linkServo : State := withLink (fun l => { l with st := .active, tickNext := some 8 })

theorem rx_tickNext8 (raw : Bytes) : ((linkServo.rxLane 5 .A .UP0 raw).2.link 5 .A).tickNext = some 8 := rfl

theorem wit_hlinkServoFrame_same : let r := linkServo.rxLane 5 .A .UP0 (hframe 2 0 0 (beBytes 2 7))
    (linkServo.portUp 5 .A && (linkServo.link 5 .A).live) = true ∧ r = ([servo7], r.2) ∧ frGood servo7 = true ∧ frType servo7 = 2
      ∧ (r.2.link 5 .A).tickNew (servoOf servo7).tick = false := by
  refine ⟨by decide +kernel, State.rxLane_none _ rfl _ _ _ _, mkFrame_good .., mkFrame_type .., ?_⟩
  unfold HLink.tickNew
  rw [rx_tickNext8, servo7_tick]
  decide

theorem wit_rowSwitchTimeout : (let s := withPu (fun u => { u with link := { u.link with rowReq := some ⟨3, 0⟩, servo := { u.link.servo with tq := 3072 } } })
    (s.link 5 .A).rowReq.isSome && s.portUp 5 .A && decide (3072 ≤ ((s.link 5 .A).servo.tq + 2 ^ 32 - 0) % 2 ^ 32)
      && holds (exec (.rowSwitchTimeout 5 .A) s) (fun t => (t.link 5 .A).rowReq == none)) = true := by decide +kernel

/-- Pickup A reading in the data zone at its 480th tick, the envelope of its last half period a mean of 9. -/
def trimming (dither : Bool) (env : Option Nat) : State :=
  inSt .follow (fun u => { u with
    cur := some ⟨⟨0, .data, 5⟩, .cal, 0, 0⟩
    ms := { u.ms with st := .follow, saDither := dither, saEnv := env, clock := 480, saSlot := 0 }
    sheet := { u.sheet with lastConf := ⟨.A, 0, .data, 4⟩, envSum := 18, envCnt := 2 } })

theorem wit_saTrimUpdate_dither : (let s := trimming true none
    decide ((s.pu 5 .A).ms.saSlot < (s.pu 5 .A).ms.clock / 480) && !s.unitDead 5 (.pickup .A) && !(s.pu 5 .A).trimFrozen
      && holds (exec (.saTrimUpdate 5 .A) s) (fun t => !(t.pu 5 .A).ms.saDither && (t.pu 5 .A).ms.saEnv == some (9 * 65536)
        && (t.pu 5 .A).ms.saOfs == -(s.live .loopSaDither))) = true := by decide +kernel

/-- R152: the half period with less envelope loses, one step at a time. -/
theorem wit_saTrimUpdate_lower : (let s := trimming false (some (10 * 65536))
    !(s.pu 5 .A).ms.saDither && holds (exec (.saTrimUpdate 5 .A) s) (fun t => (t.pu 5 .A).ms.saDither
      && (t.pu 5 .A).ms.saTrim == s.live .loopSaTrimStep)) = true := by decide +kernel

theorem wit_saTrimUpdate_frozen : (let s := (trimming true none).updPu 5 .A (fun u => { u with cur := none })
    decide ((s.pu 5 .A).ms.saSlot < (s.pu 5 .A).ms.clock / 480) && (s.pu 5 .A).trimFrozen
      && holds (exec (.saTrimUpdate 5 .A) s) (fun t => (t.pu 5 .A).ms.saDither && (t.pu 5 .A).ms.saTrim == (s.pu 5 .A).ms.saTrim
        && (t.pu 5 .A).ms.saSlot == 1)) = true := by decide +kernel

/-- `up` with sled A of bay 5 changed, its motor link active. -/
def withSled (f : Sled → Sled) : State := withBay5 (fun y => { y with mlink := { y.mlink with st := .active }, sledA := f y.sledA })

/-- A bank that obeys the rules of R166: gain 1 everywhere. -/
def flatBank : Bytes :=
  sealRecord 128 (zeros 32 ++ leBytes 2 32767 ++ zeros 2 ++ leBytes 2 1 ++ zeros 4 ++ (List.range 17).flatMap (fun _ => leBytes 2 4096))

theorem wit_sledTarget : (let s := withSled (fun x => { x with lost := false, r0 := some 0 })
    ((s.bay 5).sled .A).r0 == some 0 && s.sledMovable 5 .A && s.mportUp 5 && s.coreStarts 5 .motor && (s.pu 5 .A).ms.st != .seek
      && ((s.bay 5).sled .A).vel == 0 && ((s.bay 5).sled .A).acc == 0
      && holds (exec (.sledTarget 5 .A 3000000 false) s) (fun t => ((t.bay 5).sled .A).plan.isSome)) = true := by decide +kernel

theorem wit_seekArrive : (let v := inSt .seek id
    let s := v.updSled 5 .A (fun x => { x with reached := some 0, seeking := true })
    ((s.bay 5).sled .A).reached == some 0 && ((s.bay 5).sled .A).seeking && (s.pu 5 .A).ms.st == .seek && decide (0 + s.liveN .sledSettleMs * 1000 ≤ s.us)
      && holds (exec (.seekArrive 5 .A) s) (fun t => (t.pu 5 .A).ms.st == .trackPull)) = true := by decide +kernel

theorem wit_sledHoldReduce : (let s := withSled (fun x => { x with enabled := true, lost := false, scale := 255 })
    ((s.bay 5).sled .A).plan == none && ((s.bay 5).sled .A).ramp == none
      && ((s.bay 5).sled .A).scale != s.runScale 5 * s.bndN (.bay 5) .sledHoldPct / 100
      && decide (((s.bay 5).sled .A).moved + s.liveN .sledHoldDelayMs * 1000 ≤ s.us)
      && holds (exec (.sledHoldReduce 5 .A) s) (fun t => ((t.bay 5).sled .A).ramp == some s.us)) = true := by decide +kernel

theorem wit_sledPowerDown : (let s := withSled (fun x => { x with enabled := true, lost := false, pos := 512 * 65536 })
    (s.bay 5).spindle.st == .stopped && s.coreStarts 5 .motor
      && rnd ((s.bay 5).sled .A).pos (256 * 65536) * (256 * 65536) == ((s.bay 5).sled .A).pos
      && decide (((s.bay 5).sled .A).moved + 20000 ≤ s.us)
      && holds (exec (.sledPowerDown 5 .A) s) (fun t => !((t.bay 5).sled .A).enabled && ((t.bay 5).sled .A).off)) = true := by decide +kernel

theorem wit_sledTableLoad : (let s := withSled (fun x => { x with enabled := true, bank := false })
    ((s.bay 5).sledA.bank != true) && !(s.bay 5).sledB.enabled && (s.bay 5).mlink.load == none && !s.coresHeld
      && holds (exec (.sledTableLoad 5 true (zeros 4096)) s) (fun t => (t.bay 5).mlink.load.isSome)) = true := by decide +kernel

theorem wit_sledCoarseStep : (let s := withBay5 (fun y => { y with mlink := { y.mlink with st := .active }, sledA := { y.sledA with enabled := true }, sledB := { y.sledB with enabled := true } })
    s.mportUp 5 && !s.unitDead 5 .motor && decide (8 * (s.bay 5).sledA.step ≤ (s.bay 5).mlink.frames / 2) && [Pu.A, Pu.B].all (fun p => ((s.bay 5).sled p).plan == none && ((s.bay 5).sled p).rephase == none)
      && holds (exec (.sledCoarseStep 5) s) (fun t => ((t.bay 5).sled .A).step == 1 && ((t.bay 5).sled .B).step == 1)) = true := by decide +kernel

/-- Pickup A in `FOLLOW` at its 80th tick with a mean displacement, in µm. -/
def following (um : Nat) (steer : Bool) : State :=
  (inSt .follow (fun u => { u with ms := { u.ms with st := .follow, clock := 80, dispMean := 65536 * um, steer := steer } })).updSled 5 .A
    (fun x => { x with r0 := some 0 })

theorem wit_sledFollowUpdate_move : (let s := following (up.liveN .loopSledDeadbandUm + 1) false
    !s.unitDead 5 (.pickup .A) && decide ((s.pu 5 .A).ms.followSlot < (s.pu 5 .A).ms.clock / 80)
      && decide ((s.pu 5 .A).ms.dispMean.natAbs ≤ s.liveN .loopSledLimitUm * 65536) && !(s.pu 5 .A).ms.steer
      && decide (s.liveN .loopSledDeadbandUm * 65536 < (s.pu 5 .A).ms.dispMean.natAbs)
      && holds (exec (.sledFollowUpdate 5 .A) s) (fun t => (t.pu 5 .A).ms.st == .follow && (t.pu 5 .A).ms.followSlot == 1)) = true := by decide +kernel

theorem wit_sledFollowUpdate_steer : (let s := (following 0 true).updBay 5 (fun y => { y with ref := .B, radB := some 3000000 })
    !s.unitDead 5 (.pickup .A) && (s.pu 5 .A).ms.steer
      && (if (s.bay 5).ref == .A then (s.bay 5).radA else (s.bay 5).radB) == some 3000000
      && holds (exec (.sledFollowUpdate 5 .A) s) (fun t => (t.pu 5 .A).ms.followSlot == 1)) = true := by decide +kernel

/-- R162: a second follow update in the same 80 ticks does nothing. -/
theorem test_sledFollowUpdate_cadence : (let s := (following 100 false).updMs 5 .A (fun m => { m with followSlot := 1 })
    holds (exec (.sledFollowUpdate 5 .A) s) (fun t => t.pu 5 .A == s.pu 5 .A)) = true := by decide +kernel

theorem wit_sledFollowUpdate_limit : (let s := following (up.liveN .loopSledLimitUm + 1) false
    decide (s.liveN .loopSledLimitUm * 65536 < (s.pu 5 .A).ms.dispMean.natAbs) && !(s.pu 5 .A).ms.limitHit && (s.pu 5 .A).cur == none
      && (s.pu 5 .A).write.block == none && decide ((s.pu 5 .A).ms.ladders < s.liveN .loopRecoverMaxTries)
      && holds (exec (.sledFollowUpdate 5 .A) s) (fun t => (t.pu 5 .A).ms.st == .recover)) = true := by decide +kernel

/-- A sealed record carries its check word. -/
theorem recordGood_seal (n : Nat) (b : Bytes) (h : 4 ≤ n) : recordGood n (sealRecord n b) = true := by
  have hl : (padTo (n - 4) b).length = n - 4 := padTo_length ..
  have h1 : (sealRecord n b).take (n - 4) = padTo (n - 4) b := by
    unfold sealRecord
    dsimp only
    rw [List.take_append_of_le_length (by omega), List.take_of_length_le (by omega)]
  have h2 : leAt (sealRecord n b) (n - 4) 4 = (recCrc (padTo (n - 4) b)).toNat := by
    have h3 := slice_right (padTo (n - 4) b) (leBytes 4 (recCrc (padTo (n - 4) b)).toNat) 4 (by simp)
    rw [hl] at h3
    unfold leAt sealRecord
    dsimp only
    rw [h3, leNat_leBytes]
    have := (recCrc (padTo (n - 4) b)).isLt
    omega
  have h4 : (sealRecord n b).length = n := by simp [sealRecord]; omega
  simp [recordGood, h1, h2, h4]

theorem wit_bankSwapArm_good : bankGood flatBank = true ∧ up.coreStarts 5 (.pickup .A) = true := by
  have hr : recordGood 128 flatBank = true := recordGood_seal 128 _ (by decide)
  refine ⟨?_, by decide +kernel⟩
  unfold bankGood
  simp only [hr, Bool.and_true]
  decide +kernel

theorem wit_bankSwapArm_bad : (!bankGood (zeros 128)
    && holds (exec (.bankSwapArm 5 .trackAcq .A .tune (zeros 128) 9) up) (fun t => (t.pu 5 .A).track.armed == [])) = true := by decide +kernel

theorem wit_autoTuneStart : (let s := inSt .follow (fun u => { u with focus := { u.focus with locked := true, useFollow := true } })
    s.tuneOk 5 .A && s.coreStarts 5 (.pickup .A) && (s.bay 5).pa.tuning == none && (s.bay 5).pb.tuning == none
      && holds (exec (.autoTuneStart 5 .A .focus) s) (fun t => (t.pu 5 .A).tuning == some .focus)) = true := by decide +kernel

/-- R173: a tune that may no longer run ends with the following bank as it was. -/
theorem wit_autoTuneEnd : (let s := withPu (fun u => { u with track := { u.track with tune := some ⟨0, 1, 0, 0, 0, 0, 0, []⟩, follow := some (bankOf flatBank) } })
    (s.pu 5 .A).tuning == some .track && !s.tuneOk 5 .A
      && holds (exec (.autoTuneEnd 5 .A) s) (fun t => (t.pu 5 .A).track.tune == none && (t.pu 5 .A).track.follow == (s.pu 5 .A).track.follow))
    = true := by decide +kernel

theorem wit_tuneRevertWindowEnd : (let n := up.liveN .cengSupRevertTicks
    let s := withPu (fun u => { u with track := { u.track with swapAge := some n, swapSrc := .tune } })
    ((s.pu 5 .A).loop .track).swapAge == some n
      && holds (exec (.tuneRevertWindowEnd 5 .A .track) s) (fun t => (t.pu 5 .A).track.swapAge == none && (t.pu 5 .A).cal.recDue != none)) = true := by decide +kernel

theorem wit_clvRefSwitch : (let s := withBay5 (fun y => { y with pb := { y.pb with sheet := { y.pb.sheet with lock := .locked } } })
    decide ((s.bay 5).refLost + s.liveN .loopClvSwitchWedges * frameUs (s.bay 5).zone ≤ s.us) && s.locked 5 (s.bay 5).ref.other
      && holds (exec (.clvRefSwitch 5) s) (fun t => (t.bay 5).ref == .B)) = true := by decide +kernel

theorem wit_clvRefRestore : (let s := withBay5 (fun y => { y with ref := .B, pa := { y.pa with sheet := { y.pa.sheet with lock := .locked } } })
    (s.bay 5).ref != s.configuredRef 5 && s.locked 5 (s.configuredRef 5) && (s.bay 5).pa.write.block == none && (s.bay 5).pb.write.block == none
      && holds (exec (.clvRefRestore 5) s) (fun t => (t.bay 5).ref == .A)) = true := by decide +kernel

theorem wit_cengCheckpoint : (!up.coresHeld && (up.blkOf ⟨5, 3, 6⟩).up && decide ((up.engCk 3 6).at' + 100 ≤ up.us)
    && (up.engCk 3 6).seq % 2 == 0
    && holds (exec (.cengCheckpoint 3 6) up) (fun t => (t.engCk 3 6).seq == 1 && (t.engCk 3 6).recB == (up.engCk 3 6).recB)) = true := by decide +kernel

theorem wit_cengCoreFault : ((up.blkOf ⟨5, 0, 2⟩).up && holds (exec (.cengCoreFault 0 2 .check) up) (fun t => !(t.blkOf ⟨5, 0, 2⟩).up
    && t.blk.takeovers.any (fun x => x.kind == 5 && x.inst == 2))) = true := by decide +kernel

theorem wit_cengTakeoverDone : (let s := { up with blk := { up.blk with takeovers := [⟨0, 5, 2, 0⟩] } }
    (s.blk.takeovers.find? (fun x => x.region == 0 && x.kind == 5 && x.inst < 6)).isSome
      && holds (exec (.cengTakeoverDone 0) s) (fun t => (engineUnits 0 2).all (fun u => t.blk.moved.contains u) && t.blk.takeovers == [])) = true := by decide +kernel

theorem wit_unitHandoverDone : (let s := { up with blk := { up.blk with takeovers := [⟨0, 5, handoverNo 5 .motor, 0⟩] } }
    s.blk.takeovers.any (fun x => x.region == regionOf 5 && x.kind == 5 && x.inst == handoverNo 5 .motor)
      && holds (exec (.unitHandoverDone 5 .motor) s) (fun t => t.blk.takeovers == [])) = true := by decide +kernel

/-- A bay that the part does not have is a fault (R3). -/
theorem test_noSuchBay : (let s := { up with trust := { up.trust with shadow := { up.trust.shadow with part := .YX1616 } } }
    !s.bayExists 16 && s.bayExists 15 && (match exec (.spindleStart 16) s with | .fault .noSuchBay => true | _ => false)) = true := by decide +kernel

/-- `up` with the head link of pickup A of bay 5 in training since time 0. -/
def linkDs : State := withLink (fun l => { l with st := .dsTrain })

/-- A `TRAIN` frame of a head module. -/
def train7 : Bytes := mkFrame 15 0 0 (beBytes 8 0x4A484C54524E3031)

theorem wit_hlinkTrainFrame : let raw := scramble train7
    (linkDs.portUp 5 .A && !((linkDs.link 5 .A).lane .UP0).retired) = true ∧ (linkDs.link 5 .A).st = .dsTrain
      ∧ linkDs.injectFrame (laneTarget 5 .A PhysLane.UP0.code) raw = ([raw], linkDs) ∧ frGood (scramble raw) = true
      ∧ frType (scramble raw) = 15 ∧ beAt (scramble raw) 4 8 = 0x4A484C54524E3031 := by
  dsimp only
  rw [scramble_scramble]
  refine ⟨by decide +kernel, by decide +kernel, State.injectFrame_none _ rfl _ _, mkFrame_good .., mkFrame_type .., ?_⟩
  rw [beAt, train7, mkFrame_field 15 0 0 _ 0 8 (beBytes 8 0x4A484C54524E3031) (by decide) (by decide +kernel)]
  decide +kernel

theorem wit_hlinkTrainTimeout : (let s := linkDs
    (s.link 5 .A).st == .dsTrain && decide ((s.link 5 .A).since + 2000 ≤ s.us)
      && holds (exec (.hlinkTrainTimeout 5 .A) s) (fun t => (t.link 5 .A).st == .dsTrain && (t.link 5 .A).attempts == 1)) = true := by decide +kernel

theorem wit_upTrainLimit : (let s := withLink (fun l => { l with st := .upTrain, attempts := 99 })
    decide ((s.link 5 .A).since + 5000 ≤ s.us) && [PhysLane.UP0, .UP1, .UPS].all (fun l => !(s.link 5 .A).trained l)
      && decide (s.bndN (.link 5 .A) .hlinkTrainMaxAttempts ≤ (s.link 5 .A).attempts + 1)
      && holds (exec (.upTrainLimit 5 .A) s) (fun t => (t.link 5 .A).st == .failed)) = true := by decide +kernel

theorem wit_hlinkTrainRetry : (let s := withLink (fun l => { l with st := .failed })
    !(s.link 5 .A).noRetry && decide ((s.link 5 .A).since + 1000000 * s.liveN .hlinkTrainRetryIntervalS ≤ s.us)
      && holds (exec (.hlinkTrainRetry 5 .A) s) (fun t => (t.link 5 .A).st == .dsTrain)) = true := by decide +kernel

theorem wit_dnLost_stall : (let s := withLink (fun l => { l with st := .active, seqStall := 8, laser := true })
    (s.link 5 .A).live && holds (exec (.dnLost 5 .A) s) (fun t => (t.link 5 .A).st == .dsTrain && !(t.link 5 .A).laser)) = true := by decide +kernel

theorem wit_dnLost_absent : (let s := withLink (fun l => { l with st := .active, absent := 8, wpermit := true })
    holds (exec (.dnLost 5 .A) s) (fun t => (t.link 5 .A).st == .dsTrain && !(t.link 5 .A).wpermit)) = true := by decide +kernel

theorem test_dnLost_seven : (let s := withLink (fun l => { l with st := .active, seqStall := 7 })
    holds (exec (.dnLost 5 .A) s) (fun t => (t.link 5 .A).st == .active)) = true := by decide +kernel

/-- `up` with the head link and the spare receiver of bay 5 changed. -/
def withSpare (sp : SpareRx) (f : HLink → HLink) : State :=
  withBay5 (fun y => { y with spare := sp, pa := { y.pa with link := f y.pa.link } })

theorem wit_laneRetrainStart : (let s := withSpare (.standby .A) (fun l => { l with st := .active, up0 := { l.up0 with crcRun := 8 } })
    s.portUp 5 .A && s.laneBad 5 .A .UP0 && !((s.link 5 .A).lane .UP0).failed && ((s.link 5 .A).logical .UP0).isSome
      && holds (exec (.laneRetrainStart 5 .A .UP0) s) (fun t => (t.bay 5).spare == .carrying .A)) = true := by decide +kernel

theorem wit_spareTrainDone_bad : (let s := withSpare (.training .A) (fun l => { l with st := .active })
    !(s.link 5 .A).ups.failed && holds (exec (.spareTrainDone 5 .A false) s) (fun t => (t.bay 5).spare == .idle)) = true := by decide +kernel

theorem wit_spareTrainDone_one : (let s := withSpare (.training .A) (fun l => { l with st := .active, oneLane := true, up0 := { l.up0 with failed := true } })
    (s.link 5 .A).oneLane && (s.link 5 .A).up0.failed && !(s.link 5 .A).up1.failed
      && holds (exec (.spareTrainDone 5 .A true) s) (fun t => (t.bay 5).spare == .carrying .A)) = true := by decide +kernel

theorem wit_laneTrainResult : (let s := withLink (fun l => { l with st := .active, training := [.UP1] })
    (s.link 5 .A).live && (s.link 5 .A).training.contains .UP1 && !(s.link 5 .A).oneLane
      && holds (exec (.laneTrainResult 5 .A .UP1 false) s) (fun t => ((t.link 5 .A).lane .UP1).retired)
      && holds (exec (.laneTrainResult 5 .A .UP1 true) s) (fun t => ((t.link 5 .A).lane .UP1).retrained)) = true := by decide +kernel

theorem wit_laneMapBack : (let s := withSpare (.carrying .A) (fun l => { l with st := .active, map0 := .UPS, up0 := { l.up0 with retrained := true, failed := true } })
    s.idlePeriod 5 .A && (s.link 5 .A).up0.retrained && !(s.link 5 .A).up1.retrained && !(s.link 5 .A).up1.failed
      && holds (exec (.laneMapBack 5 .A) s) (fun t => !(t.link 5 .A).up0.failed && (t.link 5 .A).mapNext == some (.UP0, .UP1))) = true := by decide +kernel

theorem wit_laneRetrainLimit : (let s := withLink (fun l => { l with st := .laneRetrain })
    decide ((s.link 5 .A).since + 1100 ≤ s.us) && holds (exec (.laneRetrainLimit 5 .A) s) (fun t => (t.link 5 .A).oneLane)) = true := by decide +kernel

theorem wit_spareStandbyApply : (let s := withSpare .idle (fun l => { l with st := .active })
    s.mportUp 5 && (match exec (.spareStandbyApply 5) s with | .next _ => true | _ => false)) = true := by decide +kernel

/-- `up` with one `CTRL` operation of tag 9 outstanding on the head link of pickup A of bay 5. -/
def linkCtrl : State := withLink (fun l => { l with st := .active, ctrl := [⟨9, 1, 0, [], 0, 1, 0, false⟩] })

/-- Its reply. -/
def reply9 : Bytes := mkFrame 3 0 0 [9#8, 1#8]

theorem rx_ctrl (raw : Bytes) : ((linkCtrl.rxLane 5 .A .UP0 raw).2.link 5 .A).ctrl = [⟨9, 1, 0, [], 0, 1, 0, false⟩] := rfl

theorem rx_ctrlQ (raw : Bytes) : ((linkCtrl.rxLane 5 .A .UP0 raw).2.link 5 .A).ctrlQ = [] := rfl

theorem rx_load (raw : Bytes) : ((linkCtrl.rxLane 5 .A .UP0 raw).2.pu 5 .A).write.load = none := rfl

theorem wit_hlinkReplyFrame : let r := linkCtrl.rxLane 5 .A .UP0 (scramble reply9)
    (linkCtrl.portUp 5 .A && (linkCtrl.link 5 .A).live) = true ∧ r = ([reply9], r.2) ∧ frGood reply9 = true ∧ frType reply9 = 3
      ∧ (r.2.link 5 .A).ctrl.find? (fun c => c.ctag == byteAt reply9 4) = some ⟨9, 1, 0, [], 0, 1, 0, false⟩
      ∧ (r.2.link 5 .A).ctrlQ = [] ∧ (r.2.pu 5 .A).write.load = none := by
  refine ⟨by decide +kernel, State.rxLane_none _ rfl _ _ _ _, mkFrame_good .., mkFrame_type .., ?_, rx_ctrlQ _, rx_load _⟩
  have h : byteAt reply9 4 = 9 :=
    byteAt_of_slice _ 4 9#8 (mkFrame_field 3 0 0 [9#8, 1#8] 0 1 [9#8] (by decide) (by decide +kernel))
  rw [rx_ctrl, h]; decide

theorem wit_ctrlReplyTimeout_again : (let s := linkCtrl
    (s.link 5 .A).ctrl.find? (fun c => c.ctag == (9#8).toNat) == some ⟨9, 1, 0, [], 0, 1, 0, false⟩
      && decide (0 + s.liveN .hlinkCtrlReplyTimeoutUs ≤ s.us) && decide (1 < s.liveN .hlinkCtrlMaxTries)
      && holds (exec (.ctrlReplyTimeout 5 .A 9) s) (fun t => (t.link 5 .A).ctrl.map (fun c => c.tries) == [2])) = true := by decide +kernel

theorem wit_ctrlReplyTimeout_last : (let s := withLink (fun l => { l with st := .active, ctrl := [⟨9, 1, 0, [], 0, 99, 0, false⟩] })
    decide (s.liveN .hlinkCtrlMaxTries ≤ 99)
      && holds (exec (.ctrlReplyTimeout 5 .A 9) s) (fun t => (t.link 5 .A).st == .dsTrain && (t.link 5 .A).ctrl == [])) = true := by decide +kernel

theorem wit_laneTrainResult_spare : (let s := withSpare (.carrying .A) (fun l => { l with st := .active, training := [.UPS], map0 := .UPS })
    (s.bay 5).spare == .carrying .A && (s.link 5 .A).live && (s.link 5 .A).training.contains .UPS
      && holds (exec (.laneTrainResult 5 .A .UPS false) s) (fun t => (t.link 5 .A).ups.retired)) = true := by decide +kernel

/-- `up` with pickup A of bay 5 following, its link and its frame lock in force. -/
def follow (f : Pickup → Pickup) : State :=
  inSt .follow (fun u => f { u with link := { u.link with st := .active }, sheet := { u.sheet with lock := .locked } })

/-- A block of samples as it travels: block 3. -/
def sample3 : Bytes := mkFrame 1 0 3 [7#8, 7#8]

theorem rx_got (raw : Bytes) : ((linkUp.rxLane 5 .A .UP0 raw).2.link 5 .A).got = [] := rfl

theorem rx_nextBlock (raw : Bytes) : ((linkUp.rxLane 5 .A .UP0 raw).2.link 5 .A).nextBlock = 0 := rfl

theorem rx_mapNext (raw : Bytes) : ((linkUp.rxLane 5 .A .UP0 raw).2.link 5 .A).mapNext = none := rfl

theorem wit_hlinkSampleFrame : let r := linkUp.rxLane 5 .A .UP0 (scramble sample3)
    (linkUp.portUp 5 .A && (linkUp.link 5 .A).live) = true ∧ r = ([sample3], r.2) ∧ frGood sample3 = true ∧ frType sample3 = 1
      ∧ (r.2.link 5 .A).mapsNew .UP0 = false ∧ (r.2.link 5 .A).blockOf (frTsh sample3) = some 3
      ∧ (r.2.link 5 .A).nextBlock ≤ 3 ∧ 3 < (r.2.link 5 .A).nextBlock + 8
      ∧ ∀ x ∈ (r.2.link 5 .A).got, x.n ≠ 3 ∧ x.n < (r.2.link 5 .A).nextBlock + 8 := by
  refine ⟨by decide +kernel, State.rxLane_none _ rfl _ _ _ _, mkFrame_good .., mkFrame_type .., ?_, ?_, ?_, ?_, ?_⟩
  · simp only [HLink.mapsNew, rx_mapNext]
  · simp only [HLink.blockOf, rx_nextBlock, sample3, mkFrame_tsh]; decide
  · simp only [rx_nextBlock]; decide
  · simp only [rx_nextBlock]; decide
  · simp only [rx_got]; intro x hx; cases hx

theorem wit_blockReleaseTimeout : (let s := linkUp
    (s.link 5 .A).live && (s.link 5 .A).got == []
      && holds (exec (.blockReleaseTimeout 5 .A) s) (fun t => (t.link 5 .A).nextBlock == 1)) = true := by decide +kernel

theorem wit_timingHoldLimit : (let s := follow (fun u => { u with sheet := { u.sheet with tracks := u.sheet.tracks.set 4 { Track.idle with limit := some 3, bits := List.replicate 5 ⟨1, false⟩ } } })
    (s.pu 5 .A).sheet.tracks.length == 16 && (((s.pu 5 .A).sheet.tracks.getD 4 .idle).lost == none) && s.portUp 5 .A
      && holds (exec (.timingHoldLimit 5 .A 4) s) (fun t => ((t.pu 5 .A).sheet.tracks.getD 4 .idle).lost == some 3
        && ((t.pu 5 .A).sheet.tracks.getD 4 .idle).bits.map (fun x => x.flag) == [true, true, false, false, false]
        && ((t.pu 5 .A).sheet.tracks.getD 5 .idle).lost == none)) = true := by decide +kernel

/-- `follow` with every track at bit 792, track 5 retired and track 3 lost. -/
def voting : State :=
  let t : Track := { Track.idle with bits := List.replicate 792 ⟨0, false⟩ }
  follow (fun u => { u with cal := { u.cal with tret := some 5 }, sheet := { u.sheet with lock := .locked, tracks := (List.replicate 16 t).set 3 { t with lost := some 9 } } })

theorem wit_segmentSyncVote : (let s := voting
    (s.pu 5 .A).sheet.lock == .locked && !(s.pu 5 .A).sheet.voted && s.portUp 5 .A && !((s.pu 5 .A).inService.contains 5)
      && (s.pu 5 .A).inService.all (fun i => 792 ≤ ((s.pu 5 .A).sheet.tracks.getD i .idle).bits.length)
      && (((s.pu 5 .A).sheet.tracks.getD 3 .idle).settle).lost.isSome
      && holds (exec (.segmentSyncVote 5 .A) s) (fun t => (t.pu 5 .A).sheet.tracks.length == 16 && (t.pu 5 .A).sheet.voted)) = true := by decide +kernel

/-- The word of a wedge of sector address 0 on surface A whose payload carries format version `ver` (R21, R22). -/
def wedgeWord (ver : Nat) : Bytes := (gf8.rsEncode 8 [0, 0, 0, 0, 0, 0, 16 * ver, 0, 0, 0]).map (fun n => BitVec.ofNat 8 n)

/-- A wedge of format 1 decodes to the address it carries (R21, R22). -/
theorem test_wedge_decodes : wedgeDecode (wedgeWord 1) [] = some ⟨⟨.A, 0, .data, 0⟩, 0, 1, 0⟩ := by decide +kernel

/-- Two lost bytes and an error are corrected (R21). -/
theorem test_wedge_corrects : wedgeDecode (((wedgeWord 1).set 2 255#8).set 9 7#8) [2] = some ⟨⟨.A, 0, .data, 0⟩, 0, 1, 0⟩ := by decide +kernel

/-- The bits of a wedge and `w` more on each side, newest first: its preamble, its sync and its address in biphase (R19, R20). -/
def wedgeBits (ver w : Nat) : List BitVal :=
  let pre := (List.range 120).map (fun k => decide (k % 2 = 0))
  let adr := (wedgeWord ver).flatMap (fun b => (byteBits b).flatMap (fun x => [x, !x]))
  ((List.replicate w false ++ pre ++ wedgeSync ++ adr ++ List.replicate w false).map (fun x => (⟨if x then 40 else -40, false⟩ : BitVal))).reverse

/-- `up` with pickup A of bay 5 in frame lock, every track standing 16 bits beyond a wedge whose sync lies at sample 1,000, two of
them with their bits; two tracks are enough. -/
def atWedge (bits : List BitVal) (lock : FrameLock) : State :=
  let t : Track := { Track.idle with t := 65536 * (1320 + 16) }
  let s := follow (fun u => { u with sheet := { u.sheet with
    lock := lock, period := 2 ^ 32, lastPos := 65536000, interval := 0
    tracks := { t with bits := bits } :: { t with bits := bits } :: List.replicate 14 t } })
  { s with cfg := { s.cfg with units := [((.pickup 5 .A, 2), ⟨[(.sheetWedgeMinTracks, 0, 2)], []⟩)] } }

theorem test_openBoundary_keeps (bits : List BitVal) (lock : FrameLock) (h : bits.length < 32768) :
    (atWedge bits lock).openBoundary 5 .A = atWedge bits lock := by
  have h1 : ((((atWedge bits lock).pu 5 .A).sheet).tracks.getD 0 .idle).bits = bits := by rfl
  unfold State.openBoundary
  dsimp only
  rw [h1, if_neg]
  simp [Nat.not_le.2 h]

/-- The wedge is found where it lies and read. -/
theorem wit_wedgeProcess_format : (let s := atWedge (wedgeBits 2 16) .locked
    let r := s.updPu 5 .A (fun u => { u with cal := u.cal.countFrame u.link.rowReq.isNone })
    (s.pu 5 .A).link.live && s.portUp 5 .A && !(s.bay 5).spindle.backward && (s.pu 5 .A).sheet.lock == .locked
      && r.wedgeAt 5 .A (s.pu 5 .A).sheet.nextWedge == some (some 65536000, some ⟨⟨.A, 0, .data, 0⟩, 0, 2, 0⟩)) = true := by decide +kernel

/-- A search finds it bit by bit. -/
theorem wit_wedgeProcess_sought : ((atWedge (wedgeBits 2 16) (.search 0 none)).wedgeSought 5 .A none).map (fun q => (q.1, q.2.ver))
    = some (65536000, 2) := by decide +kernel

theorem wit_wedgeProcess_missed : (let s := atWedge (List.replicate 472 ⟨0, false⟩) .locked
    let r := s.updPu 5 .A (fun u => { u with cal := u.cal.countFrame u.link.rowReq.isNone })
    r.wedgeAt 5 .A (s.pu 5 .A).sheet.nextWedge == some (none, none)
      && holds (exec (.wedgeProcess 5 .A) s) (fun t => (t.pu 5 .A).sheet.miss == 1)) = true := by decide +kernel

theorem wit_wedgeProcess_early : (let s := (atWedge [] .locked).updSheet 5 .A (fun x => { x with interval := 65536 * 1000 })
    let r := s.updPu 5 .A (fun u => { u with cal := u.cal.countFrame u.link.rowReq.isNone })
    r.wedgeAt 5 .A (s.pu 5 .A).sheet.nextWedge == none
      && holds (exec (.wedgeProcess 5 .A) s) (fun t => (t.pu 5 .A).sheet.miss == 0)) = true := by decide +kernel

theorem wit_wedgeProcess_search : (let s := follow (fun u => { u with sheet := { u.sheet with lock := .search 0 none } })
    s.wedgeSought 5 .A none == none
      && holds (exec (.wedgeProcess 5 .A) s) (fun t => match (t.pu 5 .A).sheet.lock with | .search _ _ => true | _ => false)) = true := by decide +kernel

theorem wit_frameLockLost : (let s := follow (fun u => { u with sheet := { u.sheet with miss := up.liveN .sheetWedgeMaxMiss } })
    holds (exec (.frameLockLost 5 .A) s) (fun t => (t.pu 5 .A).sheet.lock == .search t.us none)) = true := by decide +kernel

theorem wit_acqSearchTimeout : (let s := inSt .acquire (fun u => { u with sheet := { u.sheet with lock := .search 0 none } })
    decide (0 + s.liveN .sheetAcqSearchTimeoutUs ≤ s.us) && decide ((s.pu 5 .A).ms.ladders < s.liveN .loopRecoverMaxTries)
      && holds (exec (.acqSearchTimeout 5 .A) s) (fun t => (t.pu 5 .A).ms.st == .recover)) = true := by decide +kernel

/-- A slot of sector 7 of layer 0. -/
def slot7 : SoftSlot := { (default : SoftSlot) with sector := ⟨0, .data, 7⟩, cws := [], vals := ⟨[], []⟩ }

/-- The frame address that names it. -/
def frame35 : FrameAddr := ⟨.A, 0, .data, 35⟩

theorem wit_sectorSoftCommit : (let s := follow (fun u => { u with slots := [{ slot7 with segs := List.replicate 5 default }] })
    s.portUp 5 .A && ((s.pu 5 .A).slots.find? (fun q => !q.reading && !q.done && q.segs.length == 5)).isSome
      && holds (exec (.sectorSoftCommit 5 .A) s) (fun t => t.pu 5 .A |>.slots.any (fun q => q.done && q.cws.length == 160))) = true := by decide +kernel

theorem wit_ldpcCodewordDone : (let s := follow (fun u => { u with slots := [{ slot7 with done := true, cws := List.replicate 160 .open' }] })
    ((s.pu 5 .A).slots.find? (fun q => q.sector == sectorOf frame35)).isSome && !s.sysHeld
      && (s.pu 5 .A).slots.all (fun q => s.decodersReach (regionOf 5) q (0 < q.rereads))
      && ((s.pu 5 .A).slots.all (fun q => q.done && q.cws.length == 160 && (q.cws.getD 0 .open').verdict == none && (q.cws.getD 1 .open').verdict == none)))
    = true := by decide +kernel

theorem wit_ladderTrialDone : (let s := follow (fun u => { u with slots := [{ slot7 with done := true, plan := [.longer], cws := List.replicate 160 { CwState.open' with verdict := some false } }] })
    ((s.pu 5 .A).slots.find? (fun q => q.sector == sectorOf frame35)).isSome && !s.sysHeld
      && (s.pu 5 .A).slots.all (fun q => s.decodersReach (regionOf 5) q true && q.decided && q.plan.head? == some .longer)) = true := by decide +kernel

theorem wit_rereadPass : (let s := follow (fun u => { u with slots := [{ slot7 with rung := 6 }], reads := [⟨⟨0, .data, 7⟩, .cal, 1, 0⟩], sheet := { u.sheet with lock := .locked, releasing := true, lastConf := ⟨.A, 0, .data, 35⟩ }, ms := { u.ms with st := .follow, layer := 0 } })
    s.portUp 5 .A && s.detectorUp 5 .A
      && ((s.pu 5 .A).slots.find? (fun q => q.sector == sectorOf frame35 && q.rung = 6)).isSome
      && ((s.pu 5 .A).reads.find? (fun r => r.sector == sectorOf frame35 && 0 < r.again)).isSome && (s.pu 5 .A).cur == none
      && (s.pu 5 .A).write.block == none && (s.pu 5 .A).sheet.lock == .locked && (s.pu 5 .A).sheet.releasing && (s.pu 5 .A).ms.st == .follow
      && (s.pu 5 .A).sheet.lastConf == ⟨.A, (sectorOf frame35).layer, (sectorOf frame35).zone, 35⟩)
    = true := by decide +kernel

theorem wit_ladderTimeout : (let s := follow (fun u => { u with slots := [{ slot7 with rung := 2, done := true }] })
    (s.pu 5 .A).slots.all (fun q => q.inLadder && decide (q.begun + s.liveN .eccRetryMaxMs * 1000 ≤ s.us))
      && holds (exec (.ladderTimeout 5 .A frame35) s) (fun t => (t.pu 5 .A).slots.all (fun q => !q.inLadder))) = true := by decide +kernel

theorem wit_detectorFault : (!up.sysHeld && (up.blkOf ⟨2, 1, 16⟩).up && up.trust.shadow.part == .YX3216
    && holds (exec (.detectorFault 1 16 .store) up) (fun t => !(t.blkOf ⟨2, 1, 16⟩).up)) = true := by decide +kernel

theorem wit_ldpcDecoderFault : ((up.blkOf ⟨3, 2, 25⟩).up && holds (exec (.ldpcDecoderFault 2 25 .check) up) (fun t => !(t.blkOf ⟨3, 2, 25⟩).up))
    = true := by decide +kernel

theorem wit_detectorSpareStart : (let s := { up with blk := { up.blk with takeovers := [⟨1, 2, 3, 0⟩] } }
    s.blk.takeovers.reverse.find? (fun x => x.kind == 2 && x.region == (1 : RegionId).val) == some ⟨1, 2, 3, 0⟩
      && holds (exec (.detectorSpareStart 1) s) (fun t => t.blk.takeovers == [])) = true := by decide +kernel

theorem wit_ldpcSpareEnter : (let s := { up with blk := { up.blk with takeovers := [⟨1, 3, 3, 0⟩] } }
    s.blk.takeovers.reverse.find? (fun x => x.kind == 3 && x.region == (1 : RegionId).val) == some ⟨1, 3, 3, 0⟩
      && holds (exec (.ldpcSpareEnter 1) s) (fun t => t.blk.takeovers == [])) = true := by decide +kernel

/-- A sector on its way to the disc: sector 7 of layer 0. -/
def coded7 : Coded := { (default : Coded) with sector := ⟨0, .data, 7⟩, why := .record 0 1 0, coded := true }

theorem wit_sectorEncode : (let s := withPu (fun u => { u with write := { u.write with queue := [coded7] } })
    (s.pu 5 .A).write.queue == [coded7] && s.server 4 (regionOf 5) 0 == some 0 && !s.sysHeld
      && decide ((s.pu 5 .A).write.store.length < s.bootN .memWstoreSlots)
      && holds (exec (.sectorEncode 5 .A true) s) (fun t => !(t.blkOf ⟨4, 0, 0⟩).up && (t.pu 5 .A).write.queue == [coded7])) = true := by decide +kernel

/-- The self-check of R127 passes the codeword of 14,592 zeros, and refuses one wrong bit. -/
theorem test_ldpcGood : ldpcGood (blocksOfBits 125 (ldpcEncode (List.replicate 14592 false))) = true
    ∧ ldpcGood (blocksOfBits 125 (true :: (ldpcEncode (List.replicate 14592 false)).drop 1)) = false := by decide +kernel

/-- `up` with bay 5 ready for writes and one sector coded on pickup A. -/
def writing (f : Pickup → Pickup) : State :=
  withBay5 (fun y => { y with ready := true, spindle := { y.spindle with good := true }, pa := f { y.pa with link := { y.pa.link with st := .active, ident := some (zeros 34 ++ [4#8]), wpermit := true }, ms := { y.pa.ms with st := .follow }, sheet := { y.pa.sheet with lock := .locked }, write := { y.pa.write with store := [coded7], bankLayer := some 0, gateOk := true } } })

theorem wit_passBlockStart : (let s := writing id
    !(s.bay 5).pa.write.excursion && !(s.bay 5).pb.write.excursion && lowestSector (s.pu 5 .A).openCoded == some 7 && s.blockMayStart 5 .A 7
      && decide (0 < (s.boundary (.pickup 5 .A) 4).blockLen 5 .A 7)
      && holds (exec (.passBlockStart 5 .A) s) (fun t => (t.pu 5 .A).write.block.map (fun k => (k.j, k.n)) == some (35, 1))) = true := by decide +kernel

/-- The pass block of that sector. -/
def block7 (next : Nat) : PassBlock := { (default : PassBlock) with j := 35, n := 2, layer := 0, zone := .data, step := .even, opened := true, next := next }

/-- Pickup A writing that block from frame `next` on, the wedge of frame 34 at sample 20,000 and 32,768 samples a frame. -/
def sending (next : Nat) (c : Coded) : State :=
  writing (fun u => { u with
    link := { u.link with servoAt := up.us }
    write := { u.write with store := [c], block := some { block7 next with lead := 120 } }
    sheet := { u.sheet with lock := .locked, interval := 65536 * 32768, lastPos := 65536 * 20000, lastConf := ⟨.A, 0, .data, 34⟩ } })

theorem wit_segmentWriteSend_skip : (let s := sending 40 coded7
    (s.pu 5 .A).write.coded? ⟨0, .data, 8⟩ == none && decide (40 < 35 + 5 * 2) && s.portUp 5 .A && (s.pu 5 .A).sheet.lock == .locked
      && !decide ((((s.pu 5 .A).segStart 40).1 / 65536 : Int) - 512 * 120 ≤ (s.pu 5 .A).link.linkTime s.us)
      && (let t := s.updPu 5 .A (fun u => { u with sheet := { u.sheet with interval := 65536 } })
        decide ((((t.pu 5 .A).segStart 40).1 / 65536 : Int) - 512 * 120 ≤ (t.pu 5 .A).link.linkTime t.us)
          && holds (exec (.segmentWriteSend 5 .A) t) (fun t => (t.pu 5 .A).write.block.map (fun k => k.next) == some 45))) = true := by decide +kernel

theorem wit_segmentWriteSend : (let c : Coded := { coded7 with sent := [(35, 0)] }
    let s := sending 35 c
    let k := { block7 35 with lead := 120 }
    (s.pu 5 .A).write.block == some k && k.step == .even && k.opened && decide (k.next < k.j + 5 * k.n) && s.portUp 5 .A
      && (s.pu 5 .A).sheet.lock == .locked && decide ((((s.pu 5 .A).segStart 35).1 / 65536 : Int) - 512 * 120 ≤ (s.pu 5 .A).link.linkTime s.us)
      && (s.pu 5 .A).write.coded? ⟨0, .data, 7⟩ == some c && c.mayWrite 35 k.pass && (s.pu 5 .A).write.gateOk
      && (s.pu 5 .A).link.wpermit && (s.pu 5 .A).link.st == .active && (s.pu 5 .A).sheet.interval != 0
      && decide (((s.pu 5 .A).link.linkTime s.us : Int) + 4096 ≤ ((s.pu 5 .A).segStart 35).1 / 65536)
      && decide (34 < 35) && decide (35 ≤ 34 + s.liveN .sheetWedgeMaxMiss)) = true := by decide +kernel

theorem wit_strategyBankLoad : (let s := linkUp
    s.portUp 5 .A && (s.pu 5 .A).link.live && (s.pu 5 .A).write.block == none && (s.pu 5 .A).write.load == none && !(s.pu 5 .A).write.bankStop
      && !s.coresHeld && s.idlePeriod 5 .A) = true := by decide +kernel

/-- A set of layer 3 in bank 1 that has read back, its selection under way. -/
def selecting : State :=
  withLink (fun l => { l with st := .active }) |>.updPu 5 .A (fun u => { u with write := { u.write with load := some ⟨3, true, [], [], true⟩ } })

theorem wit_bankReply_done : (let c : CtrlOp := ⟨9, 1, 0x30000, [1], 1, 1, 0, false⟩
    let f := zeros 512
    byteAt f 5 == 0 && c.op == 1 && c.addr == 0x30000
      && (let t := selecting.bankReply 5 .A c f
        (t.pu 5 .A).write.bankSel && (t.pu 5 .A).write.bankLayer == some 3 && (t.pu 5 .A).write.load == none)) = true := by decide +kernel

/-- R134: after the third set that fails, writing stops. -/
theorem wit_bankReply_fails : (let c : CtrlOp := ⟨9, 1, 0x30000, [1], 1, 1, 0, false⟩
    let f : Bytes := [0, 0, 0, 0, 9, 1]
    let s := selecting.updPu 5 .A (fun u => { u with write := { u.write with bankFails := 2 } })
    byteAt f 5 != 0 && (let t := s.bankReply 5 .A c f
        !(t.pu 5 .A).write.bankSel && (t.pu 5 .A).write.bankFails == 3 && (t.pu 5 .A).write.bankStop)) = true := by decide +kernel

theorem wit_relocExcursionStart : (let s := writing (fun u => { u with write := { u.write with store := [{ coded7 with home := some ⟨0, .data, 9⟩ }], relocs := [{ (default : Reloc) with queued := 0, why := .record 0 1 0 }] } })
    (s.pu 5 .A).write.relocWork && (s.pu 5 .A).write.relocs.all (fun r => !r.record && decide (r.queued + s.liveN .writeRelocMaxDeferMs * 1000 ≤ s.us))
      && s.host.act.isNone && s.coreStarts 5 (.pickup .A) && s.coreStarts 5 (.pickup .B)
      && holds (exec (.relocExcursionStart 5) s) (fun t => (t.bay 5).pa.write.excursion && (t.bay 5).pb.write.excursion)) = true := by decide +kernel

/-- A motor-link frame with its check word. -/
def mframe (ty seq : Nat) (payload : Bytes) : Bytes :=
  let h := beBytes 4 (ty % 16 * 2 ^ 28 + seq % 65536 * 4096) ++ padTo 2492 payload
  h ++ beBytes 4 (linkCrc h).toNat

theorem mframe_good (ty seq : Nat) (p : Bytes) : mfrGood (mframe ty seq p) = true := by
  unfold mfrGood mframe
  generalize hb : beBytes 4 (ty % 16 * 2 ^ 28 + seq % 65536 * 4096) ++ padTo 2492 p = b
  have hl : b.length = 2496 := by subst hb; simp
  have h1 : (b ++ beBytes 4 (linkCrc b).toNat).take 2496 = b := by
    rw [List.take_append_of_le_length (by omega), List.take_of_length_le (by omega)]
  have h2 := slice_right b (beBytes 4 (linkCrc b).toNat) 4 (by simp)
  rw [hl] at h2
  dsimp only
  rw [h1, beAt, h2, beNat_beBytes]
  have := (linkCrc b).isLt
  simp [hl]
  omega

theorem mframe_slice (ty seq : Nat) (p : Bytes) (i n : Nat) (v : Bytes) (h : i + n ≤ 2492) (hv : slice (padTo 2492 p) i n = v) :
    slice (mframe ty seq p) (4 + i) n = v := by
  unfold mframe
  dsimp only
  rw [slice_left _ _ _ _ (by simp; omega), ← hv]
  unfold slice
  have h4 : ∀ a b : Bytes, a.length = 4 → (a ++ b).drop 4 = b := by
    intro a b ha
    rw [List.drop_append_of_le_length (by omega), List.drop_of_length_le (by omega), List.nil_append]
  rw [← List.drop_drop, h4 _ _ (by simp)]

theorem mframe_head (ty seq : Nat) (p : Bytes) :
    slice (mframe ty seq p) 0 4 = beBytes 4 (ty % 16 * 2 ^ 28 + seq % 65536 * 4096) := by
  unfold mframe
  dsimp only
  rw [slice_left _ _ _ _ (by simp), slice_left _ _ _ _ (by simp)]
  have h := slice_all (beBytes 4 (ty % 16 * 2 ^ 28 + seq % 65536 * 4096))
  simpa using h

theorem slice_first (f : Bytes) (b : Byte) (l : Bytes) (h : slice f 0 4 = b :: l) : slice f 0 1 = [b] := by
  unfold slice at *
  match f, h with
  | x :: f, h => simp at h ⊢; exact h.1

/-- `up` with the motor link of bay 5 in training since time 0. -/
def mlinkDs : State := withMlink (fun l => { l with st := .dsTrain })

/-- A `TRAIN` frame of a motor driver. -/
def mtrain : Bytes := mframe 15 0 (beBytes 8 0x4A4D4C54524E3031)

theorem wit_mlinkTrainFrame : let raw := scramble mtrain
    mlinkDs.mportUp 5 = true ∧ (mlinkDs.bay 5).mlink.st = .dsTrain ∧ mlinkDs.injectFrame (1, 5, 1) raw = ([raw], mlinkDs)
      ∧ mfrGood (scramble raw) = true ∧ frType (scramble raw) = 15 ∧ beAt (scramble raw) 4 8 = 0x4A4D4C54524E3031 := by
  dsimp only
  rw [scramble_scramble]
  refine ⟨by decide +kernel, by decide +kernel, State.injectFrame_none _ rfl _ _, mframe_good .., ?_, ?_⟩
  · rw [mtrain, frType, byteAt_of_slice _ 0 240#8 (slice_first _ 240#8 [0#8, 0#8, 0#8] (mframe_head 15 0 _))]; decide
  · rw [beAt, mtrain, mframe_slice 15 0 _ 0 8 (beBytes 8 0x4A4D4C54524E3031) (by decide) (by decide +kernel)]
    decide +kernel

/-- `up` with the motor link of bay 5 active and frame 9 expected. -/
def mlinkUp : State := withMlink (fun l => { l with st := .active, seq := some 9 })

theorem wit_mlinkSenseFrame : ∀ ty : Fin 2, let f := mframe ty.val 9 []
    (mlinkUp.mportUp 5 && (mlinkUp.bay 5).mlink.st == .active && !mlinkUp.unitDead 5 .motor) = true
      ∧ mlinkUp.injectFrame (1, 5, 1) (scramble f) = ([scramble f], mlinkUp) ∧ mfrGood (scramble (scramble f)) = true
      ∧ frType (scramble (scramble f)) = ty.val ∧ (mlinkUp.bay 5).mlink.seq = some (frSeq (scramble (scramble f))) := by
  intro ty
  dsimp only
  rw [scramble_scramble]
  refine ⟨by decide +kernel, State.injectFrame_none _ rfl _ _, mframe_good .., ?_, ?_⟩
  · rw [frType, byteAt_of_slice _ 0 (BitVec.ofNat 8 (16 * ty.val)) (slice_first _ _ [0#8, 144#8, 0#8] ?_)]
    · revert ty; decide
    · rw [mframe_head]; revert ty; decide
  · rw [frSeq, beAt, mframe_head]; revert ty; decide +kernel

theorem wit_mlinkTrainTimeout : (let s := mlinkDs
    decide ((s.bay 5).mlink.since + 2000 ≤ s.us)
      && holds (exec (.mlinkTrainTimeout 5) s) (fun t => (t.bay 5).mlink.attempts == 1 && (t.bay 5).mlink.st == .dsTrain)) = true := by decide +kernel

theorem wit_mlinkTrainRetry : (let s := withMlink (fun l => { l with st := .failed })
    !(s.bay 5).mlink.noRetry && decide ((s.bay 5).mlink.since + 1000000 * s.liveN .mlinkTrainRetryIntervalS ≤ s.us)
      && holds (exec (.mlinkTrainRetry 5) s) (fun t => (t.bay 5).mlink.st == .dsTrain)) = true := by decide +kernel

theorem wit_mlinkLost : (let s := withBay5 (fun y => { y with mlink := { y.mlink with st := .active, badRun := 96 }, spindle := { y.spindle with st := .run } })
    s.mportUp 5 && holds (exec (.mlinkLost 5) s) (fun t => (t.bay 5).mlink.st == .dsTrain && (t.bay 5).spindle.st == .recover)) = true := by decide +kernel

theorem wit_spindleStart : (let s := withSp id
    s.mportUp 5 && s.coreStarts 5 .motor && (s.bay 5).spindle.st == .stopped
      && holds (exec (.spindleStart 5) s) (fun t => (t.bay 5).spindle.st == .catch)) = true := by decide +kernel

theorem wit_spindleStart_safe : (let s := withSp (fun x => { x with st := .safeHold })
    holds (exec (.spindleStart 5) s) (fun t => (t.bay 5).spindle.st == .safeHold && (t.bay 5).spindle.pendStart)) = true := by decide +kernel

theorem wit_spindleFaultRetry : (let s := withSp (fun x => { x with st := .fault, startTries := 3 })
    !(s.bay 5).spindle.noRetry && decide ((s.bay 5).spindle.since + 1000000 * s.liveN .spindleFaultRetryS ≤ s.us)
      && holds (exec (.spindleFaultRetry 5) s) (fun t => (t.bay 5).spindle.st == .catch && (t.bay 5).spindle.startTries == 0)) = true := by decide +kernel

theorem wit_startWaitEnd : (let s := withSp (fun x => { x with st := .startWait, waitMs := 100 })
    decide ((s.bay 5).spindle.since + (s.bay 5).spindle.waitMs * 1000 ≤ s.us)
      && holds (exec (.startWaitEnd 5) s) (fun t => (t.bay 5).spindle.st == .catch)) = true := by decide +kernel

theorem wit_alignEnd : (let s := withSp (fun x => { x with st := .align })
    decide ((s.bay 5).spindle.since + s.spin 5 .spindleStartAlignMs * 1000 ≤ s.us)
      && holds (exec (.alignEnd 5) s) (fun t => (t.bay 5).spindle.st == .ramp)) = true := by decide +kernel

theorem wit_rampHandover : (let s := withSp (fun x => { x with st := .ramp, passRun := 30 })
    holds (exec (.rampHandover 5) s) (fun t => (t.bay 5).spindle.st == .sync)) = true := by decide +kernel

theorem wit_startTryFail : (let s := withSp (fun x => { x with st := .align, invalid := 3 })
    holds (exec (.startTryFail 5) s) (fun t => (t.bay 5).spindle.st == .startWait && (t.bay 5).spindle.startTries == 1)) = true := by decide +kernel

theorem wit_startTryFail_last : (let s := withSp (fun x => { x with st := .align, invalid := 3, startTries := 99 })
    decide (s.liveN .spindleStartMaxTries ≤ 100) && holds (exec (.startTryFail 5) s) (fun t => (t.bay 5).spindle.st == .fault)) = true := by decide +kernel

theorem wit_catchEnd : (let s := withSp (fun x => { x with st := .catch, crossings := [⟨0, 6000⟩, ⟨5, 5000⟩, ⟨4, 4000⟩, ⟨3, 3000⟩, ⟨2, 2000⟩, ⟨1, 1000⟩, ⟨0, 0⟩] })
    (s.bay 5).spindle.st == .catch && decide (6 ≤ consistentCount (s.bay 5).spindle.crossings)) = true := by decide +kernel

theorem wit_syncEnd : (let s := withSp (fun x => { x with st := .sync, obs := { x.obs with rpm := rpmOf 1000 } })
    (s.bay 5).spindle.syncLeft == 0 && (s.bay 5).spindle.use == .start && decide (0 ≤ (s.bay 5).spindle.obs.rpm) && decide ((s.bay 5).spindle.obs.rpm ≤ rpmOf (s.liveN .spindleSpeedMaxRpm))
      && holds (exec (.syncEnd 5) s) (fun t => (t.bay 5).spindle.st == .run && (t.bay 5).spindle.target == rpmOf 1000)) = true := by decide +kernel

theorem wit_speedReady : (let s := withSp (fun x => { x with st := .run, readyAt := some 4999990000 })
    s.mportUp 5 && decide (4999990000 + 10000 ≤ s.us) && holds (exec (.speedReady 5) s) (fun t => (t.bay 5).spindle.ready)) = true := by decide +kernel

theorem wit_observerLost : (let s := withSp (fun x => { x with st := .run, failRun := up.liveN .spindleObsLossPeriods, ready := true })
    holds (exec (.observerLost 5) s) (fun t => (t.bay 5).spindle.st == .recover && !(t.bay 5).spindle.ready)) = true := by decide +kernel

theorem wit_speedLoopSample : (let s := withSp (fun x => { x with st := .run })
    let r := (s.updBay 5 (fun y => { y with mlink := { y.mlink with slot := y.mlink.slot + 1 } })).watchSpeed 5
    (s.bay 5).mlink.st == .active && !s.unitDead 5 .motor && decide (16 * (s.bay 5).mlink.slot ≤ (s.bay 5).mlink.frames / 2)
      && (r.bay 5).spindle.st == .run
      && holds (exec (.speedLoopSample 5) s) (fun t => (t.bay 5).mlink.slot == 1)) = true := by decide +kernel

theorem wit_testCatch : (let s := withSp (fun x => { x with st := .run })
    decide (0 < s.liveN .spindleTestIntervalS) && decide ((s.bay 5).spindle.lastTest + s.liveN .spindleTestIntervalS * 1000000 ≤ s.us)
      && s.coreStarts 5 .motor && [Pu.A, .B].all (fun p => (s.pu 5 p).write.block == none && (s.pu 5 p).cur == none && (s.pu 5 p).reads == [])
      && holds (exec (.testCatch 5) s) (fun t => (t.bay 5).spindle.use == .test)) = true := by decide +kernel

theorem wit_bayProbe : (let s := withBay5 (fun y => { y with mlink := { y.mlink with st := .active }, disc := { y.disc with empty := true } })
    !(s.bay 5).disc.probing && (s.bay 5).spindle.st == .stopped && s.coreStarts 5 .motor
      && decide ((s.bay 5).disc.probeAt + 1000000 * s.liveN .loopProbeIntervalS ≤ s.us)
      && holds (exec (.bayProbe 5) s) (fun t => (t.bay 5).spindle.st == .catch && (t.bay 5).disc.probing)) = true := by decide +kernel

theorem wit_spindleStop : (let s := withSp (fun x => { x with st := .run })
    s.coreStarts 5 .motor && holds (exec (.spindleStop 5) s) (fun t => (t.bay 5).spindle.st == .decel && (t.bay 5).spindle.stopping)) = true := by decide +kernel

theorem wit_decelLimit : (let s := withSp (fun x => { x with st := .decel, decelFrom := rpmOf 1000 })
    decide ((s.bay 5).spindle.since + ((s.bay 5).spindle.decelFrom - (s.bay 5).spindle.goal).natAbs * 1000000 /
        (rpmOf (max 1 (s.liveN .spindleBrakeDecelRpmS))).natAbs + 1000000 ≤ s.us)
      && holds (exec (.decelLimit 5) s) (fun t => (t.bay 5).spindle.st == .fault)) = true := by decide +kernel

theorem wit_brakeShortToggle_on : (let s := withSp (fun x => { x with st := .brakeShort, drive := { x.drive with short := true } })
    decide ((s.bay 5).spindle.phaseAt + s.liveN .spindleBrakeShortOnMs * 1000 ≤ s.us)
      && holds (exec (.brakeShortToggle 5) s) (fun t => (t.bay 5).spindle.drive == .floating)) = true := by decide +kernel

theorem wit_brakeShortToggle_off : (let s := withSp (fun x => { x with st := .brakeShort, amp := 100000000 })
    !(s.bay 5).spindle.drive.short && decide (s.liveN .spindleCatchFloorMv * 1000 ≤ (s.bay 5).spindle.amp)
      && decide ((s.bay 5).spindle.phaseAt + 10000 ≤ s.us) && decide (consistentCount (s.bay 5).spindle.crossings < 4)
      && holds (exec (.brakeShortToggle 5) s) (fun t => (t.bay 5).spindle.drive.short)) = true := by decide +kernel

theorem wit_brakeShortLimit : (let s := withSp (fun x => { x with st := .brakeShort })
    decide ((s.bay 5).spindle.since + s.liveN .spindleBrakeShortMaxMs * 1000 ≤ s.us)
      && holds (exec (.brakeShortLimit 5) s) (fun t => (t.bay 5).spindle.st == .fault)) = true := by decide +kernel

theorem wit_overspeedDetect : (let s := withSp (fun x => { x with st := .run, overAt := some 4999999000 })
    (s.bay 5).spindle.overRaised == none && !(s.bay 5).spindle.stopping && decide (0 ≤ (s.bay 5).spindle.obs.rpm) && holds (exec (.overspeedDetect 5) s) (fun t => (t.bay 5).spindle.st == .decel)) = true := by decide +kernel

theorem wit_overspeedStop : (let s := withSp (fun x => { x with st := .decel, overAt := some 0, overRaised := some 4999900000 })
    holds (exec (.overspeedStop 5) s) (fun t => (t.bay 5).spindle.endFault && (t.bay 5).spindle.goal == 0)) = true := by decide +kernel

/-- `up` with frame lock on pickup A of bay 5, its identity not yet read. -/
def lockedA : State := follow id

theorem wit_discIdentityRead_none : (let s := lockedA.updBay 5 (fun y => { y with disc := { y.disc with found := (List.range 16).map (fun i => ⟨.A, 7, i, .lost, none⟩) } })
    (s.bay 5).disc.serial == none && s.locked 5 .A && !s.coresHeld
      && (s.bay 5).disc.identity? .A == none && (s.bay 5).disc.identity? .B == none
      && [Pu.A, .B].all (fun p => !s.pickupServes 5 p || (s.bay 5).disc.nextIdentity p == none)
      && holds (exec (.discIdentityRead 5) s) (fun t => (t.pu 5 .A).ms.st == .off && (t.bay 5).disc.serial == none
        && (t.bay 5).disc.rejected.isSome)) = true := by decide +kernel

/-- With copies left to read nothing is decided (R32). -/
theorem test_discIdentityRead_more : (let s := lockedA
    s.pickupServes 5 .A && holds (exec (.discIdentityRead 5) s) (fun t => (t.bay 5).disc.rejected == none && (t.pu 5 .A).ms.st == .follow))
    = true := by decide +kernel

/-- An identity copy of format 1. -/
def ident1 : Bytes := sealRecord 4096 (ascii "YAD1" ++ leBytes 2 1)

/-- A disc that shows it in its first copy. -/
def discRead : Disc := { (default : Disc) with found := [⟨.A, 7, 0, .clean, some (zeros 512 ++ ident1)⟩], tagA := some (serialTag (identitySerial ident1)) }

theorem ident1_slice (i n : Nat) (h : i + n ≤ 4092) : slice ident1 i n = slice (padTo 4092 (ascii "YAD1" ++ leBytes 2 1)) i n :=
  slice_left _ _ _ _ (by simp; omega)

/-- The copy is good by its check word alone (R32). -/
theorem wit_discIdentityRead_good : (discRead.identity? .A).or (discRead.identity? .B) = some ident1 ∧ leAt ident1 4 2 = 1
    ∧ (∀ k, discRead.tagA = some k ∨ discRead.tagB = some k → k = serialTag (identitySerial ident1)) := by
  have hl : ident1.length = 4096 := by simp [ident1, sealRecord]
  have hg : identityGood ident1 = true := by
    have ht : ident1.take 4096 = ident1 := List.take_of_length_le (by omega)
    unfold identityGood
    rw [ht]
    exact recordGood_seal 4096 _ (by decide)
  have hb : (zeros 512 ++ ident1).drop 512 = ident1 := by
    rw [List.drop_append_of_le_length (by simp), List.drop_of_length_le (by simp), List.nil_append]
  have ha : discRead.identity? .A = some ident1 := by
    have h1 : (discRead.reads .A 7).filterMap RecRead.body = [(zeros 512 ++ ident1).drop 512] := rfl
    unfold Disc.identity?
    rw [h1, hb, List.find?_cons_of_pos hg]
  refine ⟨by rw [ha]; rfl, ?_, ?_⟩
  · rw [leAt, ident1_slice 4 2 (by decide)]; decide +kernel
  · intro k hk
    rcases hk with hk | hk
    · exact (Option.some.inj hk).symm
    · cases hk

/-- The same copy on a disc whose wedges carried another tag: the disc is refused (R22). -/
theorem wit_discIdentityRead_tag : ∃ k, ({ discRead with tagB := some (serialTag (identitySerial ident1) + 1) } : Disc).tagB = some k
    ∧ k ≠ serialTag (identitySerial ident1) := ⟨_, rfl, by omega⟩

/-- The command of a fetch order is there, audible and not finished. -/
def liveB (s : State) (order : Nat) : Bool :=
  match s.cmdAt order with
  | some d => !d.silent && d.phase != .done
  | none => false

/-- The command of a fetch order has finished with a status. -/
def endedB (s : State) (order : Nat) (st : Status) : Bool :=
  s.host.cmds.any (fun d => d.order == order && d.phase == .done && d.status == st)

/-- A submission entry of 64 bytes from its non-zero bytes. -/
def entryOf (bytes : List (Nat × Nat)) : Bytes := bytes.foldl (fun e x => putAt e x.1 [BitVec.ofNat 8 x.2]) (zeros 64)

/-- A command of the PF on SR 0 or SR 2, fetch order 1, tag 3. -/
def cmdOf (sr : Nat) (bytes : List (Nat × Nat)) : Cmd := Cmd.fresh 0 sr 3 1 (entryOf bytes) []

/-- SR 2 of the PF: 16 entries, one waiting. -/
def sr2 : Sr := ⟨0, 2, 2, 0x10000, 16, 0xFFFF, 0, 1, false, none⟩

/-- CR 2 of the PF. -/
def cr2 : Cr := ⟨0, 2, false, 0x20000, 16, 0, 0, 0, 0, true, 0, 0, none, false⟩

/-- `up` with SR 2 and CR 2 of the PF, admin rings, and these commands. -/
def withCmds (cs : List Cmd) : State :=
  { up with host := { up.host with srs := [⟨0, 0, 0, 0, 64, 0xFFFF, 0, 0, false, none⟩, sr2], crs := [{ cr2 with id := 0 }, cr2], cmds := cs } }

theorem wit_srDoorbellWrite : (let s := withCmds []
    s.barUp 0 && decide (2 < s.srQuota 0) && s.sr? 0 2 == some sr2 && s.sr? 0 3 == none
      && holds (exec (.srDoorbellWrite 0 2 5) s) (fun t => t.sr? 0 2 == some { sr2 with tail := 5 })
      && holds (exec (.srDoorbellWrite 0 2 15) s) (fun t => t.sr? 0 2 == some { sr2 with tail := 15 })
      && holds (exec (.srDoorbellWrite 0 2 16) s) (fun t => t.sr? 0 2 == some { sr2 with stopped := true })
      && holds (exec (.srDoorbellWrite 0 3 1) s) (fun t => t.host.badDoorbells == 1)) = true := by decide +kernel

theorem wit_crHeadDoorbellWrite : (let s := { withCmds [] with host := { (withCmds []).host with crs := [{ cr2 with next := 3, pending := 3 }] } }
    decide (2 < s.crQuota 0) && holds (exec (.crHeadDoorbellWrite 0 2 2) s) (fun t => (t.cr? 0 2).map (fun k => (k.head, k.pending)) == some (2, 1)))
    = true := by decide +kernel

theorem wit_barWriteOther : holds (exec (.barWriteOther 0 (0x801000 + 64) (zeros 64)) (withCmds [])) (fun t => (t.fn? 0).map (fun x => x.sr0) == some [(64, zeros 64)])
    = true := by decide +kernel

theorem wit_fetchGrant : (let s := withCmds []
    s.queueUp && !s.host.fetchStop && s.arbitrate.1 == some sr2 && s.grantSize sr2 == 1) = true := by decide +kernel

/-- A fetched `ABORT` becomes the newest command. -/
theorem test_fetchGrant : holds (exec (.fetchGrant [(entryOf [(0, 0x21), (2, 5)], [])]) (withCmds [])) (fun t => t.sr? 0 2 |>.any (fun r => r.head == 1))
    = true := by decide +kernel

theorem wit_fetchFail : (let s := withCmds []
    s.grantable sr2 && holds (exec (.fetchFail 0 2) s) (fun t => t.sr? 0 2 == some { sr2 with stopped := true })) = true := by decide +kernel

theorem wit_dmaTransferFail : (let s := withCmds [{ cmdOf 2 [(0, 0x10)] with pieces := [(0, 4096)], phase := .started }]
    liveB s 1 && (s.cmd? 0 2 3).isSome && holds (exec (.dmaTransferFail 0 2 3) s) (fun t => endedB t 1 .dmaError)) = true := by decide +kernel

theorem wit_completionPost : (let s := withCmds [{ cmdOf 2 [(0, 0x10)] with phase := .done }]
    let c : Cmd := { cmdOf 2 [(0, 0x10)] with phase := .done }
    s.cmdLive? 0 2 3 == some c && s.ringOf c == some cr2 && s.sr? 0 2 == some sr2 && s.host.fates == [] && s.nextToPost cr2 == some c && !cr2.isFull && s.fnMoves c
      && holds (exec (.completionPost 0 2 3) s) (fun t => t.host.cmds == [])) = true := by decide +kernel

theorem wit_crCoalesceTimeout : (let k : Cr := { cr2 with next := 1, pending := 1, ctime := 10, since := some 0 }
    let s : State := { withCmds [] with host := { (withCmds []).host with crs := [k] } }
    s.queueUp && s.cr? 0 2 == some k && decide (0 + 10 ≤ s.us)
      && holds (exec (.crCoalesceTimeout 0 2) s) (fun t => t.cr? 0 2 == some { k with signalled := true })) = true := by decide +kernel

theorem wit_holdLimitExpire : (let c : Cmd := { cmdOf 2 [(0, 0x10)] with phase := .held 0 }
    let s := withCmds [c]
    liveB s 1 && s.cmd? 0 2 3 == some c && decide (0 + s.holdLimit c ≤ s.us) && holds (exec (.holdLimitExpire 0 2 3) s) (fun t => endedB t 1 .notReady))
    = true := by decide +kernel

/-- `up` with VF 1 ready as well. -/
def withVf1 : State := { withCmds [] with host := { (withCmds []).host with fns := [{ Fn.fresh 0 with ready := true, bme := true }, { Fn.fresh 1 with ready := true }], vfs := 1, srs := [sr2, { sr2 with fn := 1 }] } }

theorem wit_functionLevelReset : (!withVf1.sysHeld && withVf1.fn? 1 == some { Fn.fresh 1 with ready := true }
    && holds (exec (.functionLevelReset 1) withVf1) (fun t => t.fn? 1 == some (Fn.fresh 1) && t.host.srs == [sr2])) = true := by decide +kernel

theorem wit_busMasterEnableChange : holds (exec (.busMasterEnableChange 1 true) withVf1) (fun t => t.fn? 1 == some { Fn.fresh 1 with ready := true, bme := true })
    = true := by decide +kernel

theorem wit_vfReady : (let s := { withVf1 with host := { withVf1.host with fns := [{ Fn.fresh 0 with ready := true }, Fn.fresh 1] } }
    s.host.ready && s.fn? 1 == some (Fn.fresh 1)
      && holds (exec (.vfReady 1) s) (fun t => t.fn? 1 == some { Fn.fresh 1 with ready := true } && (t.cr? 1 0).isSome)) = true := by decide +kernel

theorem wit_vfEnable : (decide (2 ≤ up.vfTotal) && holds (exec (.vfEnable 2) up) (fun t => t.host.vfs == 2 && (t.fn? 2).isSome && (t.fn? 3).isNone)) = true := by decide +kernel

theorem wit_pciePerstLocal : (!withVf1.trust.shadow.perstSys && (withVf1.fn? 0).isSome
    && holds (exec .pciePerstLocal withVf1) (fun t => t.host.vfs == 0 && t.host.srs.all (fun r => r.fn == 0))) = true := by decide +kernel

theorem wit_pcieLinkDegrade : (decide (8 < up.host.width) && holds (exec (.pcieLinkDegrade 8) up) (fun t => t.host.width == 8)) = true := by decide +kernel

theorem wit_ptmTimeUpdate_slew : (up.chip.clk.locked && holds (exec (.ptmTimeUpdate 5001000000000) up) (fun t => t.chip.clk.slew == 1000000 && t.chip.clk.time == up.chip.clk.time)
    && holds (exec (.ptmTimeUpdate 4999000000000) up) (fun t => t.chip.clk.slew == -1000000)) = true := by decide +kernel

theorem wit_ptmTimeUpdate_step : holds (exec (.ptmTimeUpdate 5001000001000) up) (fun t => t.chip.clk.slew == 0 && t.chip.clk.time == 5001000001)
    = true := by decide +kernel

theorem wit_createSr : (let c := cmdOf 0 [(0, 1), (8, 9), (12, 2), (17, 16), (24, 32)]
    let s := withCmds [c]
    liveB s 1 && s.admin? 0x01 0 3 == some c && s.sr? 0 9 == none && s.cr? 0 2 == some cr2
      && holds (exec (.createSr 0 3) s) (fun t => (t.sr? 0 9).map (fun r => (r.cr, r.depth, r.base)) == some (2, 32, 4096) && endedB t 1 .success)) = true := by decide +kernel

theorem wit_deleteSr : (let c := cmdOf 0 [(0, 2), (8, 2)]
    let s := withCmds [c]
    s.admin? 0x02 0 3 == some c && s.sr? 0 2 == some sr2 && s.host.srs.all (fun x => x.deleting == none)
      && holds (exec (.deleteSr 0 3) s) (fun t => t.sr? 0 2 == none && endedB t 1 .success)) = true := by decide +kernel

theorem wit_createCr : (let c := cmdOf 0 [(0, 3), (8, 9), (17, 16), (24, 64), (28, 5)]
    let s := withCmds [c]
    s.admin? 0x03 0 3 == some c && s.cr? 0 9 == none && byteAt c.entry 12 != 1
      && holds (exec (.createCr 0 3) s) (fun t => (t.cr? 0 9).map (fun k => (k.depth, k.vec, k.base)) == some (64, 5, 4096) && endedB t 1 .success)) = true := by decide +kernel

theorem wit_deleteCr_used : (let c := cmdOf 0 [(0, 4), (8, 2)]
    let s := withCmds [c]
    s.admin? 0x04 0 3 == some c && (s.cr? 0 2).isSome && holds (exec (.deleteCr 0 3) s) (fun t => t.host.crs == s.host.crs && endedB t 1 .busy)) = true := by decide +kernel

theorem wit_deleteCr : (let c := cmdOf 0 [(0, 4), (8, 2)]
    let s := { withCmds [c] with host := { (withCmds [c]).host with srs := [⟨0, 0, 0, 0, 64, 0xFFFF, 0, 0, false, none⟩] } }
    s.admin? 0x04 0 3 == some c && holds (exec (.deleteCr 0 3) s) (fun t => t.cr? 0 2 == none && endedB t 1 .success)) = true := by decide +kernel

theorem foldl_length {α : Type} (f : List (BitVec 64) → α → List (BitVec 64)) (hf : ∀ b r, (f b r).length = 25) (l : List α)
    (b : List (BitVec 64)) (h : b.length = 25) : (l.foldl f b).length = 25 := by
  induction l generalizing b with
  | nil => exact h
  | cons r l ih => rw [List.foldl_cons]; exact ih _ (hf _ _)

theorem keccakRound_length (a : List (BitVec 64)) (rc : BitVec 64) : (keccakRound a rc).length = 25 := by
  unfold keccakRound
  simp only [List.length_map, List.length_range]

theorem sha3Absorb_length (n : Nat) (st : List (BitVec 64)) (b : Bytes) (h : st.length = 25) : (sha3Absorb n st b).length = 25 := by
  induction n generalizing st b with
  | zero => exact h
  | succ n ih =>
    rw [sha3Absorb]
    apply ih
    unfold keccakF
    exact foldl_length _ keccakRound_length _ _ (by rw [List.length_mapIdx]; exact h)

theorem sha3_length (m : Bytes) : (sha3_512 m).length = 64 := by
  unfold sha3_512
  dsimp only
  generalize hs : sha3Absorb _ _ _ = st
  have h : st.length = 25 := by rw [← hs]; exact sha3Absorb_length _ _ _ (by simp)
  have h3 : ∀ l : List (BitVec 64), (l.flatMap (fun v => leBytes 8 v.toNat)).length = 8 * l.length := by
    intro l
    induction l with
    | nil => rfl
    | cons a l ih => simp [ih]; omega
  rw [h3]; simp [h]

theorem slice_after (a b : Bytes) (i n : Nat) (h : a.length ≤ i) : slice (a ++ b) i n = slice b (i - a.length) n := by
  unfold slice
  rw [List.drop_append, List.drop_of_length_le h, List.nil_append]

theorem slice_zeros (k i n : Nat) : (slice (zeros k) i n).all (fun x => x == 0#8) = true := by
  simp only [List.all_eq_true, slice]
  intro x hx
  have := List.mem_of_mem_drop (List.mem_of_mem_take hx)
  simp only [zeros, List.mem_replicate] at this
  simp [this.2]

/-- The first 32 bytes of the shortest loader or firmware: 16,384 bytes, for YX3216, unsigned. -/
def codeHead (magic : String) : Bytes :=
  ascii magic ++ leBytes 2 1 ++ zeros 2 ++ leBytes 4 16384 ++ zeros 4 ++ leBytes 8 1 ++ [1#8] ++ zeros 7

/-- The shortest loader or firmware: its head, its digest, and zeros. -/
def codeImg (magic : String) : Bytes := codeHead magic ++ sha3_512 (codeHead magic) ++ zeros 16288

/-- A code slot of 64 KiB: a loader, a firmware, zeros. -/
def codeSlot : Bytes := codeImg "GLLD" ++ (codeImg "GLFW" ++ zeros 32768)

theorem codeHead_length (m : String) (h : m.toList.length = 4) : (codeHead m).length = 32 := by simp [codeHead, ascii, h]

theorem codeImg_length (m : String) (h : m.toList.length = 4) : (codeImg m).length = 16384 := by
  simp [codeImg, codeHead_length m h, sha3_length]

/-- What stands within the head of an image that something follows. -/
theorem codeImg_head (m : String) (h : m.toList.length = 4) (rest : Bytes) (i n : Nat) (hi : i + n ≤ 32) :
    slice (codeImg m ++ rest) i n = slice (codeHead m) i n := by
  rw [slice_left _ _ _ _ (by have := codeImg_length m h; omega), codeImg, List.append_assoc, slice_left _ _ _ _ (by have := codeHead_length m h; omega)]

theorem codeImg_tail (m : String) (h : m.toList.length = 4) (rest : Bytes) (i n : Nat) (h0 : 96 ≤ i) (hi : i + n ≤ 16384) :
    slice (codeImg m ++ rest) i n = slice (zeros 16288) (i - 96) n := by
  rw [slice_left _ _ _ _ (by have := codeImg_length m h; omega), codeImg, slice_after _ _ _ _ (by simp [codeHead_length m h, sha3_length]; omega)]
  simp [codeHead_length m h, sha3_length]

theorem codeImg_digest (m : String) (h : m.toList.length = 4) (rest : Bytes) : slice (codeImg m ++ rest) 32 64 = sha3_512 (codeHead m) := by
  rw [slice_left _ _ _ _ (by have := codeImg_length m h; omega), codeImg, List.append_assoc, slice_after _ _ _ _ (by have := codeHead_length m h; omega)]
  rw [codeHead_length m h, slice_left _ _ _ _ (by have := sha3_length (codeHead m); omega)]
  have := slice_all (sha3_512 (codeHead m))
  rwa [sha3_length] at this

theorem checkCode_codeImg (s : State) (m : String) (rest : Bytes) (loader : Bool) (hm : m = if loader then "GLLD" else "GLFW")
    (hs : s.trust.shadow.sig = false) (hp : s.trust.shadow.part = .YX3216) : (checkCode s loader (codeImg m ++ rest)).1 = true := by
  have h4 : m.toList.length = 4 := by cases loader <;> subst hm <;> decide
  have hl : imgLength (codeImg m ++ rest) = 16384 := by
    rw [imgLength, leAt, codeImg_head m h4 rest 8 4 (by decide)]
    cases loader <;> subst hm <;> decide +kernel
  have hb : ∀ i : Nat, i < 32 → byteAt (codeImg m ++ rest) i = byteAt (codeHead m) i := by
    intro i hi
    unfold byteAt
    have hh := codeHead_length m h4
    rw [codeImg, List.append_assoc, List.append_assoc]
    simp only [List.getD_eq_getElem?_getD]
    rw [List.getElem?_append_left (by omega)]
  have hd : imgDigest (codeImg m ++ rest) = sha3_512 (codeHead m) := by
    unfold imgDigest
    rw [hl]
    have h1 : (codeImg m ++ rest).take 16384 = codeImg m := by
      rw [List.take_append_of_le_length (by have := codeImg_length m h4; omega), List.take_of_length_le (by have := codeImg_length m h4; omega)]
    have h2 : (codeImg m ++ rest).take 32 = codeHead m := by
      rw [codeImg, List.append_assoc, List.append_assoc, List.take_append_of_le_length (by have := codeHead_length m h4; omega),
        List.take_of_length_le (by have := codeHead_length m h4; omega)]
    rw [h1, h2, List.drop_of_length_le (by have := codeImg_length m h4; omega), List.append_nil]
  have hsig : (signatureVerdict s.trust.shadow (codeImg m ++ rest)).1 = 0 := by
    unfold signatureVerdict
    rw [hs, hb 26 (by decide)]
    have : byteAt (codeHead m) 26 % 2 = 0 := by cases loader <;> subst hm <;> decide +kernel
    simp [this]
  have hres : imgReserved (codeImg m ++ rest) = true := by
    unfold imgReserved
    rw [hb 24 (by decide), hb 26 (by decide), codeImg_head m h4 rest 6 2 (by decide), codeImg_head m h4 rest 27 5 (by decide),
      codeImg_tail m h4 rest 96 4000 (by decide) (by decide), codeImg_tail m h4 rest 8731 7653 (by decide) (by decide)]
    simp only [List.all_append, slice_zeros, Bool.and_true]
    cases loader <;> subst hm <;> decide +kernel
  have hsigned : imgSigned (codeImg m ++ rest) = true := by
    unfold imgSigned
    rw [leAt, codeImg_tail m h4 rest 4096 4 (by decide) (by decide), codeImg_tail m h4 rest 4104 4627 (by decide) (by decide), hb 26 (by decide),
      slice_zeros]
    cases loader <;> subst hm <;> decide +kernel
  have hpart : partOk s.trust.shadow.part (codeImg m ++ rest) = true := by
    rw [hp, partOk, hb 24 (by decide), hb 25 (by decide)]
    cases loader <;> subst hm <;> decide +kernel
  have hlen : 16384 ≤ (codeImg m ++ rest).length := by have := codeImg_length m h4; simp only [List.length_append]; omega
  unfold checkCode
  simp only [hd, hsig, hl, hres, hsigned, hpart, codeImg_digest m h4 rest, beq_self_eq_true, Bool.and_true]
  rw [codeImg_head m h4 rest 0 4 (by decide), leAt, codeImg_head m h4 rest 4 2 (by decide), leAt, codeImg_head m h4 rest 12 4 (by decide)]
  have hn : decide (16384 ≤ (codeImg m ++ rest).length) = true := by simpa using hlen
  rw [hn]
  cases loader <;> subst hm <;> decide +kernel

theorem fwPart_codeSlot : fwPart codeSlot true = codeImg "GLLD" ++ (codeImg "GLFW" ++ zeros 32768)
    ∧ fwPart codeSlot false = codeImg "GLFW" ++ zeros 32768 := by
  refine ⟨rfl, ?_⟩
  have h : imgLength codeSlot = 16384 := by
    rw [imgLength, leAt, codeSlot, codeImg_head "GLLD" (by decide) _ 8 4 (by decide)]; decide +kernel
  unfold fwPart
  rw [h]
  have hl := codeImg_length "GLLD" (by decide)
  unfold codeSlot
  simp only [Bool.false_eq_true, if_false]
  rw [List.drop_append_of_le_length (by omega), List.drop_of_length_le (by omega), List.nil_append]

theorem checkCode_codeSlot (s : State) (hs : s.trust.shadow.sig = false) (hp : s.trust.shadow.part = .YX3216) (l : Bool) :
    (checkCode s l (fwPart codeSlot l)).1 = true := by
  cases l
  · rw [fwPart_codeSlot.2]; exact checkCode_codeImg s "GLFW" _ false rfl hs hp
  · rw [fwPart_codeSlot.1]; exact checkCode_codeImg s "GLLD" _ true rfl hs hp

/-- The directory: code slots at 0x20000 and 0x30000, images at 1 and 2 MiB, boot state at 0x80000. -/
def dirBody : Bytes :=
  padTo 4092 (ascii "GNDR" ++ leBytes 2 1 ++ leBytes 2 8 ++ leBytes 8 1
    ++ [(1, 0x100000, 0x100000), (2, 0x200000, 0x100000), (3, 0x20000, 0x10000), (4, 0x30000, 0x10000), (5, 0x40000, 0x10000),
        (6, 0x50000, 0x10000), (7, 0x60000, 0x10000), (8, 0x80000, 0x20000)].flatMap
      (fun (e : Nat × Nat × Nat) => leBytes 2 e.1 ++ zeros 2 ++ leBytes 4 e.2.1 ++ leBytes 4 e.2.2 ++ zeros 4))

/-- A flash with that directory and both code slots filled, and a boot record that names slot B for the firmware. -/
def goodFlash : Flash :=
  (((State.reset.flash.program 0 (sealRecord 4096 dirBody)).program 0x20000 codeSlot).program 0x30000 codeSlot).program 0x80000
    (bootRecord 1 ⟨0, 1, [0, 0, 0, 1], 0⟩)

theorem readBytes_same (d : Byte) (m m' : Memory) (a n : Nat) (h : ∀ i : Nat, a ≤ i → i < a + n → Memory.read d m i = Memory.read d m' i) :
    Memory.readBytes d m a n = Memory.readBytes d m' a n := by
  induction n generalizing a with
  | zero => rfl
  | succ n ih =>
    simp only [Memory.readBytes]
    rw [h a (Nat.le_refl _) (by omega), ih (a + 1) (fun i hi hj => h i (by omega) (by omega))]

/-- A program elsewhere leaves a range as it reads. -/
theorem read_program (f : Flash) (a b n : Nat) (bs : Bytes) (hw : Memory.wf norDefault f.mem = true) (h : b + n ≤ a ∨ a + bs.length ≤ b) :
    (f.program a bs).read b n = f.read b n :=
  readBytes_same _ _ _ _ _ (fun i h1 h2 => Memory.read_writeBytes_other a i bs hw (by omega))

theorem program_wf (f : Flash) (a : Nat) (bs : Bytes) (hw : Memory.wf norDefault f.mem = true) :
    Memory.wf norDefault (f.program a bs).mem = true := Memory.writeBytes_wf a bs hw

/-- A program reads back. -/
theorem read_program_same (f : Flash) (a n : Nat) (bs : Bytes) (hw : Memory.wf norDefault f.mem = true) (h : bs.length = n) :
    (f.program a bs).read a n = bs := by
  subst h
  exact Memory.readBytes_writeBytes a bs hw

theorem codeSlot_length : codeSlot.length = 65536 := by
  simp [codeSlot, codeImg_length "GLLD" (by decide), codeImg_length "GLFW" (by decide)]

theorem bootRecord_length (n : Nat) (b : BootState) : (bootRecord n b).length = 64 := by simp [bootRecord, sealRecord]

theorem sealRecord_length (n : Nat) (b : Bytes) (h : 4 ≤ n) : (sealRecord n b).length = n := by simp [sealRecord]; omega

theorem goodFlash_reads : goodFlash.read 0 4096 = sealRecord 4096 dirBody ∧ goodFlash.read 0x20000 65536 = codeSlot
    ∧ goodFlash.read 0x30000 65536 = codeSlot ∧ goodFlash.read 0x80000 64 = bootRecord 1 ⟨0, 1, [0, 0, 0, 1], 0⟩
    ∧ goodFlash.read 65536 4096 = State.reset.flash.read 65536 4096
    ∧ ∀ k : Nat, goodFlash.read (0x80040 + k) 64 = State.reset.flash.read (0x80040 + k) 64 := by
  have h0 : Memory.wf norDefault State.reset.flash.mem = true := rfl
  have h1 := program_wf _ 0 (sealRecord 4096 dirBody) h0
  have h2 := program_wf _ 0x20000 codeSlot h1
  have h3 := program_wf _ 0x30000 codeSlot h2
  have hs := sealRecord_length 4096 dirBody (by decide)
  have hc := codeSlot_length
  have hb := bootRecord_length 1 ⟨0, 1, [0, 0, 0, 1], 0⟩
  refine ⟨?_, ?_, ?_, ?_, ?_, ?_⟩
  · rw [goodFlash, read_program _ _ _ _ _ h3 (by omega), read_program _ _ _ _ _ h2 (by omega), read_program _ _ _ _ _ h1 (by omega),
      read_program_same _ _ _ _ h0 hs]
  · rw [goodFlash, read_program _ _ _ _ _ h3 (by omega), read_program _ _ _ _ _ h2 (by omega), read_program_same _ _ _ _ h1 hc]
  · rw [goodFlash, read_program _ _ _ _ _ h3 (by omega), read_program_same _ _ _ _ h2 hc]
  · rw [goodFlash, read_program_same _ _ _ _ h3 hb]
  · rw [goodFlash, read_program _ _ _ _ _ h3 (by omega), read_program _ _ _ _ _ h2 (by omega), read_program _ _ _ _ _ h1 (by omega),
      read_program _ _ _ _ _ h0 (by omega)]
  · intro k
    rw [goodFlash, read_program _ _ _ _ _ h3 (by omega), read_program _ _ _ _ _ h2 (by omega), read_program _ _ _ _ _ h1 (by omega),
      read_program _ _ _ _ _ h0 (by omega)]

theorem padTo_self (b : Bytes) : padTo b.length b = b := by simp [padTo, zeros]

theorem dirBody_length : dirBody.length = 4092 := padTo_length ..

/-- What a sealed directory holds, whatever its check word. -/
theorem dir_entries (t : Bytes) : dirEntries (dirBody ++ t) = [⟨1, 0x100000, 0x100000⟩, ⟨2, 0x200000, 0x100000⟩,
    ⟨3, 0x20000, 0x10000⟩, ⟨4, 0x30000, 0x10000⟩, ⟨5, 0x40000, 0x10000⟩, ⟨6, 0x50000, 0x10000⟩, ⟨7, 0x60000, 0x10000⟩,
    ⟨8, 0x80000, 0x20000⟩] := by
  have hl := dirBody_length
  have h : ∀ i n : Nat, i + n ≤ 4092 → leAt (dirBody ++ t) i n = leAt dirBody i n := by
    intro i n hi
    rw [leAt, leAt, slice_left _ _ _ _ (by omega)]
  have h8 : leAt dirBody 6 2 = 8 := by decide +kernel
  unfold dirEntries
  rw [h 6 2 (by decide), h8]
  have : ∀ e ∈ List.range 8, (⟨leAt (dirBody ++ t) (16 + 16 * e) 2, leAt (dirBody ++ t) (20 + 16 * e) 4, leAt (dirBody ++ t) (24 + 16 * e) 4⟩ : DirEntry)
      = ⟨leAt dirBody (16 + 16 * e) 2, leAt dirBody (20 + 16 * e) 4, leAt dirBody (24 + 16 * e) 4⟩ := by
    intro e he
    have := List.mem_range.mp he
    rw [h _ _ (by omega), h _ _ (by omega), h _ _ (by omega)]
  rw [List.map_congr_left this]
  decide +kernel

theorem dirSealed : sealRecord 4096 dirBody = dirBody ++ leBytes 4 (recCrc dirBody).toNat := by
  have h : padTo 4092 dirBody = dirBody := by
    have := padTo_self dirBody
    rwa [dirBody_length] at this
  unfold sealRecord
  show padTo 4092 dirBody ++ leBytes 4 (recCrc (padTo 4092 dirBody)).toNat = _
  rw [h]

theorem dirSealed_entries : dirEntries (sealRecord 4096 dirBody) = [⟨1, 0x100000, 0x100000⟩, ⟨2, 0x200000, 0x100000⟩,
    ⟨3, 0x20000, 0x10000⟩, ⟨4, 0x30000, 0x10000⟩, ⟨5, 0x40000, 0x10000⟩, ⟨6, 0x50000, 0x10000⟩, ⟨7, 0x60000, 0x10000⟩,
    ⟨8, 0x80000, 0x20000⟩] := by
  rw [dirSealed]; exact dir_entries _

theorem dirSealed_slice (i n : Nat) (hi : i + n ≤ 4092) : slice (sealRecord 4096 dirBody) i n = slice dirBody i n := by
  rw [dirSealed, slice_left _ _ _ _ (by have := dirBody_length; omega)]

theorem dirSealed_good : dirGood 67108864 (sealRecord 4096 dirBody) = true := by
  have hlen := sealRecord_length 4096 dirBody (by decide)
  unfold dirGood
  rw [dirSealed_entries, dirSealed_slice 0 4 (by decide), leAt, dirSealed_slice 4 2 (by decide), leAt, dirSealed_slice 6 2 (by decide),
    List.take_of_length_le (by omega), recordGood_seal 4096 _ (by decide)]
  decide +kernel

theorem dirBlank (n : Nat) : dirGood n (State.reset.flash.read 65536 4096) = false := by
  have : (slice (State.reset.flash.read 65536 4096) 0 4 == ascii "GNDR") = false := by decide +kernel
  unfold dirGood
  rw [this]; rfl

theorem dir_of (f : Flash) (n : Nat) (a b : Bytes) (hs : f.size = n) (ha : f.read 0 4096 = a) (hb : f.read 65536 4096 = b)
    (ga : dirGood n a = true) (gb : dirGood n b = false) : f.dir = some (dirEntries a) := by
  unfold Flash.dir
  simp only [hs, ha, hb, ga, gb]

theorem goodFlash_dir : goodFlash.dir = some [⟨1, 0x100000, 0x100000⟩, ⟨2, 0x200000, 0x100000⟩,
    ⟨3, 0x20000, 0x10000⟩, ⟨4, 0x30000, 0x10000⟩, ⟨5, 0x40000, 0x10000⟩, ⟨6, 0x50000, 0x10000⟩, ⟨7, 0x60000, 0x10000⟩,
    ⟨8, 0x80000, 0x20000⟩] :=
  (dir_of goodFlash 67108864 _ _ rfl goodFlash_reads.1 goodFlash_reads.2.2.2.2.1 dirSealed_good (dirBlank _)).trans
    (congrArg some dirSealed_entries)

theorem goodFlash_code : goodFlash.regionBytes 3 = codeSlot ∧ goodFlash.regionBytes 4 = codeSlot := by
  obtain ⟨-, h3, h4, -⟩ := goodFlash_reads
  constructor
  · rw [Flash.regionBytes, Flash.region, goodFlash_dir]; exact h3
  · rw [Flash.regionBytes, Flash.region, goodFlash_dir]; exact h4

theorem bootRecord_good (n : Nat) (b : BootState) : bootGood (bootRecord n b) = true := by
  have h : recordGood 64 (bootRecord n b) = true := recordGood_seal 64 _ (by decide)
  have h0 : slice (bootRecord n b) 0 4 = ascii "GBST" := by
    unfold bootRecord sealRecord
    rw [slice_left _ _ _ _ (by simp)]
    unfold padTo
    rw [List.append_assoc]
    rfl
  simp [bootGood, h, h0]

/-- The boot record of `goodFlash`. -/
def bootB : Bytes := bootRecord 1 ⟨0, 1, [0, 0, 0, 1], 0⟩

theorem boot_first : bootGood (goodFlash.read (0x80000 + 64 * 0) 64) = true := by
  have h : goodFlash.read (0x80000 + 64 * 0) 64 = bootB := goodFlash_reads.2.2.2.1
  rw [h]; exact bootRecord_good ..

theorem boot_blank (i : Nat) : bootGood (goodFlash.read (0x80000 + 64 * (i + 1)) 64) = false := by
  have hx : 0x80000 + 64 * (i + 1) = 0x80040 + 64 * i := by omega
  rw [hx, goodFlash_reads.2.2.2.2.2]
  have hf : ∀ a n : Nat, State.reset.flash.read a n = List.replicate n 0xFF#8 := by
    intro a n
    induction n generalizing a with
    | zero => rfl
    | succ n ih =>
      have := ih (a + 1)
      unfold Flash.read at this ⊢
      rw [Memory.readBytes, this]
      rfl
  rw [hf]; decide +kernel

theorem boot_of (f : Flash) (r : Bytes) (hreg : f.region 8 = some (0x80000, 0x20000)) (h0 : f.read (0x80000 + 64 * 0) 64 = r)
    (hg : bootGood r = true) (hb : ∀ i : Nat, bootGood (f.read (0x80000 + 64 * (i + 1)) 64) = false) :
    f.boot = ⟨byteAt r 16 % 2, byteAt r 17 % 2, (List.range 4).map (fun i => byteAt r (18 + i)), leAt r 24 8⟩ := by
  have hsplit : List.range (0x20000 / 64) = 0 :: (List.range 2047).map Nat.succ := List.range_succ_eq_map
  have hn : ((List.range 2047).map ((fun i => (0x80000 + 64 * i, f.read (0x80000 + 64 * i) 64)) ∘ Nat.succ)).filter
      (fun e => bootGood e.2) = [] := by
    rw [List.filter_eq_nil_iff]
    intro e he
    obtain ⟨i, -, rfl⟩ := List.mem_map.mp he
    have := hb i
    simp only [Function.comp, Nat.succ_eq_add_one, this]
    simp
  have hrec : f.bootRecords = [(0x80000 + 64 * 0, r)] := by
    unfold Flash.bootRecords
    simp only [hreg]
    rw [hsplit, List.map_cons, List.map_map, List.filter_cons]
    simp only [h0, hg, if_true, hn]
  have hnew : f.bootNewest = some (0x80000 + 64 * 0, r) := by
    unfold Flash.bootNewest
    rw [hrec]
    simp only [List.foldl_cons, List.foldl_nil]
  unfold Flash.boot
  simp only [hnew]

theorem goodFlash_boot : goodFlash.boot = ⟨0, 1, [0, 0, 0, 1], 0⟩ := by
  have hreg : goodFlash.region 8 = some (0x80000, 0x20000) := by rw [Flash.region, goodFlash_dir]; rfl
  rw [boot_of goodFlash bootB hreg goodFlash_reads.2.2.2.1 (bootRecord_good ..) boot_blank]
  decide +kernel

/-- `up` with that flash, the management tables as they are. -/
def withFlash (s : State) : State := { s with flash := goodFlash }

/-- A hamper without members, `READY`. -/
def ham7 : Hamper := { (default : Hamper) with hid := 7 }

/-- `withCmds` with a hamper in slot 0. -/
def withHam (x : Hamper) (cs : List Cmd) : State :=
  { withCmds cs with ham := { (withCmds cs).ham with slots := (withCmds cs).ham.slots.set 0 (some x) } }

/-- Whether a gate lets a command go to slot 0. -/
def goes (g : Gate) : Bool := match g with | .go h => h == 0 | _ => false

theorem wit_read_stop : (let c := cmdOf 2 [(0, 0x10), (4, 1), (8, 7), (22, 1)]
    let s := withHam ham7 [c]
    liveB s 1 && s.ready? 0x10 0 2 3 == some c && (match s.dataGate c true with | .stop st => st == .outOfRange | _ => false)
      && holds (exec (.read 0 2 3) s) (fun t => endedB t 1 .outOfRange)) = true := by decide +kernel

/-- The last block that a command may name is still in range. -/
theorem wit_read_go : (let c := cmdOf 2 [(0, 0x10), (4, 1), (8, 7), (16, 255), (17, 255), (18, 255), (19, 255), (20, 255), (21, 255)]
    let s := withHam ham7 [c]
    s.ready? 0x10 0 2 3 == some c && goes (s.dataGate c true)) = true := by decide +kernel

theorem wit_read_hold : (let c := cmdOf 2 [(0, 0x10), (8, 7)]
    let s := withHam { ham7 with mounting := true } [c]
    s.ready? 0x10 0 2 3 == some c && (match s.dataGate c true with | .hold => true | _ => false)
      && holds (exec (.read 0 2 3) s) (fun t => t.cmdAt 1 == some { c with phase := .held t.us })) = true := by decide +kernel

theorem wit_write : (let c : Cmd := { cmdOf 2 [(0, 0x11), (4, 1), (8, 7)] with ordinal := 5 }
    let s := withHam { ham7 with members := [default], writes := [{ (default : WriteRec) with ordinal := 5, record := true }] } [c]
    s.ready? 0x11 0 2 3 == some c && goes (s.dataGate c (c.phase != .waiting)) && (s.lateOrdinal 0 c).cmdAt 1 == some c
      && ((((s.lateOrdinal 0 c).slot 0).bind (fun x => x.write? 5)).map (fun w => w.record)) == some true) = true := by decide +kernel

theorem wit_verify : (let c := cmdOf 2 [(0, 0x12), (4, 1), (8, 7)]
    let s := withHam ham7 [c]
    s.ready? 0x12 0 2 3 == some c && s.cmd? 0 2 3 == some c && c.phase == .waiting && goes (s.dataGate c true)) = true := by decide +kernel

theorem wit_flush_all : (let c := cmdOf 2 [(0, 0x20)]
    let s := withHam ham7 [c]
    s.ready? 0x20 0 2 3 == some c && c.hid == 0 && c.target == [] && holds (exec (.flush 0 2 3) s) (fun t => endedB t 1 .success)) = true := by decide +kernel

theorem wit_flush_one : (let c := cmdOf 2 [(0, 0x20), (8, 7)]
    let s := withHam ham7 [c]
    s.ready? 0x20 0 2 3 == some c && c.hid != 0 && goes (s.dataGate c true)) = true := by decide +kernel

theorem wit_abort_none : (let c := cmdOf 2 [(0, 0x21)]
    let s := withCmds [c]
    liveB s 1 && s.ready? 0x21 0 2 3 == some c && c.bound.bind s.cmdAt == none && holds (exec (.abort 0 2 3) s) (fun t => endedB t 1 .notFound))
    = true := by decide +kernel

theorem wit_abort_late : (let c : Cmd := { cmdOf 2 [(0, 0x21)] with bound := some 9 }
    let d : Cmd := { cmdOf 2 [(0, 0x41)] with order := 9, tag := 4 }
    let s := withCmds [c, d]
    s.ready? 0x21 0 2 3 == some c && c.bound.bind s.cmdAt == some d && holds (exec (.abort 0 2 3) s) (fun t => endedB t 1 .tooLate)) = true := by decide +kernel

theorem wit_abort_read : (let c : Cmd := { cmdOf 2 [(0, 0x21)] with bound := some 9 }
    let d : Cmd := { cmdOf 2 [(0, 0x10)] with order := 9, tag := 4 }
    let s := withCmds [c, d]
    s.ready? 0x21 0 2 3 == some c && c.bound.bind s.cmdAt == some d && liveB s 9
      && holds (exec (.abort 0 2 3) s) (fun t => endedB t 1 .success && endedB t 9 .aborted)) = true := by decide +kernel

theorem wit_identify : (let c := cmdOf 0 [(0, 0x30)]
    let s := withCmds [c]
    liveB s 1 && s.admin? 0x30 0 3 == some c) = true := by decide +kernel

theorem wit_health : (let c := cmdOf 0 [(0, 0x31)]
    let s := withCmds [c]
    liveB s 1 && s.admin? 0x31 0 3 == some c && c.b 42 == 0) = true := by decide +kernel

theorem wit_health_flags : (let c := cmdOf 0 [(0, 0x31), (42, 5)]
    let s := withCmds [c]
    liveB s 1 && s.admin? 0x31 0 3 == some c && c.b 42 % 8 != 0
      && holds (exec (.health 0 3) s) (fun t => (t.cmdAt 1).map (fun d => (d.phase == .started, d.todo)) == some (true, [0, 2]))) = true := by decide +kernel

theorem wit_healthClear_last : (let c : Cmd := { cmdOf 0 [(0, 0x31), (42, 1)] with phase := .started, todo := [0] }
    let d : Cmd := { cmdOf 0 [(0, 0x31), (40, 2), (41, 5), (42, 2)] with phase := .started, todo := [1] }
    let s := (withCmds [d]).updBay 5 (fun y => { y with mlink := { y.mlink with errs := 4 } })
    (withCmds [c]).healthFlag 0 3 0 == some c && c.todo == [0]
      && holds (exec (.healthClearCause 0 3) (withCmds [c])) (fun t => endedB t 1 .success)
      && liveB s 1 && s.healthFlag 0 3 1 == some d && d.todo == [1] && d.b 40 == 2 && d.b 41 == (5 : BayId).val
      && holds (exec (.healthClearCounters 0 3) s) (fun t => endedB t 1 .success && (t.bay 5).mlink.errs == 0)) = true := by decide +kernel

theorem wit_healthClearCause : (let c : Cmd := { cmdOf 0 [(0, 0x31), (42, 7)] with phase := .started, todo := [0, 1, 2] }
    let s := withCmds [c]
    s.healthFlag 0 3 0 == some c && s.healthFlag 0 3 1 == some c
      && holds (exec (.healthClearCause 0 3) s) (fun t => t.chip.rst.cause == 0#64)) = true := by decide +kernel

theorem wit_healthCalRequest : (let c : Cmd := { cmdOf 0 [(0, 0x31), (41, 5), (44, 3)] with phase := .started, todo := [2] }
    let s := withCmds [c]
    s.healthFlag 0 3 2 == some c && c.b 41 == (5 : BayId).val && c.b 43 == 0
      && holds (exec (.healthCalRequest 0 3) s) (fun t => (t.pu 5 .A).cal == (s.pu 5 .A).cal.makePending s.us (s.pu 5 .A).ms.layer
        ((List.range 13).filter (fun n => (leAt c.entry 44 2).testBit n)) false)) = true := by decide +kernel

theorem wit_attest : (let c := cmdOf 0 [(0, 0x32)]
    let d := cmdOf 0 [(0, 0x32), (40, 1)]
    (withCmds [c]).admin? 0x32 0 3 == some c && c.b 40 == 0 && (withCmds [d]).admin? 0x32 0 3 == some d && d.b 40 == 1) = true := by decide +kernel

/-- A command of the PF on SR 0 and a flash with good code. -/
def withCode (c : Cmd) : State := { withCmds [c] with flash := goodFlash }

theorem wit_attestRevokeKey (k : Fin 4) : (let c := cmdOf 0 [(0, 0x32), (40, 3), (41, k.val)]
    let s := withCode c
    let r := s.trust.fuses.revoked ||| BitVec.ofNat 4 (2 ^ c.b 41)
    s.admin? 0x32 0 3 = some c ∧ liveB s 1 = true ∧ c.b 40 = 3 ∧ s.fusesAccept { s.trust.fuses with revoked := r } = true ∧ r ≠ 15#4) := by
  dsimp only
  refine ⟨?_, ?_, ?_, ?_, ?_⟩
  · revert k; decide +kernel
  · revert k; decide +kernel
  · revert k; decide +kernel
  · unfold State.fusesAccept
    have h3 : (withCode (cmdOf 0 [(0, 0x32), (40, 3), (41, k.val)])).flash.regionBytes (3 + (withCode (cmdOf 0 [(0, 0x32), (40, 3), (41, k.val)])).trust.fwSlot)
        = codeSlot := goodFlash_code.1
    have hf : (withCode (cmdOf 0 [(0, 0x32), (40, 3), (41, k.val)])).cfg.found = false := rfl
    simp only [h3, hf, Bool.not_false, Bool.true_or, Bool.and_true, Bool.and_eq_true]
    exact ⟨checkCode_codeSlot _ rfl rfl true, checkCode_codeSlot _ rfl rfl false⟩
  · revert k; decide +kernel

theorem wit_attestEnforceSignatures_refused : (let c := cmdOf 0 [(0, 0x32), (40, 2)]
    let s := withCmds [c]
    s.admin? 0x32 0 3 == some c && c.b 40 == 2 && !s.fusesAccept { s.trust.fuses with sig := true }
      && holds (exec (.attestEnforceSignatures 0 3) s) (fun t => !t.trust.fuses.sig && endedB t 1 .imageInvalid)) = true := by decide +kernel

theorem wit_doeRequest : (!up.sysHeld && up.host.ready && up.queueUp && ((up.fn? 0).map (fun x => x.doe.busy)) == some false
    && (up.doeAnswer 2 (1#8 :: zeros 39)).isSome) = true := by decide +kernel

theorem wit_doeRequest_held : (let s := { up with chip := { up.chip with up := ⟨10, 0, false, false, 0, false⟩ } }
    !s.queueUp && !s.sysHeld && s.host.ready
      && holds (exec (.doeRequest 0 2 (1#8 :: zeros 39)) s) (fun t => ((t.fn? 0).map (fun x => x.doe.busy)) == some true)) = true := by decide +kernel

theorem wit_doeAbort : (let s := { up with host := { up.host with fns := [{ Fn.fresh 0 with doe := ⟨true, false, [2#8]⟩ }] } }
    holds (exec (.doeAbort 0) s) (fun t => ((t.fn? 0).map (fun x => x.doe)) == some ⟨false, false, []⟩)) = true := by decide +kernel

/-- The `STAGE_CONFIG` on firmware that opens a session, writes its first 4 KiB and commits. -/
def stage1 (todo : List Nat) : Cmd := { cmdOf 0 [(0, 0x40), (4, 1), (40, 13)] with phase := .started, todo := todo }

/-- That command, its session open since time 0. -/
def staging (todo : List Nat) : State :=
  { withCode (stage1 todo) with host := { (withCode (stage1 todo)).host with stageBusy := some ⟨1, 1, 0⟩ } }

theorem goodFlash_region4 : goodFlash.region 4 = some (0x30000, 0x10000) := by rw [Flash.region, goodFlash_dir]; rfl

theorem wit_stageConfigOpen : (withCode (stage1 [0])).stageAt 3 0 = some (stage1 [0]) ∧ (stage1 [0]).b 40 % 4 = 1
    ∧ (withCode (stage1 [0])).flash.region ((withCode (stage1 [0])).inactive 1).1 = some (0x30000, 0x10000) :=
  ⟨by decide +kernel, by decide +kernel, goodFlash_region4⟩

theorem wit_stageConfigChunk : (staging [1, 2]).stageAt 3 1 = some (stage1 [1, 2]) ∧ (staging [1, 2]).host.stageBusy = some ⟨1, 1, 0⟩
    ∧ (staging [1, 2]).flash.region ((staging [1, 2]).inactive 1).1 = some (0x30000, 0x10000)
    ∧ 4096 * leAt (stage1 [1, 2]).entry 44 4 + 4096 * (stage1 [1, 2]).nblk ≤ 0x10000 ∧ (zeros 4096).length = 4096 * (stage1 [1, 2]).nblk
    ∧ zeros 4096 ≠ [] :=
  ⟨by decide +kernel, by decide +kernel, goodFlash_region4, by decide +kernel, by rw [zeros_length]; decide +kernel,
    by intro h; exact absurd (congrArg List.length h) (by rw [zeros_length]; decide)⟩

theorem stagedGood_code (s : State) (hf : s.flash = goodFlash) (hw : s.trust.fwSlot = 0) (hs : s.trust.shadow.sig = false)
    (hp : s.trust.shadow.part = .YX3216) : s.stagedGood 1 = true := by
  unfold State.stagedGood
  have h : s.flash.regionBytes (s.inactive 1).1 = codeSlot := by
    rw [hf, State.inactive, hw]; exact goodFlash_code.2
  simp only [h]
  rw [if_neg (by decide), Bool.and_eq_true]
  exact ⟨checkCode_codeSlot s hs hp true, checkCode_codeSlot s hs hp false⟩

theorem wit_stageConfigCommit_good : (staging [2]).stageAt 3 2 = some (stage1 [2]) ∧ (staging [2]).host.stageBusy = some ⟨1, 1, 0⟩
    ∧ (1 = (stage1 [2]).b 40 % 4) ∧ ((staging [2]).updCmd 1 (fun _ => stage1 [2])).stagedGood 1 = true :=
  ⟨by decide +kernel, by decide +kernel, by decide +kernel, stagedGood_code _ rfl rfl rfl rfl⟩

theorem wit_stageConfigCommit_bad : (let s := { withCmds [stage1 [2]] with host := { (withCmds [stage1 [2]]).host with stageBusy := some ⟨1, 1, 0⟩ } }
    s.stageAt 3 2 == some (stage1 [2]) && !(s.updCmd 1 (fun _ => stage1 [2])).stagedGood 1
      && holds (exec (.stageConfigCommit 3) s) (fun t => t.host.stageBusy == none && endedB t 1 .imageInvalid)) = true := by decide +kernel

theorem wit_stageSessionIdle : (let s := { up with host := { up.host with stageBusy := some ⟨1, 1, 0⟩ } }
    decide (0 + 1000000 * s.liveN .cmdStageIdleS ≤ s.us) && !s.stageBusyNow && !s.coresHeld
      && holds (exec .stageSessionIdle s) (fun t => t.host.stageBusy == none)) = true := by decide +kernel

theorem wit_activateFwFirmware : (withCode (cmdOf 0 [(0, 0x41)])).activation? 3 0 = some (cmdOf 0 [(0, 0x41)])
    ∧ (withCode (cmdOf 0 [(0, 0x41)])).activationBusy = false ∧ (withCode (cmdOf 0 [(0, 0x41)])).fwWaits = true := by
  refine ⟨by decide +kernel, by decide +kernel, ?_⟩
  have h : (withCode (cmdOf 0 [(0, 0x41)])).flash.boot = ⟨0, 1, [0, 0, 0, 1], 0⟩ := goodFlash_boot
  unfold State.fwWaits
  simp only [h]
  decide +kernel

theorem wit_activateFwCoreReset : (let c := cmdOf 0 [(0, 0x41), (40, 1)]
    let s := withCmds [c]
    s.activation? 3 1 == some c && !s.activationBusy
      && holds (exec (.activateFwCoreReset 3) s) (fun t => t.host.act == some ⟨1, 1, t.us, false⟩ && t.host.fetchStop)) = true := by decide +kernel

theorem wit_activateFwSystemReset : (let c := cmdOf 0 [(0, 0x41), (40, 2)]
    let s := withCmds [c]
    s.activation? 3 2 == some c && !s.activationBusy && holds (exec (.activateFwSystemReset 3) s) (fun t => t.sysHeld)) = true := by decide +kernel

theorem wit_fwactDrainEnd : (let s := { withCmds [{ cmdOf 0 [(0, 0x41)] with phase := .started }] with host := { (withCmds [{ cmdOf 0 [(0, 0x41)] with phase := .started }]).host with act := some ⟨1, 0, 0, false⟩ } }
    !s.coresHeld && !s.startedLeft 1
      && holds (exec .fwactDrainEnd s) (fun t => t.chip.rst.core.isSome && t.host.act == some ⟨1, 0, 0, true⟩)) = true := by decide +kernel

/-- An activation drained, its core reset asserted. -/
def activating : State :=
  let c : Cmd := { cmdOf 0 [(0, 0x41)] with phase := .started }
  { withCode c with host := { (withCode c).host with act := some ⟨1, 0, 0, true⟩ }, chip := { (withCode c).chip with rst := { (withCode c).chip.rst with core := some 0 } } }

theorem wit_fwStartResult : activating.host.act = some ⟨1, 0, 0, true⟩ ∧ activating.chip.rst.core.isSome = true ∧ activating.sysHeld = false
    ∧ (activating.measureCode false (1 - activating.trust.fwSlot)).1 = true := by
  refine ⟨by decide +kernel, by decide +kernel, by decide +kernel, ?_⟩
  have h : activating.flash.regionBytes (3 + (1 - activating.trust.fwSlot)) = codeSlot := goodFlash_code.2
  unfold State.measureCode
  simp only [h]
  exact checkCode_codeSlot _ rfl rfl false

theorem wit_mountAttach : (let c := cmdOf 0 [(0, 0x50), (8, 7)]
    let s := withHam { ham7 with members := [default], attach := some 1 } [c]
    s.mount? 3 0 == some c && s.slotOf c.hid == some 0 && s.hstate { ham7 with members := [default], attach := some 1 } == .ready
      && holds (exec (.mountAttach 3) s) (fun t => endedB t 1 .success)) = true := by decide +kernel

/-- `withHam` with bay 5 ready and its disc blank. -/
def withBlank (x : Option Hamper) (c : Cmd) : State :=
  let s : State := { withCmds [c] with ham := { (withCmds [c]).ham with slots := (withCmds [c]).ham.slots.set 0 x } }
  s.updBay 5 (fun y => { y with ready := true, disc := { y.disc with blank := true, label := none } })

theorem wit_mountCreate : (let c := cmdOf 0 [(0, 0x50), (8, 7), (40, 1), (41, 2), (42, 1)]
    let block := zeros 64 ++ [5#8]
    let s := withBlank none c
    s.mount? 3 1 == some c && (createBays (c.b 42 + c.b 43) block).filter (fun k => k != 0xFF) == [5] && decide (5 < s.bayCount)
      && (s.bay 5).ready && (s.bay 5).isBlank && !s.bayTaken 5 && policyKept (c.b 41 / 2) (c.b 43) [5] && s.slotOf c.hid == none
      && !s.mountRunning c && s.freeSlot == some 0) = true := by decide +kernel

theorem wit_mountReplace : (let c := cmdOf 0 [(0, 0x50), (8, 7), (40, 2), (44, 0), (45, 5)]
    let m : Member := { (default : Member) with idx := 0, bay := none, state := .unused }
    let x := { ham7 with members := [m], policy := 1 }
    let s := withBlank (some x) c
    s.mount? 3 2 == some c && s.slotOf c.hid == some 0 && (match s.hamperGate c.hid with | .go h => h == 0 | _ => false) && x.member? 0 == some m
      && !s.mountRunning c && x.unmounting == none && x.replaces == none && (s.bay 5).ready && (s.bay 5).isBlank && !s.bayTaken 5
      && !s.memberReads m && !s.memberWrites m) = true := by decide +kernel

theorem wit_unmount : (let c := cmdOf 0 [(0, 0x51), (8, 7)]
    let s := withHam ham7 [c]
    s.admin? 0x51 0 3 == some c && (match s.hamperGate c.hid with | .go h => h == 0 | _ => false) && ham7.unmounting == none
      && !s.mountRunning c) = true := by decide +kernel

theorem wit_faultInjectArm : (let c := cmdOf 0 [(0, 0x60)]
    let s := withCmds [c]
    s.inject? 3 0 == some c && decide (0 < s.liveN .injectMaxActive)
      && holds (exec (.faultInjectArm 3) s) (fun t => t.inj.list.length == 1 && endedB t 1 .success)) = true := by decide +kernel

/-- An injection that waits. -/
def inj9 : Inject := ⟨9, 0, zeros 24, 0, none, 0, .waiting, none, []⟩

/-- `withCmds` with injections. -/
def withInj (i : Inject) (c : Cmd) : State := { withCmds [c] with inj := ⟨[i], 1⟩ }

theorem wit_faultInjectCancel : (let c := cmdOf 0 [(0, 0x60), (40, 1), (62, 9)]
    (withInj inj9 c).inject? 3 1 == some c && (withInj inj9 c).inj.list.any (fun i => i.id == leAt c.entry 62 2 && i.st != .ended)
      && holds (exec (.faultInjectCancel 3) (withInj inj9 c)) (fun t => endedB t 1 .success)) = true := by decide +kernel

theorem wit_faultInjectCancelAll : (let c := cmdOf 0 [(0, 0x60), (40, 2)]
    (withInj inj9 c).inject? 3 2 == some c && holds (exec (.faultInjectCancelAll 3) (withInj inj9 c)) (fun t => endedB t 1 .success)) = true := by decide +kernel

theorem wit_faultInjectList : (let c := cmdOf 0 [(0, 0x60), (40, 3)]
    (withInj inj9 c).inject? 3 3 == some c) = true := by decide +kernel

theorem wit_diagRawWrite : (let c := cmdOf 0 [(0, 0x60), (40, 4), (44, 0)]
    let d := cmdOf 0 [(0, 0x60), (40, 4), (44, 1)]
    (withCmds [c]).inject? 3 4 == some c && c.b 44 == 0 && (withCmds [d]).inject? 3 4 == some d && d.b 44 == 1) = true := by decide +kernel

theorem wit_injectActionStart : (let s := withInj inj9 (cmdOf 0 [])
    s.inj.list.find? (fun i => i.id == (9 : BitVec 16).toNat) == some inj9 && decide (inj9.armed + inj9.start ≤ s.us) && !s.sysHeld
      && holds (exec (.injectActionStart 9) s) (fun t => t.inj.list.any (fun j => j.id == 9 && j.st == .acting))) = true := by decide +kernel

theorem wit_injectDurationEnd : (let i : Inject := { inj9 with st := .acting, began := some 0 }
    let s := withInj i (cmdOf 0 [])
    decide (0 + (if i.duration = 0 then s.liveN .injectMaxDurationS * 1000 else min i.duration (s.liveN .injectMaxDurationS * 1000)) * 1000 ≤ s.us)
      && (match exec (.injectDurationEnd 9) s with | .next _ => true | _ => false)) = true := by decide +kernel

/-- `withHam` with this stripe being filled. -/
def stripe1 : Stripe := { (default : Stripe) with seq := 1, state := .building, opened := some 0 }

theorem wit_writeStaged : (let c : Cmd := { cmdOf 2 [(0, 0x11), (4, 1), (8, 7)] with ordinal := 5, phase := .started, slot := some 0 }
    let w : WriteRec := { (default : WriteRec) with ordinal := 5, count := 1, record := true }
    let v := withHam { ham7 with writes := [w] } [c]
    let s : State := { v with mem := { v.mem with bufs := [{ (default : Buf) with handle := 3, requester := 1 }] } }
    s.cmd? 0 2 3 == some c && ((s.slot 0).bind (fun x => x.write? c.ordinal) == some w) && s.engineUp 0
      && decide (1 ≤ (s.bufsOf c.order).length * 16) && liveB s 1
      && holds (exec (.writeStaged 0 2 3 [zeros 4096]) s) (fun t => endedB t 1 .success)) = true := by decide +kernel

theorem wit_blockPlace : (withHam ham7 []).engineUp 0 = true := by decide +kernel

theorem wit_stripeCloseTimeout : (let s := withHam { ham7 with stripes := [stripe1] } []
    (s.slot 0).bind Hamper.building == some stripe1 && stripe1.opened == some 0 && s.engineUp 0
      && decide (0 + s.liveN .hamperPlaceCloseUs ≤ s.us)) = true := by decide +kernel

theorem wit_sectorWriteOutcome : (let v := withHam ham7 []
    let s : State := { v with ham := { v.ham with takeover := some 0 } }
    v.engineUp 0 && !s.engineUp 0
      && holds (exec (.sectorWriteOutcome 0 1 2 true) s) (fun t => t.ham.queued == [(0, 1, 2, true)])) = true := by decide +kernel

theorem wit_checkpointWrite : (let n := up.liveN .hamperCkptIntervalStripes
    let x := { ham7 with ckpt := { ham7.ckpt with stripes := n } }
    let s := withHam x []
    s.slot 0 == some x && decide (s.liveN .hamperCkptIntervalStripes ≤ x.ckpt.stripes) && !x.mounting && x.ckpt.pointer == none
      && x.ckpt.waiting.1 == 0 && s.engineUp 0) = true := by decide +kernel

/-- Bay 5 ready, pickup A reading, these sectors of the disc's own read so far. -/
def readBay (label : Option Bytes) (found : List RecRead) (s : State) : State :=
  let y := (follow id).bay 5
  s.updBay 5 (fun _ => { y with ready := true, disc := { y.disc with label := label, found := found } })

/-- R30: with the first label sector blank on the surface that reads, the area is blank. -/
theorem wit_hamperAutoMount : (let s := readBay none [⟨.A, 3, 0, .blank, none⟩] up
    (s.bay 5).ready && !s.coresHeld && s.areaRead 5 Disc.nextLabel && (s.bay 5).disc.fromAreas.label == none
      && holds (exec (.hamperAutoMount 5) s) (fun t => (t.bay 5).disc.blank)) = true := by decide +kernel

/-- A disc whose label is known joins the hamper it names once its relocation and pointer areas have been read. -/
theorem wit_hamperAutoMount_joins : (let r := zeros 8 ++ leBytes 8 7
    let s := readBay (some r) ((List.range 24).map (fun g => ⟨.A, 5, 256 * g, .blank, none⟩) ++ [⟨.A, 4, 0, .blank, none⟩]) (withHam ham7 [])
    let o := s.updBay 5 (fun y => { y with disc := y.disc.fromAreas })
    (s.bay 5).ready && !s.coresHeld && s.areaRead 5 Disc.nextLabel && o.areaRead 5 Disc.nextReloc
      && o.areaRead 5 (fun d p => d.nextLog p 4 49152) && (o.bay 5).disc.label == some r && o.slotOf (labelHid r) == some 0) = true := by decide +kernel

theorem wit_memberRebuildStep : (let m : Member := { (default : Member) with idx := 0, bay := some 5, state := .rebuilding, rebuilt := 2, rebuildTo := 9 }
    let x := { ham7 with members := [m] }
    let s := withHam x []
    s.slot 0 == some x && x.members.find? (fun m => m.state == .rebuilding && m.bay.isSome) == some m && s.engineUp 0
      && x.seqOfRow m.idx m.rebuilt == none && decide (m.rebuilt < m.rebuildTo)
      && holds (exec (.memberRebuildStep 0) s) (fun t => (t.slot 0).map (fun x => x.members.map (fun y => y.rebuilt)) == some [3])) = true := by decide +kernel

theorem wit_memberGraceExpire : (let m : Member := { (default : Member) with idx := 0, bay := some 5, state := .active, graceA := some 0 }
    let x := { ham7 with members := [m] }
    let s := withHam x []
    s.slot 0 == some x && allSlots.all (fun k => k == 0 || s.slot k == none) && x.members.find? (fun m => m.bay == some 5) == some m
      && !s.surfaceWrites 5 .A && (m.grace .A).isSome && !s.graceRuns m .A && !s.coresHeld) = true := by decide +kernel

theorem wit_hamperMountRecover : (let x := { ham7 with mounting := true }
    let s := withHam x []
    s.slot 0 == some x && !s.coresHeld && s.recoveryRead x && x.attach == none) = true := by decide +kernel

theorem wit_hamperEngineFault : (up.ham.faulty.length == 5 && up.ham.faulty.getD 2 true == false
    && holds (exec (.hamperEngineFault 2 .stall) up) (fun t => t.ham.faulty.getD 2 true && !(t.blkOf ⟨6, 5, 2⟩).up && t.ham.takeover == some 2))
    = true := by decide +kernel

theorem wit_hamperEngineTakeover : (let s : State := { up with ham := { up.ham with takeover := some 2 } }
    !s.coresHeld && holds (exec .hamperEngineTakeover s) (fun t => t.ham.serves == [0, 1, 4, 3] && t.ham.takeover == none)) = true := by decide +kernel

/-- `up` with its memory filled. -/
def memUp (f : MemState → MemState) : State := { up with mem := f { up.mem with filled := true, pool := 1024 } }

theorem wit_memCorrectedError : (let s := memUp id
    !s.sysHeld && s.mem.filled && s.mem.channels.contains 3
      && holds (exec (.memCorrectedError .journal 3 64) s) (fun t => t.mem.ce == bumpCount s.mem.ce .journal 3)
      && holds (exec (.memUe .diag 3 64) s) (fun t => t.mem.ue == bumpCount s.mem.ue .diag 3)) = true := by decide +kernel

theorem wit_memUe_contexts : (let s := memUp id
    s.chip.fatal == none && holds (exec (.memUe .contexts 3 64) s) (fun t => t.chip.fatal == some .contexts && t.blk.frozen)) = true := by decide +kernel

theorem wit_mergeNarrowWrite : (let s := memUp id
    !s.blk.frozen && decide (56 % 64 + 8 ≤ 64)
      && holds (exec (.mergeNarrowWrite 3 56 (List.replicate 8 1#8)) s) (fun t => t.mem.merge.length == 1)) = true := by decide +kernel

theorem wit_mergeEntryRetire : (let e : MergeEntry := ⟨3, 0, List.replicate 64 7#8, List.replicate 64 true, 0⟩
    let s := memUp (fun m => { m with merge := [e] })
    oldestEntry (s.mem.merge.filter (fun e => e.ch == 3)) == some e && s.mem.mergeQ == []
      && decide (s.liveN .memMergeHoldNs ≤ 1000 * (s.us - e.since))
      && holds (exec (.mergeEntryRetire 3 false) s) (fun t => t.mem.merge == [] && t.mem.codeword 3 0 == List.replicate 64 7#8)) = true := by decide +kernel

theorem wit_bufferDraw : (let s := memUp (fun m => { m with baskets := (List.range 8).map (fun n => ⟨n, 4, 0⟩) })
    !s.sysHeld && s.mem.pool != 0 && decide (7 ≤ (7 : Fin 256).val) && basketClass s.bufCfg 7 != 5
      && basketThere s.bufCfg (partPickups s.trust.shadow.part) 7 && (MemState.draw s.bufBoundary.bufCfg 7 9 1 s.bufBoundary.mem).1 == 0
      && holds (exec (.bufferDraw 7 1 9) s) (fun t => t.mem.bufs.length == 1)) = true := by decide +kernel

theorem wit_bufferReturn : (let s := memUp (fun m => { m with bufs := [{ (default : Buf) with handle := 3, basket := 7 }] })
    (s.buf? 3).isSome && holds (exec (.bufferReturn 3) s) (fun t => t.mem.bufs == [])) = true := by decide +kernel

theorem wit_elementFault : (let s := withLink (fun l => { l with servo := { l.servo with efault := 1#36 } })
    s.portUp 5 .A && elemIdx (s.pu 5 .A).link.rows 0 == 0 && decide (0 < (s.pu 5 .A).elems.length)
      && (s.pu 5 .A).elemBad (s.liveN .calElemFaultTicks) 0
      && holds (exec (.elementFault 5 .A 0) s) (fun t => ((t.pu 5 .A).elems.getD 0 .reset).grade == .faulty)) = true := by decide +kernel

/-- An item that has waited since time 0. -/
def pend (item : Nat) : CalPend := ⟨item, 0, 0, [⟨0, 0, none, false, 0⟩], false⟩

/-- Pickup A of bay 5 following with that item pending. -/
def calUp (item : Nat) (f : Pickup → Pickup) : State := follow (fun u => f { u with cal := { u.cal with pend := [pend item] } })

theorem wit_calStepRun : (let s := calUp 6 id
    (s.pu 5 .A).stepIdle && s.coreStarts 5 (.pickup .A) && ((s.pu 5 .A).pendOf 6).isSome
      && holds (exec (.calStepRun 5 .A 6) s) (fun t => (t.pu 5 .A).cal.step == some (6, t.us))) = true := by decide +kernel

/-- R358: item 1 begins with a spot whose element is graded `WORN`. -/
theorem wit_calStepRun_twin : (let s := calUp 1 (fun u => { u with elems := u.elems.set 0 { Element.reset with grade := .worn } })
    let v : Pickup := { s.pu 5 .A with cal := (s.pu 5 .A).cal.keepUnits 1 (s.pu 5 .A).examines }
    (s.pu 5 .A).stepIdle && s.coreStarts 5 (.pickup .A) && ((s.pu 5 .A).pendOf 1).isSome && ((v.pendOf 1).map (fun q => q.parts.length)) == some 1
      && holds (exec (.calStepRun 5 .A 1) s) (fun t => (t.pu 5 .A).cal.exam == some (0, false))) = true := by decide +kernel

/-- R31: power calibration waits until the used sectors of its area are known. -/
theorem wit_calStepRun_power : (let s := calUp 7 id
    let k := s.updBay 5 (fun y => { y with disc := { y.disc with found := [⟨.A, 6, 14080 * (s.pu 5 .A).ms.layer, .blank, none⟩] } })
    (s.pu 5 .A).stepIdle && s.coreStarts 5 (.pickup .A) && ((s.pu 5 .A).pendOf 7).isSome && !(s.boundary (.pickup 5 .A) 16).pcaKnown 5 .A
      && (k.boundary (.pickup 5 .A) 16).pcaKnown 5 .A
      && holds (exec (.calStepRun 5 .A 7) s) (fun t => t.pu 5 .A == s.pu 5 .A)
      && holds (exec (.calStepRun 5 .A 7) k) (fun t => (t.pu 5 .A).write.queue.any (fun c => c.why == .powerCal))) = true := by decide +kernel

theorem wit_calGapForce : (let s := calUp 9 id
    !layerBound 9 && (pend 9).parts.any (fun a => !a.ended) && decide ((pend 9).since + 1000 * s.liveN .calMaxDeferMs ≤ s.us)
      && (s.pu 5 .A).cal.gap == none && !(s.pu 5 .A).cal.gapDue && (s.pu 5 .A).cal.step == none && s.coreStarts 5 (.pickup .A)
      && holds (exec (.calGapForce 5 .A) s) (fun t => (t.pu 5 .A).cal.gapDue)) = true := by decide +kernel

/-- Pickup A of bay 5 in a step of item 6 whose first result is taken as it stands. -/
def calStep6 : State :=
  let s := calUp 6 (fun u => { u with cal := { u.cal with step := some (6, 0) } })
  { s with cfg := { s.cfg with units := [((.pickup 5 .A, 16), ⟨[(.calItemAccept, 6, 1)], []⟩)] } }

theorem wit_calRunDone : (let s := calStep6
    ((s.pu 5 .A).pendOf 6).isSome && (pend 6).parts.any (fun a => a.unit == 0 && !a.ended) && (s.pu 5 .A).ms.st == .follow && !s.coresHeld
      && (s.pu 5 .A).cal.step == some (6, 0) && (s.unitCfg (.pickup 5 .A) 16).at .calItemAccept 6 != 0) = true := by decide +kernel

theorem wit_calRunDone_good : (let s := calStep6
    s.calLimits 5 .A 6 0 [5] && holds (exec (.calRunDone 5 .A 6 0 [5]) s) (fun t => (t.pu 5 .A).cal.sa == [(0, 5)])) = true := by decide +kernel

theorem wit_calRunDone_bad : (let s := calStep6
    !s.calLimits 5 .A 6 0 [1000000] && holds (exec (.calRunDone 5 .A 6 0 [1000000]) s) (fun t => (t.pu 5 .A).cal.sa == [])) = true := by decide +kernel

theorem wit_sliceMarginSweep : (let s := withLink (fun l => { l with st := .active })
    (s.pu 5 .A).cal.slices.getD PhysLane.UP0.code 0 / 64 % 2 == 0 && (s.pu 5 .A).cal.slices.getD PhysLane.UP0.code 0 / 16 % 4 != 2
      && decide (0 < s.liveN .calLinkMarginMinPct)
      && holds (exec (.sliceMarginSweep 5 .A .UP0 2 0 100) s) (fun t => (t.pu 5 .A).cal.slices.getD PhysLane.UP0.code 0 / 16 % 4 == 2)) = true := by decide +kernel

theorem wit_calRecordAppend : (let s := withPu (fun u => { u with cal := { u.cal with recDue := some 1, serial := some (zeros 16) } })
    !s.coresHeld && (s.pu 5 .A).cal.recDue == some 1 && (s.pu 5 .A).cal.serial.isSome
      && !s.flash.jobs.any (fun j => j.unit == some (5, Pu.A.idx))) = true := by decide +kernel

theorem wit_regionLost : (up.regionExists 2 && !up.blk.lost.contains 2 && holds (exec (.regionLost 2) up) (fun t => t.blk.lost == [2])) = true := by decide +kernel

theorem wit_duplexDisagree : (let id : BlockId := ⟨duplexKind .ddr, duplexRegion (duplexKind .ddr) 0, 7⟩
    !up.coresHeld && decide (duplexRegion (duplexKind .ddr) 0 < 6) && decide (7 < duplexCount (duplexKind .ddr)) && (up.blkOf id).up
      && (up.blkOf id).st != .simplex
      && holds (exec (.duplexDisagree .ddr 0 7 .first false) up) (fun t => (t.blkOf id).st == .simplex)) = true := by decide +kernel

theorem wit_creditStarve : (!up.blk.frozen && (up.blkOf (linkBlock 5 7)).up && up.blk.resyncs == []
    && holds (exec (.creditStarve 5 7) up) (fun t => t.blk.resyncs == [(5, 7, t.us)])
    && holds (exec (.creditAudit 5 7 true) up) (fun t => t.blk.resyncs == [(5, 7, t.us)])) = true := by decide +kernel

theorem wit_mgmtCoreFault : (!up.coresHeld && (up.blkOf ⟨7, 4, 2⟩).up
    && holds (exec (.mgmtCoreFault 2 .check) up) (fun t => !(t.blkOf ⟨7, 4, 2⟩).up && t.blk.takeovers.any (fun x => x.kind == 7))) = true := by decide +kernel

theorem wit_mgmtTakeoverDone : (let s : State := { up with blk := { up.blk with takeovers := [⟨4, 7, 2, 0⟩] } }
    s.blk.takeovers.reverse.find? (fun t => t.kind == 7) == some ⟨4, 7, 2, 0⟩
      && holds (exec .mgmtTakeoverDone s) (fun t => t.blk.takeovers == [])) = true := by decide +kernel

theorem wit_chipFatal : (up.chip.fatal == none && up.isl.bays.length == 32
    && holds (exec (.chipFatal .duplex 11 3) up) (fun t => t.chip.fatal == some .duplex && t.blk.frozen)) = true := by decide +kernel

/-- `up` with a crash record due since `at'`. -/
def crashed (at' : Nat) : State := { up with chip := { up.chip with crash := some [], fatal := some .duplex, fatalAt := at' } }

theorem wit_crashRecordAppend : (let s := crashed 5000000000
    decide (s.us < s.chip.fatalAt + 50000) && !s.flash.jobs.any (fun j => j.op == .crashRecord)
      && holds (exec .crashRecordAppend s) (fun t => t.flash.jobs.length == 1)) = true := by decide +kernel

theorem wit_crashRecordAppend_late : (let s := crashed (5000000000 - 50000)
    decide (s.chip.fatalAt + 50000 ≤ s.us) && holds (exec .crashRecordAppend s) (fun t => t.chip.rst.island && t.chip.crash == none)) = true := by decide +kernel

theorem wit_flashEraseProgramDone : (let j : FlashJob := ⟨.crashRecord, 0, [], 0, none, none⟩
    let k : FlashJob := ⟨.calRecord, 0, [], 0, none, some (5, 0)⟩
    let s : State := { up with flash := { up.flash with jobs := [k, j] } }
    s.flash.jobs.find? (fun j => j.op == .crashRecord) == some j && s.flash.jobs.find? (fun j => j.op == .calRecord) == some k
      && s.flash.jobs.all (fun j => j.op != .bootRecord)) = true := by decide +kernel

theorem wit_injectLift : (let i : Inject := { inj9 with st := .ended, endedAt := some 0 }
    let j : Inject := { inj9 with st := .ended, endedAt := some 4999999000 }
    decide (0 + 1000000 ≤ up.us) && decide (up.us < 4999999000 + 1000000)
      && holds (exec (.injectLift 9) { up with inj := ⟨[i], 1⟩ }) (fun t => t.inj.list == [])
      && holds (exec (.injectLift 9) { up with inj := ⟨[j], 1⟩ }) (fun t => t.inj.list == [j])) = true := by decide +kernel

theorem wit_powerOnReset : holds (exec .powerOnReset up) (fun t => t.chip.rst.porst && t.chip.up.step == 0) = true := by decide +kernel

theorem wit_supplyMonitorTrip : (let s : State := { up with chip := { up.chip with rst := { up.chip.rst with porst := true } } }
    !up.chip.rst.porst && holds (exec (.supplyMonitorTrip .core) up) (fun t => t.chip.rst.porst)
      && holds (exec (.supplyMonitorTrip .core) s) (fun t => t.chip.up.step == 10)) = true := by decide +kernel

theorem wit_sysrstNAssert : (!up.sysHeld && holds (exec .sysrstNAssert up) (fun t => t.chip.rst.sysrst && t.sysHeld && t.host.fns == [])) = true := by decide +kernel

theorem wit_pePerstSystem : (let s : State := { up with trust := { up.trust with shadow := { up.trust.shadow with perstSys := true } } }
    !up.trust.shadow.perstSys && holds (exec .pePerstSystem s) (fun t => t.chip.rst.perst) && holds (exec .pePerstSystem up) (fun t => !t.sysHeld)) = true := by decide +kernel

theorem wit_resetRelease : (let s : State := { up with chip := { up.chip with rst := { up.chip.rst with porst := true } } }
    !s.chip.rst.sysrst && !s.chip.rst.perst && !s.chip.rst.island
      && holds (exec (.resetRelease 0) s) (fun t => !t.chip.rst.porst && t.chip.rst.cause == 1)) = true := by decide +kernel

theorem wit_watchdogKick : (!up.coresHeld && up.chip.up.cores && decide (6 ≤ up.chip.up.step)
    && holds (exec .watchdogKick up) (fun t => t.chip.wdog == ⟨true, t.us, none⟩)) = true := by decide +kernel

theorem wit_watchdogKick_early : (let s : State := { up with chip := { up.chip with up := ⟨5, 0, false, true, 0, false⟩ } }
    holds (exec .watchdogKick s) (fun t => !t.chip.wdog.armed)) = true := by decide +kernel

/-- `up` with the watchdog as given. -/
def wdog (kicked : Nat) (first : Option Nat) : State := { up with chip := { up.chip with wdog := ⟨true, kicked, first⟩ } }

theorem wit_watchdogFirstStage : (holds (exec .watchdogFirstStage (wdog (5000000000 - 1000000) none)) (fun t => t.coresHeld && !t.sysHeld)
    && holds (exec .watchdogFirstStage (wdog (5000000000 - 999999) none)) (fun t => !t.coresHeld)) = true := by decide +kernel

theorem wit_watchdogFinalStage : (holds (exec .watchdogFinalStage (wdog 0 (some (5000000000 - 2000000)))) (fun t => t.sysHeld && !t.chip.wdog.armed)
    && holds (exec .watchdogFinalStage (wdog 0 (some (5000000000 - 1999999)))) (fun t => !t.sysHeld)) = true := by decide +kernel

/-- `up` in a core reset since `at'`. -/
def coreHeld (at' : Nat) : State := { up with chip := { up.chip with rst := { up.chip.rst with core := some at' } } }

theorem wit_coreResetRelease : (let s := coreHeld (5000000000 - 10)
    !s.sysHeld && s.host.act == none && holds (exec (.coreResetRelease false []) s) (fun t => !t.chip.up.cores)
      && holds (exec (.coreResetRelease true []) s) (fun t => !t.coresHeld)
      && holds (exec (.coreResetRelease true []) (coreHeld (5000000000 - 9))) (fun t => t.coresHeld)) = true := by decide +kernel

theorem wit_blockResetRequest : (up.blockExists ⟨2, 3, 16⟩ && (up.blkOf ⟨2, 3, 16⟩).up
    && holds (exec (.blockResetRequest ⟨2, 3, 16⟩ true) up) (fun t => t.blk.resets == up.blk.resets + 1)) = true := by decide +kernel

theorem wit_clockReleaseTimeout : (let id : BlockId := ⟨0, regionOf 5, portInst 5 .A⟩
    up.blockExists id && (up.blkOf id).up && !up.coresHeld
      && holds (exec (.clockReleaseTimeout id) up) (fun t => !(t.blkOf id).up && !t.portUp 5 .A)
      && holds (exec (.clockGoodLoss id) up) (fun t => !(t.blkOf id).up)) = true := by decide +kernel

theorem wit_rootLost : (up.islandUp && up.isl.rootOk && holds (exec .rootLost up) (fun t => t.chip.rst.island && !t.isl.rootOk)) = true := by decide +kernel

theorem wit_ddrPllUnlock : (up.chip.clk.ddrLock && up.chip.fatal == none
    && holds (exec .ddrPllUnlock up) (fun t => t.chip.fatal == some .ddrPll)) = true := by decide +kernel

theorem wit_thermalTrip : holds (exec .thermalTrip up) (fun t => t.chip.power.tripped) = true := by decide +kernel

theorem wit_avsSetPoint : (let v := up.chip.power.avs
    decide (3 ≤ up.chip.up.step) && decide (680 ≤ v + 10) && decide (v + 10 ≤ 800) && decide (up.chip.power.avsFails < 3)
      && holds (exec (.avsSetPoint (v + 10) true) up) (fun t => t.chip.power.avs == v + 10)
      && holds (exec (.avsSetPoint (v + 10) false) up) (fun t => t.chip.power.avs == v && t.chip.power.avsFails == 1)) = true := by decide +kernel

theorem wit_hbeatIncrement : (up.host.ready && up.chip.up.cores && holds (exec .hbeatIncrement up) (fun t => t.host.hbeat == up.host.hbeat + 1)) = true := by decide +kernel

/-- `up` as it stands after a step of the bring-up. -/
def atStep (n : Nat) : State := { up with chip := { up.chip with up := ⟨n, 0, false, true, 0, true⟩ } }

theorem wit_bringupStep_first : (let s := atStep 0
    !s.sysHeld && !s.chip.up.stopped && s.chip.fatal == none && holds (exec (.bringupStep true []) s) (fun t => t.chip.up.step == 1)
      && holds (exec (.bringupStep false []) s) (fun t => t.chip.up.step == 0 && t.chip.up.fails == 1)) = true := by decide +kernel

theorem wit_bringupStep_island : (let s := atStep 1
    !s.isl.halted && s.isl.bays.length == 32 && holds (exec (.bringupStep true []) s) (fun t => t.chip.up.step == 2 && t.isl.passed)
      && holds (exec (.bringupStep false []) s) (fun t => t.chip.up.step == 2 && t.isl.halted)) = true := by decide +kernel

theorem wit_bringupStep_clock : holds (exec (.bringupStep true []) (atStep 2)) (fun t => t.chip.up.step == 3 && t.chip.clk.locked) = true := by decide +kernel

theorem wit_bringupStep_bays : (let s := atStep 8
    (List.finRange 32).all (fun b => s.bayDone b) && holds (exec (.bringupStep true []) s) (fun t => t.host.stage == 9)) = true := by decide +kernel

theorem wit_bringupStep_hampers : (let s := atStep 9
    !s.anyMounting && holds (exec (.bringupStep true []) s) (fun t => t.chip.up.step == 10 && t.host.stage == 10)) = true := by decide +kernel

theorem wit_bayBringupStart : (let s : State := { up with cfg := { up.cfg with found := true } }
    !s.coresHeld && decide (8 ≤ s.chip.up.step) && decide (s.chip.up.at8 + 50000 * 5 ≤ s.us) && !s.noBays && s.mportUp 5 && (s.bay 5).mlink.st == .down
      && holds (exec (.bayBringupStart 5) s) (fun t => (t.bay 5).mlink.st == .dsTrain)) = true := by decide +kernel

theorem wit_step_idle : (up.pending == [] && up.chip.clk.locked && up.chip.clk.slew == 0 && holds (step up) (fun t => t.us == up.us + 1 && t.time == up.time + 1))
    = true := by decide +kernel

theorem test_step_front : (let s : State := { up with pending := [.watchdogKick, .ilkOpen] }
    holds (step s) (fun t => t.chip.wdog.armed && t.pending == [.ilkOpen])) = true := by decide +kernel

theorem wit_commandsAnswer : (let s := { up with trust := { up.trust with shadow := { up.trust.shadow with part := .YX1616 } } }
    !placeExists (.spindleStart 16) s && placeExists (.spindleStart 15) s && placeExists .watchdogKick s) = true := by decide +kernel

theorem wit_memoryStaysCanonical : up.memOk ∧ ∃ t, step up = .next t := ⟨⟨rfl, rfl⟩, _, rfl⟩

theorem wit_outputsObeyTrips : up.isl.outputsOk ∧ ∃ t, step up = .next t := by
  refine ⟨⟨by decide +kernel, ?_⟩, _, rfl⟩
  have h : ∀ k : Nat, up.isl.bays.getD k .reset = .reset := by
    intro k
    show (List.replicate 32 BaySafe.reset).getD k .reset = .reset
    simp only [List.getD_eq_getElem?_getD, List.getElem?_replicate]
    split <;> rfl
  intro k
  rw [h]
  exact ⟨fun _ => rfl, fun _ => rfl⟩

theorem wit_commandsKeepOtherParts : ∃ t, exec .watchdogKick up = .next t := ⟨_, rfl⟩

theorem wit_baysAreIsolated : ownBay (.lmonTrip 5) = some 5 ∧ (6 : BayId) ≠ 5 ∧ ∃ t, exec (.lmonTrip 5) up = .next t :=
  ⟨rfl, by decide, _, rfl⟩

theorem wit_failedCommit_session : (let s := withCmds [stage1 [2]]
    s.stageAt 3 2 == some (stage1 [2]) && liveB s 1 && s.host.stageBusy == none
      && holds (exec (.stageConfigCommit 3) s) (fun t => endedB t 1 .invalidField)) = true := by decide +kernel

theorem wit_failedCommit_target : (let s : State := { withCmds [stage1 [2]] with host := { (withCmds [stage1 [2]]).host with stageBusy := some ⟨0, 1, 0⟩ } }
    s.stageAt 3 2 == some (stage1 [2]) && (0 != (stage1 [2]).b 40 % 4)
      && holds (exec (.stageConfigCommit 3) s) (fun t => endedB t 1 .invalidField)) = true := by decide +kernel

theorem wit_failedCommit_program : (let j : FlashJob := ⟨.bootRecord, 1, [], 0, some 1, none⟩
    let s : State := { up with flash := { up.flash with jobs := [j] } }
    s.flash.jobs.find? (fun j => j.op == .bootRecord) == some j
      && (match exec (.flashEraseProgramDone .bootRecord false) s with | .next t => t.flash.mem == s.flash.mem | _ => false)) = true := by decide +kernel

theorem wit_injectionList : (let s : State := { up with inj := ⟨[inj9], 1⟩ }
    s.inj.list[0]? == some inj9 && decide (32 + 48 * 0 + 48 ≤ 4096) && decide (inj9.id < 65536) && leAt s.injectList 32 2 == 9) = true := by decide +kernel

/-! ### Worked examples of the spec -/

/-- Table 02-12: the first bytes of a head-link frame. -/
theorem test_frame_header : (let f := [0x12#8, 0xA3#8, 0xCB#8, 0x57#8, 0x81#8, 0x69#8, 0x3F#8, 0x11#8, 0x95#8]
    frType f == 1 && frSeq f == 10812 && frTsh f == 0xB57 && bitField f 32 7 == 64) = true := by decide +kernel

/-- Table 02-12: the block number is the expected one with those low bits. -/
theorem test_block_number : { HLink.reset with nextBlock := 0x34B57 }.blockOf 0xB57 = some 215895 := by decide +kernel

/-- Table 01-8: the turn of frame 1,500,000, its radius to 1 µm, and its sector. -/
theorem test_worked_address : (turnOf .data 1500000 == 8179 && radiusOf .data 1500000 / 100 == 44858
    && sectorOf ⟨.B, 7, .data, 1500000⟩ == ⟨7, .data, 300000⟩) = true := by decide +kernel

/-- Section Members and rows of 11_hampers.md: row 8,619,457 is sector 300,000 of layer L07, on surface B as an odd row. -/
theorem test_worked_row : (rowSector 8619457 == ⟨7, .data, 300000⟩ && 8619457 % 2 == 1) = true := by decide +kernel

/-- Table 01-8: 238.9 frames a turn at that radius. -/
theorem test_frames_per_turn : framesPerTurnMilli (radiusOf .data 1500000) / 100 = 2389 := by decide +kernel

/-- R446, R447, Table 23-3: the balls of three bay signals, on the first, the second and the last side. -/
theorem test_bay_balls : (bayBall 5 1 3, (baySignals.getD 1 []).getD 3 "", bayBall 13 3 5, (baySignals.getD 3 []).getD 5 "", bayBall 31 3 6,
    (baySignals.getD 3 []).getD 6 "") = ((2, 43), "HB_UP1_P", (45, 60), "LSAFE_N", (4, 4), "SSAFE_N") := by decide +kernel

theorem test_ball_names : (ballName 2 43, ballName 45 60, ballName 4 4, cornerSignal 1 1) = ("B43", "BG60", "D4", some "TCK") := by decide +kernel

/-! ### Words and operands -/

/-- No word spells a command: the table gives no row any bits. -/
theorem test_no_word : ∀ n w : Nat, decodeTableWord n w = none ∧ ∀ s : State, s.withFetchWord n w = s := fun _ _ => ⟨rfl, fun _ => rfl⟩

/-- A frame of 512 bytes is well formed, one of 511 is not; likewise 2,500 and 2,499 on the motor link. -/
theorem test_wf_frames : ((Instr.hlinkSampleFrame 0 .A .UP0 (zeros 512)).wf && !(Instr.hlinkSampleFrame 0 .A .UP0 (zeros 511)).wf
    && !(Instr.hlinkServoFrame 0 .A .UP0 [] false).wf && !(Instr.hlinkReplyFrame 0 .A .UP0 (zeros 513)).wf && !(Instr.hlinkTrainFrame 0 .A .UP0 []).wf
    && (Instr.mlinkSenseFrame 0 (zeros 2500) false).wf && !(Instr.mlinkSenseFrame 0 (zeros 2499) false).wf && !(Instr.mlinkTrainFrame 0 []).wf)
    = true := by decide +kernel

theorem test_wf_sheet : (!(Instr.ldpcCodewordDone 0 .A ⟨.A, 12, .data, 0⟩ 0).wf && !(Instr.ladderTrialDone 0 .A ⟨.A, 0, .data, 3⟩ .longer).wf
    && !(Instr.rereadPass 0 .A ⟨.A, 0, .data, 1⟩).wf && (Instr.ladderTimeout 0 .A ⟨.A, 11, .data, 5⟩).wf && !(Instr.ladderTimeout 0 .A ⟨.A, 11, .data, 4⟩).wf)
    = true := by decide +kernel

theorem test_wf_records : (!(Instr.bankSwapArm 0 .tilt .A .image (zeros 127) 0).wf && !(Instr.sledTableLoad 0 true (zeros 4095)).wf) = true := by decide +kernel

theorem test_wf_host : (!(Instr.writeStaged 0 0 0 [zeros 4095]).wf && !(Instr.barWriteOther 0 0 []).wf && !(Instr.fetchGrant [(zeros 63, [])]).wf
    && (Instr.vfEnable 255).wf && !(Instr.vfEnable 256).wf && (Instr.pcieLinkDegrade 8).wf && !(Instr.pcieLinkDegrade 16).wf
    && !(Instr.stageConfigChunk 0 (zeros 4095)).wf && !(Instr.mountCreate 0 []).wf && !(Instr.diagRawWrite 0 []).wf) = true := by decide +kernel

theorem test_wf_memory : (!(Instr.mergeNarrowWrite 0 0 []).wf && !(Instr.mergeNarrowWrite 0 0 (zeros 64)).wf && !(Instr.bufferReturn (2 ^ 24)).wf
    && (Instr.resetRelease 5).wf && !(Instr.resetRelease 6).wf) = true := by decide +kernel

theorem test_wf_blocks : (!(Instr.blockResetRequest ⟨15, 0, 0⟩ true).wf && !(Instr.clockReleaseTimeout ⟨0, 6, 0⟩).wf && !(Instr.clockGoodLoss ⟨15, 0, 0⟩).wf
    && !(Instr.bringupStep true [7000]).wf && !(Instr.calRunDone 0 .A 1 18 []).wf && !(Instr.sliceMarginSweep 0 .A .UP0 0 101 0).wf
    && !(Instr.duplexDisagree .ddr 6 0 .first false).wf && !(Instr.duplexDisagree .ddr 5 8 .first false).wf &&
    !(Instr.sliceMarginSweep 0 .A .UP0 0 0 101).wf && !(Instr.bringupStep true (List.replicate 9 7200)).wf && !(Instr.chipFatal .duplex 15 0).wf) = true := by decide +kernel

end Sys2Proof.Tests
end

section
/-! The scope of commands: what each keeps, and what it answers where its region is missing. -/

namespace Sys2Proof.Machine

/-! ### Parts that a command keeps -/

/-- Every part of the machine is one that the command is listed for, or is the same after it. -/
def KeepsOthers (c : Instr) (s t : State) : Prop := ∀ a : Area, a.mayChange c = true ∨ a.same s t

/-- A frame that names the fields a command keeps covers the parts it is not listed for. Whether it does is checked part by
part: the list decides the first alternative by computation, the frame proves the second. -/
theorem KeepsOthers.of_frame {c : Instr} {s t : State} {frame : Prop} (kept : frame)
    (covers : frame → KeepsOthers c s t := by
      intro kept a
      cases a <;> first | exact .inl rfl | exact .inr (by simp only [Area.same, kept])) :
    KeepsOthers c s t := covers kept

/-- Each arm rests on the frame lemma of its command: all that differs from one command to the next is which fields that
lemma names. -/
theorem exec_keepsOthers {c : Instr} {s t : State} (run : exec c s = .next t) : KeepsOthers c s t := by
  cases c with
  | hlinkSampleFrame b p l raw => exact .of_frame (execHlinkSampleFrame_frame b p l raw s t run)
  | blockReleaseTimeout b p => exact .of_frame (execBlockReleaseTimeout_frame b p s t run)
  | timingHoldLimit b p i_ => exact .of_frame (execTimingHoldLimit_frame b p i_ s t run)
  | hlinkServoFrame b p l raw upset => exact .of_frame (execHlinkServoFrame_frame b p l raw upset s t run)
  | servoTickMissing b p => exact .of_frame (execServoTickMissing_frame b p s t run)
  | missedTickUnlock b p => exact .of_frame (execMissedTickUnlock_frame b p s t run)
  | rowSwitchTimeout b p => exact .of_frame (execRowSwitchTimeout_frame b p s t run)
  | loopLock b p lp => exact .of_frame (execLoopLock_frame b p lp s t run)
  | loopUnlock b p lp => exact .of_frame (execLoopUnlock_frame b p lp s t run)
  | bankSwapArm b slot p src bank tick => exact .of_frame (execBankSwapArm_frame b slot p src bank tick s t run)
  | unitHandoverDone b u => exact .of_frame (execUnitHandoverDone_frame b u s t run)
  | elementFault b p e => exact .of_frame (execElementFault_frame b p e s t run)
  | hlinkReplyFrame b p l raw => exact .of_frame (execHlinkReplyFrame_frame b p l raw s t run)
  | ctrlReplyTimeout b p ctag => exact .of_frame (execCtrlReplyTimeout_frame b p ctag s t run)
  | hlinkTrainFrame b p l raw => exact .of_frame (execHlinkTrainFrame_frame b p l raw s t run)
  | hlinkTrainTimeout b p => exact .of_frame (execHlinkTrainTimeout_frame b p s t run)
  | upTrainLimit b p => exact .of_frame (execUpTrainLimit_frame b p s t run)
  | hlinkTrainRetry b p => exact .of_frame (execHlinkTrainRetry_frame b p s t run)
  | laneRetrainStart b p l => exact .of_frame (execLaneRetrainStart_frame b p l s t run)
  | spareTrainDone b p ok => exact .of_frame (execSpareTrainDone_frame b p ok s t run)
  | laneTrainResult b p l ok => exact .of_frame (execLaneTrainResult_frame b p l ok s t run)
  | laneMapBack b p => exact .of_frame (execLaneMapBack_frame b p s t run)
  | laneRetrainLimit b p => exact .of_frame (execLaneRetrainLimit_frame b p s t run)
  | dnLost b p => exact .of_frame (execDnLost_frame b p s t run)
  | spareStandbyApply b => exact .of_frame (execSpareStandbyApply_frame b s t run)
  | wedgeProcess b p => exact .of_frame (execWedgeProcess_frame b p s t run)
  | frameLockLost b p => exact .of_frame (execFrameLockLost_frame b p s t run)
  | acqSearchTimeout b p => exact .of_frame (execAcqSearchTimeout_frame b p s t run)
  | segmentSyncVote b p => exact .of_frame (execSegmentSyncVote_frame b p s t run)
  | sectorSoftCommit b p => exact .of_frame (execSectorSoftCommit_frame b p s t run)
  | detectorFault r d cause => exact .of_frame (execDetectorFault_frame r d cause s t run)
  | detectorSpareStart r => exact .of_frame (execDetectorSpareStart_frame r s t run)
  | ldpcCodewordDone b p sector cw => exact .of_frame (execLdpcCodewordDone_frame b p sector cw s t run)
  | ladderTrialDone b p sector trial => exact .of_frame (execLadderTrialDone_frame b p sector trial s t run)
  | rereadPass b p sector => exact .of_frame (execRereadPass_frame b p sector s t run)
  | ladderTimeout b p sector => exact .of_frame (execLadderTimeout_frame b p sector s t run)
  | ldpcDecoderFault r d cause => exact .of_frame (execLdpcDecoderFault_frame r d cause s t run)
  | ldpcSpareEnter r => exact .of_frame (execLdpcSpareEnter_frame r s t run)
  | discIdentityRead b => exact .of_frame (execDiscIdentityRead_frame b s t run)
  | sectorEncode b p upset => exact .of_frame (execSectorEncode_frame b p upset s t run)
  | passBlockStart b p => exact .of_frame (execPassBlockStart_frame b p s t run)
  | segmentWriteSend b p => exact .of_frame (execSegmentWriteSend_frame b p s t run)
  | strategyBankLoad b p layer => exact .of_frame (execStrategyBankLoad_frame b p layer s t run)
  | relocExcursionStart b => exact .of_frame (execRelocExcursionStart_frame b s t run)
  | pickupFocusSearchStart b p => exact .of_frame (execPickupFocusSearchStart_frame b p s t run)
  | pickupStateLimit b p => exact .of_frame (execPickupStateLimit_frame b p s t run)
  | swathJumpIssue b p s_ => exact .of_frame (execSwathJumpIssue_frame b p s_ s t run)
  | targetFrameApproach b p frame opensBlock => exact .of_frame (execTargetFrameApproach_frame b p frame opensBlock s t run)
  | sledFollowUpdate b p => exact .of_frame (execSledFollowUpdate_frame b p s t run)
  | restLoopJump b p => exact .of_frame (execRestLoopJump_frame b p s t run)
  | saTrimUpdate b p => exact .of_frame (execSaTrimUpdate_frame b p s t run)
  | layerJumpIssue b p layer => exact .of_frame (execLayerJumpIssue_frame b p layer s t run)
  | seekIssue b radius => exact .of_frame (execSeekIssue_frame b radius s t run)
  | recoverHoldEnd b p => exact .of_frame (execRecoverHoldEnd_frame b p s t run)
  | localRecaptureEnd b p => exact .of_frame (execLocalRecaptureEnd_frame b p s t run)
  | pickupFailedRetry b p => exact .of_frame (execPickupFailedRetry_frame b p s t run)
  | clvRefSwitch b => exact .of_frame (execClvRefSwitch_frame b s t run)
  | clvRefRestore b => exact .of_frame (execClvRefRestore_frame b s t run)
  | bayProbe b => exact .of_frame (execBayProbe_frame b s t run)
  | autoTuneStart b p lp => exact .of_frame (execAutoTuneStart_frame b p lp s t run)
  | autoTuneEnd b p => exact .of_frame (execAutoTuneEnd_frame b p s t run)
  | tuneRevertWindowEnd b p lp => exact .of_frame (execTuneRevertWindowEnd_frame b p lp s t run)
  | cengCheckpoint r e => exact .of_frame (execCengCheckpoint_frame r e s t run)
  | cengCoreFault r e cause => exact .of_frame (execCengCoreFault_frame r e cause s t run)
  | cengTakeoverDone r => exact .of_frame (execCengTakeoverDone_frame r s t run)
  | mlinkSenseFrame b raw upset => exact .of_frame (execMlinkSenseFrame_frame b raw upset s t run)
  | mlinkTrainFrame b raw => exact .of_frame (execMlinkTrainFrame_frame b raw s t run)
  | mlinkTrainTimeout b => exact .of_frame (execMlinkTrainTimeout_frame b s t run)
  | mlinkTrainRetry b => exact .of_frame (execMlinkTrainRetry_frame b s t run)
  | mlinkLost b => exact .of_frame (execMlinkLost_frame b s t run)
  | speedLoopSample b => exact .of_frame (execSpeedLoopSample_frame b s t run)
  | spindleStart b => exact .of_frame (execSpindleStart_frame b s t run)
  | spindleStop b => exact .of_frame (execSpindleStop_frame b s t run)
  | catchEnd b => exact .of_frame (execCatchEnd_frame b s t run)
  | alignEnd b => exact .of_frame (execAlignEnd_frame b s t run)
  | rampHandover b => exact .of_frame (execRampHandover_frame b s t run)
  | startTryFail b => exact .of_frame (execStartTryFail_frame b s t run)
  | syncEnd b => exact .of_frame (execSyncEnd_frame b s t run)
  | decelLimit b => exact .of_frame (execDecelLimit_frame b s t run)
  | brakeShortToggle b => exact .of_frame (execBrakeShortToggle_frame b s t run)
  | brakeShortLimit b => exact .of_frame (execBrakeShortLimit_frame b s t run)
  | startWaitEnd b => exact .of_frame (execStartWaitEnd_frame b s t run)
  | spindleFaultRetry b => exact .of_frame (execSpindleFaultRetry_frame b s t run)
  | testCatch b => exact .of_frame (execTestCatch_frame b s t run)
  | observerLost b => exact .of_frame (execObserverLost_frame b s t run)
  | overspeedDetect b => exact .of_frame (execOverspeedDetect_frame b s t run)
  | overspeedStop b => exact .of_frame (execOverspeedStop_frame b s t run)
  | speedReady b => exact .of_frame (execSpeedReady_frame b s t run)
  | sledCoarseStep b => exact .of_frame (execSledCoarseStep_frame b s t run)
  | sledTarget b p radius seek => exact .of_frame (execSledTarget_frame b p radius seek s t run)
  | seekArrive b p => exact .of_frame (execSeekArrive_frame b p s t run)
  | sledHoldReduce b p => exact .of_frame (execSledHoldReduce_frame b p s t run)
  | sledPowerDown b p => exact .of_frame (execSledPowerDown_frame b p s t run)
  | sledTableLoad b bank table => exact .of_frame (execSledTableLoad_frame b bank table s t run)
  | writeStaged f sr tag blocks => exact .of_frame (execWriteStaged_frame f sr tag blocks s t run)
  | blockPlace h => exact .of_frame (execBlockPlace_frame h s t run)
  | stripeCloseTimeout h => exact .of_frame (execStripeCloseTimeout_frame h s t run)
  | sectorWriteOutcome h stripe member written => exact .of_frame (execSectorWriteOutcome_frame h stripe member written s t run)
  | checkpointWrite h => exact .of_frame (execCheckpointWrite_frame h s t run)
  | hamperAutoMount b => exact .of_frame (execHamperAutoMount_frame b s t run)
  | memberRebuildStep h => exact .of_frame (execMemberRebuildStep_frame h s t run)
  | readRebuild h stripe pos => exact .of_frame (execReadRebuild_frame h stripe pos s t run)
  | memberGraceExpire b p => exact .of_frame (execMemberGraceExpire_frame b p s t run)
  | hamperMountRecover h => exact .of_frame (execHamperMountRecover_frame h s t run)
  | hamperEngineFault e cause => exact .of_frame (execHamperEngineFault_frame e cause s t run)
  | hamperEngineTakeover => exact .of_frame (execHamperEngineTakeover_frame s t run)
  | srDoorbellWrite f sr value => exact .of_frame (execSrDoorbellWrite_frame f sr value s t run)
  | crHeadDoorbellWrite f cr value => exact .of_frame (execCrHeadDoorbellWrite_frame f cr value s t run)
  | barWriteOther f offset data => exact .of_frame (execBarWriteOther_frame f offset data s t run)
  | fetchGrant entries => exact .of_frame (execFetchGrant_frame entries s t run)
  | fetchFail f sr => exact .of_frame (execFetchFail_frame f sr s t run)
  | dmaTransferFail f sr tag => exact .of_frame (execDmaTransferFail_frame f sr tag s t run)
  | completionPost f sr tag => exact .of_frame (execCompletionPost_frame f sr tag s t run)
  | crCoalesceTimeout f cr => exact .of_frame (execCrCoalesceTimeout_frame f cr s t run)
  | holdLimitExpire f sr tag => exact .of_frame (execHoldLimitExpire_frame f sr tag s t run)
  | functionLevelReset f => exact .of_frame (execFunctionLevelReset_frame f s t run)
  | busMasterEnableChange f on => exact .of_frame (execBusMasterEnableChange_frame f on s t run)
  | vfEnable count => exact .of_frame (execVfEnable_frame count s t run)
  | pcieLinkDegrade width => exact .of_frame (execPcieLinkDegrade_frame width s t run)
  | pciePerstLocal => exact .of_frame (execPciePerstLocal_frame s t run)
  | ptmTimeUpdate ns => exact .of_frame (execPtmTimeUpdate_frame ns s t run)
  | createSr f tag => exact .of_frame (execCreateSr_frame f tag s t run)
  | deleteSr f tag => exact .of_frame (execDeleteSr_frame f tag s t run)
  | createCr f tag => exact .of_frame (execCreateCr_frame f tag s t run)
  | deleteCr f tag => exact .of_frame (execDeleteCr_frame f tag s t run)
  | read f sr tag => exact .of_frame (execRead_frame f sr tag s t run)
  | write f sr tag => exact .of_frame (execWrite_frame f sr tag s t run)
  | verify f sr tag => exact .of_frame (execVerify_frame f sr tag s t run)
  | flush f sr tag => exact .of_frame (execFlush_frame f sr tag s t run)
  | abort f sr tag => exact .of_frame (execAbort_frame f sr tag s t run)
  | identify f tag => exact .of_frame (execIdentify_frame f tag s t run)
  | health f tag => exact .of_frame (execHealth_frame f tag s t run)
  | healthClearCause f tag => exact .of_frame (execHealthClearCause_frame f tag s t run)
  | healthClearCounters f tag => exact .of_frame (execHealthClearCounters_frame f tag s t run)
  | healthCalRequest f tag => exact .of_frame (execHealthCalRequest_frame f tag s t run)
  | attestReport f tag => exact .of_frame (execAttestReport_frame f tag s t run)
  | attestCertChain f tag => exact .of_frame (execAttestCertChain_frame f tag s t run)
  | attestEnforceSignatures f tag => exact .of_frame (execAttestEnforceSignatures_frame f tag s t run)
  | attestRevokeKey f tag => exact .of_frame (execAttestRevokeKey_frame f tag s t run)
  | stageConfigOpen tag => exact .of_frame (execStageConfigOpen_frame tag s t run)
  | stageConfigChunk tag data => exact .of_frame (execStageConfigChunk_frame tag data s t run)
  | stageConfigCommit tag => exact .of_frame (execStageConfigCommit_frame tag s t run)
  | stageSessionIdle => exact .of_frame (execStageSessionIdle_frame s t run)
  | activateFwFirmware tag => exact .of_frame (execActivateFwFirmware_frame tag s t run)
  | activateFwCoreReset tag => exact .of_frame (execActivateFwCoreReset_frame tag s t run)
  | activateFwSystemReset tag => exact .of_frame (execActivateFwSystemReset_frame tag s t run)
  | fwactDrainEnd => exact .of_frame (execFwactDrainEnd_frame s t run)
  | fwStartResult started => exact .of_frame (execFwStartResult_frame started s t run)
  | mountAttach tag => exact .of_frame (execMountAttach_frame tag s t run)
  | mountCreate tag block => exact .of_frame (execMountCreate_frame tag block s t run)
  | mountReplace tag => exact .of_frame (execMountReplace_frame tag s t run)
  | unmount tag => exact .of_frame (execUnmount_frame tag s t run)
  | faultInjectArm tag => exact .of_frame (execFaultInjectArm_frame tag s t run)
  | faultInjectCancel tag => exact .of_frame (execFaultInjectCancel_frame tag s t run)
  | faultInjectCancelAll tag => exact .of_frame (execFaultInjectCancelAll_frame tag s t run)
  | faultInjectList tag => exact .of_frame (execFaultInjectList_frame tag s t run)
  | diagRawWrite tag block => exact .of_frame (execDiagRawWrite_frame tag block s t run)
  | diagRawRead tag => exact .of_frame (execDiagRawRead_frame tag s t run)
  | memCorrectedError part ch addr => exact .of_frame (execMemCorrectedError_frame part ch addr s t run)
  | memUe part ch addr => exact .of_frame (execMemUe_frame part ch addr s t run)
  | mergeNarrowWrite ch addr data => exact .of_frame (execMergeNarrowWrite_frame ch addr data s t run)
  | mergeEntryRetire ch readUncorrectable => exact .of_frame (execMergeEntryRetire_frame ch readUncorrectable s t run)
  | bufferDraw basket count requester => exact .of_frame (execBufferDraw_frame basket count requester s t run)
  | bufferReturn handle => exact .of_frame (execBufferReturn_frame handle s t run)
  | powerOnReset => exact .of_frame (execPowerOnReset_frame s t run)
  | sysrstNAssert => exact .of_frame (execSysrstNAssert_frame s t run)
  | pePerstSystem => exact .of_frame (execPePerstSystem_frame s t run)
  | resetRelease source => exact .of_frame (execResetRelease_frame source s t run)
  | watchdogKick => exact .of_frame (execWatchdogKick_frame s t run)
  | watchdogFirstStage => exact .of_frame (execWatchdogFirstStage_frame s t run)
  | watchdogFinalStage => exact .of_frame (execWatchdogFinalStage_frame s t run)
  | coreResetRelease copyGood failed => exact .of_frame (execCoreResetRelease_frame copyGood failed s t run)
  | blockResetRequest blk idle => exact .of_frame (execBlockResetRequest_frame blk idle s t run)
  | clockReleaseTimeout blk => exact .of_frame (execClockReleaseTimeout_frame blk s t run)
  | clockGoodLoss blk => exact .of_frame (execClockGoodLoss_frame blk s t run)
  | rootLost => exact .of_frame (execRootLost_frame s t run)
  | ddrPllUnlock => exact .of_frame (execDdrPllUnlock_frame s t run)
  | bringupStep ok rates => exact .of_frame (execBringupStep_frame ok rates s t run)
  | bayBringupStart b => exact .of_frame (execBayBringupStart_frame b s t run)
  | vfReady f => exact .of_frame (execVfReady_frame f s t run)
  | hbeatIncrement => exact .of_frame (execHbeatIncrement_frame s t run)
  | supplyMonitorTrip rail => exact .of_frame (execSupplyMonitorTrip_frame rail s t run)
  | vddAonTrip => exact .of_frame (execVddAonTrip_frame s t run)
  | thermalTrip => exact .of_frame (execThermalTrip_frame s t run)
  | avsSetPoint millivolts acked => exact .of_frame (execAvsSetPoint_frame millivolts acked s t run)
  | calStepRun b p item => exact .of_frame (execCalStepRun_frame b p item s t run)
  | calRunDone b p item unit result => exact .of_frame (execCalRunDone_frame b p item unit result s t run)
  | calGapForce b p => exact .of_frame (execCalGapForce_frame b p s t run)
  | sliceMarginSweep b p l slice margin after => exact .of_frame (execSliceMarginSweep_frame b p l slice margin after s t run)
  | calRecordAppend b u => exact .of_frame (execCalRecordAppend_frame b u s t run)
  | creditAudit region link mismatch => exact .of_frame (execCreditAudit_frame region link mismatch s t run)
  | creditStarve region link => exact .of_frame (execCreditStarve_frame region link s t run)
  | duplexDisagree kind region inst which again => exact .of_frame (execDuplexDisagree_frame kind region inst which again s t run)
  | mgmtCoreFault c cause => exact .of_frame (execMgmtCoreFault_frame c cause s t run)
  | mgmtTakeoverDone => exact .of_frame (execMgmtTakeoverDone_frame s t run)
  | regionLost r => exact .of_frame (execRegionLost_frame r s t run)
  | chipFatal cause kind inst => exact .of_frame (execChipFatal_frame cause kind inst s t run)
  | crashRecordAppend => exact .of_frame (execCrashRecordAppend_frame s t run)
  | lmonTrip b => exact .of_frame (execLmonTrip_frame b s t run)
  | ilkOpen => exact .of_frame (execIlkOpen_frame s t run)
  | spdfToggle b afterUs => exact .of_frame (execSpdfToggle_frame b afterUs s t run)
  | speedReport b => exact .of_frame (execSpeedReport_frame b s t run)
  | plausibilityTrip b => exact .of_frame (execPlausibilityTrip_frame b s t run)
  | gateForce b p => exact .of_frame (execGateForce_frame b p s t run)
  | bayHoldReceipt b => exact .of_frame (execBayHoldReceipt_frame b s t run)
  | heartbeatWordRx side seq checkGood onPeriod serviceGood => exact .of_frame (execHeartbeatWordRx_frame side seq checkGood onPeriod serviceGood s t run)
  | heartbeatLostIsland => exact .of_frame (execHeartbeatLostIsland_frame s t run)
  | islandLostAgent => exact .of_frame (execIslandLostAgent_frame s t run)
  | permitRequest b lsafe ilkHighMs lmonHighMs => exact .of_frame (execPermitRequest_frame b lsafe ilkHighMs lmonHighMs s t run)
  | keeperDrop b lsafe => exact .of_frame (execKeeperDrop_frame b lsafe s t run)
  | outputReadback b lsafe pinHigh => exact .of_frame (execOutputReadback_frame b lsafe pinHigh s t run)
  | lockstepMismatch => exact .of_frame (execLockstepMismatch_frame s t run)
  | romCheck good => exact .of_frame (execRomCheck_frame good s t run)
  | vddSafeExcursion => exact .of_frame (execVddSafeExcursion_frame s t run)
  | lmonMismatch b => exact .of_frame (execLmonMismatch_frame b s t run)
  | jtagDebugUnlock => exact .of_frame (execJtagDebugUnlock_frame s t run)
  | doeRequest f dtype payload => exact .of_frame (execDoeRequest_frame f dtype payload s t run)
  | doeAbort f => exact .of_frame (execDoeAbort_frame f s t run)
  | injectActionStart id => exact .of_frame (execInjectActionStart_frame id s t run)
  | injectDurationEnd id => exact .of_frame (execInjectDurationEnd_frame id s t run)
  | injectLift id => exact .of_frame (execInjectLift_frame id s t run)
  | eventRateWindow => exact .of_frame (execEventRateWindow_frame s t run)
  | vddSafeReturn selfTestGood => exact .of_frame (execVddSafeReturn_frame selfTestGood s t run)
  | trstNReset => exact .of_frame (execTrstNReset_frame s t run)
  | flashEraseProgramDone op good => exact .of_frame (execFlashEraseProgramDone_frame op good s t run)

/-! ### Fuses -/

theorem Fuses.within_refl (f : Fuses) : f.within f := ⟨rfl, rfl, rfl, rfl, id, BitVec.and_self⟩

theorem Fuses.within_enforce (f : Fuses) : f.within { f with sig := true } :=
  ⟨rfl, rfl, rfl, rfl, fun _ => rfl, BitVec.and_self⟩

theorem Fuses.within_revoke (f : Fuses) (keys : BitVec 4) : f.within { f with revoked := f.revoked ||| keys } :=
  ⟨rfl, rfl, rfl, rfl, id, by ext i; simp +contextual⟩

/-- A fuse command blows the fuses it is given; where its entry is another operation's, or the check of R409 refuses the
fuses, none changes. -/
theorem State.blow_within {s : State} {fu : Fuses} (c : Cmd) (other : Prop) [Decidable other]
    (more : s.trust.fuses.within fu) : s.trust.fuses.within (if other then s else s.blow c fu).trust.fuses := by
  unfold State.blow
  split
  · exact Fuses.within_refl _
  · split
    · simpa using more
    · simpa using Fuses.within_refl _

theorem exec_attestEnforceSignatures_within {f : FnId} {tag : BitVec 6} {s t : State}
    (run : exec (.attestEnforceSignatures f tag) s = .next t) : s.trust.fuses.within t.trust.fuses := by
  cases (run : execAttestEnforceSignatures f tag s = .next t)
  split
  · exact Fuses.within_refl _
  · exact State.blow_within _ _ (Fuses.within_enforce _)

theorem exec_attestRevokeKey_within {f : FnId} {tag : BitVec 6} {s t : State}
    (run : exec (.attestRevokeKey f tag) s = .next t) : s.trust.fuses.within t.trust.fuses := by
  cases (run : execAttestRevokeKey f tag s = .next t)
  split
  · exact Fuses.within_refl _
  · exact State.blow_within _ _ (Fuses.within_revoke _ _)

theorem changesFuses_iff {c : Instr} :
    changesFuses c = true ↔ (∃ f tag, c = .attestEnforceSignatures f tag) ∨ ∃ f tag, c = .attestRevokeKey f tag := by
  constructor
  · intro listed
    unfold changesFuses at listed
    split at listed
    case h_1 f tag => exact .inl ⟨f, tag, rfl⟩
    case h_2 f tag => exact .inr ⟨f, tag, rfl⟩
    case h_3 => contradiction
  · rintro (⟨f, tag, rfl⟩ | ⟨f, tag, rfl⟩) <;> rfl

/-- The two `ATTEST` operations of R409 blow fuses; every other command keeps them. -/
theorem exec_fuses_within {c : Instr} {s t : State} (run : exec c s = .next t) : s.trust.fuses.within t.trust.fuses := by
  rcases exec_keepsOthers run .fuses with listed | same
  · rcases changesFuses_iff.1 listed with ⟨f, tag, rfl⟩ | ⟨f, tag, rfl⟩
    · exact exec_attestEnforceSignatures_within run
    · exact exec_attestRevokeKey_within run
  · rw [show t.trust.fuses = s.trust.fuses from same]
    exact Fuses.within_refl _

/-! ### The frame of every command (O6) -/

/-- Settles O6: the frame lemma of each command covers the parts it is not listed for, and fuses are only ever added to. -/
theorem commandsKeepOtherParts : Obligations.CommandsKeepOtherParts := by
  intro c s t run
  refine ⟨fun a unlisted => ?_, exec_fuses_within run⟩
  rcases exec_keepsOthers run a with listed | same
  · rw [unlisted] at listed; contradiction
  · exact same

/-! ### A region that the part does not have (O3) -/

theorem exec_regionLost_absent {r : Fin 6} {s : State} (absent : s.regionExists r.val = false) :
    exec (.regionLost r) s = .fault .noSuchBay := by
  show execRegionLost r s = _
  simp [execRegionLost, onRegion, absent]

/-- The machine after power-up on a YX1616, whose bay regions BR2 and BR3 are fused off (R3). -/
def yx1616 : State :=
  { State.reset with trust := { State.reset.trust with shadow := { State.reset.trust.shadow with part := .YX1616 } } }

/-- Refutes O3: `placeExists` looks at the regions of detectors, decoders and control engines only, while the commands that
name a region of any kind (`regionLost`, `creditAudit`, `creditStarve`, `duplexDisagree`) run through `onRegion`. The loss of
BR2 on a YX1616 passes `placeExists` and answers the fault `noSuchBay`. -/
theorem not_commandsAnswer : ¬ Obligations.CommandsAnswer := by
  intro answers
  obtain ⟨t, next⟩ := (answers (.regionLost 2) yx1616).1 rfl
  rw [exec_regionLost_absent rfl] at next
  contradiction

end Sys2Proof.Machine
end

section
/-! What a disc has been taken for: its serial and the cause of a rejection. Everything that a pickup does in leaving service
leaves both. -/

namespace Sys2Proof.Machine

/-! ### A disc's verdict: its serial once known, and why it is rejected -/

/-- What the disc of a bay has been taken for (R32, R146): its serial, and the cause of a rejection. -/
def Bay.verdict (y : Bay) : Option Bytes × Option (Bytes × Reject) := (y.disc.serial, y.disc.rejected)

/-- A change of a bay that leaves its disc's serial and rejection leaves the verdict, in this bay and in every other. -/
@[simp] theorem State.updBay_verdict (s : State) (b : BayId) (f : Bay → Bay) (c : BayId)
    (h : ∀ y, (f y).disc.serial = y.disc.serial ∧ (f y).disc.rejected = y.disc.rejected) :
    ((s.updBay b f).bays.get c).verdict = (s.bays.get c).verdict := by
  show ((s.updBay b f).bay c).verdict = (s.bay c).verdict
  by_cases hb : b = c
  · subst hb
    simp [Bay.verdict, h]
  · rw [State.updBay_bay_other _ _ _ _ hb]

@[simp] theorem State.updPu_verdict (s : State) (b : BayId) (p : Pu) (f : Pickup → Pickup) (c : BayId) :
    ((s.updPu b p f).bays.get c).verdict = (s.bays.get c).verdict := by
  simp [State.updPu]

@[simp] theorem Bay.ite_verdict (x : Prop) [Decidable x] (v w : Vector Bay 32) (c : BayId) :
    ((if x then v else w).get c).verdict = if x then (v.get c).verdict else (w.get c).verdict := by
  split <;> rfl

theorem State.foldl_verdict {α : Type} (c : BayId) (f : State → α → State)
    (hf : ∀ s a, ((f s a).bays.get c).verdict = (s.bays.get c).verdict) (l : List α) (s : State) :
    ((l.foldl f s).bays.get c).verdict = (s.bays.get c).verdict := by
  induction l generalizing s with
  | nil => rfl
  | cons a l ih => rw [List.foldl_cons, ih, hf]

/-! ### Reads -/

@[simp] theorem State.askRead_verdict (s : State) (b : BayId) (p : Pu) (a : SecAddr) (why : Purpose) (basket : Nat) (c : BayId) :
    ((s.askRead b p a why basket).bays.get c).verdict = (s.bays.get c).verdict := by
  simp [State.askRead]

@[simp] theorem State.gather_verdict (s : State) (h : SlotId) (seq n : Nat) (c : BayId) :
    ((s.gather h seq n).bays.get c).verdict = (s.bays.get c).verdict := by
  induction n generalizing s with
  | zero => rfl
  | succ n ih =>
    unfold State.gather
    split
    · rfl
    · dsimp only
      split
      · rfl
      · split <;> simp [ih]

@[simp] theorem State.gatherFor_verdict (s : State) (h : SlotId) (seq : Nat) (c : BayId) :
    ((s.gatherFor h seq).bays.get c).verdict = (s.bays.get c).verdict := by
  unfold State.gatherFor; split <;> simp

@[simp] theorem State.wantSector_verdict (s : State) (h : SlotId) (seq pos : Nat) (verify : Bool) (c : BayId) :
    ((s.wantSector h seq pos verify).bays.get c).verdict = (s.bays.get c).verdict := by
  unfold State.wantSector
  split
  · rfl
  · split
    · simp
    · split <;> simp

@[simp] theorem State.answerBlock_verdict (s : State) (h : SlotId) (order i : Nat) (c : BayId) :
    ((s.answerBlock h order i).bays.get c).verdict = (s.bays.get c).verdict := by
  unfold State.answerBlock
  dsimp only
  split
  · split <;> simp
  · rfl

@[simp] theorem State.serveReads_verdict (s : State) (h : SlotId) (c : BayId) :
    ((s.serveReads h).bays.get c).verdict = (s.bays.get c).verdict := by
  have answered : ∀ l : List Cmd, ((l.foldl (fun s d =>
      (d.todo.foldl (fun s i => s.answerBlock h d.order i) s).closeRead h d.order) s).bays.get c).verdict = (s.bays.get c).verdict :=
    fun l => State.foldl_verdict c _ (fun t d => by simp [State.foldl_verdict]) l s
  unfold State.serveReads
  dsimp only
  split <;> simp [answered]

@[simp] theorem State.sectorLanded_verdict (s : State) (h : SlotId) (seq pos : Nat) (payload : Bytes) (bufs : List Nat) (c : BayId) :
    ((s.sectorLanded h seq pos payload bufs).bays.get c).verdict = (s.bays.get c).verdict := by
  unfold State.sectorLanded
  split
  · simp
  · split
    · simp
    · split <;> simp

@[simp] theorem State.sectorUnread_verdict (s : State) (h : SlotId) (seq pos : Nat) (early : Bool) (bufs : List Nat) (c : BayId) :
    ((s.sectorUnread h seq pos early bufs).bays.get c).verdict = (s.bays.get c).verdict := by
  simp [State.sectorUnread]

/-- A record read joins what has been found of the disc. -/
@[simp] theorem State.noteRecord_verdict (s : State) (b : BayId) (p : Pu) (k no : Nat) (o : SecOutcome) (payload : Option Bytes)
    (c : BayId) : ((s.noteRecord b p k no o payload).bays.get c).verdict = (s.bays.get c).verdict := by
  simp [State.noteRecord]

@[simp] theorem State.noteSector_verdict (s : State) (b : BayId) (p : Pu) (r : SectorRec) (c : BayId) :
    ((s.noteSector b p r).bays.get c).verdict = (s.bays.get c).verdict := by
  unfold State.noteSector
  dsimp only
  split <;> simp

@[simp] theorem State.deliverRead_verdict (s : State) (b : BayId) (p : Pu) (a : SecAddr) (why : Purpose) (o : SecOutcome)
    (payload : Option Bytes) (c : BayId) :
    ((s.deliverRead b p a why o payload).bays.get c).verdict = (s.bays.get c).verdict := by
  unfold State.deliverRead
  dsimp only
  cases why with
  | hamper h seq pos => cases payload <;> simp
  | record k no => simp
  | verify => rfl
  | cal => rfl

@[simp] theorem State.endUnread_verdict (s : State) (b : BayId) (p : Pu) (a : SecAddr) (why : Purpose) (c : BayId) :
    ((s.endUnread b p a why).bays.get c).verdict = (s.bays.get c).verdict := by
  simp [State.endUnread]

@[simp] theorem State.endSlot_verdict (s : State) (b : BayId) (p : Pu) (q : SoftSlot) (o : SecOutcome) (rung : Nat)
    (payload : Option Bytes) (c : BayId) : ((s.endSlot b p q o rung payload).bays.get c).verdict = (s.bays.get c).verdict := by
  simp [State.endSlot]

@[simp] theorem State.readsLost_verdict (s : State) (b : BayId) (p : Pu) (c : BayId) :
    ((s.readsLost b p).bays.get c).verdict = (s.bays.get c).verdict := by
  simp [State.readsLost, State.foldl_verdict]

/-! ### Writes -/

@[simp] theorem State.handOver_verdict (s : State) (b : BayId) (p : Pu) (d : Coded) (c : BayId) :
    ((s.handOver b p d).bays.get c).verdict = (s.bays.get c).verdict := by
  simp [State.handOver]

/-- The pointer area of each member counts one sector more. -/
@[simp] theorem State.writePointer_verdict (s : State) (h : SlotId) (r : Bytes) (c : BayId) :
    ((s.writePointer h r).bays.get c).verdict = (s.bays.get c).verdict := by
  unfold State.writePointer
  dsimp only
  split
  · rfl
  · rw [(State.updHam_frame _ _ _).2.2.2.2.2.2.2.2.2.2.2.2.2, State.foldl_verdict, State.foldl_verdict]
    · intro t m; split <;> simp
    · intro t m; split <;> simp

@[simp] theorem State.releaseHamper_verdict (s : State) (h : SlotId) (c : BayId) :
    ((s.releaseHamper h).bays.get c).verdict = (s.bays.get c).verdict := by
  simp [State.releaseHamper, State.foldl_verdict, Disc.forget]

@[simp] theorem State.recordOutcome_verdict (s : State) (h : SlotId) (kind no : Nat) (written : Bool) (c : BayId) :
    ((s.recordOutcome h kind no written).bays.get c).verdict = (s.bays.get c).verdict := by
  unfold State.recordOutcome
  dsimp only
  repeat' split
  all_goals simp

@[simp] theorem State.reportWrite_verdict (s : State) (why : WriteWhy) (written : Bool) (c : BayId) :
    ((s.reportWrite why written).bays.get c).verdict = (s.bays.get c).verdict := by
  cases why <;> simp [State.reportWrite]

@[simp] theorem State.updCoded_verdict (s : State) (b : BayId) (p : Pu) (a : SecAddr) (g : Coded → Coded) (c : BayId) :
    ((s.updCoded b p a g).bays.get c).verdict = (s.bays.get c).verdict := by
  simp [State.updCoded]

@[simp] theorem State.writeRelocRecord_verdict (s : State) (b : BayId) (p : Pu) (layer : Nat) (homes : List SecAddr) (c : BayId) :
    ((s.writeRelocRecord b p layer homes).bays.get c).verdict = (s.bays.get c).verdict := by
  unfold State.writeRelocRecord
  dsimp only
  split
  · rfl
  · split
    · simp
    · rw [State.foldl_verdict]
      · simp
      · intro t r; split <;> simp

@[simp] theorem State.relocate_verdict (s : State) (b : BayId) (p : Pu) (d : Coded) (c : BayId) :
    ((s.relocate b p d).bays.get c).verdict = (s.bays.get c).verdict := by
  unfold State.relocate
  dsimp only
  split
  · simp
  · split <;> simp

@[simp] theorem State.failCoded_verdict (s : State) (b : BayId) (p : Pu) (a : SecAddr) (c : BayId) :
    ((s.failCoded b p a).bays.get c).verdict = (s.bays.get c).verdict := by
  unfold State.failCoded
  dsimp only
  split
  · rfl
  · split <;> simp

@[simp] theorem State.abandonBlock_verdict (s : State) (b : BayId) (p : Pu) (c : BayId) :
    ((s.abandonBlock b p).bays.get c).verdict = (s.bays.get c).verdict := by
  unfold State.abandonBlock
  dsimp only
  split
  · rfl
  · rw [State.foldl_verdict]
    · simp
    · intro t d; simp

/-! ### A pickup goes off, the bay stops -/

@[simp] theorem State.leaveService_verdict (s : State) (b : BayId) (p : Pu) (c : BayId) :
    ((s.leaveService b p).bays.get c).verdict = (s.bays.get c).verdict := by
  simp [State.leaveService]

@[simp] theorem State.dropFrameLock_verdict (s : State) (b : BayId) (p : Pu) (c : BayId) :
    ((s.dropFrameLock b p).bays.get c).verdict = (s.bays.get c).verdict := by
  simp [State.dropFrameLock, State.withdrawReads]

@[simp] theorem State.enter_verdict (s : State) (b : BayId) (p : Pu) (st : PState) (c : BayId) :
    ((s.enter b p st).bays.get c).verdict = (s.bays.get c).verdict := by
  simp [State.enter, State.updMs]

@[simp] theorem State.puOff_verdict (s : State) (b : BayId) (p : Pu) (c : BayId) :
    ((s.puOff b p).bays.get c).verdict = (s.bays.get c).verdict := by
  simp [State.puOff]

@[simp] theorem State.dropRelocs_verdict (s : State) (b : BayId) (c : BayId) :
    ((s.dropRelocs b).bays.get c).verdict = (s.bays.get c).verdict := by
  simp [State.dropRelocs]

@[simp] theorem State.commandStop_verdict (s : State) (b c : BayId) :
    ((s.commandStop b).bays.get c).verdict = (s.bays.get c).verdict := by
  simp [State.commandStop, State.updSp]

/-- A refused disc keeps its serial, known or not, and is rejected with its cause. -/
theorem State.rejectDisc_verdict (s : State) (b : BayId) (serial : Bytes) (why : Reject) (src : Nat) (e : Ev) :
    ((s.rejectDisc b serial why src e).bay b).verdict = ((s.bay b).disc.serial, some (serial, why)) := by
  unfold State.rejectDisc
  refine (State.commandStop_verdict _ b b).trans ?_
  show (State.bay _ b).verdict = _
  rw [State.updBay_bay]
  split <;> simp [Bay.verdict]

theorem State.rejectDisc_st (s : State) (b : BayId) (serial : Bytes) (why : Reject) (src : Nat) (e : Ev) (p : Pu) :
    ((s.rejectDisc b serial why src e).pu b p).ms.st = .off := State.commandStop_st _ b p

end Sys2Proof.Machine
end

section
/-! The disc identity (O35): what `DISC_IDENTITY_READ` decides once a surface is locked. -/

namespace Sys2Proof.Machine

/-- A refused disc without a serial: the bay has none, its disc is rejected, and both pickups are off. -/
def State.Refused (t : State) (b : BayId) : Prop :=
  (t.bay b).disc.serial = none ∧ (t.bay b).disc.rejected.isSome = true ∧ ∀ p : Pu, (t.pu b p).ms.st = .off

theorem State.rejectDisc_refused {s : State} {b : BayId} (unread : (s.bay b).disc.serial = none) (serial : Bytes) (why : Reject)
    (src : Nat) (e : Ev) : ((s.rejectDisc b serial why src e).after b).Refused b := by
  have verdict := State.rejectDisc_verdict s b serial why src e
  simp only [Bay.verdict, unread, Prod.mk.injEq] at verdict
  obtain ⟨noSerial, rejected⟩ := verdict
  refine ⟨?_, ?_, fun p => ?_⟩
  · simpa using noSerial
  · simp [rejected]
  · rw [State.after_pu]
    exact State.rejectDisc_st s b serial why src e p

/-- A tag of either surface agrees with a serial where one was seen (R22). -/
def Disc.tagsAgree (d : Disc) (sn : Bytes) : Prop := ∀ k, d.tagA = some k ∨ d.tagB = some k → k = serialTag sn

section
variable {s : State} {b : BayId} (inPart : s.bayExists b = true) (unread : (s.bay b).disc.serial = none)
  (locked : (s.locked b .A || s.locked b .B) = true) (running : s.coresHeld = false)
include inPart unread locked running

/-- With no good copy on either surface and none left to read, the disc is refused (R32). -/
theorem exec_discIdentityRead_noCopy (noA : (s.bay b).disc.identity? .A = none) (noB : (s.bay b).disc.identity? .B = none)
    (ended : ∀ p : Pu, (!s.pickupServes b p || ((s.bay b).disc.nextIdentity p).isNone) = true) :
    ∃ t, exec (.discIdentityRead b) s = .next t ∧ t.Refused b := by
  refine ⟨_, ?_, State.rejectDisc_refused unread ((s.bay b).disc.name (((s.bay b).disc.tagA.or (s.bay b).disc.tagB).getD 0))
    .identity 16 .discIdentityFail⟩
  show execDiscIdentityRead b s = _
  unfold execDiscIdentityRead
  rw [withBay_run inPart]
  simp [unread, locked, running, noA, noB, ended]

/-- A good copy that the tag of a surface contradicts: the disc is refused (R22). -/
theorem exec_discIdentityRead_otherTag {c : Bytes} (copy : ((s.bay b).disc.identity? .A).or ((s.bay b).disc.identity? .B) = some c)
    {k : Nat} (tag : (s.bay b).disc.tagA = some k ∨ (s.bay b).disc.tagB = some k) (other : k ≠ serialTag (identitySerial c)) :
    ∃ t, exec (.discIdentityRead b) s = .next t ∧ t.Refused b := by
  refine ⟨_, ?_, State.rejectDisc_refused unread ((s.bay b).disc.name (((s.bay b).disc.tagA.or (s.bay b).disc.tagB).getD 0))
    .identity 16 .discIdentityFail⟩
  show execDiscIdentityRead b s = _
  unfold execDiscIdentityRead
  rw [withBay_run inPart]
  rcases tag with tag | tag <;> simp [unread, locked, running, copy, tag, other]

/-- A good copy of the known format that the tags agree with is the disc's identity (R22, R32). -/
theorem exec_discIdentityRead_good {c : Bytes} (copy : ((s.bay b).disc.identity? .A).or ((s.bay b).disc.identity? .B) = some c)
    (format : leAt c 4 2 = 1) (agree : (s.bay b).disc.tagsAgree (identitySerial c)) :
    ∃ t, exec (.discIdentityRead b) s = .next t ∧ (t.bay b).disc.serial = some (identitySerial c) ∧ (t.bay b).disc.ident = c
      ∧ (t.bay b).disc.rejected = none := by
  have agreeA : ∀ k, (s.bay b).disc.tagA = some k → k = serialTag (identitySerial c) := fun k seen => agree k (.inl seen)
  have agreeB : ∀ k, (s.bay b).disc.tagB = some k → k = serialTag (identitySerial c) := fun k seen => agree k (.inr seen)
  show ∃ t, execDiscIdentityRead b s = .next t ∧ _
  unfold execDiscIdentityRead
  rw [withBay_run inPart]
  refine ⟨_, rfl, ?_⟩
  cases tagA : (s.bay b).disc.tagA <;> cases tagB : (s.bay b).disc.tagB <;>
    simp [unread, locked, running, copy, format, tagA, tagB, agreeA, agreeB]

end

/-- Settles O35, by the three outcomes of the read: no good copy left, a copy that a tag contradicts, a copy taken. -/
theorem discIdentityDecides : Obligations.DiscIdentityDecides := by
  intro s b inPart unread eitherLocked running
  have locked : (s.locked b .A || s.locked b .B) = true := by simpa using eitherLocked
  refine ⟨fun noA noB ended => ?_, fun c copy => ⟨fun format agree => ?_, fun k tag other => ?_⟩⟩
  · exact exec_discIdentityRead_noCopy inPart unread locked running noA noB (fun p => by simpa using ended p)
  · exact exec_discIdentityRead_good inPart unread locked running copy format agree
  · exact exec_discIdentityRead_otherTag inPart unread locked running copy tag other

end Sys2Proof.Machine
end

section
/-! Jumps and seeks (O17): the state that each planned movement of a pickup enters, and what it leaves the other pickup. -/

namespace Sys2Proof.Machine

/-! ### Jumps -/

/-- A jump issued with its landing predicted: the swaths to cross and the state it comes back to. -/
theorem State.jumpTo_ms (s : State) (b : BayId) (p : Pu) (n : Int) :
    ((s.jumpTo b p n).pu b p).ms.st = .swathJump
      ∧ ((s.jumpTo b p n).pu b p).ms.jump = some ⟨n, 0, 0, (s.pu b p).ms.st, false, 0⟩ := by
  obtain ⟨st, jump⟩ := State.startJump_ms (s.predictJump b p n) b p n
  exact ⟨st, by rw [State.jumpTo, jump]; simp [State.predictJump]⟩

/-- A free pickup jumps by up to the most swaths at once where the landing is in the band (R35, R147). -/
theorem exec_swathJumpIssue_jumps {s : State} {b : BayId} {p : Pu} {n : Int} (inPart : s.bayExists b = true) (nonzero : n ≠ 0)
    (most : n.natAbs ≤ s.bndN (.pickup b p) .loopJumpMaxSwaths) (free : (s.pu b p).mayMove = true)
    (starts : s.coreStarts b (.pickup p) = true)
    (band : s.inBand b p (((s.bay b).radiusNow p : Int) + n * swathPitch).toNat = true) :
    exec (.swathJumpIssue b p n) s = .next ((s.jumpTo b p n).after b) := by
  show execSwathJumpIssue b p n s = _
  unfold execSwathJumpIssue
  rw [withBay_run inPart, if_pos ⟨nonzero, most, free, starts, band⟩]

theorem Pickup.resting_follow {u : Pickup} (rests : u.resting = true) : u.ms.st = .follow := by
  simp only [Pickup.resting, Bool.and_eq_true, beq_iff_eq] at rests
  obtain ⟨⟨⟨⟨follow, -⟩, -⟩, -⟩, -⟩ := rests
  exact follow

/-- A pickup at rest jumps back one swath once it has come far enough (R149). -/
theorem exec_restLoopJump_jumps {s : State} {b : BayId} {p : Pu} {k : Nat} (inPart : s.bayExists b = true)
    (since : (s.pu b p).ms.rest = some k) (rests : (s.pu b p).resting = true) (classed : (s.pu b p).sheet.unconf = [])
    (alive : s.unitDead b (.pickup p) = false)
    (due : k + s.liveN .loopRestTurns ≤ turnOf (s.pu b p).sheet.lastConf.zone (s.pu b p).sheet.lastConf.frame) :
    exec (.restLoopJump b p) s = .next ((s.jumpTo b p (-1)).after b) := by
  show execRestLoopJump b p s = _
  unfold execRestLoopJump
  rw [withBay_run inPart]
  simp [since, rests, classed, alive, due, State.jumpTo]

/-- A pickup in `FOLLOW` without a block or a read jumps to another layer whose set is ready (R153). -/
theorem exec_layerJumpIssue_jumps {s : State} {b : BayId} {p : Pu} {layer : Fin 12} (inPart : s.bayExists b = true)
    (follow : (s.pu b p).ms.st = .follow) (noBlock : (s.pu b p).write.block = none) (classed : (s.pu b p).sheet.unconf = [])
    (noRead : (s.pu b p).cur = none) (ready : (s.pu b p).write.setReady layer.val = true)
    (starts : s.coreStarts b (.pickup p) = true) (other : layer.val ≠ (s.pu b p).ms.layer) :
    exec (.layerJumpIssue b p layer) s = .next ((s.startLayerJump b p layer.val).after b) := by
  show execLayerJumpIssue b p layer s = _
  unfold execLayerJumpIssue
  rw [withBay_run inPart]
  simp [follow, noBlock, classed, noRead, ready, starts, other]

/-! ### Seeks -/

/-- Where a bay is taken to be: its zone and radius. -/
def Bay.place (y : Bay) : Zone × Nat := (y.zone, y.radius)

@[simp] theorem State.updPu_place (s : State) (b : BayId) (p : Pu) (f : Pickup → Pickup) :
    ((s.updPu b p f).bay b).place = (s.bay b).place := by
  cases p <;> simp [State.updPu, Bay.setPu, Bay.place]

@[simp] theorem State.enter_place (s : State) (b : BayId) (p : Pu) (st : PState) :
    ((s.enter b p st).bay b).place = (s.bay b).place := by
  unfold State.enter State.updMs
  dsimp only
  split <;> simp

@[simp] theorem State.dropFrameLock_place (s : State) (b : BayId) (p : Pu) :
    ((s.dropFrameLock b p).bay b).place = (s.bay b).place := by
  obtain ⟨-, -, -, -, zone, radius, -⟩ := State.core_parts (State.dropFrameLock_core s b p b)
  rw [Bay.place, zone, radius, Bay.place]

@[simp] theorem State.enterSeek_place (s : State) (b : BayId) (p : Pu) : ((s.enterSeek b p).bay b).place = (s.bay b).place := by
  simp [State.enterSeek]

/-- A pickup that enters `SEEK` leaves the motion of the other. -/
theorem State.enterSeek_twin (s : State) (b : BayId) {p q : Pu} (h : p ≠ q) : ((s.enterSeek b p).pu b q).ms = (s.pu b q).ms := by
  unfold State.enterSeek
  dsimp only
  rw [State.enter_twin _ _ _ _ _ h, State.updPu_pu_other _ _ _ _ _ h]
  exact (State.core_pu (State.dropFrameLock_core s b p b) q).1

/-- What a seek to a radius does to one pickup: a new target, and `SEEK` where it moves. -/
def State.seekPu (s : State) (b : BayId) (p : Pu) (radius : Nat) (moves : Bool) : State :=
  let s := s.updMs b p (fun m => { m with tgtZone := zoneAt radius, tgtFrame := frameAt (zoneAt radius) radius })
  if moves then s.enterSeek b p else s

theorem State.seekPu_st (s : State) (b : BayId) (p : Pu) (radius : Nat) (moves : Bool) :
    ((s.seekPu b p radius moves).pu b p).ms.st = if moves then .seek else (s.pu b p).ms.st := by
  cases moves <;> simp [State.seekPu]

theorem State.seekPu_twin_st (s : State) (b : BayId) {p q : Pu} (radius : Nat) (moves : Bool) (h : p ≠ q) :
    ((s.seekPu b p radius moves).pu b q).ms.st = (s.pu b q).ms.st := by
  cases moves <;> simp [State.seekPu, State.updMs, State.enterSeek_twin _ _ h, State.updPu_pu_other _ _ _ _ _ h]

@[simp] theorem State.seekPu_place (s : State) (b : BayId) (p : Pu) (radius : Nat) (moves : Bool) :
    ((s.seekPu b p radius moves).bay b).place = (s.bay b).place := by
  cases moves <;> simp [State.seekPu, State.updMs]

/-- A seek of a bay: its sleds and its place, then each pickup. -/
def State.seekBay (s : State) (b : BayId) (radius : Nat) (moves : Pu → Bool) : State :=
  let s := (s.seekSleds b radius).updBay b (fun y => { y with radius := radius, zone := zoneAt radius })
  (s.seekPu b .A radius (moves .A)).seekPu b .B radius (moves .B)

theorem State.seekBay_place (s : State) (b : BayId) (radius : Nat) (moves : Pu → Bool) :
    ((s.seekBay b radius moves).bay b).place = (zoneAt radius, radius) := by
  unfold State.seekBay
  rw [State.seekPu_place, State.seekPu_place, State.updBay_bay, Bay.place]

/-- Exactly the pickups that move enter `SEEK`. -/
theorem State.seekBay_st (s : State) (b : BayId) (radius : Nat) (moves : Pu → Bool) (q : Pu) :
    ((s.seekBay b radius moves).pu b q).ms.st = if moves q then .seek else (s.pu b q).ms.st := by
  have placed : ∀ q, ((s.seekSleds b radius).updBay b (fun y => { y with radius := radius, zone := zoneAt radius })).pu b q = s.pu b q :=
    fun q => by rw [State.updBay_pu_same _ _ _ _ _ (fun y => by cases q <;> rfl), State.seekSleds_pu]
  unfold State.seekBay
  cases q with
  | A => rw [State.seekPu_twin_st _ _ _ _ (by decide), State.seekPu_st, placed]
  | B => rw [State.seekPu_st, State.seekPu_twin_st _ _ _ _ (by decide), placed]

theorem Pu.eq_or_other (p q : Pu) : q = p ∨ q = p.other := by
  cases p <;> cases q <;> decide

/-- A pickup that takes part in a seek of its bay: one in `FOLLOW` or `ACQUIRE` (R157). -/
def Pickup.seeks (u : Pickup) : Bool := u.ms.st == .follow || u.ms.st == .acquire

theorem Pickup.seeks_of_mayMove {u : Pickup} (free : u.mayMove = true) : u.seeks = true := by
  simp only [Pickup.mayMove, Bool.and_eq_true] at free
  obtain ⟨⟨⟨seeks, -⟩, -⟩, -⟩ := free
  exact seeks

theorem Pickup.not_seeks_of_off {u : Pickup} (off : u.ms.st = .off) : u.seeks = false := by
  simp [Pickup.seeks, off]

/-- A seek is made where a pickup takes part, every one that does may move, and the cores, the order of reads and the radius
allow it. -/
theorem exec_seekIssue_seeks {s : State} {b : BayId} {radius : Nat} (inPart : s.bayExists b = true)
    (part : ((s.pu b .A).seeks || (s.pu b .B).seeks) = true) (free : ∀ q : Pu, (!(s.pu b q).seeks || (s.pu b q).mayMove) = true)
    (motor : s.coreStarts b .motor = true) (starts : ∀ q : Pu, s.coreStarts b (.pickup q) = true)
    (order : s.seekInOrder b radius = true) (inner : radiusR0 ≤ radius) (outer : radius ≤ radiusEnd) :
    exec (.seekIssue b radius) s = .next ((s.seekBay b radius (fun q => (s.pu b q).seeks)).after b) := by
  show execSeekIssue b radius s = _
  unfold execSeekIssue
  rw [withBay_run inPart]
  dsimp only
  rw [if_pos]
  · rfl
  · show (((s.pu b .A).seeks || (s.pu b .B).seeks) && (!(s.pu b .A).seeks || (s.pu b .A).mayMove)
      && (!(s.pu b .B).seeks || (s.pu b .B).mayMove) && s.coreStarts b .motor && s.coreStarts b (.pickup .A)
      && s.coreStarts b (.pickup .B) && s.seekInOrder b radius && decide (radiusR0 ≤ radius ∧ radius ≤ radiusEnd)) = true
    simp [part, free, motor, starts, order, inner, outer]

/-- One pickup that may move seeks alone where the other is off. -/
theorem exec_seekIssue_alone {s : State} {b : BayId} {p : Pu} {radius : Nat} (inPart : s.bayExists b = true)
    (free : (s.pu b p).mayMove = true) (off : (s.pu b p.other).ms.st = .off) (motor : s.coreStarts b .motor = true)
    (starts : ∀ q : Pu, s.coreStarts b (.pickup q) = true) (order : s.seekInOrder b radius = true) (inner : radiusR0 ≤ radius)
    (outer : radius ≤ radiusEnd) :
    ∃ t, exec (.seekIssue b radius) s = .next t ∧ (t.pu b p).ms.st = .seek ∧ (t.pu b p.other).ms.st = .off
      ∧ (t.bay b).zone = zoneAt radius ∧ (t.bay b).radius = radius := by
  have moves := Pickup.seeks_of_mayMove free
  have stays := Pickup.not_seeks_of_off off
  have place := State.seekBay_place s b radius (fun q => (s.pu b q).seeks)
  simp only [Bay.place, Prod.mk.injEq] at place
  refine ⟨_, exec_seekIssue_seeks inPart ?_ (fun q => ?_) motor starts order inner outer, ?_, ?_, ?_⟩
  · cases p
    · rw [moves, Bool.true_or]
    · rw [moves, Bool.or_true]
  · rcases Pu.eq_or_other p q with rfl | rfl
    · rw [free, Bool.or_true]
    · rw [stays, Bool.not_false, Bool.true_or]
  · rw [State.after_pu, State.seekBay_st, if_pos moves]
  · rw [State.after_pu, State.seekBay_st, if_neg (by simp [stays]), off]
  · simpa using place

/-! ### Targets -/

/-- A frame that no jump is needed for is only set as the target (R458). -/
theorem exec_targetFrameApproach_near {s : State} {b : BayId} {p : Pu} {frame : Nat} {opens : Bool} (inPart : s.bayExists b = true)
    (follow : (s.pu b p).ms.st = .follow) (free : (s.pu b p).mayMove = true) (locked : (s.pu b p).sheet.lock = .locked)
    (starts : s.coreStarts b (.pickup p) = true)
    (near : swathsTo ((frame : Int) - ((s.pu b p).sheet.lastConf.frame + (s.pu b p).sheet.miss : Nat))
      (framesPerTurnMilli (radiusOf (s.pu b p).sheet.lastConf.zone ((s.pu b p).sheet.lastConf.frame + (s.pu b p).sheet.miss)) / 1000)
      (if opens then s.bndN (.pickup b p) .writeJumpMarginFrames else 2) = 0) :
    exec (.targetFrameApproach b p frame opens) s = .next ((s.updMs b p (fun m => { m with
      tgtFrame := frame, tgtZone := (s.pu b p).sheet.lastConf.zone, hasTarget := true })).after b) := by
  show execTargetFrameApproach b p frame opens s = _
  unfold execTargetFrameApproach
  rw [withBay_run inPart]
  dsimp only
  rw [if_neg (by simp [follow, free, locked, starts]), if_pos near]

/-- Settles O17: each command is shown to make the one transition it is for, whose lemma says what it sets. -/
theorem jumpsAndSeeksIssue : Obligations.JumpsAndSeeksIssue := by
  intro s b p inPart
  refine ⟨fun n nonzero most free starts band => ?_, fun k since rests classed alive due => ?_,
    fun layer follow noBlock classed noRead ready starts other => ?_,
    fun radius inner outer free off motor startsA startsB order => ?_,
    fun frame opens follow free locked starts near => ?_⟩
  · refine ⟨_, exec_swathJumpIssue_jumps inPart nonzero most free starts band, ?_⟩
    simpa using State.jumpTo_ms s b p n
  · refine ⟨_, exec_restLoopJump_jumps inPart since rests classed alive due, ?_⟩
    simpa [Pickup.resting_follow rests] using State.jumpTo_ms s b p (-1)
  · refine ⟨_, exec_layerJumpIssue_jumps inPart follow noBlock classed noRead ready starts other, ?_⟩
    simpa using State.startLayerJump_ms s b p layer.val
  · exact exec_seekIssue_alone inPart free off motor (fun q => by cases q <;> assumption) order inner outer
  · refine ⟨_, exec_targetFrameApproach_near inPart follow free locked starts near, ?_⟩
    simp [follow]

end Sys2Proof.Machine
end

section
/-! The record of a head link under its operations: control operations and frames on `DN` leave the lanes, the map and the training
of a link; lemmas say what each change of a lane, of the map or of the spare receiver sets and what it leaves. -/

namespace Sys2Proof.Machine

/-! ### Reading a link after a change -/

@[simp] theorem State.updLink_link (s : State) (b : BayId) (p : Pu) (g : HLink → HLink) :
    (s.updLink b p g).link b p = g (s.link b p) := by
  simp [State.updLink, State.link]

@[simp] theorem State.updPu_link (s : State) (b : BayId) (p : Pu) (f : Pickup → Pickup) :
    (s.updPu b p f).link b p = (f (s.pu b p)).link := by
  simp [State.link]

@[simp] theorem State.updLink_pu (s : State) (b : BayId) (p : Pu) (g : HLink → HLink) :
    (s.updLink b p g).pu b p = { s.pu b p with link := g (s.link b p) } := by
  simp [State.updLink, State.link]

theorem State.updLink_link_twin (s : State) (b : BayId) {p q : Pu} (g : HLink → HLink) (h : p ≠ q) :
    (s.updLink b p g).link b q = s.link b q := by
  simp [State.updLink, State.link, State.updPu_pu_other _ _ _ _ _ h]

@[simp] theorem State.updPu_spare (s : State) (b : BayId) (p : Pu) (f : Pickup → Pickup) :
    ((s.updPu b p f).bay b).spare = (s.bay b).spare := by
  simp [State.updPu]

@[simp] theorem State.updLink_spare (s : State) (b : BayId) (p : Pu) (g : HLink → HLink) :
    ((s.updLink b p g).bay b).spare = (s.bay b).spare := State.updPu_spare s b p _

@[simp] theorem State.setSpare_spare (s : State) (b : BayId) (v : SpareRx) : ((s.setSpare b v).bay b).spare = v := by
  simp [State.setSpare]

@[simp] theorem State.setSpare_pu (s : State) (b : BayId) (v : SpareRx) (q : Pu) : (s.setSpare b v).pu b q = s.pu b q :=
  State.updBay_pu_same s b b q _ (fun y => by cases q <;> rfl)

@[simp] theorem State.setSpare_link (s : State) (b : BayId) (v : SpareRx) (q : Pu) : (s.setSpare b v).link b q = s.link b q := by
  simp [State.link]

@[simp] theorem State.raisePu_link (s : State) (b : BayId) (p : Pu) (src : Nat) (e : Ev) (p0 p1 p2 : Nat) (q : Pu) :
    (s.raisePu b p src e p0 p1 p2).link b q = s.link b q := by
  simp [State.link]

@[simp] theorem State.boundary_link (s : State) (u : CfgUnit) (sec : Nat) (b : BayId) (q : Pu) :
    (s.boundary u sec).link b q = s.link b q := by
  simp [State.link]

@[simp] theorem State.emit_link (s : State) (o : Output) (b : BayId) (q : Pu) : (s.emit o).link b q = s.link b q := by
  simp [State.link]

@[simp] theorem State.after_link (s : State) (b c : BayId) (q : Pu) : (s.after b).link c q = s.link c q := by
  simp [State.link]

/-! ### Frames on `DN` and control operations (R49 to R51) -/

@[simp] theorem State.sendHead_link (s : State) (b : BayId) (p : Pu) (type tsh : Nat) (payload : Bytes) :
    (s.sendHead b p type tsh payload).link b p
      = { s.link b p with dnSeq := ((s.link b p).dnSeq + 1) % 65536, dnUsed := (s.link b p).dnUsed + 1 } := by
  rw [State.sendHead, State.link, State.sendDn_pu, ← State.link, State.updLink_link]

theorem State.sendHead_twin (s : State) (b : BayId) {p q : Pu} (type tsh : Nat) (payload : Bytes) (h : p ≠ q) :
    (s.sendHead b p type tsh payload).link b q = s.link b q := by
  rw [State.sendHead, State.link, State.sendDn_pu, ← State.link, State.updLink_link_twin _ _ _ h]

@[simp] theorem State.sendCtrl_ctrl (s : State) (b : BayId) (p : Pu) (tsh : Nat) (payload : Bytes) :
    ((s.sendCtrl b p tsh payload).link b p).ctrl = (s.link b p).ctrl := by
  unfold State.sendCtrl
  split <;> simp

/-- What a link's record holds beside its control operations and what it sends on `DN`. -/
def HLink.standing (l : HLink) : HLink := { l with ctrl := [], ctrlQ := [], nextTag := 0, cq := [], dnSeq := 0, dnUsed := 0 }

theorem State.sendCtrl_standing (s : State) (b : BayId) (p : Pu) (tsh : Nat) (payload : Bytes) :
    ((s.sendCtrl b p tsh payload).link b p).standing = (s.link b p).standing := by
  unfold State.sendCtrl
  split <;> simp [HLink.standing]

theorem State.ctrlPump_standing (s : State) (b : BayId) (p : Pu) (k : Nat) :
    ((s.ctrlPump b p k).link b p).standing = (s.link b p).standing := by
  induction k generalizing s with
  | zero => rfl
  | succ k ih =>
    unfold State.ctrlPump
    dsimp only
    split
    · split
      · rw [ih, State.sendCtrl_standing]; simp [HLink.standing]
      · rfl
    · rfl

theorem State.ctrlIssue_standing (s : State) (b : BayId) (p : Pu) (op addr : Nat) (data : Bytes) :
    ((s.ctrlIssue b p op addr data).link b p).standing = (s.link b p).standing := by
  rw [State.ctrlIssue, State.ctrlPump_standing]
  simp [HLink.standing]

theorem HLink.eq_of_standing {k l : HLink} (h : k.standing = l.standing) :
    k.st = l.st ∧ k.up0 = l.up0 ∧ k.up1 = l.up1 ∧ k.ups = l.ups ∧ k.mapNext = l.mapNext ∧ k.oneLane = l.oneLane
      ∧ k.training = l.training ∧ ∀ ph, k.lane ph = l.lane ph := by
  have up0 : k.up0 = l.up0 := (congrArg HLink.up0 h :)
  have up1 : k.up1 = l.up1 := (congrArg HLink.up1 h :)
  have ups : k.ups = l.ups := (congrArg HLink.ups h :)
  refine ⟨(congrArg HLink.st h :), up0, up1, ups, (congrArg HLink.mapNext h :), (congrArg HLink.oneLane h :),
    (congrArg HLink.training h :), fun ph => ?_⟩
  cases ph <;> assumption

/-- A control operation issued leaves the lanes of its link, their map and their training. -/
@[simp] theorem State.ctrlIssue_link (s : State) (b : BayId) (p : Pu) (op addr : Nat) (data : Bytes) :
    ((s.ctrlIssue b p op addr data).link b p).st = (s.link b p).st
      ∧ ((s.ctrlIssue b p op addr data).link b p).up0 = (s.link b p).up0
      ∧ ((s.ctrlIssue b p op addr data).link b p).up1 = (s.link b p).up1
      ∧ ((s.ctrlIssue b p op addr data).link b p).ups = (s.link b p).ups
      ∧ ((s.ctrlIssue b p op addr data).link b p).mapNext = (s.link b p).mapNext
      ∧ ((s.ctrlIssue b p op addr data).link b p).oneLane = (s.link b p).oneLane
      ∧ ((s.ctrlIssue b p op addr data).link b p).training = (s.link b p).training
      ∧ ∀ ph, ((s.ctrlIssue b p op addr data).link b p).lane ph = (s.link b p).lane ph :=
  HLink.eq_of_standing (State.ctrlIssue_standing s b p op addr data)

/-! What one pickup's link sends leaves the link of the other. -/

theorem State.sendCtrl_twin (s : State) (b : BayId) {p q : Pu} (tsh : Nat) (payload : Bytes) (h : p ≠ q) :
    (s.sendCtrl b p tsh payload).link b q = s.link b q := by
  unfold State.sendCtrl
  split
  · exact State.sendHead_twin _ _ _ _ _ h
  · exact State.updLink_link_twin _ _ _ h

theorem State.ctrlPump_twin (s : State) (b : BayId) {p q : Pu} (k : Nat) (h : p ≠ q) :
    (s.ctrlPump b p k).link b q = s.link b q := by
  induction k generalizing s with
  | zero => rfl
  | succ k ih =>
    unfold State.ctrlPump
    dsimp only
    split
    · split
      · rw [ih, State.sendCtrl_twin _ _ _ _ h, State.updLink_link_twin _ _ _ h]
      · rfl
    · rfl

theorem State.ctrlIssue_twin (s : State) (b : BayId) {p q : Pu} (op addr : Nat) (data : Bytes) (h : p ≠ q) :
    (s.ctrlIssue b p op addr data).link b q = s.link b q := by
  rw [State.ctrlIssue, State.ctrlPump_twin _ _ _ h, State.updLink_link_twin _ _ _ h]

@[simp] theorem State.ctrlIssue_spare (s : State) (b : BayId) (p : Pu) (op addr : Nat) (data : Bytes) :
    ((s.ctrlIssue b p op addr data).bay b).spare = (s.bay b).spare := by
  obtain ⟨-, -, -, -, -, -, -, spare⟩ := State.core_parts (State.ctrlIssue_core s b p op addr data b)
  exact spare

/-! ### Lanes, maps and the spare receiver (R57, R331) -/

@[simp] theorem HLink.updLane_lane (l : HLink) (ph : PhysLane) (g : Lane → Lane) : (l.updLane ph g).lane ph = g (l.lane ph) := by
  cases ph <;> rfl

/-- A change of one lane leaves the rest of the link. -/
@[simp] theorem HLink.updLane_rest (l : HLink) (ph : PhysLane) (g : Lane → Lane) :
    (l.updLane ph g).st = l.st ∧ (l.updLane ph g).mapNext = l.mapNext ∧ (l.updLane ph g).oneLane = l.oneLane
      ∧ (l.updLane ph g).training = l.training := by
  cases ph <;> exact ⟨rfl, rfl, rfl, rfl⟩

/-- A map sent waits to take effect. -/
@[simp] theorem State.laneMap_link (s : State) (b : BayId) (p : Pu) (m0 m1 : PhysLane) :
    ((s.laneMap b p m0 m1).link b p).mapNext = some (m0, m1) ∧ ∀ ph, ((s.laneMap b p m0 m1).link b p).lane ph = (s.link b p).lane ph := by
  unfold State.laneMap
  refine ⟨by simp, fun ph => ?_⟩
  simp only [State.ctrlIssue_link, State.updLink_link]
  cases ph <;> rfl

@[simp] theorem State.laneMap_spare (s : State) (b : BayId) (p : Pu) (m0 m1 : PhysLane) :
    ((s.laneMap b p m0 m1).bay b).spare = (s.bay b).spare := by
  simp [State.laneMap]

/-- A lane set to train keeps its marks of failure and retirement. -/
theorem State.laneTrain_marks (s : State) (b : BayId) (p : Pu) (ph l : PhysLane) :
    (((s.laneTrain b p ph).link b p).lane l).failed = ((s.link b p).lane l).failed
      ∧ (((s.laneTrain b p ph).link b p).lane l).retired = ((s.link b p).lane l).retired := by
  simp only [State.laneTrain, State.ctrlIssue_link, State.updLink_link]
  cases ph <;> cases l <;> exact ⟨rfl, rfl⟩

@[simp] theorem State.laneTrain_spare (s : State) (b : BayId) (p : Pu) (ph : PhysLane) :
    ((s.laneTrain b p ph).bay b).spare = (s.bay b).spare := by
  simp [State.laneTrain]

theorem State.laneTrain_twin (s : State) (b : BayId) {p q : Pu} (ph : PhysLane) (h : p ≠ q) :
    (s.laneTrain b p ph).link b q = s.link b q := by
  rw [State.laneTrain, State.ctrlIssue_twin _ _ _ _ _ h, State.updLink_link_twin _ _ _ h]

/-- A training that ends takes its lane off the list, and changes nothing else of lanes and map. -/
@[simp] theorem State.laneTrainStop_link (s : State) (b : BayId) (p : Pu) (ph : PhysLane) :
    ((s.laneTrainStop b p ph).link b p).training = (s.link b p).training.filter (fun x => x != ph)
      ∧ ((s.laneTrainStop b p ph).link b p).oneLane = (s.link b p).oneLane
      ∧ ((s.laneTrainStop b p ph).link b p).up0 = (s.link b p).up0
      ∧ ((s.laneTrainStop b p ph).link b p).up1 = (s.link b p).up1 := by
  simp [State.laneTrainStop]

/-- A retired lane is marked so, and keeps its mark of failure. -/
theorem State.retireLane_lane (s : State) (b : BayId) (p : Pu) (ph : PhysLane) :
    (((s.retireLane b p ph).link b p).lane ph).retired = true
      ∧ (((s.retireLane b p ph).link b p).lane ph).failed = ((s.link b p).lane ph).failed := by
  simp only [State.retireLane, State.raisePu_link, State.updLink_link]
  cases ph <;> exact ⟨rfl, rfl⟩

@[simp] theorem State.retireLane_spare (s : State) (b : BayId) (p : Pu) (ph : PhysLane) :
    ((s.retireLane b p ph).bay b).spare = (s.bay b).spare := by
  simp [State.retireLane]

@[simp] theorem State.noteLaneFail_spare (s : State) (b : BayId) (p : Pu) (ph : PhysLane) :
    ((s.noteLaneFail b p ph).2.bay b).spare = (s.bay b).spare := by
  simp [State.noteLaneFail]

@[simp] theorem State.holdWriting_spare (s : State) (b : BayId) (p : Pu) : ((s.holdWriting b p).bay b).spare = (s.bay b).spare := by
  obtain ⟨-, -, -, -, -, -, -, spare⟩ := State.core_parts (State.holdWriting_core s b p b)
  exact spare

/-- The spare receiver set to train keeps every lane's mark of retirement. -/
theorem State.trainSpare_retired (s : State) (b : BayId) (q p : Pu) (l : PhysLane) :
    (((s.trainSpare b q).link b p).lane l).retired = ((s.link b p).lane l).retired := by
  unfold State.trainSpare
  by_cases h : q = p
  · subst h
    rw [(State.laneTrain_marks _ b q .UPS l).2, State.setSpare_link]
  · rw [State.laneTrain_twin _ _ _ h, State.setSpare_link]

/-- What the spare receiver takes up (R331): nothing new, nothing at all, or the training of a pickup it does not stand by for. -/
theorem State.spareStandby_cases (s : State) (b : BayId) :
    s.spareStandby b = s ∨ s.spareStandby b = s.boundary (.spare b) 1
      ∨ s.spareStandby b = (s.boundary (.spare b) 1).setSpare b .idle
      ∨ ∃ q, (s.bay b).spare ≠ .standby q ∧ s.spareStandby b = (s.boundary (.spare b) 1).trainSpare b q := by
  unfold State.spareStandby
  dsimp only
  refine iteInduction (motive := fun t => t = s ∨ t = s.boundary (.spare b) 1 ∨ t = (s.boundary (.spare b) 1).setSpare b .idle
    ∨ ∃ q, (s.bay b).spare ≠ .standby q ∧ t = (s.boundary (.spare b) 1).trainSpare b q) (fun _ => ?_) (fun _ => .inl rfl)
  · cases (s.boundary (.spare b) 1).spareTarget b with
    | none => exact .inr (.inr (.inl rfl))
    | some q =>
      by_cases stands : (s.bay b).spare = .standby q
      · exact .inr (.inl (if_pos (by simp [stands])))
      · dsimp only
        rw [if_neg (by simp [stands])]
        split
        · exact .inr (.inr (.inr ⟨q, stands, rfl⟩))
        · exact .inr (.inr (.inl rfl))

/-- It changes no lane's mark of retirement. -/
theorem State.spareStandby_retired (s : State) (b : BayId) (p : Pu) (l : PhysLane) :
    (((s.spareStandby b).link b p).lane l).retired = ((s.link b p).lane l).retired := by
  rcases State.spareStandby_cases s b with same | same | idle | ⟨q, -, trains⟩
  · rw [same]
  · rw [same, State.boundary_link]
  · rw [idle, State.setSpare_link, State.boundary_link]
  · rw [trains, State.trainSpare_retired, State.boundary_link]

/-- A spare receiver that stands by for a pickup leaves that pickup's link, whichever it takes up next. -/
theorem State.spareStandby_link {s : State} {b : BayId} {p : Pu} (stands : (s.bay b).spare = .standby p) :
    (s.spareStandby b).link b p = s.link b p := by
  rcases State.spareStandby_cases s b with same | same | idle | ⟨q, other, trains⟩
  · rw [same]
  · rw [same, State.boundary_link]
  · rw [idle, State.setSpare_link, State.boundary_link]
  · have twin : q ≠ p := fun same => other (by rw [stands, same])
    rw [trains, State.trainSpare, State.laneTrain_twin _ _ _ twin, State.setSpare_link, State.boundary_link]

/-- The spare takes a failed lane's place: it carries its pickup, and every lane is left as it was. -/
theorem State.spareTakeover_carries (s : State) (b : BayId) (p : Pu) (bad : PhysLane) :
    ((s.spareTakeover b p bad).bay b).spare = .carrying p
      ∧ ∀ ph, ((s.spareTakeover b p bad).link b p).lane ph = (s.link b p).lane ph := by
  simp [State.spareTakeover]

/-- In one-lane mode the link is `ACTIVE` (R58). -/
theorem State.enterOneLane_link (s : State) (b : BayId) (p : Pu) (ph : PhysLane) :
    ((s.enterOneLane b p ph).link b p).oneLane = true ∧ ((s.enterOneLane b p ph).link b p).st = .active := by
  unfold State.enterOneLane
  dsimp only
  obtain ⟨-, -, -, -, -, st, oneLane, -⟩ := State.core_pu (State.leaveService_core
    ((s.laneMap b p ph ph).updLink b p (fun l => { l with oneLane := true, st := .active, since := (s.laneMap b p ph ph).us })) b p b) p
  refine ⟨oneLane.trans ?_, st.trans ?_⟩ <;> rw [← State.link, State.updLink_link]

/-- A link that trains anew is in `DS_TRAIN` with its permits withdrawn and no operation outstanding (Table 02-8, R52). -/
theorem State.linkTrain_link (s : State) (b : BayId) (p : Pu) :
    ((s.linkTrain b p).link b p).st = .dsTrain ∧ ((s.linkTrain b p).link b p).laser = false
      ∧ ((s.linkTrain b p).link b p).wpermit = false ∧ ((s.linkTrain b p).link b p).ctrl = [] := by
  unfold State.linkTrain
  dsimp only
  split
  · split <;> simp
  · split <;> simp
  · simp

end Sys2Proof.Machine
end

section
/-! The training of a head link (O23). -/

namespace Sys2Proof.Machine

/-! ### Attempts (R52) -/

/-- A link that gives up after its last attempt is `FAILED`; after an earlier one it begins the next. -/
theorem State.attemptFails_st (s : State) (b : BayId) (p : Pu) :
    ((s.attemptFails b p).link b p).st =
      if s.bndN (.link b p) .hlinkTrainMaxAttempts ≤ (s.link b p).attempts + 1 then .failed else .dsTrain := by
  unfold State.attemptFails
  dsimp only
  split
  · simp
  · exact (State.linkTrain_link _ b p).1

/-- With no lane trained the link leaves `UP_TRAIN` as a failed attempt (R456). -/
theorem State.leaveUpTrain_untrained {s : State} {b : BayId} {p : Pu} (untrained : ∀ l : PhysLane, (s.link b p).trained l = false) :
    s.leaveUpTrain b p = (s.freeSpareRx b p).attemptFails b p := by
  simp [State.leaveUpTrain, untrained]

@[simp] theorem State.freeSpareRx_link (s : State) (b : BayId) (p q : Pu) : (s.freeSpareRx b p).link b q = s.link b q := by
  unfold State.freeSpareRx
  split <;> simp

@[simp] theorem State.freeSpareRx_bndN (s : State) (b : BayId) (p : Pu) (u : CfgUnit) (f : Field) :
    (s.freeSpareRx b p).bndN u f = s.bndN u f := by
  unfold State.freeSpareRx
  split <;> rfl

/-! ### The commands -/

section
variable {s : State} {b : BayId} {p : Pu} (inPart : s.bayExists b = true) (port : s.portUp b p = true)
include inPart port

/-- A good `TRAIN` frame in `DS_TRAIN` begins the training of the upstream lanes, with the identity it carries (R53). -/
theorem exec_hlinkTrainFrame_good {l : PhysLane} {raw f0 : Bytes} {s' : State} (st : (s.link b p).st = .dsTrain) (fixed : l ≠ .UPS)
    (serves : ((s.link b p).lane l).retired = false) (injected : s.injectFrame (laneTarget b p l.code) raw = ([f0], s'))
    (good : frGood (scramble f0) = true) (type : frType (scramble f0) = 15)
    (word : beAt (scramble f0) 4 8 = 0x4A484C54524E3031) :
    exec (.hlinkTrainFrame b p l raw) s = .next ((s'.updLink b p (fun x =>
      { (x.updLane l (fun y => { y with good := 1 })) with
        st := .upTrain, since := s'.us, ident := some (slice (scramble f0) 16 256) })).after b) := by
  have link' : s'.link b p = s.link b p := by
    have kept := State.injectFrame_pu s (laneTarget b p l.code) raw b p
    rw [injected] at kept
    rw [State.link, kept, State.link]
  have taken : s.takeSpareRx b p l = s := by simp [State.takeSpareRx, fixed]
  show execHlinkTrainFrame b p l raw s = _
  unfold execHlinkTrainFrame
  rw [withBay_run inPart]
  simp [taken, port, st, fixed, serves, injected, link', good, type, word]

/-- 2 ms in `DS_TRAIN` are a failed attempt (Table 02-8). -/
theorem exec_hlinkTrainTimeout_fails (st : (s.link b p).st = .dsTrain) (due : (s.link b p).since + 2000 ≤ s.us) :
    exec (.hlinkTrainTimeout b p) s = .next ((s.attemptFails b p).after b) := by
  show execHlinkTrainTimeout b p s = _
  unfold execHlinkTrainTimeout
  rw [withBay_run inPart]
  simp [port, st, due]

/-- After 5 ms the link leaves `UP_TRAIN` with what has trained (R456). -/
theorem exec_upTrainLimit_leaves (st : (s.link b p).st = .upTrain) (due : (s.link b p).since + 5000 ≤ s.us) :
    exec (.upTrainLimit b p) s = .next ((s.leaveUpTrain b p).after b) := by
  show execUpTrainLimit b p s = _
  unfold execUpTrainLimit
  rw [withBay_run inPart]
  simp [port, st, due]

/-- A failed link that may try again does so after its interval, its attempts counted anew (R52). -/
theorem exec_hlinkTrainRetry_trains (st : (s.link b p).st = .failed) (may : (s.link b p).noRetry = false)
    (due : (s.link b p).since + 1000000 * s.liveN .hlinkTrainRetryIntervalS ≤ s.us) :
    exec (.hlinkTrainRetry b p) s = .next (((s.updLink b p (fun l => { l with attempts := 0 })).linkTrain b p).after b) := by
  show execHlinkTrainRetry b p s = _
  unfold execHlinkTrainRetry
  rw [withBay_run inPart]
  simp [port, st, may, due]

/-- Eight ticks without an advance of `DNSEQ`, or without a `SERVO` frame, lose the downstream (R59). -/
theorem exec_dnLost_trains (live : (s.link b p).live = true) (lost : 8 ≤ (s.link b p).seqStall ∨ 8 ≤ (s.link b p).absent) :
    exec (.dnLost b p) s = .next ((((s.raisePu b p 6 .hlinkDsLost).leaveService b p).linkTrain b p).after b) := by
  show execDnLost b p s = _
  unfold execDnLost
  rw [withBay_run inPart]
  simp [port, live, lost]

end

/-- Settles O23: each command makes the one transition of Table 02-8 it is for; a new training leaves the link in `DS_TRAIN`. -/
theorem headLinkTrains : Obligations.HeadLinkTrains := by
  intro s b p inPart port
  refine ⟨fun l raw f0 s' st fixed serves injected good type word => ?_, fun st due => ?_, fun st due untrained last => ?_,
    fun st may due => ?_, fun live lost => ?_⟩
  · exact ⟨_, exec_hlinkTrainFrame_good inPart port st fixed serves injected good type word, by simp⟩
  · refine ⟨_, exec_hlinkTrainTimeout_fails inPart port st due, ?_⟩
    rw [State.after_link, State.attemptFails_st]
  · refine ⟨_, exec_upTrainLimit_leaves inPart port st due, ?_⟩
    rw [State.after_link, State.leaveUpTrain_untrained untrained, State.attemptFails_st, if_pos (by simpa using last)]
  · refine ⟨_, exec_hlinkTrainRetry_trains inPart port st may due, ?_⟩
    rw [State.after_link]
    exact (State.linkTrain_link _ b p).1
  · refine ⟨_, exec_dnLost_trains inPart port live lost, ?_⟩
    obtain ⟨st, laser, wpermit, -⟩ := State.linkTrain_link ((s.raisePu b p 6 .hlinkDsLost).leaveService b p) b p
    exact ⟨by simpa using st, by simpa using laser, by simpa using wpermit⟩

end Sys2Proof.Machine
end

section
/-! Lanes, the spare lane and one-lane mode (O24). -/

namespace Sys2Proof.Machine

/-! ### A lane fails (R57) -/

/-- A lane in service is marked as failed: the segment in progress is finished, the failure is noted, and the link is in
`LANE_RETRAIN`. -/
def State.failLane (s : State) (b : BayId) (p : Pu) (l : PhysLane) : State :=
  let s := ((s.holdWriting b p).noteLaneFail b p l).2
  s.updLink b p (fun x => { (x.updLane l (fun y => { y with failed := true })) with
    st := .laneRetrain, since := s.us, failing := some l })

theorem State.failLane_failed (s : State) (b : BayId) (p : Pu) (l : PhysLane) :
    (((s.failLane b p l).link b p).lane l).failed = true := by
  rw [State.failLane, State.updLink_link]
  cases l <;> rfl

theorem State.failLane_spare (s : State) (b : BayId) (p : Pu) (l : PhysLane) :
    ((s.failLane b p l).bay b).spare = (s.bay b).spare := by
  rw [State.failLane, State.updLink_spare, State.noteLaneFail_spare, State.holdWriting_spare]

/-- A lane that enters service again: retrained lanes are no longer failed, the others stay as they are. -/
def Lane.back (y : Lane) : Lane := if y.retrained then { y with failed := false, retrained := false } else y

/-- Mapping back to `UP0` and `UP1` lets both enter service, sends their map, and frees the spare that carried the pickup. -/
theorem State.mapBack_eq (s : State) (b : BayId) (p : Pu) :
    s.mapBack b p (.UP0, .UP1) =
      let t := (s.updLink b p (fun x => { x with up0 := x.up0.back, up1 := x.up1.back })).laneMap b p .UP0 .UP1
      if (s.bay b).spare = .carrying p then (t.setSpare b (.standby p)).spareStandby b else t := by
  have noSpare : (PhysLane.UP0 == .UPS || PhysLane.UP1 == .UPS) = false := rfl
  simp only [State.mapBack, beq_self_eq_true, Bool.true_or, Bool.or_true, if_true, noSpare, Bool.false_eq_true, if_false,
    Bool.not_false, Bool.and_true, State.laneMap_spare, State.updLink_spare, beq_iff_eq]
  rfl

/-- A retrained lane mapped back is in service again, its map sent. -/
theorem State.mapBack_reset {s : State} {b : BayId} {p : Pu} (waits : (s.link b p).up0.retrained = true) :
    ((s.mapBack b p (.UP0, .UP1)).link b p).up0.failed = false ∧ ((s.mapBack b p (.UP0, .UP1)).link b p).up0.retrained = false
      ∧ ((s.mapBack b p (.UP0, .UP1)).link b p).mapNext = some (.UP0, .UP1) := by
  obtain ⟨map, lanes⟩ := State.laneMap_link (s.updLink b p (fun x => { x with up0 := x.up0.back, up1 := x.up1.back })) b p .UP0 .UP1
  have up0 := lanes .UP0
  rw [State.updLink_link] at up0
  have freed : ∀ t : State, ((t.setSpare b (.standby p)).spareStandby b).link b p = t.link b p := fun t => by
    rw [State.spareStandby_link (State.setSpare_spare t b _), State.setSpare_link]
  rw [State.mapBack_eq]
  dsimp only [HLink.lane] at up0 ⊢
  split
  all_goals
    simp only [freed, up0, map]
    simp [Lane.back, waits]

section
variable {s : State} {b : BayId} {p : Pu} (inPart : s.bayExists b = true) (port : s.portUp b p = true)
include inPart port

/-- With the spare standing by, a lane that goes bad is marked, its traffic goes to the spare, and it trains again or, where it has
failed too often, is retired. -/
theorem exec_laneRetrainStart_takes {l : PhysLane} (live : (s.link b p).live = true) (bad : s.laneBad b p l = true)
    (inService : ((s.link b p).lane l).failed = false) (carries : ((s.link b p).logical l).isSome = true) (fixed : l ≠ .UPS)
    (stands : (s.bay b).spare = .standby p) :
    exec (.laneRetrainStart b p l) s = .next
      ((if ((s.holdWriting b p).noteLaneFail b p l).1 then ((s.failLane b p l).spareTakeover b p l).retireLane b p l
        else ((s.failLane b p l).spareTakeover b p l).laneTrain b p l).after b) := by
  have spare := (State.failLane_spare s b p l).trans stands
  unfold State.failLane at spare
  show execLaneRetrainStart b p l s = _
  unfold execLaneRetrainStart
  rw [withBay_run inPart]
  dsimp only at spare ⊢
  rw [if_neg (by simp [port, live, bad, inService]), if_neg (by simp [fixed]), if_neg (by simp [Option.isSome_iff_ne_none.1 carries])]
  simp only [spare, beq_self_eq_true, if_true]
  rfl

/-- A lane of a logical lane that goes bad gives its traffic to the spare that stands by for its pickup, and stays marked as failed. -/
theorem exec_laneRetrainStart_spare {l : PhysLane} (live : (s.link b p).live = true) (bad : s.laneBad b p l = true)
    (inService : ((s.link b p).lane l).failed = false) (carries : ((s.link b p).logical l).isSome = true) (fixed : l ≠ .UPS)
    (stands : (s.bay b).spare = .standby p) :
    ∃ t, exec (.laneRetrainStart b p l) s = .next t ∧ (t.bay b).spare = .carrying p ∧ ((t.link b p).lane l).failed = true := by
  refine ⟨_, exec_laneRetrainStart_takes inPart port live bad inService carries fixed stands, ?_⟩
  obtain ⟨spare, lanes⟩ := State.spareTakeover_carries (s.failLane b p l) b p l
  have failed : ((((s.failLane b p l).spareTakeover b p l).link b p).lane l).failed = true := by
    rw [lanes, State.failLane_failed]
  rw [(State.after_parts _ b b).2.2.1, State.after_link]
  split
  · exact ⟨(State.retireLane_spare _ b p l).trans spare, (State.retireLane_lane _ b p l).2.trans failed⟩
  · exact ⟨(State.laneTrain_spare _ b p l).trans spare, (State.laneTrain_marks _ b p l l).1.trans failed⟩

/-! ### The spare is trained (R57) -/

/-- A spare that has not trained goes idle; a pickup's `UPS` that had not failed is not retired for it. -/
theorem exec_spareTrainDone_idle (trains : (s.bay b).spare = .training p) (sound : (s.link b p).ups.failed = false) :
    exec (.spareTrainDone b p false) s = .next ((((s.laneTrainStop b p .UPS).updLink b p
      (fun x => x.updLane .UPS (fun y => { y with seq := some 0, failed := false }))).setSpare b .idle).after b) := by
  show execSpareTrainDone b p false s = _
  unfold execSpareTrainDone
  rw [withBay_run inPart]
  dsimp only
  rw [if_neg (by simp [trains, port]), if_neg (by decide), if_neg (by simp [sound])]

/-- A spare that has trained takes the place of the one lane that failed in one-lane mode. -/
theorem exec_spareTrainDone_takes (trains : (s.bay b).spare = .training p) (one : (s.link b p).oneLane = true)
    (failed : (s.link b p).up0.failed = true) (sound : (s.link b p).up1.failed = false) :
    exec (.spareTrainDone b p true) s = .next ((((s.laneTrainStop b p .UPS).updLink b p
      (fun x => x.updLane .UPS (fun y => { y with seq := some 0, failed := false }))).spareTakeover b p .UP0).after b) := by
  show execSpareTrainDone b p true s = _
  unfold execSpareTrainDone
  rw [withBay_run inPart]
  dsimp only
  rw [if_neg (by simp [trains, port]), if_pos rfl, if_pos (by simp [HLink.updLane, one, failed, sound]),
    if_pos (by simp [HLink.updLane, failed])]

/-! ### A lane has trained, or has not (R57) -/

/-- A lane that fails its retrain is retired; the spare receiver, where it carried it, serves the other pickup. -/
theorem exec_laneTrainResult_fails {l : PhysLane} (live : (s.link b p).live = true)
    (reaches : l = .UPS → (s.bay b).spare = .carrying p) (trains : (s.link b p).training.contains l = true) :
    exec (.laneTrainResult b p l false) s = .next
      ((if l = .UPS then ((((s.laneTrainStop b p l).retireLane b p l).setSpare b .idle).spareStandby b)
        else (s.laneTrainStop b p l).retireLane b p l).after b) := by
  show execLaneTrainResult b p l false s = _
  unfold execLaneTrainResult
  rw [withBay_run inPart]
  dsimp only
  rw [if_neg (by simp only [port, live, trains]; simpa using reaches), if_pos (by decide)]
  simp only [beq_iff_eq]

/-- Either way the lane is retired. -/
theorem exec_laneTrainResult_retires {l : PhysLane} (live : (s.link b p).live = true)
    (reaches : l = .UPS → (s.bay b).spare = .carrying p) (trains : (s.link b p).training.contains l = true) :
    ∃ t, exec (.laneTrainResult b p l false) s = .next t ∧ ((t.link b p).lane l).retired = true := by
  have retired := (State.retireLane_lane (s.laneTrainStop b p l) b p l).1
  refine ⟨_, exec_laneTrainResult_fails inPart port live reaches trains, ?_⟩
  rw [State.after_link]
  split
  · rw [State.spareStandby_retired, State.setSpare_link, retired]
  · exact retired

/-- Beside another lane of the reset mapping, a lane that trains only waits to be mapped back. -/
theorem exec_laneTrainResult_waits {l : PhysLane} (live : (s.link b p).live = true) (fixed : l ≠ .UPS)
    (trains : (s.link b p).training.contains l = true) (two : (s.link b p).oneLane = false) :
    exec (.laneTrainResult b p l true) s = .next (((s.laneTrainStop b p l).updLink b p (fun x => x.updLane l
      (fun y => { y with seq := some 0, retrained := true, errs := [], crcRun := 0 }))).after b) := by
  show execLaneTrainResult b p l true s = _
  unfold execLaneTrainResult
  rw [withBay_run inPart]
  dsimp only
  rw [if_neg (by simp only [port, live, trains]; simp [fixed]), if_neg (by decide), if_neg (by simp [two])]

/-! ### A lane is mapped back (R57) -/

/-- With `UP0` and `UP1` sound again, both carry traffic and the spare is free for its next pickup. -/
theorem exec_laneMapBack_resets (live : (s.link b p).live = true) (waits : (s.link b p).up0.retrained = true)
    (sound0 : (s.link b p).sound .UP0 = true) (sound1 : (s.link b p).sound .UP1 = true) (carries : (s.bay b).spare = .carrying p)
    (idle : s.idlePeriod b p = true) :
    exec (.laneMapBack b p) s = .next ((s.mapBack b p (.UP0, .UP1)).after b) := by
  show execLaneMapBack b p s = _
  unfold execLaneMapBack
  rw [withBay_run inPart]
  dsimp only
  rw [if_pos (by simp [port, live, waits, carries, idle]), HLink.bestMap]
  simp only [sound0, sound1, Bool.and_self, if_true]

/-- After 1.1 ms in `LANE_RETRAIN` the link goes on with one lane (Table 02-8). -/
theorem exec_laneRetrainLimit_oneLane (st : (s.link b p).st = .laneRetrain) (due : (s.link b p).since + 1100 ≤ s.us) :
    exec (.laneRetrainLimit b p) s =
      .next ((s.enterOneLane b p ((s.link b p).survivor ((s.link b p).failing.getD .UP0))).after b) := by
  show execLaneRetrainLimit b p s = _
  unfold execLaneRetrainLimit
  rw [withBay_run inPart]
  simp [port, st, due]

end

/-- Settles O24: each command makes the one change of lanes and spare receiver it is for. -/
theorem lanesRetrain : Obligations.LanesRetrain := by
  intro s b p inPart port
  refine ⟨fun l live bad inService carries fixed stands => ?_, fun trains sound => ?_, fun trains one failed sound => ?_,
    fun l live fixed trains => ⟨?_, fun two => ?_⟩, fun carries live trains => ?_,
    fun live waits serves0 serves1 steady1 sound1 carries idle => ?_, fun st due => ?_, fun motorPort => ?_⟩
  · exact exec_laneRetrainStart_spare inPart port live bad inService carries fixed stands
  · refine ⟨_, exec_spareTrainDone_idle inPart port trains sound, ?_⟩
    simp [HLink.updLane]
  · refine ⟨_, exec_spareTrainDone_takes inPart port trains one failed sound, ?_⟩
    simp [State.spareTakeover_carries]
  · exact exec_laneTrainResult_retires inPart port live (fun spare => absurd spare fixed) trains
  · refine ⟨_, exec_laneTrainResult_waits inPart port live fixed trains two, ?_⟩
    simp
  · exact exec_laneTrainResult_retires inPart port live (fun _ => carries) trains
  · have sound0 : (s.link b p).sound .UP0 = true := by simp [HLink.sound, HLink.lane, waits, serves0]
    have sound1 : (s.link b p).sound .UP1 = true := by simp [HLink.sound, HLink.lane, serves1, sound1]
    refine ⟨_, exec_laneMapBack_resets inPart port live waits sound0 sound1 carries idle, ?_⟩
    rw [State.after_link]
    exact State.mapBack_reset waits
  · refine ⟨_, exec_laneRetrainLimit_oneLane inPart port st due, ?_⟩
    rw [State.after_link]
    exact State.enterOneLane_link s b p _
  · show execSpareStandbyApply b s = _
    unfold execSpareStandbyApply
    rw [withBay_run inPart, if_pos motorPort]

end Sys2Proof.Machine
end

section
/-! Control operations of a head link (O25). -/

namespace Sys2Proof.Machine

/-- With no operation waiting for a tag, none is sent. -/
theorem State.ctrlPump_none {s : State} {b : BayId} {p : Pu} (waits : (s.link b p).ctrlQ = []) (k : Nat) : s.ctrlPump b p k = s := by
  cases k with
  | zero => rfl
  | succ k => unfold State.ctrlPump; simp [waits]

/-- A reply outside a bank load is none of its read-back (R134). -/
theorem State.bankReply_none {s : State} {b : BayId} {p : Pu} (noLoad : (s.pu b p).write.load = none) (c : CtrlOp) (f : Bytes) :
    s.bankReply b p c f = s := by
  unfold State.bankReply; simp [noLoad]

section
variable {s : State} {b : BayId} {p : Pu} (inPart : s.bayExists b = true) (port : s.portUp b p = true)
include inPart port

/-- The reply to an operation of no map and no bank load ends it: its tag is free, and the reply is kept. -/
theorem exec_hlinkReplyFrame_ends {l : PhysLane} {raw f : Bytes} {s' : State} {c : CtrlOp} (live : (s.link b p).live = true)
    (received : s.rxLane b p l raw = ([f], s')) (good : frGood f = true) (type : frType f = 3)
    (tagged : (s'.link b p).ctrl.find? (fun c => c.ctag == byteAt f 4) = some c) (kept : c.discard = false) (noMap : c.op ≠ 3)
    (noWait : (s'.link b p).ctrlQ = []) (noLoad : (s'.pu b p).write.load = none) :
    exec (.hlinkReplyFrame b p l raw) s = .next (((s'.updLink b p (fun l => { l with
      ctrl := l.ctrl.filter (fun x => x.ctag != c.ctag) })).updLink b p (fun l => { l with lastReply := slice f 4 500 })).after b) := by
  show execHlinkReplyFrame b p l raw s = _
  unfold execHlinkReplyFrame
  rw [withBay_run inPart, if_pos (by simp [port, live]), received]
  simp only [List.foldl_cons, List.foldl_nil, good, type, tagged, kept, beq_self_eq_true, Bool.and_self, if_true]
  rw [if_neg (by decide), if_neg (by simp [noMap]), if_neg (by decide), State.bankReply_none (by simpa using noLoad),
    State.ctrlPump_none (by simpa using noWait)]

variable {tag : BitVec 8} {c : CtrlOp} (tagged : (s.link b p).ctrl.find? (fun c => c.ctag == tag.toNat) = some c)
  (due : c.sent + s.liveN .hlinkCtrlReplyTimeoutUs ≤ s.us)
include tagged due

/-- An operation without a reply is counted and sent again with its tag while tries are left. -/
theorem exec_ctrlReplyTimeout_again (left : c.tries < s.liveN .hlinkCtrlMaxTries) :
    exec (.ctrlReplyTimeout b p tag) s = .next (((s.updLink b p (fun l => { l with ctrl := l.ctrl.map (fun x =>
      if x.ctag == c.ctag then { x with tries := x.tries + 1, sent := s.us } else x) })).sendCtrl b p (c.op * 256 + c.ctag)
        (ctrlPayload c.addr c.len c.data)).after b) := by
  show execCtrlReplyTimeout b p tag s = _
  unfold execCtrlReplyTimeout
  rw [withBay_run inPart, tagged]
  dsimp only
  rw [if_neg (by simp [port, due]), if_neg (Nat.not_le.2 left)]

/-- After its last try the whole link is given up. -/
theorem exec_ctrlReplyTimeout_last (spent : s.liveN .hlinkCtrlMaxTries ≤ c.tries) :
    exec (.ctrlReplyTimeout b p tag) s = .next ((s.ctrlFail b p).after b) := by
  show execCtrlReplyTimeout b p tag s = _
  unfold execCtrlReplyTimeout
  rw [withBay_run inPart, tagged]
  dsimp only
  rw [if_neg (by simp [port, due]), if_pos spent]

end

/-- Settles O25: a reply, another try, or the last one. -/
theorem controlOperationsComplete : Obligations.ControlOperationsComplete := by
  intro s b p inPart port
  refine ⟨fun l raw f s' c live received good type tagged kept noMap noWait noLoad => ?_,
    fun tag c tagged due => ⟨fun left => ?_, fun spent => ?_⟩⟩
  · refine ⟨_, exec_hlinkReplyFrame_ends inPart port live received good type tagged kept noMap noWait noLoad, ?_⟩
    simp
  · refine ⟨_, exec_ctrlReplyTimeout_again inPart port tagged due left, ?_⟩
    simp
  · refine ⟨_, exec_ctrlReplyTimeout_last inPart port tagged due spent, ?_⟩
    obtain ⟨st, -, -, ctrl⟩ := State.linkTrain_link ((s.raisePu b p 6 .hlinkCtrlFail).leaveService b p) b p
    rw [State.after_link]
    exact ⟨st, ctrl⟩

end Sys2Proof.Machine
end

section
/-! Sample blocks reach the sheet channel (O26): blocks of a link, lost tracks, the vote on a segment's sync. -/

namespace Sys2Proof.Machine

/-! ### Blocks of a link (R54, R55) -/

theorem State.updLink_congr {s : State} {b : BayId} {p : Pu} {g h : HLink → HLink} (same : g (s.link b p) = h (s.link b p)) :
    s.updLink b p g = s.updLink b p h := by
  have atBay : g ((s.bay b).pu p).link = h ((s.bay b).pu p).link := same
  simp only [State.updLink, State.updPu, State.updBay, atBay]

/-- A good frame of a block that has neither left the link nor come before joins it. -/
theorem State.takeSample_joins {s : State} {b : BayId} {p : Pu} {l : PhysLane} {f : Bytes} {n : Nat} (good : frGood f = true)
    (block : (s.link b p).blockOf (frTsh f) = some n) (waits : (s.link b p).nextBlock ≤ n) (fresh : ∀ x ∈ (s.link b p).got, x.n ≠ n) :
    s.takeSample b p l f = s.updLink b p (fun k => { k with got := k.got ++ [⟨n, slice f 4 504, false⟩] }) := by
  unfold State.takeSample
  simp only [good, block, if_true]
  unfold State.takeBlock
  dsimp only
  rw [if_neg (Nat.not_lt.2 waits), if_neg (by simpa using fresh)]

/-- While no block lies eight ahead of the next one to leave, none leaves. -/
theorem State.releaseAll_none {s : State} {b : BayId} {p : Pu} (near : ∀ x ∈ (s.link b p).got, x.n < (s.link b p).nextBlock + 8) :
    s.releaseAll b p = s := by
  have notDue : (s.link b p).due = false := by simpa [HLink.due] using near
  unfold State.releaseAll
  cases (s.link b p).ahead with
  | zero => rfl
  | succ k => unfold State.releaseDue; simp [notDue]

/-- The next block to leave, where it has not come, leaves erased. -/
theorem HLink.pop_missing {l : HLink} (missing : ∀ x ∈ l.got, x.n ≠ l.nextBlock) :
    l.pop = (⟨l.nextBlock, erasedData, true⟩, { l with nextBlock := l.nextBlock + 1 }) := by
  have none' : l.got.find? (fun x => x.n == l.nextBlock) = none := List.find?_eq_none.2 (by simpa using missing)
  have all : l.got.filter (fun x => x.n != l.nextBlock) = l.got := List.filter_eq_self.2 (by simpa using missing)
  simp [HLink.pop, none', all]

/-! ### Tracks of a segment (R72, R75) -/

theorem Track.settle_lost {t : Track} {k : Nat} (held : t.lost = none) (limit : t.limit = some k) : t.settle.lost = some k := by
  simp [Track.settle, held, limit, Track.lose]

section
variable {tracks : List Track} {i j : Nat}

theorem Track.settleAt_same (inRange : i < tracks.length) :
    (tracks.mapIdx (fun j t => if j = i then t.settle else t)).getD i .idle = (tracks.getD i .idle).settle := by
  simp [List.getD_eq_getElem?_getD, inRange]

theorem Track.settleAt_other (other : j ≠ i) :
    (tracks.mapIdx (fun j t => if j = i then t.settle else t)).getD j .idle = tracks.getD j .idle := by
  simp [List.getD_eq_getElem?_getD, other]

end

@[simp] theorem State.voteTracks_length (s : State) (b : BayId) (p : Pu) :
    (s.voteTracks b p).length = (s.pu b p).sheet.tracks.length := by
  simp [State.voteTracks]

/-- The vote leaves a track out of service as its segment counts it. -/
theorem State.voteTracks_notInService {s : State} {b : BayId} {p : Pu} {i : Nat} (inRange : i < (s.pu b p).sheet.tracks.length)
    (out : i ∉ (s.pu b p).inService) :
    (s.voteTracks b p).getD i .idle = ((s.pu b p).sheet.tracks.getD i .idle).settle := by
  simp [State.voteTracks, List.getD_eq_getElem?_getD, inRange, out]

/-- The vote places no lost track: at most its status changes (R93). -/
theorem State.voteTracks_lost {s : State} {b : BayId} {p : Pu} {i : Nat} (inRange : i < (s.pu b p).sheet.tracks.length)
    (lost : ((s.pu b p).sheet.tracks.getD i .idle).settle.lost.isSome = true) :
    ∃ st, (s.voteTracks b p).getD i .idle = { ((s.pu b p).sheet.tracks.getD i .idle).settle with stat := st } := by
  by_cases serves : i ∈ (s.pu b p).inService
  · have lost' : ((s.pu b p).sheet.tracks[i].settle).lost.isSome = true := by
      simpa [List.getD_eq_getElem?_getD, inRange] using lost
    simp only [State.voteTracks, List.getD_eq_getElem?_getD, List.getElem?_mapIdx, List.getElem?_map,
      List.getElem?_eq_getElem inRange, Option.map_some, Option.getD_some, List.contains_eq_mem, serves, decide_true, Bool.not_true,
      Bool.false_eq_true, if_false, lost', if_true]
    split
    · exact ⟨.blank, rfl⟩
    · exact ⟨_, rfl⟩
  · exact ⟨_, State.voteTracks_notInService inRange serves⟩

/-! ### The commands -/

section
variable {s : State} {b : BayId} {p : Pu} (inPart : s.bayExists b = true) (port : s.portUp b p = true)
include inPart port

/-- A good block of the window joins its link and makes none leave. -/
theorem exec_hlinkSampleFrame_joins {l : PhysLane} {raw f : Bytes} {s' : State} {n : Nat} (live : (s.link b p).live = true)
    (received : s.rxLane b p l raw = ([f], s')) (good : frGood f = true) (type : frType f = 1)
    (noMap : (s'.link b p).mapsNew l = false) (block : (s'.link b p).blockOf (frTsh f) = some n)
    (waits : (s'.link b p).nextBlock ≤ n) (near : n < (s'.link b p).nextBlock + 8)
    (held : ∀ x ∈ (s'.link b p).got, x.n ≠ n ∧ x.n < (s'.link b p).nextBlock + 8) :
    exec (.hlinkSampleFrame b p l raw) s =
      .next ((s'.updLink b p (fun k => { k with got := k.got ++ [⟨n, slice f 4 504, false⟩] })).after b) := by
  show execHlinkSampleFrame b p l raw s = _
  unfold execHlinkSampleFrame
  rw [withBay_run inPart, if_pos (by simp [port, live]), received]
  simp only [List.foldl_cons, List.foldl_nil, type, good, noMap, Bool.and_false, bne_self_eq_false, Bool.false_eq_true, if_false]
  rw [State.takeSample_joins good block waits (fun x hx => (held x hx).1), State.releaseAll_none]
  intro x hx
  rw [State.updLink_link] at hx ⊢
  rcases List.mem_append.1 hx with old | new
  · exact (held x old).2
  · rw [List.mem_singleton.1 new]
    exact near

/-- The oldest block, where it has not come in time, goes to the sheet channel erased. -/
theorem exec_blockReleaseTimeout_erased (live : (s.link b p).live = true)
    (missing : ∀ x ∈ (s.link b p).got, x.n ≠ (s.link b p).nextBlock) :
    exec (.blockReleaseTimeout b p) s =
      .next ((((s.updLink b p (fun l => { l with nextBlock := l.nextBlock + 1 })).sheetBlock b p
        ⟨(s.link b p).nextBlock, erasedData, true⟩).releaseAll b p).after b) := by
  show execBlockReleaseTimeout b p s = _
  unfold execBlockReleaseTimeout
  rw [withBay_run inPart, if_pos (by simp [port, live]), HLink.pop_missing missing]
  dsimp only
  rw [State.updLink_congr (h := fun l => { l with nextBlock := l.nextBlock + 1 }) rfl]

/-- The hold limit settles one track and leaves the others (R75). -/
theorem exec_timingHoldLimit_settles (i : Fin 16) :
    exec (.timingHoldLimit b p i) s = .next ((s.updSheet b p (fun x =>
      { x with tracks := x.tracks.mapIdx (fun j t => if j = i.val then t.settle else t) })).after b) := by
  show execTimingHoldLimit b p i s = _
  unfold execTimingHoldLimit
  rw [withBay_run inPart, if_pos port]

/-- Once in a segment, with every track in service at bit 792, the vote is taken (R72). -/
theorem exec_segmentSyncVote_votes (locked : (s.pu b p).sheet.lock = .locked) (unvoted : (s.pu b p).sheet.voted = false)
    (come : ∀ i ∈ (s.pu b p).inService, 792 ≤ ((s.pu b p).sheet.tracks.getD i .idle).bits.length) :
    exec (.segmentSyncVote b p) s =
      .next ((s.updSheet b p (fun x => { x with tracks := s.voteTracks b p, voted := true })).after b) := by
  show execSegmentSyncVote b p s = _
  unfold execSegmentSyncVote
  rw [withBay_run inPart]
  dsimp only
  rw [if_neg]
  simp only [port, locked, unvoted, Bool.or_eq_true, List.any_eq_true, decide_eq_true_eq]
  simpa using come

end

/-- Settles O26: a block that joins, one that leaves erased, a track lost at its limit, and the vote. -/
theorem blocksReachSheetChannel : Obligations.BlocksReachSheetChannel := by
  intro s b p inPart port
  refine ⟨fun l raw f s' n live received good type noMap block waits near held => ?_, fun live missing => ?_,
    fun i k all held limit => ?_, fun locked unvoted come => ?_⟩
  · refine ⟨_, exec_hlinkSampleFrame_joins inPart port live received good type noMap block waits near held, ?_⟩
    simp
  · exact exec_blockReleaseTimeout_erased inPart port live missing
  · refine ⟨_, exec_timingHoldLimit_settles inPart port i, ?_⟩
    rw [State.after_pu, State.updSheet_pu]
    exact ⟨(congrArg Track.lost (Track.settleAt_same (by simp [all]))).trans (Track.settle_lost held limit),
      fun j other => Track.settleAt_other other⟩
  · refine ⟨_, exec_segmentSyncVote_votes inPart port locked unvoted come, ?_⟩
    rw [State.after_pu, State.updSheet_pu]
    exact ⟨rfl, rfl, State.voteTracks_length s b p, fun i inRange =>
      ⟨State.voteTracks_notInService inRange, State.voteTracks_lost inRange⟩⟩

end Sys2Proof.Machine
end

section
/-! Ticks of the servo path (O18): frames taken and discarded, missing ticks, a row switch without its report, the trim. -/

namespace Sys2Proof.Machine

/-! ### A tick that is missing (R56, R164, R177) -/

/-- What the drive words of a tick leave: its loops and its state; one tick more has passed. -/
theorem State.setDrives_pu (s : State) (b : BayId) (p : Pu) :
    ((s.setDrives b p).pu b p).focus = (s.pu b p).focus ∧ ((s.setDrives b p).pu b p).track = (s.pu b p).track
      ∧ ((s.setDrives b p).pu b p).tilt = (s.pu b p).tilt ∧ ((s.setDrives b p).pu b p).ms.st = (s.pu b p).ms.st
      ∧ ((s.setDrives b p).pu b p).ms.ticks = (s.pu b p).ms.ticks + 1
      ∧ (s.setDrives b p).link b p = s.link b p := by
  refine ⟨?_, ?_, ?_, ?_, ?_, ?_⟩ <;> simp [State.setDrives, State.link]

/-- A missing tick moves no loop of its pickup, and counts. -/
theorem State.missTick_pu (s : State) (b : BayId) (p : Pu) (tick tq : Nat) :
    ((s.missTick b p tick tq).pu b p).focus = (s.pu b p).focus ∧ ((s.missTick b p tick tq).pu b p).track = (s.pu b p).track
      ∧ ((s.missTick b p tick tq).pu b p).tilt = (s.pu b p).tilt ∧ ((s.missTick b p tick tq).pu b p).ms.st = (s.pu b p).ms.st
      ∧ ((s.missTick b p tick tq).pu b p).ms.ticks = (s.pu b p).ms.ticks + 1 := by
  unfold State.missTick
  dsimp only
  generalize counted : s.updPu b p (fun u => { u with
    link := { u.link with missTick := u.link.missTick + 1 }
    ms := { u.ms with tiltAcc := if u.ms.tiltDue then [] else u.ms.tiltAcc } }) = t
  obtain ⟨gateMs, gateFocus, gateTrack, gateTilt, -⟩ := State.core_pu (State.evalGate_core t b p false b) p
  obtain ⟨driveFocus, driveTrack, driveTilt, driveSt, driveTicks, -⟩ := State.setDrives_pu (t.evalGate b p false) b p
  obtain ⟨sentMs, sentFocus, sentTrack, sentTilt, -⟩ :=
    State.core_pu (State.servoCmd_core ((t.evalGate b p false).setDrives b p) b p tick tq b) p
  rw [sentMs, sentFocus, sentTrack, sentTilt, driveFocus, driveTrack, driveTilt, driveSt, driveTicks, gateMs, gateFocus, gateTrack,
    gateTilt, ← counted]
  simp

/-- Nor does it move a pickup of another bay, whatever the write that its gate ends leads to there. -/
theorem State.missTick_core_other (s : State) {b c : BayId} (p : Pu) (tick tq : Nat) (other : b ≠ c) :
    ((s.missTick b p tick tq).bays.get c).core = (s.bays.get c).core := by
  unfold State.missTick
  dsimp only
  rw [State.servoCmd_core, State.setDrives_other _ _ _ _ other, State.evalGate_core, State.updPu_other _ _ _ _ _ other]

/-- The `SERVO_CMD` of a tick leaves the count of missing ticks. -/
theorem State.servoCmd_absent (s : State) (b : BayId) (p : Pu) (tick tq : Nat) :
    ((s.servoCmd b p tick tq).link b p).absent = (s.link b p).absent := by
  have sent : ∀ (t : State) apply, ((t.sendServo b p tick apply).link b p).absent = (t.link b p).absent := fun t apply => by
    simp [State.sendServo]
  unfold State.servoCmd
  dsimp only
  split <;> simp [sent]

theorem State.deadTick_absent (s : State) (b : BayId) (p : Pu) (tick tq : Nat) :
    ((s.deadTick b p tick tq).link b p).absent = (s.link b p).absent := by
  obtain ⟨-, -, -, -, -, link⟩ := State.setDrives_pu s b p
  rw [State.deadTick, State.servoCmd_absent, link]

/-- While the laser permit is high no pickup is turned off for it. -/
theorem State.permitTick_permitted {s : State} {b : BayId} (permitted : (s.safeBay b).lsafe = true) (p : Pu) : s.permitTick b p = s := by
  simp [State.permitTick, permitted]

@[simp] theorem State.updLink_unitDead (s : State) (b : BayId) (p : Pu) (g : HLink → HLink) (c : BayId) (u : UnitSel) :
    (s.updLink b p g).unitDead c u = s.unitDead c u := rfl

/-- A link that has counted one more missing tick. -/
def HLink.missed (l : HLink) : HLink := { l with absent := l.absent + 1, tickNext := l.tickNext.map (fun n => (n + 1) % 65536) }

/-- A missing tick counted on its link moves no loop of its pickup and none of another bay. -/
theorem State.missedTick_still (s : State) (b : BayId) (p : Pu) (tick tq : Nat) :
    let t := (s.updLink b p HLink.missed).missTick b p tick tq
    (t.pu b p).focus = (s.pu b p).focus ∧ (t.pu b p).track = (s.pu b p).track ∧ (t.pu b p).tilt = (s.pu b p).tilt
      ∧ (t.pu b p).ms.st = (s.pu b p).ms.st ∧ (t.pu b p).ms.ticks = (s.pu b p).ms.ticks + 1
      ∧ ∀ (c : BayId) (q : Pu), c ≠ b → (t.pu c q).ms = (s.pu c q).ms ∧ (t.pu c q).focus = (s.pu c q).focus
          ∧ (t.pu c q).track = (s.pu c q).track ∧ (t.pu c q).tilt = (s.pu c q).tilt := by
  have own := State.missTick_pu (s.updLink b p HLink.missed) b p tick tq
  rw [State.updLink_pu] at own
  obtain ⟨focus, track, tilt, st, ticks⟩ := own
  refine ⟨focus, track, tilt, st, ticks, fun c q other => ?_⟩
  have core := (State.missTick_core_other (s.updLink b p HLink.missed) p tick tq other.symm).trans
    (congrArg Bay.core (State.updLink_other s b p HLink.missed c other.symm))
  obtain ⟨ms, focus, track, tilt, -⟩ := State.core_pu core q
  exact ⟨ms, focus, track, tilt⟩

/-! ### The commands -/

section
variable {s : State} {b : BayId} {p : Pu} (inPart : s.bayExists b = true)
include inPart

/-- A good `SERVO` frame is accepted where its tick is new, and discarded where it is another copy or one of a tick declared
missing (R56). -/
theorem exec_hlinkServoFrame_good {l : PhysLane} {raw f : Bytes} {upset : Bool} {s' : State} (port : s.portUp b p = true)
    (live : (s.link b p).live = true) (received : s.rxLane b p l raw = ([f], s')) (good : frGood f = true) (type : frType f = 2) :
    exec (.hlinkServoFrame b p l raw upset) s = .next
      ((if (s'.link b p).tickNew (servoOf f).tick then s'.acceptServo b p (servoOf f) upset else s').after b) := by
  show execHlinkServoFrame b p l raw upset s = _
  unfold execHlinkServoFrame
  rw [withBay_run inPart, if_pos (by simp [port, live]), received]
  simp only [List.foldl_cons, List.foldl_nil, good, type, beq_self_eq_true, Bool.true_and]

/-- A missing tick of a unit that works repeats the words of its loops (R164). -/
theorem exec_servoTickMissing_alive (port : s.portUp b p = true) (live : (s.link b p).live = true)
    (permitted : (s.safeBay b).lsafe = true) (alive : s.unitDead b (.pickup p) = false) :
    exec (.servoTickMissing b p) s = .next (((s.updLink b p HLink.missed).missTick b p
      (((s.link b p).servo.tick + ((s.link b p).absent + 1)) % 65536)
      ((s.link b p).servo.tq + 3200 * ((s.link b p).absent + 1) / 3)).after b) := by
  show execServoTickMissing b p s = _
  unfold execServoTickMissing
  rw [withBay_run inPart, if_pos (by simp [port, live])]
  dsimp only
  have high : (s.updLink b p HLink.missed).permitTick b p = s.updLink b p HLink.missed :=
    State.permitTick_permitted (by simpa using permitted) p
  unfold HLink.missed at high ⊢
  rw [if_neg (by simp [alive]), State.updLink_link, high]

/-- In a unit that has died the link port goes on by itself (R177). -/
theorem exec_servoTickMissing_dead (port : s.portUp b p = true) (live : (s.link b p).live = true)
    (dead : s.unitDead b (.pickup p) = true) :
    exec (.servoTickMissing b p) s = .next (((s.updLink b p HLink.missed).deadTick b p
      (((s.link b p).servo.tick + ((s.link b p).absent + 1)) % 65536)
      ((s.link b p).servo.tq + 3200 * ((s.link b p).absent + 1) / 3)).after b) := by
  show execServoTickMissing b p s = _
  unfold execServoTickMissing
  rw [withBay_run inPart, if_pos (by simp [port, live])]
  dsimp only
  rw [if_pos (by simp [dead]), State.updLink_link]
  rfl

/-- A change of rows without its report 6 µs after `ROWAPPLY` is taken to be made at `ROWAPPLY` (R64). -/
theorem exec_rowSwitchTimeout_applies {r : RowReq} (asked : (s.link b p).rowReq = some r) (port : s.portUp b p = true)
    (late : 3072 ≤ ((s.link b p).servo.tq + 2 ^ 32 - r.apply) % 2 ^ 32)
    (past : ((s.link b p).servo.tq + 2 ^ 32 - r.apply) % 2 ^ 32 < 2 ^ 31) :
    exec (.rowSwitchTimeout b p) s = .next ((s.applyRows b p r.rows r.apply).after b) := by
  show execRowSwitchTimeout b p s = _
  unfold execRowSwitchTimeout
  rw [withBay_run inPart, asked]
  dsimp only
  rw [if_pos (by rw [port, decide_eq_true late, decide_eq_true past]; rfl)]

/-- The mean envelope over the half of the dither that ends (R152). -/
def Sheet.meanEnv (x : Sheet) : Nat := x.envSum * 65536 / max 1 x.envCnt

/-- At the end of a half of the dither the trim takes its step, unless it is frozen (R152). -/
theorem exec_saTrimUpdate_ms (due : (s.pu b p).ms.saSlot < (s.pu b p).ms.clock / 480) (alive : s.unitDead b (.pickup p) = false) :
    ∃ t, exec (.saTrimUpdate b p) s = .next t ∧ (t.pu b p).ms = { (if (s.pu b p).trimFrozen then (s.pu b p).ms
      else (s.pu b p).ms.trimStep (s.pu b p).sheet.meanEnv (s.live .loopSaDither) (s.live .loopSaTrimStep) (s.live .loopSaTrimMax))
        with saSlot := (s.pu b p).ms.clock / 480 } := by
  show ∃ t, execSaTrimUpdate b p s = .next t ∧ _
  unfold execSaTrimUpdate
  rw [withBay_run inPart]
  dsimp only
  rw [if_neg (by simp [due, alive])]
  refine ⟨_, rfl, ?_⟩
  rw [State.after_pu, State.updPu_pu]
  rfl

end

/-- After the first half of the dither its envelope is kept and the other side follows. -/
theorem Motion.trimStep_first {m : Motion} (first : m.saDither = true) (env : Nat) (dither step most : Int) :
    m.trimStep env dither step most = { m with saDither := false, saEnv := some env, saOfs := -dither } := by
  simp [Motion.trimStep, first]

/-- After the second half the trim steps toward the side of the larger envelope. -/
theorem Motion.trimStep_second {m : Motion} {kept : Nat} (second : m.saDither = false) (has : m.saEnv = some kept) (env : Nat)
    (dither step most : Int) :
    m.trimStep env dither step most = { m with
      saDither := true, saEnv := none, saOfs := dither
      saTrim := clampI (-most) most (m.saTrim + (if env < kept then step else if kept < env then -step else 0)) } := by
  simp [Motion.trimStep, second, has]

/-- Settles O18: a frame by whether its tick is new, a missing tick by whether its unit works, the trim by the half that ends. -/
theorem servoPathTicks : Obligations.ServoPathTicks := by
  intro s b p inPart
  refine ⟨fun l raw upset f s' port live received good type => ⟨fun new => ?_, fun old => ?_⟩,
    fun port live permitted alive => ⟨?_, ?_⟩, fun port live dead => ?_, fun r asked port late past => ?_,
    fun due alive => ⟨fun free => ⟨fun first => ?_, fun env second has => ?_⟩, fun frozen => ?_⟩⟩
  · rw [exec_hlinkServoFrame_good inPart port live received good type, if_pos new]
  · rw [exec_hlinkServoFrame_good inPart port live received good type, if_neg (by simp [old])]
  · exact exec_servoTickMissing_alive inPart port live permitted alive
  · refine ⟨_, exec_servoTickMissing_alive inPart port live permitted alive, ?_⟩
    simpa only [State.after_pu] using State.missedTick_still s b p _ _
  · refine ⟨_, exec_servoTickMissing_dead inPart port live dead, ?_⟩
    rw [State.after_link, State.deadTick_absent, State.updLink_link, HLink.missed]
  · exact exec_rowSwitchTimeout_applies inPart asked port late past
  · obtain ⟨t, run, ms⟩ := exec_saTrimUpdate_ms inPart due alive
    rw [free, if_neg (by decide), Motion.trimStep_first first] at ms
    exact ⟨t, run, by rw [ms]; exact ⟨rfl, rfl, rfl, rfl⟩⟩
  · obtain ⟨t, run, ms⟩ := exec_saTrimUpdate_ms inPart due alive
    rw [free, if_neg (by decide), Motion.trimStep_second second has] at ms
    exact ⟨t, run, by rw [ms]; exact ⟨rfl, rfl, rfl⟩⟩
  · obtain ⟨t, run, ms⟩ := exec_saTrimUpdate_ms inPart due alive
    rw [frozen, if_pos rfl] at ms
    exact ⟨t, run, by rw [ms]; exact ⟨rfl, rfl, rfl⟩⟩

end Sys2Proof.Machine
end

section
/-! What leaves the clock: events, and a pass block that ends early with its sectors. -/

namespace Sys2Proof.Machine

theorem State.foldl_us {α : Type} (f : State → α → State) (same : ∀ s a, (f s a).us = s.us) (l : List α) (s : State) :
    (l.foldl f s).us = s.us := by
  induction l generalizing s with
  | nil => rfl
  | cons a l ih => rw [List.foldl_cons, ih, same]

@[simp] theorem State.raisePu_us (s : State) (b : BayId) (p : Pu) (src : Nat) (e : Ev) (p0 p1 p2 : Nat) :
    (s.raisePu b p src e p0 p1 p2).us = s.us := State.raise_us ..

@[simp] theorem State.handOver_us (s : State) (b : BayId) (p : Pu) (c : Coded) : (s.handOver b p c).us = s.us := by
  simp [State.us]

@[simp] theorem State.sectorLost_us (s : State) (h : SlotId) (seq member : Nat) : (s.sectorLost h seq member).us = s.us := by
  simp [State.us]

@[simp] theorem State.reportWrite_us (s : State) (why : WriteWhy) (written : Bool) : (s.reportWrite why written).us = s.us := by
  simp [State.us]

@[simp] theorem State.updCoded_us (s : State) (b : BayId) (p : Pu) (a : SecAddr) (g : Coded → Coded) :
    (s.updCoded b p a g).us = s.us := rfl

@[simp] theorem State.writeRelocRecord_us (s : State) (b : BayId) (p : Pu) (layer : Nat) (homes : List SecAddr) :
    (s.writeRelocRecord b p layer homes).us = s.us := by
  unfold State.writeRelocRecord
  dsimp only
  split
  · rfl
  · split
    · simp
    · rw [State.foldl_us]
      · simp
      · intro t r; split <;> simp

@[simp] theorem State.relocate_us (s : State) (b : BayId) (p : Pu) (c : Coded) : (s.relocate b p c).us = s.us := by
  unfold State.relocate
  dsimp only
  split
  · simp
  · rw [State.writeRelocRecord_us]
    split <;> simp

@[simp] theorem State.failCoded_us (s : State) (b : BayId) (p : Pu) (a : SecAddr) : (s.failCoded b p a).us = s.us := by
  unfold State.failCoded
  dsimp only
  split
  · rfl
  · split <;> simp

@[simp] theorem State.abandonBlock_us (s : State) (b : BayId) (p : Pu) : (s.abandonBlock b p).us = s.us := by
  unfold State.abandonBlock
  dsimp only
  split
  · rfl
  · rw [State.foldl_us]
    · simp
    · intro t c; split <;> simp

@[simp] theorem State.endVerify_us (s : State) (b : BayId) (p : Pu) : (s.endVerify b p).us = s.us := by
  unfold State.endVerify
  split
  · split <;> simp
  · rfl

end Sys2Proof.Machine
end

section
/-! Wedges under frame lock and in search (O27). -/

namespace Sys2Proof.Machine

/-! ### A wedge of an unknown format (R23, R146) -/

/-- A rejected disc: both pickups are off and its rejection is kept. -/
theorem State.rejectDisc_after (s : State) (b : BayId) (serial : Bytes) (why : Reject) (src : Nat) (e : Ev) :
    (∀ p : Pu, (((s.rejectDisc b serial why src e).after b).pu b p).ms.st = .off)
      ∧ (((s.rejectDisc b serial why src e).after b).bay b).disc.rejected = some (serial, why) := by
  have verdict := State.rejectDisc_verdict s b serial why src e
  simp only [Bay.verdict, Prod.mk.injEq] at verdict
  obtain ⟨-, rejected⟩ := verdict
  refine ⟨fun p => ?_, ?_⟩
  · rw [State.after_pu]
    exact State.rejectDisc_st s b serial why src e p
  · simpa using rejected

/-- A wedge of an unknown format is not classed: its disc is rejected. -/
theorem State.wedgeSeen_unknown {a : WedgeAddr} (unknown : a.ver ≠ 1) (s : State) (b : BayId) (p : Pu) (go : State → State) :
    s.wedgeSeen b p a go = (s.sawAddr b p a).rejectDisc b (((s.sawAddr b p a).bay b).disc.name a.tag) .format 16 .discFormatUnknown :=
  if_pos unknown

/-- Both pickups of a bay are off and its disc is rejected, after a wedge of an unknown format. -/
theorem State.wedgeSeen_unknown_after {a : WedgeAddr} (unknown : a.ver ≠ 1) (s : State) (b : BayId) (p : Pu) (go : State → State) :
    (((s.wedgeSeen b p a go).after b).pu b .A).ms.st = .off ∧ (((s.wedgeSeen b p a go).after b).pu b .B).ms.st = .off
      ∧ (((s.wedgeSeen b p a go).after b).bay b).disc.rejected.isSome = true := by
  rw [State.wedgeSeen_unknown unknown]
  obtain ⟨off, rejected⟩ := State.rejectDisc_after (s.sawAddr b p a) b (((s.sawAddr b p a).bay b).disc.name a.tag) .format 16
    .discFormatUnknown
  exact ⟨off .A, off .B, by rw [rejected]; rfl⟩

/-! ### The next wedge of the channel (R68, R70) -/

/-- What frame lock makes of the wedge due at an instant (R69), by what has been seen of it: nothing yet, no answer, an address. -/
def State.passWedge (s : State) (b : BayId) (p : Pu) (due : Int) : Option (Option Int × Option WedgeAddr) → State
  | none => s
  | some (shift, none) => s.lockedWedge b p shift.isSome none (shift.getD due)
  | some (shift, some a) => s.wedgeSeen b p a (fun t => t.lockedWedge b p true (some a) (shift.getD due))

/-- A wedge that a search takes, or that `ACQUIRE` answers where it does not fit the target (R70, R154). -/
def State.takeSought (s : State) (b : BayId) (p : Pu) (acquires : Bool) (since : Nat) (first : Option (FrameAddr × Int)) (a : WedgeAddr)
    (pos : Int) : State :=
  let answer := if acquires then s.acqAnswer b p a.addr a.turn else .fits
  if answer == .fits then s.searchWedge b p since first a pos else s.acquireFix b p a.tag answer

/-- What a search makes of what it has found (R70): it goes on, or takes the wedge. -/
def State.searchStep (s : State) (b : BayId) (p : Pu) (since : Nat) (first : Option (FrameAddr × Int)) : Option (Int × WedgeAddr) → State
  | none => s.searchOn b p
  | some (pos, a) => s.wedgeSeen b p a (fun t => t.takeSought b p ((s.pu b p).ms.st == .acquire) since first a pos)

section
variable {s o : State} {b : BayId} {p : Pu} (inPart : s.bayExists b = true) (opened : o = s.openBoundary b p)
  (live : (o.pu b p).link.live = true) (port : o.portUp b p = true) (forward : (o.bay b).spindle.backward = false)
include inPart opened live port forward

/-- Under frame lock the wedge due next is passed. -/
theorem exec_wedgeProcess_locked {r : State} (locked : (o.pu b p).sheet.lock = .locked)
    (counted : r = o.updPu b p (fun u => { u with cal := u.cal.countFrame u.link.rowReq.isNone })) :
    exec (.wedgeProcess b p) s = .next ((r.passWedge b p (o.pu b p).sheet.nextWedge
      (r.wedgeAt b p (o.pu b p).sheet.nextWedge)).after b) := by
  show execWedgeProcess b p s = _
  unfold execWedgeProcess
  rw [withBay_run inPart]
  rcases seen : r.wedgeAt b p (o.pu b p).sheet.nextWedge with _ | ⟨shift, _ | a⟩ <;>
    simp only [← opened, port, live, locked, forward, ← counted, seen, State.passWedge, Bool.not_true, Bool.or_self,
      Bool.false_eq_true, if_false]

/-- In a search the wedge found first, if any, is taken. -/
theorem exec_wedgeProcess_search {since : Nat} {first : Option (FrameAddr × Int)} (search : (o.pu b p).sheet.lock = .search since first) :
    exec (.wedgeProcess b p) s = .next ((o.searchStep b p since first (o.wedgeSought b p first)).after b) := by
  show execWedgeProcess b p s = _
  unfold execWedgeProcess
  rw [withBay_run inPart]
  rcases found : o.wedgeSought b p first with _ | ⟨pos, a⟩ <;>
    simp only [← opened, port, live, search, forward, found, State.searchStep, State.takeSought, Bool.not_true, Bool.or_self,
      Bool.false_eq_true, if_false]

end

/-! ### Frame lock and searches that end (R69, R70, R154) -/

/-- The end of a frame lock leaves no read in progress and no sector unconfirmed (R69). -/
theorem State.dropFrameLock_pu (s : State) (b : BayId) (p : Pu) :
    ((s.dropFrameLock b p).pu b p).cur = none ∧ ((s.dropFrameLock b p).pu b p).sheet.unconf = [] := by
  simp [State.dropFrameLock, State.withdrawReads]

section
variable {s : State} {b : BayId} {p : Pu} (inPart : s.bayExists b = true) (port : s.portUp b p = true)
include inPart port

/-- At the limit of misses the frame lock ends, and a search begins now (R69). -/
theorem exec_frameLockLost_seeks (locked : (s.pu b p).sheet.lock = .locked)
    (missed : s.liveN .sheetWedgeMaxMiss ≤ (s.pu b p).sheet.miss) :
    ∃ t, exec (.frameLockLost b p) s = .next t ∧ (t.pu b p).sheet.lock = .search s.us none ∧ (t.pu b p).sheet.miss = 0
      ∧ (t.pu b p).sheet.unconf = [] ∧ (t.pu b p).cur = none := by
  obtain ⟨unread, confirmed⟩ := State.dropFrameLock_pu ((s.raisePu b p 8 .sheetWedgeLost).endVerify b p) b p
  show ∃ t, execFrameLockLost b p s = .next t ∧ _
  unfold execFrameLockLost
  rw [withBay_run inPart]
  dsimp only
  rw [if_pos (by simp [port, locked, missed])]
  refine ⟨_, rfl, ?_⟩
  simp [Sheet.seek, unread, confirmed]

/-- A search out of time in `ACQUIRE` recovers the pickup, which has a ladder left (R154). -/
theorem exec_acqSearchTimeout_recovers {since : Nat} {first : Option (FrameAddr × Int)}
    (search : (s.pu b p).sheet.lock = .search since first) (acquires : (s.pu b p).ms.st = .acquire)
    (late : since + s.liveN .sheetAcqSearchTimeoutUs ≤ s.us) (ladder : (s.pu b p).ms.ladders < s.liveN .loopRecoverMaxTries) :
    ∃ t, exec (.acqSearchTimeout b p) s = .next t ∧ (t.pu b p).ms.st = .recover := by
  show ∃ t, execAcqSearchTimeout b p s = .next t ∧ _
  unfold execAcqSearchTimeout
  rw [withBay_run inPart]
  simp only [search]
  rw [if_pos (by simp [port, late])]
  refine ⟨_, rfl, ?_⟩
  have recovers := State.enterRecover_st (s.raisePu b p 8 .sheetAcqFail) b p
    (if (s.pu b p).ms.sawWedge then .ordinary else .focusSuspect) (by simp [acquires])
  rw [if_neg (by simpa using ladder)] at recovers
  rw [State.after_pu]
  exact recovers

end

/-- Settles O27: a wedge in frame lock by its answer, a wedge in search by whether it is found, the limit of misses, the search out of
time. -/
theorem wedgesAreClassed : Obligations.WedgesAreClassed := by
  intro s b p inPart port
  refine ⟨fun o r a opened live up forward counted unknown shown => ?_,
    fun o r opened live up forward locked counted => ⟨fun early => ?_, fun shift silent => ?_⟩,
    fun o since first opened live up forward search nothing => ?_, fun locked missed => ?_,
    fun since first search acquires late ladder => ?_⟩
  · rcases shown with ⟨locked, shift, answer⟩ | ⟨since, first, pos, search, found⟩
    · have run := exec_wedgeProcess_locked inPart opened live up forward locked counted
      rw [answer, State.passWedge] at run
      exact ⟨_, run, State.wedgeSeen_unknown_after unknown r b p _⟩
    · have run := exec_wedgeProcess_search inPart opened live up forward search
      rw [found, State.searchStep] at run
      exact ⟨_, run, State.wedgeSeen_unknown_after unknown o b p _⟩
  · rw [exec_wedgeProcess_locked inPart opened live up forward locked counted, early, State.passWedge]
  · rw [exec_wedgeProcess_locked inPart opened live up forward locked counted, silent, State.passWedge]
  · rw [exec_wedgeProcess_search inPart opened live up forward search, nothing, State.searchStep]
  · exact exec_frameLockLost_seeks inPart port locked missed
  · exact exec_acqSearchTimeout_recovers inPart port search acquires late ladder

end Sys2Proof.Machine
end

section
/-! Detectors and decoders that fail, and the spares that stand in for them (O29). -/

namespace Sys2Proof.Machine

/-! ### What leaves the record of a block as it is -/

@[simp] theorem State.takeovers_blkOf (s : State) (l : List Takeover) (id : BlockId) :
    ({ s with blk := { s.blk with takeovers := l } } : State).blkOf id = s.blkOf id := rfl

@[simp] theorem State.updPu_blkOf (s : State) (b : BayId) (p : Pu) (f : Pickup → Pickup) (id : BlockId) :
    (s.updPu b p f).blkOf id = s.blkOf id := rfl

@[simp] theorem State.newSlot_blkOf (s : State) (b : BayId) (p : Pu) (id : BlockId) : (s.newSlot b p).blkOf id = s.blkOf id :=
  State.blkOf_congr (by simp) id

@[simp] theorem State.endVerify_blkOf (s : State) (b : BayId) (p : Pu) (id : BlockId) : (s.endVerify b p).blkOf id = s.blkOf id :=
  State.blkOf_congr (by simp) id

@[simp] theorem State.readsLost_blkOf (s : State) (b : BayId) (p : Pu) (id : BlockId) : (s.readsLost b p).blkOf id = s.blkOf id :=
  State.blkOf_congr (by simp) id

@[simp] theorem State.askHold_blkOf (s : State) (b : BayId) (id : BlockId) : (s.askHold b).blkOf id = s.blkOf id :=
  State.blkOf_congr (by simp) id

@[simp] theorem State.after_blkOf (s : State) (b : BayId) (id : BlockId) : (s.after b).blkOf id = s.blkOf id :=
  State.blkOf_congr (by simp) id

/-! ### A failed block stays out of service -/

/-- A block out of service is no free spare, so a claim leaves it out of service. -/
theorem State.claimSpare_keeps_down {s : State} {id : BlockId} (down : (s.blkOf id).up = false) (c : BlockId) :
    ((s.claimSpare c).2.blkOf id).up = false := by
  unfold State.claimSpare
  split
  next j free =>
    have able := List.find?_some free
    simp only [Bool.and_eq_true] at able
    have other : (⟨c.kind, c.region, j⟩ : BlockId) ≠ id := by
      rintro rfl
      simp [down] at able
    rw [State.setBlk_other _ _ _ (by simpa using other)]
    exact down
  next => rwa [State.degrade_blkOf]

/-- A decoder that fails stays out of service while its spare is called (R124). -/
theorem State.decoderFaulty_down (s : State) (r d : Nat) : ((s.decoderFaulty r d).blkOf ⟨3, r, d⟩).up = false := by
  have fenced : (((s.fence ⟨3, r, d⟩).regionEvent r 2 .ldpcFault 0 0 0).blkOf ⟨3, r, d⟩).up = false := by simp
  unfold State.decoderFaulty
  dsimp only
  cases s.servedBy ⟨3, r, d⟩ with
  | none => exact fenced
  | some i =>
    have claimed := State.claimSpare_keeps_down fenced ⟨3, r, i⟩
    dsimp only
    split
    · rwa [State.takeovers_blkOf]
    · rwa [State.regionEvent_blkOf]

/-- A detector that fails stays out of service while its pickup's sectors lose their output and its spare is called, or its pickup
leaves read service (R98, R99). -/
theorem State.detectorFaulty_down (s : State) (r d : Nat) : ((s.detectorFaulty r d).blkOf ⟨2, r, d⟩).up = false := by
  have fenced : (((s.fence ⟨2, r, d⟩).regionEvent r 1 .sheetDetFault 0 0 0).blkOf ⟨2, r, d⟩).up = false := by simp
  unfold State.detectorFaulty
  dsimp only
  cases s.servedBy ⟨2, r, d⟩ with
  | none => exact fenced
  | some i =>
    dsimp only
    rw [State.after_blkOf]
    have claimed : ∀ b p f, (((((((s.fence ⟨2, r, d⟩).regionEvent r 1 .sheetDetFault 0 0 0).newSlot b p).updPu b p f).claimSpare
        ⟨2, r, i⟩).2).blkOf ⟨2, r, d⟩).up = false := fun b p f =>
      State.claimSpare_keeps_down (by simpa only [State.updPu_blkOf, State.newSlot_blkOf] using fenced) _
    split
    · rw [State.takeovers_blkOf, claimed]
    · split
      · rw [State.readsLost_blkOf, State.endVerify_blkOf, State.regionEvent_blkOf, claimed]
      · rw [State.askHold_blkOf, State.readsLost_blkOf, State.endVerify_blkOf, State.regionEvent_blkOf, claimed]

/-! ### The commands -/

section
variable {s : State} {r : RegionId} (inPart : (r.val < 2 || s.trust.shadow.part == .YX3216) = true)
include inPart

/-- A working detector that fails is fenced (R98). -/
theorem exec_detectorFault_fences {d : Fin 17} (cause : FaultCause) (running : s.sysHeld = false)
    (up : (s.blkOf ⟨2, r.val, d.val⟩).up = true) :
    exec (.detectorFault r d cause) s = .next (s.detectorFaulty r.val d.val) := by
  show execDetectorFault r d cause s = _
  unfold execDetectorFault
  rw [withRegion_run inPart, if_neg (by simp [running, up])]

/-- A working decoder that fails is fenced (R124). -/
theorem exec_ldpcDecoderFault_fences {d : Fin 26} (cause : FaultCause) (running : s.sysHeld = false)
    (up : (s.blkOf ⟨3, r.val, d.val⟩).up = true) :
    exec (.ldpcDecoderFault r d cause) s = .next (s.decoderFaulty r.val d.val) := by
  show execLdpcDecoderFault r d cause s = _
  unfold execLdpcDecoderFault
  rw [withRegion_run inPart, if_neg (by simp [running, up])]

/-- The spare detector's start ends the oldest takeover of a detector (R98). -/
theorem exec_detectorSpareStart_ends {x : Takeover}
    (oldest : s.blk.takeovers.reverse.find? (fun x => x.kind == 2 && x.region == r.val) = some x) :
    ∃ t, exec (.detectorSpareStart r) s = .next t ∧ t.blk.takeovers = s.blk.takeovers.erase x := by
  show ∃ t, execDetectorSpareStart r s = .next t ∧ _
  unfold execDetectorSpareStart
  rw [withRegion_run inPart]
  simp only [oldest]
  exact ⟨_, rfl, by simp⟩

/-- The spare decoder's start ends the oldest takeover of a decoder (R124). -/
theorem exec_ldpcSpareEnter_ends {x : Takeover}
    (oldest : s.blk.takeovers.reverse.find? (fun x => x.kind == 3 && x.region == r.val) = some x) :
    ∃ t, exec (.ldpcSpareEnter r) s = .next t ∧ t.blk.takeovers = s.blk.takeovers.erase x := by
  show ∃ t, execLdpcSpareEnter r s = .next t ∧ _
  unfold execLdpcSpareEnter
  rw [withRegion_run inPart]
  simp only [oldest]
  exact ⟨_, rfl, by simp⟩

end

/-- Settles O29: a fault fences its block, which no claim of a spare brings back; a start takes the takeover it ends off the list. -/
theorem detectorsAndDecodersTakeOver : Obligations.DetectorsAndDecodersTakeOver := by
  intro s r cause part
  have inPart : (r.val < 2 || s.trust.shadow.part == .YX3216) = true := by simpa using part
  exact ⟨fun _ running up => ⟨_, exec_detectorFault_fences inPart cause running up, State.detectorFaulty_down ..⟩,
    fun _ running up => ⟨_, exec_ldpcDecoderFault_fences inPart cause running up, State.decoderFaulty_down ..⟩,
    fun _ oldest => exec_detectorSpareStart_ends inPart oldest, fun _ oldest => exec_ldpcSpareEnter_ends inPart oldest⟩

end Sys2Proof.Machine
end

section
/-! A sector from its soft-store slot: its commit, its codewords, its ladder and its re-reads (O28). -/

namespace Sys2Proof.Machine

/-! ### The slots of a pickup after a change of one (R110) -/

@[simp] theorem State.updSoft_slots (s : State) (b : BayId) (p : Pu) (a : SecAddr) (g : SoftSlot → SoftSlot) :
    ((s.updSoft b p a g).pu b p).slots = (s.pu b p).slots.map (fun q => if q.sector == a then g q else q) := by
  simp [State.updSoft]

@[simp] theorem State.updSoft_cur (s : State) (b : BayId) (p : Pu) (a : SecAddr) (g : SoftSlot → SoftSlot) :
    ((s.updSoft b p a g).pu b p).cur = (s.pu b p).cur := by
  simp [State.updSoft]

/-- A slot of the sector named is among the slots as changed. -/
theorem State.mem_updSoft_slots {s : State} {b : BayId} {p : Pu} {q : SoftSlot} {a : SecAddr} (held : q ∈ (s.pu b p).slots)
    (named : q.sector = a) (g : SoftSlot → SoftSlot) : g q ∈ ((s.updSoft b p a g).pu b p).slots := by
  rw [State.updSoft_slots]
  exact List.mem_map.2 ⟨q, held, if_pos (by simpa using named)⟩

/-- The first slot of a sector is found as changed, if the change keeps the sector's name. -/
theorem State.find_updSoft_slots {s : State} {b : BayId} {p : Pu} {q : SoftSlot} {a : SecAddr}
    (found : (s.pu b p).slots.find? (fun q => q.sector == a) = some q) {g : SoftSlot → SoftSlot} (named : ∀ q, (g q).sector = q.sector) :
    ((s.updSoft b p a g).pu b p).slots.find? (fun q => q.sector == a) = some (g q) := by
  have same : (fun q : SoftSlot => q.sector == a) ∘ (fun q => if q.sector == a then g q else q) = fun q => q.sector == a := by
    funext q
    dsimp only [Function.comp]
    split
    · rw [named]
    · rfl
  have found_sector := List.find?_some found
  rw [State.updSoft_slots, List.find?_map, same, found, Option.map_some, if_pos found_sector]

/-! ### A sector with a codeword still open (R112) -/

/-- A sector is not decided while one of its codewords has no verdict. -/
theorem SoftSlot.decided_of_open {q : SoftSlot} {i : Nat} (within : i < q.cws.length)
    (undecoded : (q.cws.getD i .open').verdict = none) : q.decided = false := by
  rw [List.getD_eq_getElem?_getD, List.getElem?_eq_getElem within, Option.getD_some] at undecoded
  have some_open : q.cws.all (fun c => c.verdict.isSome) = false :=
    List.all_eq_false.2 ⟨_, List.getElem_mem within, by simp [undecoded]⟩
  rw [SoftSlot.decided, some_open, Bool.and_false]

/-- The verdict of one codeword does not decide a sector that has another still open. -/
theorem SoftSlot.decided_set_of_open (q : SoftSlot) {i j : Nat} (c : CwState) (apart : i ≠ j) (within : i < q.cws.length)
    (undecoded : (q.cws.getD i .open').verdict = none) : SoftSlot.decided { q with cws := q.cws.set j c } = false := by
  refine SoftSlot.decided_of_open (i := i) (by simpa using within) ?_
  simpa [List.getD_eq_getElem?_getD, List.getElem?_set_ne apart.symm] using undecoded

/-- A sector not decided yet is not judged. -/
theorem State.firstPass_undecided {s : State} {b : BayId} {p : Pu} {a : SecAddr} {q : SoftSlot}
    (found : (s.pu b p).slots.find? (fun q => q.sector == a) = some q) (undecided : q.decided = false) : s.firstPass b p a = s := by
  unfold State.firstPass
  simp [found, undecided]

/-! ### The commands on a sector -/

section
variable {s : State} {b : BayId} {p : Pu} (inPart : s.bayExists b = true)
include inPart

/-- The oldest sector emitted whole is committed, all its codewords open (R98, R121). -/
theorem exec_sectorSoftCommit_commits {q : SoftSlot}
    (whole : (s.pu b p).slots.find? (fun q => !q.reading && !q.done && q.segs.length == 5) = some q) (port : s.portUp b p = true) :
    ∃ t, exec (.sectorSoftCommit b p) s = .next t ∧ ∃ q' ∈ (t.pu b p).slots, q'.sector = q.sector ∧ q'.done = true
      ∧ q'.cws = List.replicate 160 .open' := by
  show ∃ t, execSectorSoftCommit b p s = .next t ∧ _
  unfold execSectorSoftCommit
  rw [withBay_run inPart]
  simp only [whole, port, Bool.not_true, Bool.false_eq_true, if_false]
  refine ⟨_, rfl, ?_⟩
  rw [State.after_pu]
  refine ⟨_, State.mem_updSoft_slots (q := q) ?_ rfl _, rfl, rfl, rfl⟩
  have held := List.mem_of_find?_eq_some whole
  split
  · rwa [State.boundary_pu]
  · exact held

/-- A codeword takes its verdict; the sector waits for those still open (R112). -/
theorem exec_ldpcCodewordDone_open {sector : FrameAddr} {cw other : Fin 160} {q : SoftSlot}
    (found : (s.pu b p).slots.find? (fun q => q.sector == sectorOf sector) = some q) (committed : q.done = true)
    (sized : q.cws.length = 160) (waits : (q.cws.getD cw.val .open').verdict = none)
    (undecoded : (q.cws.getD other.val .open').verdict = none) (distinct : other ≠ cw)
    (reached : s.decodersReach (regionOf b) q (0 < q.rereads) = true) (running : s.sysHeld = false) :
    ∃ t, exec (.ldpcCodewordDone b p sector cw) s = .next t ∧
      (t.pu b p).slots.find? (fun q => q.sector == sectorOf sector)
        = some { q with cws := q.cws.set cw.val (q.decodeCw p (cw.val / 10) (cw.val % 10)) } := by
  have decoded := State.find_updSoft_slots found
    (g := fun x => { x with cws := x.cws.set cw.val (q.decodeCw p (cw.val / 10) (cw.val % 10)) }) (fun _ => rfl)
  show ∃ t, execLdpcCodewordDone b p sector cw s = .next t ∧ _
  unfold execLdpcCodewordDone
  rw [withBay_run inPart]
  simp only [found]
  rw [if_pos (by rw [committed, waits, reached, running]; rfl)]
  refine ⟨_, rfl, ?_⟩
  rw [State.after_pu, State.firstPass_undecided decoded (q.decided_set_of_open _ (Fin.val_ne_of_ne distinct) (by simp [sized]) undecoded)]
  exact decoded

/-- The next trial of a sector's ladder is run: the sector is finished if the outer code now corrects it, or goes on (R116, R117). -/
theorem exec_ladderTrialDone_next {sector : FrameAddr} {trial : Trial} {q q' : SoftSlot}
    (found : (s.pu b p).slots.find? (fun q => q.sector == sectorOf sector) = some q) (next : q.plan.head? = some trial)
    (decided : q.decided = true) (reached : s.decodersReach (regionOf b) q true = true) (running : s.sysHeld = false)
    (tried : q' = { q.runTrial p trial with
      plan := q.plan.tail, rung := trialRung trial, misc := (outerPlain (q.runTrial p trial).cws).misc }) :
    exec (.ladderTrialDone b p sector trial) s =
      .next ((if (outerPlain q'.cws).good then s.finishSector b p q' (if 0 < q.rereads then 5 else trialRung trial) (outerPlain q'.cws)
        else s.ladderNext b p q').after b) := by
  subst tried
  show execLadderTrialDone b p sector trial s = _
  unfold execLadderTrialDone
  rw [withBay_run inPart]
  simp only [found]
  rw [if_pos (by simp [next, decided, reached, running])]

/-- A sector that passes again is opened in the slot it has (R97, R119). -/
theorem exec_rereadPass_reopens {sector : FrameAddr} {q : SoftSlot} {r : ReadReq}
    (found : (s.pu b p).slots.find? (fun q => q.sector == sectorOf sector && q.rung = 6) = some q)
    (asked : (s.pu b p).reads.find? (fun r => r.sector == sectorOf sector && 0 < r.again) = some r)
    (idle : (s.pu b p).cur = none) (unwritten : (s.pu b p).write.block = none) (locked : (s.pu b p).sheet.lock = .locked)
    (here : (s.pu b p).sheet.lastConf = ⟨p, (sectorOf sector).layer, (sectorOf sector).zone, (sectorOf sector).frame⟩)
    (releasing : (s.pu b p).sheet.releasing = true) (follows : (s.pu b p).ms.st = .follow) (port : s.portUp b p = true)
    (detector : s.detectorUp b p = true) :
    ∃ t, exec (.rereadPass b p sector) s = .next t ∧ (t.pu b p).cur = some r
      ∧ ∃ q' ∈ (t.pu b p).slots, q'.sector = sectorOf sector ∧ q'.reading = true ∧ q'.segs = [] ∧ q'.rereads = q.rereads + 1 := by
  have named : q.sector = sectorOf sector := by
    have kept := List.find?_some found
    rw [Bool.and_eq_true] at kept
    simpa using kept.1
  show ∃ t, execRereadPass b p sector s = .next t ∧ _
  unfold execRereadPass
  rw [withBay_run inPart]
  simp only [found, asked]
  rw [if_pos (by simp [idle, unwritten, locked, here, releasing, follows, port, detector])]
  refine ⟨_, rfl, ?_⟩
  rw [State.after_pu, State.updSoft_cur, State.updPu_pu]
  refine ⟨rfl, _, State.mem_updSoft_slots (q := q) ?_ named _, named, rfl, rfl, rfl⟩
  rw [State.updPu_pu]
  exact List.mem_of_find?_eq_some found

/-- A ladder out of time ends its sector (R117). -/
theorem exec_ladderTimeout_ends {sector : FrameAddr} {q : SoftSlot}
    (found : (s.pu b p).slots.find? (fun q => q.sector == sectorOf sector) = some q) (climbs : q.inLadder = true)
    (late : q.begun + s.liveN .eccRetryMaxMs * 1000 ≤ s.us) :
    exec (.ladderTimeout b p sector) s = .next ((s.ladderEnds b p q).after b) := by
  show execLadderTimeout b p sector s = _
  unfold execLadderTimeout
  rw [withBay_run inPart]
  simp only [found]
  rw [if_pos (by simp [climbs, late])]

end

/-- Settles O28: each command on a sector makes the one change of its slot that it is for. -/
theorem sectorsAreDecoded : Obligations.SectorsAreDecoded := by
  intro s b p inPart
  exact ⟨fun _ => exec_sectorSoftCommit_commits inPart, fun _ _ _ _ => exec_ldpcCodewordDone_open inPart,
    fun _ _ _ _ => exec_ladderTrialDone_next inPart, fun _ _ _ => exec_rereadPass_reopens inPart,
    fun _ _ => exec_ladderTimeout_ends inPart⟩

end Sys2Proof.Machine
end

section
/-! Writing (O30): a sector encoded, a pass block opened, its segments sent, strategy banks loaded and selected, an excursion begun. -/

namespace Sys2Proof.Machine

/-! ### Control operations leave the write path (R49, R50) -/

@[simp] theorem State.sendCtrl_write (s : State) (b : BayId) (p : Pu) (tsh : Nat) (payload : Bytes) :
    ((s.sendCtrl b p tsh payload).pu b p).write = (s.pu b p).write := by
  unfold State.sendCtrl
  split
  · simp [State.sendHead]
  · simp

@[simp] theorem State.ctrlPump_write (s : State) (b : BayId) (p : Pu) (k : Nat) :
    ((s.ctrlPump b p k).pu b p).write = (s.pu b p).write := by
  induction k generalizing s with
  | zero => rfl
  | succ k ih =>
    unfold State.ctrlPump
    dsimp only
    split
    · split
      · rw [ih]; simp
      · rfl
    · rfl

@[simp] theorem State.ctrlIssue_write (s : State) (b : BayId) (p : Pu) (op addr : Nat) (data : Bytes) :
    ((s.ctrlIssue b p op addr data).pu b p).write = (s.pu b p).write := by
  simp [State.ctrlIssue]

@[simp] theorem State.ctrlRead_write (s : State) (b : BayId) (p : Pu) (addr len : Nat) :
    ((s.ctrlRead b p addr len).pu b p).write = (s.pu b p).write := by
  simp [State.ctrlRead]

@[simp] theorem State.regWrite_write (s : State) (b : BayId) (p : Pu) (addr : Nat) (data : Bytes) (k : Nat) :
    ((s.regWrite b p addr data k).pu b p).write = (s.pu b p).write := by
  induction k generalizing s addr data with
  | zero => rfl
  | succ k ih =>
    unfold State.regWrite
    split
    · rfl
    · rw [ih, State.ctrlIssue_write]

@[simp] theorem State.regRead_write (s : State) (b : BayId) (p : Pu) (addr len k : Nat) :
    ((s.regRead b p addr len k).pu b p).write = (s.pu b p).write := by
  induction k generalizing s addr len with
  | zero => rfl
  | succ k ih =>
    unfold State.regRead
    split
    · rfl
    · rw [ih, State.ctrlRead_write]

/-! ### Strategy banks (R134) -/

/-- A load changes nothing of the write path but the load in progress. -/
@[simp] theorem State.loadBank_write (s : State) (b : BayId) (p : Pu) (x : BankLoad) :
    ((s.loadBank b p x).pu b p).write = { (s.pu b p).write with load := some { x with got := [], select := false } } := by
  simp [State.loadBank]

/-- A failed load is counted and leaves the bank in force; the third stops the pickup's writing. -/
theorem State.bankFails_write (s : State) (b : BayId) (p : Pu) (x : BankLoad) :
    ((s.bankFails b p x).pu b p).write.bankSel = (s.pu b p).write.bankSel
      ∧ ((s.bankFails b p x).pu b p).write.bankFails = (s.pu b p).write.bankFails + 1
      ∧ ((s.bankFails b p x).pu b p).write.bankStop = (decide (3 ≤ (s.pu b p).write.bankFails + 1) || (s.pu b p).write.bankStop) := by
  unfold State.bankFails
  dsimp only
  split
  next again =>
    rw [State.loadBank_write, State.updPu_pu, decide_eq_false (Nat.not_le.2 again), Bool.false_or]
    exact ⟨rfl, rfl, rfl⟩
  next third =>
    rw [State.raisePu_pu, State.updPu_pu, State.updPu_pu, decide_eq_true (Nat.not_lt.1 third), Bool.true_or]
    exact ⟨rfl, rfl, rfl⟩

section
variable {s : State} {b : BayId} {p : Pu} {x : BankLoad} {c : CtrlOp} (loading : (s.pu b p).write.load = some x)
  (selecting : x.select = true) (op : c.op = 1) (addr : c.addr = 0x30000)
include loading selecting op addr

/-- The write that selects the bank is answered: the bank and its layer are in force. -/
theorem State.bankReply_selects {f : Bytes} (good : byteAt f 5 = 0) :
    s.bankReply b p c f = s.updPu b p (fun u => { u with write := { u.write with
      load := none, bankSel := x.bank, bankLayer := some x.layer, bankFails := 0, strategies := [⟨x.layer, x.set⟩] } }) := by
  simp [State.bankReply, loading, selecting, op, addr, good]

/-- The write that selects the bank is refused: the load has failed. -/
theorem State.bankReply_refused {f : Bytes} (bad : byteAt f 5 ≠ 0) : s.bankReply b p c f = s.bankFails b p x := by
  simp [State.bankReply, loading, selecting, op, addr, bad]

end

/-! ### What the length of a pass block depends on (R128) -/

/-- A tune abandoned leaves the sheet channel, the write path and the motion of its pickup. -/
theorem State.abandonTune_keeps (s : State) (b : BayId) (p : Pu) :
    ((s.abandonTune b p).pu b p).sheet = (s.pu b p).sheet ∧ ((s.abandonTune b p).pu b p).write = (s.pu b p).write
      ∧ ((s.abandonTune b p).pu b p).ms = (s.pu b p).ms := by
  unfold State.abandonTune
  cases (s.pu b p).tuning with
  | none => exact ⟨rfl, rfl, rfl⟩
  | some lp =>
    dsimp only
    rw [State.tuneFails_pu, State.updPu_pu]
    cases lp <;> exact ⟨rfl, rfl, rfl⟩

theorem State.blockLen_congr {s t : State} {b : BayId} {p : Pu} (sheet : (t.pu b p).sheet = (s.pu b p).sheet)
    (write : (t.pu b p).write = (s.pu b p).write) (ms : (t.pu b p).ms = (s.pu b p).ms) (cfg : t.cfg = s.cfg) (a : Nat) :
    t.blockLen b p a = s.blockLen b p a := by
  simp only [State.blockLen, Pickup.openCoded, State.bndN, State.unitCfg, sheet, write, ms, cfg]

/-- A boundary gives what the configuration before it gives. -/
theorem State.boundary_cfg_congr {s t : State} (cfg : t.cfg = s.cfg) (u : CfgUnit) (sec : Nat) :
    (t.boundary u sec).cfg = (s.boundary u sec).cfg := by
  simp only [State.boundary, State.unitCfg, cfg]

/-- With both pickups at the frontier there is no excursion to end. -/
theorem State.endExcursion_none {s : State} {b : BayId} (frontA : (s.bay b).pa.write.excursion = false)
    (frontB : (s.bay b).pb.write.excursion = false) : s.endExcursion b = s := by
  simp [State.endExcursion, frontA, frontB]

/-! ### A sector that is not coded (R131) -/

/-- Passing over a sector that is not coded moves the block on and fails nothing. -/
theorem State.passSector_uncoded {s : State} {b : BayId} {p : Pu} {k : PassBlock} {f : Nat}
    (uncoded : (s.pu b p).write.coded? ⟨k.layer, k.zone, f / 5⟩ = none) :
    s.passSector b p k f = s.updPu b p (fun u => { u with write := { u.write with
      block := u.write.block.map (fun k => { k with next := 5 * (f / 5 + 1) }) } }) := by
  have still : ((s.updPu b p (fun u => { u with write := { u.write with
      block := u.write.block.map (fun k => { k with next := 5 * (f / 5 + 1) }) } })).pu b p).write.coded? ⟨k.layer, k.zone, f / 5⟩
        = none := by
    rw [State.updPu_pu]
    exact uncoded
  unfold State.passSector
  simp only [still]

/-! ### The commands -/

section
variable {s : State} {b : BayId} {p : Pu} (inPart : s.bayExists b = true)
include inPart

section
variable {c : Coded} {rest : List Coded} {e : Nat} (queued : (s.pu b p).write.queue = c :: rest)
  (served : s.server 4 (regionOf b) 0 = some e) (running : s.sysHeld = false)
  (room : (s.pu b p).write.store.length < s.bootN .memWstoreSlots)
include queued served running room

/-- A sector that passes the encoder's check goes from the queue into the write store, coded for the tracks its pickup writes (R109). -/
theorem exec_sectorEncode_stores (checked : encodeCheck (sectorWords (maskPayload (s.pu b p).unwritten c.payload)) = true) :
    exec (.sectorEncode b p false) s = .next ((s.updPu b p (fun u => { u with write := { u.write with
      queue := rest, store := u.write.store ++ [c.encode p (s.pu b p).unwritten] } })).after b) := by
  have passes : encodeCheck (sectorWords (c.encode p (s.pu b p).unwritten).payload) = true := checked
  show execSectorEncode b p false s = _
  unfold execSectorEncode
  rw [withBay_run inPart]
  simp only [queued, served]
  rw [if_neg (by simp [running, room]), if_neg (by simp [passes])]

/-- An encoder whose check fails is fenced; its sector stays in the queue for the spare (R127). -/
theorem exec_sectorEncode_fences {upset : Bool}
    (fails : upset = true ∨ encodeCheck (sectorWords (maskPayload (s.pu b p).unwritten c.payload)) = false) :
    ∃ t, exec (.sectorEncode b p upset) s = .next t ∧ (t.blkOf ⟨4, regionOf b, e⟩).up = false
      ∧ (t.pu b p).write = (s.pu b p).write := by
  have refused : (upset || !encodeCheck (sectorWords (c.encode p (s.pu b p).unwritten).payload)) = true := by
    rw [Bool.or_eq_true, Bool.not_eq_true']
    exact fails
  show ∃ t, execSectorEncode b p upset s = .next t ∧ _
  unfold execSectorEncode
  rw [withBay_run inPart]
  simp only [queued, served]
  rw [if_neg (by simp [running, room]), if_pos refused]
  refine ⟨_, rfl, ?_, by simp⟩
  rw [State.after_blkOf]
  exact State.claimSpare_keeps_down (State.fence_up ..) _

end

/-- A block opens at the lowest coded sector with the length that fits at the boundary (R128). -/
theorem exec_passBlockStart_opens {a : Nat} (frontA : (s.bay b).pa.write.excursion = false)
    (frontB : (s.bay b).pb.write.excursion = false) (lowest : lowestSector (s.pu b p).openCoded = some a)
    (may : s.blockMayStart b p a = true) (fits : 0 < (s.boundary (.pickup b p) 4).blockLen b p a) :
    ∃ t, exec (.passBlockStart b p) s = .next t ∧ ∃ k, (t.pu b p).write.block = some k ∧ k.j = 5 * a
      ∧ k.n = (s.boundary (.pickup b p) 4).blockLen b p a ∧ k.step = .even ∧ (t.pu b p).write.sent = [] := by
  show ∃ t, execPassBlockStart b p s = .next t ∧ _
  unfold execPassBlockStart
  rw [withBay_run inPart, State.endExcursion_none frontA frontB]
  simp only [lowest, may, Bool.not_true, Bool.false_eq_true, if_false]
  obtain ⟨sheet, write, ms⟩ := s.abandonTune_keeps b p
  generalize stepped : (if (s.pu b p).powerCalAt a = true then s.abandonTune b p else
    (s.abandonTune b p).updPu b p (fun u => { u with cal := { u.cal with step := none } })) = t
  have same : (t.boundary (.pickup b p) 4).blockLen b p a = (s.boundary (.pickup b p) 4).blockLen b p a := by
    subst stepped
    refine State.blockLen_congr ?_ ?_ ?_ (State.boundary_cfg_congr ?_ _ _) a <;> split <;> simp [sheet, write, ms]
  rw [same, if_neg (Nat.ne_of_gt fits)]
  refine ⟨_, rfl, ?_⟩
  rw [State.after_pu, State.updPu_pu]
  exact ⟨_, rfl, rfl, rfl, rfl, rfl⟩

section
variable {k : PassBlock} (running : (s.pu b p).write.block = some k) (even : k.step = .even) (opened : k.opened = true)
  (within : k.next < k.j + 5 * k.n) (port : s.portUp b p = true) (locked : (s.pu b p).sheet.lock = .locked)
  (due : (((s.pu b p).segStart k.next).1 / 65536 : Int) - 512 * k.lead ≤ (s.pu b p).link.linkTime s.us)
include running even opened within port locked due

/-- A sector that is not coded is passed over: the block goes on at the next one. -/
theorem exec_segmentWriteSend_passes (uncoded : (s.pu b p).write.coded? ⟨k.layer, k.zone, k.next / 5⟩ = none) :
    ∃ t, exec (.segmentWriteSend b p) s = .next t ∧ (t.pu b p).write.block = some { k with next := 5 * (k.next / 5 + 1) } := by
  show ∃ t, execSegmentWriteSend b p s = .next t ∧ _
  unfold execSegmentWriteSend
  rw [withBay_run inPart]
  simp only [running, uncoded]
  rw [if_neg (by simp [even, opened, within, port, locked, due])]
  refine ⟨_, rfl, ?_⟩
  rw [State.after_pu, State.passSector_uncoded uncoded, State.updPu_pu]
  simp [running]

/-- Through an open gate, ahead of its time and with a wedge confirmed lately, the segment is sent (R131). -/
theorem exec_segmentWriteSend_sends {c : Coded} (coded : (s.pu b p).write.coded? ⟨k.layer, k.zone, k.next / 5⟩ = some c)
    (may : c.mayWrite k.next k.pass = true) (gate : (s.pu b p).write.gateOk = true) (permit : (s.pu b p).link.wpermit = true)
    (active : (s.pu b p).link.st = .active) (timed : (s.pu b p).sheet.interval ≠ 0)
    (ahead : ((s.pu b p).link.linkTime s.us : Int) + 4096 ≤ ((s.pu b p).segStart k.next).1 / 65536)
    (past : (s.pu b p).sheet.lastConf.frame < k.next)
    (fresh : k.next ≤ (s.pu b p).sheet.lastConf.frame + s.liveN .sheetWedgeMaxMiss) :
    exec (.segmentWriteSend b p) s = .next ((s.writeSegment b p k c k.next).after b) := by
  show execSegmentWriteSend b p s = _
  unfold execSegmentWriteSend
  rw [withBay_run inPart]
  simp only [running, coded]
  rw [if_neg (by simp [even, opened, within, port, locked, due]),
    if_pos (by simp [may, gate, permit, active, timed, ahead, past, fresh])]

end

/-- A layer's set is loaded into the bank that is not selected (R134, R135). -/
theorem exec_strategyBankLoad_loads (layer : Fin 12) (port : s.portUp b p = true) (live : (s.pu b p).link.live = true)
    (noBlock : (s.pu b p).write.block = none) (noLoad : (s.pu b p).write.load = none) (writes : (s.pu b p).write.bankStop = false)
    (cores : s.coresHeld = false) (idle : s.idlePeriod b p = true) :
    exec (.strategyBankLoad b p layer) s
      = .next ((s.loadBank b p ⟨layer.val, !(s.pu b p).write.bankSel, s.strategyFor b p layer.val, [], false⟩).after b) := by
  show execStrategyBankLoad b p layer s = _
  unfold execStrategyBankLoad
  rw [withBay_run inPart]
  dsimp only
  rw [if_neg (by simp [port, live, noBlock, noLoad, writes, cores, idle])]

/-- Relocations that have waited long enough take both pickups away from the frontier (R139). -/
theorem exec_relocExcursionStart_begins {r : Reloc} (waiting : r ∈ (s.pu b p).write.relocs)
    (work : (s.pu b p).write.relocWork = true) (noRecord : r.record = false)
    (late : r.queued + s.liveN .writeRelocMaxDeferMs * 1000 ≤ s.us) (frontA : (s.bay b).pa.write.excursion = false)
    (frontB : (s.bay b).pb.write.excursion = false) (idleA : (s.bay b).pa.write.block = none)
    (idleB : (s.bay b).pb.write.block = none) (noDrain : s.host.act = none) (startsA : s.coreStarts b (.pickup .A) = true)
    (startsB : s.coreStarts b (.pickup .B) = true) :
    ∃ t, exec (.relocExcursionStart b) s = .next t ∧ (t.bay b).pa.write.excursion = true ∧ (t.bay b).pb.write.excursion = true := by
  have due : (s.pu b p).write.relocs.any (fun r => !r.record && r.queued + s.liveN .writeRelocMaxDeferMs * 1000 ≤ s.us) = true :=
    List.any_eq_true.2 ⟨r, waiting, by simp [noRecord, late]⟩
  show ∃ t, execRelocExcursionStart b s = .next t ∧ _
  unfold execRelocExcursionStart
  rw [withBay_run inPart]
  dsimp only
  rw [if_pos (by
    cases p <;> simp only [State.pu, Bay.pu] at work due <;>
      simp [work, due, frontA, frontB, idleA, idleB, noDrain, startsA, startsB])]
  exact ⟨_, rfl, by simp⟩

end

/-- Settles O30: each command of the write path makes the one step of writing that it is for. -/
theorem writesProceed : Obligations.WritesProceed := by
  intro s b p inPart
  refine ⟨fun c rest e queued served running room => ⟨?_, exec_sectorEncode_fences inPart queued served running room (.inl rfl)⟩,
    fun a frontA frontB lowest may fits =>
      let ⟨t, run, k, opens⟩ := exec_passBlockStart_opens inPart frontA frontB lowest may fits
      ⟨t, k, run, opens⟩,
    fun k running even opened within port locked due =>
      ⟨exec_segmentWriteSend_passes inPart running even opened within port locked due,
        fun c => exec_segmentWriteSend_sends inPart running even opened within port locked due⟩,
    fun layer port live noBlock noLoad writes cores idle =>
      ⟨_, exec_strategyBankLoad_loads inPart layer port live noBlock noLoad writes cores idle, by simp⟩,
    fun x c f loading selecting op addr => ⟨fun good => ?_, fun bad => ?_⟩,
    fun _ => exec_relocExcursionStart_begins inPart⟩
  · split
    next checked =>
      refine ⟨_, exec_sectorEncode_stores inPart queued served running room checked, ?_⟩
      rw [State.after_pu, State.updPu_pu]
      exact ⟨rfl, _, rfl, rfl, rfl, rfl⟩
    next failed => exact exec_sectorEncode_fences inPart queued served running room (.inr (by simpa using failed))
  · rw [State.bankReply_selects loading selecting op addr good, State.updPu_pu]
    exact ⟨rfl, rfl, rfl⟩
  · rw [State.bankReply_refused loading selecting op addr bad]
    exact State.bankFails_write s b p x

end Sys2Proof.Machine
end

section
/-! The states of a pickup (O16): starts, locks and losses of lock, the limit of a state, and the recovery ladder. -/

namespace Sys2Proof.Machine

/-! ### What a start and a recovery lead to -/

/-- A unit whose transitions can be core-started has its cores running. -/
theorem State.coresHeld_of_coreStarts {s : State} {b : BayId} {u : UnitSel} (starts : s.coreStarts b u = true) :
    s.coresHeld = false := by
  simp only [State.coreStarts, Bool.and_eq_true, Bool.not_eq_true'] at starts
  obtain ⟨⟨running, -⟩, -⟩ := starts
  exact running

/-- A pickup in `FOLLOW` with a ladder left recovers (R155). -/
theorem State.enterRecover_follow {s : State} {b : BayId} {p : Pu} (c : RecCause) (follow : (s.pu b p).ms.st = .follow)
    (left : (s.pu b p).ms.ladders < s.liveN .loopRecoverMaxTries) : ((s.enterRecover b p c).pu b p).ms.st = .recover := by
  have recovers := State.enterRecover_st s b p c (by simp [follow])
  rwa [if_neg (Nat.not_le.2 left)] at recovers

/-- Whichever loop loses its lock in `FOLLOW`, the pickup recovers where a ladder is left (R143, R155). -/
theorem State.loseLock_follow {s : State} {b : BayId} {p : Pu} (focusToo : Bool) (follow : (s.pu b p).ms.st = .follow)
    (left : (s.pu b p).ms.ladders < s.liveN .loopRecoverMaxTries) : ((s.loseLock b p focusToo).pu b p).ms.st = .recover := by
  unfold State.loseLock
  simp only [State.updPu_pu, follow]
  exact State.enterRecover_follow .ordinary (by simpa using follow) (by simpa using left)

/-- Tracking that pulls in leaves focus as it is. -/
@[simp] theorem State.enterTrackPull_focus (s : State) (b : BayId) (p : Pu) :
    ((s.enterTrackPull b p).pu b p).focus = (s.pu b p).focus := by
  simp [State.enterTrackPull, State.enter_pu]

/-- A search for the address leaves tracking as it is. -/
@[simp] theorem State.enterAcquire_track (s : State) (b : BayId) (p : Pu) :
    ((s.enterAcquire b p).pu b p).track = (s.pu b p).track := by
  simp [State.enterAcquire, State.enter_pu]

/-- Noting a layer touches only the calibration of a pickup. -/
@[simp] theorem State.noteLayer_pu (s : State) (b : BayId) (p : Pu) :
    ((s.noteLayer b p).pu b p).ms = (s.pu b p).ms ∧ ((s.noteLayer b p).pu b p).track = (s.pu b p).track := by
  obtain ⟨ms, -, track, -⟩ := State.core_pu (State.noteLayer_core s b p b) p
  exact ⟨ms, track⟩

/-- A local recapture begins (R156): the loops are open and the objective sweeps the layers about the last one. -/
def State.beginRecapture (s : State) (b : BayId) (p : Pu) : State :=
  s.updPu b p (fun u => { u with
    focus := u.focus.open', track := u.track.open'
    ms := { u.ms with
      recap := true, since := s.us, ticks := 0
      sweep := ⟨0, s.bndN (.pickup b p) .loopFocusRecapLayers, 1, u.ms.drive 0, false, 0, 0, false⟩ } })

/-! ### The commands -/

section
variable {s : State} {b : BayId} {p : Pu} (inPart : s.bayExists b = true)
include inPart

/-- With the bay at speed, the link up and the laser permit high, a pickup that is off begins its search (R145). -/
theorem exec_pickupFocusSearchStart_searches (off : (s.pu b p).ms.st = .off) (speed : (s.bay b).spindle.ready = true)
    (live : (s.pu b p).link.live = true) (port : s.portUp b p = true) (serves : (s.pu b p).cal.retired = false)
    (permitted : (s.safeBay b).lsafe = true) (starts : s.coreStarts b (.pickup p) = true) :
    exec (.pickupFocusSearchStart b p) s = .next ((s.enterFocusSearch b p).after b) := by
  show execPickupFocusSearchStart b p s = _
  unfold execPickupFocusSearchStart
  rw [withBay_run inPart]
  simp [off, speed, live, port, serves, permitted, starts]

/-- Focus locks in `FOCUS_SEARCH`, and tracking pulls in (R143). -/
theorem exec_loopLock_focus (search : (s.pu b p).ms.st = .focusSearch) (closed : (s.pu b p).focus.closed = true)
    (unlocked : (s.pu b p).focus.locked = false) (held : s.bndN (.pickup b p) .loopFocusLockTicks ≤ (s.pu b p).focus.within) :
    exec (.loopLock b p .focus) s
      = .next (((s.updPu b p (fun u => { u with focus := u.focus.lock })).enterTrackPull b p).after b) := by
  show execLoopLock b p .focus s = _
  unfold execLoopLock
  rw [withBay_run inPart]
  simp [search, closed, unlocked, held]

/-- Tracking locks in `TRACK_PULL`, and the pickup looks for its address on a layer that is noted (R143, R357). -/
theorem exec_loopLock_track (pulls : (s.pu b p).ms.st = .trackPull) (closed : (s.pu b p).track.closed = true)
    (unlocked : (s.pu b p).track.locked = false) (focused : (s.pu b p).focus.locked = true)
    (held : s.bndN (.pickup b p) .loopTrackLockTicks ≤ (s.pu b p).track.within) :
    exec (.loopLock b p .track) s
      = .next ((((s.updPu b p (fun u => { u with track := u.track.lock })).enterAcquire b p).noteLayer b p).after b) := by
  show execLoopLock b p .track s = _
  unfold execLoopLock
  rw [withBay_run inPart]
  simp [pulls, closed, unlocked, focused, held]

/-- Four ticks of focus beyond its limit lose both locks (R143). -/
theorem exec_loopUnlock_focus (locked : (s.pu b p).focus.locked = true) (beyond : 4 ≤ (s.pu b p).focus.beyond) :
    exec (.loopUnlock b p .focus) s = .next ((s.loseLock b p true).after b) := by
  show execLoopUnlock b p .focus s = _
  unfold execLoopUnlock
  rw [withBay_run inPart]
  simp [locked, beyond]

/-- Four ticks of tracking beyond its limit lose the lock of tracking (R143). -/
theorem exec_loopUnlock_track (locked : (s.pu b p).track.locked = true) (beyond : 4 ≤ (s.pu b p).track.beyond) :
    exec (.loopUnlock b p .track) s = .next ((s.loseLock b p false).after b) := by
  show execLoopUnlock b p .track s = _
  unfold execLoopUnlock
  rw [withBay_run inPart]
  simp [locked, beyond]

/-- Too many ticks missed in a row unlock both loops and recover the pickup (R164). -/
theorem exec_missedTickUnlock_recovers (port : s.portUp b p = true) (missed : s.liveN .cengMissMax ≤ (s.pu b p).link.missTick) :
    exec (.missedTickUnlock b p) s = .next (((s.updPu b p (fun u => { u with
      focus := u.focus.unlock, track := u.track.unlock })).enterRecover b p .ordinary).after b) := by
  show execMissedTickUnlock b p s = _
  unfold execMissedTickUnlock
  rw [withBay_run inPart, if_pos (by simp [port, State.link, missed])]

/-- Tracking that has not locked within its limit is lost (R144). -/
theorem exec_pickupStateLimit_trackPull (pulls : (s.pu b p).ms.st = .trackPull)
    (due : (s.pu b p).ms.since + s.bndN (.pickup b p) .loopTrackPullUs ≤ s.us) :
    exec (.pickupStateLimit b p) s = .next (((s.raisePu b p 4 .loopTrackLost).enterRecover b p .ordinary).after b) := by
  show execPickupStateLimit b p s = _
  unfold execPickupStateLimit
  rw [withBay_run inPart]
  simp [pulls, due]

/-- A pickup that has failed is off again after its interval (R156). -/
theorem exec_pickupFailedRetry_off (failed : (s.pu b p).ms.st = .failed) (serves : (s.pu b p).cal.retired = false)
    (starts : s.coreStarts b (.pickup p) = true)
    (due : (s.pu b p).ms.since + 1000000 * s.liveN .loopRecoverRetryS ≤ s.us) :
    exec (.pickupFailedRetry b p) s = .next ((s.enter b p .off).after b) := by
  show execPickupFailedRetry b p s = _
  unfold execPickupFailedRetry
  rw [withBay_run inPart]
  simp [failed, serves, starts, due]

/-! The recovery ladder (R155, R156). -/

section
variable (recovers : (s.pu b p).ms.st = .recover)
include recovers

/-- After an ordinary loss the hold ends by whether focus has stayed locked: tracking pulls in, or a local recapture begins. -/
theorem exec_recoverHoldEnd_ordinary (holds : (s.pu b p).ms.recap = false)
    (due : (s.pu b p).ms.since + s.liveN .loopRecoverHoldUs ≤ s.us) (ordinary : (s.pu b p).ms.cause = .ordinary) :
    exec (.recoverHoldEnd b p) s = .next
      ((if (s.pu b p).focus.locked = true then s.enterTrackPull b p else s.beginRecapture b p).after b) := by
  show execRecoverHoldEnd b p s = _
  unfold execRecoverHoldEnd
  rw [withBay_run inPart]
  simp [recovers, holds, due, ordinary, State.beginRecapture]

/-- A local recapture in which focus has closed ends, and tracking pulls in. -/
theorem exec_localRecaptureEnd_pulls (recaptures : (s.pu b p).ms.recap = true) (closed : (s.pu b p).focus.closed = true) :
    exec (.localRecaptureEnd b p) s = .next ((s.enterTrackPull b p).after b) := by
  show execLocalRecaptureEnd b p s = _
  unfold execLocalRecaptureEnd
  rw [withBay_run inPart]
  simp [recovers, recaptures, closed]

/-- One that has found no layer within its limit ends in a full search. -/
theorem exec_localRecaptureEnd_searches (recaptures : (s.pu b p).ms.recap = true) (opened : (s.pu b p).focus.closed = false)
    (due : (s.pu b p).ms.since + s.bndN (.pickup b p) .loopFocusRecapUs ≤ s.us) :
    exec (.localRecaptureEnd b p) s = .next ((s.enterFocusSearch b p).after b) := by
  show execLocalRecaptureEnd b p s = _
  unfold execLocalRecaptureEnd
  rw [withBay_run inPart]
  simp [recovers, recaptures, opened, due]

end

end

/-- Settles O16: each command is shown to make the one transition it is for, whose lemma names the state entered. -/
theorem pickupStatesFollowTable : Obligations.PickupStatesFollowTable := by
  intro s b p inPart
  refine ⟨fun off speed live port serves permitted starts => ?_, fun search closed unlocked held => ?_,
    fun pulls closed unlocked focused held => ?_,
    fun follow left => ⟨fun locked beyond => ?_, fun locked beyond => ?_, fun port missed => ?_⟩, fun pulls due => ?_,
    fun recovers holds due ordinary locked => ?_, fun recovers holds due ordinary unlocked => ?_,
    fun recovers recaptures closed => ?_, fun recovers recaptures opened running due => ?_, fun failed serves starts due => ?_⟩
  · refine ⟨_, exec_pickupFocusSearchStart_searches inPart off speed live port serves permitted starts, ?_⟩
    simpa using State.enterFocusSearch_st s b p (State.coresHeld_of_coreStarts starts)
  · exact ⟨_, exec_loopLock_focus inPart search closed unlocked held, by simp [Loop.lock]⟩
  · exact ⟨_, exec_loopLock_track inPart pulls closed unlocked focused held, by simp [Loop.lock]⟩
  · refine ⟨_, exec_loopUnlock_focus inPart locked beyond, ?_⟩
    simpa using State.loseLock_follow true follow left
  · refine ⟨_, exec_loopUnlock_track inPart locked beyond, ?_⟩
    simpa using State.loseLock_follow false follow left
  · refine ⟨_, exec_missedTickUnlock_recovers inPart port missed, ?_⟩
    rw [State.after_pu]
    exact State.enterRecover_follow .ordinary (by simpa using follow) (by simpa using left)
  · refine ⟨_, exec_pickupStateLimit_trackPull inPart pulls due, ?_⟩
    simpa using State.enterRecover_st (s.raisePu b p 4 .loopTrackLost) b p .ordinary (by simp [pulls])
  · refine ⟨_, exec_recoverHoldEnd_ordinary inPart recovers holds due ordinary, ?_⟩
    simp [locked]
  · refine ⟨_, exec_recoverHoldEnd_ordinary inPart recovers holds due ordinary, ?_⟩
    simp [unlocked, State.beginRecapture, recovers]
  · exact ⟨_, exec_localRecaptureEnd_pulls inPart recovers recaptures closed, by simp⟩
  · refine ⟨_, exec_localRecaptureEnd_searches inPart recovers recaptures opened due, ?_⟩
    simpa using (State.enterFocusSearch_st s b p running).1
  · exact ⟨_, exec_pickupFailedRetry_off inPart failed serves starts due, by simp⟩

end Sys2Proof.Machine
end

section
/-! Sleds that follow their pickups (O20): coarse steps of standing sleds, follow targets and their limit. -/

namespace Sys2Proof.Machine

/-! ### Coarse steps (R214) -/

theorem State.updSled_sled_twin (s : State) (b : BayId) {p q : Pu} (f : Sled → Sled) (h : p ≠ q) :
    ((s.updSled b p f).bay b).sled q = (s.bay b).sled q := by
  simp [State.updSled, Bay.setSled_sled_other _ _ _ _ h]

@[simp] theorem State.updPu_sled (s : State) (b : BayId) (p : Pu) (f : Pickup → Pickup) (q : Pu) :
    ((s.updPu b p f).bay b).sled q = (s.bay b).sled q := by
  simp [State.updPu]

/-- A sled that stands on an enabled bridge: no plan, and no re-phasing to wait for. -/
def Sled.Stands (x : Sled) : Prop := x.plan = none ∧ x.rephase = none ∧ x.enabled = true

/-- Its coarse step is counted and moves nothing. -/
theorem Sled.advance_standing {x : Sled} (noPlan : x.plan = none) (lim : Nat × Nat × Nat) (now : Nat) :
    x.advance lim now = { x with step := x.step + 1, prev := x.pos } := by
  simp [Sled.advance, noPlan]

/-- So is the step that its generator takes, though the current may still be falling to the hold scale (R220). -/
theorem State.sledStep_standing {s : State} {b : BayId} {p : Pu} (stands : ((s.bay b).sled p).Stands) :
    (((s.sledStep b p).bay b).sled p).step = ((s.bay b).sled p).step + 1
      ∧ (((s.sledStep b p).bay b).sled p).pos = ((s.bay b).sled p).pos := by
  obtain ⟨noPlan, noRephase, enabled⟩ := stands
  unfold State.sledStep
  simp only [State.updSled_sled, noPlan, noRephase, enabled, Sled.advance_standing noPlan]
  cases ((s.bay b).sled p).ramp <;> exact ⟨rfl, rfl⟩

theorem State.sledStep_twin (s : State) (b : BayId) {p q : Pu} (h : p ≠ q) :
    ((s.sledStep b p).bay b).sled q = (s.bay b).sled q := State.updSled_sled_twin s b _ h

/-- Both sleds of a bay take their step, each by itself. -/
theorem State.sledSteps_standing {s : State} {b : BayId} (stand : ∀ p : Pu, ((s.bay b).sled p).Stands) (p : Pu) :
    ((((s.sledStep b .A).sledStep b .B).bay b).sled p).step = ((s.bay b).sled p).step + 1
      ∧ ((((s.sledStep b .A).sledStep b .B).bay b).sled p).pos = ((s.bay b).sled p).pos := by
  cases p with
  | A =>
    rw [State.sledStep_twin _ _ (by decide)]
    exact State.sledStep_standing (stand .A)
  | B =>
    have same : ((s.sledStep b .A).bay b).sled .B = (s.bay b).sled .B := State.sledStep_twin s b (by decide)
    rw [← same]
    exact State.sledStep_standing (same ▸ stand .B)

/-! ### Follow targets (R149, R158) -/

/-- Where a pickup without a steer has gone beyond the dead band, its sled goes after it. -/
theorem State.followTarget_displaced {s : State} {b : BayId} {p : Pu} {r0 : Int} (known : ((s.bay b).sled p).r0 = some r0)
    (free : (s.pu b p).ms.steer = false) (beyond : s.liveN .loopSledDeadbandUm * 65536 < (s.pu b p).ms.dispMean.natAbs) :
    s.followTarget b p
      = s.sledTarget b p (radiusAt r0 ((s.bay b).sled p).pos + rnd ((s.pu b p).ms.dispMean * 100) 65536) false := by
  simp [State.followTarget, known, free, beyond]

/-- The sled of a steered pickup goes to the radius of the reference. -/
theorem State.followTarget_steered {s : State} {b : BayId} {p : Pu} {r0 : Int} {r : Nat} (known : ((s.bay b).sled p).r0 = some r0)
    (steered : (s.pu b p).ms.steer = true) (reference : (if (s.bay b).ref == .A then (s.bay b).radA else (s.bay b).radB) = some r) :
    s.followTarget b p = s.sledTarget b p r false := by
  unfold State.followTarget
  simp only [known, steered, reference, if_true]

/-- A follow target changes no pickup. -/
@[simp] theorem State.followTarget_pu (s : State) (b : BayId) (p : Pu) (c : BayId) (q : Pu) :
    (s.followTarget b p).pu c q = s.pu c q := by
  unfold State.followTarget
  dsimp only
  split
  · rfl
  · split
    · split <;> simp
    · split <;> simp

/-- Nor does it change a LIVE value. -/
@[simp] theorem State.followTarget_liveN (s : State) (b : BayId) (p : Pu) (f : Field) :
    (s.followTarget b p).liveN f = s.liveN f := by
  have kept : ∀ r, (s.sledTarget b p r false).liveN f = s.liveN f := fun r => by
    unfold State.sledTarget State.liveN
    dsimp only
    split
    · rfl
    · split
      · rfl
      · simp only [Bool.false_eq_true, if_false]
        split <;> simp
  unfold State.followTarget
  dsimp only
  split
  · rfl
  · split
    · split <;> simp [kept]
    · split <;> simp [kept]

/-- The follow target of the present 80 ticks has been looked at (R149). -/
def State.noteFollow (s : State) (b : BayId) (p : Pu) : State := s.updMs b p (fun m => { m with followSlot := m.clock / 80 })

theorem State.updMs_congr {s : State} {b : BayId} {p : Pu} {g h : Motion → Motion} (same : g (s.pu b p).ms = h (s.pu b p).ms) :
    s.updMs b p g = s.updMs b p h := by
  have atBay : g ((s.bay b).pu p).ms = h ((s.bay b).pu p).ms := same
  simp only [State.updMs, State.updPu, State.updBay, atBay]

/-- Noting it changes nothing else of the pickup, its bay and the LIVE values. -/
@[simp] theorem State.noteFollow_keeps (s : State) (b : BayId) (p : Pu) :
    (s.noteFollow b p).pu b p = { s.pu b p with ms := { (s.pu b p).ms with followSlot := (s.pu b p).ms.clock / 80 } }
      ∧ (∀ q, ((s.noteFollow b p).bay b).sled q = (s.bay b).sled q) ∧ ((s.noteFollow b p).bay b).ref = (s.bay b).ref
      ∧ ((s.noteFollow b p).bay b).radA = (s.bay b).radA ∧ ((s.noteFollow b p).bay b).radB = (s.bay b).radB
      ∧ ∀ f, (s.noteFollow b p).liveN f = s.liveN f := by
  refine ⟨by simp [State.noteFollow], fun q => by simp [State.noteFollow, State.updMs], ?_, ?_, ?_, fun f => rfl⟩ <;>
    cases p <;> simp [State.noteFollow, State.updMs, State.updPu, Bay.setPu]

/-! ### The commands -/

section
variable {s : State} {b : BayId} (inPart : s.bayExists b = true)
include inPart

/-- At its period both generators step; a sled on an enabled bridge is not energized anew (R214, R222). -/
theorem exec_sledCoarseStep_steps (port : s.mportUp b = true) (active : (s.bay b).mlink.st = .active)
    (alive : s.unitDead b .motor = false) (due : 8 * (s.bay b).sledA.step ≤ (s.bay b).mlink.frames / 2)
    (enabled : ∀ p : Pu, ((s.bay b).sled p).enabled = true) :
    exec (.sledCoarseStep b) s = .next (((s.sledStep b .A).sledStep b .B).after b) := by
  have enabledB : (((s.sledStep b .A).bay b).sled .B).enabled = true := by
    rw [State.sledStep_twin _ _ (by decide), enabled]
  show execSledCoarseStep b s = _
  unfold execSledCoarseStep
  rw [withBay_run inPart]
  simp [port, active, alive, due, enabled, enabledB]

section
variable {p : Pu} (follow : (s.pu b p).ms.st = .follow) (alive : s.unitDead b (.pickup p) = false)
  (due : (s.pu b p).ms.followSlot < (s.pu b p).ms.clock / 80)
include follow alive due

/-- Every 80 ticks of a pickup whose mean displacement is within the limit, its sled takes its follow target and no more. -/
theorem exec_sledFollowUpdate_follows (within : (s.pu b p).ms.dispMean.natAbs ≤ s.liveN .loopSledLimitUm * 65536) :
    exec (.sledFollowUpdate b p) s = .next (((s.noteFollow b p).followTarget b p).after b) := by
  show execSledFollowUpdate b p s = _
  unfold execSledFollowUpdate
  rw [withBay_run inPart]
  have noted : s.updMs b p (fun m => { m with followSlot := (s.pu b p).ms.clock / 80 }) = s.noteFollow b p := State.updMs_congr rfl
  simp [follow, PState.follows, alive, Nat.not_le.2 due, within, noted]

/-- Beyond the limit for the first time, with nothing read or written, the pickup recovers as well (R162). -/
theorem exec_sledFollowUpdate_recovers (first : (s.pu b p).ms.limitHit = false)
    (beyond : s.liveN .loopSledLimitUm * 65536 < (s.pu b p).ms.dispMean.natAbs) (noRead : (s.pu b p).cur = none)
    (noBlock : (s.pu b p).write.block = none) :
    exec (.sledFollowUpdate b p) s = .next
      (((((s.noteFollow b p).followTarget b p).raisePu b p 4 .loopActuatorLimit).enterRecover b p .ordinary).after b) := by
  show execSledFollowUpdate b p s = _
  unfold execSledFollowUpdate
  rw [withBay_run inPart]
  have noted : s.updMs b p (fun m => { m with followSlot := (s.pu b p).ms.clock / 80 }) = s.noteFollow b p := State.updMs_congr rfl
  simp [follow, PState.follows, alive, Nat.not_le.2 due, Nat.not_le.2 beyond, first, noRead, noBlock, noted]

end

end

/-- Settles O20: a coarse step of both sleds, a follow target by displacement or by steer, and a displacement beyond the limit. -/
theorem sledsFollowPickups : Obligations.SledsFollowPickups := by
  intro s b inPart
  refine ⟨fun port active alive due stand => ?_, fun p r0 follow alive due known within => ⟨fun free beyond => ?_,
    fun r steered reference => ?_⟩, fun p follow alive first due beyond noRead noBlock left => ?_⟩
  · have enabled : ∀ p : Pu, ((s.bay b).sled p).enabled = true := fun p =>
      let ⟨_, _, enabled⟩ := stand p
      enabled
    refine ⟨_, exec_sledCoarseStep_steps inPart port active alive due enabled, fun p => ?_⟩
    simpa using State.sledSteps_standing stand p
  · rw [exec_sledFollowUpdate_follows inPart follow alive due within,
      State.followTarget_displaced (r0 := r0) (by simpa using known) (by simpa using free) (by simpa using beyond)]
    simp only [State.noteFollow_keeps]
    rfl
  · rw [exec_sledFollowUpdate_follows inPart follow alive due within,
      State.followTarget_steered (r0 := r0) (by simpa using known) (by simpa using steered) (by simpa using reference)]
    rfl
  · refine ⟨_, exec_sledFollowUpdate_recovers inPart follow alive due first beyond noRead noBlock, ?_⟩
    rw [State.after_pu]
    exact State.enterRecover_follow .ordinary (by simpa using follow) (by simpa using left)

end Sys2Proof.Machine
end

section
/-! Banks, tunes and the velocity reference (O21). -/

namespace Sys2Proof.Machine

/-! ### The loop that a tune runs on (R173) -/

@[simp] theorem Pickup.updLoop_loop (u : Pickup) (lp : LoopSel) (g : Loop → Loop) : (u.updLoop lp g).loop lp = g (u.loop lp) := by
  cases lp <;> rfl

/-- A tune put on a loop of a pickup that tunes none is the pickup's tune. -/
theorem Pickup.updLoop_tuning {u : Pickup} {lp : LoopSel} {g : Loop → Loop} (idle : u.tuning = none) (locks : lp ≠ .tilt)
    (begun : (g (u.loop lp)).tune.isSome = true) : (u.updLoop lp g).tuning = some lp := by
  have noFocus : u.focus.tune = none := by
    cases tunes : u.focus.tune with
    | none => rfl
    | some q => simp [Pickup.tuning, tunes] at idle
  cases lp with
  | focus => exact if_pos begun
  | track =>
    have begun : (g u.track).tune.isSome = true := begun
    simp [Pickup.tuning, Pickup.updLoop, noFocus, begun]
  | tilt => exact absurd rfl locks

/-- A tune abandoned is gone, its loop on the bank it had (R172). -/
theorem State.abandonTune_loop {s : State} {b : BayId} {p : Pu} {lp : LoopSel} (tunes : (s.pu b p).tuning = some lp) :
    ((s.abandonTune b p).pu b p).loop lp = { (s.pu b p).loop lp with tune := none, fresh := true } := by
  simp [State.abandonTune, tunes]

/-- The judgement of a tune, whichever it is, begins no other and leaves the following bank (R174, R175). -/
theorem State.tuneJudge_loop (s : State) (b : BayId) (p : Pu) (lp : LoopSel) (k : Bank) (cycles : List (Nat × Nat)) :
    (((s.tuneJudge b p lp k cycles).pu b p).loop lp).tune = ((s.pu b p).loop lp).tune
      ∧ (((s.tuneJudge b p lp k cycles).pu b p).loop lp).follow = ((s.pu b p).loop lp).follow := by
  unfold State.tuneJudge
  dsimp only
  split
  · simp
  · split
    · simp
    · split <;> simp

/-! ### The velocity reference (R159) -/

/-- The new reference is not steered; the wait for its wedges begins now. -/
theorem State.setRef_bay (s : State) (b : BayId) (p : Pu) :
    ((s.setRef b p).bay b).ref = p ∧ ((s.setRef b p).bay b).refLost = s.us ∧ ((s.setRef b p).pu b p).ms.steer = false := by
  unfold State.setRef
  dsimp only
  rw [State.updBay_pu_same _ _ _ _ _ (fun y => by cases p <;> rfl), State.updBay_bay, State.updMs_pu]
  exact ⟨rfl, rfl, rfl⟩

/-- What follows a command leaves the wait for wedges of the reference. -/
@[simp] theorem State.after_refLost (s : State) (b c : BayId) : ((s.after b).bay c).refLost = (s.bay c).refLost := by
  obtain ⟨r, same⟩ := State.after_bay s b c
  rw [same]

/-! ### The commands -/

section
variable {s : State} {b : BayId} {p : Pu} (inPart : s.bayExists b = true)
include inPart

section
variable (src : BankSource) (tick : Nat) {bank : Bytes} (starts : s.coreStarts b (.pickup p) = true)
include starts

/-- A well-formed bank for the acquisition of tracking is laid beside the one in force and armed for its tick (R166, R168). -/
theorem exec_bankSwapArm_arms (good : bankGood bank = true) :
    exec (.bankSwapArm b .trackAcq p src bank tick) s = .next ((s.updPu b p (fun u => { u with track := { u.track with
      shAcq := some (bankOf bank), armed := u.track.armed ++ [⟨.acq, src, tick⟩] } })).after b) := by
  show execBankSwapArm b .trackAcq p src bank tick s = _
  unfold execBankSwapArm
  rw [withBay_run inPart]
  simp [starts, good]

/-- One that is not is refused with its event (R166). -/
theorem exec_bankSwapArm_refuses (bad : bankGood bank = false) :
    exec (.bankSwapArm b .trackAcq p src bank tick) s = .next ((s.raisePu b p 4 .loopBankReject p.idx 1 0).after b) := by
  show execBankSwapArm b .trackAcq p src bank tick s = _
  unfold execBankSwapArm
  rw [withBay_run inPart]
  simp [starts, bad]

end

/-- A tune begins on a locked loop of a bay in which none runs (R172, R173). -/
theorem exec_autoTuneStart_tunes {lp : LoopSel} (locks : lp ≠ .tilt) (may : s.tuneOk b p = true)
    (starts : s.coreStarts b (.pickup p) = true) (idleA : (s.bay b).pa.tuning = none) (idleB : (s.bay b).pb.tuning = none)
    (locked : ((s.pu b p).loop lp).locked = true) (follows : ((s.pu b p).loop lp).useFollow = true) :
    ∃ t, exec (.autoTuneStart b p lp) s = .next t ∧ (t.pu b p).tuning = some lp := by
  have idle : (s.pu b p).tuning = none := by cases p <;> assumption
  show ∃ t, execAutoTuneStart b p lp s = .next t ∧ _
  unfold execAutoTuneStart
  rw [withBay_run inPart]
  dsimp only
  rw [if_pos (by simp [locks, may, starts, idleA, idleB, locked, follows])]
  refine ⟨_, rfl, ?_⟩
  rw [State.after_pu, State.updPu_pu]
  exact Pickup.updLoop_tuning idle locks rfl

/-- A tune that may no longer run or has outlived its limit is abandoned; one with its cycles is judged (R173 to R175). Either way
it is over, and its loop keeps its following bank. -/
theorem exec_autoTuneEnd_ends {lp : LoopSel} {q : Tune} {k : Bank} (tunes : (s.pu b p).tuning = some lp)
    (tune : ((s.pu b p).loop lp).tune = some q) (bank : ((s.pu b p).loop lp).follow = some k)
    (ended : s.tuneOk b p = false ∨ s.liveN .cengTuneCycles ≤ q.cycles.length ∨ q.since + s.liveN .cengTuneMaxMs * 1000 ≤ s.us) :
    ∃ t, exec (.autoTuneEnd b p) s = .next t ∧ ((t.pu b p).loop lp).tune = none ∧ ((t.pu b p).loop lp).follow = some k := by
  have abandoned : (((s.abandonTune b p).pu b p).loop lp).tune = none ∧ (((s.abandonTune b p).pu b p).loop lp).follow = some k := by
    rw [State.abandonTune_loop tunes]
    exact ⟨rfl, bank⟩
  show ∃ t, execAutoTuneEnd b p s = .next t ∧ _
  unfold execAutoTuneEnd
  rw [withBay_run inPart]
  simp only [tunes, tune, bank]
  refine ⟨_, rfl, ?_⟩
  rw [State.after_pu]
  split
  · exact abandoned
  next may =>
    split
    · obtain ⟨noTune, kept⟩ := State.tuneJudge_loop
        (s.updPu b p (fun u => u.updLoop lp (fun x => { x with tune := none, fresh := true }))) b p lp k q.cycles
      rw [noTune, kept]
      simpa using bank
    next few =>
      have outlived : q.since + s.liveN .cengTuneMaxMs * 1000 ≤ s.us := by
        rcases ended with lapsed | cycles | late
        · exact absurd lapsed (by simpa using may)
        · exact absurd cycles few
        · exact late
      rw [if_pos outlived]
      exact abandoned

/-- A tuned bank that has survived its window is recorded (R175). -/
theorem exec_tuneRevertWindowEnd_records {lp : LoopSel} {n : Nat} (locks : lp ≠ .tilt) (age : ((s.pu b p).loop lp).swapAge = some n)
    (tuned : ((s.pu b p).loop lp).swapSrc = .tune) (survived : s.liveN .cengSupRevertTicks ≤ n) :
    ∃ t, exec (.tuneRevertWindowEnd b p lp) s = .next t ∧ ((t.pu b p).loop lp).swapAge = none ∧ (t.pu b p).cal.recDue ≠ none := by
  show ∃ t, execTuneRevertWindowEnd b p lp s = .next t ∧ _
  unfold execTuneRevertWindowEnd
  rw [withBay_run inPart]
  simp only [age]
  rw [if_pos (by simp [locks, tuned, survived])]
  refine ⟨_, rfl, ?_⟩
  rw [State.after_pu, State.raisePu_pu, State.updPu_pu]
  cases lp <;> simp [Pickup.loop, Pickup.updLoop]

/-- A reference without a wedge for too long gives way to the other pickup where that is locked (R159). -/
theorem exec_clvRefSwitch_switches (lost : (s.bay b).refLost + s.liveN .loopClvSwitchWedges * frameUs (s.bay b).zone ≤ s.us)
    (locked : s.locked b (s.bay b).ref.other = true) :
    exec (.clvRefSwitch b) s = .next (((s.setRef b (s.bay b).ref.other).raiseBay b 17 .loopClvRefSwitch).after b) := by
  show execClvRefSwitch b s = _
  unfold execClvRefSwitch
  rw [withBay_run inPart]
  dsimp only
  rw [if_neg (Nat.not_lt.2 lost), if_pos locked]

/-- The configured reference, locked again, takes its place while neither pickup writes (R159). -/
theorem exec_clvRefRestore_restores (away : (s.bay b).ref ≠ s.configuredRef b) (locked : s.locked b (s.configuredRef b) = true)
    (idleA : (s.bay b).pa.write.block = none) (idleB : (s.bay b).pb.write.block = none) :
    exec (.clvRefRestore b) s = .next ((s.setRef b (s.configuredRef b)).after b) := by
  show execClvRefRestore b s = _
  unfold execClvRefRestore
  rw [withBay_run inPart]
  simp [away, locked, idleA, idleB]

end

/-- Settles O21: a bank by whether it is well-formed, a tune by its start and its end, the reference by where it moves. -/
theorem banksAndTuning : Obligations.BanksAndTuning := by
  intro s b p inPart
  refine ⟨fun src bank tick starts => ⟨fun good => ?_, fun bad => ?_⟩,
    fun lp locks may starts idleA idleB locked follows => ?_, fun lp q k tunes tune bank ended => ?_,
    fun lp n locks age tuned survived => ?_, fun lost locked => ?_, fun away locked idleA idleB => ?_⟩
  · exact ⟨_, exec_bankSwapArm_arms inPart src tick starts good, by simp⟩
  · exact ⟨_, exec_bankSwapArm_refuses inPart src tick starts bad, by simp⟩
  · exact exec_autoTuneStart_tunes inPart locks may starts idleA idleB locked follows
  · exact exec_autoTuneEnd_ends inPart tunes tune bank ended
  · exact exec_tuneRevertWindowEnd_records inPart locks age tuned survived
  · refine ⟨_, exec_clvRefSwitch_switches inPart lost locked, ?_⟩
    simpa using State.setRef_bay s b (s.bay b).ref.other
  · refine ⟨_, exec_clvRefRestore_restores inPart away locked idleA idleB, ?_⟩
    obtain ⟨ref, since, -⟩ := State.setRef_bay s b (s.configuredRef b)
    exact ⟨by simpa using ref, by simpa using since⟩

end Sys2Proof.Machine
end

section
/-! A spindle that runs (O33): the end of `SYNC`, readiness, samples of the speed loop, and the catches that begin from rest or `RUN`. -/

namespace Sys2Proof.Machine

/-! ### The states entered (Table 09-5) -/

@[simp] theorem State.updSp_spindle (s : State) (b : BayId) (g : Spindle → Spindle) :
    ((s.updSp b g).bay b).spindle = g (s.bay b).spindle := by
  simp [State.updSp]

/-- A state of the spindle entered and logged touches nothing else of its bay. -/
theorem State.spEnter_bay (s : State) (b : BayId) (st : SpSt) :
    (s.spEnter b st).bay b = { s.bay b with spindle := { (s.bay b).spindle.enter st s.us with zeroLeft := 0 } } := by
  simp [State.spEnter, State.updSp]

@[simp] theorem State.raiseBay_spin (s : State) (b : BayId) (src : Nat) (e : Ev) (p0 p1 p2 : Nat) (f : Field) :
    (s.raiseBay b src e p0 p1 p2).spin b f = s.spin b f := by
  simp [State.spin, State.bndN, State.unitCfg]

/-- From `SYNC` the target is the handover speed where a ramp came before, and the observer's speed otherwise (R201). -/
theorem State.spRun_fromSync {s : State} {b : BayId} (sync : (s.bay b).spindle.st = .sync) :
    ((s.spRun b).bay b).spindle.st = .run ∧ ((s.spRun b).bay b).spindle.target =
      if (s.bay b).spindle.handAt.isSome then rpmOf (s.spin b .spindleStartHandoverRpm) else (s.bay b).spindle.obs.rpm := by
  unfold State.spRun
  dsimp only
  split <;> simp [State.spEnter_bay, Spindle.enter, sync]

theorem State.spRecover_spindle (s : State) (b : BayId) :
    ((s.spRecover b).bay b).spindle.st = .recover ∧ ((s.spRecover b).bay b).spindle.ready = false := by
  simp [State.spRecover, State.spEnter_bay, Spindle.enter]

/-- A catch begins for its use; the bay's place and disc stay (R195). -/
theorem State.enterCatch_bay (s : State) (b : BayId) (use : CatchUse) :
    ((s.enterCatch b use).bay b).spindle.st = .catch ∧ ((s.enterCatch b use).bay b).spindle.use = use
      ∧ ((s.enterCatch b use).bay b).disc = (s.bay b).disc ∧ ((s.enterCatch b use).bay b).zone = (s.bay b).zone := by
  simp [State.enterCatch, State.spEnter_bay, Spindle.enter, Spindle.startCatch, State.updSp]

/-! ### The commands -/

section
variable {s : State} {b : BayId} (inPart : s.bayExists b = true)
include inPart

/-- A start whose checks have passed at a speed that may run goes on in `RUN` (R197, R201). -/
theorem exec_syncEnd_runs (port : s.mportUp b = true) (sync : (s.bay b).spindle.st = .sync)
    (ended : (s.bay b).spindle.syncLeft = 0) (start : (s.bay b).spindle.use = .start) (passed : (s.bay b).spindle.failRun = 0)
    (wanted : (s.bay b).spindle.stopping = false) (forward : 0 ≤ (s.bay b).spindle.obs.rpm)
    (allowed : (s.bay b).spindle.obs.rpm ≤ rpmOf (s.liveN .spindleSpeedMaxRpm)) :
    exec (.syncEnd b) s = .next ((s.spRun b).after b) := by
  show execSyncEnd b s = _
  unfold execSyncEnd
  rw [withBay_run inPart]
  simp [port, sync, ended, start, passed, wanted, Int.not_lt.2 forward, Int.not_lt.2 allowed]

/-- 10 ms within the band, the bay is ready (R203). -/
theorem exec_speedReady_ready {k : Nat} (since : (s.bay b).spindle.readyAt = some k) (runs : (s.bay b).spindle.st = .run)
    (due : k + 10000 ≤ s.us) :
    exec (.speedReady b) s = .next ((s.updSp b (fun x => { x with ready := true })).after b) := by
  show execSpeedReady b s = _
  unfold execSpeedReady
  rw [withBay_run inPart]
  simp [since, runs, due]

/-- An observer whose checks have failed for too long is lost (R201). -/
theorem exec_observerLost_recovers (port : s.mportUp b = true) (runs : (s.bay b).spindle.st = .run)
    (failed : s.liveN .spindleObsLossPeriods ≤ (s.bay b).spindle.failRun) :
    exec (.observerLost b) s = .next (((s.raiseBay b 0 .spindleObsLost).spRecover b).after b) := by
  show execObserverLost b s = _
  unfold execObserverLost
  rw [withBay_run inPart]
  simp [port, runs, failed]

/-- A sample in `RUN` is checked against the wedges and moves the speed loop (R202, R203). -/
theorem exec_speedLoopSample_run {r : State} (port : s.mportUp b = true) (active : (s.bay b).mlink.st = .active)
    (alive : s.unitDead b .motor = false) (due : 16 * (s.bay b).mlink.slot ≤ (s.bay b).mlink.frames / 2)
    (watched : r = (s.updBay b (fun y => { y with mlink := { y.mlink with slot := y.mlink.slot + 1 } })).watchSpeed b)
    (runs : (r.bay b).spindle.st = .run) :
    exec (.speedLoopSample b) s = .next (((r.crossCheck b).speedStep b).after b) := by
  show execSpeedLoopSample b s = _
  unfold execSpeedLoopSample
  rw [withBay_run inPart]
  dsimp only
  rw [if_neg (by simp [port, active, alive, due]), ← watched]
  simp only [runs]

/-- The periodic test begins a catch while neither pickup writes or reads (R195). -/
theorem exec_testCatch_catches (port : s.mportUp b = true) (runs : (s.bay b).spindle.st = .run)
    (tests : 0 < s.liveN .spindleTestIntervalS)
    (due : (s.bay b).spindle.lastTest + s.liveN .spindleTestIntervalS * 1000000 ≤ s.us) (starts : s.coreStarts b .motor = true)
    (idle : ∀ p : Pu, (s.pu b p).write.block = none ∧ (s.pu b p).cur = none ∧ (s.pu b p).reads = []) :
    exec (.testCatch b) s = .next (((s.enterCatch b .test).updSp b (fun x => { x with
      obs := (s.bay b).spindle.obs, lastTest := s.us })).after b) := by
  obtain ⟨blockA, curA, readsA⟩ := idle .A
  obtain ⟨blockB, curB, readsB⟩ := idle .B
  simp only [State.pu, Bay.pu] at blockA curA readsA blockB curB readsB
  show execTestCatch b s = _
  unfold execTestCatch
  rw [withBay_run inPart]
  simp [port, runs, tests, due, starts, blockA, curA, readsA, blockB, curB, readsB]

/-- An empty bay at rest is spun up after its interval, with both pickups toward the lead-in (R146). -/
theorem exec_bayProbe_catches (port : s.mportUp b = true) (empty : (s.bay b).disc.empty = true)
    (idle : (s.bay b).disc.probing = false) (stopped : (s.bay b).spindle.st = .stopped) (active : (s.bay b).mlink.st = .active)
    (starts : s.coreStarts b .motor = true) (due : (s.bay b).disc.probeAt + 1000000 * s.liveN .loopProbeIntervalS ≤ s.us) :
    ∃ t, exec (.bayProbe b) s = .next t ∧ (t.bay b).spindle.st = .catch ∧ (t.bay b).disc.probing = true
      ∧ (t.bay b).zone = .leadIn := by
  show ∃ t, execBayProbe b s = .next t ∧ _
  unfold execBayProbe
  rw [withBay_run inPart]
  dsimp only
  rw [if_pos (by simp [port, empty, idle, stopped, active, starts, due])]
  refine ⟨_, rfl, ?_⟩
  simp [State.enterCatch_bay]

end

/-- Settles O33: each command makes the one step of Table 09-5 it is for. -/
theorem spindleRuns : Obligations.SpindleRuns := by
  intro s b inPart port
  refine ⟨fun sync ended start passed wanted forward allowed => ?_, fun k since runs due => ?_, fun runs failed => ?_,
    fun r active alive due watched runs => ?_, fun runs tests due starts idle => ?_,
    fun empty idle stopped active starts due => ?_⟩
  · refine ⟨_, exec_syncEnd_runs inPart port sync ended start passed wanted forward allowed, ?_⟩
    simpa using State.spRun_fromSync sync
  · exact ⟨_, exec_speedReady_ready inPart since runs due, by simp⟩
  · refine ⟨_, exec_observerLost_recovers inPart port runs failed, ?_⟩
    simpa using State.spRecover_spindle (s.raiseBay b 0 .spindleObsLost) b
  · exact exec_speedLoopSample_run inPart port active alive due watched runs
  · refine ⟨_, exec_testCatch_catches inPart port runs tests due starts idle, ?_⟩
    simp [State.enterCatch_bay]
  · exact exec_bayProbe_catches inPart port empty idle stopped active starts due

end Sys2Proof.Machine
end

section
/-! Control engines (O22): checkpoints, a core that fails, the takeover of its units, and the hand-over of one unit. -/

namespace Sys2Proof.Machine

/-! ### The checkpoint state of an engine (R178) -/

/-- An engine's checkpoint state carries its own place. -/
theorem State.engCk_place (s : State) (r e : Nat) : (s.engCk r e).region = r ∧ (s.engCk r e).engine = e := by
  unfold State.engCk
  cases found : s.blk.engines.find? (fun c => c.region == r && c.engine == e) with
  | none => exact ⟨rfl, rfl⟩
  | some c => simpa using List.find?_some found

/-- A checkpoint state that has been set reads as set at its place. -/
theorem State.setEngCk_engCk {c : EngCk} {r e : Nat} (place : c.region = r ∧ c.engine = e) (s : State) :
    (s.setEngCk c).engCk r e = c := by
  simp [State.setEngCk, State.engCk, place]

@[simp] theorem State.setEngCk_moved (s : State) (c : EngCk) : (s.setEngCk c).blk.moved = s.blk.moved := rfl

@[simp] theorem State.setEngCk_takeovers (s : State) (c : EngCk) : (s.setEngCk c).blk.takeovers = s.blk.takeovers := rfl

/-! ### A core that fails stays out of service (R177, R179) -/

@[simp] theorem State.commandStop_blks (s : State) (b : BayId) : (s.commandStop b).blk.blks = s.blk.blks := by
  unfold State.commandStop
  dsimp only
  split <;> simp

/-- A unit that stops for good leaves the records of the blocks (R177). -/
@[simp] theorem State.killUnit_blkOf (s : State) (b : BayId) (u : UnitSel) (id : BlockId) :
    (s.killUnit b u).blkOf id = s.blkOf id := by
  apply State.blkOf_congr
  cases u <;> simp [State.killUnit]

theorem State.killUnits_blkOf (l : List (BayId × UnitSel)) (s : State) (id : BlockId) :
    (l.foldl (fun s x => s.killUnit x.1 x.2) s).blkOf id = s.blkOf id := by
  induction l generalizing s with
  | nil => rfl
  | cons x l ih => rw [List.foldl_cons, ih, State.killUnit_blkOf]

/-- A core that fails stays out of service while its spare is called, or its units stop (R177, R179). -/
theorem State.engineFaulty_down (s : State) (r e code : Nat) : ((s.engineFaulty r e code).blkOf ⟨5, r, e⟩).up = false := by
  unfold State.engineFaulty
  extract_lets raised own units cancelled fenced
  have down : (fenced.blkOf ⟨5, r, e⟩).up = false := State.fence_up ..
  have called : ((if e < 6 && own.isEmpty then fenced.claimSpare ⟨5, r, e⟩ else (none, fenced.degrade r)).2.blkOf ⟨5, r, e⟩).up
      = false := by
    split
    · exact State.claimSpare_keeps_down down _
    · rwa [State.degrade_blkOf]
  split
  next got left claimed =>
    rw [claimed] at called
    cases got with
    | some j => exact called
    | none =>
      dsimp only
      split
      · exact called
      · rwa [State.killUnits_blkOf, State.regionEvent_blkOf]

/-! ### The commands of a region's engines -/

section
variable {s : State} {r : RegionId} (inPart : (r.val < 2 || s.trust.shadow.part == .YX3216) = true)
include inPart

/-- A core that runs writes the record whose turn it is once 100 µs have passed (R178). -/
theorem exec_cengCheckpoint_writes {e : Fin 7} (running : s.coresHeld = false) (up : (s.blkOf ⟨5, r.val, e.val⟩).up = true)
    (due : (s.engCk r.val e.val).at' + 100 ≤ s.us) :
    ∃ t, exec (.cengCheckpoint r e) s = .next t ∧ t.engCk r.val e.val =
      (let c := s.engCk r.val e.val
       let record := s.ckRecord r.val e.val (c.seq + 1) (s.evQueue r.val e.val).recs
       { c with seq := c.seq + 1, at' := s.us, recA := if c.seq % 2 = 0 then record else c.recA
                recB := if c.seq % 2 = 0 then c.recB else record }) := by
  show ∃ t, execCengCheckpoint r e s = .next t ∧ _
  unfold execCengCheckpoint
  rw [withRegion_run inPart]
  dsimp only
  rw [if_neg (by simp [running, up, due])]
  refine ⟨_, rfl, State.setEngCk_engCk ?_ s⟩
  exact s.engCk_place r.val e.val

/-- A working core that fails is faulty with its cause (R179). -/
theorem exec_cengCoreFault_faulty {e : Fin 7} (cause : FaultCause) (running : s.sysHeld = false)
    (up : (s.blkOf ⟨5, r.val, e.val⟩).up = true) :
    ∃ code, exec (.cengCoreFault r e cause) s = .next (s.engineFaulty r.val e.val code) := by
  show ∃ code, execCengCoreFault r e cause s = _
  unfold execCengCoreFault
  rw [withRegion_run inPart]
  dsimp only
  rw [if_neg (by simp [running, up])]
  exact ⟨_, rfl⟩

/-- The takeover ends with every unit of the engine on the spare (R179). -/
theorem exec_cengTakeoverDone_moves {x : Takeover}
    (first : s.blk.takeovers.find? (fun x => x.region == r.val && x.kind == 5 && x.inst < 6) = some x) :
    ∃ t, exec (.cengTakeoverDone r) s = .next t
      ∧ t.blk.moved = engineUnits r.val x.inst ++ s.blk.moved.filter (fun u => !(engineUnits r.val x.inst).contains u)
      ∧ t.blk.takeovers = s.blk.takeovers.filter (fun y => !(y.region == r.val && y.kind == 5 && y.inst == x.inst)) := by
  show ∃ t, execCengTakeoverDone r s = .next t ∧ _
  unfold execCengTakeoverDone
  rw [withRegion_run inPart]
  simp only [first]
  exact ⟨_, rfl, by simp⟩

end

/-- A hand-over ends once the spare unit has computed its first tick (R176). -/
theorem exec_unitHandoverDone_ends {s : State} {b : BayId} {u : UnitSel} (inPart : s.bayExists b = true)
    (waits : s.blk.takeovers.any (fun x => x.region == regionOf b && x.kind == 5 && x.inst == handoverNo b u) = true) :
    ∃ t, exec (.unitHandoverDone b u) s = .next t ∧ t.blk.takeovers =
      s.blk.takeovers.filter (fun y => !(y.region == regionOf b && y.kind == 5 && y.inst == handoverNo b u)) := by
  show ∃ t, execUnitHandoverDone b u s = .next t ∧ _
  unfold execUnitHandoverDone
  rw [withBay_run inPart]
  dsimp only
  rw [if_pos waits]
  exact ⟨_, rfl, by simp⟩

/-- What the end of a takeover leaves of the list holds no takeover at its place. -/
theorem not_mem_endedTakeovers {l : List Takeover} {r k i : Nat} {y : Takeover}
    (left : y ∈ l.filter (fun y => !(y.region == r && y.kind == k && y.inst == i))) :
    ¬ (y.region = r ∧ y.kind = k ∧ y.inst = i) := by
  rintro ⟨rfl, rfl, rfl⟩
  simp at left

/-- Settles O22: a checkpoint goes to the record whose turn it is, a core that fails is fenced and no claim of a spare brings it back, and
the end of a takeover or of a hand-over takes it off the list. -/
theorem controlEnginesTakeOver : Obligations.ControlEnginesTakeOver := by
  intro s r part
  have inPart : (r.val < 2 || s.trust.shadow.part == .YX3216) = true := by simpa using part
  refine ⟨fun e running up due => ?_, fun e cause running up => ?_, fun x first => ?_, fun b u bay waits => ?_⟩
  · obtain ⟨t, run, written⟩ := exec_cengCheckpoint_writes inPart running up due
    refine ⟨t, run, ?_⟩
    rw [written]
    dsimp only
    split <;> exact ⟨rfl, rfl, rfl, rfl⟩
  · obtain ⟨code, run⟩ := exec_cengCoreFault_faulty inPart cause running up
    exact ⟨_, run, State.engineFaulty_down ..⟩
  · obtain ⟨t, run, moved, left⟩ := exec_cengTakeoverDone_moves inPart first
    refine ⟨t, run, fun u own => ?_, fun y mem => ?_⟩
    · rw [moved]
      exact List.mem_append_left _ own
    · rw [left] at mem
      exact not_mem_endedTakeovers mem
  · obtain ⟨t, run, left⟩ := exec_unitHandoverDone_ends bay waits
    refine ⟨t, run, fun y mem => ?_⟩
    rw [left] at mem
    exact not_mem_endedTakeovers mem

end Sys2Proof.Machine
end

section
/-! The motor unit of a bay: pickups that go off leave it as it is, and what each state entered sets (Table 09-5). -/

namespace Sys2Proof.Machine

/-! ### What goes with both pickups in `OFF` (R193) -/

/-- A pickup that goes off leaves the motor unit as it is. -/
@[simp] theorem State.puOff_spindle (s : State) (b : BayId) (p : Pu) : ((s.puOff b p).bay b).spindle = (s.bay b).spindle := by
  have left : (((s.dropFrameLock b p).leaveService b p).bay b).spindle = (s.bay b).spindle := by
    obtain ⟨-, spindle, -⟩ := State.core_parts (s := s) (t := (s.dropFrameLock b p).leaveService b p) (c := b) (by simp)
    exact spindle
  simp [State.puOff, State.enter, State.updMs, State.updPu, left]

@[simp] theorem State.dropRelocs_spindle (s : State) (b : BayId) : ((s.dropRelocs b).bay b).spindle = (s.bay b).spindle := by
  obtain ⟨-, spindle, -⟩ := State.core_parts (State.dropRelocs_core s b b)
  exact spindle

@[simp] theorem State.dropRelocs_ms (s : State) (b : BayId) (q : Pu) : ((s.dropRelocs b).pu b q).ms = (s.pu b q).ms := by
  obtain ⟨ms, -⟩ := State.core_pu (State.dropRelocs_core s b b) q
  exact ms

theorem State.bothOff_st (s : State) (b : BayId) (q : Pu) : (((s.puOff b .A).puOff b .B).pu b q).ms.st = .off := by
  cases q with
  | A => rw [State.puOff_twin _ _ _ _ (by decide), State.puOff_st]
  | B => rw [State.puOff_st]

@[simp] theorem State.updSp_pu (s : State) (b : BayId) (g : Spindle → Spindle) (q : Pu) : (s.updSp b g).pu b q = s.pu b q :=
  State.updBay_pu_same s b b q _ (fun y => by cases q <;> rfl)

@[simp] theorem State.spEnter_pu (s : State) (b : BayId) (st : SpSt) (q : Pu) : (s.spEnter b st).pu b q = s.pu b q := by
  simp [State.spEnter]

/-! ### The states entered (Table 09-5) -/

@[simp] theorem State.updSp_mlink (s : State) (b : BayId) (g : Spindle → Spindle) : ((s.updSp b g).bay b).mlink = (s.bay b).mlink := by
  simp [State.updSp]

@[simp] theorem State.updSp_liveN (s : State) (b : BayId) (g : Spindle → Spindle) (f : Field) : (s.updSp b g).liveN f = s.liveN f := rfl

@[simp] theorem State.updBay_spin (s : State) (b : BayId) (g : Bay → Bay) (f : Field) : (s.updBay b g).spin b f = s.spin b f := rfl

@[simp] theorem State.updSp_spin (s : State) (b : BayId) (g : Spindle → Spindle) (f : Field) : (s.updSp b g).spin b f = s.spin b f := rfl

@[simp] theorem State.raiseBay_liveN (s : State) (b : BayId) (src : Nat) (e : Ev) (p0 p1 p2 : Nat) (f : Field) :
    (s.raiseBay b src e p0 p1 p2).liveN f = s.liveN f := by
  simp [State.liveN]

/-- In `FAULT` the tries of a start stay counted (R198). -/
theorem State.spFault_spindle (s : State) (b : BayId) :
    ((s.spFault b).bay b).spindle.st = .fault ∧ ((s.spFault b).bay b).spindle.startTries = (s.bay b).spindle.startTries := by
  simp [State.spFault, State.spEnter_bay, Spindle.enter, Spindle.floats]

/-- `FAULT` is entered with both pickups off (R193). -/
theorem State.spFault_off (s : State) (b : BayId) (p : Pu) : ((s.spFault b).pu b p).ms.st = .off := by
  simp [State.spFault, State.bothOff_st]

theorem State.spRecover_mlink (s : State) (b : BayId) : ((s.spRecover b).bay b).mlink = (s.bay b).mlink := by
  simp [State.spRecover, State.spEnter_bay]

theorem State.spWait_spindle (s : State) (b : BayId) (ms : Nat) :
    ((s.spWait b ms).bay b).spindle.st = .startWait
      ∧ ((s.spWait b ms).bay b).spindle.startTries = (s.bay b).spindle.startTries := by
  simp [State.spWait, State.spEnter_bay, Spindle.enter]

theorem State.spDecel_spindle (s : State) (b : BayId) (goal : Int) :
    ((s.spDecel b goal).bay b).spindle.st = .decel ∧ ((s.spDecel b goal).bay b).spindle.goal = goal
      ∧ ((s.spDecel b goal).bay b).spindle.overRaised = (s.bay b).spindle.overRaised := by
  simp [State.spDecel, State.spEnter_bay, Spindle.enter]

/-- `SYNC` begins with all its periods to come, for the use of the catch or ramp before it. -/
theorem State.spSync_spindle (s : State) (b : BayId) (idRef iq : Int) :
    ((s.spSync b idRef iq).bay b).spindle.st = .sync
      ∧ ((s.spSync b idRef iq).bay b).spindle.use = (s.bay b).spindle.use
      ∧ ((s.spSync b idRef iq).bay b).spindle.syncLeft = s.spin b .spindleSyncPeriods := by
  simp [State.spSync, State.spEnter_bay, Spindle.enter]

/-- A catch begins with the drive floating; the tries of a start stay counted (R195). -/
theorem State.enterCatch_spindle (s : State) (b : BayId) (use : CatchUse) :
    ((s.enterCatch b use).bay b).spindle.drive = .floating
      ∧ ((s.enterCatch b use).bay b).spindle.startTries = (s.bay b).spindle.startTries := by
  simp [State.enterCatch, State.spEnter_bay, Spindle.enter, Spindle.startCatch]

/-- A try that fails counts; the spindle waits, or is in `FAULT` after the last one (R198). -/
theorem State.tryFails_spindle (s : State) (b : BayId) :
    ((s.tryFails b).bay b).spindle.startTries = (s.bay b).spindle.startTries + 1
      ∧ ((s.tryFails b).bay b).spindle.st =
        if s.liveN .spindleStartMaxTries ≤ (s.bay b).spindle.startTries + 1 then .fault else .startWait := by
  unfold State.tryFails
  dsimp only
  simp only [State.updSp_liveN, State.raiseBay_liveN]
  split
  · simp [State.spFault_spindle]
  · simp [State.spWait_spindle]

/-- What a commanded stop makes of the motor unit depends on the motor unit alone (R204). -/
theorem State.commandStop_spindle (s : State) (b : BayId) :
    ∃ now, ((s.commandStop b).bay b).spindle = (s.bay b).spindle.commanded now := by
  refine ⟨(((s.puOff b .A).puOff b .B).dropRelocs b).us, ?_⟩
  unfold State.commandStop
  dsimp only
  split <;> simp

/-- Stopped in `RUN` or already in `DECEL`, the spindle decelerates to standstill; what ends in `FAULT` still does (R204, R205). -/
theorem Spindle.commanded_decel {x : Spindle} (driven : x.st = .run ∨ x.st = .decel) (now : Nat) :
    (x.commanded now).st = .decel ∧ (x.commanded now).goal = 0 ∧ (x.commanded now).stopping = true
      ∧ (x.commanded now).endFault = x.endFault := by
  rcases driven with st | st <;> simp [Spindle.commanded, st]

theorem State.commandStop_decel {s : State} {b : BayId}
    (driven : (s.bay b).spindle.st = .run ∨ (s.bay b).spindle.st = .decel) :
    ((s.commandStop b).bay b).spindle.st = .decel ∧ ((s.commandStop b).bay b).spindle.goal = 0
      ∧ ((s.commandStop b).bay b).spindle.stopping = true
      ∧ ((s.commandStop b).bay b).spindle.endFault = (s.bay b).spindle.endFault := by
  obtain ⟨now, stopped⟩ := State.commandStop_spindle s b
  rw [stopped]
  exact Spindle.commanded_decel driven now

end Sys2Proof.Machine
end

section
/-! The motor link (O31): its training, its loss, and `SENSE` frames in order. -/

namespace Sys2Proof.Machine

/-! ### The motor link's training (R186) -/

/-- A training attempt begins in `DS_TRAIN`; the attempts before it and the motor unit stay as they are. -/
theorem State.mlinkTrain_bay (s : State) (b : BayId) :
    ((s.mlinkTrain b).bay b).mlink.st = .dsTrain ∧ ((s.mlinkTrain b).bay b).mlink.attempts = (s.bay b).mlink.attempts
      ∧ ((s.mlinkTrain b).bay b).spindle = (s.bay b).spindle := by
  simp [State.mlinkTrain, State.sendDrive]

/-- An attempt that fails counts; the next begins, or the link is `FAILED` after the last one. -/
theorem State.mlinkFails_mlink (s : State) (b : BayId) :
    ((s.mlinkFails b).bay b).mlink.attempts = (s.bay b).mlink.attempts + 1
      ∧ ((s.mlinkFails b).bay b).mlink.st =
        if s.spin b .mlinkTrainMaxAttempts ≤ (s.bay b).mlink.attempts + 1 then .failed else .dsTrain := by
  unfold State.mlinkFails
  dsimp only
  rw [State.updBay_spin]
  split
  · simp
  · simp [State.mlinkTrain_bay]

/-! ### Frames received (R419) -/

/-- The injections on a frame change no bay and no block. -/
theorem State.injectFrame_keeps {s s' : State} {target : Nat × Nat × Nat} {raw : Bytes} {fs : List Bytes}
    (injected : s.injectFrame target raw = (fs, s')) : (∀ c : BayId, s'.bay c = s.bay c) ∧ s'.blk = s.blk := by
  have kept : (∀ c : BayId, (s.injectFrame target raw).2.bay c = s.bay c) ∧ (s.injectFrame target raw).2.blk = s.blk := by simp
  rwa [injected] at kept

/-! ### The commands -/

section
variable {s : State} {b : BayId} (inPart : s.bayExists b = true) (port : s.mportUp b = true)
include inPart port

/-- A good `TRAIN` frame in `DS_TRAIN` begins `UP_TRAIN`, with the identity it carries (R186). -/
theorem exec_mlinkTrainFrame_good {raw f0 : Bytes} {s' : State} (st : (s.bay b).mlink.st = .dsTrain)
    (injected : s.injectFrame (1, b.val, 1) raw = ([f0], s')) (good : mfrGood (scramble f0) = true)
    (type : frType (scramble f0) = 15) (word : beAt (scramble f0) 4 8 = 0x4A4D4C54524E3031) :
    exec (.mlinkTrainFrame b raw) s = .next ((s'.updBay b (fun y => { y with mlink := { y.mlink with
      st := .upTrain, since := s'.us, good := 1, ident := some (slice (scramble f0) 16 256) } })).after b) := by
  obtain ⟨bay', -⟩ := State.injectFrame_keeps injected
  show execMlinkTrainFrame b raw s = _
  unfold execMlinkTrainFrame
  rw [withBay_run inPart]
  simp [port, st, injected, bay', good, type, word]

/-- 2 ms in `DS_TRAIN` are a failed attempt (Table 02-8). -/
theorem exec_mlinkTrainTimeout_fails (st : (s.bay b).mlink.st = .dsTrain) (due : (s.bay b).mlink.since + 2000 ≤ s.us) :
    exec (.mlinkTrainTimeout b) s = .next ((s.mlinkFails b).after b) := by
  show execMlinkTrainTimeout b s = _
  unfold execMlinkTrainTimeout
  rw [withBay_run inPart]
  simp [port, st, due]

/-- A failed link that may try again does so after its interval, its attempts counted anew (R186). -/
theorem exec_mlinkTrainRetry_trains (st : (s.bay b).mlink.st = .failed) (may : (s.bay b).mlink.noRetry = false)
    (due : (s.bay b).mlink.since + 1000000 * s.liveN .mlinkTrainRetryIntervalS ≤ s.us) :
    exec (.mlinkTrainRetry b) s = .next (((s.updBay b (fun y => { y with mlink := { y.mlink with attempts := 0 } })).mlinkTrain
      b).after b) := by
  show execMlinkTrainRetry b s = _
  unfold execMlinkTrainRetry
  rw [withBay_run inPart]
  simp [port, st, may, due]

/-- 96 failed frames lose the link; a spindle in `RUN` recovers with its drive floating (R188). -/
theorem exec_mlinkLost_recovers (active : (s.bay b).mlink.st = .active) (failed : 96 ≤ (s.bay b).mlink.badRun)
    (runs : (s.bay b).spindle.st = .run) :
    exec (.mlinkLost b) s = .next (((((s.raiseBay b 1 .mlinkLost).mlinkTrain b).spRecover b).updSp b
      (fun x => { x with zeroLeft := 0, drive := .floating })).after b) := by
  obtain ⟨-, -, spindle⟩ := State.mlinkTrain_bay (s.raiseBay b 1 .mlinkLost) b
  show execMlinkLost b s = _
  unfold execMlinkLost
  rw [withBay_run inPart]
  simp [port, active, failed, spindle, runs]

/-- An `IDLE` or `SENSE` frame in order is taken with its number, without a frame error; a `SENSE` frame goes to a working motor
unit (R183, R190). -/
theorem exec_mlinkSenseFrame_inOrder {raw f0 : Bytes} {s' r : State} (upset : Bool) (active : (s.bay b).mlink.st = .active)
    (injected : s.injectFrame (1, b.val, 1) raw = ([f0], s')) (good : mfrGood (scramble f0) = true)
    (next : (s.bay b).mlink.seq = some (frSeq (scramble f0))) (known : frType (scramble f0) = 0 ∨ frType (scramble f0) = 1)
    (taken : r = s'.updBay b (fun y => { y with mlink := { y.mlink with seq := some ((frSeq (scramble f0) + 1) % 65536) } })) :
    exec (.mlinkSenseFrame b raw upset) s = .next ((if frType (scramble f0) != 1 || s.unitDead b .motor then r
      else if upset then (r.senseFrame b (scramble f0) upset).unitMismatch b .motor
      else r.senseFrame b (scramble f0) upset).after b) := by
  obtain ⟨bay', blk'⟩ := State.injectFrame_keeps injected
  have gap : ((s'.bay b).mlink.seq != some (frSeq (scramble f0)) ||
      (frType (scramble f0) != 0 && frType (scramble f0) != 1 && frType (scramble f0) != 15)) = false := by
    rcases known with type | type <;> simp [bay', next, type]
  have dead : r.unitDead b .motor = s.unitDead b .motor := by
    simp [taken, State.unitDead, blk']
  show execMlinkSenseFrame b raw upset s = _
  unfold execMlinkSenseFrame
  rw [withBay_run inPart, if_pos (by simp [port, active]), injected, ← dead, taken]
  simp only [List.foldl_cons, List.foldl_nil, good, gap, Bool.not_true, Bool.false_eq_true, if_false, Bool.toNat_false, Nat.add_zero]

end

/-- Settles O31: each command makes the one step of training it is for, a lost link recovers the spindle, a frame in order is taken. -/
theorem motorLinkTrains : Obligations.MotorLinkTrains := by
  intro s b inPart port
  refine ⟨fun raw f0 s' st injected good type word => ?_, fun st due => ?_, fun st may due => ?_, fun active failed runs => ?_,
    fun raw f0 s' active injected good next => ⟨fun idle upset => ?_, fun sense alive => ?_⟩⟩
  · exact ⟨_, exec_mlinkTrainFrame_good inPart port st injected good type word, by simp⟩
  · refine ⟨_, exec_mlinkTrainTimeout_fails inPart port st due, ?_⟩
    simpa using State.mlinkFails_mlink s b
  · refine ⟨_, exec_mlinkTrainRetry_trains inPart port st may due, ?_⟩
    simp [State.mlinkTrain_bay]
  · refine ⟨_, exec_mlinkLost_recovers inPart port active failed runs, ?_⟩
    simp [State.spRecover_spindle, State.spRecover_mlink, State.mlinkTrain_bay]
  · obtain ⟨bay', -⟩ := State.injectFrame_keeps injected
    refine ⟨_, exec_mlinkSenseFrame_inOrder inPart port upset active injected good next (.inl idle) rfl, ?_⟩
    simp [idle, bay']
  · rw [exec_mlinkSenseFrame_inOrder inPart port false active injected good next (.inr sense) rfl]
    simp [sense, alive]

end Sys2Proof.Machine
end

section
/-! Starts of the spindle (O32): the catch, the wait, the alignment, the ramp and its handover, and a try that fails. -/

namespace Sys2Proof.Machine

/-! ### The commands -/

section
variable {s : State} {b : BayId} (inPart : s.bayExists b = true) (port : s.mportUp b = true)
include inPart port

/-- A start from `STOPPED` begins a catch (R192). -/
theorem exec_spindleStart_catches (active : (s.bay b).mlink.st = .active) (starts : s.coreStarts b .motor = true)
    (stopped : (s.bay b).spindle.st = .stopped) : exec (.spindleStart b) s = .next ((s.enterCatch b .start).after b) := by
  show execSpindleStart b s = _
  unfold execSpindleStart
  rw [withBay_run inPart]
  simp [port, active, starts, stopped]

/-- A start in `SAFE_HOLD` is kept pending (R194). -/
theorem exec_spindleStart_waits (active : (s.bay b).mlink.st = .active) (starts : s.coreStarts b .motor = true)
    (held : (s.bay b).spindle.st = .safeHold) :
    exec (.spindleStart b) s = .next ((s.updSp b (fun x => { x with pendStart := true })).after b) := by
  show execSpindleStart b s = _
  unfold execSpindleStart
  rw [withBay_run inPart]
  simp [port, active, starts, held]

/-- A spindle in `FAULT` that may try again begins a catch after its interval, its tries counted anew (R192). -/
theorem exec_spindleFaultRetry_catches (active : (s.bay b).mlink.st = .active) (starts : s.coreStarts b .motor = true)
    (fault : (s.bay b).spindle.st = .fault) (may : (s.bay b).spindle.noRetry = false)
    (due : (s.bay b).spindle.since + 1000000 * s.liveN .spindleFaultRetryS ≤ s.us) :
    exec (.spindleFaultRetry b) s =
      .next (((s.updSp b (fun x => { x with startTries := 0, catchTries := 0 })).enterCatch b .start).after b) := by
  show execSpindleFaultRetry b s = _
  unfold execSpindleFaultRetry
  rw [withBay_run inPart]
  simp [port, active, starts, fault, may, due]

/-- `START_WAIT` ends in a catch (Table 09-5). -/
theorem exec_startWaitEnd_catches (waits : (s.bay b).spindle.st = .startWait)
    (due : (s.bay b).spindle.since + (s.bay b).spindle.waitMs * 1000 ≤ s.us) :
    exec (.startWaitEnd b) s = .next ((s.enterCatch b .start).after b) := by
  show execStartWaitEnd b s = _
  unfold execStartWaitEnd
  rw [withBay_run inPart]
  simp [port, waits, due]

/-- The alignment ends in a ramp from standstill (R196, R197). -/
theorem exec_alignEnd_ramps (aligns : (s.bay b).spindle.st = .align)
    (due : (s.bay b).spindle.since + s.spin b .spindleStartAlignMs * 1000 ≤ s.us) :
    exec (.alignEnd b) s = .next (((s.spEnter b .ramp).updSp b (fun x =>
      { x with cmdAngle := 0, cmdRpm := 0, handAt := none, passRun := 0 })).after b) := by
  show execAlignEnd b s = _
  unfold execAlignEnd
  rw [withBay_run inPart]
  simp [port, aligns, due]

/-- After 30 passing samples the ramp hands over to `SYNC`, with some references (R197). -/
theorem exec_rampHandover_syncs (ramps : (s.bay b).spindle.st = .ramp) (passed : 30 ≤ (s.bay b).spindle.passRun) :
    ∃ d q, exec (.rampHandover b) s = .next (((s.updSp b (fun x => { x with use := .start })).spSync b d q).after b) := by
  show ∃ d q, execRampHandover b s = _
  unfold execRampHandover
  rw [withBay_run inPart]
  dsimp only
  rw [if_pos (by simp [port, ramps, passed])]
  exact ⟨_, _, rfl⟩

/-- A third invalid period in a row in `ALIGN` fails the try (R190, R198). -/
theorem exec_startTryFail_fails (aligns : (s.bay b).spindle.st = .align) (invalid : 3 ≤ (s.bay b).spindle.invalid) :
    exec (.startTryFail b) s = .next ((s.tryFails b).after b) := by
  show execStartTryFail b s = _
  unfold execStartTryFail
  rw [withBay_run inPart]
  simp [port, aligns, invalid]

/-- The sixth consistent crossing ends a catch with its outcome (R195). -/
theorem exec_catchEnd_ends (catches : (s.bay b).spindle.st = .catch) (active : (s.bay b).mlink.st = .active)
    (consistent : 6 ≤ consistentCount (s.bay b).spindle.crossings) :
    exec (.catchEnd b) s = .next ((s.catchOutcome b (consistentCount (s.bay b).spindle.crossings)).after b) := by
  show execCatchEnd b s = _
  unfold execCatchEnd
  rw [withBay_run inPart]
  simp [port, catches, active, consistent]

end

/-- Settles O32: each command makes the one step of the start sequence it is for. -/
theorem spindleStarts : Obligations.SpindleStarts := by
  intro s b inPart port
  refine ⟨fun active starts stopped => ?_, fun active starts held => ?_, fun active starts fault may due => ?_, fun waits due => ?_,
    fun aligns due => ?_, fun ramps passed => ?_, fun aligns invalid => ?_, fun catches active consistent => ?_⟩
  · refine ⟨_, exec_spindleStart_catches inPart port active starts stopped, ?_⟩
    simp [State.enterCatch_bay, State.enterCatch_spindle]
  · exact ⟨_, exec_spindleStart_waits inPart port active starts held, by simp [held]⟩
  · refine ⟨_, exec_spindleFaultRetry_catches inPart port active starts fault may due, ?_⟩
    simp [State.enterCatch_bay, State.enterCatch_spindle]
  · refine ⟨_, exec_startWaitEnd_catches inPart port waits due, ?_⟩
    simp [State.enterCatch_bay]
  · refine ⟨_, exec_alignEnd_ramps inPart port aligns due, ?_⟩
    simp [State.spEnter_bay, Spindle.enter]
  · obtain ⟨d, q, run⟩ := exec_rampHandover_syncs inPart port ramps passed
    exact ⟨_, run, by simp [State.spSync_spindle]⟩
  · refine ⟨_, exec_startTryFail_fails inPart port aligns invalid, ?_⟩
    simpa using State.tryFails_spindle s b
  · exact exec_catchEnd_ends inPart port catches active consistent

end Sys2Proof.Machine
end

section
/-! Stops of the spindle (O34): commanded stops, the limit of `DECEL`, the two parts of braking, and overspeed. -/

namespace Sys2Proof.Machine

/-! ### The commands -/

section
variable {s : State} {b : BayId} (inPart : s.bayExists b = true)
include inPart

/-- A commanded stop is begun where core-started transitions can be made (R192, R204). -/
theorem exec_spindleStop_stops (port : s.mportUp b = true) (starts : s.coreStarts b .motor = true) :
    exec (.spindleStop b) s = .next ((s.commandStop b).after b) := by
  show execSpindleStop b s = _
  unfold execSpindleStop
  rw [withBay_run inPart]
  simp [port, starts]

/-- The speed drop at the deceleration and 1 s more are the limit of `DECEL` (Table 09-5). -/
theorem exec_decelLimit_faults (slows : (s.bay b).spindle.st = .decel)
    (due : (s.bay b).spindle.since + ((s.bay b).spindle.decelFrom - (s.bay b).spindle.goal).natAbs * 1000000 /
      (rpmOf (max 1 (s.liveN .spindleBrakeDecelRpmS))).natAbs + 1000000 ≤ s.us) :
    exec (.decelLimit b) s = .next ((s.spFault b).after b) := by
  show execDecelLimit b s = _
  unfold execDecelLimit
  rw [withBay_run inPart]
  dsimp only
  rw [if_pos (by simpa [slows] using due)]

/-- The shorted part of braking goes over to a float window (Table 09-5). -/
theorem exec_brakeShortToggle_floats (port : s.mportUp b = true) (brakes : (s.bay b).spindle.st = .brakeShort)
    (shorted : (s.bay b).spindle.drive.short = true)
    (due : (s.bay b).spindle.phaseAt + s.liveN .spindleBrakeShortOnMs * 1000 ≤ s.us) :
    exec (.brakeShortToggle b) s = .next ((s.updSp b (fun x => { x with
      drive := .floating, phaseAt := s.us, amp := 0, crossings := [], signs := [none, none, none] })).after b) := by
  show execBrakeShortToggle b s = _
  unfold execBrakeShortToggle
  rw [withBay_run inPart]
  simp [port, brakes, shorted, Nat.not_lt.2 due]

/-- A float window that shows a turning disc and measures no speed goes over to the shorted part (Table 09-5). -/
theorem exec_brakeShortToggle_shorts (port : s.mportUp b = true) (brakes : (s.bay b).spindle.st = .brakeShort)
    (floats : (s.bay b).spindle.drive.short = false) (due : (s.bay b).spindle.phaseAt + 10000 ≤ s.us)
    (turns : s.liveN .spindleCatchFloorMv * 1000 ≤ (s.bay b).spindle.amp)
    (unmeasured : consistentCount (s.bay b).spindle.crossings < 4) :
    exec (.brakeShortToggle b) s = .next ((s.updSp b (fun x => { x with
      drive := { Drive.floating with float := false, short := true }, phaseAt := s.us })).after b) := by
  show execBrakeShortToggle b s = _
  unfold execBrakeShortToggle
  rw [withBay_run inPart]
  simp [port, brakes, floats, Nat.not_lt.2 due, Nat.not_lt.2 turns, Nat.not_le.2 unmeasured]

/-- Braking beyond its limit is a fault (Table 09-5). -/
theorem exec_brakeShortLimit_faults (port : s.mportUp b = true) (brakes : (s.bay b).spindle.st = .brakeShort)
    (due : (s.bay b).spindle.since + s.liveN .spindleBrakeShortMaxMs * 1000 ≤ s.us) :
    exec (.brakeShortLimit b) s = .next (((s.raiseBay b 0 .spindleBrakeFail).spFault b).after b) := by
  show execBrakeShortLimit b s = _
  unfold execBrakeShortLimit
  rw [withBay_run inPart]
  simp [port, brakes, due]

/-- An overspeed of 1 ms in `RUN` decelerates toward the highest speed target (R205). -/
theorem exec_overspeedDetect_slows {k : Nat} (port : s.mportUp b = true) (fast : (s.bay b).spindle.overAt = some k)
    (first : (s.bay b).spindle.overRaised = none) (due : k + 1000 ≤ s.us) (runs : (s.bay b).spindle.st = .run)
    (wanted : (s.bay b).spindle.stopping = false) (forward : 0 ≤ (s.bay b).spindle.obs.rpm) :
    exec (.overspeedDetect b) s = .next ((((s.raiseBay b 0 .spindleOverspeed).updSp b (fun x =>
      { x with overRaised := some s.us })).spDecel b (rpmOf (s.liveN .spindleSpeedMaxRpm))).after b) := by
  show execOverspeedDetect b s = _
  unfold execOverspeedDetect
  rw [withBay_run inPart]
  simp [port, fast, first, due, runs, wanted, Int.not_lt.2 forward]

/-- Still over 100 ms later, the spindle is stopped and is to end in `FAULT` (R205). -/
theorem exec_overspeedStop_stops {k : Nat} (port : s.mportUp b = true) (raised : (s.bay b).spindle.overRaised = some k)
    (due : k + 100000 ≤ s.us) (fast : (s.bay b).spindle.overAt.isSome = true) :
    exec (.overspeedStop b) s = .next ((((s.updSp b (fun x => { x with overRaised := none })).updSp b (fun x =>
      { x with endFault := true })).commandStop b).after b) := by
  show execOverspeedStop b s = _
  unfold execOverspeedStop
  rw [withBay_run inPart]
  simp [port, raised, Nat.not_lt.2 due, fast]

end

/-- Settles O34: a stop in `RUN` or `DECEL` by what it makes of the motor unit, braking by its two parts, each limit by its fault. -/
theorem spindleStops : Obligations.SpindleStops := by
  intro s b inPart port
  refine ⟨fun starts runs => ?_, fun slows due => ?_, fun brakes shorted due => ?_, fun brakes floats due turns unmeasured => ?_,
    fun brakes due => ?_, fun k fast first due runs wanted forward => ?_, fun k raised due fast slows => ?_⟩
  · refine ⟨_, exec_spindleStop_stops inPart port starts, ?_⟩
    simp [State.commandStop_decel (.inl runs), State.commandStop_st]
  · refine ⟨_, exec_decelLimit_faults inPart slows due, ?_⟩
    simp [State.spFault_spindle]
  · exact ⟨_, exec_brakeShortToggle_floats inPart port brakes shorted due, by simp [brakes]⟩
  · exact ⟨_, exec_brakeShortToggle_shorts inPart port brakes floats due turns unmeasured, by simp⟩
  · refine ⟨_, exec_brakeShortLimit_faults inPart port brakes due, ?_⟩
    simp [State.spFault_spindle, State.spFault_off]
  · refine ⟨_, exec_overspeedDetect_slows inPart port fast first due runs wanted forward, ?_⟩
    simp [State.spDecel_spindle]
  · refine ⟨_, exec_overspeedStop_stops inPart port raised due fast, ?_⟩
    simp [State.commandStop_decel, slows, State.commandStop_st]

end Sys2Proof.Machine
end

section
/-! Commands of a sled (O19): targets of a standing sled, seeks that arrive, the hold scale, power-down and the load of a table. -/

namespace Sys2Proof.Machine

/-! ### Targets (R215, R216) -/

/-- From rest, a target is planned over the distance to it (R213), and nothing is to follow that plan. -/
theorem Sled.retarget_standing {x : Sled} (still : x.vel = 0) (steady : x.acc = 0) (lim : Nat × Nat × Nat) (target : Int) (seek : Bool) :
    x.retarget lim target seek = { x with
      plan := some ⟨x.pos, 0, 0, planRest (target - x.pos) lim.1 lim.2.1 lim.2.2, target, x.step, seek⟩, after := none, limits := lim } := by
  simp [Sled.retarget, still, steady]

/-- The state that a target finds: a seek's start is its section's boundary (R225). -/
def State.atSeek (s : State) (b : BayId) (seek : Bool) : State := if seek then s.boundary (.bay b) 9 else s

/-- A sled with a target that it takes: planned from its present state, on the run current (R216, R220). -/
def Sled.take (x : Sled) (lim : Nat × Nat × Nat) (target : Int) (seek : Bool) (run : Nat) : Sled :=
  { x.retarget lim target seek with seeking := seek || x.seeking, reached := none, scale := run, ramp := none }

/-- A boundary moves nothing and changes no limit of a move, which are LIVE. -/
@[simp] theorem State.atSeek_keeps (s : State) (b : BayId) (seek : Bool) :
    (s.atSeek b seek).bay b = s.bay b ∧ ∀ kind, (s.atSeek b seek).sledLimits kind = s.sledLimits kind := by
  cases seek <;> exact ⟨rfl, fun _ => rfl⟩

/-- An event changes no limit of a move and no current scale. -/
@[simp] theorem State.raisePu_sledCfg (s : State) (b : BayId) (p : Pu) (src : Nat) (e : Ev) :
    (∀ kind, (s.raisePu b p src e).sledLimits kind = s.sledLimits kind)
      ∧ ∀ c, (s.raisePu b p src e).runScale c = s.runScale c := by
  refine ⟨fun kind => ?_, fun c => ?_⟩
  · simp only [State.sledLimits, State.raisePu_liveN]
  · simp [State.runScale, State.bndN, State.unitCfg]

/-- A movable sled takes its target within the bounds in force (R215), whether or not the target lay beyond them. -/
theorem State.sledTarget_sled {s : State} {b : BayId} {p : Pu} {r0 : Int} (known : ((s.bay b).sled p).r0 = some r0)
    (movable : s.sledMovable b p = true) (radius : Int) (seek : Bool) :
    ((s.sledTarget b p radius seek).bay b).sled p = ((s.bay b).sled p).take (s.sledLimits seek)
      (posAt r0 ((s.atSeek b seek).sledBound b radius)) seek ((s.atSeek b seek).runScale b) := by
  unfold State.sledTarget
  simp only [known, movable, Bool.not_true, Bool.false_eq_true, if_false, State.updSled_sled]
  rw [← State.atSeek]
  by_cases within : (s.atSeek b seek).sledBound b radius = radius
  · simp only [if_pos within, State.atSeek_keeps, Sled.take]
  · simp only [if_neg within, State.raisePu_sledCfg, State.raisePu_bay, State.atSeek_keeps, Sled.take]

/-- Taken from rest, it is the goal of the plan, and the run current flows. -/
theorem State.sledTarget_standing {s : State} {b : BayId} {p : Pu} {r0 : Int} (known : ((s.bay b).sled p).r0 = some r0)
    (movable : s.sledMovable b p = true) (still : ((s.bay b).sled p).vel = 0) (steady : ((s.bay b).sled p).acc = 0)
    (radius : Int) (seek : Bool) :
    ∃ q, (((s.sledTarget b p radius seek).bay b).sled p).plan = some q
      ∧ q.target = posAt r0 ((s.atSeek b seek).sledBound b radius) ∧ q.seek = seek
      ∧ (((s.sledTarget b p radius seek).bay b).sled p).scale = (s.atSeek b seek).runScale b := by
  rw [State.sledTarget_sled known movable, Sled.take, Sled.retarget_standing still steady]
  exact ⟨_, rfl, rfl, rfl, rfl⟩

/-- A change of a sled changes no pickup. -/
@[simp] theorem State.updSled_pu (s : State) (b : BayId) (p : Pu) (f : Sled → Sled) (c : BayId) (q : Pu) :
    (s.updSled b p f).pu c q = s.pu c q :=
  State.updBay_pu_same s b c q _ (fun y => Bay.setSled_pu y p q _)

/-! ### The commands -/

section
variable {s : State} {b : BayId} {p : Pu} (inPart : s.bayExists b = true)
include inPart

/-- Outside `SEEK`, with cores that can start, a target of either kind is taken (R215). -/
theorem exec_sledTarget_targets (port : s.mportUp b = true) (starts : s.coreStarts b .motor = true)
    (outside : (s.pu b p).ms.st ≠ .seek) (radius : Int) (seek : Bool) :
    exec (.sledTarget b p radius seek) s = .next ((s.sledTarget b p radius seek).after b) := by
  show execSledTarget b p radius seek s = _
  unfold execSledTarget
  rw [withBay_run inPart]
  simp [port, starts, outside]

/-- A seek whose sled has settled goes on to `TRACK_PULL` (R219). -/
theorem exec_seekArrive_pulls {k : Nat} (reached : ((s.bay b).sled p).reached = some k) (seeking : ((s.bay b).sled p).seeking = true)
    (seeks : (s.pu b p).ms.st = .seek) (settled : k + s.liveN .sledSettleMs * 1000 ≤ s.us) :
    exec (.seekArrive b p) s
      = .next (((s.updSled b p (fun x => { x with seeking := false, reached := none })).enterTrackPull b p).after b) := by
  show execSeekArrive b p s = _
  unfold execSeekArrive
  rw [withBay_run inPart]
  simp [reached, seeking, settled, seeks]

/-- The current of an enabled sled without a plan begins to fall after its delay (R220). -/
theorem exec_sledHoldReduce_ramps (enabled : ((s.bay b).sled p).enabled = true) (noPlan : ((s.bay b).sled p).plan = none)
    (noRamp : ((s.bay b).sled p).ramp = none)
    (above : ((s.bay b).sled p).scale ≠ s.runScale b * s.bndN (.bay b) .sledHoldPct / 100)
    (due : ((s.bay b).sled p).moved + s.liveN .sledHoldDelayMs * 1000 ≤ s.us) :
    exec (.sledHoldReduce b p) s = .next ((s.updSled b p (fun x => { x with ramp := some s.us })).after b) := by
  show execSledHoldReduce b p s = _
  unfold execSledHoldReduce
  rw [withBay_run inPart]
  simp [enabled, noPlan, noRamp, above, due]

/-- With the spindle stopped, a sled that has stood 20 ms at a full step is turned off there (R221). -/
theorem exec_sledPowerDown_turnsOff (stopped : (s.bay b).spindle.st = .stopped) (enabled : ((s.bay b).sled p).enabled = true)
    (known : ((s.bay b).sled p).lost = false) (noPlan : ((s.bay b).sled p).plan = none) (starts : s.coreStarts b .motor = true)
    (fullStep : rnd ((s.bay b).sled p).pos (256 * 65536) * (256 * 65536) = ((s.bay b).sled p).pos)
    (due : ((s.bay b).sled p).moved + 20000 ≤ s.us) :
    exec (.sledPowerDown b p) s = .next (((s.boundary (.bay b) 9).updSled b p (fun x =>
      { x with enabled := false, off := true, scale := 0, ramp := none })).after b) := by
  show execSledPowerDown b p s = _
  unfold execSledPowerDown
  rw [withBay_run inPart]
  simp only [Int.reduceMul] at fullStep
  simp [stopped, enabled, known, noPlan, starts, fullStep, due]

/-- A whole table begins its load, of 16 chunks, into a bank that no enabled sled uses (R212). -/
theorem exec_sledTableLoad_loads {bank : Bool} {table : Bytes} (whole : table.length = 4096)
    (freeA : (s.bay b).sledA.enabled = true → (s.bay b).sledA.bank ≠ bank)
    (freeB : (s.bay b).sledB.enabled = true → (s.bay b).sledB.bank ≠ bank) (active : (s.bay b).mlink.st = .active)
    (idle : (s.bay b).mlink.load = none) (running : s.coresHeld = false) :
    exec (.sledTableLoad b bank table) s = .next ((s.updBay b (fun y =>
      { y with mlink := { y.mlink with load := some (bank, table, 0, 16) } })).after b) := by
  have notDefault : table.isEmpty = false := by
    cases table with
    | nil => simp at whole
    | cons x xs => rfl
  show execSledTableLoad b bank table s = _
  unfold execSledTableLoad
  rw [withBay_run inPart]
  have unused : ¬((s.bay b).sledA.enabled = true ∧ (s.bay b).sledA.bank = bank
      ∨ (s.bay b).sledB.enabled = true ∧ (s.bay b).sledB.bank = bank) := by
    rintro (⟨enabled, same⟩ | ⟨enabled, same⟩)
    · exact freeA enabled same
    · exact freeB enabled same
  simp [notDefault, whole, active, idle, running, unused]

end

/-- Settles O19: a target by the plan of a sled from rest, each other command by the one change it makes of its sled or its link. -/
theorem sledCommandsAct : Obligations.SledCommandsAct := by
  intro s b p inPart
  refine ⟨fun radius r0 seek known movable port starts outside still steady => ?_, fun k reached seeking seeks settled => ?_,
    fun enabled noPlan noRamp above due => ?_, fun stopped enabled known noPlan starts fullStep due => ?_,
    fun bank table whole freeA freeB active idle running => ?_⟩
  · obtain ⟨q, taken⟩ := State.sledTarget_standing known movable still steady radius seek
    refine ⟨_, q, exec_sledTarget_targets inPart port starts outside radius seek, ?_⟩
    rw [State.after_sled]
    exact taken
  · exact ⟨_, exec_seekArrive_pulls inPart reached seeking seeks settled, by simp⟩
  · exact ⟨_, exec_sledHoldReduce_ramps inPart enabled noPlan noRamp above due, by simp⟩
  · exact ⟨_, exec_sledPowerDown_turnsOff inPart stopped enabled known noPlan starts fullStep due, by simp⟩
  · exact ⟨_, exec_sledTableLoad_loads inPart whole freeA freeB active idle running, by simp⟩

end Sys2Proof.Machine
end

section
/-! The slots of hampers and the engines that serve them: what reading gives after an update, and what settling, outcomes and records
leave. -/

namespace Sys2Proof.Machine

/-! ### Reading a slot after an update -/

/-- A slot that is updated holds its hamper as changed, or none as before. -/
@[simp] theorem State.updHam_slot (s : State) (h : SlotId) (f : Hamper → Hamper) : (s.updHam h f).slot h = (s.slot h).map f := by
  cases held : s.slot h with
  | none => simp [State.updHam, held]
  | some x =>
    have inside : h.val < s.ham.slots.length := Nat.lt_of_not_le fun outside => by
      simp [State.slot, List.getD_eq_getElem?_getD, List.getElem?_eq_none outside] at held
    simp only [State.updHam, held]
    simp [State.setSlot, State.slot, List.getD_eq_getElem?_getD, List.getElem?_set_self inside]

theorem State.setSlot_slot_other (s : State) {h k : SlotId} (apart : h ≠ k) (v : Option Hamper) :
    (s.setSlot h v).slot k = s.slot k := by
  simp [State.setSlot, State.slot, List.getD_eq_getElem?_getD, List.getElem?_set_ne (Fin.val_ne_of_ne apart)]

theorem State.updHam_slot_other (s : State) {h k : SlotId} (apart : h ≠ k) (f : Hamper → Hamper) :
    (s.updHam h f).slot k = s.slot k := by
  unfold State.updHam
  split
  · exact s.setSlot_slot_other apart _
  · rfl

/-- A slot depends on the hampers' part alone. -/
theorem State.slot_of_ham {s t : State} (same : t.ham = s.ham) (k : SlotId) : t.slot k = s.slot k := by
  simp [State.slot, same]

@[simp] theorem State.returnBufs_slot (s : State) (bufs : List Nat) (k : SlotId) : (s.returnBufs bufs).slot k = s.slot k :=
  State.slot_of_ham (by simp) k

@[simp] theorem State.serveFlushes_slot (s : State) (k : SlotId) : s.serveFlushes.slot k = s.slot k := State.slot_of_ham (by simp) k

@[simp] theorem State.bumpGen_slot (s : State) (k : SlotId) : s.bumpGen.slot k = s.slot k := State.slot_of_ham (by simp) k

@[simp] theorem State.updPu_slot (s : State) (b : BayId) (p : Pu) (f : Pickup → Pickup) (k : SlotId) :
    (s.updPu b p f).slot k = s.slot k := State.slot_of_ham (by simp) k

/-- Two changes that agree on the hamper of a slot update it alike. -/
theorem State.updHam_congr {s : State} {h : SlotId} {x : Hamper} (held : s.slot h = some x) {f g : Hamper → Hamper} (agree : f x = g x) :
    s.updHam h f = s.updHam h g := by
  simp [State.updHam, held, agree]

/-! ### A slot without a hamper stays empty -/

theorem State.updHam_slot_none {s : State} {k : SlotId} (empty : s.slot k = none) (h : SlotId) (f : Hamper → Hamper) :
    (s.updHam h f).slot k = none := by
  by_cases same : h = k
  · subst same; simp [empty]
  · rw [s.updHam_slot_other same, empty]

theorem State.grantRoom_slot_none {k : SlotId} (n : Nat) {s : State} (empty : s.slot k = none) : (s.grantRoom n).slot k = none := by
  induction n generalizing s with
  | zero => exact empty
  | succ n ih =>
    unfold State.grantRoom
    dsimp only
    repeat' split
    all_goals first | exact empty | exact ih (State.updHam_slot_none empty _ _)

theorem State.settle_slot_none {s : State} {k : SlotId} (empty : s.slot k = none) (h : SlotId) : (s.settle h).slot k = none := by
  unfold State.settle
  split
  · exact empty
  next x held =>
    have apart : h ≠ k := by rintro rfl; simp [held] at empty
    have unset : (s.setSlot h (some x.advance)).slot k = none := by rw [s.setSlot_slot_other apart, empty]
    dsimp only
    split
    all_goals
      simp only [State.serveFlushes_slot, State.bumpGen_slot]
      exact State.grantRoom_slot_none _ (by simp [unset])

/-- Withdrawing what a member of one hamper has placed brings no hamper into an empty slot. -/
theorem State.withdraw_slot_none {s : State} {k : SlotId} (empty : s.slot k = none) (h : SlotId) (m : Member) (b : BayId) (p : Pu) :
    (s.withdraw h m b p).slot k = none := by
  unfold State.withdraw
  split
  · exact empty
  · dsimp only
    split
    · exact empty
    · refine State.settle_slot_none ?_ h
      rw [State.updPu_slot]
      exact State.updHam_slot_none empty _ _

/-! ### Which engines are faulty, which serve which hampers, and the takeover that runs (R250) -/

/-- Of the hampers' part, what engines do and no hamper: the faulty ones, the one that serves each engine number, the takeover. -/
def HamperState.engines (x : HamperState) : List Bool × List Nat × Option Nat := (x.faulty, x.serves, x.takeover)

theorem HamperState.engines_parts {x y : HamperState} (same : x.engines = y.engines) :
    x.faulty = y.faulty ∧ x.serves = y.serves ∧ x.takeover = y.takeover := by
  simpa [HamperState.engines] using same

theorem State.foldl_engines {α : Type} {f : State → α → State} (same : ∀ s a, (f s a).ham.engines = s.ham.engines) (l : List α) (s : State) :
    (l.foldl f s).ham.engines = s.ham.engines := by
  induction l generalizing s with
  | nil => rfl
  | cons a l ih => rw [List.foldl_cons, ih, same]

@[simp] theorem State.setSlot_engines (s : State) (h : SlotId) (v : Option Hamper) : (s.setSlot h v).ham.engines = s.ham.engines := rfl

@[simp] theorem State.updHam_engines (s : State) (h : SlotId) (f : Hamper → Hamper) : (s.updHam h f).ham.engines = s.ham.engines := by
  unfold State.updHam; split <;> simp

@[simp] theorem State.grantRoom_engines (s : State) (n : Nat) : (s.grantRoom n).ham.engines = s.ham.engines := by
  induction n generalizing s with
  | zero => rfl
  | succ n ih =>
    unfold State.grantRoom
    dsimp only
    repeat' split
    all_goals first | rfl | rw [ih, State.updHam_engines]

@[simp] theorem State.settle_engines (s : State) (h : SlotId) : (s.settle h).ham.engines = s.ham.engines := by
  unfold State.settle
  split
  · rfl
  · dsimp only; split <;> simp

@[simp] theorem State.sectorOutcome_engines (s : State) (h : SlotId) (seq member : Nat) (written : Bool) :
    (s.sectorOutcome h seq member written).ham.engines = s.ham.engines := by
  simp [State.sectorOutcome]

@[simp] theorem State.writePointer_engines (s : State) (h : SlotId) (r : Bytes) : (s.writePointer h r).ham.engines = s.ham.engines := by
  unfold State.writePointer
  split
  · rfl
  · dsimp only
    rw [State.updHam_engines, State.foldl_ham, State.foldl_ham]
    all_goals
      intro s m
      repeat' split
      all_goals simp

@[simp] theorem State.releaseHamper_engines (s : State) (h : SlotId) : (s.releaseHamper h).ham.engines = s.ham.engines := by
  simp [State.releaseHamper]

@[simp] theorem State.recordOutcome_engines (s : State) (h : SlotId) (kind no : Nat) (written : Bool) :
    (s.recordOutcome h kind no written).ham.engines = s.ham.engines := by
  unfold State.recordOutcome
  dsimp only
  repeat' split
  all_goals simp

/-- Outcomes that waited for an engine change hampers and no engine. -/
@[simp] theorem State.flushOutcomes_engines (s : State) : s.flushOutcomes.ham.engines = s.ham.engines := by
  unfold State.flushOutcomes
  dsimp only
  rw [State.foldl_engines fun _ _ => State.recordOutcome_engines .., State.foldl_engines fun _ _ => State.sectorOutcome_engines ..]
  rfl

end Sys2Proof.Machine
end

section
/-! Hamper engines (O49): an engine that fails is marked and fenced, and the spare takes its hampers over. -/

namespace Sys2Proof.Machine

/-- A faulty engine is marked, whatever becomes of its hampers. -/
theorem State.hamperEngineFaulty_faulty (s : State) (e code : Nat) :
    (s.hamperEngineFaulty e code).ham.faulty = s.ham.faulty.set e true := by
  unfold State.hamperEngineFaulty
  dsimp only
  repeat' split
  all_goals simp

/-- Of the blocks, only the faulty engine's record changes: it is fenced. -/
theorem State.hamperEngineFaulty_blks (s : State) (e code : Nat) :
    (s.hamperEngineFaulty e code).blk.blks = (s.fence ⟨6, 5, e⟩).blk.blks := by
  unfold State.hamperEngineFaulty
  dsimp only
  repeat' split
  all_goals simp

/-- The fault of an engine not yet marked as faulty takes effect (R250). -/
theorem exec_hamperEngineFault_marks {s : State} {e : Fin 5} (sound : s.ham.faulty.getD e.val true = false) (cause : FaultCause) :
    ∃ code, exec (.hamperEngineFault e cause) s = .next (s.hamperEngineFaulty e.val code) :=
  ⟨_, congrArg Host.Outcome.next (if_neg (ne_true_of_eq_false sound))⟩

/-- The spare's state with the hampers of engine number q taken over (R250, R380). -/
def State.spareServes (s : State) (q : Nat) : State :=
  let s := s.setBlk { s.blkOf ⟨6, 5, 4⟩ with st := .active, serves := some q }
  let s := { s with ham := { s.ham with serves := s.ham.serves.set q 4, takeover := none } }
  (s.regionEvent 5 8 .hamperEngineSpare q 0 0).flushOutcomes

theorem exec_hamperEngineTakeover_spareServes {s : State} {q : Nat} (waits : s.ham.takeover = some q) (running : s.coresHeld = false) :
    exec .hamperEngineTakeover s = .next (s.spareServes q) := by
  show execHamperEngineTakeover s = _
  unfold execHamperEngineTakeover State.spareServes
  simp [waits, running]

/-- The spare serves the engine number and no takeover runs any more: the outcomes delivered then leave both. -/
theorem State.spareServes_ham (s : State) (q : Nat) :
    (s.spareServes q).ham.serves = s.ham.serves.set q 4 ∧ (s.spareServes q).ham.takeover = none := by
  obtain ⟨-, serves, takeover⟩ := HamperState.engines_parts (State.flushOutcomes_engines _)
  exact ⟨serves.trans (by simp), takeover.trans (by simp)⟩

theorem State.spareServes_blkOf (s : State) (q : Nat) :
    (s.spareServes q).blkOf ⟨6, 5, 4⟩ = { s.blkOf ⟨6, 5, 4⟩ with st := .active, serves := some q } := by
  have blks : (s.spareServes q).blk.blks = (s.setBlk { s.blkOf ⟨6, 5, 4⟩ with st := .active, serves := some q }).blk.blks := by
    simp [State.spareServes]
  rw [State.blkOf_congr blks]
  simpa using s.setBlk_blkOf { s.blkOf ⟨6, 5, 4⟩ with st := .active, serves := some q }

/-- Settles O49: the fault marks and fences its engine; the takeover gives the engine number to the spare, and the outcomes that it
delivers leave the engines as they are. -/
theorem hamperEnginesTakeOver : Obligations.HamperEnginesTakeOver := by
  intro s
  refine ⟨fun e cause five sound => ?_, fun q waits running => ?_⟩
  · obtain ⟨code, run⟩ := exec_hamperEngineFault_marks sound cause
    have inside : e.val < s.ham.faulty.length := by rw [five]; exact e.isLt
    refine ⟨_, run, ?_, ?_⟩
    · simp [State.hamperEngineFaulty_faulty, List.getD_eq_getElem?_getD, List.getElem?_set_self inside]
    · rw [State.blkOf_congr (s.hamperEngineFaulty_blks e.val code)]
      exact s.fence_up _
  · obtain ⟨serves, takeover⟩ := s.spareServes_ham q
    exact ⟨_, exec_hamperEngineTakeover_spareServes waits running, takeover, serves, by rw [s.spareServes_blkOf]⟩

end Sys2Proof.Machine
end

section
/-! Hampers attached, created, replaced and taken off (O46). -/

namespace Sys2Proof.Machine

/-! ### Whether another mount runs does not depend on the hampers beside who attached them (R291) -/

@[simp] theorem State.updHam_attached (s : State) (h : SlotId) (f : Hamper → Hamper) : (s.updHam h f).ham.attached = s.ham.attached := by
  unfold State.updHam; split <;> rfl

/-- A change that leaves the attaching command of every hamper leaves whether another mount runs. -/
theorem State.mountRunning_updHam (s : State) (h : SlotId) {f : Hamper → Hamper} (kept : ∀ x, (f x).attach = x.attach) (c : Cmd) :
    (s.updHam h f).mountRunning c = s.mountRunning c := by
  have attachers : ∀ k, ((s.updHam h f).slot k).map Hamper.attach = (s.slot k).map Hamper.attach := by
    intro k
    by_cases same : h = k
    · subst same
      cases held : s.slot h <;> simp [held, kept]
    · rw [s.updHam_slot_other same]
  unfold State.mountRunning
  simp only [State.updHam_frame, State.updHam_attached]
  congr 1; funext v; congr 2; congr 1; funext k
  have attacher := attachers k
  cases now : (s.updHam h f).slot k <;> cases before : s.slot k <;> simp_all

/-! ### The commands -/

section

variable {s : State} {tag : BitVec 6} {c : Cmd} {h : SlotId} {x : Hamper}

/-- A hamper that a `MOUNT` has attached, mounted and with at least k readers, completes it (R291). -/
theorem exec_mountAttach_completes (mounts : s.mount? tag 0 = some c) (named : s.slotOf c.hid = some h) (held : s.slot h = some x)
    (own : x.attach = some c.order) (mounted : s.hstate x ≠ .mounting) (enough : s.hstate x ≠ .below) :
    exec (.mountAttach tag) s
      = .next ((s.updHam h (fun x => { x with attach := none })).finish c.order .success (s.mountResult h)) := by
  -- `mounted` and `enough` rule out the two states in which the command is held
  show execMountAttach tag s = _
  unfold execMountAttach
  simp only [mounts, named, held, own, Option.bind_some, Option.map_some, beq_self_eq_true, if_true]

/-- A create whose bays stand ready and blank in no hamper, named once each and as the policy allows, begins its hamper in the lowest free
slot, and its labels are written (R291). -/
theorem exec_mountCreate_begins {block : Bytes} (mounts : s.mount? tag 1 = some c)
    (blank : ∀ k ∈ (createBays (c.b 42 + c.b 43) block).filter (fun k => k != 0xFF),
      k < s.bayCount ∧ ∀ hb : k < 32, (s.bay ⟨k, hb⟩).ready = true ∧ (s.bay ⟨k, hb⟩).isBlank = true ∧ s.bayTaken ⟨k, hb⟩ = false)
    (distinct : allDistinct ((createBays (c.b 42 + c.b 43) block).filter (fun k => k != 0xFF)) = true)
    (policy : policyKept (c.b 41 / 2) (c.b 43) ((createBays (c.b 42 + c.b 43) block).filter (fun k => k != 0xFF)) = true)
    (new : s.slotOf c.hid = none) (alone : s.mountRunning c = false) (free : s.freeSlot = some h) :
    exec (.mountCreate tag block) s = .next ((((s.start c).setSlot h (some (s.newHamper c block))).bumpGen).writeLabels h) := by
  generalize bays : (createBays (c.b 42 + c.b 43) block).filter (fun k => k != 0xFF) = l at blank distinct policy
  have inPart : l.any (fun k => decide (s.bayCount ≤ k)) = false :=
    List.any_eq_false.2 fun k mem => by simpa using (blank k mem).1
  have holds : ∀ good : BayId → Bool, (∀ k ∈ l, ∀ hb : k < 32, good ⟨k, hb⟩ = true) →
      l.all (fun k => if hb : k < 32 then good ⟨k, hb⟩ else false) = true := by
    intro good all
    refine List.all_eq_true.2 fun k mem => ?_
    have within : k < 32 := Nat.lt_of_lt_of_le (blank k mem).1 (by unfold State.bayCount; split <;> decide)
    simp [within, all k mem within]
  have ready := holds (fun b => (s.bay b).ready) fun k mem hb => ((blank k mem).2 hb).1
  have vacant := holds (fun b => (s.bay b).isBlank && !s.bayTaken b) fun k mem hb => by
    obtain ⟨-, isBlank, untaken⟩ := (blank k mem).2 hb
    simp [isBlank, untaken]
  show execMountCreate tag block s = _
  unfold execMountCreate
  simp [mounts, bays, inPart, distinct, new, alone, ready, vacant, policy, free]

/-- A replace of a member out of service by a ready and blank disc begins the rebuild, and the labels of the next epoch are written
(R245, R291). -/
theorem exec_mountReplace_begins {m : Member} {b : BayId} (mounts : s.mount? tag 2 = some c) (go : s.hamperGate c.hid = .go h)
    (held : s.slot h = some x) (bay : c.b 45 = b.val) (member : x.member? (c.b 44) = some m) (alone : s.mountRunning c = false)
    (stays : x.unmounting = none) (settled : x.replaces = none) (free : s.freeSlot.isSome = true) (ready : (s.bay b).ready = true)
    (blank : (s.bay b).isBlank = true) (untaken : s.bayTaken b = false) (noReads : s.memberReads m = false)
    (noWrites : s.memberWrites m = false)
    (policy : policyKept x.policy x.m
      (b.val :: (x.members.filter (fun v => v.idx != c.b 44)).filterMap (fun v => v.bay.map (fun b => b.val))) = true) :
    exec (.mountReplace tag) s = .next (((s.start c).updHam h (fun x =>
      x.replaceMember (c.b 44) b (padTo 16 ((s.bay b).disc.serial.getD [])) m.next c.order)).writeLabels h) := by
  have exists_free : s.freeSlot.isNone = false := by simpa using free
  show execMountReplace tag s = _
  unfold execMountReplace
  simp only [mounts, go, held, bay, b.isLt, dite_true, member]
  simp [alone, stays, settled, exists_free, ready, blank, untaken, noReads, noWrites, policy]

/-- An `UNMOUNT` of a hamper that none takes off yet marks it and closes its open stripe (R292). -/
theorem exec_unmount_closes (unmounts : s.admin? 0x51 0 tag = some c) (go : s.hamperGate c.hid = .go h) (held : s.slot h = some x)
    (stays : x.unmounting = none) (alone : s.mountRunning c = false) :
    exec (.unmount tag) s = .next (((s.updHam h (fun x => { x with unmounting := some c.order })).updCmd c.order
      (fun c => { c with phase := .started, slot := some h })).closeOpen h) := by
  have marked : s.updHam h (fun x => { x with unmounting := some (x.unmounting.getD c.order) })
      = s.updHam h (fun x => { x with unmounting := some c.order }) := State.updHam_congr held (by simp [stays])
  have still_alone : (s.updHam h (fun x => { x with unmounting := some c.order })).mountRunning c = false := by
    rw [State.mountRunning_updHam, alone]
    exact fun _ => rfl
  show execUnmount tag s = _
  unfold execUnmount
  simp [unmounts, go, marked, held, still_alone]

end

/-- Settles O46: each command runs the one change it makes of its hamper; of a completed `MOUNT` the command ends. -/
theorem mountCommandsAct : Obligations.MountCommandsAct := by
  intro s tag c
  refine ⟨fun h x mounts live named held own mounted enough => ?_, fun block h mounts blank distinct policy new alone free => ?_,
    fun h x m b mounts go held bay member alone stays settled free ready blank untaken noReads noWrites policy => ?_,
    fun h x unmounts go held stays alone => ?_⟩
  · exact ⟨_, exec_mountAttach_completes mounts named held own mounted enough,
      State.finish_ended _ _ (State.liveAt_of_cmds (by simp) live)⟩
  · exact exec_mountCreate_begins mounts blank distinct policy new alone free
  · exact exec_mountReplace_begins mounts go held bay member alone stays settled free ready blank untaken noReads noWrites policy
  · exact exec_unmount_closes unmounts go held stays alone

end Sys2Proof.Machine
end

section
/-! Hamper work (O48): writes staged, blocks placed, stripes closed, outcomes, checkpoints, discs that arrive, rebuilds, grace and
recovery. -/

namespace Sys2Proof.Machine

/-! ### Writes, stripes and checkpoints -/

/-- The state with the blocks of a write in its buffers and the write recorded as staged (R234). -/
def State.stageBlocks (s : State) (c : Cmd) (h : SlotId) (blocks : List Bytes) : State :=
  let bufs := s.bufsOf c.order
  let s := bufs.zipIdx.foldl (fun s e => s.fillBuf e.1 (((blocks.map (padTo 4096)).drop (16 * e.2)).take 16)) s
  let s := s.updHam h (fun x => x.updWrite c.ordinal (fun w => { w with staged := true, buffers := bufs }))
  s.updCmd c.order (fun c => { c with staged := true })

/-- A command lives on while its blocks are staged. -/
theorem State.stageBlocks_live {s : State} {c : Cmd} (live : s.liveAt c.order) (h : SlotId) (blocks : List Bytes) :
    (s.stageBlocks c h blocks).liveAt c.order := by
  exact State.updCmd_live (fun _ => ⟨rfl, id, id⟩) (State.liveAt_of_cmds (by simp) live)

section

variable {s : State} {h : SlotId} {x : Hamper}

/-- A recorded write whose blocks have all arrived and fit its buffers is staged, and ends with `SUCCESS` and its ordinal (R234). -/
theorem exec_writeStaged_ends {f : FnId} {sr : Nat} {tag : BitVec 6} {blocks : List Bytes} {c : Cmd} {w : WriteRec}
    (found : s.cmd? f sr tag = some c) (slot : c.slot = some h) (recorded : (s.slot h).bind (fun x => x.write? c.ordinal) = some w)
    (isWrite : c.opc = 0x11) (started : c.phase = .started) (unstaged : w.staged = false) (record : w.record = true)
    (up : s.engineUp h = true) (whole : blocks.length = w.count) (fits : w.count ≤ (s.bufsOf c.order).length * 16) :
    exec (.writeStaged f sr tag blocks) s = .next ((s.stageBlocks c h blocks).finish c.order .success c.ordinal) := by
  show execWriteStaged f sr tag blocks s = _
  unfold execWriteStaged
  simp [found, slot, recorded, isWrite, started, unstaged, record, up, whole, Nat.not_lt.2 fits, State.stageBlocks]

theorem exec_blockPlace_places (up : s.engineUp h = true) : exec (.blockPlace h) s = .next (s.placeNext h) :=
  congrArg Host.Outcome.next (if_pos up)

/-- An open stripe is closed `hamper.place.close_us` after its first block (R236). -/
theorem exec_stripeCloseTimeout_closes {y : Stripe} {k : Nat} (building : (s.slot h).bind Hamper.building = some y)
    (opened : y.opened = some k) (up : s.engineUp h = true) (due : k + s.liveN .hamperPlaceCloseUs ≤ s.us) :
    exec (.stripeCloseTimeout h) s = .next (s.closeOpen h) := by
  show execStripeCloseTimeout h s = _
  unfold execStripeCloseTimeout
  simp [building, opened, up, due]

theorem exec_sectorWriteOutcome_settles (up : s.engineUp h = true) (stripe : Nat) (member : Fin 32) (written : Bool) :
    exec (.sectorWriteOutcome h stripe member written) s = .next (s.sectorOutcome h stripe member.val written) :=
  congrArg Host.Outcome.next (if_pos up)

/-- While its engine is down an outcome waits in the queue (R248). -/
theorem exec_sectorWriteOutcome_waits (down : s.engineUp h = false) (stripe : Nat) (member : Fin 32) (written : Bool) :
    exec (.sectorWriteOutcome h stripe member written) s
      = .next { s with ham := { s.ham with queued := s.ham.queued ++ [(h, stripe, member.val, written)] } } :=
  congrArg Host.Outcome.next (if_neg (by simp [down]))

/-- A checkpoint is written once `hamper.ckpt.interval_stripes` have committed, where none is under way (R242). -/
theorem exec_checkpointWrite_writes (held : s.slot h = some x) (due : s.liveN .hamperCkptIntervalStripes ≤ x.ckpt.stripes)
    (mounted : x.mounting = false) (noPointer : x.ckpt.pointer = none) (noStripes : x.ckpt.waiting.1 = 0)
    (noRecords : x.ckpt.waiting.2.2 = 0) (up : s.engineUp h = true) :
    exec (.checkpointWrite h) s = .next (s.checkpoint h) := by
  show execCheckpointWrite h s = _
  unfold execCheckpointWrite
  simp [held, due, mounted, noPointer, noStripes, noRecords, up]

/-! ### Discs that arrive (R244) -/

section

variable {b : BayId} {o : State} (inPart : s.bayExists b = true) (ready : (s.bay b).ready = true) (running : s.coresHeld = false)
  (read : s.areaRead b Disc.nextLabel = true) (named : o = s.updBay b (fun y => { y with disc := y.disc.fromAreas }))

include inPart ready running read named

/-- A disc whose label area has been read and holds no label joins no hamper. -/
theorem exec_hamperAutoMount_unlabelled (unlabelled : (o.bay b).disc.label = none) : exec (.hamperAutoMount b) s = .next (o.after b) := by
  show execHamperAutoMount b s = _
  unfold execHamperAutoMount
  rw [withBay_run inPart]
  simp only [← named]
  simp [ready, running, read, unlabelled]

/-- A disc with the label of a hamper in a slot joins it, once its relocation records and pointers have been read. -/
theorem exec_hamperAutoMount_joins {r : Bytes} (relocs : o.areaRead b Disc.nextReloc = true)
    (pointers : o.areaRead b (fun d p => d.nextLog p 4 49152) = true) (label : (o.bay b).disc.label = some r)
    (mounted : o.slotOf (labelHid r) = some h) : exec (.hamperAutoMount b) s = .next ((o.joinMounted b h).after b) := by
  show execHamperAutoMount b s = _
  unfold execHamperAutoMount
  rw [withBay_run inPart]
  simp only [← named]
  simp [ready, running, read, relocs, pointers, label, mounted]

end

/-! ### Rebuilds (R245, R246) -/

/-- A row that no stripe uses is passed. -/
theorem exec_memberRebuildStep_passes {m : Member} (held : s.slot h = some x)
    (rebuilds : x.members.find? (fun m => m.state == .rebuilding && m.bay.isSome) = some m) (up : s.engineUp h = true)
    (below : m.rebuilt < m.rebuildTo) (unused : x.seqOfRow m.idx m.rebuilt = none) :
    exec (.memberRebuildStep h) s
      = .next (s.updHam h (fun x => x.updMember m.idx (fun y => { y with rebuilt := m.rebuilt + 1 }))) := by
  show execMemberRebuildStep h s = _
  unfold execMemberRebuildStep
  simp [held, rebuilds, up, Nat.not_le.2 below, unused]

theorem exec_readRebuild_rebuilds (up : s.engineUp h = true) (stripe pos : Nat) :
    exec (.readRebuild h stripe pos) s = .next (s.rebuildSector h stripe pos) :=
  congrArg Host.Outcome.next (if_pos up)

/-! ### Grace (R247) -/

theorem mem_allSlots (h : SlotId) : h ∈ allSlots :=
  List.mem_filterMap.2 ⟨h.val, List.mem_range.2 h.isLt, by simp⟩

theorem allSlots_nodup : allSlots.Nodup := by decide

/-- What runs over the slots and passes the empty ones acts on the one hamper there is, where its act brings no other. -/
theorem foldl_allSlots_single {f : State → SlotId → State} (passes : ∀ t k, t.slot k = none → f t k = t)
    (alone : ∀ k, k ≠ h → s.slot k = none) (stays : ∀ k, k ≠ h → (f s h).slot k = none) :
    allSlots.foldl f s = f s h := by
  have idle : ∀ (l : List SlotId) (t : State), (∀ k ∈ l, t.slot k = none) → l.foldl f t = t := by
    intro l t empty
    induction l with
    | nil => rfl
    | cons k l ih =>
      rw [List.foldl_cons, passes t k (empty k List.mem_cons_self)]
      exact ih fun j mem => empty j (List.mem_cons_of_mem k mem)
  obtain ⟨before, after, slots⟩ := List.append_of_mem (mem_allSlots h)
  have once := allSlots_nodup
  rw [slots, List.nodup_append, List.nodup_cons] at once
  obtain ⟨-, ⟨notAfter, -⟩, apart⟩ := once
  rw [slots, List.foldl_append, List.foldl_cons]
  rw [idle before s fun k mem => alone k (apart k mem h List.mem_cons_self)]
  exact idle after (f s h) fun k mem => stays k (ne_of_mem_of_not_mem mem notAfter)

/-- Once the grace of a surface is over that has not returned, what its member placed there and has not touched is withdrawn. -/
theorem exec_memberGraceExpire_withdraws {b : BayId} {p : Pu} {m : Member} (inPart : s.bayExists b = true) (held : s.slot h = some x)
    (alone : ∀ k : SlotId, k ≠ h → s.slot k = none) (member : x.members.find? (fun m => m.bay == some b) = some m)
    (out : s.surfaceWrites b p = false) (since : (m.grace p).isSome = true) (ended : s.graceRuns m p = false)
    (running : s.coresHeld = false) :
    exec (.memberGraceExpire b p) s = .next ((s.withdraw h m b p).after b) := by
  show execMemberGraceExpire b p s = _
  unfold execMemberGraceExpire
  rw [withBay_run inPart, foldl_allSlots_single (h := h) (fun t k empty => by simp [empty]) alone]
  · simp [held, member, out, since, ended, running]
  · intro k other
    simpa [held, member, out, since, ended, running] using State.withdraw_slot_none (alone k other) h m b p

/-! ### Recovery at mount (R249) -/

/-- A hamper whose pointers, checkpoints and rows have been read is recovered, and its session's pointer record is written. -/
theorem exec_hamperMountRecover_recovers (held : s.slot h = some x) (running : s.coresHeld = false) (mounts : x.mounting = true)
    (read : s.recoveryRead x = true) (unattended : x.attach = none) :
    exec (.hamperMountRecover h) s =
      .next (((s.setSlot h (some { (x.recover (s.pointersOf x) (s.ckptSectors x) (s.scanOf x)).1 with
        attach := none
        session? := if x.ro then none else some (x.recover (s.pointersOf x) (s.ckptSectors x) (s.scanOf x)).2 })).writeSession h).bumpGen) := by
  show execHamperMountRecover h s = _
  unfold execHamperMountRecover
  simp [held, running, mounts, read, unattended]

/-- The session record of a mounted hamper waits for k members in write service. -/
theorem exec_hamperMountRecover_mounted (held : s.slot h = some x) (running : s.coresHeld = false) (mounted : x.mounting = false) :
    exec (.hamperMountRecover h) s = .next (s.writeSession h) := by
  show execHamperMountRecover h s = _
  unfold execHamperMountRecover
  simp [held, running, mounted]

end

/-- Settles O48: each command of hampers by the one change it makes where its condition holds. -/
theorem hamperWorkProceeds : Obligations.HamperWorkProceeds := by
  intro s
  refine ⟨fun f sr tag blocks c h w found slot recorded isWrite started unstaged record up whole fits live => ?_,
    fun h up => exec_blockPlace_places up,
    fun h y k building opened up due => exec_stripeCloseTimeout_closes building opened up due,
    fun h stripe member written => ⟨fun up => exec_sectorWriteOutcome_settles up stripe member written, fun down => ?_⟩,
    fun h x held due mounted noPointer noStripes noRecords up => ?_,
    fun b o inPart ready running read named => ⟨fun unlabelled => ?_, fun r h relocs pointers label mounted => ?_⟩,
    fun h x m held rebuilds up below unused => exec_memberRebuildStep_passes held rebuilds up below unused,
    fun h stripe pos up => exec_readRebuild_rebuilds up stripe pos,
    fun b p h x m inPart held alone member out since ended running => ?_,
    fun h x held running => ⟨fun mounts read unattended => ?_, fun mounted => ?_⟩⟩
  · exact ⟨_, exec_writeStaged_ends found slot recorded isWrite started unstaged record up whole fits,
      State.finish_ended _ _ (State.stageBlocks_live live h blocks)⟩
  · exact ⟨_, exec_sectorWriteOutcome_waits down stripe member written, rfl, rfl⟩
  · exact exec_checkpointWrite_writes held due mounted noPointer noStripes noRecords up
  · exact exec_hamperAutoMount_unlabelled inPart ready running read named unlabelled
  · exact exec_hamperAutoMount_joins inPart ready running read named relocs pointers label mounted
  · exact exec_memberGraceExpire_withdraws inPart held alone member out since ended running
  · exact exec_hamperMountRecover_recovers held running mounts read unattended
  · exact exec_hamperMountRecover_mounted held running mounted

end Sys2Proof.Machine
end

section
/-! What every step keeps: memories in canonical form (O4), the safety outputs under their trips (O5); the step itself (O1), the state it
starts from (O2), and the bays that a command does not name (O7). -/

namespace Sys2Proof.Machine

/-! ### A step (log 1) -/

/-- What the queue does not show, the tick keeps and every command keeps, every step keeps. -/
theorem step_keeps {P : State → Prop} (onQueue : ∀ (s : State) (l : List Instr), P s → P { s with pending := l })
    (onTick : ∀ s : State, P s → P s.tick) (onExec : ∀ (c : Instr) (s t : State), P s → exec c s = .next t → P t)
    {s t : State} (start : P s) (run : step s = .next t) : P t := by
  unfold step at run
  cases queue : s.pending with
  | nil =>
    rw [queue] at run
    cases run
    exact onTick s start
  | cons c rest =>
    rw [queue] at run
    exact onExec c _ t (onQueue s rest start) run

/-! What of the chip the link slots of a tick and the loss of the cores leave: they raise events, and an event changes its list of
last records only. -/

@[simp] theorem State.foldl_chipStill {α : Type} {g : State → α → State} (keep : ∀ s a, (g s a).chip.still = s.chip.still)
    (l : List α) (s : State) : (l.foldl g s).chip.still = s.chip.still := by
  induction l generalizing s with
  | nil => rfl
  | cons a l ih => rw [List.foldl_cons, ih, keep]

theorem State.foldl2_chipStill {α β : Type} {g : β × State → α → β × State} (keep : ∀ r a, (g r a).2.chip.still = r.2.chip.still)
    (l : List α) (r : β × State) : (l.foldl g r).2.chip.still = r.2.chip.still := by
  induction l generalizing r with
  | nil => rfl
  | cons a l ih => rw [List.foldl_cons, ih, keep]

@[simp] theorem State.raiseBay_chipStill (s : State) (b : BayId) (src : Nat) (e : Ev) (p0 : Nat) (p1 : Nat) (p2 : Nat) :
    (s.raiseBay b src e p0 p1 p2).chip.still = s.chip.still := by
  simp [State.raiseBay]

@[simp] theorem State.raisePu_chipStill (s : State) (b : BayId) (p : Pu) (src : Nat) (e : Ev) (p0 : Nat) (p1 : Nat) (p2 : Nat) :
    (s.raisePu b p src e p0 p1 p2).chip.still = s.chip.still := by
  simp [State.raisePu]

@[simp] theorem State.bufWaitEvent_chipStill (s : State) (n : Nat) : (s.bufWaitEvent n).chip.still = s.chip.still := by
  unfold State.bufWaitEvent State.bufWaitEvent.go
  dsimp only
  repeat' split
  all_goals simp

@[simp] theorem State.drawBufs_chipStill (s : State) (n count req : Nat) : (s.drawBufs n count req).chip.still = s.chip.still := by
  unfold State.drawBufs
  dsimp only
  split <;> simp

@[simp] theorem State.askRead_chipStill (s : State) (b : BayId) (p : Pu) (a : SecAddr) (why : Purpose) (basket : Nat) :
    (s.askRead b p a why basket).chip.still = s.chip.still := by
  simp only [State.askRead]
  repeat' split
  all_goals simp

@[simp] theorem State.gather_chipStill (s : State) (h : SlotId) (seq : Nat) (k0 : Nat) : (s.gather h seq k0).chip.still = s.chip.still := by
  induction k0 generalizing s with
  | zero => rfl
  | succ n ih =>
    unfold State.gather
    split
    · rfl
    · dsimp only
      split
      · rfl
      · split <;> simp [ih]

@[simp] theorem State.gatherFor_chipStill (s : State) (h : SlotId) (seq : Nat) : (s.gatherFor h seq).chip.still = s.chip.still := by
  simp only [State.gatherFor]
  repeat' split
  all_goals simp

@[simp] theorem State.wantSector_chipStill (s : State) (h : SlotId) (seq pos : Nat) (verify : Bool) :
    (s.wantSector h seq pos verify).chip.still = s.chip.still := by
  simp only [State.wantSector]
  repeat' split
  all_goals simp

@[simp] theorem State.raiseHam_chipStill (s : State) (h : SlotId) (e : Ev) (p0 p1 p2 : Nat) :
    (s.raiseHam h e p0 p1 p2).chip.still = s.chip.still := by
  simp [State.raiseHam]

@[simp] theorem State.repairBuf_chipStill (s : State) (order : Nat) : (s.repairBuf order).chip.still = s.chip.still := by
  unfold State.repairBuf
  split <;> simp

@[simp] theorem State.answerBlock_chipStill (s : State) (h : SlotId) (order i : Nat) :
    (s.answerBlock h order i).chip.still = s.chip.still := by
  simp only [State.answerBlock]
  repeat' split
  all_goals simp

@[simp] theorem State.closeRead_chipStill (s : State) (h : SlotId) (order : Nat) : (s.closeRead h order).chip.still = s.chip.still := by
  simp only [State.closeRead]
  repeat' split
  all_goals simp

@[simp] theorem State.serveReads_chipStill (s : State) (h : SlotId) : (s.serveReads h).chip.still = s.chip.still := by
  unfold State.serveReads
  dsimp only
  split <;> simp

@[simp] theorem State.compareRebuilt_chipStill (s : State) (h : SlotId) (seq pos : Nat) (was now : Bytes) :
    (s.compareRebuilt h seq pos was now).chip.still = s.chip.still := by
  unfold State.compareRebuilt
  split <;> simp

@[simp] theorem State.sectorLanded_chipStill (s : State) (h : SlotId) (seq pos : Nat) (payload : Bytes) (bufs : List Nat) :
    (s.sectorLanded h seq pos payload bufs).chip.still = s.chip.still := by
  simp only [State.sectorLanded]
  repeat' split
  all_goals simp

@[simp] theorem State.sectorUnread_chipStill (s : State) (h : SlotId) (seq pos : Nat) (early : Bool) (bufs : List Nat) :
    (s.sectorUnread h seq pos early bufs).chip.still = s.chip.still := by
  simp [State.sectorUnread]

@[simp] theorem State.endInject_chipStill (s : State) (id : Nat) : (s.endInject id).chip.still = s.chip.still := by
  simp only [State.endInject]
  repeat' split
  all_goals simp

@[simp] theorem State.injectOne_chipStill (s : State) (id : Nat) (sample : Bool) (k0 : List Bytes) :
    (s.injectOne id sample k0).2.chip.still = s.chip.still := by
  induction k0 generalizing s id sample with
  | nil => rfl
  | cons f fs ih =>
    simp only [State.injectOne]
    split
    · split
      · split <;> simp [ih]
      · rfl
    · rfl

@[simp] theorem State.injectFrame_chipStill (s : State) (target : Nat × Nat × Nat) (frame : Bytes) :
    (s.injectFrame target frame).2.chip.still = s.chip.still := by
  unfold State.injectFrame
  dsimp only
  split
  · rfl
  · exact State.foldl2_chipStill (fun _ _ => by simp) _ _

@[simp] theorem State.sendDn_chipStill (s : State) (b : BayId) (p : Pu) (plain : Bytes) :
    (s.sendDn b p plain).chip.still = s.chip.still := by
  simp [State.sendDn]

@[simp] theorem State.sendMotor_chipStill (s : State) (b : BayId) (plain : Bytes) : (s.sendMotor b plain).chip.still = s.chip.still := by
  simp [State.sendMotor]

@[simp] theorem State.sendHead_chipStill (s : State) (b : BayId) (p : Pu) (type tsh : Nat) (payload : Bytes) :
    (s.sendHead b p type tsh payload).chip.still = s.chip.still := by
  simp [State.sendHead]

@[simp] theorem State.sendWrite_chipStill (s : State) (b : BayId) (p : Pu) (w : Nat × Bytes) :
    (s.sendWrite b p w).chip.still = s.chip.still := by
  simp [State.sendWrite]

@[simp] theorem State.dnSlot_chipStill (s : State) (b : BayId) (p : Pu) : (s.dnSlot b p).chip.still = s.chip.still := by
  simp only [State.dnSlot]
  repeat' split
  all_goals simp

@[simp] theorem State.dnSlots_chipStill (s : State) (b : BayId) (p : Pu) : (s.dnSlots b p).chip.still = s.chip.still := by
  unfold State.dnSlots
  dsimp only
  split <;> simp

@[simp] theorem State.dnTick_chipStill (s : State) : (s.dnTick).chip.still = s.chip.still := by
  unfold State.dnTick
  refine State.foldl_chipStill (fun _ _ => ?_) _ _
  split <;> simp

@[simp] theorem State.noteSector_chipStill (s : State) (b : BayId) (p : Pu) (r : SectorRec) :
    (s.noteSector b p r).chip.still = s.chip.still := by
  unfold State.noteSector
  dsimp only
  split <;> simp

@[simp] theorem State.deliverRead_chipStill (s : State) (b : BayId) (p : Pu) (a : SecAddr) (why : Purpose) (o : SecOutcome) (payload : Option Bytes) :
    (s.deliverRead b p a why o payload).chip.still = s.chip.still := by
  simp only [State.deliverRead]
  repeat' split
  all_goals simp

@[simp] theorem State.endUnread_chipStill (s : State) (b : BayId) (p : Pu) (a : SecAddr) (why : Purpose) :
    (s.endUnread b p a why).chip.still = s.chip.still := by
  unfold State.endUnread
  split <;> simp

@[simp] theorem State.endSlot_chipStill (s : State) (b : BayId) (p : Pu) (q : SoftSlot) (o : SecOutcome) (rung : Nat) (payload : Option Bytes) :
    (s.endSlot b p q o rung payload).chip.still = s.chip.still := by
  simp [State.endSlot]

@[simp] theorem State.readsLost_chipStill (s : State) (b : BayId) (p : Pu) : (s.readsLost b p).chip.still = s.chip.still := by
  simp [State.readsLost]

@[simp] theorem State.writeRelocRecord_chipStill (s : State) (b : BayId) (p : Pu) (layer : Nat) (homes : List SecAddr) :
    (s.writeRelocRecord b p layer homes).chip.still = s.chip.still := by
  simp only [State.writeRelocRecord]
  split
  · rfl
  · split
    · simp
    · refine (State.foldl_chipStill (fun _ _ => ?_) _ _).trans (by simp)
      split <;> simp

@[simp] theorem State.relocate_chipStill (s : State) (b : BayId) (p : Pu) (c : Coded) : (s.relocate b p c).chip.still = s.chip.still := by
  simp only [State.relocate]
  repeat' split
  all_goals simp

@[simp] theorem State.failCoded_chipStill (s : State) (b : BayId) (p : Pu) (a : SecAddr) :
    (s.failCoded b p a).chip.still = s.chip.still := by
  simp only [State.failCoded]
  repeat' split
  all_goals simp

@[simp] theorem State.abandonBlock_chipStill (s : State) (b : BayId) (p : Pu) : (s.abandonBlock b p).chip.still = s.chip.still := by
  simp only [State.abandonBlock]
  split
  · rfl
  · refine (State.foldl_chipStill (fun _ _ => ?_) _ _).trans ?_
    · split <;> simp
    · simp

@[simp] theorem State.failCurrent_chipStill (s : State) (b : BayId) (p : Pu) : (s.failCurrent b p).chip.still = s.chip.still := by
  simp only [State.failCurrent]
  repeat' split
  all_goals simp

@[simp] theorem State.coresLost_chipStill (s : State) : (s.coresLost).chip.still = s.chip.still := by
  unfold State.coresLost
  refine State.foldl_chipStill (fun _ _ => ?_) _ _
  dsimp only
  repeat' split
  all_goals simp

@[simp] theorem State.leaveService_chipStill (s : State) (b : BayId) (p : Pu) : (s.leaveService b p).chip.still = s.chip.still := by
  simp [State.leaveService]

@[simp] theorem State.puOff_chipStill (s : State) (b : BayId) (p : Pu) : (s.puOff b p).chip.still = s.chip.still := by
  simp [State.puOff]

@[simp] theorem State.spFault_chipStill (s : State) (b : BayId) : (s.spFault b).chip.still = s.chip.still := by
  simp [State.spFault]

@[simp] theorem State.spStopped_chipStill (s : State) (b : BayId) : (s.spStopped b).chip.still = s.chip.still := by
  unfold State.spStopped
  dsimp only
  split <;> simp

@[simp] theorem State.sendDrive_chipStill (s : State) (b : BayId) (type tsh : Nat) (payload : Bytes) :
    (s.sendDrive b type tsh payload).chip.still = s.chip.still := by
  simp [State.sendDrive]

@[simp] theorem State.driveNext_chipStill (s : State) (b : BayId) : (s.driveNext b).chip.still = s.chip.still := by
  simp [State.driveNext]

@[simp] theorem State.mdnSlot_chipStill (s : State) (b : BayId) : (s.mdnSlot b).chip.still = s.chip.still := by
  simp only [State.mdnSlot]
  repeat' split
  all_goals simp

@[simp] theorem State.mdnSlots_chipStill (s : State) (b : BayId) : (s.mdnSlots b).chip.still = s.chip.still := by
  unfold State.mdnSlots
  dsimp only
  split <;> simp

@[simp] theorem State.safeHold_chipStill (s : State) (b : BayId) (brake : Bool) : (s.safeHold b brake).chip.still = s.chip.still := by
  simp only [State.safeHold]
  repeat' split
  all_goals simp

@[simp] theorem State.mdnBay_chipStill (s : State) (b : BayId) : (s.mdnBay b).chip.still = s.chip.still := by
  unfold State.mdnBay
  dsimp only
  split <;> simp

@[simp] theorem State.mdnTick_chipStill (s : State) : (s.mdnTick).chip.still = s.chip.still := by
  unfold State.mdnTick
  refine State.foldl_chipStill (fun _ _ => ?_) _ _
  split <;> simp

/-- A tick counts one microsecond, and `TIME` as R338 says. -/
theorem State.tick_clk (s : State) : s.tick.us = s.us + 1 ∧ (s.chip.clk.locked = true → s.chip.clk.slew = 0 → s.tick.time = s.time + 1)
    ∧ (s.chip.clk.locked = false → s.tick.time = s.time) := by
  have still : s.dnTick.mdnTick.watchBays.chip.still = s.chip.still := by simp
  obtain ⟨-, -, -, clk, -⟩ := ChipState.still_parts still
  unfold State.tick State.us State.time
  dsimp only
  rw [clk]
  refine ⟨rfl, fun locked steady => ?_, fun unlocked => ?_⟩
  · simp [locked, steady]
  · simp [unlocked]

/-- Settles O1: the front command by the definition of a step, the idle tick by what it leaves and what it counts. -/
theorem stepRunsTheFrontCommand : Obligations.StepRunsTheFrontCommand := by
  refine ⟨fun c rest s => rfl, fun s idle => ?_⟩
  obtain ⟨us, time, unlocked⟩ := s.tick_clk
  obtain ⟨pending, flash, trust, ddr⟩ := s.tick_frame
  refine ⟨s.tick, ?_, rfl, us, pending.trans idle, flash, ddr, trust, time, unlocked⟩
  unfold step
  rw [idle]

/-! ### The state after reset (R277, R344, R345, R351, R352, R399, R407) -/

/-- Every bay starts as `Bay.reset`, with its outputs low. -/
theorem State.reset_bay (b : BayId) : State.reset.bay b = .reset := by
  show (Vector.replicate 32 Bay.reset)[b.val] = .reset
  exact Vector.getElem_replicate b.isLt

theorem State.reset_safeBay (b : BayId) : State.reset.safeBay b = .reset := by
  unfold State.safeBay
  show (List.replicate 32 BaySafe.reset).getD b.val .reset = _
  rw [List.getD_eq_getElem?_getD, List.getElem?_replicate]
  split <;> rfl

/-- Settles O2: field by field, each bay by the state that all bays start in. -/
theorem resetState : Obligations.ResetState := by
  refine ⟨rfl, rfl, rfl, rfl, rfl, rfl, rfl, rfl, fun d slot => ?_, fun b => ?_, ⟨rfl, rfl⟩, Island.reset_ok⟩
  · exact List.eq_of_mem_replicate slot
  · rw [State.reset_safeBay, State.reset_bay]
    refine ⟨rfl, rfl, rfl, rfl, fun p => ?_⟩
    unfold State.link State.pu
    rw [State.reset_bay]
    cases p <;> exact ⟨rfl, rfl⟩

/-! ### Memories in canonical form (R302, R319; log 9) -/

/-- The commands that write DDR5 keep both memories canonical. -/
theorem exec_memOk_ofDdr {c : Instr} {s t : State} (listed : changesDdr c = true) (ok : s.memOk) (run : exec c s = .next t) :
    t.memOk := by
  cases c with
  | activateFwSystemReset tag => exact execActivateFwSystemReset_memOk tag ok run
  | mergeNarrowWrite ch addr data => exact execMergeNarrowWrite_memOk ch addr data ok run
  | mergeEntryRetire ch readUncorrectable => exact execMergeEntryRetire_memOk ch readUncorrectable ok run
  | powerOnReset => exact execPowerOnReset_memOk ok run
  | sysrstNAssert => exact execSysrstNAssert_memOk ok run
  | pePerstSystem => exact execPePerstSystem_memOk ok run
  | watchdogFinalStage => exact execWatchdogFinalStage_memOk ok run
  | rootLost => exact execRootLost_memOk ok run
  | bringupStep good rates => exact execBringupStep_memOk good rates ok run
  | supplyMonitorTrip rail => exact execSupplyMonitorTrip_memOk rail ok run
  | crashRecordAppend => exact execCrashRecordAppend_memOk ok run
  | heartbeatLostIsland => exact execHeartbeatLostIsland_memOk ok run
  | flashEraseProgramDone op good => exact execFlashEraseProgramDone_memOk op good ok run
  | _ => exact absurd listed Bool.false_ne_true

/-- So do those that write flash. -/
theorem exec_memOk_ofFlash {c : Instr} {s t : State} (listed : changesFlashData c = true) (ok : s.memOk)
    (run : exec c s = .next t) : t.memOk := by
  cases c with
  | fwStartResult started => exact execFwStartResult_memOk started ok run
  | bringupStep good rates => exact execBringupStep_memOk good rates ok run
  | flashEraseProgramDone op good => exact execFlashEraseProgramDone_memOk op good ok run
  | _ => exact absurd listed Bool.false_ne_true

/-- A command that is listed for neither memory leaves both as they are. -/
theorem exec_memOk {c : Instr} {s t : State} (ok : s.memOk) (run : exec c s = .next t) : t.memOk := by
  rcases exec_keepsOthers run .ddr with listed | ddr
  · exact exec_memOk_ofDdr listed ok run
  · rcases exec_keepsOthers run .flashData with listed | flash
    · exact exec_memOk_ofFlash listed ok run
    · exact State.memOk_of_eq ddr flash ok

/-- Settles O4: the tick writes no memory, and every command keeps the canonical form. -/
theorem memoryStaysCanonical : Obligations.MemoryStaysCanonical := fun _ _ =>
  step_keeps (P := State.memOk) (fun _ _ ok => ok) (fun s ok => State.memOk_of_eq (s := s) (by simp) (by simp) ok)
    (fun _ _ _ ok run => exec_memOk ok run)

/-! ### Outputs under their trips (R388 to R399) -/

/-- The commands that act on the island keep its outputs under their trips. -/
theorem exec_outputsOk_ofIsland {c : Instr} {s t : State} (listed : changesIsland c = true) (ok : s.isl.outputsOk)
    (run : exec c s = .next t) : t.isl.outputsOk := by
  cases c with
  | activateFwSystemReset tag => exact execActivateFwSystemReset_safe tag s t ok run
  | memUe part ch addr => exact execMemUe_safe part ch addr s t ok run
  | powerOnReset => exact execPowerOnReset_safe s t ok run
  | sysrstNAssert => exact execSysrstNAssert_safe s t ok run
  | pePerstSystem => exact execPePerstSystem_safe s t ok run
  | watchdogFinalStage => exact execWatchdogFinalStage_safe s t ok run
  | clockReleaseTimeout blk => exact execClockReleaseTimeout_safe blk s t ok run
  | clockGoodLoss blk => exact execClockGoodLoss_safe blk s t ok run
  | rootLost => exact execRootLost_safe s t ok run
  | ddrPllUnlock => exact execDdrPllUnlock_safe s t ok run
  | bringupStep good rates => exact execBringupStep_safe good rates s t ok run
  | supplyMonitorTrip rail => exact execSupplyMonitorTrip_safe rail s t ok run
  | thermalTrip => exact execThermalTrip_safe s t ok run
  | creditAudit region link mismatch => exact execCreditAudit_safe region link mismatch s t ok run
  | creditStarve region link => exact execCreditStarve_safe region link s t ok run
  | duplexDisagree kind region inst which again => exact execDuplexDisagree_safe kind region inst which again s t ok run
  | regionLost r => exact execRegionLost_safe r s t ok run
  | chipFatal cause kind inst => exact execChipFatal_safe cause kind inst s t ok run
  | crashRecordAppend => exact execCrashRecordAppend_safe s t ok run
  | lmonTrip b => exact execLmonTrip_safe b s t ok run
  | ilkOpen => exact execIlkOpen_safe s t ok run
  | spdfToggle b afterUs => exact execSpdfToggle_safe b afterUs s t ok run
  | speedReport b => exact execSpeedReport_safe b s t ok run
  | plausibilityTrip b => exact execPlausibilityTrip_safe b s t ok run
  | gateForce b p => exact execGateForce_safe b p s t ok run
  | bayHoldReceipt b => exact execBayHoldReceipt_safe b s t ok run
  | heartbeatWordRx side seq checkGood onPeriod serviceGood => exact execHeartbeatWordRx_safe side seq checkGood onPeriod serviceGood s t ok run
  | heartbeatLostIsland => exact execHeartbeatLostIsland_safe s t ok run
  | islandLostAgent => exact execIslandLostAgent_safe s t ok run
  | permitRequest b lsafe ilkHighMs lmonHighMs => exact execPermitRequest_safe b lsafe ilkHighMs lmonHighMs s t ok run
  | keeperDrop b lsafe => exact execKeeperDrop_safe b lsafe s t ok run
  | outputReadback b lsafe pinHigh => exact execOutputReadback_safe b lsafe pinHigh s t ok run
  | lockstepMismatch => exact execLockstepMismatch_safe s t ok run
  | romCheck good => exact execRomCheck_safe good s t ok run
  | vddSafeExcursion => exact execVddSafeExcursion_safe s t ok run
  | lmonMismatch b => exact execLmonMismatch_safe b s t ok run
  | vddSafeReturn selfTestGood => exact execVddSafeReturn_safe selfTestGood s t ok run
  | flashEraseProgramDone op good => exact execFlashEraseProgramDone_safe op good s t ok run
  | _ => exact absurd listed Bool.false_ne_true

/-- Every other command leaves the island as it is. -/
theorem exec_outputsOk {c : Instr} {s t : State} (ok : s.isl.outputsOk) (run : exec c s = .next t) : t.isl.outputsOk := by
  rcases exec_keepsOthers run .island with listed | same
  · exact exec_outputsOk_ofIsland listed ok run
  · rw [show t.isl = s.isl from same]
    exact ok

/-- Settles O5: the watch of a tick raises no output and clears no trip, and every command keeps the invariant. -/
theorem outputsObeyTrips : Obligations.OutputsObeyTrips := fun _ _ =>
  step_keeps (P := fun s => s.isl.outputsOk) (fun _ _ ok => ok) (fun s ok => s.tick_safe ok)
    (fun _ _ _ ok run => exec_outputsOk ok run)

/-! ### Other bays (R379) -/

/-- Settles O7: each command that has a bay of its own reaches no other, by the lemma of its command. -/
theorem baysAreIsolated : Obligations.BaysAreIsolated := by
  intro c b o s t own other run
  show t.bays.get o = s.bays.get o
  cases c with
  | timingHoldLimit b p i_ => cases own; exact execTimingHoldLimit_other b p i_ s t o (Ne.symm other) run
  | rowSwitchTimeout b p => cases own; exact execRowSwitchTimeout_other b p s t o (Ne.symm other) run
  | loopLock b p lp => cases own; exact execLoopLock_other b p lp s t o (Ne.symm other) run
  | bankSwapArm b slot p src bank tick => cases own; exact execBankSwapArm_other b slot p src bank tick s t o (Ne.symm other) run
  | unitHandoverDone b u => cases own; exact execUnitHandoverDone_other b u s t o (Ne.symm other) run
  | hlinkReplyFrame b p l raw => cases own; exact execHlinkReplyFrame_other b p l raw s t o (Ne.symm other) run
  | hlinkTrainTimeout b p => cases own; exact execHlinkTrainTimeout_other b p s t o (Ne.symm other) run
  | hlinkTrainRetry b p => cases own; exact execHlinkTrainRetry_other b p s t o (Ne.symm other) run
  | spareTrainDone b p ok => cases own; exact execSpareTrainDone_other b p ok s t o (Ne.symm other) run
  | laneTrainResult b p l ok => cases own; exact execLaneTrainResult_other b p l ok s t o (Ne.symm other) run
  | laneMapBack b p => cases own; exact execLaneMapBack_other b p s t o (Ne.symm other) run
  | spareStandbyApply b => cases own; exact execSpareStandbyApply_other b s t o (Ne.symm other) run
  | segmentSyncVote b p => cases own; exact execSegmentSyncVote_other b p s t o (Ne.symm other) run
  | sectorSoftCommit b p => cases own; exact execSectorSoftCommit_other b p s t o (Ne.symm other) run
  | rereadPass b p sector => cases own; exact execRereadPass_other b p sector s t o (Ne.symm other) run
  | sectorEncode b p upset => cases own; exact execSectorEncode_other b p upset s t o (Ne.symm other) run
  | passBlockStart b p => cases own; exact execPassBlockStart_other b p s t o (Ne.symm other) run
  | strategyBankLoad b p layer => cases own; exact execStrategyBankLoad_other b p layer s t o (Ne.symm other) run
  | relocExcursionStart b => cases own; exact execRelocExcursionStart_other b s t o (Ne.symm other) run
  | swathJumpIssue b p s_ => cases own; exact execSwathJumpIssue_other b p s_ s t o (Ne.symm other) run
  | targetFrameApproach b p frame opensBlock => cases own; exact execTargetFrameApproach_other b p frame opensBlock s t o (Ne.symm other) run
  | restLoopJump b p => cases own; exact execRestLoopJump_other b p s t o (Ne.symm other) run
  | saTrimUpdate b p => cases own; exact execSaTrimUpdate_other b p s t o (Ne.symm other) run
  | layerJumpIssue b p layer => cases own; exact execLayerJumpIssue_other b p layer s t o (Ne.symm other) run
  | seekIssue b radius => cases own; exact execSeekIssue_other b radius s t o (Ne.symm other) run
  | pickupFailedRetry b p => cases own; exact execPickupFailedRetry_other b p s t o (Ne.symm other) run
  | clvRefSwitch b => cases own; exact execClvRefSwitch_other b s t o (Ne.symm other) run
  | clvRefRestore b => cases own; exact execClvRefRestore_other b s t o (Ne.symm other) run
  | bayProbe b => cases own; exact execBayProbe_other b s t o (Ne.symm other) run
  | autoTuneStart b p lp => cases own; exact execAutoTuneStart_other b p lp s t o (Ne.symm other) run
  | autoTuneEnd b p => cases own; exact execAutoTuneEnd_other b p s t o (Ne.symm other) run
  | tuneRevertWindowEnd b p lp => cases own; exact execTuneRevertWindowEnd_other b p lp s t o (Ne.symm other) run
  | mlinkTrainFrame b raw => cases own; exact execMlinkTrainFrame_other b raw s t o (Ne.symm other) run
  | mlinkTrainTimeout b => cases own; exact execMlinkTrainTimeout_other b s t o (Ne.symm other) run
  | mlinkTrainRetry b => cases own; exact execMlinkTrainRetry_other b s t o (Ne.symm other) run
  | mlinkLost b => cases own; exact execMlinkLost_other b s t o (Ne.symm other) run
  | speedLoopSample b => cases own; exact execSpeedLoopSample_other b s t o (Ne.symm other) run
  | spindleStart b => cases own; exact execSpindleStart_other b s t o (Ne.symm other) run
  | alignEnd b => cases own; exact execAlignEnd_other b s t o (Ne.symm other) run
  | rampHandover b => cases own; exact execRampHandover_other b s t o (Ne.symm other) run
  | startWaitEnd b => cases own; exact execStartWaitEnd_other b s t o (Ne.symm other) run
  | spindleFaultRetry b => cases own; exact execSpindleFaultRetry_other b s t o (Ne.symm other) run
  | testCatch b => cases own; exact execTestCatch_other b s t o (Ne.symm other) run
  | observerLost b => cases own; exact execObserverLost_other b s t o (Ne.symm other) run
  | overspeedDetect b => cases own; exact execOverspeedDetect_other b s t o (Ne.symm other) run
  | speedReady b => cases own; exact execSpeedReady_other b s t o (Ne.symm other) run
  | sledCoarseStep b => cases own; exact execSledCoarseStep_other b s t o (Ne.symm other) run
  | sledTarget b p radius seek => cases own; exact execSledTarget_other b p radius seek s t o (Ne.symm other) run
  | seekArrive b p => cases own; exact execSeekArrive_other b p s t o (Ne.symm other) run
  | sledHoldReduce b p => cases own; exact execSledHoldReduce_other b p s t o (Ne.symm other) run
  | sledPowerDown b p => cases own; exact execSledPowerDown_other b p s t o (Ne.symm other) run
  | sledTableLoad b bank table => cases own; exact execSledTableLoad_other b bank table s t o (Ne.symm other) run
  | hamperAutoMount b => cases own; exact execHamperAutoMount_other b s t o (Ne.symm other) run
  | memberGraceExpire b p => cases own; exact execMemberGraceExpire_other b p s t o (Ne.symm other) run
  | bayBringupStart b => cases own; exact execBayBringupStart_other b s t o (Ne.symm other) run
  | calStepRun b p item => cases own; exact execCalStepRun_other b p item s t o (Ne.symm other) run
  | calGapForce b p => cases own; exact execCalGapForce_other b p s t o (Ne.symm other) run
  | sliceMarginSweep b p l slice margin after => cases own; exact execSliceMarginSweep_other b p l slice margin after s t o (Ne.symm other) run
  | calRecordAppend b u => cases own; exact execCalRecordAppend_other b u s t o (Ne.symm other) run
  | lmonTrip b => cases own; exact execLmonTrip_other b s t o (Ne.symm other) run
  | spdfToggle b afterUs => cases own; exact execSpdfToggle_other b afterUs s t o (Ne.symm other) run
  | speedReport b => cases own; exact execSpeedReport_other b s t o (Ne.symm other) run
  | plausibilityTrip b => cases own; exact execPlausibilityTrip_other b s t o (Ne.symm other) run
  | gateForce b p => cases own; exact execGateForce_other b p s t o (Ne.symm other) run
  | bayHoldReceipt b => cases own; exact execBayHoldReceipt_other b s t o (Ne.symm other) run
  | permitRequest b lsafe ilkHighMs lmonHighMs => cases own; exact execPermitRequest_other b lsafe ilkHighMs lmonHighMs s t o (Ne.symm other) run
  | keeperDrop b lsafe => cases own; exact execKeeperDrop_other b lsafe s t o (Ne.symm other) run
  | outputReadback b lsafe pinHigh => cases own; exact execOutputReadback_other b lsafe pinHigh s t o (Ne.symm other) run
  | lmonMismatch b => cases own; exact execLmonMismatch_other b s t o (Ne.symm other) run
  | _ => cases own

end Sys2Proof.Machine
end

section
/-! Reading rings, functions and commands after a change of one of them. -/

namespace Sys2Proof.Machine

/-! ### The entry that a change finds -/

/-- Where a change keeps what marks an entry, the entry found after it is the one found before, changed. -/
theorem find_map_marked {α : Type} {p : α → Bool} {g : α → α} (keeps : ∀ x, p x = true → p (g x) = true) (l : List α) :
    (l.map (fun x => if p x = true then g x else x)).find? p = (l.find? p).map g := by
  induction l with
  | nil => rfl
  | cons x l ih =>
    by_cases marked : p x = true
    · simp [marked, keeps x marked]
    · simpa [marked] using ih

theorem State.updFn_fn (s : State) (f : FnId) (g : Fn → Fn) (keeps : ∀ x, x.id = f → (g x).id = f) :
    (s.updFn f g).fn? f = (s.fn? f).map g :=
  find_map_marked (p := fun x : Fn => x.id == f) (g := g) (by simpa using keeps) s.host.fns

theorem State.updSr_sr (s : State) (f : FnId) (id : Nat) (g : Sr → Sr) (keeps : ∀ r, (g r).fn = r.fn ∧ (g r).id = r.id) :
    (s.updSr f id g).sr? f id = (s.sr? f id).map g :=
  find_map_marked (p := fun r : Sr => r.fn == f && r.id == id) (g := g) (by simp [keeps]) s.host.srs

theorem State.updCr_cr (s : State) (f : FnId) (id : Nat) (g : Cr → Cr) (keeps : ∀ k, (g k).fn = k.fn ∧ (g k).id = k.id) :
    (s.updCr f id g).cr? f id = (s.cr? f id).map g :=
  find_map_marked (p := fun k : Cr => k.fn == f && k.id == id) (g := g) (by simp [keeps]) s.host.crs

theorem State.updCmd_cmdAt (s : State) (order : Nat) (g : Cmd → Cmd) (keeps : ∀ c, c.order = order → (g c).order = order) :
    (s.updCmd order g).cmdAt order = (s.cmdAt order).map g :=
  find_map_marked (p := fun c : Cmd => c.order == order) (g := g) (by simpa using keeps) s.host.cmds

/-! The same, for an entry that is known and a change that sets fields other than its marks. -/

theorem State.updFn_found {s : State} {f : FnId} {x : Fn} (found : s.fn? f = some x) (g : Fn → Fn)
    (keeps : ∀ x, x.id = f → (g x).id = f := by exact fun _ same => same) : (s.updFn f g).fn? f = some (g x) := by
  rw [State.updFn_fn s f g keeps, found]; rfl

theorem State.updSr_found {s : State} {f : FnId} {id : Nat} {r : Sr} (found : s.sr? f id = some r) (g : Sr → Sr)
    (keeps : ∀ r, (g r).fn = r.fn ∧ (g r).id = r.id := by exact fun _ => ⟨rfl, rfl⟩) : (s.updSr f id g).sr? f id = some (g r) := by
  rw [State.updSr_sr s f id g keeps, found]; rfl

theorem State.updCr_found {s : State} {f : FnId} {id : Nat} {k : Cr} (found : s.cr? f id = some k) (g : Cr → Cr)
    (keeps : ∀ k, (g k).fn = k.fn ∧ (g k).id = k.id := by exact fun _ => ⟨rfl, rfl⟩) : (s.updCr f id g).cr? f id = some (g k) := by
  rw [State.updCr_cr s f id g keeps, found]; rfl

theorem State.updCmd_found {s : State} {order : Nat} {c : Cmd} (found : s.cmdAt order = some c) (g : Cmd → Cmd)
    (keeps : ∀ c, c.order = order → (g c).order = order := by exact fun _ same => same) : (s.updCmd order g).cmdAt order = some (g c) := by
  rw [State.updCmd_cmdAt s order g keeps, found]; rfl

/-! ### The mark of an entry found -/

theorem State.sr_mark {s : State} {f : FnId} {id : Nat} {r : Sr} (found : s.sr? f id = some r) : r.fn = f ∧ r.id = id := by
  simpa using List.find?_some found

theorem State.cmdAt_order {s : State} {order : Nat} {c : Cmd} (found : s.cmdAt order = some c) : c.order = order := by
  simpa using List.find?_some found

/-! ### Lists that stand still -/

theorem State.sr_congr {s t : State} (same : t.host.srs = s.host.srs) (f : FnId) (id : Nat) : t.sr? f id = s.sr? f id := by
  unfold State.sr?; rw [same]

theorem State.cr_congr {s t : State} (same : t.host.crs = s.host.crs) (f : FnId) (id : Nat) : t.cr? f id = s.cr? f id := by
  unfold State.cr?; rw [same]

theorem State.cmdAt_congr {s t : State} (same : t.host.cmds = s.host.cmds) (order : Nat) : t.cmdAt order = s.cmdAt order := by
  unfold State.cmdAt; rw [same]

/-- A vector's signal is a message or a pending bit: it changes no ring and no command (R274). -/
@[simp] theorem State.signal_lists (s : State) (f : FnId) (v : Nat) : (s.signal f v).host.srs = s.host.srs
    ∧ (s.signal f v).host.crs = s.host.crs ∧ (s.signal f v).host.cmds = s.host.cmds := by
  unfold State.signal
  split
  · exact ⟨rfl, rfl, rfl⟩
  · dsimp only
    split <;> exact ⟨rfl, rfl, rfl⟩

/-- Finishing a command changes the list of commands and no other of the host side. -/
@[simp] theorem State.finish_lists (s : State) (order : Nat) (st : Status) (result : Nat) :
    (s.finish order st result).host.fns = s.host.fns ∧ (s.finish order st result).host.srs = s.host.srs
      ∧ (s.finish order st result).host.crs = s.host.crs ∧ (s.finish order st result).host.stageBusy = s.host.stageBusy := by
  unfold State.finish
  split
  · exact ⟨rfl, rfl, rfl, rfl⟩
  · split
    · exact ⟨rfl, rfl, rfl, rfl⟩
    · split
      · dsimp only
        split <;> simp
      · exact ⟨rfl, rfl, rfl, rfl⟩

end Sys2Proof.Machine
end

section
/-! Doorbells and BAR writes (O36). -/

namespace Sys2Proof.Machine

section
variable {s : State} {f : FnId} (up : s.barUp f = true)
include up

/-- A doorbell of a ring that does not exist is counted (R262). -/
theorem exec_srDoorbellWrite_counts {sr : Nat} (quota : sr < s.srQuota f) (absent : s.sr? f sr = none) (v : BitVec 32) :
    exec (.srDoorbellWrite f sr v) s = .next { s with host := { s.host with badDoorbells := s.host.badDoorbells + 1 } } := by
  show execSrDoorbellWrite f sr v s = _
  simp [execSrDoorbellWrite, up, absent, Nat.not_le.mpr quota]

/-- A tail of the ring's range becomes the tail (R262). -/
theorem exec_srDoorbellWrite_moves {sr : Nat} {r : Sr} {v : BitVec 32} (quota : sr < s.srQuota f) (found : s.sr? f sr = some r)
    (kept : r.deleting = none) (inRange : v.toNat < r.depth) :
    exec (.srDoorbellWrite f sr v) s = .next (s.updSr f sr (fun r => { r with tail := v.toNat })) := by
  show execSrDoorbellWrite f sr v s = _
  simp [execSrDoorbellWrite, up, found, Nat.not_le.mpr quota, kept, Nat.not_le.mpr inRange]

/-- Any other tail stops the ring (R262). -/
theorem exec_srDoorbellWrite_stops {sr : Nat} {r : Sr} {v : BitVec 32} (quota : sr < s.srQuota f) (found : s.sr? f sr = some r)
    (kept : r.deleting = none) (beyond : r.depth ≤ v.toNat) :
    exec (.srDoorbellWrite f sr v) s =
      .next ((s.updSr f sr (fun r => { r with stopped := true })).raise 897 .ringBadDoorbell f.val sr v.toNat) := by
  show execSrDoorbellWrite f sr v s = _
  simp [execSrDoorbellWrite, up, found, Nat.not_le.mpr quota, kept, beyond]

/-- A head within the entries written frees the slots before it (R263). -/
theorem exec_crHeadDoorbellWrite_frees {cr : Nat} {k : Cr} {v : BitVec 32} (quota : cr < s.crQuota f) (found : s.cr? f cr = some k)
    (completion : k.event = false) (inRange : v.toNat < k.depth) (some' : 0 < (v.toNat + k.depth - k.head) % k.depth)
    (left : (v.toNat + k.depth - k.head) % k.depth < k.pending) :
    exec (.crHeadDoorbellWrite f cr v) s = .next (s.updCr f cr (fun k' => { k' with
      head := v.toNat, pending := k.pending - (v.toNat + k.depth - k.head) % k.depth, since := some s.us, signalled := false })) := by
  show execCrHeadDoorbellWrite f cr v s = _
  generalize freed : (v.toNat + k.depth - k.head) % k.depth = n at some' left ⊢
  have within : ¬(k.depth ≤ v.toNat ∨ k.pending < n) := by omega
  have moves : n ≠ 0 := by omega
  have stays : k.pending - n ≠ 0 := by omega
  simp [execCrHeadDoorbellWrite, up, found, Nat.not_le.mpr quota, completion, freed, within, moves, stays]

/-- An aligned write of 64 bytes to the image of admin SR 0 lands there (R257, R258). -/
theorem exec_barWriteOther_entry {o : Nat} {data : Bytes} (whole : data.length = 64) (within : o + 64 ≤ 4096) (aligned : o % 64 = 0) :
    exec (.barWriteOther f ((if f = 0 then 0x801000 else 0x6000) + o) data) s = .next (s.updFn f (fun x => { x with
      sr0 := x.sr0.filter (fun e => !(e.1 == o && e.2.length == 64)) ++ [(o, data)] })) := by
  show execBarWriteOther f _ data s = _
  by_cases physical : f = 0
  · have place : (0x801000 + o) % 64 = 0 := by omega
    have ends : 0x801000 + o + 64 ≤ 0x801000 + 4096 := by omega
    have image : 0x801000 + o - 0x801000 = o := by omega
    subst physical
    simp only [execBarWriteOther, up, whole, place, ends, image, Nat.le_add_right, if_true, Bool.not_true, Bool.false_eq_true, if_false,
      and_self, or_true]
  · have place : (0x6000 + o) % 64 = 0 := by omega
    have ends : 0x6000 + o + 64 ≤ 0x6000 + 4096 := by omega
    have image : 0x6000 + o - 0x6000 = o := by omega
    simp only [execBarWriteOther, up, physical, whole, place, ends, image, Nat.le_add_right, if_true, Bool.not_true, Bool.false_eq_true,
      if_false, and_self, or_true]

end

/-- Settles O36: each write makes the one change of its ring or BAR image that it is for. -/
theorem doorbellsMoveRings : Obligations.DoorbellsMoveRings := by
  intro s f up
  refine ⟨fun sr v quota => ⟨fun absent => ⟨_, exec_srDoorbellWrite_counts up quota absent v, rfl⟩, fun r found kept => ⟨fun inRange => ?_,
    fun beyond => ?_⟩⟩, fun cr v k quota found completion inRange some' left => ?_, fun x o data found whole within aligned => ?_⟩
  · exact ⟨_, exec_srDoorbellWrite_moves up quota found kept inRange, State.updSr_found found _⟩
  · refine ⟨_, exec_srDoorbellWrite_stops up quota found kept beyond, ?_⟩
    exact (State.sr_congr (State.raise_hostParts _ _ _ _ _ _).1 f sr).trans (State.updSr_found found _)
  · exact ⟨_, exec_crHeadDoorbellWrite_frees up quota found completion inRange some' left, State.updCr_found found _⟩
  · exact ⟨_, exec_barWriteOther_entry up whole within aligned, State.updFn_found found _⟩

end Sys2Proof.Machine
end

section
/-! The queue engine (O37). -/

namespace Sys2Proof.Machine

/-! ### What ends and posts of commands leave -/

/-- A command that is not a `WRITE` ends once its buffers are back. -/
theorem State.endCmd_eq {s : State} {c : Cmd} (other : c.opc ≠ 0x11) (st : Status) :
    s.endCmd c st = (s.dropRequester c.order).finish c.order st 0 := by
  unfold State.endCmd
  rw [if_neg (by simpa using other)]

/-- A command that is not a `WRITE` ends with the status it is given. -/
theorem State.endCmd_ended {s : State} {c : Cmd} (other : c.opc ≠ 0x11) (live : s.liveAt c.order) (st : Status) :
    (s.endCmd c st).endedAt c.order st := by
  rw [State.endCmd_eq other]
  exact State.finish_ended st 0 (State.liveAt_of_cmds (by simp) live)

/-- Ending a held command leaves the list of commands to the end itself. -/
theorem State.endHeld_ended {s : State} {c : Cmd} (other : c.opc ≠ 0x11) (live : s.liveAt c.order) :
    (s.endHeld c).endedAt c.order .notReady :=
  State.endCmd_ended other (State.liveAt_of_cmds (by simp) live) .notReady

/-- The commands that the end of one leaves: those before, and of its own number only one that has ended. -/
theorem State.finish_member {s : State} {order : Nat} {st : Status} {result : Nat} {d : Cmd}
    (member : d ∈ (s.finish order st result).host.cmds) :
    d ∈ s.host.cmds ∨ (d.phase = .done ∧ ∃ c ∈ s.host.cmds, c.order = order ∧ d.order = order) := by
  unfold State.finish at member
  split at member
  · exact Or.inl member
  next c found =>
    have number : c.order = order := State.cmdAt_order found
    split at member
    · exact Or.inl member
    · split at member
      · rw [show (if c.opc == 0x11 then _ else State.dropRequester _ order).host.cmds
            = s.host.cmds.filter (fun x => x.order != order) by split <;> simp] at member
        exact Or.inl (List.mem_filter.mp member).1
      · rcases List.mem_append.mp member with kept | new
        · exact Or.inl (List.mem_filter.mp kept).1
        · rw [List.mem_singleton.mp new]
          exact Or.inr ⟨rfl, c, List.mem_of_find?_eq_some found, number, number⟩

/-- No number appears by the end of a command. -/
theorem State.finish_orders {s : State} {order : Nat} {st : Status} {result : Nat} {d : Cmd}
    (member : d ∈ (s.finish order st result).host.cmds) : ∃ e ∈ s.host.cmds, e.order = d.order := by
  rcases State.finish_member member with before | ⟨-, c, before, number, same⟩
  · exact ⟨d, before, rfl⟩
  · exact ⟨c, before, number.trans same.symm⟩

/-- Nor by the closing of deleted rings. -/
theorem State.closeDeleted_orders {s : State} {f : FnId} {d : Cmd} (member : d ∈ (s.closeDeleted f).host.cmds) :
    ∃ e ∈ s.host.cmds, e.order = d.order := by
  unfold State.closeDeleted at member
  generalize s.host.srs.filter (fun r => r.fn == f && r.deleting.isSome) = l at member
  induction l generalizing s with
  | nil => exact ⟨d, member, rfl⟩
  | cons r l ih =>
    obtain ⟨e, one, same⟩ := ih (List.foldl_cons .. ▸ member)
    split at one
    · dsimp only at one
      split at one
      · obtain ⟨e', before, same'⟩ := State.finish_orders one
        exact ⟨e', before, same'.trans same⟩
      · exact ⟨e, one, same⟩
    · exact ⟨e, one, same⟩

/-- A vector's signal takes back nothing that was sent. -/
theorem State.signal_out {s : State} {f : FnId} {v : Nat} {o : Output} (sent : o ∈ s.out) : o ∈ (s.signal f v).out := by
  unfold State.signal
  split
  · exact sent
  · dsimp only
    split
    · exact sent
    · exact List.mem_cons_of_mem _ sent

theorem State.crSignal_out {s : State} {f : FnId} {id : Nat} {o : Output} (sent : o ∈ s.out) : o ∈ (s.crSignal f id).out := by
  unfold State.crSignal
  split
  · exact sent
  · split
    · exact State.signal_out sent
    · exact sent

/-- A post writes the command's entry to the host and takes it off the list of commands; then deleted rings close (R267, R281). -/
theorem State.postCmd_closes (s : State) (c : Cmd) (k : Cr) (sqhd : Nat) : ∃ t : State, s.postCmd c k sqhd = t.closeDeleted c.fn
    ∧ (∀ d ∈ t.host.cmds, d.order ≠ c.order)
    ∧ Output.completion c.fn k.id k.next (completionEntry c k.phase sqhd) ∈ t.out := by
  refine ⟨_, rfl, fun d member => ?_, ?_⟩
  · rw [State.ite_host, (State.dropRequester_frame _ _).2.2.2.1, ite_self] at member
    simpa using (List.mem_filter.mp member).2
  · rw [State.ite_out, (State.dropRequester_frame _ _).2.1, ite_self]
    exact State.crSignal_out (by simp [State.ite_out])

/-- So the command is gone for good. -/
theorem State.postCmd_gone {s : State} {c : Cmd} {k : Cr} {sqhd : Nat} {d : Cmd} (member : d ∈ (s.postCmd c k sqhd).host.cmds) :
    d.order ≠ c.order := by
  obtain ⟨t, closes, gone, -⟩ := s.postCmd_closes c k sqhd
  rw [closes] at member
  obtain ⟨e, before, same⟩ := State.closeDeleted_orders member
  rw [← same]
  exact gone e before

/-- And its entry stays written. -/
theorem State.postCmd_out (s : State) (c : Cmd) (k : Cr) (sqhd : Nat) :
    Output.completion c.fn k.id k.next (completionEntry c k.phase sqhd) ∈ (s.postCmd c k sqhd).out := by
  obtain ⟨t, closes, -, sent⟩ := s.postCmd_closes c k sqhd
  rw [closes, (State.closeDeleted_frame t c.fn).2.1]
  exact sent

/-! ### The commands of the engine -/

section
variable {s : State} (up : s.queueUp = true)
include up

/-- A granted ring gives its next entry for acceptance (R270). -/
theorem exec_fetchGrant_accepts {r : Sr} {s' : State} (e : Bytes) (segs : List Bytes) (fetching : s.host.fetchStop = false)
    (ready : s.host.ready = true) (granted : s.arbitrate = (some r, s')) (io : r.id ≠ 0) (one : s.grantSize r = 1) :
    exec (.fetchGrant [(e, segs)]) s = .next (s'.acceptEntry r.fn r.id (padTo 64 e) segs) := by
  show execFetchGrant _ s = _
  simp [execFetchGrant, up, fetching, ready, granted, io, one]

/-- A fetch that fails stops its ring (R255). -/
theorem exec_fetchFail_stops {f : FnId} {sr : Nat} {r : Sr} (found : s.sr? f sr = some r) (io : sr ≠ 0) (open' : s.grantable r = true)
    (fetching : s.host.fetchStop = false) :
    exec (.fetchFail f sr) s = .next (s.updSr f sr (fun r => { r with stopped := true })) := by
  show execFetchFail f sr s = _
  simp [execFetchFail, up, found, io, open', fetching]

/-- A transfer that fails ends its command (R255). -/
theorem exec_dmaTransferFail_ends {f : FnId} {sr : Nat} {tag : BitVec 6} {c : Cmd} (found : s.cmd? f sr tag = some c)
    (moving : c.pieces ≠ []) (started : c.phase = .started) (read : c.opc = 0x10) :
    exec (.dmaTransferFail f sr tag) s = .next (s.endCmd c .dmaError) := by
  show execDmaTransferFail f sr tag s = _
  simp [execDmaTransferFail, up, found, moving, started, read]

/-- The first finished command of a ring posts its entry (R254, R267, R288). -/
theorem exec_completionPost_posts {f : FnId} {sr : Nat} {tag : BitVec 6} {c : Cmd} {k : Cr} {r : Sr} (found : s.cmdLive? f sr tag = some c)
    (ring : s.ringOf c = some k) (source : s.sr? f sr = some r) (first : s.nextToPost k = some c)
    (abort : c.opc = 0x21 → c.status = .success → c.bound.bind s.cmdAt = none)
    (fates : s.host.fatesEnd ≤ c.order → ∀ v ∈ s.host.cmds, v.silent = false → s.host.fates.contains v.order = false)
    (room : k.isFull = false) (moves : s.fnMoves c = true) :
    exec (.completionPost f sr tag) s = .next (s.postCmd c k r.head) := by
  have alone : (c.opc == 0x21 && c.status == .success && (c.bound.bind s.cmdAt).isSome) = false := by
    by_cases posted : c.opc = 0x21 ∧ c.status = .success
    · simp [abort posted.1 posted.2]
    · simp_all
  have behind : (decide (s.host.fatesEnd ≤ c.order) && s.host.cmds.any (fun v => s.host.fates.contains v.order && !v.silent)) = false := by
    by_cases late : s.host.fatesEnd ≤ c.order
    · simp only [late, decide_true, Bool.true_and, List.any_eq_false, Bool.and_eq_true, Bool.not_eq_true', not_and]
      intro v member listed open'
      rw [fates late v member open'] at listed
      cases listed
    · simp [late]
  show execCompletionPost f sr tag s = _
  simp only [execCompletionPost, found, ring, source, first, alone, behind, room, up, moves]
  simp

/-- The coalescing timer signals (R274). -/
theorem exec_crCoalesceTimeout_signals {f : FnId} {cr k0 : Nat} {k : Cr} (found : s.cr? f cr = some k) (since : k.since = some k0)
    (timed : k.ctime ≠ 0) (some' : k.pending ≠ 0) (quiet : k.signalled = false) (due : k0 + k.ctime ≤ s.us) :
    exec (.crCoalesceTimeout f cr) s = .next ((s.updCr f cr (fun k => { k with signalled := true })).signal f k.vec) := by
  have awake : s.sysHeld = false := by simp_all [State.queueUp, State.coresHeld]
  show execCrCoalesceTimeout f cr s = _
  simp [execCrCoalesceTimeout, found, since, timed, some', quiet, due, awake]

/-- A hold that runs out ends its command (R273). -/
theorem exec_holdLimitExpire_ends {f : FnId} {sr k0 : Nat} {tag : BitVec 6} {c : Cmd} (found : s.cmd? f sr tag = some c)
    (held : c.phase = .held k0) (due : k0 + s.holdLimit c ≤ s.us) :
    exec (.holdLimitExpire f sr tag) s = .next (s.endHeld c) := by
  show execHoldLimitExpire f sr tag s = _
  simp [execHoldLimitExpire, up, found, held, due]

end

/-- Settles O37: each command of the engine by what it does, its state read by the rules of rings and commands. -/
theorem queueEngineServes : Obligations.QueueEngineServes := by
  intro s up
  refine ⟨fun r s' e segs fetching ready granted io one => exec_fetchGrant_accepts up e segs fetching ready granted io one,
    fun f sr r found io open' fetching => ⟨_, exec_fetchFail_stops up found io open' fetching, State.updSr_found found _⟩,
    fun f sr tag c found moving started read live => ⟨_, exec_dmaTransferFail_ends up found moving started read, ?_⟩,
    fun f sr tag c k r found ring source first abort fates room moves =>
      ⟨_, exec_completionPost_posts up found ring source first abort fates room moves, fun _ => State.postCmd_gone,
        s.postCmd_out c k r.head⟩,
    fun f cr k0 k found since timed some' quiet due => ⟨_, exec_crCoalesceTimeout_signals up found since timed some' quiet due, ?_⟩,
    fun f sr k0 tag c found held read live due => ⟨_, exec_holdLimitExpire_ends up found held due, ?_⟩⟩
  · exact State.endCmd_ended (by simp [read]) live _
  · exact (State.cr_congr (State.signal_lists _ _ _).2.1 f cr).trans (State.updCr_found found _)
  · exact State.endHeld_ended (by simp [read]) live

end Sys2Proof.Machine
end

section
/-! Functions, the PCI Express width and the timebase (O38, O39). -/

namespace Sys2Proof.Machine

/-! ### Functions by their numbers (R276, R354) -/

/-- A function is known exactly where its number is listed. -/
theorem State.fn_isSome_iff (s : State) (f : FnId) : (s.fn? f).isSome = true ↔ f ∈ s.host.fns.map (·.id) := by
  unfold State.fn?
  simp [List.find?_isSome]

/-- What a function level reset of a function that is known leaves. -/
theorem State.flr_known {s : State} {f : FnId} {x : Fn} (found : s.fn? f = some x) :
    (s.flr f).fn? f = some (Fn.fresh f) ∧ (∀ r ∈ (s.flr f).host.srs, r.fn ≠ f) ∧ ∀ k ∈ (s.flr f).host.crs, k.fn ≠ f := by
  have fresh := State.updFn_found found (fun _ => Fn.fresh f) (fun _ _ => rfl)
  unfold State.flr
  rw [found]
  exact ⟨fresh, fun r member => by simpa using (List.mem_filter.mp member).2, fun k member => by simpa using (List.mem_filter.mp member).2⟩

/-- A reset takes no function off the list. -/
@[simp] theorem State.flr_ids (s : State) (f : FnId) : (s.flr f).host.fns.map (·.id) = s.host.fns.map (·.id) := by
  unfold State.flr
  split
  · rfl
  · show ((s.host.fns.map (fun x => if x.id == f then Fn.fresh f else x)).map (·.id)) = _
    rw [List.map_map]
    refine List.map_congr_left fun x _ => ?_
    by_cases this : x.id = f <;> simp [this, Fn.fresh]

@[simp] theorem State.flr_vfs (s : State) (f : FnId) : (s.flr f).host.vfs = s.host.vfs := by
  unfold State.flr
  split <;> rfl

/-- With VF Enable cleared, function 0 is still known. -/
theorem State.dropVfs_physical {s : State} (known : (s.fn? 0).isSome = true) : (s.dropVfs.fn? 0).isSome = true := by
  have listed : ∀ (l : List FnId) (t : State), (l.foldl State.flr t).host.fns.map (·.id) = t.host.fns.map (·.id) := fun l => by
    induction l with
    | nil => exact fun _ => rfl
    | cons f l ih => exact fun t => (ih _).trans (t.flr_ids f)
  rw [State.fn_isSome_iff] at known ⊢
  obtain ⟨x, member, zero⟩ := List.mem_map.mp ((listed _ s).symm ▸ known)
  exact List.mem_map.mpr ⟨x, List.mem_filter.mpr ⟨member, by simp [zero]⟩, zero⟩

/-- A function that becomes ready has its admin rings (R261). -/
theorem State.fnReady_rings (s : State) (f : FnId) : ((s.fnReady f).sr? f 0).isSome = true ∧ ((s.fnReady f).cr? f 0).isSome = true := by
  constructor
  · show (List.find? _ (if s.host.srs.any _ then s.host.srs else s.host.srs ++ [adminSr f])).isSome = true
    split
    next has => simpa [List.find?_isSome] using has
    next => simp [List.find?_append, adminSr]
  · show (List.find? _ (if s.host.crs.any _ then s.host.crs else s.host.crs ++ [adminCr f])).isSome = true
    split
    next has => simpa [List.find?_isSome] using has
    next => simp [List.find?_append, adminCr]

/-! ### The commands -/

section
variable {s : State} (awake : s.sysHeld = false)
include awake

theorem exec_functionLevelReset_virtual {f : FnId} {x : Fn} (found : s.fn? f = some x) (virtual : f ≠ 0) :
    exec (.functionLevelReset f) s = .next (s.flr f) := by
  show execFunctionLevelReset f s = _
  simp [execFunctionLevelReset, awake, found, virtual]

theorem exec_busMasterEnableChange_sets (f : FnId) (on : Bool) :
    exec (.busMasterEnableChange f on) s = .next (s.updFn f (fun x => { x with bme := on })) := by
  show execBusMasterEnableChange f on s = _
  simp [execBusMasterEnableChange, awake]

theorem exec_vfReady_readies {f : FnId} {x : Fn} (found : s.fn? f = some x) (waits : x.ready = false) (ready : s.host.ready = true) :
    exec (.vfReady f) s = .next (s.fnReady f) := by
  show execVfReady f s = _
  simp [execVfReady, awake, found, waits, ready]

/-- VF Enable gives the functions it names (R354). -/
theorem exec_vfEnable_gives {n : Nat} (some' : 0 < n) (total : n ≤ s.vfTotal) : ∃ t, exec (.vfEnable n) s = .next t
    ∧ t.host.vfs = n ∧ ∀ f : FnId, 0 < f.val → f.val ≤ n → (t.fn? f).isSome = true := by
  refine ⟨_, show execVfEnable n s = .next _ by simp only [execVfEnable, awake, Nat.not_lt.mpr total, Nat.ne_of_gt some']; rfl, rfl,
    fun f low high => ?_⟩
  rw [State.fn_isSome_iff]
  show f ∈ List.map _ (s.host.fns ++ List.map Fn.fresh _)
  rw [List.map_append, List.mem_append]
  by_cases known : (s.fn? f).isSome = true
  · exact Or.inl ((s.fn_isSome_iff f).mp known)
  · refine Or.inr (List.mem_map.mpr ⟨Fn.fresh f, List.mem_map.mpr ⟨f, List.mem_filter.mpr ⟨List.mem_filterMap.mpr
      ⟨f.val - 1, List.mem_range.mpr (by omega), ?_⟩, by simpa using known⟩, rfl⟩, rfl⟩)
    have place : f.val - 1 + 1 = f.val := by omega
    simp [place]

/-- A reset of the PCI Express side (R343). -/
theorem exec_pciePerstLocal_resets (local' : s.trust.shadow.perstSys = false) : exec .pciePerstLocal s = .next { s.dropVfs.flr 0 with
    host := { (s.dropVfs.flr 0).host with width := HostState.reset.width, rate := HostState.reset.rate } } := by
  show execPciePerstLocal s = _
  simp [execPciePerstLocal, awake, local']

/-- A narrower width is taken and reported (R253). -/
theorem exec_pcieLinkDegrade_narrows {w : Nat} (width : w = 8 ∨ w = 4) (narrower : w < s.host.width) : exec (.pcieLinkDegrade w) s
    = .next (({ s with host := { s.host with width := w } } : State).raise 896 .pcieDegraded w 0 0) := by
  show execPcieLinkDegrade w s = _
  simp [execPcieLinkDegrade, awake, width, Nat.not_le.mpr narrower]

end

section
variable {s : State} {ns : Nat} (locked : s.chip.clk.locked = true)
include locked

/-- Within a second the timebase slews (R338). -/
theorem exec_ptmTimeUpdate_slews (above : ((ns / 1000 : Nat) : Int) - s.time ≤ 1000000) (below : -1000000 ≤ ((ns / 1000 : Nat) : Int) - s.time) :
    exec (.ptmTimeUpdate ns) s
      = .next { s with chip := { s.chip with clk := { s.chip.clk with slew := ((ns / 1000 : Nat) : Int) - s.time } } } := by
  have near : ¬(((ns / 1000 : Nat) : Int) - s.time > 1000000 ∨ ((ns / 1000 : Nat) : Int) - s.time < -1000000) := by omega
  show execPtmTimeUpdate ns s = _
  simp only [execPtmTimeUpdate, locked, near]
  rfl

/-- Beyond a second it steps (R338). -/
theorem exec_ptmTimeUpdate_steps (far : 1000000 < ((ns / 1000 : Nat) : Int) - s.time ∨ ((ns / 1000 : Nat) : Int) - s.time < -1000000) :
    exec (.ptmTimeUpdate ns) s = .next (({ s with chip := { s.chip with clk := { s.chip.clk with
      time := ns / 1000, slew := 0 } } } : State).raise 901 .timeStep 0 0 0) := by
  show execPtmTimeUpdate ns s = _
  simp only [execPtmTimeUpdate, locked, gt_iff_lt, far]
  rfl

end

/-- Settles O38: a reset by what it filters out of the rings, a VF Enable by the numbers it lists. -/
theorem functionsReset : Obligations.FunctionsReset := by
  intro s awake
  refine ⟨fun f x found => ⟨fun virtual => ⟨_, exec_functionLevelReset_virtual awake found virtual, State.flr_known found⟩,
    fun on => ⟨_, exec_busMasterEnableChange_sets awake f on, State.updFn_found found _⟩,
    fun waits ready => ⟨_, exec_vfReady_readies awake found waits ready, State.updFn_found found (fun x => { x with ready := true }),
      s.fnReady_rings f⟩⟩,
    fun n some' total _ => exec_vfEnable_gives awake some' total, fun local' known => ⟨_, exec_pciePerstLocal_resets awake local', ?_, ?_⟩⟩
  · exact State.flr_vfs _ 0
  · obtain ⟨x, found⟩ := Option.isSome_iff_exists.mp (State.dropVfs_physical known)
    exact (State.flr_known found).2.1

/-- Settles O39: both by the case of the difference; the event that goes with a step leaves the clock as it is. -/
theorem linkWidthAndTime : Obligations.LinkWidthAndTime := by
  refine fun s => ⟨fun w awake width narrower => ⟨_, exec_pcieLinkDegrade_narrows awake width narrower, by simp⟩, fun ns locked =>
    ⟨fun above below => ⟨_, exec_ptmTimeUpdate_slews locked above below, rfl, rfl⟩, fun far =>
      ⟨_, exec_ptmTimeUpdate_steps locked far, by simp, by simp⟩⟩⟩

end Sys2Proof.Machine
end

section
/-! Rings made and deleted (O40). -/

namespace Sys2Proof.Machine

/-! ### The command behind an entry -/

theorem State.cmd_of_ready {s : State} {opc : Nat} {f : FnId} {sr : Nat} {tag : BitVec 6} {c : Cmd} (ready : s.ready? opc f sr tag = some c) :
    s.cmd? f sr tag = some c := by
  unfold State.ready? at ready
  split at ready
  next d found =>
    split at ready
    · rw [found, ready]
    · cases ready
  next => cases ready

theorem State.cmd_of_admin {s : State} {opc : Nat} {f : FnId} {tag : BitVec 6} {c : Cmd} (ready : s.admin? opc f tag = some c) :
    s.cmd? f 0 tag = some c := by
  unfold State.admin? at ready
  split at ready
  · exact State.cmd_of_ready ready
  · cases ready

/-- A change of commands that keeps what marks them keeps which of them an entry names. -/
theorem State.updCmd_cmd (s : State) (order : Nat) (g : Cmd → Cmd)
    (keeps : ∀ c, (g c).fn = c.fn ∧ (g c).sr = c.sr ∧ (g c).tag = c.tag ∧ (g c).silent = c.silent) (f : FnId) (sr : Nat) (tag : BitVec 6) :
    (s.updCmd order g).cmd? f sr tag = (s.cmd? f sr tag).map (fun c => if c.order == order then g c else c) := by
  have marks : ∀ c : Cmd, (if c.order == order then g c else c).fn = c.fn ∧ (if c.order == order then g c else c).sr = c.sr
      ∧ (if c.order == order then g c else c).tag = c.tag ∧ (if c.order == order then g c else c).silent = c.silent := by
    intro c
    split
    · exact keeps c
    · exact ⟨rfl, rfl, rfl, rfl⟩
  unfold State.cmd? State.cmdLive? State.updCmd
  simp only [List.find?_map, Function.comp_def, marks]
  cases List.find? (fun c : Cmd => c.fn == f && c.sr == sr && c.tag == tag && !c.silent) s.host.cmds <;> rfl

/-! ### A command that has ended stays so -/

/-- Every command of that number has ended with that status, and there is one. -/
def State.settled (s : State) (order : Nat) (st : Status) : Prop :=
  s.endedAt order st ∧ ∀ d ∈ s.host.cmds, d.order = order → d.phase = .done

theorem State.settled.ended {s : State} {order : Nat} {st : Status} (done : s.settled order st) : s.endedAt order st := done.1

/-- A command that lives is settled by its end. -/
theorem State.finish_settles {s : State} {order : Nat} (st : Status) (result : Nat) (live : s.liveAt order) :
    (s.finish order st result).settled order st := by
  refine ⟨State.finish_ended st result live, ?_⟩
  obtain ⟨d, found, loud, running⟩ := live
  have run : (d.phase == .done) = false := by simpa using running
  intro e member same
  unfold State.finish at member
  rw [found] at member
  simp only [run, loud, Bool.false_eq_true, if_false] at member
  rcases List.mem_append.mp member with kept | new
  · exact absurd same (by simpa using (List.mem_filter.mp kept).2)
  · rw [List.mem_singleton.mp new]

/-- A command of another number stays. -/
theorem State.finish_keeps {s : State} {order : Nat} {st : Status} {result : Nat} {d : Cmd} (member : d ∈ s.host.cmds)
    (other : d.order ≠ order) : d ∈ (s.finish order st result).host.cmds := by
  have kept : d ∈ s.host.cmds.filter (fun x => x.order != order) := List.mem_filter.mpr ⟨member, by simpa using other⟩
  unfold State.finish
  split
  · exact member
  next c found =>
    split
    · exact member
    · split
      · rw [show (if c.opc == 0x11 then _ else State.dropRequester _ order).host.cmds
            = s.host.cmds.filter (fun x => x.order != order) by split <;> simp]
        exact kept
      · exact List.mem_append_left _ kept

/-- The end of any command leaves a settled one settled. -/
theorem State.settled.finish {s : State} {order : Nat} {st : Status} (done : s.settled order st) (n : Nat) (st' : Status) (result : Nat) :
    (s.finish n st' result).settled order st := by
  obtain ⟨⟨d, member, same, phase, status⟩, all⟩ := done
  by_cases own : n = order
  · have unchanged : s.finish n st' result = s := by
      unfold State.finish
      split
      · rfl
      next c found =>
        rw [all c (List.mem_of_find?_eq_some found) ((State.cmdAt_order found).trans own)]
        rfl
    rw [unchanged]
    exact ⟨⟨d, member, same, phase, status⟩, all⟩
  · refine ⟨⟨d, State.finish_keeps member (by rw [same]; exact Ne.symm own), same, phase, status⟩, fun e within number => ?_⟩
    rcases State.finish_member within with before | ⟨ended, -⟩
    · exact all e before number
    · exact ended

/-! ### Deleted rings close (R281) -/

/-- A ring is gone once its entries are off the list; the end of a command leaves it gone. -/
theorem State.sr_none_of_filter {s t : State} {f : FnId} {id : Nat}
    (within : ∀ r ∈ t.host.srs, r ∈ s.host.srs) (gone : s.sr? f id = none) : t.sr? f id = none := by
  unfold State.sr? at *
  rw [List.find?_eq_none] at *
  exact fun r member => gone r (within r member)

/-- What a filter drops is not found. -/
theorem find_filter_not {α : Type} (p : α → Bool) (l : List α) : (l.filter (fun x => !p x)).find? p = none :=
  List.find?_eq_none.mpr fun _ member => by simpa using (List.mem_filter.mp member).2

/-- The rings without those of function `f` with that number. -/
def State.dropRing (s : State) (f : FnId) (id : Nat) : State :=
  { s with host := { s.host with srs := s.host.srs.filter (fun x => !(x.fn == f && x.id == id)) } }

theorem State.dropRing_sr (s : State) (f : FnId) (id : Nat) : (s.dropRing f id).sr? f id = none :=
  find_filter_not (fun x : Sr => x.fn == f && x.id == id) s.host.srs

/-- The closing of one deleted ring of function `f`. -/
def State.closeOne (s : State) (f : FnId) (r : Sr) : State :=
  if s.outstanding f r.id = 0 then
    match r.deleting.bind (s.cmd? f 0) with
    | some c => (s.dropRing f r.id).finish c.order .success 0
    | none => s.dropRing f r.id
  else s

theorem State.closeDeleted_eq (s : State) (f : FnId) :
    s.closeDeleted f = (s.host.srs.filter (fun r => r.fn == f && r.deleting.isSome)).foldl (fun s r => s.closeOne f r) s := rfl

theorem State.closeOne_srs (s : State) (f : FnId) (r : Sr) : ∀ x ∈ (s.closeOne f r).host.srs, x ∈ s.host.srs := by
  have fewer : ∀ x ∈ (s.dropRing f r.id).host.srs, x ∈ s.host.srs := fun x member => (List.mem_filter.mp member).1
  unfold State.closeOne
  split
  · split
    · rw [(State.finish_lists _ _ _ _).2.1]
      exact fewer
    · exact fewer
  · exact fun x member => member

theorem State.settled.closeOne {s : State} {order : Nat} {st : Status} (done : s.settled order st) (f : FnId) (r : Sr) :
    (s.closeOne f r).settled order st := by
  have dropped : (s.dropRing f r.id).settled order st := done
  unfold State.closeOne
  split
  · split
    · exact dropped.finish _ _ _
    · exact dropped
  · exact done

/-- A ring with no command left closes: it is off the list, and the command that deletes it has ended. -/
theorem State.closeOne_closes {s : State} {f : FnId} {r : Sr} {tag : BitVec 6} {c : Cmd} (deleting : r.deleting = some tag)
    (found : s.cmd? f 0 tag = some c) (live : s.liveAt c.order) (idle : ∀ v ∈ s.host.cmds, v.fn = f → v.sr ≠ r.id) :
    (s.closeOne f r).sr? f r.id = none ∧ (s.closeOne f r).settled c.order .success := by
  have none' : s.outstanding f r.id = 0 := by
    unfold State.outstanding
    rw [List.length_eq_zero_iff, List.filter_eq_nil_iff]
    intro v member
    simp +contextual [idle v member]
  have closes : s.closeOne f r = (s.dropRing f r.id).finish c.order .success 0 := by
    simp [State.closeOne, none', deleting, found]
  rw [closes]
  exact ⟨(State.sr_congr (State.finish_lists _ _ _ _).2.1 f r.id).trans (s.dropRing_sr f r.id),
    State.finish_settles (s := s.dropRing f r.id) _ _ live⟩

/-- Where each ring that is being deleted is ring `id`, the closing of all leaves ring `id` gone and its deletion ended. -/
theorem State.closeDeleted_closes {s : State} {f : FnId} {id : Nat} {tag : BitVec 6} {c : Cmd}
    (one : ∀ r ∈ s.host.srs, r.fn = f → r.deleting.isSome = true → r.id = id ∧ r.deleting = some tag)
    (exists' : ∃ r ∈ s.host.srs, r.fn = f ∧ r.deleting.isSome = true) (found : s.cmd? f 0 tag = some c) (live : s.liveAt c.order)
    (idle : ∀ v ∈ s.host.cmds, v.fn = f → v.sr ≠ id) :
    (s.closeDeleted f).sr? f id = none ∧ (s.closeDeleted f).endedAt c.order .success := by
  have rest : ∀ (l : List Sr) (t : State), t.sr? f id = none → t.settled c.order .success →
      (l.foldl (fun s r => s.closeOne f r) t).sr? f id = none ∧ (l.foldl (fun s r => s.closeOne f r) t).endedAt c.order .success := by
    intro l
    induction l with
    | nil => exact fun t gone done => ⟨gone, done.ended⟩
    | cons r l ih => exact fun t gone done => ih _ (State.sr_none_of_filter (t.closeOne_srs f r) gone) (done.closeOne f r)
  rw [State.closeDeleted_eq]
  obtain ⟨r, member, own, deleting⟩ := exists'
  cases listed : s.host.srs.filter (fun r => r.fn == f && r.deleting.isSome) with
  | nil => exact absurd (List.mem_filter.mpr ⟨member, by simp [own, deleting]⟩) (listed ▸ List.not_mem_nil)
  | cons x l =>
    obtain ⟨within, marks⟩ := List.mem_filter.mp (listed ▸ List.mem_cons_self : x ∈ s.host.srs.filter _)
    simp only [Bool.and_eq_true, beq_iff_eq] at marks
    obtain ⟨number, by'⟩ := one x within marks.1 marks.2
    obtain ⟨gone, done⟩ := State.closeOne_closes by' found live (number.symm ▸ idle)
    rw [List.foldl_cons]
    exact rest l _ (number ▸ gone) done

/-! ### The commands -/

section
variable {s : State} {f : FnId} {tag : BitVec 6} {c : Cmd}

/-- The ring that a `CREATE_SR` names (R265). -/
def Cmd.namedSr (c : Cmd) (f : FnId) : Sr :=
  { fn := f, id := leAt c.entry 8 4, cr := leAt c.entry 12 2, base := leAt c.entry 16 8, depth := leAt c.entry 24 4,
    hold := leAt c.entry 28 2, head := 0, tail := 0, stopped := false, deleting := none }

theorem exec_createSr_makes {k : Cr} (ready : s.admin? 0x01 f tag = some c) (free : s.sr? f (leAt c.entry 8 4) = none)
    (ring : s.cr? f (leAt c.entry 12 2) = some k) (completion : k.event = false) : exec (.createSr f tag) s
      = .next (({ s with host := { s.host with srs := s.host.srs ++ [c.namedSr f] } } : State).finish c.order .success 0) := by
  show execCreateSr f tag s = _
  simp [execCreateSr, ready, free, ring, completion, Cmd.namedSr]

/-- The completion ring that a `CREATE_CR` names (R265). -/
def Cmd.namedCr (c : Cmd) (f : FnId) : Cr :=
  { fn := f, id := leAt c.entry 8 4, event := false, base := leAt c.entry 16 8, depth := leAt c.entry 24 4, vec := leAt c.entry 28 2,
    cthr := leAt c.entry 30 2, ctime := leAt c.entry 32 2, next := 0, phase := true, head := 0, pending := 0, since := none,
    signalled := false }

theorem exec_createCr_makes (ready : s.admin? 0x03 f tag = some c) (free : s.cr? f (leAt c.entry 8 4) = none)
    (completion : byteAt c.entry 12 ≠ 1) : exec (.createCr f tag) s
      = .next (({ s with host := { s.host with crs := s.host.crs ++ [c.namedCr f] } } : State).finish c.order .success 0) := by
  have event : (byteAt c.entry 12 == 1) = false := by simpa using completion
  show execCreateCr f tag s = _
  simp [execCreateCr, ready, free, event, Cmd.namedCr]

theorem exec_deleteCr_deletes (ready : s.admin? 0x04 f tag = some c) (found : (s.cr? f (leAt c.entry 8 4)).isSome = true)
    (unused : s.host.srs.any (fun r => r.fn == f && r.cr == leAt c.entry 8 4) = false) : exec (.deleteCr f tag) s
      = .next (({ s with host := { s.host with
        crs := s.host.crs.filter (fun k => !(k.fn == f && k.id == leAt c.entry 8 4)) } } : State).finish c.order .success 0) := by
  have known : (s.cr? f (leAt c.entry 8 4)).isNone = false := by simpa using found
  show execDeleteCr f tag s = _
  simp only [execDeleteCr, ready, known, unused]
  rfl

theorem exec_deleteCr_busy (ready : s.admin? 0x04 f tag = some c) (found : (s.cr? f (leAt c.entry 8 4)).isSome = true)
    (used : s.host.srs.any (fun r => r.fn == f && r.cr == leAt c.entry 8 4) = true) :
    exec (.deleteCr f tag) s = .next (s.finish c.order .busy 0) := by
  have known : (s.cr? f (leAt c.entry 8 4)).isNone = false := by simpa using found
  show execDeleteCr f tag s = _
  simp only [execDeleteCr, ready, known, used]
  rfl

/-- A `DELETE_SR` of a ring with no command marks it and closes it at once (R281). -/
theorem exec_deleteSr_closes {r : Sr} (ready : s.admin? 0x02 f tag = some c) (found : s.sr? f (leAt c.entry 8 4) = some r)
    (kept : r.deleting = none) (idle : ∀ v ∈ s.host.cmds, v.fn = f → v.sr ≠ leAt c.entry 8 4) : exec (.deleteSr f tag) s
      = .next (((s.start c).updSr f (leAt c.entry 8 4) (fun r => { r with deleting := some tag })).closeDeleted f) := by
  have held : ∀ p : Cmd → Bool, ((s.start c).updSr f (leAt c.entry 8 4) (fun r => { r with deleting := some tag })).host.cmds.filter
      (fun v => v.fn == f && v.sr == leAt c.entry 8 4 && !v.silent && p v) = [] := by
    intro p
    rw [List.filter_eq_nil_iff]
    intro v member
    obtain ⟨u, before, rfl⟩ := List.mem_map.mp member
    have marks : ∀ d : Cmd, (if d.order == c.order then { d with phase := .started } else d).fn = d.fn
        ∧ (if d.order == c.order then { d with phase := .started } else d).sr = d.sr := fun d => by split <;> exact ⟨rfl, rfl⟩
    simp only [marks]
    simp +contextual [idle u before]
  show execDeleteSr f tag s = _
  simp only [execDeleteSr, ready, found, kept]
  rw [held]
  rfl

end

/-- A ring that is made is found by its number. -/
theorem State.sr_of_made {s : State} {f : FnId} {r : Sr} (own : r.fn = f) (free : s.sr? f r.id = none) :
    ({ s with host := { s.host with srs := s.host.srs ++ [r] } } : State).sr? f r.id = some r := by
  unfold State.sr? at *
  simp [List.find?_append, free, own]

theorem State.cr_of_made {s : State} {f : FnId} {k : Cr} (own : k.fn = f) (free : s.cr? f k.id = none) :
    ({ s with host := { s.host with crs := s.host.crs ++ [k] } } : State).cr? f k.id = some k := by
  unfold State.cr? at *
  simp [List.find?_append, free, own]

/-- Settles O40: a ring made by the list it is appended to, a completion ring deleted by the filter, a submission ring deleted by the
closing of deleted rings. -/
theorem ringCommandsAct : Obligations.RingCommandsAct := by
  intro s f tag c live
  refine ⟨fun k ready free ring completion => ⟨_, c.namedSr f, exec_createSr_makes ready free ring completion, ?_, rfl, rfl, rfl, rfl, rfl,
      State.finish_ended (s := { s with host := { s.host with srs := _ } }) _ _ live⟩,
    fun r ready found kept open' idle => ⟨_, exec_deleteSr_closes ready found kept idle, ?_⟩,
    fun ready free completion => ⟨_, c.namedCr f, exec_createCr_makes ready free completion, ?_, rfl, rfl, rfl, rfl, rfl,
      State.finish_ended (s := { s with host := { s.host with crs := _ } }) _ _ live⟩,
    fun ready found => ⟨fun unused => ⟨_, exec_deleteCr_deletes ready found unused, ?_,
      State.finish_ended (s := { s with host := { s.host with crs := _ } }) _ _ live⟩,
      fun used => ⟨_, exec_deleteCr_busy ready found used, (State.finish_lists _ _ _ _).2.2.1, State.finish_ended _ _ live⟩⟩⟩
  · exact (State.sr_congr (State.finish_lists _ _ _ _).2.1 f _).trans (State.sr_of_made (r := c.namedSr f) rfl free)
  · have own : ∀ x ∈ ((s.start c).updSr f (leAt c.entry 8 4) (fun r => { r with deleting := some tag })).host.srs, x.fn = f →
        x.deleting.isSome = true → x.id = leAt c.entry 8 4 ∧ x.deleting = some tag := by
      intro x member _ deleting
      obtain ⟨y, before, rfl⟩ := List.mem_map.mp member
      have still : y.deleting = none := open' y before
      split at deleting <;> simp_all
    have named : (s.start c).cmd? f 0 tag = some { c with phase := .started } := by
      refine (s.updCmd_cmd c.order (fun c => { c with phase := .started }) (fun _ => ⟨rfl, rfl, rfl, rfl⟩) f 0 tag).trans ?_
      rw [State.cmd_of_admin ready]
      simp
    have unused : ∀ v ∈ (s.start c).host.cmds, v.fn = f → v.sr ≠ leAt c.entry 8 4 := by
      intro v member
      obtain ⟨u, before, rfl⟩ := List.mem_map.mp member
      split <;> exact idle u before
    have marked := State.updSr_found (s := s.start c) found (fun r => { r with deleting := some tag })
    exact State.closeDeleted_closes (c := { c with phase := .started }) own
      ⟨_, List.mem_of_find?_eq_some marked, (State.sr_mark found).1, rfl⟩ named
      (State.liveAt_of_cmds rfl (State.start_live live)) unused
  · exact (State.cr_congr (State.finish_lists _ _ _ _).2.2.1 f _).trans (State.cr_of_made (k := c.namedCr f) rfl free)
  · rw [State.cr_congr (State.finish_lists _ _ _ _).2.2.1 f]
    exact find_filter_not (fun k : Cr => k.fn == f && k.id == leAt c.entry 8 4) s.host.crs

end Sys2Proof.Machine
end

section
/-! Commands on data (O41). -/

namespace Sys2Proof.Machine

/-! ### Commands of other numbers -/

/-- A change of one command leaves the others. -/
theorem State.updCmd_cmdAt_other (s : State) {n m : Nat} (other : m ≠ n) (g : Cmd → Cmd) (keeps : ∀ c, (g c).order = c.order) :
    (s.updCmd n g).cmdAt m = s.cmdAt m := by
  have marks : ∀ c : Cmd, (if c.order == n then g c else c).order = c.order := fun c => by split <;> simp [keeps]
  unfold State.cmdAt State.updCmd
  simp only [List.find?_map, Function.comp_def, marks]
  cases found : List.find? (fun c : Cmd => c.order == m) s.host.cmds with
  | none => rfl
  | some c =>
    have number : c.order = m := State.cmdAt_order found
    rw [Option.map_some, if_neg (by simp [number, other])]

/-- The end of one command leaves the others. -/
theorem State.finish_cmdAt_other (s : State) {n m : Nat} (other : m ≠ n) (st : Status) (result : Nat) :
    (s.finish n st result).cmdAt m = s.cmdAt m := by
  have skip : ∀ c : Cmd, decide ((c.order != n) = true ∧ (c.order == m) = true) = (c.order == m) := fun c => by
    by_cases number : c.order = m <;> simp [number, other]
  have kept : (s.host.cmds.filter (fun c => c.order != n)).find? (fun c => c.order == m) = s.cmdAt m := by
    rw [List.find?_filter]
    simp only [skip]
    rfl
  unfold State.finish
  split
  · rfl
  next c found =>
    have number : c.order = n := State.cmdAt_order found
    split
    · rfl
    · split
      · unfold State.cmdAt
        rw [show (if c.opc == 0x11 then _ else State.dropRequester _ n).host.cmds
            = s.host.cmds.filter (fun x => x.order != n) by split <;> simp]
        exact kept
      · show List.find? _ (_ ++ _) = _
        rw [List.find?_append, kept]
        simp [number, Ne.symm other]

theorem State.liveAt_of_cmdAt {s t : State} {n : Nat} (same : t.cmdAt n = s.cmdAt n) (live : s.liveAt n) : t.liveAt n := by
  unfold State.liveAt
  rw [same]
  exact live

/-- An aborted `READ` ends; every other command lives on. -/
theorem State.abortCmd_live_other {s : State} {d : Cmd} {m : Nat} (found : s.cmdAt d.order = some d) (read : d.opc = 0x10)
    (other : m ≠ d.order) (live : s.liveAt m) : (s.abortCmd d).liveAt m := by
  have started := State.updCmd_found found (fun c => { c with phase := .started })
  have ends : s.abortCmd d = (((s.updCmd d.order (fun c => { c with phase := .started })).dropRequester d.order).finish d.order .aborted 0) := by
    unfold State.abortCmd
    dsimp only
    rw [started]
    exact State.endCmd_eq (c := { d with phase := .started }) (show d.opc ≠ 0x11 by simp [read]) _
  rw [ends]
  have still : ((s.updCmd d.order (fun c => { c with phase := .started })).dropRequester d.order).cmdAt m = s.cmdAt m :=
    (State.cmdAt_congr (congrArg HostState.cmds (State.dropRequester_frame _ _).2.2.2.1) m).trans (s.updCmd_cmdAt_other other _ fun _ => rfl)
  exact State.liveAt_of_cmdAt ((State.finish_cmdAt_other _ other _ _).trans still) live

/-! ### The commands -/

theorem State.opc_of_ready {s : State} {opc : Nat} {f : FnId} {sr : Nat} {tag : BitVec 6} {c : Cmd} (ready : s.ready? opc f sr tag = some c) :
    c.opc = opc := by
  unfold State.ready? at ready
  split at ready
  next d found =>
    split at ready
    next holds =>
      cases ready
      exact beq_iff_eq.mp (Bool.and_eq_true_iff.mp holds).1
    next => cases ready
  next => cases ready

section
variable {s : State} {f : FnId} {sr : Nat} {tag : BitVec 6} {c : Cmd}

theorem exec_read_stops (ready : s.ready? 0x10 f sr tag = some c) {st : Status} (stop : s.dataGate c true = .stop st) :
    exec (.read f sr tag) s = .next (s.endCmd c st) := by
  show execRead f sr tag s = _
  simp [execRead, ready, stop]

theorem exec_read_waits (ready : s.ready? 0x10 f sr tag = some c) (hold : s.dataGate c true = .hold) :
    exec (.read f sr tag) s = .next (s.holdFor c) := by
  show execRead f sr tag s = _
  simp [execRead, ready, hold]

theorem exec_read_goes (ready : s.ready? 0x10 f sr tag = some c) {h : SlotId} (go : s.dataGate c true = .go h) :
    exec (.read f sr tag) s = .next ((s.updCmd c.order (fun c => { c with
      phase := .started, slot := some h, todo := List.range c.nblk })).serveReads h) := by
  show execRead f sr tag s = _
  simp [execRead, ready, go]

theorem exec_write_draws (ready : s.ready? 0x11 f sr tag = some c) {h : SlotId} {d : Cmd} {w : WriteRec}
    (go : s.dataGate c (c.phase != .waiting) = .go h) (numbered : (s.lateOrdinal h c).cmdAt c.order = some d)
    (record : ((s.lateOrdinal h c).slot h).bind (fun x => x.write? d.ordinal) = some w) (kept : w.record = true) :
    exec (.write f sr tag) s = .next (((s.lateOrdinal h c).updCmd d.order (fun c => { c with phase := .started })).drawBufs
      (s.lateOrdinal h c).stageBasket ((d.nblk + 15) / 16) d.order) := by
  show execWrite f sr tag s = _
  simp only [execWrite, ready, go, numbered, record, kept]
  rfl

theorem exec_verify_goes (ready : s.ready? 0x12 f sr tag = some c) (found : s.cmd? f sr tag = some c) (waits : c.phase = .waiting)
    {h : SlotId} (go : s.dataGate c true = .go h) : exec (.verify f sr tag) s
      = .next ((((s.lateTarget h c).updCmd c.order (fun c => { c with phase := .started, slot := some h })).closeOpen
        h).verifyReads h c.order) := by
  show execVerify f sr tag s = _
  simp [execVerify, ready, found, waits, go]

theorem exec_flush_allDone (ready : s.ready? 0x20 f sr tag = some c) (every : c.hid = 0) (none' : c.target = []) :
    exec (.flush f sr tag) s = .next ((s.start c).finish c.order .success 0) := by
  show execFlush f sr tag s = _
  simp [execFlush, ready, every, none']

theorem exec_flush_goes (ready : s.ready? 0x20 f sr tag = some c) (one : c.hid ≠ 0) {h : SlotId} (go : s.dataGate c true = .go h) :
    exec (.flush f sr tag) s = .next ((((s.lateTarget h c).updCmd c.order (fun c => { c with
      phase := .started, slot := some h })).closeOpen h).serveFlushes) := by
  show execFlush f sr tag s = _
  simp [execFlush, ready, one, go]

theorem exec_abort_notFound (ready : s.ready? 0x21 f sr tag = some c) (gone : c.bound.bind s.cmdAt = none) :
    exec (.abort f sr tag) s = .next (s.finish c.order .notFound 0) := by
  show execAbort f sr tag s = _
  simp [execAbort, ready, gone]

theorem exec_abort_tooLate (ready : s.ready? 0x21 f sr tag = some c) {d : Cmd} (target : c.bound.bind s.cmdAt = some d)
    (late : d.opc = 0x41) : exec (.abort f sr tag) s = .next (s.finish c.order .tooLate 0) := by
  show execAbort f sr tag s = _
  simp [execAbort, ready, target, late]

theorem exec_abort_aborts (ready : s.ready? 0x21 f sr tag = some c) {d : Cmd} (target : c.bound.bind s.cmdAt = some d)
    (read : d.opc = 0x10) : exec (.abort f sr tag) s = .next ((s.abortCmd d).finish c.order .success 0) := by
  show execAbort f sr tag s = _
  simp [execAbort, ready, target, read]

end

/-- A command that its hamper holds and that waited is held from now on (R230). -/
theorem State.holdFor_held {s : State} {c : Cmd} (waits : c.phase = .waiting) (found : s.cmdAt c.order = some c) (limit : s.holdLimit c ≠ 0) :
    (s.holdFor c).cmdAt c.order = some { c with phase := .held s.us } := by
  have holds : s.holdFor c = s.updCmd c.order (fun c => { c with phase := .held s.us }) := by simp [State.holdFor, State.hold, waits, limit]
  rw [holds]
  exact State.updCmd_found found _

/-- With no time to wait it ends (R273). -/
theorem State.holdFor_ended {s : State} {c : Cmd} (other : c.opc ≠ 0x11) (live : s.liveAt c.order)
    (limit : s.holdLimit c = 0) : (s.holdFor c).endedAt c.order .notReady := by
  have ends : s.holdFor c = s.endHeld c := by simp [State.holdFor, limit]
  rw [ends]
  exact State.endHeld_ended other live

/-- Settles O41: each command by the branch of its gate or of its target. -/
theorem dataCommandsGo : Obligations.DataCommandsGo := by
  intro s f sr tag c live
  refine ⟨fun ready => ⟨fun st stop => ⟨_, exec_read_stops ready stop, State.endCmd_ended (by simp [State.opc_of_ready ready]) live st⟩,
      fun hold waits found => ⟨fun limit => ⟨_, exec_read_waits ready hold, State.holdFor_held waits found limit⟩,
        fun limit read => ⟨_, exec_read_waits ready hold, State.holdFor_ended (by simp [read]) live limit⟩⟩,
      fun h go => exec_read_goes ready go⟩,
    fun ready h d w go numbered record kept => exec_write_draws ready go numbered record kept,
    fun ready found waits h go => exec_verify_goes ready found waits go,
    fun ready => ⟨fun every none' => ⟨_, exec_flush_allDone ready every none', State.finish_ended _ _ (State.start_live live)⟩,
      fun one h go => exec_flush_goes ready one go⟩,
    fun ready => ⟨fun gone => ⟨_, exec_abort_notFound ready gone, State.finish_ended _ _ live⟩,
      fun d target late => ⟨_, exec_abort_tooLate ready target late, State.finish_ended _ _ live⟩,
      fun d target read _ other => ⟨_, exec_abort_aborts ready target read, State.finish_ended _ _ ?_⟩⟩⟩
  obtain ⟨n, -, found⟩ := Option.bind_eq_some_iff.mp target
  have number : d.order = n := State.cmdAt_order found
  exact State.abortCmd_live_other (number ▸ found) read (Ne.symm other) live

end Sys2Proof.Machine
end

section
/-! Information commands (O42). -/

namespace Sys2Proof.Machine

/-! ### The end of a command that lives changes the list of commands only -/

theorem State.finish_of_live {s : State} {order : Nat} (live : s.liveAt order) (st : Status) (result : Nat) :
    ∃ l, s.finish order st result = { s with host := { s.host with cmds := l } } := by
  obtain ⟨d, found, loud, running⟩ := live
  have run : (d.phase == .done) = false := by simpa using running
  unfold State.finish
  rw [found]
  dsimp only
  rw [run, loud]
  exact ⟨_, rfl⟩

theorem State.flagDone_of_live {s : State} {c : Cmd} (live : s.liveAt c.order) (i : Nat) :
    ∃ l, s.flagDone c i = { s with host := { s.host with cmds := l } } := by
  have waits : ∀ g : Cmd → Cmd, (∀ d, (g d).order = d.order ∧ ((g d).silent = d.silent) ∧ (g d).phase = d.phase) →
      (s.updCmd c.order g).liveAt c.order := fun g keeps =>
    State.updCmd_live (fun d => ⟨(keeps d).1, fun h => (keeps d).2.1.trans h, fun h => (keeps d).2.2 ▸ h⟩) live
  unfold State.flagDone
  dsimp only
  split
  · obtain ⟨l, ends⟩ := State.finish_of_live (waits (fun d => { d with todo := c.todo.filter (fun j => j != i) })
      fun _ => ⟨rfl, rfl, rfl⟩) .success 0
    exact ⟨l, ends⟩
  · exact ⟨_, rfl⟩

/-- The last flag ends its command. -/
theorem State.flagDone_ended {s : State} {c : Cmd} {i : Nat} (last : c.todo = [i]) (live : s.liveAt c.order) :
    (s.flagDone c i).endedAt c.order .success := by
  unfold State.flagDone
  rw [last]
  simp only [List.filter_cons, bne_self_eq_false, Bool.false_eq_true, if_false, List.filter_nil, List.isEmpty_nil, if_true]
  exact State.finish_ended _ _ (State.updCmd_live (fun _ => ⟨rfl, id, id⟩) live)

/-! ### The flags of a `HEALTH` -/

theorem flags_eq_nil_iff (n : Nat) : (List.range 3).filter (fun i => n.testBit i) = [] ↔ n % 8 = 0 := by
  have low : ∀ i, i < 3 → (n % 2 ^ 3).testBit i = n.testBit i := fun i small => by
    rw [Nat.testBit_mod_two_pow, decide_eq_true small, Bool.true_and]
  rw [List.filter_eq_nil_iff]
  constructor
  · intro none'
    refine Nat.eq_of_testBit_eq fun i => ?_
    by_cases small : i < 3
    · rw [show (8 : Nat) = 2 ^ 3 from rfl, low i small, Nat.zero_testBit]
      simpa using none' i (List.mem_range.mpr small)
    · rw [show (8 : Nat) = 2 ^ 3 from rfl, Nat.testBit_mod_two_pow, decide_eq_false small, Bool.false_and, Nat.zero_testBit]
  · intro zero i small
    rw [← low i (List.mem_range.mp small), show (2 : Nat) ^ 3 = 8 from rfl, zero]
    simp

/-! ### The commands -/

section
variable {s : State} {f : FnId} {tag : BitVec 6} {c : Cmd}

theorem exec_identify_answers (ready : s.admin? 0x30 f tag = some c) :
    exec (.identify f tag) s = .next ((s.hostWrite c 0 (s.identifyPage f)).finish c.order .success 0) := by
  show execIdentify f tag s = _
  simp [execIdentify, ready]

theorem exec_health_answers (ready : s.admin? 0x31 f tag = some c) (bare : c.b 42 % 8 = 0) : exec (.health f tag) s
      = .next (((s.start c).hostWrite c 0 (s.healthPage (c.b 40) (c.b 41))).finish c.order .success 0) := by
  show execHealth f tag s = _
  simp only [execHealth, ready, (flags_eq_nil_iff _).mpr bare]
  rfl

theorem exec_health_waits (ready : s.admin? 0x31 f tag = some c) (flags : c.b 42 % 8 ≠ 0) : exec (.health f tag) s
      = .next (((s.start c).hostWrite c 0 (s.healthPage (c.b 40) (c.b 41))).updCmd c.order (fun d => { d with
        todo := (List.range 3).filter (fun i => (c.b 42).testBit i) })) := by
  have some' : ((List.range 3).filter (fun i => (c.b 42).testBit i)).isEmpty = false := by
    rw [← Bool.not_eq_true, List.isEmpty_iff, flags_eq_nil_iff]
    exact flags
  show execHealth f tag s = _
  simp only [execHealth, ready, some']
  rfl

theorem exec_healthClearCause_clears (flag : s.healthFlag f tag 0 = some c) : exec (.healthClearCause f tag) s
      = .next ((State.bumpGen { s with chip := { s.chip with rst := { s.chip.rst with cause := 0#64 } } }).flagDone c 0) := by
  show execHealthClearCause f tag s = _
  simp [execHealthClearCause, flag]

theorem exec_healthClearCounters_clears (flag : s.healthFlag f tag 1 = some c) :
    exec (.healthClearCounters f tag) s = .next ((s.clearCounters (c.b 40) (c.b 41)).flagDone c 1) := by
  show execHealthClearCounters f tag s = _
  simp [execHealthClearCounters, flag]

/-- The items of a `CAL_REQUEST` entry's mask (R357). -/
def Cmd.maskedItems (c : Cmd) : List Nat := (List.range 13).filter (fun n => (leAt c.entry 44 2).testBit n)

/-- With `CALPU` 0 pickup A alone has the items made pending (R357, R385). -/
theorem exec_healthCalRequest_marksA (flag : s.healthFlag f tag 2 = some c) {b : BayId} (bay : c.b 41 = b.val) (onlyA : c.b 43 = 0) :
    exec (.healthCalRequest f tag) s = .next ((s.updPu b .A (fun u => { u with
      cal := u.cal.makePending s.us u.ms.layer c.maskedItems false })).flagDone c 2) := by
  show execHealthCalRequest f tag s = _
  simp only [execHealthCalRequest, flag, bay, onlyA, b.isLt, dif_pos]
  rfl

theorem exec_attestReport_answers (ready : s.admin? 0x32 f tag = some c) (op : c.b 40 = 0) {r : Bytes} {n : Nat}
    (report : s.report (leAt c.entry 42 2) (leAt c.entry 44 4) c.nblk (attestNonce c.entry) = (r, n)) :
    exec (.attestReport f tag) s = .next ((s.hostWrite c 0 r).finish c.order .success (r.length + 2 ^ 32 * n)) := by
  show execAttestReport f tag s = _
  simp only [execAttestReport, ready, op, report]
  rfl

theorem exec_attestCertChain_answers (ready : s.admin? 0x32 f tag = some c) (op : c.b 40 = 1) : exec (.attestCertChain f tag) s
      = .next ((s.hostWrite c 0 s.chainBytes).finish c.order .success s.chainBytes.length) := by
  show execAttestCertChain f tag s = _
  simp [execAttestCertChain, ready, op]

end

/-! ### The counters of a page (R385) -/

theorem State.clearCounters_chip (s : State) (sel : Nat) : (s.clearCounters 0 sel).mem.ce = [] ∧ (s.clearCounters 0 sel).mem.ue = []
    ∧ (s.clearCounters 0 sel).host.badDoorbells = 0 := ⟨rfl, rfl, rfl⟩

theorem State.clearCounters_bay (s : State) (b : BayId) : ((s.clearCounters 2 b.val).bay b).mlink.errs = 0 := by
  simp [State.clearCounters]

theorem State.clearCounters_live {s : State} {order : Nat} (page sel : Nat) (live : s.liveAt order) :
    (s.clearCounters page sel).liveAt order := by
  refine State.liveAt_of_cmds ?_ live
  unfold State.clearCounters
  split
  · rfl
  · split
    · split
      · simp
      · rfl
    · split
      · split
        · simp
        · rfl
      · rfl

/-- What writes a page to the host and then ends leaves the trust engine as it was. -/
theorem State.answer_ended {s : State} {c : Cmd} (live : s.liveAt c.order) (page : Bytes) (result : Nat) :
    ((s.hostWrite c 0 page).finish c.order .success result).endedAt c.order .success :=
  State.finish_ended _ _ (State.liveAt_of_cmds (by simp) live)

/-- Settles O42: each page by its command, each flag by what it changes and the rule that the last flag ends its command. -/
theorem informationCommandsAnswer : Obligations.InformationCommandsAnswer := by
  intro s f tag c live
  refine ⟨fun ready => ⟨_, exec_identify_answers ready, rfl, State.answer_ended live _ _⟩,
    fun ready => ⟨fun bare => ⟨_, exec_health_answers ready bare, rfl, State.answer_ended (State.start_live live) _ _⟩,
      fun flags => ⟨_, exec_health_waits ready flags, rfl, ?_⟩⟩,
    fun flag => ⟨_, exec_healthClearCause_clears flag, ?_⟩, fun flag => ⟨_, exec_healthClearCounters_clears flag, rfl, ?_⟩,
    fun b flag bay onlyA => ⟨_, exec_healthCalRequest_marksA flag bay onlyA, ?_⟩,
    fun r n ready op report => ⟨_, exec_attestReport_answers ready op report, rfl, State.answer_ended live _ _, by simp⟩,
    fun ready op => ⟨_, exec_attestCertChain_answers ready op, rfl, State.answer_ended live _ _, by simp⟩⟩
  · obtain ⟨d, found, -, -⟩ := live
    have written : ((s.start c).hostWrite c 0 (s.healthPage (c.b 40) (c.b 41))).cmdAt c.order = some { d with phase := .started } :=
      (State.cmdAt_congr (congrArg HostState.cmds (State.hostWrite_frame _ _ _ _).2.2.1) c.order).trans (State.updCmd_found found (fun c => { c with phase := .started }))
    exact ⟨_, State.updCmd_found written _, rfl, rfl⟩
  · have alive : (State.bumpGen { s with chip := { s.chip with rst := { s.chip.rst with cause := 0#64 } } }).liveAt c.order :=
      State.liveAt_of_cmds rfl live
    obtain ⟨l, done⟩ := State.flagDone_of_live alive 0
    refine ⟨?_, fun last => State.flagDone_ended last alive, fun b => ?_, ?_, ?_⟩ <;> rw [done] <;> rfl
  · have alive := State.clearCounters_live (c.b 40) (c.b 41) live
    obtain ⟨l, done⟩ := State.flagDone_of_live alive 1
    refine ⟨fun last => State.flagDone_ended last alive, fun page => ?_, fun b page bay => ?_, by simp⟩
    · rw [done, page]
      exact s.clearCounters_chip (c.b 41)
    · rw [done, page, bay]
      exact s.clearCounters_bay b
  · have alive := State.liveAt_of_cmds (t := s.updPu b .A (fun u => { u with
      cal := u.cal.makePending s.us u.ms.layer c.maskedItems false })) (by simp) live
    refine ⟨?_, fun last => State.flagDone_ended last alive, ?_⟩
    · rw [State.flagDone_pu, State.updPu_pu_other s b .A .B _ (by decide)]
    · rw [State.flagDone_pu, State.updPu_pu]
      rfl

end Sys2Proof.Machine
end

section
/-! Staging sessions and commits (O44, O9). -/

namespace Sys2Proof.Machine

/-! ### Flash slots -/

/-- The directory, and with it every region and record, is read from the bytes of the flash: the marks of bad slots are no part of it. -/
theorem Flash.dir_congr {f g : Flash} (mem : f.mem = g.mem) (size : f.size = g.size) : f.dir = g.dir := by
  unfold Flash.dir Flash.read
  rw [mem, size]

theorem Flash.boot_congr {f g : Flash} (mem : f.mem = g.mem) (size : f.size = g.size) : f.boot = g.boot := by
  unfold Flash.boot Flash.bootNewest Flash.bootRecords Flash.region
  rw [Flash.dir_congr mem size]
  simp only [Flash.read, mem]

@[simp] theorem State.slotInvalid_region (s : State) (target t : Nat) : (s.slotInvalid target).flash.region t = s.flash.region t := by
  unfold Flash.region
  rw [Flash.dir_congr (f := (s.slotInvalid target).flash) (g := s.flash) rfl rfl]

/-! ### The command of a staging session -/

theorem State.stageAt_started {s : State} {tag : BitVec 6} {i : Nat} {c : Cmd} (at' : s.stageAt tag i = some c) : c.phase = .started := by
  unfold State.stageAt at at'
  split at at'
  · cases at'
  · split at at'
    · cases at'
    next d found =>
      split at at'
      · cases at'
      · split at at'
        next running =>
          split at at'
          · cases at'
            simpa using running
          · cases at'
        · split at at'
          · split at at'
            · cases at'
              rfl
            · cases at'
          · cases at'

/-- A command written over itself lives on. -/
theorem State.updCmd_self_live {s : State} {c : Cmd} (loud : c.silent = false) (running : c.phase ≠ .done) (live : s.liveAt c.order) :
    (s.updCmd c.order (fun _ => c)).liveAt c.order := by
  obtain ⟨d, found, -, -⟩ := live
  exact ⟨c, State.updCmd_found found (fun _ => c) (fun _ _ => rfl), loud, running⟩

/-! ### The commands -/

section
variable {s : State} {tag : BitVec 6} {c : Cmd}

/-- An open marks the slot, begins a session and an erase (R293). -/
theorem exec_stageConfigOpen_opens {o n : Nat} (at' : s.stageAt tag 0 = some c)
    (region : s.flash.region (s.inactive (c.b 40 % 4)).1 = some (o, n)) :
    exec (.stageConfigOpen tag) s = .next (State.flashJob { (s.updCmd c.order (fun _ => c)).slotInvalid (c.b 40 % 4) with
      host := { (s.updCmd c.order (fun _ => c)).host with stageBusy := some ⟨c.b 40 % 4, (s.inactive (c.b 40 % 4)).2, s.us⟩ }
      trust := if c.b 40 % 4 = 1 then { s.trust with staged := 0 } else s.trust } ⟨.stageErase, o, [], 0, some c.order, none⟩) := by
  show execStageConfigOpen tag s = _
  simp only [execStageConfigOpen, at', region]
  rfl

/-- A chunk goes to the session's slot (R293). -/
theorem exec_stageConfigChunk_programs {data : Bytes} {q : StageSession} {o n : Nat} (at' : s.stageAt tag 1 = some c)
    (session : s.host.stageBusy = some q) (region : s.flash.region (s.inactive q.target).1 = some (o, n)) (target : q.target = c.b 40 % 4)
    (within : 4096 * leAt c.entry 44 4 + 4096 * c.nblk ≤ n) (whole : data.length = 4096 * c.nblk) (some' : data ≠ []) :
    exec (.stageConfigChunk tag data) s = .next (State.flashJob { s.updCmd c.order (fun _ => c) with
      host := { (s.updCmd c.order (fun _ => c)).host with stageBusy := some { q with last := s.us } } }
      ⟨.stageChunk, o + 4096 * leAt c.entry 44 4, data, 0, some c.order, none⟩) := by
  have fits : ¬(q.target ≠ c.b 40 % 4 ∨ n < 4096 * leAt c.entry 44 4 + 4096 * c.nblk) := by omega
  have filled : data.isEmpty = false := by simpa using some'
  show execStageConfigChunk tag data s = _
  simp only [execStageConfigChunk, at', session, region, fits, whole, filled, ne_eq, not_true_eq_false, if_false]
  rfl

/-- A commit without a session ends `INVALID_FIELD` (R293). -/
theorem exec_stageConfigCommit_closed (at' : s.stageAt tag 2 = some c) (closed : s.host.stageBusy = none) :
    exec (.stageConfigCommit tag) s = .next (s.finish c.order .invalidField 0) := by
  show execStageConfigCommit tag s = _
  simp [execStageConfigCommit, at', closed]

/-- So does one of the other target (R293). -/
theorem exec_stageConfigCommit_other {q : StageSession} (at' : s.stageAt tag 2 = some c) (session : s.host.stageBusy = some q)
    (other : q.target ≠ c.b 40 % 4) : exec (.stageConfigCommit tag) s = .next (s.finish c.order .invalidField 0) := by
  show execStageConfigCommit tag s = _
  simp [execStageConfigCommit, at', session, other]

/-- A good slot has its boot-state record written (R294, R332). -/
theorem exec_stageConfigCommit_good {q : StageSession} (at' : s.stageAt tag 2 = some c) (session : s.host.stageBusy = some q)
    (own : q.target = c.b 40 % 4) (good : (s.updCmd c.order (fun _ => c)).stagedGood q.target = true) :
    exec (.stageConfigCommit tag) s = .next (State.flashJob { s.updCmd c.order (fun _ => c) with
      host := { (s.updCmd c.order (fun _ => c)).host with stageBusy := none } } ⟨.bootRecord, q.target, [], 0, some c.order, none⟩) := by
  show execStageConfigCommit tag s = _
  simp only [execStageConfigCommit, at', session, own, ne_eq, not_true_eq_false, if_false, own ▸ good, if_true]

/-- A slot that fails its check ends the command `IMAGE_INVALID` (R294). -/
theorem exec_stageConfigCommit_bad {q : StageSession} (at' : s.stageAt tag 2 = some c) (session : s.host.stageBusy = some q)
    (own : q.target = c.b 40 % 4) (bad : (s.updCmd c.order (fun _ => c)).stagedGood q.target = false) :
    exec (.stageConfigCommit tag) s = .next ((State.slotInvalid { s.updCmd c.order (fun _ => c) with
      host := { (s.updCmd c.order (fun _ => c)).host with stageBusy := none } } q.target).finish c.order .imageInvalid 0) := by
  show execStageConfigCommit tag s = _
  simp only [execStageConfigCommit, at', session, own, ne_eq, not_true_eq_false, if_false, own ▸ bad, Bool.false_eq_true]

/-- An idle session is discarded (R293). -/
theorem exec_stageSessionIdle_discards {q : StageSession} (session : s.host.stageBusy = some q)
    (idle : q.last + 1000000 * s.liveN .cmdStageIdleS ≤ s.us) (quiet : s.stageBusyNow = false) (run : s.coresHeld = false) :
    exec .stageSessionIdle s
      = .next (({ s with host := { s.host with stageBusy := none } } : State).raise 899 .stageDiscarded 0 0 0) := by
  show execStageSessionIdle s = _
  simp [execStageSessionIdle, session, idle, quiet, run]

/-- A boot-state record whose program fails is tried again (R322). -/
theorem exec_flashDone_retries {j : FlashJob} (awake : s.sysHeld = false)
    (first : s.flash.jobs.find? (fun j => j.op == .bootRecord) = some j) : exec (.flashEraseProgramDone .bootRecord false) s
      = .next (State.retryJob { s with flash := { s.flash with jobs := s.flash.jobs.erase j } } j) := by
  have op : j.op = .bootRecord := by simpa using List.find?_some first
  show execFlashEraseProgramDone _ _ s = _
  simp [execFlashEraseProgramDone, awake, State.takeJob, first, State.jobDone, op]

end

theorem State.finish_flash (s : State) (order : Nat) (st : Status) (result : Nat) : (s.finish order st result).flash = s.flash := by
  simp

/-- Settles O44: each command by its branch; a mark of a bad slot changes no byte of the flash. -/
theorem stagingSessions : Obligations.StagingSessions := by
  intro s
  refine ⟨fun tag c o n at' region => ⟨_, exec_stageConfigOpen_opens at' region, rfl, rfl⟩,
    fun tag c data q o n at' session region target within whole some' =>
      ⟨_, exec_stageConfigChunk_programs at' session region target within whole some', rfl, rfl⟩,
    fun tag c q at' session own => ⟨fun good => ⟨_, exec_stageConfigCommit_good at' session own good, rfl, rfl⟩,
      fun bad => ⟨_, exec_stageConfigCommit_bad at' session own bad, (State.finish_lists _ _ _ _).2.2.2, ?_, ?_, ?_⟩⟩,
    fun q session idle quiet run => ⟨_, exec_stageSessionIdle_discards session idle quiet run, by simp⟩⟩
  all_goals rw [State.finish_flash]
  · rfl
  · exact Flash.boot_congr rfl rfl
  · rfl

/-- Settles O9: a commit that fails ends its command and, where it had a session, marks the slot; a failed program goes back to the end of
the flash operations. -/
theorem failedCommitChangesNothing : Obligations.FailedCommitChangesNothing := by
  intro s
  refine ⟨fun tag c at' live loud => ⟨fun closed => ⟨_, exec_stageConfigCommit_closed at' closed, State.finish_ended _ _ live, ?_⟩,
    fun q session other => ⟨_, exec_stageConfigCommit_other at' session other, State.finish_ended _ _ live, ?_⟩,
    fun q session own bad => ⟨_, exec_stageConfigCommit_bad at' session own bad, ?_, ?_⟩⟩,
    fun awake j first => ⟨_, exec_flashDone_retries awake first, rfl, rfl, rfl, rfl⟩⟩
  · obtain ⟨l, ends⟩ := State.finish_of_live live .invalidField 0
    rw [ends]
    exact ⟨rfl, rfl, rfl, rfl⟩
  · obtain ⟨l, ends⟩ := State.finish_of_live live .invalidField 0
    rw [ends]
    exact ⟨rfl, rfl, rfl, rfl⟩
  all_goals
    have alive : (State.slotInvalid { s.updCmd c.order (fun _ => c) with
        host := { (s.updCmd c.order (fun _ => c)).host with stageBusy := none } } q.target).liveAt c.order :=
      State.updCmd_self_live loud (by simp [State.stageAt_started at']) live
  · exact State.finish_ended _ _ alive
  · obtain ⟨l, ends⟩ := State.finish_of_live alive .imageInvalid 0
    rw [ends]
    exact ⟨rfl, rfl, rfl, rfl, rfl⟩

end Sys2Proof.Machine
end

section
/-! Firmware activation (O45). -/

namespace Sys2Proof.Machine

/-! ### The activation in progress: the fates of commands and the events that follow a core reset leave it -/

@[simp] theorem State.foldl_act {α : Type} {g : State → α → State} (keep : ∀ s a, (g s a).host.act = s.host.act)
    (l : List α) (s : State) : (l.foldl g s).host.act = s.host.act := by
  induction l generalizing s with
  | nil => rfl
  | cons a l ih => rw [List.foldl_cons, ih, keep]

@[simp] theorem State.updFn_act (s : State) (f : FnId) (g : Fn → Fn) : (s.updFn f g).host.act = s.host.act := by
  rfl

@[simp] theorem State.updCr_act (s : State) (f : FnId) (id : Nat) (g : Cr → Cr) : (s.updCr f id g).host.act = s.host.act := by
  rfl

@[simp] theorem State.signal_act (s : State) (f : FnId) (v : Nat) : (s.signal f v).host.act = s.host.act := by
  simp only [State.signal]
  repeat' split
  all_goals simp

@[simp] theorem State.crSignal_act (s : State) (f : FnId) (id : Nat) : (s.crSignal f id).host.act = s.host.act := by
  simp only [State.crSignal]
  repeat' split
  all_goals simp

@[simp] theorem State.writeEv_act (s : State) (c : Cr) (r : EvRec) (fseq : Nat) : (s.writeEv c r fseq).host.act = s.host.act := by
  unfold State.writeEv
  dsimp only
  split <;> simp

@[simp] theorem State.deliver_act (s : State) (f : FnId) (r : EvRec) : (s.deliver f r).host.act = s.host.act := by
  simp only [State.deliver]
  repeat' split
  all_goals simp

@[simp] theorem State.flushLost_act (s : State) (f : FnId) : (s.flushLost f).host.act = s.host.act := by
  simp only [State.flushLost]
  repeat' split
  all_goals simp

@[simp] theorem State.bumpGen_act (s : State) : (s.bumpGen).host.act = s.host.act := by
  rfl

@[simp] theorem State.updCmd_act (s : State) (order : Nat) (g : Cmd → Cmd) : (s.updCmd order g).host.act = s.host.act := by
  rfl

@[simp] theorem State.finish_act (s : State) (order : Nat) (st : Status) (result : Nat) :
    (s.finish order st result).host.act = s.host.act := by
  simp only [State.finish]
  repeat' split
  all_goals simp

@[simp] theorem State.finishApplied_act (s : State) (order : Nat) (st : Status) (result : Nat) (a : Bool) :
    (s.finishApplied order st result a).host.act = s.host.act := by
  simp [State.finishApplied]

@[simp] theorem State.serveFlushes_act (s : State) : (s.serveFlushes).host.act = s.host.act := by
  simp [State.serveFlushes]

@[simp] theorem State.settle_act (s : State) (h : SlotId) : (s.settle h).host.act = s.host.act := by
  simp only [State.settle]
  repeat' split
  all_goals simp

@[simp] theorem State.sectorOutcome_act (s : State) (h : SlotId) (seq member : Nat) (written : Bool) :
    (s.sectorOutcome h seq member written).host.act = s.host.act := by
  simp [State.sectorOutcome]

@[simp] theorem State.releaseHamper_act (s : State) (h : SlotId) : (s.releaseHamper h).host.act = s.host.act := by
  simp [State.releaseHamper]

@[simp] theorem State.recordOutcome_act (s : State) (h : SlotId) (kind no : Nat) (written : Bool) :
    (s.recordOutcome h kind no written).host.act = s.host.act := by
  simp only [State.recordOutcome]
  repeat' split
  all_goals simp

@[simp] theorem State.flushOutcomes_act (s : State) : (s.flushOutcomes).host.act = s.host.act := by
  simp [State.flushOutcomes]

@[simp] theorem State.coreFate_act (s : State) (c : Cmd) : (s.coreFate c).host.act = s.host.act := by
  simp only [State.coreFate]
  repeat' split
  all_goals simp

@[simp] theorem State.postHeld_act (s : State) : (s.postHeld).host.act = s.host.act := by
  simp [State.postHeld]

@[simp] theorem State.coresReturn_act (s : State) : (s.coresReturn).host.act = s.host.act := by
  simp only [State.coresReturn, State.bumpGen_act, State.postHeld_act, State.postEngines_frame, State.flushOutcomes_act]
  refine State.foldl_act (fun _ _ => ?_) _ _
  split <;> simp

@[simp] theorem State.doeResume_act (s : State) : (s.doeResume).host.act = s.host.act := by
  unfold State.doeResume
  refine State.foldl_act (fun _ _ => ?_) _ _
  split
  · split <;> simp
  · rfl

/-- The end of an activation clears it (R295). -/
@[simp] theorem State.actEnd_act (s : State) (order : Nat) (st : Status) : (s.actEnd order st).host.act = none := by
  simp [State.actEnd]

/-! ### Resets that are asserted -/

/-- A core reset that is asserted is held, and leaves an activation as it is (R347). -/
theorem State.assertCore_held {s : State} (awake : s.sysHeld = false) (bit : Nat) :
    (s.assertCore bit).chip.rst.core.isSome = true ∧ (s.assertCore bit).host.act = s.host.act := by
  unfold State.assertCore
  rw [awake]
  exact ⟨rfl, rfl⟩

theorem State.sysHeld_of_coresHeld {s : State} (run : s.coresHeld = false) : s.sysHeld = false := by
  unfold State.coresHeld at run
  exact (Bool.or_eq_false_iff.mp run).2

/-- A host-requested system reset holds the system (Table 16-2). -/
theorem State.assertSystem_host (s : State) : (s.assertSystem 5).chip.rst.host = true ∧ (s.assertSystem 5).sysHeld = true := by
  have held : (s.assertSystem 5).chip.rst.host = true := rfl
  exact ⟨held, by simp [State.sysHeld, held]⟩

/-! ### The commands -/

section
variable {s : State} {tag : BitVec 6} {c : Cmd}

theorem exec_activateFwFirmware_drains (ready : s.activation? tag 0 = some c) (idle : s.activationBusy = false) (waits : s.fwWaits = true) :
    exec (.activateFwFirmware tag) s = .next (s.drainStart c 0) := by
  show execActivateFwFirmware tag s = _
  simp [execActivateFwFirmware, ready, idle, waits]

theorem exec_activateFwCoreReset_drains (ready : s.activation? tag 1 = some c) (idle : s.activationBusy = false) :
    exec (.activateFwCoreReset tag) s = .next (s.drainStart c 1) := by
  show execActivateFwCoreReset tag s = _
  simp [execActivateFwCoreReset, ready, idle]

theorem exec_activateFwSystemReset_asserts (ready : s.activation? tag 2 = some c) (idle : s.activationBusy = false) :
    exec (.activateFwSystemReset tag) s = .next (s.assertSystem 5) := by
  show execActivateFwSystemReset tag s = _
  simp [execActivateFwSystemReset, ready, idle]

end

section
variable {s : State} {a : FwAct} (running : s.host.act = some a)
include running

/-- A drain ends once no started command is left or its time is up; a core reset follows (R295). -/
theorem exec_fwactDrainEnd_resets (draining : a.drained = false) (run : s.coresHeld = false) (quiet : s.blocksRun = false)
    (ends : s.startedLeft a.order = false ∨ a.started + s.liveN .cmdFwactDrainMs * 1000 ≤ s.us) : exec .fwactDrainEnd s
      = .next (({ s with host := { s.host with act := some { a with drained := true } } } : State).assertCore (if a.mode = 0 then 7 else 6)) := by
  have through : (s.startedLeft a.order && decide (s.us < a.started + s.liveN .cmdFwactDrainMs * 1000)) = false := by
    rcases ends with none' | late
    · simp [none']
    · simp [Nat.not_lt.mpr late]
  show execFwactDrainEnd s = _
  simp only [execFwactDrainEnd, running, draining, run, quiet, through]
  rfl

/-- New firmware that is measured good and has started is in force (R295). -/
theorem exec_fwStartResult_starts (mode : a.mode = 0) (drained : a.drained = true) (held : s.chip.rst.core.isSome = true)
    (awake : s.sysHeld = false) (good : (s.measureCode false (1 - s.trust.fwSlot)).1 = true) :
    ∃ m : State, exec (.fwStartResult true) s = .next (State.actEnd { m with trust := { m.trust with
      fwSlot := 1 - s.trust.fwSlot, fwVersion := imgSeq (fwPart (m.flash.regionBytes (3 + (1 - s.trust.fwSlot))) false), staged := 0 } }
      a.order .success) := by
  have starts : ¬(a.mode ≠ 0 ∨ (!a.drained) = true ∨ s.chip.rst.core.isNone = true ∨ s.sysHeld = true) := by
    simp_all [Option.isSome_iff_ne_none]
  refine ⟨(s.measureCode false (1 - s.trust.fwSlot)).2, ?_⟩
  show execFwStartResult true s = _
  simp only [execFwStartResult, running, starts, good]
  rfl

end

/-- Settles O45: a drain and a reset by what they set, new firmware by what the end of an activation leaves. -/
theorem activationRuns : Obligations.ActivationRuns := by
  intro s tag c
  refine ⟨fun ready idle waits => ⟨_, exec_activateFwFirmware_drains ready idle waits, rfl, rfl⟩,
    fun ready idle => ⟨_, exec_activateFwCoreReset_drains ready idle, rfl, rfl⟩,
    fun ready idle => ⟨_, exec_activateFwSystemReset_asserts ready idle, s.assertSystem_host⟩,
    fun a running draining run quiet ends => ⟨_, exec_fwactDrainEnd_resets running draining run quiet ends, ?_⟩,
    fun a running mode drained held awake good => ?_⟩
  · have awake : ({ s with host := { s.host with act := some { a with drained := true } } } : State).sysHeld = false :=
      State.sysHeld_of_coresHeld run
    exact State.assertCore_held awake _
  · obtain ⟨m, starts⟩ := exec_fwStartResult_starts running mode drained held awake good
    refine ⟨_, starts, ?_, ?_, by simp⟩ <;> rw [(State.actEnd_frame _ _ _).2.2.2.1]

end Sys2Proof.Machine
end

section
/-! Memory errors, merge buffers and buffers (O50, O51, O52). -/

namespace Sys2Proof.Machine

/-! ### What the remap of a range and the repair of a row leave (R305, R306) -/

@[simp] theorem State.remap_counts (s : State) (p : Partition) (ch addr : Nat) : (s.remap p ch addr).mem.ce = s.mem.ce
    ∧ (s.remap p ch addr).mem.ue = s.mem.ue ∧ (s.remap p ch addr).chip.fatal = s.chip.fatal := by
  unfold State.remap
  dsimp only
  split
  · exact ⟨rfl, rfl, rfl⟩
  · split
    · exact ⟨rfl, rfl, rfl⟩
    · split
      · split
        · exact ⟨rfl, rfl, rfl⟩
        · simp
      · simp

@[simp] theorem State.sramRow_ce (s : State) (p : Partition) (ch addr : Nat) : (s.sramRow p ch addr).mem.ce = s.mem.ce := by
  unfold State.sramRow
  dsimp only
  split
  · rfl
  · split
    · simp
    · rfl

/-- A corrected error is counted, whether or not its range is remapped (R305). -/
@[simp] theorem State.corrected_ce (s : State) (p : Partition) (ch addr : Nat) :
    (s.corrected p ch addr).mem.ce = bumpCount s.mem.ce p ch := by
  unfold State.corrected
  dsimp only
  split
  · rw [(State.remap_counts _ _ _ _).1]
  · rfl

/-- A chip-fatal error keeps its cause and freezes the fabric (R383). -/
theorem State.chipFatal_sets {s : State} (first : s.chip.fatal = none) (cause : FatalCause) (kind inst : Nat) :
    (s.chipFatal cause kind inst).chip.fatal = some cause ∧ (s.chipFatal cause kind inst).blk.frozen = true := by
  simp [State.chipFatal, first]

/-! ### The commands -/

section
variable {s : State} (awake : s.sysHeld = false)
include awake

section
variable {ch : Fin 8} (filled : s.mem.filled = true) (used : s.mem.channels.contains ch.val = true)
include filled used

theorem exec_memCorrectedError_counts {part : Partition} (coded : part ≠ .capture) (coded' : part ≠ .sramBare) (addr : Nat) :
    ∃ t, exec (.memCorrectedError part ch addr) s = .next t ∧ t.mem.ce = bumpCount s.mem.ce part ch.val ∧ t.mem.ddr = s.mem.ddr := by
  have bare : (part == .capture || part == .sramBare) = false := by simp [coded, coded']
  show ∃ t, execMemCorrectedError part ch addr s = .next t ∧ _
  simp only [execMemCorrectedError, awake, filled, used, bare, Bool.not_true, Bool.and_false, Bool.or_self, Bool.false_eq_true, if_false]
  refine ⟨_, rfl, ?_⟩
  split <;> simp

theorem exec_memUe_diag (addr : Nat) : exec (.memUe .diag ch addr) s = .next ((({ s with mem := { s.mem with
    ue := bumpCount s.mem.ue .diag ch.val } } : State).raise (srcRegion 5 6) .memUe (partNum .diag) addr 0).remap .diag ch.val addr) := by
  show execMemUe _ _ _ s = _
  simp only [execMemUe, awake, filled, used]
  rfl

/-- An uncorrectable error in the command contexts is fatal to the chip (Table 14-4). -/
theorem exec_memUe_contexts (addr : Nat) : exec (.memUe .contexts ch addr) s = .next (((({ s with mem := { s.mem with
    ue := bumpCount s.mem.ue .contexts ch.val } } : State).raise (srcRegion 5 6) .memUe (partNum .contexts) addr 0).chipFatal .contexts
      (partNum .contexts) ch.val).remap .contexts ch.val addr) := by
  show execMemUe _ _ _ s = _
  simp only [execMemUe, awake, filled, used]
  rfl

theorem exec_mergeNarrowWrite_merges (running : s.blk.frozen = false) {addr : Nat} {data : Bytes} (some' : data ≠ [])
    (within : addr % 64 + data.length ≤ 64) :
    exec (.mergeNarrowWrite ch addr data) s = .next { s with mem := s.mem.narrowWrite s.us ch.val addr data } := by
  show execMergeNarrowWrite ch addr data s = _
  have filled' : data.isEmpty = false := by simpa using some'
  have fits : decide (64 < addr % 64 + data.length) = false := by simpa using within
  simp only [execMergeNarrowWrite, awake, filled, used, running, filled', fits]
  rfl

end

/-- The oldest entry of a channel retires once it has been held for its time (R307). -/
theorem exec_mergeEntryRetire_retires {ch : Fin 8} (running : s.blk.frozen = false) {e : MergeEntry} (bad : Bool)
    (oldest : oldestEntry (s.mem.merge.filter (fun e => e.ch == ch.val)) = some e)
    (held : s.liveN .memMergeHoldNs ≤ 1000 * (s.us - e.since)) :
    exec (.mergeEntryRetire ch bad) s = .next { s with mem := (s.mem.retire e bad).wakeMerge s.us ch.val } := by
  show execMergeEntryRetire ch bad s = _
  simp only [execMergeEntryRetire, oldest, awake, running, held]
  rfl

theorem exec_bufferDraw_draws {basket : Fin 256} {n : Nat} (req : Nat) (own : 7 ≤ basket.val) (some' : 0 < n) (pool : s.mem.pool ≠ 0)
    (leaf : basketClass s.bufCfg basket.val ≠ 5) (there : basketThere s.bufCfg (partPickups s.trust.shadow.part) basket.val = true) :
    exec (.bufferDraw basket n req) s = .next (s.drawBufs basket.val n req) := by
  show execBufferDraw basket n req s = _
  simp [execBufferDraw, awake, Nat.not_lt.mpr own, leaf, there, Nat.ne_of_gt some', pool]

theorem exec_bufferReturn_returns {handle : Nat} (real : handle ≠ 0xFFFFFF) (held : (s.buf? handle).isSome = true) :
    exec (.bufferReturn handle) s = .next (s.returnBufs [handle]) := by
  have known : (s.buf? handle).isNone = false := by simpa using held
  show execBufferReturn handle s = _
  simp only [execBufferReturn, awake, real, known]
  rfl

end

/-- With no narrow write waiting, a free entry wakes none. -/
theorem MemState.wakeMerge_none {m : MemState} (none' : m.mergeQ = []) (now ch : Nat) : m.wakeMerge now ch = m := by
  simp [MemState.wakeMerge, none']

theorem State.remap_blk (s : State) (p : Partition) (ch addr : Nat) : (s.remap p ch addr).blk = s.blk := by
  simp

/-- Settles O50: the count, then what a remap, a row repair and a chip-fatal error leave. -/
theorem memoryErrorsCount : Obligations.MemoryErrorsCount := by
  intro s ch addr awake filled used
  refine ⟨fun part coded coded' => exec_memCorrectedError_counts awake filled used coded coded' addr,
    ⟨_, exec_memUe_diag awake filled used addr, by simp, by simp⟩,
    fun first => ⟨_, exec_memUe_contexts awake filled used addr, ?_⟩⟩
  have fatal := State.chipFatal_sets (s := ({ s with mem := { s.mem with
    ue := bumpCount s.mem.ue .contexts ch.val } } : State).raise (srcRegion 5 6) .memUe (partNum .contexts) addr 0) (by simp [first])
    .contexts (partNum .contexts) ch.val
  rw [(State.remap_counts _ _ _ _).2.2, State.remap_blk]
  exact fatal

/-- Settles O51: a merge and a retirement are those of the memory's model. -/
theorem narrowWritesMerge : Obligations.NarrowWritesMerge := by
  intro s ch awake running
  refine ⟨fun addr data filled used some' within => ⟨_, exec_mergeNarrowWrite_merges awake filled used running some' within, rfl, rfl⟩,
    fun e bad oldest none' held => ⟨_, exec_mergeEntryRetire_retires awake running bad oldest held, ?_⟩⟩
  rw [MemState.wakeMerge_none (m := s.mem.retire e bad) none']
  exact ⟨rfl, rfl⟩

/-- Settles O52: a draw and a return take their boundary and then the pool's operation. -/
theorem buffersMove : Obligations.BuffersMove := by
  intro s awake
  refine ⟨fun basket n req own some' pool leaf there => ⟨exec_bufferDraw_draws awake req own some' pool leaf there, fun enough =>
      ⟨_, exec_bufferDraw_draws awake req own some' pool leaf there, ?_⟩⟩,
    fun handle real held => ⟨_, exec_bufferReturn_returns awake real held, rfl⟩⟩
  unfold State.drawBufs
  dsimp only
  rw [if_pos enough]

end Sys2Proof.Machine
end

section
/-! The safety island's outputs low (O11, O12, O14): what a drop leaves of a bay, of the others and of the island. -/

namespace Sys2Proof.Machine

/-! ### One bay's outputs -/

theorem State.safeBay_congr {s t : State} (same : t.isl.bays = s.isl.bays) (b : BayId) : t.safeBay b = s.safeBay b := by
  unfold State.safeBay
  rw [same]

@[simp] theorem State.updSafe_length (s : State) (b : BayId) (f : BaySafe → BaySafe) :
    (s.updSafe b f).isl.bays.length = s.isl.bays.length := by
  simp [State.updSafe]

theorem State.updSafe_other (s : State) {b c : BayId} (other : c ≠ b) (f : BaySafe → BaySafe) :
    (s.updSafe b f).safeBay c = s.safeBay c := by
  show (s.isl.bays.set b.val _).getD c.val .reset = _
  rw [Island.getD_set, if_neg fun same => other (Fin.ext same.1)]
  rfl

@[simp] theorem State.updSafe_safe (s : State) (b : BayId) (f : BaySafe → BaySafe) (field : Field) :
    (s.updSafe b f).safe field = s.safe field := rfl

@[simp] theorem State.dropL_length (s : State) (b : BayId) : (s.dropL b).isl.bays.length = s.isl.bays.length := by
  unfold State.dropL
  split
  · exact s.updSafe_length b (fun x => { x with lsafe := false })
  · rfl

@[simp] theorem State.dropS_length (s : State) (b : BayId) : (s.dropS b).isl.bays.length = s.isl.bays.length := by
  unfold State.dropS
  split
  · exact s.updSafe_length b (fun x => { x with ssafe := false })
  · rfl

theorem State.dropL_other (s : State) {b c : BayId} (other : c ≠ b) : (s.dropL b).safeBay c = s.safeBay c := by
  unfold State.dropL
  split
  · exact s.updSafe_other other (fun x => { x with lsafe := false })
  · rfl

theorem State.dropS_other (s : State) {b c : BayId} (other : c ≠ b) : (s.dropS b).safeBay c = s.safeBay c := by
  unfold State.dropS
  split
  · exact s.updSafe_other other (fun x => { x with ssafe := false })
  · rfl

/-- A bay with both outputs low. -/
def BaySafe.low (x : BaySafe) : BaySafe := { x with lsafe := false, ssafe := false }

theorem State.dropBay_rest {s : State} (b : BayId) (whole : s.isl.bays.length = 32) : (s.dropBay b).safeBay b = (s.safeBay b).low := by
  unfold State.dropBay
  rw [State.dropS_rest b (by simpa using whole), State.dropL_rest b whole]
  rfl

theorem State.dropBay_other (s : State) {b c : BayId} (other : c ≠ b) : (s.dropBay b).safeBay c = s.safeBay c :=
  (State.dropS_other _ other).trans (s.dropL_other other)

/-! ### The island but for its bays -/

/-- The island without its bays: what a drop leaves. -/
def Island.core (i : Island) : Island := { i with bays := [] }

theorem Island.core_parts {i j : Island} (same : i.core = j.core) : i.halted = j.halted ∧ i.passed = j.passed ∧ i.supplyOk = j.supplyOk
    ∧ i.rootOk = j.rootOk ∧ i.outLatched = j.outLatched ∧ i.ilkHigh = j.ilkHigh ∧ i.vals = j.vals := by
  simp only [Island.core, Island.mk.injEq] at same
  simp_all

@[simp] theorem State.dropL_core (s : State) (b : BayId) : (s.dropL b).isl.core = s.isl.core := by
  unfold State.dropL
  split <;> rfl

@[simp] theorem State.dropS_core (s : State) (b : BayId) : (s.dropS b).isl.core = s.isl.core := by
  unfold State.dropS
  split <;> rfl

@[simp] theorem State.dropBay_core (s : State) (b : BayId) : (s.dropBay b).isl.core = s.isl.core := by
  simp [State.dropBay]

/-! ### Outputs of every bay -/

/-- A drop of bays one after another acts on each bay named, once and for all, and on no other. -/
theorem State.foldl_drop {g : State → BayId → State} {low : BaySafe → BaySafe} (length : ∀ s b, (g s b).isl.bays.length = s.isl.bays.length)
    (own : ∀ (s : State) b, s.isl.bays.length = 32 → (g s b).safeBay b = low (s.safeBay b))
    (other : ∀ (s : State) b c, c ≠ b → (g s b).safeBay c = s.safeBay c) (idem : ∀ x, low (low x) = low x) (l : List BayId) (s : State)
    (whole : s.isl.bays.length = 32) (b : BayId) : (l.foldl g s).safeBay b = if b ∈ l then low (s.safeBay b) else s.safeBay b := by
  induction l generalizing s with
  | nil => simp
  | cons a l ih =>
    rw [List.foldl_cons, ih (g s a) ((length s a).trans whole)]
    by_cases same : b = a
    · subst same
      simp [own s b whole, idem]
    · simp [other s a b same, same]

theorem State.foldl_islandCore {g : State → BayId → State} (keeps : ∀ s b, (g s b).isl.core = s.isl.core) (l : List BayId) (s : State) :
    (l.foldl g s).isl.core = s.isl.core := by
  induction l generalizing s with
  | nil => rfl
  | cons b l ih => rw [List.foldl_cons, ih, keeps]

theorem State.foldl_length {g : State → BayId → State} (keeps : ∀ s b, (g s b).isl.bays.length = s.isl.bays.length) (l : List BayId)
    (s : State) : (l.foldl g s).isl.bays.length = s.isl.bays.length := by
  induction l generalizing s with
  | nil => rfl
  | cons b l ih => rw [List.foldl_cons, ih, keeps]

theorem mem_allBays (b : BayId) : b ∈ allBays := by
  have listed : b.val ∈ allBays.map (fun b => b.val) := by
    rw [allBays_vals]
    exact List.mem_range.mpr b.isLt
  obtain ⟨c, member, same⟩ := List.mem_map.mp listed
  exact Fin.ext same ▸ member

/-- Every laser output low. -/
theorem State.dropAllL_safeBay {s : State} (whole : s.isl.bays.length = 32) (b : BayId) :
    (allBays.foldl State.dropL s).safeBay b = { s.safeBay b with lsafe := false } := by
  rw [State.foldl_drop (low := fun x => { x with lsafe := false }) State.dropL_length (fun s b whole => State.dropL_rest b whole)
    (fun s _ _ => s.dropL_other) (fun _ => rfl) allBays s whole b, if_pos (mem_allBays b)]

/-- Every spindle output low. -/
theorem State.dropAllS_safeBay {s : State} (whole : s.isl.bays.length = 32) (b : BayId) :
    (allBays.foldl State.dropS s).safeBay b = { s.safeBay b with ssafe := false } := by
  rw [State.foldl_drop (low := fun x => { x with ssafe := false }) State.dropS_length (fun s b whole => State.dropS_rest b whole)
    (fun s _ _ => s.dropS_other) (fun _ => rfl) allBays s whole b, if_pos (mem_allBays b)]

theorem State.dropAll_safeBay {s : State} (whole : s.isl.bays.length = 32) (b : BayId) : s.dropAll.safeBay b = (s.safeBay b).low := by
  unfold State.dropAll
  rw [State.foldl_drop (low := BaySafe.low) State.dropBay_length (fun s b whole => State.dropBay_rest b whole)
    (fun s _ _ => s.dropBay_other) (fun _ => rfl) allBays s whole b, if_pos (mem_allBays b)]

@[simp] theorem State.dropAll_length (s : State) : s.dropAll.isl.bays.length = s.isl.bays.length := by
  unfold State.dropAll
  exact State.foldDrop_length allBays s

@[simp] theorem State.dropAll_core (s : State) : s.dropAll.isl.core = s.isl.core := by
  unfold State.dropAll
  exact State.foldl_islandCore State.dropBay_core allBays s

/-- Every safety output of the chip is low. -/
def State.outputsLow (s : State) : Prop := ∀ b : BayId, (s.safeBay b).lsafe = false ∧ (s.safeBay b).ssafe = false

theorem State.outputsLow_congr {s t : State} (same : t.isl.bays = s.isl.bays) (low : s.outputsLow) : t.outputsLow := fun b => by
  rw [State.safeBay_congr same]
  exact low b

theorem State.dropAll_low {s : State} (whole : s.isl.bays.length = 32) : s.dropAll.outputsLow := fun b => by
  rw [State.dropAll_safeBay whole]
  exact ⟨rfl, rfl⟩

theorem State.systemReset_isl (s : State) : s.systemReset.isl = s.islandSystemReset.isl := by
  unfold State.systemReset
  rfl

/-- The island's answer to a system reset leaves every output low (R399). -/
theorem State.systemReset_low {s : State} (whole : s.isl.bays.length = 32) : s.systemReset.outputsLow := fun b => by
  have held : s.systemReset.safeBay b = { s.dropAll.safeBay b with hold := false } := by
    unfold State.safeBay
    rw [State.systemReset_isl, State.islandSystemReset_isl]
    dsimp only
    rw [List.getD_eq_getElem?_getD, List.getD_eq_getElem?_getD, List.getElem?_map]
    cases s.dropAll.isl.bays[b.val]? <;> rfl
  rw [held]
  dsimp only
  exact State.dropAll_low whole b

theorem State.assertSystem_isl (s : State) (bit : Nat) : (s.assertSystem bit).isl = if s.sysHeld then s.isl else s.systemReset.isl := by
  unfold State.assertSystem
  dsimp only
  split <;> rfl

/-- A system reset keeps outputs low that are low, and takes them low where the system ran. -/
theorem State.assertSystem_low {s : State} (whole : s.isl.bays.length = 32) (low : s.outputsLow) (bit : Nat) :
    (s.assertSystem bit).outputsLow := by
  have isl := s.assertSystem_isl bit
  split at isl
  · exact State.outputsLow_congr (congrArg Island.bays isl) low
  · exact State.outputsLow_congr (congrArg Island.bays isl) (State.systemReset_low whole)

/-- A self-check that fails halts the island with every output low (R398). -/
theorem State.islandFail_low {s : State} (whole : s.isl.bays.length = 32) (e : Ev) : (s.islandFail e).outputsLow
    ∧ (s.islandFail e).isl.halted = true ∧ (s.islandFail e).isl.passed = false := by
  have island : (s.islandFail e).isl = ({ s with isl := { s.isl with halted := true, passed := false } } : State).dropAll.isl := by
    simp [State.islandFail]
  obtain ⟨halted, passed, -⟩ := Island.core_parts (State.dropAll_core { s with isl := { s.isl with halted := true, passed := false } })
  exact ⟨State.outputsLow_congr (congrArg Island.bays island) (State.dropAll_low whole),
    (congrArg Island.halted island).trans halted, (congrArg Island.passed island).trans passed⟩

/-! ### Trips of a bay -/

/-- Counting a trip latches at most: it leaves the outputs and the trips themselves (R396). -/
theorem State.countTrip_keeps {s : State} (b : BayId) (whole : s.isl.bays.length = 32) : ((s.countTrip b).safeBay b).lsafe = (s.safeBay b).lsafe
    ∧ ((s.countTrip b).safeBay b).ssafe = (s.safeBay b).ssafe ∧ ((s.countTrip b).safeBay b).lmonTrip = (s.safeBay b).lmonTrip
    ∧ ((s.countTrip b).safeBay b).lmonLow = (s.safeBay b).lmonLow ∧ ((s.countTrip b).safeBay b).gateTrip = (s.safeBay b).gateTrip := by
  unfold State.countTrip State.raiseSafe
  dsimp only
  split
  · rw [State.raise_safeBay, State.updSafe_safeBay b _ (by simpa using whole), State.updSafe_safeBay b _ whole]
    exact ⟨rfl, rfl, rfl, rfl, rfl⟩
  · rw [State.updSafe_safeBay b _ whole]
    exact ⟨rfl, rfl, rfl, rfl, rfl⟩

/-- A trip that drops the laser output, reports and counts. -/
theorem State.laserTrip_safeBay {s t : State} {b : BayId} (f : BaySafe → BaySafe) (whole : s.isl.bays.length = 32)
    (isl : t.isl = ((s.updSafe b f).dropL b).isl) : ((t.countTrip b).safeBay b).lsafe = false
    ∧ ((t.countTrip b).safeBay b).ssafe = (f (s.safeBay b)).ssafe ∧ ((t.countTrip b).safeBay b).lmonTrip = (f (s.safeBay b)).lmonTrip
    ∧ ((t.countTrip b).safeBay b).lmonLow = (f (s.safeBay b)).lmonLow ∧ ((t.countTrip b).safeBay b).gateTrip = (f (s.safeBay b)).gateTrip := by
  have after : t.safeBay b = { f (s.safeBay b) with lsafe := false } := by
    rw [State.safeBay_congr (congrArg Island.bays isl), State.dropL_rest b (by simpa using whole), State.updSafe_safeBay b _ whole]
  obtain ⟨l, sp, lt, ll, g⟩ := State.countTrip_keeps (s := t) b (by rw [isl]; simpa using whole)
  rw [l, sp, lt, ll, g, after]
  exact ⟨rfl, rfl, rfl, rfl, rfl⟩

/-- A trip that drops both outputs and reports. -/
theorem State.bayTrip_safeBay {s : State} (b : BayId) (f : BaySafe → BaySafe) (whole : s.isl.bays.length = 32) (e : Ev) (p0 : Nat) :
    ((((s.updSafe b f).dropBay b).raiseSafe b e p0)).safeBay b = (f (s.safeBay b)).low := by
  unfold State.raiseSafe
  rw [State.raise_safeBay, State.dropBay_rest b (by simpa using whole), State.updSafe_safeBay b _ whole]

/-! ### Laser-monitor trips, gate trips, holds, keepers (R382, R388, R389, R393, R398) -/

section
variable {s : State} {b : BayId} (present : s.bayExists b = true)
include present

theorem exec_lmonTrip_trips :
    exec (.lmonTrip b) s = .next (((s.updSafe b (fun x => { x with lmonLow := true })).lmonTripBay b).after b) := by
  show execLmonTrip b s = _
  rw [execLmonTrip, withBay_run present]

/-- The island's moment since which a pickup's gate is open. -/
def BaySafe.gateSince (x : BaySafe) (p : Pu) : Option Nat :=
  match p with
  | .A => x.gateA
  | .B => x.gateB

theorem exec_gateForce_trips {p : Pu} {since : Nat} (permit : (s.link b p).wpermit = true)
    (unlocked : (s.pu b p).focus.locked = false ∨ (s.pu b p).track.locked = false) (open' : (s.safeBay b).gateSince p = some since)
    (long : since + s.safe .safetyGateLimitUs < s.us) : exec (.gateForce b p) s = .next (((((s.updSafe b (fun x => { x with
      gateTrip := true })).dropL b).raise (srcBay b 18) .safetyGateForced b.val p.idx 0).countTrip b).after b) := by
  have gate : (s.pu b p).gateOpen = true := by
    have permit' : (s.pu b p).link.wpermit = true := permit
    rcases unlocked with u | u <;> simp [Pickup.gateOpen, permit', u]
  show execGateForce b p s = _
  rw [execGateForce, withBay_run present]
  cases p <;> simp only [BaySafe.gateSince] at open' <;> simp [gate, open', long]

theorem exec_lmonMismatch_trips {since : Nat} (set : (s.bay b).pa.link.servo.lmon = true ∨ (s.bay b).pb.link.servo.lmon = true)
    (high : (s.safeBay b).lmonLow = false) (bad : (s.safeBay b).lmonBad = some since) (long : since + 10000 ≤ s.us) :
    exec (.lmonMismatch b) s = .next (((((s.updSafe b (fun x => { x with lmonTrip := true, lmonHigh := some s.us })).dropL b).raiseSafe b
      .safetyLmonMismatch 0).countTrip b).after b) := by
  show execLmonMismatch b s = _
  rw [execLmonMismatch, withBay_run present]
  simp [set, high, bad, long]

theorem exec_bayHoldReceipt_holds : ∃ t : State, exec (.bayHoldReceipt b) s = .next (t.after b)
    ∧ t.isl = ((s.updSafe b (fun x => { x with hold := true })).dropBay b).isl := by
  show ∃ t : State, execBayHoldReceipt b s = .next (t.after b) ∧ _
  rw [execBayHoldReceipt, withBay_run present]
  exact ⟨_, rfl, rfl⟩

theorem exec_keeperDrop_drops (lsafe : Bool) :
    exec (.keeperDrop b lsafe) s = .next ((if lsafe then s.dropL b else s.dropS b).after b) := by
  show execKeeperDrop b lsafe s = _
  rw [execKeeperDrop, withBay_run present]

/-! ### Overspeed and plausibility (R390, R391, R392) -/

theorem exec_spdfToggle_trips {n : Nat} (real : 20 ≤ n) (fast : n * s.safe .safetyOverTripRpm < 2500000) :
    exec (.spdfToggle b n) s = .next (((((s.updSafe b (fun x => { x with
      spdfLast := some s.us, intervals := (n :: x.intervals).take 24 })).updSafe b (fun x => { x with overTrip := true })).dropBay
        b).raiseSafe b .safetyOverspeed (2500000 / n)).after b) := by
  show execSpdfToggle b n s = _
  rw [execSpdfToggle, withBay_run present]
  simp only [Nat.not_lt.mpr real, if_false, State.updSafe_safe, fast, if_true]

theorem exec_spdfToggle_counts {n : Nat} (real : 20 ≤ n) (slow : 2500000 ≤ n * s.safe .safetyOverTripRpm) :
    exec (.spdfToggle b n) s = .next ((s.updSafe b (fun x => { x with
      spdfLast := some s.us, intervals := (n :: x.intervals).take 24 })).after b) := by
  show execSpdfToggle b n s = _
  rw [execSpdfToggle, withBay_run present]
  simp only [Nat.not_lt.mpr real, if_false, State.updSafe_safe, Nat.not_lt.mpr slow]

theorem exec_spdfToggle_ignores {n : Nat} (bounce : n < 20) : exec (.spdfToggle b n) s = .next (s.after b) := by
  show execSpdfToggle b n s = _
  rw [execSpdfToggle, withBay_run present, if_pos bounce]

theorem exec_speedReport_records : ∃ failSince : BaySafe → Option Nat, exec (.speedReport b) s = .next ((s.updSafe b (fun x => { x with
    repRpm := (s.bay b).spindle.obs.rpm, repState := (s.bay b).spindle.st, repAt := s.us, failSince := failSince x })).after b) := by
  show ∃ failSince : BaySafe → Option Nat, execSpeedReport b s = _
  rw [execSpeedReport, withBay_run present]
  exact ⟨_, rfl⟩

theorem exec_plausibilityTrip_trips {since : Nat} (fails : (s.safeBay b).failSince = some since)
    (long : since + s.safe .safetySpdfCheckMs * 1000 ≤ s.us) : exec (.plausibilityTrip b) s = .next ((((s.updSafe b (fun x => { x with
      plausTrip := true })).dropBay b).raiseSafe b .safetySpdfImplausible ((s.safeBay b).repRpm.toNat / 65536)).after b) := by
  show execPlausibilityTrip b s = _
  rw [execPlausibilityTrip, withBay_run present]
  simp [fails, long]

end

/-- Settles O11: each command by its trip, and each trip by what a drop leaves of its bay. -/
theorem bayTripsDropOutputs : Obligations.BayTripsDropOutputs := by
  intro s b present whole
  refine ⟨⟨_, exec_lmonTrip_trips present, ?_⟩,
    fun p since permit unlocked open' long => ⟨_, exec_gateForce_trips present permit unlocked (by cases p <;> exact open') long, ?_⟩,
    fun since set high bad long => ⟨_, exec_lmonMismatch_trips present set high bad long, ?_⟩, ?_,
    ⟨_, exec_keeperDrop_drops present true, ?_⟩, ⟨_, exec_keeperDrop_drops present false, ?_⟩⟩
  · obtain ⟨l, sp, trip, low, -⟩ := State.laserTrip_safeBay (s := s.updSafe b (fun x => { x with lmonLow := true })) (b := b)
      (t := ((((s.updSafe b (fun x => { x with lmonLow := true })).updSafe b (fun x => { x with
        lmonTrip := true, lmonHigh := some s.us })).dropL b).raiseSafe b .safetyLmonTrip 0))
      (fun x => { x with lmonTrip := true, lmonHigh := some s.us }) (by simpa using whole) (by simp [State.raiseSafe])
    rw [State.updSafe_safeBay b _ whole] at sp low trip
    rw [State.after_safeBay]
    exact ⟨trip, low, l, sp⟩
  · obtain ⟨l, sp, -, -, trip⟩ := State.laserTrip_safeBay (s := s) (b := b) (fun x => { x with gateTrip := true }) whole
      (t := ((s.updSafe b (fun x => { x with gateTrip := true })).dropL b).raise (srcBay b 18) .safetyGateForced b.val p.idx 0) (by simp)
    rw [State.after_safeBay]
    exact ⟨trip, l, sp⟩
  · obtain ⟨l, -, trip, -, -⟩ := State.laserTrip_safeBay (s := s) (b := b) (fun x => { x with lmonTrip := true, lmonHigh := some s.us }) whole
      (t := ((s.updSafe b (fun x => { x with lmonTrip := true, lmonHigh := some s.us })).dropL b).raiseSafe b .safetyLmonMismatch 0)
      (by simp [State.raiseSafe])
    rw [State.after_safeBay]
    exact ⟨trip, l⟩
  · obtain ⟨t, holds, isl⟩ := exec_bayHoldReceipt_holds (s := s) (b := b) present
    refine ⟨_, holds, ?_⟩
    rw [State.after_safeBay, State.safeBay_congr (congrArg Island.bays isl), State.dropBay_rest b (by simpa using whole),
      State.updSafe_safeBay b _ whole]
    exact ⟨rfl, rfl, rfl⟩
  · rw [State.after_safeBay, if_pos rfl, State.dropL_rest b whole]
    exact ⟨rfl, rfl⟩
  · rw [State.after_safeBay, if_neg Bool.false_ne_true, State.dropS_rest b whole]
    exact ⟨rfl, rfl⟩

/-- Settles O12: a trip by what a drop of both outputs leaves, a toggle or report by the fields it sets. -/
theorem speedTripsDropBay : Obligations.SpeedTripsDropBay := by
  intro s b present whole
  refine ⟨fun n real fast => ⟨_, exec_spdfToggle_trips present real fast, ?_⟩,
    fun n real slow => ⟨_, exec_spdfToggle_counts present real slow, ?_⟩,
    fun n bounce => ⟨_, exec_spdfToggle_ignores present bounce, by simp⟩, ?_,
    fun since fails long => ⟨_, exec_plausibilityTrip_trips present fails long, ?_⟩⟩
  · rw [State.after_safeBay, State.bayTrip_safeBay b _ (by simpa using whole)]
    exact ⟨rfl, rfl, rfl⟩
  · rw [State.after_safeBay, State.updSafe_safeBay b _ whole]
    exact ⟨rfl, rfl, rfl, rfl⟩
  · obtain ⟨failSince, records⟩ := exec_speedReport_records (s := s) (b := b) present
    refine ⟨_, records, ?_⟩
    rw [State.after_safeBay, State.updSafe_safeBay b _ whole]
    exact ⟨rfl, rfl, rfl⟩
  · rw [State.after_safeBay, State.bayTrip_safeBay b _ whole]
    exact ⟨rfl, rfl, rfl⟩

end Sys2Proof.Machine
end

section
/-! Faults of the island and the interlock (O14). -/

namespace Sys2Proof.Machine

theorem State.sysHeld_congr {s t : State} (same : t.chip.rst = s.chip.rst) : t.sysHeld = s.sysHeld := by
  unfold State.sysHeld
  rw [same]

/-- A reset that the island requests (Table 16-2). -/
theorem State.assertSystem_island (s : State) : (s.assertSystem 4).chip.rst.island = true := rfl

/-- A system reset suspends the island's heartbeat check (R399). -/
theorem State.assertSystem_hbRun {s : State} (awake : s.sysHeld = false) (bit : Nat) : (s.assertSystem bit).isl.hbRun = false := by
  rw [State.assertSystem_isl, awake, if_neg Bool.false_ne_true, State.systemReset_isl, State.islandSystemReset_isl]

/-! ### The interlock (R389) -/

/-- The island with its interlock open since now. -/
def State.ilkOpened (s : State) : State := { s with isl := { s.isl with ilkHigh := some s.us } }

theorem exec_ilkOpen_drops (s : State) : exec .ilkOpen s = .next (State.raise (if s.safe .safetyIlkBrake = 1
    then allBays.foldl State.dropS (allBays.foldl State.dropL s.ilkOpened) else allBays.foldl State.dropL s.ilkOpened)
      961 .safetyIlkOpen 0 0 0) := by
  obtain ⟨-, -, -, -, -, -, vals⟩ := Island.core_parts (State.foldl_islandCore State.dropL_core allBays s.ilkOpened)
  have brake : (allBays.foldl State.dropL s.ilkOpened).safe .safetyIlkBrake = s.safe .safetyIlkBrake := by
    unfold State.safe
    rw [vals]
    rfl
  show execIlkOpen s = _
  unfold execIlkOpen
  dsimp only
  rw [show ({ s with isl := { s.isl with ilkHigh := some s.us } } : State) = s.ilkOpened from rfl, brake]

theorem State.raise_isl (s : State) (src : Nat) (e : Ev) (p0 p1 p2 : Nat) : (s.raise src e p0 p1 p2).isl = s.isl := by
  simp

/-- Opening the interlock drops every laser output, and every spindle output where it brakes (R389). -/
theorem exec_ilkOpen_low {s : State} (whole : s.isl.bays.length = 32) : ∃ t, exec .ilkOpen s = .next t ∧ t.isl.ilkHigh = some s.us
    ∧ ∀ b : BayId, t.safeBay b = { s.safeBay b with
      lsafe := false, ssafe := if s.safe .safetyIlkBrake = 1 then false else (s.safeBay b).ssafe } := by
  have opened : s.ilkOpened.isl.bays.length = 32 := whole
  have length : (allBays.foldl State.dropL s.ilkOpened).isl.bays.length = 32 :=
    (State.foldl_length State.dropL_length allBays s.ilkOpened).trans opened
  have core := State.foldl_islandCore State.dropL_core allBays s.ilkOpened
  obtain ⟨-, -, -, -, -, opens, -⟩ := Island.core_parts core
  obtain ⟨-, -, -, -, -, brakes, -⟩ := Island.core_parts ((State.foldl_islandCore State.dropS_core allBays _).trans core)
  refine ⟨_, exec_ilkOpen_drops s, ?_, fun b => ?_⟩
  · rw [State.raise_isl]
    split
    · exact brakes
    · exact opens
  · rw [State.raise_safeBay]
    split
    · rw [State.dropAllS_safeBay length, State.dropAllL_safeBay opened]
      rfl
    · rw [State.dropAllL_safeBay opened]
      rfl

/-! ### Heartbeats (R394) -/

theorem exec_heartbeatLostIsland_resets {s : State} (up : s.islandUp = true) (checks : s.isl.hbRun = true) (awake : s.sysHeld = false)
    (late : s.isl.agAt + 500 ≤ s.us) :
    exec .heartbeatLostIsland s = .next (((s.raise 961 .safetyHbLost 0 0 0).dropAll).assertSystem 4) := by
  show execHeartbeatLostIsland s = _
  simp [execHeartbeatLostIsland, up, checks, awake, late]

/-- A pickup without light and permit. -/
def Pickup.dark (u : Pickup) : Pickup := { u with link := { u.link with laser := false, wpermit := false } }

/-- Every bay without light and permit and with its motor floating (R394). -/
def State.allDark (s : State) : State := { s with
  isl := { s.isl with agentLost := true }
  bays := s.bays.map (fun (y : Bay) => { y with pa := y.pa.dark, pb := y.pb.dark, spindle := { y.spindle with drive := .floating } }) }

theorem exec_islandLostAgent_darkens {s : State} (late : s.isl.hbAt + 500 ≤ s.us) (awake : s.sysHeld = false) (first : s.isl.agentLost = false) :
    exec .islandLostAgent s = .next (s.allDark.raise 961 .safetyIslandLost 0 0 0) := by
  show execIslandLostAgent s = _
  simp only [execIslandLostAgent, late, awake, first]
  rfl

theorem State.allDark_bay (s : State) (b : BayId) : s.allDark.bay b = { s.bay b with
    pa := (s.bay b).pa.dark, pb := (s.bay b).pb.dark, spindle := { (s.bay b).spindle with drive := .floating } } := by
  unfold State.bay State.allDark
  exact Vector.getElem_map _ b.isLt

/-! ### Readback and self-checks (R388, R398) -/

theorem exec_lockstepMismatch_fails (s : State) : exec .lockstepMismatch s = .next (s.islandFail .safetyLockstep) := rfl

theorem exec_romCheck_fails (s : State) : exec (.romCheck false) s = .next (s.islandFail .safetyLockstep) := by
  show execRomCheck false s = _
  rw [execRomCheck, if_neg Bool.false_ne_true]

/-- The island in its own reset: its supply is out of range (R398). -/
def State.islandDead (s : State) : State := { s with isl := { s.isl with supplyOk := false, passed := false } }

theorem exec_vddSafeExcursion_drops (s : State) :
    exec .vddSafeExcursion s = .next (s.islandDead.dropAll.raise 961 .safetySupply 0 0 0) := rfl

/-- The island with its outputs latched low. -/
def State.latchedLow (s : State) : State := { s with isl := { s.isl with outLatched := true } }

theorem exec_outputReadback_latches {s : State} {b : BayId} (present : s.bayExists b = true) (low : (s.safeBay b).lsafe = false) :
    exec (.outputReadback b true true) s = .next ((s.latchedLow.dropAll.raise 961 .safetyOutputReadback b.val 0 0).after b) := by
  show execOutputReadback b true true s = _
  rw [execOutputReadback, withBay_run present]
  simp [low, State.latchedLow]

theorem exec_vddSafeReturn_passes {s : State} (out : s.isl.supplyOk = false) (runs : s.isl.halted = false) :
    exec (.vddSafeReturn true) s = .next { s with isl := { s.isl with supplyOk := true, passed := true } } := by
  show execVddSafeReturn true s = _
  simp [execVddSafeReturn, out, runs]

/-- Settles O14: each fault by its drop, and what the drop leaves of the island. -/
theorem islandFaultsDropAll : Obligations.IslandFaultsDropAll := by
  intro s whole
  refine ⟨?_, fun up checks awake late => ⟨_, exec_heartbeatLostIsland_resets up checks awake late, State.assertSystem_island _, ?_, ?_⟩,
    fun late awake first => ⟨_, exec_islandLostAgent_darkens late awake first, ?_, fun b p => ?_⟩,
    fun b pin present low high => ?_, ⟨_, exec_lockstepMismatch_fails s, ?_⟩, ⟨_, exec_romCheck_fails s, ?_⟩, rfl,
    ⟨_, exec_vddSafeExcursion_drops s, ?_⟩,
    fun out runs => ⟨_, exec_vddSafeReturn_passes out runs, rfl, rfl, rfl⟩⟩
  · obtain ⟨t, drops, opened, low⟩ := exec_ilkOpen_low whole
    refine ⟨t, drops, opened, fun b => ?_⟩
    rw [low b]
    exact ⟨rfl, fun brake => if_pos brake, fun brake => if_neg brake⟩
  · exact State.assertSystem_hbRun ((State.sysHeld_congr (by simp)).trans awake) 4
  · exact State.assertSystem_low (by simpa using whole) (State.dropAll_low (by simpa using whole)) 4
  · simp [State.allDark]
  · have bay : (s.allDark.raise 961 .safetyIslandLost 0 0 0).bay b = s.allDark.bay b := State.raise_bay _ _ _ _ _ _ b
    unfold State.link State.pu
    rw [bay, State.allDark_bay]
    cases p <;> exact ⟨rfl, rfl, rfl⟩
  · subst high
    refine ⟨_, exec_outputReadback_latches present low, ?_, fun c => ?_⟩
    · have isl : ((s.latchedLow.dropAll.raise 961 .safetyOutputReadback b.val 0 0).after b).isl = s.latchedLow.dropAll.isl := by simp
      obtain ⟨-, -, -, -, latched, -⟩ := Island.core_parts s.latchedLow.dropAll_core
      rw [isl, latched]
      rfl
    · rw [State.after_safeBay, State.raise_safeBay]
      exact State.dropAll_low (s := s.latchedLow) whole c
  · obtain ⟨low, halted, passed⟩ := State.islandFail_low whole .safetyLockstep
    exact ⟨halted, passed, low⟩
  · obtain ⟨low, halted, passed⟩ := State.islandFail_low whole .safetyLockstep
    exact ⟨halted, passed, low⟩
  · have isl : (s.islandDead.dropAll.raise 961 .safetySupply 0 0 0).isl = s.islandDead.dropAll.isl := by simp
    obtain ⟨-, passed, supply, -⟩ := Island.core_parts s.islandDead.dropAll_core
    rw [isl, supply, passed]
    refine ⟨rfl, rfl, fun b => ?_⟩
    rw [State.raise_safeBay]
    exact State.dropAll_low (s := s.islandDead) whole b

end Sys2Proof.Machine
end

section
/-! Chip-fatal errors, power and system resets, the watchdog (O55, O57, O8). -/

namespace Sys2Proof.Machine

/-! ### The crash log (R384) -/

/-- Where a crash record goes depends on the bytes of the flash alone. -/
theorem Flash.crashPut_mem (f : Flash) (l : List FlashJob) (r : Bytes) : ({ f with jobs := l }.crashPut r).mem = (f.crashPut r).mem := by
  have region : { f with jobs := l }.region 7 = f.region 7 := by
    unfold Flash.region
    rw [Flash.dir_congr (f := { f with jobs := l }) (g := f) rfl rfl]
  obtain ⟨mem, size, jobs, seq, bad⟩ := f
  unfold Flash.crashPut
  rw [region]
  cases Flash.region _ 7 with
  | none => rfl
  | some e =>
    simp only [Flash.isBlank, Flash.read, Flash.program, Flash.eraseAt]
    generalize List.find? _ _ = blank
    cases blank with
    | some u => rfl
    | none =>
      generalize left : List.foldl _ _ _ = oldest
      generalize right : List.foldl _ _ _ = oldest'
      obtain rfl : oldest = oldest' := left.symm.trans right
      cases oldest <;> rfl

/-! ### Chip-fatal errors (R383) -/

/-- A chip-fatal error captures its record and takes every output low. -/
theorem State.chipFatal_captures {s : State} (first : s.chip.fatal = none) (whole : s.isl.bays.length = 32) (cause : FatalCause)
    (kind inst : Nat) : (s.chipFatal cause kind inst).chip.crash = some (s.crashRecord cause kind inst)
    ∧ (s.chipFatal cause kind inst).outputsLow := by
  unfold State.chipFatal
  rw [first]
  dsimp only
  exact ⟨by simp, State.dropAll_low (by simpa using whole)⟩

/-- With its record done with, the chip has a system reset and no record pending (R383). -/
theorem State.fatalReset_resets (s : State) : s.fatalReset.chip.rst.island = true ∧ s.fatalReset.chip.crash = none := by
  refine ⟨rfl, ?_⟩
  unfold State.fatalReset State.assertSystem
  dsimp only
  split <;> rfl

section
variable {s : State} (awake : s.sysHeld = false)
include awake

theorem exec_chipFatal_stops (cause : FatalCause) (kind inst : Nat) :
    exec (.chipFatal cause kind inst) s = .next (s.chipFatal cause kind inst) := by
  show execChipFatal cause kind inst s = _
  simp [execChipFatal, awake]

theorem exec_crashRecordAppend_writes {r : Bytes} (record : s.chip.crash = some r) (early : s.us < s.chip.fatalAt + 50000)
    (none' : s.flash.jobs.any (fun j => j.op == .crashRecord) = false) :
    exec .crashRecordAppend s = .next (s.flashJob ⟨.crashRecord, 0, r, 0, none, none⟩) := by
  show execCrashRecordAppend s = _
  simp only [execCrashRecordAppend, record, awake, Nat.not_le.mpr early, none']
  rfl

theorem exec_crashRecordAppend_abandons {r : Bytes} (record : s.chip.crash = some r) (late : s.chip.fatalAt + 50000 ≤ s.us) :
    exec .crashRecordAppend s = .next s.fatalReset := by
  show execCrashRecordAppend s = _
  simp [execCrashRecordAppend, record, awake, late]

theorem exec_flashDone_takes {op : FlashOp} {j : FlashJob} (first : s.flash.jobs.find? (fun j => j.op == op) = some j) (good : Bool) :
    exec (.flashEraseProgramDone op good) s
      = .next (State.jobDone { s with flash := { s.flash with jobs := s.flash.jobs.erase j } } j good) := by
  show execFlashEraseProgramDone op good s = _
  simp [execFlashEraseProgramDone, awake, State.takeJob, first]

end

theorem exec_flashDone_idle {s : State} {op : FlashOp} (none' : ∀ j ∈ s.flash.jobs, j.op ≠ op) (good : Bool) :
    exec (.flashEraseProgramDone op good) s = .next s := by
  have first : s.flash.jobs.find? (fun j => j.op == op) = none := by simpa [List.find?_eq_none] using none'
  show execFlashEraseProgramDone op good s = _
  simp [execFlashEraseProgramDone, State.takeJob, first]

/-- The record of a chip-fatal error, once in its place, releases the reset (R384). -/
theorem State.jobDone_crashRecord (s : State) {j : FlashJob} (op : j.op = .crashRecord) :
    s.jobDone j true = State.fatalReset { s with flash := s.flash.crashPut j.data } := by
  unfold State.jobDone
  rw [op]
  rfl

theorem State.jobDone_calRecord (s : State) {j : FlashJob} (op : j.op = .calRecord) :
    s.jobDone j true = { s with flash := s.flash.calCompact.calPut j.data } := by
  unfold State.jobDone
  rw [op]
  rfl

/-- Settles O55: an error by its capture, an end of a flash operation by what its purpose does with the flash. -/
theorem chipFatalStopsTheChip : Obligations.ChipFatalStopsTheChip := by
  intro s awake
  refine ⟨fun cause kind inst first whole => ⟨_, exec_chipFatal_stops awake cause kind inst, ?_⟩,
    fun r record early none' => ⟨_, exec_crashRecordAppend_writes awake record early none', rfl⟩,
    fun r record late => ⟨_, exec_crashRecordAppend_abandons awake record late, s.fatalReset_resets.1, s.fatalReset_resets.2, ?_⟩,
    fun j first => ⟨_, exec_flashDone_takes awake first true, ?_⟩, fun j first => ⟨_, exec_flashDone_takes awake first true, ?_⟩,
    fun op none' good => exec_flashDone_idle none' good⟩
  · obtain ⟨fatal, frozen⟩ := State.chipFatal_sets first cause kind inst
    exact ⟨fatal, frozen, State.chipFatal_captures first whole cause kind inst⟩
  · unfold State.fatalReset
    rw [(State.assertSystem_frame _ _).2.2.1]
  · have op : j.op = .crashRecord := by simpa using List.find?_some first
    rw [State.jobDone_crashRecord _ op]
    refine ⟨(State.fatalReset_resets _).1, ?_⟩
    unfold State.fatalReset
    rw [(State.assertSystem_frame _ _).2.2.1]
    exact s.flash.crashPut_mem _ j.data
  · have op : j.op = .calRecord := by simpa using List.find?_some first
    rw [State.jobDone_calRecord _ op]

/-! ### Power-on and system resets (Tables 16-2 and 16-3) -/

/-- What a power-on reset leaves (R342, R345). -/
theorem State.assertPower_leaves (s : State) : s.assertPower.chip.rst.porst = true ∧ s.assertPower.isl = .reset
    ∧ s.assertPower.bays = State.reset.bays ∧ s.assertPower.host = State.reset.host ∧ s.assertPower.chip.wdog = ⟨false, 0, none⟩ := by
  unfold State.assertPower
  refine ⟨rfl, rfl, ?_, ?_, ?_⟩
  · simp only [State.ite_bays, State.emit_frame, ite_self, State.dropAll_frame]
    rfl
  · simp only [State.ite_host, State.emit_frame, ite_self, State.dropAll_frame]
    rfl
  · simp only [State.ite_chip, State.emit_frame, ite_self, State.dropAll_frame]
    rfl

/-- What a system reset leaves where the system ran (R346). -/
theorem State.assertSystem_leaves {s : State} (awake : s.sysHeld = false) (bit : Nat) : (s.assertSystem bit).bays = State.reset.bays
    ∧ (s.assertSystem bit).host = State.reset.host ∧ (s.assertSystem bit).ham = State.reset.ham
    ∧ (s.assertSystem bit).chip.wdog = ⟨false, 0, none⟩ := by
  unfold State.assertSystem
  rw [awake]
  exact ⟨rfl, rfl, rfl, rfl⟩

theorem State.assertSystem_disarms {s : State} (awake : s.sysHeld = false) (bit : Nat) :
    (s.assertSystem bit).chip.wdog = ⟨false, 0, none⟩ := by
  obtain ⟨-, -, -, wdog⟩ := State.assertSystem_leaves awake bit
  exact wdog

/-- Its cause, and no core reset left (R345). -/
theorem State.assertSystem_cause (s : State) (bit : Nat) : (s.assertSystem bit).chip.rst.cause = causeBit s.chip.rst.cause bit := by
  unfold State.assertSystem State.systemReset
  dsimp only
  repeat' split
  all_goals rfl

theorem State.assertSystem_sources (s : State) : (s.assertSystem 1).chip.rst.sysrst = true ∧ (s.assertSystem 2).chip.rst.perst = true :=
  ⟨rfl, rfl⟩

/-- Settles O57: the power sources by what a power-on reset leaves, the others by what a system reset leaves. -/
theorem wideResets : Obligations.WideResets := by
  intro s
  obtain ⟨porst, isl, bays, host, -⟩ := s.assertPower_leaves
  obtain ⟨-, -, sysMem, sysFuses⟩ := s.assertSystem_frame 1
  obtain ⟨-, -, mem, fuses⟩ := s.assertPower_frame
  refine ⟨⟨_, rfl, porst, isl, fuses, mem, bays, host⟩,
    fun rail => ⟨fun off => ⟨s.assertPower, ?_, rfl, porst, isl, bays, host⟩, fun on => ?_⟩,
    ⟨_, rfl, rfl, rfl, rfl, rfl⟩, ⟨_, rfl, s.assertSystem_sources.1, s.assertSystem_cause 1, sysMem, sysFuses, fun awake => ?_⟩,
    fun on => ⟨s.assertSystem 2, ?_, s.assertSystem_sources.2, s.assertSystem_cause 2⟩,
    fun off => ?_, ⟨_, rfl, rfl⟩, ⟨_, rfl, rfl⟩, fun porst sysrst perst island => ⟨_, rfl, ?_⟩⟩
  · show execSupplyMonitorTrip rail s = _
    simp [execSupplyMonitorTrip, off]
  · show execSupplyMonitorTrip rail s = _
    simp [execSupplyMonitorTrip, on]
  · obtain ⟨bays, host, ham, -⟩ := State.assertSystem_leaves awake 1
    exact ⟨bays, host, ham⟩
  · show execPePerstSystem s = _
    simp [execPePerstSystem, on]
  · show execPePerstSystem s = _
    simp [execPePerstSystem, off]
  · show (s.releaseSource 0).chip.rst.porst = false ∧ (s.releaseSource 0).chip.rst.cause = 1 ∧ true = true
    simp [State.releaseSource, porst, sysrst, perst, island]

/-! ### The watchdog (R344) -/

/-- The first stage resets the cores, and nothing else (R344). -/
theorem State.assertCore_first {s : State} (awake : s.sysHeld = false) (bit : Nat) :
    (s.assertCore bit).chip.wdog = s.chip.wdog ∧ (s.assertCore bit).coresHeld = true ∧ (s.assertCore bit).sysHeld = false
      ∧ (s.assertCore bit).chip.rst.cause = causeBit s.chip.rst.cause bit := by
  unfold State.assertCore
  rw [if_neg (by simp [awake])]
  dsimp only
  exact ⟨rfl, by simp [State.coresHeld], awake, rfl⟩

theorem State.assertSystem_holds (s : State) : (s.assertSystem 3).sysHeld = true := by
  have wdog : (s.assertSystem 3).chip.rst.wdog = true := rfl
  simp [State.sysHeld, wdog]

/-- The watchdog's own part of the first stage. -/
def State.firstStage (s : State) (w : Wdog) : State := { s with chip := { s.chip with wdog := w } }

/-- The first stage after a loss that leaves the chip as it stands. -/
theorem State.firstStage_resets {s u : State} (awake : s.sysHeld = false) (still : u.chip.still = s.chip.still) (w : Wdog) :
    ((u.firstStage w).assertCore 8).chip.wdog = w ∧ u.us = s.us ∧ ((u.firstStage w).assertCore 8).coresHeld = true
      ∧ ((u.firstStage w).assertCore 8).sysHeld = false
      ∧ ((u.firstStage w).assertCore 8).chip.rst.cause = causeBit s.chip.rst.cause 8
      ∧ ((u.firstStage w).assertCore 8).isl = u.isl := by
  obtain ⟨rst, -, -, clk, -⟩ := ChipState.still_parts still
  have marked : (u.firstStage w).chip.rst = s.chip.rst := rst
  obtain ⟨wdog, held, sys, cause⟩ := State.assertCore_first (s := u.firstStage w)
    (by simpa [State.sysHeld, marked] using awake) 8
  obtain ⟨-, -, -, -, -, -, -, -, -, isl, -, -⟩ := (u.firstStage w).assertCore_frame 8
  exact ⟨wdog, by rw [State.us, State.us, clk], held, sys, by rw [cause, marked], isl⟩

section
variable {s : State}

theorem exec_kick_early (early : s.chip.up.step < 6) : exec .watchdogKick s = .next s := by
  show execWatchdogKick s = _
  simp [execWatchdogKick, early]

theorem exec_kick_arms (running : s.coresHeld = false) (cores : s.chip.up.cores = true) (step : 6 ≤ s.chip.up.step) :
    exec .watchdogKick s = .next { s with chip := { s.chip with wdog := ⟨true, s.us, none⟩ } } := by
  show execWatchdogKick s = _
  simp [execWatchdogKick, running, cores, Nat.not_lt.mpr step]

theorem exec_firstStage_waits (kicked : s.us < s.chip.wdog.kicked + 1000000) : exec .watchdogFirstStage s = .next s := by
  show execWatchdogFirstStage s = _
  simp [execWatchdogFirstStage, kicked]

theorem exec_firstStage_disarmed (disarmed : s.chip.wdog.armed = false) : exec .watchdogFirstStage s = .next s := by
  show execWatchdogFirstStage s = _
  simp [execWatchdogFirstStage, disarmed]

theorem exec_finalStage_unstarted (first : s.chip.wdog.first = none) : exec .watchdogFinalStage s = .next s := by
  show execWatchdogFinalStage s = _
  simp [execWatchdogFinalStage, first]

theorem exec_finalStage_waits {at' : Nat} (first : s.chip.wdog.first = some at') (early : s.us < at' + 2000000) :
    exec .watchdogFinalStage s = .next s := by
  show execWatchdogFinalStage s = _
  simp [execWatchdogFinalStage, first, early]

section
variable (awake : s.sysHeld = false)
include awake

theorem exec_firstStage_runs (armed : s.chip.wdog.armed = true) (first : s.chip.wdog.first = none)
    (due : s.chip.wdog.kicked + 1000000 ≤ s.us) :
    exec .watchdogFirstStage s
      = .next ((s.coresLost.firstStage ⟨s.chip.wdog.armed, s.chip.wdog.kicked, some s.coresLost.us⟩).assertCore 8) := by
  show execWatchdogFirstStage s = _
  unfold execWatchdogFirstStage State.firstStage
  dsimp only
  rw [if_neg (by simp [awake, armed, first, due])]

theorem exec_finalStage_resets {at' : Nat} (first : s.chip.wdog.first = some at') (due : at' + 2000000 ≤ s.us) :
    exec .watchdogFinalStage s = .next (s.assertSystem 3) := by
  show execWatchdogFinalStage s = _
  simp [execWatchdogFinalStage, first, awake, Nat.not_lt.mpr due]

end

end

/-- Settles O8: a kick by its condition, each stage by its time, the disarming by what the resets leave. -/
theorem watchdogStages : Obligations.WatchdogStages := by
  intro s
  obtain ⟨-, -, -, -, wdog⟩ := s.assertPower_leaves
  refine ⟨exec_kick_early, fun running cores step => ⟨_, exec_kick_arms running cores step, rfl⟩,
    fun awake armed first => ⟨exec_firstStage_waits, fun due => ?_⟩, exec_firstStage_disarmed,
    exec_finalStage_unstarted, fun at' awake first => ⟨exec_finalStage_waits first, fun due =>
      ⟨_, exec_finalStage_resets awake first due, s.assertSystem_holds, s.assertSystem_cause 3, State.assertSystem_disarms awake 3⟩⟩,
    fun bit awake => State.assertSystem_disarms awake bit,
    wdog⟩
  · obtain ⟨wdog, us, held, sys, cause, isl⟩ := State.firstStage_resets awake s.coresLost_chipStill
      ⟨s.chip.wdog.armed, s.chip.wdog.kicked, some s.coresLost.us⟩
    obtain ⟨-, -, -, -, -, isl', -⟩ := s.coresLost_frame
    refine ⟨_, exec_firstStage_runs awake armed first due, ?_⟩
    exact ⟨by rw [wdog, us], held, sys, cause, isl.trans isl'⟩

end Sys2Proof.Machine
end

section
/-! Core and block resets, clocks, supplies, the bring-up (O58, O59, O60). -/

namespace Sys2Proof.Machine

/-! ### Core and block resets (R347, R348) -/

@[simp] theorem State.regionEvent_act (s : State) (r src : Nat) (e : Ev) (p0 p1 p2 : Nat) :
    (s.regionEvent r src e p0 p1 p2).host.act = s.host.act := by
  simp [State.regionEvent]

@[simp] theorem State.degrade_act (s : State) (r : Nat) : (s.degrade r).host.act = s.host.act := by
  unfold State.degrade
  split <;> simp

@[simp] theorem State.fence_act (s : State) (id : BlockId) : (s.fence id).host.act = s.host.act := by
  simp [State.fence, State.setBlk]

@[simp] theorem State.claimSpare_act (s : State) (id : BlockId) : (s.claimSpare id).2.host.act = s.host.act := by
  unfold State.claimSpare
  split <;> simp [State.setBlk]

@[simp] theorem State.restartAdmin_act (s : State) (n : Nat) : (s.restartAdmin n).host.act = s.host.act := rfl

/-- A management core's failure and its takeover leave the activation. -/
@[simp] theorem State.mgmtFaulty_act (s : State) (c code : Nat) : (s.mgmtFaulty c code).host.act = s.host.act := by
  unfold State.mgmtFaulty
  dsimp only
  repeat' split
  all_goals simp

@[simp] theorem State.mgmtTakeover_act (s : State) : s.mgmtTakeover.host.act = s.host.act := by
  unfold State.mgmtTakeover
  split <;> simp

section
variable {s : State} (awake : s.sysHeld = false)

section
variable {at' : Nat} (reset : s.chip.rst.core = some at')
include reset

theorem exec_coreRelease_waits (early : s.us < at' + 10) (good : Bool) (failed : List (Fin 5)) :
    exec (.coreResetRelease good failed) s = .next s := by
  show execCoreResetRelease good failed s = _
  simp [execCoreResetRelease, reset, early]

include awake

theorem exec_coreRelease_halts (noAct : s.host.act = none) (cores : s.chip.up.cores = true) (due : at' + 10 ≤ s.us)
    (failed : List (Fin 5)) : exec (.coreResetRelease false failed) s = .next
      { s with chip := { s.chip with up := { s.chip.up with cores := false } } } := by
  show execCoreResetRelease false failed s = _
  simp [execCoreResetRelease, reset, awake, noAct, cores, Nat.not_lt.mpr due]

theorem exec_coreRelease_resumes (noAct : s.host.act = none) (cores : s.chip.up.cores = true) (due : at' + 10 ≤ s.us)
    (failed : List (Fin 5)) : exec (.coreResetRelease true failed) s = .next (failed.foldl (fun s c =>
      if (s.blkOf ⟨7, 4, c.val⟩).up then (s.mgmtFaulty c.val 0).mgmtTakeover else s) s).coresReturn.doeResume := by
  show execCoreResetRelease true failed s = _
  simp only [execCoreResetRelease, reset]
  rw [if_neg (by simp [awake, noAct, cores, due]), State.foldl_act (fun _ _ => by split <;> simp), noAct]
  rfl

end

theorem exec_blockReset_busy (blk : BlockId) : exec (.blockResetRequest blk false) s = .next s := by
  show execBlockResetRequest blk false s = _
  simp [execBlockResetRequest]

include awake in
theorem exec_blockReset_granted {blk : BlockId} (present : s.blockExists blk = true) (up : (s.blkOf blk).up = true) :
    exec (.blockResetRequest blk true) s = .next { s with blk := { s.blk with resets := s.blk.resets + 1 } } := by
  show execBlockResetRequest blk true s = _
  simp [execBlockResetRequest, awake, present, up]

end

/-- Settles O58. -/
theorem coreAndBlockResets : Obligations.CoreAndBlockResets := by
  intro s awake
  exact ⟨fun at' reset noAct cores => ⟨exec_coreRelease_waits reset, fun due =>
      ⟨fun failed => ⟨_, exec_coreRelease_halts awake reset noAct cores due failed, rfl, rfl⟩,
        exec_coreRelease_resumes awake reset noAct cores due⟩⟩,
    fun blk present up => ⟨⟨_, exec_blockReset_granted awake present up, rfl, rfl⟩, exec_blockReset_busy blk⟩⟩

/-! ### Clocks and supplies (R340 to R342, R443, R445) -/

/-- A faulty head-link port is out of service. -/
theorem State.blockFaulty_port (s : State) {r i : Nat} : ((s.blockFaulty ⟨0, r, i⟩).blkOf ⟨0, r, i⟩).up = false := by
  unfold State.blockFaulty
  split
  next down => simpa using down
  next =>
    have off (b : BayId) (p : Pu) : ((((s.fence ⟨0, r, i⟩).degrade r).puOff b p).blkOf ⟨0, r, i⟩).up = false := by
      rw [State.blkOf_congr (State.puOff_blk _ b p).2.1]
      simp
    split
    case h_1 =>
      dsimp only
      rw [State.after_blkOf]
      split
      · exact off _ _
      · rw [State.askHold_blkOf]
        exact off _ _
    case h_9 port _ _ _ _ _ _ _ => exact absurd rfl port
    all_goals contradiction

section
variable {s : State}

section
variable (awake : s.sysHeld = false)
include awake

/-- A port whose clock fails is out of service (R340, R341). -/
theorem State.clockFail_port {r i : Nat} (present : s.blockExists ⟨0, r, i⟩ = true) (up : (s.blkOf ⟨0, r, i⟩).up = true) :
    ((s.clockFail ⟨0, r, i⟩).blkOf ⟨0, r, i⟩).up = false := by
  unfold State.clockFail
  rw [if_neg (by simp [awake, present, up])]
  exact State.blockFaulty_port _

theorem exec_ddrPllUnlock_fatal (locked : s.chip.clk.ddrLock = true) : exec .ddrPllUnlock s = .next (State.chipFatal
    { s with chip := { s.chip with clk := { s.chip.clk with ddrLock := false } } } .ddrPll 0 0) := by
  show execDdrPllUnlock s = _
  simp [execDdrPllUnlock, awake, locked]

theorem exec_avsSetPoint_writes {mv : Nat} (step : 3 ≤ s.chip.up.step) (least : 680 ≤ mv) (most : mv ≤ 800)
    (rise : mv ≤ s.chip.power.avs + 10) (fall : s.chip.power.avs ≤ mv + 10) (writing : s.chip.power.avsFails < 3) (acked : Bool) :
    exec (.avsSetPoint mv acked) s = .next { s.emit (.avs mv) with chip := { (s.emit (.avs mv)).chip with power :=
      if acked then { s.chip.power with avs := mv, avsFails := 0 }
      else { s.chip.power with avsFails := s.chip.power.avsFails + 1 } } } := by
  show execAvsSetPoint mv acked s = _
  unfold execAvsSetPoint
  dsimp only
  rw [if_neg (by simp [awake, step, least, most, rise, fall, writing])]

theorem exec_hbeatIncrement_counts (ready : s.host.ready = true) (running : s.chip.fatal = none) (cores : s.chip.up.cores = true) :
    exec .hbeatIncrement s = .next (State.bumpGen { s with host := { s.host with hbeat := (s.host.hbeat + 1) % 2 ^ 32 } }) := by
  show execHbeatIncrement s = _
  simp [execHbeatIncrement, awake, ready, running, cores]

end

/-- A port is no core: the loss of its clock fails it also in a core reset (R341). -/
theorem exec_clockGoodLoss_port (r i : Nat) : exec (.clockGoodLoss ⟨0, r, i⟩) s = .next (s.clockFail ⟨0, r, i⟩) := by
  show execClockGoodLoss ⟨0, r, i⟩ s = _
  simp [execClockGoodLoss]

/-- The island's part of a loss of the root clock (R342). -/
def State.rootLoss (s : State) : State :=
  { s with isl := { s.isl with rootOk := false }, chip := { s.chip with clk := { s.chip.clk with locked := false } } }

theorem State.rootLoss_island (s : State) : s.rootLoss.isl.rootOk = false ∧ s.rootLoss.isl.bays = s.isl.bays := ⟨rfl, rfl⟩

/-- Outputs that are low stay low with the root clock's loss. -/
theorem State.rootLoss_low {s : State} (whole : s.isl.bays.length = 32) (low : s.outputsLow) :
    (s.rootLoss.assertSystem 4).outputsLow :=
  State.assertSystem_low (by rw [s.rootLoss_island.2, whole]) (State.outputsLow_congr s.rootLoss_island.2 low) 4

theorem exec_rootLost_resets (up : s.islandUp = true) (root : s.isl.rootOk = true) :
    exec .rootLost s = .next ((s.raise 961 .safetyRootLost 0 0 0).dropAll.rootLoss.assertSystem 4) := by
  show execRootLost s = _
  unfold execRootLost
  rw [if_neg (by simp [up, root])]
  unfold State.rootLoss
  rfl

theorem State.dropAll_chip (s : State) : s.dropAll.chip = s.chip := by
  simp

/-- A thermal trip leaves its pin driven and every output low (R445). -/
theorem exec_thermalTrip_trips (whole : s.isl.bays.length = 32) :
    ∃ t, exec .thermalTrip s = .next t ∧ t.chip.power.tripped = true ∧ t.outputsLow := by
  by_cases tripped : s.chip.power.tripped = true
  · refine ⟨s.dropAll, ?_, by rw [s.dropAll_chip, tripped], State.dropAll_low whole⟩
    show execThermalTrip s = _
    simp [execThermalTrip, tripped]
  · refine ⟨(State.emit { s with chip := { s.chip with power := { s.chip.power with tripped := true } } } (.pin "THERMTRIP_N" false)).dropAll,
      ?_, by rw [State.dropAll_chip]; simp, State.dropAll_low (by simpa using whole)⟩
    show execThermalTrip s = _
    unfold execThermalTrip
    rw [if_neg tripped]

end

theorem State.assertSystem_island_source (s : State) : (s.assertSystem 4).chip.rst.island = true := rfl

/-- A system reset leaves what the island knows of the root clock. -/
theorem State.assertSystem_rootOk (s : State) (bit : Nat) : (s.assertSystem bit).isl.rootOk = s.isl.rootOk := by
  rw [State.assertSystem_isl]
  split
  · rfl
  · rw [State.systemReset_isl]
    unfold State.islandSystemReset
    dsimp only
    obtain ⟨-, -, -, rootOk, -⟩ := Island.core_parts s.dropAll_core
    exact rootOk

/-- Settles O59. -/
theorem clocksAndPowerProtect : Obligations.ClocksAndPowerProtect := by
  intro s
  refine ⟨fun b p awake _ present up => ⟨⟨_, rfl, State.clockFail_port awake present up⟩,
      ⟨_, exec_clockGoodLoss_port _ _, State.clockFail_port awake present up⟩⟩,
    fun up root whole => ⟨_, exec_rootLost_resets up root, ?_, State.assertSystem_island_source _, ?_⟩,
    fun awake locked first => ⟨_, exec_ddrPllUnlock_fatal awake locked, ?_⟩, fun whole => exec_thermalTrip_trips whole,
    fun mv awake step least most rise fall writing => ⟨⟨_, exec_avsSetPoint_writes awake step least most rise fall writing true, ?_⟩,
      ⟨_, exec_avsSetPoint_writes awake step least most rise fall writing false, ?_⟩⟩,
    fun awake ready running cores => ⟨_, exec_hbeatIncrement_counts awake ready running cores, rfl⟩⟩
  · rw [State.assertSystem_rootOk, (State.rootLoss_island _).1]
  · have raised : (s.raise 961 .safetyRootLost 0 0 0).isl.bays.length = 32 := by simpa using whole
    exact State.rootLoss_low (by rw [State.dropAll_length, raised]) (State.dropAll_low raised)
  · refine State.chipFatal_sets ?_ _ _ _
    exact first
  · exact ⟨rfl, rfl⟩
  · exact ⟨rfl, rfl⟩

end Sys2Proof.Machine
end

section
/-! The bring-up (O60). -/

namespace Sys2Proof.Machine

/-! ### The motor link of a bay under its head links -/

@[simp] theorem State.updPu_mlink (s : State) (b : BayId) (p : Pu) (f : Pickup → Pickup) :
    ((s.updPu b p f).bay b).mlink = (s.bay b).mlink := by
  simp [State.updPu]

@[simp] theorem State.updLink_mlink (s : State) (b : BayId) (p : Pu) (g : HLink → HLink) :
    ((s.updLink b p g).bay b).mlink = (s.bay b).mlink := State.updPu_mlink s b p _

@[simp] theorem State.setSpare_mlink (s : State) (b : BayId) (v : SpareRx) : ((s.setSpare b v).bay b).mlink = (s.bay b).mlink := by
  simp [State.setSpare]

@[simp] theorem State.sendHead_mlink (s : State) (b : BayId) (p : Pu) (type tsh : Nat) (payload : Bytes) :
    ((s.sendHead b p type tsh payload).bay b).mlink = (s.bay b).mlink := by
  rw [State.sendHead, State.sendDn_bay, State.updLink_mlink]

/-- The training of a head link leaves the motor link. -/
@[simp] theorem State.linkTrain_mlink (s : State) (b : BayId) (p : Pu) : ((s.linkTrain b p).bay b).mlink = (s.bay b).mlink := by
  unfold State.linkTrain
  dsimp only
  rw [State.sendHead_mlink, State.emit_bay, State.updPu_mlink]
  split
  · split <;> simp
  · split <;> simp
  · simp

/-! ### The steps (Table 16-5, R352) -/

theorem State.stepDone_sets (s : State) (n : Nat) : (s.stepDone n).chip.up.step = n ∧ (s.stepDone n).host.stage = n
    ∧ (s.stepDone n).trust = s.trust ∧ (s.stepDone n).isl = s.isl ∧ (s.stepDone n).chip.clk = s.chip.clk :=
  ⟨rfl, rfl, rfl, rfl, rfl⟩

section
variable {s : State} (awake : s.sysHeld = false) (going : s.chip.up.stopped = false) (running : s.chip.fatal = none)
include awake going running

theorem exec_bringupStep_fuses (step : s.chip.up.step = 0) (ok : Bool) (rates : List Nat) :
    exec (.bringupStep ok rates) s = .next (s.stepFuses ok) := by
  show execBringupStep ok rates s = _
  simp [execBringupStep, awake, going, running, step]

theorem exec_bringupStep_island (step : s.chip.up.step = 1) (ok : Bool) (rates : List Nat) :
    exec (.bringupStep ok rates) s = .next (s.stepIsland ok) := by
  show execBringupStep ok rates s = _
  simp [execBringupStep, awake, going, running, step]

theorem exec_bringupStep_root (step : s.chip.up.step = 2) (ok : Bool) (rates : List Nat) :
    exec (.bringupStep ok rates) s = .next (s.stepRoot ok) := by
  show execBringupStep ok rates s = _
  simp [execBringupStep, awake, going, running, step]

/-- Step 9 waits for every bay. -/
theorem exec_bringupStep_bays (step : s.chip.up.step = 8) (done : ∀ b : BayId, s.bayDone b = true) (ok : Bool) (rates : List Nat) :
    exec (.bringupStep ok rates) s = .next (s.stepDone 9) := by
  show execBringupStep ok rates s = _
  simp [execBringupStep, awake, going, running, step, done]

/-- Step 10 waits for the hampers that mount. -/
theorem exec_bringupStep_mounts (step : s.chip.up.step = 9) (mounted : s.anyMounting = false) (ok : Bool) (rates : List Nat) :
    exec (.bringupStep ok rates) s = .next (s.stepDone 10) := by
  show execBringupStep ok rates s = _
  simp [execBringupStep, awake, going, running, step, mounted]

end

/-- A step that fails counts; the third failure of the fuse load stops the chip. -/
theorem State.stepFails_counts (s : State) (most : Nat) : (s.stepFails most).chip.up.step = s.chip.up.step
    ∧ (s.stepFails most).chip.up.fails = s.chip.up.fails + 1
    ∧ (s.stepFails most).chip.up.stopped = decide (most ≤ s.chip.up.fails + 1) :=
  ⟨rfl, rfl, rfl⟩

/-- An island that has not halted passes its self-test or fails it. -/
theorem State.stepIsland_tests {s : State} (whole : s.isl.bays.length = 32) (able : s.isl.halted = false) :
    ((s.stepIsland true).chip.up.step = 2 ∧ (s.stepIsland true).isl = { s.isl with passed := true })
      ∧ (s.stepIsland false).chip.up.step = 2 ∧ (s.stepIsland false).isl.passed = false ∧ (s.stepIsland false).isl.halted = true
      ∧ (s.stepIsland false).outputsLow := by
  obtain ⟨low, halted, passed⟩ := State.islandFail_low whole .safetySelftestFail
  unfold State.stepIsland
  rw [able]
  refine ⟨⟨rfl, rfl⟩, ?_⟩
  obtain ⟨step, -, -, isl, -⟩ := (s.islandFail .safetySelftestFail).stepDone_sets 2
  simp only [if_false, Bool.false_eq_true]
  exact ⟨step, by rw [isl, passed], by rw [isl, halted], State.outputsLow_congr (congrArg Island.bays isl) low⟩

/-! ### The start of a bay (R353) -/

section
variable {s : State} {b : BayId}

/-- The training of the head links that are down. -/
def State.headsTrain (s : State) (b : BayId) : State :=
  ([.A, .B] : List Pu).foldl (fun s p => if (s.link b p).st == .down && s.portUp b p then s.linkTrain b p else s) s

theorem State.headsTrain_mlink (s : State) (b : BayId) : ((s.headsTrain b).bay b).mlink = (s.bay b).mlink := by
  have one (s : State) (p : Pu) : ((if (s.link b p).st == .down && s.portUp b p then s.linkTrain b p else s).bay b).mlink
      = (s.bay b).mlink := by
    split <;> simp
  simp only [State.headsTrain, List.foldl_cons, List.foldl_nil, one]

theorem exec_bayBringupStart_trains (awake : s.coresHeld = false) (step : 8 ≤ s.chip.up.step)
    (due : s.chip.up.at8 + 50000 * b.val ≤ s.us) (bays : s.noBays = false) (present : s.bayExists b = true) (port : s.mportUp b = true)
    (down : (s.bay b).mlink.st = .down) : ∃ g : Bay → Bay, (∀ y, (g y).mlink = y.mlink)
      ∧ exec (.bayBringupStart b) s = .next ((((s.headsTrain b).updBay b g).mlinkTrain b).after b) := by
  have heads : ((s.headsTrain b).bay b).mlink.st = .down := by rw [State.headsTrain_mlink, down]
  refine ⟨fun y => { y with upAt := some (s.headsTrain b).us }, fun _ => rfl, ?_⟩
  unfold State.headsTrain at heads ⊢
  show execBayBringupStart b s = _
  unfold execBayBringupStart
  rw [withBay_run present, if_neg (by simp [awake, step, due, bays, port])]
  dsimp only
  rw [if_neg (by rw [heads]; decide), if_pos (by rw [State.updBay_bay, heads]; rfl)]

end

/-- Settles O60: each step by what its end sets, the motor link by its training after the head links'. -/
theorem bringupAdvances : Obligations.BringupAdvances := by
  intro s rates awake going running
  refine ⟨fun step => ⟨⟨_, exec_bringupStep_fuses awake going running step true rates, rfl, rfl, rfl⟩,
      ⟨_, exec_bringupStep_fuses awake going running step false rates, ?_⟩⟩,
    fun step able whole => ⟨⟨_, exec_bringupStep_island awake going running step true rates, (State.stepIsland_tests whole able).1⟩,
      ⟨_, exec_bringupStep_island awake going running step false rates, (State.stepIsland_tests whole able).2⟩⟩,
    fun step => ⟨_, exec_bringupStep_root awake going running step true rates, rfl, rfl, rfl⟩,
    fun step done => ⟨_, exec_bringupStep_bays awake going running step done true rates, rfl, rfl⟩,
    fun step mounted => ⟨_, exec_bringupStep_mounts awake going running step mounted true rates, rfl, rfl⟩,
    fun b held step due bays present port down => ?_⟩
  · obtain ⟨same, fails, stopped⟩ := s.stepFails_counts 3
    exact ⟨same.trans step, fails, stopped.trans (by simp)⟩
  · obtain ⟨g, -, run⟩ := exec_bayBringupStart_trains held step due bays present port down
    exact ⟨_, run, by simp [State.mlinkTrain_bay]⟩

end Sys2Proof.Machine
end

section
/-! The fabric, duplex blocks, management cores and regions (O54). -/

namespace Sys2Proof.Machine

theorem onRegion_run {r : Nat} {s : State} {f : State → State} (present : s.regionExists r = true) : onRegion r s f = .next (f s) := by
  unfold onRegion
  rw [if_pos present]

/-- A chip-fatal error leaves the regions lost before it. -/
theorem State.chipFatal_lost (s : State) (cause : FatalCause) (kind inst : Nat) :
    (s.chipFatal cause kind inst).blk.lost = s.blk.lost := by
  unfold State.chipFatal
  split
  · rfl
  · simp

/-- A region that is lost is on record, whether or not its loss is chip-fatal (R381). -/
theorem State.loseRegion_lost {s : State} {r : Nat} (there : s.blk.lost.contains r = false) :
    (s.loseRegion r).blk.lost = r :: s.blk.lost := by
  unfold State.loseRegion
  rw [if_neg (by rw [there]; decide)]
  dsimp only
  split
  · rw [State.chipFatal_lost, (State.bayLost_fold _ _).1]
    simp
  · rw [(State.bayLost_fold _ _).1]
    simp

/-- A disagreement that a checker attributes leaves the other copy (R376). -/
theorem State.copyLost_simplex {s : State} {id : BlockId} (pair : (s.blkOf id).st ≠ .simplex) :
    ((s.copyLost id).blkOf id).st = .simplex := by
  unfold State.copyLost
  dsimp only
  rw [if_neg (by simpa using pair), State.degrade_blkOf, State.regionEvent_blkOf]
  have set := State.setBlk_blkOf s { s.blkOf id with st := .simplex }
  rw [State.blkOf_id] at set
  rw [set]

/-- A link's first resynchronization within a second leaves it in service (R373). -/
theorem State.creditResync_first {s : State} (none' : s.blk.resyncs = []) (r l : Nat) :
    (s.creditResync r l).blk = { s.blk with resyncs := [(r, l, s.us)] } := by
  unfold State.creditResync
  dsimp only
  rw [if_pos (by simp [none'])]
  simp [none']

theorem State.restartAdmin_blkOf (s : State) (n : Nat) (id : BlockId) : (s.restartAdmin n).blkOf id = s.blkOf id :=
  State.blkOf_congr rfl id

/-- A management core that fails stays out of service while its work goes on elsewhere (R378). -/
theorem State.mgmtFaulty_down (s : State) (c code : Nat) : ((s.mgmtFaulty c code).blkOf ⟨7, 4, c⟩).up = false := by
  have fenced : (((s.fence ⟨7, 4, c⟩).regionEvent 4 9 .mgmtCoreFault c code 0).blkOf ⟨7, 4, c⟩).up = false := by simp
  unfold State.mgmtFaulty
  dsimp only
  cases s.servedBy ⟨7, 4, c⟩ with
  | none =>
    dsimp only
    rwa [State.degrade_blkOf]
  | some n =>
    have claimed := State.claimSpare_keeps_down fenced ⟨7, 4, n⟩
    dsimp only
    split
    · rwa [State.takeovers_blkOf]
    · rwa [State.restartAdmin_blkOf]

/-- The work of the core that failed first is taken over (R378). -/
theorem State.mgmtTakeover_takes {s : State} {x : Takeover} (first : s.blk.takeovers.reverse.find? (fun t => t.kind == 7) = some x) :
    s.mgmtTakeover.blk.takeovers = s.blk.takeovers.erase x := by
  unfold State.mgmtTakeover
  rw [first]
  simp

section
variable {s : State}

section
variable {k : DuplexKind} {region inst : Nat} (running : s.coresHeld = false)
  (present : s.regionExists (duplexRegion (duplexKind k) region) = true) (known : inst < duplexCount (duplexKind k))
  (up : (s.blkOf ⟨duplexKind k, duplexRegion (duplexKind k) region, inst⟩).up = true)
  (pair : (s.blkOf ⟨duplexKind k, duplexRegion (duplexKind k) region, inst⟩).st ≠ .simplex)
include running present known up pair

theorem exec_duplexDisagree_attributed {which : DuplexWhich} (attributed : which = .first ∨ which = .second) (again : Bool) :
    exec (.duplexDisagree k region inst which again) s
      = .next (s.copyLost ⟨duplexKind k, duplexRegion (duplexKind k) region, inst⟩) := by
  have awake : s.sysHeld = false := State.sysHeld_of_coresHeld running
  have inChip : duplexRegion (duplexKind k) region < 6 := by
    simp only [State.regionExists, Bool.and_eq_true, decide_eq_true_eq] at present
    exact present.1
  show execDuplexDisagree k region inst which again s = _
  unfold execDuplexDisagree
  rw [onRegion_run present]
  dsimp only
  rw [if_neg (by simp [running, awake, known, up, inChip]), if_neg (by simpa using pair)]
  rcases attributed with rfl | rfl <;> rfl

theorem exec_duplexDisagree_passing {which : DuplexWhich} (open' : which = .neither ∨ which = .both) :
    exec (.duplexDisagree k region inst which false) s = .next s := by
  have awake : s.sysHeld = false := State.sysHeld_of_coresHeld running
  have inChip : duplexRegion (duplexKind k) region < 6 := by
    simp only [State.regionExists, Bool.and_eq_true, decide_eq_true_eq] at present
    exact present.1
  show execDuplexDisagree k region inst which false s = _
  unfold execDuplexDisagree
  rw [onRegion_run present]
  dsimp only
  rw [if_neg (by simp [running, awake, known, up, inChip]), if_neg (by simpa using pair)]
  rcases open' with rfl | rfl <;> rfl

end

section
variable (awake : s.sysHeld = false)
include awake

theorem exec_regionLost_loses {r : Fin 6} (present : s.regionExists r.val = true) :
    exec (.regionLost r) s = .next (s.loseRegion r.val) := by
  show execRegionLost r s = _
  simp [execRegionLost, onRegion_run present, awake]

section
variable {r : Fin 6} {l : Fin 8} (present : s.regionExists r.val = true) (moving : s.blk.frozen = false)
  (up : (s.blkOf (linkBlock r.val l.val)).up = true)
include present moving up

theorem exec_creditStarve_resyncs : exec (.creditStarve r l) s = .next (s.creditResync r.val l.val) := by
  show execCreditStarve r l s = _
  simp [execCreditStarve, onRegion_run present, awake, moving, up]

theorem exec_creditAudit_resyncs : exec (.creditAudit r l true) s = .next (s.creditResync r.val l.val) := by
  show execCreditAudit r l true s = _
  simp [execCreditAudit, onRegion_run present, awake, moving, up]

end
end

theorem exec_creditAudit_agrees {r : Fin 6} (present : s.regionExists r.val = true) (l : Fin 8) :
    exec (.creditAudit r l false) s = .next s := by
  show execCreditAudit r l false s = _
  simp [execCreditAudit, onRegion_run present]

theorem exec_mgmtCoreFault_fences {c : Fin 5} (running : s.coresHeld = false) (up : (s.blkOf ⟨7, 4, c.val⟩).up = true)
    (cause : FaultCause) : ∃ code, exec (.mgmtCoreFault c cause) s = .next (s.mgmtFaulty c.val code) := by
  show ∃ code, execMgmtCoreFault c cause s = _
  unfold execMgmtCoreFault
  rw [if_neg (by simp [running, up])]
  exact ⟨_, rfl⟩

theorem exec_mgmtTakeoverDone_takes (running : s.coresHeld = false) : exec .mgmtTakeoverDone s = .next s.mgmtTakeover := by
  show execMgmtTakeoverDone s = _
  simp [execMgmtTakeoverDone, running]

end

/-- Settles O54: each fault by its command's condition and what its handling leaves on record. -/
theorem chipFaultsIsolate : Obligations.ChipFaultsIsolate := by
  intro s awake
  refine ⟨fun r present there => ⟨_, exec_regionLost_loses awake present, State.loseRegion_lost there⟩,
    fun k region inst again running present known up pair => ?_,
    fun r l present moving up => ?_,
    fun c cause running up => ?_,
    fun x running first => ⟨_, exec_mgmtTakeoverDone_takes running, State.mgmtTakeover_takes first⟩⟩
  · have one := exec_duplexDisagree_attributed running present known up pair (.inl rfl) again
    have passing {which : DuplexWhich} := exec_duplexDisagree_passing (which := which) running present known up pair
    exact ⟨⟨_, one, State.copyLost_simplex pair⟩,
      (exec_duplexDisagree_attributed running present known up pair (.inr rfl) again).trans one.symm,
      passing (.inl rfl), passing (.inr rfl)⟩
  · have starve := exec_creditStarve_resyncs awake present moving up
    exact ⟨starve, exec_creditAudit_resyncs awake present moving up, exec_creditAudit_agrees present l,
      fun none' => ⟨_, starve, State.creditResync_first none' _ _⟩⟩
  · obtain ⟨code, run⟩ := exec_mgmtCoreFault_fences running up cause
    exact ⟨_, run, State.mgmtFaulty_down _ _ _⟩

end Sys2Proof.Machine
end

section
/-! Fuses and DOE mailboxes (O43). -/

namespace Sys2Proof.Machine

/-! ### Fuses (R409) -/

theorem State.blow_accepts {s : State} {c : Cmd} {fu : Fuses} (accepted : s.fusesAccept fu = true) (left : fu.revoked ≠ 15#4)
    (live : s.liveAt c.order) : (s.blow c fu).trust.fuses = fu ∧ (s.blow c fu).endedAt c.order .success := by
  unfold State.blow
  rw [if_pos (by simp [accepted, left])]
  exact ⟨by simp, State.finish_ended _ _ live⟩

theorem State.blow_refuses {s : State} {c : Cmd} {fu : Fuses} (refused : s.fusesAccept fu = false) (live : s.liveAt c.order) :
    (s.blow c fu).trust.fuses = s.trust.fuses ∧ (s.blow c fu).endedAt c.order .imageInvalid := by
  unfold State.blow
  rw [if_neg (by simp [refused])]
  exact ⟨by simp, State.finish_ended _ _ live⟩

section
variable {s : State} {f : FnId} {tag : BitVec 6} {c : Cmd} (ready : s.admin? 0x32 f tag = some c)
include ready

theorem exec_enforceSignatures_blows (op : c.b 40 = 2) :
    exec (.attestEnforceSignatures f tag) s = .next (s.blow c { s.trust.fuses with sig := true }) := by
  show execAttestEnforceSignatures f tag s = _
  simp [execAttestEnforceSignatures, ready, op]

theorem exec_revokeKey_blows (op : c.b 40 = 3) : exec (.attestRevokeKey f tag) s
    = .next (s.blow c { s.trust.fuses with revoked := s.trust.fuses.revoked ||| BitVec.ofNat 4 (2 ^ c.b 41) }) := by
  show execAttestRevokeKey f tag s = _
  simp [execAttestRevokeKey, ready, op]

end

/-! ### Mailboxes (R414) -/

section
variable {s : State} {f : FnId} {x : Fn} (found : s.fn? f = some x)
include found

section
variable {ty : BitVec 8} {payload : Bytes} (awake : s.sysHeld = false) (free : x.doe.busy = false) (able : s.host.ready = true)
include awake free able

theorem exec_doeRequest_answers (up : s.queueUp = true) {r : Bytes} (answer : s.doeAnswer ty.toNat payload = some r) :
    exec (.doeRequest f ty payload) s
      = .next ((s.updFn f (fun x => { x with doe := ⟨false, false, r⟩ })).emit (.doe f r)) := by
  show execDoeRequest f ty payload s = _
  simp [execDoeRequest, found, awake, free, able, up, answer]

theorem exec_doeRequest_keeps (down : s.queueUp = false) : exec (.doeRequest f ty payload) s
    = .next (s.updFn f (fun x => { x with doe := ⟨true, false, ty :: payload⟩ })) := by
  show execDoeRequest f ty payload s = _
  simp [execDoeRequest, found, awake, free, able, down]

end

/-- The abort of a request not yet answered leaves the mailbox empty. -/
theorem State.doeAbort_empties (busy : x.doe.busy = true) :
    ∃ t, exec (.doeAbort f) s = .next t ∧ t.fn? f = some { x with doe := ⟨false, false, []⟩ } := by
  refine ⟨_, rfl, (State.updFn_found found (fun x => { x with doe := ⟨false, false, if x.doe.busy then [] else x.doe.response⟩ })
    fun _ same => same).trans ?_⟩
  rw [busy]
  rfl

end

/-- Settles O43: a fuse operation by the key check, a mailbox by what is left of it in its function. -/
theorem fusesAndMailboxes : Obligations.FusesAndMailboxes := by
  intro s f
  refine ⟨fun tag c ready live => ⟨fun op accepted left => ⟨_, exec_enforceSignatures_blows ready op, State.blow_accepts accepted left live⟩,
      fun op refused => ⟨_, exec_enforceSignatures_blows ready op, State.blow_refuses refused live⟩,
      fun op accepted left => ⟨_, exec_revokeKey_blows ready op, ?_⟩⟩,
    fun x found => ⟨fun ty payload awake free able => ⟨fun r up answer =>
        ⟨_, exec_doeRequest_answers found awake free able up answer, ?_⟩,
      fun down => ⟨_, exec_doeRequest_keeps found awake free able down, State.updFn_found found _ fun _ same => same⟩⟩, State.doeAbort_empties found⟩⟩
  · obtain ⟨fuses, ended⟩ := State.blow_accepts accepted left live
    exact ⟨by rw [fuses], ended⟩
  · exact State.updFn_found found _ fun _ same => same

end Sys2Proof.Machine
end

section
/-! Debug access, event rates, injections (O56, O47). -/

namespace Sys2Proof.Machine

/-! ### The end of an injection's entry (R421) -/

section
variable {s : State} {id : BitVec 16} {i : Inject} {at' : Nat} (found : s.inj.list.find? (fun i => i.id == id.toNat) = some i)
  (ended : i.st = .ended) (since : i.endedAt = some at')
include found ended since

/-- An ended injection leaves the list once its second is over; what it still held is lifted first. -/
theorem exec_injectLift_lifts (awake : s.sysHeld = false) (due : at' + 1000000 ≤ s.us) :
    ∃ t, exec (.injectLift id) s = .next t ∧ t.inj.list = s.inj.list.filter (fun j => j.id != i.id) := by
  show ∃ t, execInjectLift id s = .next t ∧ _
  unfold execInjectLift
  rw [found]
  dsimp only
  rw [ended, since]
  dsimp only
  rw [if_neg (by simp [awake, due])]
  refine ⟨_, rfl, congrArg (List.filter _) ?_⟩
  split
  · simp
  · split
    · repeat' split
      all_goals simp
    · rfl

theorem exec_injectLift_waits (early : s.us < at' + 1000000) : exec (.injectLift id) s = .next s := by
  show execInjectLift id s = _
  simp [execInjectLift, found, ended, since, early]

end

/-- Settles O56. -/
theorem debugAndInjectionsEnd : Obligations.DebugAndInjectionsEnd := by
  intro s
  refine ⟨⟨_, rfl, rfl, by simp⟩, rfl, ⟨_, rfl, rfl, fun r member => ?_, List.length_map ..⟩,
    fun id i at' found ended since => ⟨exec_injectLift_lifts found ended since, exec_injectLift_waits found ended since⟩⟩
  obtain ⟨r, -, rfl⟩ := List.mem_map.mp member
  rfl

/-! ### Injections (R418, R422) -/

section
variable {s : State} {tag : BitVec 6} {c : Cmd}

theorem exec_faultInjectArm_arms (ready : s.inject? tag 0 = some c)
    (few : (s.inj.list.filter (fun i => i.st != .ended)).length < s.liveN .injectMaxActive)
    (apart : ((s.inj.list.filter (fun i => i.st != .ended)).filter
      (fun i => slice i.fields 1 3 == slice (slice c.entry 40 24) 1 3)).length < 4) :
    exec (.faultInjectArm tag) s = .next (State.finish { s.measureInject c 7 with inj := ⟨s.inj.list
        ++ [⟨nextInjectId (s.inj.list.map (fun i => i.id)) 65536 s.inj.nextId, c.fn, slice c.entry 40 24, s.us, none, 0, .waiting, none, []⟩],
        nextInjectId (s.inj.list.map (fun i => i.id)) 65536 s.inj.nextId + 1⟩ } c.order .success
      (nextInjectId (s.inj.list.map (fun i => i.id)) 65536 s.inj.nextId)) := by
  show execFaultInjectArm tag s = _
  unfold execFaultInjectArm
  rw [ready]
  dsimp only
  rw [if_neg]
  · rfl
  · rintro (full | same)
    · exact Nat.not_le.mpr few full
    · exact Nat.not_le.mpr apart same

theorem exec_faultInjectCancel_ends (ready : s.inject? tag 1 = some c)
    (running : s.inj.list.any (fun i => i.id == leAt c.entry 62 2 && i.st != .ended) = true) :
    exec (.faultInjectCancel tag) s
      = .next (((s.measureInject c 7).endInject (leAt c.entry 62 2)).finish c.order .success (leAt c.entry 62 2)) := by
  show execFaultInjectCancel tag s = _
  unfold execFaultInjectCancel
  rw [ready]
  exact congrArg _ (if_pos running)

theorem exec_faultInjectCancelAll_ends (ready : s.inject? tag 2 = some c) : exec (.faultInjectCancelAll tag) s
    = .next (((s.inj.list.map (fun i => i.id)).foldl State.endInject (s.measureInject c 7)).finish c.order .success 0) := by
  show execFaultInjectCancelAll tag s = _
  unfold execFaultInjectCancelAll
  rw [ready]
  rfl

theorem exec_faultInjectList_writes (ready : s.inject? tag 3 = some c) : exec (.faultInjectList tag) s
    = .next (((s.measureInject c 7).hostWrite c 0 (s.measureInject c 7).injectList).finish c.order .success 0) := by
  show execFaultInjectList tag s = _
  unfold execFaultInjectList
  rw [ready]

/-- A raw word replaces the one stored at its offset (R424). -/
def State.putDiag (s : State) (w : DiagWord) : State :=
  { s with mem := { s.mem with diag := w :: s.mem.diag.filter (fun d => d.offset != w.offset) } }

theorem exec_diagRawWrite_stores (ready : s.inject? tag 4 = some c) (op : c.b 44 = 0) (block : Bytes) :
    exec (.diagRawWrite tag block) s = .next ((((s.measureInject c 7).measureInject c 8).putDiag
      ⟨leAt c.entry 48 8, (padTo 4096 block).take 64, slice (padTo 4096 block) 64 16⟩).finish c.order .success 0) := by
  show execDiagRawWrite tag block s = _
  unfold execDiagRawWrite
  rw [ready]
  dsimp only
  rw [if_neg (by simpa using op)]
  rfl

theorem exec_diagRawRead_answers (ready : s.inject? tag 4 = some c) (op : c.b 44 = 1) : ∃ page, exec (.diagRawRead tag) s
    = .next ((((s.measureInject c 7).measureInject c 8).hostWrite c 0 page).finish c.order .success 0) := by
  show ∃ page, execDiagRawRead tag s = _
  unfold execDiagRawRead
  rw [ready]
  dsimp only
  rw [if_neg (by simpa using op)]
  exact ⟨_, rfl⟩

end

section
variable {s : State} {id : BitVec 16} {i : Inject} (found : s.inj.list.find? (fun i => i.id == id.toNat) = some i)
include found

theorem exec_injectActionStart_acts (waits : i.st = .waiting) (due : i.armed + i.start ≤ s.us) (awake : s.sysHeld = false) :
    exec (.injectActionStart id) s
      = .next ((s.updInj i.id (fun i => { i with st := .acting, began := some s.us })).raise i.src .injectArmed i.id 0 0) := by
  show execInjectActionStart id s = _
  simp [execInjectActionStart, found, waits, due, awake]

theorem exec_injectDurationEnd_ends {k : Nat} (began : i.began = some k) (acts : i.st = .acting)
    (due : k + (if i.duration = 0 then s.liveN .injectMaxDurationS * 1000
      else min i.duration (s.liveN .injectMaxDurationS * 1000)) * 1000 ≤ s.us) :
    exec (.injectDurationEnd id) s = .next (s.endInject i.id) := by
  show execInjectDurationEnd id s = _
  unfold execInjectDurationEnd
  rw [found]
  dsimp only
  rw [began]
  dsimp only
  rw [if_pos (by simpa [acts] using due)]

end

theorem State.finish_mem {order : Nat} {s : State} (live : s.liveAt order) (st : Status) (result : Nat) :
    (s.finish order st result).mem = s.mem := by
  obtain ⟨l, ends⟩ := State.finish_of_live live st result
  rw [ends]

/-- Settles O47: an arm, a cancel and the diagnostic partition by their commands, what a start makes of its injection by its entry. -/
theorem injectionsRun : Obligations.InjectionsRun := by
  intro s
  refine ⟨fun tag c live => ?_, fun id i found => ⟨fun waits due awake => ⟨_, exec_injectActionStart_acts found waits due awake, ?_⟩,
    fun k began acts due => exec_injectDurationEnd_ends found began acts due⟩⟩
  · have measured (t : State) (cmds : t.host.cmds = s.host.cmds) : t.liveAt c.order := State.liveAt_of_cmds cmds live
    refine ⟨fun ready few apart => ⟨_, exec_faultInjectArm_arms ready few apart, State.finish_ended _ _ (measured _ (by simp)), by simp⟩,
      exec_faultInjectCancel_ends, exec_faultInjectCancelAll_ends,
      fun ready => ⟨_, exec_faultInjectList_writes ready, State.finish_ended _ _ (measured _ (by simp)), by simp⟩,
      fun ready => ⟨fun op block => ⟨_, exec_diagRawWrite_stores ready op block, State.finish_ended _ _ (measured _ ?_), ?_⟩,
        fun op => ?_⟩⟩
    · simp [State.putDiag]
    · rw [State.finish_mem (measured _ (by simp [State.putDiag]))]
      exact List.mem_cons_self
    · obtain ⟨page, run⟩ := exec_diagRawRead_answers ready op
      have lives := measured (((s.measureInject c 7).measureInject c 8).hostWrite c 0 page) (by simp)
      exact ⟨_, run, State.finish_ended _ _ lives, by simp [State.finish_mem lives]⟩
  · obtain ⟨-, -, -, -, -, -, -, -, -, inj, -⟩ := State.raise_frame
      (s.updInj i.id fun i => { i with st := .acting, began := some s.us }) i.src .injectArmed i.id 0 0
    rw [inj]
    exact ⟨_, List.mem_map_of_mem (List.mem_of_find?_eq_some found), by simp⟩

end Sys2Proof.Machine
end

section
/-! The list of injections that `IOP` 3 writes (O10). -/

namespace Sys2Proof.Machine

/-! ### Slices of padded strings and of entries of one size -/

/-- Within its length a padded string reads as the string and zeros after it. -/
theorem slice_padTo {m i n : Nat} (within : i + n ≤ m) (bs : Bytes) : slice (padTo m bs) i n = slice (bs ++ zeros (m - bs.length)) i n := by
  unfold slice padTo
  rw [List.drop_take, List.take_take, Nat.min_eq_left (by omega)]

/-- What stands before a slice's place takes no part in it. -/
theorem slice_drop {a : Bytes} {i : Nat} (before : a.length ≤ i) (b : Bytes) (n : Nat) : slice (a ++ b) i n = slice b (i - a.length) n := by
  unfold slice
  rw [List.drop_append, List.drop_of_length_le before, List.nil_append]

theorem slice_take {a : Bytes} {n : Nat} (size : a.length = n) (b : Bytes) : slice (a ++ b) 0 n = a := by
  rw [slice_left _ _ _ _ (by omega), ← size, slice_all]

/-- A slice within one of several entries of one size, whatever follows them. -/
theorem slice_flatMap {α : Type} {f : α → Bytes} {m : Nat} (size : ∀ y, (f y).length = m) {j n : Nat} (within : j + n ≤ m) (rest : Bytes)
    {l : List α} {k : Nat} {x : α} (at' : l[k]? = some x) : slice (l.flatMap f ++ rest) (m * k + j) n = slice (f x) j n := by
  induction l generalizing k with
  | nil => simp at at'
  | cons y l ih =>
    rw [List.flatMap_cons, List.append_assoc]
    cases k with
    | zero =>
      obtain rfl : y = x := by simpa using at'
      rw [Nat.mul_zero, Nat.zero_add, slice_left _ _ _ _ (by rw [size]; exact within)]
    | succ k =>
      rw [slice_drop (by rw [size, Nat.mul_succ]; omega), size, show m * (k + 1) + j - m = m * k + j by rw [Nat.mul_succ]; omega]
      exact ih (by simpa using at')

/-! ### The fields of an entry and of the block (R423) -/

theorem Inject.entry_length (i : Inject) : i.entry.length = 48 := padTo_length ..

/-- The fields of an entry, each at its place. -/
theorem Inject.entry_fields {i : Inject} (small : i.id < 65536) :
    leAt i.entry 0 2 = i.id
      ∧ leAt i.entry 2 1 = (match i.st with
        | .waiting => 0
        | .acting => 1
        | .ended => 2)
      ∧ leAt i.entry 3 1 = i.fn.val ∧ leAt i.entry 8 8 = i.acted % 2 ^ 64 ∧ slice i.entry 16 24 = padTo 24 i.fields := by
  unfold Inject.entry leAt
  refine ⟨?_, ?_, ?_, ?_, ?_⟩ <;> rw [slice_padTo (by decide)] <;> simp only [List.append_assoc]
  · rw [slice_take (leBytes_length ..), leNat_leBytes]
    exact Nat.mod_eq_of_lt small
  · rw [slice_drop (by simp), leBytes_length, Nat.sub_self, slice_take (leBytes_length ..), leNat_leBytes]
    cases i.st <;> rfl
  · simp (disch := simp) only [slice_drop, leBytes_length, Nat.reduceSub]
    rw [slice_take (leBytes_length ..), leNat_leBytes]
    omega
  · simp (disch := simp) only [slice_drop, leBytes_length, zeros_length, Nat.reduceSub]
    rw [slice_take (leBytes_length ..)]
    exact leNat_leBytes ..
  · simp (disch := simp) only [slice_drop, leBytes_length, zeros_length, Nat.reduceSub]
    rw [slice_take (padTo_length ..)]

/-- A field of a listed injection, as its entry has it. -/
theorem State.injectList_slice {s : State} {k : Nat} {i : Inject} (at' : s.listedInjects[k]? = some i) (fits : 32 + 48 * k + 48 ≤ 4096)
    {j n : Nat} (within : j + n ≤ 48) : slice s.injectList (32 + 48 * k + j) n = slice i.entry j n := by
  unfold State.injectList
  rw [slice_padTo (by omega), List.append_assoc, slice_drop (by rw [padTo_length]; omega), padTo_length,
    show 32 + 48 * k + j - 32 = 48 * k + j by omega, slice_flatMap Inject.entry_length within _ at']

/-- The block's head: its magic and the count of active injections. -/
theorem State.injectList_head (s : State) : slice s.injectList 0 4 = ascii "YXIJ"
    ∧ leAt s.injectList 4 4 = (s.inj.list.filter (fun i => i.st != .ended)).length % 2 ^ 32 := by
  unfold State.injectList leAt
  refine ⟨?_, ?_⟩ <;> rw [slice_padTo (by decide), List.append_assoc, slice_left _ _ _ _ (by rw [padTo_length]; decide), slice_padTo (by decide),
    List.append_assoc]
  · exact slice_take rfl _
  · rw [slice_drop (by decide), show 4 - (ascii "YXIJ").length = 0 by decide, slice_take (leBytes_length ..)]
    exact leNat_leBytes ..

theorem State.mem_listedInjects (s : State) (i : Inject) :
    i ∈ s.listedInjects ↔ i ∈ s.inj.list ∧ (i.st ≠ .ended ∨ s.holdsProv i = true) := by
  simp [State.listedInjects]

theorem State.finish_inj (s : State) (order : Nat) (st : Status) (result : Nat) : (s.finish order st result).inj = s.inj := by
  simp

/-- What an arm lists beside the injections that it finds (R418). -/
theorem exec_faultInjectArm_lists {s : State} {tag : BitVec 6} {c : Cmd} (ready : s.inject? tag 0 = some c) :
    ∃ t, exec (.faultInjectArm tag) s = .next t
      ∧ ∀ i ∈ t.inj.list, i ∈ s.inj.list ∨ (i.fn = c.fn ∧ i.fields = slice c.entry 40 24 ∧ i.acted = 0 ∧ i.st = .waiting) := by
  show ∃ t, execFaultInjectArm tag s = .next t ∧ _
  unfold execFaultInjectArm
  rw [ready]
  refine ⟨_, rfl, fun i member => ?_⟩
  dsimp only at member
  split at member
  · exact .inl (by simpa using member)
  · rw [State.finish_inj, List.mem_append, List.mem_singleton] at member
    rcases member with old | rfl
    · exact .inl (by simpa using old)
    · exact .inr ⟨rfl, rfl, rfl, rfl⟩

/-- Settles O10: the head by its bytes, an entry by the place of its fields. -/
theorem injectionListLayout : Obligations.InjectionListLayout := by
  intro s
  refine ⟨fun tag c ready => exec_faultInjectList_writes ready, fun tag c ready => exec_faultInjectArm_lists ready, s.mem_listedInjects,
    padTo_length .., s.injectList_head.1, s.injectList_head.2, fun k i at' fits small => ?_⟩
  have field {j n : Nat} (within : j + n ≤ 48) := State.injectList_slice at' fits within
  obtain ⟨id, st, fn, acted, fields⟩ := Inject.entry_fields small
  simp only [leAt] at id st fn acted ⊢
  rw [field (by decide), field (by decide), field (by decide), field (by decide), ← Nat.add_zero (32 + 48 * k), field (by decide)]
  exact ⟨id, st, fn, acted, fields⟩

end Sys2Proof.Machine
end
